-- ==== Sys2Proof/Word.lean ====
section
/-!
DEFINITION. The byte and the plainest arithmetic on numbers held in fixed widths: wrapping, saturating and signed
readings. Everything larger (multi-byte fields, check values) stands in Machine/Bytes.lean.
-/
namespace Sys2Proof

/-- One byte. -/
abbrev Byte := BitVec 8

/-- `n` kept in `w` bits (a field that wraps). -/
def wrap (w n : Nat) : Nat := n % 2 ^ w

/-- A counter of `w` bits that saturates: one more event. -/
def satInc (w n : Nat) : Nat := if n + 1 < 2 ^ w then n + 1 else 2 ^ w - 1

/-- A counter of `w` bits that saturates: `k` more events. -/
def satAdd (w n k : Nat) : Nat := if n + k < 2 ^ w then n + k else 2 ^ w - 1

/-- The signed number that the low `w` bits of `n` spell in two's complement. -/
def toSigned (w n : Nat) : Int :=
  if n % 2 ^ w < 2 ^ (w - 1) then (n % 2 ^ w : Nat) else (n % 2 ^ w : Nat) - (2 ^ w : Nat)

/-- The two's complement of `i` in `w` bits, as a number. -/
def ofSigned (w : Nat) (i : Int) : Nat := (i % ((2 ^ w : Nat) : Int)).toNat

/-- `i` clamped to `lo..hi`. -/
def clampInt (lo hi i : Int) : Int := if i < lo then lo else if hi < i then hi else i

/-- Division rounded to the nearest integer, halves upward.
DEDUCED, unsafe (log 81). -/
def roundDiv (n : Int) (d : Nat) : Int := (2 * n + d) / (2 * d : Nat)

end Sys2Proof
end

