-- ==== Sys2Proof/Syntax.lean ====
section
/-!
DEFINITION. The commands and events the block takes: the operand types, and `Instr`, one constructor per row of the
opcode table. An opcode row carries the command packet that runs; an event row carries what only the outside (a pin, an
analog quantity, the host's memory, the network) can say.
-/
namespace Sys2Proof

/-- The transport that delivered a packet (R51). -/
inductive Transport where
  | pcie | trdp | spi
deriving DecidableEq, Repr

/-- Where a TRDP reply goes (R59, Table 15.9): the requester's address, port and session. -/
structure Route where
  addr : Nat
  port : Nat
  session : List Byte
deriving DecidableEq, Repr

/-- How a packet came, which is also how its replies return (R51). `sqIndex` is 0xFFFF off PCIe (Table 15.9). -/
structure Via where
  transport : Transport
  sqIndex : Nat
  route : Route
deriving DecidableEq, Repr

/-- A command packet as an opcode row takes it: header fields of Table 2.1, the trailer and the payload bytes. -/
structure Cmd where
  via : Via
  tag : Nat
  queue : Nat
  seq : Nat
  unseq : Bool
  fence : Bool
  trailer : Nat
  payload : List Byte
deriving DecidableEq, Repr

/-- What reading a journal write back gave, per bank and try (R392); `true`: read back correct. -/
structure ReadBack where
  a1 : Bool
  a2 : Bool
  b1 : Bool
  b2 : Bool
deriving DecidableEq, Repr

/-- A TRDP message as the network logic delivers it (R59, R367). -/
structure TrdpMessage where
  src : Nat
  srcPort : Nat
  comId : Nat
  msgType : Nat
  etbTopoCnt : Nat
  opTrnTopoCnt : Nat
  session : List Byte
  data : List Byte
deriving DecidableEq, Repr

/-- A switched power domain (Table 1.6). -/
inductive Domain where
  | tileFabric (t : Nat) | tileSram (t : Nat) | cluster (k : Nat) | engine (g : Nat) | emitterDac (k : Nat)
  | excDac | galvoDac | filter | motion | aux | phy (p : Nat) | network | supervisor (p : Nat)
deriving DecidableEq, Repr

/-- The data set of a grandmaster, as the best master clock algorithm compares it (R365). -/
structure GmData where
  priority1 : Nat
  clockClass : Nat
  accuracy : Nat
  variance : Nat
  priority2 : Nat
  identity : Nat
  steps : Nat
deriving DecidableEq, Repr

/-- What a PTP message says (R363 to R365). Intervals are logarithms of seconds; `origin` is the master's time of a
Sync, corrected, in units of 2^-64 s, as are the other times; `requestReceived` is a Pdelay_Req, with its sequenceId and its sender's port
identity. A Delay_Resp says when the master received the Delay_Req of that sequenceId; a Pdelay_Resp when the peer received the
Pdelay_Req, and
its follow-up when the response departed. -/
inductive PtpKind where
  | announce (gm : GmData) (logInterval : Int)
  | sync (origin : Nat) (logInterval : Int)
  | delayResponse (sequence receipt : Nat)
  | pdelayResponse (sequence receipt : Nat)
  | pdelayFollowUp (sequence departed : Nat)
  | requestReceived (sequence : Nat) (requester : List Byte)
deriving DecidableEq, Repr

/-- A PTP message at a port (0 A, 1 B). -/
structure PtpMessage where
  port : Nat
  profile : Nat
  domain : Nat
  kind : PtpKind
deriving DecidableEq, Repr

/-- What a received Ethernet frame carries (R358, R362, R367). Addresses stand in the form of Table 15.4. -/
inductive FrameKind where
  | arpRequest (sender : List Byte) (target : List Byte)
  | arpReply (addr : List Byte) (mac : List Byte)
  | neighbourSolicit (sender : List Byte) (target : List Byte)
  | neighbourAdvert (addr : List Byte) (mac : List Byte)
  | echoRequest (v6 : Bool) (from_ : List Byte) (payload : List Byte)
  | fragment (src ident offset : Nat) (last : Bool) (payload : List Byte)
  | pause
  | supervision
  | ptp
  | other
deriving DecidableEq, Repr

/-- A received Ethernet frame; `rct` is a valid redundancy trailer's SequenceNr and LanId. -/
structure NetFrame where
  dst : List Byte
  src : List Byte
  vlan : Option Nat
  rct : Option (Nat × Nat)
  fcsOk : Bool
  kind : FrameKind
deriving DecidableEq, Repr

/-- What the scrubber finds in a word (R387 to R389): the symbols of the (144,128) code that are wrong, 0 to 31 the data symbols
and 32 to 35 the check symbols; `written` is false when a functional write came before the write-back. -/
structure ScrubResult where
  wrong : List Nat
  written : Bool
deriving DecidableEq, Repr

/-- A copy in a retention bank that fails its ECC or its trailer as a replay reads it (R393): an entry, by its journal index, or a
word of the control area. -/
inductive BadCopy where
  | entry (bank jix : Nat)
  | control (bank : Nat)
deriving DecidableEq, Repr

/-- A pass through the boundary-scan chain (R457): the levels that come from outside to the balls of the cells, and the bits shifted in. -/
structure JtagScan where
  outside : List Bool
  shifted : List Bool
deriving DecidableEq, Repr

/-- What the host writes to PCIe configuration space once the endpoint is out of reset (R52, Table 2.7): the base of BAR0, memory space and
bus master enabled, MSI-X enabled, and the payload and read request sizes in bytes. -/
structure PcieConfig where
  bar0 : Nat
  memory : Bool
  master : Bool
  msix : Bool
  maxPayload : Nat
  maxRead : Nat
deriving DecidableEq, Repr

/-- A level of PCIE_PERST_N (R455); the high one with what the host then configures. -/
inductive Perst where
  | low
  | high (config : PcieConfig)
deriving DecidableEq, Repr

/-- A copy in a retention bank that passes its checks and differs from what the device wrote last (R393): an entry with the STATE of
Table 15.9 that the copy shows, or the NEXT_SEQ of a queue. -/
inductive OddCopy where
  | entry (bank jix state : Nat)
  | nextSeq (bank queue value : Nat)
deriving DecidableEq, Repr

/-- What an access to a histogram buffer meets (R273): an error of a word that the code corrects or does not, or a parity error of a
row's valid bit. Words and rows are numbered within the buffer. -/
inductive EccFault where
  | corrected (word : Nat)
  | uncorrectable (word : Nat)
  | rowInvalid (row : Nat)
deriving DecidableEq, Repr

/-- An error that a kernel pass of a chain meets: the position in the chain of the first kernel whose access finds it (R273). -/
structure PassFault where
  pass : Nat
  fault : EccFault
deriving DecidableEq, Repr

/-- Why a chain was abandoned by the engine's own checks (R288), and what its passes had met until then. -/
structure EngineStop where
  cause : Nat
  faults : List PassFault
deriving DecidableEq, Repr

/-- What the hardware finds while a cold start runs (R407 to R409, R412, R456): pin levels, self-checks, memory-test
faults by row of Table 1.5 and by physical resource (a row of the histogram SRAM as tile, bank of the tile and row), the
measured pace of each tile, and the pair (q1, span) that each lane's warm-up ends with, none without 16 accepts in a row. -/
structure ColdStart where
  factoryTest : Bool
  romOk : Bool
  crystalOk : Bool
  standbyOk : Bool
  filterOk : Bool
  faultRows : List Nat
  badSramRows : List (Nat × Nat × Nat)
  badEngines : List Nat
  badCores : List Nat
  badFes : List Nat
  paceFull : List Nat
  lanes : List (Option (Nat × Nat))
deriving DecidableEq, Repr


/-- The rows of the opcode table, in its order. -/
inductive Instr where
  /-- SQ_DOORBELL (R55): Host writes a queue's SQ_DOORBELL with a new submission-ring tail index. -/
  | sqDoorbell (q : Nat) (value : Nat)
  /-- DESCRIPTOR_FETCH (R55): While the queue has credits and live-area room, the device fetches a submission entry
  and reads its packet from host memory. -/
  | descriptorFetch (q : Nat) (readError : Bool) (desc : List Byte) (packet : List Byte)
  /-- HOLD_EXPIRE (R40): A held packet whose gap is not filled within 10 ms is rejected with ST_SEQUENCE 0x04 and
  its tag is freed. -/
  | holdExpire (q : Nat) (seq : Nat)
  /-- JOURNAL_ACCEPT (R392): The journal entry and NEXT_SEQ are written and read back in both banks, the command is
  accepted and its interim reply is sent. -/
  | journalAccept (q : Nat) (rb : ReadBack)
  /-- REPLY_RING_WRITE (R57): When the reply ring has room, the device writes reply data and a reply entry and frees
  the tag. -/
  | replyRingWrite (q : Nat)
  /-- RQ_DOORBELL (R57): Host writes RQ_DOORBELL to free reply ring entries. -/
  | rqDoorbell (q : Nat) (value : Nat)
  /-- Q_ENABLE (R54): Host sets Q_CTRL ENABLE; the queue starts fetching, or records Q_ERROR 0x06, or resumes past a
  faulty entry. -/
  | qEnable (q : Nat)
  /-- Q_DISABLE (R54): Host clears Q_CTRL ENABLE; fetching stops while fetched commands complete. -/
  | qDisable (q : Nat)
  /-- INT_STATUS_CLEAR (R53): Host writes 1s to INT_STATUS to clear interrupt bits. -/
  | intStatusClear (mask : Nat)
  /-- REGISTER_WRITE (R53): Host writes a PCIe window register with no behaviour of its own, subject to the in-use
  rules. -/
  | registerWrite (offset : Nat) (value : Nat)
  /-- PCIE_PERST (R455): PCIE_PERST_N changes level, resetting or releasing the PCIe endpoint only. -/
  | pciePerst (level : Perst)
  /-- TRDP_MR_RECEIVE (R367): A TRDP Mr message is filtered by topology and source and its Maelei packet is passed
  to receipt. -/
  | trdpMrReceive (m : TrdpMessage)
  /-- REASM_TIMEOUT (R367): A fragmented message datagram not complete within 50 ms is discarded and REASM_FAIL set.
  -/
  | reasmTimeout (context : Nat)
  /-- SPI_WRITE_PACKET (R61): SPI WRITE_PACKET transfer delivers a packet, or sets FRAME_ERR when busy or too long.
  -/
  | spiWritePacket (bytes : List Byte)
  /-- SPI_READ_STATUS (R60): SPI READ_STATUS returns the status byte and oldest reply length, clearing FRAME_ERR. -/
  | spiReadStatus
  /-- SPI_READ_REPLY (R61): SPI READ_REPLY returns the oldest reply; a complete read frees its slot. -/
  | spiReadReply (complete : Bool)
  /-- SPI_UNKNOWN_INSTRUCTION (R61): An unknown SPI instruction is ignored until SPI_CS_N rises and FRAME_ERR is
  set. -/
  | spiUnknownInstruction (code : Nat)
  /-- NOP (R63): NOP command does nothing and completes OK. -/
  | nop (c : Cmd)
  /-- GET_INFO (R64): GET_INFO returns the 64-byte device information block. -/
  | getInfo (c : Cmd)
  /-- ECHO (R63): ECHO returns up to 254 payload units. -/
  | echo (c : Cmd)
  /-- RESET_WARM (R65): RESET_WARM withholds credits, waits for earlier commands and then causes a warm start. -/
  | resetWarm (c : Cmd)
  /-- SEQ_SET (R66): SEQ_SET sets NEXT_SEQ of its queue, rejects held packets and clears the duplicate window. -/
  | seqSet (c : Cmd)
  /-- QUEUE_BIND (R67): QUEUE_BIND sets the transport mask of a queue. -/
  | queueBind (c : Cmd)
  /-- SUPERVISOR_MISMATCH (R21): The active pair's lockstep comparison fails; it is stopped, credits withheld and
  the standby pair promoted. -/
  | supervisorMismatch
  /-- TAKEOVER_COMPLETE (R21): The promoted pair finishes its journal replay and resumes accepting packets. -/
  | takeoverComplete (bad : List BadCopy) (odd : List OddCopy)
  /-- PACE_GATE (R18): Every 100 µs each pace line is counted over a 5 µs gate and tile and device pace are derived.
  -/
  | paceGate (countsA : List Nat) (countsB : List Nat)
  /-- TILE_VOLTAGE_STEP_DOWN (R27): Once per millisecond a regulator steps down one step while pace exceeds the need
  by over 5 %. -/
  | tileVoltageStepDown (tile : Nat)
  /-- DOMAIN_SETTLED (R26): A waking domain becomes awake and settled. -/
  | domainSettled (dom : Domain)
  /-- DOMAIN_SLEEP (R26): A domain sleeps 1 ms after neither set refers to it. -/
  | domainSleep (dom : Domain)
  /-- SHOT_PLAN (R188): Minuet computes a shot's firing tick and places its descriptor in the emitter queue. -/
  | shotPlan (view : Nat) (cell : Nat)
  /-- SHOT_FIX (R228): 1.0 µs before its stamp a descriptor is fixed and the ledger checks and reserves its charge.
  -/
  | shotFix (emitter : Nat)
  /-- WINDOW_START (R103): At t0 − 240 ns the window descriptor is taken, discriminators blanked, thresholds loaded
  and lane references started. -/
  | windowStart (emitter : Nat)
  /-- CAL_ACCEPT (R111): At t0 − 80 ns each lane's calibration is accepted or held. -/
  | calAccept (lane : Nat) (ones : List Nat) (twos : List Nat) (fes : List (Nat × Nat))
  /-- LANE_STALE (R112): A lane without an accepted result for 64 windows becomes CAL_STALE. -/
  | laneStale (lane : Nat)
  /-- LANE_FAILED (R112): A lane without an accepted result for 4096 windows, or failing warm-up, is reported failed
  and its channels leave service. -/
  | laneFailed (lane : Nat)
  /-- LANE_WARMUP_DONE (R113): A lane reaches 16 consecutive accepts in its warm-up and becomes ready. -/
  | laneWarmupDone (lane : Nat)
  /-- THRESH_READBACK (R246): At t0 − 60 ns each threshold DAC is compared with its reference. -/
  | threshReadback (channel : Nat) (code : Nat)
  /-- BLANKING_RELEASE (R103): At t0 − 40 ns blanking is released and pre-start counting begins. -/
  | blankingRelease (channel : Nat) (high : Bool)
  /-- SHOT_FIRE (R29): At t0 the coarse counter starts, the DAC starts the slot and the shot header enters the
  ingress buffers. -/
  | shotFire (emitter : Nat) (eccBad : Bool)
  /-- SLOT_END (R216): After sample 255 the slot ends at park code and the core returns to range ×1. -/
  | slotEnd (emitter : Nat)
  /-- HISTOGRAM_RANGE_END (R103): The histogram range ends, the trailer enters the ingress buffer and the ambient
  span begins. -/
  | histogramRangeEnd (channel : Nat)
  /-- AMBIENT_SPAN_END (R251): The ambient span ends and the ambient record is sent with its window number. -/
  | ambientSpanEnd (channel : Nat)
  /-- COARSE_OVF (R104): The coarse counter passes 0xFFFF, ending the ambient span and counting later edges as
  untimed. -/
  | coarseOvf (channel : Nat)
  /-- T0_IN_EDGE (R114): A T0_IN edge is stamped by the T0 lane and attributed to a shot. -/
  | t0InEdge (coarse : Nat) (raw : Nat) (charge : Nat)
  /-- T0_TIMEOUT (R116): 52 ticks after t0 without an attributable edge, the T0 value is resolved as MISSING or
  AMBIGUOUS. -/
  | t0Timeout (emitter : Nat)
  /-- DISCRIMINATOR_EDGE (R250): A rising discriminator edge is timed and disposed of as Table 9.2 states. -/
  | discriminatorEdge (channel : Nat) (coarse : Nat) (raw : Nat)
  /-- DISCRIMINATOR_FALL (R248): The discriminator falls or ToT measurement stops, and the weighted event record
  enters the ingress buffer. -/
  | discriminatorFall (channel : Nat) (tot : Nat)
  /-- LONG_HIGH (R249): The discriminator stays high longer than LONG_HIGH. -/
  | longHigh (channel : Nat)
  /-- INGRESS_ENTRY (R274): An ingress entry leaves its buffer and its records are added to the histogram buffer. -/
  | ingressEntry (channel : Nat) (parityBad : Bool) (faults : List EccFault)
  /-- TRAILER_MERGE (R276): A trailer marker is merged; when it is the cell's last, the channel's histogram closes
  and joins its view's queue. -/
  | trailerMerge (channel : Nat)
  /-- CHAIN_START (R283): A free engine takes the oldest histogram of its view's queue and starts the kernel chain.
  -/
  | chainStart (engine : Nat)
  /-- CHAIN_END (R285): A chain ends and its records and field results are released in close order. -/
  | chainEnd (engine : Nat) (faults : List PassFault)
  /-- ENGINE_FAULT (R288): An engine check fails; the chain is abandoned and the engine taken out of service. -/
  | engineFault (engine : Nat) (stop : EngineStop)
  /-- FIELD_DEADLINE (R200): 1 ms after a cell's last shot without its K_ZONE result, the cell is unobserved and
  FIELD_LATE set. -/
  | fieldDeadline (view : Nat) (cell : Nat)
  /-- FRAME_CLOSE_TIMEOUT (R312): 100 µs after its first record, an open frame closes. -/
  | frameCloseTimeout (stream : Nat)
  /-- FRAME_TRANSMIT (R359): The MAC sends a queued frame on a port in strict priority order. -/
  | frameTransmit (port : Nat)
  /-- FRAME_TX_COMPLETE (R403): A point frame's transmission ends on every carrying port and the egress buffer
  releases it. -/
  | frameTxComplete (port : Nat)
  /-- NEAR_FIELD_REGISTER (R195): The near-field count of a shot is reached; NEAR_FIELD is registered and a sector
  blocked. -/
  | nearFieldRegister (emitter : Nat)
  /-- NEAR_FIELD_CLEAR (R192): NEAR_FIELD clears 2 µs after its latest registration. -/
  | nearFieldClear
  /-- NF_SECTOR_RELEASE (R196): A blocked sector is released at the NF_HOLD_REVS-th revolution boundary. -/
  | nfSectorRelease (index : Nat)
  /-- REVOLUTION_BOUNDARY (R5): The tracked angle passes 0; boundary-keyed actions such as table replacement, Bezel
  and K_RAIN updates and CAM_CONFIG take effect. -/
  | revolutionBoundary
  /-- SET_SWAP (R87): An armed swap occurs at a qualifying revolution boundary, or at a 10 kHz strobe under R86, and
  the epoch advances. -/
  | setSwap
  /-- SHADOW_COPY_COMPLETE (R83): The copy of the new active set into the shadow set completes and waiting shadow
  writes proceed. -/
  | shadowCopyComplete
  /-- VIEW_RELEASE (R81): A retiring view's last chains end and its engines, table space and slot are released. -/
  | viewRelease (view : Nat)
  /-- VIEW_CREATE (R74): VIEW_CREATE admits a new view into the shadow set and issues its handle. -/
  | viewCreate (c : Cmd)
  /-- VIEW_DESTROY (R81): VIEW_DESTROY makes a handle stale and removes or retires the view. -/
  | viewDestroy (c : Cmd)
  /-- VIEW_QUERY (R80): VIEW_QUERY returns a view's state and binding in a selected set. -/
  | viewQuery (c : Cmd)
  /-- VIEW_PARAM (R79): VIEW_PARAM writes part of a kernel parameter block in the shadow set. -/
  | viewParam (c : Cmd)
  /-- VIEW_UPDATE (R78): VIEW_UPDATE replaces a live view's shadow binding. -/
  | viewUpdate (c : Cmd)
  /-- SET_COMMIT (R85): SET_COMMIT arms a swap of the shadow set. -/
  | setCommit (c : Cmd)
  /-- SET_ABORT (R91): SET_ABORT makes the shadow set equal to the active set. -/
  | setAbort (c : Cmd)
  /-- SET_READ (R92): SET_READ returns a set's summary block. -/
  | setRead (c : Cmd)
  /-- PLL_UNLOCK (R97): PLL lock is lost; emission is inhibited, windows close and device time degrades. -/
  | pllUnlock
  /-- XO_STOP (R97): The crystal stops; time continues on the RC oscillator and Pavane starts. -/
  | xoStop
  /-- PLL_RELOCK (R97): The PLL relocks and TICK_COUNT resumes. `cycles`: the crystal cycles counted since the unlock. -/
  | pllRelock (cycles : Nat)
  /-- PLL_LOCK_HOLD (R97): After 100 µs of held lock with lanes calibrated, the PLL inhibit source and TIME_DEGRADED
  clear. -/
  | pllLockHold
  /-- FREQ_ERR_INTERVAL (R99): At the end of each 10-minute LOCKED interval FREQ_ERR is formed and a retrim may be
  requested. -/
  | freqErrInterval
  /-- XO_TRIM_RAMP_STEP (R99): Every 100 µs of a retrim ramp XO_TRIM moves one code. -/
  | xoTrimRampStep
  /-- PTP_MESSAGE_RECEIVE (R363): A PTP message is received and time-stamped on a port. -/
  | ptpMessageReceive (m : PtpMessage)
  /-- PTP_HOLDOVER_TIMEOUT (R102): No sample for 4 s while LOCKED puts device time in HOLDOVER. -/
  | ptpHoldoverTimeout
  /-- PTP_SYNC_TIMEOUT (R365): The selected port misses 3 Sync intervals and the other slave port is selected. -/
  | ptpSyncTimeout
  /-- EXC_SHORT (R124): EXC output reaches 40 mA; it is limited and parked and lock is lost with EXC_FAULT. -/
  | excShort
  /-- EXC_CHANGE (R125): At the first positive zero crossing a pending excitation change takes effect with a
  synchronising reset. -/
  | excChange
  /-- FILTER_OUTPUT (R126): The filter engine delivers a demodulated carrier output for a slot. `samples`: the slot's modulator bits of
  the demodulation step that has ended, oldest first; `test`: they come from its test source (R131); `stamp`: the fine step at which
  the window ended. -/
  | filterOutput (slot : Nat) (samples : List Bool) (test : Bool) (stamp : Nat)
  /-- GALVO_FILTER_OUTPUT (R132): The galvo path delivers GPA and GPB outputs for a 40 kHz strobe. `gpa`, `gpb`: the 512 modulator
  bits of each input up to its window's end, oldest first; `test`: they come from the test sources (R131). -/
  | galvoFilterOutput (gpa : List Bool) (gpb : List Bool) (test : Bool)
  /-- TRACKING_UPDATE (R136): The tracking converter runs one update on a settled SIN/COS pair and publishes angle
  and speed. -/
  | trackingUpdate
  /-- LOCK_ACQUIRED (R143): 64 qualifying updates in ACQUIRE put the converter in LOCKED. -/
  | lockAcquired
  /-- STUCK_MODULATOR (R144): 1024 identical modulator samples fail the stuck-modulator test. -/
  | stuckModulator (slot : Nat)
  /-- COAST_TIMEOUT (R144): COAST lasts longer than COAST_MAX and the converter enters LOST. -/
  | coastTimeout
  /-- SPEED_CHECK_GATE (R145): A speed-check regression gate closes and the fitted speed is compared with the
  tracked speed. -/
  | speedCheckGate
  /-- CYC_LEARN_PASS_END (R141): A cyclic-error learning pass ends and its table is fitted, applied or discarded. -/
  | cycLearnPassEnd
  /-- ENC_OVERRATE (R148): The encoder generator falls more than 4 states behind and freezes. -/
  | encOverrate
  /-- CAM_TRIG_EDGE (R150): A camera trigger pulse starts LEAD before a predicted crossing. -/
  | camTrigEdge (pin : Nat)
  /-- CAM_TRIG_PULSE_END (R150): A camera trigger pulse ends after WIDTH. -/
  | camTrigPulseEnd (pin : Nat)
  /-- ANGLE_CONFIG (R153): ANGLE_CONFIG sets excitation, filter, tracking and loss parameters. -/
  | angleConfig (c : Cmd)
  /-- ANGLE_FRAME (R154): ANGLE_FRAME sets the zero offset and direction. -/
  | angleFrame (c : Cmd)
  /-- FILTER_SYNC (R154): FILTER_SYNC requests a synchronising reset at the next positive zero crossing. -/
  | filterSync (c : Cmd)
  /-- CYC_LEARN (R141): CYC_LEARN starts a learning pass at the next boundary. -/
  | cycLearn (c : Cmd)
  /-- CYC_SELECT (R154): CYC_SELECT disables, selects or erases the cyclic-error table. -/
  | cycSelect (c : Cmd)
  /-- ENC_CONFIG (R147): ENC_CONFIG configures encoder emulation. -/
  | encConfig (c : Cmd)
  /-- CAM_CONFIG (R154): CAM_CONFIG configures one camera trigger pin. -/
  | camConfig (c : Cmd)
  /-- ANGLE_STATUS (R154): ANGLE_STATUS returns angle status and clears sticky flags. -/
  | angleStatus (c : Cmd)
  /-- SPINDLE_SAMPLE (R158): At each 10 kHz strobe the spindle sample runs and an MDRV downlink frame starts. -/
  | spindleSample (finished : Bool)
  /-- GALVO_SAMPLE (R158): At each 40 kHz strobe the galvo sample releases its demand to the GALVO DAC. -/
  | galvoSample (finished : Bool)
  /-- MDRV_UPLINK_RECEIVE (R161): An uplink frame from the drive is received and validated. -/
  | mdrvUplinkReceive (bytes : List Byte)
  /-- MDRV_UPLINK_TIMEOUT (R161): No valid uplink by s + 60 µs counts a missed frame. -/
  | mdrvUplinkTimeout
  /-- GALVO_SHORT (R163): GALVO output reaches 40 mA; it is limited and parked and LINK is raised. -/
  | galvoShort
  /-- INJECT_END (R177): A test-signal injection ends after DURATION samples. -/
  | injectEnd (loop : Nat)
  /-- CAMEO_CAPTURE_COMPLETE (R178): A Cameo capture fills the buffer after its trigger and CAMEO_ARM completes. -/
  | cameoCaptureComplete
  /-- LOOP_CONFIG (R180): LOOP_CONFIG writes a loop's configuration into the shadow set. -/
  | loopConfig (c : Cmd)
  /-- LOOP_COEFF (R181): LOOP_COEFF writes a loop's coefficient blocks into the shadow set. -/
  | loopCoeff (c : Cmd)
  /-- CTRL_INJECT (R177): CTRL_INJECT starts a sine, sweep or PRBS injection on a closed loop. -/
  | ctrlInject (c : Cmd)
  /-- CTRL_INJECT_STOP (R182): CTRL_INJECT with SHAPE STOP ends a running injection. -/
  | ctrlInjectStop (c : Cmd)
  /-- CAMEO_ARM (R178): CAMEO_ARM arms a capture on one loop. -/
  | cameoArm (c : Cmd)
  /-- CAMEO_STOP (R178): CAMEO_ARM with TRIGGER STOP ends a running capture. -/
  | cameoStop (c : Cmd)
  /-- CAMEO_READ (R182): CAMEO_READ returns capture samples. -/
  | cameoRead (c : Cmd)
  /-- CTRL_STATUS (R175): CTRL_STATUS returns loop status, clears sticky flags and may clear a latched fault. -/
  | ctrlStatus (c : Cmd)
  /-- MOTION_RECORD (R182): MOTION_RECORD sets galvo position scaling, MDRV loss and start settings. -/
  | motionRecord (c : Cmd)
  /-- ZONE_READBACK_FAULT (R204): A zone output's readback differs for over 10 µs; ZONE_OUT_FAULT latches and both
  outputs go low. -/
  | zoneReadbackFault
  /-- TEST_PULSE_START (R203): A clear zone output begins its TP_WIDTH low test pulse. -/
  | testPulseStart (output : Nat)
  /-- TEST_PULSE_END (R203): A zone test pulse ends. -/
  | testPulseEnd (output : Nat)
  /-- ZONE_SNAPSHOT (R205): Every 10 ms the field logic produces a snapshot. -/
  | zoneSnapshot
  /-- ZONE_WDOG (R205): Two consecutive missing snapshots drive both zone outputs low. -/
  | zoneWdog
  /-- ZONE_TELEGRAM_SEND (R206): The MAC builds and sends the zone telegram as TRDP process data. -/
  | zoneTelegramSend
  /-- FIRE_TABLE (R209): FIRE_TABLE writes a view's firing table into the shadow set. -/
  | fireTable (c : Cmd)
  /-- NEARFIELD_CONFIG (R195): NEARFIELD_CONFIG writes near-field monitor settings. -/
  | nearfieldConfig (c : Cmd)
  /-- FIELD_DEFINE (R210): FIELD_DEFINE defines or deletes a protection field. -/
  | fieldDefine (c : Cmd)
  /-- ZONE_CONFIG (R211): ZONE_CONFIG sets the zone map and test pulses. -/
  | zoneConfig (c : Cmd)
  /-- SCHED_CONFIG (R211): SCHED_CONFIG sets pace margin and emitter ceiling. -/
  | schedConfig (c : Cmd)
  /-- EMIT_HOLD (R211): EMIT_HOLD registers or releases the HOST inhibit source. -/
  | emitHold (c : Cmd)
  /-- SHOT_STATUS (R211): SHOT_STATUS returns shot status and clears sticky flags. -/
  | shotStatus (c : Cmd)
  /-- ZONE_STATUS (R204): ZONE_STATUS returns zone status and may clear ZONE_OUT_FAULT. -/
  | zoneStatus (c : Cmd)
  /-- WAVE_LOAD (R218): WAVE_LOAD writes a waveform slot. -/
  | waveLoad (c : Cmd)
  /-- WAVE_LOAD_CLEAR (R240): WAVE_LOAD with CLEAR empties a slot. -/
  | waveLoadClear (c : Cmd)
  /-- WAVE_TRANSFER (R219): A slot write is applied in a gap of the core. -/
  | waveTransfer (emitter : Nat) (slot : Nat)
  /-- WAVE_READ (R240): WAVE_READ returns a slot and its charge. -/
  | waveRead (c : Cmd)
  /-- WAVE_FADE (R224): WAVE_FADE starts a cross-fade from one slot to another. -/
  | waveFade (c : Cmd)
  /-- FADE_COPY (R224): After the last fade shot DST is copied into SRC in the next gap. -/
  | fadeCopy (emitter : Nat)
  /-- PARK_SET (R241): PARK_SET stores a park code. -/
  | parkSet (c : Cmd)
  /-- EMIT_DIRECT (R221): EMIT_DIRECT drives one emitter at a constant code. -/
  | emitDirect (c : Cmd)
  /-- EMIT_DIRECT_STOP (R241): EMIT_DIRECT with STOP parks the emitter. -/
  | emitDirectStop (c : Cmd)
  /-- DIRECT_PLAY_END (R221): Direct play ends after DURATION ticks. -/
  | directPlayEnd (emitter : Nat)
  /-- LEDGER_UNLOCK_CHALLENGE (R236): LEDGER_UNLOCK STEP 0 draws and returns a challenge. -/
  | ledgerUnlockChallenge (c : Cmd)
  /-- LEDGER_UNLOCK_RESPONSE (R236): LEDGER_UNLOCK STEP 1 checks the response and opens the unlock or counts a
  failure. -/
  | ledgerUnlockResponse (c : Cmd)
  /-- UNLOCK_EXPIRE (R236): An open unlock closes after 10 s. -/
  | unlockExpire
  /-- UNLOCK_LOCKOUT_END (R236): The 60 s lockout after three wrong responses ends. -/
  | unlockLockoutEnd
  /-- LEDGER_WRITE (R235): LEDGER_WRITE stores a new ledger table. -/
  | ledgerWrite (c : Cmd)
  /-- LEDGER_READ (R241): LEDGER_READ returns the table or the levels. -/
  | ledgerRead (c : Cmd)
  /-- RES_CONFIG (R237): RES_CONFIG enables or disables a reservoir. -/
  | resConfig (c : Cmd)
  /-- EMIT_STATUS (R223): EMIT_STATUS returns emission status, clears sticky flags and may clear emitter faults. -/
  | emitStatus (c : Cmd)
  /-- EMITTER_SHORT (R223): An emitter output reaches 40 mA; it is limited, parked and FAULTED. -/
  | emitterShort (emitter : Nat)
  /-- LEDGER_BUCKET_EDGE (R227): A ledger bucket edge advances a window's buckets. -/
  | ledgerBucketEdge (window : Nat)
  /-- EMIT_EN_EDGE (R232): An EMIT_EN input level is registered; a low registers the EMIT_EN cause. -/
  | emitEnEdge (a : Bool) (b : Bool)
  /-- EMIT_EN_CLEAR (R232): Both inputs high for 10 ms without discrepancy clears EMIT_EN. -/
  | emitEnClear
  /-- EN_DISCREPANCY (R232): The inputs differ for 50 ms and EN_DISCREPANCY sets. -/
  | enDiscrepancy
  /-- EN_DISCREPANCY_CLEAR (R232): Both inputs low for 10 ms clears EN_DISCREPANCY. -/
  | enDiscrepancyClear
  /-- SPEED_LOW_CLEAR (R233): 64 consecutive updates above the resume speed clear SPEED_LOW. -/
  | speedLowClear
  /-- RES_MON_SAMPLE (R237): A reservoir voltage sample drives the charger enable. -/
  | resMonSample (reservoir : Nat) (millivolts : Nat)
  /-- RES_OVER (R238): Reservoir voltage above trip for 10 µs stops charging and registers LEDGER. -/
  | resOver (reservoir : Nat)
  /-- RES_LOW (R238): Reservoir voltage below 3/4 V_SET for 10 ms sets RES_LOW. -/
  | resLow (reservoir : Nat)
  /-- RX_OVERLOAD (R257): The input clamp conducts over 2 mA for 1 µs. -/
  | rxOverload (channel : Nat)
  /-- RX_SILENT (R257): No edge in 65 536 qualifying windows sets RX_SILENT. -/
  | rxSilent (channel : Nat)
  /-- BIAS_TARGET_COMPUTE (R253): Every 100 ms the bias target is computed from temperature. -/
  | biasTargetCompute
  /-- BIAS_STEP (R253): Every 100 µs HVB_SET moves towards its target. -/
  | biasStep
  /-- BIAS_SETTLED (R253): 5 ms after the bias returns within 50 mV, BIAS_UNSETTLED clears. -/
  | biasSettled
  /-- BIAS_TEMP_TIMEOUT (R254): No valid temperature reading for 1 s holds the bias target. -/
  | biasTempTimeout
  /-- BIAS_FAULT (R254): A monitor mismatch for 1 s sets BIAS_FAULT and drops HVB_SET to 0 V. -/
  | biasFault
  /-- RX_CONFIG (R261): RX_CONFIG writes channel settings into the shadow set. -/
  | rxConfig (c : Cmd)
  /-- BIAS_CONFIG (R262): BIAS_CONFIG configures SiPM bias. -/
  | biasConfig (c : Cmd)
  /-- RX_STATUS (R263): RX_STATUS returns channel and bias status and clears sticky flags. -/
  | rxStatus (c : Cmd)
  /-- FRONT_END_SWITCH (R259): At the next cell's blanking the steering matrix switches the channel to its spare
  front end. -/
  | frontEndSwitch (channel : Nat)
  /-- TRACKER_GATE_CLOSE (R325): A foreign tracker's gate closes and its fit locks, holds or returns it to IDLE. -/
  | trackerGateClose (tile : Nat) (tracker : Nat)
  /-- WEATHER_UPDATE (R333): Every second each tile derives precipitation and fog figures and its weather class. -/
  | weatherUpdate
  /-- AUX_MEASUREMENT_DONE (R338): A measurement's conversions complete and its result is stamped. -/
  | auxMeasurementDone (code1 : Int) (code2 : Int) (compliance : Bool)
  /-- AUX_OFFSET_CAL (R346): A periodic offset calibration runs at a gain. -/
  | auxOffsetCal (gain : Nat) (code : Int)
  /-- HEAT_PWM_PERIOD (R349): A new HEAT PWM period starts with the current duty. -/
  | heatPwmPeriod
  /-- SHOCK (R343): The charge amplifier reaches SHOCK_LEVEL. -/
  | shock (charge : Int)
  /-- PIEZO_RESET (R343): The charge amplifier's reset switch discharges C_F. -/
  | piezoReset
  /-- AUX_MEAS_CONFIG (R354): AUX_MEAS_CONFIG configures one measurement. -/
  | auxMeasConfig (c : Cmd)
  /-- AUX_SWITCH_CONFIG (R354): AUX_SWITCH_CONFIG configures one threshold switch. -/
  | auxSwitchConfig (c : Cmd)
  /-- AUX_CAL (R354): AUX_CAL runs calibrations and sets CAL_PERIOD. -/
  | auxCal (c : Cmd)
  /-- BEZEL_CONFIG (R352): BEZEL_CONFIG sets window monitor and heater settings. -/
  | bezelConfig (c : Cmd)
  /-- BEZEL_LEARN (R351): BEZEL_LEARN learns the contamination baseline. -/
  | bezelLearn (c : Cmd)
  /-- AUX_READ (R353): AUX_READ returns all measurement results. -/
  | auxRead (c : Cmd)
  /-- AUX_STATUS (R354): AUX_STATUS returns aux status and clears sticky flags. -/
  | auxStatus (c : Cmd)
  /-- LINK_UP (R356): A port's link completes training and comes up. -/
  | linkUp (port : Nat) (master : Bool) (anDone : Bool) (sqi : Nat)
  /-- LINK_DOWN (R357): A port's link goes down and its queued frames are discarded. -/
  | linkDown (port : Nat)
  /-- LINK_TRAIN_TIMEOUT (R373): A retrained link is not up within 500 ms and NET_CONFIG completes with a fault. -/
  | linkTrainTimeout (port : Nat)
  /-- NET_FRAME_RECEIVE (R358): A received Ethernet frame is filtered and ARP, neighbour, ICMP or PRP handling
  applied. -/
  | netFrameReceive (port : Nat) (frame : NetFrame)
  /-- PRP_SUPERVISION_SEND (R362): A PRP supervision frame is sent every 2000 ms. -/
  | prpSupervisionSend
  /-- NEIGHBOUR_REFRESH (R358): A next-hop neighbour entry is refreshed every 60 s. -/
  | neighbourRefresh (addr : List Byte)
  /-- DAD_COMPLETE (R358): Duplicate address detection for a new IPv6 address completes. -/
  | dadComplete (inUse : Bool)
  /-- HEALTH_PUBLISH (R444): Every HEALTH_PERIOD a health snapshot is published as 7 telegrams. -/
  | healthPublish
  /-- NET_CONFIG (R373): NET_CONFIG sets addresses, PHY roles, PTP and budgets. -/
  | netConfig (c : Cmd)
  /-- STREAM_CONFIG (R374): STREAM_CONFIG writes a point stream's settings into the shadow set. -/
  | streamConfig (c : Cmd)
  /-- TRDP_CONFIG (R375): TRDP_CONFIG sets ComIds, destinations and filters. -/
  | trdpConfig (c : Cmd)
  /-- NET_STATUS (R376): NET_STATUS returns port status and clears sticky flags. -/
  | netStatus (c : Cmd)
  /-- STREAM_STATUS (R377): STREAM_STATUS returns a stream's status. -/
  | streamStatus (c : Cmd)
  /-- CHECK_UNIT_SCAN_DONE (R382): A general check unit's scan completes or stops on an uncorrectable word. -/
  | checkUnitScanDone (unit : Nat) (bytes : List Byte) (uncorrectable : Bool)
  /-- SCRUB_WORD (R388): The scrubber reads a protected word and corrects or reports it. -/
  | scrubWord (row : Nat) (region : Nat) (word : Nat) (result : ScrubResult)
  /-- JOURNAL_RECOPY_TRY (R395): Once per second Locket tries to recopy an out-of-service bank. -/
  | journalRecopyTry (bank : Nat) (good : Bool)
  /-- JOURNAL_FLUSH_COMPLETE (R399): The journal flush to eMRAM completes. -/
  | journalFlushComplete
  /-- POR_RELEASE (R404): Power-on reset releases and the cold start runs. -/
  | porRelease (st : ColdStart)
  /-- PFAIL (R405): Either PFAIL comparator trips for 1 µs and power fail is registered. -/
  | pfail
  /-- PAVANE_POWER_DOWN (R415): 10 ms after Pavane starts, MDRV frames stop and domains power down. -/
  | pavanePowerDown
  /-- PFAIL_RECOVER (R416): PFAIL above 1.050 V for 10 ms with rails valid ends a PFAIL Pavane with a cold start. -/
  | pfailRecover (st : ColdStart)
  /-- WARM_START (R410): A warm start quiesces, resets the supervisor, replays the journal and releases. -/
  | warmStart (imageOk : Bool) (bad : List BadCopy) (odd : List OddCopy)
  /-- NVM_STORE (R420): An eMRAM record store writes the first copy and then the mirror. -/
  | nvmStore (write1 : Bool) (write2 : Bool)
  /-- NVM_INFO (R430): NVM_INFO returns record states. -/
  | nvmInfo (c : Cmd)
  /-- NVM_READ (R424): NVM_READ returns bytes of a record copy. -/
  | nvmRead (c : Cmd)
  /-- NVM_STAGE (R425): NVM_STAGE fills the staging buffer. -/
  | nvmStage (c : Cmd)
  /-- NVM_COMMIT (R426): NVM_COMMIT stores a staged record. -/
  | nvmCommit (c : Cmd)
  /-- NVM_ERASE (R427): NVM_ERASE stores an erased copy of a record. -/
  | nvmErase (c : Cmd)
  /-- KEY_PROVISION (R428): KEY_PROVISION stores the ledger key. -/
  | keyProvision (c : Cmd)
  /-- POWER_DOWN (R429): POWER_DOWN completes earlier commands and starts Pavane, optionally followed by a cold
  start. -/
  | powerDown (c : Cmd)
  /-- TILE_TEMP_READ (R438): Every 10 ms each tile temperature sensor is read. -/
  | tileTempRead (tile : Nat) (temp : Int) (selfCheck : Bool)
  /-- SELF_TEST_PERIODIC (R432): A periodic built-in test is requested TEST_PERIOD after its last run. -/
  | selfTestPeriodic (test : Nat) (target : Nat)
  /-- TEST_COMPLETE (R433): A built-in test completes and a failed target leaves the spares. -/
  | testComplete (scope : Nat) (pass : Bool)
  /-- REPLAN_PERIODIC (R439): A margin re-plan starts REPLAN_PERIOD after the last one. -/
  | replanPeriodic
  /-- ARBITER_GRANT (R443): The maintenance arbiter starts a waiting activity. -/
  | arbiterGrant
  /-- ACTIVITY_COMPLETE (R443): An arbiter activity finishes and releases its scope. -/
  | activityComplete (scope : Nat) (ok : Bool)
  /-- HEALTH_READ (R446): HEALTH_READ returns health record segments and clears sticky flags. -/
  | healthRead (c : Cmd)
  /-- TIMEBASE_STATUS (R445): TIMEBASE_STATUS returns the time-base status block. -/
  | timebaseStatus (c : Cmd)
  /-- FABRIC_STATUS (R446): FABRIC_STATUS returns tile or engine blocks and clears sticky flags. -/
  | fabricStatus (c : Cmd)
  /-- MEMORY_STATUS (R446): MEMORY_STATUS returns a memory region's error block. -/
  | memoryStatus (c : Cmd)
  /-- CHECK_UNIT_READ (R383): CHECK_UNIT without WRITE returns a unit's context. -/
  | checkUnitRead (c : Cmd)
  /-- CHECK_UNIT_WRITE (R383): CHECK_UNIT with WRITE sets a general unit's context. -/
  | checkUnitWrite (c : Cmd)
  /-- SELF_TEST (R446): SELF_TEST queues a built-in test on a target. -/
  | selfTest (c : Cmd)
  /-- REPLAN (R439): REPLAN starts a margin re-plan. -/
  | replan (c : Cmd)
  /-- REPAIR_SUBSTITUTE (R446): REPAIR with MODE SUBSTITUTE requests a spare substitution. -/
  | repairSubstitute (c : Cmd)
  /-- REPAIR_RETEST (R446): REPAIR with MODE RETEST retests a failed resource. -/
  | repairRetest (c : Cmd)
  /-- ARBITER_STATUS (R446): ARBITER_STATUS returns running activities. -/
  | arbiterStatus (c : Cmd)
  /-- HEALTH_CONFIG (R446): HEALTH_CONFIG sets re-plan and test periods and auto repair. -/
  | healthConfig (c : Cmd)
  /-- JTAG_BYPASS (R457): JTAG BYPASS instruction. -/
  | jtagBypass
  /-- JTAG_IDCODE (R457): JTAG IDCODE instruction returns the IDCODE. -/
  | jtagIdcode
  /-- JTAG_SAMPLE_PRELOAD (R457): JTAG SAMPLE/PRELOAD instruction. -/
  | jtagSamplePreload (scan : JtagScan)
  /-- JTAG_EXTEST (R457): JTAG EXTEST takes the pins only when halted or recovery-only, otherwise acts as BYPASS. -/
  | jtagExtest
  /-- DIRECT_PLAY_LEDGER_LIMIT (R228): During direct play a ledger level or the PULSE accumulator reaches its
  effective limit at a sample and the ledger registers LEDGER, ending the play. -/
  | directPlayLedgerLimit (emitter : Nat)
  /-- ENC_STATE_CHANGE (R147): The encoder generator's quadrature count changes on its 12.5 ns grid and ENC_A, ENC_B
  or ENC_Z take a new level. -/
  | encStateChange
  /-- ANNOUNCE_RECEIPT_TIMEOUT (R363): A PTP port receives no Announce within its announce receipt timeout of 3 and
  leaves SLAVE, so the servo may select the other port. -/
  | announceReceiptTimeout (port : Nat)
  /-- KEEPER_DOMAIN_FAULT (R395): A keeper domain reports a fault, taking its journal retention bank and eMRAM bank
  out of service and setting JOURNAL_DEGRADED. -/
  | keeperDomainFault (bank : Nat) (present : Bool)
  /-- STANDBY_COMPARISON_FAIL (R414): The standby supervisor pair's lockstep comparison fails, starting Pavane with
  cause SUPERVISOR. -/
  | standbyComparisonFail
  /-- DOMAIN_WAKE_START (R466): A requested switched domain waiting for the wake pace starts its own wake at least
  1.25 µs after the previous one. -/
  | domainWakeStart (dom : Domain)
  /-- JTAG_TAP_RESET (R457): The JTAG TAP is reset through JTAG_TRST_N or TMS and IDCODE becomes the current
  instruction. -/
  | jtagTapReset
deriving DecidableEq, Repr

end Sys2Proof
end

