-- ==== Sys2Proof/Config.lean ====
section
/-!
DEFINITION. What one part or one implementation fixes and the spec does not give, and the free values. Every constant
here is opaque: nothing can be proved of its value.
-/
namespace Sys2Proof

/-- The 64-bit serial number (per part, Table 2.13).
DESIGN CHOICE, safe (log 9). -/
opaque Config.serial : Nat
/-- STEPPING (per part, Table 2.8).
DESIGN CHOICE, safe (log 9). -/
opaque Config.stepping : Nat
/-- The factory MAC address as a number (per part, Table 14.5).
DESIGN CHOICE, safe (log 9). -/
opaque Config.macAddr : Nat
/-- FIRMWARE_VERSION that the data of a firmware record states (Table 2.13; the spec lays out no firmware image).
DESIGN CHOICE, safe (log 9). -/
opaque Config.firmwareVersion : List Byte → Nat
/-- The bytes of the boot ROM (Table 1.5), which its CRC-32 covers.
DESIGN CHOICE, safe (log 9). -/
opaque Config.bootRom : List Byte
/-- FIRMWARE_VERSION of the recovery firmware in the boot ROM (R412).
DESIGN CHOICE, safe (log 9). -/
opaque Config.recoveryVersion : Nat
/-- KERNEL_LIBRARY_VERSION of the base library in the boot ROM (R279).
DESIGN CHOICE, safe (log 9). -/
opaque Config.baseLibrary : Nat
/-- Major versions of kernels 1 to 9 in the base library (R279).
DESIGN CHOICE, safe (log 9). -/
opaque Config.baseMajors : List Nat
/-- KERNEL_LIBRARY_VERSION that the data of a library record states (R279; the spec lays out no library image).
DESIGN CHOICE, safe (log 9). -/
opaque Config.libraryVersion : List Byte → Nat
/-- Major versions of kernels 1 to 9 that the data of a library record states.
DESIGN CHOICE, safe (log 9). -/
opaque Config.libraryMajors : List Byte → List Nat
/-- Data of the records that the factory alone writes, by RECORD_ID (Table 16.10).
DESIGN CHOICE, safe (log 9). -/
opaque Config.factoryData : Nat → List Byte
/-- A byte of eMRAM outside every copy that was stored, by bank, record and offset (Table 16.8).
DESIGN CHOICE, safe (log 100). -/
opaque Config.strayByte : Nat → Nat → Nat → Byte
/-- The factory pulling slope of the crystal: FREQ_ERR, LSB 2^-40, per code of XO_TRIM (R99).
DESIGN CHOICE, safe (log 9). -/
opaque Config.xoSlope : Int
/-- The destination MAC address of a frame that is no point frame and whose next hop is unresolved; by next hop (R358 names the fate
of point frames only).
DESIGN CHOICE, unsafe (log 133). -/
opaque Config.unresolvedMac : List Byte → List Byte
/-- The fixed ingress and egress latency of a backbone port between its MDI and the PHY's time stamp, in units of 2^-64 s (R364).
DESIGN CHOICE, safe (log 147). -/
opaque Config.ingressLatency : Nat → Nat
opaque Config.egressLatency : Nat → Nat
/-- Free values: the `n`-th value that the device draws or leaves open in a run.
DESIGN CHOICE, safe (log 8). -/
opaque Config.free : Nat → Nat

end Sys2Proof
end

