-- ==== Sys2Proof/Machine/Bytes.lean ====
section
/-!
DEFINITION. Multi-byte fields (R4: little-endian; network headers big-endian) and the check algorithms of Table 15.1,
worked out bit by bit.
-/
namespace Sys2Proof.Machine

/-- Byte `i` of a payload as a number; a byte past the end reads as 0. -/
def u8 (p : List Byte) (i : Nat) : Nat := (p.getD i 0).toNat

/-- A 16-bit little-endian field at byte `i` (R4). -/
def u16 (p : List Byte) (i : Nat) : Nat := u8 p i + 256 * u8 p (i + 1)

/-- A 24-bit little-endian field. -/
def u24 (p : List Byte) (i : Nat) : Nat := u16 p i + 65536 * u8 p (i + 2)

/-- A 32-bit little-endian field. -/
def u32 (p : List Byte) (i : Nat) : Nat := u16 p i + 65536 * u16 p (i + 2)

/-- A 64-bit little-endian field. -/
def u64 (p : List Byte) (i : Nat) : Nat := u32 p i + 2 ^ 32 * u32 p (i + 4)

/-- A signed 8-bit field. -/
def s8 (p : List Byte) (i : Nat) : Int := toSigned 8 (u8 p i)
/-- A signed 16-bit field. -/
def s16 (p : List Byte) (i : Nat) : Int := toSigned 16 (u16 p i)
/-- A signed 32-bit field. -/
def s32 (p : List Byte) (i : Nat) : Int := toSigned 32 (u32 p i)
/-- A signed 64-bit field. -/
def s64 (p : List Byte) (i : Nat) : Int := toSigned 64 (u64 p i)

/-- `n` as `k` little-endian bytes (R4). -/
def le : Nat → Nat → List Byte
  | 0, _ => []
  | k + 1, n => BitVec.ofNat 8 n :: le k (n / 256)

/-- `n` as `k` big-endian bytes (R4: network headers keep network order). -/
def be (k n : Nat) : List Byte := (le k n).reverse

/-- A signed number as `k` little-endian bytes. -/
def leInt (k : Nat) (i : Int) : List Byte := le k (ofSigned (8 * k) i)

/-- `n` zero bytes. -/
def zeros (n : Nat) : List Byte := List.replicate n 0

/-- Bytes `i .. i+n-1`; positions past the end are absent. -/
def slice (p : List Byte) (i n : Nat) : List Byte := (p.drop i).take n

/-- A byte list brought to exactly `n` bytes: cut, or filled with zeros. -/
def fit (n : Nat) (p : List Byte) : List Byte := (p ++ zeros n).take n

/-- Are bytes `i .. i+n-1` all 0 (a reserved field as R7 wants it)? -/
def zeroAt (p : List Byte) (i n : Nat) : Bool := (slice p i n).all (· == 0)

/-- Bit `b` of the number `n`. -/
def bit (n b : Nat) : Bool := n.testBit b

/-- Bits `hi .. lo` of the number `n`. -/
def bits (n hi lo : Nat) : Nat := n / 2 ^ lo % 2 ^ (hi + 1 - lo)

/-- A Boolean as a bit of weight `2 ^ b`. -/
def flag (c : Bool) (b : Nat) : Nat := if c then 2 ^ b else 0

/-- Write `xs` over `p` from byte `i` on; `p` keeps its length. -/
def patch (p : List Byte) (i : Nat) (xs : List Byte) : List Byte :=
  p.take i ++ xs.take (p.length - i) ++ p.drop (i + xs.length)

/-! ## Check algorithms (Table 15.1, R34, R380) -/

/-- One bit of an unreflected CRC-16 with polynomial 0x1021. -/
def crc16Bit (r : BitVec 16) : BitVec 16 :=
  if r.msb then (r <<< 1) ^^^ 0x1021#16 else r <<< 1

/-- One byte of CRC-16. -/
def crc16Byte (r : BitVec 16) (b : Byte) : BitVec 16 :=
  Nat.repeat crc16Bit 8 (r ^^^ (b.zeroExtend 16 <<< 8))

/-- The CRC-16 register after `bs`, started at `r`. -/
def crc16From (r : BitVec 16) (bs : List Byte) : BitVec 16 := bs.foldl crc16Byte r

/-- CRC-16 of Table 15.1: initial value 0xFFFF, no reflection, no final XOR. -/
def crc16 (bs : List Byte) : Nat := (crc16From 0xFFFF#16 bs).toNat

/-- One bit of a reflected CRC with the reversed polynomial `poly`. -/
def crcRBit {w : Nat} (poly r : BitVec w) : BitVec w :=
  if r.getLsbD 0 then (r >>> 1) ^^^ poly else r >>> 1

/-- One byte of a reflected CRC. -/
def crcRByte {w : Nat} (poly r : BitVec w) (b : Byte) : BitVec w :=
  Nat.repeat (crcRBit poly) 8 (r ^^^ b.zeroExtend w)

/-- A reflected CRC register after `bs`. -/
def crcRFrom {w : Nat} (poly r : BitVec w) (bs : List Byte) : BitVec w := bs.foldl (crcRByte poly) r

/-- 0x1EDC6F41 with its bits reversed. -/
def poly32C : BitVec 32 := 0x82F63B78#32
/-- 0x04C11DB7 with its bits reversed. -/
def poly32 : BitVec 32 := 0xEDB88320#32
/-- 0x42F0E1EBA9EA3693 with its bits reversed. -/
def poly64 : BitVec 64 := 0xC96C5795D7870F42#64

/-- CRC-32C of Table 15.1. -/
def crc32c (bs : List Byte) : Nat := (crcRFrom poly32C 0xFFFFFFFF#32 bs ^^^ 0xFFFFFFFF#32).toNat
/-- CRC-32 of Table 15.1. -/
def crc32 (bs : List Byte) : Nat := (crcRFrom poly32 0xFFFFFFFF#32 bs ^^^ 0xFFFFFFFF#32).toNat
/-- CRC-64 of Table 15.1. -/
def crc64 (bs : List Byte) : Nat :=
  (crcRFrom poly64 0xFFFFFFFFFFFFFFFF#64 bs ^^^ 0xFFFFFFFFFFFFFFFF#64).toNat

/-- The running register (before the final XOR) of algorithm `alg` of Table 15.3 after `bs`, from `r`. -/
def crcRun (alg r : Nat) (bs : List Byte) : Nat :=
  match alg with
  | 0 => (crc16From (BitVec.ofNat 16 r) bs).toNat
  | 1 => (crcRFrom poly32 (BitVec.ofNat 32 r) bs).toNat
  | 2 => (crcRFrom poly32C (BitVec.ofNat 32 r) bs).toNat
  | _ => (crcRFrom poly64 (BitVec.ofNat 64 r) bs).toNat

end Sys2Proof.Machine
end

