-- ==== Sys2Proof/Machine/State.lean ====
section
/-!
DEFINITION. The state of the block as plain data, chapter by chapter, and the state in power-on reset.
-/
namespace Sys2Proof.Machine

/-! ## Commands, queues and the journal (chapters 2 and 15) -/

/-- The status block of a reply (Table 2.3). -/
structure StatusBlock where
  status : Nat
  detail : Nat
  epoch : Nat
  stamp : Nat
  result : Nat
deriving DecidableEq, Repr

/-- A reply (R35) on its way to the transport that delivered the command. `holdsTag` says whether its delivery frees
the tag (R41); `rawHeader` is set for the reply to a packet whose HCHK failed (R35). `ring` is the queue whose reply ring
takes it on PCIe; `first` says that no reply went before it, so that TRDP sends it as an Mp (R59); `trailer` is the
command's. -/
structure Reply where
  via : Via
  version : Nat
  opcode : Nat
  tag : Nat
  queue : Nat
  seq : Nat
  final : Bool
  dup : Bool
  unseq : Bool
  fence : Bool
  holdsTag : Bool
  ring : Nat
  first : Bool
  trailer : Nat
  rawHeader : Option (List Byte)
  block : StatusBlock
  data : List Byte
deriving DecidableEq, Repr

/-- A held packet (R40). -/
structure Held where
  opcode : Nat
  cmd : Cmd
  arrival : Nat
deriving DecidableEq, Repr

/-- A packet that waits for step 12 of Table 2.4 (R392): it has passed steps 1 to 11, or `rejection` holds the status and DETAIL of the
rejection that consumes its sequence number. -/
structure Checked where
  opcode : Nat
  cmd : Cmd
  rejection : Option (Nat × Nat)
deriving DecidableEq, Repr

/-- A duplicate record (Table 15.8). -/
structure DupRec where
  seq : Nat
  trailer : Nat
  opcode : Nat
  final : Bool
  rejected : Bool
  dataDropped : Bool
  block : StatusBlock
deriving DecidableEq, Repr

/-- STATE of a live entry (Table 15.9). -/
inductive EntryState where
  | accepted | deferred | queued | executing | done
deriving DecidableEq, Repr

/-- A live entry (Table 15.9), with the last reply sent for it (R39). -/
structure Live where
  jix : Nat
  state : EntryState
  opcode : Nat
  cmd : Cmd
  reply : Option Reply
deriving DecidableEq, Repr

/-- The ring registers of one queue in the PCIe window (Table 2.8) and the ring's PHASE (R57). `armed`: the queue
has been enabled since its registers took their defaults. -/
structure Ring where
  sqBase : Nat
  sqSize : Nat
  sqTail : Nat
  sqHead : Nat
  rqBase : Nat
  rqSize : Nat
  rqTail : Nat
  rqHead : Nat
  dataBase : Nat
  enabled : Bool
  halted : Bool
  qError : Nat
  phase : Bool
  armed : Bool
deriving DecidableEq, Repr

/-- One command queue (R38 to R41, R51). -/
structure Queue where
  nextSeq : Nat
  tags : List Nat
  held : List Held
  dup : List DupRec
  mask : BitVec 3
  ring : Ring
deriving DecidableEq, Repr

/-- What a retention bank holds of one queue (Table 15.7). -/
structure QueueImage where
  nextSeq : Nat
  dup : List DupRec
  mask : BitVec 3
deriving DecidableEq, Repr

/-- The content of one retention bank (Table 15.7). `inService` is its bank state; `bad` lists the journal indices of the entries whose
copy fails its ECC there. -/
structure JournalImage where
  inService : Bool
  queues : List QueueImage
  live : List Live
  jixNext : Nat
  claspGen : List Nat
  claspPtr : Nat
  startId : Nat
  bad : List Nat
deriving DecidableEq, Repr

/-- A journal flush image in eMRAM (R399, R400): what was written of a bank, which of its eight blocks pass their CRC-64, and whether
the header, which is written last, is there. -/
structure FlushImage extends JournalImage where
  generation : Nat
  consumed : Bool
  blocks : List Bool
  header : Bool
deriving DecidableEq, Repr

/-- One retention bank of Locket (R391, R395). A bank in service holds what the queues, the journal, Clasp and START_ID say, but for
the entries in `bad`, whose copy there fails its ECC; one out of service holds `frozen`, its content as it left. -/
structure Bank where
  inService : Bool
  failedTries : Nat
  outAt : Nat
  keeperFault : Bool
  gaveUp : Bool
  bad : List Nat
  frozen : Option JournalImage
deriving DecidableEq, Repr

/-- An object that keeps APPLIED_INDEX and PENDING_INDEX (R396). -/
inductive Obj where
  | shadowSet | activeSet
  | view (handle : Nat)
  | loop (n : Nat)
  | emitter (n : Nat)
  | inhibit (src : Nat)
  | binding (queue : Nat)
  | record (id : Nat)
deriving DecidableEq, Repr

/-- APPLIED_INDEX of an object with the completion block written beside it (R396). -/
structure Applied where
  obj : Obj
  jix : Nat
  block : StatusBlock
deriving DecidableEq, Repr

/-- Locket (R391 to R401). `requeued` lists the commands that a replay has run anew (R398). What two banks in service keep alike stands
once, in the queues and here. -/
structure Journal where
  bankA : Bank
  bankB : Bank
  jixNext : Nat
  live : List Live
  applied : List Applied
  pendingIdx : List (Obj × Nat)
  requeued : List Nat
  trdpStore : List TrdpMessage
  fullDiscard : Nat
  acceptStopped : Bool
  flushing : Bool
  imageRestored : Bool
deriving DecidableEq, Repr

/-- The PCIe endpoint beside the rings (R53, R455); `config` is configuration space (R52). -/
structure Pcie where
  perstHigh : Bool
  config : PcieConfig
  intStatus : BitVec 6
  intEnable : BitVec 6
deriving DecidableEq, Repr

/-- Configuration space after reset.
PRESUMED, unsafe (log 155). -/
def PcieConfig.reset : PcieConfig :=
  { bar0 := 0, memory := false, master := false, msix := false, maxPayload := 128, maxRead := 512 }

/-- The SPI recovery port (R60, R61). RX_BUSY holds while `rx` holds a packet. -/
structure Spi where
  rx : Option (List Byte)
  frameErr : Bool
deriving DecidableEq, Repr

/-- Everything that takes commands in and gives replies out. -/
structure HostSide where
  queues : List Queue
  checked : List Checked
  waiting : List Reply
  journal : Journal
  pcie : Pcie
  spi : Spi
  trdpIgnored : Nat
deriving DecidableEq, Repr

/-! ## Start-up, supervisor, domains and stored calibration (chapters 1, 16, 18 and 19) -/

/-- START_PHASE of Table 2.13. -/
inductive StartPhase where
  | cold | ready | recovery | warm | pavane
deriving DecidableEq, Repr

/-- Where a warm start stands (Table 16.3): in steps 1 to 4, in the journal replay, in the pace measurement, or in the lane
warm-up. -/
inductive WarmStep where
  | restart | replay | pace | lanes
deriving DecidableEq, Repr

/-- A warm start that runs since `since`. `imageOk`, `bad` and `odd` are what its checks and the replay find;
`recovery` says that it leads back to the recovery-only state (R412). -/
structure WarmRun where
  since : Nat
  step : WarmStep
  imageOk : Bool
  bad : List BadCopy
  odd : List OddCopy
  recovery : Bool
deriving DecidableEq, Repr

/-- PAVANE_CAUSE (R414). -/
inductive PavaneCause where
  | none | pfail | xo | supervisor | escalation | host
deriving DecidableEq, Repr

/-- A domain that is not asleep (R26): waiting for the wake pace, waking since `since`, or awake and settled.
`idleSince` is the instant since which no set refers to it. -/
inductive DomainPhase where
  | requested | waking (since : Nat) | awake
deriving DecidableEq, Repr

structure DomainState where
  dom : Domain
  phase : DomainPhase
  idleSince : Option Nat
deriving DecidableEq, Repr

/-- One tile's fabric: voltage step and pace (R18, R27). -/
structure TilePace where
  paceA : Nat
  paceB : Nat
  mv : Nat
  lastStepDown : Nat
  paceFull : Nat
deriving DecidableEq, Repr

/-- The repair map (R31, Table 1.10). `feFor` gives the slot of a tile that serves position p of the tile;
`engineFor` the physical engine of each logical engine; `coreFor` the core that drives each output. -/
structure RepairMap where
  feFor : List Nat
  engineFor : List (Option Nat)
  coreFor : List (Option Nat)
  sramRows : List (Nat × Nat × Nat)
  badFe : List Nat
  badEngine : List Nat
  badCore : List Nat
  lostChannel : List Nat
deriving DecidableEq, Repr

/-- One copy of an eMRAM record (Table 16.9). `checkOk` says whether its check word is the CRC-64 of header and data. -/
structure NvmCopy where
  recId : Nat
  format : Nat
  generation : Nat
  jix : Nat
  storeTime : Nat
  data : List Byte
  checkOk : Bool
deriving DecidableEq, Repr

/-- One record region: its copy in bank 0 and bank 1, and what is pending on it (Table 16.13). -/
structure NvmRecord where
  id : Nat
  copy0 : Option NvmCopy
  copy1 : Option NvmCopy
  inUse : Option NvmCopy
  inBank1 : Bool
  mirrorPending : Bool
  checkPending : Bool
deriving DecidableEq, Repr

/-- A command that has taken effect and waits for its store, with the status block that its reply will carry. -/
structure StoreWait where
  cmd : Cmd
  block : StatusBlock
deriving DecidableEq, Repr

structure Nvm where
  records : List NvmRecord
  bank0 : Bool
  bank1 : Bool
  flushConsumed : Bool
  repairedTotal : Nat
  storesTotal : Nat
  waits : List StoreWait
  stageId : Option Nat
  stage : List Byte
  stageTop : Nat
  flush0 : List FlushImage
  flush1 : List FlushImage
deriving DecidableEq, Repr

/-- The current JTAG instruction (R457). -/
inductive JtagIr where
  | bypass | idcode | sample | extest
deriving DecidableEq, Repr

/-- Start-up and the supervisor. `powerDown` are the POWER_DOWNs that wait for earlier commands, with the instants they began to
wait, and `pavaneDue` the instant of the first reply to one (R429); `resetWarm` the RESET_WARM that waits (R65); `pfail` a power
fail that was registered; `firmware` the FIRMWARE_VERSION of what runs;
`preload` the bits that stand in the boundary-scan cells (R457). -/
structure Power where
  phase : StartPhase
  running : Bool
  halted : Bool
  ready : Bool
  factoryTest : Bool
  pavaneCause : PavaneCause
  pavaneAt : Nat
  poweredDown : Bool
  coldStartAfter : Bool
  powerDown : List (Cmd × Nat)
  pavaneDue : Option Nat
  pfail : Bool
  supervisorB : Bool
  failedPair : Bool
  standbyOut : Bool
  takeover : Bool
  takeovers : Nat
  resetWarm : Option Cmd
  warm : Option WarmRun
  domains : List DomainState
  lastWake : Option Nat
  lastSleep : Option Nat
  tiles : List TilePace
  repair : RepairMap
  jtagIr : JtagIr
  preload : List Bool
  spiOnly : Bool
  firmware : Nat
deriving DecidableEq, Repr

/-! ## Time base (chapter 4) -/

/-- Device time states (Table 4.1). -/
inductive TimeState where
  | free | acquire | locked | holdover
deriving DecidableEq, Repr

/-- CAL_STATE of a window (Table 4.3). -/
inductive CalState where
  | accepted | held | stale | failed
deriving DecidableEq, Repr

/-- A calibration lane (R110 to R113); q1 and span in eighths of a raw unit. `waits`: the t0 of each window or shot whose result is
still to be accepted or held, in order. -/
structure Lane where
  inUse : Bool
  last : Option (Nat × Nat)
  state : CalState
  missed : Nat
  warm : Option Nat
  consec : Nat
  ready : Bool
  failed : Bool
  waits : List Nat
deriving DecidableEq, Repr

/-- A front end's static corrections (R113) and its untimed-edge counter (R104). -/
structure FrontEndCal where
  offset : Int
  dnl : List Int
  untimed : Nat
deriving DecidableEq, Repr

/-- A shot whose T0 value is still open (R116). `edge` is its T0_FINE with the charge of its pulse, kept while another shot may
still fire within the interval. -/
structure T0Shot where
  emitter : Nat
  t0 : Nat
  ambiguous : Bool
  optical : Bool
  charge : Nat
  edge : Option (Int × Nat)
deriving DecidableEq, Repr

/-- Ticks before `stop`, back to the stop of the segment before, were converted with device time `dev` at `stop` and increment
`inc` (R101). -/
structure DevSegment where
  stop : Nat
  dev : Nat
  inc : Int
deriving DecidableEq, Repr

/-- The time base of keeper A. `now` counts ticks of 781.25 ps since reset, whatever the PLL does (the model's own
reference of elapsed time); `devTime` is device time in units of 2^-64 s (R101), and `history` how it ran in the last second,
oldest first. `t0Await` is the latest t0 while its first T0_IN edge is still to come (R114). -/
structure Clk where
  now : Nat
  tickCount : Nat
  devTime : Nat
  rate : Int
  history : List DevSegment
  rateSum : Int
  rateTicks : Nat
  started : Bool
  pllLocked : Bool
  unlocked : Bool
  unlockAt : Nat
  relockAt : Nat
  xoStop : Bool
  state : TimeState
  timeValid : Bool
  degraded : Bool
  xoStopSeen : Bool
  stepped : Bool
  retrimPending : Bool
  xoTrim : Nat
  xoTarget : Nat
  xoStored : Nat
  rampAt : Nat
  lastRetrim : Option Nat
  retrims : List (Int × Int)
  freqErr : Int
  lockedSince : Nat
  goodSamples : Nat
  lastSample : Option Nat
  ptpOffset : Int
  unlockCount : Nat
  calHeldTotal : Nat
  prestartTotal : Nat
  substepTotal : Nat
  t0NotMeasured : Nat
  coarseOvfTotal : Nat
  windowCutTotal : Nat
  lanes : List Lane
  fes : List FrontEndCal
  t0Delays : List (List Int)
  t0Open : List T0Shot
  t0Dead : Nat
  t0Await : Option Nat
deriving DecidableEq, Repr

/-! ## Emission (chapter 8) -/

/-- Slot states (R217). -/
inductive SlotState where
  | empty | loaded | slotOver | eccFailed
deriving DecidableEq, Repr

/-- A waveform slot (R217); `charge` in 2^-16 pJ (R227). -/
structure Slot where
  st : SlotState
  range2 : Bool
  codeId : Nat
  samples : List Nat
  charge : Nat
deriving DecidableEq, Repr

/-- Output states of Table 8.3. A parked or held output drives the code it parked with (R241); a slot or direct play remembers how many
of its samples the ledger has charged. -/
inductive Output where
  | switchOpen
  | park (code : Nat)
  | slot (slot : Nat) (codes : List Nat) (range2 : Bool) (t0 : Nat) (charged : Nat) (reserved : Nat)
  | direct (code : Nat) (range2 : Bool) (start : Nat) (duration : Nat) (charged : Nat) (cmd : Cmd)
  | hold (code : Nat)
deriving DecidableEq, Repr

/-- A cross-fade (R224). `waitSwap` counts the swaps it waits for, those of the SET_COMMITs accepted before it (R90, R225). -/
structure Fade where
  cmd : Cmd
  view : Nat
  src : Nat
  dst : Nat
  n : Nat
  i : Nat
  waitSwap : Nat
deriving DecidableEq, Repr

/-- A slot write waiting for a gap of the core (R219). -/
structure Transfer where
  slot : Nat
  new : Slot
  persist : Bool
  cmd : Cmd
deriving DecidableEq, Repr

/-- A range change of an output (R222, R227): the code before it, and its tick. -/
structure RangeChange where
  before : Nat
  start : Nat
deriving DecidableEq, Repr

/-- An emitter: its output and the last change of its range, `charged` the tick up to which the ledger has charged an output at rest. -/
structure Emitter where
  park : Nat
  out : Output
  change : Option RangeChange
  charged : Nat
  faulted : Bool
  short : Bool
  slotEcc : Bool
  pulse : Nat
  slots : List Slot
  fade : Option Fade
  transfers : List Transfer
  lateTotal : Nat
deriving DecidableEq, Repr

/-- One ledger row's buckets per window, its reservation (R227), in 2^-16 pJ. -/
structure LedgerRow where
  w5 : List Nat
  w100 : List Nat
  w10 : List Nat
  reserve : Nat
deriving DecidableEq, Repr

/-- A pulse reservoir (R237, R238); voltages in 0.1 V. -/
structure Reservoir where
  enabled : Bool
  ctl : Bool
  resOver : Bool
  refused : Bool
  low : Bool
  vSet : Nat
  volt : Nat
  overSince : Option Nat
  lowSince : Option Nat
deriving DecidableEq, Repr

/-- The ledger unlock (R236). -/
structure Unlock where
  challenge : Option (List Byte × Nat)
  wrong : Nat
  lockoutAt : Option Nat
  openAt : Option Nat
  failSeen : Bool
deriving DecidableEq, Repr

structure Emission where
  emitters : List Emitter
  excPark : Nat
  galvoPark : Nat
  table : List Byte
  tableValid : Bool
  tableGen : Nat
  headroom : Nat
  rows : List LedgerRow
  cur5 : Nat
  cur100 : Nat
  cur10 : Nat
  edges : List Nat
  ledgerRow : Nat
  ledgerWindow : Nat
  ledgerLatched : Bool
  exhaustTotal : Nat
  slotOverTotal : Nat
  faultSkipTotal : Nat
  unplayableTotal : Nat
  resOverSeen : Bool
  slotOverSeen : Bool
  ledgerSeen : Bool
  enEval : Bool
  enA : Bool
  enB : Bool
  enHighSince : Option Nat
  enLowSince : Option Nat
  enDiffSince : Option Nat
  enAtA : Option Nat
  enAtB : Option Nat
  enDiscrepancy : Bool
  speedCount : Nat
  unlock : Unlock
  key : Option (List Byte)
  reservoirs : List Reservoir
deriving DecidableEq, Repr

/-! ## Shots, the inhibit network, fields and zones (chapter 7) -/

/-- Field states (Table 7.3). -/
inductive FieldState where
  | unknown | violated | clear
deriving DecidableEq, Repr

/-- What a field remembers of one cell of a view (R198): consecutive revolutions occupied, and the nearest in-field
echo range (0.1 mm) of the last observation. -/
structure FieldCell where
  view : Nat
  cell : Nat
  count : Nat
  nearest : Nat
deriving DecidableEq, Repr

/-- A pass over a field's span (R198): which sweep over the span it is, the cells (view, cell) that are still to be decided, and whether
every one so far was observed and unoccupied. -/
structure Pass where
  index : Nat
  left : List (Nat × Nat)
  clean : Bool
deriving DecidableEq, Repr

/-- Running state of a defined field (R198, R199): its state, its occupied cells, consecutive clean passes, the passes not yet
decided, oldest first, the last one begun, and the confirming cell's start angle and range. -/
structure FieldRun where
  field : Nat
  state : FieldState
  cells : List FieldCell
  cleanPasses : Nat
  passes : List Pass
  lastPass : Option Nat
  violAngle : Nat
  violRange : Nat
deriving DecidableEq, Repr

/-- A shot descriptor in an emitter queue (R17, R188). `fixed` once the ledger has reserved its charge (R228). -/
structure Descriptor where
  emitter : Nat
  view : Nat
  cell : Nat
  shot : Nat
  entry : Nat
  slot : Nat
  dither : Nat
  stamp : Nat
  fixed : Bool
  charge : Nat
  codes : List Nat
  epoch : Nat
deriving DecidableEq, Repr

/-- A cell that has been opened (R186) and not yet closed. Per entry of the firing table: the shots planned so far and
those whose window has started or that will not fire. `barred` lists entries whose emitter was FAULTED in this cell
(R223), and `begun` the channels whose histogram of the cell has begun. -/
structure OpenCell where
  view : Nat
  cell : Nat
  epoch : Nat
  planned : List Nat
  settled : List Nat
  barred : List Nat
  begun : List Nat
deriving DecidableEq, Repr

/-- A blocked sector (R196): the centre angle, its half-width and the revolution boundaries left. -/
structure Sector where
  centre : Nat
  half : Nat
  revs : Nat
deriving DecidableEq, Repr

/-- What each view's LFSR holds, and the epoch it was loaded or carried over for (R187). -/
structure Lfsr where
  view : Nat
  value : Nat
  epoch : Nat
deriving DecidableEq, Repr

/-- Minuet and the inhibit network. Per emitter: the near-field count of its latest shot (`none` once it has registered),
the descriptor whose window is open and whose t0 is to come, the stamp of its previous shot, and the shot fired last.
`lastBase` holds per view the tick planned last, before offset and dither; `broken` the views with a word that cannot be
read, which fire no shot until the next swap (Table 15.5). -/
structure Sched where
  inhibit : BitVec 6
  src : BitVec 6
  nfLast : Nat
  lastStamp : Nat
  inhibitSeen : Bool
  fieldLate : Bool
  skippedSeen : Bool
  lateSeen : Bool
  paceShort : Bool
  planOver : Bool
  lateTotal : Nat
  skippedTotal : Nat
  inhibitedTotal : Nat
  nfEvents : Nat
  load : List Nat
  ceiling : List Nat
  devicePace : Nat
  queue : List Descriptor
  current : List (Option Descriptor)
  lastShot : List (Option Nat)
  nfCount : List (Option Nat)
  fired : List (Option Descriptor)
  lastBase : List (Nat × Nat)
  lfsrs : List Lfsr
  cells : List OpenCell
  firstCells : List (Nat × Nat × Nat)
  resumeAt : Option Nat
  sectors : List Sector
  nfAllRevs : Nat
  broken : List Nat
deriving DecidableEq, Repr

/-- What K_ZONE said of one histogram of a cell: whether it observed the cell (R198, R258), and per field of the view
the echoes inside it and the nearest of them (0.1 mm). -/
structure ZoneResult where
  channel : Nat
  observed : Bool
  points : List (Nat × Nat × Nat)
deriving DecidableEq, Repr

/-- A cell of a view with fields whose K_ZONE results are still gathered; `last` is the tick of its last shot. -/
structure ZoneCell where
  view : Nat
  cell : Nat
  epoch : Nat
  last : Nat
  results : List ZoneResult
  decided : List Nat
deriving DecidableEq, Repr

/-- The field logic, ZONE_A and ZONE_B, and the zone telegram. `swept` is the angle up to which cells have been passed, counted on
over whole turns, and `sweptAt` the tick of it; `opened` are the cells (view, cell) that have opened and are not yet passed. -/
structure Zone where
  fields : List FieldRun
  cells : List ZoneCell
  swept : Option Nat
  sweptAt : Nat
  opened : List (Nat × Nat)
  clearA : Bool
  clearB : Bool
  pulseA : Option Nat
  pulseB : Option Nat
  outFault : Bool
  wdog : Bool
  lastSnapshot : Nat
  tgDue : Bool
  tgAt : Nat
  alive : Nat
  tgSequence : Nat
  snapshot : List Byte
  violField : Nat
  violAngle : Nat
  violRange : Nat
  decisionTime : Nat
  lastPulseA : Nat
  lastPulseB : Nat
deriving DecidableEq, Repr

/-! ## Views and configuration sets (chapter 3)

Settings that a command writes as a block stay the block's own bytes, so that "byte-identical" (R88, R187, R201) is
equality and a read returns what was written. -/

/-- A view's whole definition in one set (R80): its binding (Table 3.2), the parameter block of each chain position and
its FIRE_TABLE image. -/
structure ViewDef where
  handle : Nat
  binding : List Byte
  params : List (List Byte)
  fire : Option (List Byte)
deriving DecidableEq, Repr

/-- What a configuration set holds (Table 3.7 and the opcodes marked SET). `rx` holds bytes 24 to 47 of Table 9.8 per
channel; `fields` the FIELD_DEFINE images by field number; `nearWritten` says that a NEARFIELD_CONFIG wrote `nearField`. -/
structure ConfigSet where
  views : List ViewDef
  nearField : List Byte
  nearWritten : Bool
  fields : List (Nat × List Byte)
  zone : List Byte
  sched : List Byte
  loops : List (List Byte)
  coefs : List (List Byte)
  rx : List (List Byte)
  streams : List (List Byte)
deriving DecidableEq, Repr

/-- COMMIT_STATE of a SET_COMMIT that has not swapped (Table 3.10). -/
inductive CommitState where
  | armed | deferred | queued
deriving DecidableEq, Repr

structure Commit where
  cmd : Cmd
  state : CommitState
  at_ : Nat
deriving DecidableEq, Repr

/-- A view of the active set since an epoch (Table 3.6). -/
structure Since where
  view : Nat
  epoch : Nat
deriving DecidableEq, Repr

/-- The configuration sets. `decided` says, from 100 µs before a boundary on, whether a swap takes place there (R87). -/
structure Sets where
  active : ConfigSet
  shadow : ConfigSet
  epoch : Nat
  lastSwap : Nat
  commits : List Commit
  decided : Option Bool
  live : List Nat
  retiring : List Nat
  old : List (Nat × ConfigSet)
  since : List Since
  copying : Bool
  waiting : List (Nat × Cmd)
  claspGen : List Nat
  claspPtr : Nat
  claspUnsaved : Nat
deriving DecidableEq, Repr

/-! ## Return channels (chapter 9) -/

/-- Channel states (Table 9.4). -/
inductive RxState where
  | off | standby | active | outOfService
deriving DecidableEq, Repr

/-- Where a channel's window stands (Table 4.2). -/
inductive WinPhase where
  | none | blanked | preStart | range | ambient | untimed
deriving DecidableEq, Repr

/-- T0_STATUS (Table 4.3). -/
inductive T0Status where
  | measured | missing | ambiguous | notUsed
deriving DecidableEq, Repr

/-- A channel's window (R103 to R117). `tag` names the cell it feeds: view handle, cell, firing-table entry, shot.
`t0Value` is unresolved (`none`) in optical start until R116 settles it; `skid` holds the events that wait for it, as
(tau, weight); `overflows` counts the window's events that found no room (R16). -/
structure Window where
  phase : WinPhase
  view : Nat
  cell : Nat
  entry : Nat
  shot : Nat
  emitter : Nat
  codes : List Nat
  codeId : Nat
  slot : Nat
  epoch : Nat
  cellStart : Nat
  t0 : Nat
  angle : Nat
  fired : Bool
  optical : Bool
  t0Value : Option Int
  t0Status : T0Status
  cal : CalState
  prestart : Nat
  overflows : Nat
  substep : Nat
  lastBin : Nat
  cut : Bool
  timeFault : Bool
  threshFault : Bool
  blind : Bool
  high : Bool
  rangeEnd : Nat
  ambCount : Nat
  ambEnd : Nat
  coarseOvf : Bool
  skid : List (Int × Nat)
  rateEdges : Nat
  foreign : List (Nat × Nat)
  foreignOvf : Bool
  longSeen : Bool
  edges : Nat
deriving DecidableEq, Repr

/-- An accepted edge between its rise and the end of its time over threshold (R248); `tau` in fine steps (R106). -/
structure EdgeInFlight where
  tau : Int
  inWindow : Bool
  blanked : Bool
deriving DecidableEq, Repr

/-- One item of a front end's path into the fabric (R266): a buffer entry of one or two (bin, weight) records, or a
marker with its ENTRY_SEQ. -/
inductive IngressItem where
  | entry (records : List (Nat × Nat))
  | header (w : Window) (entrySeq : Nat)
  | trailer (w : Window) (entrySeq : Nat)
deriving DecidableEq, Repr

/-- An observed window of a histogram: FIRING_TICK and firing angle in ac (R308), its CODE_ID
(R320) and its foreign note (R328) as (first bin, last bin) pairs. -/
structure ObsWin where
  tick : Nat
  angle : Nat
  codeId : Nat
  notes : List (Nat × Nat)
deriving DecidableEq, Repr

/-- A histogram with its descriptor (Tables 10.3 and 10.4). `bins` and `weights` list the nonzero counters in rising
order of bin; `valid` is the valid map (R272); `left` the windows the cell can still produce on this channel (R276);
`chOffset` CH_OFFSET at its close (R426); `midTick` the first prediction for the centre of the cell span, `recordTick` and `recordDev`
the tick and device time of its
records, settled as it closes (R308). -/
structure Hist where
  view : Nat
  cell : Nat
  cells : Nat
  channel : Nat
  epoch : Nat
  buf : Nat
  firstTick : Nat
  planned : Nat
  observed : Nat
  cutShots : Nat
  minLastBin : Nat
  prestart : Nat
  substep : Nat
  calWorst : Nat
  marks : BitVec 16
  valid : BitVec 128
  bins : List (Nat × Nat)
  weights : List (Nat × Nat)
  left : Nat
  closeSeq : Nat
  closedAt : Nat
  outOfService : Bool
  obs : List ObsWin
  midTick : Nat
  recordTick : Nat
  recordDev : Nat
  chOffset : Int
deriving DecidableEq, Repr

/-- A channel with its front end's discriminator. `high`: its output is high, since tick `highAt`; `longNow`: longer than LONG_HIGH;
`longDue`: no ambient record says so yet (R249). `closing`: a window that has ended while its T0 value is open; its trailer waits
for the value (R116, R266). -/
structure Channel where
  st : RxState
  threshClamped : Bool
  silent : Bool
  flooded : Bool
  overload : Bool
  longHigh : Bool
  threshFault : Bool
  threshNow : Nat
  ambStep : Int
  ambRate : Nat
  blankedTotal : Nat
  untimedTotal : Nat
  overflowTotal : Nat
  longHighTotal : Nat
  windowTotal : Nat
  eventTotal : Nat
  threshFaultTotal : Nat
  threshFails : Nat
  silentWindows : Nat
  pendingSlot : Option Nat
  armed : Bool
  high : Bool
  highAt : Nat
  edge : Option EdgeInFlight
  longNow : Bool
  longDue : Bool
  deadUntil : Nat
  win : Window
  closing : Option Window
  items : List IngressItem
  entrySeq : Nat
  lastBuf : Nat
  acc : List Hist
deriving DecidableEq, Repr

/-- SiPM bias (R252 to R255). `image` is the BIAS_CONFIG payload in use; `target` in µV, `allowance` in 2^-20 µV, `temp` in
0.01 °C, `mon` in 10 mV; `targetValid`: a target has been computed since the last BIAS_CONFIG. -/
structure Bias where
  image : List Byte
  target : Nat
  targetValid : Bool
  hvb : Nat
  allowance : Nat
  clamped : Bool
  unsettled : Bool
  within50At : Option Nat
  tempHold : Bool
  fault : Bool
  temp : Int
  tempAt : Option Nat
  enabledAt : Nat
  mon : Nat
  monBadSince : Option Nat
  cmd : Option Cmd
  computeAt : Nat
  stepAt : Nat
deriving DecidableEq, Repr

structure Returns where
  channels : List Channel
  bias : Bias
deriving DecidableEq, Repr

/-! ## Histogram fabric and engines (chapter 10) -/

/-- One entry of a tile shot table (R266, R267). -/
structure ShotEntry where
  tick : Nat
  optical : Bool
  t0Fine : Int
  emitter : Nat
  slot : Nat
  codeId : Nat
  epoch : Nat
  refs : Nat
deriving DecidableEq, Repr

/-- One physical engine (Table 10.9). `job` is the histogram whose chain runs, with the instant it
started; `leaving` the views of earlier sets, the longest left first, whose remaining histograms it still runs first (R286). -/
structure Engine where
  view : Nat
  assigned : Bool
  fault : Bool
  outOfService : Bool
  leaving : List Nat
  job : Option (Hist × Nat)
  chains : Nat
  abandoned : Nat
  timeLast : Nat
  timeMax : Nat
  eccUncorrected : Nat
  kernelFaults : Nat
deriving DecidableEq, Repr

/-- One tile's fabric (Table 10.10). `ingressEcc`: the uncorrectable words that its ingress path has found (R273). -/
structure Tile where
  shots : List ShotEntry
  queue : List Hist
  chainAbandonedSeen : Bool
  overflowSeen : Bool
  droppedSeen : Bool
  histograms : Nat
  abandoned : Nat
  dropped : Nat
  eccCorrected : Nat
  eccUncorrected : Nat
  ingressEcc : Nat
  queueMax : Nat
  latencyMax : Nat
deriving DecidableEq, Repr

/-! ## Records and frames, rejection (chapters 11 and 12) -/

/-- The open frame of a stream (Table 11.7, R312). -/
structure OpenFrame where
  records : List (List Byte)
  refTime : Nat
  refTick : Nat
  flags : Nat
  speed : Int
  galvoPos : Int
  placedAt : Nat
  epoch : Nat
  settings : List Byte
  running : Nat
deriving DecidableEq, Repr

/-- A point frame that the egress buffer holds until every carrying port has sent it (R403). `bytes` is the UDP
payload; `waitA`, `waitB`: the port has still to begin it; `onA`, `onB`: it is on that port's wire; `prp` is its SequenceNr
once a first transmission has given it one (R361). `sent`: its first sending
has begun on a port. -/
structure EgressFrame where
  stream : Nat
  seq : Nat
  bytes : List Byte
  settings : List Byte
  waitA : Bool
  waitB : Bool
  onA : Bool
  onB : Bool
  prp : Option Nat
  sent : Bool
deriving DecidableEq, Repr

structure Stream where
  frame : Option OpenFrame
  frameSeq : Nat
  recordSeq : Nat
  abandoned : Nat
  shortFrames : Nat
  abandonedTotal : Nat
  discarded : Nat
  revBytes : Nat
  sentMbps : Nat
deriving DecidableEq, Repr

/-- The ambient record of a window (R251, Table 4.3). -/
structure AmbRecord where
  window : Nat
  span : Nat
  coarseOvf : Bool
  count : Nat
  flooded : Bool
  longHigh : Bool
deriving DecidableEq, Repr

/-- K_AMBIENT's running state of one view on one channel (R317, R318); `lam` in counts per second; `records` are the
ambient records that have arrived since the view's previous run there (R316); `epochs`: the sets whose histograms it serves. -/
structure AmbRun where
  view : Nat
  channel : Nat
  epochs : List Nat
  lam : Rat
  first : Bool
  stepSeen : Int
  records : List AmbRecord
deriving DecidableEq, Repr

/-- TRK_STATE (Table 12.6). -/
inductive TrackerState where
  | idle | seeded | locked | lockedNoBlank | own
deriving DecidableEq, Repr

/-- A foreign tracker (R324 to R327). `pairs` are the open gate's (index, stamp) pairs, oldest first; `period` is in
2^-16 fine step once fitted. -/
structure Tracker where
  st : TrackerState
  s0 : Nat
  p : Rat
  halvings : Nat
  sincePair : Nat
  pairs : List (Int × Nat)
  gateStart : Nat
  period : Nat
  intercept : Nat
  firstIndex : Int
  residRms : Nat
  missed : Nat
  order : Nat
  result : List Byte
deriving DecidableEq, Repr

/-- A region of the previous cell that K_RAIN remembers (R330). -/
structure PrevTops where
  channel : Nat
  view : Nat
  cell : Nat
  tops : List Nat
deriving DecidableEq, Repr

/-- One sector and zone of a channel's persistence map (R330): one bit per revolution, bit 0 the running one. -/
structure RainCell where
  channel : Nat
  sector : Nat
  zone : Nat
  revs : Nat
deriving DecidableEq, Repr

/-- A stamp that waits in the tap (R323). `shot`: emitter and t0 of the shot whose T0 value must still tell whether its edge was a
pre-start event. -/
structure TapStamp where
  stamp : Nat
  shot : Option (Nat × Nat)
deriving DecidableEq, Repr

/-- A tile's rejection state (Table 12.6). `tapWait` holds stamps until none before them can still come, in stamp order (R323). -/
structure Rejection where
  budgetLimited : Bool
  ownRejected : Bool
  tapOverrun : Bool
  weather : Nat
  fogFraction : Nat
  precipIndex : Nat
  snowShare : Nat
  blankedTotal : Nat
  droppedTotal : Nat
  trackers : List Tracker
  freeStamp : Option Nat
  tapWait : List TapStamp
  groupFirst : Option Nat
  passed : List Nat
  lockOrder : Nat
  histograms : Nat
  fogHistograms : Nat
  markedRegions : Nat
  snowRegions : Nat
  lowRainSince : Option Nat
  lowFogSince : Option Nat
deriving DecidableEq, Repr

/-- What a finished or abandoned chain gives its view's release order (R285): its place, and its output: the records of
a stream with the time of the histogram, the field result, and K_AMBIENT's estimate. -/
structure Release where
  view : Nat
  epoch : Nat
  cell : Nat
  channel : Nat
  closeSeq : Nat
  done : Bool
  abandoned : Bool
  stream : Option Nat
  records : List (List Byte)
  dev : Nat
  tick : Nat
  zone : Option ZoneResult
  ambient : Option Rat
deriving DecidableEq, Repr

structure Fabric where
  tiles : List Tile
  engines : List Engine
  closeSeq : Nat
  releases : List Release
  rejection : List Rejection
  ambRuns : List AmbRun
  ambHold : List Nat
  rain : List RainCell
  prevTops : List PrevTops
  streams : List Stream
  egress : List EgressFrame
  startId : Nat
  chOffset : List Int
  tileTemp : List (Option Int)
  tileTempValid : List Bool
  library : Nat
  libraryMajors : List Nat
  weatherAt : Nat
deriving DecidableEq, Repr

/-! ## Resolver angle (chapter 5) -/

/-- Lock states (Table 5.4). -/
inductive LockState where
  | noSignal | acquire | locked | coast | lost
deriving DecidableEq, Repr

/-- EXC and GALVO DAC outputs (R124, R163), with the code that a parked or held one drives (R28, R241). -/
inductive DacState where
  | switchOpen | park (code : Nat) | run | hold (code : Nat)
deriving DecidableEq, Repr

/-- A moving-average stage of the filter engine (R127): the words it sums, newest first, and its accumulator. -/
structure FilterStage where
  line : List Int
  acc : Int
deriving DecidableEq, Repr

/-- A carrier or galvo slot of the filter engine (R126 to R132): its stages, Linear's delay line (newest first), the reference and
quadrature sums of the last demodulation steps (newest first), its last output and that output's quadrature, the fine-step stamp of
the window end, how many coming outputs are UNSETTLED, whether the last one is, whether an update has still to use it, the DC
block's estimate in 2^-16 of a stage's word, and the run of outputs that the stuck-output test counts. -/
structure FilterSlot where
  stages : List FilterStage
  pad : List Bool
  sums : List (Int × Int)
  out : Int
  quad : Int
  index : Nat
  unsettled : Nat
  mark : Bool
  fresh : Bool
  dcBlock : Int
  stuck : Nat
deriving DecidableEq, Repr

/-- A cyclic-error table (R140): 1024 corrections (2^-12 ac) and slopes, with its generation. -/
structure CycTable where
  generation : Nat
  entries : List (Int × Int)
deriving DecidableEq, Repr

/-- What a boundary-keyed change of the table in use will do (R140). -/
inductive CycPending where
  | none | disable | use (t : CycTable)
deriving DecidableEq, Repr

/-- A learning pass (R141, R142). `waiting` until the first boundary; `boundaries` the fine-step stamps of the boundaries
and `samples` (phi, stamp) of the updates. -/
structure Learn where
  cmd : Cmd
  revs : Nat
  store : Bool
  waiting : Bool
  done : Nat
  boundaries : List Nat
  samples : List (Nat × Nat)
deriving DecidableEq, Repr

/-- One camera trigger pin (R150, R151). `image` is the CAM_CONFIG payload in use; `committed` trigger angles whose edge is no longer
re-predicted, with its tick; `last` the trigger angle that fired last and its instant. -/
structure CamPin where
  image : List Byte
  pending : Option (List Byte)
  high : Bool
  endAt : Nat
  committed : List (Nat × Nat)
  last : Option (Nat × Nat)
deriving DecidableEq, Repr

/-- The speed-check gate that is open (R145): its start stamp, the previous open-loop angle (2^-32 rev, unwrapped) with its
stamp, the crossings as (index, stamp), the tracked speeds as (stamp, speed), and whether the PLL was lost in it. -/
structure SpeedGate where
  start : Nat
  prev : Option (Int × Nat)
  pairs : List (Int × Nat)
  speeds : List (Nat × Int)
  fault : Bool
deriving DecidableEq, Repr

/-- The resolver's whole state. `excStart` is the stamp of the excitation's phase 0; `est` the published angle as a 32-bit
fraction; `speedI` and `speed` in 2^-32 rev/s; `aRef` and the amplitudes in 2^-16 of an output's unit; `pendingReset` the
command that waits for the zero crossing at its stamp; `next` the ANGLE_CONFIG that the next tracking update takes (R133);
`resetCmds` commands that wait for the outputs to settle, with their COMPLETION_STAMP and whether lock was lost since their reset;
`phaseRest` what PHASE_ADJ holds below its LSB, in 2^-32 of it; `amp` the last settled pair's amplitude; `stored` the table of the
angle record, `toStore` what its next store writes in place of it; `speedFit` the last gate's result (Table 4.5); `cycCmds` commands
that wait for a table to take effect. -/
structure Angle where
  config : List Byte
  zeroOffset : Nat
  dir : Bool
  exc : DacState
  excShort : Bool
  excStart : Nat
  pendingReset : Option (Nat × Cmd × Nat)
  next : Option (List Byte)
  slots : List FilterSlot
  phaseAdj : Nat
  phaseRest : Nat
  filterSat : Bool
  filterSatTotal : Nat
  lock : LockState
  phi : Nat
  speedI : Int
  speed : Int
  stamp : Nat
  angle : Nat
  est : Nat
  pubSpeed : Int
  pubStamp : Nat
  aRef : Nat
  aSum : Nat
  aCount : Nat
  relearn : Nat
  lowFails : Nat
  highFails : Nat
  acqPairs : Nat
  acqLow : Nat
  slip : Nat
  lockCount : Nat
  firstPair : Option Nat
  excFails : Nat
  excRef : Nat
  coastSince : Option Nat
  amp : Nat
  ampRatio : Nat
  lossCause : Nat
  lossCount : Nat
  table : Option CycTable
  stored : Option CycTable
  toStore : Option (Option CycTable)
  cycPending : CycPending
  cycCmds : List (Nat × Cmd)
  learn : Option Learn
  learnState : Nat
  learnDetail : Nat
  learnDiscarded : Bool
  gate : SpeedGate
  speedFit : List Byte
  speedCheckPpm : Int
  speedMismatch : Bool
  mismatchRun : Nat
  mismatchTotal : Nat
  encImage : List Byte
  encCount : Nat
  encFrozen : Bool
  encOverrate : Bool
  encOver : Bool
  encCatch : Bool
  encAt : Nat
  encRealigned : Bool
  realignTotal : Nat
  encA : Bool
  encB : Bool
  encZ : Bool
  cams : List CamPin
  camMissed : Bool
  camOverlap : Bool
  camMissedTotal : Nat
  resetCmds : List (Nat × Cmd × Nat × Bool)
  lastBoundary : Option Nat
deriving DecidableEq, Repr

/-! ## Spindle and galvanometer control (chapter 6) -/

/-- Loop states (Table 6.6). -/
inductive LoopState where
  | unconfigured | opened | closed | fault
deriving DecidableEq, Repr

/-- A running or waiting test signal (R177). -/
structure Inject where
  cmd : Cmd
  point : Nat
  shape : Nat
  order : Nat
  ampl : Int
  fStart : Nat
  fStop : Nat
  duration : Nat
  hold : Nat
  index : Nat
  lfsr : Nat
deriving DecidableEq, Repr

/-- One control loop (R165 to R176). `image` and `coef` are the settings it runs with, of the set of `epoch`; `y` is the
last measurement in the native unit; `inj` the test signal of the last sample; `prior` the state before FAULT; `feRaised`, `innovRaised`
and `gapRaised` whether the run that is being counted has raised its fault. -/
structure Loop where
  st : LoopState
  closing : Bool
  image : List Byte
  coef : List Byte
  xh : List Int
  q : Int
  r : Int
  y : Int
  e : Int
  us : Int
  u : Int
  feCount : Nat
  innovCount : Nat
  satCount : Nat
  gapCount : Nat
  overruns : Nat
  stateReset : Bool
  faultCause : Nat
  faultAction : Nat
  faultStamp : Nat
  faultCount : Nat
  overrunTotal : Nat
  gapTotal : Nat
  samples : Nat
  closedFor : Nat
  arithSat : Bool
  outSat : Bool
  outSatLong : Bool
  intClamp : Bool
  ctrlOverrun : Bool
  miss : Bool
  noMeas : Bool
  inject : Option Inject
  inj : Int
  prior : LoopState
  epoch : Nat
  feRaised : Bool
  innovRaised : Bool
  gapRaised : Bool
deriving DecidableEq, Repr

/-- The MDRV link (R160, R161). `answered`: the last downlink frame has its uplink, or has been counted missed; `late`: the sample of
the last strobe did not finish; `lossRaised`: the run of missing frames has raised LINK. -/
structure Mdrv where
  running : Bool
  seq : Nat
  lastFrame : List Byte
  nextDemand : Int
  answered : Bool
  strobeAt : Nat
  drvState : Nat
  drvFault : Bool
  torqueFb : Int
  drvCode : Nat
  misses : Nat
  late : Bool
  lossRaised : Bool
deriving DecidableEq, Repr

/-- CAMEO_STATE (Table 6.12). -/
inductive CameoState where
  | idle | armed | capturing | complete
deriving DecidableEq, Repr

/-- Cameo (R178). A sample holds its signals and, last, the set epoch of its loop sample; `before` is the set epoch ahead of sample 0. -/
structure Cameo where
  st : CameoState
  cmd : Option Cmd
  loop : Nat
  trigger : Nat
  decimate : Nat
  sigs : List Nat
  pre : Nat
  phase : Nat
  samples : List (List Nat)
  trigIndex : Nat
  before : Nat
deriving DecidableEq, Repr

structure Motion where
  loops : List Loop
  mdrv : Mdrv
  cameo : Cameo
  galvoCode : Nat
  galvoHist : List (Nat × Int)
  galvo : DacState
  galvoShort : Bool
  galvoGainX2 : Bool
  record : List Byte
  gpa : Int
  gpb : Int
  galvoAt : Nat
deriving DecidableEq, Repr

/-! ## Auxiliary sensing and Bezel (chapter 13) -/

/-- One entry of AUX_READ (Table 13.9). -/
structure AuxResult where
  value : Int
  primary : Int
  stamp : Nat
  status : Nat
deriving DecidableEq, Repr

/-- A measurement: the AUX_MEAS_CONFIG payload in use and the one that waits for its next turn (R347). -/
structure AuxMeas where
  image : List Byte
  pending : Option (List Byte)
  result : AuxResult
  unsettledNext : Bool
deriving DecidableEq, Repr

/-- The offset of one gain (R346). -/
structure AuxOffset where
  code : Option Int
  held : Bool
  calibrated : Option Nat
deriving DecidableEq, Repr

structure AuxSwitch where
  image : List Byte
  active : Bool
deriving DecidableEq, Repr

/-- The charge amplifier (R343); charges in fC. `output`: its output as last seen; `startReset`: the reset of the cold start is still to
come. -/
structure Piezo where
  peak : Int
  shock : Bool
  shockTotal : Nat
  shockPeak : Nat
  resetTotal : Nat
  blindUntil : Nat
  lastReset : Nat
  output : Int
  startReset : Bool
deriving DecidableEq, Repr

/-- One window sector (R351). `sum` and `count` gather b of the running revolution; `dirtyRun` counts consecutive
revolutions for entering (or, while DIRTY, leaving) the state, `blockRun` likewise; `seen`: the sector has a mean; `learnGot`: the
learning pass gave
it data. -/
structure WinSector where
  sum : Rat
  count : Nat
  mean : Rat
  base : Option Rat
  contam : Nat
  dirty : Bool
  blocked : Bool
  dirtyRun : Nat
  blockRun : Nat
  learnSum : Rat
  learnCount : Nat
  seen : Bool
  learnGot : Bool
deriving DecidableEq, Repr

/-- A running BEZEL_LEARN. -/
structure BezelLearn where
  cmd : Cmd
  revs : Nat
  done : Nat
deriving DecidableEq, Repr

/-- A running AUX_CAL: the gains still to run and those that were held. -/
structure AuxCalRun where
  cmd : Cmd
  left : List Nat
  held : Nat
deriving DecidableEq, Repr

/-- The aux block. `turn` is the measurement whose turn it is and `turnAt` when its steps, or the calibrations `cal` that come
before them, began. -/
structure Aux where
  meas : List AuxMeas
  turn : Option Nat
  turnAt : Nat
  cal : List Nat
  offsets : List AuxOffset
  calPeriod : Nat
  heldTotal : Nat
  calHeldSeen : Bool
  excCompliance : Bool
  switches : List AuxSwitch
  bezelImage : List Byte
  bezelDuty : Nat
  heatInUse : Nat
  heatAt : Nat
  tempInvalid : Bool
  winTemp : Int
  sectors : List WinSector
  learn : Option BezelLearn
  piezo : Piezo
  cycles : Nat
  cycleStart : Nat
  cycleTime : Nat
  calRun : Option AuxCalRun
  calResult : Nat
  loaded : Bool
deriving DecidableEq, Repr

/-! ## Backbone ports (chapter 14) -/

/-- LINK_STATE (Table 14.8). -/
inductive LinkState where
  | down | training | up
deriving DecidableEq, Repr

/-- A PTP port (R363, R365); intervals in ticks, times and delays in units of 2^-64 s. A missing Sync is counted from `syncFrom`. `syncGap`
is the last Sync's time of receipt less its origin; `asked` the sequenceId and the departure of the last Delay_Req or Pdelay_Req; `answer`
when that Pdelay_Req came to the peer and when the response came back; `askedAt` when the last Pdelay_Req was built. -/
structure PtpPort where
  state : Nat
  selected : Bool
  gm : Option GmData
  syncFrom : Nat
  syncInterval : Nat
  syncGap : Option Int
  lastAnnounce : Option Nat
  announceInterval : Nat
  delay : Int
  delaySeq : Nat
  asked : Option (Nat × Nat)
  answer : Option (Nat × Int)
  askedAt : Option Nat
deriving DecidableEq, Repr

/-- A backbone port (Table 14.8). -/
structure Port where
  link : LinkState
  master : Bool
  anDone : Bool
  sqi : Nat
  lost : Bool
  ptp : PtpPort
  framesTx : Nat
  framesRx : Nat
  fcsErr : Nat
  rxDiscard : Nat
  downDiscard : Nat
  wrongLan : Nat
  prpDup : Nat
  downCount : Nat
  sent : List (Nat × Nat)
deriving DecidableEq, Repr

/-- A neighbour cache entry (R358): the next hop's address as 16 bytes (Table 15.4's form) and its MAC address. -/
structure Neighbour where
  addr : List Byte
  mac : Option (List Byte)
  refreshed : Nat
deriving DecidableEq, Repr

/-- A drop-window entry (R362). -/
structure DropEntry where
  src : List Byte
  seq : Nat
  lanA : Bool
  at_ : Nat
deriving DecidableEq, Repr

/-- What a frame that is not a point frame carries (R359). -/
inductive TxKind where
  | ptp | zone | health | messageData | arp | neighbour | icmp | supervision
deriving DecidableEq, Repr

/-- A PTP message whose departure is stamped: a Delay_Req or Pdelay_Req with its sequenceId, or a Pdelay_Resp with the requester's. -/
inductive PtpEvent where
  | request (sequence : Nat)
  | response (sequence : Nat) (requester : List Byte)
deriving DecidableEq, Repr

/-- A frame other than a point frame, queued in the MAC. `dest` is a MAC address, or an IP address in the form of Table 15.4 whose
next hop is looked up as the frame leaves; `bytes` is EtherType and packet. `both`: it carries a redundancy trailer; `prp` is the trailer's
SequenceNr, once the first of its transmissions has given it one (R362). `src` is the MAC address in use when the frame was built, `hop`
the one that its destination was known by then. -/
structure TxFrame where
  kind : TxKind
  both : Bool
  prp : Option Nat
  waitA : Bool
  waitB : Bool
  bytes : List Byte
  dest : List Byte
  src : List Byte
  hop : Option (List Byte)
  event : Option PtpEvent
deriving DecidableEq, Repr

/-- A reassembly context (R367). -/
structure Reasm where
  src : Nat
  ident : Nat
  since : Nat
  parts : List (Nat × List Byte)
  total : Option Nat
deriving DecidableEq, Repr

/-- What a NET_CONFIG still waits for (R373). `answered`: its final reply waits to be taken, and its addresses with it; `v6` whether the
new image's IPv6 address may be used then. -/
structure NetWait where
  cmd : Cmd
  train : List Bool
  since : Nat
  dad : Bool
  v6 : Bool
  answered : Bool
  newImage : List Byte
deriving DecidableEq, Repr

structure Net where
  ports : List Port
  config : List Byte
  trdp : List Byte
  reasmFail : Bool
  topoMismatch : Bool
  srcReject : Bool
  unresolvedSeen : Bool
  portChanged : Bool
  dupAddress : Bool
  v6Usable : Bool
  dad : Bool
  probe : Bool
  mdRejected : Nat
  unresolved : Nat
  neighbours : List Neighbour
  prpSeq : Nat
  drops : List DropEntry
  echoes : List Nat
  pdCounters : List (Nat × Nat)
  ipIdent : Nat
  supervisionSeq : Nat
  reasm : List Reasm
  tx : List TxFrame
  wait : Option NetWait
  lastSupervision : Nat
  lastHealth : Nat
deriving DecidableEq, Repr

/-! ## Check units and memory errors (chapter 15) -/

/-- A check unit's context (Table 15.3). -/
structure CheckUnit where
  mode : Nat
  alg : Nat
  done : Bool
  memUe : Bool
  source : Nat
  running : Nat
  start : Nat
  length : Nat
  count : Nat
deriving DecidableEq, Repr

/-- The error block of one memory region (Table 15.6). -/
structure MemRegion where
  row : Nat
  region : Nat
  ueSeen : Bool
  candidate : Bool
  ce : Nat
  ue : Nat
  ceLastPass : Nat
  ceThisPass : Nat
  passes : Nat
  lastCe : Nat
  lastUe : Nat
deriving DecidableEq, Repr

/-- A symbol of a 128-byte block that a scrub pass has corrected (R390). -/
structure Corrected where
  row : Nat
  region : Nat
  block : Nat
  symbol : Nat
  pass : Nat
  at_ : Nat
deriving DecidableEq, Repr

/-- A view of one half whose firing table, or parameter blocks, hold a word that cannot be corrected (Table 15.5). -/
structure LostWord where
  shadow : Bool
  params : Bool
  view : Nat
deriving DecidableEq, Repr

structure Integrity where
  units : List CheckUnit
  regions : List MemRegion
  corrected : List Corrected
  repairList : List (Nat × Nat)
  lost : List LostWord
deriving DecidableEq, Repr

/-! ## Health: arbiter, tests and ageing monitors (chapter 17) -/

/-- An activity of Table 17.5. `target` and `row` name what it acts on; `recId`, `format` and `data` serve stores: `data`
absent means that the record is taken as it stands when the store starts (R443 rule 6). `cmds` are the commands it
answers; `retest` marks a REPAIR with MODE RETEST (class 3). `start` is set while the activity runs. -/
structure Activity where
  code : Nat
  scope : Nat
  target : Nat
  row : Nat
  recId : Nat
  format : Nat
  data : Option (List Byte)
  cmds : List (Nat × Cmd)
  retest : Bool
  start : Option Nat
deriving DecidableEq, Repr

/-- The EMITTER monitor of one logical emitter (R435): sums of T0_CHARGE and of slot charge since the last re-plan. -/
structure EffMonitor where
  chargeSum : Nat
  slotSum : Nat
  shots : Nat
  baseline : Option Rat
  eff : Nat
deriving DecidableEq, Repr

/-- The SIPM monitor of one cluster (R436). -/
structure SipmMonitor where
  tot : List Nat
  edges : Nat
  dark : Option Nat
  secondStart : Nat
  secondEdges : Nat
  secondTime : Nat
  baseline : Option Nat
  gain : Nat
deriving DecidableEq, Repr

/-- The DNL monitor of one front end (R437). -/
structure DnlMonitor where
  counts : List Nat
  q1Fe : Nat
  q1Lane : Nat
  refs : Nat
deriving DecidableEq, Repr

/-- Mean q1, mean span and held results of one lane, reported only (Table 17.2). -/
structure LaneMonitor where
  q1Sum : Nat
  spanSum : Nat
  accepts : Nat
  helds : Nat
deriving DecidableEq, Repr

/-- The run of a built-in test (Table 17.1) that came last on a target. -/
structure TestRun where
  test : Nat
  target : Nat
  at_ : Nat
deriving DecidableEq, Repr

structure Health where
  config : List Byte
  devicePace : Nat
  sdMargin : List Nat
  ovTrim : Int
  thrOffset : List Int
  replanCount : Nat
  replanTime : Nat
  lastReplan : Option Nat
  effMax : Nat
  gMed : Nat
  monitorValid : Nat
  paceHistory : List (Nat × List Nat)
  eff : List EffMonitor
  sipm : List SipmMonitor
  dnl : List DnlMonitor
  lanes : List LaneMonitor
  dnlPending : List (Nat × Int × List Int)
  queue : List Activity
  running : List Activity
  tests : List TestRun
  repairsTotal : Nat
  recordNumber : Nat
  snapshot : List Byte
  extShort : List Bool
  shortTotal : List Nat
  slotEccAt : List (Nat × Nat)
  filterTestFail : Bool
  replanHeld : Bool
  nvmDiverged : Bool
  bankDiverged : Bool
  journalLost : Bool
  takeoverSeen : Bool
deriving DecidableEq, Repr

/-! ## The machine -/

/-- Something the device sent to the outside. `State.out` lists all of it, oldest first. -/
inductive Out where
  /-- Reply data written to host memory, then a reply ring entry (R57). -/
  | ringEntry (queue index : Nat) (dataAddr : Nat) (data entry : List Byte)
  /-- An MSI-X message on a vector (Table 2.7). -/
  | msix (vector : Nat)
  /-- An answer to SPI READ_STATUS (Table 2.11). -/
  | spiStatus (bytes : List Byte)
  /-- A reply returned by SPI READ_REPLY. -/
  | spiReply (bytes : List Byte)
  /-- A frame handed to a port (0 A, 1 B): kind, SequenceNr of its RCT, destination, EtherType and packet, and the frame as its pins
  carry it from destination address to FCS. -/
  | frame (port : Nat) (kind : TxKind) (rct : Option Nat) (dest bytes wire : List Byte)
  /-- A point frame handed to a port: its UDP payload, and the frame as the pins carry it. -/
  | point (port : Nat) (rct : Option Nat) (stream : Nat) (bytes wire : List Byte)
  /-- An MDRV downlink frame (R160). -/
  | mdrv (bytes : List Byte)
  /-- Bits shifted out on the JTAG data output (R457). -/
  | jtag (width value : Nat)
  /-- The pin levels that SAMPLE/PRELOAD took (R457). -/
  | sampled (bits : List Bool)
deriving DecidableEq, Repr

/-- The whole state of the S7192. `out`, `free` and `pending` are the model's own: what was sent, the counter of free
values, and the queue of commands and events that wait to run.
DESIGN CHOICE, safe (log 2); DESIGN CHOICE, safe (log 7); DESIGN CHOICE, safe (log 118). -/
structure State where
  host : HostSide
  power : Power
  nvm : Nvm
  clk : Clk
  emission : Emission
  sched : Sched
  zone : Zone
  sets : Sets
  returns : Returns
  fabric : Fabric
  angle : Angle
  motion : Motion
  aux : Aux
  net : Net
  integrity : Integrity
  health : Health
  out : List Out
  free : Nat
  pending : List Instr
deriving DecidableEq, Repr

/-- Why the block would stop. No rule of the spec stops it, so only `impossible` is declared, for no caller: safe. -/
inductive Fault where
  /-- Raised by no meaning. -/
  | impossible
deriving DecidableEq, Repr

/-- Why a command has no meaning. -/
inductive Refusal where
  /-- Raised by `exec` alone, for a row of the opcode table whose meaning is not written yet: safe. -/
  | notModelled (mnemonic : String)
deriving DecidableEq, Repr

/-! ## Power-on reset

Every field at the value the spec gives it in power-on reset. Where the spec gives none, the value is the model's and
the assumption log names it. -/

/-- ZONE_CONFIG defaults (R211). -/
def zoneDefault : List Byte := le 2 0 ++ le 2 200 ++ le 2 100 ++ zeros 10

/-- SCHED_CONFIG defaults (R211). -/
def schedDefault : List Byte := [51, 0, 0, 0] ++ le 4 500000 ++ zeros 8

/-- MOTION_RECORD defaults (R182). -/
def motionDefault : List Byte := le 2 8192 ++ le 2 0 ++ le 2 6554 ++ [0, 3] ++ zeros 8

/-- Table 4.4 defaults. -/
def gateDefault : List Byte := le 4 100000 ++ le 2 8 ++ zeros 10

/-- TRANSPORT_MASK of queue `q` after a cold start (Table 2.6). -/
def defaultMask : Nat → BitVec 3
  | 0 => 1#3 | 1 => 1#3 | 2 => 2#3 | _ => 5#3

def Ring.reset : Ring :=
  { sqBase := 0, sqSize := 0, sqTail := 0, sqHead := 0, rqBase := 0, rqSize := 0, rqTail := 0, rqHead := 0,
    dataBase := 0, enabled := false, halted := false, qError := 0, phase := true, armed := false }

def Queue.reset (q : Nat) : Queue :=
  { nextSeq := 0, tags := [], held := [], dup := [], mask := defaultMask q, ring := Ring.reset }

def Bank.reset : Bank :=
  { inService := true, failedTries := 0, outAt := 0, keeperFault := false, gaveUp := false, bad := [], frozen := none }

def Journal.reset : Journal :=
  { bankA := Bank.reset, bankB := Bank.reset, jixNext := 1, live := [], applied := [], pendingIdx := [], requeued := [],
    trdpStore := [], fullDiscard := 0, acceptStopped := false, flushing := false, imageRestored := false }

def HostSide.reset : HostSide :=
  { queues := [Queue.reset 0, Queue.reset 1, Queue.reset 2, Queue.reset 3], checked := [], waiting := [],
    journal := Journal.reset, pcie := { perstHigh := true, config := PcieConfig.reset, intStatus := 0, intEnable := 0 },
    spi := { rx := none, frameErr := false }, trdpIgnored := 0 }

/-- The repair map of a device without repairs (R11, R13, R15). -/
def RepairMap.empty : RepairMap :=
  { feFor := (List.range 192).map fun c => c / 24 * 26 + c % 24,
    engineFor := (List.range 128).map fun e => some (e / 16 * 18 + e % 16),
    coreFor := (List.range 16).map some, sramRows := [], badFe := [], badEngine := [], badCore := [],
    lostChannel := [] }

def TilePace.reset : TilePace := { paceA := 0, paceB := 0, mv := 850, lastStepDown := 0, paceFull := 0 }

/-- RECORD_ID of the 33 records in the order of Table 16.10. -/
def recordIds : List Nat :=
  [1, 2, 3, 4, 5, 6] ++ (List.range 16).map (0x10 + ·) ++
  [0x20, 0x21, 0x22, 0x23, 0x24, 0x25, 0x26, 0x27, 0x28, 0x30, 0x31]

def NvmRecord.reset (id : Nat) : NvmRecord :=
  { id := id, copy0 := none, copy1 := none, inUse := none, inBank1 := false, mirrorPending := false,
    checkPending := false }

/-- A record that the factory has written to both banks as generation 1.
DESIGN CHOICE, unsafe (log 99). -/
def factoryRecord (id : Nat) : NvmRecord :=
  let k : NvmCopy :=
    { recId := id, format := 1, generation := 1, jix := 0, storeTime := 0, data := Config.factoryData id, checkOk := true }
  { NvmRecord.reset id with copy0 := some k, copy1 := some k }

/-- DESIGN CHOICE, unsafe (log 99). -/
def Nvm.reset : Nvm :=
  { records := recordIds.map fun id => if id = 1 || id = 0x30 then factoryRecord id else NvmRecord.reset id, bank0 := true, bank1 := true, flushConsumed := false,
    repairedTotal := 0, storesTotal := 0, waits := [], stageId := none, stage := [], stageTop := 0, flush0 := [], flush1 := [] }

def Power.reset : Power :=
  { phase := .cold, running := false, halted := false, ready := false, factoryTest := false, pavaneCause := .none,
    pavaneAt := 0, poweredDown := false, coldStartAfter := false, powerDown := [],
    pavaneDue := none, pfail := false, supervisorB := false, failedPair := false,
    standbyOut := false, takeover := false, takeovers := 0, resetWarm := none, warm := none, domains := [], lastWake := none, lastSleep := none,
    tiles := List.replicate 8 TilePace.reset, repair := RepairMap.empty, jtagIr := .idcode, preload := [], spiOnly := false, firmware := 0 }

def Lane.reset : Lane :=
  { inUse := false, last := none, state := .failed, missed := 0, warm := none, consec := 0, ready := false,
    failed := false, waits := [] }

def FrontEndCal.reset : FrontEndCal := { offset := 0, dnl := List.replicate 64 0, untimed := 0 }

/-- DESIGN CHOICE, unsafe (log 6). -/
def Clk.reset : Clk :=
  { now := 0, tickCount := 0, devTime := 0, rate := 0, history := [], rateSum := 0, rateTicks := 0, started := false,
    pllLocked := false, unlocked := false, unlockAt := 0, relockAt := 0, xoStop := false, state := .free,
    timeValid := false, degraded := false, xoStopSeen := false, stepped := false, retrimPending := false,
    xoTrim := 2048, xoTarget := 2048, xoStored := 2048, rampAt := 0, lastRetrim := none, retrims := [],
    freqErr := 0, lockedSince := 0, goodSamples := 0, lastSample := none, ptpOffset := 0, unlockCount := 0,
    calHeldTotal := 0, prestartTotal := 0, substepTotal := 0, t0NotMeasured := 0, coarseOvfTotal := 0,
    windowCutTotal := 0, lanes := List.replicate 41 Lane.reset, fes := List.replicate 208 FrontEndCal.reset,
    t0Delays := List.replicate 16 [], t0Open := [], t0Dead := 0, t0Await := none }

def Slot.empty : Slot := { st := .empty, range2 := false, codeId := 0, samples := [], charge := 0 }

def Emitter.reset : Emitter :=
  { park := 0, out := .switchOpen, change := none, charged := 0, faulted := false, short := false, slotEcc := false, pulse := 0,
    slots := List.replicate 64 Slot.empty, fade := none, transfers := [],
    lateTotal := 0 }

/-- The image of a ledger table that has never been written (Table 8.7). -/
def ledgerDefault : List Byte := le 2 1 ++ [0, 224, 128, 0, 0, 0] ++ le 4 655360 ++ zeros 596

def LedgerRow.reset : LedgerRow :=
  { w5 := List.replicate 65 0, w100 := List.replicate 101 0, w10 := List.replicate 101 0, reserve := 0 }

def Reservoir.reset : Reservoir :=
  { enabled := false, ctl := false, resOver := false, refused := false, low := false, vSet := 0, volt := 0,
    overSince := none, lowSince := none }

def Emission.reset : Emission :=
  { emitters := List.replicate 16 Emitter.reset, excPark := 0, galvoPark := 0, table := ledgerDefault,
    tableValid := false, tableGen := 0, headroom := 0, rows := List.replicate 17 LedgerRow.reset, cur5 := 0,
    cur100 := 0, cur10 := 0, edges := [0, 0, 0], ledgerRow := 0xFF, ledgerWindow := 0, ledgerLatched := false, exhaustTotal := 0,
    slotOverTotal := 0, faultSkipTotal := 0, unplayableTotal := 0, resOverSeen := false, slotOverSeen := false,
    ledgerSeen := false, enEval := false, enA := false, enB := false, enHighSince := none, enLowSince := none,
    enDiffSince := none, enAtA := none, enAtB := none, enDiscrepancy := false, speedCount := 0,
    unlock := { challenge := none, wrong := 0, lockoutAt := none, openAt := none, failSeen := false },
    key := none, reservoirs := List.replicate 4 Reservoir.reset }

def Sched.reset : Sched :=
  { inhibit := 0x3E#6, src := 0x20#6, nfLast := 0, lastStamp := 0, inhibitSeen := false, fieldLate := false,
    skippedSeen := false, lateSeen := false, paceShort := false, planOver := false, lateTotal := 0,
    skippedTotal := 0, inhibitedTotal := 0, nfEvents := 0, load := List.replicate 8 0,
    ceiling := List.replicate 8 0, devicePace := 0, queue := [], current := List.replicate 16 none,
    lastShot := List.replicate 16 none, nfCount := List.replicate 16 (some 0), fired := List.replicate 16 none, lastBase := [], lfsrs := [], cells := [], firstCells := [],
    resumeAt := none, sectors := [], nfAllRevs := 0, broken := [] }

def Zone.reset : Zone :=
  { fields := [], cells := [], swept := none, sweptAt := 0, opened := [], clearA := false, clearB := false, pulseA := none, pulseB := none, outFault := false,
    wdog := false, lastSnapshot := 0, tgDue := false, tgAt := 0, alive := 0, tgSequence := 0, snapshot := zeros 48,
    violField := 0xFF, violAngle := 0, violRange := 0, decisionTime := 0, lastPulseA := 0, lastPulseB := 0 }

/-- Near-field defaults (Table 7.8). -/
def nearFieldDefault : List Byte :=
  [1, 2, 3, 4] ++ le 2 55 ++ le 2 1093 ++ le 4 8192 ++ zeros 4

/-- LOOP_CONFIG defaults of loop `n` (Table 6.11). -/
def loopDefault (n : Nat) : List Byte :=
  [BitVec.ofNat 8 n, 0, 1, 1, 0, 0, 7, 0] ++ zeros 8 ++ le 2 32767 ++ leInt 2 (-32768) ++ le 2 32767 ++
  le 2 2048 ++ le 2 2048 ++ le 2 4 ++ zeros 4 ++ le 4 65536 ++ le 4 6554 ++ le 2 5000 ++ le 2 20 ++
  le 2 1000 ++ zeros 2 ++ [7, 7, 7, 7, 7, 7] ++ zeros 10

/-- Bytes 24 to 47 of RX_CONFIG at their defaults (Table 9.8). -/
def rxDefault : List Byte :=
  [1, 0, 24, 8, 255, 1] ++ le 2 40 ++ [2, 4, 6, 9, 13, 20, 32, 0] ++ le 2 250 ++ zeros 6

/-- STREAM_CONFIG defaults of stream `n` (Table 14.6). -/
def streamDefault (n : Nat) : List Byte :=
  [BitVec.ofNat 8 n, 0, 0, 0] ++ le 2 0 ++ le 2 (40000 + n) ++ le 2 (40000 + n) ++ zeros 22

/-- An empty configuration set (R84). -/
def ConfigSet.empty : ConfigSet :=
  { views := [], nearField := nearFieldDefault, nearWritten := false, fields := [], zone := zoneDefault, sched := schedDefault,
    loops := [[], []], coefs := [[], []], rx := List.replicate 192 rxDefault,
    streams := (List.range 32).map streamDefault }

def Sets.reset : Sets :=
  { active := ConfigSet.empty, shadow := ConfigSet.empty, epoch := 0, lastSwap := 0, commits := [], decided := none, live := [],
    retiring := [], old := [], since := [], copying := false, waiting := [], claspGen := List.replicate 4096 0,
    claspPtr := 0, claspUnsaved := 0 }

def Window.reset : Window :=
  { phase := .none, view := 0, cell := 0, entry := 0, shot := 0, emitter := 0, codes := [], codeId := 0, slot := 0,
    epoch := 0, cellStart := 0, t0 := 0, angle := 0, fired := false,
    optical := false, t0Value := none, t0Status := .notUsed, cal := .failed, prestart := 0, overflows := 0, substep := 0,
    lastBin := 0, cut := false, timeFault := false, threshFault := false, blind := false, high := false,
    rangeEnd := 0, ambCount := 0, ambEnd := 0, coarseOvf := false, skid := [], rateEdges := 0, foreign := [], foreignOvf := false, longSeen := false,
    edges := 0 }

/-- DESIGN CHOICE, unsafe (log 6). -/
def Channel.reset : Channel :=
  { st := .off, threshClamped := false, silent := false, flooded := false, overload := false, longHigh := false,
    threshFault := false, threshNow := 0, ambStep := 0, ambRate := 0, blankedTotal := 0, untimedTotal := 0,
    overflowTotal := 0, longHighTotal := 0, windowTotal := 0, eventTotal := 0, threshFaultTotal := 0,
    threshFails := 0, silentWindows := 0, pendingSlot := none, armed := true, high := false, highAt := 0, edge := none, longNow := false, longDue := false,
    deadUntil := 0, win := Window.reset, closing := none, items := [], entrySeq := 0, lastBuf := 0, acc := [] }

/-- BIAS_CONFIG defaults (Table 9.9). -/
def biasDefault : List Byte := zeros 14 ++ le 2 256 ++ le 2 500 ++ le 2 50 ++ zeros 12

def Returns.reset : Returns :=
  { channels := List.replicate 192 Channel.reset,
    bias := { image := biasDefault, target := 0, targetValid := false, hvb := 0, allowance := 0, clamped := false,
              unsettled := false, within50At := none, tempHold := false, fault := false, temp := 0,
              tempAt := none, enabledAt := 0, mon := 0, monBadSince := none, cmd := none,
              computeAt := 0, stepAt := 0 } }

/-- DESIGN CHOICE, unsafe (log 6). -/
def Engine.reset : Engine :=
  { view := 0, assigned := false, fault := false, outOfService := false, leaving := [], job := none,
    chains := 0, abandoned := 0, timeLast := 0, timeMax := 0, eccUncorrected := 0, kernelFaults := 0 }

def Tile.reset : Tile :=
  { shots := [], queue := [], chainAbandonedSeen := false, overflowSeen := false, droppedSeen := false,
    histograms := 0, abandoned := 0, dropped := 0, eccCorrected := 0, eccUncorrected := 0, ingressEcc := 0, queueMax := 0,
    latencyMax := 0 }

def Stream.reset : Stream :=
  { frame := none, frameSeq := 0, recordSeq := 0, abandoned := 0, shortFrames := 0, abandonedTotal := 0,
    discarded := 0, revBytes := 0, sentMbps := 0 }

def Tracker.reset : Tracker :=
  { st := .idle, s0 := 0, p := 0, halvings := 0, sincePair := 0, pairs := [], gateStart := 0, period := 0,
    intercept := 0, firstIndex := 0, residRms := 0, missed := 0, order := 0, result := zeros 32 }

def Rejection.reset : Rejection :=
  { budgetLimited := false, ownRejected := false, tapOverrun := false, weather := 0, fogFraction := 0,
    precipIndex := 0, snowShare := 0, blankedTotal := 0, droppedTotal := 0,
    trackers := List.replicate 4 Tracker.reset, freeStamp := none, tapWait := [], groupFirst := none, passed := [],
    lockOrder := 0, histograms := 0, fogHistograms := 0, markedRegions := 0, snowRegions := 0,
    lowRainSince := none, lowFogSince := none }

def Fabric.reset : Fabric :=
  { tiles := List.replicate 8 Tile.reset, engines := List.replicate 144 Engine.reset, closeSeq := 0,
    releases := [], rejection := List.replicate 8 Rejection.reset, ambRuns := [], ambHold := List.replicate 192 0,
    rain := [], prevTops := [], streams := List.replicate 32 Stream.reset, egress := [],
    startId := 0, chOffset := List.replicate 192 0, tileTemp := List.replicate 8 none,
    tileTempValid := List.replicate 8 false, library := 0, libraryMajors := [], weatherAt := 0 }

/-- ANGLE_CONFIG defaults (Table 5.8). -/
def angleDefault : List Byte :=
  le 2 2 ++ le 2 1200 ++ [1, 9] ++ le 2 0 ++ [2, 0] ++ le 2 200 ++ zeros 4 ++ zeros 16 ++
  [64, 144, 2, 8] ++ le 2 2 ++ le 2 2048 ++ le 2 500 ++ le 2 2048 ++ zeros 4 ++ gateDefault

def FilterSlot.reset : FilterSlot :=
  { stages := [], pad := [], sums := [], out := 0, quad := 0, index := 0, unsettled := 1, mark := true, fresh := false, dcBlock := 0, stuck := 0 }

def CamPin.reset : CamPin := { image := [], pending := none, high := false, endAt := 0, committed := [], last := none }

def Angle.reset : Angle :=
  { config := angleDefault, zeroOffset := 0, dir := false, exc := .switchOpen, excStart := 0,
    excShort := false, pendingReset := none, next := none, slots := List.replicate 5 FilterSlot.reset,
    phaseAdj := 0, phaseRest := 0, filterSat := false, filterSatTotal := 0, lock := .noSignal, phi := 0, speedI := 0, speed := 0,
    stamp := 0, angle := 0, est := 0, pubSpeed := 0, pubStamp := 0, aRef := 0, aSum := 0, aCount := 0, relearn := 0, lowFails := 0, highFails := 0, acqPairs := 0,
    acqLow := 0,
    slip := 0, lockCount := 0, firstPair := none, excFails := 0, excRef := 0, coastSince := none, amp := 0, ampRatio := 0,
    lossCause := 0, lossCount := 0, table := none, stored := none, toStore := none, cycPending := .none,
    cycCmds := [], learn := none, learnState := 0, learnDetail := 0, learnDiscarded := false,
    gate := { start := 0, prev := none, pairs := [], speeds := [], fault := false }, speedFit := zeros 32, speedCheckPpm := 0,
    speedMismatch := false, mismatchRun := 0, mismatchTotal := 0, encImage := zeros 16, encCount := 0,
    encFrozen := true, encOverrate := false, encOver := false, encCatch := false, encAt := 0, encRealigned := false, realignTotal := 0, encA := false,
    encB := false, encZ := false, cams := List.replicate 4 CamPin.reset, camMissed := false, camOverlap := false,
    camMissedTotal := 0, resetCmds := [], lastBoundary := none }

def Loop.reset : Loop :=
  { st := .unconfigured, closing := false, image := [], coef := [], xh := [], q := 0, r := 0, y := 0, e := 0,
    us := 0, u := 0, feCount := 0, innovCount := 0, satCount := 0, gapCount := 0, overruns := 0,
    stateReset := false, faultCause := 0, faultAction := 0, faultStamp := 0, faultCount := 0, overrunTotal := 0,
    gapTotal := 0, samples := 0, closedFor := 0, arithSat := false, outSat := false, outSatLong := false, intClamp := false,
    ctrlOverrun := false, miss := false, noMeas := false, inject := none, inj := 0, prior := .unconfigured,
    epoch := 0, feRaised := false, innovRaised := false, gapRaised := false }

def Motion.reset : Motion :=
  { loops := [Loop.reset, Loop.reset],
    mdrv := { running := false, seq := 0, lastFrame := [], nextDemand := 0, answered := true,
              strobeAt := 0, drvState := 0, drvFault := false, torqueFb := 0, drvCode := 0, misses := 0,
              late := false, lossRaised := false },
    cameo := { st := .idle, cmd := none, loop := 0, trigger := 0, decimate := 0, sigs := [], pre := 0, phase := 0,
               samples := [], trigIndex := 0, before := 0 },
    galvoCode := 0, galvoHist := [], galvo := .switchOpen, galvoShort := false, galvoGainX2 := false, record := motionDefault,
    gpa := 0, gpb := 0, galvoAt := 0 }

/-- AUX_MEAS_CONFIG of measurement `m` at its defaults (Table 13.7). -/
def auxMeasDefault (m : Nat) : List Byte :=
  [BitVec.ofNat 8 m, 0, 0, 8, 0xFF, 0xFF, 0xFF, 0xFF, 0xFF, 0xFF, 2, 0xFF] ++ le 2 100 ++ [0, 0] ++ le 4 0 ++
  le 4 16777216 ++ le 4 0 ++ le 4 10000000 ++ le 2 3435 ++ le 2 1000 ++ le 4 50000 ++ zeros 8

/-- BEZEL_CONFIG defaults (Table 13.8). -/
def bezelDefault : List Byte :=
  [0, 0, 16, 230] ++ le 2 1000 ++ le 2 2000 ++ le 2 300 ++ [32, 128, 20] ++ zeros 19

def WinSector.reset : WinSector :=
  { sum := 0, count := 0, mean := 0, base := none, contam := 0, dirty := false, blocked := false, dirtyRun := 0,
    blockRun := 0, learnSum := 0, learnCount := 0, seen := false, learnGot := false }

def Aux.reset : Aux :=
  { meas := (List.range 16).map fun m =>
      { image := auxMeasDefault m, pending := none,
        result := { value := 0, primary := 0, stamp := 0, status := 0 }, unsettledNext := false },
    turn := none, turnAt := 0, cal := [], offsets := List.replicate 8 { code := none, held := false, calibrated := none },
    calPeriod := 60, heldTotal := 0, calHeldSeen := false, excCompliance := false,
    switches := (List.range 8).map fun n => { image := BitVec.ofNat 8 n :: zeros 15, active := false },
    bezelImage := bezelDefault, bezelDuty := 0, heatInUse := 0, heatAt := 0, tempInvalid := false, winTemp := 0,
    sectors := List.replicate 16 WinSector.reset, learn := none,
    piezo := { peak := 0, shock := false, shockTotal := 0, shockPeak := 0, resetTotal := 0, blindUntil := 0,
               lastReset := 0, output := 0, startReset := true },
    cycles := 0, cycleStart := 0, cycleTime := 0, calRun := none, calResult := 0, loaded := false }

def PtpPort.reset : PtpPort :=
  { state := 3, selected := false, gm := none, syncFrom := 0, syncInterval := 0, syncGap := none, lastAnnounce := none,
    announceInterval := 0, delay := 0, delaySeq := 0, asked := none, answer := none, askedAt := none }

def Port.reset : Port :=
  { link := .down, master := false, anDone := false, sqi := 0, lost := false, ptp := PtpPort.reset, framesTx := 0,
    framesRx := 0, fcsErr := 0, rxDiscard := 0, downDiscard := 0, wrongLan := 0, prpDup := 0, downCount := 0,
    sent := [] }

/-- NET_CONFIG defaults (Table 14.5). -/
def netDefault : List Byte :=
  be 6 Config.macAddr ++ [8, 24] ++ zeros 24 ++ [64, 1, 0, 0, 64, 0, 0, 0] ++ le 2 8000 ++ le 2 8000 ++ zeros 20

/-- TRDP_CONFIG defaults (Table 14.7). -/
def trdpDefault : List Byte :=
  zeros 4 ++ le 4 71920 ++ le 4 71921 ++ le 4 71922 ++ le 4 71930 ++ le 4 71931 ++ zeros 8 ++ le 2 1000 ++
  zeros 30

def Net.reset : Net :=
  { ports := [Port.reset, Port.reset], config := netDefault, trdp := trdpDefault, reasmFail := false,
    topoMismatch := false, srcReject := false, unresolvedSeen := false, portChanged := false, dupAddress := false,
    v6Usable := false, dad := false, probe := false, mdRejected := 0, unresolved := 0, neighbours := [], prpSeq := 0, drops := [], echoes := [],
    pdCounters := [], ipIdent := 0, supervisionSeq := 0, reasm := [], tx := [], wait := none, lastSupervision := 0, lastHealth := 0 }

/-- Algorithm of a fixed check unit (Table 15.2); a general unit's default is CRC-32C (Table 15.3). -/
def unitAlg (u : Nat) : Nat :=
  if u < 8 then (if u % 2 = 0 then 0 else 2)
  else if u < 14 then 2 else if u = 14 then 0 else if u = 15 then 1 else if u < 20 then 3 else 2

def Integrity.reset : Integrity :=
  { units := (List.range 24).map fun u =>
      { mode := if u < 20 then 1 else 0, alg := unitAlg u, done := false, memUe := false, source := 0,
        running := 0, start := 0, length := 0, count := 0 },
    regions := [], corrected := [], repairList := [], lost := [] }

/-- HEALTH_CONFIG defaults (R446). -/
def healthDefault : List Byte := le 2 24 ++ le 2 10 ++ [1] ++ zeros 11

/-- DESIGN CHOICE, unsafe (log 6). -/
def Health.reset : Health :=
  { config := healthDefault, devicePace := 0, sdMargin := List.replicate 8 0, ovTrim := 0, thrOffset := List.replicate 192 0,
    replanCount := 0, replanTime := 0, lastReplan := none, effMax := 0, gMed := 0, monitorValid := 0,
    paceHistory := [],
    eff := List.replicate 16
      { chargeSum := 0, slotSum := 0, shots := 0, baseline := none, eff := 0 },
    sipm := List.replicate 24
      { tot := List.replicate 64 0, edges := 0, dark := none, secondStart := 0, secondEdges := 0, secondTime := 0,
        baseline := none, gain := 0 },
    dnl := List.replicate 208 { counts := List.replicate 64 0, q1Fe := 0, q1Lane := 0, refs := 0 },
    lanes := List.replicate 41 { q1Sum := 0, spanSum := 0, accepts := 0, helds := 0 }, dnlPending := [],
    queue := [], running := [], tests := [], repairsTotal := 0, recordNumber := 0, snapshot := zeros 7168,
    extShort := List.replicate 16 false, shortTotal := List.replicate 16 0, slotEccAt := [],
    filterTestFail := false, replanHeld := false, nvmDiverged := false, bankDiverged := false,
    journalLost := false, takeoverSeen := false }

/-- The machine in power-on reset, before POR_RELEASE runs the cold start.
DEDUCED, safe (log 5); DESIGN CHOICE, unsafe (log 6). -/
def State.reset : State :=
  { host := HostSide.reset, power := Power.reset, nvm := Nvm.reset, clk := Clk.reset, emission := Emission.reset,
    sched := Sched.reset, zone := Zone.reset, sets := Sets.reset, returns := Returns.reset,
    fabric := Fabric.reset, angle := Angle.reset, motion := Motion.reset, aux := Aux.reset, net := Net.reset,
    integrity := Integrity.reset, health := Health.reset, out := [], free := 0, pending := [] }

end Sys2Proof.Machine
end

