-- ==== Sys2Proof/Machine/Ops.lean ====
section
/-!
DEFINITION. The operations every family shares: reading and updating parts of the state, elapsed time, device time
stamps, free values, replies and status blocks (R35, Table 2.3), the journal's bookkeeping of a command (R392, R396), and
running a command packet through steps 8 to 11 of Table 2.4.
-/
namespace Sys2Proof.Machine

/-- What a meaning answers. -/
abbrev Result := Host.Outcome State Fault Refusal

/-! ## Parts of the state -/

def State.onHost (f : HostSide → HostSide) (s : State) : State := { s with host := f s.host }
def State.onPower (f : Power → Power) (s : State) : State := { s with power := f s.power }
def State.onNvm (f : Nvm → Nvm) (s : State) : State := { s with nvm := f s.nvm }
def State.onClk (f : Clk → Clk) (s : State) : State := { s with clk := f s.clk }
def State.onEmission (f : Emission → Emission) (s : State) : State := { s with emission := f s.emission }
def State.onSched (f : Sched → Sched) (s : State) : State := { s with sched := f s.sched }
def State.onZone (f : Zone → Zone) (s : State) : State := { s with zone := f s.zone }
def State.onSets (f : Sets → Sets) (s : State) : State := { s with sets := f s.sets }
def State.onReturns (f : Returns → Returns) (s : State) : State := { s with returns := f s.returns }
def State.onFabric (f : Fabric → Fabric) (s : State) : State := { s with fabric := f s.fabric }
def State.onAngle (f : Angle → Angle) (s : State) : State := { s with angle := f s.angle }
def State.onMotion (f : Motion → Motion) (s : State) : State := { s with motion := f s.motion }
def State.onAux (f : Aux → Aux) (s : State) : State := { s with aux := f s.aux }
def State.onNet (f : Net → Net) (s : State) : State := { s with net := f s.net }
def State.onIntegrity (f : Integrity → Integrity) (s : State) : State := { s with integrity := f s.integrity }
def State.onHealth (f : Health → Health) (s : State) : State := { s with health := f s.health }

/-- One more thing sent to the outside.
DESIGN CHOICE, safe (log 7). -/
def State.emit (o : Out) (s : State) : State := { s with out := s.out ++ [o] }

/-- The next free value.
DESIGN CHOICE, safe (log 8). -/
def State.freeValue (s : State) : Nat := Config.free s.free

/-- The counter of free values moves past the one just taken.
DESIGN CHOICE, safe (log 7); DESIGN CHOICE, safe (log 8). -/
def State.freeNext (s : State) : State := { s with free := s.free + 1 }

def State.onQueue (q : Nat) (f : Queue → Queue) (s : State) : State :=
  s.onHost fun h => { h with queues := h.queues.modify q f }

def State.onJournal (f : Journal → Journal) (s : State) : State :=
  s.onHost fun h => { h with journal := f h.journal }

/-- Queue `q`, as reset leaves it where there is none. -/
def State.queue (q : Nat) (s : State) : Queue := s.host.queues.getD q (Queue.reset q)

def State.onEmitter (e : Nat) (f : Emitter → Emitter) (s : State) : State :=
  s.onEmission fun m => { m with emitters := m.emitters.modify e f }

def State.emitter (e : Nat) (s : State) : Emitter := s.emission.emitters.getD e Emitter.reset

def State.onChannel (c : Nat) (f : Channel → Channel) (s : State) : State :=
  s.onReturns fun r => { r with channels := r.channels.modify c f }

def State.channel (c : Nat) (s : State) : Channel := s.returns.channels.getD c Channel.reset

def State.onTile (t : Nat) (f : Tile → Tile) (s : State) : State :=
  s.onFabric fun b => { b with tiles := b.tiles.modify t f }

def State.tile (t : Nat) (s : State) : Tile := s.fabric.tiles.getD t Tile.reset

def State.onStream (n : Nat) (f : Stream → Stream) (s : State) : State :=
  s.onFabric fun b => { b with streams := b.streams.modify n f }

def State.stream (n : Nat) (s : State) : Stream := s.fabric.streams.getD n Stream.reset

def State.onRejection (t : Nat) (f : Rejection → Rejection) (s : State) : State :=
  s.onFabric fun b => { b with rejection := b.rejection.modify t f }

def State.rejection (t : Nat) (s : State) : Rejection := s.fabric.rejection.getD t Rejection.reset

def State.onLoop (n : Nat) (f : Loop → Loop) (s : State) : State :=
  s.onMotion fun m => { m with loops := m.loops.modify n f }

def State.loop (n : Nat) (s : State) : Loop := s.motion.loops.getD n Loop.reset

def State.onPort (p : Nat) (f : Port → Port) (s : State) : State :=
  s.onNet fun n => { n with ports := n.ports.modify p f }

def State.port (p : Nat) (s : State) : Port := s.net.ports.getD p Port.reset

/-! ## Check units (R380 to R383) -/

/-- The initial value of an algorithm (Table 15.1). -/
def crcInit : Nat → Nat
  | 0 => 0xFFFF
  | 3 => 2 ^ 64 - 1
  | _ => 0xFFFFFFFF

def State.onUnit (u : Nat) (f : CheckUnit → CheckUnit) (s : State) : State :=
  s.onIntegrity fun k => { k with units := k.units.modify u f }

/-- A fixed unit checks or makes one item: its context holds the item's register and length.
DEDUCED, unsafe (log 107). -/
def State.unitItem (u : Nat) (bytes : List Byte) (s : State) : State :=
  s.onUnit u fun x => { x with running := crcRun x.alg (crcInit x.alg) bytes, count := bytes.length }

/-- A unit that serves several items at once has loaded an item's RUNNING, folded in `n` bytes and stored it back (R384). -/
def State.unitLoads (u running n : Nat) (s : State) : State := s.onUnit u fun x => { x with running := running, count := n }

/-- The general units that snoop a source fold in what passes. -/
def State.snoop (source : Nat) (bytes : List Byte) (s : State) : State :=
  [20, 21, 22, 23].foldl (fun s u => s.onUnit u fun x =>
    if x.mode = 1 && x.source = source then
      { x with running := crcRun x.alg x.running bytes, count := wrap 32 (x.count + bytes.length) }
    else x) s

/-! ## The EXC and GALVO DACs (R28, R241) -/

/-- A DAC that parks takes the park code in force at that instant; one that is parked already keeps its own. -/
def DacState.parked (code : Nat) : DacState → DacState
  | .run => .park code
  | .hold c => .park c
  | d => d

/-- The hold state at the code that the DAC drives. -/
def DacState.held : DacState → DacState
  | .park c => .hold c
  | d => d

/-- Does a DAC drive its park code? -/
def DacState.isParked : DacState → Bool
  | .park _ => true
  | .hold _ => true
  | _ => false

/-- The GALVO DAC parks. -/
def State.parkGalvo (s : State) : State :=
  let code := s.emission.galvoPark
  s.onMotion fun m => { m with galvo := m.galvo.parked code }

/-! ## Time -/

/-- `n` microseconds in ticks of 781.25 ps (Table 1.3). -/
def us (n : Nat) : Nat := 1280 * n
/-- `n` milliseconds in ticks. -/
def ms (n : Nat) : Nat := 1280000 * n
/-- `n` seconds in ticks. -/
def sec (n : Nat) : Nat := 1280000000 * n
/-- `n` nanoseconds in ticks, rounded down. -/
def ns (n : Nat) : Nat := n * 32 / 25

/-- Ticks since reset. -/
def State.now (s : State) : Nat := s.clk.now

/-- Has `d` gone by since instant `t`? -/
def State.since (t d : Nat) (s : State) : Bool := t + d ≤ s.clk.now

/-- Bits [63:0] of the device time stamp (R6, R101): seconds in the upper half. -/
def State.stamp (s : State) : Nat := s.clk.devTime / 2 ^ 32 % 2 ^ 64

/-- The six-byte form of a stamp: its bits [63:16]. -/
def stamp48 (t : Nat) : Nat := t / 2 ^ 16 % 2 ^ 48

/-! ## Status codes (Table 2.5) -/

def stOk : Nat := 0x00
def stAccepted : Nat := 0x01
def stDeferred : Nat := 0x02
def stQueued : Nat := 0x03
def stLength : Nat := 0x10
def stOpcode : Nat := 0x11
def stParam : Nat := 0x12
def stStale : Nat := 0x13
def stNoResource : Nat := 0x14
def stBusy : Nat := 0x15
def stLocked : Nat := 0x16
def stCheck : Nat := 0x17
def stSequence : Nat := 0x18
def stHeader : Nat := 0x19
def stFault : Nat := 0x20
def stFaultJournal : Nat := 0x21
def stFaultMemory : Nat := 0x22
def stFaultAngle : Nat := 0x23
def stFaultMotion : Nat := 0x24
def stFaultEmission : Nat := 0x25
def stFaultReceive : Nat := 0x26
def stFaultNetwork : Nat := 0x27
def stFaultNvm : Nat := 0x28
def stFaultRepair : Nat := 0x29

/-! ## Replies (R35) -/

/-- A status block with the active epoch and the present stamp (Table 2.3, R41). -/
def State.block (st det result : Nat) (s : State) : StatusBlock :=
  { status := st, detail := det, epoch := s.sets.epoch, stamp := s.stamp, result := result % 2 ^ 32 }

/-- The 16 bytes of a status block (Table 2.3). -/
def StatusBlock.bytes (b : StatusBlock) : List Byte :=
  le 1 b.status ++ le 1 b.detail ++ le 2 b.epoch ++ le 8 b.stamp ++ le 4 b.result

/-- Reply data in whole units, at most 254 (R35). -/
def padUnits (d : List Byte) : List Byte := (d ++ zeros ((16 - d.length % 16) % 16)).take 4064

/-- FLAGS of a reply (Table 2.2). -/
def Reply.flags (r : Reply) : Nat :=
  0x80 + flag r.final 6 + flag r.dup 5 + flag r.unseq 4 + flag r.fence 3

/-- The reply header, HCHK included (R35). -/
def Reply.header (r : Reply) : List Byte :=
  let len := 1 + r.data.length / 16
  let head := match r.rawHeader with
    | none =>
      le 2 0x6D4B ++ le 1 r.version ++ le 1 r.flags ++ le 2 r.opcode ++ le 2 r.tag ++ le 1 r.queue ++ le 1 len ++ le 4 r.seq
    | some h => patch (patch (fit 14 h) 3 (le 1 r.flags)) 9 (le 1 len)
  head ++ le 2 (crc16 head)

/-- The whole reply packet (R35). -/
def Reply.bytes (r : Reply) : List Byte :=
  let b := r.header ++ r.block.bytes ++ r.data
  b ++ le 4 (crc32c b)

def mkReply (op : Nat) (c : Cmd) (final : Bool) (b : StatusBlock) (data : List Byte) : Reply :=
  { via := c.via, version := 1, opcode := op, tag := c.tag, queue := c.queue, seq := c.seq, final := final, dup := false,
    unseq := c.unseq, fence := c.fence, holdsTag := final, ring := c.queue, first := true, trailer := c.trailer, rawHeader := none, block := b,
    data := padUnits data }

/-- A reply joins those that wait for their transport (R51). -/
def State.post (r : Reply) (s : State) : State := s.onHost fun h => { h with waiting := h.waiting ++ [r] }

/-! ## The journal's view of a command (R392, R396) -/

/-- Is `l` the live entry of command `c`? A tag is in use by one command alone (R41), so that a sequence number which
SEQ_SET gives out again is no confusion (R66). -/
def Live.isOf (c : Cmd) (l : Live) : Bool := l.cmd.queue == c.queue && l.cmd.seq == c.seq && l.cmd.tag == c.tag

def State.liveOf (c : Cmd) (s : State) : Option Live :=
  if c.unseq then none else s.host.journal.live.find? (Live.isOf c)

/-- The journal index of a command; 0 for one without an entry. -/
def State.jixOf (c : Cmd) (s : State) : Nat := ((s.liveOf c).map Live.jix).getD 0

def State.onLive (c : Cmd) (f : Live → Live) (s : State) : State :=
  if c.unseq then s else
  s.onJournal fun j => { j with live := j.live.map fun l => if l.isOf c then f l else l }

/-- Does a sequence number lie within the 1024 before NEXT_SEQ (R38)? -/
def inWindow (next seq : Nat) : Bool :=
  let back := wrap 32 (next + 2 ^ 32 - seq)
  decide (1 ≤ back) && decide (back ≤ 1024)

/-- Writes the duplicate record of a sequence number that NEXT_SEQ has just passed (R37, R39): one record stands for it, and those
that have left the window go. -/
def State.recordDup (q : Nat) (d : DupRec) (s : State) : State :=
  s.onQueue q fun k => { k with dup := k.dup.filter (fun e => e.seq != d.seq && inWindow k.nextSeq e.seq) ++ [d] }

/-- Changes the duplicate record of a packet, where the window still has it: a completion brings none back (R66). -/
def State.updateDup (q seq trailer : Nat) (f : DupRec → DupRec) (s : State) : State :=
  s.onQueue q fun k => { k with dup := k.dup.map fun d => if d.seq == seq && d.trailer == trailer then f d else d }

/-- DONE, with the final status block in the duplicate record (R392). -/
def State.recordDone (c : Cmd) (r : Reply) (s : State) : State :=
  if c.unseq then s else
  (s.onLive c fun l => { l with state := .done, reply := some r }).updateDup c.queue c.seq c.trailer fun d =>
    { d with opcode := r.opcode, final := true, block := r.block }

/-- The command completes: its final reply is recorded and posted (R42). -/
def State.finishWith (op : Nat) (c : Cmd) (b : StatusBlock) (data : List Byte) (s : State) : State :=
  let r := { mkReply op c true b data with first := (s.liveOf c).all fun l => l.reply.isNone }
  (s.post r).recordDone c r

/-- The command completes now with this status, DETAIL and RESULT. -/
def State.finish (op : Nat) (c : Cmd) (st det result : Nat) (data : List Byte) (s : State) : State :=
  s.finishWith op c (s.block st det result) data

/-- The command completes with OK. -/
def State.done (op : Nat) (c : Cmd) (result : Nat) (s : State) : State := s.finish op c stOk 0 result []

/-- APPLIED_INDEX and the completion block of an object, written with the effect; a PENDING_INDEX of the same command
ends (R396). -/
def State.applied (o : Obj) (c : Cmd) (b : StatusBlock) (s : State) : State :=
  let x := s.jixOf c
  s.onJournal fun j =>
    { j with applied := j.applied.filter (·.obj != o) ++ [{ obj := o, jix := x, block := b }],
             pendingIdx := j.pendingIdx.filter (· != (o, x)) }

/-- PENDING_INDEX of an object: the command's effect is armed or runs on there (R396). -/
def State.setPending (o : Obj) (c : Cmd) (s : State) : State :=
  let x := s.jixOf c
  s.onJournal fun j => { j with pendingIdx := j.pendingIdx.filter (· != (o, x)) ++ [(o, x)] }

/-- The command takes effect on an object and completes with OK. -/
def State.doneOn (op : Nat) (o : Obj) (c : Cmd) (result : Nat) (s : State) : State :=
  (s.applied o c (s.block stOk 0 result)).done op c result

/-! ## Running a command packet (steps 8 to 11 of Table 2.4) -/

/-- What the checks of a command say. -/
inductive Verdict where
  | ok
  | reject (status detail : Nat)
deriving DecidableEq, Repr

/-- The first check of a list that fails, with its status and DETAIL.
DESIGN CHOICE, unsafe (log 13). -/
def firstFail : List (Bool × Nat × Nat) → Verdict
  | [] => .ok
  | (bad, st, d) :: r => if bad then .reject st d else firstFail r

/-- `a`, and after it `b`. -/
def Verdict.andThen (a b : Verdict) : Verdict :=
  match a with
  | .ok => b
  | r => r

/-- What Table 2.4 checks of one opcode: its LENGTH range, the length its count field implies (step 10), whether UNSEQ
is permitted for this payload (step 8), the lock and transport rules of its own chapter (step 9), its field and state
checks (step 11), and what a rejection of it leaves behind. -/
structure OpInfo where
  code : Nat
  lenMin : Nat
  lenMax : Nat
  unseqOk : List Byte → Bool := fun _ => false
  lock : Cmd → State → Verdict := fun _ _ => .ok
  implied : List Byte → Option Nat := fun _ => none
  fields : Cmd → State → Verdict := fun _ _ => .ok
  rejected : Cmd → Nat → Nat → State → State := fun _ _ _ s => s

/-- Opcodes the recovery-only state executes (R62); after Pavane's flush likewise (R415).
DEDUCED, safe (log 12). -/
def recoveryOpcode (op : Nat) : Bool := op / 256 == 0x01 || op / 256 == 0x0B || op == 0x0406

/-- Is the device in the recovery-only state, or in Pavane, where the same opcodes are admitted?
DEDUCED, safe (log 12). -/
def State.recoveryOnly (s : State) : Bool :=
  s.power.phase == .recovery || s.power.phase == .pavane || s.power.warm.any (·.recovery)

/-- LENGTH of a payload. -/
def cmdLen (c : Cmd) : Nat := c.payload.length / 16

/-- Steps 8 to 11 of Table 2.4.
DESIGN CHOICE, safe (log 11). -/
def OpInfo.check (o : OpInfo) (c : Cmd) (s : State) : Verdict :=
  firstFail
    [(c.unseq && !o.unseqOk c.payload, stOpcode, 2),
     (s.recoveryOnly && !recoveryOpcode o.code, stLocked, 1)]
  |>.andThen (o.lock c s)
  |>.andThen (firstFail
    [(c.payload.length % 16 != 0 || cmdLen c < o.lenMin || o.lenMax < cmdLen c, stLength, 2),
     ((o.implied c.payload).any (· != cmdLen c), stLength, 2)])
  |>.andThen (o.fields c s)

/-- Does the supervisor execute commands: it runs, no takeover or warm start is under way, and the cold start is past its
steps? -/
def State.executes (s : State) : Bool :=
  s.power.running && !s.power.halted && !s.power.takeover && s.power.phase != .cold && s.power.phase != .warm

/-- The eMRAM record that a command's store writes, if it ends with one. -/
def storedRecord (op : Nat) (p : List Byte) : Option Nat :=
  let opt (b : Bool) (id : Nat) : Option Nat := if b then some id else none
  match op with
  | 0x0401 => opt (bit (u8 p 2) 2) (0x10 + u8 p 0)
  | 0x0404 => some 6
  | 0x0407 => some 5
  | 0x0501 => opt (bit (u8 p 9) 0) 0x20
  | 0x0502 => opt (bit (u8 p 5) 0) 0x20
  | 0x0504 => opt (bit (u8 p 1) 0) 0x20
  | 0x0505 => opt (u8 p 0 == 2) 0x20
  | 0x0607 => opt (bit (u8 p 12) 0) 0x21
  | 0x0801 => opt (bit (u8 p 6) 2) 0x25
  | 0x0803 => opt (bit (u8 p 0) 3) 0x25
  | 0x0901 => opt (bit (u8 p 15) 0) 0x23
  | 0x0902 => opt (bit (u8 p 12) 0) 0x23
  | 0x0903 => opt (bit (u8 p 4) 0) 0x23
  | 0x0904 => opt (bit (u8 p 0) 1) 0x24
  | 0x0905 => some 0x24
  | 0x0982 => opt (bit (u8 p 0) 1) 0x22
  | 0x0A0A => opt (bit (u8 p 4) 1) 0x28
  | 0x0B04 | 0x0B05 => some (u16 p 0)
  | 0x0B06 => some 3
  | _ => none

/-- What acceptance order orders commands by (R43, R133, R260, R396): a place in the order of the shadow set, what the sets hold, the
swaps, a view as the shadow set writes it and as a fade uses it, and the other objects and blocks. -/
inductive Touched where
  | shadow | sets | commits | angle | returns | bias | stage | cameo | inhibit
  | view (handle : Nat)
  | fading (handle : Nat)
  | emitter (n : Nat)
  | output (n : Nat)
  | loop (n : Nat)
  | inject (n : Nat)
  | binding (queue : Nat)
  | record (id : Nat)
deriving DecidableEq, Repr

/-- What a command touches: `needs` what it waits for, `untilDone` what it holds until its final reply is recorded, `untilBegun` what it
holds until it begins, or has its place in the order that the block concerned keeps. -/
structure Touch where
  needs : List Touched
  untilDone : List Touched
  untilBegun : List Touched
deriving DecidableEq, Repr

/-- What a command of this opcode touches, but for the record that it stores. A write of the shadow set takes its place in the order of
those writes (R83), and what reads the sets waits until it has taken effect; every SET_COMMIT touches every view (R90).
DEDUCED, unsafe (log 120). -/
def touchesOwn (op : Nat) (p : List Byte) : Touch :=
  match op with
  | 0x0112 => ⟨[.binding (u8 p 0)], [.binding (u8 p 0)], []⟩
  | 0x0201 | 0x0302 | 0x0601 | 0x0602 | 0x0702 | 0x0703 | 0x0704 | 0x0705 | 0x0802 => ⟨[.shadow], [.sets], [.shadow]⟩
  | 0x0202 | 0x0204 | 0x0205 | 0x0701 => ⟨[.shadow, .fading (u32 p 0)], [.sets, .view (u32 p 0)], [.shadow]⟩
  | 0x0203 | 0x0303 => ⟨[.sets], [], [.shadow]⟩
  | 0x0301 => ⟨[.shadow], [.sets, .commits], [.shadow]⟩
  | 0x0401 | 0x0404 => ⟨[.emitter (u8 p 0), .output (u8 p 0)], [.emitter (u8 p 0)], [.output (u8 p 0)]⟩
  | 0x0403 => ⟨[.view (u32 p 0), .commits, .emitter (u8 p 4)], [.fading (u32 p 0), .emitter (u8 p 4)], []⟩
  | 0x0405 => ⟨[.output (u8 p 0)], [], [.output (u8 p 0)]⟩
  | 0x0603 =>
    if u8 p 2 = 3 then ⟨[.inject (u8 p 0)], [], [.inject (u8 p 0)]⟩
    else ⟨[.commits, .loop (u8 p 0), .inject (u8 p 0)], [.loop (u8 p 0)], [.inject (u8 p 0)]⟩
  | 0x0604 | 0x0605 => ⟨[.cameo], [], [.cameo]⟩
  | 0x0706 => ⟨[.inhibit], [.inhibit], []⟩
  | 0x0981 => ⟨[.shadow, .bias], [.sets, .returns], [.shadow]⟩
  | 0x0982 | 0x0983 => ⟨[.returns, .bias], [], [.bias]⟩
  | 0x0B03 | 0x0B04 | 0x0B05 | 0x0B06 => ⟨[.stage], [], [.stage]⟩
  | _ => if op / 256 = 0x05 then ⟨[.angle], [], [.angle]⟩ else ⟨[], [], []⟩

/-- What a command touches, the record that it stores included: commands that store one record wait for one another (R396).
DEDUCED, unsafe (log 120). -/
def touches (op : Nat) (p : List Byte) : Touch :=
  let t := touchesOwn op p
  let r := (storedRecord op p).toList.map Touched.record
  { t with needs := t.needs ++ r, untilDone := t.untilDone ++ r }

/-- Has a live command not begun yet? -/
def Live.waits (l : Live) : Bool := l.state != .done && l.state != .executing

/-- Has a live command neither begun nor a place in a block that carries it, as PENDING_INDEX says (R396)? -/
def State.unbegun (l : Live) (s : State) : Bool := l.waits && !s.host.journal.pendingIdx.any (·.2 == l.jix)

/-- Must command `m` wait for command `l`, accepted earlier, since both touch the same (R43, R396), or both are run anew by a replay, in
the order of their journal indices (R398)? -/
def State.heldBy (m l : Live) (s : State) : Bool :=
  let a := touches l.opcode l.cmd.payload
  let b := touches m.opcode m.cmd.payload
  let again := s.host.journal.requeued
  (l.state != .done && b.needs.any a.untilDone.contains) ||
  (s.unbegun l && (b.needs.any a.untilBegun.contains || (again.contains m.jix && again.contains l.jix)))

/-- Must a command still wait: a fenced one for an earlier command of its queue (R45), any for an earlier one that touches the same
(R43)? -/
def State.fenced (c : Cmd) (s : State) : Bool :=
  match s.liveOf c with
  | none => false
  | some m => s.host.journal.live.any fun l => decide (l.jix < m.jix) &&
      (c.fence && l.cmd.queue == c.queue && l.state != .done || s.heldBy m l)

/-- Has a sequenced command no entry that waits for its turn? It was not accepted, has completed, or its effect has been handed to
a block that carries it, and it does not run (again) (R43). -/
def State.alreadyRun (c : Cmd) (s : State) : Bool := !c.unseq && !(s.liveOf c).any fun l => s.unbegun l

/-- The state of a command whose effect waits in a block that keeps its order: as its interim reply gave it (Table 15.9). -/
def Live.interimState (l : Live) : EntryState :=
  match l.reply.map (·.block.status) with
  | some 2 => .deferred
  | some 3 => .queued
  | _ => .accepted

/-- A command that has its place in such an order is not executed yet (R400). -/
def State.notBegun (c : Cmd) (s : State) : State := s.onLive c fun l => { l with state := l.interimState }

/-- A status that a final reply of an accepted command may carry (Table 2.5). -/
def finalStatus (st : Nat) : Bool := st == stParam || st == stStale || st == stNoResource || decide (stFault ≤ st)

/-- A command ends with ST_FAULT and a DETAIL that is the device's own.
DESIGN CHOICE, safe (log 11). -/
def State.failInside (op : Nat) (c : Cmd) (s : State) : State :=
  (s.finish op c stFault (s.freeValue % 256) 0 []).freeNext

/-- A check fails as a command runs: it ends with that status where Table 2.5 lets it, as a rejection where it was not accepted. An
accepted one waits while the recovery-only state keeps it from running, and ends with ST_FAULT otherwise (R42, R49).
DESIGN CHOICE, safe (log 11). -/
def State.refuseRun (o : OpInfo) (c : Cmd) (st d : Nat) (s : State) : State :=
  if c.unseq || finalStatus st then (o.rejected c st d s).finish o.code c st d 0 []
  else if s.recoveryOnly && !recoveryOpcode o.code then s
  else s.failInside o.code c

/-- Runs a command: not while the supervisor cannot, behind an earlier command or after it ran. Its checks are made once more; then
the entry becomes EXECUTING and the effect follows.
DESIGN CHOICE, safe (log 10); DESIGN CHOICE, safe (log 11). -/
def State.run (o : OpInfo) (c : Cmd) (eff : State → State) (s : State) : State :=
  if !s.executes || s.fenced c || s.alreadyRun c then s else
  match o.check c s with
  | .reject st d => s.refuseRun o c st d
  | .ok => eff (s.onLive c fun l => { l with state := .executing })

end Sys2Proof.Machine
end

