-- ==== Sys2Proof/Machine/Operands.lean ====
section
/-!
DEFINITION. The operand forms: how the fields of a view's binding, a firing table, a field definition, the ledger table
and the per-channel and per-set images are read from their bytes.
-/
namespace Sys2Proof.Machine

/-- The number whose little-endian bytes these are. -/
def leNat : List Byte → Nat
  | [] => 0
  | b :: r => b.toNat + 256 * leNat r

/-- The numbers below `n` whose bit is set in a mask. -/
def maskBits (n mask : Nat) : List Nat := (List.range n).filter mask.testBit

/-- `f` raised to at least 1 in a divisor. -/
def pos (n : Nat) : Nat := if n = 0 then 1 else n

/-- The quotient rounded up. -/
def ceilDiv (a b : Nat) : Nat := (a + (b - 1)) / b

/-- One revolution in ac (R5). -/
def turn : Nat := 2 ^ 20

/-! ## A view's binding (Table 3.2) -/

def ViewDef.azStart (v : ViewDef) : Nat := u32 v.binding 0 % 2 ^ 20
def ViewDef.width (v : ViewDef) : Nat := u32 v.binding 4 % 2 ^ 20
def ViewDef.cellCount (v : ViewDef) : Nat := u16 v.binding 8
def ViewDef.shots (v : ViewDef) : Nat := u8 v.binding 10
/-- BIN_WIDTH in fine steps. -/
def ViewDef.binWidth (v : ViewDef) : Nat := 8 * 2 ^ (u8 v.binding 11 % 4)
def ViewDef.bins (v : ViewDef) : Nat := u16 v.binding 12
def ViewDef.select (v : ViewDef) : Nat := u8 v.binding 14 % 4
def ViewDef.maxEchoes (v : ViewDef) : Nat := bits (u8 v.binding 14) 4 2
def ViewDef.role (v : ViewDef) : Nat := u8 v.binding 15
def ViewDef.elevLo (v : ViewDef) : Int := s16 v.binding 16
def ViewDef.elevHi (v : ViewDef) : Int := s16 v.binding 18
def ViewDef.emitterMask (v : ViewDef) : Nat := u16 v.binding 20
def ViewDef.stream (v : ViewDef) : Nat := u8 v.binding 22
def ViewDef.fieldMask (v : ViewDef) : Nat := u16 v.binding 24
def ViewDef.channelMask (v : ViewDef) : Nat := leNat (slice v.binding 32 24)
def ViewDef.kernelCount (v : ViewDef) : Nat := u8 v.binding 56
def ViewDef.kernel (v : ViewDef) (k : Nat) : Nat := u8 v.binding (64 + 8 * k)
def ViewDef.minMajor (v : ViewDef) (k : Nat) : Nat := u8 v.binding (65 + 8 * k)
def ViewDef.chain (v : ViewDef) : List Nat := (List.range v.kernelCount).map v.kernel
def ViewDef.channels (v : ViewDef) : List Nat := maskBits 192 v.channelMask
def ViewDef.emitters (v : ViewDef) : List Nat := maskBits 16 v.emitterMask
/-- The view's channels in a tile (R10). -/
def ViewDef.tileChannels (v : ViewDef) (t : Nat) : List Nat := v.channels.filter (· / 24 == t)
/-- The span in ac. -/
def ViewDef.span (v : ViewDef) : Nat := v.width * v.cellCount
/-- Start angle of cell `j`. -/
def ViewDef.cellStart (v : ViewDef) (j : Nat) : Nat := (v.azStart + j * v.width) % turn
/-- θ(j, k) of R186. -/
def ViewDef.shotAngle (v : ViewDef) (j k : Nat) : Nat :=
  (v.azStart + j * v.width + (2 * k + 1) * v.width / (2 * pos v.shots)) % turn
/-- Length of a histogram range in ticks, rounded up. -/
def ViewDef.rangeTicks (v : ViewDef) : Nat := ceilDiv (v.bins * v.binWidth) 64
/-- Position of a kernel in the chain. -/
def ViewDef.posOf (v : ViewDef) (kernel : Nat) : Option Nat := v.chain.findIdx? (· == kernel)
/-- Parameter block of chain position `k`. -/
def ViewDef.param (v : ViewDef) (k : Nat) : List Byte := v.params.getD k []
/-- Parameter block of a kernel of the chain; empty without it. -/
def ViewDef.block (v : ViewDef) (kernel : Nat) : List Byte := ((v.posOf kernel).map v.param).getD []

/-- Units of a kernel's parameter block (Table 10.6). -/
def blockUnits : Nat → Nat
  | 1 => 1 | 2 => 64 | 3 => 2 | 4 => 4 | 5 => 2 | 6 => 4 | 7 => 8 | 8 => 2 | 9 => 2 | _ => 0

/-! ### K_ACCUM (Table 10.7) -/

def ViewDef.weighted (v : ViewDef) : Bool := bit (u8 (v.block 1) 0) 0
def ViewDef.weightPlane (v : ViewDef) : Bool := bit (u8 (v.block 1) 0) 1
def ViewDef.cellMerge (v : ViewDef) : Nat := pos (u8 (v.block 1) 1)
def ViewDef.inc (v : ViewDef) (w : Nat) : Nat := u8 (v.block 1) (8 + w)

/-- Does the view's span contain the revolution boundary in its interior (R76)? -/
def ViewDef.wraps (v : ViewDef) : Bool := turn < v.azStart + v.span

/-- The cells of one histogram: the group of R277 that holds cell `j`, divided at the boundary. First cell and number. -/
def ViewDef.group (v : ViewDef) (j : Nat) : Nat × Nat :=
  let m := v.cellMerge
  let g := j / m * m
  let edge := (turn - v.azStart) / pos v.width   -- cells before the boundary
  if v.wraps && decide (g < edge) && decide (edge < g + m) then
    if j < edge then (g, edge - g) else (edge, g + m - edge)
  else (g, m)

/-! ## Firing tables (Table 7.7) -/

/-- One entry of a firing table. `group` is the 192-bit channel mask. -/
structure FireEntry where
  emitter : Nat
  slotBase : Nat
  slotCount : Nat
  offset : Nat
  group : Nat
deriving DecidableEq, Repr

def fireEntry (p : List Byte) (e : Nat) : FireEntry :=
  { emitter := u8 p (16 + 32 * e), slotBase := u8 p (17 + 32 * e), slotCount := u8 p (18 + 32 * e),
    offset := u16 p (20 + 32 * e), group := leNat (slice p (24 + 32 * e) 24) }

def fireT0Mode (p : List Byte) : Bool := bit (u8 p 4) 0
def fireCount (p : List Byte) : Nat := u8 p 5
def fireDitherMax (p : List Byte) : Nat := u8 p 6
def fireSeed (p : List Byte) : Nat := u32 p 8
def fireEntries (p : List Byte) : List FireEntry := (List.range (fireCount p)).map (fireEntry p)

/-- The slot that shot `k` plays (R186). -/
def FireEntry.slotOf (f : FireEntry) (k : Nat) : Nat := f.slotBase + k % pos f.slotCount
def FireEntry.channels (f : FireEntry) : List Nat := maskBits 192 f.group

/-- The view's firing-table image; empty without one. -/
def ViewDef.table (v : ViewDef) : List Byte := v.fire.getD []
def ViewDef.entries (v : ViewDef) : List FireEntry := fireEntries v.table
def ViewDef.optical (v : ViewDef) : Bool := fireT0Mode v.table

/-! ## Sets -/

def ConfigSet.view (h : Nat) (c : ConfigSet) : Option ViewDef := c.views.find? (·.handle == h)

/-- The set that an epoch names: the active one, the shadow set for which a swap is armed, or an earlier one whose chains
still run. -/
def State.setOf (epoch : Nat) (s : State) : ConfigSet :=
  if epoch == s.sets.epoch then s.sets.active
  else if epoch == wrap 16 (s.sets.epoch + 1) && !s.sets.commits.isEmpty then s.sets.shadow
  else ((s.sets.old.find? (·.1 == epoch)).map (·.2)).getD ConfigSet.empty

/-- A view as the set of an epoch defines it. -/
def State.viewIn (epoch h : Nat) (s : State) : Option ViewDef := (s.setOf epoch).view h

/-- A view of the active set. -/
def State.activeView (h : Nat) (s : State) : Option ViewDef := s.sets.active.view h

/-- RX settings of a channel in a set; byte positions of Table 9.8 less 24. -/
def ConfigSet.rxOf (ch : Nat) (c : ConfigSet) : List Byte := c.rx.getD ch rxDefault
def rxGain (p : List Byte) : Nat := u8 p 0 % 4
def rxDead (p : List Byte) : Nat := u8 p 1
def rxBase (p : List Byte) : Nat := u8 p 2
def rxMin (p : List Byte) : Nat := u8 p 3
def rxMax (p : List Byte) : Nat := u8 p 4
def rxTrack (p : List Byte) : Bool := bit (u8 p 5) 0
/-- LONG_HIGH in units of 10 ns. -/
def rxLongHigh (p : List Byte) : Nat := u16 p 6
def rxEdge (p : List Byte) (k : Nat) : Nat := u8 p (7 + k)
def rxRateMax (p : List Byte) : Nat := u16 p 16
/-- Dead time in samples of 390.625 ps, rounded up (R247: 2.0 ns + 0.5 ns per code). -/
def rxDeadPs (p : List Byte) : Nat := 2000 + 500 * rxDead p

/-- The weight of a time over threshold (R248). -/
def rxWeight (p : List Byte) (tot : Nat) : Nat :=
  ((List.range 7).filter fun k => rxEdge p (k + 1) ≤ tot).length

/-! ## SCHED_CONFIG and ZONE_CONFIG (R211), NEARFIELD_CONFIG (Table 7.8) -/

def ConfigSet.paceMargin (c : ConfigSet) : Nat := u8 c.sched 0
def ConfigSet.emitCeiling (c : ConfigSet) : Nat := u32 c.sched 4
def ConfigSet.zoneMap (c : ConfigSet) : Nat := u16 c.zone 0
def ConfigSet.tpWidth (c : ConfigSet) : Nat := u16 c.zone 2
def ConfigSet.tpPeriod (c : ConfigSet) : Nat := u16 c.zone 4
def ConfigSet.nfEnable (c : ConfigSet) : Bool := bit (u8 c.nearField 0) 0
def ConfigSet.nfWeight (c : ConfigSet) : Nat := u8 c.nearField 1
def ConfigSet.nfCount (c : ConfigSet) : Nat := u8 c.nearField 2
def ConfigSet.nfHold (c : ConfigSet) : Nat := u8 c.nearField 3
def ConfigSet.nfStart (c : ConfigSet) : Nat := u16 c.nearField 4
def ConfigSet.nfEnd (c : ConfigSet) : Nat := u16 c.nearField 6
def ConfigSet.nfSector (c : ConfigSet) : Nat := u32 c.nearField 8

/-! ## Field definitions (Table 7.9) -/

def ConfigSet.field (n : Nat) (c : ConfigSet) : Option (List Byte) := (c.fields.find? (·.1 == n)).map (·.2)
def fdVertices (p : List Byte) : Nat := u8 p 1
def fdMinPoints (p : List Byte) : Nat := u8 p 2
def fdConfirmCells (p : List Byte) : Nat := u8 p 3
def fdConfirmRevs (p : List Byte) : Nat := u8 p 4
def fdClearRevs (p : List Byte) : Nat := u8 p 5
def fdIgnore (p : List Byte) : Nat := u8 p 6
def fdGroup (p : List Byte) : Nat := leNat (slice p 16 24)
def fdAngle (p : List Byte) (i : Nat) : Nat := u32 p (48 + 8 * i) % 2 ^ 20
def fdNear (p : List Byte) (i : Nat) : Nat := u16 p (52 + 8 * i)
def fdFar (p : List Byte) (i : Nat) : Nat := u16 p (54 + 8 * i)
/-- Vertex angle relative to the first vertex (R197). -/
def fdRel (p : List Byte) (i : Nat) : Nat := (fdAngle p i + turn - fdAngle p 0) % turn
/-- The span of a field from its first vertex. -/
def fdSpan (p : List Byte) : Nat := fdRel p (fdVertices p - 1)

/-! ## The ledger table (Table 8.7) -/

def ltClass (t : List Byte) : Nat := u8 t 2
def ltResume (t : List Byte) : Nat := u8 t 3
def ltColdFill (t : List Byte) : Nat := u8 t 4
def ltMinSpeed (t : List Byte) : Nat := u32 t 8
def ltResC (t : List Byte) (k : Nat) : Nat := u16 t (16 + 2 * k)
def ltResDiv (t : List Byte) (k : Nat) : Nat := u16 t (24 + 2 * k)
def ltResMax (t : List Byte) (k : Nat) : Nat := u32 t (32 + 4 * k)
def ltScale (t : List Byte) (r : Nat) : Nat := if r < 16 then u32 t (64 + 32 * r) else 0
def ltFloor (t : List Byte) (r : Nat) : Nat := u16 t (68 + 32 * r) % 4096
/-- A limit field: window 0 PULSE, 1 W5US, 2 W100MS, 3 W10S. -/
def ltLimitField (t : List Byte) (r w : Nat) : Nat := u32 t (72 + 32 * r + 4 * w)
/-- A limit in 2^-16 pJ (Table 8.4). -/
def ltLimit (t : List Byte) (r w : Nat) : Nat :=
  ltLimitField t r w * 65536 * (if w ≤ 1 then 1 else if w = 2 then 1000 else 1000000)

/-! ## Channels, front ends and lanes (R10, R11, Table 1.2) -/

/-- The front end that serves a channel. -/
def State.feOf (ch : Nat) (s : State) : Nat := s.power.repair.feFor.getD ch (ch / 24 * 26 + ch % 24)

/-- The calibration lane of a front end: 5t + k, k the cluster of its slot or 3, 4 for the spare slots (Table 4.6b). -/
def laneOfFe (fe : Nat) : Nat :=
  let p := fe % 26
  5 * (fe / 26) + (if p < 24 then p / 8 else p - 21)

def State.laneOf (ch : Nat) (s : State) : Nat := laneOfFe (s.feOf ch)

/-- The T0 lane. -/
def t0Lane : Nat := 40

def State.lane (n : Nat) (s : State) : Lane := s.clk.lanes.getD n Lane.reset
def State.onLane (n : Nat) (f : Lane → Lane) (s : State) : State :=
  s.onClk fun c => { c with lanes := c.lanes.modify n f }
def State.fe (n : Nat) (s : State) : FrontEndCal := s.clk.fes.getD n FrontEndCal.reset
def State.onFe (n : Nat) (f : FrontEndCal → FrontEndCal) (s : State) : State :=
  s.onClk fun c => { c with fes := c.fes.modify n f }

/-- Does a spare front end serve the channel? -/
def State.spareServing (ch : Nat) (s : State) : Bool := s.feOf ch % 26 ≥ 24

/-- Physical engine of a logical engine. -/
def State.physOf (e : Nat) (s : State) : Option Nat := s.power.repair.engineFor.getD e none
/-- Logical engine of a physical engine. -/
def State.logicalOf (g : Nat) (s : State) : Option Nat := s.power.repair.engineFor.findIdx? (· == some g)
def State.engine (g : Nat) (s : State) : Engine := s.fabric.engines.getD g Engine.reset
def State.onEngine (g : Nat) (f : Engine → Engine) (s : State) : State :=
  s.onFabric fun b => { b with engines := b.engines.modify g f }

/-- Does a mark of Table 10.4 stand in a histogram? -/
def Hist.mark (h : Hist) (b : Nat) : Bool := h.marks.getLsbD b
/-- Sets a mark of Table 10.4. -/
def Hist.setMark (b : Nat) (c : Bool) (h : Hist) : Hist :=
  if c then { h with marks := h.marks ||| BitVec.ofNat 16 (2 ^ b) } else h

/-! ## Memory regions (Table 15.5) -/

/-- Regions of a row of Table 1.5. -/
def regionCount : Nat → Nat
  | 1 => 96 | 3 => 18 | 4 => 2 | 5 => 3 | 7 => 2 | 9 => 2 | _ => 1

/-- Words of 16 bytes in a region; 0 for a memory that is not scrubbed. -/
def regionWords (row region : Nat) : Nat :=
  match row with
  | 1 => 4096 | 3 => 2048 | 4 => 8192
  | 5 => if region = 0 then 24576 else 4096
  | 6 => 131072 | 7 => 32768 | 9 => 8192 | 10 => 8192 | 11 => 512 | _ => 0

def MemRegion.reset (row region : Nat) : MemRegion :=
  { row := row, region := region, ueSeen := false, candidate := false, ce := 0, ue := 0, ceLastPass := 0, ceThisPass := 0,
    passes := 0, lastCe := 0, lastUe := 0 }

def State.memRegion (row region : Nat) (s : State) : MemRegion :=
  (s.integrity.regions.find? fun r => r.row == row && r.region == region).getD (MemRegion.reset row region)

def State.onRegion (row region : Nat) (f : MemRegion → MemRegion) (s : State) : State :=
  let r := f (s.memRegion row region)
  s.onIntegrity fun k =>
    { k with regions := k.regions.filter (fun x => !(x.row == row && x.region == region)) ++ [r] }

/-- An uncorrectable word, met by the scrubber or by a read, is counted in its region (R390). -/
def State.noteLost (row region word : Nat) (s : State) : State :=
  s.onRegion row region fun r => { r with ueSeen := true, ue := satInc 32 r.ue, lastUe := word }

end Sys2Proof.Machine
end

