-- ==== Sys2Proof/Machine/Arbiter.lean ====
section
/-!
DEFINITION. The maintenance arbiter's queue (R443, Table 17.5), the spares and the repair map (R31, R440), and how other
chapters ask for stores, substitutions and tests.
-/
namespace Sys2Proof.Machine

/-! ## Activities (Table 17.5) -/

def scopeHalf (h : Nat) : Nat := 0x10 + h
def scopeFilter : Nat := 0x20
def scopeNvm : Nat := 0x30
def scopeCommand : Nat := 0xFE

/-- Class of an activity. -/
def Activity.cls (a : Activity) : Nat :=
  if a.retest then 3
  else if a.code ≤ 0x06 then 0
  else if a.code ≤ 0x08 then 1
  else if a.code = 0x09 then 2 else 3

/-- An activity that acts on a target and stores nothing. -/
def Activity.plain (code scope target row : Nat) (cmds : List (Nat × Cmd)) : Activity :=
  { code := code, scope := scope, target := target, row := row, recId := 0, format := 0, data := none, cmds := cmds,
    retest := false, start := none }

/-- A store of a record. -/
def Activity.store (code id format : Nat) (data : Option (List Byte)) (cmds : List (Nat × Cmd)) : Activity :=
  { code := code, scope := scopeNvm, target := 0, row := 0, recId := id, format := format, data := data, cmds := cmds,
    retest := false, start := none }

/-- Would one more activity of a class overflow the queue: 40 entries are class 0's own, of 255?
DEDUCED, unsafe (log 109). -/
def State.arbiterFull (cls : Nat) (s : State) : Bool :=
  if cls = 0 then 40 ≤ (s.health.queue.filter (·.cls == 0)).length
  else 215 ≤ (s.health.queue.filter (·.cls != 0)).length

/-- A queued store of the same record absorbs the request (rule 6). -/
def Activity.absorbs (new a : Activity) : Bool :=
  a.scope == scopeNvm && new.scope == scopeNvm && a.recId == new.recId

/-- An NVM activity that only mirrors the copy in use, or rewrites its check word (Table 16.7). -/
def Activity.followUp (id : Nat) : Activity := { Activity.store 0x09 id 1 none [] with target := 1 }

/-- The store that results: the record, its format and data as the later request wants them, for both requests.
DEDUCED, unsafe (log 102). -/
def Activity.merge (new a : Activity) : Activity :=
  if new.target = 1 then { a with cmds := a.cmds ++ new.cmds }
  else { a with target := 0, format := new.format, data := new.data, cmds := a.cmds ++ new.cmds }

/-- Absorbs a request into the first queued store of its record.
DEDUCED, unsafe (log 102). -/
def absorbInto (new : Activity) : List Activity → List Activity
  | [] => []
  | a :: r => if new.absorbs a then new.merge a :: r else a :: absorbInto new r

def State.onArbiterQueue (f : List Activity → List Activity) (s : State) : State :=
  s.onHealth fun h => { h with queue := f h.queue }

/-- Requests an activity; the device's own that finds the queue full is dropped, while that of a command, which found room when it was
accepted, is taken.
DEDUCED, unsafe (log 109). -/
def State.request (a : Activity) (s : State) : State :=
  if s.health.queue.any a.absorbs then s.onArbiterQueue (absorbInto a)
  else if s.arbiterFull a.cls && a.cmds.isEmpty then s else s.onArbiterQueue (· ++ [a])

/-- The position that QUEUED reports (Table 2.5): that of the last activity queued. -/
def State.queuePosition (s : State) : Nat := s.health.queue.length

/-- The reject of a command whose activity would overflow the queue (R443). -/
def State.arbiterCheck (cls : Nat) (s : State) : Verdict :=
  firstFail [(s.arbiterFull cls, stNoResource, 0x70)]

/-- The same for a command with PERSIST or STORE: its store is an activity of class 1. -/
def State.storeCheck (store : Bool) (s : State) : Verdict := if store then s.arbiterCheck 1 else .ok

/-- Asks for a store by a command of opcode `op` (activity 0x07); the final reply follows it. -/
def State.storeFor (op id : Nat) (data : Option (List Byte)) (c : Cmd) (s : State) : State :=
  (s.request (Activity.store 0x07 id 1 data [(op, c)])).setPending (.record id) c

/-- Asks for a store by a command that has taken effect: its reply, with the block of that effect, follows the store (R152, R219,
R262). -/
def State.storeAfter (op id : Nat) (c : Cmd) (b : StatusBlock) (s : State) : State :=
  (s.onNvm fun n => { n with waits := n.waits.filter (·.cmd != c) ++ [{ cmd := c, block := b }] }).storeFor op id none c

/-- Asks for a store by the device itself (activity 0x09). -/
def State.deviceStore (id : Nat) (s : State) : State := s.request (Activity.store 0x09 id 1 none [])

/-- Asks for a Clasp checkpoint (activity 0x08).
DEDUCED, safe (log 42). -/
def State.claspStore (s : State) : State := s.request (Activity.store 0x08 0x27 1 none [])

/-- Asks for a store of the repair map (activity 0x05). -/
def State.storeMap (s : State) : State := s.request (Activity.store 0x05 2 1 none [])

/-! ## Records in use (R419, R422) -/

def State.record (id : Nat) (s : State) : NvmRecord := (s.nvm.records.find? (·.id == id)).getD (NvmRecord.reset id)

/-- An erased copy counts as an absent record. -/
def NvmCopy.erased (c : NvmCopy) : Bool := c.format == 0xFFFF

/-- Is a record present? -/
def State.recordPresent (id : Nat) (s : State) : Bool := (s.record id).inUse.any fun c => !c.erased

/-- The generation in use; 0 before the first store. -/
def State.recordGen (id : Nat) (s : State) : Nat := ((s.record id).inUse.map (·.generation)).getD 0

/-! ## The repair map and the spares -/

def State.onRepair (f : RepairMap → RepairMap) (s : State) : State :=
  s.onPower fun p => { p with repair := f p.repair }

/-- AUTO_REPAIR (R446). -/
def State.autoRepair (s : State) : Bool := bit (u8 s.health.config 4) 0

/-- Is a front end healthy and serving no channel?
DEDUCED, unsafe (log 110). -/
def State.feSpare (fe : Nat) (s : State) : Bool :=
  !(s.power.repair.badFe.contains fe) && !(s.power.repair.feFor.contains fe)

/-- The spare front end that a tile gives next: slot 24, then slot 25 (Table 17.4), unless it is already on its way to a
channel. -/
def State.nextSpareFe (t : Nat) (s : State) : Option Nat :=
  [t * 26 + 24, t * 26 + 25].find? fun fe => s.feSpare fe &&
    !(s.returns.channels.any fun c => c.pendingSlot == some fe)

/-- Is a physical engine healthy and unbound?
DEDUCED, unsafe (log 110). -/
def State.engineSpare (g : Nat) (s : State) : Bool :=
  !(s.power.repair.badEngine.contains g) && !(s.power.repair.engineFor.contains (some g))

/-- The lowest-numbered healthy unbound engine of a tile. -/
def State.nextSpareEngine (t : Nat) (s : State) : Option Nat :=
  ((List.range 18).map (t * 18 + ·)).find? fun g => s.engineSpare g

/-- The spare core of an output's half, if it is healthy and drives nothing.
DEDUCED, unsafe (log 110). -/
def State.nextSpareCore (e : Nat) (s : State) : Option Nat :=
  let k := 16 + e / 8
  if s.power.repair.badCore.contains k || s.power.repair.coreFor.contains (some k) then none else some k

/-- Repair rows of a bank that are in use. -/
def RepairMap.rowsUsed (bank : Nat) (r : RepairMap) : List Nat := (r.sramRows.filter (·.1 == bank)).map (·.2.2)

/-- The lowest free repair row of a bank. -/
def State.freeRow (bank : Nat) (s : State) : Option Nat :=
  (List.range 8).find? fun r => !((s.power.repair.rowsUsed bank).contains r)

/-- Healthy spare front ends, engines and cores of the device, and free repair rows. -/
def State.feSparesFree (s : State) : Nat :=
  ((List.range 16).filter fun i => s.feSpare (i / 2 * 26 + 24 + i % 2)).length
def State.engineSparesFree (s : State) : Nat := ((List.range 144).filter fun g => s.engineSpare g).length
def State.coreSparesFree (s : State) : Nat := ([0, 8].filter fun e => (s.nextSpareCore e).isSome).length
def State.rowsFree (s : State) : Nat := 768 - s.power.repair.sramRows.length

/-- SPARES_LOW (R442): a group without a healthy spare. -/
def State.sparesLow (s : State) : Bool :=
  ((List.range 8).any fun t => !(s.feSpare (t * 26 + 24)) && !(s.feSpare (t * 26 + 25))) ||
  ((List.range 8).any fun t => (s.nextSpareEngine t).isNone) ||
  ([0, 8].any fun e => (s.nextSpareCore e).isNone) ||
  ((List.range 96).any fun b => (s.freeRow b).isNone)

/-! ## Triggers of a substitution (Table 17.4); without AUTO_REPAIR they are only reported -/

/-- Is an activity with a code and target queued or running? -/
def State.underway (code target : Nat) (s : State) : Bool :=
  (s.health.queue ++ s.health.running).any fun a => a.code == code && a.target == target

/-- Asks for a substitution unless the same one is under way. -/
def State.trigger (code scope target row : Nat) (s : State) : State :=
  if s.autoRepair && !s.underway code target then s.request (Activity.plain code scope target row []) else s

/-- The front end of a channel has failed. -/
def State.feFailed (ch : Nat) (s : State) : State :=
  let fe := s.feOf ch
  (s.onRepair fun r => { r with badFe := if r.badFe.contains fe then r.badFe else r.badFe ++ [fe] }).trigger
    0x01 (ch / 24) ch 0

/-- Physical engine `g` has failed: the logical engine it served is to be bound anew. -/
def State.engineFailed (g : Nat) (s : State) : State :=
  let s := s.onRepair fun r => { r with badEngine := if r.badEngine.contains g then r.badEngine else r.badEngine ++ [g] }
  match s.logicalOf g with
  | some e => s.trigger 0x02 (g / 18) e 0
  | none => s

/-- The core of output `e` is to be checked (`row` 1: after SHORT) or replaced. -/
def State.coreTrouble (e row : Nat) (s : State) : State := s.trigger 0x03 (scopeHalf (e / 8)) e row

/-- Asks for the repair of a row of a bank (Table 17.4), unless it is under way; while class 0 has no room the candidate waits in
its bank's list (R443).
DEDUCED, unsafe (log 109). -/
def State.rowTrouble (bank row : Nat) (s : State) : State :=
  let same (a : Activity) : Bool := a.code == 0x04 && a.target == bank && a.row == row
  if !s.autoRepair || (s.health.queue ++ s.health.running).any same || s.integrity.repairList.contains (bank, row) then s
  else if s.arbiterFull 0 then s.onIntegrity fun k => { k with repairList := k.repairList ++ [(bank, row)] }
  else s.request (Activity.plain 0x04 (bank / 12) bank row [])

/-- The first repair candidate that waits in a list is asked for, once class 0 has room. -/
def State.listedRow (s : State) : State :=
  match s.integrity.repairList with
  | [] => s
  | (bank, row) :: rest =>
    if s.arbiterFull 0 then s
    else (s.onIntegrity fun k => { k with repairList := rest }).request (Activity.plain 0x04 (bank / 12) bank row [])

end Sys2Proof.Machine
end

