-- ==== Sys2Proof/Machine/Flags.lean ====
section
/-!
DEFINITION. The field checks of step 11 (R7, R36, R480) and the flag words of the status blocks.
-/
namespace Sys2Proof.Machine

/-! ## Field checks -/

/-- A field that fails when `bad`: ST_PARAM with the payload unit of byte `i`. -/
def chk (bad : Bool) (i : Nat) : Bool × Nat × Nat := (bad, stParam, i / 16)

/-- Bytes `i .. i+n-1` are reserved (R7): DETAIL is the unit of the first nonzero byte.
DESIGN CHOICE, unsafe (log 13). -/
def rsvd (p : List Byte) (i n : Nat) : Bool × Nat × Nat :=
  match (slice p i n).findIdx? (· != 0) with
  | some k => (true, stParam, (i + k) / 16)
  | none => (false, stParam, i / 16)

/-- Bits `w` and up of byte `i` are reserved.
DESIGN CHOICE, unsafe (log 13). -/
def rsvdBits (p : List Byte) (i w : Nat) : Bool × Nat × Nat := chk (2 ^ w ≤ u8 p i) i

/-- A CLEAR_MASK of two bytes at `i`: only the positions of `sticky` may be set (R480). -/
def maskChk (p : List Byte) (i sticky : Nat) : Bool × Nat × Nat := chk (u16 p i &&& sticky != u16 p i) i

/-- ST_LOCKED, DETAIL 0x03, when `bad`. -/
def locked3 (bad : Bool) : Bool × Nat × Nat := (bad, stLocked, 3)

/-- Is an UNSEQ packet permitted when its mask at byte `i` is 0? -/
def unseqIf0 (i : Nat) (p : List Byte) : Bool := u16 p i == 0

/-- A Boolean list as bits from bit 0 up. -/
def flagsOf (l : List Bool) : Nat := (l.zipIdx.map fun x => flag x.1 x.2).foldl (· + ·) 0

/-! ## Live status words -/

/-- INHIBIT_LIVE and SUPERVISOR_SRC. -/
def State.inhibitLive (s : State) : Nat := s.sched.inhibit.toNat
def State.supervisorSrc (s : State) : Nat := s.sched.src.toNat

/-- Is an unlock of R236 open? -/
def State.unlockOpen (s : State) : Bool := s.emission.unlock.openAt.any fun t => decide (s.now < t + sec 10)

/-- Is a command that needs an unlock barred for want of one? An accepted one has used its unlock up already (R236). -/
def State.unlockBars (c : Cmd) (needs : Bool) (s : State) : Bool := needs && (s.liveOf c).isNone && !s.unlockOpen

/-- EMIT_FLAGS (Table 8.9). -/
def State.emitFlags (s : State) : Nat :=
  let m := s.emission
  flagsOf [s.sched.inhibit.getLsbD 1, !m.tableValid, m.enDiscrepancy, s.sched.inhibit.getLsbD 3, m.ledgerSeen,
           m.slotOverSeen, m.resOverSeen, s.unlockOpen, m.unlock.failSeen]

/-- Does a view of a set name an emitter? -/
def ConfigSet.namesEmitter (e : Nat) (c : ConfigSet) : Bool := c.views.any fun v => v.emitterMask.testBit e

/-- Does a view of a set name a channel? -/
def ConfigSet.namesChannel (ch : Nat) (c : ConfigSet) : Bool := c.views.any fun v => v.channelMask.testBit ch

end Sys2Proof.Machine
end

