-- ==== Sys2Proof/Machine/Sha.lean ====
section
/-!
DEFINITION. SHA-256 and HMAC-SHA-256, which the ledger unlock uses (R236). The constants are worked out from the roots of primes that
they are defined by.
-/
namespace Sys2Proof.Machine

/-! ## Constants -/

/-- The primes below 312, of which there are 64. -/
def shaPrimes : List Nat :=
  (List.range 312).filter fun p => 2 ≤ p && [2, 3, 5, 7, 11, 13, 17].all fun d => p = d || p % d ≠ 0

/-- The greatest `r` of `n` more bits with r ^ k at most `m`. -/
def rootBits (k m : Nat) : Nat → Nat → Nat
  | 0, r => r
  | n + 1, r => rootBits k m n (if (r + 2 ^ n) ^ k ≤ m then r + 2 ^ n else r)

/-- The first 32 bits of the fraction of the `k`-th root of a number below 512. -/
def rootFraction (k p : Nat) : BitVec 32 := BitVec.ofNat 32 (rootBits k (p * 2 ^ (32 * k)) 37 0)

/-- The round constants, from cube roots. -/
def shaConstants : List (BitVec 32) := shaPrimes.map (rootFraction 3)

/-! ## The compression function -/

/-- The last four values of one of the two words that every round makes anew, the newest first. -/
structure ShaQuad where
  one : BitVec 32
  two : BitVec 32
  three : BitVec 32
  four : BitVec 32
deriving DecidableEq, Repr

/-- Four words that follow in a list. -/
def ShaQuad.of (l : List (BitVec 32)) : ShaQuad :=
  { one := l.getD 0 0, two := l.getD 1 0, three := l.getD 2 0, four := l.getD 3 0 }

def ShaQuad.push (w : BitVec 32) (q : ShaQuad) : ShaQuad := { one := w, two := q.one, three := q.two, four := q.three }

def ShaQuad.add (p q : ShaQuad) : ShaQuad :=
  { one := p.one + q.one, two := p.two + q.two, three := p.three + q.three, four := p.four + q.four }

def ShaQuad.bytes (q : ShaQuad) : List Byte := ([q.one, q.two, q.three, q.four].map fun w => be 4 w.toNat).flatten

/-- The hash before the first block, from square roots. -/
def shaStart : ShaQuad × ShaQuad :=
  let l := (shaPrimes.take 8).map (rootFraction 2)
  (ShaQuad.of l, ShaQuad.of (l.drop 4))

/-- The exclusive or of a word's rotations to the right. -/
def spins (l : List Nat) (x : BitVec 32) : BitVec 32 := l.foldl (fun y n => y ^^^ x.rotateRight n) 0

/-- One round with constant and message word already added. -/
def shaRound (kw : BitVec 32) (s : ShaQuad × ShaQuad) : ShaQuad × ShaQuad :=
  let a := s.1
  let e := s.2
  let choice := e.three ^^^ (e.one &&& (e.two ^^^ e.three))
  let major := (a.one &&& (a.two ||| a.three)) ||| (a.two &&& a.three)
  let t := e.four + choice + spins [6, 11, 25] e.one + kw
  (a.push (t + major + spins [2, 13, 22] a.one), e.push (a.four + t))

/-- The word that follows sixteen message words. -/
def shaNext (w : List (BitVec 32)) : BitVec 32 :=
  let near := w.getD 14 0
  let far := w.getD 1 0
  w.getD 0 0 + w.getD 9 0 + (spins [7, 18] far ^^^ far >>> 3) + (spins [17, 19] near ^^^ near >>> 10)

/-- The rounds of the constants given; `w` holds the next sixteen message words. -/
def shaRounds : List (BitVec 32) → List (BitVec 32) → ShaQuad × ShaQuad → ShaQuad × ShaQuad
  | [], _, s => s
  | k :: ks, w, s => shaRounds ks (w.tail ++ [shaNext w]) (shaRound (k + w.getD 0 0) s)

/-- The words of a message, big-endian, `n` of them. -/
def beWords : Nat → List Byte → List (BitVec 32)
  | 0, _ => []
  | n + 1, m => BitVec.ofNat 32 ((m.take 4).foldl (fun x b => 256 * x + b.toNat) 0) :: beWords n (m.drop 4)

/-- Hashes `n` blocks of 64 bytes. -/
def shaBlocks : Nat → List Byte → ShaQuad × ShaQuad → ShaQuad × ShaQuad
  | 0, _, s => s
  | n + 1, m, s =>
    let r := shaRounds shaConstants (beWords 16 m) s
    shaBlocks n (m.drop 64) (s.1.add r.1, s.2.add r.2)

/-! ## Hash and authentication code -/

/-- A message filled up to whole blocks, which end with its length in bits. -/
def shaPad (m : List Byte) : List Byte :=
  let used := m.length + 9
  m ++ [0x80] ++ zeros (64 * ((used + 63) / 64) - used) ++ be 8 (8 * m.length)

/-- SHA-256. -/
def sha256 (m : List Byte) : List Byte :=
  let p := shaPad m
  let s := shaBlocks (p.length / 64) p shaStart
  s.1.bytes ++ s.2.bytes

/-- HMAC-SHA-256 with a key of at most 64 bytes. -/
def hmacSha256 (key m : List Byte) : List Byte :=
  let masked (x : Byte) : List Byte := (fit 64 key).map fun b => b ^^^ x
  sha256 (masked 0x5C ++ sha256 (masked 0x36 ++ m))

end Sys2Proof.Machine
end

