-- ==== Sys2Proof/Machine/Predict.lean ====
section
/-!
DEFINITION. From angle publications to instants and back (R136, R188), device time at a tick (R101), and exact rounding,
square roots and tail factors that the kernels use.
-/
namespace Sys2Proof.Machine

/-! ## Rounding, roots and sorting -/

/-- Inserts before the first element that does not come before it. -/
def insertBy {α : Type} (before : α → α → Bool) (x : α) : List α → List α
  | [] => [x]
  | y :: r => if before y x then y :: insertBy before x r else x :: y :: r

/-- Sorts by an order, earlier elements first among equals. -/
def sortBy {α : Type} (before : α → α → Bool) : List α → List α
  | [] => []
  | x :: r => insertBy before x (sortBy before r)

/-- To the nearest integer, halves upward: the model's reading of a plain "round".
DEDUCED, unsafe (log 81). -/
def roundRat (q : Rat) : Int := (q + (1 : Rat) / 2).floor

/-- The integer part of a square root, bit by bit from bit `k` down, on top of `r`. -/
def isqrtFrom (n : Nat) : Nat → Nat → Nat
  | 0, r => r
  | k + 1, r => let c := r + 2 ^ k; isqrtFrom n k (if c * c ≤ n then c else r)

/-- The integer part of the square root of `n`. -/
def isqrt (n : Nat) : Nat := isqrtFrom n (Nat.log2 n / 2 + 1) 0

/-- The square root of a nonnegative rational in units of 2^-b, to the nearest. -/
def sqrtScaled (b : Nat) (q : Rat) : Nat :=
  (isqrt (q * (2 ^ (2 * b + 2) : Nat)).floor.toNat + 1) / 2

/-! ## Device time (R101) -/

/-- The rate increment in units of 2^-64 s per tick: the nominal 2^50 / 78125, to the nearest unit, and the servo's
rate term. -/
def State.increment (s : State) : Int := 14411518808 + s.clk.rate

/-- Device time at tick `t`: by the segment of the last second that it fell in, or as the present increment places it (R101). -/
def State.devAt (t : Nat) (s : State) : Nat :=
  match s.clk.history.find? fun g => decide (t < g.stop) with
  | some g => ((g.dev : Int) - ((g.stop - t : Nat) : Int) * g.inc).toNat
  | none => ((s.clk.devTime : Int) + ((t : Int) - s.clk.tickCount) * s.increment).toNat

/-- The way device time has run ends here: ticks up to now stay convertible for a second (R101). -/
def State.endSegment (s : State) : State :=
  let g : DevSegment := { stop := s.clk.tickCount, dev := s.clk.devTime, inc := s.increment }
  s.onClk fun c => { c with history := (c.history.filter fun x => decide (c.tickCount < x.stop + sec 1)) ++ [g] }

/-- A device time in units of 2^-64 s as the ten bytes of R6. -/
def dev80 (d : Nat) : List Byte := le 10 (d / 2 ^ 32 % 2 ^ 80)

/-! ## Angle (R136, R188) -/

/-- Fine steps in a second. -/
def fineHz : Nat := 81920000000

/-- The published angle carried to fine step `t` on the scale of R118, in ac. -/
def State.angleAt (t : Nat) (s : State) : Nat :=
  let a := s.angle
  ((a.angle + roundDiv (16 * a.pubSpeed * ((t : Int) - a.pubStamp)) fineHz) % turn).toNat

/-- The published angle now. -/
def State.angleNow (s : State) : Nat := s.angleAt (64 * s.clk.tickCount)

/-- The tick at which the spindle stands `d` ac beyond the published angle; none while it does not turn forward. -/
def State.tickAfter (d : Int) (s : State) : Option Nat :=
  let v := 16 * s.angle.pubSpeed
  if v ≤ 0 then none
  else some (roundDiv (s.angle.pubStamp * v + d * fineHz) (64 * v.toNat)).toNat

/-- The firing tick of angle `theta`, before offset and dither (R188). -/
def State.tickOf (theta : Nat) (s : State) : Option Nat :=
  s.tickAfter (((theta : Int) - s.angle.angle) % turn)

/-- The tick that the last publication predicts for an angle nearby, ahead or behind. -/
def State.tickNear (theta : Nat) (s : State) : Option Nat :=
  let d := ((theta : Int) - s.angle.angle) % turn
  s.tickAfter (if d < turn / 2 then d else d - turn)

/-! ## The threshold factor k (R294) -/

/-- The whole part of 1 / Q(j / 16) for j = 32 .. 63, Q the Gaussian upper tail. -/
def tailA : List Nat := 
  [43, 51, 59, 69, 81, 96, 113, 135, 161, 192, 230, 277, 335, 406, 495, 604, 740, 911, 1124, 1393, 1733, 2162,
   2709, 3406, 4298, 5444, 6921, 8831, 11310, 14538, 18757, 24291]

/-- The whole part of 1 / Q(j / 16) for j = 64 .. 95. -/
def tailB : List Nat := 
  [31574, 41194, 53946, 70910, 93558, 123901, 164700, 219756, 294319, 395662, 533905, 723163, 983203, 1341796,
   1838092, 2527473, 3488555, 4833322, 6721836, 9383683, 13149312, 18496010, 26115564, 37014177, 52660507,
   75205772, 107812076, 155143868, 224106085, 324956581, 472988402, 691082506]

/-- The whole part of 1 / Q(j / 16) for j = 96 .. 127. -/
def tailC : List Nat := 
  [1013594691, 1492294444, 2205470289, 3271938300, 4872668818, 7284290428, 10931174763, 16466689230, 24900394786,
   37797865699, 57595694392, 88099823087, 135276667836, 208513488376, 322633416357, 501128385303, 781364430890,
   1222992385479, 1921586067799, 3030835617311, 4798791106959, 7627262426883, 12169517571810, 19491546692903,
   31339202408201, 50582313812274, 81955663291898, 133299700696755, 217645503139808, 356731061559174,
   586952874030058, 969475834880762]

/-- k in sixteenths: the least j with Q(j / 16) at or below 10^-far / bins (R294). -/
def tailFactor (far bins : Nat) : Nat :=
  32 + ((tailA ++ tailB ++ tailC).filter (· < bins * 10 ^ far)).length

end Sys2Proof.Machine
end

