-- ==== Sys2Proof/Machine/Plan.lean ====
section
/-!
DEFINITION. What admission and the fabric compute from a set: the admission speed, shot and cell rates, chain costs,
engine numbers, tile loads and ceilings (R190, R282), and planned stream rates (R371).
-/
namespace Sys2Proof.Machine

/-- LOOP_CONFIG image of a loop; the defaults while the set holds none (R180). -/
def ConfigSet.loopImage (n : Nat) (c : ConfigSet) : List Byte :=
  match c.loops.getD n [] with
  | [] => loopDefault n
  | p => p

/-- N_STATES of a LOOP_CONFIG and of a LOOP_COEFF payload. -/
def lcStates (p : List Byte) : Nat := u8 p 2
def ccStates (c : List Byte) : Nat := u8 c 1

/-- A set with a LOOP_CONFIG; coefficients of another N_STATES go (R180). -/
def ConfigSet.withLoop (p : List Byte) (c : ConfigSet) : ConfigSet :=
  let n := u8 p 0
  { c with loops := c.loops.modify n fun _ => p,
           coefs := c.coefs.modify n fun k => if k != [] && ccStates k != lcStates p then [] else k }

/-- The admission speed n in 2^-16 rev/s (R190). -/
def State.admissionSpeed (c : ConfigSet) (s : State) : Nat :=
  let p := c.loopImage 0
  if (c.loops.getD 0 []) ≠ [] && (u8 p 1 == 1 || u8 p 1 == 2) then (s32 p 8).natAbs
  else if u32 s.motion.record 8 ≠ 0 then u32 s.motion.record 8 else 20 * 65536

/-- C_v, cells per second, at speed `n`. -/
def ViewDef.cellRate (n : Nat) (v : ViewDef) : Rat := mkRat (16 * n) (pos v.width)

/-- R_v, shots per second of each emitter within the span. -/
def ViewDef.shotRate (n : Nat) (v : ViewDef) : Rat := (v.shots : Rat) * v.cellRate n

/-- T_v in ps. -/
def ViewDef.spanPs (v : ViewDef) : Rat := mkRat (v.bins * v.binWidth * 3125) 256

/-- Rows of a histogram. -/
def ViewDef.rows (v : ViewDef) : Nat := ceilDiv v.bins 64

/-- The cost of one kernel in handshakes (Table 10.6). -/
def ViewDef.kernelCost (v : ViewDef) (k : Nat) : Nat :=
  match k with
  | 1 => 16
  | 2 => v.rows * (1 + ceilDiv (u8 (v.block 2) 0) 32)
  | 3 => v.rows
  | 4 => v.rows + 32 * v.maxEchoes
  | 5 => 16 + v.shots * v.cellMerge
  | 6 => v.rows + 32
  | 7 => ceilDiv v.rows 2 + 16
  | 8 => 16 + 8 * v.maxEchoes
  | 9 => 32
  | _ => 0

/-- H_v. -/
def ViewDef.chainCost (v : ViewDef) : Nat := (v.chain.map v.kernelCost).foldl (· + ·) 0

/-- N_vt × H_v × C_v / (CELL_MERGE × 10^6), the view's kernel work in a tile. -/
def ViewDef.kernelWork (n t : Nat) (v : ViewDef) : Rat :=
  ((v.tileChannels t).length * v.chainCost : Nat) * v.cellRate n / ((v.cellMerge * 1000000 : Nat) : Rat)

/-- E_vt (R282); 0 where the view has no channel. -/
def ViewDef.enginesIn (n t : Nat) (v : ViewDef) : Nat :=
  let k := min 16 (v.tileChannels t).length
  if k = 0 then 0 else
  let w := v.kernelWork n t
  ((List.range k).find? fun e => decide (w ≤ 90 * ((e + 1 : Nat) : Rat))).elim k (· + 1)

/-- The ingress term of one view on one channel in handshakes/µs. -/
def ViewDef.ingressOn (n : Nat) (c : ConfigSet) (ch : Nat) (v : ViewDef) : Rat :=
  let windows : Int := (v.spanPs / (rxDeadPs (c.rxOf ch) : Rat)).ceil
  min 500000000 (v.shotRate n * windows) / 2000000

/-- Does a channel's least window spacing fall below T_v + 240 ns? -/
def ViewDef.crowded (n : Nat) (v : ViewDef) : Bool :=
  let spacing : Rat := 1000000000000 / v.shotRate n - mkRat (fireDitherMax v.table * 3125) 4
  decide (0 < v.shotRate n) && decide (spacing < v.spanPs + 240000)

/-- The load of a tile in handshakes/µs; none when it exceeds any ceiling (R190). -/
def ConfigSet.tileLoad (n t : Nat) (c : ConfigSet) : Option Rat :=
  let vs := c.views.filter fun v => !(v.tileChannels t).isEmpty
  if vs.any (ViewDef.crowded n) then none else
  let lin := (vs.map fun v => ((v.tileChannels t).map fun ch => v.ingressOn n c ch).foldl max 0).foldl max 0
  let lk := (vs.map fun v => v.kernelWork n t / (v.enginesIn n t : Rat)).foldl (· + ·) 0
  some (max lin lk)

/-- The shot-density ceiling of a tile (R190, Table 17.3). -/
def State.ceilingOf (c : ConfigSet) (t : Nat) (s : State) : Rat :=
  max 0 (mkRat ((s.power.tiles.getD t TilePace.reset).paceFull * (256 - c.paceMargin)) 256 - (s.health.sdMargin.getD t 0 : Rat))

/-- Does the load of a tile exceed its ceiling? -/
def State.overloaded (c : ConfigSet) (t : Nat) (s : State) : Bool :=
  match c.tileLoad (s.admissionSpeed c) t with
  | some l => decide (s.ceilingOf c t < l)
  | none => true

/-- A load as SHOT_STATUS shows it: whole handshakes/µs, saturating.
DEDUCED, unsafe (log 43). -/
def loadField (l : Option Rat) : Nat := match l with
  | some q => min 65535 q.ceil.toNat
  | none => 65535

/-- LOAD, CEILING and PLAN_OVER for the active set (R191).
DEDUCED, unsafe (log 43). -/
def State.refreshPlan (s : State) : State :=
  let c := s.sets.active
  let n := s.admissionSpeed c
  let used := (List.range 8).filter fun t => c.views.any fun v => !(v.tileChannels t).isEmpty
  s.onSched fun k =>
    { k with load := (List.range 8).map fun t => loadField (c.tileLoad n t),
             ceiling := (List.range 8).map fun t => (s.ceilingOf c t).floor.toNat,
             planOver := used.any fun t => s.overloaded c t }

/-! ## Stream rates (R371) -/

def streamEnabled (c : ConfigSet) (n : Nat) : Bool := bit (u8 (c.streams.getD n (streamDefault n)) 1) 0
def streamV6 (c : ConfigSet) (n : Nat) : Bool := bit (u8 (c.streams.getD n (streamDefault n)) 1) 1
def streamSel (c : ConfigSet) (n : Nat) : Nat := bits (u8 (c.streams.getD n (streamDefault n)) 1) 3 2

/-- V_v in Mbit/s. -/
def ViewDef.mbps (n : Nat) (c : ConfigSet) (v : ViewDef) : Nat :=
  if v.role = 1 || v.role = 3 then 0 else
  let v6 := streamV6 c v.stream
  let perRecord : Rat := 128 + mkRat (8 * (if v6 then 160 else 140)) (if v6 then 86 else 88)
  (v.cellRate n / (v.cellMerge : Rat) * ((v.channels.length * v.maxEchoes : Nat) : Rat) * perRecord / 1000000).ceil.toNat

/-- Does a port (0 A, 1 B) carry a stream? -/
def carries (c : ConfigSet) (port n : Nat) : Bool := streamSel c n == 0 || streamSel c n == port + 1

/-- The planned rate of a port. -/
def ConfigSet.portMbps (n port : Nat) (c : ConfigSet) : Nat :=
  let out := c.views.filter fun v => (v.role == 0 || v.role == 2) && carries c port v.stream
  let names := (List.range 32).filter fun k => out.any (·.stream == k)
  (out.map (ViewDef.mbps n c)).foldl (· + ·) 0 +
  (names.map fun k => if streamV6 c k then 13 else 12).foldl (· + ·) 0 + 50

end Sys2Proof.Machine
end

