-- ==== Sys2Proof/Machine/Ready.lean ====
section
/-!
DEFINITION. Which engines and switched power domains a set needs (R26, R282, Table 1.6), when an armed swap may take place
(R85, R90), and which set governs a shot that is being planned (R87).
-/
namespace Sys2Proof.Machine

/-! ## Engines of a set (R282, R283) -/

/-- Logical engines of tile `t` in a set: views in ascending handle order take the next ones. As (logical engine,
handle). -/
def ConfigSet.engineMap (n t : Nat) (c : ConfigSet) : List (Nat × Nat) :=
  let vs := sortBy (fun a b : ViewDef => decide (a.handle < b.handle)) c.views
  let hs := (vs.map fun v => List.replicate (v.enginesIn n t) v.handle).flatten
  (hs.take 16).zipIdx.map fun x => (16 * t + x.2, x.1)

/-- Physical engines that a set's views would hold, with the view of each. -/
def State.enginesFor (c : ConfigSet) (s : State) : List (Nat × Nat) :=
  let n := s.admissionSpeed c
  (((List.range 8).map fun t => c.engineMap n t).flatten).filterMap fun x => (s.physOf x.1).map fun g => (g, x.2)

/-! ## Domains of a set -/

/-- The cluster domain of a front end; slots 24 and 25 belong to cluster 2 (Table 1.6). -/
def clusterOf (fe : Nat) : Nat := fe / 26 * 3 + min 2 (fe % 26 / 8)

/-- Domains that the views of a set refer to, given the physical engines they hold. -/
def State.domainsOf (c : ConfigSet) (engines : List Nat) (s : State) : List Domain :=
  let used (p : Nat → Bool) (n : Nat) : List Nat := (List.range n).filter p
  let tiles := used (fun t => c.views.any fun v => !(v.tileChannels t).isEmpty) 8
  let chans := used (fun ch => c.namesChannel ch) 192
  let clusters := used (fun k => chans.any fun ch => clusterOf (s.feOf ch) == k) 24
  let cores := (used (fun e => c.namesEmitter e) 16).filterMap fun e => s.power.repair.coreFor.getD e none
  tiles.map Domain.tileFabric ++ tiles.map Domain.tileSram ++ clusters.map Domain.cluster ++
  engines.map Domain.engine ++ cores.map Domain.emitterDac

/-- Engines that serve the active set or still run its leaving views. -/
def State.boundEngines (s : State) : List Nat :=
  (List.range 144).filter fun g => let e := s.engine g; e.assigned || !e.leaving.isEmpty || e.job.isSome

/-- Domains that either set refers to, and the clusters of spares on their way to a channel (R259). -/
def State.domainsNeeded (s : State) : List Domain :=
  s.domainsOf s.sets.active s.boundEngines ++
  s.domainsOf s.sets.shadow ((s.enginesFor s.sets.shadow).map (·.1)) ++
  ((s.returns.channels.filterMap (·.pendingSlot)).map fun fe => Domain.cluster (clusterOf fe))

def State.domain (d : Domain) (s : State) : Option DomainState := s.power.domains.find? (·.dom == d)

/-- Is a domain awake and settled? -/
def State.awake (d : Domain) (s : State) : Bool := (s.domain d).any (·.phase == .awake)

def State.onDomain (d : Domain) (f : DomainState → DomainState) (s : State) : State :=
  s.onPower fun p => { p with domains := p.domains.map fun x => if x.dom == d then f x else x }

/-- The wake of a domain is asked for, unless it is up or on its way. -/
def State.wakeDomain (d : Domain) (s : State) : State :=
  if (s.domain d).isSome then s
  else s.onPower fun p => { p with domains := p.domains ++ [{ dom := d, phase := .requested, idleSince := none }] }

/-- Every domain that a set needs is awake and settled (R85). -/
def State.setAwake (c : ConfigSet) (s : State) : Bool :=
  (s.domainsOf c ((s.enginesFor c).map (·.1))).all fun d => s.awake d

/-! ## An armed swap -/

/-- Was `a` accepted before `b`? A command that the journal does not hold counts as accepted last. -/
def State.acceptedBefore (a b : Cmd) (s : State) : Bool :=
  match s.liveOf b with
  | none => true
  | some y => (s.liveOf a).any fun x => decide (x.jix < y.jix)

/-- Is a cross-fade that was accepted before a commit running, or still to start (Table 3.9)? -/
def State.fadeBefore (c : Cmd) (s : State) : Bool :=
  (s.emission.emitters.any fun x => x.fade.any fun f => f.waitSwap == 0 || s.acceptedBefore f.cmd c) ||
  s.host.journal.live.any fun l => l.opcode == 0x0403 && s.unbegun l && s.acceptedBefore l.cmd c

/-- The SET_COMMITs that have not swapped: armed, behind the shadow copy, and accepted but not begun. -/
def State.unswapped (s : State) : List Cmd :=
  s.sets.commits.map (·.cmd) ++ (s.sets.waiting.filter (·.1 == 0x0301)).map (·.2) ++
  (s.host.journal.live.filter fun l => l.opcode == 0x0301 && s.unbegun l).map (·.cmd)

/-- How many swaps a cross-fade or an injection waits for: those of the commits accepted before it (R90). -/
def State.swapsAhead (c : Cmd) (s : State) : Nat := (s.unswapped.filter fun k => s.acceptedBefore k c).length

/-- The commands of the shadow set's order that wait ahead of commit `c`. -/
def State.writesAhead (c : Cmd) (s : State) : List (Nat × Cmd) :=
  if s.sets.commits.any (·.cmd == c) then []
  else s.sets.waiting.takeWhile (·.2 != c) ++
    (s.host.journal.live.filter fun l => s.unbegun l && l.cmd != c && s.acceptedBefore l.cmd c).map fun l => (l.opcode, l.cmd)

/-- What one of them does to the loop settings of the active and the shadow set: a commit's swap, SET_ABORT, LOOP_CONFIG, LOOP_COEFF. -/
def stepSets (x : ConfigSet × ConfigSet) (w : Nat × Cmd) : ConfigSet × ConfigSet :=
  match w.1 with
  | 0x0301 => (x.2, x.2)
  | 0x0302 => (x.1, x.1)
  | 0x0601 => (x.1, x.2.withLoop w.2.payload)
  | 0x0602 => (x.1, { x.2 with coefs := x.2.coefs.modify (u8 w.2.payload 0) fun _ => w.2.payload })
  | _ => x

/-- Does an injection run on a loop whose coefficients the set of commit `c` changes? That set includes every write accepted before the
commit (R85).
DESIGN CHOICE, unsafe (log 14). -/
def State.injectionBars (c : Cmd) (s : State) : Bool :=
  let k := s.sets
  let start := (if k.commits.any (·.cmd != c) then k.shadow else k.active, k.shadow)
  let x := (s.writesAhead c).foldl stepSets start
  let changes (n : Nat) : Bool := x.1.coefs.getD n [] != x.2.coefs.getD n [] || x.1.loops.getD n [] != x.2.loops.getD n []
  s.motion.loops.zipIdx.any fun l => l.1.inject.isSome && changes l.2

/-- DETAIL of the first cause of Table 3.9 that holds commit `c` back; 0 for none. -/
def State.commitCause (c : Cmd) (s : State) : Nat :=
  if s.fadeBefore c then 1 else if s.injectionBars c then 2
  else if s.unswapped.any fun k => k != c && s.acceptedBefore k c then 3 else 0

/-- Does a set need what an arbiter scope stands for? -/
def ConfigSet.needsScope (scope : Nat) (c : ConfigSet) : Bool :=
  (scope < 8 && c.views.any fun v => !(v.tileChannels scope).isEmpty) ||
  [0, 1].any fun h => scope == scopeHalf h && c.views.any fun v => bits v.emitterMask (8 * h + 7) (8 * h) != 0

/-- Does a class 0 activity of the maintenance arbiter hold a resource that a set needs (R90, R443)? -/
def State.arbiterHolds (c : ConfigSet) (s : State) : Bool := s.health.running.any fun a => a.cls == 0 && c.needsScope a.scope

/-- Nothing but the instant keeps the armed swap waiting. -/
def State.swapReady (s : State) : Bool :=
  s.sets.commits.head?.all (fun k => s.commitCause k.cmd == 0) && !s.arbiterHolds s.sets.shadow && s.setAwake s.sets.shadow

/-- The tick of the boundary that is less than 100 µs ahead, or up to 1 µs past: at 100 µs a swap can still be armed (Table 3.8). -/
def State.boundaryTick (s : State) : Option Nat :=
  (s.tickNear 0).filter fun t => decide (t < s.clk.tickCount + us 100) && decide (s.clk.tickCount ≤ t + us 1)

/-- Is a swap at the coming boundary decided (R87)? -/
def State.swapCertain (s : State) : Bool := s.sets.decided == some true

/-- From the first tick after the last instant at which one can be armed, 100 µs before a boundary, whether a swap takes place there is
decided (R87).
DEDUCED, unsafe (log 38). -/
def State.decideSwap (s : State) : State :=
  if s.boundaryTick.isNone then (if s.sets.decided.isNone then s else s.onSets fun k => { k with decided := none })
  else if s.sets.decided.isSome then s
  else s.onSets fun k => { k with decided := some (!k.commits.isEmpty && s.swapReady) }

/-- The tick of the revolution boundary at which the armed swap is certain to take place (R85, R87). -/
def State.swapTick (s : State) : Option Nat :=
  match s.sets.commits, s.boundaryTick with
  | k :: _, some tb =>
    if s.swapCertain && decide (k.at_ + us 100 + s.clk.tickCount ≤ s.now + tb) then some tb else none
  | _, _ => none

/-- The view, epoch and tick that govern the first shot of a cell: the shadow set's from the boundary of a certain swap
on, the active set's before it. -/
def State.planView (view cell : Nat) (s : State) : Option (ViewDef × Nat × Nat) :=
  let at_ (v : ViewDef) : Option Nat := s.tickOf (v.shotAngle cell 0)
  let next := s.swapTick.bind fun tb => (s.sets.shadow.view view).bind fun v => (at_ v).bind fun t =>
    if tb ≤ t then some (v, wrap 16 (s.sets.epoch + 1), t) else none
  next.orElse fun _ => (s.activeView view).bind fun v => (at_ v).bind fun t =>
    if s.swapTick.any (· ≤ t) then none else some (v, s.sets.epoch, t)

end Sys2Proof.Machine
end

