-- ==== Sys2Proof/Machine/Foreign.lean ====
section
/-!
DEFINITION. The regression of stamps on indices (R118), and the foreign-pulse tap, trackers and predicted windows of a
tile (R323 to R328).
-/
namespace Sys2Proof.Machine

/-! ## Regression (R118, Table 4.5) -/

/-- A regression result; PERIOD in 2^-16, RESID_RMS in 2^-8 fine step. -/
structure Fit where
  period : Nat
  intercept : Nat
  residRms : Nat
  count : Nat
  status : Nat
  firstIndex : Int
  exact : Rat
deriving DecidableEq, Repr

/-- The result as Table 4.5 lays it out. -/
def Fit.bytes (f : Fit) : List Byte :=
  le 8 f.period ++ le 8 f.intercept ++ le 4 f.residRms ++ le 2 f.count ++ le 1 f.status ++ zeros 1 ++ leInt 4 f.firstIndex ++ zeros 4

/-- A stamp difference as a signed 64-bit number. -/
def stampDiff (a b : Nat) : Int := toSigned 64 (((a : Int) - b) % 2 ^ 64).toNat

/-- Fits the pairs (index, stamp), in arrival order. -/
def fitPairs (minCount limit : Nat) (pairs : List (Int × Nat)) : Fit :=
  let use := pairs.take 4096
  let n0 := ((use.head?).map (·.1)).getD 0
  let s0 := ((use.head?).map (·.2)).getD 0
  let xy := use.map fun p => (p.1 - n0, stampDiff p.2 s0)
  let k : Int := use.length
  let full := if 4096 < pairs.length then 4 else 0
  let fail (st : Nat) : Fit :=
    { period := 0, intercept := 0, residRms := 0, count := use.length, status := st + full, firstIndex := n0, exact := 0 }
  if use.length < minCount then fail 1 else
  let sx := (xy.map (·.1)).foldl (· + ·) 0
  let sy := (xy.map (·.2)).foldl (· + ·) 0
  let sxx := (xy.map fun p => p.1 * p.1).foldl (· + ·) 0
  let sxy := (xy.map fun p => p.1 * p.2).foldl (· + ·) 0
  let syy := (xy.map fun p => p.2 * p.2).foldl (· + ·) 0
  let dxx := k * sxx - sx * sx
  let dxy := k * sxy - sx * sy
  if dxx = 0 then fail 2 else
  let p : Rat := (dxy : Rat) / dxx
  let b : Rat := ((sy : Rat) - p * sx) / k
  let rss : Rat := (((k * syy - sy * sy : Int) : Rat) - p * dxy) / k
  let var : Rat := if 2 < k then max 0 (rss / ((k - 2 : Int) : Rat)) else 0
  let high := limit ≠ 0 && decide (((limit * limit : Nat) : Rat) < var)
  { period := (roundRat (p * 65536)).toNat, intercept := ((s0 + roundRat b) % 2 ^ 64).toNat,
    residRms := min 0xFFFFFFFF (sqrtScaled 8 var), count := use.length, status := full + flag high 3,
    firstIndex := n0, exact := p }

/-- The result of a gate in which the PLL unlocked: TIME_FAULT, without a period or an intercept (R119). -/
def faultFit (pairs : List (Int × Nat)) : Fit :=
  { period := 0, intercept := 0, residRms := 0, count := min 4096 pairs.length, status := 16 + (if 4096 < pairs.length then 4 else 0),
    firstIndex := ((pairs.head?).map (·.1)).getD 0, exact := 0 }

/-! ## Settings (Table 12.4) -/

/-- The table index of a handle (Table 3.1). -/
def handleIndex (h : Nat) : Nat := h / 65536 % 4096

/-- The K_FOREIGN block of a view, if its chain holds one. -/
def ViewDef.foreignBlock (v : ViewDef) : Option (List Byte) := if (v.posOf 7).isSome then some (v.block 7) else none

/-- The block with TRACK set that governs a tile's trackers (R324). -/
def State.governing (t : Nat) (s : State) : Option (List Byte) :=
  let vs := s.sets.active.views.filter fun v =>
    !(v.tileChannels t).isEmpty && (v.foreignBlock).any fun p => bit (u8 p 0) 0
  let least := (vs.map fun v => handleIndex v.handle).foldl min 4096
  (vs.find? fun v => handleIndex v.handle == least).bind ViewDef.foreignBlock

/-- GATE of the block in fine steps. -/
def fgGate (p : List Byte) : Nat := u32 p 32 * 81920

/-- P_MIN or P_MAX, in hundredths of a fine step: 1 ns is 81.92 fine steps. -/
def nsHundredths (n : Nat) : Nat := n * 8192

/-! ## Trackers (R324) -/

/-- After every 16 pairs while SEEDED, p becomes the fitted period. -/
def Tracker.addPair (n : Int) (x : Nat) (k : Tracker) : Tracker :=
  let k := { k with pairs := k.pairs ++ [(n, x)], sincePair := k.sincePair + 1 }
  if k.st == .seeded && decide (16 ≤ k.sincePair) then
    let f := fitPairs 3 0 k.pairs
    { k with sincePair := 0, p := if f.exact = 0 then k.p else f.exact }
  else k

/-- Offers a merged stamp to one tracker: the tracker that took it, or none.
DEDUCED, unsafe (log 87). -/
def Tracker.offer (p : List Byte) (x : Nat) (k : Tracker) : Option Tracker :=
  if k.st == .idle then none else
  let d : Rat := stampDiff x k.s0
  let q : Rat := d / k.p
  let n := roundRat q
  let tol : Rat := u16 p 14
  let away (r : Rat) : Rat := if r < 0 then -r else r
  if away (d - n * k.p) ≤ tol then some (k.addPair n x)
  else if k.st == .seeded && decide (k.halvings < 3) &&
      decide (((nsHundredths (u32 p 4) : Nat) : Rat) ≤ 100 * (k.p / 2)) &&
      decide (away (away (q - n) - 1 / 2) * k.p ≤ tol) then
    let half := k.p / 2
    let k' := { k with p := half, halvings := k.halvings + 1, pairs := k.pairs.map fun (y : Int × Nat) => (2 * y.1, y.2) }
    some (k'.addPair (roundRat (d / half)) x)
  else none

/-- Offers a stamp to the trackers in order; none when no tracker takes it. -/
def offerAll (p : List Byte) (x : Nat) : List Tracker → Option (List Tracker)
  | [] => none
  | k :: r => match k.offer p x with
    | some k' => some (k' :: r)
    | none => (offerAll p x r).map (k :: ·)

/-- Seeds the first idle tracker of a list. -/
def seedFirst (f x : Nat) : List Tracker → Option (List Tracker)
  | [] => none
  | k :: r =>
    if k.st == .idle then
      some ({ Tracker.reset with st := .seeded, s0 := f, p := ((stampDiff x f : Int) : Rat), pairs := [(0, f), (1, x)], sincePair := 2,
                                 gateStart := f } :: r)
    else (seedFirst f x r).map (k :: ·)

/-- A merged stamp of a tile (R324). -/
def State.offerStamp (t : Nat) (p : List Byte) (x : Nat) (s : State) : State :=
  let r := s.rejection t
  let n := u8 p 2
  match offerAll p x (r.trackers.take n) with
  | some ks => s.onRejection t fun j => { j with trackers := ks ++ j.trackers.drop n }
  | none =>
    let free := r.freeStamp.bind fun f =>
      let d := stampDiff x f
      if (nsHundredths (u32 p 4) : Int) ≤ 100 * d && 100 * d ≤ nsHundredths (u32 p 8) then
        seedFirst f x (r.trackers.take n) else none
    match free with
    | some ks => s.onRejection t fun j => { j with trackers := ks ++ j.trackers.drop n, freeStamp := none }
    | none => s.onRejection t fun j => { j with freeStamp := some x }

/-- The next stamp in stamp order (R323) merges into the group, is dropped beyond 8 a microsecond, or is offered. -/
def State.mergeStamp (t : Nat) (p : List Byte) (x : Nat) (s : State) : State :=
  let r := s.rejection t
  let joins := r.groupFirst.any fun g => decide (0 ≤ stampDiff x g) && decide (stampDiff x g ≤ u16 p 12)
  if joins then s else
  let recent := r.passed.filter fun y => stampDiff x y < 81920
  if 8 ≤ recent.length then
    s.onRejection t fun j =>
      { j with groupFirst := some x, passed := recent, droppedTotal := satInc 32 j.droppedTotal, tapOverrun := true }
  else (s.onRejection t fun j => { j with groupFirst := some x, passed := recent ++ [x] }).offerStamp t p x

/-- The stamps of a tile that must not leave before they are known: of edges still over their thresholds, and of those that wait for
a T0 value. -/
def State.tapHeld (t : Nat) (s : State) : List Nat :=
  let edge (ch : Nat) : Option Nat :=
    (s.channel ch).edge.map fun e => (64 * ((s.channel ch).win.t0 : Int) + e.tau).toNat
  (List.range 24).filterMap (fun i => edge (24 * t + i)) ++
    ((s.rejection t).tapWait.filter (·.shot.isSome)).map (·.stamp)

/-- Can a stamp leave the tap: it lies at or before fine step `x`, and no earlier one is still to come? -/
def State.leavesTap (t x : Nat) (s : State) (y : TapStamp) : Bool :=
  y.shot.isNone && decide (stampDiff y.stamp x ≤ 0) && (s.tapHeld t).all fun z => decide (stampDiff y.stamp z ≤ 0)

/-- Stamps at or before fine step `x` leave the tap in stamp order. -/
def State.releaseStamps (t : Nat) (p : List Byte) (x : Nat) (s : State) : State :=
  let w := (s.rejection t).tapWait
  let due := w.filter (s.leavesTap t x)
  due.foldl (fun s y => s.mergeStamp t p y.stamp)
    (s.onRejection t fun j => { j with tapWait := w.filter fun y => !s.leavesTap t x y })

/-- The fine step before which no edge can still come: an edge is measured for 64 units of 32 fine steps at most. -/
def State.tapHorizon (s : State) : Nat := 64 * (s.clk.tickCount - 33)

/-- The tap takes an edge's stamp. -/
def State.tapStamp (t : Nat) (p : List Byte) (x : TapStamp) (s : State) : State :=
  (s.onRejection t fun j =>
    { j with tapWait := insertBy (fun a b => decide (stampDiff a.stamp b.stamp < 0)) x j.tapWait }).releaseStamps t p s.tapHorizon

/-- An edge of a channel in the histogram range or ambient span reaches the tap; `shot` as for `TapStamp`. -/
def State.tap (ch weight x : Nat) (shot : Option (Nat × Nat)) (s : State) : State :=
  let taken := s.sets.active.views.any fun v => v.channelMask.testBit ch &&
    (v.foreignBlock).any fun p => bit (u8 p 0) 0 && u8 p 1 ≤ weight
  match taken, s.governing (ch / 24) with
  | true, some p => s.tapStamp (ch / 24) p { stamp := x, shot := shot }
  | _, _ => s

/-- Is a stamp that of a pre-start event of a shot whose T0 value is now known? -/
def TapStamp.early (e t0 : Nat) (value : Int) (y : TapStamp) : Bool :=
  y.shot == some (e, t0) && decide (stampDiff y.stamp (64 * t0) < value)

/-- A shot's T0 value reaches the taps: its pre-start events are dropped, its other stamps wait only for their turn (R323). -/
def Rejection.resolveTap (e t0 : Nat) (value : Int) (r : Rejection) : Rejection :=
  { r with tapWait := (r.tapWait.filter fun y => !y.early e t0 value).map fun y =>
      if y.shot == some (e, t0) then { y with shot := none } else y }

/-! ## Locking and blanking (R325 to R327) -/

/-- Half-width h of a tracker's windows in fine steps, held to the nearest. -/
def Tracker.half (p : List Byte) (k : Tracker) : Nat :=
  (roundRat (((u16 p 16 : Nat) : Rat) + mkRat (u16 p 18 * k.residRms) 4096)).toNat

/-- Is a period within 0.5 % of a multiple or a whole fraction of an emitter period (R326)? Periods in fine steps. -/
def ownPeriod (period pe : Rat) : Bool :=
  let near (x : Rat) : Bool := decide (199 * x ≤ 200 * period) && decide (200 * period ≤ 201 * x)
  (List.range 8).any fun i => near (((i + 1 : Nat) : Rat) * pe) || near (pe / ((i + 1 : Nat) : Rat))

def State.isOwn (t period : Nat) (s : State) : Bool :=
  let c := s.sets.active
  let n := s.admissionSpeed c
  (c.views.filter fun v => !(v.tileChannels t).isEmpty).any fun v =>
    ownPeriod (mkRat period 65536) ((fineHz : Rat) / v.shotRate n)

def TrackerState.fits (s : TrackerState) : Bool := s == .locked || s == .lockedNoBlank

/-- Admits locked trackers in order of locking while their shares fit BLANK_BUDGET. -/
def admitShares (p : List Byte) (ks : List Tracker) : List Tracker :=
  let share (k : Tracker) : Rat := mkRat (2 * k.half p * 65536) (pos k.period)
  let order := sortBy (fun a b : Tracker => decide (a.order < b.order)) (ks.filter fun k => k.st.fits)
  let ok := (order.foldl (fun (x : Rat × List Nat) k =>
    if x.1 + share k ≤ mkRat (u16 p 20) 65536 then (x.1 + share k, k.order :: x.2) else x) (0, [])).2
  ks.map fun k => if k.st.fits then { k with st := if ok.contains k.order then .locked else .lockedNoBlank } else k

/-- Is stamp `x` inside a predicted window of a tracker? -/
def Tracker.covers (p : List Byte) (x : Nat) (k : Tracker) : Bool :=
  let d : Int := stampDiff x k.intercept * 65536
  let n := roundDiv d (pos k.period)
  decide ((d - n * k.period).natAbs ≤ k.half p * 65536)

/-- Is an edge at stamp `x` on a channel discarded (R327)?
DEDUCED, unsafe (log 71). -/
def State.blanks (ch x : Nat) (s : State) : Bool :=
  let own := s.sets.active.views.any fun v => v.channelMask.testBit ch && (v.foreignBlock).any fun p => bit (u8 p 0) 1
  own && match s.governing (ch / 24) with
    | some p => (s.rejection (ch / 24)).trackers.any fun k => k.st == .locked && k.covers p x
    | none => false

/-- The predicted windows of a tracker that meet fine steps `a .. b`, at most `fuel` from index `n` on. -/
def Tracker.windowsFrom (p : List Byte) (a b : Nat) (k : Tracker) : Nat → Int → List (Int × Int)
  | 0, _ => []
  | f + 1, n =>
    let c : Int := stampDiff k.intercept a + n * k.period / 65536
    let h : Int := k.half p
    if c - h ≤ stampDiff b a then (c - h, c + h) :: k.windowsFrom p a b f (n + 1) else []

/-- The first index whose window ends at or after fine step `a`. -/
def Tracker.firstFrom (p : List Byte) (a : Nat) (k : Tracker) : Int :=
  -((stampDiff k.intercept a + k.half p) * 65536 / pos k.period)

/-- The foreign note of a window (R328): up to two bin intervals, and whether more windows meet the range.
DEDUCED, unsafe (log 71). -/
def State.foreignNote (t : Nat) (v : ViewDef) (start : Nat) (s : State) : List (Nat × Nat) × Bool :=
  match s.governing t with
  | none => ([], false)
  | some p =>
    let len := v.bins * v.binWidth
    let ws := (((s.rejection t).trackers.filter fun k => k.st.fits).map fun k =>
      k.windowsFrom p start (start + len - 1) 3 (k.firstFrom p start)).flatten
    let toBin (i : Int) : Nat := min (v.bins - 1) (i.toNat / v.binWidth)
    ((ws.take 2).map fun w => (toBin w.1, toBin w.2), decide (2 < ws.length))

/-- A tracker's gate closes (R325). A fit that succeeds also re-references the tracker: its indices count from INTERCEPT.
DEDUCED, unsafe (log 87). -/
def Tracker.close (p : List Byte) (order : Nat) (own : Nat → Bool) (k : Tracker) : Tracker × Bool :=
  let stop := k.gateStart + fgGate p
  let mine := k.pairs.filter fun y => stampDiff y.2 stop < 0
  let later := k.pairs.filter fun y => !decide (stampDiff y.2 stop < 0)
  let f := fitPairs (u16 p 36) (u16 p 38) mine
  let k := { k with gateStart := stop, pairs := later, sincePair := 0, result := f.bytes }
  let idle : Tracker := { Tracker.reset with result := f.bytes }
  if f.status = 0 && f.period ≠ 0 then
    let k := { k with period := f.period, intercept := f.intercept, firstIndex := 0, residRms := f.residRms,
                      missed := 0, p := f.exact, s0 := f.intercept,
                      pairs := later.map fun (y : Int × Nat) => (y.1 - f.firstIndex, y.2),
                      order := if k.st == .seeded then order else k.order }
    if k.st == .own then (k, false)
    else if own f.period then ({ k with st := .own }, true)
    else ({ k with st := .locked }, false)
  else if k.st == .seeded then (idle, false)
  else if u8 p 22 ≤ k.missed + 1 then (idle, false)
  else ({ k with missed := k.missed + 1 }, false)

/-- A tracker whose open gate a PLL unlock ends. -/
def Tracker.faulted (k : Tracker) : Tracker :=
  { Tracker.reset with result := if k.st == .idle then k.result else (faultFit k.pairs).bytes }

/-- Every tracker of every tile returns to IDLE (R97, R325), its gate's result a time fault (R119). -/
def State.idleTrackers (s : State) : State :=
  s.onFabric fun b =>
    { b with rejection := b.rejection.map fun r =>
        { r with trackers := r.trackers.map Tracker.faulted, freeStamp := none, tapWait := [], groupFirst := none, passed := [] } }

end Sys2Proof.Machine
end

