-- ==== Sys2Proof/Machine/Emit.lean ====
section
/-!
DEFINITION. The emitter outputs and the energy ledger (chapter 8): what each sample charges, effective limits, slot
states, cutting an output, ending a direct play and abandoning a fade. Every other family drives the light through these.
-/
namespace Sys2Proof.Machine

/-! ## Charging (R227) -/

/-- The charge of one sample in 2^-16 pJ. In a range transition the larger of the two codes counts, at ×2. -/
def sampleCharge (t : List Byte) (e code before : Nat) (trans x2 : Bool) : Nat :=
  ((if trans then max code before else code) - ltFloor t e) * (if x2 || trans then 2 else 1) * ltScale t e

/-- Is sample `k` after tick `t` one of the eight of the last range change (R222)? -/
def Emitter.changing (x : Emitter) (t k : Nat) : Bool := x.change.any fun c => decide (2 * t + k < 2 * c.start + 8)

/-- The code before the last range change. -/
def Emitter.codeBefore (x : Emitter) : Nat := (x.change.map (·.before)).getD x.park

/-- The charge of samples `a .. b-1` of a play of emitter `e` that started at tick `t0`. -/
def Emitter.playCharge (t : List Byte) (e : Nat) (codes : Nat → Nat) (x2 : Bool) (t0 a b : Nat) (x : Emitter) : Nat :=
  ((List.range (b - a)).map fun i =>
    sampleCharge t e (codes (a + i)) x.codeBefore (x.changing t0 (a + i)) x2).foldl (· + ·) 0

/-- The charge of the next `n` samples of an output at rest on a code: those of a range change first. -/
def Emitter.restCharge (t : List Byte) (e code n : Nat) (x : Emitter) : Nat :=
  let k := min n ((x.change.map fun c => 2 * c.start + 8 - 2 * x.charged).getD 0)
  k * sampleCharge t e code x.codeBefore true false + (n - k) * sampleCharge t e code code false false

/-- The slot charge (R227): m × Σ max(0, code − floor) × DRIVE_SCALE. -/
def slotCharge (t : List Byte) (e : Nat) (codes : List Nat) (x2 : Bool) : Nat :=
  (if x2 then 2 else 1) * ((codes.map (· - ltFloor t e)).foldl (· + ·) 0) * ltScale t e

/-- A charge in pJ, rounded up (R219). -/
def chargePj (q : Nat) : Nat := ceilDiv q 65536

def LedgerRow.addTo (m : Emission) (de : Nat) (r : LedgerRow) : LedgerRow :=
  { r with w5 := r.w5.modify m.cur5 (· + de), w100 := r.w100.modify m.cur100 (· + de),
           w10 := r.w10.modify m.cur10 (· + de) }

/-- Charges `de` to emitter `e` and to ALL (R227). -/
def State.charge (e de : Nat) (s : State) : State :=
  (s.onEmission fun m => { m with rows := (m.rows.modify e (LedgerRow.addTo m de)).modify 16 (LedgerRow.addTo m de) })
  |>.onEmitter e fun x => { x with pulse := x.pulse + de }

/-- Changes the reservation of row `r`. -/
def State.onReserve (r : Nat) (f : Nat → Nat) (s : State) : State :=
  s.onEmission fun m => { m with rows := m.rows.modify r fun x => { x with reserve := f x.reserve } }

/-- Takes `q` off the reservations of emitter `e` and of ALL. -/
def State.unreserve (e q : Nat) (s : State) : State := (s.onReserve e (· - q)).onReserve 16 (· - q)

/-- Adds `q` to the reservations of emitter `e` and of ALL (R228). -/
def State.reserve (e q : Nat) (s : State) : State := (s.onReserve e (· + q)).onReserve 16 (· + q)

/-- The level of a window of a row: its buckets and the reservation (R227); window 1 W5US, 2 W100MS, 3 W10S. -/
def LedgerRow.level (r : LedgerRow) (w : Nat) : Nat :=
  (if w = 1 then r.w5 else if w = 2 then r.w100 else r.w10).foldl (· + ·) 0 + r.reserve

def State.level (r w : Nat) (s : State) : Nat := (s.emission.rows.getD r LedgerRow.reset).level w

/-- Does `q` exceed the effective limit of a window (R228)? -/
def State.overLimit (r w q : Nat) (s : State) : Bool :=
  ltLimit s.emission.table r w * (256 - s.emission.headroom) < q * 256

/-- Has `q` reached the effective limit of a window? -/
def State.atLimit (r w q : Nat) (s : State) : Bool :=
  ltLimit s.emission.table r w * (256 - s.emission.headroom) ≤ q * 256

/-- Samples of a play that have left the DAC by now, two a tick. -/
def State.samplesSince (start : Nat) (s : State) : Nat := 2 * (s.clk.tickCount - start)

/-- Charges what the output of emitter `e` has driven and not yet been charged for, whatever drives it (R227).
DEDUCED, safe (log 72). -/
def State.settle (e : Nat) (s : State) : State :=
  let x := s.emitter e
  let t := s.emission.table
  let now := s.clk.tickCount
  let rest (code : Nat) : State :=
    (s.charge e (x.restCharge t e code (2 * (now - x.charged)))).onEmitter e fun y => { y with charged := now }
  match x.out with
  | .slot n codes x2 t0 done reserved =>
    let upto := max done (min 256 (s.samplesSince t0))
    let de := x.playCharge t e (codes.getD · x.park) x2 t0 done upto
    let rel := min de reserved
    ((s.charge e de).unreserve e rel).onEmitter e fun y => { y with out := .slot n codes x2 t0 upto (reserved - rel), charged := now }
  | .direct code x2 start dur done cmd =>
    let upto := max done (min (2 * dur) (s.samplesSince start))
    (s.charge e (x.playCharge t e (fun _ => code) x2 start done upto)).onEmitter e fun y =>
      { y with out := .direct code x2 start dur upto cmd, charged := now }
  | .park code => rest code
  | .hold code => rest code
  | .switchOpen => s


def State.settleAll (s : State) : State := (List.range 16).foldl (fun s e => s.settle e) s

/-- Is the domain of the core that serves emitter `e` awake? -/
def State.coreAwake (e : Nat) (s : State) : Bool :=
  (s.power.repair.coreFor.getD e none).any fun k => s.power.domains.any fun d => d.dom == .emitterDac k && d.phase == .awake

/-- What output `e` does when a play ends: it drives its park code, in the hold state where its core's domain sleeps (R28,
Table 8.3). -/
def State.restOut (e : Nat) (s : State) : Output :=
  if s.coreAwake e then .park (s.emitter e).park else .hold (s.emitter e).park

/-- Range and code of an output, as its last sample had them: ×1 at rest. -/
def Emitter.range2 (x : Emitter) : Bool :=
  match x.out with
  | .slot _ _ x2 _ _ _ => x2
  | .direct _ x2 _ _ _ _ => x2
  | _ => false

def Emitter.lastCode (x : Emitter) : Nat :=
  match x.out with
  | .slot _ codes _ _ done _ => if done = 0 then x.codeBefore else codes.getD (done - 1) x.park
  | .direct code _ _ _ done _ => if done = 0 then x.codeBefore else code
  | .park c => c
  | .hold c => c
  | .switchOpen => x.park

/-- The output goes on at range `x2`: a change of range is kept with the code before it, and its eight samples are charged as they
are driven (R222, R227, R229). -/
def Emitter.toRange (now : Nat) (x2 : Bool) (x : Emitter) : Emitter :=
  if x.range2 == x2 then x else { x with change := some { before := x.lastCode, start := now } }

/-- The output returns to its park code at ×1 (R216, R222, R229): what it played is charged, and the rest of a reservation is released.
DEDUCED, safe (log 72). -/
def State.parkOutput (e : Nat) (s : State) : State :=
  let s := s.settle e
  let now := s.clk.tickCount
  match (s.emitter e).out with
  | .slot _ _ _ _ _ reserved =>
    (s.unreserve e reserved).onEmitter e fun y => { y.toRange now false with out := .park y.park }
  | .direct .. =>
    let rest := s.restOut e
    s.onEmitter e fun y => { y.toRange now false with out := rest }
  | .switchOpen => s
  | .hold _ => s
  | .park _ => s

/-- The core of output `e` goes into its hold state, at the code it parks with (R28). -/
def State.holdOutput (e : Nat) (s : State) : State :=
  let s := s.parkOutput e
  s.onEmitter e fun x => { x with out := match x.out with
    | .park c => .hold c
    | .hold c => .hold c
    | _ => .hold x.park }

def opEmitDirectCode : Nat := 0x0405
def opWaveFadeCode : Nat := 0x0403

/-- The ticks a direct play has lasted. -/
def State.ticksPlayed (start dur : Nat) (s : State) : Nat := min dur (s.clk.tickCount - start)

/-- A direct play of emitter `e` ends with this status and DETAIL (R221); nothing without one. -/
def State.endDirect (e st det : Nat) (s : State) : State :=
  match (s.emitter e).out with
  | .direct _ _ start dur _ cmd =>
    let n := s.ticksPlayed start dur
    (s.parkOutput e).finish opEmitDirectCode cmd st det n []
  | _ => s

/-- A running fade of emitter `e` is abandoned (R225); one that waits for its start or its swap runs on later. -/
def State.abandonFade (e det : Nat) (running : Bool) (s : State) : State :=
  match (s.emitter e).fade with
  | some f =>
    if running && (f.i == 0 || f.waitSwap != 0) then s else
    let b := s.block stFaultEmission det 0
    let s := s.onEmitter e fun x => { x with fade := none }
    (s.applied (.emitter e) f.cmd b).finishWith opWaveFadeCode f.cmd b []
  | none => s

/-- Every output at park code, every direct play and running fade ended, as an inhibit asks (R193, R221, R225). -/
def State.parkAll (s : State) : State :=
  (List.range 16).foldl (fun s e => ((s.endDirect e stFaultEmission 3).parkOutput e).abandonFade e 1 true) s

/-! ## Slot states (R217, R230, R234) -/

/-- May the emitter of row `e` emit at all: DRIVE_SCALE and every window limit nonzero (R234)? -/
def rowEmits (t : List Byte) (e : Nat) : Bool :=
  ltScale t e != 0 && [0, 1, 2, 3].all fun w => ltLimitField t e w != 0

/-- The state of a slot that holds samples: OVER above the effective PULSE limit or in a row that may not emit. -/
def State.slotStateFor (e q : Nat) (s : State) : SlotState :=
  if !rowEmits s.emission.table e || s.overLimit e 0 q then .slotOver else .loaded

/-- Slot charges and states after a change of table or HEADROOM (R227, R230). -/
def State.refreshSlots (s : State) : State :=
  (List.range 16).foldl (fun s e => s.onEmitter e fun x =>
    { x with slots := x.slots.map fun k =>
        match k.st with
        | .empty => k
        | .eccFailed => { k with charge := slotCharge s.emission.table e k.samples k.range2 }
        | _ =>
          let q := slotCharge s.emission.table e k.samples k.range2
          { k with charge := q, st := s.slotStateFor e q } }) s

def State.slot (e n : Nat) (s : State) : Slot := (s.emitter e).slots.getD n Slot.empty

def State.onSlot (e n : Nat) (f : Slot → Slot) (s : State) : State :=
  s.onEmitter e fun x => { x with slots := x.slots.modify n f }

/-- A slot whose waveform memory gave an uncorrectable word (R220). -/
def State.eccFail (e n : Nat) (s : State) : State :=
  (s.onSlot e n fun k => { k with st := .eccFailed }).onEmitter e fun x => { x with slotEcc := true }

end Sys2Proof.Machine
end

