-- ==== Sys2Proof/Machine/Hists.lean ====
section
/-!
DEFINITION. Histograms under accumulation (R274 to R278): finding and creating a channel's histogram, settling the shots
a cell will not fire, closing.
-/
namespace Sys2Proof.Machine

/-- Does a histogram gather cell `j` of a view under an epoch? -/
def Hist.holds (view cell epoch : Nat) (h : Hist) : Bool :=
  h.view == view && h.epoch == epoch && h.cell ≤ cell && cell < h.cell + h.cells

def Window.inHist (h : Hist) (w : Window) : Bool := h.holds w.view w.cell w.epoch

/-- Is a window open and its trailer not yet written? -/
def Window.pendingTrailer (w : Window) : Bool :=
  w.phase == .blanked || w.phase == .preStart || w.phase == .range

/-- Trailers that a channel's windows are still to write. -/
def Channel.trailersDue (c : Channel) : Nat := (if c.win.pendingTrailer then 1 else 0) + (if c.closing.isSome then 1 else 0)

/-- Windows of a histogram whose trailer has not been merged: those still to write it, and the trailers in the marker queue. -/
def Channel.inFlight (h : Hist) (c : Channel) : Nat :=
  (if c.win.pendingTrailer && c.win.inHist h then 1 else 0) + (if c.closing.any (·.inHist h) then 1 else 0) +
  (c.items.filter fun i => match i with
    | .trailer w _ => w.inHist h
    | _ => false).length

/-- A place in a view's release order, before its chain has run (R285). -/
def Release.new (h : Hist) : Release :=
  { view := h.view, epoch := h.epoch, cell := h.cell, channel := h.channel, closeSeq := h.closeSeq, done := false,
    abandoned := false, stream := none, records := [], dev := 0, tick := 0, zone := none, ambient := none }

/-- The centre angle of a histogram's cell span. -/
def Hist.midAngle (v : ViewDef) (h : Hist) : Nat := (v.azStart + h.cell * v.width + h.cells * v.width / 2) % turn

/-- The mean of a list of numbers, to the nearest. -/
def meanNat (l : List Nat) : Nat := (roundDiv ((l.foldl (· + ·) 0 : Nat) : Int) (pos l.length)).toNat

/-- The first prediction for the centre of a group's cell span (R308), as its histogram begins: the spindle is about to enter the span
or stands in it. -/
def State.midFirst (v : ViewDef) (h : Hist) (s : State) : Option Nat :=
  let past := ((s.angle.angle : Int) - (v.azStart + h.cell * v.width : Nat)) % turn
  s.tickAfter ((h.cells * v.width / 2 : Nat) - (if past < turn / 64 * 63 then past else past - turn))

/-- What the present publication predicts for the same pass of the centre: the pass nearest the prediction before. -/
def State.midTickOf (h : Hist) (s : State) : Nat :=
  match s.viewIn h.epoch h.view with
  | none => h.midTick
  | some v =>
    let d := ((h.midAngle v : Int) - s.angle.angle) % turn
    match s.tickAfter d, s.tickAfter (d - turn) with
    | some a, some b => if ((a : Int) - h.midTick).natAbs ≤ ((b : Int) - h.midTick).natAbs then a else b
    | _, _ => h.midTick

/-- A histogram closes (R276, R278): it leaves the channel and joins its view's queue in its tile, and takes its place in
the view's release order (R285). Its records have the mean FIRING_TICK, to the nearest tick (R308), and the CH_OFFSET
of this instant (R426).
DESIGN CHOICE, unsafe (log 142). -/
def State.closeHist (ch : Nat) (h : Hist) (s : State) : State :=
  let seq := s.fabric.closeSeq
  let h := ((h.setMark 1 (decide (h.observed < h.planned))).setMark 10 (decide (h.cutShots ≠ 0))).setMark 3
    (decide (h.substep ≠ 0))
  let tm := if h.obs.isEmpty then s.midTickOf h else meanNat (h.obs.map (·.tick))
  let h := { h with closeSeq := seq, closedAt := s.clk.now, recordTick := tm, recordDev := s.devAt tm,
                    chOffset := s.fabric.chOffset.getD ch 0 }
  let other (g : Hist) : Bool := !(g.view == h.view && g.cell == h.cell && g.epoch == h.epoch)
  let s := s.onChannel ch fun c => { c with acc := c.acc.filter other }
  let s := s.onFabric fun b => { b with closeSeq := seq + 1, releases := b.releases ++ [Release.new h] }
  s.onTile (ch / 24) fun t =>
    let q := t.queue ++ [h]
    { t with queue := q, histograms := wrap 32 (t.histograms + 1),
             queueMax := max t.queueMax (q.filter (·.view == h.view)).length }

/-- Changes the histogram that gathers a cell on a channel, and closes it when no window is left to it. -/
def State.updHist (ch view cell epoch : Nat) (f : Hist → Hist) (s : State) : State :=
  let s := s.onChannel ch fun c => { c with acc := c.acc.map fun h => if h.holds view cell epoch then f h else h }
  match (s.channel ch).acc.find? (·.holds view cell epoch) with
  | some h => if h.left = 0 then s.closeHist ch h else s
  | none => s

/-- `n` shots of a cell will give no window on the channels of a group (R274). -/
def State.dropShots (chs : List Nat) (view cell epoch n : Nat) (s : State) : State :=
  chs.foldl (fun s ch => s.updHist ch view cell epoch fun h => { h with left := h.left - n }) s

/-- A new histogram of a channel, at the blanking of its first window (R276, Table 10.3). -/
def newHist (v : ViewDef) (cell epoch ch buf : Nat) (blind first : Bool) : Hist :=
  let g := v.group cell
  { view := v.handle, cell := g.1, cells := g.2, channel := ch, epoch := epoch, buf := buf, firstTick := 0,
    planned := v.shots * g.2, observed := 0, cutShots := 0, minLastBin := v.bins - 1, prestart := 0,
    substep := 0, calWorst := 0,
    marks := BitVec.ofNat 16 (flag blind 7 + flag first 0),
    valid := 0, bins := [], weights := [], left := v.shots * g.2, closeSeq := 0, closedAt := 0,
    outOfService := false, obs := [], midTick := 0, recordTick := 0, recordDev := 0, chOffset := 0 }

/-! ## Counters (R271 to R275) -/

/-- Adds to a sparse counter list kept in rising order of bin; a counter saturates at 0xFFFF. The flag says whether it
did. -/
def addBin (i k : Nat) : List (Nat × Nat) → List (Nat × Nat) × Bool
  | [] => if k = 0 then ([], false) else ([(i, min k 0xFFFF)], decide (0xFFFF < k))
  | (j, n) :: r =>
    if i < j then
      if k = 0 then ((j, n) :: r, false) else ((i, min k 0xFFFF) :: (j, n) :: r, decide (0xFFFF < k))
    else if i = j then ((j, min (n + k) 0xFFFF) :: r, decide (0xFFFF < n + k))
    else let x := addBin i k r; ((j, n) :: x.1, x.2)

/-- The counter of a bin. -/
def binOf (l : List (Nat × Nat)) (i : Nat) : Nat := ((l.find? (·.1 == i)).map (·.2)).getD 0

/-- One event record is counted (R274, R275). -/
def Hist.count (v : ViewDef) (bin weight : Nat) (h : Hist) : Hist :=
  let k := if v.weighted then v.inc weight else 1
  let a := addBin bin k h.bins
  let w := if v.weightPlane then addBin bin weight h.weights else (h.weights, false)
  let rows := if v.weightPlane then 2 ^ (bin / 64) ||| 2 ^ (64 + bin / 64) else 2 ^ (bin / 64)
  { h with bins := a.1, weights := w.1, valid := h.valid ||| BitVec.ofNat 128 rows }.setMark 9 (a.2 || w.2)

/-! ## Errors of the histogram SRAM (R271 to R273) -/

/-- Is the row of a word of the buffer valid (R272)? -/
def Hist.rowValid (w : Nat) (h : Hist) : Bool := h.valid.getLsbD (w / 8)

/-- Zeroes what word `w` of a buffer holds: eight counters, or eight weight sums (R273, R275). -/
def Hist.zeroAtWord (weightPlane : Bool) (w : Nat) (h : Hist) : Hist :=
  if weightPlane && 512 ≤ w then { h with weights := h.weights.filter (·.1 / 8 != w - 512) }.setMark 8 true
  else { h with bins := h.bins.filter (·.1 / 8 != w) }.setMark 8 true

/-- A row is marked invalid: its bins read 0. -/
def Hist.loseRow (weightPlane : Bool) (r : Nat) (h : Hist) : Hist :=
  let h := (List.range 8).foldl (fun h k => h.zeroAtWord weightPlane (8 * r + k)) h
  { h with valid := h.valid &&& ~~~BitVec.ofNat 128 (2 ^ r) }

/-- Does an access to the words `reads` meet a fault? A row whose bit is 0 is read as 0 without its words. -/
def Hist.meets (reads : Nat → Bool) (h : Hist) : EccFault → Bool
  | .corrected w => reads w && h.rowValid w
  | .uncorrectable w => reads w && h.rowValid w
  | .rowInvalid r => (List.range 8).any fun k => reads (8 * r + k)

/-- A histogram after a fault. -/
def Hist.afterEcc (weightPlane : Bool) (h : Hist) : EccFault → Hist
  | .corrected _ => h
  | .uncorrectable w => h.zeroAtWord weightPlane w
  | .rowInvalid r => h.loseRow weightPlane r

def isCorrected : EccFault → Bool
  | .corrected _ => true
  | _ => false

/-- The words of a buffer that hold counters, or weight sums, of a view's histogram. -/
def ViewDef.holdsWord (v : ViewDef) (w : Nat) : Bool :=
  decide (w < ceilDiv v.bins 8) || (v.weightPlane && decide (512 ≤ w) && decide (w < 512 + ceilDiv v.bins 8))

/-- The words of a buffer that the records of an ingress entry are added to. -/
def ViewDef.addsTo (v : ViewDef) (rs : List (Nat × Nat)) (w : Nat) : Bool :=
  rs.any fun x => w == x.1 / 8 || (v.weightPlane && w == 512 + x.1 / 8)

/-- What a tile counts of the faults that an access met. -/
def Tile.countEcc (fs : List EccFault) (t : Tile) : Tile :=
  { t with eccCorrected := satAdd 32 t.eccCorrected (fs.countP isCorrected),
           eccUncorrected := satAdd 32 t.eccUncorrected (fs.countP fun f => !isCorrected f) }

/-- The row of its bank that holds a word of a channel's buffer (R271). -/
def rowOf (ch buf w : Nat) : Nat := (ch % 24 % 2 * 2048 + buf * 1024 + w) / 8

end Sys2Proof.Machine
end

