-- ==== Sys2Proof/Machine/Kernels.lean ====
section
/-!
DEFINITION. The kernels (chapters 10 to 13) as exact arithmetic on one closed histogram: K_CORR, K_BGSUB, K_PEAK with the
corrections of a record, K_AMBIENT's estimate, K_FOREIGN's marks, K_RAIN's region tests and K_WINDOW's backscatter. What
they leave running in the device stands in Machine/Chain.lean.
-/
namespace Sys2Proof.Machine

/-- An echo candidate after K_PEAK (R297 to R304): top bin, plateau length, top residual, range in 0.1 mm, intensity,
confidence, and the FLAGS it adds to its histogram's. -/
structure Cand where
  m : Nat
  len : Nat
  top : Nat
  lo : Nat
  hi : Nat
  range : Nat
  intensity : Nat
  confidence : Nat
  flags : Nat
deriving DecidableEq, Repr

/-- A histogram on its way through a chain, with the descriptor fields of Table 11.1 at their defaults. Foreign and
precipitation marks are bin intervals. -/
structure Work where
  v : ViewDef
  h : Hist
  bgAmb : Option Nat
  lam : Option Rat
  corrBg : Nat
  corrVar : Nat
  corrGain : Nat
  corrEdge : Nat
  corrDone : Bool
  bg : Rat
  sigma : Nat
  thresh : Nat
  foreign : List (Nat × Nat)
  precip : List (Nat × Nat)
  cands : List Cand
  candOvf : Bool
  peaked : Bool
  zone : Option ZoneResult
deriving DecidableEq, Repr

/-! ## K_PEAK's block (Table 11.4); without K_PEAK the fields hold their defaults -/

def peakDefault : List Byte :=
  [0, 2, 128, 6, 0, 0] ++ le 2 64 ++ zeros 4 ++ le 2 2500 ++ zeros 2 ++ zeros 32 ++ le 2 8 ++ zeros 14

def ViewDef.peak (v : ViewDef) : List Byte := if (v.posOf 4).isSome then v.block 4 else peakDefault

/-- A histogram at the head of its chain. -/
def Work.start (v : ViewDef) (h : Hist) : Work :=
  { v := v, h := h, bgAmb := none, lam := none, corrBg := 256, corrVar := 256, corrGain := 256, corrEdge := 0,
    corrDone := false, bg := 0, sigma := 0, thresh := u16 v.peak 48, foreign := [], precip := [], cands := [],
    candOvf := false, peaked := false, zone := none }

/-- First searched bin (SEARCH_START). -/
def Work.lo (w : Work) : Nat := u16 w.v.peak 50
/-- The bin after the last searchable one (R297); 0 when no bin is searchable. -/
def Work.stop (w : Work) : Nat := w.v.bins - w.corrEdge

/-- Residual of a bin. -/
def Work.r (w : Work) (i : Nat) : Nat := binOf w.h.bins i

/-- The residual of searched bins `a .. b` summed. -/
def Work.area (w : Work) (a b : Nat) : Nat :=
  ((w.h.bins.filter fun x => a ≤ x.1 && x.1 ≤ b).map (·.2)).foldl (· + ·) 0

/-- An area in events per shot (R303, R330). -/
def Work.perShot (w : Work) (a : Nat) : Rat := mkRat (a * 256) (w.h.observed * w.corrGain)

/-! ## Dense and sparse rows -/

/-- Bins `i .. i+k-1` of a sparse list in rising order. -/
def dense : Nat → Nat → List (Nat × Nat) → List Nat
  | 0, _, _ => []
  | k + 1, i, [] => 0 :: dense k (i + 1) []
  | k + 1, i, (j, n) :: r => if i = j then n :: dense k (i + 1) r else 0 :: dense k (i + 1) ((j, n) :: r)

/-- The nonzero bins of a dense list that starts at bin `i`. -/
def sparse : Nat → List Nat → List (Nat × Nat)
  | _, [] => []
  | i, n :: r => if n = 0 then sparse (i + 1) r else (i, n) :: sparse (i + 1) r

/-! ## K_CORR (R320, R321; Table 12.2) -/

/-- Entry of the K_CORR block that holds a CODE_ID. -/
def corrEntry (p : List Byte) (code : Nat) : Option Nat :=
  (List.range (u8 p 1)).find? fun k => u8 p (16 + k) == code

/-- The composite taps in units of 1/256, from the entries that the observed windows name. -/
def compositeTaps (p : List Byte) (ks : List Nat) : List Nat :=
  (List.range (u8 p 0)).map fun j =>
    (roundDiv ((256 * (ks.map fun k => u8 p (64 + 64 * k + j)).foldl (· + ·) 0 : Nat) : Int) (pos ks.length)).toNat

/-- Sum of products of taps and the bins that start here, and whether a nonzero tap meets a saturated bin. -/
def dotBins : List Nat → List Nat → Nat × Bool
  | c :: cs, n :: ns =>
    let x := dotBins cs ns
    (c * n + x.1, (c != 0 && n == 0xFFFF) || x.2)
  | _, _ => (0, false)

/-- The correlation of every bin, with its saturation. -/
def corrBins (taps : List Nat) (shift : Nat) : List Nat → List Nat × Bool
  | [] => ([], false)
  | n :: ns =>
    let d := dotBins taps (n :: ns)
    let o := d.1 / (256 * 2 ^ shift)
    let x := corrBins taps shift ns
    (min 0xFFFF o :: x.1, decide (0xFFFF < o) || d.2 || x.2)

/-- A descriptor factor kept in 1 to 65535 (R321). -/
def clampFactor (n : Nat) : Nat := max 1 (min 65535 n)

/-- Moves a marked interval to the bins whose correlation it reaches (R329). -/
def widen (len : Nat) (x : Nat × Nat) : Nat × Nat := (x.1 + 1 - len, x.2)

def Work.corr (w : Work) : Work :=
  let p := w.v.block 2
  let len := u8 p 0
  let shift := u8 p 2
  let ks := w.h.obs.filterMap fun o => corrEntry p o.codeId
  let h := w.h.setMark 1 (ks.length < w.h.obs.length || ks.isEmpty)
  if ks.isEmpty then { w with h := h } else
  let c := compositeTaps p ks
  let x := corrBins c shift (dense w.v.bins 0 w.h.bins)
  let sum := c.foldl (· + ·) 0
  let sq := (c.map fun t => t * t).foldl (· + ·) 0
  { w with
    h := { h with bins := sparse 0 x.1 }.setMark 9 x.2,
    corrBg := clampFactor (sum / 2 ^ shift),
    corrVar := clampFactor (sq / (256 * 2 ^ (2 * shift))),
    corrGain := clampFactor (sq / pos (sum * 2 ^ shift)),
    corrEdge := len - 1,
    corrDone := true,
    foreign := w.foreign.map (widen len) }

/-! ## K_BGSUB (R292 to R294; Table 11.3) -/

/-- Mean of the searched bins of row `r`. -/
def Work.rowMean (w : Work) (r : Nat) : Rat :=
  let b := min (64 * r + 64) w.stop
  mkRat (w.area (64 * r) (b - 1)) (b - 64 * r)

/-- The middle of a sorted list, or the mean of its two middle values; 0 for an empty one. -/
def median (l : List Rat) : Rat :=
  let s := sortBy (fun a b => decide (a < b)) l
  let n := s.length
  if n = 0 then 0
  else if n % 2 = 1 then s.getD (n / 2) 0
  else (s.getD (n / 2 - 1) 0 + s.getD (n / 2) 0) / 2

/-- The HISTOGRAM estimate of the background. -/
def Work.bgHistogram (w : Work) (excl : Nat) : Rat :=
  let first := ceilDiv excl 64
  median (((List.range (ceilDiv w.stop 64)).filter (first ≤ ·)).map w.rowMean)

/-- B of R292. -/
def Work.background (w : Work) : Rat :=
  let p := w.v.block 3
  let hist := w.bgHistogram (u16 p 4)
  match w.bgAmb with
  | none => hist
  | some a =>
    let amb := mkRat (a * w.h.observed * w.corrBg) (2 ^ 32 * 256)
    match u8 p 0 % 4 with
    | 0 => amb
    | 1 => hist
    | _ => max amb hist

/-- K_BGSUB's residual, with its threshold (R291 to R294); T is taken from σ as it is held, to the nearest 2^-16.
DESIGN CHOICE, unsafe (log 141). -/
def Work.bgsub (w : Work) : Work :=
  let p := w.v.block 3
  let b := w.background
  let var : Rat := b * mkRat w.corrVar w.corrBg * mkRat (u16 p 6) 256
  let sg := sqrtScaled 16 var
  let k := tailFactor (u8 p 1) w.v.bins
  let cut := (roundRat b).toNat
  { w with
    bg := mkRat (roundRat (b * 65536)) 65536,
    sigma := sg,
    thresh := max (u8 p 2) (ceilDiv (k * sg) (16 * 65536)),
    h := { w.h with bins := w.h.bins.filterMap fun x =>
      if x.2 = 0xFFFF then some x else if x.2 - cut = 0 then none else some (x.1, x.2 - cut) } }

/-! ## Regions and tops (R297) -/

/-- Splits a sparse list into runs of adjacent bins. -/
def runs : List (Nat × Nat) → List (List (Nat × Nat))
  | [] => []
  | x :: r =>
    match runs r with
    | (y :: g) :: gs => if x.1 + 1 = y.1 then (x :: y :: g) :: gs else [x] :: (y :: g) :: gs
    | gs => [x] :: gs

/-- The regions of a histogram: runs of searched bins at or above THRESH. -/
def Work.regions (w : Work) : List (List (Nat × Nat)) :=
  runs (w.h.bins.filter fun x => w.lo ≤ x.1 && x.1 < w.stop && w.thresh ≤ x.2)

/-- The plateaus of a region, as (first bin, length, value). -/
def plateaus : List (Nat × Nat) → List (Nat × Nat × Nat)
  | [] => []
  | x :: r =>
    match plateaus r with
    | (a, n, v) :: ps => if v = x.2 then (x.1, n + 1, v) :: ps else (x.1, 1, x.2) :: (a, n, v) :: ps
    | [] => [(x.1, 1, x.2)]

/-- The plateaus that exceed both neighbours; `prev` is the value before the first. -/
def tops (prev : Nat) : List (Nat × Nat × Nat) → List (Nat × Nat × Nat)
  | [] => []
  | [(a, n, v)] => if prev < v then [(a, n, v)] else []
  | (a, n, v) :: (b, m, u) :: r =>
    let rest := tops v ((b, m, u) :: r)
    if prev < v && u < v then (a, n, v) :: rest else rest

/-- The lowest value of a region strictly between two bins. -/
def lowest (region : List (Nat × Nat)) (a b : Nat) : Nat :=
  ((region.filter fun x => a < x.1 && x.1 < b).map (·.2)).foldl min 0xFFFF

/-- Does another top of the region keep this one from being a candidate: it is higher, or equal and nearer, and the
valley between them is too shallow? -/
def shadowed (frac : Nat) (region : List (Nat × Nat)) (ts : List (Nat × Nat × Nat)) (t : Nat × Nat × Nat) : Bool :=
  ts.any fun y =>
    (t.2.2 < y.2.2 || (t.2.2 == y.2.2 && y.1 < t.1)) &&
    frac * t.2.2 < 256 * (if y.1 < t.1 then lowest region (y.1 + y.2.1 - 1) t.1 else lowest region (t.1 + t.2.1 - 1) y.1)

/-- A candidate before its position is worked out: (first bin, length, value, region's first and last bin). -/
abbrev RawTop := Nat × Nat × Nat × Nat × Nat

/-- DEDUCED, unsafe (log 85). -/
def regionTops (frac : Nat) (region : List (Nat × Nat)) : List RawTop :=
  let ts := tops 0 (plateaus region)
  let first := ((region.head?).map (·.1)).getD 0
  let last := ((region.getLast?).map (·.1)).getD 0
  (ts.filter fun t => !shadowed frac region ts t).map fun t => (t.1, t.2.1, t.2.2, first, last)

/-- The 16 highest, ties to the lower bin, in bin order (R298).
DEDUCED, unsafe (log 85). -/
def keep16 (l : List RawTop) : List RawTop :=
  l.filter fun t => (l.filter fun y => t.2.2.1 < y.2.2.1 || (t.2.2.1 == y.2.2.1 && y.1 < t.1)).length < 16

/-! ## Position (R299) -/

/-- Is (256 × ln ratio of the neighbours) at least (2n − 1) × the curvature: the exact test by which GAUSSIAN
interpolation rounds 256 d to at least `n`? -/
def gaussAtLeast (l c u : Nat) (n : Int) : Bool :=
  let k := 2 * n - 1
  if 0 ≤ k then c ^ (2 * k.toNat) * l ^ 256 ≤ u ^ 256 * (l * u) ^ k.toNat
  else (l * u) ^ (-k).toNat * l ^ 256 ≤ u ^ 256 * c ^ (2 * (-k).toNat)

/-- round(256 d) of GAUSSIAN interpolation, clamped to ±128. -/
def gauss256 (l c u : Nat) : Int :=
  ((List.range 256).filter fun (i : Nat) => gaussAtLeast l c u ((i : Int) - 127)).length - 128

/-- round(256 d) of the other methods, d clamped to ±0.5. -/
def clamp256 (d : Rat) : Int := roundRat ((max (-1 / 2 : Rat) (min (1 / 2 : Rat) d)) * 256)

def parab256 (l c u : Nat) : Int :=
  clamp256 (((l : Rat) - u) / (2 * ((l : Rat) - 2 * c + u)))

/-- pos in 1/256 bin, and whether it lies at an edge of the search. A saturated top of one bin stands at its bin, never interpolated.
DEDUCED, unsafe (log 85). -/
def Work.position (w : Work) (t : RawTop) : Int × Bool :=
  let m := t.1
  let p := w.v.peak
  if 1 < t.2.1 then ((256 * m + 128 * (t.2.1 - 1) : Nat), false)
  else if m = w.lo || m + 1 = w.stop then ((256 * m : Nat), true)
  else if t.2.2.1 = 0xFFFF then ((256 * m : Nat), false)
  else
    let l := w.r (m - 1)
    let u := w.r (m + 1)
    let d : Int := match u8 p 0 with
      | 1 =>
        let h := u8 p 1
        let near := w.h.bins.filter fun x => max w.lo (m - h) ≤ x.1 && x.1 < min w.stop (m + h + 1)
        let s := (near.map (·.2)).foldl (· + ·) 0
        let sw : Int := (near.map fun x => ((x.1 : Int) - m) * x.2).foldl (· + ·) 0
        clamp256 (mkRat sw s)
      | 2 => if 0 < l && 0 < u then gauss256 l t.2.2.1 u else parab256 l t.2.2.1 u
      | _ => parab256 l t.2.2.1 u
    ((256 * m : Nat) + d, false)

/-! ## Corrections (R300 to R302) -/

/-- walk(x), linear between the 16 entries, in sixteenths of a fine step. -/
def walkAt (p : List Byte) (x : Rat) : Rat :=
  let i := min 14 x.floor.toNat
  let a : Rat := s16 p (16 + 2 * i)
  let b : Rat := s16 p (18 + 2 * i)
  a + (x - i) * (b - a)

/-- The walk correction of a candidate of top `m` and area `a`.
DEDUCED, unsafe (log 85). -/
def Work.walk (w : Work) (m a : Nat) : Rat :=
  let p := w.v.peak
  let occ : Rat := walkAt p (15 * min 1 (16 * w.perShot a / (u16 p 6 : Rat)))
  match u8 p 4 with
  | 1 => occ
  | 2 =>
    if w.v.weightPlane && (w.v.posOf 2).isNone then
      let near (f : List (Nat × Nat)) : Nat := ((f.filter fun x => m - 1 ≤ x.1 && x.1 ≤ m + 1).map (·.2)).foldl (· + ·) 0
      let bins := min (m + 1) (w.v.bins - 1) + 1 - (m - 1)
      let d : Rat := (near w.h.bins : Rat) + (bins : Rat) * w.bg
      walkAt p (min 15 (15 * ((near w.h.weights : Rat) / d) / 7))
    else occ
  | _ => 0

/-- Range in 0.1 mm before clamping (R302). `pos` in 1/256 bin, temperatures in 0.01 °C. -/
def rangeOf (p : List Byte) (binWidth : Nat) (pos : Int) (walk : Rat) (temp chOffset : Int) : Int :=
  let tau : Rat := (mkRat pos 256 + 1 / 2) * (binWidth : Rat) - walk / 16
  let mm := tau * mkRat 1829788 1000000 / (1 + mkRat (u16 p 8) 1000000)
  let mm := mm - mkRat (s16 p 10) 100 * mkRat (temp - s16 p 12) 100
  let mm := mm + mkRat (s16 p 14 + chOffset) 10
  roundRat (10 * mm)

/-! ## K_PEAK -/

/-- Is a bin inside one of the marked intervals? -/
def marked (l : List (Nat × Nat)) (b : Nat) : Bool := l.any fun x => x.1 ≤ b && b ≤ x.2

/-- Clamped range and intensity, confidence and own flags of a candidate (R302 to R304, R309).
DEDUCED, unsafe (log 85). -/
def Work.candidate (w : Work) (temp chOffset : Int) (t : RawTop) : Cand :=
  let p := w.v.peak
  let m := t.1
  let a := w.area (max w.lo (m - 2)) (min (w.stop - 1) (m + 2))
  let ps := w.position t
  let rg := rangeOf p w.v.binWidth ps.1 (w.walk m a) temp chOffset
  let it := (roundRat (64 * w.perShot a)).toNat
  let cf := min 15 (t.2.2.1 * 65536 / max w.sigma 65536)
  { m := m, len := t.2.1, top := t.2.2.1, lo := t.2.2.2.1, hi := t.2.2.2.2,
    range := (clampInt 0 0xFFFFFF rg).toNat, intensity := min 4095 it, confidence := cf,
    flags := flag ps.2 0 + flag (decide (rg < 0) || decide (0xFFFFFF < rg)) 2 +
      flag (w.h.mark 3 && decide (t.2.2.2.1 = 0)) 5 + flag (4095 < it) 9 + flag (w.h.minLastBin < m) 10 +
      flag (cf < u8 p 3) 12 + flag (marked w.foreign m) 13 + flag (marked w.precip m) 14 }

def Work.peak (temp chOffset : Int) (w : Work) : Work :=
  if w.h.observed = 0 then { w with peaked := true } else
  let all := (w.regions.map (regionTops (u8 w.v.peak 2))).flatten
  { w with cands := (keep16 all).map (w.candidate temp chOffset), candOvf := decide (16 < all.length), peaked := true }

/-! ## Selection and records (R305 to R309) -/

/-- Inserts by a key, keeping earlier entries first among equals. -/
def sortOn (f : Cand → Nat) (l : List Cand) : List Cand := sortBy (fun a b => decide (f a < f b)) l

/-- The candidates that become records, in ascending range. -/
def ViewDef.selected (v : ViewDef) (l : List Cand) : List Cand :=
  let near := sortOn (·.range) l
  let n := min 4 v.maxEchoes
  let pick := match v.select with
    | 0 => near.take n
    | 2 => near.reverse.take n
    | _ => (sortOn (fun c => 4095 - c.intensity) near).take n
  sortOn (·.range) pick

/-- FLAGS that every record of a histogram carries (Table 11.6); `temp` says that no current tile temperature was in
use. -/
def Work.commonFlags (w : Work) (tempHeld : Bool) : Nat :=
  let h := w.h
  flag (h.mark 7 || h.mark 13) 1 + flag (h.mark 11) 3 + flag (h.mark 8) 4 + flag (h.mark 12) 6 +
  flag (decide (2 ≤ h.calWorst) || tempHeld) 7 + flag (h.mark 1 || h.mark 4 || h.mark 5 || h.mark 6) 8 +
  flag (h.mark 9) 9 + flag w.candOvf 11

/-- A point record less its TIME_OFFSET, which its frame sets: bytes 0 to 15 of Table 11.5. -/
def recordBytes (range az ch inten flags conf index count epoch : Nat) : List Byte :=
  le 2 epoch ++ le 1 (count + 4 * index + 16 * conf) ++ le 2 flags ++ le 3 0 ++
  le 8 (inten + 2 ^ 12 * ch + 2 ^ 20 * az + 2 ^ 40 * range)

/-- The mean firing angle of a histogram, or the centre of its cell span (R308). -/
def Hist.azimuth (v : ViewDef) (h : Hist) : Nat :=
  if h.obs.isEmpty then h.midAngle v
  else (roundDiv ((h.obs.map (·.angle)).foldl (· + ·) 0 : Nat) h.obs.length).toNat % turn

/-- The records that leave a chain with OUTPUT_ROLE 0 or 2. -/
def Work.records (w : Work) (tempHeld : Bool) : List (List Byte) :=
  let common := w.commonFlags tempHeld
  let az := w.h.azimuth w.v
  let sel := w.v.selected w.cands
  if w.cands.isEmpty then
    if u8 w.v.peak 5 % 2 = 1 then
      [recordBytes 0 az w.h.channel 0 (common ||| 2 ^ 15) 0 0 0 w.h.epoch]
    else []
  else sel.zipIdx.map fun x =>
    recordBytes x.1.range az w.h.channel x.1.intensity (common ||| x.1.flags) x.1.confidence x.2 (sel.length - 1)
      w.h.epoch

/-! ## K_ZONE (R197, R212, R258) -/

/-- Near and far range of a field at an angle relative to its first vertex, in 0.1 mm. -/
def fdLimits (p : List Byte) (rel : Nat) : Rat × Rat :=
  let i := ((List.range (fdVertices p - 1)).filter fun k => fdRel p k ≤ rel).length - 1
  let a := fdRel p i
  let f : Rat := mkRat ((rel : Int) - a) (pos (fdRel p (i + 1) - a))
  let line (x y : Nat) : Rat := 200 * ((x : Rat) + f * ((y : Rat) - x))
  (line (fdNear p i) (fdNear p (i + 1)), line (fdFar p i) (fdFar p (i + 1)))

/-- Does an echo lie inside a field (R197)? `guard` is RANGE_GUARD. -/
def insideField (p : List Byte) (guard az range flags : Nat) : Bool :=
  let rel := (az + turn - fdAngle p 0) % turn
  let l := fdLimits p rel
  let g : Rat := 200 * guard
  rel ≤ fdSpan p && decide (l.1 - g ≤ range) && decide ((range : Rat) ≤ l.2 + g) &&
  !(bit (fdIgnore p) 0 && bit flags 14) && !(bit (fdIgnore p) 1 && bit flags 13) &&
  !(bit (fdIgnore p) 2 && bit flags 12)

/-- The fields that a view's histogram of a channel is evaluated for. -/
def fieldsOf (c : ConfigSet) (v : ViewDef) (ch : Nat) : List (Nat × List Byte) :=
  c.fields.filter fun f => v.fieldMask.testBit f.1 && (fdGroup f.2).testBit ch

/-- Does K_ZONE report no result of a histogram (R212, R258)? -/
def Work.zoneSilent (w : Work) : Bool :=
  w.h.outOfService || w.h.mark 7 || w.h.mark 13 || (bit (u8 (w.v.block 8) 0) 0 && w.candOvf)

/-- What K_ZONE reports of a histogram (R198, R212). -/
def Work.zoneResult (c : ConfigSet) (w : Work) : Option ZoneResult :=
  let p := w.v.block 8
  let az := w.h.azimuth w.v
  if w.zoneSilent then none else
  some {
    channel := w.h.channel,
    observed := decide (ceilDiv w.v.shots 2 ≤ w.h.observed),
    points := (fieldsOf c w.v w.h.channel).filterMap fun f =>
      let hits := w.cands.filter fun e =>
        u8 p 1 ≤ e.confidence && insideField f.2 (u16 p 2) az e.range e.flags
      if hits.isEmpty then none else some (f.1, hits.length, (hits.map (·.range)).foldl min 0xFFFFFF) }

/-! ## K_FOREIGN (R329) -/

/-- Joins overlapping or adjacent intervals of a list in rising order of first bin. -/
def joinIntervals : List (Nat × Nat) → List (Nat × Nat)
  | [] => []
  | x :: r =>
    match joinIntervals r with
    | y :: ys => if y.1 ≤ x.2 + 1 then (x.1, max x.2 y.2) :: ys else x :: y :: ys
    | [] => [x]

/-- The least gap between neighbours. -/
def leastGap : List (Nat × Nat) → Nat
  | x :: y :: r => min (y.1 - x.2) (leastGap (y :: r))
  | _ => 2 ^ 16

/-- Merges the first pair of neighbours that stand `g` apart. -/
def mergeAt (g : Nat) : List (Nat × Nat) → List (Nat × Nat)
  | x :: y :: r => if y.1 - x.2 = g then (x.1, max x.2 y.2) :: r else x :: mergeAt g (y :: r)
  | l => l

/-- Merges the closest pairs until `k` merges are done. -/
def mergeClosest : Nat → List (Nat × Nat) → List (Nat × Nat)
  | 0, l => l
  | k + 1, l => mergeClosest k (mergeAt (leastGap l) l)

/-- A sorted list without repeats. -/
def dedup : List Nat → List Nat
  | [] => []
  | a :: r =>
    match dedup r with
    | b :: s => if a = b then b :: s else a :: b :: s
    | [] => [a]

/-- Bins covered by at least `n` of the notes, as intervals at most 16 in number. -/
def markedBins (n : Nat) (notes : List (List (Nat × Nat))) : List (Nat × Nat) :=
  let ends := (notes.flatten.map fun x => [x.1, x.2 + 1]).flatten
  let edges := dedup (sortBy (fun a b => decide (a < b)) ends)
  let covered (b : Nat) : Bool := n ≤ (notes.filter fun w => marked w b).length
  let pieces := (edges.zip (edges.drop 1)).filterMap fun e => if covered e.1 then some (e.1, e.2 - 1) else none
  let l := joinIntervals pieces
  mergeClosest (l.length - 16) l

def Work.foreignMarks (w : Work) : Work :=
  let p := w.v.block 7
  if !bit (u8 p 0) 2 then w else
  let l := markedBins (u8 p 3) (w.h.obs.map (·.notes))
  { w with foreign := if w.corrDone then joinIntervals (l.map (widen (w.corrEdge + 1))) else l }

/-! ## K_AMBIENT (R316, R317; Table 12.1) -/

/-- The rate at the threshold in counts per second; none without a usable record. `dt` in ps. -/
def ambientRate (p : List Byte) (dt : Nat) (records : List AmbRecord) : Option Rat :=
  let use := records.filter fun r => u16 p 2 ≤ r.span && !r.longHigh
  let cnt : Nat := (use.map (·.count)).foldl (· + ·) 0
  let span : Nat := (use.map (·.span)).foldl (· + ·) 0
  if span = 0 then none else
  let m : Rat := mkRat cnt span * 1280000000
  let md : Rat := m * mkRat dt 1000000000000
  let one : Rat := 1
  some (if bit (u8 p 0) 1 then (if md ≤ one / 2 then m / (one - md) else 2 * m) else m)

/-- lam_s after a run. -/
def smoothRate (p : List Byte) (first : Bool) (old lam : Rat) : Rat :=
  if first then lam else old + (lam - old) / ((2 ^ u8 p 1 : Nat) : Rat)

/-- BG_AMB in units of 2^-32 events per bin per shot, within its 32 bits. -/
def bgAmbOf (binWidth : Nat) (lam : Rat) : Nat :=
  min (2 ^ 32 - 1) (roundRat (lam * (binWidth : Rat) * mkRat 12207 1000000000000000 * ((2 ^ 32 : Nat) : Rat))).toNat

/-! ## K_RAIN (R330, R331, R333; Table 12.5) -/

/-- A region as K_RAIN sees it: first and last bin, width, area in events per shot, top. -/
structure Region where
  lo : Nat
  hi : Nat
  width : Nat
  area : Rat
  top : Nat
deriving DecidableEq, Repr

/-- The first bin of the largest value. -/
def topBin (l : List (Nat × Nat)) : Nat :=
  let v := (l.map (·.2)).foldl max 0
  ((l.find? (·.2 == v)).map (·.1)).getD 0

def Work.rainRegions (w : Work) : List Region :=
  w.regions.map fun r =>
    let a := ((r.head?).map (·.1)).getD 0
    let b := ((r.getLast?).map (·.1)).getD 0
    { lo := a, hi := b, width := r.length, area := w.perShot ((r.map (·.2)).foldl (· + ·) 0), top := topBin r }

/-- The zone of a top below MAX_RANGE (R330). -/
def rainZone (p : List Byte) (top : Nat) : Nat := top * 16 / pos (u16 p 4)

/-- Is a zone persistent: occupied in at least PERSIST_MIN of the last PERSIST_REVS complete revolutions? -/
def persistent (p : List Byte) (revs : Nat) : Bool :=
  u8 p 7 ≤ ((List.range (u8 p 6)).filter fun k => revs.testBit (k + 1)).length

/-- Is a region precipitation (R331)? `revs` gives the revolutions of a zone, `prev` the previous cell's tops. -/
def isPrecip (p : List Byte) (revs : Nat → Nat) (prev : List Nat) (g : Region) : Bool :=
  bit (u8 p 0) 0 && decide (g.top < u16 p 4) && decide (g.width ≤ u8 p 2) &&
  decide (g.area ≤ mkRat (u8 p 1) 16) && !persistent p (revs (rainZone p g.top)) &&
  !prev.any fun t => t ≤ g.top + u8 p 3 && g.top ≤ t + u8 p 3

/-- The fog test (R333). -/
def Work.fog (w : Work) (p : List Byte) (gs : List Region) : Bool :=
  let a := u16 p 8
  let b := u16 p 10
  decide (mkRat (u16 p 12) 16 ≤ w.perShot (w.area a b)) &&
  !gs.any fun g => a ≤ g.hi && g.lo ≤ b && g.width ≤ u8 p 2

/-! ## K_WINDOW (R350) -/

/-- Backscatter per shot, and nothing from a histogram that may not contribute. -/
def Work.backscatter (w : Work) : Option Rat :=
  let p := w.v.block 9
  if w.h.observed = 0 || w.h.mark 7 || w.h.mark 13 || w.h.mark 9 || w.h.mark 1 then none else
  let a := u16 p 0
  let b := u16 p 2
  let amb : Rat := match w.bgAmb with
    | some x => mkRat (x * (b + 1 - a)) (2 ^ 32)
    | none => 0
  some (max 0 (mkRat (w.area a b) w.h.observed - amb))

end Sys2Proof.Machine
end

