-- ==== Sys2Proof/Machine/Fields.lean ====
section
/-!
DEFINITION. The protection-field logic (R197 to R202): gathering K_ZONE's results of a cell, deciding it for each field,
passes and confirmed runs, field states, and what ZONE_A and ZONE_B are driven to.
-/
namespace Sys2Proof.Machine

/-! ## ZONE_A and ZONE_B (R202) -/

def State.fieldState (n : Nat) (s : State) : Option FieldState := ((s.zone.fields.find? (·.field == n)).map (·.state))

/-- Are both outputs to be driven clear: a nonzero map of fields that are all CLEAR, no latched fault, and a device that
is neither before its first start's end nor in Pavane? -/
def State.zonesClear (s : State) : Bool :=
  let m := s.sets.active.zoneMap
  m != 0 && ((maskBits 16 m).all fun n => s.fieldState n == some FieldState.clear) && !s.zone.outFault && !s.zone.wdog &&
  s.power.phase != .pavane && s.power.phase != .cold

/-- Drives both outputs as the fields, the map and the faults say; an output that is no longer clear ends its test
pulse. -/
def State.driveZones (s : State) : State :=
  let c := s.zonesClear
  s.onZone fun z =>
    { z with clearA := c, clearB := c, pulseA := if c then z.pulseA else none, pulseB := if c then z.pulseB else none }

/-! ## Cells of a field (R197) -/

/-- Does a view contribute cells to a field: it names the field and holds a channel of its group? -/
def contributes (v : ViewDef) (n : Nat) (p : List Byte) : Bool :=
  v.fieldMask.testBit n && v.channels.any (fdGroup p).testBit

/-- Does a cell overlap a field's span? -/
def overlaps (p : List Byte) (v : ViewDef) (j : Nat) : Bool :=
  let rs := (v.cellStart j + turn - fdAngle p 0) % turn
  rs ≤ fdSpan p || turn < rs + v.width

/-- Where a cell opens, from the field's first vertex on: its place in a pass. A cell across the first vertex comes first. -/
def passKey (p : List Byte) (v : ViewDef) (j : Nat) : Nat :=
  let rs := (v.cellStart j + turn - fdAngle p 0) % turn
  if rs ≤ fdSpan p then turn + rs else rs

/-- Which sweep over the field's span a cell belongs to that starts at the angle `a`, counted on over whole turns. -/
def passIndex (p : List Byte) (v : ViewDef) (j a : Nat) : Nat :=
  (a + turn - fdAngle p 0) / turn + (if turn ≤ passKey p v j then 0 else 1)

/-- The cells of a field as (view, cell). -/
def ConfigSet.fieldCells (n : Nat) (p : List Byte) (c : ConfigSet) : List (Nat × Nat) :=
  ((c.views.filter fun v => contributes v n p).map fun v =>
    ((List.range v.cellCount).filter (overlaps p v)).map fun j => (v.handle, j)).flatten

/-- The cells of a field that open a pass: those of the least place. -/
def ConfigSet.opensPass (n : Nat) (p : List Byte) (v : ViewDef) (j : Nat) (c : ConfigSet) : Bool :=
  (c.fieldCells n p).all fun x => match c.view x.1 with
    | some w => passKey p v j ≤ passKey p w x.2
    | none => true

/-- What a field's behaviour rests on: its image, and binding and K_ZONE block of each view that names it (R201, R212). -/
def ConfigSet.fieldDef (n : Nat) (c : ConfigSet) : Option (List Byte × List (Nat × List Byte × List Byte)) :=
  (c.field n).map fun p =>
    (p, (c.views.filter fun v => v.fieldMask.testBit n).map fun v => (v.handle, v.binding, v.block 8))

/-! ## Field states (R199) -/

def State.onField (n : Nat) (f : FieldRun → FieldRun) (s : State) : State :=
  s.onZone fun z => { z with fields := z.fields.map fun r => if r.field == n then f r else r }

/-- A field enters a state; a change stamps DECISION_TIME. -/
def State.enterField (n : Nat) (st : FieldState) (s : State) : State :=
  if s.fieldState n == some st then s
  else (s.onField n fun r => { r with state := st }).onZone fun z => { z with decisionTime := s.stamp }

/-- A new field, UNKNOWN with its counts at 0 (R199, R201). -/
def FieldRun.fresh (n : Nat) : FieldRun :=
  { field := n, state := .unknown, cells := [], cleanPasses := 0, passes := [], lastPass := none,
    violAngle := 0, violRange := 0 }

/-! ### Confirmed runs -/

/-- The confirmed cells of a field as (start angle, width). -/
def confirmedSpans (c : ConfigSet) (revs : Nat) (r : FieldRun) : List (Nat × Nat) :=
  (r.cells.filter (revs ≤ ·.count)).filterMap fun x => (c.view x.view).map fun v => (v.cellStart x.cell, v.width)

/-- The longer of two runs, as (cells, angle). -/
def longer (a b : Nat × Nat) : Nat × Nat := if a.1 < b.1 then b else a

/-- The longest run of confirmed cells, each adjacent to the one before, from angle `a` on (or, `back`, up to it) within angle
`room`: at most `fuel` cells, and the angle that they cover. -/
def adjacentRun (l : List (Nat × Nat)) (back : Bool) : Nat → Nat → Nat → Nat × Nat
  | 0, _, _ => (0, 0)
  | k + 1, a, room =>
    l.foldl (fun best x =>
      let joins := if back then (x.1 + x.2) % turn == a else x.1 == a
      if joins && decide (x.2 ≤ room) then
        let r := adjacentRun l back k (if back then x.1 else (x.1 + x.2) % turn) (room - x.2)
        longer best (r.1 + 1, r.2 + x.2)
      else best) (0, 0)

/-- The confirmed cells in the longest run about the cell at `a` of width `w`, counted once each. -/
def confirmedRun (l : List (Nat × Nat)) (a w : Nat) : Nat :=
  let after := adjacentRun l false 16 ((a + w) % turn) (turn - w)
  1 + after.1 + (adjacentRun l true 16 a (turn - w - after.2)).1

/-! ### Deciding a cell -/

/-- The count of a cell in a field after an observation (R198). -/
def recount (occupied : Bool) (view cell near : Nat) (l : List FieldCell) : List FieldCell :=
  let old := ((l.find? fun x => x.view == view && x.cell == cell).map (·.count)).getD 0
  let rest := l.filter fun x => !(x.view == view && x.cell == cell)
  if occupied then rest ++ [{ view := view, cell := cell, count := old + 1, nearest := near }] else rest

/-- Cell `j` of a view is reached in sweep `i` over the field's span (R198): a new sweep begins a pass. The first one that a field sees
is whole only from its first cell on; else it is the rest of a sweep, which cannot be clean.
DEDUCED, unsafe (log 68). -/
def FieldRun.reach (c : ConfigSet) (n : Nat) (p : List Byte) (v : ViewDef) (j i : Nat) (r : FieldRun) : FieldRun :=
  if r.lastPass.any (i ≤ ·) then r else
  let whole := r.lastPass.isSome || c.opensPass n p v j
  let todo := (c.fieldCells n p).filter fun x => whole || ((c.view x.1).any fun w => passKey p v j ≤ passKey p w x.2)
  { r with passes := r.passes ++ [{ index := i, left := todo, clean := whole }], lastPass := some i }

/-- A decided cell leaves the oldest pass that waits for it. -/
def settlePass (x : Nat × Nat) (good : Bool) : List Pass → List Pass
  | [] => []
  | q :: r => if q.left.contains x then { q with left := q.left.filter (· != x), clean := q.clean && good } :: r
              else q :: settlePass x good r

/-- Passes whose cells are all decided count in their order: a clean one adds to the row of clean passes, another ends it. -/
def countPasses : Nat → List Pass → Nat × List Pass
  | n, [] => (n, [])
  | n, q :: r => if q.left.isEmpty then countPasses (if q.clean then n + 1 else 0) r else (n, q :: r)

/-- The passes after a cell's decision. -/
def FieldRun.settle (x : Nat × Nat) (good : Bool) (r : FieldRun) : FieldRun :=
  let y := countPasses r.cleanPasses (settlePass x good r.passes)
  { r with cleanPasses := if good then y.1 else 0, passes := y.2 }

/-- A cell of field `n` is decided (R198, R199): observed or not, occupied or not, `near` the nearest echo inside. -/
def State.decideCell (n : Nat) (v : ViewDef) (j : Nat) (observed occupied : Bool) (near : Nat) (s : State) : State :=
  let c := s.sets.active
  match c.field n, s.zone.fields.find? (·.field == n) with
  | some p, some r =>
    let r1 := if observed then { r with cells := recount occupied v.handle j near r.cells } else r
    let r2 := r1.settle (v.handle, j) (observed && !occupied)
    let a := v.cellStart j
    let mine := r2.cells.any fun x => x.view == v.handle && x.cell == j && fdConfirmRevs p ≤ x.count
    let confirms := observed && occupied && mine &&
      decide (fdConfirmCells p ≤ confirmedRun (confirmedSpans c (fdConfirmRevs p) r2) a v.width)
    let s := s.onField n fun _ => r2
    if confirms then
      if r.state == .violated then s
      else (s.onField n fun x => { x with violAngle := a, violRange := near }).enterField n .violated
    else if !observed && r.state == .clear then s.enterField n .unknown
    else if fdClearRevs p ≤ r2.cleanPasses && r2.passes.all (·.clean) then s.enterField n .clear
    else s
  | _, _ => s

/-! ### The sweep -/

/-- The sweep reaches a cell that starts at angle `a`: it takes its place in the passes of the fields of its view. -/
def State.reachCell (v : ViewDef) (j a : Nat) (s : State) : State :=
  let c := s.sets.active
  (c.fields.filter fun f => contributes v f.1 f.2 && overlaps f.2 v j).foldl
    (fun s f => s.onField f.1 (FieldRun.reach c f.1 f.2 v j (passIndex f.2 v j a))) s

/-- A cell that the sweep has passed without its opening is unobserved (R185, R199). -/
def State.missCell (v : ViewDef) (a : Nat) (s : State) (j : Nat) : State :=
  let s := s.reachCell v j a
  (s.sets.active.fields.filter fun f => contributes v f.1 f.2 && overlaps f.2 v j).foldl
    (fun s f => s.decideCell f.1 v j false false 0) s

/-- How far beyond angle `a` a cell ends, 1 ac to a whole turn. -/
def ViewDef.endsAfter (a j : Nat) (v : ViewDef) : Nat := (v.cellStart j + v.width + turn - a % turn - 1) % turn + 1

/-- The cells of a view that end beyond angle `a` and within `d` ac after it. -/
def ViewDef.passedCells (a d : Nat) (v : ViewDef) : List Nat :=
  (List.range v.cellCount).filter fun j => v.endsAfter a j ≤ d

/-- The angle `b` counted on over whole turns, nearest to `w`. -/
def nearTurn (w b : Nat) : Nat := w + (b + turn + turn / 2 - w % turn) % turn - turn / 2

/-- The sweep is followed from here on. -/
def State.startSweep (b : Nat) (s : State) : State :=
  let now := s.clk.tickCount
  s.onZone fun z => { z with swept := some (2 * turn + b), sweptAt := now }

/-- How far the spindle has turned from angle `a`, where the sweep was followed last, to angle `b`: of the whole turns that this
leaves open those that the published speed gives.
DEDUCED, unsafe (log 68). -/
def State.turnedTo (b a : Nat) (s : State) : Int :=
  let d : Int := ((b + turn - a % turn) % turn : Nat)
  let est := roundDiv (((s.clk.tickCount - s.zone.sweptAt : Nat) : Int) * s.angle.pubSpeed) 80000000
  d + turn * roundDiv (est - d) turn

/-- The sweep breaks off: the row of passes of every field ends, and a CLEAR field of which a cell goes unseen is UNKNOWN.
DEDUCED, unsafe (log 68). -/
def State.breakSweep (unseen : Nat → List Byte → Bool) (s : State) : State :=
  let s := s.onZone fun z =>
    { z with swept := none, opened := [],
             fields := z.fields.map fun r => { r with passes := [], lastPass := none, cleanPasses := 0 } }
  ((s.sets.active.fields.filter fun f => unseen f.1 f.2 && s.fieldState f.1 == some .clear).foldl
    (fun s f => s.enterField f.1 .unknown) s).driveZones

/-- The spindle has turned on to angle `b`: every cell of a field that it passed has opened, or is unobserved. Turning backwards it
passes cells that none can observe.
DEDUCED, unsafe (log 68). -/
def State.sweepTo (b : Nat) (s : State) : State :=
  match s.zone.swept with
  | none => (s.startSweep b).driveZones
  | some a =>
    let d := s.turnedTo b a
    let views := s.sets.active.views.filter (·.fieldMask != 0)
    if 0 ≤ d then
      let s := views.foldl (fun s v =>
        let l := v.passedCells a d.toNat
        let missed := l.filter fun j => !s.zone.opened.contains (v.handle, j)
        (missed.foldl (fun s j => s.missCell v (a + v.endsAfter a j - v.width) j) s).onZone fun z =>
          { z with opened := z.opened.filter fun x => !(x.1 == v.handle && l.contains x.2) }) s
      let now := s.clk.tickCount
      (s.onZone fun z => { z with swept := some (a + d.toNat), sweptAt := now }).driveZones
    else if 0 ≤ s.angle.pubSpeed then s
    else
      (s.breakSweep fun n p => views.any fun v => contributes v n p && (v.passedCells b d.natAbs).any (overlaps p v)).startSweep b

/-- The angle is lost: no cell can be observed until it is back, and none of a field is.
DEDUCED, unsafe (log 68). -/
def State.loseSweep (s : State) : State := if s.zone.swept.isSome then s.breakSweep fun _ _ => true else s

/-! ### Gathering results -/

/-- Is a field's definition the same in the set of an epoch and in the active one? -/
def State.sameField (epoch n : Nat) (s : State) : Bool := (s.setOf epoch).fieldDef n == s.sets.active.fieldDef n

/-- Decides cell `z` for field `n` from its results, once they suffice; `late` decides it as unobserved in any case. -/
def State.tryField (v : ViewDef) (n : Nat) (p : List Byte) (late : Bool) (x : State × ZoneCell) : State × ZoneCell :=
  let s := x.1
  let z := x.2
  let chs := v.channels.filter (fdGroup p).testBit
  let rs := z.results.filter fun r => chs.contains r.channel
  let bad := rs.any (!·.observed)
  let all := chs.all fun ch => rs.any (·.channel == ch)
  if z.decided.contains n || chs.isEmpty || !(overlaps p v z.cell) || !(bad || all || late) then x else
  let hits := (rs.map fun r => r.points.filter (·.1 == n)).flatten
  let count := (hits.map (·.2.1)).foldl (· + ·) 0
  let near := (hits.map (·.2.2)).foldl min 0xFFFFFF
  let ok := all && !bad
  let s' := if s.sameField z.epoch n then s.decideCell n v z.cell ok (ok && decide (fdMinPoints p ≤ count)) near else s
  (s', { z with decided := z.decided ++ [n] })

/-- Tries every field of a cell's view. -/
def State.tryCell (late : Bool) (z : ZoneCell) (s : State) : State × ZoneCell :=
  match s.viewIn z.epoch z.view with
  | some v => (((s.setOf z.epoch).fields.filter fun f => contributes v f.1 f.2).foldl
      (fun x f => State.tryField v f.1 f.2 late x) (s, z))
  | none => (s, z)

/-- Is every field of a cell decided? -/
def State.cellDone (z : ZoneCell) (s : State) : Bool :=
  match s.viewIn z.epoch z.view with
  | some v => ((s.setOf z.epoch).fields.filter fun f => contributes v f.1 f.2).all fun f =>
      z.decided.contains f.1 || !overlaps f.2 v z.cell
  | none => true

def ZoneCell.isFor (view cell epoch : Nat) (z : ZoneCell) : Bool := z.view == view && z.cell == cell && z.epoch == epoch

/-- Puts a gathered cell back, or drops it when all its fields are decided, and drives the outputs. -/
def State.keepCell (z : ZoneCell) (s : State) : State :=
  (s.onZone fun k =>
    { k with cells := if s.cellDone z then k.cells.filter fun y => !(y.isFor z.view z.cell z.epoch)
                      else k.cells.map fun y => if y.isFor z.view z.cell z.epoch then z else y }).driveZones

/-- A K_ZONE result of a cell arrives, or an abandoned chain leaves none (R200, R284): it counts within 1 ms of the
cell's last shot, and only while the cell is still undecided. -/
def State.zoneArrives (view cell epoch : Nat) (r : ZoneResult) (s : State) : State :=
  match s.zone.cells.find? (ZoneCell.isFor view cell epoch) with
  | some z =>
    if z.last + ms 1 < s.clk.tickCount then s else
    let x := s.tryCell false { z with results := z.results ++ [r] }
    x.1.keepCell x.2
  | none => s

/-- The deadline of a gathered cell passes: it is unobserved for every field still undecided (R200).
DEDUCED, unsafe (log 68). -/
def State.zoneDeadline (z : ZoneCell) (s : State) : State :=
  let x := s.tryCell true z
  (x.1.keepCell x.2).onSched fun k => { k with fieldLate := true }

/-- A cell opens for the fields of its view; `last` starts at the tick it opens. -/
def State.openZoneCell (v : ViewDef) (cell epoch last : Nat) (s : State) : State :=
  if v.fieldMask = 0 || s.zone.cells.any (ZoneCell.isFor v.handle cell epoch) then s else
  let s := if s.zone.swept.isSome then s else s.startSweep s.angleNow
  let at_ := s.zone.swept.getD 0
  (s.reachCell v cell (nearTurn at_ (v.cellStart cell))).onZone fun z =>
    { z with opened := z.opened ++ [(v.handle, cell)], cells := z.cells ++
        [{ view := v.handle, cell := cell, epoch := epoch, last := last, results := [], decided := [] }] }

/-- A shot of a cell fires at tick `t`. -/
def State.zoneShot (view cell epoch t : Nat) (s : State) : State :=
  s.onZone fun z =>
    { z with cells := z.cells.map fun y => if y.isFor view cell epoch then { y with last := max y.last t } else y }

end Sys2Proof.Machine
end

