-- ==== Sys2Proof/Machine/Frames.lean ====
section
/-!
DEFINITION. Point frames (R311 to R314, R369, R385) and the release of chains in close order (R285).
-/
namespace Sys2Proof.Machine

/-! ## Stream settings (Table 14.6) -/

def scEnable (p : List Byte) : Bool := bit (u8 p 1) 0
def scV6 (p : List Byte) : Bool := bit (u8 p 1) 1
def scPortSel (p : List Byte) : Nat := bits (u8 p 1) 3 2
def scDscp (p : List Byte) : Nat := u8 p 2 % 64
def scTag (p : List Byte) : Nat := u16 p 4
def scSrcPort (p : List Byte) : Nat := u16 p 6
def scDstPort (p : List Byte) : Nat := u16 p 8
/-- DESIGN CHOICE, unsafe (log 158). -/
def scDestMac (p : List Byte) : List Byte := slice p 10 6
/-- DESIGN CHOICE, unsafe (log 158). -/
def scDestIp (p : List Byte) : List Byte := slice p 16 16
/-- Most records of a frame (R370). -/
def scRmax (p : List Byte) : Nat := if scV6 p then 86 else 88
def scPortA (p : List Byte) : Bool := scPortSel p != 2
def scPortB (p : List Byte) : Bool := scPortSel p == 0 || scPortSel p == 2

/-- A stream's settings in the set of an epoch. -/
def State.streamSet (n epoch : Nat) (s : State) : List Byte := (s.setOf epoch).streams.getD n (streamDefault n)

/-! ## Building a frame (Table 11.7) -/

/-- What FRAME_CHECK covers, its fold first (Table 15.4). -/
def frameCovered (set : List Byte) (stream seq : Nat) (covered : List Byte) : List Byte :=
  scDestIp set ++ le 2 (scDstPort set) ++ le 1 stream ++ [0] ++ le 4 seq ++ le 8 Config.serial ++ covered

/-- FRAME_CHECK. -/
def frameCheck (set : List Byte) (stream seq : Nat) (covered : List Byte) : Nat := crc32c (frameCovered set stream seq covered)

/-- The check unit that serves a stream's frame: any may, and the check does not depend on which (R384).
DESIGN CHOICE, unsafe (log 149). -/
def frameUnit (n : Nat) : Nat := 8 + n % 4

/-- Header bytes 0 to 59. -/
def frameHeader (n : Nat) (st : Stream) (f : OpenFrame) (startId : Nat) : List Byte :=
  le 2 1 ++ le 1 n ++ le 1 f.flags ++ le 4 st.frameSeq ++ le 4 st.recordSeq ++ le 2 f.records.length ++
  le 2 (min 65535 st.abandoned) ++ dev80 f.refTime ++ zeros 2 ++ leInt 4 f.speed ++ leInt 4 f.galvoPos ++
  le 4 f.refTick ++ le 8 Config.serial ++ le 4 startId ++ zeros 8

/-- The whole UDP payload. -/
def frameBytes (n : Nat) (st : Stream) (f : OpenFrame) (startId : Nat) : List Byte :=
  let h := frameHeader n st f startId
  let r := f.records.flatten
  h ++ le 4 (frameCheck f.settings n st.frameSeq (h ++ r)) ++ r

/-- Is a port's link up? -/
def State.linkUp (p : Nat) (s : State) : Bool := (s.port p).link == .up

/-- A frame that a port cannot carry because its link is down (R357). -/
def State.countDown (p : Nat) (c : Bool) (s : State) : State :=
  if c then s.onPort p fun x => { x with downDiscard := satInc 32 x.downDiscard } else s

/-- The open frame of a stream closes (R312) and joins the egress buffer. -/
def State.closeFrame (n : Nat) (s : State) : State :=
  let st := s.stream n
  match st.frame with
  | none => s
  | some f =>
    let b := frameBytes n st f s.fabric.startId
    let a := scPortA f.settings && s.linkUp 0
    let c := scPortB f.settings && s.linkUp 1
    let covered := frameCovered f.settings n st.frameSeq (frameHeader n st f s.fabric.startId ++ f.records.flatten)
    let s := s.unitItem (frameUnit n) covered
    let s := (s.countDown 0 (scPortA f.settings && !a)).countDown 1 (scPortB f.settings && !c)
    let s := s.onStream n fun x =>
      { x with frame := none, frameSeq := wrap 32 (x.frameSeq + 1), recordSeq := wrap 32 (x.recordSeq + f.records.length),
               abandoned := 0, discarded := if a || c then x.discarded else satInc 32 x.discarded,
               shortFrames := if f.records.length < scRmax f.settings then satInc 32 x.shortFrames else x.shortFrames }
    if a || c then
      s.onFabric fun k =>
        { k with egress := k.egress ++ [{ stream := n, seq := st.frameSeq, bytes := b, settings := f.settings,
                                          waitA := a, waitB := c, onA := false, onB := false,
                                          prp := none, sent := false }] }
    else s

/-- TIME_OFFSET in ns (Table 11.5). -/
def timeOffset (dev ref : Nat) : Int := roundDiv (((dev : Int) - ref) * 1000000000) (2 ^ 64)

/-- GALVO_POS: the measurement of the sample nearest a tick, 0 while the loop is UNCONFIGURED. -/
def State.galvoNear (t : Nat) (s : State) : Int :=
  if (s.loop 1).st == .unconfigured then 0 else
  let gap (x : Nat × Int) : Nat := ((x.1 : Int) - t).natAbs
  ((s.motion.galvoHist.foldl (fun b x => match b with
      | none => some x
      | some y => if gap x < gap y then some x else some y) (none : Option (Nat × Int))).map (·.2)).getD 0

/-- Is the published angle valid (LOCKED or COAST)? -/
def State.angleValid (s : State) : Bool := s.angle.lock == .locked || s.angle.lock == .coast

/-- An empty frame whose first record is about to be placed. -/
def State.newFrame (dev tick epoch : Nat) (set : List Byte) (s : State) : OpenFrame :=
  { records := [], refTime := dev, refTick := tick,
    flags := flag s.clk.timeValid 0 + flag s.clk.degraded 1 + flag s.angleValid 2,
    speed := s.angle.pubSpeed, galvoPos := s.galvoNear tick, placedAt := s.clk.now, epoch := epoch, settings := set,
    running := 0 }

/-- Must the open frame close before a record with this time and these settings (R312)?
DEDUCED, unsafe (log 88). -/
def OpenFrame.closesBefore (dev : Nat) (set : List Byte) (f : OpenFrame) : Bool :=
  let o := timeOffset dev f.refTime
  decide (o < -8388607) || decide (8388607 < o) || f.settings != set

/-- A record joins its stream's frame (R312, R314), and a check unit folds it into the stream's RUNNING (R384).
DEDUCED, unsafe (log 88). -/
def State.placeRecord (n dev tick epoch : Nat) (s : State) (rec : List Byte) : State :=
  let set := s.streamSet n epoch
  if !scEnable set then s else
  let s := match (s.stream n).frame with
    | some f => if f.closesBefore dev set then s.closeFrame n else s
    | none => s
  let f := ((s.stream n).frame).getD (s.newFrame dev tick epoch set)
  let rec' := patch rec 5 (leInt 3 (timeOffset dev f.refTime))
  let g := { f with records := f.records ++ [rec'], running := crcRun 2 f.running rec' }
  let s := (s.onStream n fun x => { x with frame := some g }).unitLoads (frameUnit n) g.running rec'.length
  if scRmax set ≤ g.records.length then s.closeFrame n else s

/-! ## Release in close order (R285) -/

/-- Does an AMB_STEP servo step follow (R319)? New hold count and step. -/
def servo (p : List Byte) (lam : Rat) (hold : Nat) (step : Int) : Nat × Int :=
  let h := hold + 1
  if h < u8 p 10 then (h, step)
  else if ((1000000 * u16 p 4 : Nat) : Rat) < lam && decide (step < s8 p 8) then (0, step + 1)
  else if lam < ((1000000 * u16 p 6 : Nat) : Rat) && decide (s8 p 9 < step) then (0, step - 1)
  else (h, step)

/-- What K_AMBIENT's run leaves on its channel when its histogram is released: AMB_RATE, and the servo's step. A step makes
every view's next run on the channel a first one (R318).
DEDUCED, unsafe (log 83). -/
def State.releaseAmbient (r : Release) (s : State) : State :=
  match r.ambient, s.viewIn r.epoch r.view with
  | some lam, some v =>
    let p := v.block 5
    let ch := s.channel r.channel
    let k := if bit (u8 p 0) 0 then servo p lam (s.fabric.ambHold.getD r.channel 0) ch.ambStep
             else (s.fabric.ambHold.getD r.channel 0, ch.ambStep)
    (s.onChannel r.channel fun c => { c with ambRate := (roundRat (lam / 1000)).toNat, ambStep := k.2 })
    |>.onFabric fun b =>
      { b with ambHold := b.ambHold.set r.channel k.1,
               ambRuns := if k.2 == ch.ambStep then b.ambRuns else
                 b.ambRuns.map fun y => if y.channel == r.channel then { y with first := true } else y }
  | _, _ => s

/-- The output of one finished chain. -/
def State.releaseOne (r : Release) (s : State) : State :=
  if r.abandoned then s else
  let s := s.releaseAmbient r
  let s := match r.zone with
    | some z => s.zoneArrives r.view r.cell r.epoch z
    | none => s
  match r.stream with
  | some n => r.records.foldl (State.placeRecord n r.dev r.tick r.epoch) s
  | none => s

/-- Releases what stands at the head of a view's order and is finished, at most `fuel` places.
DEDUCED, unsafe (log 88). -/
def State.flushReleases (view : Nat) : Nat → State → State
  | 0, s => s
  | k + 1, s =>
    match s.fabric.releases.find? (·.view == view) with
    | some r =>
      if r.done || r.abandoned then
        ((s.onFabric fun b => { b with releases := b.releases.filter (·.closeSeq != r.closeSeq) }).releaseOne r
          |>.flushReleases view k)
      else s
    | none => s

/-- Releases all that a view's order permits. -/
def State.flushView (view : Nat) (s : State) : State := s.flushReleases view (s.fabric.releases.length + 1)

/-- Settles a histogram's place in the order with what its chain gave. -/
def State.settleRelease (seq : Nat) (f : Release → Release) (s : State) : State :=
  s.onFabric fun b => { b with releases := b.releases.map fun r => if r.closeSeq == seq then f r else r }

/-- A histogram that will give nothing is abandoned (R284): counted at its tile and its stream, unobserved for the fields
from this instant, and its place in the order is freed. -/
def State.abandonHist (h : Hist) (s : State) : State :=
  let s := s.onTile (h.channel / 24) fun t =>
    { t with abandoned := satInc 32 t.abandoned, chainAbandonedSeen := true }
  let s := match s.viewIn h.epoch h.view with
    | some v =>
      if v.role = 0 || v.role = 2 then s.onStream v.stream fun x =>
        { x with abandoned := x.abandoned + 1, abandonedTotal := satInc 32 x.abandonedTotal } else s
    | none => s
  let s := s.zoneArrives h.view h.cell h.epoch { channel := h.channel, observed := false, points := [] }
  (s.settleRelease h.closeSeq fun r => { r with abandoned := true }).flushView h.view

end Sys2Proof.Machine
end

