-- ==== Sys2Proof/Machine/Inhibit.lean ====
section
/-!
DEFINITION. Opening and ending histograms with their cells (R274, R276, R284), and the inhibit network (R192 to R194).
-/
namespace Sys2Proof.Machine

/-! ## Buffers (R276, R284) -/

/-- Abandons the chain that runs or waits on buffer `buf` of a channel, and frees its engine.
DEDUCED, unsafe (log 140). -/
def State.freeBuffer (ch buf : Nat) (s : State) : State :=
  let mine (h : Hist) : Bool := h.channel == ch && h.buf == buf
  let gs := (List.range s.fabric.engines.length).filter fun g => match (s.engine g).job with
    | some j => mine j.1
    | none => false
  let s := gs.foldl (fun s g => match (s.engine g).job with
    | some j => (s.onEngine g fun e => { e with job := none, abandoned := satInc 32 e.abandoned }).abandonHist j.1
    | none => s) s
  let q := ((s.tile (ch / 24)).queue).filter mine
  let s := s.onTile (ch / 24) fun t => { t with queue := t.queue.filter fun h => !mine h }
  q.foldl (fun s h => s.abandonHist h) s

/-- Lets the channel's older histograms close: at once, or at the trailer of their last window under way. -/
def State.endOlder (ch : Nat) (s : State) : State :=
  (s.channel ch).acc.foldl (fun s h =>
    let k := (s.channel ch).inFlight h
    if k = 0 then s.closeHist ch h
    else s.onChannel ch fun c => { c with acc := c.acc.map fun g => if g = h then { g with left := k } else g }) s

/-- Do the histograms that begin now carry RX_BLIND (R255)? -/
def State.biasBlind (s : State) : Bool :=
  let b := s.returns.bias
  b.unsettled || b.fault || !bit (u8 b.image 0) 0

/-- Is a cell the view's first under an epoch? -/
def State.firstCell (view epoch : Nat) (s : State) : Option Nat :=
  (s.sched.firstCells.find? fun x => x.1 == view && x.2.1 == epoch).map (·.2.2)

/-- A new histogram of a channel for the group of cell `j` (R276). -/
def State.startHist (v : ViewDef) (j epoch ch : Nat) (s : State) : State :=
  let s := s.endOlder ch
  let buf := 1 - (s.channel ch).lastBuf
  let s := s.freeBuffer ch buf
  let g := v.group j
  let oos := (s.channel ch).st == .outOfService
  let first := (s.firstCell v.handle epoch).any fun f => g.1 ≤ f && f < g.1 + g.2
  let h := newHist v j epoch ch buf (s.biasBlind || oos) first
  let h := { h with outOfService := oos, midTick := (s.midFirst v h).getD s.clk.tickCount }
  s.onChannel ch fun c => { c with lastBuf := buf, acc := c.acc ++ [h] }

/-! ## Cells -/

def OpenCell.isFor (view cell : Nat) (c : OpenCell) : Bool := c.view == view && c.cell == cell

def State.openCell (view cell : Nat) (s : State) : Option OpenCell := s.sched.cells.find? (OpenCell.isFor view cell)

def State.onCell (view cell : Nat) (f : OpenCell → OpenCell) (s : State) : State :=
  s.onSched fun k => { k with cells := k.cells.map fun c => if c.isFor view cell then f c else c }

/-- The channel's histogram for cell `j`, begun if it is not there yet. -/
def State.ensureHist (v : ViewDef) (j epoch ch : Nat) (s : State) : State :=
  let s := if (s.channel ch).acc.any (·.holds v.handle j epoch) then s else s.startHist v j epoch ch
  s.onCell v.handle j fun c => { c with begun := if c.begun.contains ch then c.begun else ch :: c.begun }

/-- Shots of entry `e` of a cell that have neither opened a window nor been given up. -/
def OpenCell.unsettled (v : ViewDef) (e : Nat) (c : OpenCell) : Nat := v.shots - c.settled.getD e 0

/-- A cell closes on one channel with what it has gathered; mark `m` of Table 10.4 says why. A channel whose histogram of the cell
has closed already keeps it. -/
def State.closeCellOn (v : ViewDef) (c : OpenCell) (m : Nat) (s : State) (x : Nat × Nat) : State :=
  if c.begun.contains x.2 && !((s.channel x.2).acc.any (·.holds v.handle c.cell c.epoch)) then s else
  let s := s.ensureHist v c.cell c.epoch x.2
  s.updHist x.2 c.view c.cell c.epoch fun h => ({ h with left := h.left - c.unsettled v x.1 }).setMark m true

/-- Channels of a view with the firing-table entry that serves each. -/
def ViewDef.served (v : ViewDef) : List (Nat × Nat) :=
  (v.entries.zipIdx.map fun x => x.1.channels.map fun ch => (x.2, ch)).flatten

/-- An open cell closes before its shots are done (R193, R146).
DEDUCED, unsafe (log 67). -/
def State.closeCell (m : Nat) (s : State) (c : OpenCell) : State :=
  let s := match s.viewIn c.epoch c.view with
    | some v => v.served.foldl (State.closeCellOn v c m) s
    | none => s
  s.onSched fun k => { k with cells := k.cells.filter fun d => !d.isFor c.view c.cell }

/-- A window that has not reached t0 is abandoned (R193): it gives no header and no trailer. -/
def State.abandonWindow (ch : Nat) (s : State) : State :=
  let w := (s.channel ch).win
  if !w.fired && (w.phase == .blanked || w.phase == .preStart) then
    (s.onChannel ch fun c => { c with win := { c.win with phase := .none } }).updHist ch w.view w.cell w.epoch
      fun h => { h with left := h.left - 1 }
  else s

/-- Every window that has not reached t0 is abandoned. -/
def State.abandonWindows (s : State) : State := (List.range 192).foldl (fun s ch => s.abandonWindow ch) s

/-! ## The inhibit network -/

def causeNearField : Nat := 0
def causeLedger : Nat := 1
def causeAngle : Nat := 2
def causeSpeed : Nat := 3
def causeEmitEn : Nat := 4
def causeSupervisor : Nat := 5

def srcPll : Nat := 0
def srcXo : Nat := 1
def srcMotion : Nat := 2
def srcHost : Nat := 3
def srcPavane : Nat := 4
def srcStart : Nat := 5

/-- Is emission inhibited? -/
def State.inhibited (s : State) : Bool := s.sched.inhibit != 0

def bit6 (b : Nat) : BitVec 6 := BitVec.ofNat 6 (2 ^ b)

/-- The reservation of a fixed descriptor is given back. -/
def State.releaseDescriptor (s : State) (d : Descriptor) : State :=
  if d.fixed then s.unreserve d.emitter d.charge else s

/-- What the first cause registered does (R193). -/
def State.inhibitNow (cause : Nat) (s : State) : State :=
  let s := s.parkAll
  let gone := s.sched.queue ++ s.sched.current.filterMap id
  let s := gone.foldl State.releaseDescriptor s
  let s := s.onSched fun k =>
    { k with queue := [], current := k.current.map fun _ => none,
             inhibitedTotal := satAdd 32 k.inhibitedTotal gone.length }
  let s := s.sched.cells.foldl (State.closeCell (if cause = causeAngle then 4 else 5)) s
  let s := s.abandonWindows
  s.onSched fun k => { k with lastStamp := s.stamp, inhibitSeen := true }

/-- A cause is registered (R192, R193). -/
def State.registerCause (cause : Nat) (s : State) : State :=
  let s := if s.inhibited then s else s.inhibitNow cause
  s.onSched fun k => { k with inhibit := k.inhibit ||| bit6 cause }

/-- A cause clears; emission resumes when none is left (R194). -/
def State.clearCause (cause : Nat) (s : State) : State :=
  let rest := s.sched.inhibit &&& ~~~ bit6 cause
  s.onSched fun k =>
    { k with inhibit := rest, resumeAt := if k.inhibit != 0 && rest == 0 then some s.clk.tickCount else k.resumeAt }

def State.causeSet (cause : Nat) (s : State) : Bool := s.sched.inhibit.getLsbD cause

/-- A source of the SUPERVISOR cause is registered. -/
def State.registerSource (src : Nat) (s : State) : State :=
  (s.registerCause causeSupervisor).onSched fun k => { k with src := k.src ||| bit6 src }

/-- A source clears; the cause with the last of them. -/
def State.clearSource (src : Nat) (s : State) : State :=
  let rest := s.sched.src &&& ~~~ bit6 src
  let s := s.onSched fun k => { k with src := rest }
  if rest == 0 then s.clearCause causeSupervisor else s

/-! ## Groups of cells (R276) -/

/-- A histogram gets no more windows than those under way and those of shots still open in its cells: it closes with the last of
them, or now. -/
def State.endGroup (ch : Nat) (s : State) (h : Hist) : State :=
  let open_ (c : OpenCell) : Nat :=
    if !h.holds c.view c.cell c.epoch then 0 else
    match s.viewIn c.epoch c.view with
    | some v => ((v.served.filter (·.2 == ch)).map fun x => c.unsettled v x.1).foldl (· + ·) 0
    | none => 0
  let n := (s.channel ch).inFlight h + (s.sched.cells.map open_).foldl (· + ·) 0
  if n = 0 then s.closeHist ch h
  else s.onChannel ch fun c => { c with acc := c.acc.map fun g => if g = h then { g with left := n } else g }

/-- Ends every histogram that is being gathered and meets a condition. -/
def State.endGroupsIf (ends : Hist → Bool) (s : State) : State :=
  (List.range 192).foldl (fun s ch => ((s.channel ch).acc.filter ends).foldl (State.endGroup ch) s) s

/-- Without an angle no cell opens: every histogram ends with what is under way.
DEDUCED, unsafe (log 67). -/
def State.endGroups (s : State) : State := s.endGroupsIf fun _ => true

/-- Where the span of a histogram's cells ends. -/
def State.groupEnd (h : Hist) (s : State) : Option Nat :=
  (s.viewIn h.epoch h.view).map fun v => (v.cellStart h.cell + h.cells * v.width) % turn

/-- The spindle has turned from angle `a` by `d` ac: cells of a group that have not opened there will not.
DEDUCED, unsafe (log 67). -/
def State.endPassed (a d : Nat) (s : State) : State :=
  s.endGroupsIf fun h => (s.groupEnd h).any fun b => decide ((b + turn - a % turn - 1) % turn < d)

/-! ## What a tracking update asks of Minuet -/

/-- The spindle has turned to where it stands now: groups and cells of fields behind it are settled (R199, R276).
DEDUCED, unsafe (log 68). -/
def State.sweepNow (s : State) : State :=
  let b := s.angleNow
  match s.zone.swept with
  | none => s.sweepTo b
  | some a =>
    let d := s.turnedTo b a
    if d < 0 then s.sweepTo b else (s.endPassed a d.toNat).sweepTo b

/-- Stamps of descriptors not yet fixed follow a new angle publication, until 1.0 µs before the stamp (R188).
DEDUCED, unsafe (log 66). -/
def State.restamp (s : State) : State :=
  let again (d : Descriptor) : Descriptor :=
    if d.fixed || d.stamp < s.clk.tickCount + us 1 then d else
    match s.viewIn d.epoch d.view with
    | some v => match s.tickNear (v.shotAngle d.cell d.shot) with
      | some t => { d with stamp := t + (v.entries.getD d.entry (fireEntry [] 0)).offset + d.dither }
      | none => d
    | none => d
  let q := s.sched.queue.map again
  let last (e : Nat) (old : Option Nat) : Option Nat := (((q.filter (·.emitter == e)).getLast?).map (·.stamp)).orElse fun _ => old
  s.onSched fun k => { k with queue := q, lastShot := k.lastShot.zipIdx.map fun x => last x.2 x.1 }

/-- What a tracking update does to SPEED_LOW (R233). -/
def State.speedRule (s : State) : State :=
  let v := s.angle.pubSpeed
  let min : Int := ltMinSpeed s.emission.table
  let n := if min * 65 ≤ v * 64 then s.emission.speedCount + 1 else 0
  let s := s.onEmission fun m => { m with speedCount := n }
  if v < min then s.registerCause causeSpeed else s

/-- A tracking update has published angle and speed: stamps not yet fixed follow it (R188), and what the spindle has passed is settled. -/
def State.followAngle (s : State) : State := s.restamp.sweepNow

end Sys2Proof.Machine
end

