-- ==== Sys2Proof/Machine/Windows.lean ====
section
/-!
DEFINITION. A window on one channel (R103 to R117, R245 to R251): threshold, opening, converting an edge, placing an event,
the end of the histogram range and of the ambient span, and the path of records into the histogram (R266 to R276).
-/
namespace Sys2Proof.Machine

/-! ## Small reads -/

/-- Settings that govern a channel's window. -/
def State.rxFor (ch : Nat) (w : Window) (s : State) : List Byte := (s.setOf w.epoch).rxOf ch

/-- A tick of 52, the T0 interval (R116). -/
def t0Span : Nat := 52

/-- Is a lane ready and not failed? -/
def State.laneReady (n : Nat) (s : State) : Bool := (s.lane n).ready && !(s.lane n).failed

/-- The mean of the last 256 valid T0_FINE values of an emitter, to the nearest; 0 before the first (R114). -/
def State.t0Avg (e : Nat) (s : State) : Int :=
  let l := s.clk.t0Delays.getD e []
  roundDiv (l.foldl (· + ·) 0) (pos l.length)

/-! ## Ingress (R266 to R270) -/

def IngressItem.isMarker : IngressItem → Bool
  | .entry _ => false
  | _ => true

/-- Markers that wait in a front end's marker queue. -/
def Channel.markers (c : Channel) : Nat := (c.items.filter IngressItem.isMarker).length
/-- Entries that wait in its ingress buffer. -/
def Channel.entries (c : Channel) : Nat := c.items.length - c.markers

/-- A record joins a last entry that holds one record, or takes a new entry; none when the buffer is full (R20).
DEDUCED, unsafe (log 82). -/
def pushRecord (c : Channel) (x : Nat × Nat) : Option Channel :=
  match c.items.getLast? with
  | some (.entry [y]) => some { c with items := c.items.dropLast ++ [.entry [y, x]] }
  | _ => if 64 ≤ c.entries then none
         else some { c with items := c.items ++ [.entry [x]], entrySeq := (c.entrySeq + 1) % 128 }

/-- A window's overflow count for its trailer (R16). -/
def Window.overflowed (n : Nat) (w : Window) : Window := { w with overflows := w.overflows + n }

/-- An event of the open window finds no room: it is lost and counted (R269), also in the window's trailer (R16).
DEDUCED, unsafe (log 82). -/
def State.overflow (ch : Nat) (s : State) : State :=
  let w := (s.channel ch).win
  ((s.onChannel ch fun c => { c with overflowTotal := satInc 32 c.overflowTotal, win := w.overflowed 1 }).onTile (ch / 24)
    fun t => { t with overflowSeen := true }).updHist ch w.view w.cell w.epoch (·.setMark 1 true)

/-- Is an event counted by the near-field monitor (R195)? -/
def nearField (c : ConfigSet) (interval : Int) (weight : Nat) : Bool :=
  c.nfEnable && decide ((c.nfStart : Int) ≤ interval) && decide (interval ≤ c.nfEnd) && decide (c.nfWeight ≤ weight)

def State.countNear (e : Nat) (s : State) : State :=
  s.onSched fun k => { k with nfCount := k.nfCount.modify e fun n => n.map (· + 1) }

/-- An event with its interval known: pre-start, a record of its bin, or an ambient count (R106 to R109). -/
def State.placeEvent (ch : Nat) (interval : Int) (weight : Nat) (s : State) : State :=
  let w := (s.channel ch).win
  if interval < 0 then
    (s.onChannel ch fun c => { c with win := { c.win with prestart := min 255 (w.prestart + 1) } }).onClk
      fun k => { k with prestartTotal := satInc 32 k.prestartTotal }
  else match s.viewIn w.epoch w.view with
  | none => s
  | some v =>
    let bin := interval.toNat / v.binWidth
    let s := if nearField (s.setOf w.epoch) interval weight then s.countNear w.emitter else s
    if v.bins ≤ bin then s.onChannel ch fun c => { c with win := { c.win with ambCount := w.ambCount + 1 } }
    else match pushRecord (s.channel ch) (bin, weight) with
    | none => s.overflow ch
    | some c' =>
      let s := s.onChannel ch fun _ => { c' with eventTotal := wrap 32 (c'.eventTotal + 1) }
      if interval = 0 then
        (s.onChannel ch fun c => { c with win := { c.win with substep := min 255 (w.substep + 1) } }).onClk
          fun k => { k with substepTotal := satInc 32 k.substepTotal }
      else s

/-- An event of weight `weight` at `tau` from t0: placed, or kept in the skid buffer while the T0 value is open (R116). -/
def State.eventAt (ch : Nat) (tau : Int) (weight : Nat) (s : State) : State :=
  let w := (s.channel ch).win
  if !w.optical then s.placeEvent ch tau weight else
  match w.t0Value with
  | some t => s.placeEvent ch (tau - t) weight
  | none =>
    if 16 ≤ w.skid.length then s.overflow ch
    else s.onChannel ch fun c => { c with win := { c.win with skid := w.skid ++ [(tau, weight)] } }

/-- Does a fired window still wait for its T0 value (R116)? -/
def Window.t0Open (w : Window) : Bool := w.fired && w.optical && w.t0Value.isNone

/-- First tick after a window's histogram range. -/
def Window.endTick (v : ViewDef) (w : Window) : Nat :=
  w.t0 + (((w.t0Value.getD 0) + v.bins * v.binWidth + 63) / 64).toNat

/-- Is a window that of emitter `e`'s shot at `t0`? -/
def Window.isShot (e t0 : Nat) (w : Window) : Bool := w.emitter == e && w.t0 == t0

/-- The header marker of a shot that waits in a channel's path takes its T0 fields. -/
def IngressItem.takeT0 (e t0 : Nat) (value : Int) (st : T0Status) : IngressItem → IngressItem
  | .header w n => .header (if w.isShot e t0 then { w with t0Value := some value, t0Status := st } else w) n
  | x => x


/-! ## Converting an edge (R106) -/

/-- Interval from t0 to the edge in fine steps, and the fine position f, from coarse count and raw code. Calibration in
eighths of a raw unit. A fine position outside the table takes its nearest entry.
DESIGN CHOICE, unsafe (log 124). -/
def convert (cal : Nat × Nat) (fe : FrontEndCal) (n q : Nat) : Int × Int :=
  let f16 := 1024 * (8 * (q : Int) - fe.offset - cal.1) / (pos cal.2 : Int)
  let i := (clampInt 0 63 (f16 / 16)).toNat
  let f := (f16 + fe.dnl.getD i 0 + 8) / 16
  let x : Int × Int := if 64 ≤ f then (f - 64, (n : Int) - 1) else if f < 0 then (f + 64, n + 1) else (f, n)
  (64 * (x.2 - 1) - x.1, x.1)

/-! ## Ambient record (R251) -/

/-- The dead time of a channel in fine steps, rounded up. -/
def deadFine (p : List Byte) : Nat := ceilDiv (rxDeadPs p * 2048) 25000

/-- A cluster's lowest ambient rate over an interval of a second (R436), in counts per second of one channel. -/
def SipmMonitor.ambient (now count span : Nat) (m : SipmMonitor) : SipmMonitor :=
  let e := m.secondEdges + count
  let t := m.secondTime + span
  if m.secondStart + sec 1 ≤ now then
    let r := if t = 0 then m.dark else
      let x := e * 1280000000 / t
      some (match m.dark with | some d => min d x | none => x)
    { m with secondStart := now, secondEdges := 0, secondTime := 0, dark := r }
  else { m with secondEdges := e, secondTime := t }

/-- Does the count of a span exceed RATE_MAX (R251)? -/
def floods (p : List Byte) (count span : Nat) : Bool := decide (128 ≤ span) && decide (rxRateMax p * span < count * 1280)

/-- The front end sends a window's ambient record, with the span in ticks: its flags and its silence count follow, and K_AMBIENT
and the SiPM monitor take it (R249, R251, R257). -/
def State.sendAmbient (ch span : Nat) (ovf : Bool) (s : State) : State :=
  let c := s.channel ch
  let w := c.win
  let p := s.rxFor ch w
  let r : AmbRecord := { window := wrap 32 w.t0, span := span, coarseOvf := ovf, count := wrap 16 w.ambCount,
                         flooded := floods p w.ambCount span, longHigh := w.longSeen || c.longDue }
  let s := s.onChannel ch fun c =>
    { c with longDue := false, flooded := c.flooded || r.flooded,
             silentWindows := if w.edges ≠ 0 || s.returns.bias.unsettled || rxBase p < c.threshNow then 0
                              else min 65536 (c.silentWindows + 1) }
  let s := s.onFabric fun b =>
    { b with ambRuns := b.ambRuns.map fun x => if x.channel == ch then { x with records := x.records ++ [r] } else x }
  s.onHealth fun h => { h with sipm := h.sipm.modify (ch / 8) (SipmMonitor.ambient s.clk.now w.ambCount span) }

/-! ## An edge's time over threshold (R248) -/

/-- The ToT of an edge counted in an ambient span goes into its cluster's histogram (R436). -/
def State.totSample (ch tot : Nat) (s : State) : State :=
  let c := s.channel ch
  if c.threshNow ≤ rxBase (s.rxFor ch c.win) + 4 && !s.returns.bias.unsettled then
    s.onHealth fun h => { h with sipm := h.sipm.modify (ch / 8) fun m =>
      { m with tot := m.tot.modify (min 63 tot) (· + 1), edges := m.edges + 1 } }
  else s

/-- The measurement of the edge in flight ends with a ToT: the tap takes it unless it is a pre-start event, at once or when its T0 value
is settled (R323), and its event is placed, unless a foreign window blanks it. -/
def State.endEdge (ch tot : Nat) (s : State) : State :=
  let c := s.channel ch
  let w := c.win
  match c.edge with
  | none => s
  | some e =>
    let s := s.onChannel ch fun c => { c with edge := none }
    let weight := rxWeight (s.rxFor ch w) (min 64 tot)
    let early := e.inWindow && e.tau < w.t0Value.getD 0
    let s := if early && !w.t0Open then s else
      s.tap ch weight (64 * (w.t0 : Int) + e.tau).toNat (if e.inWindow && w.t0Open then some (w.emitter, w.t0) else none)
    if !e.inWindow then (if e.blanked then s else s.totSample ch tot)
    else if e.blanked then s.onRejection (ch / 24) fun r => { r with blankedTotal := satInc 32 r.blankedTotal }
    else s.eventAt ch e.tau weight

/-- An edge still over the threshold when its window ends early is measured up to that instant, and belongs to that window.
DEDUCED, unsafe (log 125). -/
def State.flushEdge (ch : Nat) (s : State) : State :=
  match (s.channel ch).edge with
  | none => s
  | some e => s.endEdge ch (min 64 ((64 * ((s.clk.tickCount : Int) - (s.channel ch).win.t0) - e.tau) / 32).toNat)

/-- The ambient span of a channel's window ends at tick `t`: its record leaves (R104, R251). -/
def State.endAmbient (ch t : Nat) (ovf : Bool) (s : State) : State :=
  let w := (s.channel ch).win
  if w.phase != .ambient then s else
  ((s.flushEdge ch).sendAmbient ch (min 65536 (t - w.rangeEnd)) ovf).onChannel ch fun c =>
    { c with win := { c.win with phase := .none } }

/-! ## End of the histogram range -/

/-- The last bin a cut window observed in full (R105); 0 also for one that observed none.
DESIGN CHOICE, unsafe (log 126). -/
def cutBin (v : ViewDef) (w : Window) (t : Nat) : Nat :=
  let len : Int := 64 * ((t : Int) - w.t0) - w.t0Value.getD 0
  (min (v.bins : Int) (len / v.binWidth) - 1).toNat

/-- The window's histogram range ends at tick `t`, in full, cut (R105) or by a time fault (R97): its trailer enters the
marker queue, with its foreign note, and the ambient span begins; a window cut or faulted has none, and its record says so. While its
T0 value is open, the events in its skid buffer belong to it, so that its trailer waits for the value.
DEDUCED, unsafe (log 139). -/
def State.endRange (ch t : Nat) (cut fault : Bool) (s : State) : State :=
  let w := (s.channel ch).win
  if w.t0Open then s.onChannel ch fun c =>
    { c with win := { c.win with phase := .none }, closing := some { w with cut := cut, timeFault := fault, rangeEnd := t } } else
  match s.viewIn w.epoch w.view with
  | none => s.onChannel ch fun c => { c with win := { c.win with phase := .none } }
  | some v =>
    let note := s.foreignNote (ch / 24) v (64 * w.t0 + (w.t0Value.getD 0).toNat)
    let w := { w with cut := cut, timeFault := fault, lastBin := if cut then cutBin v w t else v.bins - 1,
                      foreign := note.1, foreignOvf := note.2, rangeEnd := t,
                      phase := if cut || fault then .none else .ambient }
    let s := s.onChannel ch fun c => { c with win := w, items := c.items ++ [.trailer w c.entrySeq] }
    let s := if cut || fault then s.sendAmbient ch 0 false else s
    if cut then s.onClk fun k => { k with windowCutTotal := satInc 32 k.windowCutTotal } else s

/-- An open window's histogram range stops at tick `t`, cut or by a time fault; one whose range had ended by then ended in full, and its
ambient span lasts until then. -/
def State.stopRange (ch t : Nat) (cut fault : Bool) (s : State) : State :=
  let w := (s.channel ch).win
  if !w.t0Open && decide (w.rangeEnd ≤ t) then (s.endRange ch w.rangeEnd false false).endAmbient ch t false
  else s.endRange ch t cut fault

/-- Ends whatever a channel's earlier window still does when the next blanking begins (R104, R105). -/
def State.endEarlier (ch : Nat) (s : State) : State :=
  let t := s.clk.tickCount
  match (s.channel ch).win.phase with
  | .range => (s.flushEdge ch).stopRange ch t true false
  | .blanked | .preStart =>
    (s.onChannel ch fun c => { c with win := { c.win with angle := s.angleAt (64 * c.win.t0) } }).endRange ch t true false
  | .ambient => s.endAmbient ch t false
  | _ => s

/-! ## The T0 value reaches the windows (R116) -/

/-- The events that waited for the T0 value of the channel's window are placed. -/
def State.placeSkid (ch : Nat) (value : Int) (s : State) : State :=
  let w := (s.channel ch).win
  w.skid.foldl (fun s x => s.placeEvent ch (x.1 - value) x.2)
    (s.onChannel ch fun c => { c with win := { w with skid := [] } })

/-- A window has its T0 value. -/
def Window.withT0 (value : Int) (st : T0Status) (w : Window) : Window := { w with t0Value := some value, t0Status := st }

/-- The T0 value of a shot is settled for an optical-start window that it opened and that is still open: what waited is placed. -/
def State.resolveOpen (ch : Nat) (value : Int) (st : T0Status) (s : State) : State :=
  let s := (s.onChannel ch fun c => { c with win := c.win.withT0 value st }).placeSkid ch value
  let w := (s.channel ch).win
  match s.viewIn w.epoch w.view with
  | some v => s.onChannel ch fun c => { c with win := { c.win with rangeEnd := c.win.endTick v } }
  | none => s

/-- The T0 value is settled for a window that ended while it was open: what waited is placed, and the window ends as it would have. The
window that the channel has opened since stands meanwhile.
DEDUCED, unsafe (log 139). -/
def State.resolveClosing (ch : Nat) (value : Int) (st : T0Status) (w : Window) (s : State) : State :=
  let now := (s.channel ch).win
  let s := (s.onChannel ch fun c => { c with win := { w.withT0 value st with phase := .range }, closing := none }).placeSkid ch value
  let s := match s.viewIn w.epoch w.view with
    | some v =>
      (s.onChannel ch fun c => { c with win := { c.win with rangeEnd := c.win.endTick v } }).stopRange ch w.rangeEnd w.cut w.timeFault
    | none => s
  s.onChannel ch fun c => { c with win := now }

/-- The T0 value of a shot reaches a channel. -/
def State.resolveOn (e t0 : Nat) (value : Int) (st : T0Status) (s : State) (ch : Nat) : State :=
  let s := s.onChannel ch fun c => { c with items := c.items.map (IngressItem.takeT0 e t0 value st) }
  let s := match (s.channel ch).closing with
    | some w => if w.isShot e t0 then s.resolveClosing ch value st w else s
    | none => s
  let w := (s.channel ch).win
  if w.phase == .range && w.t0Open && w.isShot e t0 then s.resolveOpen ch value st else s

/-- The shot's entries of the tile shot tables take T0_FINE, its stamps in the taps and its windows are resolved (R116, R267).
DEDUCED, unsafe (log 49). -/
def State.resolveT0 (e t0 : Nat) (value : Int) (st : T0Status) (s : State) : State :=
  let s := s.onFabric fun b =>
    { b with rejection := b.rejection.map (Rejection.resolveTap e t0 value),
             tiles := b.tiles.map fun t =>
        { t with shots := t.shots.map fun x => if x.emitter == e && x.tick == t0 then { x with t0Fine := value } else x } }
  (List.range 192).foldl (State.resolveOn e t0 value st) s

/-! ## Threshold (R245) -/

/-- Threshold code for a window, and whether a limit acted. -/
def thresholdFor (p : List Byte) (ambStep thrOffset : Int) : Nat × Bool :=
  let t : Int := rxBase p + (if rxTrack p then ambStep else 0) + thrOffset
  let a := if t < rxMin p then (rxMin p : Int) else t
  let b := if rxMax p < a then (rxMax p : Int) else a
  (b.toNat, t < rxMin p || rxMax p < a)

/-! ## Opening (R103, R268) -/

/-- A shot gives no window on a channel. -/
def State.noWindow (ch : Nat) (d : Descriptor) (s : State) : State :=
  s.updHist ch d.view d.cell d.epoch fun h => { h with left := h.left - 1 }

/-- A front end takes the corrections that a re-plan has left for it (R437). -/
def State.takeDnl (f : Nat) (s : State) : State :=
  match s.health.dnlPending.find? (·.1 == f) with
  | some x =>
    (s.onFe f fun k => { k with offset := x.2.1, dnl := x.2.2 }).onHealth fun h =>
      { h with dnlPending := h.dnlPending.filter (·.1 != f) }
  | none => s

/-- A lane owes the window or shot at `t0` a result of its own, at t0 - 80 ns (R103); what an earlier t0 has left undone is past. -/
def Lane.await (now t0 : Nat) (l : Lane) : Lane :=
  let w := l.waits.filter fun t => decide (now ≤ t)
  { l with waits := if w.contains t0 then w else w ++ [t0] }

/-- Blanking of descriptor `d`'s window begins on a channel; new corrections come with the first window of a cell. -/
def State.openWindow (v : ViewDef) (d : Descriptor) (s : State) (ch : Nat) : State :=
  let s := if (s.channel ch).acc.any (·.holds d.view d.cell d.epoch) then s else s.takeDnl (s.feOf ch)
  let s := s.ensureHist v d.cell d.epoch ch
  let c := s.channel ch
  if c.st == .outOfService then
    (s.updHist ch d.view d.cell d.epoch fun h => { h.setMark 7 true with outOfService := true }).noWindow ch d
  else if c.st != .active || !s.laneReady (s.laneOf ch) || !s.clk.pllLocked then s.noWindow ch d
  else if 2 < c.markers + c.trailersDue then
    (s.onTile (ch / 24) fun t => { t with dropped := satInc 32 t.dropped, droppedSeen := true }).noWindow ch d
  else
    let s := s.endEarlier ch
    let p := (s.setOf d.epoch).rxOf ch
    let th := thresholdFor p c.ambStep (s.health.thrOffset.getD ch 0)
    let w := { Window.reset with
      phase := .blanked, view := d.view, cell := d.cell, entry := d.entry, shot := d.shot, emitter := d.emitter,
      codes := d.codes, codeId := (s.slot d.emitter d.slot).codeId, slot := d.slot, epoch := d.epoch,
      cellStart := v.cellStart d.cell, t0 := d.stamp, optical := v.optical, blind := s.biasBlind,
      cal := (s.lane (s.laneOf ch)).state }
    let s := s.onChannel ch fun c =>
      { c with win := w, threshNow := th.1, threshClamped := c.threshClamped || th.2,
               windowTotal := wrap 32 (c.windowTotal + 1) }
    let s := if s.biasBlind then s.updHist ch d.view d.cell d.epoch (·.setMark 7 true) else s
    s.onLane (s.laneOf ch) (Lane.await s.clk.tickCount d.stamp)

/-! ## Into the histogram (R267, R272 to R276) -/

/-- A header marker is merged: its shot's table entry loses a reference.
DEDUCED, unsafe (log 82). -/
def State.mergeHeader (ch : Nat) (w : Window) (s : State) : State :=
  s.onTile (ch / 24) fun t =>
    { t with shots := t.shots.map fun x =>
        if x.tick == w.t0 && x.emitter == w.emitter then { x with refs := x.refs - 1 } else x }

/-- Merges the header markers at the head of a channel's path, at most `fuel`. -/
def State.mergeHeaders (ch : Nat) : Nat → State → State
  | 0, s => s
  | k + 1, s => match (s.channel ch).items with
    | .header w _ :: r => ((s.onChannel ch fun c => { c with items := r }).mergeHeader ch w).mergeHeaders ch k
    | _ => s

/-- The view and cell whose window holds the records at the head: that of the next trailer, or of the open window. -/
def Channel.headWindow (c : Channel) : Window :=
  (c.items.findSome? fun i => match i with
    | .trailer w _ => some w
    | _ => none).getD (c.closing.getD c.win)

/-- Records at the head of a channel's path are lost: the trailer of their window counts them, unless it has left. -/
def Channel.headOverflow (n : Nat) (c : Channel) : Channel :=
  match c.items.findIdx? fun i => match i with
    | .trailer _ _ => true
    | _ => false with
  | some k => { c with items := c.items.modify k fun i => match i with
      | .trailer w q => .trailer (w.overflowed n) q
      | x => x }
  | none => match c.closing with
    | some w => { c with closing := some (w.overflowed n) }
    | none => { c with win := c.win.overflowed n }

/-- The records of an entry are counted into the histogram (R274). -/
def State.countRecords (ch : Nat) (w : Window) (rs : List (Nat × Nat)) (s : State) : State :=
  match s.viewIn w.epoch w.view with
  | some v => s.updHist ch w.view w.cell w.epoch fun h => rs.foldl (fun h r => h.count v r.1 r.2) h
  | none => s

/-- CAL_STATE as its code (Table 4.3). -/
def CalState.code : CalState → Nat
  | .accepted => 0
  | .held => 1
  | .stale => 2
  | .failed => 3

/-- T0_STATUS as its code (Table 4.3). -/
def T0Status.code : T0Status → Nat
  | .measured => 0
  | .missing => 1
  | .ambiguous => 2
  | .notUsed => 3

/-- What a histogram keeps of an observed window. -/
def Window.toObs (w : Window) : ObsWin :=
  { tick := w.t0, angle := w.angle, codeId := w.codeId, notes := w.foreign }

/-- The marks a window brings (Table 10.4). -/
def Hist.windowMarks (w : Window) (h : Hist) : Hist :=
  h.setMark 11 w.timeFault
  |>.setMark 1 (w.timeFault || w.threshFault)
  |>.setMark 2 w.threshFault
  |>.setMark 12 (w.t0Status == T0Status.missing || w.t0Status == T0Status.ambiguous)
  |>.setMark 13 w.high
  |>.setMark 7 w.blind

/-- What a trailer adds to its histogram (R274, R278). -/
def Hist.mergeTrailer (w : Window) (h : Hist) : Hist :=
  { h with
    firstTick := if h.observed = 0 then w.t0 else h.firstTick,
    observed := h.observed + 1,
    cutShots := h.cutShots + (if w.cut then 1 else 0),
    minLastBin := min h.minLastBin w.lastBin,
    prestart := min 65535 (h.prestart + w.prestart),
    substep := min 65535 (h.substep + w.substep),
    calWorst := max h.calWorst w.cal.code,
    obs := h.obs ++ [w.toObs],
    left := h.left - 1 }.windowMarks w

end Sys2Proof.Machine
end

