-- ==== Sys2Proof/Machine/Shots.lean ====
section
/-!
DEFINITION. Meanings of the shot events: planning and fixing (R186 to R189, R228), the window's instants (Table 4.2,
R110 to R116, R246), firing and the end of a slot (R216, R220), and the near-field monitor (R195, R196).
-/
namespace Sys2Proof.Machine

/-! ## SHOT_PLAN -/

/-- One advance of a view's LFSR (R187). -/
def lfsrStep (v : Nat) : Nat := (v / 2) ^^^ (if v % 2 = 1 then 0x80200003 else 0)

def State.lfsr (view : Nat) (s : State) : Nat := ((s.sched.lfsrs.find? (·.view == view)).map (·.value)).getD 0

def State.setLfsr (view x : Nat) (s : State) : State :=
  s.onSched fun k => { k with lfsrs := k.lfsrs.map fun l => if l.view == view then { l with value := x } else l }

/-- A view's LFSR for a new epoch: loaded with the seed, or carried over where the set before held the view with the same
firing table. What is loaded for that epoch already stays. -/
def State.loadLfsr (old : ConfigSet) (epoch : Nat) (s : State) (v : ViewDef) : State :=
  if s.sched.lfsrs.any fun l => l.view == v.handle && l.epoch == epoch then s else
  let same := (old.view v.handle).any fun w => w.fire == v.fire
  let x := if same then s.lfsr v.handle else fireSeed v.table
  s.onSched fun k =>
    { k with lfsrs := k.lfsrs.filter (·.view != v.handle) ++ [{ view := v.handle, value := x, epoch := epoch }] }

/-- A view's LFSR as an epoch's first shot finds it, before it is loaded for that epoch. -/
def State.lfsrFor (epoch : Nat) (v : ViewDef) (s : State) : Nat :=
  if epoch == s.sets.epoch || (s.sched.lfsrs.any fun l => l.view == v.handle && l.epoch == epoch) then s.lfsr v.handle
  else if (s.activeView v.handle).any fun w => w.fire == v.fire then s.lfsr v.handle
  else fireSeed v.table

/-- The LFSR after the shot that takes `x`, and that shot's dither in ticks (R187). -/
def ditherOf (v : ViewDef) (x : Nat) : Nat × Nat :=
  let dm := fireDitherMax v.table
  if dm = 0 then (x, 0) else (lfsrStep x, lfsrStep x % (dm + 1))

/-- The stamp that the first shot of a cell would be planned with, from its tick before offset and dither. -/
def State.firstStamp (v : ViewDef) (epoch base : Nat) (s : State) : Nat :=
  base + (v.entries.getD 0 (fireEntry [] 0)).offset + (ditherOf v (s.lfsrFor epoch v)).2

/-- Does a cell overlap a blocked sector, or is every cell blocked (R196)? -/
def State.cellBlocked (v : ViewDef) (j : Nat) (s : State) : Bool :=
  s.sched.nfAllRevs != 0 || s.sched.sectors.any fun x =>
    let d := (x.centre + turn - v.cellStart j) % turn
    d < v.width + x.half || turn < d + x.half + 1

/-- The tick planned last for a view, before offset and dither. -/
def State.lastBaseOf (view : Nat) (s : State) : Nat := ((s.sched.lastBase.find? (·.1 == view)).map (·.2)).getD 0

def State.setLastBase (view t : Nat) (s : State) : State :=
  s.onSched fun k => { k with lastBase := k.lastBase.filter (·.1 != view) ++ [(view, t)] }

/-- Half a sub-cell in ticks at the published speed. -/
def State.halfSubCell (v : ViewDef) (s : State) : Nat :=
  v.width * fineHz / pos (2 * v.shots * 64 * 16 * s.angle.pubSpeed.toNat)

/-- Does a planned instant belong to a new sweep of the view, beyond what is planned already?
DEDUCED, unsafe (log 66). -/
def State.newSweep (v : ViewDef) (base : Nat) (s : State) : Bool :=
  s.lastBaseOf v.handle = 0 || decide (s.lastBaseOf v.handle + s.halfSubCell v ≤ base)

/-- Minuet's horizon, 24.4 µs in ticks (R188).
DEDUCED, unsafe (log 66). -/
def horizon : Nat := 31232

/-- May a view's cell begin (R194): its first stamp lies 24.4 µs or more after the last inhibit ended?
DEDUCED, unsafe (log 66). -/
def State.mayBegin (stamp : Nat) (s : State) : Bool :=
  match s.sched.resumeAt with
  | some t => t + horizon ≤ stamp
  | none => true

/-- Opens a cell (R186) under an epoch: all its shots are still to be planned. -/
def State.beginCell (v : ViewDef) (j epoch : Nat) (s : State) : State :=
  let n := v.entries.length
  let c : OpenCell := { view := v.handle, cell := j, epoch := epoch, planned := List.replicate n 0,
                        settled := List.replicate n 0, barred := [], begun := [] }
  let s := if epoch == s.sets.epoch then s else s.loadLfsr s.sets.active epoch v
  s.onSched fun k =>
    { k with cells := k.cells ++ [c],
             firstCells := if (s.firstCell v.handle epoch).isSome then k.firstCells
                           else k.firstCells ++ [(v.handle, epoch, j)] }

/-- A near-field-blocked cell: its histograms close empty at the end of its span (R196, R276).
DEDUCED, unsafe (log 66). -/
def State.blockedCell (v : ViewDef) (j base : Nat) (s : State) : State :=
  let s := (s.beginCell v j s.sets.epoch).setLastBase v.handle base
  match s.openCell v.handle j with
  | some c => s.closeCell 6 c
  | none => s

/-- The next shot of a cell in the order of R187: the entry with the fewest planned shots, the first of equals. -/
def OpenCell.next (v : ViewDef) (c : OpenCell) : Option (Nat × Nat) :=
  let least := c.planned.foldl min v.shots
  if v.shots ≤ least then none else (c.planned.findIdx? (· == least)).map fun e => (e, least)

/-- A cell whose shots are all settled and none still under way leaves the list; a channel that got no window at all still
gives its empty histogram. -/
def State.endCell (v : ViewDef) (j : Nat) (s : State) : State :=
  match s.openCell v.handle j with
  | none => s
  | some c =>
    let waits := (s.sched.queue ++ s.sched.current.filterMap id).any fun d =>
      d.view == c.view && d.cell == c.cell && d.epoch == c.epoch
    if waits || c.settled.any (· != v.shots) then s else
    let s := v.served.foldl (fun s x =>
      if c.begun.contains x.2 || (s.channel x.2).acc.any (·.holds v.handle j c.epoch) then s
      else (s.ensureHist v j c.epoch x.2).updHist x.2 v.handle j c.epoch id) s
    s.onSched fun k => { k with cells := k.cells.filter fun d => !d.isFor v.handle j }

/-- One shot of entry `e` of a cell will not fire: a shortfall in the cell's shot count. -/
def State.shortfall (v : ViewDef) (j e : Nat) (s : State) : State :=
  let chs := ((v.entries.getD e (fireEntry [] 0))).channels
  match s.openCell v.handle j with
  | none => s
  | some c =>
    let s := s.dropShots chs v.handle j c.epoch 1
    (s.onCell v.handle j fun c => { c with settled := c.settled.modify e (· + 1) }).endCell v j

/-- Would the firing angle of a shot reach the end of its cell (R189)? -/
def State.reachesEnd (v : ViewDef) (k delay : Nat) (s : State) : Bool :=
  let rest := v.width - (2 * k + 1) * v.width / (2 * pos v.shots)
  decide (rest * fineHz ≤ delay * 64 * 16 * s.angle.pubSpeed.toNat)

/-- Why a shot whose stamp is computed is not placed. -/
inductive Skip where
  | faulted | slotOver | unplayable | skipped | late
deriving DecidableEq, Repr

/-- A slot that may not be played, as a reason not to fire. -/
def SlotState.skip : SlotState → Option Skip
  | .loaded => none
  | .slotOver => some .slotOver
  | .empty => some .unplayable
  | .eccFailed => some .unplayable

/-- The first reason that keeps a shot from being placed. -/
def State.skipReason (v : ViewDef) (c : OpenCell) (f : FireEntry) (e k stamp delay : Nat) (s : State) : Option Skip :=
  if c.barred.contains e then some .faulted
  else match (s.slot f.emitter (f.slotOf k)).st.skip with
  | some r => some r
  | none =>
    let last := s.sched.lastShot.getD f.emitter none
    if last.any (fun t => decide ((stamp - t) * (s.setOf c.epoch).emitCeiling < 1280000000)) || s.reachesEnd v k delay
    then some .skipped
    else if stamp < s.clk.tickCount + us 1 then some .late
    else none

/-- Counts a shot that is not fired (R17, R189, R217, R223, R230). -/
def State.countSkip (e : Nat) (r : Skip) (s : State) : State :=
  match r with
  | .faulted => s.onEmission fun m => { m with faultSkipTotal := satInc 32 m.faultSkipTotal }
  | .slotOver => s.onEmission fun m => { m with slotOverTotal := satInc 32 m.slotOverTotal, slotOverSeen := true }
  | .unplayable => s.onEmission fun m => { m with unplayableTotal := satInc 32 m.unplayableTotal }
  | .skipped => s.onSched fun k => { k with skippedTotal := satInc 32 k.skippedTotal, skippedSeen := true }
  | .late => (s.onSched fun k => { k with lateTotal := satInc 32 k.lateTotal, lateSeen := true }).onEmitter e
      fun x => { x with lateTotal := satInc 32 x.lateTotal }

/-- Plans shot `k` of entry `e` of an open cell, if its stamp comes within the horizon and the queue has room (R188). -/
def State.planShot (v : ViewDef) (c : OpenCell) (e k base : Nat) (s : State) : State :=
  let f := v.entries.getD e (fireEntry [] 0)
  let x := ditherOf v (s.lfsr v.handle)
  let adv := x.1
  let dither := x.2
  let stamp := base + f.offset + dither
  let queued := (s.sched.queue.filter (·.emitter == f.emitter)).length
  if s.clk.tickCount + horizon < stamp || 8 ≤ queued then s else
  let s := ((s.setLfsr v.handle adv).setLastBase v.handle base).onCell v.handle c.cell
    fun c => { c with planned := c.planned.modify e (· + 1) }
  match s.skipReason v c f e k stamp (f.offset + dither) with
  | some r =>
    (s.countSkip f.emitter r).shortfall v c.cell e
  | none =>
    let d : Descriptor := { emitter := f.emitter, view := v.handle, cell := c.cell, shot := k, entry := e,
                            slot := f.slotOf k, dither := dither, stamp := stamp, fixed := false, charge := 0,
                            codes := [], epoch := c.epoch }
    s.onSched fun q => { q with queue := q.queue ++ [d], lastShot := q.lastShot.set f.emitter (some stamp) }

/-- The next shot of an open cell. -/
def State.planNext (c : OpenCell) (s : State) : State :=
  match s.viewIn c.epoch c.view with
  | none => s
  | some v =>
    match c.next v with
    | some (e, k) => match s.tickOf (v.shotAngle c.cell k) with
      | some t => s.planShot v c e k t
      | none => s
    | none => s

/-- A cell that fires no shot because a word of its view cannot be read: it closes INCOMPLETE (Table 15.5).
DEDUCED, unsafe (log 67). -/
def State.brokenCell (v : ViewDef) (j base : Nat) (s : State) : State :=
  let s := (s.beginCell v j s.sets.epoch).setLastBase v.handle base
  match s.openCell v.handle j with
  | some c => s.closeCell 1 c
  | none => s

/-- A cell that a blocked sector covers, or of a view that is broken, once its span has ended. -/
def State.planBlocked (view cell : Nat) (s : State) : State :=
  match s.activeView view with
  | none => s
  | some v =>
    match s.tickNear (v.shotAngle cell 0), s.tickNear ((v.cellStart cell + v.width) % turn) with
    | some t, some stop => if s.newSweep v t && decide (stop ≤ s.clk.tickCount) then
        if s.sched.broken.contains view then s.brokenCell v cell t else s.blockedCell v cell t
      else s
    | _, _ => s

/-- The first shot of a cell opens it. -/
def State.planFirst (view cell : Nat) (s : State) : State :=
  match s.planView view cell with
  | some (v, epoch, t) =>
    if v.fire.isSome && decide (cell < v.cellCount) && s.newSweep v t && s.mayBegin (s.firstStamp v epoch t) &&
       decide (t ≤ s.clk.tickCount + horizon) then
      let s := (s.beginCell v cell epoch).openZoneCell v cell epoch t
      match s.openCell view cell with
      | some c => s.planShot v c 0 0 t
      | none => s
    else s
  | none => s

/-- Does a cell of a view fire no shot, because a sector covers it or because a word of its view cannot be read? -/
def State.firesNot (v : ViewDef) (epoch cell : Nat) (s : State) : Bool :=
  v.fire.isSome && decide (cell < v.cellCount) &&
  (s.cellBlocked v cell || (epoch == s.sets.epoch && s.sched.broken.contains v.handle))

/-- Has the spindle turned past the end of a cell whose sweep is not done with yet? -/
def State.cellPassed (v : ViewDef) (cell : Nat) (s : State) : Bool :=
  (s.tickNear (v.shotAngle cell 0)).any (s.newSweep v) && (s.tickNear ((v.cellStart cell + v.width) % turn)).any fun t => decide (t ≤ s.clk.tickCount)

/-- SHOT_PLAN (R87, R186 to R189, R194, R196).
DESIGN CHOICE, unsafe (log 4). -/
def shotPlan (view cell : Nat) (s : State) : State :=
  if s.inhibited || !s.clk.pllLocked then s else
  match s.openCell view cell with
  | some c => s.planNext c
  | none =>
    if (s.activeView view).any fun v => s.firesNot v s.sets.epoch cell && s.cellPassed v cell then s.planBlocked view cell
    else if (s.planView view cell).any fun x => s.firesNot x.1 x.2.1 cell then s
    else s.planFirst view cell

def execShotPlan (view cell : Nat) (s : State) : Result := .next (shotPlan view cell s)

/-! ## The ledger cause (R228, R229, R234) -/

/-- LEDGER is registered with a row and a window; a further cause is registered anew while one holds.
DESIGN CHOICE, unsafe (log 137). -/
def State.registerLedger (row window : Nat) (s : State) : State :=
  (s.registerCause causeLedger).onEmission fun m =>
    { m with ledgerRow := row, ledgerWindow := window, exhaustTotal := satInc 32 m.exhaustTotal, ledgerSeen := true,
             ledgerLatched := true }

/-- May the ledger permit any emission: a valid table and no window limit of 0 in row ALL (R234)? -/
def State.tableUsable (s : State) : Bool :=
  s.emission.tableValid && [1, 2, 3].all fun w => ltLimitField s.emission.table 16 w != 0

/-- Are all levels at or below eff_lim × RESUME_FRAC / 256 (R229)? -/
def State.ledgerCalm (s : State) : Bool :=
  (List.range 17).all fun r => [1, 2, 3].all fun w =>
    decide (s.level r w * 65536 ≤
      ltLimit s.emission.table r w * (256 - s.emission.headroom) * ltResume s.emission.table)

/-- LEDGER clears once its conditions hold (R229). -/
def State.tryClearLedger (s : State) : State :=
  if s.causeSet causeLedger && s.ledgerCalm && s.tableUsable && !(s.emission.reservoirs.any (·.resOver)) then
    (s.clearCause causeLedger).onEmission fun m => { m with ledgerLatched := false }
  else s

/-- The first window that a charge would overrun, of the emitter's row before ALL (R228). -/
def State.overrun (e q : Nat) (s : State) : Option (Nat × Nat) :=
  ([e, 16].map fun r => [1, 2, 3].map fun w => (r, w)).flatten.find? fun x =>
    s.overLimit x.1 x.2 (s.level x.1 x.2 + q)

/-! ## SHOT_FIX -/

/-- Fade blend `i` of `n` (R224). -/
def blend (n i : Nat) (a b : List Nat) : List Nat :=
  (a.zip b).map fun x => (x.1 * (n - i) + x.2 * i + n / 2) / pos n

/-- The fade a shot takes part in: its view's, its source slot, and started or free to start. -/
def State.fadeOf (d : Descriptor) (s : State) : Option Fade :=
  (s.emitter d.emitter).fade.bind fun f =>
    if f.view == d.view && f.src == d.slot && f.waitSwap == 0 then some f else none

/-- Codes and charge of a shot as it becomes fixed (R228), and its place in a fade. -/
def State.fixCharge (d : Descriptor) (s : State) : List Nat × Nat × Option Nat :=
  let a := s.slot d.emitter d.slot
  match s.fadeOf d with
  | some f =>
    let i := min f.n (f.i + 1)
    let b := s.slot d.emitter f.dst
    (blend f.n i a.samples b.samples, ceilDiv (a.charge * (f.n - i) + b.charge * i) (pos f.n), some i)
  | none => (a.samples, a.charge, none)

/-- A queued descriptor is taken out and its shot given up. -/
def State.dropDescriptor (d : Descriptor) (s : State) : State :=
  let s := s.onSched fun k => { k with queue := k.queue.filter (· != d) }
  match s.viewIn d.epoch d.view with
  | some v => s.shortfall v d.cell d.entry
  | none => s

/-- The entry of a shot that may not fire is barred for the rest of the cell (R223). -/
def State.barEntry (d : Descriptor) (s : State) : State :=
  s.onCell d.view d.cell fun c => { c with barred := d.entry :: c.barred }

/-- SHOT_FIX (R188, R228): the emitter's next descriptor becomes fixed 1.0 µs before its stamp. -/
def shotFix (e : Nat) (s : State) : State :=
  match s.sched.queue.find? fun d => d.emitter == e && !d.fixed with
  | none => s
  | some d =>
    if s.clk.tickCount + us 1 < d.stamp then s else
    let give (r : Skip) (s : State) : State := (s.countSkip e r).dropDescriptor d
    if (s.emitter e).faulted || (s.openCell d.view d.cell).any (·.barred.contains d.entry) then
      (s.barEntry d).countSkip e .faulted |>.dropDescriptor d
    else match (s.slot e d.slot).st.skip with
    | some r => give r s
    | none =>
      let s := s.settleAll
      let x := s.fixCharge d
      if s.overLimit e 0 x.2.1 then give .slotOver (s.onSlot e d.slot fun k => { k with st := .slotOver })
      else match s.overrun e x.2.1 with
      | some rw => s.registerLedger rw.1 rw.2
      | none =>
        let s := s.reserve e x.2.1
        let s := match x.2.2 with
          | some i => s.onEmitter e fun y => { y with fade := y.fade.map fun (f : Fade) => ({ f with i := i } : Fade) }
          | none => s
        s.onSched fun k =>
          { k with queue := k.queue.map fun y =>
              if y = d then { d with fixed := true, charge := x.2.1, codes := x.1 } else y }

def execShotFix (emitter : Nat) (s : State) : Result := .next (shotFix emitter s)

/-! ## WINDOW_START -/

/-- 240 ns in ticks, rounded down. -/
def blankTicks : Nat := 307

/-- The fixed descriptor of an emitter whose window is due. -/
def State.dueWindow (e : Nat) (s : State) : Option Descriptor :=
  s.sched.queue.find? fun d => d.emitter == e && d.fixed && decide (d.stamp ≤ s.clk.tickCount + blankTicks)

/-- Is the 240 ns before a stamp already running: has the instant passed at which the window descriptor must be there (R17)? -/
def State.windowLate (d : Descriptor) (s : State) : Bool := decide (d.stamp < s.clk.tickCount + blankTicks)

/-- WINDOW_START (R103): blanking begins on every channel of the shot's group; a window descriptor that comes late opens none, which
counts as SHOT_LATE (R17). -/
def windowStart (e : Nat) (s : State) : State :=
  match s.dueWindow e with
  | none => s
  | some d =>
    match s.viewIn d.epoch d.view with
    | none => s.dropDescriptor d
    | some v =>
      let f := v.entries.getD d.entry (fireEntry [] 0)
      let s := s.onSched fun k =>
        { k with queue := k.queue.filter (· != d), current := k.current.set e (some d) }
      let s := if s.windowLate d then (s.dropShots f.channels d.view d.cell d.epoch 1).countSkip e .late
               else f.channels.foldl (State.openWindow v d) s
      let s := s.onCell d.view d.cell fun c => { c with settled := c.settled.modify d.entry (· + 1) }
      s.onLane t0Lane (Lane.await s.clk.tickCount d.stamp)

def execWindowStart (emitter : Nat) (s : State) : Result := .next (windowStart emitter s)

/-! ## Lane calibration (R110 to R113) -/

/-- Mean of eight codes in eighths of a raw unit is their sum. -/
def sum8 (l : List Nat) : Nat := (l.take 8).foldl (· + ·) 0

/-- The limits of q1 and of the span (R111). -/
def calLimits (q1 span : Nat) : Bool := 320 ≤ q1 && q1 ≤ 704 && 384 ≤ span && span ≤ 640

/-- The absolute tests of R111. -/
def calAbsolute (ones twos : List Nat) : Bool :=
  let q1 := sum8 ones
  let q2 := sum8 twos
  ones.length == 8 && twos.length == 8 && q1 ≤ q2 && calLimits q1 (q2 - q1) &&
  ones.all (fun r => 8 * r ≤ q1 + 16 && q1 ≤ 8 * r + 16) && twos.all (fun r => 8 * r ≤ q2 + 16 && q2 ≤ 8 * r + 16)

/-- The relative tests of R111. -/
def calRelative (last : Option (Nat × Nat)) (q1 span : Nat) : Bool :=
  match last with
  | some l => q1 ≤ l.1 + 32 && l.1 ≤ q1 + 32 && span ≤ l.2 + 24 && l.2 ≤ span + 24
  | none => true

/-- Windows in blanking on a lane, of those that a condition names, take its calibration state. -/
def State.markLane (n : Nat) (c : CalState) (of : Window → Bool) (s : State) : State :=
  (List.range 192).foldl (fun s ch =>
    if s.laneOf ch = n && (s.channel ch).win.phase == .blanked && of (s.channel ch).win then
      s.onChannel ch fun x => { x with win := { x.win with cal := c } }
    else s) s

/-- The state of a lane that holds its last accepted result.
DEDUCED, unsafe (log 50). -/
def heldState (missed : Nat) : CalState := if 64 ≤ missed then .stale else .held

/-- Does a lane's warm-up go on: 16 accepts in a row are not reached, nor its 64 calibrations (R113)? -/
def Lane.warming (l : Lane) : Bool := l.warm.any (· < 64) && l.consec < 16

/-- The t0 whose result is due on a lane, 80 ns before it (Table 4.2). -/
def State.laneWait (n : Nat) (s : State) : Option Nat := (s.lane n).waits.find? fun t => decide (t ≤ s.clk.tickCount + 102)

/-- Is a lane's result due: in its warm-up, or for a window or shot whose references it ran? -/
def State.laneDue (n : Nat) (s : State) : Bool :=
  match (s.lane n).warm with
  | some _ => (s.lane n).warming
  | none => (s.laneWait n).isSome

/-- Does a front end measure its lane's one-tick reference in the calibration for the window at `wait` (R437): it is on that lane, and the
window is each 256th of its channel?
DESIGN CHOICE, unsafe (log 152). -/
def State.feMeasures (n fe : Nat) (wait : Option Nat) (s : State) : Bool :=
  laneOfFe fe == n && ((List.range 192).any fun ch =>
    s.feOf ch == fe && (s.channel ch).win.phase == .blanked && wait == some (s.channel ch).win.t0 && (s.channel ch).windowTotal % 256 == 0)

/-- CAL_ACCEPT: a lane's references give q1 and the span, accepted or held (R111), in a window or in the warm-up (R113);
`fes` carries the one-tick codes that front ends measured beside it (R437).
DEDUCED, unsafe (log 50). -/
def calAccept (n : Nat) (ones twos : List Nat) (fes : List (Nat × Nat)) (s : State) : State :=
  let l := s.lane n
  if l.failed || !s.laneDue n then s else
  let q1 := sum8 ones
  let span := sum8 twos - q1
  let ok := calAbsolute ones twos && (l.warm.isSome || calRelative l.last q1 span)
  let l' := { l with
    last := if ok then some (q1, span) else l.last,
    state := if ok then .accepted else heldState (l.missed + 1),
    missed := if l.warm.isSome then l.missed else if ok then 0 else l.missed + 1,
    consec := if ok then l.consec + 1 else 0,
    warm := l.warm.map (· + 1),
    waits := if l.warm.isSome then l.waits else l.waits.filter fun t => s.laneWait n != some t }
  let wait := s.laneWait n
  let s := s.onLane n fun _ => l'
  let s := if ok then s else s.onClk fun k => { k with calHeldTotal := satInc 32 k.calHeldTotal }
  let s := s.onHealth fun h =>
    { h with
      lanes := h.lanes.modify n fun m =>
        { m with q1Sum := m.q1Sum + (if ok then q1 else 0), spanSum := m.spanSum + (if ok then span else 0),
                 accepts := m.accepts + (if ok then 1 else 0), helds := m.helds + (if ok then 0 else 1) },
      dnl := (fes.filter fun x => s.feMeasures n x.1 wait).foldl (fun d x => d.modify x.1 fun m =>
        { m with q1Fe := m.q1Fe + 8 * x.2, q1Lane := m.q1Lane + q1, refs := m.refs + 1 }) h.dnl }
  s.markLane n l'.state fun w => wait == some w.t0

def execCalAccept (lane : Nat) (ones twos : List Nat) (fes : List (Nat × Nat)) (s : State) : Result :=
  .next (calAccept lane ones twos fes s)

/-- LANE_STALE (R112): 64 windows without an accepted result. -/
def laneStale (n : Nat) (s : State) : State :=
  if (s.lane n).missed < 64 then s
  else (s.onLane n fun l => { l with state := .stale }).markLane n .stale fun _ => true

def execLaneStale (lane : Nat) (s : State) : Result := .next (laneStale lane s)

/-- The channels that a lane's front ends serve. -/
def State.laneChannels (n : Nat) (s : State) : List Nat := (List.range 192).filter fun ch => s.laneOf ch == n

/-- A channel goes out of service by an internal fault (R256, R257); the histograms that it is gathering carry RX_BLIND, and say that
it was out of service in their cell (R258). -/
def State.channelOut (s : State) (ch : Nat) : State :=
  if (s.channel ch).st == .outOfService then s else
  (s.onChannel ch fun c =>
    { c with st := .outOfService, acc := c.acc.map fun h => { h.setMark 7 true with outOfService := true } }).feFailed ch

/-- LANE_FAILED (R112, R113): 4096 windows without an accepted result, or a warm-up that ended without 16 in a row. -/
def laneFailed (n : Nat) (s : State) : State :=
  let l := s.lane n
  let due := 4096 ≤ l.missed || (match l.warm with
    | some k => 64 ≤ k && l.consec < 16
    | none => false)
  if l.failed || !due then s else
  let s := s.onLane n fun l => { l with failed := true, ready := false, state := .failed, warm := none }
  (s.laneChannels n).foldl State.channelOut (s.markLane n .failed fun _ => true)

def execLaneFailed (lane : Nat) (s : State) : Result := .next (laneFailed lane s)

/-- LANE_WARMUP_DONE (R113): 16 consecutive accepts make a lane ready. -/
def laneWarmupDone (n : Nat) (s : State) : State :=
  let l := s.lane n
  if l.warm.isSome && 16 ≤ l.consec then s.onLane n fun l => { l with ready := true, warm := none, missed := 0 } else s

def execLaneWarmupDone (lane : Nat) (s : State) : Result := .next (laneWarmupDone lane s)

/-- Lanes begin their warm-up (R113); the relative tests wait for a result of their own. -/
def State.warmLane (s : State) (n : Nat) : State :=
  s.onLane n fun l => { l with inUse := true, last := none, warm := some 0, consec := 0, ready := false }

/-! ## THRESH_READBACK (R246) -/

/-- `code` is what the readback of the DAC output comes to in codes. -/
def threshReadback (ch code : Nat) (s : State) : State :=
  let c := s.channel ch
  if c.win.phase != .blanked || s.clk.tickCount + 76 < c.win.t0 then s else
  if code ≤ c.threshNow + 2 && c.threshNow ≤ code + 2 then s.onChannel ch fun c => { c with threshFails := 0 } else
  let s := s.onChannel ch fun c =>
    { c with threshFault := true, threshFaultTotal := satInc 32 c.threshFaultTotal, threshFails := c.threshFails + 1,
             win := { c.win with threshFault := true } }
  if 64 ≤ c.threshFails + 1 then s.channelOut ch else s

def execThreshReadback (channel code : Nat) (s : State) : Result := .next (threshReadback channel code s)

/-! ## BLANKING_RELEASE (R103) -/

/-- `high`: the discriminator output is high at this instant; it must fall and rise again before an edge is seen. -/
def blankingRelease (ch : Nat) (high : Bool) (s : State) : State :=
  if (s.channel ch).win.phase != .blanked || s.clk.tickCount + 51 < (s.channel ch).win.t0 then s else
  let now := s.clk.tickCount
  s.onChannel ch fun c =>
    { c with high := high, highAt := if c.high then c.highAt else now, longNow := c.longNow && high, longDue := c.longDue && high,
             win := { c.win with phase := .preStart, high := high, longSeen := c.longDue && !high } }

def execBlankingRelease (channel : Nat) (high : Bool) (s : State) : Result := .next (blankingRelease channel high s)

/-! ## SHOT_FIRE -/

/-- An entry of a tile's shot table (R267): one more shot, over the least recent entry without references. -/
def addShot (x : ShotEntry) (l : List ShotEntry) : List ShotEntry :=
  if l.length < 64 then x :: l else
  match l.reverse.findIdx? (·.refs == 0) with
  | some i => x :: l.eraseIdx (63 - i)
  | none => l

/-- The window of a channel of the firing shot reaches t0: its header enters the fabric. -/
def State.startWindow (d : Descriptor) (v : ViewDef) (s : State) (ch : Nat) : State :=
  let w := (s.channel ch).win
  if w.emitter != d.emitter || w.t0 != d.stamp || w.fired || !w.pendingTrailer then s else
  let w := { w with phase := .range, fired := true, angle := s.angleAt (64 * d.stamp),
                    rangeEnd := d.stamp + v.rangeTicks }
  let s := s.onChannel ch fun c => { c with win := w, items := c.items ++ [.header w c.entrySeq] }
  s.onTile (ch / 24) fun t =>
    { t with shots := t.shots.map fun x =>
        if x.tick == d.stamp && x.emitter == d.emitter then { x with refs := x.refs + 1 } else x }

/-- SLOT_ECC of an emitter once more: twice within 24 h on one core means that it is to be replaced (Table 17.4). -/
def State.noteSlotEcc (e : Nat) (s : State) : State :=
  match s.power.repair.coreFor.getD e none with
  | none => s
  | some k =>
    let now := s.clk.now
    let s := s.onHealth fun h => { h with slotEccAt := h.slotEccAt ++ [(k, now)] }
    if 2 ≤ (s.health.slotEccAt.filter fun x => x.1 == k && decide (now < x.2 + sec 86400)).length then s.coreTrouble e 0 else s

/-- A word of a slot in the waveform memory of the core that drives output `e` could not be corrected (R390); which of the slot's 32
words it is, the command does not say.
DESIGN CHOICE, safe (log 104). -/
def State.noteWaveLost (e slot : Nat) (s : State) : State :=
  match s.power.repair.coreFor.getD e none with
  | some k => (s.noteLost 3 k (32 * slot + s.freeValue % 32)).freeNext
  | none => s

/-- A shot whose slot cannot be read is not fired (R217, R220): its windows give nothing. -/
def State.unreadable (d : Descriptor) (v : ViewDef) (s : State) : State :=
  let s := ((s.noteWaveLost d.emitter d.slot).eccFail d.emitter d.slot).unreserve d.emitter d.charge
  let s := (v.entries.getD d.entry (fireEntry [] 0)).channels.foldl (fun s ch =>
    if (s.channel ch).win.emitter == d.emitter then s.abandonWindow ch else s) s
  s.noteSlotEcc d.emitter |>.countSkip d.emitter .unplayable

/-- Is another shot about to fire within 52 ticks after tick `t` (R116)? -/
def State.t0Crowded (e t : Nat) (s : State) : Bool :=
  (s.sched.queue.filter (·.fixed) ++ s.sched.current.filterMap id).any fun d =>
    d.emitter != e && decide (t ≤ d.stamp) && decide (d.stamp ≤ t + t0Span) && !(s.emitter d.emitter).faulted &&
    (s.slot d.emitter d.slot).st == .loaded

/-- A shot fires at `t`: the T0 lane waits for its edge, and with every shot of the 52 ticks before it makes an ambiguous group
(R114, R116). -/
def Clk.openT0 (e t charge : Nat) (optical : Bool) (c : Clk) : Clk :=
  let near (x : T0Shot) : Bool := decide (t ≤ x.t0 + t0Span)
  let rest := c.t0Open.filter (·.emitter != e)
  { c with t0Await := some t,
           t0Open := (rest.map fun x => { x with ambiguous := x.ambiguous || near x }) ++
             [{ emitter := e, t0 := t, ambiguous := rest.any near, optical := optical, charge := charge, edge := none }] }

/-! ## Optical start (R114 to R116) -/

/-- An edge settles the T0 value of shot `x` as MEASURED: it joins the emitter's average, and in optical start the efficiency monitor
takes its charge (R114, R116, R435). -/
def State.t0Measured (x : T0Shot) (tau : Int) (charge : Nat) (s : State) : State :=
  let s := s.onClk fun k =>
    { k with t0Open := k.t0Open.filter (· != x), t0Delays := k.t0Delays.modify x.emitter fun l => (tau :: l).take 256 }
  if x.optical then
    (s.resolveT0 x.emitter x.t0 tau .measured).onHealth fun h =>
      { h with eff := h.eff.modify x.emitter fun m =>
          { m with chargeSum := m.chargeSum + charge % 4096, slotSum := m.slotSum + x.charge, shots := m.shots + 1 } }
  else s

/-- An edge within the interval of shot `x`: while another shot may still fire there, the edge is kept. -/
def State.t0Stamped (x : T0Shot) (tau : Int) (charge : Nat) (s : State) : State :=
  if x.ambiguous || (64 * t0Span : Nat) < tau then s
  else if s.t0Crowded x.emitter x.t0 then
    s.onClk fun k => { k with t0Open := k.t0Open.map fun y => if y == x then { y with edge := some (tau, charge) } else y }
  else s.t0Measured x tau charge

/-- T0_IN_EDGE: a coarse count from the latest t0, a raw code, and the charge of the reference pulse (R435). The lane stamps the first
edge after each t0, beyond its dead time of 20 ns (R114). -/
def t0InEdge (coarse raw charge : Nat) (s : State) : State :=
  match s.clk.t0Await, (s.lane t0Lane).last with
  | some t0, some cal =>
    let tau := (convert cal FrontEndCal.reset coarse raw).1
    if tau < 0 || 64 * t0 + tau.toNat < s.clk.t0Dead then s else
    let s := s.onClk fun k => { k with t0Await := none, t0Dead := 64 * t0 + tau.toNat + 1639 }
    match s.clk.t0Open.find? (·.t0 == t0) with
    | some x => s.t0Stamped x tau charge
    | none => s
  | _, _ => s

def execT0InEdge (coarse raw charge : Nat) (s : State) : Result := .next (t0InEdge coarse raw charge s)

/-- T0_TIMEOUT (R116): 52 ticks after t0 the T0 value is the edge that was kept, or else the emitter's average. -/
def t0Timeout (e : Nat) (s : State) : State :=
  match s.clk.t0Open.find? (·.emitter == e) with
  | none => s
  | some x =>
    if s.clk.tickCount < x.t0 + t0Span then s else
    match x.edge.filter fun _ => !x.ambiguous with
    | some y => s.t0Measured x y.1 y.2
    | none =>
    let s := s.onClk fun k => { k with t0Open := k.t0Open.filter (· != x) }
    if x.optical then
      (s.resolveT0 e x.t0 (s.t0Avg e) (if x.ambiguous then .ambiguous else .missing)).onClk
        fun k => { k with t0NotMeasured := satInc 32 k.t0NotMeasured }
    else s

def execT0Timeout (emitter : Nat) (s : State) : Result := .next (t0Timeout emitter s)

/-- T0 values whose 52 ticks are over are settled before a later shot. -/
def State.t0Overdue (s : State) : State := (s.clk.t0Open.map (·.emitter)).foldl (fun s e => t0Timeout e s) s

/-! ## The shot -/

/-- The shot fires: output, ledger, T0, shot tables and windows (R29, R227). A direct play that a swap has left running ends first.
DEDUCED, unsafe (log 127). -/
def State.fire (d : Descriptor) (v : ViewDef) (s : State) : State :=
  let e := d.emitter
  let k := s.slot e d.slot
  let s := ((s.endDirect e stOk 0).settle e).onEmitter e fun x =>
    { x.toRange d.stamp k.range2 with out := .slot d.slot d.codes k.range2 d.stamp 0 d.charge, pulse := 0 }
  let chs := (v.entries.getD d.entry (fireEntry [] 0)).channels
  let tiles := (List.range 8).filter fun t => chs.any (· / 24 == t)
  let entry : ShotEntry := { tick := d.stamp, optical := v.optical, t0Fine := 0, emitter := e, slot := d.slot,
                             codeId := k.codeId, epoch := d.epoch, refs := 0 }
  let s := tiles.foldl (fun s t => s.onTile t fun x => { x with shots := addShot entry x.shots }) s
  let s := s.t0Overdue.onClk (Clk.openT0 e d.stamp d.charge v.optical)
  let s := chs.foldl (State.startWindow d v) s
  s.zoneShot d.view d.cell d.epoch d.stamp

/-- SHOT_FIRE (R29, R220). `eccBad`: the slot's memory gave an uncorrectable word. -/
def shotFire (e : Nat) (eccBad : Bool) (s : State) : State :=
  match s.sched.current.getD e none with
  | none => s
  | some d =>
    if s.clk.tickCount < d.stamp then s else
    let s := s.onSched fun k =>
      { k with current := k.current.set e none, fired := k.fired.set e (some d), nfCount := k.nfCount.set e (some 0) }
    match s.viewIn d.epoch d.view with
    | none => s.unreserve e d.charge
    | some v =>
      let s := if eccBad then s.unreadable d v else s.fire d v
      s.endCell v d.cell

def execShotFire (emitter : Nat) (eccBad : Bool) (s : State) : Result := .next (shotFire emitter eccBad s)

/-- SLOT_END (R216): after sample 255 the output is at park code at ×1. -/
def slotEnd (e : Nat) (s : State) : State :=
  match (s.emitter e).out with
  | .slot _ _ _ t0 _ _ => if t0 + 128 ≤ s.clk.tickCount then s.parkOutput e else s
  | _ => s

def execSlotEnd (emitter : Nat) (s : State) : Result := .next (slotEnd emitter s)

/-! ## The ends of a window -/

/-- HISTOGRAM_RANGE_END (R103): an edge still over its threshold belongs to the range and is waited for. -/
def histogramRangeEnd (ch : Nat) (s : State) : State :=
  let c := s.channel ch
  let open_ := c.edge.any (·.inWindow)
  if c.win.phase == .range && c.win.fired && !(c.win.optical && c.win.t0Value.isNone) && !open_ &&
     decide (c.win.rangeEnd ≤ s.clk.tickCount) then s.endRange ch c.win.rangeEnd false false
  else s

def execHistogramRangeEnd (channel : Nat) (s : State) : Result := .next (histogramRangeEnd channel s)

/-- Is a window due on a channel? -/
def State.dueOn (ch : Nat) (s : State) : Bool :=
  (List.range 16).any fun e => (s.dueWindow e).any fun d =>
    match s.viewIn d.epoch d.view with
    | some v => (v.entries.getD d.entry (fireEntry [] 0)).group.testBit ch
    | none => false

/-- AMBIENT_SPAN_END (R251): at the next blanking. -/
def ambientSpanEnd (ch : Nat) (s : State) : State := if s.dueOn ch then s.endAmbient ch s.clk.tickCount false else s

def execAmbientSpanEnd (channel : Nat) (s : State) : Result := .next (ambientSpanEnd channel s)

/-- COARSE_OVF (R104): the coarse counter passes 0xFFFF. -/
def coarseOvf (ch : Nat) (s : State) : State :=
  let w := (s.channel ch).win
  if w.phase == .ambient && decide (w.t0 + 65536 ≤ s.clk.tickCount) then
    ((s.endAmbient ch (w.t0 + 65536) true).onChannel ch fun c =>
      { c with win := { c.win with phase := .untimed, coarseOvf := true } }).onClk
      fun k => { k with coarseOvfTotal := satInc 32 k.coarseOvfTotal }
  else s

def execCoarseOvf (channel : Nat) (s : State) : Result := .next (coarseOvf channel s)

/-! ## Edges (R247 to R250) -/

/-- The front end accepts an edge at fine step `stamp`: its dead time runs from there (R247). -/
def State.acceptEdge (ch stamp : Nat) (s : State) : State :=
  let dead := deadFine (s.rxFor ch (s.channel ch).win)
  s.onChannel ch fun c => { c with deadUntil := stamp + dead }

/-- An edge that is accepted and not timed: lost in blanking, counted untimed, or before t0 (Table 9.2). -/
def State.untimedEdge (ch : Nat) (ph : WinPhase) (s : State) : State :=
  match ph with
  | .blanked => s.onChannel ch fun c => { c with blankedTotal := satInc 32 c.blankedTotal }
  | .preStart => (s.onChannel ch fun c => { c with win := { c.win with prestart := min 255 (c.win.prestart + 1) } }).onClk
      fun k => { k with prestartTotal := satInc 32 k.prestartTotal }
  | .untimed => (s.onChannel ch fun c => { c with untimedTotal := satInc 32 c.untimedTotal }).onFe (s.feOf ch)
      fun f => { f with untimed := satInc 32 f.untimed }
  | _ => s

/-- An edge timed at `tau` and fine position `f` while the window is open or its ambient span runs. -/
def State.timedEdge (ch : Nat) (tau f : Int) (s : State) : State :=
  let w := (s.channel ch).win
  let blanked := s.blanks ch (64 * (w.t0 : Int) + tau).toNat
  let amb := w.phase == .ambient
  let s := s.onChannel ch fun c =>
    { c with silentWindows := 0, edge := some { tau := tau, inWindow := !amb, blanked := blanked },
             win := { w with edges := w.edges + 1, ambCount := if amb && !blanked then w.ambCount + 1 else w.ambCount } }
  let s := if blanked && amb then
      s.onRejection (ch / 24) fun r => { r with blankedTotal := satInc 32 r.blankedTotal } else s
  s.onHealth fun h => { h with dnl := h.dnl.modify (s.feOf ch) fun m => { m with counts := m.counts.modify f.toNat (· + 1) } }

/-- An edge of a window after its t0 as its lane's present pair converts it: tau and fine position; none before t0.
DEDUCED, unsafe (log 128). -/
def State.edgeTime (ch coarse raw : Nat) (s : State) : Option (Int × Int) :=
  match (s.channel ch).win.phase with
  | .range | .ambient => (s.lane (s.laneOf ch)).last.map fun cal => convert cal (s.fe (s.feOf ch)) coarse raw
  | _ => none

/-- DISCRIMINATOR_EDGE: a coarse count from the window's t0 and a raw code; placed in the first row of Table 9.2 that
applies. The output is high from here on, whether or not the front end is armed (R247, R249). -/
def discriminatorEdge (ch coarse raw : Nat) (s : State) : State :=
  let c := s.channel ch
  if c.st != .active || c.high then s else
  let now := s.clk.tickCount
  let x := s.edgeTime ch coarse raw
  let stamp := match x with
    | some y => (64 * (c.win.t0 : Int) + y.1).toNat
    | none => 64 * now
  let s := s.onChannel ch fun c => { c with high := true, highAt := now }
  if stamp < c.deadUntil || c.win.phase == .none then s else
  let s := s.acceptEdge ch stamp
  match x with
  | some y => s.timedEdge ch y.1 y.2
  | none => s.untimedEdge ch c.win.phase

def execDiscriminatorEdge (channel coarse raw : Nat) (s : State) : Result :=
  .next (discriminatorEdge channel coarse raw s)

/-- DISCRIMINATOR_FALL: the output falls, or the measurement stops at 64 units with the output still high. -/
def discriminatorFall (ch tot : Nat) (s : State) : State :=
  let still := decide (64 ≤ tot) && (s.channel ch).edge.isSome
  (s.onChannel ch fun c =>
    { c with high := still, longNow := c.longNow && still, longDue := c.longDue && still,
             win := { c.win with high := c.win.high && still, longSeen := c.win.longSeen || (c.longDue && !still) } }).endEdge ch tot

def execDiscriminatorFall (channel tot : Nat) (s : State) : Result := .next (discriminatorFall channel tot s)

/-- Has a channel's output stood high for longer than its LONG_HIGH (R249)? -/
def State.highTooLong (ch : Nat) (s : State) : Bool :=
  let c := s.channel ch
  let p := if c.win.phase == .none then s.sets.active.rxOf ch else s.rxFor ch c.win
  c.high && decide (rxLongHigh p * 64 < (s.clk.tickCount - c.highAt) * 5)

/-- LONG_HIGH (R249). -/
def longHigh (ch : Nat) (s : State) : State :=
  let c := s.channel ch
  if !s.highTooLong ch || c.longNow || c.st != .active then s else
  s.onChannel ch fun c =>
    { c with longHigh := true, longHighTotal := satInc 32 c.longHighTotal, longNow := true, longDue := true }

def execLongHigh (channel : Nat) (s : State) : Result := .next (longHigh channel s)

/-! ## Merging into the histogram -/

/-- A tile and the memory's region count the faults that an access to a buffer met, and the rows of uncorrectable words are repaired
(R273, R390, Table 17.4). -/
def State.noteEcc (ch buf : Nat) (fs : List EccFault) (s : State) : State :=
  let bank := ch / 24 * 12 + ch % 24 / 2
  fs.foldl (fun s f => match f with
    | .uncorrectable w => (s.noteLost 1 bank (2048 * (ch % 2) + 1024 * buf + w)).rowTrouble bank (rowOf ch buf w)
    | _ => s) (s.onTile (ch / 24) (Tile.countEcc fs))

/-- The errors that the records of an entry meet in the histogram of their window (R273). -/
def State.ingressEcc (ch : Nat) (w : Window) (rs : List (Nat × Nat)) (faults : List EccFault) (s : State) : State :=
  match s.viewIn w.epoch w.view, (s.channel ch).acc.find? (·.holds w.view w.cell w.epoch) with
  | some v, some h =>
    let fs := faults.filter (h.meets (v.addsTo rs))
    let s := s.updHist ch w.view w.cell w.epoch fun h => fs.foldl (Hist.afterEcc v.weightPlane) h
    let s := s.onTile (ch / 24) fun t =>
      { t with ingressEcc := satAdd 32 t.ingressEcc (fs.countP fun f => !isCorrected f) }
    s.noteEcc ch h.buf fs
  | _, _ => s

/-- INGRESS_ENTRY (R269, R273, R274). `parityBad`: the entry fails its parity check; `faults`: what the words it is added to
meet. -/
def ingressEntry (ch : Nat) (parityBad : Bool) (faults : List EccFault) (s : State) : State :=
  let s := s.mergeHeaders ch 4
  match (s.channel ch).items with
  | .entry rs :: rest =>
    let w := (s.channel ch).headWindow
    let s := s.onChannel ch fun c => { c with items := rest }
    if parityBad then
      ((s.onChannel ch fun c => ({ c with overflowTotal := satAdd 32 c.overflowTotal rs.length }).headOverflow rs.length).onTile (ch / 24)
        fun t => { t with overflowSeen := true }).updHist ch w.view w.cell w.epoch (·.setMark 1 true)
    else (s.ingressEcc ch w rs faults).countRecords ch w rs
  | _ => s

def execIngressEntry (channel : Nat) (parityBad : Bool) (faults : List EccFault) (s : State) : Result :=
  .next (ingressEntry channel parityBad faults s)

/-- TRAILER_MERGE (R274, R276): the window counts as observed; the histogram closes with its last window.
DEDUCED, unsafe (log 82). -/
def trailerMerge (ch : Nat) (s : State) : State :=
  let s := s.mergeHeaders ch 4
  match (s.channel ch).items with
  | .trailer w _ :: rest =>
    (s.onChannel ch fun c => { c with items := rest }).updHist ch w.view w.cell w.epoch (Hist.mergeTrailer w)
  | _ => s

def execTrailerMerge (channel : Nat) (s : State) : Result := .next (trailerMerge channel s)

/-! ## Near field (R195, R196) -/

/-- NEAR_FIELD_REGISTER: the count of an emitter's latest shot has reached NF_COUNT. The revolutions for which a ninth registration
blocks every cell end at boundaries, as a sector's do.
DEDUCED, unsafe (log 66). -/
def nearFieldRegister (e : Nat) (s : State) : State :=
  match s.sched.nfCount.getD e none, s.sched.fired.getD e none with
  | some n, some d =>
    let c := s.setOf d.epoch
    match s.viewIn d.epoch d.view with
    | none => s
    | some v =>
      if n < c.nfCount || !c.nfEnable then s else
      let s := s.registerCause causeNearField
      let now := s.clk.now
      let sec : Sector := { centre := v.shotAngle d.cell d.shot, half := c.nfSector, revs := c.nfHold }
      s.onSched fun k =>
        { k with nfCount := k.nfCount.set e none, nfEvents := satInc 32 k.nfEvents, nfLast := now,
                 sectors := if k.sectors.length < 8 then k.sectors ++ [sec] else k.sectors,
                 nfAllRevs := if k.sectors.length < 8 then k.nfAllRevs else c.nfHold }
  | _, _ => s

def execNearFieldRegister (emitter : Nat) (s : State) : Result := .next (nearFieldRegister emitter s)

/-- NEAR_FIELD_CLEAR: 2 µs after the latest registration (Table 7.1). -/
def nearFieldClear (s : State) : State :=
  if s.causeSet causeNearField && s.since s.sched.nfLast (us 2) then s.clearCause causeNearField else s

def execNearFieldClear (s : State) : Result := .next (nearFieldClear s)

/-- NF_SECTOR_RELEASE: a sector whose revolution boundaries have all passed. -/
def nfSectorRelease (i : Nat) (s : State) : State :=
  match s.sched.sectors[i]? with
  | some x => if x.revs = 0 then s.onSched fun k => { k with sectors := k.sectors.eraseIdx i } else s
  | none => s

def execNfSectorRelease (index : Nat) (s : State) : Result := .next (nfSectorRelease index s)

end Sys2Proof.Machine
end

