-- ==== Sys2Proof/Machine/Emission.lean ====
section
/-!
DEFINITION. Meanings of the emission chapter (R213 to R242): waveform slots, fades, direct play, output faults, the energy
ledger, its table and unlock, the enable inputs and the pulse reservoirs.
-/
namespace Sys2Proof.Machine

/-! ## Slots (R217 to R220) -/

/-- Codes of a WAVE_LOAD payload, reserved bits included. -/
def waveCodes (p : List Byte) : List Nat := (List.range 256).map fun i => u16 p (16 + 2 * i)

def waveClear (p : List Byte) : Bool := bit (u8 p 2) 1
def waveX2 (p : List Byte) : Bool := bit (u8 p 2) 0
def wavePersist (p : List Byte) : Bool := bit (u8 p 2) 2

/-- Is a slot the source or the destination of a running or pending fade? -/
def State.slotFades (e n : Nat) (s : State) : Bool := (s.emitter e).fade.any fun f => f.src == n || f.dst == n

/-- The unit of the first offending sample (R218). -/
def badSample (park : Nat) (l : List Nat) : Option Nat :=
  (l.zipIdx.find? fun x => 4096 ≤ x.1 || ((x.2 == 0 || x.2 == 255) && x.1 != park)).map fun x => (16 + 2 * x.2) / 16

/-- Step 11 of WAVE_LOAD. -/
def waveLoadFields (c : Cmd) (s : State) : Verdict :=
  let p := c.payload
  let e := u8 p 0
  let l := waveCodes p
  let q := slotCharge s.emission.table e l (waveX2 p)
  (firstFail [chk (15 < e) 0, chk (63 < u8 p 1) 1, rsvdBits p 2 3, rsvd p 4 12]).andThen
    ((if waveClear p then Verdict.ok else
        match badSample (s.emitter e).park l with
        | some u => Verdict.reject stParam u
        | none => firstFail [chk (s.overLimit e 0 q) 0]).andThen
      ((firstFail [locked3 (s.slotFades e (u8 p 1))]).andThen
        (s.storeCheck (wavePersist p))))

def waveLoadInfo : OpInfo :=
  { code := 0x0401, lenMin := 1, lenMax := 33, implied := fun p => some (if waveClear p then 1 else 33),
    fields := waveLoadFields }

/-- A slot write waits for a gap of its core (R219).
DEDUCED, unsafe (log 75). -/
def waveLoadEffect (c : Cmd) (s : State) : State :=
  let p := c.payload
  let e := u8 p 0
  let new : Slot := if waveClear p then Slot.empty else
    { st := .loaded, range2 := waveX2 p, codeId := u8 p 3, samples := waveCodes p, charge := 0 }
  let t : Transfer := { slot := u8 p 1, new := new, persist := wavePersist p, cmd := c }
  (s.onEmitter e fun x => { x with transfers := x.transfers ++ [t] }).setPending (.emitter e) c

def execWaveLoad (c : Cmd) (s : State) : Result := .next (s.run waveLoadInfo c (waveLoadEffect c))
def execWaveLoadClear (c : Cmd) (s : State) : Result := .next (s.run waveLoadInfo c (waveLoadEffect c))

/-- Is the core of an emitter in a gap: no slot plays and none of its descriptors is fixed (R219)? -/
def State.inGap (e : Nat) (s : State) : Bool :=
  (match (s.emitter e).out with
   | .slot .. => false
   | _ => true) &&
  !((s.sched.queue ++ s.sched.current.filterMap id).any fun d => d.emitter == e && d.fixed)

/-- A slot takes new contents; its charge and state follow the table in use. -/
def State.writeSlot (e n : Nat) (k : Slot) (s : State) : State :=
  let q := slotCharge s.emission.table e k.samples k.range2
  s.onSlot e n fun _ => if k.st == .empty then Slot.empty else { k with charge := q, st := s.slotStateFor e q }

/-- WAVE_TRANSFER (R219): one waiting slot write is applied; the command completes, or its store is asked for.
DEDUCED, unsafe (log 75); DESIGN CHOICE, safe (log 119). -/
def waveTransfer (e n : Nat) (s : State) : State :=
  match (s.emitter e).transfers.find? (·.slot == n) with
  | none => s
  | some t =>
    if !s.inGap e then s else
    let s := s.onEmitter e fun x => { x with transfers := x.transfers.erase t }
    let s := s.writeSlot e n t.new
    let pj := chargePj (s.slot e n).charge
    if t.persist then s.storeAfter 0x0401 (0x10 + e) t.cmd (s.block stOk 0 pj)
    else s.doneOn 0x0401 (.emitter e) t.cmd pj

def execWaveTransfer (emitter slot : Nat) (s : State) : Result := .next (waveTransfer emitter slot s)

/-- STATE of WAVE_READ. -/
def SlotState.code : SlotState → Nat
  | .empty => 0
  | .loaded => 1
  | .slotOver => 2
  | .eccFailed => 3

def waveReadInfo : OpInfo :=
  { code := 0x0402, lenMin := 1, lenMax := 1, unseqOk := fun _ => true,
    fields := fun c _ => firstFail [chk (15 < u8 c.payload 0) 0, chk (63 < u8 c.payload 1) 1, rsvd c.payload 2 14] }

/-- WAVE_READ (R240).
DEDUCED, unsafe (log 105). -/
def waveReadEffect (c : Cmd) (s : State) : State :=
  let e := u8 c.payload 0
  let n := u8 c.payload 1
  let k := s.slot e n
  let pj := chargePj k.charge
  let head := fit 8 (le 1 e ++ le 1 n ++ le 1 (flag k.range2 0) ++ le 1 k.codeId ++ le 1 k.st.code) ++ fit 8 (le 4 pj)
  s.finish 0x0402 c stOk 0 pj (head ++ fit 512 ((k.samples.map (le 2 ·)).flatten))

def execWaveRead (c : Cmd) (s : State) : Result := .next (s.run waveReadInfo c (waveReadEffect c))

/-! ## Fades (R224, R225) -/

/-- The entry of a view's active firing table that an emitter stands in. -/
def ViewDef.entryFor (v : ViewDef) (e : Nat) : Option FireEntry := v.entries.find? (·.emitter == e)

def waveFadeFields (c : Cmd) (s : State) : Verdict :=
  let p := c.payload
  let e := u8 p 4
  let src := s.slot e (u8 p 5)
  let dst := s.slot e (u8 p 6)
  let f := (s.activeView (u32 p 0)).bind fun v => v.entryFor e
  firstFail
    [(!(s.sets.live.contains (u32 p 0)), stStale, 0),
     chk (15 < e || f.isNone) 4,
     chk (!(f.any fun f => f.slotBase ≤ u8 p 5 && decide (u8 p 5 < f.slotBase + f.slotCount))) 5,
     chk (63 < u8 p 6 || dst.st != .loaded) 6,
     chk (src.range2 != dst.range2 || src.codeId != dst.codeId) 6,
     chk (u8 p 7 = 0 || 64 < u8 p 7) 7,
     rsvd p 8 8,
     locked3 (s.emitter e).fade.isSome]

def waveFadeInfo : OpInfo := { code := 0x0403, lenMin := 1, lenMax := 1, fields := waveFadeFields }

/-- WAVE_FADE: the fade waits for its first shot; behind an armed swap, for that swap.
DEDUCED, safe (log 79). -/
def waveFadeEffect (c : Cmd) (s : State) : State :=
  let p := c.payload
  let f : Fade := { cmd := c, view := u32 p 0, src := u8 p 5, dst := u8 p 6, n := u8 p 7, i := 0,
                    waitSwap := s.swapsAhead c }
  (s.onEmitter (u8 p 4) fun x => { x with fade := some f }).setPending (.emitter (u8 p 4)) c

def execWaveFade (c : Cmd) (s : State) : Result := .next (s.run waveFadeInfo c (waveFadeEffect c))

/-- FADE_COPY (R224): after shot N has played, DST's samples become SRC's in the next gap. -/
def fadeCopy (e : Nat) (s : State) : State :=
  match (s.emitter e).fade with
  | none => s
  | some f =>
    if f.i < f.n || f.waitSwap != 0 || !s.inGap e then s else
    let k := s.slot e f.dst
    let s := s.onEmitter e fun x => { x with fade := none }
    let s := s.writeSlot e f.src k
    s.doneOn 0x0403 (.emitter e) f.cmd f.n

def execFadeCopy (emitter : Nat) (s : State) : Result := .next (fadeCopy emitter s)

/-! ## Park codes (R215, R241) -/

def parkSetFields (c : Cmd) (s : State) : Verdict :=
  let p := c.payload
  let ch := u8 p 0
  let code := u16 p 2
  (firstFail [chk (17 < ch) 0, rsvd p 1 1, chk (4096 ≤ code) 2, rsvd p 4 12,
              chk (ch < 16 && ltFloor s.emission.table ch < code) 2,
              locked3 (ch < 16 && (s.sets.active.namesEmitter ch || s.sets.shadow.namesEmitter ch))]).andThen
    (s.arbiterCheck 1)

def parkSetInfo : OpInfo := { code := 0x0404, lenMin := 1, lenMax := 1, fields := parkSetFields }

/-- PARK_SET: the store is asked for; the code governs when it completes. -/
def parkSetEffect (c : Cmd) (s : State) : State := s.storeFor 0x0404 6 none c

def execParkSet (c : Cmd) (s : State) : Result := .next (s.run parkSetInfo c (parkSetEffect c))

/-- The park code of channel `ch` of PARK_SET. -/
def State.parkCode (ch : Nat) (s : State) : Nat :=
  if ch < 16 then (s.emitter ch).park else if ch = 16 then s.emission.excPark else s.emission.galvoPark

/-- A stored park code takes effect; an emitter's slots become EMPTY. -/
def State.setPark (ch code : Nat) (s : State) : State :=
  if ch < 16 then s.onEmitter ch fun x => { x with park := code, slots := List.replicate 64 Slot.empty }
  else s.onEmission fun m => if ch = 16 then { m with excPark := code } else { m with galvoPark := code }

/-! ## Direct play (R221, R222, R228) -/

/-- DEDUCED, unsafe (log 75). -/
def emitDirectFields (c : Cmd) (s : State) : Verdict :=
  let p := c.payload
  firstFail
    [chk (15 < u8 p 0) 0, rsvdBits p 1 2, chk (4096 ≤ u16 p 2) 2,
     chk (u32 p 4 = 0 || 1280000 < u32 p 4) 4, rsvd p 8 8,
     locked3 (s.sets.active.namesEmitter (u8 p 0) || s.inhibited)]

def emitDirectInfo : OpInfo := { code := 0x0405, lenMin := 1, lenMax := 1, fields := emitDirectFields }

/-- A direct play in progress ends with OK for a new command. -/
def State.supersede (e : Nat) (s : State) : State :=
  match (s.emitter e).out with
  | .direct _ _ start dur _ cmd =>
    let n := s.ticksPlayed start dur
    s.finish 0x0405 cmd stOk 0 n []
  | _ => s

/-- EMIT_DIRECT without STOP: the code plays from the next sample, and the PULSE accumulator takes every sample from there on; a play
in progress completes with what it played. An emitter that is FAULTED or whose row permits no emission (R234) plays nothing.
DEDUCED, unsafe (log 75). -/
def emitDirectStart (c : Cmd) (s : State) : State :=
  let p := c.payload
  let e := u8 p 0
  if (s.emitter e).faulted || !rowEmits s.emission.table e then s.finish 0x0405 c stFaultEmission 3 0 [] else
  let s := (s.settle e).supersede e
  let t := s.clk.tickCount
  let x2 := bit (u8 p 1) 0
  (s.onEmitter e fun x => { x.toRange t x2 with out := .direct (u16 p 2) x2 t (u32 p 4) 0 c, pulse := 0 }).setPending (.emitter e) c

/-- EMIT_DIRECT with STOP: the emitter parks, the play in progress completes, and so does the command. -/
def emitDirectPark (c : Cmd) (s : State) : State :=
  (s.endDirect (u8 c.payload 0) stOk 0).doneOn 0x0405 (.emitter (u8 c.payload 0)) c 0

def emitDirectEffect (c : Cmd) (s : State) : State :=
  if bit (u8 c.payload 1) 1 then emitDirectPark c s else emitDirectStart c s

def execEmitDirect (c : Cmd) (s : State) : Result := .next (s.run emitDirectInfo c (emitDirectEffect c))
def execEmitDirectStop (c : Cmd) (s : State) : Result := .next (s.run emitDirectInfo c (emitDirectEffect c))

/-- DIRECT_PLAY_END (R221): DURATION ticks have been played. -/
def directPlayEnd (e : Nat) (s : State) : State :=
  match (s.emitter e).out with
  | .direct _ _ start dur _ _ => if start + dur ≤ s.clk.tickCount then s.endDirect e stOk 0 else s
  | _ => s

def execDirectPlayEnd (emitter : Nat) (s : State) : Result := .next (directPlayEnd emitter s)

/-- The row and window that a direct play of emitter `e` has brought to its effective limit: PULSE, then the windows. -/
def State.directLimit (e : Nat) (s : State) : Option (Nat × Nat) :=
  if s.atLimit e 0 (s.emitter e).pulse then some (e, 0)
  else ([e, 16].map fun r => [1, 2, 3].map fun w => (r, w)).flatten.find? fun x => s.atLimit x.1 x.2 (s.level x.1 x.2)

/-- DIRECT_PLAY_LEDGER_LIMIT (R228). -/
def directPlayLedgerLimit (e : Nat) (s : State) : State :=
  match (s.emitter e).out with
  | .direct .. =>
    let s := s.settleAll
    match s.directLimit e with
    | some x => s.registerLedger x.1 x.2
    | none => s
  | _ => s

def execDirectPlayLedgerLimit (emitter : Nat) (s : State) : Result := .next (directPlayLedgerLimit emitter s)

/-! ## Output faults (R223) -/

/-- Open cells whose first shot of the emitter has been fixed already: their other shots of it are not fired, even after a clear
(R223). -/
def State.barStarted (e : Nat) (s : State) : State :=
  let waits (c : OpenCell) (i : Nat) : Bool := s.sched.queue.any fun d =>
    d.view == c.view && d.cell == c.cell && d.epoch == c.epoch && d.entry == i && d.shot == 0 && !d.fixed
  let bars (c : OpenCell) : List Nat := match s.viewIn c.epoch c.view with
    | some v => (List.range v.entries.length).filter fun i =>
        (v.entries.getD i (fireEntry [] 0)).emitter == e && c.planned.getD i 0 != 0 && !waits c i
    | none => []
  s.onSched fun k => { k with cells := k.cells.map fun c => { c with barred := bars c ++ c.barred } }

/-- A fixed shot of an emitter that may no longer fire, for reason `r`, is not fired: nothing is charged, and its windows give nothing. -/
def State.dropFixed (r : Skip) (s : State) (d : Descriptor) : State :=
  ((s.unreserve d.emitter d.charge).countSkip d.emitter r).dropDescriptor d

/-- The same for the shot whose windows have opened. -/
def State.dropCurrent (e : Nat) (r : Skip) (s : State) : State :=
  match s.sched.current.getD e none with
  | none => s
  | some d =>
    let s := (s.unreserve e d.charge).onSched fun k => { k with current := k.current.set e none }
    let s := s.countSkip e r
    match s.viewIn d.epoch d.view with
    | none => s
    | some v => ((v.entries.getD d.entry (fireEntry [] 0)).channels.foldl (fun s ch =>
        if (s.channel ch).win.emitter == e && (s.channel ch).win.t0 == d.stamp then s.abandonWindow ch else s) s).endCell v d.cell

/-- None of an emitter's shots that are fixed already fires, for reason `r`. -/
def State.dropShotsOf (e : Nat) (r : Skip) (s : State) : State :=
  let fixed := s.sched.queue.filter fun d => d.emitter == e && d.fixed
  (fixed.foldl (State.dropFixed r) s).dropCurrent e r

/-- An emitter becomes FAULTED (R223): its direct play and fade end (R221, R225), and no shot of it fires from here on. -/
def State.faultEmitter (e : Nat) (s : State) : State :=
  let s := ((s.endDirect e stFaultEmission 3).parkOutput e).onEmitter e fun x => { x with faulted := true }
  ((s.abandonFade e 2 false).barStarted e).dropShotsOf e .faulted

/-- EMITTER_SHORT: the output has reached 40 mA; its core is to be checked (R440). -/
def emitterShort (e : Nat) (s : State) : State :=
  if 15 < e then s else
  let s := s.onHealth fun h => { h with shortTotal := h.shortTotal.modify e (satInc 32 ·) }
  ((s.faultEmitter e).onEmitter e fun x => { x with short := true }).coreTrouble e 1

def execEmitterShort (emitter : Nat) (s : State) : Result := .next (emitterShort emitter s)

/-! ## Ledger buckets (R227, R231) -/

/-- Bucket length of a window in ticks and its number of full buckets (Table 8.4). -/
def bucketTicks (w : Nat) : Nat := if w = 1 then 100 else if w = 2 then 1280000 else 128000000
def bucketCount (w : Nat) : Nat := if w = 1 then 64 else 100

/-- One bucket edge of window `w`: the oldest bucket of every row becomes the partial one. -/
def Emission.advance (w : Nat) (m : Emission) : Emission :=
  let step (n : Nat) : Nat := (n + 1) % (bucketCount w + 1)
  if w = 1 then { m with cur5 := step m.cur5, rows := m.rows.map fun r => { r with w5 := r.w5.set (step m.cur5) 0 } }
  else if w = 2 then
    { m with cur100 := step m.cur100, rows := m.rows.map fun r => { r with w100 := r.w100.set (step m.cur100) 0 } }
  else { m with cur10 := step m.cur10, rows := m.rows.map fun r => { r with w10 := r.w10.set (step m.cur10) 0 } }

/-- LEDGER_BUCKET_EDGE: what has been played goes into the bucket that ends; LEDGER may clear on the falling levels.
DESIGN CHOICE, unsafe (log 4); DEDUCED, safe (log 72). -/
def ledgerBucketEdge (w : Nat) (s : State) : State :=
  if w = 0 || 3 < w then s else
  let last := s.emission.edges.getD (w - 1) 0
  if s.clk.tickCount / bucketTicks w ≤ last then s else
  let s := s.settleAll
  let s := s.onEmission fun m => { m.advance w with edges := m.edges.set (w - 1) (last + 1) }
  s.tryClearLedger

def execLedgerBucketEdge (window : Nat) (s : State) : Result := .next (ledgerBucketEdge window s)

/-- `total` spread evenly over 100 buckets behind the partial one at position 0.
DESIGN CHOICE, unsafe (log 73). -/
def evenFill (total : Nat) : List Nat := 0 :: (List.range 100).map fun i => total / 100 + (if i < total % 100 then 1 else 0)

/-- The cold fill of a table (R231).
DESIGN CHOICE, unsafe (log 73). -/
def Emission.coldFill (m : Emission) : Emission :=
  let amount (r w : Nat) : Nat := ltLimit m.table r w * ltColdFill m.table / 256
  { m with
    rows := (List.range 17).map fun r =>
      { w5 := List.replicate 65 0, w100 := evenFill (amount r 2), w10 := evenFill (amount r 3), reserve := 0 },
    cur5 := 0, cur100 := 0, cur10 := 0 }

/-! ## Unlock (R236) -/

/-- The response that the challenge asks for. -/
def unlockResponse (key challenge : List Byte) (gen : Nat) : List Byte :=
  (hmacSha256 key (challenge ++ le 8 Config.serial ++ le 4 gen)).take 16

def State.onUnlock (f : Unlock → Unlock) (s : State) : State := s.onEmission fun m => { m with unlock := f m.unlock }

/-- Is STEP 0 locked out? -/
def State.lockedOut (s : State) : Bool := s.emission.unlock.lockoutAt.any fun t => decide (s.now < t + sec 60)

/-- Does the payload of STEP 1 answer the outstanding challenge?
DESIGN CHOICE, safe (log 77). -/
def State.goodResponse (p : List Byte) (s : State) : Bool :=
  match s.emission.key, s.emission.unlock.challenge with
  | some k, some (ch, t) => decide (s.now ≤ t + sec 10) && slice p 16 16 == unlockResponse k ch s.emission.tableGen
  | _, _ => false

/-- Is a step of the unlock barred: STEP 0 by the lockout, STEP 1 by a wrong or late response? -/
def State.unlockBarred (p : List Byte) (s : State) : Bool := if u8 p 0 = 0 then s.lockedOut else !s.goodResponse p

/-- Fields of LEDGER_UNLOCK. A response is judged as it is accepted, which uses its challenge up (`State.takeResponse`). -/
def unlockFields (c : Cmd) (s : State) : Verdict :=
  let p := c.payload
  firstFail
    [chk (1 < u8 p 0) 0, rsvd p 1 15,
     locked3 ((s.liveOf c).isNone && s.unlockBarred p)]

/-- A wrong or late response (R236): it is counted, and uses its challenge up; the third in a row locks STEP 0 out.
DESIGN CHOICE, safe (log 77). -/
def unlockRejected (c : Cmd) (st det : Nat) (s : State) : State :=
  if st = stLocked && det = 3 && u8 c.payload 0 = 1 then
    let now := s.now
    s.onUnlock fun u =>
      { u with challenge := none, wrong := u.wrong + 1, failSeen := true,
               lockoutAt := if 3 ≤ u.wrong + 1 then some now else u.lockoutAt }
  else s

def unlockInfo : OpInfo :=
  { code := 0x0406, lenMin := 1, lenMax := 2,
    lock := fun c _ => firstFail [(c.via.transport == .trdp, stLocked, 2)],
    implied := fun p => if u8 p 0 = 0 then some 1 else if u8 p 0 = 1 then some 2 else none,
    fields := unlockFields, rejected := unlockRejected }

/-- STEP 0: a fresh challenge from the random source.
DESIGN CHOICE, safe (log 77). -/
def unlockDraw (c : Cmd) (s : State) : State :=
  let ch := le 8 s.freeValue
  let now := s.now
  let s := (s.freeNext).onUnlock fun u => { u with challenge := some (ch, now) }
  s.finish 0x0406 c stOk 0 0 (ch ++ fit 8 (le 4 s.emission.tableGen))

/-- A correct response is accepted: it uses its challenge up, and the count of wrong ones starts anew. -/
def State.takeResponse (s : State) : State := s.onUnlock fun u => { u with challenge := none, wrong := 0 }

/-- STEP 1, correct: the unlock opens for 10 s. -/
def unlockOpenNow (c : Cmd) (s : State) : State :=
  let now := s.now
  (s.onUnlock fun u => { u with openAt := some now }).done 0x0406 c 0

def unlockEffect (c : Cmd) (s : State) : State :=
  if u8 c.payload 0 = 0 then unlockDraw c s else unlockOpenNow c s

def execLedgerUnlockChallenge (c : Cmd) (s : State) : Result := .next (s.run unlockInfo c (unlockEffect c))
def execLedgerUnlockResponse (c : Cmd) (s : State) : Result := .next (s.run unlockInfo c (unlockEffect c))

/-- UNLOCK_EXPIRE: 10 s after it opened. -/
def unlockExpire (s : State) : State :=
  if s.emission.unlock.openAt.isSome && !s.unlockOpen then s.onUnlock fun u => { u with openAt := none } else s

def execUnlockExpire (s : State) : Result := .next (unlockExpire s)

/-- UNLOCK_LOCKOUT_END: 60 s after the third wrong response. -/
def unlockLockoutEnd (s : State) : State :=
  if s.emission.unlock.lockoutAt.isSome && !s.lockedOut then s.onUnlock fun u => { u with lockoutAt := none } else s

def execUnlockLockoutEnd (s : State) : Result := .next (unlockLockoutEnd s)

/-- An accepted command that an unlock admits ends it. -/
def State.useUnlock (s : State) : State := s.onUnlock fun u => { u with openAt := none }

/-! ## The ledger table (R235, Table 8.7) -/

/-- The table image of a LEDGER_WRITE. -/
def ledgerImage (p : List Byte) : List Byte := fit 608 (p.drop 16)

/-- Does a new table raise a value (R235)? -/
def raises (old new : List Byte) : Bool :=
  let up (f : List Byte → Nat) : Bool := decide (f old < f new)
  let down (f : List Byte → Nat) : Bool := decide (f new < f old)
  up ltClass || up ltResume || down ltMinSpeed || down ltColdFill ||
  ((List.range 4).any fun k => up (ltResMax · k) || (down (ltResC · k) && ltResC new k != 0) ||
    (down (ltResDiv · k) && ltResDiv new k != 0)) ||
  ((List.range 17).any fun r => down (ltScale · r) || (r < 16 && up (ltFloor · r)) ||
    [0, 1, 2, 3].any fun w => up (ltLimitField · r w))

/-- Fields of one row of a table image `t` that stands from byte 16 of the payload. -/
def ledgerRowChecks (s : State) (t : List Byte) (r : Nat) : List (Bool × Nat × Nat) :=
  let at_ (i n : Nat) : Bool × Nat × Nat :=
    let x := rsvd t i n
    (x.1, x.2.1, x.2.2 + 1)
  let b := 64 + 32 * r
  if r = 16 then [at_ b 12, at_ (b + 24) 8]
  else [chk (4096 ≤ u16 t (b + 4)) (b + 20), chk (u16 t (b + 4) < (s.emitter r).park) (b + 20), at_ (b + 6) 2,
        at_ (b + 24) 8]

/-- Fields of LEDGER_WRITE. The unlock is judged as the write is accepted, which uses it up.
DEDUCED, safe (log 12). -/
def ledgerWriteFields (c : Cmd) (s : State) : Verdict :=
  let p := c.payload
  let t := ledgerImage p
  let at_ (i n : Nat) : Bool × Nat × Nat :=
    let x := rsvd t i n
    (x.1, x.2.1, x.2.2 + 1)
  let raising := raises s.emission.table t
  (firstFail ([chk (u32 p 0 != s.emission.tableGen) 0, rsvd p 4 12, chk (u16 t 0 != 1) 16, chk (4 < ltClass t) 16,
     chk (ltResume t < 128) 16, at_ 5 3, chk (ltMinSpeed t < 65536 || 6553600 < ltMinSpeed t) 16, at_ 12 4] ++
    ((List.range 4).map fun k => chk (0 < ltResDiv t k && ltResDiv t k < 16) 32) ++ [at_ 48 16] ++
    ((List.range 17).map (ledgerRowChecks s t)).flatten)).andThen
   ((firstFail [(raising && c.via.transport == .trdp, stLocked, 2), locked3 (s.unlockBars c raising)]).andThen
    (s.arbiterCheck 1))

def ledgerWriteInfo : OpInfo := { code := 0x0407, lenMin := 39, lenMax := 39, fields := ledgerWriteFields }

/-- LEDGER_WRITE: the table governs when its store completes. -/
def ledgerWriteEffect (c : Cmd) (s : State) : State :=
  s.storeFor 0x0407 5 (some (ledgerImage c.payload)) c

def execLedgerWrite (c : Cmd) (s : State) : Result := .next (s.run ledgerWriteInfo c (ledgerWriteEffect c))

/-- Does an enabled reservoir break R237 under a table: more energy than its limit, or no capacitance or divider? -/
def resBad (t : List Byte) (k vSet : Nat) : Bool :=
  ltResMax t k * 512000 < ltResC t k * vSet * vSet * 289 || ltResC t k = 0 || ltResDiv t k = 0

/-- Reservoirs that a table makes non-compliant are disabled.
DEDUCED, unsafe (log 78). -/
def checkReservoirs (t : List Byte) (l : List Reservoir) : List Reservoir :=
  l.zipIdx.map fun x =>
    if x.1.enabled && resBad t x.2 x.1.vSet then { x.1 with enabled := false, ctl := false, refused := true } else x.1

/-- An emitter whose row of the table permits no emission goes dark: its direct play ends, and none of its shots fires (R234).
DEDUCED, unsafe (log 75). -/
def State.forbidEmitter (s : State) (e : Nat) : State :=
  if rowEmits s.emission.table e then s
  else ((s.endDirect e stFaultEmission 3).parkOutput e).dropShotsOf e .slotOver

/-- A ledger table governs (R227, R234, R235, R237, R435).
DEDUCED, unsafe (log 74). -/
def State.installLedger (t : List Byte) (gen : Nat) (s : State) : State :=
  let s := s.settleAll
  let old := s.emission.table
  let s := s.onHealth fun h =>
    { h with eff := h.eff.zipIdx.map fun x => if ltScale old x.2 == ltScale t x.2 then x.1 else { x.1 with baseline := none } }
  let s := s.onEmission fun m =>
    { m with table := t, tableValid := true, tableGen := gen, reservoirs := checkReservoirs t m.reservoirs }
  let s := (List.range 16).foldl State.forbidEmitter s.refreshSlots
  if s.tableUsable then s.tryClearLedger else s.registerLedger 0xFF 0

/-! ## Reading the ledger and emission status (R241, Table 8.8) -/

/-- A level as a fraction of its effective limit, LSB 2^-16, saturating; a free value where the limit is 0.
DESIGN CHOICE, safe (log 76). -/
def State.levelField (r w level : Nat) (s : State) : Nat :=
  let l := ltLimit s.emission.table r w * (256 - s.emission.headroom)
  if l = 0 then s.freeValue % 2 ^ 32 else min (2 ^ 32 - 1) (level * 65536 * 256 / l)

/-- The four levels of a row. -/
def State.levelRow (r : Nat) (s : State) : List Byte :=
  le 4 (if r = 16 then 0 else if (s.emitter r).pulse = 0 then 0 else s.levelField r 0 (s.emitter r).pulse) ++
  ([1, 2, 3].map fun w => le 4 (s.levelField r w (s.level r w))).flatten

def ledgerReadInfo : OpInfo :=
  { code := 0x0408, lenMin := 1, lenMax := 1, unseqOk := fun _ => true,
    fields := fun c _ => firstFail [chk (1 < u8 c.payload 0) 0, rsvd c.payload 1 15] }

/-- LEDGER_READ. -/
def ledgerReadEffect (c : Cmd) (s : State) : State :=
  let s := s.settleAll
  let g := s.emission.tableGen
  if u8 c.payload 0 = 0 then s.finish 0x0408 c stOk 0 g s.emission.table
  else
    let d := fit 16 (le 4 g ++ le 1 s.emission.headroom) ++ ((List.range 17).map fun r => s.levelRow r).flatten
    (s.finish 0x0408 c stOk 0 g d).freeNext

def execLedgerRead (c : Cmd) (s : State) : Result := .next (s.run ledgerReadInfo c (ledgerReadEffect c))

/-- RES_STATE of a reservoir. -/
def Reservoir.stateByte (r : Reservoir) : Nat := flagsOf [r.enabled, r.ctl, r.resOver, r.refused, r.low]

/-- EMITTER_STATE. -/
def State.emitterState (e : Nat) (s : State) : Nat :=
  let x := s.emitter e
  let direct : Bool := match x.out with
    | .direct .. => true
    | _ => false
  flagsOf [x.short, x.slotEcc, x.faulted, x.range2, x.fade.any fun f => decide (0 < f.i), direct,
           (s.power.repair.coreFor.getD e none).any fun k => decide (16 ≤ k), s.sets.active.namesEmitter e]

/-- Table 8.8. -/
def State.emitStatus (s : State) : List Byte :=
  let m := s.emission
  le 1 s.inhibitLive ++ le 1 (flagsOf [m.enA, m.enB, m.enDiscrepancy]) ++ le 2 s.emitFlags ++ le 1 m.ledgerRow ++
  le 1 m.ledgerWindow ++ le 2 m.headroom ++ le 4 m.exhaustTotal ++ le 4 m.slotOverTotal ++ le 4 m.faultSkipTotal ++
  (m.reservoirs.map fun r => le 1 r.stateByte).flatten ++ (m.reservoirs.map fun r => le 2 r.volt).flatten ++
  ((List.range 16).map fun e => le 2 (s.emitterState e)).flatten

def emitStatusInfo : OpInfo :=
  { code := 0x040A, lenMin := 1, lenMax := 1, unseqOk := fun p => u16 p 0 == 0 && u16 p 2 == 0,
    fields := fun c _ => firstFail [maskChk c.payload 0 0x170, rsvd c.payload 4 12] }

/-- Does a failed core drive the output? Without a spare its emitter stays FAULTED (R442). -/
def State.coreGone (e : Nat) (s : State) : Bool :=
  (s.power.repair.coreFor.getD e none).any s.power.repair.badCore.contains

/-- What the masks of EMIT_STATUS clear. -/
def State.clearEmission (mask emitters : Nat) (s : State) : State :=
  let s := s.onEmission fun m =>
    let rs := if bit mask 6 then m.reservoirs.map fun r => if r.volt < r.vSet then { r with resOver := false } else r
              else m.reservoirs
    { m with ledgerSeen := m.ledgerSeen && !bit mask 4, slotOverSeen := m.slotOverSeen && !bit mask 5,
             reservoirs := rs, resOverSeen := m.resOverSeen && (!bit mask 6 || rs.any (·.resOver)),
             unlock := { m.unlock with failSeen := m.unlock.failSeen && !bit mask 8 } }
  let s := (maskBits 16 emitters).foldl (fun s e => (s.onEmitter e fun x =>
    { x with short := false, slotEcc := false, faulted := x.faulted && s.coreGone e }).onHealth fun h =>
      { h with extShort := h.extShort.set e false }) s
  s.tryClearLedger

/-- EMIT_STATUS (R223, R241). -/
def emitStatusEffect (c : Cmd) (s : State) : State :=
  let s := s.clearEmission (u16 c.payload 0) (u16 c.payload 2)
  s.finish 0x040A c stOk 0 s.inhibitLive s.emitStatus

def execEmitStatus (c : Cmd) (s : State) : Result := .next (s.run emitStatusInfo c (emitStatusEffect c))

/-! ## Enable inputs (R232) -/

/-- An instant kept while a condition holds. -/
def sinceWhen (c : Bool) (now : Nat) (old : Option Nat) : Option Nat := if c then some (old.getD now) else none

/-- The level that an input is registered at: a level shorter than 50 ns never is, and registration jitters by 25 ns, so that two changes
of an
input are registered 25 ns or more apart (R232, R473).
DEDUCED, unsafe (log 156). -/
def State.enRegistered (old new : Bool) (at_ : Option Nat) (s : State) : Bool :=
  if new != old && !(at_.all fun t => s.since t 32) then old else new

/-- EMIT_EN_EDGE: the levels as registered. -/
def emitEnEdge (a b : Bool) (s : State) : State :=
  let now := s.now
  let m := s.emission
  let a := s.enRegistered m.enA a m.enAtA
  let b := s.enRegistered m.enB b m.enAtB
  let s := s.onEmission fun m =>
    { m with enA := a, enB := b, enHighSince := sinceWhen (a && b) now m.enHighSince,
             enLowSince := sinceWhen (!a && !b) now m.enLowSince, enDiffSince := sinceWhen (a != b) now m.enDiffSince,
             enAtA := if a = m.enA then m.enAtA else some now, enAtB := if b = m.enB then m.enAtB else some now }
  if s.emission.enEval && !(a && b) then s.registerCause causeEmitEn else s

def execEmitEnEdge (a b : Bool) (s : State) : Result := .next (emitEnEdge a b s)

/-- Has a condition held for `d` ticks? -/
def State.heldFor (t : Option Nat) (d : Nat) (s : State) : Bool := t.any fun t => s.since t d

/-- EMIT_EN_CLEAR: both inputs high for 10 ms. -/
def emitEnClear (s : State) : State :=
  if s.emission.enEval && s.heldFor s.emission.enHighSince (ms 10) && !s.emission.enDiscrepancy &&
     s.causeSet causeEmitEn then s.clearCause causeEmitEn else s

def execEmitEnClear (s : State) : Result := .next (emitEnClear s)

/-- EN_DISCREPANCY: the inputs have differed for 50 ms. -/
def enDiscrepancy (s : State) : State :=
  if s.emission.enEval && s.heldFor s.emission.enDiffSince (ms 50) then
    s.onEmission fun m => { m with enDiscrepancy := true } else s

def execEnDiscrepancy (s : State) : Result := .next (enDiscrepancy s)

/-- EN_DISCREPANCY_CLEAR: both inputs low for 10 ms. -/
def enDiscrepancyClear (s : State) : State :=
  if s.heldFor s.emission.enLowSince (ms 10) then s.onEmission fun m => { m with enDiscrepancy := false } else s

def execEnDiscrepancyClear (s : State) : Result := .next (enDiscrepancyClear s)

/-! ## Scan speed (R233) -/

/-- SPEED_LOW_CLEAR: 64 consecutive updates at or above 65/64 of the minimum. -/
def speedLowClear (s : State) : State :=
  if 64 ≤ s.emission.speedCount && s.causeSet causeSpeed then s.clearCause causeSpeed else s

def execSpeedLowClear (s : State) : Result := .next (speedLowClear s)

/-! ## Reservoirs (R237, R238) -/

def State.onReservoir (k : Nat) (f : Reservoir → Reservoir) (s : State) : State :=
  s.onEmission fun m => { m with reservoirs := m.reservoirs.modify k f }

def State.reservoir (k : Nat) (s : State) : Reservoir := s.emission.reservoirs.getD k Reservoir.reset

def resConfigInfo : OpInfo :=
  { code := 0x0409, lenMin := 1, lenMax := 1,
    fields := fun c s =>
      let p := c.payload
      firstFail [chk (3 < u8 p 0) 0, rsvdBits p 1 1, chk (2000 < u16 p 2) 2, rsvd p 4 12,
                 chk (bit (u8 p 1) 0 && resBad s.emission.table (u8 p 0) (u16 p 2)) 0] }

/-- RES_CONFIG.
DEDUCED, unsafe (log 78). -/
def resConfigEffect (c : Cmd) (s : State) : State :=
  let p := c.payload
  let on := bit (u8 p 1) 0
  (s.onReservoir (u8 p 0) fun r =>
    { r with enabled := on, vSet := u16 p 2, ctl := r.ctl && on, refused := r.refused && !on, low := r.low && !on,
             overSince := none, lowSince := none }).done 0x0409 c 0

def execResConfig (c : Cmd) (s : State) : Result := .next (s.run resConfigInfo c (resConfigEffect c))

/-- RES_MON_SAMPLE: the pin voltage in mV; the reservoir's is that times RES_DIV / 16. Volts stand here in 1/1600 of
0.1 V. -/
def resMonSample (k mv : Nat) (s : State) : State :=
  let v := mv * ltResDiv s.emission.table k
  let now := s.now
  let r := s.reservoir k
  let set := 1600 * r.vSet
  let ctl := r.enabled && !r.resOver && (if set ≤ v then false else if v * 64 < set * 63 then true else r.ctl)
  s.onReservoir k fun r =>
    { r with volt := v / 1600, ctl := ctl, overSince := sinceWhen (decide (set * 17 < v * 16)) now r.overSince,
             lowSince := sinceWhen (ctl && decide (v * 4 < set * 3)) now r.lowSince }

def execResMonSample (reservoir millivolts : Nat) (s : State) : Result := .next (resMonSample reservoir millivolts s)

/-- RES_OVER: above the trip for 10 µs. -/
def resOver (k : Nat) (s : State) : State :=
  if s.heldFor (s.reservoir k).overSince (us 10) && !(s.reservoir k).resOver then
    ((s.onReservoir k fun r => { r with ctl := false, resOver := true }).onEmission
      fun m => { m with resOverSeen := true }).registerLedger 0xFE 0
  else s

def execResOver (reservoir : Nat) (s : State) : Result := .next (resOver reservoir s)

/-- RES_LOW: below three quarters of V_SET for 10 ms while charging. -/
def resLow (k : Nat) (s : State) : State :=
  if s.heldFor (s.reservoir k).lowSince (ms 10) then s.onReservoir k fun r => { r with low := true } else s

def execResLow (reservoir : Nat) (s : State) : Result := .next (resLow reservoir s)

end Sys2Proof.Machine
end

