-- ==== Sys2Proof/Machine/Domains.lean ====
section
/-!
DEFINITION. Which switched power domains the sets refer to (R26, Table 1.6), what their waking and sleeping means for
channels and emitter outputs (Table 9.4, R28), and the meanings of the domain and pace events (R18, R26, R27, R466).
-/
namespace Sys2Proof.Machine

/-- Is a domain one that views refer to? The others are kept awake by their functions. -/
def ofViews : Domain → Bool
  | .tileFabric _ | .tileSram _ | .cluster _ | .engine _ | .emitterDac _ => true
  | _ => false

/-- Wakes are requested for what a set newly refers to; the rest counts the time since its last reference. -/
def State.refreshDomains (s : State) : State :=
  let need := s.domainsNeeded
  let now := s.now
  let kept := s.power.domains.map fun x =>
    { x with idleSince := if need.contains x.dom || !ofViews x.dom then none else some (x.idleSince.getD now) }
  let new := (need.filter fun d => !(s.power.domains.any (·.dom == d))).eraseDups
  s.onPower fun p =>
    { p with domains := kept ++ new.map fun d => { dom := d, phase := .requested, idleSince := none } }

/-! ## Channels and outputs -/

/-- The state of a channel (Table 9.4). -/
def State.rxStateOf (ch : Nat) (s : State) : RxState :=
  if (s.channel ch).st == .outOfService then .outOfService
  else if !s.awake (.cluster (clusterOf (s.feOf ch))) then .off
  else if s.sets.active.namesChannel ch then .active else .standby

def State.refreshChannels (s : State) : State :=
  (List.range 192).foldl (fun s ch => let st := s.rxStateOf ch; s.onChannel ch fun c => { c with st := st }) s

/-- The output that a core serves. -/
def State.outputOf (core : Nat) (s : State) : Option Nat := s.power.repair.coreFor.findIdx? (· == some core)

/-- A core leaves its hold state for the park code it drives. -/
def Output.awaken : Output → Output
  | .hold c => .park c
  | o => o

/-! ## Lanes of a cluster -/

/-- Calibration lanes of a cluster: its own, and with cluster 2 of a tile those of the spares. -/
def clusterLanes (k : Nat) : List Nat :=
  if k % 3 = 2 then [5 * (k / 3) + 2, 5 * (k / 3) + 3, 5 * (k / 3) + 4] else [5 * (k / 3) + k % 3]

/-- Does a lane serve any channel, or that of a spare on its way to one? -/
def State.laneServes (n : Nat) (s : State) : Bool :=
  ((List.range 192).any fun ch => s.laneOf ch == n) ||
  s.returns.channels.any fun c => c.pendingSlot.any fun fe => laneOfFe fe == n

/-- Lanes go unpowered with their cluster. -/
def State.laneOff (s : State) (n : Nat) : State :=
  s.onLane n fun l => if l.failed then l else
    { l with inUse := false, ready := false, warm := none, consec := 0, last := none, waits := [] }

/-! ## Events -/

/-- DOMAIN_WAKE_START (R466): a requested domain starts its wake, 1.25 µs or more after the one before. -/
def domainWakeStart (d : Domain) (s : State) : State :=
  match s.domain d with
  | some x =>
    if x.phase == .requested && (s.power.lastWake.all fun t => s.since t 1600) then
      let now := s.now
      (s.onDomain d fun x => { x with phase := .waking now }).onPower fun p => { p with lastWake := some now }
    else s
  | none => s

def execDomainWakeStart (dom : Domain) (s : State) : Result := .next (domainWakeStart dom s)

/-- What the waking of a domain starts: a cluster's lanes warm up (R113), a core leaves its hold state (R28). -/
def State.domainUp (d : Domain) (s : State) : State :=
  match d with
  | .cluster k =>
    (((clusterLanes k).filter fun n => s.laneServes n && !(s.lane n).failed).foldl State.warmLane s).refreshChannels
  | .emitterDac k => match s.outputOf k with
    | some e => s.onEmitter e fun x => { x with out := x.out.awaken }
    | none => s
  | _ => s

/-- DOMAIN_SETTLED (R26). -/
def domainSettled (d : Domain) (s : State) : State :=
  match s.domain d with
  | some x => match x.phase with
    | .waking _ => (s.onDomain d fun x => { x with phase := .awake }).domainUp d
    | _ => s
  | none => s

def execDomainSettled (dom : Domain) (s : State) : Result := .next (domainSettled dom s)

/-- Does a running maintenance activity hold a domain?
DEDUCED, safe (log 35). -/
def State.maintained (d : Domain) (s : State) : Bool :=
  let tile (t : Nat) : Bool := s.health.running.any (·.scope == t)
  match d with
  | .tileFabric t | .tileSram t => tile t
  | .cluster k => tile (k / 3)
  | .engine g => tile (g / 18)
  | .emitterDac k => s.health.running.any fun a => a.scope == scopeHalf (if k < 16 then k / 8 else k - 16)
  | _ => false

/-- What the sleep of a domain ends: a cluster's channels are OFF; the core of an output goes into its hold state. -/
def State.domainDown (d : Domain) (s : State) : State :=
  match d with
  | .cluster k => ((clusterLanes k).foldl State.laneOff s).refreshChannels
  | .emitterDac k => match s.outputOf k with
    | some e => s.holdOutput e
    | none => s
  | _ => s

/-- Does a core play a direct code? Its domain stays awake for that (R221).
DEDUCED, safe (log 35). -/
def State.playsDirect (d : Domain) (s : State) : Bool :=
  match d with
  | .emitterDac k => (s.outputOf k).any fun e => match (s.emitter e).out with
    | .direct .. => true
    | _ => false
  | _ => false

/-- The domains that stay powered in Pavane (R415). -/
def staysPowered : Domain → Bool
  | .emitterDac _ | .excDac | .galvoDac | .phy _ | .network | .supervisor _ => true
  | _ => false

/-- May an awake domain sleep: 1 ms after neither set refers to it, or as Pavane powers it down (R26, R415)?
DEDUCED, safe (log 35). -/
def State.maySleep (d : Domain) (x : DomainState) (s : State) : Bool :=
  (s.power.poweredDown && !staysPowered d) || (s.heldFor x.idleSince (ms 1) && !s.maintained d && !s.playsDirect d)

/-- DOMAIN_SLEEP (R26, R466): successive sleeps start 1.25 µs apart. -/
def domainSleep (d : Domain) (s : State) : State :=
  match s.domain d with
  | some x =>
    if x.phase == .awake && s.maySleep d x && (s.power.lastSleep.all fun t => s.since t 1600) then
      let now := s.now
      (s.onPower fun p => { p with domains := p.domains.filter (·.dom != d), lastSleep := some now }).domainDown d
    else s
  | none => s

def execDomainSleep (dom : Domain) (s : State) : Result := .next (domainSleep dom s)

/-! ## Pace (R18, R27, R190, R191) -/

def State.onPace (t : Nat) (f : TilePace → TilePace) (s : State) : State :=
  s.onPower fun p => { p with tiles := p.tiles.modify t f }

def State.pace (t : Nat) (s : State) : TilePace := s.power.tiles.getD t TilePace.reset

/-- The tile pace.
DESIGN CHOICE, unsafe (log 34). -/
def TilePace.pace (p : TilePace) : Nat := min p.paceA p.paceB

/-- The pace a tile must keep: the admitted load with the configured margin (R19, R27), in handshakes per µs.
DESIGN CHOICE, unsafe (log 34). -/
def State.paceNeed (t : Nat) (s : State) : Nat :=
  ceilDiv (s.sched.load.getD t 0 * 256) (pos (256 - s.sets.active.paceMargin))

/-- One tile's gate: counts over 5 µs; PACE_FULL follows at 0.85 V; a pace below the need raises the voltage.
DESIGN CHOICE, unsafe (log 34). -/
def State.tileGate (a b t : Nat) (s : State) : State :=
  let s := s.onPace t fun p =>
    let p := { p with paceA := a, paceB := b }
    { p with paceFull := if p.mv = 850 then p.pace else p.paceFull }
  if (s.pace t).pace < s.paceNeed t then s.onPace t fun p => { p with mv := min 850 (p.mv + 10) } else s

/-- PACE_FULL of every tile is measured at 0.85 V (R190): a tile that stands there shows its pace, and what another shows there the
spec does not say.
DESIGN CHOICE, safe (log 8). -/
def State.measurePace (s : State) : State :=
  let v := s.freeValue
  s.freeNext.onPower fun p =>
    { p with tiles := p.tiles.zipIdx.map fun x =>
        { x.1 with paceFull := if x.1.mv = 850 then x.1.pace else v / 2 ^ (16 * x.2) % 2 ^ 16 } }

/-- PACE_SHORT: a tile's pace is below its load (R191). -/
def State.paceShort (s : State) : Bool := (List.range 8).any fun t => decide ((s.pace t).pace < s.sched.load.getD t 0)

/-- The device pace: the lowest tile pace (R18). -/
def State.devicePace (s : State) : Nat := ((List.range 8).map fun t => (s.pace t).pace).foldl min ((s.pace 0).pace)

/-- The device pace goes to Minuet and to the health monitors (R18).
DEDUCED, safe (log 129). -/
def State.deliverPace (s : State) : State :=
  let p := s.devicePace
  (s.onSched fun k => { k with devicePace := p }).onHealth fun h => { h with devicePace := p }

/-- PACE_GATE: the handshakes each line of each tile made in 5 µs. -/
def paceGate (as bs : List Nat) (s : State) : State :=
  let s := (List.range 8).foldl (fun s t => (s.tileGate (as.getD t 0 / 5) (bs.getD t 0 / 5) t)) s
  let s := s.deliverPace.refreshPlan
  let short := s.paceShort
  s.onSched fun k => { k with paceShort := k.paceShort || short }

def execPaceGate (countsA countsB : List Nat) (s : State) : Result := .next (paceGate countsA countsB s)

/-- TILE_VOLTAGE_STEP_DOWN (R27): one step, at most once a millisecond, while the pace exceeds the need by over 5 %. -/
def tileVoltageStepDown (t : Nat) (s : State) : State :=
  let p := s.pace t
  let now := s.now
  if s.paceNeed t * 105 < p.pace * 100 && 650 < p.mv && s.since p.lastStepDown (ms 1) then
    s.onPace t fun p => { p with mv := p.mv - 10, lastStepDown := now }
  else s

def execTileVoltageStepDown (tile : Nat) (s : State) : Result := .next (tileVoltageStepDown tile s)

end Sys2Proof.Machine
end

