-- ==== Sys2Proof/Machine/Admit.lean ====
section
/-!
DEFINITION. Admission of a shadow set (R77, Table 3.4), the checks of a view's binding (R76, R280) and the kernel parameter
blocks with their defaults and ranges (R281).
-/
namespace Sys2Proof.Machine

/-! ## Parameter blocks: library defaults -/

/-- The default block of a kernel. -/
def blockDefault : Nat → List Byte
  | 1 => [0, 1, 0, 0, 0, 0, 0, 0, 1, 1, 1, 1, 1, 1, 1, 1]
  | 2 => fit 1024 ([1, 1] ++ zeros 62 ++ [1])
  | 3 => fit 32 ([2, 4, 4, 0] ++ le 2 64 ++ le 2 256)
  | 4 => peakDefault
  | 5 => fit 32 ([3, 3] ++ le 2 128 ++ le 2 100 ++ le 2 25 ++ [32, 0, 4])
  | 6 => fit 64 ([3, 8, 12, 8] ++ le 2 1024 ++ [4, 2] ++ le 2 64 ++ le 2 512 ++ le 2 64 ++ le 2 8 ++ [6])
  | 7 => fit 128 ([7, 5, 4, 2] ++ le 4 1000 ++ le 4 100000 ++ le 2 82 ++ le 2 246 ++ le 2 164 ++ le 2 48 ++ le 2 1024 ++
      [2] ++ zeros 9 ++ le 4 2000 ++ le 2 16 ++ le 2 82)
  | 8 => zeros 32
  | 9 => fit 32 (le 2 0 ++ le 2 7)
  | _ => []

/-! ### Ranges. A broken field as (first byte, units it spans: 1, or 0 for a rule over several units) -/

/-- Reserved bytes of a block. -/
def blkZero (p : List Byte) (i n : Nat) : List (Bool × Nat × Bool) :=
  match (slice p i n).findIdx? (· != 0) with
  | some k => [(true, i + k, false)]
  | none => []

/-- One field of a block at byte `i`. -/
def blk (bad : Bool) (i : Nat) : List (Bool × Nat × Bool) := [(bad, i, false)]

/-- A rule over fields of several units, or of the binding. -/
def blkRule (bad : Bool) (i : Nat) : List (Bool × Nat × Bool) := [(bad, i, true)]

/-- Reserved bytes of a kernel's block, as (first byte, number) (R7). -/
def blockReserved : Nat → List (Nat × Nat)
  | 1 => [(2, 6)]
  | 2 => [(3, 13), (24, 40), (576, 448)]
  | 3 => [(3, 1), (8, 24)]
  | 4 => [(52, 12)]
  | 5 => [(11, 21)]
  | 6 => [(17, 47)]
  | 7 => [(23, 9), (40, 88)]
  | 8 | 9 => [(4, 28)]
  | _ => []

/-- Bits of byte 0 of a kernel's block that are not reserved, where it holds flags. -/
def blockFlagBits : Nat → Option Nat
  | 1 | 5 | 6 => some 2
  | 7 => some 3
  | 8 => some 1
  | _ => none

def accumChecks (v : ViewDef) (p : List Byte) : List (Bool × Nat × Bool) :=
  let m := u8 p 1
  blk (4 ≤ u8 p 0 || (bit (u8 p 0) 1 && 4096 < v.bins)) 0 ++
  blk (m = 0 || 16 < m || v.cellCount % pos m ≠ 0 || (m ≠ 1 && (v.posOf 8).isSome)) 1 ++ blkZero p 2 6

/-- Do the descriptor fields of an entry leave 1 to 65535 (R322)? -/
def corrFieldsBad (len shift : Nat) (taps : List Nat) : Bool :=
  let l := taps.take len
  let s := l.foldl (· + ·) 0
  let q := (l.map fun x => x * x).foldl (· + ·) 0
  let bad (n : Nat) : Bool := n = 0 || 65535 < n
  bad (256 * s / 2 ^ shift) || bad (256 * q / 2 ^ (2 * shift)) || bad (256 * q / (pos s * 2 ^ shift))

/-- Entry `k` of a K_CORR block: a tap at or beyond REF_LEN is 0 in every entry, the other rules hold of those in use (R322). -/
def corrEntryChecks (p : List Byte) (k : Nat) : List (Bool × Nat × Bool) :=
  let taps := (List.range 64).map fun j => u8 p (64 + 64 * k + j)
  let used := k < u8 p 1
  blk (used && u8 p (64 + 64 * k) = 0) (64 + 64 * k) ++
  ((List.range 64).map fun j => blk (u8 p 0 ≤ j && taps.getD j 0 ≠ 0) (64 + 64 * k + j)).flatten ++
  blkRule (used && corrFieldsBad (u8 p 0) (u8 p 2) taps) (64 + 64 * k)

def corrChecks (p : List Byte) : List (Bool × Nat × Bool) :=
  let n := min 8 (u8 p 1)
  blk (u8 p 0 = 0 || 64 < u8 p 0) 0 ++ blk (u8 p 1 = 0 || 8 < u8 p 1) 1 ++ blk (15 < u8 p 2) 2 ++ blkZero p 3 13 ++
  ((List.range n).map fun k =>
    blk ((List.range k).any fun j => u8 p (16 + j) == u8 p (16 + k)) (16 + k)).flatten ++
  blkZero p 24 40 ++ ((List.range 8).map (corrEntryChecks p)).flatten ++ blkZero p 576 448

def bgsubChecks (v : ViewDef) (p : List Byte) : List (Bool × Nat × Bool) :=
  blk (2 < u8 p 0) 0 ++ blk (u8 p 1 = 0 || 9 < u8 p 1) 1 ++ blk (u8 p 2 = 0) 2 ++ blkZero p 3 1 ++
  blk (v.bins < u16 p 4 + 64) 4 ++ blk (u16 p 6 < 256 || 4096 < u16 p 6) 6 ++ blkZero p 8 24

def peakChecks (v : ViewDef) (p : List Byte) : List (Bool × Nat × Bool) :=
  blk (2 < u8 p 0) 0 ++ blk (u8 p 1 = 0 || 4 < u8 p 1) 1 ++ blk (15 < u8 p 3) 3 ++ blk (2 < u8 p 4) 4 ++
  blk (1 < u8 p 5) 5 ++ blk (u16 p 6 = 0 || 4096 < u16 p 6) 6 ++ blk (1000 < u16 p 8) 8 ++
  blk (decide (s16 p 10 < -10000) || decide (10000 < s16 p 10)) 10 ++
  blk (decide (s16 p 12 < -4000) || decide (12500 < s16 p 12)) 12 ++ blk (u16 p 48 = 0) 48 ++
  blk (v.bins ≤ u16 p 50) 50 ++ blkZero p 52 12

def ambientChecks (p : List Byte) : List (Bool × Nat × Bool) :=
  blk (4 ≤ u8 p 0) 0 ++ blk (8 < u8 p 1) 1 ++ blk (u16 p 2 < 16 || 4096 < u16 p 2) 2 ++
  blk (u16 p 4 < 2 || 500 < u16 p 4) 4 ++ blk (u16 p 6 = 0 || u16 p 4 ≤ u16 p 6) 6 ++ blk (127 < u8 p 8) 8 ++
  blk (decide (0 < s8 p 9)) 9 ++ blk (u8 p 10 = 0) 10 ++ blkZero p 11 21

def rainChecks (v : ViewDef) (p : List Byte) : List (Bool × Nat × Bool) :=
  blk (4 ≤ u8 p 0) 0 ++ blk (u8 p 1 = 0) 1 ++ blk (u8 p 2 = 0 || 64 < u8 p 2) 2 ++ blk (u8 p 3 = 0 || 64 < u8 p 3) 3 ++
  blk (u16 p 4 < 16 || v.bins < u16 p 4) 4 ++ blk (u8 p 6 = 0 || 8 < u8 p 6) 6 ++
  blk (u8 p 7 = 0 || u8 p 6 < u8 p 7) 7 ++ blk (v.bins ≤ u16 p 8) 8 ++
  blk (u16 p 10 < u16 p 8 || v.bins ≤ u16 p 10) 10 ++ blk (u16 p 12 = 0) 12 ++ blk (u16 p 14 = 0) 14 ++
  blk (u8 p 16 = 0 || 64 < u8 p 16) 16 ++ blkZero p 17 47

def foreignChecks (p : List Byte) : List (Bool × Nat × Bool) :=
  let lo (i : Nat) : Bool := u16 p i < 8 || 8191 < u16 p i
  blk (8 ≤ u8 p 0) 0 ++ blk (7 < u8 p 1) 1 ++ blk (u8 p 2 = 0 || 4 < u8 p 2) 2 ++ blk (u8 p 3 = 0 || 64 < u8 p 3) 3 ++
  blk (u32 p 4 < 500 || 51200 < u32 p 4) 4 ++ blk (u32 p 8 < u32 p 4 || 1000000 < u32 p 8) 8 ++ blk (1023 < u16 p 12) 12 ++
  blk (lo 14) 14 ++ blk (lo 16) 16 ++ blk (255 < u16 p 18) 18 ++ blk (4096 < u16 p 20) 20 ++
  blk (u8 p 22 = 0 || 16 < u8 p 22) 22 ++ blkZero p 23 9 ++ blk (u32 p 32 < 1000 || 10000000 < u32 p 32) 32 ++
  blk (u16 p 36 < 3 || 4096 < u16 p 36) 36 ++ blkZero p 40 88

def zoneChecks (p : List Byte) : List (Bool × Nat × Bool) :=
  blk (2 ≤ u8 p 0) 0 ++ blk (15 < u8 p 1) 1 ++ blk (100 < u16 p 2) 2 ++ blkZero p 4 28

def windowChecks (v : ViewDef) (p : List Byte) : List (Bool × Nat × Bool) :=
  blk (v.bins ≤ u16 p 0) 0 ++ blk (u16 p 2 < u16 p 0 || u16 p 0 + 128 ≤ u16 p 2 || v.bins ≤ u16 p 2) 2 ++ blkZero p 4 28

/-- All checks of a kernel's block in a view. -/
def blockChecks (v : ViewDef) (kernel : Nat) (p : List Byte) : List (Bool × Nat × Bool) :=
  match kernel with
  | 1 => accumChecks v p
  | 2 => corrChecks p
  | 3 => bgsubChecks v p
  | 4 => peakChecks v p
  | 5 => ambientChecks p
  | 6 => rainChecks v p
  | 7 => foreignChecks p
  | 8 => zoneChecks p
  | _ => windowChecks v p

/-- The first broken field of a block. -/
def blockBad (v : ViewDef) (kernel : Nat) (p : List Byte) : Option (Nat × Bool) :=
  ((blockChecks v kernel p).find? (·.1)).map (·.2)

/-! ## Chain order (R280, Table 10.5) -/

/-- Does entry `k` of a chain break a rule by its kind or its place? -/
def entryBad (chain : List Nat) (role k : Nat) : Bool :=
  let x := chain.getD k 0
  let before := chain.take k
  let after := chain.drop (k + 1)
  (x = 0 || 9 < x) || (k = 0 && x ≠ 1) || (k ≠ 0 && x = 1) || before.contains x ||
  (x = 3 && !(before.contains 5)) ||
  (x = 2 && before.contains 3) ||
  (x = 9 && (before.contains 2 || before.contains 3)) ||
  ((x = 2 || x = 3 || x = 7 || x = 6) && before.contains 4) ||
  (x = 8 && (!(before.contains 4) || !after.isEmpty || role = 0 || role = 3))

/-- Is a kernel that OUTPUT_ROLE requires absent (rule 8)? -/
def roleBad (chain : List Nat) (role : Nat) : Bool :=
  ((role = 0 || role = 2) && !(chain.contains 4)) || ((role = 1 || role = 2) && !(chain.contains 8))

/-! ## Bindings (R76); unit numbers count from the unit that holds AZ_START -/

/-- The checks of a binding, in field order. -/
def bindingChecks (b : List Byte) : List (Bool × Nat × Nat) :=
  let v : ViewDef := { handle := 0, binding := b, params := [], fire := none }
  let n := v.kernelCount
  let span := v.width * v.cellCount
  [chk (2 ^ 20 ≤ u32 b 0 || (turn < v.azStart + span && (turn - v.azStart) % pos v.width ≠ 0)) 0,
   chk (2 ^ 20 ≤ u32 b 4 || v.width < 64 || 524288 < v.width || turn < span) 4,
   chk (v.cellCount = 0 || 16384 < v.cellCount) 8, chk (v.shots = 0 || 64 < v.shots) 10,
   rsvdBits b 11 2, chk (v.bins < 8 || 8192 < v.bins || v.bins % 8 ≠ 0) 12,
   chk (2 ^ 5 ≤ u8 b 14 || v.maxEchoes = 0 || 4 < v.maxEchoes) 14,
   chk (3 < v.role || (v.role ≤ 3 && roleBad v.chain v.role)) 15,
   chk (decide (v.elevHi < v.elevLo)) 18, chk (v.emitterMask = 0) 20,
   chk (31 < v.stream || ((v.role = 1 || v.role = 3) && v.stream ≠ 0)) 22, rsvd b 23 1,
   chk (if v.role = 1 || v.role = 2 then v.fieldMask = 0 else v.fieldMask ≠ 0) 24, rsvd b 26 6,
   chk (v.channelMask = 0) 32, chk (n = 0 || 8 < n) 56, rsvd b 57 7] ++
  ((List.range n).map fun k => [chk (entryBad v.chain v.role k) (64 + 8 * k), rsvd b (66 + 8 * k) 6]).flatten ++
  [if n % 2 = 1 then rsvd b (64 + 8 * n) 8 else chk false 0]

/-- LENGTH of a binding with its KERNEL_COUNT. -/
def bindingUnits (b : List Byte) : Nat := 4 + ceilDiv (u8 b 56) 2

/-! ## Admission (Table 3.4) -/

/-- Do two spans overlap? -/
def spansMeet (a b : ViewDef) : Bool :=
  let d := (b.azStart + turn - a.azStart) % turn
  d < a.span || turn < d + b.span

/-- Two views of a set that share a channel or an emitter while their spans overlap (R69). -/
def ConfigSet.shares (f : ViewDef → Nat) (c : ConfigSet) : Bool :=
  c.views.zipIdx.any fun x => (c.views.drop (x.2 + 1)).any fun w => f x.1 &&& f w != 0 && spansMeet x.1 w

/-- Bytes of firing-table memory (R77): firing tables, and one unit per payload unit of near-field and field images. -/
def ConfigSet.firingBytes (c : ConfigSet) : Nat :=
  (c.views.map fun v => (v.fire.map List.length).getD 0).foldl (· + ·) 0 +
  (if c.nearWritten then 16 else 0) +
  (c.fields.map fun f => f.2.length).foldl (· + ·) 0

/-- Bytes of parameter memory. -/
def ConfigSet.paramBytes (c : ConfigSet) : Nat :=
  (c.views.map fun v => (v.chain.map blockUnits).foldl (· + ·) 0 * 16).foldl (· + ·) 0

/-- Shot rate conditions of one view (R190). -/
def ViewDef.shotsBad (n ceiling : Nat) (v : ViewDef) : Bool :=
  let r := v.shotRate n
  let dm := fireDitherMax v.table
  let period : Rat := if r = 0 then 0 else 1280000000 / r   -- ticks
  decide ((ceiling : Rat) < r) ||
  (v.entries.any fun f => decide (period ≤ 2 * ((f.offset + dm : Nat) : Rat))) ||
  decide ((period - dm) * ceiling < 1280000000)

/-- The least spacing from an earlier view's last shot to a later view's first of a shared emitter, where their spans
meet, in ticks, against the ceiling.
DEDUCED, unsafe (log 43). -/
def seamBad (n ceiling : Nat) (a b : ViewDef) : Bool :=
  let meets := (a.azStart + a.span) % turn == b.azStart
  let last := a.shotAngle (a.cellCount - 1) (a.shots - 1)
  let gap := (b.shotAngle 0 0 + turn - last) % turn
  let ticks : Rat := mkRat (gap * 80000000) (pos n)   -- 1.28e9 × 2^16 / 2^20 = 8e7
  meets && (a.entries.any fun f => b.entries.any fun g => f.emitter == g.emitter &&
    decide ((ticks + g.offset - f.offset - fireDitherMax a.table) * ceiling < 1280000000))

def ConfigSet.shotsBad (n : Nat) (c : ConfigSet) : Bool :=
  c.views.any (fun v => v.shotsBad n c.emitCeiling) || c.views.any fun a => c.views.any fun b => seamBad n c.emitCeiling a b

/-- BUDGET of a port (Table 14.5). -/
def State.budget (port : Nat) (s : State) : Nat := u16 s.net.config (40 + 2 * port)

/-- Logical engines of a tile that views may hold (R442). -/
def State.tileEngines (t : Nat) (s : State) : Nat :=
  min 16 ((List.range 18).filter fun i => !(s.power.repair.badEngine.contains (t * 18 + i))).length

/-- Is a kernel missing from the library at MIN_MAJOR? -/
def State.kernelMissing (v : ViewDef) (s : State) : Bool :=
  (List.range v.kernelCount).any fun k => s.fabric.libraryMajors.getD (v.kernel k - 1) 0 < v.minMajor k

/-- Views that exist: live ones and those that retire (R68). -/
def State.viewsExist (s : State) : Nat := s.sets.live.length + s.sets.retiring.length

/-- Can Clasp still issue a handle (R71)? -/
def State.claspFree (s : State) : Bool :=
  s.sets.claspGen.zipIdx.any fun x => x.1 < 65535 && !(s.sets.live.any fun h => handleIndex h == x.2)

/-- The first condition of Table 3.4 that a set fails; `new` views are being added to those that exist. -/
def State.admissionCheck (c : ConfigSet) (new : Nat) (s : State) : Verdict :=
  let n := s.admissionSpeed c
  let bad (b : Bool) (d : Nat) : Bool × Nat × Nat := (b, stNoResource, d)
  firstFail ([bad (0 < new && 64 < s.viewsExist + new) 0x01, bad (0 < new && !s.claspFree) 0x02] ++
    ((List.range 8).map fun t => bad (decide (s.tileEngines t <
      (c.views.map fun v => v.enginesIn n t).foldl (· + ·) 0)) (0x10 + t)) ++
    ((List.range 8).map fun t => bad ((c.views.any fun v => !(v.tileChannels t).isEmpty) && s.overloaded c t) (0x20 + t)) ++
    [bad (s.budget 0 < c.portMbps n 0) 0x30, bad (s.budget 1 < c.portMbps n 1) 0x31,
     bad (131072 < c.firingBytes) 0x40, bad (65536 < c.paramBytes) 0x41, bad (c.views.any fun v => s.kernelMissing v) 0x42,
     bad (c.shares ViewDef.channelMask) 0x50, bad (c.shares ViewDef.emitterMask) 0x51, bad (c.shotsBad n) 0x52])

/-! ## Shadow writes and their order (R83, R85) -/

/-- Must a shadow write wait for a swap, or for the copy after it? -/
def State.setsBusy (s : State) : Bool := s.sets.copying || !s.sets.commits.isEmpty || !s.sets.waiting.isEmpty

/-- A check that rests on the shadow set is made when the write runs. -/
def State.ifFree (v : Verdict) (s : State) : Verdict := if s.setsBusy then .ok else v

/-- A shadow write waits in acceptance order, and has not begun. -/
def State.deferSet (op : Nat) (c : Cmd) (s : State) : State :=
  ((s.onSets fun k => { k with waiting := k.waiting ++ [(op, c)] }).setPending .shadowSet c).notBegun c

/-- The effect of a SET-class command, or its place in the order.
DEDUCED, safe (log 36). -/
def State.shadowWrite (op : Nat) (c : Cmd) (eff : State → State) (s : State) : State :=
  if s.setsBusy then s.deferSet op c else eff s

def State.onShadow (f : ConfigSet → ConfigSet) (s : State) : State :=
  (s.onSets fun k => { k with shadow := f k.shadow }).refreshDomains

/-- A shadow write completes. -/
def State.doneSet (op : Nat) (c : Cmd) (result : Nat) (data : List Byte) (s : State) : State :=
  let b := s.block stOk 0 result
  (s.applied .shadowSet c b).finishWith op c b data

end Sys2Proof.Machine
end

