-- ==== Sys2Proof/Machine/Wire.lean ====
section
/-!
DEFINITION. Frames as the MDI pins carry them, from destination address to FCS (R4, R359 to R361): the Ethernet, IP, UDP, ICMP, ARP,
TRDP, PTP and PRP layouts of their standards, in network byte order. The spec names these standards and gives some of their fields;
the rest is the standards' own.
PRESUMED, unsafe (log 97).
-/
namespace Sys2Proof.Machine

/-! ## Internet checksum -/

/-- The sum of a byte string as 16-bit words in network order. -/
def wordSum : List Byte → Nat
  | a :: b :: r => 256 * a.toNat + b.toNat + wordSum r
  | [a] => 256 * a.toNat
  | [] => 0

/-- The ones' complement of the ones' complement sum. -/
def inetCheck (b : List Byte) : Nat :=
  let n := wordSum b
  if n = 0 then 0xFFFF else 0xFFFF - (1 + (n - 1) % 0xFFFF)

/-! ## IP -/

def etherV4 : List Byte := be 2 0x0800
def etherV6 : List Byte := be 2 0x86DD
def protoIcmp : Nat := 1
def protoUdp : Nat := 17
def protoIcmp6 : Nat := 58

/-- Don't Fragment, in the field that holds the fragment's place too. -/
def dontFragment : Nat := 0x4000

/-- An IPv4 packet; `place` holds the flags and the fragment's offset. -/
def ipv4Packet (dscp ident place ttl proto : Nat) (src dst content : List Byte) : List Byte :=
  let head (sum : Nat) : List Byte :=
    [0x45] ++ be 1 (4 * dscp) ++ be 2 (20 + content.length) ++ be 2 ident ++ be 2 place ++ be 1 ttl ++ be 1 proto ++ be 2 sum ++
    fit 4 src ++ fit 4 dst
  head (inetCheck (head 0)) ++ content

/-- An IPv6 packet. -/
def ipv6Packet (dscp hops next : Nat) (src dst content : List Byte) : List Byte :=
  be 4 (6 * 2 ^ 28 + 4 * dscp * 2 ^ 20) ++ be 2 content.length ++ be 1 next ++ be 1 hops ++ fit 16 src ++ fit 16 dst ++ content

/-- What a checksum over IP covers beside the content. -/
def pseudoHead (v6 : Bool) (proto len : Nat) (src dst : List Byte) : List Byte :=
  if v6 then fit 16 src ++ fit 16 dst ++ be 4 len ++ be 4 proto else fit 4 src ++ fit 4 dst ++ be 2 proto ++ be 2 len

/-- A UDP datagram, its checksum always computed (R360). -/
def udpDatagram (v6 : Bool) (src dst : List Byte) (srcPort dstPort : Nat) (payload : List Byte) : List Byte :=
  let head := be 2 srcPort ++ be 2 dstPort ++ be 2 (8 + payload.length)
  let sum := inetCheck (pseudoHead v6 protoUdp (8 + payload.length) src dst ++ head ++ zeros 2 ++ payload)
  head ++ be 2 (if sum = 0 then 0xFFFF else sum) ++ payload

/-- Fragments of a datagram for packets of 1500 bytes: the place field and the content of each, `n` at most. -/
def ipFragments : Nat → Nat → List Byte → List (Nat × List Byte)
  | 0, _, _ => []
  | n + 1, at_, d => if d.length ≤ 1480 then [(at_ / 8, d)] else (0x2000 + at_ / 8, d.take 1480) :: ipFragments n (at_ + 1480) (d.drop 1480)

/-- An IPv4 datagram as one packet, or as fragments when it is longer than one takes. -/
def ipv4Packets (ident ttl proto : Nat) (src dst d : List Byte) : List (List Byte) :=
  (ipFragments (d.length / 1480 + 1) 0 d).map fun x =>
    ipv4Packet 0 (if d.length ≤ 1480 then 0 else ident) x.1 ttl proto src dst x.2

/-! ## ICMP, ARP and neighbour discovery -/

/-- An ICMP echo reply; `rest` is what follows the checksum of the request. -/
def echoReply (v6 : Bool) (src dst rest : List Byte) : List Byte :=
  let first : List Byte := if v6 then [129, 0] else [0, 0]
  let over_ := if v6 then pseudoHead true protoIcmp6 (4 + rest.length) src dst else []
  first ++ be 2 (inetCheck (over_ ++ first ++ zeros 2 ++ rest)) ++ rest

/-- An ARP packet with its EtherType: operation, then hardware and protocol addresses of sender and target. -/
def arpPacket (op : Nat) (mac ip mac' ip' : List Byte) : List Byte :=
  be 2 0x0806 ++ be 2 1 ++ be 2 0x0800 ++ [6, 4] ++ be 2 op ++ fit 6 mac ++ fit 4 ip ++ fit 6 mac' ++ fit 4 ip'

/-- A neighbour solicitation (135) or advertisement (136) of a target, with the sender's link-layer address as its option. -/
def ndMessage (type flags option : Nat) (src dst target mac : List Byte) : List Byte :=
  let rest := be 4 flags ++ fit 16 target ++ be 1 option ++ [1] ++ fit 6 mac
  let first := be 1 type ++ [0]
  let sum := inetCheck (pseudoHead true protoIcmp6 (4 + rest.length) src dst ++ first ++ zeros 2 ++ rest)
  etherV6 ++ ipv6Packet 0 255 protoIcmp6 src dst (first ++ be 2 sum ++ rest)

/-- The solicited-node address of an IPv6 address. -/
def solicitedNode (a : List Byte) : List Byte := [0xFF, 0x02] ++ zeros 9 ++ [1, 0xFF] ++ slice a 13 3

/-- The neighbour solicitation of duplicate address detection: from the unspecified address, without an option (RFC 4862). -/
def dadMessage (target : List Byte) : List Byte :=
  let group := solicitedNode target
  let rest := zeros 4 ++ fit 16 target
  let sum := inetCheck (pseudoHead true protoIcmp6 (4 + rest.length) (zeros 16) group ++ [135, 0] ++ zeros 2 ++ rest)
  etherV6 ++ ipv6Packet 0 255 protoIcmp6 (zeros 16) group ([135, 0] ++ be 2 sum ++ rest)

/-- The MAC address of a multicast address (R369). -/
def multicastMac (v6 : Bool) (a : List Byte) : List Byte :=
  if v6 then [0x33, 0x33] ++ slice a 12 4 else [1, 0, 0x5E] ++ be 1 (u8 a 1 % 128) ++ slice a 2 2

/-! ## TRDP (R366) -/

def trdpPdPort : Nat := 17224
def trdpMdPort : Nat := 17225

/-- The first fields of both headers: sequence counter, version, type, ComId, topology counters and length of the data. -/
def trdpHead (counter type com etb op len : Nat) : List Byte :=
  be 4 counter ++ be 2 0x0100 ++ be 2 type ++ be 4 com ++ be 4 etb ++ be 4 op ++ be 4 len

/-- A header with its check, which stands in it least significant byte first. -/
def trdpChecked (h : List Byte) : List Byte := h ++ le 4 (crc32 h)

/-- A process-data telegram. -/
def trdpPd (counter com etb op : Nat) (dataset : List Byte) : List Byte :=
  trdpChecked (trdpHead counter 0x5064 com etb op dataset.length ++ zeros 12) ++ dataset

/-- A message-data reply, Mp or Mn. -/
def trdpMd (final : Bool) (com etb op : Nat) (session packet : List Byte) : List Byte :=
  trdpChecked (trdpHead 0 (if final then 0x4D6E else 0x4D70) com etb op packet.length ++ be 4 0 ++ fit 16 session ++ be 4 0 ++
    zeros 64) ++ packet

/-! ## PTP (R363) -/

/-- Device time as a PTP timestamp: 48 bits of seconds, 32 of nanoseconds. -/
def ptpStamp (dev : Nat) : List Byte := be 6 (dev / 2 ^ 64) ++ be 4 (dev % 2 ^ 64 * 1000000000 / 2 ^ 64)

/-- The identity of a PTP port: the MAC address widened, and the port's number from 1. -/
def ptpIdentity (mac : List Byte) (p : Nat) : List Byte := slice mac 0 3 ++ [0xFF, 0xFE] ++ slice mac 3 3 ++ be 2 (p + 1)

/-- A PTP message of a profile with its common header. -/
def ptpMessage (profile type domain flags control sequence : Nat) (identity body : List Byte) : List Byte :=
  be 1 (type + (if profile = 1 then 16 else 0)) ++ [0x12] ++ be 2 (34 + body.length) ++ be 1 domain ++ [0] ++ be 2 flags ++ zeros 12 ++
  fit 10 identity ++ be 2 sequence ++ be 1 control ++ [0x7F] ++ body

/-! ## The Ethernet frame -/

/-- A redundancy control trailer (R361): SequenceNr, LanId and LSDUsize, suffix. -/
def prpTrailer (seq lan size : Nat) : List Byte := be 2 seq ++ be 2 (4096 * lan + size % 4096) ++ be 2 0x88FB

/-- A PRP supervision frame with its EtherType (R362). -/
def supervisionBody (seq : Nat) (mac : List Byte) : List Byte :=
  be 2 0x88FB ++ be 2 1 ++ be 2 seq ++ [20, 6] ++ fit 6 mac ++ zeros 2

/-- A frame from destination address to FCS. `tag` is the VLAN tag, whose VID 0 sends it untagged (R359); `rct` gives SequenceNr and
LanId; `body` begins with the EtherType. -/
def wireFrame (dst src : List Byte) (tag : Nat) (rct : Option (Nat × Nat)) (body : List Byte) : List Byte :=
  let head := fit 6 dst ++ fit 6 src ++ (if tag % 4096 = 0 then [] else be 2 0x8100 ++ be 2 tag)
  let body := body ++ zeros (60 - head.length - body.length - (if rct.isSome then 6 else 0))
  let f := head ++ body ++ (match rct with
    | some x => prpTrailer x.1 x.2 (body.length + 4)
    | none => [])
  f ++ le 4 (crc32 f)

end Sys2Proof.Machine
end

