-- ==== Sys2Proof/Machine/NetOps.lean ====
section
/-!
DEFINITION. What the other chapters ask of the backbone ports (chapter 14): the settings' fields, the neighbour cache,
frames queued for both ports (R359, R361), TRDP process and message data (R366), and the check units that fold what passes
(R381, R382).
-/
namespace Sys2Proof.Machine

/-! ## NET_CONFIG and TRDP_CONFIG (Tables 14.5 and 14.7) -/

def ncMac (p : List Byte) : List Byte := slice p 0 6
def ncV4 (p : List Byte) : Bool := bit (u8 p 6) 0
def ncV6 (p : List Byte) : Bool := bit (u8 p 6) 1
def ncIcmp (p : List Byte) : Bool := bit (u8 p 6) 3
def ncPrefix4 (p : List Byte) : Nat := u8 p 7
def ncAddr4 (p : List Byte) : List Byte := slice p 8 4
def ncGate4 (p : List Byte) : List Byte := slice p 12 4
def ncAddr6 (p : List Byte) : List Byte := slice p 16 16
def ncPrefix6 (p : List Byte) : Nat := u8 p 32
def ncProfile (p : List Byte) : Nat := u8 p 33
def ncDomain (p : List Byte) : Nat := u8 p 34
def ncPhy (p : List Byte) : Nat := u8 p 35
def ncTtl (p : List Byte) : Nat := u8 p 36
def ncTag (p : List Byte) : Nat := u16 p 44
def ncVid (p : List Byte) : Nat := u16 p 44 % 4096
def ncGate6 (p : List Byte) : List Byte := slice p 48 16

def tcMd (p : List Byte) : Bool := bit (u8 p 0) 0
def tcZone (p : List Byte) : Bool := bit (u8 p 0) 1
def tcHealth (p : List Byte) : Bool := bit (u8 p 0) 2
def tcMdReq (p : List Byte) : Nat := u32 p 4
def tcMdReply (p : List Byte) : Nat := u32 p 8
def tcMdFinal (p : List Byte) : Nat := u32 p 12
def tcZoneCom (p : List Byte) : Nat := u32 p 16
def tcHealthCom (p : List Byte) : Nat := u32 p 20
/-- DESIGN CHOICE, unsafe (log 158). -/
def tcZoneDest (p : List Byte) : List Byte := slice p 24 4
/-- DESIGN CHOICE, unsafe (log 158). -/
def tcHealthDest (p : List Byte) : List Byte := slice p 28 4
/-- HEALTH_PERIOD in ms. -/
def tcPeriod (p : List Byte) : Nat := u16 p 32
def tcEtb (p : List Byte) : Nat := u32 p 36
def tcOpTrn (p : List Byte) : Nat := u32 p 40

/-- A big-endian number. -/
def beNat (b : List Byte) : Nat := leNat b.reverse

/-- An address in the form of Table 15.4: an IPv4 address in its first four bytes. -/
def addr16 (b : List Byte) : List Byte := fit 16 b

/-! ## Next hops (R358) -/

/-- Do two addresses agree in their first `n` bits? -/
def samePrefix (n : Nat) (a b : List Byte) : Bool :=
  let w := 8 * a.length
  beNat a / 2 ^ (w - n) == beNat b / 2 ^ (w - n)

def isMulticast (v6 : Bool) (a : List Byte) : Bool :=
  if v6 then u8 a 0 == 255 else 224 ≤ u8 a 0 && u8 a 0 < 240

/-- Is an address link-local (IPv6)? -/
def linkLocal (a : List Byte) : Bool := u8 a 0 == 0xFE && u8 a 1 / 64 == 2

/-- Does a unicast destination lie inside its prefix? -/
def inPrefix (net : List Byte) (v6 : Bool) (a : List Byte) : Bool :=
  if v6 then samePrefix (ncPrefix6 net) (slice a 0 16) (ncAddr6 net)
  else samePrefix (ncPrefix4 net) (slice a 0 4) (ncAddr4 net)

/-- The next hop of a unicast destination; none where it lies outside the prefix and there is no gateway. -/
def nextHop (net : List Byte) (v6 : Bool) (a : List Byte) : Option (List Byte) :=
  if inPrefix net v6 a then some (addr16 a)
  else
    let g := if v6 then ncGate6 net else ncGate4 net
    if zeroAt g 0 16 then none else some (addr16 g)

def State.neighbour (a : List Byte) (s : State) : Option Neighbour := s.net.neighbours.find? (·.addr == a)

/-- May a stream's frames leave: its destination is multicast, its MAC address is given, or its next hop is resolved? An IPv6 address that
detection has not cleared is not used (R358, R373); its frames are discarded like unresolved ones.
DEDUCED, unsafe (log 146). -/
def State.resolved (set : List Byte) (s : State) : Bool :=
  let v6 := scV6 set
  (!v6 || s.net.v6Usable) &&
  (isMulticast v6 (scDestIp set) || !zeroAt (scDestMac set) 0 6 ||
  match nextHop s.net.config v6 (scDestIp set) with
  | some h => (s.neighbour h).any (·.mac.isSome)
  | none => false)

/-! ## Frames (R357, R359, R361) -/

/-- Is the network logic powered (Table 16.6)? -/
def State.netPowered (s : State) : Bool := s.power.domains.any fun d => d.dom == .network && d.phase == .awake

/-- Is an address in the form of Table 15.4 one of IPv6? -/
def isV6 (a : List Byte) : Bool := !zeroAt a 4 12

/-- The MAC address that a destination is known by now: a MAC address itself, a multicast address's, or its next hop's. -/
def State.knownMac (dest : List Byte) (s : State) : Option (List Byte) :=
  if dest.length = 6 then some dest
  else if isMulticast (isV6 dest) dest then some (multicastMac (isV6 dest) dest)
  else (nextHop s.net.config (isV6 dest) dest).bind fun h => (s.neighbour h).bind (·.mac)

/-- Queues a frame for the ports it waits for, counting it where a link is down. -/
def State.enqueue (f : TxFrame) (s : State) : State :=
  if !s.netPowered then s else
  let wa := f.waitA && s.linkUp 0
  let wb := f.waitB && s.linkUp 1
  let s := (s.countDown 0 (f.waitA && !wa)).countDown 1 (f.waitB && !wb)
  if wa || wb then s.onNet fun n => { n with tx := n.tx ++ [{ f with waitA := wa, waitB := wb }] } else s

/-- Queues a frame for the ports named, built with the addresses in use. -/
def State.queueFrame (kind : TxKind) (a b : Bool) (dest bytes : List Byte) (s : State) : State :=
  s.enqueue { kind := kind, both := a && b, prp := none, waitA := a, waitB := b, bytes := bytes, dest := dest, src := ncMac s.net.config,
              hop := s.knownMac dest, event := none }

def broadcastMac : List Byte := List.replicate 6 0xFF

/-- Asks for the MAC address of a next hop: an ARP request, or a neighbour solicitation. -/
def State.askNeighbour (v6 : Bool) (a : List Byte) (s : State) : State :=
  let c := s.net.config
  if v6 && !s.net.v6Usable then s
  else if v6 then
    let group := solicitedNode a
    s.queueFrame .neighbour true true (multicastMac true group) (ndMessage 135 0 1 (ncAddr6 c) group a (ncMac c))
  else s.queueFrame .arp true true broadcastMac (arpPacket 1 (ncMac c) (ncAddr4 c) (zeros 6) a)

/-- A next hop without an entry in the cache gets one and is asked for. -/
def State.needNeighbour (v6 : Bool) (a : List Byte) (s : State) : State :=
  if (s.neighbour a).isSome || (v6 && !s.net.v6Usable) then s else
  let now := s.now
  (s.onNet fun n => { n with neighbours := n.neighbours ++ [{ addr := a, mac := none, refreshed := now }] }).askNeighbour
    v6 a

/-! ## Onto the wire (R359 to R361) -/

/-- The unicast next hop of a destination whose MAC address is still unknown. -/
def State.unknownHop (dest : List Byte) (s : State) : Option (List Byte) :=
  if dest.length ≠ 16 || isMulticast (isV6 dest) dest then none else
  (nextHop s.net.config (isV6 dest) dest).filter fun h => !(s.neighbour h).any (·.mac.isSome)

/-- The MAC address that a frame is sent to. -/
def State.macFor (dest : List Byte) (s : State) : List Byte :=
  (s.knownMac dest).getD (Config.unresolvedMac ((nextHop s.net.config (isV6 dest) dest).getD dest))

/-- The trailer's SequenceNr and LanId on a port. -/
def rctOn (p : Nat) (seq : Option Nat) : Option (Nat × Nat) := seq.map fun n => (n, 10 + p)

/-- A frame that is no point frame, on a port: with the management tag, but for 802.1AS, and the addresses that it was built with. -/
def State.frameWire (p : Nat) (f : TxFrame) (seq : Option Nat) (s : State) : List Byte :=
  let c := s.net.config
  wireFrame (f.hop.getD (s.macFor f.dest)) f.src (if f.kind == .ptp && ncProfile c = 1 then 0 else ncTag c) (rctOn p seq) f.bytes

/-- The IP packet of a point frame, with its EtherType (R360). -/
def State.pointPacket (f : EgressFrame) (s : State) : List Byte :=
  let c := s.net.config
  let p := f.settings
  let v6 := scV6 p
  let src := if v6 then ncAddr6 c else ncAddr4 c
  let d := udpDatagram v6 src (scDestIp p) (scSrcPort p) (scDstPort p) f.bytes
  if v6 then etherV6 ++ ipv6Packet (scDscp p) (ncTtl c) protoUdp src (scDestIp p) d
  else etherV4 ++ ipv4Packet (scDscp p) 0 dontFragment (ncTtl c) protoUdp src (scDestIp p) d

/-- A point frame on a port, with the tag of its stream. -/
def State.pointWire (p : Nat) (f : EgressFrame) (seq : Option Nat) (s : State) : List Byte :=
  let set := f.settings
  let dst := if zeroAt (scDestMac set) 0 6 then s.macFor (scDestIp set) else scDestMac set
  wireFrame dst (ncMac s.net.config) (scTag set) (rctOn p seq) (s.pointPacket f)

/-! ## PTP messages (R363, R364) -/

def State.onPtp (p : Nat) (f : PtpPort → PtpPort) (s : State) : State := s.onPort p fun x => { x with ptp := f x.ptp }
def State.ptp (p : Nat) (s : State) : PtpPort := (s.port p).ptp

/-- The PTP multicast address of a profile (Table 14.2). -/
def ptpMac (profile : Nat) : List Byte :=
  if profile = 1 then [0x01, 0x80, 0xC2, 0x00, 0x00, 0x0E] else [0x01, 0x00, 0x5E, 0x00, 0x01, 0x81]

/-- Device time at the MDI of a port as an event message leaves there now: the PHY's stamp, corrected by the port's egress latency. -/
def State.egressStamp (p : Nat) (s : State) : Nat := s.clk.devTime + Config.egressLatency p

/-- Device time at the MDI as an event message came that the PHY stamps now. -/
def State.ingressStamp (p : Nat) (s : State) : Int := (s.clk.devTime : Int) - Config.ingressLatency p

/-- A PTP message goes out on a port: over Ethernet with profile 1, over UDP with profile 2 (Table 14.2). `event` names a message whose
departure is stamped. -/
def State.sendPtp (p type flags control sequence : Nat) (body : List Byte) (event : Option PtpEvent) (s : State) : State :=
  let c := s.net.config
  let m := ptpMessage (ncProfile c) type (ncDomain c) flags control sequence (ptpIdentity (ncMac c) p) body
  let group : List Byte := [224, 0, 1, 129]
  let port := if type < 8 then 319 else 320
  let bytes :=
    if ncProfile c = 1 then be 2 0x88F7 ++ m
    else etherV4 ++ ipv4Packet 0 0 0 (ncTtl c) protoUdp (ncAddr4 c) group (udpDatagram false (ncAddr4 c) group port port m)
  s.enqueue { kind := .ptp, both := false, prp := none, waitA := p == 0, waitB := p == 1, bytes := bytes, dest := ptpMac (ncProfile c),
              src := ncMac c, hop := some (ptpMac (ncProfile c)), event := event }

/-- What the departure of an event message does: a request's time is kept; a response is followed up with its own. -/
def State.ptpDeparts (p : Nat) (f : TxFrame) (s : State) : State :=
  let t := s.egressStamp p
  match f.event with
  | none => s
  | some (.request n) => s.onPtp p fun x => { x with asked := some (n, t), answer := none }
  | some (.response n who) => s.sendPtp p 10 0 5 n (ptpStamp t ++ fit 10 who) none

/-- A Delay_Req (type 1) or Pdelay_Req (type 2), with the port's next sequenceId. -/
def State.sendRequest (p type : Nat) (s : State) : State :=
  let n := (s.ptp p).delaySeq
  (s.sendPtp p type 0 (if type = 1 then 1 else 5) n (zeros (if type = 1 then 10 else 20)) (some (.request n))).onPtp p fun x =>
    { x with delaySeq := wrap 16 (x.delaySeq + 1) }

/-- Pdelay_Resp: when the request came; its own departure follows it. -/
def State.sendPdelay (p sequence : Nat) (requester : List Byte) (s : State) : State :=
  s.sendPtp p 3 0x0200 5 sequence (ptpStamp (s.ingressStamp p).toNat ++ fit 10 requester) (some (.response sequence (fit 10 requester)))

/-- With profile 1 a port asks its peer for the link delay every second.
PRESUMED, unsafe (log 145). -/
def State.askPeer (s : State) (p : Nat) : State :=
  if s.netPowered && s.linkUp p && ncProfile s.net.config = 1 && ((s.ptp p).askedAt.all fun t => s.since t (sec 1)) then
    let now := s.now
    (s.sendRequest p 2).onPtp p fun x => { x with askedAt := some now }
  else s

/-! ## New addresses (R373) -/

/-- Bytes of NET_CONFIG that take effect after the final reply: the addresses, their prefixes, gateways and enables. -/
def keepAddresses (old new : List Byte) : List Byte :=
  patch (patch new 0 (slice old 0 33)) 48 (slice old 48 16)

/-- The addresses of a NET_CONFIG govern, and the neighbour cache is flushed.
DEDUCED, unsafe (log 93). -/
def State.installNet (w : NetWait) (s : State) : State :=
  s.onNet fun n =>
    { n with config := w.newImage, wait := none,
             v6Usable := w.v6, dad := n.dad && (w.dad || ncAddr6 n.config == ncAddr6 w.newImage) && ncV6 w.newImage,
             neighbours := if keepAddresses n.config w.newImage == w.newImage then n.neighbours else [] }

/-- Is a reply the final one of a NET_CONFIG whose addresses wait for it? -/
def NetWait.answeredBy (r : Reply) (w : NetWait) : Bool :=
  w.answered && r.final && r.holdsTag && r.opcode == 0x0801 && r.queue == w.cmd.queue && r.seq == w.cmd.seq && r.tag == w.cmd.tag

/-- The reply has left: the addresses that wait for it govern. -/
def State.netSent (r : Reply) (s : State) : State :=
  match s.net.wait with
  | some w => if w.answeredBy r then s.installNet w else s
  | none => s

/-- The solicitation of duplicate address detection goes out once a link is up (R358).
DEDUCED, unsafe (log 146). -/
def State.sendProbe (s : State) : State :=
  let a := ncAddr6 ((s.net.wait.map (·.newImage)).getD s.net.config)
  if s.net.probe && (s.linkUp 0 || s.linkUp 1) then
    (s.queueFrame .neighbour true true (multicastMac true (solicitedNode a)) (dadMessage a)).onNet fun n => { n with probe := false }
  else s

/-! ## TRDP (R366, R367) -/

/-- The sequenceCounter that the next telegram of a ComId carries.
DEDUCED, unsafe (log 96). -/
def State.pdCounter (com : Nat) (s : State) : Nat := ((s.net.pdCounters.find? (·.1 == com)).map (·.2)).getD 0

/-- A process-data telegram of a ComId: its counter, ComId, topology counters and dataset. The counter advances.
PRESUMED, unsafe (log 97). -/
def State.sendPd (kind : TxKind) (com : Nat) (dest dataset : List Byte) (s : State) : State :=
  let n := s.pdCounter com
  let t := s.net.trdp
  let c := s.net.config
  let d := udpDatagram false (ncAddr4 c) dest trdpPdPort trdpPdPort (trdpPd n com (tcEtb t) (tcOpTrn t) dataset)
  let s := s.queueFrame kind true true (addr16 dest) (etherV4 ++ ipv4Packet 0 0 0 (ncTtl c) protoUdp (ncAddr4 c) dest d)
  s.onNet fun k => { k with pdCounters := k.pdCounters.filter (·.1 != com) ++ [(com, wrap 32 (n + 1))] }

/-- A message-data reply (`final`: Mn, else Mp) on its way to the requester: ComId, topology counters, session and the
packet, in fragments where one frame does not take it (R59, R367).
DESIGN CHOICE, safe (log 20); PRESUMED, unsafe (log 97). -/
def State.sendMd (final : Bool) (r : Route) (packet : List Byte) (s : State) : State :=
  let t := s.net.trdp
  let c := s.net.config
  let dst := be 4 r.addr
  let d := udpDatagram false (ncAddr4 c) dst trdpMdPort r.port
    (trdpMd final (if final then tcMdFinal t else tcMdReply t) (tcEtb t) (tcOpTrn t) r.session packet)
  let l := ipv4Packets s.net.ipIdent (ncTtl c) protoUdp (ncAddr4 c) dst d
  let s := l.foldl (fun s b => s.queueFrame .messageData true true (addr16 dst) (etherV4 ++ b)) s
  if l.length ≤ 1 then s else s.onNet fun n => { n with ipIdent := wrap 16 (n.ipIdent + 1) }

end Sys2Proof.Machine
end

