-- ==== Sys2Proof/Machine/Delivery.lean ====
section
/-!
DEFINITION. What a transport's taking of a reply ends (R41, R394), and the replies that leave as TRDP message data (R59).
-/
namespace Sys2Proof.Machine

/-- A final reply that holds its tag has been taken: the tag is free, the live entry's space too, and of the reply's data
the duplicate record keeps only that there was some (R402). -/
def Queue.release (r : Reply) (k : Queue) : Queue :=
  { k with tags := k.tags.filter (· != r.tag),
           dup := if r.unseq then k.dup else k.dup.map fun d =>
             if d.seq == r.seq && d.trailer == r.trailer then { d with dataDropped := d.dataDropped || !r.data.isEmpty } else d }

/-- Is `l` the entry that a taken final reply retires? -/
def Live.retiredBy (r : Reply) (l : Live) : Bool :=
  !r.unseq && l.state == .done && l.cmd.queue == r.queue && l.cmd.seq == r.seq && l.cmd.tag == r.tag

/-- A reply has been taken by its transport: it waits no more, the two units that made its check values hold it (Table 15.2), and the
addresses of a NET_CONFIG that waited for it govern (R373). -/
def State.taken (r : Reply) (s : State) : State :=
  let s := s.onHost fun h => { h with waiting := h.waiting.erase r }
  let s := ((s.unitItem 6 (r.header.take 14)).unitItem 7 (r.header ++ r.block.bytes ++ r.data)).netSent r
  if !r.final || !r.holdsTag then s else
  (s.onQueue r.queue (Queue.release r)).onJournal fun j => { j with live := j.live.filter fun l => !l.retiredBy r }

/-- May a transport take a reply now: in a warm start, what is owed to accepted commands waits for its release (R398)? -/
def State.mayDeliver (r : Reply) (s : State) : Bool :=
  s.power.phase != .warm || !s.host.journal.live.any fun l => l.cmd.queue == r.queue && l.cmd.seq == r.seq && l.cmd.tag == r.tag

/-- Sends one TRDP reply: an Mp when it is the first for its command, else an Mn. -/
def State.sendReply (s : State) (r : Reply) : State := (s.sendMd (!r.first) r.via.route r.bytes).taken r

/-- The TRDP replies that wait go to the MACs, once a port is up. -/
def State.sendReplies (s : State) : State :=
  if s.netPowered && (s.linkUp 0 || s.linkUp 1) then
    (s.host.waiting.filter fun r => r.via.transport == .trdp && s.mayDeliver r).foldl State.sendReply s
  else s

end Sys2Proof.Machine
end

