-- ==== Sys2Proof/Machine/Net.lean ====
section
/-!
DEFINITION. Meanings of the network chapter (R356 to R379): link events, frames received and sent, neighbours, duplicate
address detection, PRP supervision, reassembly, and the network opcodes. Message data and PTP messages stand in
Machine/Receipt.lean and Machine/Clock.lean.
-/
namespace Sys2Proof.Machine

/-! ## Links (R356, R357) -/

/-- A point frame that no port will send any more is lost, unless a first copy has left (Table 14.10). -/
def State.dropEgress (s : State) : State :=
  let gone (f : EgressFrame) : Bool := !f.waitA && !f.waitB && !f.onA && !f.onB
  let lost := s.fabric.egress.filter fun f => gone f && !f.sent
  let s := lost.foldl (fun s f => s.onStream f.stream fun x => { x with discarded := satInc 32 x.discarded }) s
  s.onFabric fun b => { b with egress := b.egress.filter fun f => !gone f }

/-- Frames that wait for a port, or are on its wire. -/
def State.queuedFor (p : Nat) (s : State) : Nat :=
  (s.net.tx.filter fun f => if p = 0 then f.waitA else f.waitB).length +
  (s.fabric.egress.filter fun f => if p = 0 then f.waitA || f.onA else f.waitB || f.onB).length

/-- Discards what is queued for a port. -/
def State.discardPort (p : Nat) (s : State) : State :=
  let n := s.queuedFor p
  let s := s.onPort p fun x => { x with downDiscard := satAdd 32 x.downDiscard n }
  let s := s.onNet fun k =>
    { k with
      tx := (k.tx.map fun f => if p = 0 then { f with waitA := false } else { f with waitB := false }).filter
        fun f => f.waitA || f.waitB }
  (s.onFabric fun b =>
    { b with egress := b.egress.map fun f =>
        if p = 0 then { f with waitA := false, onA := false } else { f with waitB := false, onB := false } }).dropEgress

/-- A link that was up goes down (R357).
DEDUCED, unsafe (log 96). -/
def State.loseLink (p : Nat) (s : State) : State :=
  if !s.linkUp p then s else
  (s.onPort p fun x => { x with link := .down, lost := true, downCount := satInc 32 x.downCount }).discardPort p

/-- LINK_DOWN. -/
def linkDown (p : Nat) (s : State) : State := s.loseLink p

def execLinkDown (port : Nat) (s : State) : Result := .next (linkDown port s)

/-! ## NET_CONFIG (R373) -/

/-- The image that a network record holds now: that of a NET_CONFIG under way, else the one in use. -/
def State.netImage (s : State) : List Byte := (s.net.wait.map (·.newImage)).getD s.net.config

/-- The network record's number (Table 16.10). -/
def recNetwork : Nat := 0x25

/-- A NET_CONFIG ends with this status: its addresses govern once its reply has left. -/
def State.endNetConfig (st det : Nat) (s : State) : State :=
  match s.net.wait with
  | none => s
  | some w =>
    if w.answered then s
    else (s.finish 0x0801 w.cmd st det 0 []).onNet fun n => { n with wait := some { w with answered := true } }

/-- What a NET_CONFIG waited for is done: it completes, or its store is asked for. -/
def State.netReady (s : State) : State :=
  match s.net.wait with
  | none => s
  | some w =>
    if w.dad || w.answered || w.train.any id then s
    else if bit (u8 w.newImage 6) 2 then s.storeFor 0x0801 recNetwork none w.cmd
    else s.endNetConfig stOk 0

/-- DISABLED, LISTENING and SLAVE in the numbering of portState. -/
def ptpDisabled : Nat := 3
def ptpListening : Nat := 4
def ptpSlave : Nat := 9

/-- The state of a PTP port that follows no master: LISTENING with a profile on and its link up, else as after reset.
DEDUCED, unsafe (log 48). -/
def ptpIdle (profile : Nat) (up : Bool) : Nat := if profile != 0 && up then ptpListening else ptpDisabled

/-- LINK_UP: the port's training ended, with the role it took, its auto-negotiation and its signal quality. A forced role
is that of PHY_CTRL. -/
def linkUp (p : Nat) (master anDone : Bool) (sqi : Nat) (s : State) : State :=
  if 1 < p || s.linkUp p then s else
  let phy := ncPhy s.net.config
  let an := bit phy (2 + p)
  let s := (s.onPort p fun x =>
    { x with link := .up, master := if an then master else bit phy p, anDone := an && anDone, sqi := sqi % 8,
             ptp := if x.ptp.state = ptpDisabled then { x.ptp with state := ptpIdle (ncProfile s.net.config) true } else x.ptp }).sendProbe
  match s.net.wait with
  | some w =>
    if w.train.getD p false then
      (s.onNet fun n => { n with wait := some { w with train := w.train.set p false } }).netReady
    else s
  | none => s

def execLinkUp (port : Nat) (master anDone : Bool) (sqi : Nat) (s : State) : Result :=
  .next (linkUp port master anDone sqi s)

/-- LINK_TRAIN_TIMEOUT: the link of a retrained port is not up within 500 ms. -/
def linkTrainTimeout (p : Nat) (s : State) : State :=
  match s.net.wait with
  | some w => if w.train.getD p false && s.since w.since (ms 500) then s.endNetConfig stFaultNetwork 1 else s
  | none => s

def execLinkTrainTimeout (port : Nat) (s : State) : Result := .next (linkTrainTimeout port s)

/-- DAD_COMPLETE: duplicate address detection ends: of a NET_CONFIG's new address, which its reply waits for, or of the one in use
since the start. -/
def dadComplete (inUse : Bool) (s : State) : State :=
  if !s.net.dad then s else
  let s := s.onNet fun n => { n with dad := false, probe := false, dupAddress := n.dupAddress || inUse }
  match s.net.wait with
  | none => s.onNet fun n => { n with v6Usable := !inUse }
  | some w =>
    let same := ncV6 w.newImage && ncAddr6 s.net.config == ncAddr6 w.newImage
    if !w.dad then s.onNet fun n => { n with v6Usable := !inUse, wait := some { w with v6 := !inUse && same } }
    else
      let s := s.onNet fun n => { n with wait := some { w with dad := false, v6 := !inUse } }
      if inUse then s.endNetConfig stFaultNetwork 2 else s.netReady

def execDadComplete (inUse : Bool) (s : State) : Result := .next (dadComplete inUse s)

/-- A gateway that is neither 0 nor where it must lie. -/
def badGate4 (p : List Byte) : Bool :=
  !zeroAt p 12 4 && !samePrefix (ncPrefix4 p) (ncGate4 p) (ncAddr4 p)
def badGate6 (p : List Byte) : Bool :=
  !zeroAt p 48 16 && !linkLocal (ncGate6 p) && !samePrefix (ncPrefix6 p) (ncGate6 p) (ncAddr6 p)

/-- The planned rate of a port in either set (R371). -/
def State.plannedMax (port : Nat) (s : State) : Nat :=
  let rate (c : ConfigSet) : Nat := c.portMbps (s.admissionSpeed c) port
  max (rate s.sets.active) (rate s.sets.shadow)

/-- A tag field: bit 12 is reserved and a VID reaches 4094. -/
def badTag (t : Nat) : Bool := bit t 12 || 4094 < t % 4096

def netConfigFields (c : Cmd) (s : State) : Verdict :=
  let p := c.payload
  (firstFail
    [chk (bit (u8 p 0) 0) 0, rsvdBits p 6 4, chk (u8 p 7 = 0 || 30 < u8 p 7) 7, chk (badGate4 p) 12,
     chk (u8 p 32 = 0 || 128 < u8 p 32) 32, chk (2 < u8 p 33) 33, chk (127 < u8 p 34) 34, rsvdBits p 35 4,
     chk (u8 p 36 = 0) 36, rsvd p 37 3, chk (u16 p 40 < 500 || 9500 < u16 p 40) 40,
     chk (u16 p 42 < 500 || 9500 < u16 p 42) 42, chk (badTag (u16 p 44)) 44, rsvd p 46 2, chk (badGate6 p) 48,
     (decide (u16 p 40 < s.plannedMax 0), stNoResource, 0x30),
     (decide (u16 p 42 < s.plannedMax 1), stNoResource, 0x31)]).andThen
   (s.storeCheck (bit (u8 p 6) 2))

def netConfigInfo : OpInfo := { code := 0x0801, lenMin := 4, lenMax := 4, fields := netConfigFields }

/-- Does a new image bring an IPv6 address that is not in use? -/
def newV6 (old new : List Byte) : Bool :=
  ncV6 new && !zeroAt new 16 16 && (!ncV6 old || ncAddr6 old != ncAddr6 new)

/-- A port whose role or auto-negotiation changes retrains, with a forced role at once that of the new PHY_CTRL. -/
def State.retrain (phy : Nat) (s : State) (p : Nat) : State :=
  (s.loseLink p).onPort p fun x =>
    { x with link := .training, master := if bit phy (2 + p) then x.master else bit phy p, anDone := false }

/-- PTP ports start again with a new profile or domain; device time holds over or stays FREE (R102, R373). -/
def State.restartPtp (profile : Nat) (s : State) : State :=
  let s := s.onNet fun n =>
    { n with ports := n.ports.map fun x => { x with ptp := { PtpPort.reset with state := ptpIdle profile (x.link == .up) } } }
  s.onClk fun c =>
    if c.state == .free then c else { c with state := .holdover }

/-- NET_CONFIG: what needs no address acts at once; the rest follows the reply.
DEDUCED, unsafe (log 93). -/
def netConfigEffect (c : Cmd) (s : State) : State :=
  let new := c.payload
  let old := s.net.config
  let change := (ncPhy old) ^^^ (ncPhy new)
  let train := [0, 1].map fun p => bit change p || bit change (2 + p)
  let dad := newV6 old new
  let now := s.now
  let s := ([0, 1].filter fun p => train.getD p false).foldl (State.retrain (ncPhy new)) s
  let s := if ncProfile old != ncProfile new || ncDomain old != ncDomain new then s.restartPtp (ncProfile new) else s
  let s := s.onNet fun n =>
    { n with config := keepAddresses old new, dad := n.dad || dad, probe := n.probe || dad,
             wait := some { cmd := c, train := train, since := now, dad := dad,
                            v6 := n.v6Usable && !dad && ncV6 new && !zeroAt new 16 16, answered := false,
                            newImage := new } }
  (if dad then s.sendProbe else s).netReady

/-- NET_CONFIG acts only after the reply of an earlier one (R396).
DEDUCED, unsafe (log 93). -/
def netConfig (c : Cmd) (s : State) : State :=
  if s.net.wait.isSome then s else s.run netConfigInfo c (netConfigEffect c)

def execNetConfig (c : Cmd) (s : State) : Result := .next (netConfig c s)

/-! ## TRDP_CONFIG (R375) -/

/-- The five ComIds. -/
def comIds (p : List Byte) : List Nat := [4, 8, 12, 16, 20].map (u32 p)

/-- Is ComId `k` zero, or one that stands before it? -/
def badComId (p : List Byte) (k : Nat) : Bool :=
  u32 p (4 + 4 * k) = 0 || ((comIds p).take k).contains (u32 p (4 + 4 * k))

def trdpConfigFields (c : Cmd) (s : State) : Verdict :=
  let p := c.payload
  (firstFail ([rsvdBits p 0 4, rsvd p 1 3] ++ ((List.range 5).map fun k => chk (badComId p k) (4 + 4 * k)) ++
    [chk (u16 p 32 < 100 || 10000 < u16 p 32) 32, rsvd p 34 2, rsvd p 44 4])).andThen
   (s.storeCheck (bit (u8 p 0) 3))

def trdpConfigInfo : OpInfo := { code := 0x0803, lenMin := 4, lenMax := 4, fields := trdpConfigFields }

def trdpConfigEffect (c : Cmd) (s : State) : State :=
  let p := c.payload
  let s := s.onNet fun n => { n with trdp := p }
  if bit (u8 p 0) 3 then s.storeAfter 0x0803 recNetwork c (s.block stOk 0 0) else s.done 0x0803 c 0

def execTrdpConfig (c : Cmd) (s : State) : Result := .next (s.run trdpConfigInfo c (trdpConfigEffect c))

/-! ## STREAM_CONFIG (R358, R369, R374) -/

/-- Is an enabled stream without a route? -/
def State.noRoute (p : List Byte) (s : State) : Bool :=
  scEnable p && !isMulticast (scV6 p) (scDestIp p) && (nextHop s.net.config (scV6 p) (scDestIp p)).isNone

/-- Does an output view of a set name a stream? -/
def ConfigSet.namesStream (n : Nat) (c : ConfigSet) : Bool :=
  c.views.any fun v => (v.role == 0 || v.role == 2) && v.stream == n

def ConfigSet.withStream (p : List Byte) (c : ConfigSet) : ConfigSet := { c with streams := c.streams.set (u8 p 0) p }

def streamConfigFields (c : Cmd) (s : State) : Verdict :=
  let p := c.payload
  (firstFail
    [chk (31 < u8 p 0) 0, chk (16 ≤ u8 p 1 || scPortSel p = 3) 1, rsvdBits p 2 6, rsvd p 3 1, chk (badTag (u16 p 4)) 4,
     chk (u16 p 6 < 1024) 6, chk (u16 p 8 = 0) 8,
     chk (isMulticast (scV6 p) (scDestIp p) && !zeroAt p 10 6) 10,
     chk ((scEnable p && zeroAt p 16 16) || (!scV6 p && !zeroAt p 20 12)) 16,
     chk (s.noRoute p) 16]).andThen
   (s.ifFree ((firstFail [locked3 (!scEnable p && s.sets.shadow.namesStream (u8 p 0))]).andThen
     (s.admissionCheck (s.sets.shadow.withStream p) 0)))

def streamConfigInfo : OpInfo := { code := 0x0802, lenMin := 2, lenMax := 2, fields := streamConfigFields }

def streamConfigEffect (c : Cmd) (s : State) : State :=
  s.shadowWrite 0x0802 c fun s => (s.onShadow (·.withStream c.payload)).doneSet 0x0802 c 0 []

def execStreamConfig (c : Cmd) (s : State) : Result := .next (s.run streamConfigInfo c (streamConfigEffect c))

/-! ## NET_STATUS and STREAM_STATUS (R376, R377) -/

def LinkState.code : LinkState → Nat
  | .down => 0
  | .training => 1
  | .up => 2

/-- NET_FLAGS of a port (Table 14.9). -/
def State.netFlags (p : Nat) (s : State) : Nat :=
  let x := s.port p
  let n := s.net
  flagsOf [x.lost, n.dupAddress, n.portChanged, n.unresolvedSeen, n.srcReject, n.topoMismatch, n.reasmFail,
           x.link == .up, x.ptp.state == 9]

/-- TX_MBPS: the bits that a port sent in the last 100 ms. -/
def State.txMbps (p : Nat) (s : State) : Nat :=
  (((s.port p).sent.filter fun x => s.now < x.1 + ms 100).map (·.2)).foldl (· + ·) 0 / 100000

/-- Table 14.8. -/
def State.netStatus (p : Nat) (s : State) : List Byte :=
  let x := s.port p
  le 1 x.link.code ++ le 1 (flag x.master 0 + flag x.anDone 1 + 4 * x.sqi) ++ le 2 (s.netFlags p) ++
  le 1 x.ptp.state ++ le 1 (flag x.ptp.selected 0) ++ zeros 2 ++ le 8 ((x.ptp.gm.map (·.identity)).getD 0) ++
  le 4 (clampInt 0 (2 ^ 32 - 1) (roundDiv (x.ptp.delay * 1000000000) (2 ^ 64))).toNat ++ le 4 x.framesTx ++ le 4 x.framesRx ++ le 4 x.fcsErr ++ le 4 x.rxDiscard ++ le 4 x.downDiscard ++
  le 4 x.wrongLan ++ le 4 x.prpDup ++ le 4 x.downCount ++ le 4 s.net.mdRejected ++ le 4 s.net.unresolved ++
  le 4 (s.txMbps p)

def netStatusInfo : OpInfo :=
  { code := 0x0804, lenMin := 1, lenMax := 1, unseqOk := unseqIf0 2,
    fields := fun c _ => firstFail [chk (1 < u8 c.payload 0) 0, rsvd c.payload 1 1, maskChk c.payload 2 0x7F,
                                    rsvd c.payload 4 12] }

/-- What CLEAR_MASK clears: LINK_LOST of the port, the others on the device. -/
def State.clearNet (p mask : Nat) (s : State) : State :=
  (s.onPort p fun x => { x with lost := x.lost && !bit mask 0 }).onNet fun n =>
    { n with dupAddress := n.dupAddress && !bit mask 1, portChanged := n.portChanged && !bit mask 2,
             unresolvedSeen := n.unresolvedSeen && !bit mask 3, srcReject := n.srcReject && !bit mask 4,
             topoMismatch := n.topoMismatch && !bit mask 5, reasmFail := n.reasmFail && !bit mask 6 }

def netStatusEffect (c : Cmd) (s : State) : State :=
  let p := u8 c.payload 0
  let s := s.clearNet p (u16 c.payload 2)
  s.finish 0x0804 c stOk 0 (s.port p).link.code (s.netStatus p)

def execNetStatus (c : Cmd) (s : State) : Result := .next (s.run netStatusInfo c (netStatusEffect c))

/-- Table 14.10. -/
def State.streamStatus (n : Nat) (s : State) : List Byte :=
  let a := s.sets.active
  let x := s.stream n
  let vs := a.views.filter fun v => (v.role == 0 || v.role == 2) && v.stream == n
  let st := if !streamEnabled a n then 0 else if vs.isEmpty then 1 else 2
  let planned := (vs.map (ViewDef.mbps (s.admissionSpeed a) a)).foldl (· + ·) 0
  le 1 st ++ zeros 3 ++ le 4 x.frameSeq ++ le 4 x.recordSeq ++ le 2 planned ++ le 2 x.sentMbps ++ le 4 x.shortFrames ++
  le 4 x.abandonedTotal ++ le 4 x.discarded ++ zeros 4

def streamStatusInfo : OpInfo :=
  { code := 0x0805, lenMin := 1, lenMax := 1, unseqOk := fun _ => true,
    fields := fun c _ => firstFail [chk (31 < u8 c.payload 0) 0, rsvd c.payload 1 15] }

def streamStatusEffect (c : Cmd) (s : State) : State :=
  let n := u8 c.payload 0
  s.finish 0x0805 c stOk 0 (s.stream n).frameSeq (s.streamStatus n)

def execStreamStatus (c : Cmd) (s : State) : Result := .next (s.run streamStatusInfo c (streamStatusEffect c))

/-! ## Sending (R359 to R361, R403) -/

/-- Does a frame wait for a port? -/
def TxFrame.waits (p : Nat) (f : TxFrame) : Bool := if p = 0 then f.waitA else f.waitB
def EgressFrame.waits (p : Nat) (f : EgressFrame) : Bool := if p = 0 then f.waitA else f.waitB
def EgressFrame.onWire (p : Nat) (f : EgressFrame) : Bool := if p = 0 then f.onA else f.onB

/-- Priority of R359. -/
def TxKind.priority : TxKind → Nat
  | .ptp => 0
  | .zone => 1
  | _ => 2

/-- The frame that a port sends next, among those that are not point frames. -/
def State.nextTx (p : Nat) (s : State) : Option TxFrame :=
  let l := s.net.tx.filter (·.waits p)
  (l.find? (·.kind.priority == 0)).orElse fun _ => (l.find? (·.kind.priority == 1)).orElse fun _ => l.head?

/-- A frame's bits count for TX_MBPS.
DESIGN CHOICE, unsafe (log 94). -/
def State.countSent (p bits : Nat) (s : State) : State :=
  let now := s.now
  s.onPort p fun x =>
    { x with framesTx := wrap 32 (x.framesTx + 1),
             sent := (x.sent.filter fun y => now < y.1 + ms 100) ++ [(now, bits)] }

/-- The SequenceNr that a frame on both ports takes at its first transmission.
DEDUCED, unsafe (log 96). -/
def State.takePrp (both : Bool) (prp : Option Nat) (s : State) : Option Nat × State :=
  if !both then (none, s) else
  match prp with
  | some n => (some n, s)
  | none => (some s.net.prpSeq, s.onNet fun n => { n with prpSeq := wrap 16 (n.prpSeq + 1) })

/-- Replaces the first frame `f` by `g`. -/
def updateFrame (f g : TxFrame) : List TxFrame → List TxFrame
  | [] => []
  | y :: r => if y == f then g :: r else y :: updateFrame f g r

/-- Sends one frame on a port; an unresolved next hop is asked for, and an event message's departure is stamped. The bits of a frame that
is not a point frame count 100 bytes of
headers, trailers and gap beside its content.
DESIGN CHOICE, unsafe (log 94). -/
def State.sendTx (p : Nat) (f : TxFrame) (s : State) : State :=
  let x := s.takePrp f.both f.prp
  let s := x.2
  let g : TxFrame := if p = 0 then { f with prp := x.1, waitA := false } else { f with prp := x.1, waitB := false }
  let s := s.onNet fun n =>
    { n with tx := (updateFrame f g n.tx).filter fun y => y.waitA || y.waitB }
  let s := match if f.hop.isSome then none else s.unknownHop f.dest with
    | some h => s.needNeighbour (isV6 f.dest) h
    | none => s
  let s := s.ptpDeparts p f
  (s.countSent p (8 * (f.bytes.length + 100))).emit (.frame p f.kind x.1 f.dest f.bytes (s.frameWire p f x.1))

/-- Wire bits of a point frame (R371), by the RECORD_COUNT of its header (Table 11.7). -/
def EgressFrame.wireBits (f : EgressFrame) : Nat := u16 f.bytes 12 * 128 + 8 * (if scV6 f.settings then 160 else 140)

/-- A due point frame whose next hop is unresolved is discarded (R358). -/
def State.unresolvedFrame (f : EgressFrame) (s : State) : State :=
  let s := match nextHop s.net.config (scV6 f.settings) (scDestIp f.settings) with
    | some h => s.needNeighbour (scV6 f.settings) h
    | none => s
  let s := s.onNet fun n => { n with unresolved := satInc 32 n.unresolved, unresolvedSeen := true }
  let s := s.onFabric fun b =>
    { b with egress := b.egress.map fun g =>
        if g.stream == f.stream && g.seq == f.seq then { g with waitA := false, waitB := false } else g }
  s.dropEgress

/-- A point frame's first bit leaves on a port; its first sending counts for its stream and is snooped (R382). -/
def State.sendPoint (p : Nat) (f : EgressFrame) (s : State) : State :=
  let both := scPortSel f.settings == 0
  let first := !f.sent
  let x := s.takePrp both f.prp
  let s := x.2
  let s := s.onFabric fun b =>
    { b with egress := b.egress.map fun g =>
        if g.stream == f.stream && g.seq == f.seq then
          let g : EgressFrame := { g with prp := x.1, sent := true }
          if p = 0 then { g with waitA := false, onA := true } else { g with waitB := false, onB := true }
        else g }
  let s := if first then
      (s.onStream f.stream fun y => { y with revBytes := y.revBytes + f.wireBits }).snoop f.stream f.bytes
    else s
  (s.countSent p f.wireBits).emit (.point p x.1 f.stream f.bytes (s.pointWire p f x.1))

/-- FRAME_TRANSMIT: a port whose wire is free sends the next frame in strict priority; replies that wait for TRDP become
frames first.
DESIGN CHOICE, safe (log 20). -/
def frameTransmit (p : Nat) (s : State) : State :=
  if 1 < p || !s.netPowered || !s.linkUp p || s.fabric.egress.any (·.onWire p) then s else
  let s := s.sendReplies
  match s.nextTx p with
  | some f => s.sendTx p f
  | none =>
    match s.fabric.egress.find? (·.waits p) with
    | some f => if s.resolved f.settings then s.sendPoint p f else s.unresolvedFrame f
    | none => s

def execFrameTransmit (port : Nat) (s : State) : Result := .next (frameTransmit port s)

/-- FRAME_TX_COMPLETE: the end of a point frame's transmission on a port; with its last port the buffer lets it go.
DESIGN CHOICE, safe (log 119). -/
def frameTxComplete (p : Nat) (s : State) : State :=
  s.onFabric fun b =>
    { b with
      egress := (b.egress.map fun f =>
          if f.onWire p then (if p = 0 then { f with onA := false } else { f with onB := false }) else f).filter
        fun f => f.waitA || f.waitB || f.onA || f.onB }

def execFrameTxComplete (port : Nat) (s : State) : Result := .next (frameTxComplete port s)

/-! ## Receiving (R358, R362, R367) -/

def supervisionMac : List Byte := [0x01, 0x15, 0x4E, 0x00, 0x01, 0x00]

/-- Is a VLAN in use: management's, or an enabled stream's? -/
def State.vlanUsed (v : Nat) (s : State) : Bool :=
  (v != 0 && v == ncVid s.net.config) || s.sets.active.streams.any fun p => scEnable p && v != 0 && u16 p 4 % 4096 == v

/-- Is a frame one of those that the device accepts?
DEDUCED, safe (log 95). -/
def State.accepts (f : NetFrame) (s : State) : Bool :=
  let arp : Bool := match f.kind with
    | .arpRequest _ _ => true
    | .arpReply _ _ => true
    | _ => false
  let c := s.net.config
  (f.vlan.all fun v => s.vlanUsed v) &&
  (f.dst == ncMac c || (f.dst == broadcastMac && arp) ||
   (f.kind == .ptp && ncProfile c != 0 && f.dst == ptpMac (ncProfile c)) ||
   (f.kind == .supervision && f.dst == supervisionMac))

/-- The second copy of a frame that came from the other LAN within 400 ms. -/
def State.prpDuplicate (p : Nat) (f : NetFrame) (s : State) : Bool :=
  match f.rct with
  | some r => s.net.drops.any fun d => d.src == f.src && d.seq == r.1 && d.lanA != (p == 0) && s.now < d.at_ + ms 400
  | none => false

/-- A frame with a trailer enters the drop window of its source: 64 entries of 400 ms. -/
def State.noteSeq (p : Nat) (f : NetFrame) (s : State) : State :=
  match f.rct with
  | some r =>
    let now := s.now
    let s := if r.2 != 10 + p then s.onPort p fun x => { x with wrongLan := satInc 32 x.wrongLan } else s
    s.onNet fun n =>
      let alive := n.drops.filter fun d => now < d.at_ + ms 400
      let mine := (alive.filter fun d => d.src == f.src) ++ [{ src := f.src, seq := r.1, lanA := p == 0, at_ := now }]
      { n with drops := (alive.filter fun d => d.src != f.src) ++ mine.drop (mine.length - 64) }
  | none => s

/-- A resolved address enters the cache where it was asked for. -/
def State.learnNeighbour (a mac : List Byte) (s : State) : State :=
  s.onNet fun n =>
    { n with neighbours := n.neighbours.map fun x => if x.addr == addr16 a then { x with mac := some mac } else x }

/-- An echo request is answered with what followed its checksum, at most 100 times a second, with ICMP_EN. -/
def State.answerEcho (v6 : Bool) (src payload : List Byte) (s : State) : State :=
  let now := s.now
  let last := s.net.echoes.filter fun t => now < t + sec 1
  let c := s.net.config
  if !ncIcmp c || 100 ≤ last.length || (if v6 then !s.net.v6Usable else !ncV4 c) then s else
  (s.onNet fun n => { n with echoes := last ++ [now] }).queueFrame .icmp true true (addr16 src)
    (if v6 then etherV6 ++ ipv6Packet 0 (ncTtl c) protoIcmp6 (ncAddr6 c) src (echoReply true (ncAddr6 c) src payload)
     else etherV4 ++ ipv4Packet 0 0 0 (ncTtl c) protoIcmp (ncAddr4 c) src (echoReply false (ncAddr4 c) src payload))

/-- What the parts of a datagram hold without a gap, from byte `n` on. -/
def joinParts (parts : List (Nat × List Byte)) : Nat → Nat → List Byte
  | 0, _ => []
  | k + 1, n =>
    match parts.find? fun x => decide (x.1 ≤ n) && decide (n < x.1 + x.2.length) with
    | some x => x.2.drop (n - x.1) ++ joinParts parts k (x.1 + x.2.length)
    | none => []

/-- The bytes of a datagram that is complete. -/
def Reasm.whole (r : Reasm) : Option (List Byte) :=
  let b := joinParts r.parts r.parts.length 0
  r.total.bind fun n => if n ≤ b.length then some (b.take n) else none

/-- The context of a datagram with one more fragment: 8 datagrams of up to 4240 bytes at once. -/
def State.withFragment (src ident offset : Nat) (last : Bool) (data : List Byte) (s : State) : Option Reasm :=
  let old := s.net.reasm.find? fun r => r.src == src && r.ident == ident
  if 4240 < offset + data.length || (old.isNone && 8 ≤ s.net.reasm.length) then none else
  let r := old.getD { src := src, ident := ident, since := s.now, parts := [], total := none }
  some { r with parts := r.parts.filter (·.1 != offset) ++ [(offset, data)],
                total := if last then some (offset + data.length) else r.total }

/-- A fragment of a message datagram; a complete one leaves its context and goes to receipt (Machine/Links.lean).
DEDUCED, safe (log 95). -/
def State.addFragment (src ident offset : Nat) (last : Bool) (data : List Byte) (s : State) : State :=
  match s.withFragment src ident offset last data with
  | none => s
  | some r => s.onNet fun n =>
      let rest := n.reasm.filter fun x => !(x.src == src && x.ident == ident)
      { n with reasm := if r.whole.isSome then rest else rest ++ [r] }

/-- What an accepted frame does. -/
def State.takeFrame (f : NetFrame) (s : State) : State :=
  let c := s.net.config
  match f.kind with
  | .arpRequest from_ t =>
    if ncV4 c && slice t 0 4 == ncAddr4 c then
      s.queueFrame .arp true true f.src (arpPacket 2 (ncMac c) (ncAddr4 c) f.src from_)
    else s
  | .arpReply a m => s.learnNeighbour a m
  | .neighbourSolicit from_ t =>
    if s.net.v6Usable && t == ncAddr6 c then
      let all : List Byte := [0xFF, 0x02] ++ zeros 13 ++ [1]
      if zeroAt from_ 0 16 then
        s.queueFrame .neighbour true true (multicastMac true all) (ndMessage 136 0x20000000 2 (ncAddr6 c) all (ncAddr6 c) (ncMac c))
      else s.queueFrame .neighbour true true f.src (ndMessage 136 0x60000000 2 (ncAddr6 c) from_ (ncAddr6 c) (ncMac c))
    else s
  | .neighbourAdvert a m => s.learnNeighbour a m
  | .echoRequest v6 from_ payload => s.answerEcho v6 from_ payload
  | .fragment src ident offset last data => s.addFragment src ident offset last data
  | .pause => s
  | .supervision => s
  | .ptp => s
  | .other => s

/-- Does a frame have its effect: the port is up, its FCS is right, it is accepted and no second copy? -/
def State.takesFrame (p : Nat) (f : NetFrame) (s : State) : Bool :=
  decide (p ≤ 1) && s.netPowered && s.linkUp p && f.fcsOk && s.accepts f && !s.prpDuplicate p f

/-- A frame at a port (R357, R358, R362). -/
def netFrameReceive (p : Nat) (f : NetFrame) (s : State) : State :=
  if 1 < p || !s.netPowered || !s.linkUp p then s
  else if !f.fcsOk then s.onPort p fun x => { x with fcsErr := satInc 32 x.fcsErr }
  else
    let s := s.onPort p fun x => { x with framesRx := wrap 32 (x.framesRx + 1) }
    if f.kind == .pause then s
    else if !s.accepts f then s.onPort p fun x => { x with rxDiscard := satInc 32 x.rxDiscard }
    else if s.prpDuplicate p f then s.onPort p fun x => { x with prpDup := satInc 32 x.prpDup }
    else (s.noteSeq p f).takeFrame f

/-- REASM_TIMEOUT: a datagram not complete within 50 ms is discarded and counted. -/
def reasmTimeout (context : Nat) (s : State) : State :=
  match s.net.reasm[context]? with
  | some r =>
    if s.since r.since (ms 50) then
      s.onNet fun n =>
        { n with reasm := n.reasm.eraseIdx context, reasmFail := true, mdRejected := satInc 32 n.mdRejected }
    else s
  | none => s

def execReasmTimeout (context : Nat) (s : State) : Result := .next (reasmTimeout context s)

/-! ## Periodic duties -/

/-- PRP_SUPERVISION_SEND (R362): every 2000 ms. -/
def prpSupervisionSend (s : State) : State :=
  let now := s.now
  if s.netPowered && s.since s.net.lastSupervision (ms 2000) then
    (s.queueFrame .supervision true true supervisionMac (supervisionBody s.net.supervisionSeq (ncMac s.net.config))).onNet
      fun n => { n with lastSupervision := now, supervisionSeq := wrap 16 (n.supervisionSeq + 1) }
  else s

def execPrpSupervisionSend (s : State) : Result := .next (prpSupervisionSend s)

/-- NEIGHBOUR_REFRESH (R358): an entry is asked for again every 60 s. -/
def neighbourRefresh (addr : List Byte) (s : State) : State :=
  match s.neighbour (addr16 addr) with
  | some x =>
    if !s.since x.refreshed (sec 60) then s else
    let now := s.now
    (s.onNet fun n =>
      { n with neighbours := n.neighbours.map fun y => if y.addr == x.addr then { y with refreshed := now } else y }).askNeighbour
      (!zeroAt x.addr 4 12) x.addr
  | none => s

def execNeighbourRefresh (addr : List Byte) (s : State) : Result := .next (neighbourRefresh addr s)

end Sys2Proof.Machine
end

