-- ==== Sys2Proof/Machine/Trig.lean ====
section
/-!
DEFINITION. Powers of two, rounding away from zero (R166), and the sine, cosine and logarithm in fixed point, worked out
by series, that the control engine, the tracking converter and the aux curves use.
-/
namespace Sys2Proof.Machine

/-- 2 to an integer power. -/
def pow2 (e : Int) : Rat := if 0 ≤ e then ((2 ^ e.toNat : Nat) : Rat) else mkRat 1 (2 ^ (-e).toNat)

/-- To the nearest integer, ties away from zero (R166).
DESIGN CHOICE, unsafe (log 61); DEDUCED, unsafe (log 81). -/
def roundAway (q : Rat) : Int := if q < 0 then -((-q + (1 : Rat) / 2).floor) else (q + (1 : Rat) / 2).floor

/-- -1, 0 or 1. -/
def signOf (q : Rat) : Int := if q < 0 then -1 else if q = 0 then 0 else 1

/-- π in units of 2^-60. -/
def piFix : Int := 3622009729038561421

/-- ln 2 in units of 2^-60. -/
def ln2Fix : Int := 799144290325165979

/-- `n` more terms of the sine's series: `k` the last exponent used, `x2` the square of the argument, all in 2^-60. -/
def sinTerms : Nat → Nat → Int → Int → Int → Int
  | 0, _, _, _, acc => acc
  | n + 1, k, x2, term, acc =>
    let t := -(term * x2 / 2 ^ 60) / (((k + 1) * (k + 2) : Nat) : Int)
    sinTerms n (k + 2) x2 t (acc + t)

/-- The sine of an angle of at most a quarter turn, in 2^-60; the angle in radians, in 2^-60. -/
def sinQuarter (x : Int) : Int := sinTerms 14 1 (x * x / 2 ^ 60) x x

/-- The sine of `q` turns in 2^-60. -/
def sinTurns (q : Rat) : Int :=
  let f := q - q.floor
  let rad (x : Rat) : Int := roundRat (x * ((2 * piFix : Int) : Rat))
  if 4 * f < 1 then sinQuarter (rad f)
  else if 2 * f < 1 then sinQuarter (rad ((1 : Rat) / 2 - f))
  else if 4 * f < 3 then -sinQuarter (rad (f - (1 : Rat) / 2))
  else -sinQuarter (rad (1 - f))

/-- The cosine of `q` turns in 2^-60. -/
def cosTurns (q : Rat) : Int := sinTurns (q + (1 : Rat) / 4)

/-- `n` more terms of the series of artanh: `k` the last exponent used, `z2` the square, `pow` the last power of z. -/
def artanhTerms : Nat → Nat → Int → Int → Int → Int
  | 0, _, _, _, acc => acc
  | n + 1, k, z2, p, acc =>
    let p' := p * z2 / 2 ^ 60
    artanhTerms n (k + 2) z2 p' (acc + p' / ((k + 2 : Nat) : Int))

/-- The natural logarithm of a positive rational in 2^-60: the power of two apart, the rest by artanh. -/
def lnFix (q : Rat) : Int :=
  let e : Int := (Nat.log2 q.num.toNat : Int) - Nat.log2 q.den
  let m := q / pow2 e                        -- between 1/2 and 2
  let z := roundRat ((m - 1) / (m + 1) * (2 ^ 60 : Nat))
  e * ln2Fix + 2 * artanhTerms 40 1 (z * z / 2 ^ 60) z z

/-- `n` more terms of the exponential's series: `k` the last exponent used, `t` the last term. -/
def expTerms : Nat → Nat → Int → Int → Int → Int
  | 0, _, _, _, acc => acc
  | n + 1, k, x, t, acc =>
    let t' := t * x / 2 ^ 60 / ((k + 1 : Nat) : Int)
    expTerms n (k + 1) x t' (acc + t')

/-- The exponential of `x` in 2^-60: the power of two apart, the rest by its series. -/
def expFix (x : Int) : Rat := pow2 (x / ln2Fix) * mkRat (expTerms 24 0 (x % ln2Fix) (2 ^ 60) (2 ^ 60)) (2 ^ 60)

/-- `n` more terms of the series of arctan: `k` the last exponent used, `z2` the square, `p` the last signed power. -/
def atanTerms : Nat → Nat → Int → Int → Int → Int
  | 0, _, _, _, acc => acc
  | n + 1, k, z2, p, acc =>
    let p' := -(p * z2 / 2 ^ 60)
    atanTerms n (k + 2) z2 p' (acc + p' / ((k + 2 : Nat) : Int))

/-- The tangent of half the angle whose tangent is `z`, in 2^-60. -/
def halfTan (z : Int) : Int := z * 2 ^ 60 / (2 ^ 60 + isqrt (2 ^ 120 + (z * z).toNat))

/-- The arctangent of `z` between 0 and 1, in radians, all in 2^-60. -/
def atanFix (z : Int) : Int :=
  let w := halfTan (halfTan z)
  4 * atanTerms 20 1 (w * w / 2 ^ 60) w w

/-- atan2 (s, c) as a fraction of a turn in 2^-32, to the nearest; 0 for the origin.
DESIGN CHOICE, unsafe (log 52). -/
def atan2Turns (s c : Int) : Nat :=
  let a := s.natAbs
  let b := c.natAbs
  let hi := if a < b then b else a
  let lo := if a < b then a else b
  if hi = 0 then 0 else
  let r := atanFix ((lo : Int) * 2 ^ 60 / hi)
  let q := roundDiv (r * 2 ^ 32) (2 * piFix).toNat       -- within an eighth of a turn
  let oct := if a < b then q else 2 ^ 30 - q             -- from the positive c axis, first quadrant
  let half := if c < 0 then 2 ^ 31 - oct else oct
  ((if s < 0 then -half else half) % 2 ^ 32).toNat

end Sys2Proof.Machine
end

