-- ==== Sys2Proof/Machine/Law.lean ====
section
/-!
DEFINITION. The control law in block floating point (R165 to R169), test signals (R177), loop faults and their actions
(R172 to R175), and the fields of LOOP_CONFIG and LOOP_COEFF (Tables 6.11, R181).
-/
namespace Sys2Proof.Machine

/-! ## LOOP_CONFIG and LOOP_COEFF -/

def lcMode (p : List Byte) : Nat := u8 p 1
def lcIntEn (p : List Byte) : Bool := bit (u8 p 3) 0
def lcGainX2 (p : List Byte) : Bool := bit (u8 p 3) 1
def lcX (p : List Byte) : Int := s8 p 4
def lcQ (p : List Byte) : Int := s8 p 5
def lcY (p : List Byte) : Int := s8 p 6
def lcSet (p : List Byte) : Int := s32 p 8
def lcRamp (p : List Byte) : Nat := u32 p 12
/-- U_MAX and U_MIN as 32-bit mantissas at exponent 0. -/
def lcMax (p : List Byte) : Int := s16 p 16 * 65536
def lcMin (p : List Byte) : Int := s16 p 18 * 65536
/-- AW_LIMIT as a mantissa at Q_EXP. -/
def lcAw (p : List Byte) : Int := u16 p 20 * 65536
def lcZero (p : List Byte) : Nat := u16 p 22
def lcHold (p : List Byte) : Nat := u16 p 24
def lcGap (p : List Byte) : Nat := u16 p 26
def lcFeLimit (p : List Byte) : Nat := u32 p 32
def lcInnovLimit (p : List Byte) : Nat := u32 p 36
def lcFeTime (p : List Byte) : Nat := u16 p 40
def lcInnovTime (p : List Byte) : Nat := u16 p 42
def lcSatTime (p : List Byte) : Nat := u16 p 44
def lcAction (p : List Byte) (cls : Nat) : Nat := u8 p (47 + cls)

/-- Mantissa `i` of a LOOP_COEFF payload at the exponent of block `b` (R165: value m × 2^(E − 15)). -/
def coefAt (c : List Byte) (b i : Nat) : Rat := (s16 c (16 + 2 * i) : Rat) * pow2 (s8 c (2 + b) - 15)

def ccA (c : List Byte) (i j : Nat) : Rat := coefAt c 0 (i * ccStates c + j)
def ccB (c : List Byte) (i : Nat) : Rat := coefAt c 1 (ccStates c * ccStates c + i)
def ccL (c : List Byte) (i : Nat) : Rat := coefAt c 2 (ccStates c * ccStates c + ccStates c + i)
def ccC (c : List Byte) (i : Nat) : Rat := coefAt c 3 (ccStates c * ccStates c + 2 * ccStates c + i)
def ccK (c : List Byte) (i : Nat) : Rat := coefAt c 4 (ccStates c * ccStates c + 3 * ccStates c + i)
def ccKi (c : List Byte) : Rat := coefAt c 5 (ccStates c * ccStates c + 4 * ccStates c)
def ccNr (c : List Byte) : Rat := coefAt c 6 (ccStates c * ccStates c + 4 * ccStates c + 1)
def ccG (c : List Byte) (i : Nat) : Rat := coefAt c 7 (ccStates c * ccStates c + 4 * ccStates c + 2 + i)

/-! ## Numbers (R165, R166) -/

def int32Max : Int := 2147483647
def int32Min : Int := -2147483648

/-- A value as a 32-bit mantissa at exponent `e`, and whether it saturated. -/
def toMant (e : Int) (q : Rat) : Int × Bool :=
  let m := roundAway (q * pow2 (31 - e))
  let k := clampInt int32Min int32Max m
  (k, k != m)

/-- The value of a mantissa at exponent `e`. -/
def mantVal (e m : Int) : Rat := (m : Rat) * pow2 (e - 31)

/-- A native number of a loop as a value: rev/s for the spindle, ac for the galvo. -/
def nativeVal (n : Nat) (v : Int) : Rat := (v : Rat) / (if n = 0 then 65536 else 256)

/-- A value in a loop's native unit, in 32 bits. -/
def toNative (n : Nat) (q : Rat) : Int :=
  clampInt int32Min int32Max (roundAway (q * (if n = 0 then 65536 else 256)))

/-- The sum of the products of coefficients `c 0, c 1, …` with the states.
DESIGN CHOICE, unsafe (log 61). -/
def dotWith (c : Nat → Rat) (xe : Int) (xs : List Int) : Rat :=
  (xs.zipIdx.map fun x => c x.2 * mantVal xe x.1).foldl (· + ·) 0

/-! ## One sample of the law -/

/-- What a sample of the law leaves beside the loop: ri and the measurement as values, for the supervision. -/
structure LawOut where
  loop : Loop
  ri : Rat
  yv : Option Rat
deriving DecidableEq, Repr

/-- r after its slew towards SETPOINT. -/
def slewTo (target step r : Int) : Int :=
  if step = 0 then target else if r < target then min target (r + step) else max target (r - step)

/-- Observer states at G·y, and whether each saturated. -/
def closeStates (n : Nat) (c : List Byte) (xe : Int) (y : Rat) : List (Int × Bool) :=
  (List.range n).map fun i => toMant xe (ccG c i * y)

/-- A signal in 32 bits, and whether it saturated. -/
def sat32 (m : Int) : Int × Bool := (clampInt int32Min int32Max m, clampInt int32Min int32Max m != m)

/-- A loop sample (R165): image `p`, coefficients `c`, the native measurement if there is one, the present output as a
mantissa at exponent 0 for a closing, and the test signal. RAMP becomes a step of at least one LSB of r.
DESIGN CHOICE, unsafe (log 61). -/
def lawSample (k : Nat) (p c : List Byte) (y : Option Int) (present injIn injOut : Int) (l : Loop) : LawOut :=
  let n := lcStates p
  let ye := lcY p
  let xe := lcX p
  let qe := lcQ p
  let ym := y.map fun v => toMant ye (nativeVal k v)
  let yv := ym.map fun m => mantVal ye m.1
  let first := l.closing && ym.isSome
  let target := toMant ye (nativeVal k (lcSet p))
  let step := toMant ye (nativeVal k (lcRamp p))
  let r := match ym with
    | some m => if l.closing then m.1 else slewTo target.1 (if lcRamp p = 0 then 0 else max 1 step.1) l.r
    | none => slewTo target.1 (if lcRamp p = 0 then 0 else max 1 step.1) l.r
  let riM := clampInt int32Min int32Max (r + injIn)
  let ri := mantVal ye riM
  let kept := l.xh.map fun x => (x, false)
  let xc := match yv with
    | some v => if l.closing || l.stateReset then closeStates n c xe v else kept
    | none => kept
  let xh0 := xc.map (·.1)
  let e := match yv with
    | some v => toMant ye (v - dotWith (ccC c) xe xh0)
    | none => (0, false)
  let xh1 := if yv.isSome then
      xh0.zipIdx.map fun x => toMant xe (mantVal xe x.1 + ccL c x.2 * mantVal ye e.1)
    else xh0.map fun x => (x, false)
  let xs1 := xh1.map (·.1)
  let uBase : Rat := ccNr c * ri - dotWith (ccK c) xe xs1 + mantVal 0 injOut
  let q0 := if first then
      (if lcIntEn p && ccKi c ≠ 0 then
        let out := sat32 present
        let w := toMant qe ((mantVal 0 out.1 - uBase) / ccKi c)
        (clampInt (-lcAw p) (lcAw p) w.1, out.2 || w.2)
      else (0, false))
    else (l.q, false)
  let u := toMant 0 (uBase + ccKi c * mantVal qe q0.1)
  let us := clampInt (lcMin p) (lcMax p) u.1
  let diff : Rat := ri - yv.getD 0
  let wound := us != u.1 && signOf (ccKi c * diff) == signOf ((u.1 - us : Int) : Rat)
  let q1 := if lcIntEn p && yv.isSome && !wound then toMant qe (mantVal qe q0.1 + diff) else (q0.1, false)
  let q2 := if lcIntEn p && yv.isSome then clampInt (-lcAw p) (lcAw p) q1.1 else q1.1
  let xh2 := (List.range n).map fun i =>
    toMant xe (dotWith (ccA c i) xe xs1 + ccB c i * mantVal 0 us)
  let sat := target.2 || step.2 || (ym.any (·.2)) || riM != r + injIn || e.2 || xc.any (·.2) || xh1.any (·.2) || q0.2 || u.2 || q1.2 ||
    xh2.any (·.2)
  let satCount := if us != u.1 then l.satCount + 1 else 0
  { loop := { l with xh := xh2.map (·.1), q := q2, r := r, e := e.1, u := u.1, us := us, inj := injIn + injOut,
                     closing := l.closing && ym.isNone, stateReset := l.stateReset && ym.isNone,
                     arithSat := l.arithSat || sat, outSat := l.outSat || us != u.1, satCount := satCount,
                     outSatLong := l.outSatLong || decide (lcSatTime p ≤ satCount),
                     intClamp := l.intClamp || q2 != q1.1 },
    ri := ri, yv := yv }

/-- A coefficient swap (R169): the states of a loop carried from its old settings to new ones. -/
def swapStates (p c : List Byte) (l : Loop) : Loop :=
  let changed := lcStates p != lcStates l.image
  let xs := l.xh.map fun x => toMant (lcX p) (mantVal (lcX l.image) x)
  let q := toMant (lcQ p) (mantVal (lcQ l.image) l.q)
  let qc := clampInt (-lcAw p) (lcAw p) q.1
  let r := toMant (lcY p) (mantVal (lcY l.image) l.r)
  { l with image := p, coef := c,
           xh := if changed then List.replicate (lcStates p) 0 else xs.map (·.1),
           stateReset := changed || l.stateReset, q := qc, r := r.1, intClamp := l.intClamp || qc != q.1,
           arithSat := l.arithSat || q.2 || r.2 || (!changed && xs.any (·.2)) }

/-! ## Test signals (R177) -/

/-- One more bit of x^n + x^m + 1: the oldest of `n` bits leaves, the sum of two enters.
DEDUCED, unsafe (log 63). -/
def prbsNext (n m r : Nat) : Nat := r / 2 + (r % 2 + r / 2 ^ m % 2) % 2 * 2 ^ (n - 1)

/-- m of the generator of order n. -/
def prbsTap (n : Nat) : Nat := if n = 7 then 6 else if n = 9 then 5 else if n = 11 then 9 else 14

/-- Turns of a logarithmic sweep before its sample `k` of `n`: its frequency goes from `f0` to `f1` mHz by equal ratios; `fs` samples
a second.
DEDUCED, unsafe (log 63). -/
def sweepTurns (fs f0 f1 n k : Nat) : Rat :=
  let l := lnFix (mkRat f1 (pos f0))
  if l = 0 then mkRat (f0 * k) (1000 * fs)
  else ((f0 * n * 2 ^ 60 : Nat) : Rat) * (expFix (l * k / (pos n : Nat)) - 1) / (l * (1000 * fs : Nat) : Int)

/-- The signal of the injection's next sample, and whether it saturated; `fs` samples a second.
DEDUCED, unsafe (log 63). -/
def Inject.value (fs : Nat) (j : Inject) : Int × Bool :=
  let wave (turns : Rat) : Int := roundAway (mkRat (j.ampl * sinTurns turns) (2 ^ 60))
  sat32 (if j.shape = 0 then wave (mkRat (j.fStart * j.index) (1000 * fs))
    else if j.shape = 1 then wave (sweepTurns fs j.fStart j.fStop j.duration j.index)
    else if j.lfsr % 2 = 1 then j.ampl else -j.ampl)

/-- The injection after a sample. -/
def Inject.next (j : Inject) : Inject :=
  { j with index := j.index + 1,
           lfsr := if j.shape = 2 && (j.index + 1) % pos j.hold = 0 then prbsNext j.order (prbsTap j.order) j.lfsr
                   else j.lfsr }

/-! ## Faults (R173 to R175) -/

/-- Action bits that act on a loop: coast and hold on the spindle, park and hold on the galvo. -/
def actMask (n : Nat) : Nat := if n = 0 then 0x0A else 0x14

/-- Forced bits of Table 6.7. -/
def forcedBits (n cls : Nat) : Nat :=
  if cls = 3 then (if n = 0 then 0x03 else 0x05)
  else if cls = 5 then (if n = 0 then 0x02 else 0x04)
  else if cls = 6 then 0x02
  else if cls = 8 then 0x07 else 0

def Loop.inFault (l : Loop) : Bool := l.st == .fault

/-- Does the loop compute its law: CLOSED, or in FAULT from CLOSED with no action on its output? -/
def Loop.runs (n : Nat) (l : Loop) : Bool :=
  l.st == .closed || (l.inFault && l.prior == .closed && (l.faultAction &&& actMask n) == 0)

/-- An injection of loop `n` completes because the loop has left CLOSED, with `played` samples played. -/
def State.injectLost (n : Nat) (c : Cmd) (played : Nat) (s : State) : State :=
  let b := s.block stFaultMotion 2 played
  (s.applied (.loop n) c b).finishWith 0x0603 c b []

/-- Is a live command a start of an injection on loop `n` that has not begun? -/
def State.waitsToInject (n : Nat) (l : Live) (s : State) : Bool :=
  l.opcode == 0x0603 && u8 l.cmd.payload 0 == n && u8 l.cmd.payload 2 != 3 && s.unbegun l

/-- A loop leaves CLOSED: its running injection ends, and every accepted one that has not started. -/
def State.breakInject (n : Nat) (s : State) : State :=
  let s := match (s.loop n).inject with
    | some j => (s.onLoop n fun l => { l with inject := none, inj := 0 }).injectLost n j.cmd j.index
    | none => s
  (s.host.journal.live.filter fun l => s.waitsToInject n l).foldl (fun s l => s.injectLost n l.cmd 0) s

/-- Cameo's trigger, for an armed capture of the loop with this TRIGGER. -/
def State.cameoTrigger (n trig : Nat) (s : State) : State :=
  let c := s.motion.cameo
  if c.st == .armed && c.loop == n && c.trigger == trig then
    s.onMotion fun m => { m with cameo := { m.cameo with st := .capturing, trigIndex := m.cameo.samples.length } }
  else s

/-- The galvo's output when its fault actions say so: PARK prevails over HOLD, which keeps the last code. -/
def State.galvoActs (s : State) : State :=
  if (s.loop 1).inFault && bit (s.loop 1).faultAction 2 then
    s.parkGalvo
  else s

/-- A fault latches on loop `n`; one already in FAULT keeps its first cause, and the new actions add to it.
DEDUCED, unsafe (log 62). -/
def State.latch (n cls action : Nat) (s : State) : State :=
  let t := s.stamp
  let s := if (s.loop n).inFault then s.onLoop n fun l => { l with faultAction := l.faultAction ||| action }
    else
      let s := s.breakInject n
      s.onLoop n fun l => { l with prior := l.st, st := .fault, faultCause := cls, faultAction := action, faultStamp := t }
  (s.cameoTrigger n 2).galvoActs

def State.countFault (n : Nat) (s : State) : State := s.onLoop n fun l => { l with faultCount := satInc 32 l.faultCount }

/-- A fault of loop `n` is registered: its actions, on the other loop as PEER, and its inhibit.
DEDUCED, unsafe (log 62). -/
def State.raiseFault (n cls : Nat) (s : State) : State :=
  let p := match (s.loop n).image with
    | [] => s.sets.active.loopImage n
    | p => p
  let action := (if 1 ≤ cls && cls ≤ 6 then lcAction p cls else 0) ||| forcedBits n cls
  let s := s.countFault n
  if action = 0 then s else
  let s := s.latch n cls action
  let o := 1 - n
  let onOther := action &&& actMask o
  let s := if onOther = 0 then s
    else if (s.loop o).inFault then s.latch o 7 onOther
    else (s.countFault o).latch o 7 (onOther ||| (action &&& 1))
  if bit action 0 then s.registerSource srcMotion else s

/-- Spindle feedback is lost (R143, R173): the lock state enters LOST or NO_SIGNAL. -/
def State.spindleLost (s : State) : State := if (s.loop 0).st == .closed then s.raiseFault 0 3 else s

/-- Pavane latches PAVANE on both loops (R184).
DEDUCED, unsafe (log 62). -/
def State.pavaneMotion (s : State) : State :=
  let one (s : State) (n : Nat) : State := (s.countFault n).latch n 8 7
  (one (one s 0) 1).registerSource srcMotion

/-- The motion source clears when no latched fault carries INHIBIT (R175). -/
def State.motionCheck (s : State) : State :=
  if s.motion.loops.any fun l => l.inFault && bit l.faultAction 0 then s else s.clearSource srcMotion

/-- Has the cause of a loop's latched fault ended (R175)? -/
def State.causeEnded (n : Nat) (s : State) : Bool :=
  let l := s.loop n
  match l.faultCause with
  | 1 | 2 | 4 => true
  | 3 => if n = 0 then s.angle.lock == .locked else !l.noMeas
  | 5 => if n = 0 then s.motion.mdrv.misses == 0 else !s.motion.galvoShort
  | 6 => !s.motion.mdrv.drvFault
  | 7 => !(s.loop (1 - n)).inFault
  | _ => false

/-- New settings on a loop: its numbers go from the old exponents to the new ones (R169), where it has old ones. -/
def Loop.withSettings (p c : List Byte) (l : Loop) : Loop :=
  if l.image = [] then
    { l with image := p, coef := c, xh := if l.xh.length = lcStates p then l.xh else List.replicate (lcStates p) 0 }
  else swapStates p c l

/-- The state that a set gives a loop, and its settings with it (R168, R169, R170).
DEDUCED, unsafe (log 62). -/
def Loop.enter (p c : List Byte) (l : Loop) : Loop :=
  if p = [] then { l with st := .unconfigured, image := [], coef := [], closing := false }
  else if lcMode p = 2 then
    { l.withSettings p c with
             st := .closed, closing := true, stateReset := false,
             gapCount := 0, feCount := 0, innovCount := 0, satCount := 0, closedFor := 0, feRaised := false, innovRaised := false,
             gapRaised := false }
  else { l.withSettings p c with st := .opened, closing := false }

/-- A latched fault is cleared.
DEDUCED, unsafe (log 62). -/
def State.unlatch (n : Nat) (s : State) : State :=
  let p := s.sets.active.loops.getD n []
  let c := s.sets.active.coefs.getD n []
  (s.onLoop n fun l =>
    { l.enter p c with faultCause := 0, faultAction := 0, feCount := 0, innovCount := 0, overruns := 0, feRaised := false,
                       innovRaised := false, gapRaised := false }).motionCheck

end Sys2Proof.Machine
end

