-- ==== Sys2Proof/Machine/Resolver.lean ====
section
/-!
DEFINITION. The resolver's shared operations (chapter 5): the fields of ANGLE_CONFIG, settling of the filter slots, publishing
angle and speed, the encoder generator, and the entry into the states without a valid angle. The time base uses them too.
-/
namespace Sys2Proof.Machine

/-! ## ANGLE_CONFIG (Table 5.8) -/

def acFreq (p : List Byte) : Nat := u16 p 0 % 4
def acGain (p : List Byte) : Nat := bits (u16 p 0) 2 2
def acAmpl (p : List Byte) : Nat := u16 p 2 % 2048
def acPreset (p : List Byte) : Nat := u8 p 4
def acFreeze (p : List Byte) : Bool := bit (u8 p 5) 2
def acAuto (p : List Byte) : Bool := bit (u8 p 5) 3
def acPhase (p : List Byte) : Nat := u16 p 6
def acBw (p : List Byte) : Nat := u8 p 8
/-- COAST_MAX in units of 10 µs. -/
def acCoast (p : List Byte) : Nat := u16 p 10
def acStages (p : List Byte) : Nat := u8 p 16
def acWindow (p : List Byte) : Nat := u8 p 17
/-- Length of custom stage `k`: 0 stands for 1024. -/
def acLength (p : List Byte) (k : Nat) : Nat := if u16 p (24 + 2 * k) % 1024 = 0 then 1024 else u16 p (24 + 2 * k) % 1024
def acAmpLo (p : List Byte) : Nat := u8 p 32
def acAmpHi (p : List Byte) : Nat := u8 p 33
def acAmpCount (p : List Byte) : Nat := u8 p 34
def acStuckCount (p : List Byte) : Nat := u8 p 35
def acStuckDelta (p : List Byte) : Nat := u16 p 36
def acSlip (p : List Byte) : Nat := u16 p 38
def acSpeedTol (p : List Byte) : Nat := u16 p 40
def acCycLimit (p : List Byte) : Nat := u16 p 42
/-- The speed-check gate (Table 4.4): length in fine steps, fewest pairs, residual limit. -/
def acGate (p : List Byte) : Nat := u32 p 48 * 81920
def acMinCount (p : List Byte) : Nat := u16 p 52
def acResid (p : List Byte) : Nat := u16 p 54

/-- A half period of the excitation in fine steps: one demodulation step. -/
def halfPeriod (p : List Byte) : Nat := [20480000, 8192000, 4096000, 2048000].getD (acFreq p) 4096000

/-- Half periods per second. -/
def stepRate (p : List Byte) : Nat := [4000, 10000, 20000, 40000].getD (acFreq p) 20000

/-- D of R127. -/
def decimation (p : List Byte) : Nat := [320, 128, 64, 32].getD (acFreq p) 64

/-- Stage lengths of the cascade in use (Table 5.2). -/
def cascade (p : List Byte) : List Nat :=
  match acPreset p with
  | 0 => List.replicate 2 (decimation p)
  | 2 => List.replicate 4 (decimation p)
  | 4 => (List.range (acStages p)).map (acLength p)
  | _ => List.replicate 3 (decimation p)

/-- W: the demodulation window in half periods. -/
def windowSteps (p : List Byte) : Nat :=
  match acPreset p with
  | 0 => 1
  | 2 => 4
  | 4 => 2 ^ acWindow p
  | _ => 2

/-- N: outputs marked UNSETTLED after a reset (R130). -/
def settleCount (p : List Byte) : Nat :=
  if acPreset p = 3 then 3 + ceilDiv (300 * stepRate p) 1000000
  else windowSteps p + ceilDiv ((cascade p).foldl (· + ·) 0) (16 * decimation p)

/-- The group delay in fine steps (Table 5.2). -/
def groupDelay (p : List Byte) : Nat :=
  if acPreset p = 3 then 6144 * 4000
  else 2000 * (((cascade p).map (· - 1)).foldl (· + ·) 0) + windowSteps p * halfPeriod p / 2

/-- Does a change from `p` to `q` change the excitation, or the preset or custom cascade (R125, R131)? -/
def excChanges (p q : List Byte) : Bool := slice p 0 4 != slice q 0 4
def resetNeeded (p q : List Byte) : Bool := excChanges p q || acPreset p != acPreset q || slice p 16 16 != slice q 16 16

/-- The ANGLE_CONFIG in force once what waits for the next tracking update has been taken. -/
def Angle.wanted (a : Angle) : List Byte := a.next.getD a.config

/-- What a synchronising reset takes at once from `q`: the excitation, the preset and custom cascade, and the COAST_MAX that governs the
coast that follows (R134); the other fields stay until the next tracking update.
DEDUCED, unsafe (log 58). -/
def resetPart (p q : List Byte) : List Byte :=
  slice q 0 5 ++ slice p 5 5 ++ slice q 10 2 ++ slice p 12 4 ++ slice q 16 16 ++ slice p 32 32

/-! ## Parts of the state -/

def State.fslot (n : Nat) (s : State) : FilterSlot := s.angle.slots.getD n FilterSlot.reset
def State.onFslot (n : Nat) (f : FilterSlot → FilterSlot) (s : State) : State :=
  s.onAngle fun a => { a with slots := a.slots.modify n f }

/-- Fine steps now, on the scale of R118. -/
def State.fineNow (s : State) : Nat := 64 * s.clk.tickCount

/-- Every carrier slot has its first N outputs to mark (R131).
DEDUCED, safe (log 51). -/
def State.unsettleCarrier (s : State) : State :=
  let n := settleCount s.angle.config
  (List.range 3).foldl (fun s k => s.onFslot k fun f => { f with unsettled := n }) s

/-- A slot whose filter starts anew; the DC block keeps its estimate (R128). -/
def FilterSlot.cleared (f : FilterSlot) : FilterSlot := { f with stages := [], pad := [], sums := [] }

/-- A synchronising reset of the carrier group (R131).
DEDUCED, unsafe (log 58). -/
def State.resetCarrier (s : State) : State :=
  ((List.range 3).foldl (fun s k => s.onFslot k FilterSlot.cleared) s).unsettleCarrier

/-- Every slot changes to its test source, or back from it (R131, R132): N outputs of a carrier slot are UNSETTLED, two of a galvo
slot. -/
def State.switchSources (s : State) : State :=
  [3, 4].foldl (fun s k => s.onFslot k fun f => { f with unsettled := 2 }) s.unsettleCarrier

/-! ## Excitation (R123) -/

/-- The EXC DAC's samples in a period of the excitation (Table 5.1). -/
def excPeriod (p : List Byte) : Nat := [5120, 2048, 1024, 512].getD (acFreq p) 1024

/-- Sample `k` of the excitation as a DAC code: EXC_AMPL times a sine about 2048, its second half the first one negated. -/
def excCode (p : List Byte) (k : Nat) : Int :=
  let n := excPeriod p
  let half (j : Nat) : Int := roundDiv (acAmpl p * sinTurns (mkRat j n)) (2 ^ 60)
  if 2 * (k % n) < n then 2048 + half (k % n) else 2048 - half (k % n - n / 2)

/-- What the EXC DAC puts out now, at 10.24 MS/s from phase 0 on: a code, or none while its output switch is open. -/
def State.excOut (s : State) : Option Int :=
  match s.angle.exc with
  | .switchOpen => none
  | .park code | .hold code => some code
  | .run => some (excCode s.angle.config ((s.fineNow - s.angle.excStart) / 8000))

/-! ## The published angle (R138) -/

/-- A resolver reading (2^-32 rev) in the mechanical frame. -/
def State.toFrame (res : Nat) (s : State) : Nat :=
  let z0 := s.angle.zeroOffset * 4096
  (((if s.angle.dir then (z0 : Int) - res else res - (z0 : Int))) % 2 ^ 32).toNat

/-- cyc(phi) in 2^-32 rev: the correction interpolated between entries (R140). -/
def CycTable.at (phi : Nat) (t : CycTable) : Int :=
  let e := t.entries.getD (phi / 2 ^ 22 % 1024) (0, 0)
  e.1 + roundDiv (e.2 * (phi % 2 ^ 22 : Nat)) (2 ^ 22)

def Angle.cyc (phi : Nat) (a : Angle) : Int := (a.table.map (CycTable.at phi)).getD 0

/-- Publishes the loop's estimate for a stamp.
DESIGN CHOICE, unsafe (log 52). -/
def State.publish (stampNext : Nat) (s : State) : State :=
  let a := s.angle
  let res := (((a.phi : Int) - a.cyc a.phi) % 2 ^ 32).toNat
  let est := s.toFrame res
  let v := roundDiv a.speed 65536
  s.onAngle fun a =>
    { a with est := est, angle := (roundDiv est 4096 % turn).toNat, pubSpeed := if a.dir then -v else v,
             pubStamp := stampNext, stamp := stampNext }

/-! ## The encoder generator (R147 to R149) -/

def encLines (p : List Byte) : Nat := u32 p 0
def encZero (p : List Byte) : Nat := u32 p 4 % turn
def encSwap (p : List Byte) : Bool := bit (u8 p 8) 0
def encRealign (p : List Byte) : Bool := bit (u8 p 8) 1
def encZOn (p : List Byte) : Bool := bit (u8 p 8) 2

/-- Counts in a revolution. -/
def State.encTurn (s : State) : Nat := 4 * encLines s.angle.encImage

/-- The angle estimate now, as a 32-bit fraction. -/
def State.estNow (s : State) : Nat :=
  let a := s.angle
  ((a.est + roundDiv (65536 * a.pubSpeed * ((s.fineNow : Int) - a.pubStamp)) fineHz) % 2 ^ 32).toNat

/-- q of the current angle. -/
def State.encTarget (s : State) : Nat := s.estNow * s.encTurn / 2 ^ 32

/-- Drives the pins for the generator's count. -/
def State.encDrive (s : State) : State :=
  let p := s.angle.encImage
  let n := encLines p
  s.onAngle fun a =>
    let q := a.encCount
    let m := q % 4
    let x := n != 0 && (m == 1 || m == 2)
    let y := n != 0 && (m == 2 || m == 3)
    { a with encA := if encSwap p then y else x, encB := if encSwap p then x else y,
             encZ := encZOn p && n != 0 && m == 2 && q / 4 == encZero p * n / turn }

/-- Realignment by jump. -/
def State.encJump (s : State) : State :=
  let q := s.encTarget
  (s.onAngle fun a => { a with encCount := q, encFrozen := false, encOver := false, encCatch := false }).encDrive

/-- 4 × LINES × |speed| in counts per second, times 2^16. -/
def State.encRate (s : State) : Nat := s.encTurn * s.angle.pubSpeed.natAbs

/-- The generator resumes after a freeze (R149); one that an overrun froze, below 19 MHz (R148). -/
def State.encResume (s : State) : State :=
  if !s.angle.encFrozen || encLines s.angle.encImage = 0 || (s.angle.encOver && 19000000 * 65536 ≤ s.encRate) then s else
  let s := s.onAngle fun a => { a with encRealigned := true, realignTotal := satInc 32 a.realignTotal }
  if encRealign s.angle.encImage then s.onAngle fun a => { a with encFrozen := false, encOver := false, encCatch := true }
  else s.encJump

/-- The outputs freeze at their levels. -/
def State.encFreeze (s : State) : State := s.onAngle fun a => { a with encFrozen := true, encCatch := false }

/-! ## Losing the angle (R142, R143, R146) -/

/-- A running or waiting learning pass is discarded. -/
def State.discardLearn (det : Nat) (s : State) : State :=
  match s.angle.learn with
  | some l =>
    (s.onAngle fun a => { a with learn := none, learnState := 3, learnDetail := det, learnDiscarded := true }).finish 0x0504
      l.cmd stFaultAngle det 0 []
  | none => s

/-- A pass that runs, not one that waits for its first boundary.
DEDUCED, unsafe (log 56). -/
def State.learning (s : State) : Bool := s.angle.learn.any fun l => !l.waiting

/-- What the entry into LOST or NO_SIGNAL does (R146). The loop's own speed is given up; the published one is held.
DEDUCED, unsafe (log 54). -/
def State.angleGone (st : LockState) (s : State) : State :=
  let s := (s.registerCause causeAngle).endGroups.loseSweep
  let s := s.onAngle fun a =>
    { a with lock := st, coastSince := none, lowFails := 0, highFails := 0, slip := 0, acqPairs := 0, acqLow := 0,
             lockCount := 0, aSum := 0, aCount := 0, relearn := 0, firstPair := none, excFails := 0, mismatchRun := 0,
             speed := 0, speedI := 0, resetCmds := a.resetCmds.map fun x => (x.1, x.2.1, x.2.2.1, true),
             encZ := false, cams := a.cams.map fun c => { c with high := false, committed := [] },
             gate := { a.gate with prev := none, pairs := [], speeds := [] } }
  (s.encFreeze.discardLearn 2).spindleLost

/-- Loss of lock with a cause (R144). -/
def State.loseLock (cause : Nat) (s : State) : State :=
  (s.onAngle fun a => { a with lossCause := cause, lossCount := satInc 16 a.lossCount }).angleGone .lost

/-- Is the angle in use, so that the tests of Table 5.5 apply? -/
def State.tracking (s : State) : Bool := s.angle.lock == .locked || s.angle.lock == .coast

/-- LOCKED goes to COAST: a pair is skipped. -/
def State.coast (s : State) : State :=
  if s.angle.lock != .locked then s else
  let now := s.now
  let s := s.onAngle fun a =>
    { a with lock := .coast, coastSince := some now, gate := { a.gate with prev := none, pairs := [], speeds := [] } }
  if s.learning then s.discardLearn 2 else s

/-- The excitation stops: the DAC parks and the signal is gone (Table 5.4). -/
def State.parkExc (s : State) : State :=
  let code := s.emission.excPark
  s.onAngle fun a => { a with exc := a.exc.parked code }

/-- The loss of the tick clock, as the resolver sees it (R131, R149, R119). -/
def State.resolverUnlock (s : State) : State :=
  (s.unsettleCarrier.encFreeze).onAngle fun a => { a with gate := { a.gate with fault := true } }

end Sys2Proof.Machine
end

