-- ==== Sys2Proof/Machine/Clock.lean ====
section
/-!
DEFINITION. Meanings of the time-base events beside the windows (R94 to R102) and of PTP (R363 to R365): losing and
regaining the PLL, the ageing adjustment, offset samples and the port that gives them.
-/
namespace Sys2Proof.Machine

/-! ## Losing the tick clock (R96, R97) -/

/-- A fired window closes with a time fault, and an ambient span with its record. -/
def State.faultWindow (s : State) (ch : Nat) : State :=
  match (s.channel ch).win.phase with
  | .range => (s.flushEdge ch).stopRange ch s.clk.tickCount false true
  | .ambient => s.endAmbient ch s.clk.tickCount false
  | _ => s

/-- What the loss of the tick clock or of the crystal does: the inhibit source is registered, open windows close with
TIME_FAULT, the trackers return to IDLE (R325), device time goes on degraded. -/
def State.loseClock (src : Nat) (s : State) : State :=
  let now := s.now
  let s := if s.clk.pllLocked then s.endSegment else s
  let s := s.onClk fun c =>
    { c with pllLocked := false, degraded := true, unlockAt := if c.pllLocked then now else c.unlockAt }
  ((List.range 192).foldl State.faultWindow (s.registerSource src)).resolverUnlock.idleTrackers

/-- PLL_UNLOCK.
DEDUCED, unsafe (log 47). -/
def pllUnlock (s : State) : State :=
  if !s.clk.started || !s.clk.pllLocked then s else
  (s.onClk fun c => { c with unlocked := true, unlockCount := satInc 16 c.unlockCount }).loseClock srcPll

def execPllUnlock (s : State) : Result := .next (pllUnlock s)

/-- Lanes whose front ends are powered and that serve a channel, and the T0 lane. -/
def State.lanesInUse (s : State) : List Nat := (List.range 41).filter fun n => (s.lane n).inUse && !(s.lane n).failed

/-- Crystal cycles of 25 ns since the unlock. -/
def State.crystalCycles (s : State) : Nat := (s.now - s.clk.unlockAt) / 32

/-- PLL_RELOCK: TICK_COUNT resumes from its value at unlock plus the elapsed crystal cycles × 32; lanes warm up
and the encoder realigns. A count other than the cycles that have elapsed is no relock of this unlock.
DEDUCED, unsafe (log 47). -/
def pllRelock (cycles : Nat) (s : State) : State :=
  if !s.clk.unlocked || s.clk.pllLocked || s.clk.xoStop || cycles != s.crystalCycles then s else
  let now := s.now
  let s := s.onClk fun c => { c with pllLocked := true, relockAt := now, tickCount := wrap 64 (c.tickCount + 32 * cycles) }
  let s := s.lanesInUse.foldl State.warmLane s
  if s.tracking then s.encResume else s

def execPllRelock (cycles : Nat) (s : State) : Result := .next (pllRelock cycles s)

/-- PLL_LOCK_HOLD: lock held for 100 µs and every lane in use that is not failed has accepted a calibration. -/
def pllLockHold (s : State) : State :=
  if s.clk.unlocked && s.clk.pllLocked && s.since s.clk.relockAt (us 100) &&
     (s.lanesInUse.all fun n => (s.lane n).last.isSome) then
    (s.onClk fun c => { c with unlocked := false, degraded := false }).clearSource srcPll
  else s

def execPllLockHold (s : State) : Result := .next (pllLockHold s)

/-! ## Ageing adjustment (R98 to R100) -/

/-- Ticks of a 10-minute interval. -/
def tenMinutes : Nat := 768000000000

/-- The time-base calibration record (Table 16.10). -/
def recTimebase : Nat := 4

/-- The mean rate term as a fractional frequency error, LSB 2^-40. -/
def Clk.meanError (c : Clk) : Int := roundDiv (c.rateSum * 2 ^ 40) (pos (c.rateTicks * 14411518808))

/-- Does the mean exceed 0.1 ppm? -/
def Clk.errorLarge (c : Clk) : Bool := decide (c.rateTicks * 14411518808 < c.rateSum.natAbs * 10000000)

/-- The pulling slope, FREQ_ERR per code: as the last two retrims measured it, or the factory's until there are two (R99).
DEDUCED, unsafe (log 44). -/
def Clk.pullSlope (c : Clk) : Rat :=
  match c.retrims.reverse with
  | a :: b :: _ => if a.1 = b.1 then (Config.xoSlope : Rat) else ((a.2 - b.2 : Int) : Rat) / ((a.1 - b.1 : Int) : Rat)
  | _ => (Config.xoSlope : Rat)

/-- The change of code that takes FREQ_ERR back by the slope, at most 64 codes.
DEDUCED, unsafe (log 44). -/
def Clk.trimChange (c : Clk) : Int := clampInt (-64) 64 (-(roundRat ((c.freqErr : Rat) / c.pullSlope)))

/-- A retrim (R99): the new code is stored first.
DEDUCED, unsafe (log 44). -/
def State.retrim (s : State) : State :=
  let code := (clampInt 0 4095 ((s.clk.xoTrim : Int) + s.clk.trimChange)).toNat
  (s.onClk fun c =>
    { c with xoTarget := code, retrimPending := true, retrims := c.retrims ++ [((c.xoTrim : Int), c.freqErr)] }).deviceStore
    recTimebase

/-- FREQ_ERR_INTERVAL: ten minutes of LOCKED have passed. -/
def freqErrInterval (s : State) : State :=
  let c := s.clk
  if c.state != .locked || c.rateTicks < tenMinutes then s else
  let large := c.errorLarge
  let s := s.onClk fun c => { c with freqErr := c.meanError, rateSum := 0, rateTicks := 0 }
  if large && !s.clk.retrimPending && (s.clk.lastRetrim.all fun t => s.since t tenMinutes) then s.retrim else s

def execFreqErrInterval (s : State) : Result := .next (freqErrInterval s)

/-- XO_TRIM_RAMP_STEP: one code per 100 µs towards the stored code, but none in holdover (R100). -/
def xoTrimRampStep (s : State) : State :=
  let c := s.clk
  if c.xoTrim = c.xoStored || !s.since c.rampAt (us 100) || c.state == .holdover then s else
  let now := s.now
  s.onClk fun c =>
    let x := if c.xoTrim < c.xoStored then c.xoTrim + 1 else c.xoTrim - 1
    { c with xoTrim := x, rampAt := now, retrimPending := x != c.xoStored }

def execXoTrimRampStep (s : State) : Result := .next (xoTrimRampStep s)

/-! ## Device time states (R102) -/

/-- 1 ms, 1 µs and 10 µs in units of 2^-64 s, rounded down. -/
def devMs : Nat := 2 ^ 64 / 1000
def devUs : Nat := 2 ^ 64 / 1000000

/-- The limit of the rate term, 500 ppm of the nominal increment. -/
def rateLimit : Nat := 7205759

/-- The servo's rate term after a sample; its gains are not stated, so it is a free value within the limit.
DESIGN CHOICE, safe (log 45). -/
def State.servoRate (s : State) : Int := (s.freeValue % (2 * rateLimit + 1) : Nat) - (rateLimit : Int)

/-- DESIGN CHOICE, safe (log 45). -/
def State.slew (s : State) : State :=
  let r := s.servoRate
  (s.endSegment.freeNext).onClk fun c => { c with rate := r, timeValid := true }

/-- Device time is set to PTP time; a delay measurement under way, whose stamps lie on both sides of the step, is given up.
DEDUCED, unsafe (log 48). -/
def State.stepTime (offset : Int) (s : State) : State :=
  (s.endSegment.onNet fun n =>
    { n with ports := n.ports.map fun x => { x with ptp := { x.ptp with syncGap := none, asked := none, answer := none } } }).onClk fun c =>
    { c with devTime := ((c.devTime : Int) - offset).toNat, stepped := true, timeValid := true }

/-- Device time leaves LOCKED. -/
def State.holdOver (s : State) : State :=
  s.onClk fun c => { c with state := .holdover, goodSamples := 0, rateSum := 0, rateTicks := 0 }

/-- A sample in ACQUIRE: a step or a slew, and LOCKED after 8 within 1 µs. -/
def State.acquire (offset : Int) (s : State) : State :=
  let now := s.now
  let good := if offset.natAbs ≤ devUs then s.clk.goodSamples + 1 else 0
  let s := if devMs < offset.natAbs || !s.clk.timeValid then s.stepTime offset else s.slew
  s.onClk fun c =>
    if 8 ≤ good then { c with state := .locked, goodSamples := 0, lockedSince := now, rateSum := 0, rateTicks := 0 }
    else { c with state := .acquire, goodSamples := good }

/-- An offset sample, device time less PTP time in units of 2^-64 s. -/
def State.offsetSample (offset : Int) (s : State) : State :=
  let now := s.now
  let nsec := clampInt (-(2 ^ 31)) (2 ^ 31 - 1) (roundDiv (offset * 1000000000) (2 ^ 64))
  let s := s.onClk fun c => { c with lastSample := some now, ptpOffset := nsec }
  match s.clk.state with
  | .locked => if 10 * devUs < offset.natAbs then s.holdOver else s.slew
  | .acquire => s.acquire offset
  | _ => (s.onClk fun c => { c with state := .acquire, goodSamples := 0 }).acquire offset

/-- PTP_HOLDOVER_TIMEOUT: no sample for 4 s while LOCKED. -/
def ptpHoldoverTimeout (s : State) : State :=
  if s.clk.state == .locked && s.clk.lastSample.all fun t => s.since t (sec 4) then s.holdOver else s

def execPtpHoldoverTimeout (s : State) : Result := .next (ptpHoldoverTimeout s)

/-! ## PTP ports (R363 to R365) -/

/-- An interval of 2^k s in ticks. -/
def logTicks (k : Int) : Nat := if 0 ≤ k then sec 1 * 2 ^ k.toNat else sec 1 / 2 ^ (-k).toNat

/-- Is grandmaster `a` better than `b`, as the best master clock algorithm compares them?
DEDUCED, unsafe (log 48). -/
def gmBetter (a b : GmData) : Bool :=
  let key (g : GmData) : List Nat :=
    [g.priority1, g.clockClass, g.accuracy, g.variance, g.priority2, g.identity, g.steps]
  decide (key a < key b)

/-- Is a port in SLAVE state? -/
def State.slaveAt (p : Nat) (s : State) : Bool := (s.ptp p).state == ptpSlave

/-- Has a port gone 3 of its intervals without a Sync, since its last one, since it came to SLAVE or since it was selected?
DEDUCED, unsafe (log 48). -/
def State.syncLost (p : Nat) (s : State) : Bool := s.since (s.ptp p).syncFrom (3 * (s.ptp p).syncInterval)

/-- A port in SLAVE state whose Sync comes. -/
def State.ptpUsable (p : Nat) (s : State) : Bool := s.slaveAt p && !s.syncLost p

/-- The port that feeds the servo now. -/
def State.ptpSelected (s : State) : Option Nat := [0, 1].find? fun p => (s.ptp p).selected

/-- Do two grandmasters have equal data, whatever the way to them? -/
def gmSame (a b : Option GmData) : Bool := a.map (fun g => { g with steps := 0 }) == b.map (fun g => { g with steps := 0 })

/-- The port that should feed the servo (R365): one in SLAVE state. Of two, the other one when the selected port's Sync is lost; one whose
Sync comes rather than one whose Sync does not; with equal grandmaster data port A; else the one selected already, or the one with the
better grandmaster.
DEDUCED, unsafe (log 48). -/
def State.ptpChoice (s : State) : Option Nat :=
  match s.slaveAt 0, s.slaveAt 1 with
  | false, false => none
  | true, false => some 0
  | false, true => some 1
  | true, true =>
    match s.ptpSelected with
    | some p =>
      if s.syncLost p then some (1 - p)
      else if gmSame (s.ptp 0).gm (s.ptp 1).gm && !s.syncLost 0 then some 0 else some p
    | none =>
      if s.syncLost 0 != s.syncLost 1 then some (if s.syncLost 0 then 1 else 0)
      else match (s.ptp 0).gm, (s.ptp 1).gm with
        | some a, some b => if !gmSame (some a) (some b) && gmBetter b a then some 1 else some 0
        | _, _ => some 0

/-- Selects the port; a port that another replaced because it left SLAVE or lost its Sync sets PTP_PORT_CHANGED. Of the port newly
selected a missing Sync counts from now. -/
def State.selectPtp (s : State) : State :=
  let old := s.ptpSelected
  let new := s.ptpChoice
  let now := s.now
  let changed := new.isSome && old.any fun p => new != some p && !s.ptpUsable p
  let s := [0, 1].foldl (fun s p => s.onPtp p fun x =>
    { x with selected := new == some p, syncFrom := if new == some p && old != new then now else x.syncFrom }) s
  s.onNet fun n => { n with portChanged := n.portChanged || changed }

/-- The data set of the device's own clock: slave only, with clockClass 255 (R363). No message of Table 14.2 that a slave sends carries it.
The other fields are those of a clock that is never master.
PRESUMED, unsafe (log 145). -/
def State.ownClock (s : State) : GmData :=
  { priority1 := 255, clockClass := 255, accuracy := 0xFE, variance := 0xFFFF, priority2 := 255,
    identity := beNat ((ptpIdentity (ncMac s.net.config) 0).take 8), steps := 0 }

/-- The interval of a port's Syncs before the first has named it: that of the profile.
PRESUMED, unsafe (log 145). -/
def firstInterval (profile : Nat) : Nat := logTicks (if profile = 1 then -3 else 0)

/-- An Announce: of a master better than the device's own clock; a better grandmaster than the port's, or news of the same one, is
taken. -/
def State.ptpAnnounce (p : Nat) (gm : GmData) (interval : Int) (s : State) : State :=
  let now := s.now
  let take := match (s.ptp p).gm with
    | none => true
    | some g => g.identity == gm.identity || gmBetter gm g
  if !take || !gmBetter gm s.ownClock then s else
  let first := firstInterval (ncProfile s.net.config)
  (s.onPtp p fun x =>
    let x := if x.state = ptpSlave then x else { x with syncFrom := now, syncInterval := first }
    { x with state := ptpSlave, gm := some gm, lastAnnounce := some now, announceInterval := logTicks interval }).selectPtp

/-- A Sync at a port in SLAVE: with profile 2 a Delay_Req answers it; from the selected port it is an offset sample. -/
def State.ptpSync (p origin : Nat) (interval : Int) (s : State) : State :=
  if !s.slaveAt p || interval < -7 || 1 < interval then s else
  let now := s.now
  let gap := s.ingressStamp p - origin
  let s := (s.onPtp p fun x => { x with syncFrom := now, syncInterval := logTicks interval, syncGap := some gap }).selectPtp
  let s := if ncProfile s.net.config = 2 then s.sendRequest p 1 else s
  if (s.ptp p).selected then s.offsetSample (gap - (s.ptp p).delay) else s

/-- A Delay_Resp: the mean of both ways' differences is the path delay (profile 2).
PRESUMED, unsafe (log 145). -/
def PtpPort.takeDelay (n receipt : Nat) (x : PtpPort) : PtpPort :=
  match x.asked, x.syncGap with
  | some a, some gap => if a.1 = n then { x with delay := (gap + ((receipt : Int) - a.2)) / 2, asked := none } else x
  | _, _ => x

/-- A Pdelay_Resp that came now: its peer's time of receipt and this one's are kept for the follow-up. -/
def PtpPort.takeResponse (n receipt : Nat) (stamp : Int) (x : PtpPort) : PtpPort :=
  if x.asked.any (·.1 == n) then { x with answer := some (receipt, stamp) } else x

/-- Its follow-up: the round trip less the peer's own time, halved, is the link delay (profile 1).
PRESUMED, unsafe (log 145). -/
def PtpPort.takeFollowUp (n departed : Nat) (x : PtpPort) : PtpPort :=
  match x.asked, x.answer with
  | some a, some b =>
    if a.1 = n then { x with delay := ((b.2 - a.2) - ((departed : Int) - b.1)) / 2, asked := none, answer := none } else x
  | _, _ => x

/-- PTP_MESSAGE_RECEIVE: of the configured profile and domain, on a port whose link is up. Pdelay_Req is answered in two
steps.
DEDUCED, unsafe (log 48). -/
def ptpMessageReceive (m : PtpMessage) (s : State) : State :=
  let c := s.net.config
  let p := m.port
  if 1 < p || !s.netPowered || !s.linkUp p || ncProfile c = 0 || m.profile != ncProfile c || m.domain != ncDomain c then s else
  match m.kind with
  | .announce gm i => s.ptpAnnounce p gm i
  | .sync origin i => s.ptpSync p origin i
  | .requestReceived n who => if m.profile = 1 then s.sendPdelay p n who else s
  | .delayResponse n t => if m.profile = 2 then s.onPtp p (·.takeDelay n t) else s
  | .pdelayResponse n t =>
    let stamp := s.ingressStamp p
    if m.profile = 1 then s.onPtp p (·.takeResponse n t stamp) else s
  | .pdelayFollowUp n t => if m.profile = 1 then s.onPtp p (·.takeFollowUp n t) else s

def execPtpMessageReceive (m : PtpMessage) (s : State) : Result := .next (ptpMessageReceive m s)

/-- PTP_SYNC_TIMEOUT: the selected port receives no Sync for 3 of its intervals. -/
def ptpSyncTimeout (s : State) : State := if s.ptpSelected.any fun p => s.syncLost p then s.selectPtp else s

def execPtpSyncTimeout (s : State) : Result := .next (ptpSyncTimeout s)

/-- ANNOUNCE_RECEIPT_TIMEOUT: three announce intervals without one; the port leaves SLAVE. A link that went down takes it there too, by
this time-out.
DEDUCED, unsafe (log 48). -/
def announceReceiptTimeout (p : Nat) (s : State) : State :=
  if 1 < p || (s.ptp p).state != ptpSlave || !((s.ptp p).lastAnnounce.any fun t => s.since t (3 * (s.ptp p).announceInterval))
  then s
  else
    let idle := ptpIdle (ncProfile s.net.config) (s.linkUp p)
    (s.onPtp p fun x => { x with state := idle, gm := none, lastAnnounce := none }).selectPtp

def execAnnounceReceiptTimeout (port : Nat) (s : State) : Result := .next (announceReceiptTimeout port s)

end Sys2Proof.Machine
end

