-- ==== Sys2Proof/Machine/Filter.lean ====
section
/-!
DEFINITION. The filter engine's arithmetic (R126 to R132): moving-average stages over the modulator bits, decimation, the DC block,
synchronous demodulation, and the galvo path.
-/
namespace Sys2Proof.Machine

/-! ## Stages (R127) -/

/-- A word of a stage, 22 bits signed: the widest of which 1024 fit a 32-bit accumulator.
DESIGN CHOICE, unsafe (log 130). -/
def clamp22 (v : Int) : Int := clampInt (-2097152) 2097151 v

/-- A modulator sample at the cascade's input: full scale of a word.
DESIGN CHOICE, unsafe (log 130). -/
def modWord (b : Bool) : Int := if b then 2097151 else -2097152

/-- A stage of length `len` takes a word: its sum over the last `len` words, shifted right by `shift` and saturated. The flag says
whether it did not fit. -/
def FilterStage.push (len shift : Nat) (x : Int) (k : FilterStage) : FilterStage × Int × Bool :=
  let acc := k.acc + x - (if len ≤ k.line.length then k.line.getD (len - 1) 0 else 0)
  let y := acc / 2 ^ shift
  ({ line := (x :: k.line).take len, acc := acc }, clamp22 y, decide (clamp22 y ≠ y))

/-- A word runs through the stages of (length, shift), those not yet started being empty. -/
def pushStages : List (Nat × Nat) → List FilterStage → Int → List FilterStage × Int × Bool
  | [], _, x => ([], x, false)
  | c :: cs, ks, x =>
    let a := (ks.headD { line := [], acc := 0 }).push c.1 c.2 x
    let b := pushStages cs ks.tail a.2.1
    (a.1 :: b.1, b.2.1, a.2.2 || b.2.2)

/-- The modulator bits of one decimated sample run through the stages: the last word is the sample. -/
def pushBits (cs : List (Nat × Nat)) : List Bool → List FilterStage × Int × Bool → List FilterStage × Int × Bool
  | [], r => r
  | b :: bs, r =>
    let x := pushStages cs r.1 (modWord b)
    pushBits cs bs (x.1, x.2.1, r.2.2 || x.2.2)

/-- Right shift after a stage of a preset: log2 of the next power of two at or above D (R130). -/
def presetShift (p : List Byte) : Nat := [9, 7, 6, 5].getD (acFreq p) 6

/-- The stages of the cascade in use as (length, shift). -/
def stagesOf (p : List Byte) : List (Nat × Nat) :=
  if acPreset p = 4 then (List.range (acStages p)).map fun k => (acLength p k, bits (u16 p (24 + 2 * k)) 14 10)
  else (cascade p).map fun l => (l, presetShift p)

/-- Modulator samples in a demodulation step: 16 decimated samples (R127). -/
def stepSamples (p : List Byte) : Nat := 16 * decimation p

/-- Modulator samples that Linear's delay line adds, so that its delay comes to 6144 of them (R130).
DESIGN CHOICE, unsafe (log 130). -/
def padSamples (p : List Byte) : Nat :=
  if acPreset p = 3 then 6144 - (((cascade p).map (· - 1)).foldl (· + ·) 0 + windowSteps p * stepSamples p + 1) / 2 else 0

/-! ## The DC block (R128) -/

/-- The DC block's gain per decimated sample in 2^-32; 0 for bypass.
DESIGN CHOICE, unsafe (log 130). -/
def dcGain (p : List Byte) : Int :=
  roundDiv (2 * piFix * ([2, 10, 50].getD (u8 p 5 % 4) 0 : Nat) * 2 ^ 32) (16 * stepRate p * 2 ^ 60)

/-- A decimated sample less the estimate, and the estimate after it. -/
def dcStep (p : List Byte) (held : Bool) (est x : Int) : Int × Int :=
  if u8 p 5 % 4 = 3 then (est, x)
  else (if held then est else est + roundDiv ((x * 65536 - est) * dcGain p) (2 ^ 32), x - roundDiv est 65536)

/-- Is the estimate held, whatever the slot: DC_FREEZE, COAST, or Linear? -/
def State.dcHeld (s : State) : Bool := acFreeze s.angle.config || s.angle.lock == .coast || acPreset s.angle.config == 3

/-! ## Demodulation (R129) -/

/-- A 24-bit signed output. -/
def clamp24 (v : Int) : Int := clampInt (-8388608) 8388607 v

/-- Phase of the reference, in turns, at fine step `t`: delayed by PHASE_ADJ against the excitation. -/
def refPhase (p : List Byte) (adj start t : Nat) : Rat :=
  mkRat ((t : Int) - start) (2 * halfPeriod p) - mkRat adj 65536

/-- The decimated samples of a step, taken in turn: stages, estimate, and the sums of products with the reference and its quadrature.
`k` samples are still to come, the last of them at fine step `t`. -/
def demodStep (p : List Byte) (adj start t : Nat) (held : Bool) :
    Nat → List Bool → List FilterStage × Int × Bool → Int × Int × Int → (List FilterStage × Int × Bool) × Int × Int × Int
  | 0, _, r, q => (r, q)
  | k + 1, bs, r, q =>
    let d := decimation p
    let x := pushBits (stagesOf p) (bs.take d) r
    let y := dcStep p held q.1 x.2.1
    let ph := refPhase p adj start (t - k * d * 4000)
    demodStep p adj start t held k (bs.drop d) x (y.1, q.2.1 + y.2 * sinTurns ph, q.2.2 + y.2 * cosTurns ph)

/-- Sums of products over a window of `w` steps as a 24-bit output: the amplitude of a sine in phase with the reference.
DESIGN CHOICE, unsafe (log 130). -/
def demodOut (w : Nat) (l : List Int) : Int :=
  clamp24 (roundDiv (8 * (l.take w).foldl (· + ·) 0) (16 * pos w * 2 ^ 60))

/-- A carrier slot takes the modulator bits of the step that ends at fine step `t`: its new output, and whether a stage saturated. -/
def FilterSlot.demodulate (p : List Byte) (adj start t : Nat) (held : Bool) (bs : List Bool) (f : FilterSlot) : FilterSlot × Bool :=
  let n := padSamples p
  let all := (f.pad ++ List.replicate (n - f.pad.length) false).reverse ++ bs
  let x := demodStep p adj start t (held || f.unsettled != 0) 16 (all.take bs.length) (f.stages, 0, false) (f.dcBlock, 0, 0)
  let sums := ((x.2.2.1, x.2.2.2) :: f.sums).take 4
  let w := windowSteps p
  ({ f with stages := x.1.1, pad := (all.drop bs.length).reverse, dcBlock := x.2.1, sums := sums,
            out := demodOut w (sums.map (·.1)), quad := demodOut w (sums.map (·.2)) }, x.1.2.2)

/-! ## The galvo path (R132) -/

/-- A galvo slot takes the 512 modulator bits up to its window's end: three stages of 256, each shifted by 8, and their last word as a
24-bit output. -/
def FilterSlot.average (bs : List Bool) (f : FilterSlot) : FilterSlot × Bool :=
  let x := pushBits [(256, 8), (256, 8), (256, 8)] bs (f.stages, 0, false)
  ({ f with stages := x.1, out := clamp24 (4 * x.2.1) }, x.2.2)

/-- The end of the newest GPA window whose GPB window has ended too: 256 modulator samples before a 40 kHz strobe. -/
def State.galvoEnd (s : State) : Option Nat :=
  if s.fineNow < 1024000 + 64000 then none
  else some ((s.fineNow - 64000 - 1024000) / 2048000 * 2048000 + 1024000)

/-- A saturated stage sets FILTER_SAT and counts. -/
def State.noteSat (sat : Bool) (s : State) : State :=
  if sat then s.onAngle fun a => { a with filterSat := true, filterSatTotal := satInc 32 a.filterSatTotal } else s

end Sys2Proof.Machine
end

