-- ==== Sys2Proof/Machine/Zones.lean ====
section
/-!
DEFINITION. Meanings of the shot and field chapter beside the shots themselves (R197 to R212): zone outputs, test pulses,
snapshots and telegrams, the field deadline, and the shot and field opcodes.
-/
namespace Sys2Proof.Machine

/-! ## ZONE_A and ZONE_B (R202 to R204) -/

/-- ZONE_READBACK_FAULT: a readback has differed from its driven level for more than 10 µs. -/
def zoneReadbackFault (s : State) : State := (s.onZone fun z => { z with outFault := true }).driveZones

def execZoneReadbackFault (s : State) : Result := .next (zoneReadbackFault s)

/-- TP_PERIOD and TP_WIDTH in ticks. -/
def State.tpPeriod (s : State) : Nat := ms s.sets.active.tpPeriod
def State.tpWidth (s : State) : Nat := us s.sets.active.tpWidth

/-- May a test pulse start: ZONE_A's once in every TP_PERIOD, ZONE_B's TP_PERIOD / 2 after it? -/
def State.pulseDue (out : Nat) (s : State) : Bool :=
  let z := s.zone
  if out = 0 then z.clearA && z.pulseA.isNone && z.pulseB.isNone && s.since z.lastPulseA s.tpPeriod
  else z.clearB && z.pulseA.isNone && z.pulseB.isNone && decide (z.lastPulseB < z.lastPulseA) &&
    s.since z.lastPulseA (s.tpPeriod / 2)

/-- TEST_PULSE_START. -/
def testPulseStart (out : Nat) (s : State) : State :=
  if 1 < out || !s.pulseDue out then s else
  let now := s.now
  s.onZone fun z =>
    if out = 0 then { z with pulseA := some now, lastPulseA := now } else { z with pulseB := some now, lastPulseB := now }

def execTestPulseStart (output : Nat) (s : State) : Result := .next (testPulseStart output s)

/-- TEST_PULSE_END: TP_WIDTH after its start. -/
def testPulseEnd (out : Nat) (s : State) : State :=
  let elapsed (p : Option Nat) : Bool := p.any fun t => s.since t s.tpWidth
  s.onZone fun z =>
    if out = 0 then { z with pulseA := if elapsed z.pulseA then none else z.pulseA }
    else if out = 1 then { z with pulseB := if elapsed z.pulseB then none else z.pulseB }
    else z

def execTestPulseEnd (output : Nat) (s : State) : Result := .next (testPulseEnd output s)

/-! ## Snapshots and the telegram (R205, R206, R366) -/

/-- Ticks between snapshots: 10 ms. -/
def snapshotTicks : Nat := 12800000

/-- ZONE_STATE. -/
def State.zoneState (s : State) : Nat :=
  flagsOf [s.zone.clearA, s.zone.clearB, s.zone.outFault, s.zone.wdog, s.inhibited, s.clk.timeValid]

/-- Fields of the active set in a state, as bits. -/
def State.fieldBits (p : FieldState → Bool) (s : State) : Nat :=
  ((s.zone.fields.filter fun r => p r.state).map fun r => 2 ^ r.field).foldl (· + ·) 0

/-- The lowest-numbered VIOLATED field. -/
def State.firstViolated (s : State) : Option FieldRun :=
  s.zone.fields.foldl (fun b r => if r.state == .violated && b.all (fun x => decide (r.field < x.field)) then some r else b)
    none

/-- Table 7.4 as it stands now. -/
def State.zonePayload (s : State) : List Byte :=
  let z := s.zone
  let v := s.firstViolated
  le 4 z.tgSequence ++ le 2 z.alive ++ le 2 s.sets.epoch ++ le 8 s.stamp ++
  le 2 ((s.sets.active.fields.map fun f => 2 ^ f.1).foldl (· + ·) 0) ++ le 2 (s.fieldBits (· == .violated)) ++
  le 2 (s.fieldBits (· == .unknown)) ++ le 1 s.zoneState ++ le 1 s.inhibitLive ++
  le 1 ((v.map (·.field)).getD 0xFF) ++ zeros 3 ++ le 4 ((v.map (·.violAngle)).getD 0) ++
  le 4 ((v.map (·.violRange)).getD 0) ++ le 8 z.decisionTime ++ le 4 s.fabric.startId

/-- ZONE_SNAPSHOT: every 10 ms, while the motion domain is powered; ZONE_WDOG clears.
DESIGN CHOICE, unsafe (log 69). -/
def zoneSnapshot (s : State) : State :=
  let t := s.clk.tickCount
  if t % snapshotTicks != 0 || t == s.zone.lastSnapshot || !s.awake .motion then s else
  let s := (s.onZone fun z => { z with wdog := false }).driveZones
  let b := s.zonePayload
  let v := s.firstViolated
  s.onZone fun z =>
    { z with snapshot := b, lastSnapshot := t, tgDue := true, alive := wrap 16 (z.alive + 1),
             violField := (v.map (·.field)).getD 0xFF, violAngle := (v.map (·.violAngle)).getD 0,
             violRange := (v.map (·.violRange)).getD 0 }

def execZoneSnapshot (s : State) : Result := .next (zoneSnapshot s)

/-- ZONE_WDOG: two consecutive snapshots are missing. -/
def zoneWdog (s : State) : State :=
  if s.zone.lastSnapshot + 2 * snapshotTicks < s.clk.tickCount then
    (s.onZone fun z => { z with wdog := true }).driveZones
  else s

def execZoneWdog (s : State) : Result := .next (zoneWdog s)

/-- The telegram's dataset: its payload with TG_SEQUENCE, and the folded check value (Table 15.4). -/
def State.zoneDataset (payload : List Byte) (s : State) : List Byte × List Byte :=
  let p := patch payload 0 (le 4 s.zone.tgSequence)
  let folded := le 8 Config.serial ++ le 4 (tcZoneCom s.net.trdp) ++ slice p 4 2 ++ [0, 0] ++ p
  (p ++ le 4 (crc32c folded), folded)

/-- The last snapshot as it is repeated once the motion domain is down: both outputs not clear, ZONE_WDOG and bit 4. -/
def stalledSnapshot (b : List Byte) : List Byte :=
  patch b 22 (le 1 ((u8 b 22 &&& 0x24) ||| 0x18))

/-- Sends a telegram; with its enable bit or its destination at 0 none is sent. -/
def State.sendTelegram (payload : List Byte) (s : State) : State :=
  let t := s.net.trdp
  if !tcZone t || zeroAt t 24 4 then s else
  let d := s.zoneDataset payload
  ((s.unitItem 12 d.2).sendPd .zone (tcZoneCom t) (tcZoneDest t) d.1).onZone
    fun z => { z with tgSequence := wrap 32 (z.tgSequence + 1) }

/-- ZONE_TELEGRAM_SEND: after each snapshot; with the motion domain powered down, at the instants of R205. -/
def zoneTelegramSend (s : State) : State :=
  let t := s.clk.tickCount
  if !s.netPowered then s
  else if s.zone.tgDue then
    (s.sendTelegram s.zone.snapshot).onZone fun z => { z with tgDue := false, tgAt := t }
  else if !s.awake .motion && t % snapshotTicks == 0 && t != s.zone.tgAt then
    (s.sendTelegram (stalledSnapshot s.zone.snapshot)).onZone fun z => { z with tgAt := t }
  else s

def execZoneTelegramSend (s : State) : Result := .next (zoneTelegramSend s)

/-- FIELD_DEADLINE (R200): 1 ms after a cell's last shot without all its results.
DEDUCED, unsafe (log 68). -/
def fieldDeadline (view cell : Nat) (s : State) : State :=
  match s.zone.cells.find? fun z => z.view == view && z.cell == cell with
  | some z =>
    if z.last + ms 1 < s.clk.tickCount && !(s.sched.cells.any fun c => c.view == view && c.cell == cell && c.epoch == z.epoch)
    then s.zoneDeadline z else s
  | none => s

def execFieldDeadline (view cell : Nat) (s : State) : Result := .next (fieldDeadline view cell s)

/-! ## FIRE_TABLE (R185, R209) -/

/-- ST_STALE_HANDLE for a handle at payload unit 0 that names no live view (R72). -/
def State.staleAt (h unit : Nat) (s : State) : Bool × Nat × Nat := (!(s.sets.live.contains h), stStale, unit)

def ConfigSet.onView (h : Nat) (f : ViewDef → ViewDef) (c : ConfigSet) : ConfigSet :=
  { c with views := c.views.map fun v => if v.handle == h then f v else v }

/-- Range checks of entry `e`. -/
def fireEntryChecks (p : List Byte) (e : Nat) : List (Bool × Nat × Nat) :=
  let b := 16 + 32 * e
  [chk (15 < u8 p b) b, chk (63 < u8 p (b + 1)) (b + 1),
   chk (u8 p (b + 2) = 0 || 8 < u8 p (b + 2) || 64 < u8 p (b + 1) + u8 p (b + 2)) (b + 2), rsvd p (b + 3) 1,
   chk (4095 < u16 p (b + 4)) (b + 4), rsvd p (b + 6) 2]

/-- Rules of entry `e` against the entries before it and the view. -/
def fireEntryRules (v : ViewDef) (p : List Byte) (e : Nat) : List (Bool × Nat × Nat) :=
  let f := fireEntry p e
  let before := (List.range e).map (fireEntry p)
  let b := 16 + 32 * e
  [chk ((before.any fun g => g.emitter == f.emitter) || !v.emitterMask.testBit f.emitter) b,
   chk (before.any fun g => g.group &&& f.group != 0) (b + 8),
   chk (f.group ||| v.channelMask != v.channelMask) (b + 8)]

/-- The failing check of the lowest payload unit. -/
def lowestFail (l : List (Bool × Nat × Nat)) : Verdict :=
  match ((l.filter (·.1)).map (·.2.2)) with
  | [] => .ok
  | u :: r => .reject stParam (r.foldl min u)

/-- The checks of a table against the view it is for. -/
def fireRules (v : ViewDef) (p : List Byte) : List (Bool × Nat × Nat) :=
  let n := fireCount p
  let gs := (fireEntries p).map (·.group)
  let all := gs.foldl (· ||| ·) 0
  let disjoint := (List.range n).all fun e => (gs.take e).all fun g => g &&& gs.getD e 0 == 0
  [chk (n != (v.emitters).length) 5] ++ ((List.range n).map (fireEntryRules v p)).flatten ++
  [chk (disjoint && v.channelMask &&& all != v.channelMask) 0]

/-- The checks of a table by itself. -/
def fireChecks (p : List Byte) : List (Bool × Nat × Nat) :=
  [rsvdBits p 4 1, chk (fireCount p = 0 || 16 < fireCount p) 5, rsvd p 7 1, chk (fireSeed p = 0 && fireDitherMax p != 0) 0,
   rsvd p 12 4] ++ ((List.range (fireCount p)).map (fireEntryChecks p)).flatten

/-- DESIGN CHOICE, unsafe (log 13). -/
def fireTableFields (c : Cmd) (s : State) : Verdict :=
  let p := c.payload
  let h := u32 p 0
  (firstFail [s.staleAt h 0]).andThen
    (match s.sets.shadow.view h with
      | some v => if s.setsBusy then lowestFail (fireChecks p)
        else (lowestFail (fireChecks p ++ fireRules v p)).andThen
          (s.admissionCheck (s.sets.shadow.onView h fun v => { v with fire := some p }) 0)
      | none => lowestFail (fireChecks p))

def fireTableInfo : OpInfo :=
  { code := 0x0701, lenMin := 3, lenMax := 33, implied := fun p => some (1 + 2 * fireCount p), fields := fireTableFields }

def fireTableEffect (c : Cmd) (s : State) : State :=
  s.shadowWrite 0x0701 c fun s =>
    ((s.onShadow (·.onView (u32 c.payload 0) fun v => { v with fire := some c.payload })).onIntegrity fun k =>
      { k with lost := k.lost.filter (· != { shadow := true, params := false, view := u32 c.payload 0 }) }).doneSet 0x0701 c 0 []

def execFireTable (c : Cmd) (s : State) : Result := .next (s.run fireTableInfo c (fireTableEffect c))

/-! ## NEARFIELD_CONFIG (Table 7.8) -/

def nearfieldConfigFields (c : Cmd) (s : State) : Verdict :=
  let p := c.payload
  (firstFail [rsvdBits p 0 1, chk (7 < u8 p 1) 1, chk (u8 p 2 = 0 || 64 < u8 p 2) 2, chk (u8 p 3 = 0) 3,
              chk (8191 < u16 p 4) 4, chk (u16 p 6 < u16 p 4 || 8191 < u16 p 6) 6,
              chk (u32 p 8 < 64 || 131072 < u32 p 8) 8, rsvd p 12 4]).andThen
   (s.ifFree (s.admissionCheck { s.sets.shadow with nearField := p, nearWritten := true } 0))

def nearfieldConfigInfo : OpInfo := { code := 0x0702, lenMin := 1, lenMax := 1, fields := nearfieldConfigFields }

def nearfieldConfigEffect (c : Cmd) (s : State) : State :=
  s.shadowWrite 0x0702 c fun s => (s.onShadow fun k => { k with nearField := c.payload, nearWritten := true }).doneSet 0x0702 c 0 []

def execNearfieldConfig (c : Cmd) (s : State) : Result := .next (s.run nearfieldConfigInfo c (nearfieldConfigEffect c))

/-! ## FIELD_DEFINE (R197, R210) -/

def ConfigSet.withField (p : List Byte) (c : ConfigSet) : ConfigSet :=
  let rest := c.fields.filter (·.1 != u8 p 0)
  { c with fields := if fdVertices p = 0 then rest
                     else sortBy (fun a b : Nat × List Byte => decide (a.1 < b.1)) ((u8 p 0, p) :: rest) }

/-- Checks of vertex `i`: its range, and that angles ascend from the first within less than a turn. -/
def vertexChecks (p : List Byte) (i : Nat) : List (Bool × Nat × Nat) :=
  let b := 48 + 8 * i
  [chk (2 ^ 20 ≤ u32 p b || (i != 0 && fdRel p i ≤ fdRel p (i - 1))) b, chk (fdFar p i < fdNear p i) (b + 6)]

def fieldDefineFields (c : Cmd) (s : State) : Verdict :=
  let p := c.payload
  let n := fdVertices p
  (firstFail ([chk (15 < u8 p 0) 0, chk (n = 1 || 32 < n) 1] ++
    (if n = 0 then [rsvd p 7 9, rsvd p 16 32] else
      [chk (u8 p 2 = 0) 2, chk (u8 p 3 = 0 || 16 < u8 p 3) 3, chk (u8 p 4 = 0 || 8 < u8 p 4) 4, chk (u8 p 5 = 0) 5,
       rsvdBits p 6 3, rsvd p 7 9, rsvd p 40 8] ++ ((List.range n).map (vertexChecks p)).flatten ++
      [if n % 2 = 1 then rsvd p (48 + 8 * n) 8 else chk false 0]))).andThen
   (s.ifFree (s.admissionCheck (s.sets.shadow.withField p) 0))

def fieldDefineInfo : OpInfo :=
  { code := 0x0703, lenMin := 3, lenMax := 19, implied := fun p => some (3 + ceilDiv (fdVertices p) 2),
    fields := fieldDefineFields }

def fieldDefineEffect (c : Cmd) (s : State) : State :=
  s.shadowWrite 0x0703 c fun s => (s.onShadow (·.withField c.payload)).doneSet 0x0703 c 0 []

def execFieldDefine (c : Cmd) (s : State) : Result := .next (s.run fieldDefineInfo c (fieldDefineEffect c))

/-! ## ZONE_CONFIG, SCHED_CONFIG (R211) -/

def zoneConfigFields (c : Cmd) (s : State) : Verdict :=
  let p := c.payload
  (firstFail [chk (u16 p 2 < 50 || 1000 < u16 p 2) 2,
              chk (u16 p 4 < 10 || 1000 < u16 p 4 || u16 p 4 * 1000 < 2 * u16 p 2) 4, rsvd p 6 10]).andThen
   (s.ifFree (s.admissionCheck { s.sets.shadow with zone := p } 0))

def zoneConfigInfo : OpInfo := { code := 0x0704, lenMin := 1, lenMax := 1, fields := zoneConfigFields }

def zoneConfigEffect (c : Cmd) (s : State) : State :=
  s.shadowWrite 0x0704 c fun s => (s.onShadow fun k => { k with zone := c.payload }).doneSet 0x0704 c 0 []

def execZoneConfig (c : Cmd) (s : State) : Result := .next (s.run zoneConfigInfo c (zoneConfigEffect c))

def schedConfigFields (c : Cmd) (s : State) : Verdict :=
  let p := c.payload
  (firstFail [chk (u8 p 0 < 13 || 128 < u8 p 0) 0, rsvd p 1 3, chk (u32 p 4 < 100000 || 500000 < u32 p 4) 4,
              rsvd p 8 8]).andThen
   (s.ifFree (s.admissionCheck { s.sets.shadow with sched := p } 0))

def schedConfigInfo : OpInfo := { code := 0x0705, lenMin := 1, lenMax := 1, fields := schedConfigFields }

def schedConfigEffect (c : Cmd) (s : State) : State :=
  s.shadowWrite 0x0705 c fun s => (s.onShadow fun k => { k with sched := c.payload }).doneSet 0x0705 c 0 []

def execSchedConfig (c : Cmd) (s : State) : Result := .next (s.run schedConfigInfo c (schedConfigEffect c))

/-! ## EMIT_HOLD (R192, R211) -/

def emitHoldInfo : OpInfo :=
  { code := 0x0706, lenMin := 1, lenMax := 1, fields := fun c _ => firstFail [rsvdBits c.payload 0 1, rsvd c.payload 1 15] }

def emitHoldEffect (c : Cmd) (s : State) : State :=
  let s := if bit (u8 c.payload 0) 0 then s.registerSource srcHost else s.clearSource srcHost
  s.doneOn 0x0706 (.inhibit srcHost) c s.inhibitLive

def execEmitHold (c : Cmd) (s : State) : Result := .next (s.run emitHoldInfo c (emitHoldEffect c))

/-! ## SHOT_STATUS and ZONE_STATUS (R204, Table 7.11) -/

def State.shotFlags (s : State) : Nat :=
  let k := s.sched
  flagsOf [k.planOver, k.paceShort, k.lateSeen, k.skippedSeen, k.nfAllRevs != 0, k.inhibitSeen, k.fieldLate]

def State.shotStatus (s : State) : List Byte :=
  let k := s.sched
  le 1 s.inhibitLive ++ le 1 s.supervisorSrc ++ le 2 s.shotFlags ++ le 4 k.lateTotal ++ le 4 k.skippedTotal ++
  le 4 k.inhibitedTotal ++ le 4 k.nfEvents ++ le 1 k.sectors.length ++ zeros 3 ++ (k.load.map (le 2 ·)).flatten ++
  (k.ceiling.map (le 2 ·)).flatten ++ le 8 k.lastStamp

def shotStatusInfo : OpInfo :=
  { code := 0x0707, lenMin := 1, lenMax := 1, unseqOk := unseqIf0 0,
    fields := fun c _ => firstFail [maskChk c.payload 0 0x6E, rsvd c.payload 2 14] }

def State.clearShots (mask : Nat) (s : State) : State :=
  s.onSched fun k =>
    { k with paceShort := k.paceShort && !bit mask 1, lateSeen := k.lateSeen && !bit mask 2,
             skippedSeen := k.skippedSeen && !bit mask 3, inhibitSeen := k.inhibitSeen && !bit mask 5,
             fieldLate := k.fieldLate && !bit mask 6 }

def shotStatusEffect (c : Cmd) (s : State) : State :=
  let s := s.clearShots (u16 c.payload 0)
  s.finish 0x0707 c stOk 0 s.inhibitLive s.shotStatus

def execShotStatus (c : Cmd) (s : State) : Result := .next (s.run shotStatusInfo c (shotStatusEffect c))

def zoneStatusInfo : OpInfo :=
  { code := 0x0708, lenMin := 1, lenMax := 1, unseqOk := fun p => !bit (u8 p 0) 0,
    fields := fun c _ => firstFail [rsvdBits c.payload 0 1, rsvd c.payload 1 15] }

/-- OUT_FAULT_CLEAR: the fault clears when both readbacks agree at this instant, which no row of the table reports: a free
value says it.
DESIGN CHOICE, safe (log 70). -/
def State.clearOutFault (s : State) : State :=
  let agree := s.freeValue % 2 == 1
  ((s.onZone fun z => { z with outFault := z.outFault && !agree }).freeNext).driveZones

/-- DESIGN CHOICE, unsafe (log 69). -/
def zoneStatusEffect (c : Cmd) (s : State) : State :=
  let s := if bit (u8 c.payload 0) 0 then s.clearOutFault else s
  s.finish 0x0708 c stOk 0 s.zoneState s.zonePayload

def execZoneStatus (c : Cmd) (s : State) : Result := .next (s.run zoneStatusInfo c (zoneStatusEffect c))

end Sys2Proof.Machine
end

