-- ==== Sys2Proof/Machine/Views.lean ====
section
/-!
DEFINITION. Meanings of the view and set opcodes (R68 to R93): Clasp handles, creating, changing, reading and destroying
views, committing, aborting and reading sets.
-/
namespace Sys2Proof.Machine

/-! ## Clasp (R70, R71, R401) -/

/-- Handle of an index and a generation (Table 3.1).
DEDUCED, unsafe (log 41). -/
def mkHandle (index gen : Nat) : Nat := 0x10000000 + 65536 * index + gen

/-- May an index be issued?
DEDUCED, unsafe (log 41). -/
def State.indexFree (i : Nat) (s : State) : Bool :=
  s.sets.claspGen.getD i 65535 < 65535 && !(s.sets.live.any fun h => handleIndex h == i)

/-- The next index in rotation.
DEDUCED, unsafe (log 41). -/
def State.nextIndex (s : State) : Option Nat :=
  ((List.range 4096).map fun k => (s.sets.claspPtr + k) % 4096).find? fun i => s.indexFree i

/-- Indices that are not retired. -/
def State.notRetired (s : State) : Nat := (s.sets.claspGen.filter (· < 65535)).length

/-- Issues a handle: the index's generation rises, the rotation moves on, and Locket's checkpoint follows its rule. -/
def State.issueHandle (i : Nat) (s : State) : Nat × State :=
  let g := s.sets.claspGen.getD i 0 + 1
  let h := mkHandle i g
  let s := s.onSets fun k =>
    { k with claspGen := k.claspGen.set i g, claspPtr := (i + 1) % 4096, live := k.live ++ [h],
             claspUnsaved := k.claspUnsaved + 1 }
  (h, if 64 ≤ s.sets.claspUnsaved || s.notRetired < 128 then s.claspStore else s)

/-! ## VIEW_CREATE (R74 to R77) -/

/-- A view with its parameter blocks at the library defaults and no firing table. -/
def newView (h : Nat) (b : List Byte) : ViewDef :=
  let v : ViewDef := { handle := h, binding := b, params := [], fire := none }
  { v with params := v.chain.map blockDefault }

/-- Table 3.5.
DESIGN CHOICE, unsafe (log 39). -/
def State.viewReply (v : ViewDef) (c : ConfigSet) (s : State) : List Byte :=
  let n := s.admissionSpeed c
  ((List.range 8).map fun t => le 1 (v.enginesIn n t)).flatten ++ le 4 (v.mbps n c) ++ zeros 4

/-- A stream of an output view must be enabled in the shadow set (R369). -/
def ConfigSet.streamBad (v : ViewDef) (c : ConfigSet) : Bool :=
  (v.role == 0 || v.role == 2) && !streamEnabled c v.stream

def viewCreateFields (c : Cmd) (s : State) : Verdict :=
  let v := newView 0 c.payload
  let w := s.sets.shadow
  (firstFail (bindingChecks c.payload)).andThen
   (s.ifFree ((firstFail [chk (w.streamBad v) 22]).andThen (s.admissionCheck { w with views := w.views ++ [v] } 1)))

def viewCreateInfo : OpInfo :=
  { code := 0x0201, lenMin := 5, lenMax := 8, implied := fun p => some (bindingUnits p), fields := viewCreateFields }

def viewCreateNow (c : Cmd) (s : State) : State :=
  match s.nextIndex with
  | none => s.finish 0x0201 c stNoResource 2 0 []
  | some i =>
    let x := s.issueHandle i
    let v := newView x.1 c.payload
    let s := x.2.onShadow fun k => { k with views := k.views ++ [v] }
    s.doneSet 0x0201 c x.1 (s.viewReply v s.sets.shadow)

/-- DEDUCED, safe (log 36). -/
def viewCreateEffect (c : Cmd) (s : State) : State := s.shadowWrite 0x0201 c (viewCreateNow c)

/-- VIEW_CREATE waits while 64 handles have been issued since the last checkpoint (R401). -/
def viewCreate (c : Cmd) (s : State) : State :=
  if 64 ≤ s.sets.claspUnsaved then s else s.run viewCreateInfo c (viewCreateEffect c)

def execViewCreate (c : Cmd) (s : State) : Result := .next (viewCreate c s)

/-! ## VIEW_DESTROY (R81) -/

def viewDestroyInfo : OpInfo :=
  { code := 0x0202, lenMin := 1, lenMax := 1,
    fields := fun c s => firstFail [s.staleAt (u32 c.payload 0) 0, rsvd c.payload 4 12] }

/-- A view leaves the shadow set; one that is active retires. -/
def viewDestroyNow (c : Cmd) (s : State) : State :=
  let h := u32 c.payload 0
  let act := (s.activeView h).isSome
  let s := s.onSets fun k =>
    { k with live := k.live.filter (· != h), retiring := if act then k.retiring ++ [h] else k.retiring }
  (s.onShadow fun k => { k with views := k.views.filter (·.handle != h) }).doneSet 0x0202 c 0 []

def viewDestroyEffect (c : Cmd) (s : State) : State := s.shadowWrite 0x0202 c (viewDestroyNow c)

def execViewDestroy (c : Cmd) (s : State) : Result := .next (s.run viewDestroyInfo c (viewDestroyEffect c))

/-! ## VIEW_QUERY (R80) -/

/-- STATE of Table 3.6. -/
def State.viewState (h : Nat) (s : State) : Nat :=
  match s.activeView h with
  | none => 1
  | some a => if s.sets.shadow.view h == some a then 2 else 3

def viewQueryInfo : OpInfo :=
  { code := 0x0203, lenMin := 1, lenMax := 1, unseqOk := fun _ => true,
    fields := fun c s => firstFail [s.staleAt (u32 c.payload 0) 0, chk (1 < u8 c.payload 4) 4, rsvd c.payload 5 11] }

def viewQueryEffect (c : Cmd) (s : State) : State :=
  let h := u32 c.payload 0
  let sel := u8 c.payload 4
  let set := if sel = 0 then s.sets.active else s.sets.shadow
  let n := s.admissionSpeed set
  let since := ((s.sets.since.find? (·.view == h)).map (·.epoch)).getD 0
  let engines (v : ViewDef) : List Byte := ((List.range 8).map fun t => le 1 (v.enginesIn n t)).flatten
  let d := le 4 h ++ le 1 (s.viewState h) ++ le 1 sel ++ le 2 since ++
    ((set.view h).map engines).getD (zeros 8) ++ ((set.view h).map (·.binding)).getD []
  s.finish 0x0203 c stOk 0 (s.viewState h) d

def execViewQuery (c : Cmd) (s : State) : Result := .next (s.run viewQueryInfo c (viewQueryEffect c))

/-! ## VIEW_PARAM (R79, R281) -/

/-- The block of chain position `k` with the written units in place. -/
def ViewDef.writtenBlock (p : List Byte) (v : ViewDef) : List Byte :=
  patch (v.param (u8 p 4)) (16 * u16 p 6) (p.drop 16)

def ViewDef.withParam (p : List Byte) (v : ViewDef) : ViewDef :=
  { v with params := v.params.set (u8 p 4) (v.writtenBlock p) }

/-- The unit that DETAIL names for a broken field at byte `i` of the block: 0 unless the command wrote it. -/
def blockUnit (p : List Byte) (i : Nat) (rule : Bool) : Nat :=
  let u := i / 16
  if rule || u < u16 p 6 || u16 p 6 + (p.length / 16 - 1) ≤ u then 0 else 1 + u - u16 p 6

/-- The checks of a VIEW_PARAM against the view in the shadow set. -/
def paramChecks (p : List Byte) (v : ViewDef) : Verdict :=
  let k := u8 p 5
  (firstFail [chk (v.kernelCount ≤ u8 p 4) 4, chk (v.kernel (u8 p 4) != k) 5, rsvd p 8 8,
              chk (blockUnits k < u16 p 6 + (p.length / 16 - 1)) 0]).andThen
  (match blockBad v k (v.writtenBlock p) with
   | some (i, rule) => .reject stParam (blockUnit p i rule)
   | none => .ok)

/-- What the packet of a VIEW_PARAM shows by itself: KERNEL_ID, the end of the block, and its reserved bytes and bits (R7). -/
def paramReserved (p : List Byte) : List (Bool × Nat × Nat) :=
  let k := u8 p 5
  let lo := 16 * u16 p 6
  let hi := lo + (p.length - 16)
  [chk (k = 0 || 9 < k) 5, rsvd p 8 8, chk (blockUnits k < u16 p 6 + (p.length / 16 - 1)) 0] ++
  ((blockFlagBits k).toList.filter fun _ => lo = 0).map (fun w => rsvdBits p 16 w) ++
  (blockReserved k).map fun x => rsvd p (16 + (max x.1 lo - lo)) (min (x.1 + x.2) hi - max x.1 lo)

def viewParamFields (c : Cmd) (s : State) : Verdict :=
  let p := c.payload
  let h := u32 p 0
  let v := s.sets.shadow.view h
  (((firstFail [s.staleAt h 0]).andThen (s.ifFree ((v.map (paramChecks p)).getD .ok))).andThen (firstFail (paramReserved p))).andThen
    (s.ifFree (if v.isSome then s.admissionCheck (s.sets.shadow.onView h (ViewDef.withParam p)) 0 else .ok))

def viewParamInfo : OpInfo := { code := 0x0204, lenMin := 2, lenMax := 255, fields := viewParamFields }

def viewParamEffect (c : Cmd) (s : State) : State :=
  s.shadowWrite 0x0204 c fun s =>
    (s.onShadow (·.onView (u32 c.payload 0) (ViewDef.withParam c.payload))).doneSet 0x0204 c (c.payload.length - 16) []

def execViewParam (c : Cmd) (s : State) : Result := .next (s.run viewParamInfo c (viewParamEffect c))

/-! ## VIEW_UPDATE (R78) -/

/-- A view with a new binding: blocks of positions whose kernel stays are kept, and the firing table unless a mask
changes (R185). -/
def ViewDef.rebind (b : List Byte) (v : ViewDef) : ViewDef :=
  let w := newView v.handle b
  { w with
    params := w.params.zipIdx.map fun x =>
      if x.2 < v.kernelCount && v.kernel x.2 == w.kernel x.2 then v.param x.2 else x.1,
    fire := if w.emitterMask == v.emitterMask && w.channelMask == v.channelMask then v.fire else none }

/-- The binding field that a kept block's broken rule conflicts with: KERNEL_ID of K_ZONE, CELL_COUNT, or BIN_COUNT. -/
def conflictByte (w : ViewDef) (kernel i : Nat) : Nat :=
  if kernel = 1 && i = 1 then
    if w.cellCount % pos w.cellMerge ≠ 0 then 8 else 64 + 8 * (w.posOf 8).getD 0
  else 12

/-- The first conflict of a kept block with the new binding, as a payload unit of VIEW_UPDATE. -/
def keptConflict (v w : ViewDef) : List (Bool × Nat × Nat) :=
  (List.range w.kernelCount).filterMap fun k =>
    if k < v.kernelCount && v.kernel k == w.kernel k then
      (blockBad w (w.kernel k) (w.param k)).map fun x => (true, stParam, 1 + conflictByte w (w.kernel k) x.1 / 16)
    else none

/-- Checks of a binding that starts at payload unit 1. -/
def shiftChecks (l : List (Bool × Nat × Nat)) : List (Bool × Nat × Nat) := l.map fun x => (x.1, x.2.1, x.2.2 + 1)

def viewUpdateFields (c : Cmd) (s : State) : Verdict :=
  let p := c.payload
  let h := u32 p 0
  let b := p.drop 16
  (firstFail ([s.staleAt h 0, rsvd p 4 12] ++ shiftChecks (bindingChecks b))).andThen
   (s.ifFree (match s.sets.shadow.view h with
      | some v =>
        let w := v.rebind b
        (firstFail (chk (s.sets.shadow.streamBad w) 38 :: keptConflict v w)).andThen
          (s.admissionCheck (s.sets.shadow.onView h (ViewDef.rebind b)) 0)
      | none => .ok))

def viewUpdateInfo : OpInfo :=
  { code := 0x0205, lenMin := 6, lenMax := 9, implied := fun p => some (1 + bindingUnits (p.drop 16)),
    fields := viewUpdateFields }

def viewUpdateNow (c : Cmd) (s : State) : State :=
  let h := u32 c.payload 0
  let s := s.onShadow (·.onView h (ViewDef.rebind (c.payload.drop 16)))
  s.doneSet 0x0205 c 0 (((s.sets.shadow.view h).map fun v => s.viewReply v s.sets.shadow).getD [])

def viewUpdateEffect (c : Cmd) (s : State) : State := s.shadowWrite 0x0205 c (viewUpdateNow c)

def execViewUpdate (c : Cmd) (s : State) : Result := .next (s.run viewUpdateInfo c (viewUpdateEffect c))

/-! ## SET_COMMIT (R85, R90) -/

/-- A cross-fade that waited for the swap waits for one swap less; after the last it starts, unless its view is no longer live
(R90).
DEDUCED, safe (log 79). -/
def State.releaseFade (e : Nat) (s : State) : State :=
  match (s.emitter e).fade with
  | some f =>
    if f.waitSwap = 0 then s
    else if 1 < f.waitSwap || s.sets.live.contains f.view then
      s.onEmitter e fun x => { x with fade := some { f with waitSwap := f.waitSwap - 1 } }
    else
      let b := s.block stStale 0 0
      let s := s.onEmitter e fun x => { x with fade := none }
      (s.applied (.emitter e) f.cmd b).finishWith opWaveFadeCode f.cmd b []
  | none => s

/-- The emitters whose cross-fade waits behind a commit. -/
def State.fadesBehind (c : Cmd) (s : State) : List Nat :=
  (List.range 16).filter fun e => (s.emitter e).fade.any fun f => f.waitSwap != 0 && s.acceptedBefore c f.cmd

/-- From `s` to `t`, a commit that ended without a swap: the cross-fades behind it wait for it no longer.
DEDUCED, safe (log 79). -/
def State.dropCommit (c : Cmd) (s t : State) : State :=
  if s.unswapped.contains c && !t.unswapped.contains c then (s.fadesBehind c).foldl (fun s e => s.releaseFade e) t else t

/-- State of a commit that reaches the head of the order now. -/
def State.commitState (c : Cmd) (s : State) : CommitState :=
  if s.commitCause c != 0 then .deferred else if s.arbiterHolds s.sets.shadow then .queued else .armed

/-- Does a set close a loop without coefficients of its N_STATES (R171)? -/
def ConfigSet.coefMissing (n : Nat) (c : ConfigSet) : Bool :=
  let p := c.loops.getD n []
  let k := c.coefs.getD n []
  u8 p 1 == 2 && (k == [] || u8 k 1 != u8 p 2)

def setCommitInfo : OpInfo :=
  { code := 0x0301, lenMin := 0, lenMax := 0,
    fields := fun _ s => s.ifFree (firstFail [(s.sets.shadow.coefMissing 0, stNoResource, 0x60),
                                              (s.sets.shadow.coefMissing 1, stNoResource, 0x61)]) }

/-- Arms the swap, which is the commit's execution; a commit behind another, or behind the shadow copy, waits in the order of shadow
writes. -/
def setCommitEffect (c : Cmd) (s : State) : State :=
  if s.setsBusy then ((s.onSets fun k => { k with waiting := k.waiting ++ [(0x0301, c)] }).setPending .activeSet c).notBegun c
  else
    let now := s.now
    let st := s.commitState c
    ((s.onSets fun k => { k with commits := [{ cmd := c, state := st, at_ := now }] }).setPending .activeSet c).notBegun c

def execSetCommit (c : Cmd) (s : State) : Result := .next (s.dropCommit c (s.run setCommitInfo c (setCommitEffect c)))

/-! ## SET_ABORT (R91) -/

def setAbortInfo : OpInfo := { code := 0x0302, lenMin := 0, lenMax := 0 }

/-- One half is written whole from the other, with the words that cannot be read there. -/
def State.copyLost (shadow : Bool) (s : State) : State :=
  s.onIntegrity fun k =>
    let l := k.lost.filter (·.shadow != shadow)
    { k with lost := l ++ l.map fun w => { w with shadow := shadow } }

/-- The shadow set becomes the active set without its retiring views; views created since the last swap end. -/
def setAbortNow (c : Cmd) (s : State) : State :=
  let act := s.sets.active
  let gone := s.sets.live.filter fun h => (act.view h).isNone
  let s := s.onSets fun k => { k with live := k.live.filter fun h => !gone.contains h }
  let keep := s.sets.live
  let s := s.copyLost true
  (s.onShadow fun _ => { act with views := act.views.filter fun v => keep.contains v.handle }).doneSet 0x0302 c
    gone.length []

def setAbortEffect (c : Cmd) (s : State) : State := s.shadowWrite 0x0302 c (setAbortNow c)

def execSetAbort (c : Cmd) (s : State) : Result := .next (s.run setAbortInfo c (setAbortEffect c))

/-! ## SET_READ (R92) -/

/-- The set image that DIGEST covers: the rows of Table 3.7 in order, as the commands wrote them.
DESIGN CHOICE, unsafe (log 40). -/
def ConfigSet.image (c : ConfigSet) : List Byte :=
  let vs := sortBy (fun a b : ViewDef => decide (a.handle < b.handle)) c.views
  (vs.map fun v => le 4 v.handle ++ v.binding ++ v.params.flatten).flatten ++
  (vs.map fun v => v.table).flatten ++ c.nearField ++ (c.fields.map (·.2)).flatten ++ c.zone ++ c.sched ++
  c.loops.flatten ++ c.coefs.flatten ++ c.rx.flatten ++ c.streams.flatten

/-- COMMIT_STATE. A commit that waits behind the shadow copy, with none armed, reads as deferred.
DESIGN CHOICE, unsafe (log 123). -/
def State.commitByte (s : State) : Nat :=
  match s.sets.commits with
  | [] => if s.sets.waiting.any (·.1 == 0x0301) then 2 else 0
  | k :: _ => match s.commitState k.cmd with
    | .armed => 1
    | .deferred => 2
    | .queued => 3

/-- Table 3.10. -/
def State.setData (sel : Nat) (s : State) : List Byte :=
  let c := if sel = 0 then s.sets.active else s.sets.shadow
  let n := s.admissionSpeed c
  let hs := sortBy (fun a b : Nat => decide (a < b)) (c.views.map (·.handle))
  let engines (t : Nat) : Nat := (c.views.map fun v => v.enginesIn n t).foldl (· + ·) 0
  le 2 (if sel = 0 then s.sets.epoch else s.sets.epoch + 1) ++ le 1 c.views.length ++ le 1 s.commitByte ++
  le 4 (crc32c c.image) ++ ((List.range 8).map fun t => le 1 (engines t)).flatten ++
  ((List.range 8).map fun t => le 2 (loadField (c.tileLoad n t))).flatten ++ le 2 (c.portMbps n 0) ++
  le 2 (c.portMbps n 1) ++ le 2 (ceilDiv c.firingBytes 1024) ++ le 2 (ceilDiv c.paramBytes 1024) ++
  le 8 s.sets.lastSwap ++ zeros 16 ++ fit 256 ((hs.map (le 4 ·)).flatten)

def setReadInfo : OpInfo :=
  { code := 0x0303, lenMin := 1, lenMax := 1, unseqOk := fun _ => true,
    fields := fun c _ => firstFail [chk (1 < u8 c.payload 0) 0, rsvd c.payload 1 15] }

/-- The row of Table 1.5 of a memory in which a set's firing tables, or parameter blocks, cannot be read (R388). -/
def State.lostRow (shadow : Bool) (s : State) : Option Nat :=
  let c := if shadow then s.sets.shadow else s.sets.active
  let l := s.integrity.lost.filter fun w => w.shadow == shadow && (c.view w.view).isSome
  if l.any (!·.params) then some 4 else if l.isEmpty then none else some 5

/-- SET_READ: DIGEST takes in every word of the set, and one that cannot be read ends it with ST_FAULT_MEMORY (R388).
DESIGN CHOICE, unsafe (log 40); DEDUCED, unsafe (log 105). -/
def setReadEffect (c : Cmd) (s : State) : State :=
  match s.lostRow (u8 c.payload 0 == 1) with
  | some row => s.finish 0x0303 c stFaultMemory row 0 []
  | none => s.finish 0x0303 c stOk 0 s.sets.epoch (s.setData (u8 c.payload 0))

def execSetRead (c : Cmd) (s : State) : Result := .next (s.run setReadInfo c (setReadEffect c))

end Sys2Proof.Machine
end

