-- ==== Sys2Proof/Machine/Motion.lean ====
section
/-!
DEFINITION. Meanings of the control rows (chapter 6): loop samples at their strobes, the MDRV link, the GALVO DAC, test
signals, Cameo, and the control opcodes.
-/
namespace Sys2Proof.Machine

/-- The motion record (Table 16.10). -/
def recMotion : Nat := 0x21

def State.onMdrv (f : Mdrv → Mdrv) (s : State) : State := s.onMotion fun m => { m with mdrv := f m.mdrv }
def State.mdrv (s : State) : Mdrv := s.motion.mdrv
def State.cameo (s : State) : Cameo := s.motion.cameo
def State.onCameo (f : Cameo → Cameo) (s : State) : State := s.onMotion fun m => { m with cameo := f m.cameo }

/-! ## Motion record (R182) -/

def State.gpGain (s : State) : Int := s16 s.motion.record 0
def State.gpOffset (s : State) : Int := s16 s.motion.record 2
/-- DEDUCED, unsafe (log 53). -/
def State.gpSumMin (s : State) : Nat := u16 s.motion.record 4
def State.startMode (s : State) : Nat := u8 s.motion.record 6
def State.mdrvLoss (s : State) : Nat := u8 s.motion.record 7
def State.startSpeed (s : State) : Nat := u32 s.motion.record 8

/-! ## Measurements (R158, R164, R176) -/

/-- The galvo measurement in 2^-8 ac; a sum of 0 or below gives none, GP_SUM_MIN 0 or not.
DESIGN CHOICE, unsafe (log 132). -/
def State.galvoMeasure (s : State) : Option Int :=
  let m := s.motion
  let sum := m.gpa + m.gpb
  let settled (k : Nat) : Bool := !(s.angle.slots.getD k FilterSlot.reset).mark
  if !settled 3 || !settled 4 || sum ≤ 0 || sum < (s.gpSumMin : Int) * 128 then none
  else some (roundAway (256 * ((s.gpGain : Rat) * mkRat (m.gpa - m.gpb) sum.toNat + (s.gpOffset : Rat))))

/-- What a loop's sample measures, in its native unit. -/
def State.measure (n : Nat) (s : State) : Option Int :=
  if n = 0 then (if s.angle.lock == .locked then some s.angle.pubSpeed else none) else s.galvoMeasure

/-- The GALVO DAC code now. -/
def State.galvoDriven (s : State) : Nat :=
  match s.motion.galvo with
  | .run => s.motion.galvoCode
  | .park c => c
  | .hold c => c
  | .switchOpen => s.emission.galvoPark

/-- The present output of a loop at exponent 0 (R168), before it is held to 32 bits. -/
def State.present (n : Nat) (s : State) : Int :=
  if n = 0 then s.mdrv.torqueFb * 65536
  else ((s.galvoDriven : Int) - lcZero (s.loop 1).image) * 2 ^ 20

/-! ## Cameo (R178) -/

/-- The upper half of a 32-bit mantissa. -/
def upper16 (m : Int) : Nat := ofSigned 16 (m / 65536)

/-- FEEDBACK_AUX: TORQUE_FB, or the upper 16 bits of GPA + GPB.
DEDUCED, unsafe (log 64). -/
def State.feedbackAux (n : Nat) (s : State) : Nat :=
  if n = 0 then ofSigned 16 s.mdrv.torqueFb
  else ofSigned 16 (clampInt (-32768) 32767 ((s.motion.gpa + s.motion.gpb) / 256))

/-- The signal of a SIG code. -/
def State.signal (n code : Nat) (s : State) : Nat :=
  let l := s.loop n
  if code = 0 then upper16 l.r
  else if code = 1 then upper16 (toMant (lcY l.image) (nativeVal n l.y)).1
  else if code = 2 then upper16 l.e
  else if code = 3 then upper16 l.us
  else if code = 4 then upper16 l.u
  else if code = 5 then upper16 l.q
  else if code = 6 then upper16 l.inj
  else if code ≤ 11 then upper16 (l.xh.getD (code - 7) 0)
  else s.feedbackAux n

def Cameo.running (c : Cameo) : Bool := c.st == .armed || c.st == .capturing

/-- Samples a capture holds. -/
def cameoSize : Nat := 16384

/-- Epoch of a captured sample. -/
def sampleEpoch (x : List Nat) : Nat := x.getD 4 0

/-- One loop sample passes Cameo: every DECIMATE-th is captured; before the trigger only PRE are kept. -/
def State.capture (n : Nat) (s : State) : State :=
  let c := s.cameo
  if !c.running || c.loop != n then s else
  if c.phase != 0 then s.onCameo fun c => { c with phase := (c.phase + 1) % pos c.decimate } else
  let x := c.sigs.map (fun k => if k = 0xFF then 0 else s.signal n k) ++ [s.sets.epoch]
  s.onCameo fun c =>
    let all := c.samples ++ [x]
    let gone := if c.st == .armed then all.length - c.pre else 0
    { c with phase := (c.phase + 1) % pos c.decimate,
             before := ((all.take gone).getLast?.map sampleEpoch).getD c.before,
             samples := if c.st == .armed then all.drop gone else all.take cameoSize }

/-- A running capture ends without its samples: superseded or stopped. -/
def State.endCapture (s : State) : State :=
  match s.cameo.cmd with
  | some k =>
    if s.cameo.running then
      let b := s.block stFaultMotion 3 0
      ((s.onCameo fun c => { c with st := .idle, cmd := none }).applied (.loop s.cameo.loop) k b).finishWith 0x0604 k b []
    else s
  | none => s

/-- CAMEO_CAPTURE_COMPLETE: the buffer is full. -/
def cameoCaptureComplete (s : State) : State :=
  let c := s.cameo
  if c.st == .capturing && decide (cameoSize ≤ c.samples.length) then
    let s := s.onCameo fun c => { c with st := .complete, cmd := none }
    match c.cmd with
    | some k => s.doneOn 0x0604 (.loop c.loop) k c.trigIndex
    | none => s
  else s

def execCameoCaptureComplete (s : State) : Result := .next (cameoCaptureComplete s)

/-! ## A loop's sample -/

/-- The settings that the active set gives the loop, taken up at the first sample they govern (R169, R170); a loop in
FAULT waits for its clear. -/
def State.adoptSettings (n : Nat) (s : State) : State :=
  let p := s.sets.active.loops.getD n []
  let c := s.sets.active.coefs.getD n []
  let ep := s.sets.epoch
  let l := s.loop n
  let s := if l.epoch != ep then (s.onLoop n fun l => { l with epoch := ep }).cameoTrigger n 3 else s
  if l.inFault || (l.image == p && l.coef == c) then s
  else if l.st == .closed && lcMode p == 2 then s.onLoop n (Loop.withSettings p c)
  else (s.breakInject n).onLoop n (Loop.enter p c)

/-- DAC_GAIN of the settings that govern a galvo sample, from that sample on, in every mode (R163); a loop in FAULT keeps its own. -/
def State.adoptGain (n : Nat) (s : State) : State :=
  let l := s.loop n
  if n = 1 && !l.inFault && l.image != [] then s.onMotion fun m => { m with galvoGainX2 := lcGainX2 l.image } else s

/-- Samples per second of a loop. -/
def loopRate (n : Nat) : Nat := if n = 0 then 10000 else 40000

/-- The test signal of the sample about to run, at the input and at the output, and whether it saturated.
DEDUCED, unsafe (log 63). -/
def State.injectNow (n : Nat) (s : State) : (Int × Int) × Bool :=
  match (s.loop n).inject with
  | some j =>
    if j.index < j.duration then
      let v := j.value (loopRate n)
      (if j.point = 0 then (v.1, 0) else (0, v.1), v.2)
    else ((0, 0), false)
  | none => ((0, 0), false)

/-- The injection moves on after a sample that played it. -/
def State.injectStep (n : Nat) (s : State) : State :=
  match (s.loop n).inject with
  | some j => if j.index < j.duration then s.onLoop n fun l => { l with inject := some j.next } else s
  | none => s

/-- One supervision count of R172 after a measured sample, and whether it has reached its time: a run of samples raises its fault once,
also when a swap has brought the time below the count. -/
def superviseCount (limit time count : Nat) (exceeded : Bool) : Nat × Bool :=
  if limit = 0 then (0, false) else if exceeded then (count + 1, decide (time ≤ count + 1)) else (0, false)

def absRat (q : Rat) : Rat := if q < 0 then -q else q

/-- The supervision of a measured sample (R172). -/
def State.supervise (n : Nat) (ri yv : Rat) (s : State) : State :=
  let l := s.loop n
  let p := l.image
  let fe := superviseCount (lcFeLimit p) (lcFeTime p) l.feCount (decide (nativeVal n (lcFeLimit p) < absRat (ri - yv)))
  let inn := superviseCount (lcInnovLimit p) (lcInnovTime p) l.innovCount
    (decide (nativeVal n (lcInnovLimit p) < absRat (mantVal (lcY p) l.e)))
  let s := s.onLoop n fun l => { l with feCount := fe.1, innovCount := inn.1, feRaised := fe.2, innovRaised := inn.2 }
  let s := if fe.2 && !l.feRaised then s.raiseFault n 1 else s
  if inn.2 && !l.innovRaised then s.raiseFault n 2 else s

/-- The law of one sample, when the loop runs it and is not waiting for its closing measurement. -/
def State.runLaw (n : Nat) (y : Option Int) (s : State) : State :=
  let l := s.loop n
  if !l.runs n || (l.closing && y.isNone) then s else
  let s := if (l.inject.any fun j => j.index == 0) then s.cameoTrigger n 1 else s
  let inj := s.injectNow n
  let o := lawSample n l.image l.coef y (s.present n) inj.1.1 inj.1.2 l
  let s := (s.onLoop n fun _ => { o.loop with arithSat := o.loop.arithSat || inj.2 }).injectStep n
  match o.yv with
  | some v => s.supervise n o.ri v
  | none => s

/-- A galvo gap of GAP_MAX samples (R168, R173). -/
def State.galvoGap (s : State) : State :=
  let l := s.loop 1
  if l.st == .closed && lcGap l.image ≤ l.gapCount && !l.gapRaised then
    (s.onLoop 1 fun l => { l with gapRaised := true }).raiseFault 1 3
  else s

/-- A sample that ended in time: settings, measurement, law. -/
def State.sampleDone (n : Nat) (s : State) : State :=
  let s := (s.adoptSettings n).adoptGain n
  let y := s.measure n
  let s := s.onLoop n fun l =>
    { l with overruns := 0, noMeas := y.isNone, y := y.getD l.y,
             gapCount := if n = 1 && y.isNone then l.gapCount + 1 else 0,
             gapRaised := l.gapRaised && y.isNone,
             gapTotal := if n = 1 && y.isNone then satInc 32 l.gapTotal else l.gapTotal }
  let s := s.runLaw n y
  if n = 1 && y.isNone then s.galvoGap else s

/-- A demand was due and its sample had not ended (R17, R159): the demand before is held. -/
def State.sampleLate (n : Nat) (s : State) : State :=
  let s := s.onLoop n fun l =>
    { l with overruns := l.overruns + 1, overrunTotal := satInc 32 l.overrunTotal, ctrlOverrun := true }
  if (s.loop n).overruns = 8 then s.raiseFault n 4 else s

/-- One sample of a loop; the result of one that does not end in time is discarded. A galvo demand is due at the sample's own strobe, a
spindle demand at the next (R158). -/
def State.sample (n : Nat) (finished : Bool) (s : State) : State :=
  let s := s.onLoop n fun l => { l with samples := wrap 32 (l.samples + 1), closedFor := if l.st == .closed then l.closedFor + 1 else 0 }
  (if finished then s.sampleDone n else if n = 1 then s.sampleLate n else s).capture n

/-- The spindle demand of the strobe before was due with the frame that has just started. -/
def State.demandDue (s : State) : State :=
  if s.mdrv.late then (s.onMdrv fun m => { m with late := false }).sampleLate 0 else s

/-- Do the control strobes run: the time base, and the motion domain (R184)?
DEDUCED, unsafe (log 60). -/
def State.strobes (s : State) : Bool := s.clk.started && s.clk.pllLocked && s.awake .motion

/-! ## The MDRV link (R160, R161) -/

/-- MODE and DEMAND of the last frame; COAST before the first. -/
def Mdrv.last (m : Mdrv) : Nat × Int := if m.lastFrame = [] then (0, 0) else (u8 m.lastFrame 1, s32 m.lastFrame 4)

/-- What the state that a loop is in, or was in before its fault, puts on the link (Table 6.6). -/
def State.spindleDemand (st : LoopState) (s : State) : Nat × Int :=
  let l := s.loop 0
  match st with
  | .unconfigured => if s.startMode = 0 then (0, 0) else (1, s.startSpeed)
  | .opened => if lcMode l.image = 0 then (0, 0) else (1, lcSet l.image)
  | .closed => if l.closing then s.mdrv.last else (2, s.mdrv.nextDemand)
  | .fault => (0, 0)

/-- MODE and DEMAND of the frame that starts now. -/
def State.mdrvDemand (s : State) : Nat × Int :=
  let l := s.loop 0
  if l.inFault then
    if bit l.faultAction 1 then (0, 0) else if bit l.faultAction 3 then s.mdrv.last else s.spindleDemand l.prior
  else s.spindleDemand l.st

/-- The downlink frame (Table 6.4).
DEDUCED, unsafe (log 64). -/
def State.mdrvFrame (s : State) : List Byte :=
  let d := s.mdrvDemand
  let fault := s.motion.loops.any Loop.inFault
  let b := [0xA5] ++ le 1 d.1 ++ le 1 s.mdrv.seq ++ le 1 (flag s.inhibited 0 + flag fault 1) ++ leInt 4 d.2 ++ zeros 2
  b ++ le 2 (crc16 b)

/-- Unit 14 makes or checks the FCHK of an MDRV frame (Table 15.2). -/
def State.mdrvUnit (b : List Byte) (s : State) : State := s.unitItem 14 (b.take (b.length - 2))

/-- The frame of a strobe goes out; 10 ms after Pavane began, the frames have stopped. -/
def State.mdrvSend (s : State) : State :=
  let now := s.now
  let s := if s.power.phase == .pavane && s.since s.power.pavaneAt (ms 10) then s.onMdrv fun m => { m with running := false }
    else s
  if !s.mdrv.running then s.onMdrv fun m => { m with strobeAt := now } else
  let f := s.mdrvFrame
  ((s.mdrvUnit f).emit (.mdrv f)).onMdrv fun m =>
    { m with seq := wrap 8 (m.seq + 1), lastFrame := f, answered := false, strobeAt := now }

/-- SPINDLE_SAMPLE: the 10 kHz strobe; `finished` says whether its sample ends before the next.
DESIGN CHOICE, unsafe (log 4); DEDUCED, unsafe (log 60). -/
def spindleSample (finished : Bool) (s : State) : State :=
  if !s.strobes || s.clk.tickCount % 128000 != 0 || decide (s.now ≤ s.mdrv.strobeAt) then s else
  let s := ((s.mdrvSend).demandDue.sample 0 finished).onMdrv fun m => { m with late := !finished }
  if finished && (s.loop 0).runs 0 && !(s.loop 0).closing then
    s.onMdrv fun m => { m with nextDemand := (s.loop 0).us }
  else s

def execSpindleSample (finished : Bool) (s : State) : Result := .next (spindleSample finished s)

/-- The earliest end of an uplink after its strobe: the downlink's 120 bits of 100 ticks, then as many at a rate 2 % high (R161, R475). -/
def uplinkEarliest : Nat := 23765

/-- Does an uplink answer the last downlink frame (R161)?
DEDUCED, unsafe (log 64). -/
def State.uplinkValid (b : List Byte) (s : State) : Bool :=
  let m := s.mdrv
  m.running && m.lastFrame != [] && b.length == 12 && u8 b 0 == 0x5A && u16 b 10 == crc16 (slice b 0 10) &&
  u8 b 2 == u8 m.lastFrame 2 && s.since m.strobeAt uplinkEarliest && decide (s.now ≤ m.strobeAt + us 60)

/-- MDRV_UPLINK_RECEIVE: a frame from the drive is complete. -/
def mdrvUplinkReceive (b : List Byte) (s : State) : State :=
  let s := s.mdrvUnit b
  if !s.uplinkValid b then s else
  let s := s.onMdrv fun m =>
    { m with answered := true, misses := 0, lossRaised := false, drvState := u8 b 1 % 8, drvFault := bit (u8 b 1) 1, torqueFb := s16 b 4,
             drvCode := u16 b 6 }
  if s.mdrv.drvFault then s.raiseFault 0 6 else s

def execMdrvUplinkReceive (bytes : List Byte) (s : State) : Result := .next (mdrvUplinkReceive bytes s)

/-- Is the drive in use: a MODE other than 0 in the spindle loop's settings, or in the last frame (Table 18.6)?
DEDUCED, unsafe (log 136). -/
def State.driveUsed (s : State) : Bool := lcMode (s.loop 0).image != 0 || u8 s.mdrv.lastFrame 1 != 0

/-- MDRV_UPLINK_TIMEOUT: 60 µs after the strobe without a valid uplink. A run of misses raises LINK once.
DEDUCED, unsafe (log 136). -/
def mdrvUplinkTimeout (s : State) : State :=
  let m := s.mdrv
  if !m.running || m.lastFrame == [] || m.answered || !s.since m.strobeAt (us 60) then s else
  let s := (s.onMdrv fun m => { m with answered := true, misses := m.misses + 1 }).onLoop 0 fun l =>
    { l with miss := true, gapTotal := satInc 32 l.gapTotal }
  if s.mdrvLoss ≤ s.mdrv.misses && !s.mdrv.lossRaised && s.driveUsed then
    (s.onMdrv fun m => { m with lossRaised := true }).raiseFault 0 5
  else s

def execMdrvUplinkTimeout (s : State) : Result := .next (mdrvUplinkTimeout s)

/-! ## The GALVO DAC (R163) -/

/-- The code that the closed loop asks for, and whether the clamp acted. -/
def Loop.galvoCode (l : Loop) : Nat × Bool :=
  let c := (lcZero l.image : Int) + l.us / 2 ^ 20
  let k := clampInt 0 4095 c
  (k.toNat, k != c)

/-- The output that a state of the loop gives the DAC. -/
def State.galvoOutput (st : LoopState) (s : State) : State :=
  let l := s.loop 1
  match st with
  | .unconfigured => s.parkGalvo
  | .opened =>
    if lcMode l.image = 0 then s.parkGalvo
    else s.onMotion fun m => { m with galvo := .run, galvoCode := lcHold l.image }
  | .closed =>
    if l.closing then s else
    let c := l.galvoCode
    (s.onMotion fun m => { m with galvo := .run, galvoCode := c.1 }).onLoop 1 fun l =>
      { l with outSat := l.outSat || c.2 }
  | .fault => s

/-- The DAC takes the sample's code. -/
def State.galvoRelease (s : State) : State :=
  let l := s.loop 1
  if s.motion.galvo == .switchOpen then s
  else if l.inFault then
    if (l.faultAction &&& actMask 1) != 0 then s.galvoActs else s.galvoOutput l.prior
  else s.galvoOutput l.st

/-- The galvo's measurements are kept for GALVO_POS: a record may look back by any time (R311). -/
def State.keepGalvo (s : State) : State :=
  let t := s.clk.tickCount
  let l := s.loop 1
  if l.noMeas then s else
  s.onMotion fun m => { m with galvoHist := m.galvoHist ++ [(t, l.y)] }

/-- GALVO_SAMPLE: the 40 kHz strobe.
DEDUCED, unsafe (log 60). -/
def galvoSample (finished : Bool) (s : State) : State :=
  if !s.strobes || s.clk.tickCount % 32000 != 0 || decide (s.now ≤ s.motion.galvoAt) then s else
  let now := s.now
  let s := (s.onMotion fun m => { m with galvoAt := now }).sample 1 finished
  if finished then s.galvoRelease.keepGalvo else s

def execGalvoSample (finished : Bool) (s : State) : Result := .next (galvoSample finished s)

/-- GALVO_SHORT: the output current reaches its limit. -/
def galvoShort (s : State) : State :=
  if s.motion.galvo == .switchOpen then s
  else ((s.onMotion fun m => { m with galvoShort := true }).parkGalvo).raiseFault 1 5

def execGalvoShort (s : State) : Result := .next (galvoShort s)

/-! ## LOOP_CONFIG and LOOP_COEFF (R180, R181) -/

def badExp (p : List Byte) (i : Nat) : Bool × Nat × Nat := chk (decide (s8 p i < -64) || decide (63 < s8 p i)) i

def loopConfigFields (c : Cmd) (s : State) : Verdict :=
  let p := c.payload
  let galvo := u8 p 0 == 1
  let range : Nat := if galvo then 8388608 else 6553600
  (firstFail ([chk (1 < u8 p 0) 0, chk (2 < u8 p 1) 1, chk (lcStates p = 0 || 5 < lcStates p) 2, rsvdBits p 3 2,
      badExp p 4, badExp p 5, badExp p 6, rsvd p 7 1, chk (range < (lcSet p).natAbs) 8, chk (decide (lcMax p ≤ lcMin p)) 18,
      chk (galvo && decide (4095 < lcZero p)) 22, chk (galvo && decide (4095 < lcHold p)) 24,
      chk (galvo && (lcGap p == 0 || decide (1000 < lcGap p))) 26, rsvd p 28 4, chk (lcFeTime p = 0) 40,
      chk (lcInnovTime p = 0) 42, chk (lcSatTime p = 0) 44, rsvd p 46 2] ++
    ((List.range 6).map fun k => rsvdBits p (48 + k) 5) ++ [rsvd p 54 10])).andThen
  (s.ifFree (s.admissionCheck (s.sets.shadow.withLoop p) 0))

def loopConfigInfo : OpInfo := { code := 0x0601, lenMin := 4, lenMax := 4, fields := loopConfigFields }

def loopConfigEffect (c : Cmd) (s : State) : State :=
  s.shadowWrite 0x0601 c fun s => (s.onShadow (·.withLoop c.payload)).doneSet 0x0601 c 0 []

def execLoopConfig (c : Cmd) (s : State) : Result := .next (s.run loopConfigInfo c (loopConfigEffect c))

/-- Mantissas of a LOOP_COEFF payload of `n` states. -/
def coefCount (n : Nat) : Nat := n * n + 5 * n + 2

def loopCoeffFields (c : Cmd) (s : State) : Verdict :=
  let p := c.payload
  let n := ccStates p
  let used := 16 + 2 * coefCount n
  (firstFail ([chk (1 < u8 p 0) 0, chk (n = 0 || 5 < n) 1] ++ ((List.range 8).map fun i => badExp p (2 + i)) ++
    [rsvd p 10 6, rsvd p used (p.length - used)])).andThen
  (s.ifFree (firstFail [chk (s.sets.shadow.loops.getD (u8 p 0) [] = [] ||
                             lcStates (s.sets.shadow.loops.getD (u8 p 0) []) ≠ n) 0]))

def loopCoeffInfo : OpInfo :=
  { code := 0x0602, lenMin := 2, lenMax := 8, implied := fun p => some (1 + ceilDiv (coefCount (ccStates p)) 8),
    fields := loopCoeffFields }

def loopCoeffEffect (c : Cmd) (s : State) : State :=
  s.shadowWrite 0x0602 c fun s =>
    (s.onShadow fun k => { k with coefs := k.coefs.modify (u8 c.payload 0) fun _ => c.payload }).doneSet 0x0602 c 0 []

def execLoopCoeff (c : Cmd) (s : State) : Result := .next (s.run loopCoeffInfo c (loopCoeffEffect c))

/-! ## CTRL_INJECT (R177, R182) -/

def injShape (p : List Byte) : Nat := u8 p 2
def injDuration (p : List Byte) : Nat := u32 p 16

/-- Half the sample rate in mHz. -/
def halfRate (n : Nat) : Nat := loopRate n * 500

/-- DEDUCED, unsafe (log 63). -/
def ctrlInjectFields (c : Cmd) (s : State) : Verdict :=
  let p := c.payload
  let n := u8 p 0
  let badF (i : Nat) : Bool := u32 p i = 0 || halfRate n < u32 p i
  let l := s.loop n
  firstFail [chk (1 < n) 0, chk (1 < u8 p 1) 1, chk (3 < injShape p) 2, chk (!([7, 9, 11, 15].contains (u8 p 3))) 3,
    chk (badF 8) 8, chk (badF 12 || (injShape p = 1 && u32 p 8 = u32 p 12)) 12,
    chk (injDuration p = 0 || 16777215 < injDuration p) 16, chk (u8 p 20 = 0) 20, rsvd p 21 11,
    locked3 (injShape p != 3 && (s.liveOf c).isNone && (l.st != .closed || l.inject.isSome))]

def ctrlInjectInfo : OpInfo := { code := 0x0603, lenMin := 2, lenMax := 2, fields := ctrlInjectFields }

/-- The injection ends with OK. -/
def State.endInject (n : Nat) (s : State) : State :=
  match (s.loop n).inject with
  | some j => (s.onLoop n fun l => { l with inject := none, inj := 0 }).doneOn 0x0603 (.loop n) j.cmd j.index
  | none => s

def ctrlInjectEffect (c : Cmd) (s : State) : State :=
  let p := c.payload
  let n := u8 p 0
  if injShape p = 3 then
    let played := ((s.loop n).inject.map (·.index)).getD 0
    (s.endInject n).doneOn 0x0603 (.loop n) c played
  else if (s.loop n).st != .closed then
    let b := s.block stFaultMotion 2 0
    (s.applied (.loop n) c b).finishWith 0x0603 c b []
  else
    (s.onLoop n fun l =>
      { l with inject := some { cmd := c, point := u8 p 1, shape := injShape p, order := u8 p 3, ampl := s32 p 4,
                                fStart := u32 p 8, fStop := u32 p 12, duration := injDuration p, hold := u8 p 20,
                                index := 0, lfsr := 2 ^ u8 p 3 - 1 } }).setPending (.loop n) c

/-- A start waits for an earlier swap (R90) and for an injection that still runs (R396).
DEDUCED, unsafe (log 63). -/
def ctrlInject (c : Cmd) (s : State) : State :=
  let start := injShape c.payload != 3
  if start && (s.swapsAhead c != 0 || ((s.liveOf c).isSome && (s.loop (u8 c.payload 0)).inject.isSome)) then s
  else s.run ctrlInjectInfo c (ctrlInjectEffect c)

def execCtrlInject (c : Cmd) (s : State) : Result := .next (ctrlInject c s)

/-- The row of CTRL_INJECT with SHAPE STOP. -/
def ctrlInjectStop (c : Cmd) (s : State) : State := s.run ctrlInjectInfo c (ctrlInjectEffect c)

def execCtrlInjectStop (c : Cmd) (s : State) : Result := .next (ctrlInjectStop c s)

/-- INJECT_END: DURATION samples have played. -/
def injectEnd (n : Nat) (s : State) : State :=
  match (s.loop n).inject with
  | some j => if j.duration ≤ j.index then s.endInject n else s
  | none => s

def execInjectEnd (loop : Nat) (s : State) : Result := .next (injectEnd loop s)

/-! ## CAMEO_ARM and CAMEO_READ (R178, R182) -/

/-- DEDUCED, unsafe (log 63). -/
def cameoArmFields (c : Cmd) (_ : State) : Verdict :=
  let p := c.payload
  let n := u8 p 3
  firstFail ([chk (1 < u8 p 0) 0, chk (4 < u8 p 1) 1, chk (u8 p 2 = 0) 2, chk (n = 0 || 4 < n) 3] ++
    ((List.range 4).map fun k => chk (if k < n then 12 < u8 p (4 + k) else u8 p (4 + k) ≠ 0xFF) (4 + k)) ++
    [chk (16383 < u16 p 8) 8, rsvd p 10 6])

def cameoArmInfo : OpInfo := { code := 0x0604, lenMin := 1, lenMax := 1, fields := cameoArmFields }

def cameoArmEffect (c : Cmd) (s : State) : State :=
  let p := c.payload
  let s := s.endCapture
  let ep := (s.loop (u8 p 0)).epoch
  if u8 p 1 = 4 then s.doneOn 0x0604 (.loop (u8 p 0)) c 0 else
  let s := s.onCameo fun _ =>
    { st := .armed, cmd := some c, loop := u8 p 0, trigger := u8 p 1, decimate := u8 p 2,
      sigs := (List.range 4).map fun k => u8 p (4 + k), pre := u16 p 8, phase := 0, samples := [], trigIndex := 0, before := ep }
  (s.cameoTrigger (u8 p 0) 0).setPending (.loop (u8 p 0)) c

def execCameoArm (c : Cmd) (s : State) : Result := .next (s.run cameoArmInfo c (cameoArmEffect c))

/-- The row of CAMEO_ARM with TRIGGER STOP. -/
def cameoStop (c : Cmd) (s : State) : State := s.run cameoArmInfo c (cameoArmEffect c)

def execCameoStop (c : Cmd) (s : State) : Result := .next (cameoStop c s)

def cameoReadFields (c : Cmd) (s : State) : Verdict :=
  let p := c.payload
  firstFail [chk (16383 < u16 p 0) 0, chk (u16 p 2 = 0 || 508 < u16 p 2) 2, rsvd p 4 12,
             chk (cameoSize < u16 p 0 + u16 p 2) 0, locked3 s.cameo.running]

def cameoReadInfo : OpInfo :=
  { code := 0x0605, lenMin := 1, lenMax := 1, unseqOk := fun _ => true, fields := cameoReadFields }

/-- The eight bytes of a captured sample. -/
def Cameo.sampleBytes (c : Cameo) (i : Nat) : List Byte :=
  ((List.range 4).map fun k => le 2 ((c.samples.getD i []).getD k 0)).flatten

def cameoReadEffect (c : Cmd) (s : State) : State :=
  let k := s.cameo
  s.finish 0x0605 c stOk 0 k.trigIndex
    ((List.range (u16 c.payload 2)).map fun i => k.sampleBytes (u16 c.payload 0 + i)).flatten

def execCameoRead (c : Cmd) (s : State) : Result := .next (s.run cameoReadInfo c (cameoReadEffect c))

/-! ## CTRL_STATUS (Tables 6.12 and 6.13, R175) -/

def LoopState.code : LoopState → Nat
  | .unconfigured => 0
  | .opened => 1
  | .closed => 2
  | .fault => 3

def CameoState.code : CameoState → Nat
  | .idle => 0
  | .armed => 1
  | .capturing => 2
  | .complete => 3

/-- The first captured sample governed by a new set: the first whose epoch is not that of the sample ahead of it. -/
def Cameo.swapIndex (c : Cameo) : Nat :=
  match c.samples.findIdx? (fun y => sampleEpoch y != c.before) with
  | some i => i
  | none => 0xFFFF

/-- LOOP_FLAGS. -/
def State.loopFlags (n : Nat) (s : State) : Nat :=
  let l := s.loop n
  flagsOf [l.inject.isSome, l.noMeas, l.arithSat, l.outSat, l.outSatLong, l.intClamp, l.ctrlOverrun, l.miss,
           n == 1 && s.motion.galvoShort]

/-- DEDUCED, unsafe (log 65). -/
def State.ctrlStatus (n : Nat) (s : State) : List Byte :=
  let l := s.loop n
  let c := s.cameo
  le 1 l.st.code ++ le 1 (lcMode (s.sets.active.loopImage n)) ++ le 1 l.faultCause ++ le 1 l.faultAction ++
  le 2 (s.loopFlags n) ++ zeros 2 ++ leInt 4 (toNative n (mantVal (lcY l.image) l.r)) ++ leInt 4 (sat32 l.y).1 ++ leInt 4 l.us ++
  leInt 4 (toNative n (mantVal (lcY l.image) l.e)) ++ leInt 4 l.q ++ le 4 l.samples ++ le 4 l.faultCount ++
  le 4 l.overrunTotal ++ le 4 l.gapTotal ++ le 2 (s.feedbackAux n) ++ le 2 (if n = 0 then s.mdrv.drvCode else 0) ++
  le 1 c.st.code ++ le 1 (if l.inject.isSome then 1 else 0) ++ le 2 c.trigIndex ++ le 2 c.swapIndex ++
  le 2 (sampleEpoch (c.samples.getD 0 [])) ++ le 8 l.faultStamp

def ctrlStatusInfo : OpInfo :=
  { code := 0x0606, lenMin := 1, lenMax := 1, unseqOk := fun p => !bit (u8 p 1) 0 && u16 p 2 == 0,
    fields := fun c _ => firstFail [chk (1 < u8 c.payload 0) 0, rsvdBits c.payload 1 1, maskChk c.payload 2 0x1FC,
                                    rsvd c.payload 4 12] }

/-- Clears the sticky flags of Table 6.13 that a mask names. -/
def State.clearLoop (n m : Nat) (s : State) : State :=
  (s.onLoop n fun l =>
    { l with arithSat := l.arithSat && !bit m 2, outSat := l.outSat && !bit m 3, outSatLong := l.outSatLong && !bit m 4,
             intClamp := l.intClamp && !bit m 5, ctrlOverrun := l.ctrlOverrun && !bit m 6, miss := l.miss && !bit m 7 })
  |>.onMotion fun k => { k with galvoShort := k.galvoShort && !(n == 1 && bit m 8) }

def ctrlStatusEffect (c : Cmd) (s : State) : State :=
  let n := u8 c.payload 0
  let s := s.clearLoop n (u16 c.payload 2)
  let refused := bit (u8 c.payload 1) 0 && (s.loop n).inFault && !s.causeEnded n
  let s := if bit (u8 c.payload 1) 0 && (s.loop n).inFault && !refused then s.unlatch n else s
  let b := s.block (if refused then stFaultMotion else stOk) (if refused then 1 else 0) (s.loop n).st.code
  (if c.unseq then s else s.applied (.loop n) c b).finishWith 0x0606 c b (s.ctrlStatus n)

def execCtrlStatus (c : Cmd) (s : State) : Result := .next (s.run ctrlStatusInfo c (ctrlStatusEffect c))

/-! ## MOTION_RECORD (R182) -/

def motionRecordInfo : OpInfo :=
  { code := 0x0607, lenMin := 1, lenMax := 1,
    fields := fun c s => let p := c.payload
      (firstFail [chk (1 < u8 p 6) 6, chk (u8 p 7 = 0 || 100 < u8 p 7) 7, chk (6553600 < u32 p 8) 8, rsvdBits p 12 1,
                  rsvd p 13 3]).andThen (s.storeCheck (bit (u8 p 12) 0)) }

def motionRecordEffect (c : Cmd) (s : State) : State :=
  let s := (s.onMotion fun m => { m with record := slice c.payload 0 12 ++ zeros 4 }).refreshPlan
  if bit (u8 c.payload 12) 0 then s.storeAfter 0x0607 recMotion c (s.block stOk 0 0)
  else s.doneOn 0x0607 (.record recMotion) c 0

def execMotionRecord (c : Cmd) (s : State) : Result := .next (s.run motionRecordInfo c (motionRecordEffect c))

end Sys2Proof.Machine
end

