-- ==== Sys2Proof/Machine/Angle.lean ====
section
/-!
DEFINITION. Meanings of the resolver's events (chapter 5): filter outputs, the tracking converter and its loss tests, the
speed check, cyclic-error learning, the encoder generator and the camera triggers.
-/
namespace Sys2Proof.Machine

/-- The angle record (Table 16.10). -/
def recAngle : Nat := 0x20

/-! ## Synchronising resets (R125, R131, R133) -/

/-- A command whose reset took place completes: its settings stand, and lock was kept or lost since; with PERSIST its reply follows
the store (R152). -/
def State.endReset (s : State) (x : Nat × Cmd × Nat × Bool) : State :=
  let lost := x.2.2.2
  let persist := x.1 == 0x0501 && bit (u8 x.2.1.payload 9) 0
  let b := { s.block (if lost then stFaultAngle else stOk) (if lost then 4 else 0) 0 with stamp := x.2.2.1 }
  if persist then s.storeAfter x.1 recAngle x.2.1 b else s.finishWith x.1 x.2.1 b []

/-- The last UNSETTLED carrier output has been delivered. -/
def State.settleReset (s : State) : State :=
  if s.angle.resetCmds.isEmpty || (List.range 3).any (fun k => (s.fslot k).unsettled != 0) then s
  else
    let l := s.angle.resetCmds
    (l.foldl State.endReset s).onAngle fun a => { a with resetCmds := [] }

/-- Peak current of the excitation, in codes at gain ×1. -/
def peakOf (p : List Byte) : Nat := acAmpl p * (1 + acGain p)

/-- The excitation and cascade of an ANGLE_CONFIG come into use; a change of amplitude or gain scales A_REF and has it learnt afresh
(R135). What does not belong to the reset waits for the next tracking update (R133). -/
def State.takeReset (p : List Byte) (s : State) : State :=
  let old := s.angle.config
  let scale := acAmpl old != acAmpl p || acGain old != acGain p
  s.onAngle fun a =>
    let learns := scale && (a.lock == .locked || a.lock == .coast)
    { a with config := resetPart a.config p, next := some p,
             aRef := if scale then a.aRef * peakOf p / pos (peakOf old) else a.aRef,
             relearn := if learns then 64 else a.relearn, aSum := if learns then 0 else a.aSum }

/-- A tracking update takes the fields of ANGLE_CONFIG that wait for it (R133); a new PHASE_ADJ is where the steering starts.
DESIGN CHOICE, unsafe (log 55). -/
def Angle.takeNext (a : Angle) : Angle :=
  match a.next with
  | none => a
  | some p =>
    let starts := acPhase p != acPhase a.config
    { a with config := p, next := none, phaseAdj := if starts then acPhase p else a.phaseAdj,
             phaseRest := if starts then 0 else a.phaseRest }

/-- A synchronising reset for a command, with phase 0 at stamp `at_` when the excitation changes with it.
DEDUCED, unsafe (log 58). -/
def State.syncReset (op : Nat) (c : Cmd) (at_ : Nat) (s : State) : State :=
  let restart := op == 0x0501 && excChanges s.angle.config c.payload
  let t := s.stamp
  let s := if op = 0x0501 then s.takeReset c.payload else s
  let s := s.onAngle fun a =>
    { a with excStart := if restart then at_ else a.excStart, pendingReset := none, resetCmds := a.resetCmds ++ [(op, c, t, false)] }
  let s := s.resetCarrier
  if s.learning then s.discardLearn 5 else s

/-- EXC_CHANGE: the positive zero crossing that a reset waits for.
DEDUCED, unsafe (log 58). -/
def excChange (s : State) : State :=
  match s.angle.pendingReset with
  | some x => if s.clk.pllLocked && decide (x.2.2 ≤ s.fineNow) then s.syncReset x.1 x.2.1 x.2.2 else s
  | none => s

def execExcChange (s : State) : Result := .next (excChange s)

/-- EXC_SHORT: the output current reaches 40 mA (R124).
DEDUCED, unsafe (log 135). -/
def excShort (s : State) : State :=
  if s.angle.exc == .switchOpen then s else
  let s := (s.onAngle fun a => { a with excShort := true }).parkExc
  if s.tracking then s.loseLock 8
  else if s.angle.lock == .acquire then s.angleGone .noSignal else s

def execExcShort (s : State) : Result := .next (excShort s)

/-! ## Filter outputs (R126 to R132) -/

/-- Does the filter engine run? -/
def State.filterRuns (s : State) : Bool := s.clk.started && s.awake .filter

/-- The stamp of the newest window end of a carrier slot, if one has ended since the excitation's phase 0.
DEDUCED, safe (log 51). -/
def State.windowEnd (slot : Nat) (s : State) : Option Nat :=
  let h := halfPeriod s.angle.config
  let base := s.angle.excStart + 64000 * slot
  if base + h ≤ s.fineNow then some (base + (s.fineNow - base) / h * h) else none

/-- The EXC_MON check of Table 5.5, after an output of slot 2.
DEDUCED, unsafe (log 54). -/
def State.checkExc (s : State) : State :=
  let f := s.fslot 2
  if !s.tracking || f.mark then s else
  let v := 2 * f.out.natAbs
  let bad := v < s.angle.excRef || 3 * s.angle.excRef < v
  let s := s.onAngle fun a => { a with excFails := if bad then a.excFails + 1 else 0 }
  if acAmpCount s.angle.config ≤ s.angle.excFails then s.loseLock 8 else s

/-- Takes what a carrier slot's filter gave: its slot, and whether a stage saturated. -/
def State.takeOutput (slot : Nat) (g : FilterSlot) (sat : Bool) (at_ : Nat) (s : State) : State :=
  let p := s.angle.config
  let locked := s.clk.pllLocked
  let turning := decide (2 ^ 31 ≤ s.angle.speed.natAbs)
  let s := s.onFslot slot fun f =>
    { g with index := at_, unsettled := if locked then f.unsettled - 1 else settleCount p,
             mark := f.unsettled != 0 || sat || !locked, fresh := true,
             stuck := if turning && decide ((g.out - f.out).natAbs ≤ acStuckDelta p) then f.stuck + 1 else 0 }
  let s := s.noteSat sat
  (if slot = 2 then s.checkExc else s).settleReset

/-- Are the filter slots switched to their test sources (R131, R433)? -/
def State.onTestSource (s : State) : Bool := s.health.running.any (·.code == 0x0D)

/-- The stamp of the output that a carrier slot has still to deliver: its newest window end. While the PLL is unlocked no tick is
counted, and the stamp stays. -/
def State.dueOutput (slot : Nat) (s : State) : Option Nat :=
  let i := (s.fslot slot).index
  if !s.clk.pllLocked then some i else (s.windowEnd slot).filter (i < ·)

/-- FILTER_OUTPUT: the modulator bits of a demodulation step give the slot's output; while the PLL is unlocked every output is
UNSETTLED.
DEDUCED, safe (log 51). -/
def filterOutput (slot : Nat) (bits : List Bool) (test : Bool) (stamp : Nat) (s : State) : State :=
  if 3 ≤ slot || !s.filterRuns || bits.length ≠ stepSamples s.angle.config || test != s.onTestSource ||
     s.dueOutput slot ≠ some stamp then s
  else
    let x := (s.fslot slot).demodulate s.angle.config s.angle.phaseAdj s.angle.excStart stamp s.dcHeld bits
    s.takeOutput slot x.1 x.2 stamp

def execFilterOutput (slot : Nat) (samples : List Bool) (test : Bool) (stamp : Nat) (s : State) : Result :=
  .next (filterOutput slot samples test stamp s)

/-- GALVO_FILTER_OUTPUT: GPA and GPB for a 40 kHz strobe, from the windows that end 12.5 µs before it and 16 modulator samples later.
DEDUCED, unsafe (log 53). -/
def galvoFilterOutput (gpa gpb : List Bool) (test : Bool) (s : State) : State :=
  if !s.filterRuns || !s.clk.pllLocked || gpa.length ≠ 512 || gpb.length ≠ 512 || test != s.onTestSource then s else
  match s.galvoEnd with
  | none => s
  | some t =>
    if t ≤ (s.fslot 3).index then s else
    let a := (s.fslot 3).average gpa
    let b := (s.fslot 4).average gpb
    let take (g : FilterSlot × Bool) (t : Nat) (f : FilterSlot) : FilterSlot :=
      { g.1 with index := t, unsettled := f.unsettled - 1, mark := f.unsettled != 0 || g.2 }
    let s := ((s.onFslot 3 (take a t)).onFslot 4 (take b (t + 64000))).onMotion fun m => { m with gpa := a.1.out, gpb := b.1.out }
    (s.noteSat a.2).noteSat b.2

def execGalvoFilterOutput (gpa gpb : List Bool) (test : Bool) (s : State) : Result := .next (galvoFilterOutput gpa gpb test s)

/-! ## Camera triggers (R150, R151) -/

def camCount (p : List Byte) : Nat := u8 p 1
/-- WIDTH in ticks. -/
def camWidth (p : List Byte) : Nat := ns (u32 p 4)
/-- LEAD in ticks. -/
def camLead (p : List Byte) : Int := s32 p 8 * 32 / 25
def camAngles (p : List Byte) : List Nat := (List.range (camCount p)).map fun i => u32 p (16 + 4 * i) % turn

def State.cam (n : Nat) (s : State) : CamPin := s.angle.cams.getD n CamPin.reset
def State.onCam (n : Nat) (f : CamPin → CamPin) (s : State) : State := s.onAngle fun a => { a with cams := a.cams.modify n f }

/-- Ticks in half a revolution at the published speed. -/
def State.halfTurnTicks (s : State) : Nat := 1280000000 * 32768 / pos s.angle.pubSpeed.toNat

/-- The tick of a trigger angle's edge as the last update predicts it: LEAD before the crossing, on the 12.5 ns grid. -/
def State.camTick (p : List Byte) (th : Nat) (s : State) : Option Nat :=
  (s.tickNear th).map fun t => 16 * (roundDiv ((t : Int) - camLead p) 16).toNat

/-- Has a pin's trigger angle fired in this pass of the spindle? -/
def State.camFired (c : CamPin) (th : Nat) (s : State) : Bool := c.last.any fun l => l.1 == th && !s.since l.2 s.halfTurnTicks

/-- Edges within 1 µs of their instant are committed: later updates do not move them (R150). -/
def State.commitCams (s : State) : State :=
  let now := s.clk.tickCount
  let near (c : CamPin) : List (Nat × Nat) := (camAngles c.image).filterMap fun th =>
    if c.committed.any (·.1 == th) || s.camFired c th then none
    else (s.camTick c.image th).bind fun t => if now ≤ t && t ≤ now + us 1 then some (th, t) else none
  s.onAngle fun a => { a with cams := a.cams.map fun c =>
    { c with committed := (c.committed.filter fun x => decide (now ≤ x.2 + us 1)) ++ near c } }

/-- An edge that the update before still moved, and that this one puts into the past, comes at the next point of the grid; `old` is
the state before the update.
DESIGN CHOICE, unsafe (log 59). -/
def State.lateCams (old s : State) : State :=
  let now := s.clk.tickCount
  let passed (c : CamPin) : List (Nat × Nat) := (camAngles c.image).filterMap fun th =>
    if c.committed.any (·.1 == th) || s.camFired c th then none
    else match old.camTick c.image th, s.camTick c.image th with
      | some t0, some t1 => if now < t0 && t1 ≤ now then some (th, 16 * ceilDiv now 16) else none
      | _, _ => none
  s.onAngle fun a => { a with cams := a.cams.map fun c => { c with committed := c.committed ++ passed c } }

/-- A CAM_CONFIG that waits for a boundary takes effect. -/
def State.takeCams (s : State) : State :=
  s.onAngle fun a => { a with cams := a.cams.map fun c => match c.pending with
    | some p => { c with image := p, pending := none, committed := [] }
    | none => c }

/-! ## What waits for a revolution boundary, or for a spindle below 1 rev/s (R140, R151) -/

/-- Replaces the table at the next boundary, or at once below 1 rev/s (R140). -/
def State.cycTake (s : State) : State :=
  let s := match s.angle.cycPending with
    | .none => s
    | .disable => s.onAngle fun a => { a with table := none, cycPending := .none }
    | .use t => s.onAngle fun a => { a with table := some t, cycPending := .none }
  let gen := (s.angle.table.map (·.generation)).getD 0
  let l := s.angle.cycCmds
  (l.foldl (fun (s : State) x => s.done x.1 x.2 gen) s).onAngle fun a => { a with cycCmds := [] }

/-- Is the spindle slower than 1 rev/s? -/
def State.slow (s : State) : Bool := s.angle.pubSpeed.natAbs < 65536

/-- Below 1 rev/s nothing waits for a boundary. -/
def State.slowEffects (s : State) : State := if s.slow then s.cycTake.takeCams else s

/-! ## The tracking converter (R136, R137, R143) -/

/-- The amplitude of a pair in 2^-16 of an output's unit. -/
def amplitude (x y : Int) : Nat := isqrt ((x * x + y * y).toNat * 2 ^ 32)

/-- A sixteenth of full scale. -/
def sixteenth : Nat := 2 ^ 19 * 65536

/-- ω of Table 5.3 in rad/s (R137). -/
def omega (p : List Byte) : Rat := mkRat (2 * piFix * 250 * 2 ^ acBw p * 1000) (2482 * 2 ^ 60)

/-- Does the pair's amplitude lie below, or above, the limits about `ref`? -/
def ampLow (p : List Byte) (a ref : Nat) : Bool := a * a * 256 < acAmpLo p * (ref * ref)
def ampHigh (p : List Byte) (a ref : Nat) : Bool := acAmpHi p * (ref * ref) < a * a * 64

/-- One update of the loop with a settled pair, its integrator 48 bits wide; also its err in turns.
DESIGN CHOICE, unsafe (log 52). -/
def Angle.update (x y : Int) (amp : Nat) (a : Angle) : Angle × Rat :=
  let p := a.config
  let phi : Rat := mkRat a.phi (2 ^ 32)
  let skew : Rat := mkRat a.speed (2 ^ 32 * 1280000)
  let num := x * cosTurns phi - y * sinTurns (phi + skew)
  let err : Rat := if amp = 0 then 0 else mkRat (num * 65536) (2 * piFix.toNat * amp)
  let w := omega p
  let speedI := clampInt (-(2 ^ 47)) (2 ^ 47 - 1) (a.speedI + roundRat (w * w * err / (stepRate p : Rat) * (2 ^ 32 : Nat)))
  let speed := speedI + roundRat (2 * w * err * (2 ^ 32 : Nat))
  let phi' := ((a.phi + roundDiv speed (stepRate p)) % 2 ^ 32).toNat
  ({ a with speedI := speedI, speed := speed, phi := phi' }, err)

/-- phi, which refers to one stamp, moved on to another at the loop's speed: an update runs on the prediction for its pair's stamp. -/
def Angle.predict (t : Nat) (a : Angle) : Angle :=
  { a with phi := ((a.phi + roundDiv (a.speed * ((t : Int) - a.stamp)) fineHz) % 2 ^ 32).toNat, stamp := t }

/-- The stamp of the update on the present pair. -/
def State.pairStamp (s : State) : Nat := (s.fslot 0).index - groupDelay s.angle.config

/-- The update runs, on the prediction for its pair's stamp, and publishes; a learning pass takes it until the pass's last boundary
(R141). Camera edges within 1 µs are committed before it (R150), and what waits for a slow spindle takes
effect after it (R140, R151). The published speed decides on SPEED_LOW (R233), whatever becomes of the lock. -/
def State.runUpdate (x y : Int) (amp : Nat) (s : State) : State × Rat :=
  let u := (s.angle.predict s.pairStamp).update x y amp
  let next := s.pairStamp + halfPeriod s.angle.config
  let s := ((s.commitCams.onAngle fun a => { u.1 with cams := a.cams }).publish next |> s.lateCams).slowEffects
  let s := s.onAngle fun a => match a.learn with
    | some l =>
      if l.waiting || l.revs ≤ l.done then a else { a with learn := some { l with samples := l.samples ++ [(a.phi, next)] } }
    | none => a
  (s.speedRule, u.2)

/-- The magnitude of err in ac, against a limit. -/
def errAbove (err : Rat) (limit : Nat) : Bool := decide (((limit : Nat) : Rat) < absRat err * (turn : Rat))
def errBelow (err : Rat) (limit : Nat) : Bool := decide (absRat err * (turn : Rat) < ((limit : Nat) : Rat))

/-! ### NO_SIGNAL and LOST, until ACQUIRE -/

/-- The `k`-th pair of a run that acquires, with its stamp: phi from the first, phi and speed from the first two.
DEDUCED, unsafe (log 54). -/
def Angle.acquirePair (k th t : Nat) (a : Angle) : Angle :=
  if k = 1 then { a with firstPair := some th, phi := th, speed := 0, speedI := 0, stamp := t }
  else if k = 2 then
    let d := toSigned 32 ((((th : Int) - a.firstPair.getD th) % 2 ^ 32).toNat)
    let v := roundDiv (d * fineHz) (pos (t - a.stamp))
    { a with speed := v, speedI := v, phi := th, stamp := t }
  else a

/-- Is a stuck-output test failing (Table 5.5)?
DEDUCED, unsafe (log 54). -/
def State.stuckOutput (s : State) : Bool :=
  let n := acStuckCount s.angle.config
  n ≤ (s.fslot 0).stuck || n ≤ (s.fslot 1).stuck

/-- A settled pair with no lock and no acquisition. -/
def State.seekPair (x y : Int) (amp : Nat) (s : State) : State :=
  if amp < sixteenth || s.angle.exc != .run || s.stuckOutput then s.onAngle fun a => { a with acqPairs := 0, firstPair := none } else
  let k := s.angle.acqPairs + 1
  let t := s.pairStamp
  let s := s.onAngle fun a => { (a.acquirePair k (atan2Turns x y) t) with acqPairs := k }
  if acAmpCount s.angle.config ≤ k then
    s.onAngle fun a => { a with lock := .acquire, lockCount := 0, aSum := 0, aCount := 0, acqLow := 0 }
  else s

/-! ### ACQUIRE -/

/-- A settled pair in ACQUIRE. -/
def State.acquireUpdate (x y : Int) (amp : Nat) (s : State) : State :=
  let p := s.angle.config
  let low := if amp < sixteenth then s.angle.acqLow + 1 else 0
  let s := s.onAngle fun a => { a with acqLow := low }
  if acAmpCount p ≤ low || s.stuckOutput then s.angleGone .noSignal
  else if s.angle.acqPairs = 1 then
    let t := s.pairStamp
    s.onAngle fun a => { (a.acquirePair 2 (atan2Turns x y) t) with acqPairs := 2 }
  else
    let mean := s.angle.aSum / pos s.angle.aCount
    let inWindow := s.angle.aCount = 0 || (!ampLow p amp mean && !ampHigh p amp mean)
    let r := s.runUpdate x y amp
    let s := r.1
    if inWindow && errBelow r.2 256 then
      s.onAngle fun a => { a with lockCount := a.lockCount + 1, aSum := a.aSum + amp, aCount := a.aCount + 1 }
    else s.onAngle fun a => { a with lockCount := 0, aSum := 0, aCount := 0 }

/-- AMP_RATIO: an amplitude over the reference, LSB 2^-12. -/
def ampRatioOf (amp ref : Nat) : Nat := min 65535 (amp * 4096 / pos ref)

/-- LOCK_ACQUIRED: 64 consecutive updates count. -/
def lockAcquired (s : State) : State :=
  if s.angle.lock == .acquire && decide (64 ≤ s.angle.lockCount) then
    let t := s.fineNow
    let ref := (s.fslot 2).out.natAbs
    let s := s.onAngle fun a =>
      { a with lock := .locked, aRef := a.aSum / pos a.aCount, excRef := ref, lowFails := 0, highFails := 0, slip := 0,
               excFails := 0, relearn := 0, mismatchRun := 0, ampRatio := ampRatioOf a.amp (a.aSum / pos a.aCount),
               gate := { start := t, prev := none, pairs := [], speeds := [], fault := false } }
    (s.clearCause causeAngle).encResume
  else s

def execLockAcquired (s : State) : Result := .next (lockAcquired s)

/-! ### The speed check (R145) -/

/-- Crossings of multiples of 2^26 (16 384 ac) between two open-loop angles, with interpolated stamps. -/
def crossings (a : Int) (ta : Nat) (b : Int) (tb : Nat) : List (Int × Nat) :=
  let ka := a / 2 ^ 26
  let kb := b / 2 ^ 26
  let at_ (k : Int) : Nat := ((ta : Int) + roundDiv ((k * 2 ^ 26 - a) * ((tb : Int) - ta) * signOf ((b - a : Int) : Rat))
    (b - a).natAbs).toNat
  if a < b then (List.range (kb - ka).toNat).map fun (i : Nat) => (ka + 1 + i, at_ (ka + 1 + i))
  else (List.range (ka - kb).toNat).map fun (i : Nat) => (ka - i, at_ (ka - i))

/-- A settled pair joins the open gate. -/
def State.gatePair (x y : Int) (s : State) : State :=
  let t := s.pairStamp
  s.onAngle fun a =>
    let raw := atan2Turns x y
    let th := (((raw : Int) - a.cyc raw) % 2 ^ 32).toNat
    let g := a.gate
    let un : Int := match g.prev with
      | some q => q.1 + toSigned 32 ((((th : Int) - q.1) % 2 ^ 32).toNat)
      | none => th
    let new := match g.prev with
      | some q => if q.1 = un then [] else crossings q.1 q.2 un t
      | none => []
    { a with gate := { g with prev := some (un, t), pairs := g.pairs ++ new, speeds := g.speeds ++ [(t, a.speed)] } }

/-- The speed that a fit of the crossings gives, rev/s. -/
def fitSpeed (period : Rat) : Rat := (fineHz : Rat) / (64 * period)

/-- What the open gate holds up to stamp `stop`, and what is left for the next one. -/
def SpeedGate.cut (stop : Nat) (g : SpeedGate) : SpeedGate × SpeedGate :=
  let inside (t : Nat) : Bool := decide (g.start ≤ t) && decide (t < stop)
  ({ g with pairs := g.pairs.filter (inside ·.2), speeds := g.speeds.filter (inside ·.1) },
   { g with start := stop, pairs := g.pairs.filter (stop ≤ ·.2), speeds := g.speeds.filter (stop ≤ ·.1), fault := false })

/-- Mean of the tracked speeds of a gate, rev/s. -/
def SpeedGate.mean (g : SpeedGate) : Rat :=
  mkRat ((g.speeds.map (·.2)).foldl (· + ·) 0) (2 ^ 32 * pos g.speeds.length)

/-- Difference of the fitted speed from the mean tracked one, in ppm; none for a gate that is skipped. -/
def SpeedGate.ppm (f : Fit) (g : SpeedGate) : Option Rat :=
  if f.status ≠ 0 || g.speeds.isEmpty || f.exact = 0 || g.mean = 0 then none
  else some ((fitSpeed f.exact - g.mean) / g.mean * 1000000)

/-- SPEED_CHECK_GATE: a gate of length GATE closes; the pairs whose stamps lie in it are fitted. A gate that is skipped leaves the run of
mismatches as it is.
DEDUCED, unsafe (log 131). -/
def speedCheckGate (s : State) : State :=
  let p := s.angle.config
  let stop := s.angle.gate.start + acGate p
  if s.angle.lock != .locked || s.fineNow < stop then s else
  let g := (s.angle.gate.cut stop).1
  let f := if g.fault then faultFit g.pairs else fitPairs (acMinCount p) (acResid p) g.pairs
  let s := s.onAngle fun a => { a with gate := (a.gate.cut stop).2, speedFit := f.bytes }
  match g.ppm f with
  | none => s
  | some ppm =>
    let bad := decide (((acSpeedTol p : Nat) : Rat) < absRat ppm)
    let s := s.onAngle fun a =>
      { a with speedCheckPpm := clampInt int32Min int32Max (roundRat ppm), speedMismatch := a.speedMismatch || bad,
               mismatchTotal := if bad then satInc 32 a.mismatchTotal else a.mismatchTotal,
               mismatchRun := if bad then a.mismatchRun + 1 else 0 }
    if 2 ≤ s.angle.mismatchRun then s.loseLock 9 else s

def execSpeedCheckGate (s : State) : Result := .next (speedCheckGate s)

/-! ### LOCKED and COAST -/

/-- A_REF is learnt afresh over 64 settled updates (R135). -/
def Angle.relearnStep (amp : Nat) (a : Angle) : Angle :=
  if a.relearn = 0 then a
  else if a.relearn = 1 then { a with relearn := 0, aRef := (a.aSum + amp) / 64, aSum := 0 }
  else { a with relearn := a.relearn - 1, aSum := a.aSum + amp }

/-- PHASE_ADJ moves towards the null of the quadrature with a time constant of 100 ms: by a step's share of the phase that the
quadrature of SIN and COS shows (R129).
DESIGN CHOICE, unsafe (log 55). -/
def Angle.steer (sq cq x y : Int) (a : Angle) : Angle :=
  let den := (x * x + y * y).toNat * 2 * piFix.toNat * stepRate a.config
  let d := if den = 0 then 0 else roundDiv (-(sq * x + cq * y) * 10 * 2 ^ 48 * 2 ^ 60) den
  let t := ((a.phaseAdj * 2 ^ 32 + a.phaseRest : Nat) + d) % 2 ^ 48
  { a with phaseAdj := t.toNat / 2 ^ 32, phaseRest := t.toNat % 2 ^ 32 }

/-- The steering runs with AUTO_PHASE, and only while LOCKED. -/
def State.steerPhase (x y : Int) (s : State) : State :=
  if acAuto s.angle.config && s.angle.lock == .locked then
    let sq := (s.fslot 0).quad
    let cq := (s.fslot 1).quad
    s.onAngle fun a => a.steer sq cq x y
  else s

/-- A pair that gives no update: LOCKED goes to COAST, unless a stuck output ends the angle (R144) or the acquisition (R143).
The sweep goes on by the extrapolated angle. -/
def State.coastPair (s : State) : State :=
  if s.stuckOutput && s.tracking then s.loseLock 4
  else if s.stuckOutput && s.angle.lock == .acquire then s.angleGone .noSignal
  else if s.tracking then s.coast.sweepNow
  else s

/-- A settled pair while the angle is in use: amplitude tests, update, then the tests on what the update gave. -/
def State.trackUpdate (x y : Int) (amp : Nat) (s : State) : State :=
  let p := s.angle.config
  let ref := s.angle.aRef
  let low := ampLow p amp ref
  let high := ampHigh p amp ref
  let s := s.onAngle fun a =>
    { a with lowFails := if low then a.lowFails + 1 else 0, highFails := if high then a.highFails + 1 else 0,
             ampRatio := ampRatioOf amp ref }
  if acAmpCount p ≤ s.angle.lowFails then s.loseLock 1
  else if acAmpCount p ≤ s.angle.highFails then s.loseLock 2
  else if low || high then s.coastPair
  else
    let r := s.runUpdate x y amp
    let slip := if errAbove r.2 (acSlip p) then r.1.angle.slip + 1 else 0
    let s := r.1.onAngle fun a => { (a.relearnStep amp) with lock := .locked, coastSince := none, slip := slip }
    let s := s.gatePair x y
    if s.stuckOutput then s.loseLock 4
    else if 4 ≤ slip then s.loseLock 6
    else if 100 * 2 ^ 32 < s.angle.speed.natAbs then s.loseLock 7
    else (s.steerPhase x y).followAngle

/-! ### One pair -/

/-- TRACKING_UPDATE: a SIN and a COS output of one step have been delivered. -/
def trackingUpdate (s : State) : State :=
  let f0 := s.fslot 0
  let f1 := s.fslot 1
  if !f0.fresh || !f1.fresh || (s.clk.pllLocked && f1.index != f0.index + 64000) then s else
  let s := (s.onFslot 0 fun f => { f with fresh := false }).onFslot 1 fun f => { f with fresh := false }
  let x := f0.out
  let y := f1.out
  let amp := amplitude x y
  let s := if f0.mark || f1.mark then s.coastPair
    else
      let s := s.onAngle fun a => { a.takeNext with amp := amp }
      match s.angle.lock with
      | .noSignal | .lost => s.seekPair x y amp
      | .acquire => s.acquireUpdate x y amp
      | .locked | .coast => s.trackUpdate x y amp
  if s.angle.encOver && s.tracking && s.clk.pllLocked then s.encResume else s

def execTrackingUpdate (s : State) : Result := .next (trackingUpdate s)

/-- STUCK_MODULATOR: 1024 identical modulator samples of a slot (Table 5.5). -/
def stuckModulator (slot : Nat) (s : State) : State :=
  if 3 ≤ slot then s
  else if s.tracking then s.loseLock (if slot = 2 then 8 else 3)
  else if slot = 2 then s
  else if s.angle.lock == .acquire then s.angleGone .noSignal
  else s.onAngle fun a => { a with acqPairs := 0, firstPair := none }

def execStuckModulator (slot : Nat) (s : State) : Result := .next (stuckModulator slot s)

/-- COAST_TIMEOUT: COAST has lasted longer than COAST_MAX. -/
def coastTimeout (s : State) : State :=
  if s.angle.lock == .coast && s.angle.coastSince.any (fun t => decide (t + us 10 * acCoast s.angle.config < s.now)) then
    s.loseLock 5
  else s

def execCoastTimeout (s : State) : Result := .next (coastTimeout s)

/-! ## Cyclic-error learning (R140 to R142) -/

/-- DEDUCED, unsafe (log 56). -/
def State.cycReplace (p : CycPending) (cmds : List (Nat × Cmd)) (s : State) : State :=
  let s := s.onAngle fun a => { a with cycPending := p, cycCmds := a.cycCmds ++ cmds }
  if s.slow then s.cycTake else s

/-- phi unwrapped along the samples of a pass. -/
def unwrapFrom (prev : Int) : List (Nat × Nat) → List (Int × Int)
  | [] => []
  | (p, t) :: r =>
    let u := prev + toSigned 32 ((((p : Int) - prev) % 2 ^ 32).toNat)
    (u, (t : Int)) :: unwrapFrom u r

/-- What a least-squares line leaves of each sample, in 2^-32 rev.
DESIGN CHOICE, unsafe (log 57). -/
def lineResiduals (l : List (Int × Int)) : List Rat :=
  let t0 := ((l.head?).map (·.2)).getD 0
  let pts := l.map fun x => (x.2 - t0, x.1)
  let k : Int := pts.length
  let sx := (pts.map (·.1)).foldl (· + ·) 0
  let sy := (pts.map (·.2)).foldl (· + ·) 0
  let sxx := (pts.map fun q => q.1 * q.1).foldl (· + ·) 0
  let sxy := (pts.map fun q => q.1 * q.2).foldl (· + ·) 0
  let dxx := k * sxx - sx * sx
  let w : Rat := if dxx = 0 then 0 else mkRat (k * sxy - sx * sy) dxx.toNat
  let p0 : Rat := if k = 0 then 0 else ((sy : Rat) - w * sx) / k
  pts.map fun q => (q.2 : Rat) - p0 - w * q.1

/-- A harmonic's coefficient: 2 / k times the sum of residual × basis.
DESIGN CHOICE, unsafe (log 57). -/
def harmonic (f : Rat → Int) (h : Nat) (l : List (Rat × Rat)) : Rat :=
  2 * ((l.map fun x => x.1 * ((f (h * x.2) : Int) : Rat)).foldl (· + ·) 0) / ((2 ^ 60 * pos l.length : Nat) : Rat)

/-- The 1024 entries of a pass (R141).
DESIGN CHOICE, unsafe (log 57). -/
def learnEntries (samples : List (Nat × Nat)) : List (Int × Int) :=
  let first := ((samples.head?).map (·.1)).getD 0
  let res := lineResiduals (unwrapFrom first samples)
  let pts := res.zip (samples.map fun x => mkRat x.1 (2 ^ 32))
  let hs := (List.range 8).map fun i => (i + 1, harmonic cosTurns (i + 1) pts, harmonic sinTurns (i + 1) pts)
  let entry (j : Nat) : Int := roundRat ((hs.map fun x =>
    (x.2.1 * ((cosTurns (mkRat ((x.1 * j : Nat) : Int) 1024) : Int) : Rat) +
     x.2.2 * ((sinTurns (mkRat ((x.1 * j : Nat) : Int) 1024) : Int) : Rat)) / ((2 ^ 60 : Nat) : Rat)).foldl (· + ·) 0)
  let es : List Int := (List.range 1024).map entry
  (List.range 1024).map fun j => (es.getD j 0, es.getD ((j + 1) % 1024) 0 - es.getD j 0)

/-- Revolution times of a pass in fine steps. -/
def revTimes : List Nat → List Nat
  | a :: b :: r => (b - a) :: revTimes (b :: r)
  | _ => []

/-- Is the pass steady: every revolution within 0.2 % of the pass's mean speed and within 2 to 100 rev/s? -/
def steady (bs : List Nat) : Bool :=
  let ds := revTimes bs
  let total : Nat := ds.foldl (· + ·) 0
  let n : Nat := ds.length
  ds.all fun d =>
    -- |1/d − n/total| ≤ 0.002 n/total
    decide (500 * ((total : Int) - (n * d : Nat)).natAbs ≤ n * d) && decide (2 * d ≤ fineHz) && decide (fineHz ≤ 100 * d)

/-- CYC_LEARN_PASS_END: the pass has its revolutions.
DEDUCED, unsafe (log 56). -/
def cycLearnPassEnd (s : State) : State :=
  match s.angle.learn with
  | some l =>
    if l.waiting || l.done < l.revs then s
    else if !steady l.boundaries then s.discardLearn 1
    else
      let es := learnEntries l.samples
      if es.any fun e => decide (acCycLimit s.angle.config * 4096 < e.1.natAbs) then s.discardLearn 3 else
      let gen (t : Option CycTable) : Nat := (t.map (·.generation)).getD 0
      let g := wrap 32 (max (gen s.angle.table) (gen s.angle.stored) + 1)
      let t : CycTable := { generation := g, entries := es }
      let s := s.onAngle fun a => { a with learn := none, learnState := 2, learnDiscarded := false }
      if l.store then
        ((s.onAngle fun a => { a with toStore := some (some t) }).cycReplace (.use t) []).storeFor 0x0504 recAngle none l.cmd
      else s.cycReplace (.use t) [(0x0504, l.cmd)]
  | none => s

def execCycLearnPassEnd (s : State) : Result := .next (cycLearnPassEnd s)

/-- A revolution boundary, as the resolver sees it: passes, tables and trigger settings (R140, R141, R151).
DEDUCED, unsafe (log 56). -/
def State.angleBoundary (s : State) : State :=
  let t := s.fineNow
  let s := s.onAngle fun a => { a with learn := a.learn.map fun l =>
    if l.waiting then { l with waiting := false, boundaries := [t] }
    else if l.done < l.revs then { l with done := l.done + 1, boundaries := l.boundaries ++ [t] } else l }
  s.cycTake.takeCams

/-! ## The encoder generator (R147, R148) -/

/-- How many counts the generator is behind its angle, forward. -/
def State.encAhead (s : State) : Nat := (s.encTarget + s.encTurn - s.angle.encCount) % pos s.encTurn

/-- The shorter way to the target, in counts. -/
def State.encBehind (s : State) : Nat := min s.encAhead (s.encTurn - s.encAhead)

/-- ENC_STATE_CHANGE: one state, on the 12.5 ns grid and at most once per 50 ns; while it catches up, in the direction of rotation. -/
def encStateChange (s : State) : State :=
  let n := s.encTurn
  let now := s.now
  if n = 0 || s.angle.encFrozen || s.encAhead = 0 || !s.since s.angle.encAt 64 || s.clk.tickCount % 16 != 0 then s else
  let up := if s.angle.encCatch then decide (0 ≤ s.angle.pubSpeed) else decide (2 * s.encAhead ≤ n)
  let s := s.onAngle fun a => { a with encCount := if up then (a.encCount + 1) % n else (a.encCount + n - 1) % n, encAt := now }
  (if s.encAhead = 0 then s.onAngle fun a => { a with encCatch := false } else s).encDrive

def execEncStateChange (s : State) : Result := .next (encStateChange s)

/-- ENC_OVERRATE: the angle asks for more than 20 MHz and the generator is more than 4 states behind. -/
def encOverrate (s : State) : State :=
  if s.angle.encFrozen || s.encTurn = 0 || s.encRate ≤ 20000000 * 65536 || s.encBehind ≤ 4 then s
  else s.encFreeze.onAngle fun a => { a with encOver := true, encOverrate := true }

def execEncOverrate (s : State) : Result := .next (encOverrate s)

/-! ## Camera triggers (R150, R151) -/

/-- The trigger angle whose edge is due at this tick, and that has not fired. A committed edge keeps its tick.
DESIGN CHOICE, unsafe (log 59). -/
def State.camDue (n : Nat) (s : State) : Option Nat :=
  let c := s.cam n
  let now := s.clk.tickCount
  (camAngles c.image).find? fun th =>
    let at_ := match c.committed.find? (·.1 == th) with
      | some x => some x.2
      | none => s.camTick c.image th
    at_ == some now && !s.camFired c th

/-- CAM_TRIG_EDGE: a trigger angle is crossed; without a valid angle or tick it counts as missed.
DESIGN CHOICE, unsafe (log 59). -/
def camTrigEdge (n : Nat) (s : State) : State :=
  let c := s.cam n
  if camCount c.image = 0 then s
  else if !s.tracking || !s.clk.pllLocked then
    s.onAngle fun a => { a with camMissed := true, camMissedTotal := satInc 32 a.camMissedTotal }
  else match s.camDue n with
    | some th =>
      let now := s.now
      (s.onCam n fun c =>
        { c with high := true, endAt := now + camWidth c.image, committed := c.committed.filter (·.1 != th),
                 last := some (th, now) }).onAngle fun a =>
        { a with camOverlap := a.camOverlap || c.high }
    | none => s

def execCamTrigEdge (pin : Nat) (s : State) : Result := .next (camTrigEdge pin s)

/-- CAM_TRIG_PULSE_END: WIDTH has passed since the last start. -/
def camTrigPulseEnd (n : Nat) (s : State) : State :=
  let c := s.cam n
  if c.high && decide (c.endAt ≤ s.now) then s.onCam n fun c => { c with high := false } else s

def execCamTrigPulseEnd (pin : Nat) (s : State) : Result := .next (camTrigPulseEnd pin s)

end Sys2Proof.Machine
end

