-- ==== Sys2Proof/Machine/AngleCmd.lean ====
section
/-!
DEFINITION. Meanings of the angle opcodes (Table 5.7).
-/
namespace Sys2Proof.Machine

/-- Commands of the range take effect in acceptance order: those behind one that waits for its zero crossing wait.
DEDUCED, unsafe (log 58). -/
def State.angleRun (o : OpInfo) (c : Cmd) (eff : State → State) (s : State) : State :=
  if s.angle.pendingReset.isSome && (s.liveOf c).isSome then s else s.run o c eff

/-! ## ANGLE_CONFIG and FILTER_SYNC (R133, R134, R153) -/

/-- A stage field that is not as the stage count wants it. -/
def badStage (p : List Byte) (k : Nat) : Bool :=
  if acPreset p = 4 && k < acStages p then 32768 ≤ u16 p (24 + 2 * k) else u16 p (24 + 2 * k) ≠ 0

/-- The check of R134: the coast that a reset to settings `p` costs. -/
def State.coastCheck (p : List Byte) (s : State) : Bool × Nat × Nat :=
  let spent := (s.angle.coastSince.map fun t => 64 * (s.now - t)).getD 0
  let demand := spent + 2 * halfPeriod s.angle.config + settleCount p * halfPeriod p
  locked3 (s.tracking && decide (acCoast p * 819200 < demand))

def angleConfigFields (c : Cmd) (s : State) : Verdict :=
  let p := c.payload
  (firstFail ([chk (8 ≤ u16 p 0) 0, chk (2048 ≤ u16 p 2 || acAmpl p < 64) 2, chk (4 < u8 p 4) 4, rsvdBits p 5 4,
      chk (3 < u8 p 8 || acFreq p < acBw p) 8, rsvdBits p 9 1, chk (acCoast p < 10 || 1000 < acCoast p) 10, rsvd p 12 4,
      chk (if acPreset p = 4 then acStages p = 0 || 4 < acStages p || 2 < acWindow p else !zeroAt p 16 16) 16,
      rsvd p 18 6] ++ ((List.range 4).map fun k => chk (badStage p k) (24 + 2 * k)) ++
    [chk (acAmpLo p < 16 || 240 < acAmpLo p) 32, chk (acAmpHi p < 72) 33, chk (acAmpCount p = 0 || 16 < acAmpCount p) 34,
     chk (acStuckCount p < 4) 35, chk (1023 < acStuckDelta p) 36, chk (acSlip p < 256 || 32768 < acSlip p) 38,
     chk (acSpeedTol p < 50 || 10000 < acSpeedTol p) 40, chk (acCycLimit p < 64 || 16384 < acCycLimit p) 42, rsvd p 44 4,
     chk (u32 p 48 < 1000 || 10000000 < u32 p 48) 48, chk (acMinCount p < 3 || 4096 < acMinCount p) 52, rsvd p 56 8] ++
    (if resetNeeded s.angle.wanted p then [s.coastCheck p] else []))).andThen (s.storeCheck (bit (u8 p 9) 0))

def angleConfigInfo : OpInfo := { code := 0x0501, lenMin := 4, lenMax := 4, fields := angleConfigFields }

/-- A reset for a command: at the next positive zero crossing while the excitation runs, at once while it is parked. -/
def State.requestReset (op : Nat) (c : Cmd) (s : State) : State :=
  let t := s.fineNow
  if s.angle.exc == .run then
    let period := 2 * halfPeriod s.angle.config
    let next := s.angle.excStart + ((t - s.angle.excStart) / period + 1) * period
    s.onAngle fun a => { a with pendingReset := some (op, c, next) }
  else s.syncReset op c t

/-- ANGLE_CONFIG: fields that cause no reset come into use with the next tracking update (R133). -/
def angleConfigEffect (c : Cmd) (s : State) : State :=
  if resetNeeded s.angle.wanted c.payload then s.requestReset 0x0501 c
  else
    let s := s.onAngle fun a => { a with next := some c.payload }
    if bit (u8 c.payload 9) 0 then s.storeAfter 0x0501 recAngle c (s.block stOk 0 0) else s.done 0x0501 c 0

def execAngleConfig (c : Cmd) (s : State) : Result := .next (s.angleRun angleConfigInfo c (angleConfigEffect c))

def filterSyncInfo : OpInfo :=
  { code := 0x0503, lenMin := 0, lenMax := 0, fields := fun _ s => firstFail [s.coastCheck s.angle.wanted] }

def execFilterSync (c : Cmd) (s : State) : Result := .next (s.angleRun filterSyncInfo c (State.requestReset 0x0503 c))

/-! ## ANGLE_FRAME -/

/-- Does a view exist in either set, or retire? -/
def State.anyView (s : State) : Bool :=
  !s.sets.active.views.isEmpty || !s.sets.shadow.views.isEmpty || !s.sets.retiring.isEmpty

def angleFrameInfo : OpInfo :=
  { code := 0x0502, lenMin := 1, lenMax := 1,
    fields := fun c s => let p := c.payload
      (firstFail [chk (turn ≤ u32 p 0) 0, rsvdBits p 4 1, rsvdBits p 5 1, rsvd p 6 10, locked3 s.anyView]).andThen
        (s.storeCheck (bit (u8 p 5) 0)) }

def angleFrameEffect (c : Cmd) (s : State) : State :=
  let p := c.payload
  let s := s.onAngle fun a => { a with zeroOffset := u32 p 0, dir := bit (u8 p 4) 0 }
  if bit (u8 p 5) 0 then s.storeAfter 0x0502 recAngle c (s.block stOk 0 0) else s.done 0x0502 c 0

def execAngleFrame (c : Cmd) (s : State) : Result := .next (s.angleRun angleFrameInfo c (angleFrameEffect c))

/-! ## CYC_LEARN and CYC_SELECT -/

def cycLearnInfo : OpInfo :=
  { code := 0x0504, lenMin := 1, lenMax := 1,
    fields := fun c s => let p := c.payload
      (firstFail [chk (u8 p 0 < 4 || 64 < u8 p 0) 0, rsvdBits p 1 1, rsvd p 2 14,
                  locked3 ((s.liveOf c).isNone && (s.angle.learn.isSome || s.angle.lock != .locked))]).andThen
        (s.storeCheck (bit (u8 p 1) 0)) }

/-- An accepted pass that finds the state outside LOCKED when it takes effect is discarded as one that lost it.
DEDUCED, unsafe (log 56). -/
def cycLearnEffect (c : Cmd) (s : State) : State :=
  let s := s.onAngle fun a =>
    { a with learn := some { cmd := c, revs := u8 c.payload 0, store := bit (u8 c.payload 1) 0, waiting := true, done := 0,
                             boundaries := [], samples := [] },
             learnState := 1 }
  if s.angle.lock == .locked then s else s.discardLearn 2

def cycLearn (c : Cmd) (s : State) : State :=
  if (s.liveOf c).isSome && s.angle.learn.isSome then s else s.angleRun cycLearnInfo c (cycLearnEffect c)

def execCycLearn (c : Cmd) (s : State) : Result := .next (cycLearn c s)

def cycSelectInfo : OpInfo :=
  { code := 0x0505, lenMin := 1, lenMax := 1,
    fields := fun c s => let p := c.payload
      (firstFail [chk (2 < u8 p 0 || (u8 p 0 = 1 && s.angle.stored.isNone)) 0, rsvd p 1 15]).andThen
        (s.storeCheck (u8 p 0 == 2)) }

/-- DEDUCED, unsafe (log 56). -/
def cycSelectEffect (c : Cmd) (s : State) : State :=
  let m := u8 c.payload 0
  if m = 2 then
    ((s.onAngle fun a => { a with toStore := some none }).cycReplace .disable []).storeFor 0x0505 recAngle none c
  else
    s.cycReplace (if m = 1 then (s.angle.stored.map CycPending.use).getD .disable else .disable) [(0x0505, c)]

def execCycSelect (c : Cmd) (s : State) : Result := .next (s.angleRun cycSelectInfo c (cycSelectEffect c))

/-! ## ENC_CONFIG and CAM_CONFIG -/

def encConfigInfo : OpInfo :=
  { code := 0x0506, lenMin := 1, lenMax := 1,
    fields := fun c _ => let p := c.payload
      firstFail [chk (65536 < u32 p 0) 0, chk (turn ≤ u32 p 4) 4, rsvdBits p 8 3, rsvd p 9 7] }

/-- The generator realigns by jump; without a valid angle it takes the held angle and stays frozen.
DESIGN CHOICE, unsafe (log 59). -/
def encConfigEffect (c : Cmd) (s : State) : State :=
  let s := s.onAngle fun a => { a with encImage := c.payload }
  let live := s.tracking && s.clk.pllLocked
  let s := s.encJump.onAngle fun a =>
    { a with encFrozen := !live, encRealigned := true, realignTotal := satInc 32 a.realignTotal }
  s.done 0x0506 c 0

def execEncConfig (c : Cmd) (s : State) : Result := .next (s.angleRun encConfigInfo c (encConfigEffect c))

/-- Trigger angle `i` is out of its field, or not above the one before it. -/
def badTrigger (p : List Byte) (i : Nat) : Bool :=
  turn ≤ u32 p (16 + 4 * i) || (0 < i && u32 p (16 + 4 * i) ≤ u32 p (12 + 4 * i))

def camConfigFields (c : Cmd) (_ : State) : Verdict :=
  let p := c.payload
  let n := camCount p
  firstFail ([chk (3 < u8 p 0) 0, chk (64 < n) 1, rsvd p 2 2, chk (u32 p 4 < 100 || 10000000 < u32 p 4) 4,
      chk (1000000 < (s32 p 8).natAbs) 8, rsvd p 12 4] ++
    ((List.range n).map fun i => chk (badTrigger p i) (16 + 4 * i)) ++ [rsvd p (16 + 4 * n) (p.length - (16 + 4 * n))])

def camConfigInfo : OpInfo :=
  { code := 0x0507, lenMin := 1, lenMax := 17, implied := fun p => some (1 + ceilDiv (camCount p) 4), fields := camConfigFields }

def camConfigEffect (c : Cmd) (s : State) : State :=
  let n := u8 c.payload 0
  let now := s.slow
  let s := s.onCam n fun k =>
    if now then { k with image := c.payload, pending := none, committed := [] } else { k with pending := some c.payload }
  s.done 0x0507 c 0

def execCamConfig (c : Cmd) (s : State) : Result := .next (s.angleRun camConfigInfo c (camConfigEffect c))

/-! ## ANGLE_STATUS (Tables 5.9 and 5.10) -/

def LockState.code : LockState → Nat
  | .noSignal => 0
  | .acquire => 1
  | .locked => 2
  | .coast => 3
  | .lost => 4

/-- Slots whose outputs are UNSETTLED, slot n in bit n. -/
def State.unsettledMask (s : State) : Nat :=
  flagsOf ((List.range 5).map fun k => (s.fslot k).unsettled != 0 || (s.fslot k).mark)

/-- ANGLE_FLAGS. -/
def State.angleFlags (s : State) : Nat :=
  let a := s.angle
  flagsOf [s.tracking, a.lock == .coast, s.unsettledMask != 0, a.excShort, a.filterSat, a.speedMismatch, a.learnDiscarded,
           a.encOverrate, a.encRealigned, a.camMissed, a.camOverlap]

/-- CYC_PEAK in sixteenths of an ac. -/
def CycTable.peak (t : CycTable) : Nat :=
  (roundDiv ((t.entries.map fun e => e.1.natAbs).foldl max 0) 256).toNat

/-- COAST_TIME in µs. -/
def State.coastTime (s : State) : Nat :=
  if s.angle.lock == .coast then (s.angle.coastSince.map fun t => (s.now - t) / 1280).getD 0 else 0

def State.angleStatus (s : State) : List Byte :=
  let a := s.angle
  le 1 a.lock.code ++ le 1 a.lossCause ++ le 2 s.angleFlags ++ le 4 (if s.tracking then s.angleNow else a.angle) ++
  leInt 4 a.pubSpeed ++ le 8 a.pubStamp ++ le 2 a.ampRatio ++ le 2 a.phaseAdj ++ le 2 (min 65535 s.coastTime) ++
  le 2 a.lossCount ++ le 1 s.unsettledMask ++ le 1 a.learnState ++ le 1 a.learnDetail ++ [0] ++ leInt 4 a.speedCheckPpm ++
  le 4 ((a.table.map (·.generation)).getD 0) ++ le 4 ((a.table.map CycTable.peak).getD 0) ++ le 4 a.encCount ++
  le 4 a.camMissedTotal ++ le 4 a.realignTotal ++ le 4 a.filterSatTotal ++ le 4 a.mismatchTotal

def angleStatusInfo : OpInfo :=
  { code := 0x0508, lenMin := 1, lenMax := 1, unseqOk := unseqIf0 0,
    fields := fun c _ => firstFail [maskChk c.payload 0 0x7F8, rsvd c.payload 2 14] }

/-- Excitation restarts at phase 0 when its short is cleared, outside Pavane. -/
def State.restartExc (s : State) : State :=
  if s.angle.exc.isParked && s.power.phase != .pavane then
    let t := s.fineNow
    (s.onAngle fun a => { a with exc := .run, excStart := t }).resetCarrier
  else s

/-- Clears the sticky flags of Table 5.10 that a mask names. -/
def State.clearAngle (m : Nat) (s : State) : State :=
  let restart := bit m 3 && s.angle.excShort
  let s := s.onAngle fun a =>
    { a with excShort := a.excShort && !bit m 3, filterSat := a.filterSat && !bit m 4,
             speedMismatch := a.speedMismatch && !bit m 5, learnDiscarded := a.learnDiscarded && !bit m 6,
             encOverrate := a.encOverrate && !bit m 7, encRealigned := a.encRealigned && !bit m 8,
             camMissed := a.camMissed && !bit m 9, camOverlap := a.camOverlap && !bit m 10 }
  if restart then s.restartExc else s

def angleStatusEffect (c : Cmd) (s : State) : State :=
  let s := s.clearAngle (u16 c.payload 0)
  s.finish 0x0508 c stOk 0 s.angle.lock.code s.angleStatus

def execAngleStatus (c : Cmd) (s : State) : Result := .next (s.angleRun angleStatusInfo c (angleStatusEffect c))

end Sys2Proof.Machine
end

