-- ==== Sys2Proof/Machine/Bias.lean ====
section
/-!
DEFINITION. Meanings of the return-channel rows (R252 to R265): the SiPM bias with its monitor and its temperature, channel
settings and status, and the input tests of Table 9.5.
-/
namespace Sys2Proof.Machine

/-! ## BIAS_CONFIG (Table 9.9) -/

def bcEnable (p : List Byte) : Bool := bit (u8 p 0) 0
def bcPersist (p : List Byte) : Bool := bit (u8 p 0) 1
def bcMon (p : List Byte) : Bool := bit (u8 p 0) 2
def bcGain (p : List Byte) : Nat := u16 p 14

def State.onBias (f : Bias → Bias) (s : State) : State := s.onReturns fun r => { r with bias := f r.bias }
def State.bias (s : State) : Bias := s.returns.bias

/-- Bias of one code of HVB_SET, in 2^-20 µV. -/
def codeCost (p : List Byte) : Nat := bcGain p * 1200000

/-- The commanded bias, HVB_GAIN × HVB_SET, in 2^-20 µV. -/
def Bias.commanded (b : Bias) : Nat := b.hvb * codeCost b.image

/-- The commanded bias in units of 10 mV. -/
def Bias.tens (b : Bias) : Nat := (roundDiv b.commanded (10000 * 2 ^ 20)).toNat

/-- The bias record (Table 16.10). -/
def recBias : Nat := 0x22

/-- The waiting BIAS_CONFIG completes with the bias reached (R262); with PERSIST its final reply follows the store, whatever its status
(R152). -/
def State.endBias (st det : Nat) (s : State) : State :=
  match s.bias.cmd with
  | none => s
  | some c =>
    let s := s.onBias fun b => { b with cmd := none }
    if bcPersist c.payload then s.storeAfter 0x0982 recBias c (s.block st det s.bias.tens)
    else s.finish 0x0982 c st det s.bias.tens []

/-- BIAS_UNSETTLED after a change of code or target (R253): set beyond 50 mV; the 5 ms run from the return. -/
def State.settleBias (s : State) : State :=
  let now := s.now
  s.onBias fun b =>
    if 50000 * 2 ^ 20 < ((b.commanded : Int) - b.target * 2 ^ 20).natAbs then { b with unsettled := true, within50At := none }
    else if b.unsettled && b.within50At.isNone then { b with within50At := some now }
    else b

/-- The bias ramps down: ENABLE is 0, or Pavane runs. -/
def State.biasDown (s : State) : Bool := !bcEnable s.bias.image || s.power.phase == .pavane

/-! ## Temperature and monitor readings (R254, R345) -/

/-- A new result of measurement `m`: its curve, its VALUE, and whether it is VALID.
DEDUCED, unsafe (log 80). -/
def State.biasReading (m curve : Nat) (value : Int) (valid : Bool) (s : State) : State :=
  let now := s.now
  let s := if u8 s.bias.image 1 = m then
      s.onBias fun b =>
        if valid && 1 ≤ curve && curve ≤ 5 then
          { b with temp := roundDiv value 10, tempAt := some now, tempHold := false }
        else { b with tempHold := true }
    else s
  if bcMon s.bias.image && u8 s.bias.image 2 = m && valid && curve = 6 then
    s.onBias fun b =>
      let diff : Int := value * 1000000 * 16 - b.commanded     -- 2^-16 V against 2^-20 µV
      let bad := decide (u16 b.image 18 * 10000 * 2 ^ 20 < diff.natAbs)
      { b with mon := (roundDiv (value * 100) 65536).toNat,
               monBadSince := if bad then some (b.monBadSince.getD now) else none }
  else s

/-- Does a BIAS_CONFIG with ENABLE wait that has had no valid reading for 1 s since it took effect (R262)? -/
def State.biasUnread (s : State) : Bool :=
  let b := s.bias
  b.cmd.any (fun c => bcEnable c.payload) && b.tempAt.all (· < b.enabledAt) && s.since b.enabledAt (sec 1)

/-- BIAS_TEMP_TIMEOUT: no valid reading for 1 s (R254); a BIAS_CONFIG that had none since it took effect completes, and HVB_SET stays
where it is. -/
def biasTempTimeout (s : State) : State :=
  let b := s.bias
  if !s.since (b.tempAt.getD b.enabledAt) (sec 1) then s else
  let s := s.onBias fun b => { b with tempHold := true }
  if s.biasUnread then (s.onBias fun b => { b with targetValid := false }).endBias stFaultReceive 2 else s

def execBiasTempTimeout (s : State) : Result := .next (biasTempTimeout s)

/-! ## Target and steps (R253) -/

/-- V_TGT before its clamp, in µV. -/
def State.biasWanted (s : State) : Int :=
  let b := s.bias
  10000 * (u16 b.image 4 : Int) + s16 b.image 6 * (b.temp - 2500) + 10000 * u16 b.image 8 + 10000 * s.health.ovTrim

/-- The temperature reading in use is valid. -/
def State.biasTempOk (s : State) : Bool :=
  !s.bias.tempHold && s.bias.tempAt.any fun t => !s.since t (sec 1)

/-- BIAS_TARGET_COMPUTE: every 100 ms while ENABLE is 1 (R253).
DEDUCED, unsafe (log 80). -/
def biasTargetCompute (s : State) : State :=
  if !bcEnable s.bias.image || !s.since s.bias.computeAt (ms 100) then s else
  let now := s.now
  let s := s.onBias fun b => { b with computeAt := now }
  if !s.biasTempOk then s else
  let want := s.biasWanted
  let t := clampInt (10000 * u16 s.bias.image 10) (10000 * u16 s.bias.image 12) want
  let s := (s.onBias fun b => { b with target := t.toNat, targetValid := true, clamped := t != want }).settleBias
  if s.bias.unsettled then s
  else if s.bias.clamped then s.endBias stFaultReceive 1 else s.endBias stOk 0

def execBiasTargetCompute (s : State) : Result := .next (biasTargetCompute s)

/-- The code that HVB_SET moves to.
DEDUCED, unsafe (log 80). -/
def State.biasCode (s : State) : Nat :=
  let b := s.bias
  if s.biasDown then 0 else min 4095 (roundDiv (b.target * 2 ^ 20 : Nat) (pos (codeCost b.image))).toNat

/-- One step of the slew rule. -/
def Bias.step (goal now : Nat) (b : Bias) : Bias :=
  let a := b.allowance + u16 b.image 16 * 100 * 2 ^ 20
  let n := min (a / pos (codeCost b.image)) (if b.hvb < goal then goal - b.hvb else b.hvb - goal)
  let v := if b.hvb < goal then b.hvb + n else b.hvb - n
  { b with hvb := v, allowance := if v = goal then 0 else a - n * codeCost b.image, stepAt := now }

/-- BIAS_STEP: every 100 µs. Under a fault HVB_SET stays at 0 V; before the first target it stays where it is. -/
def biasStep (s : State) : State :=
  let b := s.bias
  if b.fault || !s.since b.stepAt (us 100) || (!s.biasDown && !b.targetValid) then s else
  let goal := s.biasCode
  let now := s.now
  let s := (s.onBias (Bias.step goal now)).settleBias
  if s.biasDown && s.bias.hvb = 0 && s.bias.cmd.any (fun c => !bcEnable c.payload) then s.endBias stOk 0 else s

def execBiasStep (s : State) : Result := .next (biasStep s)

/-- BIAS_SETTLED: 5 ms within 50 mV. A BIAS_CONFIG that has no target yet goes on. -/
def biasSettled (s : State) : State :=
  if s.bias.unsettled && s.bias.within50At.any fun t => s.since t (ms 5) then
    let s := s.onBias fun b => { b with unsettled := false, within50At := none }
    if s.bias.targetValid && s.bias.cmd.any fun c => bcEnable c.payload then
      if s.bias.clamped then s.endBias stFaultReceive 1 else s.endBias stOk 0
    else s
  else s

def execBiasSettled (s : State) : Result := .next (biasSettled s)

/-- BIAS_FAULT: the monitor has differed for 1 s. -/
def biasFault (s : State) : State :=
  if !bcMon s.bias.image || s.bias.fault || !(s.bias.monBadSince.any fun t => s.since t (sec 1)) then s else
  let s := s.onBias fun b => { b with fault := true, hvb := 0, allowance := 0 }
  s.settleBias.endBias stFaultReceive 3

def execBiasFault (s : State) : Result := .next (biasFault s)

/-! ## BIAS_CONFIG -/

def biasConfigFields (c : Cmd) (s : State) : Verdict :=
  let p := c.payload
  (firstFail [rsvdBits p 0 3, chk (15 < u8 p 1) 1, chk (15 < u8 p 2) 2, rsvd p 3 1, chk (10000 < u16 p 4) 4,
    chk (decide (s16 p 6 < -1000) || decide (1000 < s16 p 6)) 6, chk (1000 < u16 p 8) 8,
    chk (10000 < u16 p 10 || u16 p 12 < u16 p 10) 10,
    chk (10000 < u16 p 12 || bcGain p * 1200 < u16 p 12 * 2560) 12, chk (bcGain p < 256) 14,
    chk (u16 p 16 < 10 || 2000 < u16 p 16) 16, chk (u16 p 18 = 0 || 1000 < u16 p 18) 18, rsvd p 20 12]).andThen (s.storeCheck (bcPersist p))

def biasConfigInfo : OpInfo := { code := 0x0982, lenMin := 2, lenMax := 2, fields := biasConfigFields }

/-- New bias settings: a reading of the same TEMP_INPUT, and a mismatch of the same MON_INPUT, last on (R254); a ramp that starts, or
starts anew, is unsettled until its first target.
DEDUCED, unsafe (log 80). -/
def Bias.withConfig (c : Cmd) (now : Nat) (restart : Bool) (b : Bias) : Bias :=
  let p := c.payload
  let sameTemp := u8 p 1 == u8 b.image 1
  let sameMon := bcMon p && bcMon b.image && u8 p 2 == u8 b.image 2
  { b with image := p, cmd := some c, targetValid := false, tempAt := if sameTemp then b.tempAt else none,
           tempHold := sameTemp && b.tempHold, enabledAt := now, fault := b.fault && !bcEnable p,
           unsettled := b.unsettled || restart, within50At := if restart then none else b.within50At, clamped := false,
           monBadSince := if sameMon then b.monBadSince else none, mon := if bcMon p then b.mon else 0 }

def biasConfigEffect (c : Cmd) (s : State) : State :=
  let s := s.endBias stOk 0
  let now := s.now
  let on := bcEnable c.payload
  let restart := on && (!bcEnable s.bias.image || s.bias.fault)
  let s := s.onBias (Bias.withConfig c now restart)
  let s := if restart then s else s.settleBias
  if !on && s.bias.hvb = 0 then s.endBias stOk 0 else s

def execBiasConfig (c : Cmd) (s : State) : Result := .next (s.run biasConfigInfo c (biasConfigEffect c))

/-! ## RX_CONFIG (Table 9.8) -/

/-- The settings of every channel of the mask. -/
def ConfigSet.withRx (p : List Byte) (c : ConfigSet) : ConfigSet :=
  { c with rx := c.rx.zipIdx.map fun x => if (leNat (slice p 0 24)).testBit x.2 then slice p 24 24 else x.1 }

def rxConfigFields (c : Cmd) (s : State) : Verdict :=
  let p := c.payload
  let r := p.drop 24
  (firstFail ([chk (leNat (slice p 0 24) = 0) 0, rsvdBits p 24 2, chk (12 < rxDead r) 25,
      chk (rxBase r < rxMin r || rxMax r < rxBase r) 26, rsvdBits p 29 1,
      chk (rxLongHigh r < 10 || 1000 < rxLongHigh r) 30] ++
    ((List.range 7).map fun k =>
      chk (rxEdge r (k + 1) = 0 || 64 < rxEdge r (k + 1) || (0 < k && rxEdge r (k + 1) ≤ rxEdge r k)) (32 + k)) ++
    [rsvd p 39 1, chk (rxRateMax r = 0 || 500 < rxRateMax r) 40, rsvd p 42 6])).andThen
  (s.ifFree (s.admissionCheck (s.sets.shadow.withRx p) 0))

def rxConfigInfo : OpInfo := { code := 0x0981, lenMin := 3, lenMax := 3, fields := rxConfigFields }

def rxConfigEffect (c : Cmd) (s : State) : State :=
  s.shadowWrite 0x0981 c fun s => (s.onShadow (·.withRx c.payload)).doneSet 0x0981 c 0 []

def execRxConfig (c : Cmd) (s : State) : Result := .next (s.run rxConfigInfo c (rxConfigEffect c))

/-! ## RX_STATUS (Tables 9.10 to 9.12) -/

def RxState.code : RxState → Nat
  | .off => 0
  | .standby => 1
  | .active => 2
  | .outOfService => 3

/-- Table 9.11. -/
def State.rxFlags (ch : Nat) (s : State) : Nat :=
  let c := s.channel ch
  let oos := c.st == .outOfService
  flagsOf [oos, (s.lane (s.laneOf ch)).failed, c.threshFault, c.longHigh, c.overload, c.flooded, c.silent, c.threshClamped,
           s.biasBlind || oos, s.spareServing ch]

/-- Table 9.12. -/
def State.biasFlags (s : State) : Nat :=
  let b := s.bias
  flagsOf [bcEnable b.image, b.unsettled, b.clamped, b.tempHold, b.fault]

/-- Table 9.10. -/
def State.rxStatus (ch : Nat) (s : State) : List Byte :=
  let c := s.channel ch
  let b := s.bias
  let p := s.sets.active.rxOf ch
  le 1 c.st.code ++ [0] ++ le 2 (s.rxFlags ch) ++ le 1 c.threshNow ++ leInt 1 c.ambStep ++
  leInt 1 (s.health.thrOffset.getD ch 0) ++ le 1 (rxGain p) ++ le 1 (rxDead p) ++ zeros 3 ++ le 4 c.ambRate ++
  le 4 c.blankedTotal ++ le 4 c.untimedTotal ++ le 4 c.overflowTotal ++ le 4 c.longHighTotal ++ le 4 c.windowTotal ++
  le 4 c.eventTotal ++ le 4 c.threshFaultTotal ++ zeros 4 ++ le 2 (roundDiv b.target 10000).toNat ++ le 2 b.tens ++
  le 2 (if bcMon b.image then b.mon else 0) ++ leInt 2 b.temp ++ le 2 b.hvb ++ le 1 s.biasFlags ++ zeros 5

def rxStatusInfo : OpInfo :=
  { code := 0x0983, lenMin := 1, lenMax := 1, unseqOk := unseqIf0 2,
    fields := fun c _ => firstFail [chk (191 < u8 c.payload 0) 0, rsvd c.payload 1 1, maskChk c.payload 2 0xFC,
                                    rsvd c.payload 4 12] }

/-- Clears the sticky flags of Table 9.11 that a mask names. -/
def Channel.clearSticky (m : Nat) (c : Channel) : Channel :=
  { c with threshFault := c.threshFault && !bit m 2, longHigh := c.longHigh && !bit m 3, overload := c.overload && !bit m 4,
           flooded := c.flooded && !bit m 5, silent := c.silent && !bit m 6, threshClamped := c.threshClamped && !bit m 7 }

def rxStatusEffect (c : Cmd) (s : State) : State :=
  let ch := u8 c.payload 0
  let s := s.onChannel ch (·.clearSticky (u16 c.payload 2))
  s.finish 0x0983 c stOk 0 (s.channel ch).st.code (s.rxStatus ch)

def execRxStatus (c : Cmd) (s : State) : Result := .next (s.run rxStatusInfo c (rxStatusEffect c))

/-! ## Input tests (Table 9.5) -/

/-- RX_OVERLOAD: the clamp of an ACTIVE channel conducts. -/
def rxOverload (ch : Nat) (s : State) : State :=
  if (s.channel ch).st == .active then s.onChannel ch fun c => { c with overload := true } else s

def execRxOverload (channel : Nat) (s : State) : Result := .next (rxOverload channel s)

/-- RX_SILENT: 65 536 windows without an edge. -/
def rxSilent (ch : Nat) (s : State) : State :=
  let c := s.channel ch
  if c.st == .active && decide (65536 ≤ c.silentWindows) then s.onChannel ch fun c => { c with silent := true } else s

def execRxSilent (channel : Nat) (s : State) : Result := .next (rxSilent channel s)

end Sys2Proof.Machine
end

