-- ==== Sys2Proof/Machine/Curves.lean ====
section
/-!
DEFINITION. The standard curves of auxiliary sensing (R344, Table 13.4): platinum sensors, NTC and thermocouples.
-/
namespace Sys2Proof.Machine

/-- A value clamped to a range, and whether it lay outside. -/
def ranged (lo hi v : Int) : Int × Bool := (clampInt lo hi v, decide (v < lo) || decide (hi < v))

/-- The largest `t` in `lo .. hi` with `t < lo + 2^n` at which the rising function `f` does not exceed `r`. -/
def invert (f : Int → Rat) (hi : Int) (r : Rat) : Nat → Int → Int
  | 0, lo => lo
  | n + 1, lo => if lo + 2 ^ n ≤ hi && f (lo + 2 ^ n) ≤ r then invert f hi r n (lo + 2 ^ n) else invert f hi r n lo

/-- VALUE by a rising function `f` of m°C over a range, with a free deviation of at most `tol` m°C from where `f` takes the value `r`;
outside the range its limit. -/
def inverted (f : Int → Rat) (lo hi : Int) (tol : Nat) (r : Rat) (free : Nat) : Int × Bool :=
  if r < f lo then (lo, true)
  else if f hi < r then (hi, true)
  else
    let t := invert f hi r 21 lo
    let v := if f t = r then t - tol + (free % (2 * tol + 1) : Nat) else t + 1 - tol + (free % (2 * tol) : Nat)
    (clampInt lo hi v, false)

/-! ## Platinum sensors and NTC -/

/-- The resistance of a platinum sensor at `t` m°C in units of its R0 (Callendar–Van Dusen). -/
def cvd (t : Int) : Rat :=
  let x : Rat := mkRat t 1000
  1 + mkRat 39083 10000000 * x + mkRat (-5775) 10000000000 * (x * x) +
  (if t < 0 then mkRat (-4183) 1000000000000000 * ((x - 100) * (x * x * x)) else 0)

/-- Curves 1 and 2, within the 0.002 °C that R344 allows.
DESIGN CHOICE, safe (log 89). -/
def rtdCurve (r0 : Nat) (primary : Int) (free : Nat) : Int × Bool :=
  inverted cvd (-200000) 850000 2 (mkRat primary r0) free

/-- Curve 3.
DESIGN CHOICE, safe (log 89). -/
def ntcCurve (r25 beta : Nat) (primary : Int) : Int × Bool :=
  if primary ≤ 0 then (150000, true) else
  let inv : Rat := mkRat 100 29815 + mkRat (lnFix (mkRat primary r25)) (2 ^ 60 * beta)
  if inv ≤ 0 then (150000, true) else
  ranged (-55000) 150000 (roundRat ((1 / inv - mkRat 27315 100) * 1000))

/-! ## Thermocouples (IEC 60584) -/

/-- A polynomial, lowest coefficient first. -/
def poly (cs : List Rat) (x : Rat) : Rat := cs.foldr (fun c a => c + x * a) 0

/-- The type K reference function in mV at `x` °C: coefficients below and from 0 °C.
PRESUMED, unsafe (log 143). -/
def typeKNeg : List Rat :=
  [0, mkRat 39450128025 (10 ^ 12), mkRat 23622373598 (10 ^ 15), mkRat (-32858906784) (10 ^ 17), mkRat (-49904828777) (10 ^ 19),
   mkRat (-67509059173) (10 ^ 21), mkRat (-57410327428) (10 ^ 23), mkRat (-31088872894) (10 ^ 25), mkRat (-10451609365) (10 ^ 27),
   mkRat (-19889266878) (10 ^ 30), mkRat (-16322697486) (10 ^ 33)]
def typeKPos : List Rat :=
  [mkRat (-17600413686) (10 ^ 12), mkRat 38921204975 (10 ^ 12), mkRat 18558770032 (10 ^ 15), mkRat (-99457592874) (10 ^ 18),
   mkRat 31840945719 (10 ^ 20), mkRat (-56072844889) (10 ^ 23), mkRat 56075059059 (10 ^ 26), mkRat (-32020720003) (10 ^ 29),
   mkRat 97151147152 (10 ^ 33), mkRat (-12104721275) (10 ^ 36)]

/-- The exponential term of type K from 0 °C. -/
def typeKExp (x : Rat) : Rat :=
  let d := x - mkRat 1269686 10000
  mkRat 1185976 10000000 * expFix (-(mkRat 1183432 (10 ^ 10) * (d * d) * (2 ^ 60 : Nat)).floor)

/-- EMF of type K in nV at `t` m°C. -/
def typeK (t : Int) : Rat :=
  let x : Rat := mkRat t 1000
  1000000 * (if t < 0 then poly typeKNeg x else poly typeKPos x + typeKExp x)

/-- The type T reference function in mV.
PRESUMED, unsafe (log 143). -/
def typeTNeg : List Rat :=
  [0, mkRat 38748106364 (10 ^ 12), mkRat 44194434347 (10 ^ 15), mkRat 11844323105 (10 ^ 17), mkRat 20032973554 (10 ^ 18),
   mkRat 90138019559 (10 ^ 20), mkRat 22651156593 (10 ^ 21), mkRat 36071154205 (10 ^ 23), mkRat 38493939883 (10 ^ 25),
   mkRat 28213521925 (10 ^ 27), mkRat 14251594779 (10 ^ 29), mkRat 48768662286 (10 ^ 32), mkRat 1079553927 (10 ^ 33),
   mkRat 13945027062 (10 ^ 37), mkRat 79795153927 (10 ^ 41)]
def typeTPos : List Rat :=
  [0, mkRat 38748106364 (10 ^ 12), mkRat 3329222788 (10 ^ 14), mkRat 20618243404 (10 ^ 17), mkRat (-21882256846) (10 ^ 19),
   mkRat 10996880928 (10 ^ 21), mkRat (-30815758772) (10 ^ 24), mkRat 4547913529 (10 ^ 26), mkRat (-27512901673) (10 ^ 30)]

/-- EMF of type T in nV at `t` m°C. -/
def typeT (t : Int) : Rat :=
  let x : Rat := mkRat t 1000
  1000000 * (if t < 0 then poly typeTNeg x else poly typeTPos x)

/-- Curves 4 and 5: the cold junction at `cj` m°C is converted to EMF, added to the measured EMF, and the sum inverted, within the 0.01 °C
that R344 allows.
DESIGN CHOICE, safe (log 89). -/
def coupleCurve (f : Int → Rat) (hi : Int) (emf cj : Int) (free : Nat) : Int × Bool :=
  inverted f (-200000) hi 10 ((emf : Rat) + f cj) free

end Sys2Proof.Machine
end

