-- ==== Sys2Proof/Machine/AuxSensing.lean ====
section
/-!
DEFINITION. Auxiliary sensing and Bezel (chapter 13): the sequencer, conversions and curves, offset calibration, threshold
switches, HEAT and FAN, the charge amplifier, the window monitor, and the aux opcodes.
-/
namespace Sys2Proof.Machine

/-- The aux and Bezel records (Table 16.10). -/
def recAux : Nat := 0x23
def recBezel : Nat := 0x24

/-! ## AUX_MEAS_CONFIG (Table 13.7) -/

def amType (p : List Byte) : Nat := u8 p 1
def amCurve (p : List Byte) : Nat := u8 p 2
def amGain (p : List Byte) : Nat := u8 p 3 % 8
def amRate (p : List Byte) : Nat := bits (u8 p 3) 5 3
def amPin (p : List Byte) (k : Nat) : Nat := u8 p (4 + k)
def amIexc (p : List Byte) : Nat := u8 p 10
def amCj (p : List Byte) : Nat := u8 p 11
def amSettle (p : List Byte) : Nat := u16 p 12
def amCf (p : List Byte) : Nat := u8 p 14
def amRef (p : List Byte) : Nat := u32 p 16
def amLinGain (p : List Byte) : Int := s32 p 20
def amLinOffset (p : List Byte) : Int := s32 p 24
def amR25 (p : List Byte) : Nat := u32 p 28
def amBeta (p : List Byte) : Nat := u16 p 32
/-- RESET_PERIOD in ms and SHOCK_LEVEL in fC. -/
def amReset (p : List Byte) : Nat := u16 p 34
def amShock (p : List Byte) : Nat := u32 p 36

/-- Pin fields that a type uses (Table 13.3), in the order of bytes 4 to 9. -/
def pinsUsed : Nat → List Nat
  | 0 => []
  | 2 => [0, 1, 2, 4, 5]
  | 3 | 4 => [0, 1, 2, 3, 4, 5]
  | _ => [0, 1]

/-- Pins that a measurement uses. -/
def amPins (p : List Byte) : List Nat := (pinsUsed (amType p)).map (amPin p)

/-- Full scale of the charge amplifier in fC. -/
def chargeScale (p : List Byte) : Nat := [100000, 1000000, 10000000].getD (amCf p) 100000

/-- Conversions of a type and the time of one at a RATE, in ticks (Tables 13.2 and 13.3). -/
def conversions (ty : Nat) : Nat := if ty = 2 || ty = 3 || ty = 4 then 2 else 1
def convTime (rate : Nat) : Nat := us ([100000, 20000, 4000, 1000, 250].getD rate 250)

/-- What of a change makes the first result UNSETTLED (R347). -/
def unsettles (p q : List Byte) : Bool :=
  amType p != amType q || u8 p 3 != u8 q 3 || slice p 4 6 != slice q 4 6 || amIexc p != amIexc q || amCf p != amCf q ||
  amRef p != amRef q

/-! ## The crosspoint (R336, Table 13.1) -/

/-- Pin roles. `lead`: a pin that a measurement connects as Table 13.3 says, without a role of Table 13.1: lead 3 of a three-wire RTD, the
force return of a four-wire one, the return of a piezo sensor.
DEDUCED, unsafe (log 90). -/
inductive AuxRole where
  | pos | neg | iexcA | iexcB | vexcHi | vexcLo | refP | refN | bias | burnout | charge | lead
deriving DecidableEq, Repr

/-- The roles that a measurement gives its pins in its first or second conversion (Table 13.3, R340 to R343). -/
def auxRoles (p : List Byte) (second : Bool) : List (Nat × AuxRole) :=
  let input := if second then [(amPin p 0, AuxRole.neg), (amPin p 1, .pos)] else [(amPin p 0, .pos), (amPin p 1, .neg)]
  let ref := [(amPin p 4, AuxRole.refP), (amPin p 5, .refN)]
  let iexc (x : Bool) : AuxRole := if x then .iexcB else .iexcA
  match amType p with
  | 1 => [(amPin p 0, .pos), (amPin p 1, .neg)]
  | 2 => [(amPin p 0, .pos), (amPin p 0, iexc second), (amPin p 1, .neg), (amPin p 1, iexc (!second)), (amPin p 2, .lead)] ++ ref
  | 3 => input ++ [(amPin p 2, iexc second), (amPin p 3, .lead)] ++ ref
  | 4 => input ++ (if second then [(amPin p 2, .vexcLo), (amPin p 3, .vexcHi)] else [(amPin p 2, .vexcHi), (amPin p 3, .vexcLo)]) ++ ref
  | 5 => [(amPin p 0, .pos), (amPin p 0, .burnout), (amPin p 1, .neg), (amPin p 1, .bias)]
  | 6 => [(amPin p 1, .lead)]
  | _ => []

/-! ## Parts of the state -/

def AuxMeas.none : AuxMeas :=
  { image := zeros 48, pending := Option.none, result := { value := 0, primary := 0, stamp := 0, status := 0 },
    unsettledNext := false }

def State.meas (m : Nat) (s : State) : AuxMeas := s.aux.meas.getD m AuxMeas.none
def State.onMeas (m : Nat) (f : AuxMeas → AuxMeas) (s : State) : State := s.onAux fun a => { a with meas := a.meas.modify m f }
def State.auxOffset (g : Nat) (s : State) : AuxOffset :=
  s.aux.offsets.getD g { code := Option.none, held := false, calibrated := Option.none }
def State.onPiezo (f : Piezo → Piezo) (s : State) : State := s.onAux fun a => { a with piezo := f a.piezo }

/-- The settings that a measurement has or will have. -/
def AuxMeas.next (m : AuxMeas) : List Byte := m.pending.getD m.image

def AuxResult.valid (r : AuxResult) : Bool := bit r.status 0

/-! ## The sequencer (R338, R346, R347) -/

/-- Are the aux outputs and pins driven: from the load of the aux record on (R349, R355), not in Pavane (Table 16.5)? -/
def State.auxDrives (s : State) : Bool := s.aux.loaded && s.power.phase != .pavane

/-- The GAIN codes of enabled measurements, rising. -/
def State.gainsInUse (s : State) : List Nat :=
  (List.range 8).filter fun g => s.aux.meas.any fun m => amType m.image != 0 && amGain m.image == g

/-- Is a calibration due at a gain: never done, a period old, or asked for? -/
def State.calDue (g : Nat) (s : State) : Bool :=
  (match (s.auxOffset g).calibrated with
   | none => true
   | some t => s.aux.calPeriod != 0 && s.since t (sec s.aux.calPeriod)) ||
  s.aux.calRun.any fun r => r.left.contains g

/-- The new settings of a measurement whose turn comes.
DEDUCED, unsafe (log 91). -/
def State.takeSettings (m : Nat) (s : State) : State :=
  match (s.meas m).pending with
  | none => s
  | some p =>
    let old := (s.meas m).image
    let again := amGain p != amGain old && (s.auxOffset (amGain p)).code.isNone
    let s := s.onMeas m fun x =>
      { x with image := p, pending := none, unsettledNext := x.unsettledNext || unsettles old p,
               result := if amType p = 0 then { x.result with status := x.result.status - x.result.status % 2 } else x.result }
    if again then s.onAux fun a => { a with offsets := a.offsets.modify (amGain p) fun o => { o with calibrated := none } }
    else s

/-- Goes through the measurements until one has a turn; past number 15 a cycle is complete. -/
def State.seek : List Nat → State → State
  | [], s => s.onAux fun a => { a with turn := none, cal := [] }
  | m :: r, s =>
    let now := s.now
    let s := if m = 0 && s.aux.turn.isSome then
        s.onAux fun a => { a with cycles := wrap 32 (a.cycles + 1), cycleTime := now - a.cycleStart, cycleStart := now }
      else s
    let s := s.takeSettings m
    if amType (s.meas m).image = 0 then s.seek r
    else s.onAux fun a => { a with turn := some m, turnAt := now }

/-- After its calibrations the measurement whose turn it is starts, with the settings it has by then; one that is off by then passes its
turn on. -/
def State.seekAgain (s : State) : State :=
  match s.aux.turn with
  | none => s
  | some m =>
    let s := s.takeSettings m
    if amType (s.meas m).image = 0 then s.seek ((List.range 16).map fun i => (m + 1 + i) % 16) else s

def opAuxCal : Nat := 0x0903

/-- A running AUX_CAL drops gains that are no longer in use; with none left it completes.
DEDUCED, unsafe (log 91). -/
def State.checkCalRun (s : State) : State :=
  match s.aux.calRun with
  | none => s
  | some r =>
    let left := r.left.filter fun g => s.gainsInUse.contains g
    if left.isEmpty then
      let s := s.onAux fun a => { a with calRun := none, calResult := r.held }
      if bit (u8 r.cmd.payload 4) 0 then s.storeAfter opAuxCal recAux r.cmd (s.block stOk 0 r.held) else s.done opAuxCal r.cmd r.held
    else s.onAux fun a => { a with calRun := some { r with left := left } }

/-- The calibrations that are due stand before the measurement whose turn it is. -/
def State.insertCals (s : State) : State :=
  let s := s.checkCalRun
  let due := s.gainsInUse.filter fun g => s.calDue g
  s.onAux fun a => { a with cal := if a.turn.isSome then due else [] }

/-- The next measurement after `m` in the cycle has its turn, behind the calibrations that are due.
DEDUCED, unsafe (log 91). -/
def State.nextTurn (m : Nat) (s : State) : State := (s.seek ((List.range 16).map fun i => (m + 1 + i) % 16)).insertCals

/-- Sets the sequencer going when it stands. -/
def State.startAux (s : State) : State :=
  if s.aux.turn.isSome || !s.auxDrives then s else
  let now := s.now
  (s.onAux fun a => { a with cycleStart := now }).nextTurn 15

/-! ## Curves (R344) -/

/-- VALUE and OUT_OF_RANGE of a result, with the cold junction at `cj` m°C. -/
def curveValue (p : List Byte) (primary cj : Int) (free : Nat) : Int × Bool :=
  match amCurve p with
  | 1 => rtdCurve 100000 primary free
  | 2 => rtdCurve 1000000 primary free
  | 3 => ntcCurve (amR25 p) (amBeta p) primary
  | 4 => coupleCurve typeK 1372000 primary cj free
  | 5 => coupleCurve typeT 400000 primary cj free
  | 6 => ranged (-2147483648) 2147483647 (roundDiv (primary * amLinGain p) (2 ^ 24) + amLinOffset p)
  | _ => (primary, false)

/-- Does a curve take a free value?
DESIGN CHOICE, safe (log 89). -/
def curveFree (p : List Byte) : Bool := [1, 2, 4, 5].contains (amCurve p)

/-! ## Conversions (R337, R340 to R343) -/

/-- PRIMARY from the two conversions less the offset (Table 13.3).
DEDUCED, unsafe (log 90). -/
def primaryOf (p : List Byte) (a b : Int) : Int :=
  let fs : Nat := 2 ^ 23 * 2 ^ amGain p
  match amType p with
  | 2 => roundDiv ((a + b) * amRef p) fs
  | 3 => roundDiv ((a - b) * amRef p) (2 * fs)
  | 4 => roundDiv ((a + b) * 1000000000) (2 * fs)
  | 6 => roundDiv (a * chargeScale p * 5) (2 * fs)
  | _ => roundDiv (a * 2500000000) fs

/-- Is PRIMARY unsigned (Table 13.3)? -/
def amUnsigned (p : List Byte) : Bool := amType p = 2 || amType p = 3

/-- Does a number fit PRIMARY's 32 bits? -/
def primaryFits (p : List Byte) (x : Int) : Bool :=
  if amUnsigned p then decide (0 ≤ x ∧ x < 4294967296) else decide (-2147483648 ≤ x ∧ x < 2147483648)

/-- PRIMARY: where the number does not fit its format the spec states no result, and it is free.
DESIGN CHOICE, safe (log 134). -/
def primaryHeld (p : List Byte) (x : Int) (free : Nat) : Int :=
  if primaryFits p x then x else if amUnsigned p then ((free % 4294967296 : Nat) : Int) else toSigned 32 (free % 4294967296)

/-- Within 0.5 % of a full-scale limit.
DEDUCED, unsafe (log 90). -/
def overRange (code : Int) : Bool := decide (8346665 ≤ code.natAbs)

/-- The code of a charge of `q` fC at the amplifier's output, within the converter's 24 bits: `primaryOf` turned round. -/
def chargeCode (p : List Byte) (q : Int) : Int :=
  clampInt (-(2 ^ 23)) (2 ^ 23 - 1) (roundDiv (q * (2 * (2 ^ 23 * 2 ^ amGain p) : Nat)) (5 * pos (chargeScale p)))

/-- What the converter reads of the charge amplifier: the peak that the peak-hold has kept, or a larger one (R343). -/
def peakCode (p : List Byte) (held code : Int) : Int :=
  if (chargeCode p held).natAbs ≤ code.natAbs then code else chargeCode p held

/-- Is the cold junction of a thermocouple unusable (R342)? -/
def State.cjInvalid (p : List Byte) (s : State) : Bool :=
  let j := s.meas (amCj p)
  amType p == 5 && !(decide (amCj p < 16) && j.result.valid && (amType j.image == 2 || amType j.image == 3) &&
    decide (1 ≤ amCurve j.image ∧ amCurve j.image ≤ 3) && decide (-40000 ≤ j.result.value ∧ j.result.value ≤ 125000))

/-! ## Threshold switches (R348) -/

def swSource (p : List Byte) : Nat := u8 p 1
def swEnable (p : List Byte) : Bool := bit (u8 p 2) 0
def swDir (p : List Byte) : Bool := bit (u8 p 2) 1
def swInvalid (p : List Byte) : Nat := bits (u8 p 2) 3 2
def swTarget (p : List Byte) : Nat := u8 p 3
def swLevel (p : List Byte) : Int := s32 p 4
def swHyst (p : List Byte) : Int := (u32 p 8 : Nat)

/-- A switch after a result of its source. -/
def AuxSwitch.eval (r : AuxResult) (w : AuxSwitch) : AuxSwitch :=
  let p := w.image
  if !swEnable p then { w with active := false }
  else if !r.valid then
    { w with active := if swInvalid p = 0 then false else if swInvalid p = 1 then true else w.active }
  else if swDir p then
    { w with active := if swLevel p ≤ r.value then true else if r.value ≤ swLevel p - swHyst p then false else w.active }
  else
    { w with active := if r.value ≤ swLevel p then true else if swLevel p + swHyst p ≤ r.value then false else w.active }

/-- Is a switch with this TARGET bit active? -/
def State.switchOn (target : Nat) (s : State) : Bool := s.aux.switches.any fun w => w.active && bit (swTarget w.image) target

def State.fan (s : State) : Bool := s.auxDrives && s.switchOn 0

/-- HEAT_DUTY. -/
def State.heatDuty (s : State) : Nat :=
  if !s.auxDrives || s.switchOn 2 then 0 else if s.switchOn 1 then 255 else s.aux.bezelDuty

/-! ## Bezel's duty (R352) -/

def bzHeat (p : List Byte) : Bool := bit (u8 p 0) 0
def bzMeas (p : List Byte) : Nat := u8 p 1
def bzDirty (p : List Byte) : Nat := u8 p 10
def bzBlock (p : List Byte) : Nat := u8 p 11
def bzRevs (p : List Byte) : Nat := u8 p 12

def State.bezelDutyFor (curve : Nat) (r : AuxResult) (s : State) : State :=
  let p := s.aux.bezelImage
  if !bzHeat p then s else
  if !r.valid || curve < 1 || 5 < curve then s.onAux fun a => { a with bezelDuty := 0, tempInvalid := true } else
  let dirty := s.aux.sectors.any (·.dirty)
  let goal : Int := if dirty && decide (r.value < s16 p 8 * 10) then s16 p 6 else s16 p 4
  let d := roundDiv ((u8 p 2 : Int) * (goal * 10 - r.value)) 1000
  s.onAux fun a =>
    { a with bezelDuty := (clampInt 0 (u8 p 3) d).toNat, tempInvalid := false, winTemp := roundDiv r.value 10 }

/-! ## AUX_MEASUREMENT_DONE -/

/-- The steps of the turn under way have taken their time. -/
def State.turnOver (p : List Byte) (s : State) : Bool :=
  s.since s.aux.turnAt (us (amSettle p) + conversions (amType p) * convTime (amRate p))

/-- The result of measurement `m` reaches everything that reads it. -/
def State.publishAux (m : Nat) (p : List Byte) (r : AuxResult) (s : State) : State :=
  let s := s.onMeas m fun x => { x with result := r, unsettledNext := false }
  let s := s.onAux fun a => { a with switches := a.switches.map fun w => if swSource w.image = m then w.eval r else w }
  let s := if bzMeas s.aux.bezelImage = m then s.bezelDutyFor (amCurve p) r else s
  s.biasReading m (amCurve p) r.value r.valid

/-- The conversions of the measurement whose turn it is end, with the converter's codes. -/
def auxMeasurementDone (code1 code2 : Int) (compliance : Bool) (s : State) : State :=
  match s.aux.turn with
  | none => s
  | some m =>
    let x := s.meas m
    let p := x.image
    if !s.awake .aux || !s.aux.cal.isEmpty || !s.turnOver p then s else
    let piezo := amType p = 6
    let o := s.auxOffset (amGain p)
    let off := o.code.getD 0
    let code1 := if piezo then peakCode p s.aux.piezo.peak code1 else code1
    let raw := primaryOf p (code1 - off) (code2 - off)
    let prim := primaryHeld p raw s.freeValue
    let s := if primaryFits p raw then s else s.freeNext
    let resistive := amType p = 2 || amType p = 3
    let openInput := (resistive && compliance) || (amType p = 5 && decide (8346665 ≤ code1))
    let outOfScale := !openInput && (overRange code1 || (conversions (amType p) = 2 && overRange code2))
    let v := curveValue p prim (s.meas (amCj p)).result.value s.freeValue
    let s := if curveFree p then s.freeNext else s
    let oor := v.2 || outOfScale
    let cj := s.cjInvalid p
    let st := flag (!(oor || openInput || x.unsettledNext || cj)) 0 + flag oor 1 + flag openInput 2 +
      flag x.unsettledNext 3 + flag o.held 4 + flag cj 5
    let s := if resistive && compliance then s.onAux fun a => { a with excCompliance := true } else s
    let s := if piezo then s.onPiezo fun z => { z with peak := 0, shockPeak := max z.shockPeak prim.natAbs } else s
    (s.publishAux m p { value := v.1, primary := prim, stamp := stamp48 s.stamp, status := st }).nextTurn m

def execAuxMeasurementDone (code1 code2 : Int) (compliance : Bool) (s : State) : Result :=
  .next (auxMeasurementDone code1 code2 compliance s)

/-! ## AUX_OFFSET_CAL (R346) -/

/-- RATE of the lowest-numbered measurement that uses a gain. -/
def State.calRate (g : Nat) (s : State) : Nat :=
  ((s.aux.meas.find? fun m => amType m.image != 0 && amGain m.image == g).map fun m => amRate m.image).getD 0

/-- A calibration's code at gain `g` is tested and accepted or held. -/
def State.offsetCode (g : Nat) (code : Int) (s : State) : State :=
  let now := s.now
  let o := s.auxOffset g
  let good := code.natAbs ≤ 8389 && (o.code.all fun k => decide ((code - k).natAbs ≤ 839))
  s.onAux fun a =>
    { a with offsets := a.offsets.modify g fun o =>
               { code := if good then some code else o.code, held := !good, calibrated := some now },
             calHeldSeen := a.calHeldSeen || !good, heldTotal := if good then a.heldTotal else satInc 32 a.heldTotal,
             calRun := a.calRun.map fun r =>
               { r with left := r.left.filter (· != g),
                        held := if !good && r.left.contains g then r.held ||| 2 ^ g else r.held } }

def auxOffsetCal (g : Nat) (code : Int) (s : State) : State :=
  if !s.awake .aux || s.aux.cal.head? != some g || !s.since s.aux.turnAt (convTime (s.calRate g)) then s else
  let now := s.now
  let s := s.offsetCode g code
  let s := s.onAux fun a => { a with cal := a.cal.drop 1, turnAt := now }
  if s.aux.cal.isEmpty then s.seekAgain.insertCals else s.checkCalRun

def execAuxOffsetCal (gain : Nat) (code : Int) (s : State) : Result := .next (auxOffsetCal gain code s)

/-! ## Pins -/

/-- The roles of an aux pin now; none while it is high-impedance. The charge amplifier keeps its pin, a calibration joins both inputs
at the measurement's pin N (R336, R338, R346).
DEDUCED, unsafe (log 90). -/
def State.pinRoles (pin : Nat) (s : State) : List AuxRole :=
  let a := s.aux
  let kept : List (Nat × AuxRole) := (a.meas.filter fun m => amType m.image == 6).map fun m => (amPin m.image 0, AuxRole.charge)
  let now : List (Nat × AuxRole) := match a.turn, a.cal with
    | none, _ => []
    | some m, [] =>
      let p := (s.meas m).image
      auxRoles p (conversions (amType p) = 2 && s.since a.turnAt (us (amSettle p) + convTime (amRate p)))
    | some _, g :: _ =>
      match a.meas.find? fun m => amType m.image != 0 && amGain m.image == g with
      | some m => [(amPin m.image 1, .pos), (amPin m.image 1, .neg)]
      | none => []
  if s.awake .aux && s.auxDrives then ((kept ++ now).filter fun x => x.1 == pin).map (·.2) else []

/-- The HEAT pin: high for the duty in use of each period of 10 ms (R349). -/
def State.heat (s : State) : Bool :=
  s.auxDrives && decide (255 * (s.now - s.aux.heatAt) < s.aux.heatInUse * ms 10)

/-! ## HEAT, the charge amplifier -/

/-- HEAT_PWM_PERIOD: a 10 ms period starts with the present duty. -/
def heatPwmPeriod (s : State) : State :=
  if !s.since s.aux.heatAt (ms 10) then s else
  let now := s.now
  let d := s.heatDuty
  s.onAux fun a => { a with heatInUse := d, heatAt := now }

def execHeatPwmPeriod (s : State) : Result := .next (heatPwmPeriod s)

/-- The piezo measurement whose pin the charge amplifier holds, if there is one. -/
def State.piezoMeas (s : State) : Option Nat :=
  if s.auxDrives then s.aux.meas.findIdx? fun m => amType m.image == 6 else none

/-- SHOCK: the amplifier's output comes to `charge` fC. The reset switch keeps it at 0 for 100 µs; peak-hold and comparator ignore it until
200 µs after that, and the comparator registers a shock when it reaches SHOCK_LEVEL (R343). -/
def shock (charge : Int) (s : State) : State :=
  match s.piezoMeas with
  | some m =>
    let now := s.now
    if now + us 200 < s.aux.piezo.blindUntil then s else
    let s := s.onPiezo fun z => { z with output := charge }
    if now < s.aux.piezo.blindUntil then s else
    let s := s.onPiezo fun z => { z with peak := if z.peak.natAbs < charge.natAbs then charge else z.peak }
    if charge.natAbs < amShock (s.meas m).image then s else
    s.onPiezo fun z =>
      { z with shock := true, shockTotal := satInc 32 z.shockTotal, shockPeak := max z.shockPeak charge.natAbs }
  | none => s

def execShock (charge : Int) (s : State) : Result := .next (shock charge s)

/-- Is a reset of the charge amplifier due: that of the cold start, every RESET_PERIOD, and when the output exceeds 90 % of full scale? -/
def Piezo.resetDue (now : Nat) (p : List Byte) (z : Piezo) : Bool :=
  z.startReset || decide (z.lastReset + ms (amReset p) ≤ now) || decide (9 * chargeScale p < 10 * z.output.natAbs)

/-- PIEZO_RESET (R343): the switch discharges C_F. -/
def piezoReset (s : State) : State :=
  match s.piezoMeas with
  | some m =>
    if s.aux.piezo.resetDue s.now (s.meas m).image then
      let now := s.now
      (s.onPiezo fun z =>
        { z with resetTotal := satInc 32 z.resetTotal, lastReset := now, blindUntil := now + us 300, output := 0,
                 startReset := false }).onMeas m fun x => { x with unsettledNext := true }
    else s
  | none => s

def execPiezoReset (s : State) : Result := .next (piezoReset s)

/-! ## Bezel at a revolution boundary (R351) -/

/-- CONTAM of a sector.
DEDUCED, unsafe (log 92). -/
def WinSector.level (k : WinSector) : Nat :=
  match k.base with
  | none => 0
  | some b => if b = 0 then (if k.mean = 0 then 0 else 255) else min 255 (16 * k.mean / b).floor.toNat

/-- One of the two states of a sector: in it or not, and the run of revolutions towards the other. -/
def sectorState (ratio revs contam : Nat) (inState : Bool) (run : Nat) : Bool × Nat :=
  let toward := if inState then decide (contam < ratio) else decide (ratio ≤ contam)
  if !toward then (inState, 0) else if revs ≤ run + 1 then (!inState, 0) else (inState, run + 1)

def WinSector.boundary (p : List Byte) (learning : Bool) (k : WinSector) : WinSector :=
  let got := k.count != 0
  let k := { k with mean := if got then k.sum / (k.count : Rat) else k.mean, seen := k.seen || got, sum := 0, count := 0 }
  let k := if learning && k.seen then
      { k with learnSum := k.learnSum + k.mean, learnCount := k.learnCount + 1, learnGot := k.learnGot || got } else k
  let k := { k with contam := k.level }
  if k.base.isNone then { k with dirty := false, blocked := false, dirtyRun := 0, blockRun := 0 } else
  let d := sectorState (bzDirty p) (bzRevs p) k.contam k.dirty k.dirtyRun
  let b := sectorState (bzBlock p) (bzRevs p) k.contam k.blocked k.blockRun
  { k with dirty := d.1, dirtyRun := d.2, blocked := b.1, blockRun := b.2 }

/-- Sectors that the last pass of BEZEL_LEARN gave data. -/
def State.sectorsLearned (s : State) : Nat := (s.aux.sectors.filter (·.learnGot)).length

/-- The resolution of BASE_k, per shot.
DESIGN CHOICE, unsafe (log 144). -/
def baseUnit : Nat := 2 ^ 32

/-- The baseline that a learning pass gives a sector: the mean of its S_k over the revolutions, to the nearest 2^-32. -/
def WinSector.learned (k : WinSector) : Nat := (roundRat (k.learnSum / (k.learnCount : Rat) * (baseUnit : Rat))).toNat

/-- A learning pass ends: the means become the baseline, and the Bezel record is stored. -/
def State.bezelLearned (c : Cmd) (s : State) : State :=
  let n := s.sectorsLearned
  (s.onAux fun a =>
    { a with learn := none, sectors := a.sectors.map fun k =>
        if k.learnCount = 0 then k else { k with base := some (mkRat k.learned baseUnit) } }).storeAfter 0x0905
    recBezel c (s.block stOk 0 n)

def State.bezelBoundary (s : State) : State :=
  let p := s.aux.bezelImage
  let learning := s.aux.learn.isSome
  let s := s.onAux fun a => { a with sectors := a.sectors.map (WinSector.boundary p learning) }
  match s.aux.learn with
  | some l =>
    if l.revs ≤ l.done + 1 then s.bezelLearned l.cmd
    else s.onAux fun a => { a with learn := some { l with done := l.done + 1 } }
  | none => s

/-! ## Opcodes (R353, R354) -/

/-- Does a curve fit a type (Table 13.4)? -/
def curveFits (ty curve : Nat) : Bool :=
  if curve = 0 || curve = 6 then true
  else if curve ≤ 3 then ty = 2 || ty = 3
  else curve ≤ 5 && ty = 5

/-- Do the pins of two measurements clash over a CHARGE pin? -/
def chargeClash (p q : List Byte) : Bool :=
  (amType p == 6 && (amPins q).contains (amPin p 0)) || (amType q == 6 && (amPins p).contains (amPin q 0))

/-- The settings of the other measurements. -/
def State.otherMeas (m : Nat) (s : State) : List (List Byte) :=
  (s.aux.meas.zipIdx.filter fun x => x.2 != m).map fun x => x.1.next

/-- DEDUCED, unsafe (log 90). -/
def auxMeasFields (c : Cmd) (s : State) : Verdict :=
  let p := c.payload
  let ty := amType p
  let others := s.otherMeas (u8 p 0)
  let pinBad (k : Nat) : Bool := if (pinsUsed ty).contains k then 15 < amPin p k else amPin p k ≠ 0xFF
  (firstFail ([chk (15 < u8 p 0) 0, chk (6 < ty || (ty = 6 && others.any fun q => amType q == 6)) 1,
      chk (!curveFits ty (amCurve p)) 2, chk (64 ≤ u8 p 3 || 4 < amRate p) 3] ++
    ((List.range 6).map fun k => chk (pinBad k) (4 + k)) ++
    [chk (others.any fun q => chargeClash p q) 4, chk (5 < amIexc p) 10,
     chk ((15 < amCj p && (amCj p ≠ 0xFF || ty = 5)) || amCj p = u8 p 0) 11, chk (10000 < amSettle p) 12,
     chk (2 < amCf p) 14, rsvdBits p 15 1, chk ((ty = 2 || ty = 3) && amRef p = 0) 16,
     chk (amR25 p < 1000 || 4000000000 < amR25 p) 28, chk (amBeta p < 1000 || 10000 < amBeta p) 32,
     chk (amReset p < 10 || 60000 < amReset p) 34, chk (amShock p = 0 || chargeScale p < amShock p) 36, rsvd p 40 8])).andThen
    (s.storeCheck (bit (u8 p 15) 0))

def auxMeasConfigInfo : OpInfo := { code := 0x0901, lenMin := 3, lenMax := 3, fields := auxMeasFields }

/-- A command that has taken effect completes, after its store with PERSIST.
DEDUCED, unsafe (log 91). -/
def State.doneOrStore (op rec : Nat) (persist : Bool) (c : Cmd) (s : State) : State :=
  if persist then s.storeAfter op rec c (s.block stOk 0 0) else s.done op c 0

def auxMeasConfigEffect (c : Cmd) (s : State) : State :=
  let p := c.payload
  ((s.onMeas (u8 p 0) fun x => { x with pending := some p }).startAux).doneOrStore 0x0901 recAux (bit (u8 p 15) 0) c

def execAuxMeasConfig (c : Cmd) (s : State) : Result := .next (s.run auxMeasConfigInfo c (auxMeasConfigEffect c))

def auxSwitchConfigInfo : OpInfo :=
  { code := 0x0902, lenMin := 1, lenMax := 1,
    fields := fun c s => let p := c.payload
      (firstFail [chk (7 < u8 p 0) 0, chk (15 < u8 p 1) 1, chk (16 ≤ u8 p 2 || swInvalid p = 3) 2, rsvdBits p 3 3,
                  rsvdBits p 12 1, rsvd p 13 3]).andThen (s.storeCheck (bit (u8 p 12) 0)) }

def auxSwitchConfigEffect (c : Cmd) (s : State) : State :=
  let p := c.payload
  (s.onAux fun a => { a with switches := a.switches.modify (u8 p 0) fun w =>
    { image := p, active := w.active && swEnable p } }).doneOrStore 0x0902 recAux (bit (u8 p 12) 0) c

def execAuxSwitchConfig (c : Cmd) (s : State) : Result := .next (s.run auxSwitchConfigInfo c (auxSwitchConfigEffect c))

def auxCalInfo : OpInfo :=
  { code := opAuxCal, lenMin := 1, lenMax := 1,
    fields := fun c s => let p := c.payload
      (firstFail [rsvdBits p 0 1, rsvd p 1 1, chk (3600 < u16 p 2) 2, rsvdBits p 4 1, rsvd p 5 11]).andThen
        (s.storeCheck (bit (u8 p 4) 0)) }

def auxCalEffect (c : Cmd) (s : State) : State :=
  let p := c.payload
  let s := s.onAux fun a => { a with calPeriod := u16 p 2, calResult := 0 }
  if bit (u8 p 0) 0 then
    let use := s.gainsInUse
    (s.onAux fun a => { a with calRun := some { cmd := c, left := use, held := 0 } }).checkCalRun
  else s.doneOrStore opAuxCal recAux (bit (u8 p 4) 0) c

/-- A second AUX_CAL waits for the first.
DEDUCED, unsafe (log 91). -/
def auxCal (c : Cmd) (s : State) : State := if s.aux.calRun.isSome then s else s.run auxCalInfo c (auxCalEffect c)

def execAuxCal (c : Cmd) (s : State) : Result := .next (auxCal c s)

def bezelConfigInfo : OpInfo :=
  { code := 0x0904, lenMin := 2, lenMax := 2,
    fields := fun c s => let p := c.payload
      let temp (i : Nat) (hi : Int) : Bool × Nat × Nat := chk (decide (s16 p i < -4000) || decide (hi < s16 p i)) i
      (firstFail [rsvdBits p 0 2, chk (15 < u8 p 1) 1, chk (u8 p 2 = 0) 2, temp 4 8000, temp 6 8000, temp 8 2000,
                 chk (bzDirty p < 17) 10, chk (bzBlock p < bzDirty p) 11, chk (bzRevs p = 0) 12, rsvd p 13 19]).andThen
        (s.storeCheck (bit (u8 p 0) 1)) }

def bezelConfigEffect (c : Cmd) (s : State) : State :=
  let p := c.payload
  (s.onAux fun a =>
    { a with bezelImage := p, bezelDuty := if bzHeat p then a.bezelDuty else 0, tempInvalid := a.tempInvalid && bzHeat p })
  |>.doneOrStore 0x0904 recAux (bit (u8 p 0) 1) c

def execBezelConfig (c : Cmd) (s : State) : Result := .next (s.run bezelConfigInfo c (bezelConfigEffect c))

def bezelLearnInfo : OpInfo :=
  { code := 0x0905, lenMin := 1, lenMax := 1,
    fields := fun c s => (firstFail [chk (u8 c.payload 0 < 4) 0, rsvd c.payload 1 15]).andThen (s.arbiterCheck 1) }

def bezelLearnEffect (c : Cmd) (s : State) : State :=
  s.onAux fun a =>
    { a with learn := some { cmd := c, revs := u8 c.payload 0, done := 0 },
             sectors := a.sectors.map fun k => { k with learnSum := 0, learnCount := 0, learnGot := false } }

/-- A second BEZEL_LEARN waits for the first.
DEDUCED, unsafe (log 91). -/
def bezelLearn (c : Cmd) (s : State) : State :=
  if s.aux.learn.isSome then s else s.run bezelLearnInfo c (bezelLearnEffect c)

def execBezelLearn (c : Cmd) (s : State) : Result := .next (bezelLearn c s)

def AuxResult.bytes (r : AuxResult) : List Byte :=
  leInt 4 r.value ++ leInt 4 r.primary ++ le 6 r.stamp ++ le 1 r.status ++ [0]

def auxReadInfo : OpInfo := { code := 0x0906, lenMin := 0, lenMax := 0, unseqOk := fun _ => true }

def auxReadEffect (c : Cmd) (s : State) : State :=
  s.finish 0x0906 c stOk 0 s.aux.cycles ((s.aux.meas.map fun m => m.result.bytes).flatten)

def execAuxRead (c : Cmd) (s : State) : Result := .next (s.run auxReadInfo c (auxReadEffect c))

/-- AUX_FLAGS (Table 13.11). -/
def State.auxFlags (s : State) : Nat :=
  let a := s.aux
  flagsOf [a.calHeldSeen, a.piezo.shock, a.sectors.any (·.dirty), a.sectors.any (·.blocked), a.tempInvalid,
           a.sectors.any (·.base.isNone), a.excCompliance]

/-- AUX_STATUS (Table 13.10). -/
def State.auxStatus (s : State) : List Byte :=
  let a := s.aux
  le 2 s.auxFlags ++ le 1 (flagsOf (a.switches.map (·.active))) ++ le 1 a.heatInUse ++ le 1 (if s.fan then 1 else 0) ++
  le 1 (a.meas.filter fun m => amType m.image != 0).length ++ le 2 (min 65535 (a.cycleTime / 128000)) ++ leInt 2 a.winTemp ++
  zeros 2 ++ (a.sectors.map fun k => BitVec.ofNat 8 k.contam) ++ le 2 (flagsOf (a.sectors.map (·.dirty))) ++
  le 2 (flagsOf (a.sectors.map (·.blocked))) ++ le 4 a.heldTotal ++ le 4 a.piezo.shockTotal ++ le 4 a.piezo.shockPeak ++
  le 4 a.piezo.resetTotal ++ zeros 16

def auxStatusInfo : OpInfo :=
  { code := 0x0907, lenMin := 1, lenMax := 1, unseqOk := unseqIf0 0,
    fields := fun c _ => firstFail [maskChk c.payload 0 0x43, rsvd c.payload 2 14] }

def auxStatusEffect (c : Cmd) (s : State) : State :=
  let m := u16 c.payload 0
  let s := s.onAux fun a =>
    { a with calHeldSeen := a.calHeldSeen && !bit m 0, excCompliance := a.excCompliance && !bit m 6,
             piezo := { a.piezo with shock := a.piezo.shock && !bit m 1 } }
  s.finish 0x0907 c stOk 0 s.auxFlags s.auxStatus

def execAuxStatus (c : Cmd) (s : State) : Result := .next (s.run auxStatusInfo c (auxStatusEffect c))

end Sys2Proof.Machine
end

