-- ==== Sys2Proof/Machine/Chain.lean ====
section
/-!
DEFINITION. Meanings of the events of engines, frames and tile trackers (R283 to R288, R312, R316 to R318, R325, R330 to
R333): taking a histogram, running its chain, releasing what it gave, and what a failed engine leaves.
-/
namespace Sys2Proof.Machine

/-! ## Taking a histogram (R283, R286) -/

/-- Has a tile still histograms of a view under an earlier epoch, waiting (`queued`) or gathering? -/
def State.oldWaiting (t view : Nat) (s : State) : Bool :=
  (s.tile t).queue.any fun h => h.view == view && h.epoch != s.sets.epoch

def State.oldGathering (t view : Nat) (s : State) : Bool :=
  (List.range 24).any fun i => (s.channel (24 * t + i)).acc.any fun h => h.view == view && h.epoch != s.sets.epoch

/-- Can a tile still give an engine a chain of a view under an earlier epoch? -/
def State.oldLeft (t view : Nat) (s : State) : Bool := s.oldWaiting t view || s.oldGathering t view

/-- The histogram that an engine of tile `t` takes next: first those of the views it leaves, the longest left first, then its view's
oldest. -/
def State.nextHist (t : Nat) (e : Engine) (s : State) : Option Hist :=
  match e.leaving.find? fun v => s.oldLeft t v with
  | some v => (s.tile t).queue.find? fun h => h.view == v && h.epoch != s.sets.epoch
  | none => if e.assigned then (s.tile t).queue.find? fun h => h.view == e.view else none

/-- May a physical engine run a chain? -/
def State.engineReady (g : Nat) (s : State) : Bool :=
  let e := s.engine g
  e.job.isNone && !e.fault && !e.outOfService && s.awake (.engine g) && s.awake (.tileFabric (g / 18))

/-- Is a histogram of a view under an earlier epoch left anywhere, gathering, waiting or in a chain? -/
def State.oldAnywhere (view : Nat) (s : State) : Bool :=
  (List.range 8).any (fun t => s.oldLeft t view) ||
  s.fabric.engines.any fun e => e.job.any fun j => j.1.view == view && j.1.epoch != s.sets.epoch

/-- Does an engine still serve a view that it leaves? An engine that passes to another view does until its own last chain of the old
one, one that no view takes until the view's last chain (R286). -/
def State.stillLeaving (g : Nat) (s : State) (view : Nat) : Bool :=
  let e := s.engine g
  e.job.any (fun j => j.1.view == view && j.1.epoch != s.sets.epoch) || s.oldLeft (g / 18) view ||
  (!e.assigned && s.oldAnywhere view)

/-- An engine drops the views it is done with. -/
def State.leaveDone (s : State) (g : Nat) : State :=
  let left := (s.engine g).leaving.filter (s.stillLeaving g)
  if left = (s.engine g).leaving then s else (s.onEngine g fun e => { e with leaving := left }).refreshDomains

/-- Every engine does. -/
def State.leaveAll (s : State) : State := (List.range 144).foldl State.leaveDone s

/-- CHAIN_START: a free engine takes the oldest histogram of its view's queue. -/
def chainStart (g : Nat) (s : State) : State :=
  if 144 ≤ g || !s.engineReady g then s else
  match s.nextHist (g / 18) (s.engine g) with
  | some h =>
    let now := s.now
    (s.onTile (g / 18) fun t => { t with queue := t.queue.filter (·.closeSeq != h.closeSeq) }).onEngine g fun e =>
      { e with job := some (h, now) }
  | none => s.leaveDone g

def execChainStart (engine : Nat) (s : State) : Result := .next (chainStart engine s)

/-! ## Kernels with running state -/

/-- K_AMBIENT (R316 to R318). -/
def State.runAmbient (x : State × Work) : State × Work :=
  let s := x.1
  let w := x.2
  let p := w.v.block 5
  let ofView (r : AmbRun) : Bool := r.view == w.h.view && r.channel == w.h.channel
  match s.fabric.ambRuns.find? fun r => ofView r && r.epochs.contains w.h.epoch with
  | none => x
  | some r =>
    let step := (s.channel w.h.channel).ambStep
    let first := r.first || r.stepSeen != step
    let dt := rxDeadPs ((s.setOf w.h.epoch).rxOf w.h.channel)
    let keep (f : AmbRun → AmbRun) : State := s.onFabric fun b =>
      { b with ambRuns := b.ambRuns.map fun y =>
          if ofView y then (let y := { y with records := [] }; if y.epochs == r.epochs then f y else y) else y }
    match ambientRate p dt r.records with
    | none => (keep fun y => { y with first := first, stepSeen := step }, w)
    | some lam =>
      let l := smoothRate p first r.lam lam
      (keep fun y => { y with first := false, stepSeen := step, lam := l },
       { w with lam := some l, bgAmb := some (bgAmbOf w.v.binWidth l) })

/-- The persistence bits of a zone of a channel's map. -/
def State.rainRevs (ch sector zone : Nat) (s : State) : Nat :=
  ((s.fabric.rain.find? fun r => r.channel == ch && r.sector == sector && r.zone == zone).map (·.revs)).getD 0

/-- Enters a region in a channel's map, in the running revolution. -/
def State.enterRain (ch sector : Nat) (s : State) (zone : Nat) : State :=
  s.onFabric fun b =>
    if b.rain.any fun r => r.channel == ch && r.sector == sector && r.zone == zone then
      { b with rain := b.rain.map fun r =>
          if r.channel == ch && r.sector == sector && r.zone == zone then { r with revs := r.revs ||| 1 } else r }
    else { b with rain := b.rain ++ [{ channel := ch, sector := sector, zone := zone, revs := 1 }] }

/-- Tops of the channel's previous cell; none for the first cell of the span. -/
def State.prevTopsOf (v : ViewDef) (h : Hist) (s : State) : List Nat :=
  if h.cell = 0 then [] else
  let before := (v.group (h.cell - 1)).1
  ((s.fabric.prevTops.find? fun x => x.channel == h.channel && x.view == h.view && x.cell == before).map (·.tops)).getD []

/-- K_RAIN (R330, R331, R333).
DEDUCED, unsafe (log 85). -/
def State.runRain (x : State × Work) : State × Work :=
  let s := x.1
  let w := x.2
  let p := w.v.block 6
  let ch := w.h.channel
  let gs := w.rainRegions
  let sector := w.v.cellStart w.h.cell / 16384
  let marks := gs.filter (isPrecip p (fun z => s.rainRevs ch sector z) (s.prevTopsOf w.v w.h))
  let zones := (gs.filter fun g => g.top < u16 p 4).map fun g => rainZone p g.top
  let s := zones.foldl (State.enterRain ch sector) s
  let s := s.onFabric fun b =>
    { b with prevTops := b.prevTops.filter (fun y => !(y.channel == ch && y.view == w.h.view)) ++
        [{ channel := ch, view := w.h.view, cell := w.h.cell, tops := (gs.take 4).map (·.top) }] }
  let s := if bit (u8 p 0) 1 then s.onRejection (ch / 24) fun r =>
      { r with histograms := r.histograms + 1, fogHistograms := r.fogHistograms + (if w.fog p gs then 1 else 0),
               markedRegions := r.markedRegions + marks.length,
               snowRegions := r.snowRegions + (marks.filter fun g => u8 p 16 ≤ g.width).length }
    else s
  (s, { w with precip := marks.map fun g => (g.lo, g.hi) })

/-- K_WINDOW passes its backscatter to the sector of the cell (R350). -/
def State.runWindow (x : State × Work) : State × Work :=
  match x.2.backscatter with
  | some b =>
    (x.1.onAux fun a => { a with sectors := a.sectors.modify (x.2.v.cellStart x.2.h.cell / 65536) fun k =>
      { k with sum := k.sum + b, count := k.count + 1 } }, x.2)
  | none => x

/-- T_TILE for a chain: the last valid reading, else TEMP_REF (R301). -/
def State.chainTemp (t : Nat) (p : List Byte) (s : State) : Int :=
  match s.fabric.tileTemp.getD t none with
  | some x => x
  | none => s16 p 12

/-- One kernel of a chain. -/
def State.runKernel (x : State × Work) (k : Nat) : State × Work :=
  let w := x.2
  match k with
  | 2 => (x.1, w.corr)
  | 3 => (x.1, w.bgsub)
  | 4 => (x.1, w.peak (x.1.chainTemp (w.h.channel / 24) w.v.peak) w.h.chOffset)
  | 5 => State.runAmbient x
  | 6 => State.runRain x
  | 7 => (x.1, w.foreignMarks)
  | 8 => (x.1, { w with zone := w.zoneResult (x.1.setOf w.h.epoch) })
  | 9 => State.runWindow x
  | _ => x

/-! ## The end of a chain (R285) -/

/-- What a kernel pass finds in the histogram's words acts at that pass. -/
def Work.afterPass (fs : List PassFault) (i : Nat) (w : Work) : Work :=
  { w with h := (fs.filter (·.pass == i)).foldl (fun h f => h.afterEcc w.v.weightPlane f.fault) w.h }

/-- The chain of a histogram, from its first kernel to its last; `fs` is what its passes meet.
DEDUCED, unsafe (log 83). -/
def State.runChain (v : ViewDef) (h : Hist) (fs : List PassFault) (s : State) : State × Work :=
  v.chain.zipIdx.foldl (fun x k => State.runKernel (x.1, x.2.afterPass fs k.2) k.1) (s, Work.start v h)

/-- The faults of a chain's passes that lie in words its histogram uses. -/
def State.metBy (h : Hist) (fs : List PassFault) (s : State) : List PassFault :=
  fs.filter fun f => (s.viewIn h.epoch h.view).any fun v => h.meets v.holdsWord f.fault

/-- An engine and its tile count what a chain's passes met (R273). -/
def State.notePasses (g : Nat) (h : Hist) (fs : List PassFault) (s : State) : State :=
  let l := fs.map (·.fault)
  (s.onEngine g fun e => { e with eccUncorrected := satAdd 32 e.eccUncorrected (l.countP fun f => !isCorrected f) }).noteEcc
    h.channel h.buf l

/-- What the release order takes from a finished chain. -/
def Release.filled (v : ViewDef) (w : Work) (tempHeld : Bool) (r : Release) : Release :=
  { r with done := true,
           stream := if v.role = 0 || v.role = 2 then some v.stream else none,
           records := w.records tempHeld, dev := w.h.recordDev, tick := w.h.recordTick, zone := w.zone,
           ambient := w.lam }

/-- A duration in units of `u` ticks per LSB pair, within 16 bits. -/
def clip16 (n : Nat) : Nat := min 65535 n

/-- CHAIN_END: the chain of a physical engine ends; `faults` is what its passes met in the histogram's words, each at its pass (R273).
DEDUCED, unsafe (log 83); DEDUCED, unsafe (log 84); DESIGN CHOICE, safe (log 119). -/
def chainEnd (g : Nat) (faults : List PassFault) (s : State) : State :=
  match (s.engine g).job with
  | none => s
  | some (h, start) =>
    let took := clip16 ((s.now - start) * 10 / 128)
    let late := clip16 ((s.now - h.closedAt) / 1280)
    let view := s.viewIn h.epoch h.view
    let fs := s.metBy h faults
    let s := s.onEngine g fun e =>
      { e with job := none, chains := satInc 32 e.chains, timeLast := took, timeMax := max e.timeMax took }
    let s := s.onTile (h.channel / 24) fun t => { t with latencyMax := max t.latencyMax late }
    let s := s.notePasses g h fs
    match view with
    | none => (s.abandonHist h).leaveAll
    | some v =>
      let x := s.runChain v h fs
      let held := !(s.fabric.tileTempValid.getD (h.channel / 24) false)
      ((x.1.settleRelease h.closeSeq (Release.filled v x.2 held)).flushView h.view).leaveAll

def execChainEnd (engine : Nat) (faults : List PassFault) (s : State) : Result := .next (chainEnd engine faults s)

/-- ENGINE_FAULT (R288): the running chain is abandoned and the engine leaves service; what its passes met counts all the same. -/
def engineFault (g : Nat) (faults : List PassFault) (s : State) : State :=
  match (s.engine g).job with
  | none => s
  | some (h, _) =>
    let s := (s.notePasses g h (s.metBy h faults)).onEngine g fun e =>
      { e with job := none, fault := true, outOfService := true, abandoned := satInc 32 e.abandoned,
               kernelFaults := satInc 32 e.kernelFaults }
    ((s.abandonHist h).engineFailed g).leaveAll

/-- The cause of the check that failed changes nothing in what follows. -/
def execEngineFault (engine : Nat) (stop : EngineStop) (s : State) : Result := .next (engineFault engine stop.faults s)

/-! ## Frames and trackers -/

/-- FRAME_CLOSE_TIMEOUT (R312): 100 µs after its first record was placed. -/
def frameCloseTimeout (n : Nat) (s : State) : State :=
  if (s.stream n).frame.any fun f => s.since f.placedAt (us 100) then s.closeFrame n else s

def execFrameCloseTimeout (stream : Nat) (s : State) : Result := .next (frameCloseTimeout stream s)

/-- Has the gate of a tracker of tile `t` ended, and can no stamp within it still come (R323, R325)? -/
def State.gateOver (t : Nat) (p : List Byte) (k : Tracker) (s : State) : Bool :=
  let stop := k.gateStart + fgGate p
  k.st != .idle && decide (0 ≤ stampDiff s.tapHorizon stop) && (s.tapHeld t).all fun z => decide (0 ≤ stampDiff z stop)

/-- TRACKER_GATE_CLOSE (R325 to R327).
DEDUCED, unsafe (log 87). -/
def trackerGateClose (t i : Nat) (s : State) : State :=
  match s.governing t, (s.rejection t).trackers[i]? with
  | some p, some k =>
    if !s.gateOver t p k then s else
    let s := s.releaseStamps t p (k.gateStart + fgGate p - 1)
    let r := s.rejection t
    let k := r.trackers.getD i k
    let x := k.close p r.lockOrder (fun per => s.isOwn t per)
    let ks := admitShares p (r.trackers.set i x.1)
    s.onRejection t fun j =>
      { j with trackers := ks, lockOrder := j.lockOrder + 1, ownRejected := j.ownRejected || x.2,
               budgetLimited := j.budgetLimited || ks.any (·.st == .lockedNoBlank) }
  | _, _ => s

def execTrackerGateClose (tile tracker : Nat) (s : State) : Result := .next (trackerGateClose tile tracker s)

/-! ## Weather (R333) -/

/-- The K_RAIN block with CLASSIFY that governs a tile's classes: that of the active view of the lowest handle index.
DESIGN CHOICE, unsafe (log 86). -/
def State.rainBlock (t : Nat) (s : State) : List Byte :=
  let vs := s.sets.active.views.filter fun v =>
    !(v.tileChannels t).isEmpty && (v.posOf 6).isSome && bit (u8 (v.block 6) 0) 1
  let least := (vs.map fun v => handleIndex v.handle).foldl min 4096
  ((vs.find? fun v => handleIndex v.handle == least).map fun v => v.block 6).getD (blockDefault 6)

/-- `n` of `d` in 256ths, to the nearest.
DESIGN CHOICE, unsafe (log 86). -/
def share256 (n d : Nat) : Nat := (roundDiv (256 * n : Nat) (pos d)).toNat

/-- The class that a second's figures ask for.
DESIGN CHOICE, unsafe (log 86). -/
def weatherOf (rateOn fog precip snow : Nat) : Nat :=
  if 128 ≤ fog then 3 else if rateOn ≤ precip && 128 ≤ snow then 2 else if rateOn ≤ precip then 1 else 0

/-- One tile's second.
DESIGN CHOICE, unsafe (log 86). -/
def Rejection.second (now rateOn : Nat) (r : Rejection) : Rejection :=
  let precip := min 65535 (share256 r.markedRegions r.histograms)
  let fog := min 255 (share256 r.fogHistograms r.histograms)
  let snow := min 255 (share256 r.snowRegions r.markedRegions)
  let rainLow := if 2 * precip < rateOn then some (r.lowRainSince.getD now) else none
  let fogLow := if fog < 64 then some (r.lowFogSince.getD now) else none
  let long (x : Option Nat) : Bool := x.any fun t => t + sec 10 ≤ now
  let c := weatherOf rateOn fog precip snow
  let wet (k : Nat) : Bool := k = 1 || k = 2
  let stays := (wet r.weather && !wet c && !long rainLow) || (r.weather = 3 && c ≠ 3 && !long fogLow)
  { r with precipIndex := precip, fogFraction := fog, snowShare := snow, lowRainSince := rainLow, lowFogSince := fogLow,
           weather := if stays then r.weather else c, histograms := 0, fogHistograms := 0, markedRegions := 0,
           snowRegions := 0 }

/-- WEATHER_UPDATE: every second. -/
def weatherUpdate (s : State) : State :=
  if !s.since s.fabric.weatherAt (sec 1) then s else
  let now := s.now
  let s := (List.range 8).foldl (fun s t => let n := u16 (s.rainBlock t) 14; s.onRejection t (·.second now n)) s
  s.onFabric fun b => { b with weatherAt := now }

def execWeatherUpdate (s : State) : Result := .next (weatherUpdate s)

end Sys2Proof.Machine
end

