-- ==== Sys2Proof/Machine/Locket.lean ====
section
/-!
DEFINITION. Locket's retention banks (R391, Tables 15.7 to 15.9): what each bank holds, the bytes of that content, and the blocks of
a flush image with their check values (R385, R399).
-/
namespace Sys2Proof.Machine

/-- The packet of a command, as it was received. -/
def packetBytes (op : Nat) (c : Cmd) : List Byte :=
  let h := le 2 0x6D4B ++ le 1 1 ++ le 1 (flag c.unseq 4 + flag c.fence 3) ++ le 2 op ++ le 2 c.tag ++ le 1 c.queue ++
    le 1 (cmdLen c) ++ le 4 c.seq
  h ++ le 2 (crc16 h) ++ c.payload ++ le 4 c.trailer

/-- The bit of a transport in TRANSPORT_MASK. -/
def maskBit : Transport → Nat
  | .pcie => 0
  | .trdp => 1
  | .spi => 2

/-- Units of the live area that a packet's entry takes. -/
def entryUnits (t : Transport) (len : Nat) : Nat := len + (if t == .trdp then 4 else 2)

/-! ## The two banks (R391, R395) -/

def Journal.onBank (b : Nat) (f : Bank → Bank) (j : Journal) : Journal :=
  if b = 0 then { j with bankA := f j.bankA } else { j with bankB := f j.bankB }

def State.bank (b : Nat) (s : State) : Bank := if b = 0 then s.host.journal.bankA else s.host.journal.bankB

/-- What a bank in service holds. -/
def State.journalImage (bad : List Nat) (s : State) : JournalImage :=
  { inService := true, queues := s.host.queues.map fun q => { nextSeq := q.nextSeq, dup := q.dup, mask := q.mask },
    live := s.host.journal.live, jixNext := s.host.journal.jixNext, claspGen := s.sets.claspGen, claspPtr := s.sets.claspPtr,
    startId := s.fabric.startId, bad := bad }

/-- What a bank holds: out of service, its content as it left; a bank that has held nothing since the start holds nothing readable. -/
def State.bankImage (b : Nat) (s : State) : JournalImage :=
  let k := s.bank b
  if k.inService then s.journalImage k.bad else { k.frozen.getD (s.journalImage []) with inService := false }

/-- Does a bank hold a copy of an entry that passes its checks? -/
def State.copyGood (b jix : Nat) (s : State) : Bool := (s.bank b).inService && !(s.bank b).bad.contains jix

/-- Every copy is rewritten good (R393). -/
def State.repairCopies (s : State) : State :=
  s.onJournal fun j => { j with bankA := { j.bankA with bad := [] }, bankB := { j.bankB with bad := [] } }

/-! ## Layout of a bank (Tables 15.7 to 15.9) -/

/-- STATE of a live entry (Table 15.9). -/
def EntryState.code : EntryState → Nat
  | .accepted => 1
  | .deferred => 2
  | .queued => 3
  | .executing => 4
  | .done => 5

/-- The STATE that a code stands for. -/
def EntryState.ofCode : Nat → EntryState
  | 2 => .deferred
  | 3 => .queued
  | 4 => .executing
  | 5 => .done
  | _ => .accepted

/-- A duplicate record (Table 15.8). -/
def DupRec.bytes (d : DupRec) : List Byte :=
  le 4 d.trailer ++ le 2 d.opcode ++ le 1 (flagsOf [d.final, d.rejected, d.dataDropped]) ++ zeros 1 ++ d.block.bytes

/-- A live entry (Table 15.9). The spec does not give the byte order of ROUTE.
DESIGN CHOICE, safe (log 148). -/
def Live.bytes (l : Live) : List Byte :=
  let c := l.cmd
  let t := c.via.transport
  let p := packetBytes l.opcode c
  le 6 l.jix ++ le 1 l.state.code ++ le 1 (maskBit t) ++ le 2 (if t == .pcie then c.via.sqIndex else 0xFFFF) ++
  le 2 (entryUnits t (cmdLen c)) ++ le 4 c.trailer ++ p.take (p.length - 4) ++
  (if t == .trdp then le 4 c.via.route.addr ++ le 2 c.via.route.port ++ fit 16 c.via.route.session ++ zeros 10 else [])

/-- The 1024 records of a queue's duplicate window, each at its sequence number modulo 1024. -/
def QueueImage.window (q : QueueImage) : List Byte :=
  ((List.range 1024).map fun k => ((q.dup.find? (·.seq % 1024 == k)).map DupRec.bytes).getD (zeros 24)).flatten

/-- The control area, in the order in which Table 15.7 names its words.
DESIGN CHOICE, safe (log 148). -/
def JournalImage.control (i : JournalImage) : List Byte :=
  (i.queues.map fun q => le 4 q.nextSeq ++ le 2 (q.nextSeq % 1024) ++ le 2 q.mask.toNat).flatten ++
  le 6 i.jixNext ++ le 2 i.claspPtr ++ le 4 i.startId ++ le 4 (if i.inService then 1 else 0)

/-- The 128 KiB of a bank (Table 15.7); live entries stand one after the other, in acceptance order.
DESIGN CHOICE, safe (log 148). -/
def JournalImage.bytes (i : JournalImage) : List Byte :=
  fit 0x800 i.control ++ fit 0x2000 ((i.claspGen.map (le 2)).flatten) ++ fit 0x18000 ((i.queues.map QueueImage.window).flatten) ++
  fit 0x5800 ((i.live.map Live.bytes).flatten)

/-- The live entry whose bytes a 16-byte word of a bank holds.
DESIGN CHOICE, safe (log 148). -/
def JournalImage.entryAt (word : Nat) (i : JournalImage) : Option Live :=
  let size (l : Live) : Nat := entryUnits l.cmd.via.transport (cmdLen l.cmd)
  ((i.live.foldl (fun a l => (a.1 + size l, if a.1 ≤ word ∧ word < a.1 + size l then some l else a.2)) (0x1A80, none))).2

/-! ## Flush images (R385, R399) -/

/-- One of the eight 16 KiB blocks of an image. -/
def JournalImage.block (k : Nat) (i : JournalImage) : List Byte := slice i.bytes (0x4000 * k) 0x4000

/-- The CRC-64 that closes a block (Table 15.4). -/
def JournalImage.trailer (k : Nat) (i : JournalImage) : Nat := crc64 (i.block k)

/-- May a cold start load an image: its header is there, its eight blocks pass, and its bank was in service (R400)? -/
def FlushImage.valid (i : FlushImage) : Bool := i.inService && i.header && i.blocks == List.replicate 8 true

/-- The bytes of a slot that a whole image fills: a header of 4 KiB, then the eight blocks (Table 16.8).
DESIGN CHOICE, safe (log 148). -/
def FlushImage.bytes (i : FlushImage) : List Byte :=
  let h := le 4 i.generation ++ le 4 (flagsOf [i.inService, i.consumed]) ++
    ((List.range 8).map fun k => le 8 (i.toJournalImage.trailer k)).flatten
  fit 0x1000 (h ++ le 8 (crc64 h)) ++ i.toJournalImage.bytes

/-- The newest valid image of a flush area. -/
def newestImage (l : List FlushImage) : Option FlushImage :=
  l.foldl (fun o x => if x.valid && (o.all fun y => y.generation < x.generation) then some x else o) none

/-- Writes the slot that does not hold the newest valid image (R417); the images stand in the order of their slots. -/
def writeImage (new : FlushImage) (l : List FlushImage) : List FlushImage :=
  match l with
  | [] => [new]
  | a :: r => if newestImage l == some a then [a, new] else new :: ((newestImage l).toList ++ r).take 1

/-- The generation that the next image carries. -/
def State.imageGen (s : State) : Nat := ((s.nvm.flush0 ++ s.nvm.flush1).map (·.generation)).foldl max 0 + 1

/-- The image of a bank that a flush writes; of one that the power fails under, the header, which comes last, is missing (R399). -/
def State.flushImage (b : Nat) (whole : Bool) (s : State) : FlushImage :=
  { toJournalImage := s.bankImage b, generation := s.imageGen, consumed := false, blocks := List.replicate 8 whole, header := whole }

/-- A flush writes its areas: bank A's to eMRAM bank 0 and bank B's to eMRAM bank 1. -/
def State.writeFlush (whole : Bool) (s : State) : State :=
  let a := s.flushImage 0 whole
  let b := s.flushImage 1 whole
  s.onNvm fun n =>
    { n with flush0 := if n.bank0 then writeImage a n.flush0 else n.flush0,
             flush1 := if n.bank1 then writeImage b n.flush1 else n.flush1 }

/-- Units 18 and 19 hold the last block of the image of their bank (Table 15.2). -/
def State.flushUnits (a b : JournalImage) (s : State) : State := (s.unitItem 18 (a.block 7)).unitItem 19 (b.block 7)

end Sys2Proof.Machine
end

