-- ==== Sys2Proof/Machine/Records.lean ====
section
/-!
DEFINITION. The data of the eMRAM records (R418, R419, Tables 16.8 to 16.10): what a store writes, what a cold start loads,
and the bytes of a copy. The order of the quantities inside a record is the model's where the spec gives only its contents.
-/
namespace Sys2Proof.Machine

/-! ## Regions (Table 16.8) -/

/-- Size of a record's region in bytes. -/
def regionSize (id : Nat) : Nat :=
  let k (n : Nat) : Nat := 1024 * n
  if 0x10 ≤ id && id ≤ 0x1F then k 25 else
  match id with
  | 1 => k 8 | 2 => k 4 | 3 => k 1 | 4 => k 16 | 5 => k 2 | 6 => k 1
  | 0x20 => k 12 | 0x21 => k 1 | 0x22 => k 1 | 0x23 => k 4 | 0x24 => k 1 | 0x25 => k 4 | 0x26 => k 1 | 0x27 => k 12
  | 0x28 => k 8 | 0x30 => k 160 | _ => k 96

/-- Offset of a record's region in either bank. -/
def regionOffset (id : Nat) : Nat :=
  if 0x10 ≤ id && id ≤ 0x1F then 0x14000 + 0x6400 * (id - 0x10) else
  match id with
  | 1 => 0x01000 | 2 => 0x03000 | 3 => 0x04000 | 4 => 0x0B000 | 5 => 0x04800 | 6 => 0x04400
  | 0x20 => 0x08000 | 0x21 => 0x05400 | 0x22 => 0x05800 | 0x23 => 0x06000 | 0x24 => 0x05C00 | 0x25 => 0x07000 | 0x26 => 0x05000
  | 0x27 => 0x0F000 | 0x28 => 0x12000 | 0x30 => 0x90000 | _ => 0x78000

/-- The first bytes of a bank, written at the factory: bank number, layout format, serial and their CRC-64.
DESIGN CHOICE, safe (log 151). -/
def bankHeader (bank : Nat) : List Byte :=
  let b := le 4 bank ++ le 4 1 ++ le 8 Config.serial
  b ++ le 8 (crc64 b)

/-- The most data bytes of a record. -/
def recordMax (id : Nat) : Nat := regionSize id - 48

/-! ## Reading lists of fields -/

/-- `n` numbers of `k` bytes from byte `i` on. -/
def numsAt (p : List Byte) (i k n : Nat) : List Nat := (List.range n).map fun j => leNat (slice p (i + k * j) k)

/-- Signed numbers likewise. -/
def intsAt (p : List Byte) (i k n : Nat) : List Int := (numsAt p i k n).map (toSigned (8 * k))

/-- A number, with all ones for none. -/
def leOpt (k : Nat) (o : Option Nat) : List Byte := le k (o.getD (2 ^ (8 * k) - 1))
def readOpt (k n : Nat) : Option Nat := if n = 2 ^ (8 * k) - 1 then none else some n

/-- A rational, or none: numerator and denominator in 16 bytes each, denominator 0 for none. The efficiency of 24 h, a sum of charges over
one of slot energies, fits (R435). -/
def ratBytes : Option Rat → List Byte
  | some q => leInt 16 q.num ++ le 16 q.den
  | none => zeros 32
def readRat (p : List Byte) (i : Nat) : Option Rat :=
  let d := leNat (slice p (i + 16) 16)
  if d = 0 then none else some (mkRat (toSigned 128 (leNat (slice p i 16))) d)

/-- A window baseline in its unit, or none. -/
def baseBytes (o : Option Rat) : List Byte := leOpt 8 (o.map fun q => (roundRat (q * (baseUnit : Rat))).toNat)
def readBase (p : List Byte) (i : Nat) : Option Rat := (readOpt 8 (u64 p i)).map fun n => mkRat n baseUnit

/-! ## What each record holds -/

/-- The DAC record: park codes of emitters 0 to 15, EXC and GALVO, after the PARK_SETs that wait for the store. -/
def State.dacData (cmds : List (Nat × Cmd)) (s : State) : List Byte :=
  let codes := (List.range 18).map fun ch =>
    (cmds.foldl (fun (o : Nat) x => if x.1 == 0x0404 && u8 x.2.payload 0 == ch then u16 x.2.payload 2 else o) (s.parkCode ch))
  (codes.map (le 2 ·)).flatten

/-- A slot: whether it holds a waveform, its range and CODE_ID, then its 256 samples of 12 bits. One that is
ECC_FAILED is stored as EMPTY.
DESIGN CHOICE, unsafe (log 98); DESIGN CHOICE, unsafe (log 138). -/
def Slot.pack (k : Slot) : List Byte :=
  if k.st == .empty || k.st == .eccFailed then zeros 388 else
  [1, if k.range2 then 1 else 0, BitVec.ofNat 8 k.codeId, 0] ++
  ((List.range 128).map fun i => le 3 (k.samples.getD (2 * i) 0 % 4096 + 4096 * (k.samples.getD (2 * i + 1) 0 % 4096))).flatten

def Slot.unpack (p : List Byte) (n : Nat) : Slot :=
  let b := slice p (388 * n) 388
  if u8 b 0 = 0 then Slot.empty else
  { st := .loaded, range2 := u8 b 1 = 1, codeId := u8 b 2,
    samples := ((List.range 128).map fun i => [u24 b (4 + 3 * i) % 4096, u24 b (4 + 3 * i) / 4096]).flatten, charge := 0 }

def State.waveData (e : Nat) (s : State) : List Byte := ((s.emitter e).slots.map Slot.pack).flatten

/-- OFFSET_FE and DNL_FE of a front end as the last re-plan made them (R437). -/
def State.corrections (f : Nat) (s : State) : Int × List Int :=
  ((s.health.dnlPending.find? (·.1 == f)).map (·.2)).getD ((s.fe f).offset, (s.fe f).dnl)

/-- The time-base record: XO_TRIM to go to, FREQ_ERR, the device time of the store, and the corrections of R113. -/
def State.timebaseData (s : State) : List Byte :=
  fit 8 (le 2 s.clk.xoTarget) ++ leInt 8 s.clk.freqErr ++ le 8 s.stamp ++
  ((List.range 208).map fun f => 
    leInt 2 (s.corrections f).1 ++ ((s.corrections f).2.map (leInt 1 ·)).flatten).flatten

/-- The repair map (Table 1.10). -/
def RepairMap.pack (r : RepairMap) : List Byte :=
  let mask (n : Nat) (l : List Nat) : List Byte := le (n / 8 + 1) ((List.range n).foldl (fun a i => a + flag (l.contains i) i) 0)
  (r.feFor.map (le 2 ·)).flatten ++ (r.engineFor.map (leOpt 2 ·)).flatten ++ (r.coreFor.map (leOpt 1 ·)).flatten ++
  mask 208 r.badFe ++ mask 144 r.badEngine ++ mask 18 r.badCore ++ mask 192 r.lostChannel ++ le 2 r.sramRows.length ++
  (r.sramRows.map fun x => le 1 x.1 ++ le 2 x.2.1 ++ le 1 x.2.2).flatten

def RepairMap.unpack (p : List Byte) : RepairMap :=
  let mask (n i : Nat) : List Nat := maskBits n (leNat (slice p i (n / 8 + 1)))
  { feFor := numsAt p 0 2 192, engineFor := (numsAt p 384 2 128).map (readOpt 2), coreFor := (numsAt p 640 1 16).map (readOpt 1),
    badFe := mask 208 656, badEngine := mask 144 683, badCore := mask 18 702, lostChannel := mask 192 705,
    sramRows := (List.range (u16 p 730)).map fun i => (u8 p (732 + 4 * i), u16 p (733 + 4 * i), u8 p (735 + 4 * i)) }

/-- The angle record (R156).
DESIGN CHOICE, unsafe (log 98). -/
def State.angleData (s : State) : List Byte :=
  let a := s.angle
  fit 64 a.wanted ++ le 4 a.zeroOffset ++ le 1 (if a.dir then 1 else 0) ++ zeros 3 ++
  (a.slots.map fun k => leInt 8 k.dcBlock).flatten ++ le 4 a.phaseAdj ++
  match a.toStore.getD a.stored with
  | some t => le 4 t.generation ++ (t.entries.map fun x => leInt 4 x.1 ++ leInt 4 x.2).flatten
  | none => le 4 0

/-- The aux record (R353).
DESIGN CHOICE, unsafe (log 98). -/
def State.auxData (s : State) : List Byte :=
  (s.aux.meas.map fun m => fit 48 (m.pending.getD m.image)).flatten ++ (s.aux.switches.map fun w => fit 16 w.image).flatten ++
  le 2 s.aux.calPeriod ++ fit 32 s.aux.bezelImage

/-- The network record (R372): the NET_CONFIG, TRDP_CONFIG and STREAM_CONFIG images. -/
def State.networkData (s : State) : List Byte :=
  fit 64 s.netImage ++ fit 64 s.net.trdp ++ (s.sets.active.streams.map (fit 32 ·)).flatten

/-- The margins block (Table 17.9). -/
def State.marginsBlock (s : State) : List Byte :=
  let h := s.health
  (h.sdMargin.map (le 2 ·)).flatten ++ leInt 2 h.ovTrim ++ le 1 s.emission.headroom ++ zeros 1 ++ le 4 h.replanCount ++
  le 8 h.replanTime ++ le 2 h.effMax ++ le 2 h.gMed ++ zeros 28 ++ (h.thrOffset.map (leInt 1 ·)).flatten

/-- The margins record (R439): the margins block, the baselines and the HEALTH_CONFIG image.
DESIGN CHOICE, unsafe (log 98). -/
def State.marginsData (s : State) : List Byte :=
  s.marginsBlock ++ (s.health.eff.map fun m => ratBytes m.baseline).flatten ++
  (s.health.sipm.map fun m => leOpt 2 m.baseline).flatten ++ fit 16 s.health.config

/-- The data of a record as it stands now, for the commands that wait for the store.
DESIGN CHOICE, unsafe (log 98). -/
def State.recordData (id : Nat) (cmds : List (Nat × Cmd)) (s : State) : List Byte :=
  if 0x10 ≤ id && id ≤ 0x1F then s.waveData (id - 0x10) else
  match id with
  | 2 => s.power.repair.pack
  | 3 => s.emission.key.getD []
  | 4 => s.timebaseData
  | 5 => s.emission.table
  | 6 => s.dacData cmds
  | 0x20 => s.angleData
  | 0x21 => s.motion.record
  | 0x22 => s.bias.image
  | 0x23 => s.auxData
  | 0x24 => (s.aux.sectors.map fun k => baseBytes k.base).flatten
  | 0x25 => s.networkData
  | 0x26 => (s.fabric.chOffset.map (leInt 2 ·)).flatten
  | 0x27 => (s.sets.claspGen.map (le 2 ·)).flatten ++ le 2 s.sets.claspPtr
  | 0x28 => s.marginsData
  | _ => []

/-! ## The bytes of a copy (Table 16.9) -/

/-- Data padded to whole units. -/
def padded (d : List Byte) : List Byte := d ++ zeros ((16 - d.length % 16) % 16)

def NvmCopy.header (k : NvmCopy) : List Byte :=
  le 2 k.recId ++ le 2 k.format ++ le 4 k.generation ++ le 4 k.data.length ++ le 6 k.jix ++ zeros 2 ++ le 8 k.storeTime ++ zeros 4

/-- What the check word covers (R419). -/
def NvmCopy.covered (k : NvmCopy) : List Byte := k.header ++ padded k.data

/-- Header, padded data and check unit; a check word that is wrong is not known. -/
def NvmCopy.bytes (k : NvmCopy) : List Byte :=
  let b := k.covered
  b ++ (if k.checkOk then le 8 (crc64 b) else (List.range 8).map (Config.strayByte 2 k.recId)) ++ le 4 k.generation ++ zeros 4

/-- Is a copy valid (R419)? The model supports FORMAT 1 of every record, and erased copies.
DESIGN CHOICE, unsafe (log 98). -/
def NvmCopy.valid (id : Nat) (k : NvmCopy) : Bool :=
  k.checkOk && k.recId == id && (k.format == 1 || k.erased) && k.generation != 0 && k.generation != 0xFFFFFFFF

/-- A bank's copy of a record. -/
def NvmRecord.copy (bank : Nat) (r : NvmRecord) : Option NvmCopy := if bank = 0 then r.copy0 else r.copy1

def NvmRecord.setCopy (bank : Nat) (k : NvmCopy) (r : NvmRecord) : NvmRecord :=
  if bank = 0 then { r with copy0 := some k } else { r with copy1 := some k }

def State.onRecord (id : Nat) (f : NvmRecord → NvmRecord) (s : State) : State :=
  s.onNvm fun n => { n with records := n.records.map fun r => if r.id == id then f r else r }

/-- Is an eMRAM bank in service? -/
def State.bankUp (bank : Nat) (s : State) : Bool := if bank = 0 then s.nvm.bank0 else s.nvm.bank1

/-- `n` bytes from offset `i` of a bank's region, with what stands there outside the copy.
DESIGN CHOICE, safe (log 100). -/
def State.regionBytes (bank id i n : Nat) (s : State) : List Byte :=
  let b := (((s.record id).copy bank).map NvmCopy.bytes).getD []
  (List.range n).map fun k => (b[i + k]?).getD (Config.strayByte bank id (i + k))

/-! ## Choosing copies at a cold start (R422, Table 16.7) -/

/-- What the choice says: the copy in use and its bank, a mirror to make, a check word to rewrite, and divergence. -/
structure Choice where
  use : Option NvmCopy
  bank1 : Bool
  mirror : Bool
  check : Bool
  diverged : Bool
deriving DecidableEq, Repr

/-- Does an invalid copy differ from a valid one in its check word alone? -/
def onlyCheckWrong (good : NvmCopy) (bad : Option NvmCopy) : Bool := bad.any fun k => { k with checkOk := true } == good

def chooseCopy (id : Nat) (a b : Option NvmCopy) : Choice :=
  match a.filter (NvmCopy.valid id), b.filter (NvmCopy.valid id) with
  | none, none => { use := none, bank1 := false, mirror := false, check := false, diverged := false }
  | some x, none =>
    { use := some x, bank1 := false, mirror := !onlyCheckWrong x b, check := onlyCheckWrong x b, diverged := false }
  | none, some y =>
    { use := some y, bank1 := true, mirror := !onlyCheckWrong y a, check := onlyCheckWrong y a, diverged := false }
  | some x, some y =>
    if y.generation < x.generation then { use := some x, bank1 := false, mirror := true, check := false, diverged := false }
    else if x.generation < y.generation then { use := some y, bank1 := true, mirror := true, check := false, diverged := false }
    else { use := some x, bank1 := false, mirror := x != y, check := false, diverged := x != y }

def NvmRecord.chosen (c : Choice) (r : NvmRecord) : NvmRecord :=
  { r with inUse := c.use, inBank1 := c.bank1, mirrorPending := c.mirror, checkPending := c.check }

/-- The copy of a bank that a cold start can read. -/
def State.readable (bank id : Nat) (s : State) : Option NvmCopy := if s.bankUp bank then (s.record id).copy bank else none

/-- A bank's copy of a record goes through the bank's check unit (Table 15.2). -/
def State.checkCopy (bank id : Nat) (s : State) : State :=
  (s.readable bank id).elim s fun k => s.unitItem (16 + bank) k.covered

/-- Chooses every record, in the order of Table 16.10; the follow-ups are asked for and NVM_DIVERGED is set where the data differ.
DESIGN CHOICE, unsafe (log 149). -/
def State.chooseRecords (s : State) : State :=
  recordIds.foldl (fun s id =>
    let c := chooseCopy id (s.readable 0 id) (s.readable 1 id)
    let s := (s.checkCopy 0 id).checkCopy 1 id
    let s := (s.onRecord id (NvmRecord.chosen c)).onHealth fun h => { h with nvmDiverged := h.nvmDiverged || c.diverged }
    if c.mirror || c.check then s.request (Activity.followUp id) else s) s

/-! ## Loading (Table 16.10) -/

/-- The data in use of a record; none when it is absent. -/
def State.inUseData (id : Nat) (s : State) : Option (List Byte) :=
  ((s.record id).inUse.filter fun k => !k.erased).map (·.data)

/-- Loads a record that is present. -/
def State.load (id : Nat) (f : List Byte → State → State) (s : State) : State :=
  match s.inUseData id with
  | some p => f p s
  | none => s

def loadDac (p : List Byte) (s : State) : State :=
  let s := (List.range 16).foldl (fun s e => s.onEmitter e fun x => { x with park := u16 p (2 * e) % 4096 }) s
  s.onEmission fun m => { m with excPark := u16 p 32 % 4096, galvoPark := u16 p 34 % 4096 }

def loadTimebase (p : List Byte) (s : State) : State :=
  s.onClk fun c => { c with xoTrim := u16 p 0 % 4096, xoTarget := u16 p 0 % 4096, xoStored := u16 p 0 % 4096 }

/-- OFFSET_FE and DNL_FE, at the start of step 8 (Table 4.7). -/
def loadCorrections (p : List Byte) (s : State) : State :=
  (List.range 208).foldl (fun s f => s.onFe f fun k =>
    { k with offset := s16 p (24 + 66 * f), dnl := intsAt p (26 + 66 * f) 1 64 }) s

def loadLedger (p : List Byte) (s : State) : State := s.installLedger (fit 608 p) (s.recordGen 5)

def loadKey (p : List Byte) (s : State) : State := s.onEmission fun m => { m with key := some (fit 32 p) }

def loadMap (p : List Byte) (s : State) : State := s.onPower fun w => { w with repair := RepairMap.unpack p }

def loadWave (e : Nat) (p : List Byte) (s : State) : State :=
  (List.range 64).foldl (fun s n => s.writeSlot e n (Slot.unpack p n)) s

/-- The cyclic-error table of an angle record. -/
def tableOf (p : List Byte) : Option CycTable :=
  if u32 p 116 = 0 then none else
    some { generation := u32 p 116, entries := (List.range 1024).map fun k => (s32 p (120 + 8 * k), s32 p (124 + 8 * k)) }

def loadAngle (p : List Byte) (s : State) : State :=
  let t := tableOf p
  s.onAngle fun a =>
    { a with config := slice p 0 64, zeroOffset := u32 p 64, dir := u8 p 68 = 1,
             slots := a.slots.zipIdx.map fun x => { x.1 with dcBlock := s64 p (72 + 8 * x.2) },
             phaseAdj := u32 p 112, phaseRest := 0, next := none, table := t, stored := t, toStore := none }

def loadMotion (p : List Byte) (s : State) : State := s.onMotion fun m => { m with record := fit 16 p }

/-- The stored bias settings; with ENABLE 1 the bias is unsettled until its first ramp has ended (R265). -/
def loadBias (p : List Byte) (s : State) : State :=
  s.onBias fun b => { b with image := fit 32 p, unsettled := bcEnable (fit 32 p) }

def loadAux (p : List Byte) (s : State) : State :=
  s.onAux fun a =>
    { a with meas := a.meas.zipIdx.map fun x => { x.1 with image := slice p (48 * x.2) 48, pending := none },
             switches := a.switches.zipIdx.map fun x => { x.1 with image := slice p (768 + 16 * x.2) 16 },
             calPeriod := u16 p 896, bezelImage := slice p 898 32 }

def loadBezel (p : List Byte) (s : State) : State :=
  s.onAux fun a => { a with sectors := a.sectors.zipIdx.map fun x => { x.1 with base := readBase p (8 * x.2) } }

/-- DEDUCED, unsafe (log 93). -/
def loadNetwork (p : List Byte) (s : State) : State :=
  let streams := (List.range 32).map fun n => slice p (128 + 32 * n) 32
  let config := slice p 0 64
  let v6 := ncV6 config && !zeroAt config 16 16
  (s.onNet fun n => { n with config := config, trdp := slice p 64 64, dad := v6, probe := v6 }).onSets fun k =>
    { k with active := { k.active with streams := streams }, shadow := { k.shadow with streams := streams } }

def loadRange (p : List Byte) (s : State) : State := s.onFabric fun b => { b with chOffset := intsAt p 0 2 192 }

/-- The checkpoint of Clasp: after JOURNAL_LOST every generation is advanced by 1 first (R401). -/
def loadClasp (lost : Bool) (p : List Byte) (s : State) : State :=
  s.onSets fun k =>
    { k with claspGen := (numsAt p 0 2 4096).map fun g => if lost then min 65535 (g + 1) else g, claspPtr := u16 p 8192 % 4096 }

def loadMargins (p : List Byte) (s : State) : State :=
  (s.onHealth fun h =>
    { h with sdMargin := numsAt p 0 2 8, ovTrim := s16 p 16, replanCount := u32 p 20, replanTime := u64 p 24,
             effMax := u16 p 32, gMed := u16 p 34, thrOffset := intsAt p 64 1 192,
             eff := h.eff.zipIdx.map fun x => { x.1 with baseline := readRat p (256 + 32 * x.2) },
             sipm := h.sipm.zipIdx.map fun x => { x.1 with baseline := readOpt 2 (u16 p (768 + 2 * x.2)) },
             config := slice p (768 + 2 * h.sipm.length) 16 }).onEmission fun m => { m with headroom := u8 p 18 }

/-- The kernel library of a start (R279). -/
def State.loadLibrary (s : State) : State :=
  match s.inUseData 0x31 with
  | some p => (s.unitItem 15 p).onFabric fun b => { b with library := Config.libraryVersion p, libraryMajors := Config.libraryMajors p }
  | none => s.onFabric fun b => { b with library := Config.baseLibrary, libraryMajors := Config.baseMajors }

/-- What step 2 loads besides the library, the slots, the cyclic-error table's memory and the corrections. -/
def State.loadRecords (s : State) : State :=
  ((((((((((s.load 6 loadDac).load 4 loadTimebase).load 3 loadKey).load 5 loadLedger).load 0x20 loadAngle).load
    0x21 loadMotion).load 0x22 loadBias).load 0x23 loadAux).load 0x24 loadBezel).load 0x25 loadNetwork).load
    0x26 loadRange |>.load 0x28 loadMargins

/-- The waveform slots (step 6). -/
def State.loadSlots (s : State) : State := (List.range 16).foldl (fun s e => s.load (0x10 + e) (loadWave e)) s

end Sys2Proof.Machine
end

