-- ==== Sys2Proof/Machine/Nvm.lean ====
section
/-!
DEFINITION. Stores of eMRAM records (R420, R422) with what they answer and put in force, and the NVM opcodes (R423 to R431)
but for POWER_DOWN.
-/
namespace Sys2Proof.Machine

/-! ## NVM_STORE -/

/-- The copy that stands for a record in eMRAM, erased ones included. -/
def State.newestCopy (id : Nat) (s : State) : Option NvmCopy := (chooseCopy id (s.readable 0 id) (s.readable 1 id)).use

/-- The generation after which the next store of a record counts. -/
def State.lastGen (id : Nat) (s : State) : Nat :=
  max (s.recordGen id) (((s.newestCopy id).map (·.generation)).getD 0)

/-- The NVM activity that runs. -/
def State.nvmRunning (s : State) : Option Activity := s.health.running.find? (·.scope == scopeNvm)

/-- Ends the running activity of a scope. -/
def State.endScope (scope : Nat) (s : State) : State :=
  s.onHealth fun h => { h with running := h.running.filter (·.scope != scope) }

/-- A command's pending indices end (R396). -/
def State.unpend (c : Cmd) (s : State) : State :=
  let x := s.jixOf c
  s.onJournal fun j => { j with pendingIdx := j.pendingIdx.filter (·.2 != x) }

/-- What the store of a record puts in force (R99, R235, R373, R401, R426, R428). -/
def State.storeEffect (id gen : Nat) (p : List Byte) (s : State) : State :=
  match id with
  | 3 => loadKey p s
  | 4 =>
    let now := s.now
    s.onClk fun c =>
      { c with xoStored := u16 p 0, rampAt := now, retrimPending := u16 p 0 != c.xoTrim,
               lastRetrim := if c.retrimPending then some now else c.lastRetrim }
  | 5 => s.installLedger p gen
  | 0x20 => s.onAngle fun a =>
      { a with stored := tableOf p, toStore := if a.toStore == some (tableOf p) then none else a.toStore }
  | 0x26 => loadRange p s
  | 0x27 =>
    let stored := numsAt p 0 2 4096
    s.onSets fun k =>
      { k with claspUnsaved := ((k.claspGen.zip stored).map fun x => x.1 - x.2).foldl (· + ·) 0 }
  | _ => s

/-- RESULT of a command that its store completes. -/
def State.storeResult (op gen : Nat) (c : Cmd) (s : State) : Nat :=
  match op with
  | 0x0401 => chargePj (s.slot (u8 c.payload 0) (u8 c.payload 1)).charge
  | 0x0407 => gen
  | 0x0504 => (s.angle.stored.map (·.generation)).getD 0
  | 0x0505 => (s.angle.table.map (·.generation)).getD 0
  | 0x0903 => s.aux.calResult
  | 0x0905 => s.sectorsLearned
  | 0x0982 => s.bias.tens
  | 0x0B04 => gen
  | 0x0B05 => gen
  | 0x0B06 => gen
  | _ => 0

/-- A command whose store ended: a stored park code comes into use (R241), and the reply follows. -/
def State.storeReply (id gen st det : Nat) (s : State) (x : Nat × Cmd) : State :=
  let op := x.1
  let c := x.2
  let stored := !(st == stFaultNvm && det == 2)
  let finish (result : Nat) (s : State) : State :=
    let b := match s.nvm.waits.find? (·.cmd == c) with
      | some w => if st = stOk then w.block else { w.block with status := st, detail := det, result := result % 2 ^ 32 }
      | none => s.block st det result
    let s := s.onNvm fun n => { n with waits := n.waits.filter (·.cmd != c) }
    ((if stored then s.applied (.record id) c b else s).unpend c).finishWith op c b []
  if op = 0x0801 then (s.unpend c).endNetConfig st det
  else if op = 0x0404 && stored then
    let old := s.parkCode (u8 c.payload 0)
    finish old (s.setPark (u8 c.payload 0) (u16 c.payload 2))
  else finish (if stored then s.storeResult op gen c else 0) s

/-- A store that neither bank took: a retrim that waited for it is given up (R99), and so is a change of the stored table. -/
def State.storeLost (id : Nat) (s : State) : State :=
  if id = 0x20 then s.onAngle fun a => { a with toStore := none }
  else if id = 4 then s.onClk fun c => { c with retrimPending := false, xoTarget := c.xoStored } else s

/-- The copy that a store writes. -/
def Activity.copyOf (gen jix : Nat) (a : Activity) : NvmCopy :=
  { recId := a.recId, format := a.format, generation := gen, jix := jix, storeTime := a.row, data := a.data.getD [],
    checkOk := true }

/-- Writes a copy to a bank that took it, with the bank's check unit (Table 15.2); one whose read-back failed twice holds a copy that is
not valid.
DEDUCED, unsafe (log 101). -/
def State.writeCopy (bank : Nat) (took : Bool) (k : NvmCopy) (s : State) : State :=
  if !s.bankUp bank then s else
  (s.onRecord k.recId (NvmRecord.setCopy bank { k with checkOk := took })).unitItem (16 + bank) k.covered

/-- A store whose first copy is done goes on with its mirror, and has answered its commands (R420, Table 16.11). -/
def State.toMirror (s : State) : State :=
  s.onHealth fun h => { h with running := h.running.map fun b => if b.scope == scopeNvm then { b with target := 2, cmds := [] } else b }

/-- The first copy of a store (R420): `w1` whether the bank written first takes it, `w2` whether the other can be written. A first bank
that fails is written again as the mirror. The store completes with its first copy, which the reply follows; a mirror that cannot be
written leaves MIRROR_PENDING set.
DEDUCED, unsafe (log 101). -/
def State.runStore (a : Activity) (w1 w2 : Bool) (s : State) : State :=
  let gen := s.lastGen a.recId + 1
  let first := if s.bankUp (gen % 2) then gen % 2 else 1 - gen % 2
  let took1 := w1 && s.bankUp first
  let took2 := w2 && s.bankUp (1 - first)
  if !took1 && !took2 then
    ((s.endScope scopeNvm).storeLost a.recId) |> a.cmds.foldl (State.storeReply a.recId gen stFaultNvm 2)
  else
    let bank := if took1 then first else 1 - first
    let jix := (a.cmds.map fun x => s.jixOf x.2).foldl max 0
    let k := a.copyOf gen jix
    let s := if took1 then s else s.writeCopy first false k
    let s := (s.writeCopy bank true k).onRecord a.recId fun r =>
      { r with inUse := some k, inBank1 := bank == 1, mirrorPending := true, checkPending := false }
    let s := s.onNvm fun n => { n with storesTotal := satInc 32 n.storesTotal }
    let s := if k.erased then s else s.storeEffect a.recId gen k.data
    let mirror := if took1 then took2 else s.bankUp first
    let s := if mirror then s.toMirror else s.endScope scopeNvm
    a.cmds.foldl (State.storeReply a.recId gen (if mirror then stOk else stFaultNvm) (if mirror then 0 else 3)) s

/-- The bank that does not hold the copy in use. -/
def State.mirrorBank (id : Nat) (s : State) : Nat := if (s.record id).inBank1 then 0 else 1

/-- The mirror of a store ends: `took` says whether the bank took it.
DEDUCED, unsafe (log 101). -/
def State.runMirror (a : Activity) (took : Bool) (s : State) : State :=
  let bank := s.mirrorBank a.recId
  let s := s.endScope scopeNvm
  match (s.record a.recId).inUse with
  | none => s
  | some k =>
    let s := s.writeCopy bank took k
    if took && s.bankUp bank then s.onRecord a.recId fun r => { r with mirrorPending := false } else s

/-- A follow-up of Table 16.7: the copy in use goes to the other bank. -/
def State.runFollowUp (a : Activity) (took : Bool) (s : State) : State :=
  let s := s.endScope scopeNvm
  match s.newestCopy a.recId with
  | none => s
  | some k =>
    let bank := if (s.record a.recId).copy 0 == some k then 1 else 0
    if took && s.bankUp bank then
      ((s.writeCopy bank true k).onRecord a.recId fun r => { r with mirrorPending := false, checkPending := false }).onNvm
        fun n => { n with repairedTotal := satInc 32 n.repairedTotal }
    else s

/-- NVM_STORE: the running store writes its first copy, or its mirror; a follow-up its copy.
DEDUCED, unsafe (log 101); DESIGN CHOICE, safe (log 119). -/
def nvmStore (w1 w2 : Bool) (s : State) : State :=
  match s.nvmRunning with
  | none => s
  | some a => match a.target with
    | 1 => s.runFollowUp a w1
    | 2 => s.runMirror a w1
    | _ => s.runStore a w1 w2

def execNvmStore (write1 write2 : Bool) (s : State) : Result := .next (nvmStore write1 write2 s)

/-! ## NVM_INFO (R430) -/

/-- REC_STATE (Table 16.13). -/
def State.recState (id : Nat) (s : State) : Nat :=
  let r := s.record id
  flagsOf [r.copy0.any (NvmCopy.valid id), r.copy1.any (NvmCopy.valid id), r.inBank1 && r.inUse.isSome, r.mirrorPending,
           r.checkPending, (s.newestCopy id).any NvmCopy.erased]

def State.nvmEntry (id : Nat) (s : State) : List Byte :=
  let k := (s.record id).inUse
  le 2 id ++ le 1 (s.recState id) ++ zeros 1 ++ le 4 (s.recordGen id) ++ le 4 ((k.map (·.data.length)).getD 0) ++
  le 4 (((k.map (·.storeTime)).getD 0) / 2 ^ 32)

def State.nvmInfoData (s : State) : List Byte :=
  let n := s.nvm
  le 4 n.repairedTotal ++ le 4 n.storesTotal ++ le 1 (flagsOf [n.bank0, n.bank1, n.flushConsumed]) ++ zeros 1 ++
  le 2 recordIds.length ++ zeros 4 ++ (recordIds.map fun id => s.nvmEntry id).flatten

def nvmInfoInfo : OpInfo := { code := 0x0B01, lenMin := 0, lenMax := 0, unseqOk := fun _ => true }

def nvmInfoEffect (c : Cmd) (s : State) : State :=
  s.finish 0x0B01 c stOk 0 (recordIds.filter fun id => s.recordPresent id).length s.nvmInfoData

def execNvmInfo (c : Cmd) (s : State) : Result := .next (s.run nvmInfoInfo c (nvmInfoEffect c))

/-! ## NVM_READ (R424) -/

def badRecord (p : List Byte) : Bool × Nat × Nat := chk (!recordIds.contains (u16 p 0)) 0

def nvmReadInfo : OpInfo :=
  { code := 0x0B02, lenMin := 1, lenMax := 1, unseqOk := fun _ => true,
    fields := fun c _ => let p := c.payload
      let off := u32 p 4
      let n := u16 p 8
      firstFail [badRecord p, chk (2 < u8 p 2) 2, rsvd p 3 1, chk (off % 16 != 0) 4, chk (n < 16 || 4064 < n || n % 16 != 0) 8,
                 chk (regionSize (u16 p 0) < off + n) 4, rsvd p 10 6, locked3 (u16 p 0 == 3)] }

/-- The bank that BANK_SEL names. -/
def State.bankSel (id sel : Nat) (s : State) : Nat := if sel = 0 then (if (s.record id).inBank1 then 1 else 0) else sel - 1

def nvmReadEffect (c : Cmd) (s : State) : State :=
  let p := c.payload
  let id := u16 p 0
  let b := s.bankSel id (u8 p 2)
  let gen := if u8 p 2 = 0 then s.recordGen id else (((s.record id).copy b).map (·.generation)).getD 0
  s.finish 0x0B02 c stOk 0 gen (s.regionBytes b id (u32 p 4) (u16 p 8))

def execNvmRead (c : Cmd) (s : State) : Result := .next (s.run nvmReadInfo c (nvmReadEffect c))

/-! ## NVM_STAGE (R425) -/

def nvmStageInfo : OpInfo :=
  { code := 0x0B03, lenMin := 2, lenMax := 255,
    fields := fun c _ => let p := c.payload
      firstFail [badRecord p, rsvd p 2 2, chk (u32 p 4 % 16 != 0 || 262144 < u32 p 4 + (p.length - 16)) 4, rsvd p 8 8] }

/-- Bytes `xs` at offset `i` of a buffer whose unwritten bytes read 0. -/
def writeAt (i : Nat) (xs b : List Byte) : List Byte :=
  (b ++ zeros (i - b.length)).take i ++ xs ++ b.drop (i + xs.length)

def nvmStageEffect (c : Cmd) (s : State) : State :=
  let p := c.payload
  let id := u16 p 0
  let d := p.drop 16
  let s := s.onNvm fun n =>
    let keep := n.stageId == some id
    { n with stageId := some id, stage := writeAt (u32 p 4) d (if keep then n.stage else []),
             stageTop := max (if keep then n.stageTop else 0) (u32 p 4 + d.length) }
  s.done 0x0B03 c s.nvm.stageTop

def execNvmStage (c : Cmd) (s : State) : Result := .next (s.run nvmStageInfo c (nvmStageEffect c))

/-! ## NVM_COMMIT (R426) -/

/-- Does a commit of this record need an unlock while the key record is present? -/
def guarded (id : Nat) : Bool := id == 0x30 || id == 0x31

/-- DEDUCED, safe (log 12). -/
def nvmCommitInfo : OpInfo :=
  { code := 0x0B04, lenMin := 2, lenMax := 2,
    fields := fun c s => let p := c.payload
      let id := u16 p 0
      (firstFail [badRecord p, rsvd p 2 2, chk (recordMax id < u32 p 4 || (id == 0x26 && u32 p 4 != 384)) 4,
                  chk (u32 p 16 != s.recordGen id) 16, rsvd p 20 12, locked3 (!(id == 0x26 || guarded id)),
                  locked3 (s.unlockBars c (guarded id && s.recordPresent 3))]).andThen (s.arbiterCheck 1) }

/-- Do the staged bytes match a commit?
DEDUCED, unsafe (log 102). -/
def State.stageMatches (p : List Byte) (s : State) : Bool :=
  s.nvm.stageId == some (u16 p 0) && s.nvm.stageTop == 16 * ceilDiv (u32 p 4) 16 &&
  crc64 (fit (u32 p 4) s.nvm.stage) == u64 p 8

def nvmCommitEffect (c : Cmd) (s : State) : State :=
  let p := c.payload
  let id := u16 p 0
  if !s.stageMatches p then s.finish 0x0B04 c stFaultNvm 1 0 []
  else s.storeFor 0x0B04 id (some (fit (u32 p 4) s.nvm.stage)) c

def execNvmCommit (c : Cmd) (s : State) : Result := .next (s.run nvmCommitInfo c (nvmCommitEffect c))

/-! ## NVM_ERASE (R427) -/

def erasable (id : Nat) : Bool :=
  (0x10 ≤ id && id ≤ 0x1F) || [0x20, 0x21, 0x22, 0x23, 0x24, 0x25, 0x26, 0x28].contains id

/-- DEDUCED, unsafe (log 102). -/
def nvmEraseInfo : OpInfo :=
  { code := 0x0B05, lenMin := 1, lenMax := 1,
    fields := fun c s => let p := c.payload
      (firstFail [badRecord p, rsvd p 2 2, (u32 p 4 != s.recordGen (u16 p 0), stParam, 1), rsvd p 8 8,
                  locked3 (!erasable (u16 p 0))]).andThen (s.arbiterCheck 1) }

/-- NVM_ERASE: a copy of FORMAT 0xFFFF, without data, is stored. -/
def nvmEraseEffect (c : Cmd) (s : State) : State :=
  let id := u16 c.payload 0
  (s.request (Activity.store 0x07 id 0xFFFF (some []) [(0x0B05, c)])).setPending (.record id) c

def execNvmErase (c : Cmd) (s : State) : Result := .next (s.run nvmEraseInfo c (nvmEraseEffect c))

/-! ## KEY_PROVISION (R428) -/

/-- DEDUCED, safe (log 12). -/
def keyProvisionInfo : OpInfo :=
  { code := 0x0B06, lenMin := 3, lenMax := 3,
    lock := fun c s => firstFail [(c.via.transport == .trdp, stLocked, 2), locked3 (s.unlockBars c (s.recordPresent 3))],
    fields := fun c s =>
      (firstFail [rsvd c.payload 0 16, chk (zeroAt c.payload 16 32) 16]).andThen (s.arbiterCheck 1) }

def keyProvisionEffect (c : Cmd) (s : State) : State :=
  s.storeFor 0x0B06 3 (some (slice c.payload 16 32)) c

def execKeyProvision (c : Cmd) (s : State) : Result := .next (s.run keyProvisionInfo c (keyProvisionEffect c))

/-! ## What an unlock serves -/

/-- Does a command need an open unlock (R235, R426, R428)? -/
def State.needsUnlock (op : Nat) (p : List Byte) (s : State) : Bool :=
  match op with
  | 0x0407 => raises s.emission.table (ledgerImage p)
  | 0x0B04 => guarded (u16 p 0) && s.recordPresent 3
  | 0x0B06 => s.recordPresent 3
  | _ => false

end Sys2Proof.Machine
end

