-- ==== Sys2Proof/Machine/Pavane.lean ====
section
/-!
DEFINITION. DEV_STATUS and its interrupt (R53), the journal's flush images (R399, R417), Pavane and what starts it (R405,
R414 to R416, R429), and the takeover by the standby pair (R21).
-/
namespace Sys2Proof.Machine

/-! ## Interrupts and DEV_STATUS (R53, Tables 2.7 and 2.8) -/

/-- An interrupt bit is set, and its MSI-X message sent when it is enabled. -/
def State.interrupt (b : Nat) (s : State) : State :=
  let p := s.host.pcie
  if !p.perstHigh then s else
  let s := s.onHost fun h => { h with pcie := { h.pcie with intStatus := h.pcie.intStatus ||| bit6 b } }
  if p.intEnable.getLsbD b && p.config.msix && p.config.master then s.emit (.msix (min 4 b)) else s

/-- Is a retention bank out of service? -/
def State.journalDegraded (s : State) : Bool := !s.host.journal.bankA.inService || !s.host.journal.bankB.inService

/-- DEV_STATUS. -/
def State.devStatus (s : State) : Nat :=
  flagsOf [s.power.ready, s.power.takeover, s.power.phase == .recovery, s.power.phase == .warm, s.journalDegraded]

/-- A change of the state, with the interrupt of a DEV_STATUS that it changes. -/
def State.withStatus (f : State → State) (s : State) : State :=
  let t := f s
  if t.devStatus == s.devStatus then t else t.interrupt 5

/-! ## Packets not yet accepted -/

/-- Forgets the packets that are checked or held but not accepted (R399, R402); only the tags of accepted commands and of
replies that wait stay in use. -/
def State.dropUnaccepted (s : State) : State :=
  s.onHost fun h =>
    { h with
      checked := [],
      queues := h.queues.zipIdx.map fun x =>
        let used (t : Nat) : Bool :=
          (h.journal.live.any fun l => l.cmd.queue == x.2 && l.cmd.tag == t) ||
          (h.waiting.any fun r => r.holdsTag && r.queue == x.2 && r.tag == t)
        { x.1 with held := [], tags := x.1.tags.filter used } }

/-! ## The flush (R399, R400, R417) -/

/-- JOURNAL_FLUSH_COMPLETE: both banks stand in their flush areas. Packets are then accepted as in the recovery-only state (R415), and a
cold start that was asked for begins, unless the power fails. -/
def journalFlushComplete (s : State) : State :=
  if !s.host.journal.flushing then s else
  let s := (s.writeFlush true).flushUnits (s.bankImage 0) (s.bankImage 1)
  let s := s.onJournal fun j => { j with flushing := false, acceptStopped := false }
  if s.power.coldStartAfter && !s.power.pfail then s.onPower fun p => { p with running := false } else s

def execJournalFlushComplete (s : State) : Result := .next (journalFlushComplete s)

/-- Locket stops acceptance and starts the flush; before an image was restored there is nothing to flush (R417). -/
def State.startFlush (s : State) : State :=
  (s.dropUnaccepted).onJournal fun j => { j with acceptStopped := true, flushing := j.imageRestored }

/-! ## The layout of an eMRAM bank (R418, Table 16.8) -/

/-- Offset of a flush slot. -/
def slotOffset (slot : Nat) : Nat := 0xBE000 + 0x21000 * slot

/-- The byte at an offset of a bank: its header, a record's region, a flush slot; what stands elsewhere is not known.
DESIGN CHOICE, safe (log 151). -/
def State.emramByte (bank off : Nat) (s : State) : Byte :=
  let other := Config.strayByte bank 0 off
  if off < 0x1000 then (bankHeader bank)[off]?.getD other
  else match recordIds.find? fun id => regionOffset id ≤ off && off < regionOffset id + regionSize id with
    | some id => (s.regionBytes bank id (off - regionOffset id) 1).headD other
    | none =>
      let slot := if off < slotOffset 1 then 0 else 1
      let images := if bank = 0 then s.nvm.flush0 else s.nvm.flush1
      match images[slot]? with
      | some i => if i.header && slotOffset slot ≤ off then i.bytes[off - slotOffset slot]?.getD other else other
      | none => other

/-! ## Pavane (R414, R415) -/

/-- What Pavane does to the outputs beside the emitters and the loops (Tables 16.5 and 16.6).
DEDUCED, unsafe (log 32). -/
def State.pavaneOutputs (s : State) : State :=
  let s := s.parkExc
  let s := if s.angle.lock == .noSignal then s else s.angleGone .noSignal
  let s := s.onAngle fun a =>
    { a with encImage := zeros 16, encFrozen := true, encA := false, encB := false, encZ := false,
             cams := a.cams.map fun _ => CamPin.reset }
  let s := s.onEmission fun m => { m with reservoirs := m.reservoirs.map fun r => { r with enabled := false, ctl := false } }
  (s.onAux fun a => { a with heatInUse := 0, turn := none, cal := [] }).driveZones

/-- Pavane starts, unless it runs already. -/
def State.startPavane (cause : PavaneCause) (s : State) : State :=
  if s.power.phase == .pavane || !s.power.running then s else
  let now := s.now
  s.withStatus fun s =>
    let s := s.onPower fun p =>
      { p with phase := .pavane, ready := false, pavaneCause := cause, pavaneAt := now, powerDown := [], pavaneDue := none,
               resetWarm := none, warm := none, takeover := false }
    ((s.registerSource srcPavane).pavaneMotion).pavaneOutputs.startFlush

/-- A store that the power fail cuts: the copy that it was writing, first or mirror, is not valid (R421, Table 16.11).
DEDUCED, unsafe (log 101). -/
def State.tearStore (s : State) : State :=
  match s.nvmRunning with
  | none => s
  | some a =>
    let s := s.endScope scopeNvm
    if a.target = 0 then
      let gen := s.lastGen a.recId + 1
      let first := if s.bankUp (gen % 2) then gen % 2 else 1 - gen % 2
      s.writeCopy first false (a.copyOf gen 0)
    else match (s.record a.recId).inUse with
      | some k => if (s.record a.recId).mirrorPending then s.writeCopy (s.mirrorBank a.recId) false k else s
      | none => s

/-- PFAIL: power fail is registered (R405). -/
def pfail (s : State) : State :=
  if !s.power.running || s.power.halted || s.power.pfail then s else
  let s := (s.startPavane .pfail).onPower fun p => { p with pfail := true }
  s.tearStore.startFlush

def execPfail (s : State) : Result := .next (pfail s)

/-- XO_STOP: the crystal stops (R97). -/
def xoStop (s : State) : State :=
  if !s.clk.started || s.clk.xoStop then s else
  let s := (s.onClk fun c => { c with xoStop := true, xoStopSeen := true }).loseClock srcXo
  let s := if s.tracking then s.loseLock 10 else s
  (s.startPavane .xo).onPower fun p => { p with spiOnly := true }

def execXoStop (s : State) : Result := .next (xoStop s)

/-- The tile, filter and motion domains power down, each at its DOMAIN_SLEEP (R466); the DACs that serve outputs hold their park codes
(R28).
DEDUCED, unsafe (log 32). -/
def State.powerDomainsDown (s : State) : State :=
  let s := s.onPower fun p =>
    { p with poweredDown := true, domains := p.domains.filter fun d => staysPowered d.dom || d.phase != .requested }
  let s := (List.range 16).foldl (fun s e => s.holdOutput e) s
  (s.onAngle fun a => { a with exc := a.exc.held }).onMotion fun m => { m with galvo := m.galvo.held }

/-- PAVANE_POWER_DOWN: 10 ms after its start the MDRV frames stop, and the domains power down once HVB_SET is 0 V. -/
def pavanePowerDown (s : State) : State :=
  if s.power.phase != .pavane || s.power.pfail || s.power.poweredDown || !s.since s.power.pavaneAt (ms 10) then s else
  let s := s.onMdrv fun m => { m with running := false }
  if s.bias.hvb = 0 then s.powerDomainsDown else s

def execPavanePowerDown (s : State) : Result := .next (pavanePowerDown s)

/-! ## The supervisor pairs (R21) -/

/-- Is the standby pair reloading its memory (Table 15.5)? -/
def State.standbyReloading (s : State) : Bool :=
  (s.health.queue ++ s.health.running).any fun a => a.code == 0x06 && a.target == 1

/-- Can the standby pair take over? -/
def State.standbyReady (s : State) : Bool := !s.power.standbyOut && !s.power.failedPair && !s.standbyReloading

/-- The active pair fails: the standby is promoted and replays the journal, or Pavane starts.
DEDUCED, unsafe (log 117). -/
def State.takeOver (s : State) : State :=
  if !s.power.running || s.power.halted then s
  else if !s.standbyReady then s.startPavane .supervisor
  else s.withStatus fun s =>
    ((s.onPower fun p =>
      { p with takeover := true, supervisorB := !p.supervisorB, failedPair := true, takeovers := satInc 32 p.takeovers }).onHealth
      fun h => { h with takeoverSeen := true }).dropUnaccepted

/-- SUPERVISOR_MISMATCH. -/
def execSupervisorMismatch (s : State) : Result := .next s.takeOver

/-- STANDBY_COMPARISON_FAIL (R414): the pair that was promoted compares unequal, or the standby that waits does. -/
def standbyComparisonFail (s : State) : State :=
  if !s.power.running || s.power.halted then s else s.startPavane .supervisor

def execStandbyComparisonFail (s : State) : Result := .next (standbyComparisonFail s)

/-! ## POWER_DOWN (R429) -/

def powerDownInfo : OpInfo :=
  { code := 0x0B07, lenMin := 1, lenMax := 1,
    fields := fun c _ => let p := c.payload
      firstFail [chk (1 < u8 p 0) 0, rsvd p 1 3, chk (u32 p 4 != 0x4E574F44) 4, rsvd p 8 8] }

/-- Has every command accepted before `c` produced its final reply? -/
def State.earlierDone (c : Cmd) (s : State) : Bool :=
  s.host.journal.live.all fun l => l.state == .done || s.jixOf c ≤ l.jix

/-- A waiting POWER_DOWN is answered once earlier commands are, or after 1 s. The first answer sets the start of Pavane.
DEDUCED, unsafe (log 32). -/
def State.powerDownReply (s : State) (x : Cmd × Nat) : State :=
  if s.earlierDone x.1 || s.since x.2 (sec 1) then
    let now := s.now
    (s.done 0x0B07 x.1 0).onPower fun p =>
      { p with powerDown := p.powerDown.filter (· != x), pavaneDue := some (p.pavaneDue.getD now),
               coldStartAfter := p.coldStartAfter || u8 x.1.payload 0 == 1 }
  else s

/-- Every POWER_DOWN that waits, in the order of acceptance. -/
def State.powerDownReplies (s : State) : State := s.power.powerDown.foldl State.powerDownReply s

/-- Pavane follows the first answer by 100 µs; one that runs already ends with a cold start when MODE 1 asks for it (R416). -/
def State.powerDownPavane (s : State) : State :=
  match s.power.pavaneDue with
  | some t =>
    if !s.since t (us 100) then s
    else if s.power.phase == .pavane then
      s.onPower fun p => { p with pavaneDue := none, running := !p.coldStartAfter || s.host.journal.flushing }
    else s.startPavane .host
  | none => s

/-- What POWER_DOWN does as time goes by. -/
def State.powerDownStep (s : State) : State := s.powerDownReplies.powerDownPavane

/-- POWER_DOWN waits, and is answered at once when nothing is ahead of it. -/
def powerDownEffect (c : Cmd) (s : State) : State :=
  let now := s.now
  (s.onPower fun p => { p with powerDown := p.powerDown ++ [(c, now)] }).powerDownReplies

def execPowerDown (c : Cmd) (s : State) : Result := .next (s.run powerDownInfo c (powerDownEffect c))

end Sys2Proof.Machine
end

