-- ==== Sys2Proof/Machine/Integrity.lean ====
section
/-!
DEFINITION. Check units (R381 to R383), scrubbing and memory errors (R388 to R390, Table 15.5), the retention banks' service
(R395), and their opcodes MEMORY_STATUS and CHECK_UNIT (R445, R446).
-/
namespace Sys2Proof.Machine

/-! ## Memory regions (Tables 15.5 and 15.6) -/

/-- The block of Table 15.6. -/
def MemRegion.bytes (r : MemRegion) : List Byte :=
  le 1 r.row ++ le 1 (flagsOf [r.ueSeen, r.candidate]) ++ le 2 r.region ++ le 4 r.ce ++ le 4 r.ue ++ le 4 r.ceLastPass ++
  le 4 r.passes ++ le 4 r.lastCe ++ le 4 r.lastUe ++ zeros 4

/-! ## Rows of the histogram SRAM -/

/-- The channel and buffer of a word of a bank (R271). -/
def wordOwner (bank word : Nat) : Nat × Nat := (24 * (bank / 12) + 2 * (bank % 12) + word / 2048, word % 2048 / 1024)

/-- An uncorrectable word of the histogram SRAM (R273, Table 17.4). -/
def State.histWordLost (bank word : Nat) (s : State) : State :=
  let o := wordOwner bank word
  let w := word % 1024
  let plane (h : Hist) : Bool := (s.viewIn h.epoch h.view).any ViewDef.weightPlane
  let fix (h : Hist) : Hist :=
    if h.channel == o.1 && h.buf == o.2 && h.rowValid w then h.zeroAtWord (plane h) w else h
  let s := s.onChannel o.1 fun c => { c with acc := c.acc.map fix }
  let s := s.onTile (bank / 12) fun t => { t with queue := t.queue.map fix, eccUncorrected := satInc 32 t.eccUncorrected }
  let s := s.onFabric fun b => { b with engines := b.engines.map fun e => { e with job := e.job.map fun j => (fix j.1, j.2) } }
  s.rowTrouble bank (word / 8)

/-! ## Firing tables and parameter blocks -/

/-- A view of the active set fires no shot until the next swap: its planned shots are given up and its open cells close
INCOMPLETE.
DEDUCED, unsafe (log 67). -/
def State.breakView (h : Nat) (s : State) : State :=
  let mine := s.sched.queue.filter (·.view == h)
  let s := mine.foldl State.releaseDescriptor s
  let s := s.onSched fun k =>
    { k with queue := k.queue.filter (·.view != h), broken := if k.broken.contains h then k.broken else k.broken ++ [h] }
  (s.sched.cells.filter (·.view == h)).foldl (State.closeCell 1) s

/-- The view of a set whose data a word of its half holds. The spec does not place views in the halves.
DESIGN CHOICE, safe (log 104). -/
def State.wordView (c : ConfigSet) (s : State) : Option ViewDef := c.views[s.freeValue % 64]?

/-- Abandons the chains that run on a view (R284). -/
def State.abandonChains (h : Nat) (s : State) : State :=
  (List.range s.fabric.engines.length).foldl (fun s g => match (s.engine g).job with
    | some j =>
      if j.1.view == h then
        (s.onEngine g fun e => { e with job := none, abandoned := satInc 32 e.abandoned }).abandonHist j.1
      else s
    | none => s) s

/-- A word of a half stays lost until it is written again. -/
def State.addLost (w : LostWord) (s : State) : State :=
  s.onIntegrity fun k => { k with lost := if k.lost.contains w then k.lost else k.lost ++ [w] }

/-- An uncorrectable word of a half: `params` in the parameter blocks, else in the firing tables. One of the active half is restored from
the shadow half when that has not changed since the last swap and is readable.
DESIGN CHOICE, safe (log 104). -/
def State.viewWordLost (params shadow : Bool) (s : State) : State :=
  let o := s.wordView (if shadow then s.sets.shadow else s.sets.active)
  let s := s.freeNext
  match o with
  | none => s
  | some v =>
    let mine : LostWord := { shadow := shadow, params := params, view := v.handle }
    if shadow then s.addLost mine else
    let s := if params then s.abandonChains v.handle else s
    let kept := !s.integrity.lost.contains { mine with shadow := true } &&
      (s.sets.shadow.view v.handle).any fun w => if params then w.params == v.params else w.fire == v.fire
    if kept then s else (s.addLost mine).breakView v.handle

/-! ## The other memories -/

/-- An uncorrectable word of the waveform memory of a core (R220).
DESIGN CHOICE, safe (log 104). -/
def State.waveWordLost (core word : Nat) (s : State) : State :=
  match s.outputOf core with
  | none => s
  | some e =>
    if (s.slot e (word / 32)).st == .empty then s else (s.eccFail e (word / 32)).noteSlotEcc e

/-- The frame that holds a word is discarded; the spec does not place frames in the buffer.
DESIGN CHOICE, safe (log 104). -/
def State.frameWordLost (s : State) : State :=
  let i := s.freeValue % pos s.fabric.egress.length
  (s.onFabric fun b => { b with egress := b.egress.eraseIdx i }).freeNext

/-- Asks for the reload of the standby pair's memory (Table 15.5). -/
def State.reloadStandby (s : State) : State :=
  if s.standbyReloading then s else s.request (Activity.plain 0x06 scopeCommand 1 0 [])

/-- An uncorrectable word in a pair's memory. -/
def State.pairWordLost (pair : Nat) (s : State) : State :=
  if (pair == 1) == s.power.supervisorB then s.takeOver else s.reloadStandby

/-- Samples `2w` and `2w + 1` of a capture read 0. -/
def State.captureWordLost (w : Nat) (s : State) : State :=
  let blank (l : List Nat) : List Nat := l.map fun _ => 0
  s.onMotion fun m =>
    { m with cameo := { m.cameo with samples := (m.cameo.samples.modify (2 * w) blank).modify (2 * w + 1) blank } }

/-- The cyclic-error table is left, or loaded again, at the next boundary.
DESIGN CHOICE, safe (log 104). -/
def State.cycWordLost (s : State) : State :=
  if s.angle.table.isNone || s.angle.cycPending != .none then s else
  match s.angle.stored with
  | some t =>
    if s.angle.table == some t && s.recordPresent 0x20 then s.cycReplace (.use t) [] else s.cycReplace .disable []
  | none => s.cycReplace .disable []

/-! ## Retention banks (R395) -/

/-- A retention bank goes out of service. -/
def State.bankOut (b : Nat) (s : State) : State :=
  if !(s.bank b).inService then s else
  let now := s.now
  let i : JournalImage := { s.bankImage b with inService := false }
  s.withStatus (State.onJournal (Journal.onBank b fun k =>
    { k with inService := false, failedTries := 0, outAt := now, frozen := some i }))

/-- A bank returns to service with the whole image of the other, the entries that are bad there included.
DEDUCED, safe (log 103). -/
def State.bankBack (b : Nat) (s : State) : State :=
  let bad := (s.bank (1 - b)).bad
  s.withStatus (State.onJournal (Journal.onBank b fun k =>
    { k with inService := true, failedTries := 0, bad := bad, frozen := none }))

/-- The activity that copies the healthy bank into bank `b` (Table 17.5). -/
def Activity.recopy (b : Nat) : Activity := Activity.plain 0x06 scopeCommand (2 + b) 0 []

/-- A try has copied and read back, or failed; after three in a row the bank stays out. -/
def State.recopyEnd (b : Nat) (good : Bool) (s : State) : State :=
  let k := s.bank b
  if good && !k.keeperFault && (s.bank (1 - b)).inService then s.bankBack b
  else s.onJournal (Journal.onBank b fun k => { k with failedTries := k.failedTries + 1, gaveUp := 3 ≤ k.failedTries + 1 })

/-- JOURNAL_RECOPY_TRY: once per second from 1 s on, at most three times. The try that is due is asked of the arbiter; the one that it
runs ends, and `good` says whether the copy read back.
DEDUCED, safe (log 103); DEDUCED, unsafe (log 106). -/
def journalRecopyTry (b : Nat) (good : Bool) (s : State) : State :=
  let k := s.bank b
  if b > 1 || k.inService || k.gaveUp || !s.since k.outAt (sec (k.failedTries + 1)) then s
  else if s.health.running.any fun a => a.code == 0x06 && a.target == 2 + b then (s.endScope scopeCommand).recopyEnd b good
  else if s.underway 0x06 (2 + b) then s
  else s.request (Activity.recopy b)

def execJournalRecopyTry (bank : Nat) (good : Bool) (s : State) : Result := .next (journalRecopyTry bank good s)

/-- KEEPER_DOMAIN_FAULT (R25, R395): the fault of a keeper domain begins or ends, with its retention bank and eMRAM bank.
DEDUCED, safe (log 103). -/
def keeperDomainFault (b : Nat) (present : Bool) (s : State) : State :=
  if 1 < b then s else
  let s := s.onNvm fun n => if b = 0 then { n with bank0 := !present } else { n with bank1 := !present }
  let s := s.onJournal (Journal.onBank b fun k => { k with keeperFault := present })
  if present then s.bankOut b else s

def execKeeperDomainFault (bank : Nat) (present : Bool) (s : State) : Result := .next (keeperDomainFault bank present s)

/-- An uncorrectable word of a retention bank: one of the control area takes the bank out (R395); one of an entry is restored from the
other bank (R393), unless the copy there fails too. What else two faults at once do is outside the guarantee (R397).
DESIGN CHOICE, safe (log 148). -/
def State.bankWordLost (b word : Nat) (s : State) : State :=
  if word < 128 then s.bankOut b else
  match (s.bankImage b).entryAt word with
  | none => s
  | some l => if s.copyGood (1 - b) l.jix then s else
      s.onJournal (Journal.onBank b fun k => { k with bad := if k.bad.contains l.jix then k.bad else k.bad ++ [l.jix] })

/-! ## SCRUB_WORD -/

/-- Does a bank of the histogram SRAM hold a row of this word whose valid bit is 1 (R272)? -/
def State.histWordHeld (bank word : Nat) (s : State) : Bool :=
  let o := wordOwner bank word
  let mine (h : Hist) : Bool := h.channel == o.1 && h.buf == o.2 && h.rowValid (word % 1024)
  (s.channel o.1).acc.any mine || (s.tile (bank / 12)).queue.any mine ||
  s.fabric.engines.any fun e => e.job.any fun j => mine j.1

/-- What the code makes of a word with these wrong symbols (R387): nothing, a corrected symbol, or an uncorrectable word. -/
inductive WordCheck where
  | clean
  | corrected (symbol : Nat)
  | uncorrectable
deriving DecidableEq, Repr

/-- One wrong symbol is corrected, two are detected; three or more are outside the protection, and are detected or taken for one.
DESIGN CHOICE, safe (log 150). -/
def State.checkWord (wrong : List Nat) (s : State) : WordCheck :=
  match wrong with
  | [] => .clean
  | [k] => .corrected k
  | [_, _] => .uncorrectable
  | _ => if s.freeValue % 37 = 36 then .uncorrectable else .corrected (s.freeValue % 37)

/-- What the device does on an uncorrectable word (Table 15.5). -/
def State.wordLost (row region word : Nat) (s : State) : State :=
  match row with
  | 1 => s.histWordLost region word
  | 3 => s.waveWordLost region word
  | 4 => s.viewWordLost false (region == 1)
  | 5 => if region = 0 then s else s.viewWordLost true (region == 2)
  | 6 => s.frameWordLost
  | 7 => s.pairWordLost region
  | 9 => s.bankWordLost region word
  | 10 => s.captureWordLost word
  | 11 => s.cycWordLost
  | _ => s

/-- A corrected symbol is counted; one of the same block on an earlier pass of the last 24 h makes the block a candidate
(R390). -/
def State.wordCorrected (row region word symbol : Nat) (s : State) : State :=
  let now := s.now
  let block := word / 8
  let pass := (s.memRegion row region).passes
  let same (c : Corrected) : Bool := c.row == row && c.region == region && c.block == block && c.symbol == symbol
  let again := s.integrity.corrected.any fun c => same c && c.pass != pass && decide (now < c.at_ + sec 86400)
  let s := s.onRegion row region fun r =>
    { r with ce := satInc 32 r.ce, ceThisPass := satInc 32 r.ceThisPass, lastCe := word, candidate := r.candidate || again }
  let s := s.onIntegrity fun k =>
    { k with corrected := k.corrected.filter (fun c => !(same c && c.pass == pass) && decide (now < c.at_ + sec 86400)) ++
        [{ row := row, region := region, block := block, symbol := symbol, pass := pass, at_ := now }] }
  if row = 1 then
    let s := s.onTile (region / 12) fun t => { t with eccCorrected := satInc 32 t.eccCorrected }
    if again then s.rowTrouble region block else s
  else s

/-- The last word of a region ends a pass. -/
def State.endPass (row region word : Nat) (s : State) : State :=
  if word + 1 = regionWords row region then
    s.onRegion row region fun r =>
      { r with ceLastPass := r.ceThisPass, ceThisPass := 0, passes := wrap 32 (r.passes + 1) }
  else s

/-- SCRUB_WORD: the scrubber reads a word, unless its row holds nothing (R272); a correction that a functional write overtook is dropped
(R389).
DEDUCED, unsafe (log 105). -/
def scrubWord (row region word : Nat) (found : ScrubResult) (s : State) : State :=
  if regionCount row ≤ region || regionWords row region ≤ word then s else
  if row = 1 && !s.histWordHeld region word then s.endPass row region word else
  let check := s.checkWord found.wrong
  let s := if found.wrong.length < 3 then s else s.freeNext
  let s := match check with
    | .clean => s
    | .corrected symbol => if found.written then s.wordCorrected row region word symbol else s
    | .uncorrectable => (s.noteLost row region word).wordLost row region word
  s.endPass row region word

def execScrubWord (row region word : Nat) (found : ScrubResult) (s : State) : Result := .next (scrubWord row region word found s)

/-! ## Check units (R382, R383) -/

def State.unit (u : Nat) (s : State) : CheckUnit :=
  s.integrity.units.getD u { mode := 0, alg := 2, done := false, memUe := false, source := 0, running := 0, start := 0,
                             length := 0, count := 0 }

/-- CHECK_UNIT_SCAN_DONE: a scan has read `bytes`, all of LENGTH unless it met an uncorrectable word.
DEDUCED, unsafe (log 107). -/
def checkUnitScanDone (u : Nat) (bytes : List Byte) (uncorrectable : Bool) (s : State) : State :=
  let x := s.unit u
  let fits := if uncorrectable then bytes.length < x.length else bytes.length = x.length
  if u < 20 || 24 ≤ u || x.mode != 2 || !fits then s else
  s.onUnit u fun x =>
    { x with running := crcRun x.alg x.running bytes, count := wrap 32 (x.count + bytes.length), mode := 0,
             done := !uncorrectable, memUe := uncorrectable }

def execCheckUnitScanDone (unit : Nat) (bytes : List Byte) (uncorrectable : Bool) (s : State) : Result :=
  .next (checkUnitScanDone unit bytes uncorrectable s)

/-- The context block of Table 15.3.
DEDUCED, unsafe (log 107). -/
def State.unitBlock (u : Nat) (s : State) : List Byte :=
  let x := s.unit u
  le 1 u ++ le 1 x.mode ++ le 1 x.alg ++ le 1 (flagsOf [x.done, x.memUe, decide (u < 20)]) ++ le 1 x.source ++ zeros 3 ++
  le 8 x.running ++ le 4 x.start ++ le 4 x.length ++ le 4 x.count ++ zeros 4

/-- Size of the memories that a general unit may scan (R382, Table 1.5). -/
def scanSize : Nat → Nat
  | 3 => 589824 | 4 => 262144 | 5 => 524288 | 10 => 131072 | 11 => 8192 | 12 => 2097152 | _ => 0

/-- Width of an algorithm's register in bits. -/
def algBits : Nat → Nat
  | 0 => 16 | 3 => 64 | _ => 32

/-- The checks of a written context block, at byte 16 of the payload.
DEDUCED, unsafe (log 107). -/
def unitWriteChecks (p : List Byte) : List (Bool × Nat × Nat) :=
  let mode := u8 p 17
  let src := u8 p 20
  let badSource := (mode == 1 && !(src < 32 || (0x40 ≤ src && src < 0x44))) || (mode == 2 && scanSize src == 0)
  let size := scanSize src
  let scan := mode == 2
  [chk (3 < mode) 17, chk (3 < u8 p 18) 18, chk badSource 20, rsvd p 21 3, chk (2 ^ algBits (u8 p 18) ≤ u64 p 24) 24,
   chk (scan && (u32 p 32 % 16 != 0 || size < u32 p 32 + 16)) 32,
   chk (scan && (u32 p 36 % 16 != 0 || u32 p 36 < 16 || size < u32 p 32 + u32 p 36)) 36, rsvd p 44 4]

/-- Does a CHECK_UNIT write? -/
def unitWrites (p : List Byte) : Bool := bit (u8 p 1) 0

def checkUnitInfo : OpInfo :=
  { code := 0x0A05, lenMin := 1, lenMax := 3, unseqOk := fun p => !unitWrites p,
    implied := fun p => some (if unitWrites p then 3 else 1),
    fields := fun c s => let p := c.payload
      let u := u8 p 0
      let running := (s.unit u).mode == 1 || (s.unit u).mode == 2
      firstFail ([chk (23 < u) 0, rsvdBits p 1 1, rsvd p 2 14] ++
        if unitWrites p then unitWriteChecks p ++ [locked3 (u < 20 || running)] else []) }

def checkUnitEffect (c : Cmd) (s : State) : State :=
  let p := c.payload
  let u := u8 p 0
  let s := if unitWrites p then
      s.onUnit u fun _ =>
        { mode := u8 p 17, alg := u8 p 18, done := false, memUe := false, source := u8 p 20, running := u64 p 24,
          start := u32 p 32, length := u32 p 36, count := 0 }
    else s
  s.finish 0x0A05 c stOk 0 (s.unit u).count (s.unitBlock u)

/-- DEDUCED, safe (log 108). -/
def execCheckUnitRead (c : Cmd) (s : State) : Result := .next (s.run checkUnitInfo c (checkUnitEffect c))
/-- DEDUCED, safe (log 108). -/
def execCheckUnitWrite (c : Cmd) (s : State) : Result := .next (s.run checkUnitInfo c (checkUnitEffect c))

/-! ## MEMORY_STATUS -/

def memoryStatusInfo : OpInfo :=
  { code := 0x0A04, lenMin := 1, lenMax := 1, unseqOk := fun p => u8 p 4 == 0,
    fields := fun c _ => let p := c.payload
      firstFail [chk (u8 p 0 == 0 || 12 < u8 p 0) 0, rsvd p 1 1, chk (regionCount (u8 p 0) ≤ u16 p 2) 2, rsvdBits p 4 1,
                 rsvd p 5 11] }

def memoryStatusEffect (c : Cmd) (s : State) : State :=
  let p := c.payload
  let s := if u8 p 4 = 1 then s.onRegion (u8 p 0) (u16 p 2) fun r => { r with ueSeen := false } else s
  let r := s.memRegion (u8 p 0) (u16 p 2)
  s.finish 0x0A04 c stOk 0 r.ue r.bytes

def execMemoryStatus (c : Cmd) (s : State) : Result := .next (s.run memoryStatusInfo c (memoryStatusEffect c))

end Sys2Proof.Machine
end

