-- ==== Sys2Proof/Machine/Health.lean ====
section
/-!
DEFINITION. What the device reports of itself: the time-base, fabric and engine status blocks (Tables 4.6b, 10.9, 10.10 and
12.6), the health record (R444, Tables 17.7 to 17.11) with its opcodes, and the tile temperature (R438).
-/
namespace Sys2Proof.Machine

/-! ## TIMEBASE_STATUS (Table 4.6b) -/

def TimeState.code : TimeState → Nat
  | .free => 0
  | .acquire => 1
  | .locked => 2
  | .holdover => 3

def State.timebaseBlock (s : State) : List Byte :=
  let c := s.clk
  le 8 c.tickCount ++ le 10 (c.devTime / 2 ^ 32) ++ le 1 c.state.code ++
  le 1 (flagsOf [c.timeValid, c.pllLocked, c.degraded, c.xoStopSeen, c.stepped, c.retrimPending]) ++ le 2 c.xoTrim ++
  le 2 c.unlockCount ++ leInt 4 c.freqErr ++ leInt 4 c.ptpOffset ++
  le 5 (flagsOf ((c.lanes.take 40).map fun l => l.state == .stale)) ++ zeros 3 ++ le 4 c.calHeldTotal ++
  le 4 c.prestartTotal ++ le 4 c.substepTotal ++ le 4 c.t0NotMeasured ++ le 4 c.coarseOvfTotal ++ le 4 c.windowCutTotal

def timebaseStatusInfo : OpInfo := { code := 0x0A02, lenMin := 0, lenMax := 0, unseqOk := fun _ => true }

def timebaseStatusEffect (c : Cmd) (s : State) : State := s.finish 0x0A02 c stOk 0 s.clk.state.code s.timebaseBlock

def execTimebaseStatus (c : Cmd) (s : State) : Result := .next (s.run timebaseStatusInfo c (timebaseStatusEffect c))

/-! ## Engine, tile and rejection blocks -/

/-- ENGINE_STATE (Table 10.9). -/
def State.engineState (g : Nat) (s : State) : Nat :=
  let e := s.engine g
  if e.outOfService || s.power.repair.badEngine.contains g then 5
  else if (s.logicalOf g).isNone then 4
  else if !s.awake (.engine g) then 0
  else if e.job.isSome then 3
  else if e.assigned || !e.leaving.isEmpty then 2 else 1

/-- The view that an engine serves. -/
def Engine.serves (e : Engine) : Option Nat := if e.leaving.isEmpty then (if e.assigned then some e.view else none) else e.leaving.head?

def State.engineBlock (g : Nat) (s : State) : List Byte :=
  let e := s.engine g
  let retiring := e.serves.any fun v => s.sets.retiring.contains v
  le 1 g ++ le 1 ((s.logicalOf g).getD 0xFF) ++ le 1 (s.engineState g) ++ le 1 (flagsOf [e.fault, retiring]) ++
  le 4 (e.serves.getD 0) ++ le 4 e.chains ++ le 4 e.abandoned ++ le 2 e.timeLast ++ le 2 e.timeMax ++
  le 4 e.eccUncorrected ++ le 4 e.kernelFaults ++ zeros 4

/-- Healthy unbound physical engines of a tile. -/
def State.tileSpares (t : Nat) (s : State) : Nat := ((List.range 18).filter fun k => s.engineSpare (18 * t + k)).length

/-- The tile fabric status block (Table 10.10). -/
def State.tileBlock (t : Nat) (s : State) : List Byte :=
  let x := s.tile t
  let p := s.pace t
  let held := ((List.range 18).filter fun k => ((s.engine (18 * t + k)).serves).isSome).length
  let overflow := ((List.range 24).map fun i => (s.channel (24 * t + i)).overflowTotal).foldl (satAdd 32) 0
  le 1 t ++ le 1 (flagsOf [x.chainAbandonedSeen, x.overflowSeen, x.droppedSeen, p.mv == 850]) ++ le 2 p.mv ++ le 2 p.pace ++
  le 2 p.paceFull ++ le 1 (min 16 held) ++ le 1 (s.tileSpares t) ++ zeros 2 ++ le 4 x.histograms ++ le 4 x.abandoned ++
  le 4 x.dropped ++ le 4 overflow ++ le 4 x.eccCorrected ++ le 4 x.eccUncorrected ++ le 2 x.queueMax ++
  le 2 x.latencyMax ++ zeros 24

/-- TRK_STATE. -/
def TrackerState.code : TrackerState → Nat
  | .idle => 0
  | .seeded => 1
  | .locked => 2
  | .lockedNoBlank => 3
  | .own => 4

def State.trackerEntry (t : Nat) (k : Tracker) (s : State) : List Byte :=
  let half := if k.st == .locked then ((s.governing t).map fun p => k.half p).getD 0 else 0
  le 1 k.st.code ++ le 1 k.missed ++ le 2 (min 65535 half) ++ le 8 k.period

/-- The tile rejection status block (Table 12.6). -/
def State.rejectionBlock (t : Nat) (s : State) : List Byte :=
  let r := s.rejection t
  le 1 t ++ le 1 (flagsOf [r.trackers.any (·.st == .locked), r.budgetLimited, r.ownRejected, r.tapOverrun]) ++ le 1 r.weather ++
  le 1 r.fogFraction ++ le 2 r.precipIndex ++ le 1 r.snowShare ++ zeros 1 ++ le 4 r.blankedTotal ++ le 4 r.droppedTotal ++
  ((r.trackers.take 4).map fun k => s.trackerEntry t k).flatten

def fabricStatusInfo : OpInfo :=
  { code := 0x0A03, lenMin := 1, lenMax := 1, unseqOk := unseqIf0 2,
    fields := fun c _ => let p := c.payload
      firstFail [chk (7 < u8 p 0) 0, chk (1 < u8 p 1) 1, maskChk p 2 0x3F, rsvd p 4 12] }

/-- CLEAR_MASK: bits 2 to 0 clear TILE_FLAGS, bits 5 to 3 REJ_FLAGS. -/
def State.clearFabric (t m : Nat) (s : State) : State :=
  (s.onTile t fun x =>
    { x with chainAbandonedSeen := x.chainAbandonedSeen && !bit m 0, overflowSeen := x.overflowSeen && !bit m 1,
             droppedSeen := x.droppedSeen && !bit m 2 }).onRejection t fun r =>
    { r with budgetLimited := r.budgetLimited && !bit m 3, ownRejected := r.ownRejected && !bit m 4,
             tapOverrun := r.tapOverrun && !bit m 5 }

def fabricStatusEffect (c : Cmd) (s : State) : State :=
  let t := u8 c.payload 0
  let s := s.clearFabric t (u16 c.payload 2)
  let d := if u8 c.payload 1 = 0 then s.tileBlock t ++ s.rejectionBlock t
           else ((List.range 18).map fun k => s.engineBlock (18 * t + k)).flatten
  s.finish 0x0A03 c stOk 0 (s.tileSpares t) d

def execFabricStatus (c : Cmd) (s : State) : Result := .next (s.run fabricStatusInfo c (fabricStatusEffect c))

/-! ## The health record (Tables 17.7 to 17.11) -/

def StartPhase.code : StartPhase → Nat
  | .cold => 0
  | .ready => 1
  | .recovery => 2
  | .warm => 3
  | .pavane => 4

def PavaneCause.code : PavaneCause → Nat
  | .none => 0
  | .pfail => 1
  | .xo => 2
  | .supervisor => 3
  | .escalation => 4
  | .host => 5

/-- HEALTH_FLAGS (Table 17.11). -/
def State.healthFlags (s : State) : Nat :=
  let h := s.health
  flagsOf [h.takeoverSeen, s.power.standbyOut || s.power.failedPair, s.journalDegraded, h.journalLost, h.bankDiverged,
           h.nvmDiverged, s.emission.key.isSome, !s.emission.tableValid, s.aux.sectors.any (·.dirty),
           s.aux.sectors.any (·.blocked), h.replanHeld, s.sparesLow, s.nvm.records.any (·.mirrorPending), h.filterTestFail]

/-- How many of a list satisfy a condition. -/
def countIf {α : Type} (p : α → Bool) (l : List α) : Nat := (l.filter p).length

/-- The health summary (Table 17.8). -/
def State.healthSummary (s : State) : List Byte :=
  let h := s.health
  let temps := (List.range 8).map fun t =>
    if s.fabric.tileTempValid.getD t false then leInt 2 ((s.fabric.tileTemp.getD t none).getD 0) else le 2 0x8000
  fit 256 (le 2 1 ++ le 2 s.sets.epoch ++ le 4 h.recordNumber ++ le 8 s.stamp ++ le 8 Config.serial ++ le 1 s.power.phase.code ++
    le 1 (flagsOf [s.power.supervisorB, s.standbyReady && !s.power.takeover]) ++ le 1 s.power.pavaneCause.code ++
    le 1 (ltClass s.emission.table) ++ le 2 s.healthFlags ++ le 1 s.inhibitLive ++ le 1 s.supervisorSrc ++ temps.flatten ++
    le 1 s.feSparesFree ++ le 1 s.engineSparesFree ++ le 1 s.coreSparesFree ++ le 1 h.queue.length ++ le 2 s.rowsFree ++
    le 1 (countIf (·.st == .outOfService) s.returns.channels) ++ le 1 (countIf (·.faulted) s.emission.emitters) ++
    le 1 (countIf (·.isNone) s.power.repair.engineFor) ++ le 1 s.angle.lock.code ++
    le 1 ((s.loop 0).st.code + 4 * (s.loop 1).st.code) ++ zeros 1 ++ le 4 s.power.takeovers ++
    le 4 s.emission.unplayableTotal ++ le 4 s.host.journal.fullDiscard ++ le 4 s.nvm.repairedTotal ++ le 4 h.repairsTotal ++
    le 4 h.monitorValid ++ le 2 s.auxFlags ++ le 2 (flagsOf (s.aux.sectors.map (·.blocked))) ++ leInt 4 s.angle.pubSpeed ++
    le 4 s.fabric.startId)

/-- The region of a row with the highest UE_TOTAL, then CE_TOTAL, the first of equals. -/
def State.worstRegion (row : Nat) (s : State) : MemRegion :=
  (List.range (regionCount row)).foldl (fun w i =>
    let r := s.memRegion row i
    if w.ue < r.ue || (w.ue == r.ue && w.ce < r.ce) then r else w) (s.memRegion row 0)

/-- Is an activity with this code running on a target? -/
def State.testing (code target : Nat) (s : State) : Bool :=
  s.health.running.any fun a => a.code == code && a.target == target

/-- The byte of a front end (Table 17.7).
DEDUCED, unsafe (log 113). -/
def State.feByte (f : Nat) (s : State) : Byte :=
  let ch := s.power.repair.feFor.findIdx? (· == f)
  let st := if s.power.repair.badFe.contains f then 2
    else if s.testing 0x0A f then 3
    else if ch.isSome then 0
    else if 24 ≤ f % 26 then 1 else 4
  let input := ch.any fun c => let x := s.channel c; x.overload || x.longHigh || x.flooded || x.silent
  BitVec.ofNat 8 (st + flag input 3)

/-- CORE_STATE of a core, or of an output without one. A core in its hold state serves its output (R28).
DEDUCED, unsafe (log 113). -/
def State.coreState (core : Option Nat) (s : State) : Nat :=
  match core with
  | none => 2
  | some k =>
    if s.power.repair.badCore.contains k then 2
    else if s.testing 0x0C k || (s.health.running.any fun a => a.code == 0x03 && s.outputOf k == some a.target) then 3
    else if (s.outputOf k).isNone then 1
    else 0

/-- Entries 0 to 15 of Table 17.10. -/
def State.emitterEntry (e : Nat) (s : State) : List Byte :=
  let core := s.power.repair.coreFor.getD e none
  let m := s.health.eff.getD e { chargeSum := 0, slotSum := 0, shots := 0, baseline := none, eff := 0 }
  le 1 (core.getD 0xFF) ++ le 1 (s.coreState core) ++ le 1 (flagsOf [(s.emitter e).faulted, s.health.extShort.getD e false]) ++
  zeros 1 ++ le 2 (if m.baseline.isNone then 0 else m.eff) ++ leInt 2 (s.t0Avg e) ++ le 4 m.shots ++ le 4 (s.health.shortTotal.getD e 0)

/-- Entries 16 and 17. -/
def State.spareEntry (k : Nat) (s : State) : List Byte :=
  le 1 ((s.outputOf k).getD 0xFF) ++ le 1 (s.coreState (some k)) ++ zeros 14

/-- The health record of 7168 bytes.
DEDUCED, unsafe (log 113). -/
def State.healthRecord (s : State) : List Byte :=
  fit 7168 (s.healthSummary ++ fit 64 s.timebaseBlock ++ fit 256 s.marginsBlock ++
    ((List.range 8).map fun t => fit 64 (s.tileBlock t)).flatten ++ ((List.range 8).map fun t => fit 64 (s.rejectionBlock t)).flatten ++
    ((List.range 144).map fun g => fit 32 (s.engineBlock g)).flatten ++
    ((List.range 12).map fun r => fit 32 (s.worstRegion (r + 1)).bytes).flatten ++ (List.range 208).map (fun f => s.feByte f) ++
    ((List.range 16).map fun e => fit 16 (s.emitterEntry e)).flatten ++ s.spareEntry 16 ++ s.spareEntry 17)

/-- Takes a snapshot: the next RECORD_NUMBER, and the record. -/
def State.snapshotHealth (s : State) : State :=
  let s := s.onHealth fun h => { h with recordNumber := wrap 32 (h.recordNumber + 1) }
  let r := s.healthRecord
  s.onHealth fun h => { h with snapshot := r }

/-! ## HEALTH_READ -/

/-- The sticky positions of HEALTH_FLAGS. -/
def healthSticky : Nat := 0x2439

def healthReadInfo : OpInfo :=
  { code := 0x0A01, lenMin := 1, lenMax := 1, unseqOk := unseqIf0 2,
    fields := fun c _ => let p := c.payload
      firstFail [chk (6 < u8 p 0) 0, chk (u8 p 1 == 0 || 3 < u8 p 1 || 7 < u8 p 0 + u8 p 1) 1, maskChk p 2 healthSticky,
                 rsvd p 4 12] }

def State.clearHealth (m : Nat) (s : State) : State :=
  s.onHealth fun h =>
    { h with takeoverSeen := h.takeoverSeen && !bit m 0, journalLost := h.journalLost && !bit m 3,
             bankDiverged := h.bankDiverged && !bit m 4, nvmDiverged := h.nvmDiverged && !bit m 5,
             replanHeld := h.replanHeld && !bit m 10, filterTestFail := h.filterTestFail && !bit m 13 }

/-- DEDUCED, unsafe (log 113). -/
def healthReadEffect (c : Cmd) (s : State) : State :=
  let p := c.payload
  let s := (s.clearHealth (u16 p 2)).snapshotHealth
  s.finish 0x0A01 c stOk 0 s.health.recordNumber (slice s.health.snapshot (1024 * u8 p 0) (1024 * u8 p 1))

def execHealthRead (c : Cmd) (s : State) : Result := .next (s.run healthReadInfo c (healthReadEffect c))

/-! ## HEALTH_PUBLISH -/

/-- The fold block of a health telegram (Table 15.4). -/
def State.healthFold (counter : Nat) (s : State) : List Byte :=
  addr16 (tcHealthDest s.net.trdp) ++ le 2 17224 ++ [0xFF, 0] ++ le 4 counter ++ le 8 Config.serial

/-- Sends one segment of the snapshot. -/
def State.sendSegment (s : State) (k : Nat) : State :=
  let t := s.net.trdp
  let body := le 4 s.health.recordNumber ++ le 1 k ++ le 1 7 ++ zeros 10 ++ slice s.health.snapshot (1024 * k) 1024
  let covered := s.healthFold (s.pdCounter (tcHealthCom t)) ++ body
  (s.unitItem 13 covered).sendPd .health (tcHealthCom t) (tcHealthDest t) (body ++ le 4 (crc32c covered))

/-- A snapshot, and its seven telegrams in segment order. -/
def State.publishHealth (s : State) : State := (List.range 7).foldl State.sendSegment s.snapshotHealth

/-- Are health telegrams enabled, with a destination (R366)? -/
def State.healthEnabled (s : State) : Bool := tcHealth s.net.trdp && !zeroAt (tcHealthDest s.net.trdp) 0 4

/-- HEALTH_PUBLISH: every HEALTH_PERIOD.
DEDUCED, unsafe (log 113). -/
def healthPublish (s : State) : State :=
  if !s.power.running || !s.healthEnabled || !s.since s.net.lastHealth (ms (tcPeriod s.net.trdp)) then s else
  let now := s.now
  (s.onNet fun n => { n with lastHealth := now }).publishHealth

def execHealthPublish (s : State) : Result := .next (healthPublish s)

/-! ## TILE_TEMP_READ (R438) -/

/-- `temp` in 0.01 °C; an invalid reading leaves the last valid one. -/
def tileTempRead (t : Nat) (temp : Int) (selfCheck : Bool) (s : State) : State :=
  let ok := selfCheck && decide (-4500 ≤ temp) && decide (temp ≤ 13500)
  s.onFabric fun b =>
    { b with tileTemp := if ok then b.tileTemp.set t (some temp) else b.tileTemp,
             tileTempValid := b.tileTempValid.set t ok }

def execTileTempRead (tile : Nat) (temp : Int) (selfCheck : Bool) (s : State) : Result :=
  .next (tileTempRead tile temp selfCheck s)

end Sys2Proof.Machine
end

