-- ==== Sys2Proof/Machine/Replan.lean ====
section
/-!
DEFINITION. The ageing monitors and the margin re-plan (R434 to R439, Tables 17.2 and 17.3).
-/
namespace Sys2Proof.Machine

/-! ## Reading the monitors -/

/-- REPLAN_PERIOD in hours.
DEDUCED, unsafe (log 114). -/
def State.replanHours (s : State) : Nat := u16 s.health.config 0

/-- Slope of the least-squares line through (time, value), per unit of time; 0 where the times do not spread. -/
def slope (l : List (Rat × Rat)) : Rat :=
  let k : Rat := (l.length : Nat)
  let sx := (l.map (·.1)).foldl (· + ·) 0
  let sy := (l.map (·.2)).foldl (· + ·) 0
  let sxx := (l.map fun p => p.1 * p.1).foldl (· + ·) 0
  let sxy := (l.map fun p => p.1 * p.2).foldl (· + ·) 0
  let d := k * sxx - sx * sx
  if d = 0 then 0 else (k * sxy - sx * sy) / d

/-- Pace history with this re-plan's figures: the last eight re-plans. -/
def State.paceHistory (s : State) : List (Nat × List Nat) :=
  let l := s.health.paceHistory ++ [(s.now, s.power.tiles.map (·.paceFull))]
  l.drop (l.length - 8)

/-- S_t in handshakes/µs per hour. -/
def paceSlope (t : Nat) (l : List (Nat × List Nat)) : Rat :=
  slope (l.map fun x => (mkRat x.1 (sec 3600), ((x.2.getD t 0 : Nat) : Rat)))

/-- SD_MARGIN of a slope. -/
def sdMarginOf (hours : Nat) (sl : Rat) : Nat := min 128 (roundRat (max 0 (-sl * ((2 * hours : Nat) : Rat)))).toNat

/-- T0_CHARGE over slot charge, once 65 536 shots were measured (R435).
DEDUCED, unsafe (log 74). -/
def EffMonitor.ratio (m : EffMonitor) : Option Rat :=
  if m.shots < 65536 || m.slotSum = 0 then none else some (mkRat m.chargeSum m.slotSum)

/-- EFF_e; none where the monitor or its baseline is not there.
DEDUCED, unsafe (log 74). -/
def EffMonitor.value (m : EffMonitor) : Option Nat :=
  match m.ratio, m.baseline with
  | some r, some b => if b = 0 then none else some (roundRat (4096 * r / b)).toNat
  | _, _ => none

/-- Does this re-plan take the baseline (R434)? -/
def EffMonitor.startsNow (m : EffMonitor) : Bool := m.ratio.isSome && m.baseline.isNone

/-- The middle of a histogram: the least value that half of the counts do not exceed.
DEDUCED, unsafe (log 114). -/
def histMedian (l : List Nat) : Nat :=
  let total := l.foldl (· + ·) 0
  ((List.range l.length).find? fun k => total ≤ 2 * (l.take (k + 1)).foldl (· + ·) 0).getD 0

/-- SPE_TOT, once 10^6 edges qualified (R436). -/
def SipmMonitor.speTot (m : SipmMonitor) : Option Nat := if m.edges < 1000000 then none else some (histMedian m.tot)

/-- G_c; none where the monitor or its baseline is not there. -/
def SipmMonitor.value (m : SipmMonitor) : Option Nat :=
  match m.speTot, m.baseline with
  | some t, some b => if b = 0 then none else some (roundRat (mkRat (4096 * t) b)).toNat
  | _, _ => none

/-- The median of a list, the lower of two in the middle. -/
def listMedian (l : List Nat) : Nat := (sortBy (fun a b => decide (a < b)) l).getD ((l.length - 1) / 2) 0

/-! ## DNL_FE and OFFSET_FE (R437) -/

def DnlMonitor.total (m : DnlMonitor) : Nat := m.counts.foldl (· + ·) 0
def DnlMonitor.isValid (m : DnlMonitor) : Bool := 2 ^ 20 ≤ m.total

/-- The corrections that the counts give. -/
def DnlMonitor.corrections (old : Int) (m : DnlMonitor) : Int × List Int :=
  let dnl := (List.range 64).map fun k =>
    let cum := (m.counts.take k).foldl (· + ·) 0
    let centre : Rat := 64 * (((cum : Nat) : Rat) + mkRat (m.counts.getD k 0) 2) / ((m.total : Nat) : Rat)
    clampInt (-32) 31 (roundRat (16 * (centre - (((k : Nat) : Rat) + 1 / 2))))
  let offset := if m.refs = 0 then old else clampInt (-256) 256 (roundRat (mkRat ((m.q1Fe : Int) - m.q1Lane) m.refs))
  (offset, dnl)

/-! ## MONITOR_VALID -/

/-- Bits 1 to 10: the rows of Table 17.2.
DEDUCED, unsafe (log 114). -/
def State.monitorsValid (s : State) : Nat :=
  let h := s.health
  let c := s.clk
  let locked := c.state == .locked && decide (c.lockedSince ≤ h.lastReplan.getD c.lockedSince)
  let closed (n rate : Nat) : Bool := (s.loop n).st == .closed && 60 * rate ≤ (s.loop n).closedFor
  2 * flagsOf [2 ≤ s.paceHistory.length, true, locked, h.eff.any (·.value.isSome), h.sipm.any (·.value.isSome),
               h.dnl.any DnlMonitor.isValid, true, s.angle.lock == .locked, closed 0 10000 || closed 1 40000,
               s.fabric.tileTempValid.any id]

/-! ## Margins (Table 17.3) -/

/-- HEADROOM of EFF_MAX, rising in full and falling by at most 8. -/
def headroomOf (old effMax : Nat) : Nat :=
  let want := if effMax ≤ 4096 then 0 else min 128 (ceilDiv (256 * (effMax - 4096)) effMax)
  if want < old then max want (old - 8) else want

/-- OV_TRIM of G_med. -/
def ovTrimOf (vov : Nat) (old : Int) (gMed : Nat) : Int :=
  let want := roundRat (mkRat ((vov + old) * 4096) (pos gMed) - ((vov : Nat) : Rat))
  clampInt (-50) 50 (clampInt (old - 5) (old + 5) want)

/-- THR_OFFSET of a channel from G_c and the two overvoltages. -/
def thrOffsetOf (base g vov : Nat) (ovOld ovNew old : Int) : Int :=
  let d := (vov + ovOld).toNat
  let r : Rat := mkRat (g * (vov + ovNew)) (4096 * pos d)
  clampInt (-16) 16 (clampInt (old - 4) (old + 4) (roundRat (((base : Nat) : Rat) * (r - 1))))

/-- THR_OFFSET of all channels. -/
def State.newThrOffsets (ovNew : Int) (s : State) : List Int :=
  let h := s.health
  h.thrOffset.zipIdx.map fun x =>
    match (h.sipm[x.2 / 8]?).bind SipmMonitor.value with
    | some g => thrOffsetOf (rxBase (s.sets.active.rxOf x.2)) g (u16 s.returns.bias.image 8) h.ovTrim ovNew x.1
    | none => x.1

/-! ## The re-plan (R439) -/

/-- The margins are computed and applied at one instant.
DEDUCED, unsafe (log 114). -/
def State.applyMargins (s : State) : State :=
  let h := s.health
  let hist := s.paceHistory
  let effs := h.eff.filterMap EffMonitor.value
  let effMax := effs.foldl max 0
  let gs := h.sipm.filterMap SipmMonitor.value
  let gMed := if gs.isEmpty then 0 else listMedian gs
  let ovNew := if gs.isEmpty then h.ovTrim else ovTrimOf (u16 s.returns.bias.image 8) h.ovTrim gMed
  let thr := s.newThrOffsets ovNew
  let sd := if hist.length < 2 then h.sdMargin else (List.range 8).map fun t => sdMarginOf s.replanHours (paceSlope t hist)
  let valid := s.monitorsValid
  let s := s.onEmission fun m =>
    { m with headroom := if effs.isEmpty then (if h.eff.any EffMonitor.startsNow then 0 else m.headroom)
                         else headroomOf m.headroom effMax }
  let stamp := s.stamp
  let now := s.now
  s.onHealth fun h =>
    { h with sdMargin := sd, ovTrim := ovNew, thrOffset := thr, paceHistory := hist, effMax := effMax, gMed := gMed,
             monitorValid := valid, replanHeld := h.replanHeld || valid != 0x7FE, replanCount := satInc 32 h.replanCount,
             replanTime := stamp, lastReplan := some now }

/-- New corrections wait for the next cell of the channels that the views name; other front ends take them at once. -/
def State.applyDnl (s : State) : State :=
  let due := (List.range 208).filter fun f => (s.health.dnl[f]?).any DnlMonitor.isValid
  let new := due.filterMap fun f => (s.health.dnl[f]?).map fun m => (f, m.corrections (s.fe f).offset)
  let s := s.onHealth fun h => { h with dnlPending := h.dnlPending.filter (fun x => !(due.contains x.1)) ++ new }
  let used (f : Nat) : Bool := (List.range 192).any fun ch => s.feOf ch == f && s.sets.active.namesChannel ch
  (due.filter fun f => !used f).foldl (fun s f => s.takeDnl f) s

/-- Baselines are taken, the results kept, and the counters start again (R434).
DEDUCED, unsafe (log 114). -/
def State.restartMonitors (s : State) : State :=
  let now := s.now
  s.onHealth fun h =>
    { h with
      eff := h.eff.map fun m =>
        { chargeSum := 0, slotSum := 0, shots := 0, baseline := m.baseline.orElse fun _ => m.ratio, eff := m.value.getD m.eff },
      sipm := h.sipm.map fun m =>
        { m with tot := List.replicate 64 0, edges := 0, dark := none, secondStart := now, secondEdges := 0, secondTime := 0,
                 baseline := m.baseline.orElse fun _ => m.speTot, gain := m.value.getD m.gain },
      dnl := h.dnl.map fun _ => { counts := List.replicate 64 0, q1Fe := 0, q1Lane := 0, refs := 0 },
      lanes := h.lanes.map fun _ => { q1Sum := 0, spanSum := 0, accepts := 0, helds := 0 } }

/-- A margin re-plan: it measures PACE_FULL (R190) and takes the margins anew.
DEDUCED, unsafe (log 114). -/
def State.replan (s : State) : State :=
  let changed := s.health.dnl.any DnlMonitor.isValid
  let s := (s.settleAll).measurePace.deliverPace.applyMargins.applyDnl.restartMonitors
  let s := (s.refreshSlots).refreshPlan
  let s := s.deviceStore 0x28
  let s := if changed then s.deviceStore recTimebase else s
  if s.healthEnabled then s.publishHealth else s

/-! ## REPLAN and REPLAN_PERIODIC -/

def replanInfo : OpInfo := { code := 0x0A07, lenMin := 0, lenMax := 0 }

def replanEffect (c : Cmd) (s : State) : State :=
  let s := s.replan
  s.done 0x0A07 c s.health.monitorValid

def execReplan (c : Cmd) (s : State) : Result := .next (s.run replanInfo c (replanEffect c))

/-- Is a re-plan due by itself? -/
def State.replanDue (s : State) : Bool :=
  let span := s.replanHours * 3600
  match s.health.lastReplan with
  | some t => s.since t (sec span)
  | none =>
    !s.recordPresent 0x28 || s.health.replanCount = 0 || s.stamp < s.health.replanTime ||
    s.health.replanTime + span * 2 ^ 32 ≤ s.stamp

/-- REPLAN_PERIODIC. -/
def replanPeriodic (s : State) : State :=
  if s.power.running && s.power.phase == .ready && s.replanDue then s.replan else s

def execReplanPeriodic (s : State) : Result := .next (replanPeriodic s)

end Sys2Proof.Machine
end

