-- ==== Sys2Proof/Machine/Maintain.lean ====
section
/-!
DEFINITION. Built-in tests (R432, R433), substitutions (R259, R440 to R442), the maintenance arbiter's grants (R443), and the
opcodes SELF_TEST, REPAIR, ARBITER_STATUS and HEALTH_CONFIG (R446).
-/
namespace Sys2Proof.Machine

/-! ## Answering an activity's commands -/

/-- Every command of an activity completes with this status, DETAIL and RESULT. -/
def State.answer (st det result : Nat) (cmds : List (Nat × Cmd)) (s : State) : State :=
  cmds.foldl (fun s x => s.finish x.1 x.2 st det result []) s

/-- A substitution is done: it is counted, its map is stored, and its commands learn what serves now (R441). -/
def State.repaired (result : Nat) (a : Activity) (s : State) : State :=
  ((s.onHealth fun h => { h with repairsTotal := satInc 32 h.repairsTotal }).storeMap).answer stOk 0 result a.cmds

/-- The running activity of a scope. -/
def State.runningIn (scope : Nat) (s : State) : Option Activity := s.health.running.find? (·.scope == scope)

/-! ## Front ends (R259) -/

/-- The next spare of the tile is prepared for a channel; without one the channel stays out of service (R442). -/
def State.prepareSpare (a : Activity) (s : State) : State :=
  match s.nextSpareFe (a.target / 24) with
  | none => (s.endScope a.scope).answer stFaultRepair 1 0 a.cmds
  | some fe =>
    let s := (s.onChannel a.target fun c => { c with pendingSlot := some fe }).refreshDomains
    if s.awake (.cluster (clusterOf fe)) then s.warmLane (laneOfFe fe) else s

/-- Is a blanking due on a channel whose cell has no window there yet? -/
def State.newCellDue (ch : Nat) (s : State) : Bool :=
  (List.range 16).any fun e => (s.dueWindow e).any fun d =>
    (match s.viewIn d.epoch d.view with
     | some v => (v.entries.getD d.entry (fireEntry [] 0)).group.testBit ch
     | none => false) && !((s.channel ch).acc.any (·.holds d.view d.cell d.epoch))

/-- The input steering of a channel switches to a front end. -/
def State.steer (ch fe : Nat) (s : State) : State :=
  let s := s.onRepair fun r => { r with feFor := r.feFor.set ch fe }
  let back (st : RxState) : RxState := if st == .outOfService then .standby else st
  let s := s.onChannel ch fun c => { c with pendingSlot := none, threshFails := 0, silentWindows := 0, st := back c.st }
  ((s.takeDnl fe).refreshDomains).refreshChannels

/-- FRONT_END_SWITCH: in the blanking of the first window of the next cell of a view that names the channel; at once where
none does. -/
def frontEndSwitch (ch : Nat) (s : State) : State :=
  match (s.channel ch).pendingSlot with
  | none => s
  | some fe =>
    if !s.laneReady (laneOfFe fe) || (s.sets.active.namesChannel ch && !s.newCellDue ch) then s else
    let s := s.steer ch fe
    match s.health.running.find? fun a => a.code == 0x01 && a.target == ch with
    | some a => (s.endScope a.scope).repaired fe a
    | none => s

def execFrontEndSwitch (channel : Nat) (s : State) : Result := .next (frontEndSwitch channel s)

/-- A spare whose lane failed its warm-up is marked failed, and the next one is prepared.
DEDUCED, unsafe (log 110). -/
def State.spareFailed (a : Activity) (s : State) : State :=
  match (s.channel a.target).pendingSlot with
  | none => s
  | some fe =>
    if !(s.lane (laneOfFe fe)).failed then s else
    ((s.onRepair fun r => { r with badFe := r.badFe ++ [fe] }).onChannel a.target fun c =>
      { c with pendingSlot := none }).prepareSpare a

/-! ## Engines, cores and rows (Table 17.4) -/

/-- Physical engine `h` takes what `g` served. -/
def State.bindEngine (e h : Nat) (old : Option Nat) (s : State) : State :=
  let was := (old.map fun g => s.engine g).getD Engine.reset
  let s := s.onRepair fun r => { r with engineFor := r.engineFor.set e (some h) }
  let s := s.onEngine h fun x => { x with view := was.view, assigned := was.assigned, leaving := was.leaving }
  let s := match old with
    | some g => s.onEngine g fun x => { x with assigned := false, leaving := [], view := 0 }
    | none => s
  s.refreshDomains

/-- Activity 0x02 ends. -/
def State.endEngineRepair (a : Activity) (s : State) : State :=
  let e := a.target
  let old := s.physOf e
  let s := s.endScope a.scope
  match s.nextSpareEngine (e / 16) with
  | some g => (s.bindEngine e g old).repaired g a
  | none =>
    let bad := old.any fun g => s.power.repair.badEngine.contains g
    let s := if bad then s.onRepair fun r => { r with engineFor := r.engineFor.set e none } else s
    s.answer stFaultRepair 1 0 a.cmds

/-- A slot that waveform memory lost is restored from the record, or left EMPTY. -/
def State.restoreSlots (e : Nat) (s : State) : State :=
  (List.range 64).foldl (fun s n =>
    if (s.slot e n).st == .eccFailed then
      s.writeSlot e n ((s.inUseData (0x10 + e)).elim Slot.empty fun p => Slot.unpack p n)
    else s) s

/-- The spare core `k`, awake by then, is steered to output `e`, whose park code it takes over (R28, R215); where no view uses the output
it sleeps later into its hold state. -/
def State.steerCore (e k : Nat) (s : State) : State :=
  let s := s.restoreSlots e
  let s := s.onRepair fun r => { r with coreFor := r.coreFor.set e (some k) }
  s.refreshDomains.onEmitter e fun x => { x with short := false, faulted := false, out := x.out.awaken }

/-- The core of output `e` is marked failed. -/
def State.coreFailed (e : Nat) (s : State) : State :=
  match s.power.repair.coreFor.getD e none with
  | some k => s.onRepair fun r => { r with badCore := if r.badCore.contains k then r.badCore else r.badCore ++ [k] }
  | none => s

/-- Activity 0x03 ends: `row` 1 after SHORT, `row` 2 asked for by a command. A core that shows SHORT has run test 3, and `ok` says
whether it passed. A failed core's spare wakes first; without one the emitter leaves service (R442).
DEDUCED, unsafe (log 110). -/
def State.endCoreRepair (a : Activity) (ok : Bool) (s : State) : State :=
  let e := a.target
  let kept := a.row = 2 && !(s.emitter e).short
  if (a.row = 1 || (s.emitter e).short) && ok && !s.coreGone e then
    ((s.endScope a.scope).onHealth fun h => { h with extShort := h.extShort.set e true }).answer stFaultRepair 3 0 a.cmds
  else
    let s := if kept then s else s.coreFailed e
    match s.nextSpareCore e with
    | none => ((if kept then s else s.faultEmitter e).endScope a.scope).answer stFaultRepair 1 0 a.cmds
    | some k =>
      if !s.awake (.emitterDac k) then s.wakeDomain (.emitterDac k)
      else if !s.inGap e then s
      else ((s.endScope a.scope).steerCore e k).repaired k a

/-- Activity 0x04 ends: the row moves to the lowest free repair row; under RETEST, when `ok` it returns to service.
DEDUCED, unsafe (log 109). -/
def State.endRowRepair (a : Activity) (ok : Bool) (s : State) : State :=
  let s := s.endScope a.scope
  if a.retest then
    if ok then
      (s.onRepair fun r =>
        { r with sramRows := r.sramRows.filter fun x => !(x.1 == a.target && x.2.1 == a.row) }).answer stOk 0 a.target a.cmds
    else s.answer stFaultRepair 2 0 a.cmds
  else match s.freeRow a.target with
  | none => s.answer stFaultRepair 1 0 a.cmds
  | some r =>
    let s := s.onRepair fun m => { m with sramRows := m.sramRows ++ [(a.target, a.row, r)] }
    let s := s.onIntegrity fun k =>
      { k with corrected := k.corrected.filter fun c => !(c.row == 1 && c.region == a.target && c.block == a.row) }
    (s.onRegion 1 a.target fun x => { x with candidate := false }).repaired r a

/-- ACTIVITY_COMPLETE: the activity that holds a scope ends; stores and tests have events of their own.
DEDUCED, unsafe (log 110); DESIGN CHOICE, safe (log 119). -/
def activityComplete (scope : Nat) (ok : Bool) (s : State) : State :=
  match s.runningIn scope with
  | none => s
  | some a =>
    match a.code with
    | 0x01 => if ok then s else s.spareFailed a
    | 0x02 => s.endEngineRepair a
    | 0x03 => s.endCoreRepair a ok
    | 0x04 => s.endRowRepair a ok
    | 0x06 => if a.target = 1 then s.endScope scope else s
    | _ => s

def execActivityComplete (scope : Nat) (ok : Bool) (s : State) : Result := .next (activityComplete scope ok s)

/-! ## Tests -/

/-- Scope of a test on a target (Table 17.5): tests 1 to 4 of Table 17.1, and 5, the standby supervisor memory test. -/
def testScope (test target : Nat) : Nat :=
  match test with
  | 1 => target / 26
  | 2 => target / 18
  | 3 => scopeHalf (if target < 16 then target / 8 else target - 16)
  | 4 => scopeFilter
  | _ => scopeCommand

def Activity.test (test target : Nat) (cmds : List (Nat × Cmd)) : Activity :=
  Activity.plain (0x09 + test) (testScope test target) target 0 cmds

/-- Does a target serve, so that no test may take it (R432)? -/
def State.targetServes (test target : Nat) (s : State) : Bool :=
  match test with
  | 1 => s.power.repair.feFor.contains target || s.returns.channels.any fun c => c.pendingSlot == some target
  | 2 => s.power.repair.engineFor.contains (some target) || (s.engine target).job.isSome
  | 3 => s.power.repair.coreFor.contains (some target)
  | 4 => s.angle.lock != .noSignal || (s.loop 1).st == .closed
  | _ => s.standbyReloading

/-- Has a target failed already? -/
def State.targetBad (test target : Nat) (s : State) : Bool :=
  match test with
  | 1 => s.power.repair.badFe.contains target
  | 2 => s.power.repair.badEngine.contains target
  | 3 => s.power.repair.badCore.contains target
  | 4 => false
  | _ => s.power.standbyOut || s.power.failedPair

/-- Targets of a test. -/
def testTargets : Nat → Nat
  | 1 => 208 | 2 => 144 | 3 => 18 | _ => 1

/-- A target is marked failed, or returns to the spares. -/
def State.markTarget (test target : Nat) (bad : Bool) (s : State) : State :=
  let put (l : List Nat) : List Nat := if bad then (if l.contains target then l else l ++ [target]) else l.filter (· != target)
  match test with
  | 1 =>
    let s := s.onRepair fun r => { r with badFe := put r.badFe }
    match s.power.repair.feFor.findIdx? (· == target) with
    | some ch => if bad || (s.channel ch).st != .outOfService then s else s.steer ch target
    | none => s
  | 2 =>
    (s.onRepair fun r => { r with badEngine := put r.badEngine }).onEngine target fun e =>
      { e with fault := e.fault && bad, outOfService := bad }
  | _ => s.onRepair fun r => { r with badCore := put r.badCore }

/-- A test of the filter ends: its slots return from their test sources and settle again. -/
def State.endFilterTest (pass : Bool) (s : State) : State :=
  (if pass then s else s.onHealth fun h => { h with filterTestFail := true }).switchSources

/-- A run of a test is noted. -/
def State.noteTest (test target : Nat) (s : State) : State :=
  let now := s.now
  s.onHealth fun h =>
    { h with tests := h.tests.filter (fun r => !(r.test == test && r.target == target)) ++
        [{ test := test, target := target, at_ := now }] }

/-- TEST_COMPLETE: the test that holds a scope ends (R433). A standby pair that fails its memory test is out of service.
DEDUCED, unsafe (log 112). -/
def testComplete (scope : Nat) (pass : Bool) (s : State) : State :=
  match s.runningIn scope with
  | none => s
  | some a =>
    if a.code < 0x0A || 0x0E < a.code then s else
    let t := a.code - 0x09
    let s := (s.endScope scope).noteTest t a.target
    if t = 5 then (if pass then s else s.onPower fun p => { p with standbyOut := true })
    else if t = 4 then (s.endFilterTest pass).answer stOk 0 (if pass then 0 else 1) a.cmds
    else if a.retest then
      if pass then (s.markTarget t a.target false).answer stOk 0 a.target a.cmds
      else (s.markTarget t a.target true).answer stFaultRepair 2 0 a.cmds
    else (if pass then s else s.markTarget t a.target true).answer stOk 0 (if pass then 0 else 1) a.cmds

def execTestComplete (scope : Nat) (pass : Bool) (s : State) : Result := .next (testComplete scope pass s)

/-- TEST_PERIOD in minutes. -/
def State.testPeriod (s : State) : Nat := u16 s.health.config 2

/-- SELF_TEST_PERIODIC: a spare, or the memory of the standby pair, is tested again TEST_PERIOD after its last run; a full queue lets the
period pass.
DEDUCED, unsafe (log 112). -/
def selfTestPeriodic (test target : Nat) (s : State) : State :=
  let due := (s.health.tests.find? fun r => r.test == test && r.target == target).all fun r =>
    s.since r.at_ (sec (60 * s.testPeriod))
  if test = 0 || test = 4 || 5 < test || testTargets test ≤ target || !s.power.running || s.power.phase != .ready || !due ||
     s.targetServes test target || s.targetBad test target || s.underway (0x09 + test) target then s
  else if s.arbiterFull 3 then s.noteTest test target
  else s.request (Activity.test test target [])

def execSelfTestPeriodic (test target : Nat) (s : State) : Result := .next (selfTestPeriodic test target s)

/-! ## ARBITER_GRANT (R443) -/

/-- The waiting activities in the order of their classes, and of arrival within one. -/
def arbiterOrder (l : List Activity) : List Activity := ([0, 1, 2, 3].map fun k => l.filter (·.cls == k)).flatten

/-- May an activity start now: its scope is free and not one that a certain swap is about to need (R87), and a follow-up waits
for measurement-ready (Table 16.7)?
DEDUCED, unsafe (log 112). -/
def State.startable (a : Activity) (s : State) : Bool :=
  (s.runningIn a.scope).isNone && !(s.swapCertain && s.sets.shadow.needsScope a.scope) && !(a.target == 1 && a.code == 0x09 && s.power.phase != .ready)

/-- A class 0 activity takes its scope from a class 3 activity, which goes back to the head of its class. -/
def State.preempt (s : State) : State :=
  match (s.health.queue.filter (·.cls == 0)).find? fun a => (s.runningIn a.scope).any (·.cls == 3) with
  | none => s
  | some a => match s.runningIn a.scope with
    | some b =>
      let s := if b.code = 0x0D then s.switchSources else s
      (s.endScope a.scope).onArbiterQueue ({ b with start := none } :: ·)
    | none => s

/-- An activity starts: a store takes its record as it stands, a substitution its spare, a test only a target that serves
nothing; the filter's test switches its slots to their test sources (R131).
DEDUCED, unsafe (log 112). -/
def State.begin (a : Activity) (s : State) : State :=
  let now := s.now
  let s := s.onArbiterQueue (·.erase a)
  let run (b : Activity) (s : State) : State := s.onHealth fun h => { h with running := h.running ++ [{ b with start := some now }] }
  if a.scope == scopeNvm then
    if a.target = 1 then run a s
    else run { a with row := s.stamp, data := some (a.data.getD (s.recordData a.recId a.cmds)) } s
  else if a.code = 0x01 then (run a s).prepareSpare a
  else if 0x0A ≤ a.code && s.targetServes (a.code - 0x09) a.target && !(a.retest && s.targetBad (a.code - 0x09) a.target) then
    (s.answer stFault (s.freeValue % 256) 0 a.cmds).freeNext
  else run a (if a.code = 0x0D then s.switchSources else s)

/-- ARBITER_GRANT: a class 0 activity preempts a test that holds its scope; the first that may start does.
DEDUCED, unsafe (log 112). -/
def arbiterGrant (s : State) : State :=
  if !s.power.running || s.power.pfail || s.power.phase == .cold || s.power.phase == .warm then s else
  let s := s.preempt
  match (arbiterOrder s.health.queue).find? fun a => s.startable a with
  | some a => (s.begin a).listedRow
  | none => s

def execArbiterGrant (s : State) : Result := .next (arbiterGrant s)

/-! ## SELF_TEST -/

/-- DEDUCED, unsafe (log 112). -/
def selfTestInfo : OpInfo :=
  { code := 0x0A06, lenMin := 1, lenMax := 1,
    fields := fun c s => let p := c.payload
      let t := u8 p 0
      (firstFail [chk (t == 0 || 4 < t) 0, rsvd p 1 1, chk (testTargets t ≤ u16 p 2) 2, rsvd p 4 12,
                  locked3 (s.targetServes t (u16 p 2))]).andThen (s.arbiterCheck 3) }

def selfTestEffect (c : Cmd) (s : State) : State :=
  s.request (Activity.test (u8 c.payload 0) (u16 c.payload 2) [(0x0A06, c)])

def execSelfTest (c : Cmd) (s : State) : Result := .next (s.run selfTestInfo c (selfTestEffect c))

/-! ## REPAIR -/

/-- Targets of a REPAIR: logical for SUBSTITUTE, physical for RETEST. -/
def repairTargets (mode kind : Nat) : Nat :=
  match kind with
  | 0 => if mode = 0 then 192 else 208
  | 1 => if mode = 0 then 128 else 144
  | 2 => if mode = 0 then 16 else 18
  | _ => 96

/-- The activity that a REPAIR asks for. -/
def repairActivity (p : List Byte) (cmds : List (Nat × Cmd)) : Activity :=
  let t := u16 p 2
  let kind := u8 p 1
  if u8 p 0 = 0 then
    match kind with
    | 0 => Activity.plain 0x01 (t / 24) t 0 cmds
    | 1 => Activity.plain 0x02 (t / 16) t 0 cmds
    | 2 => Activity.plain 0x03 (scopeHalf (t / 8)) t 2 cmds
    | _ => Activity.plain 0x04 (t / 12) t (u16 p 4) cmds
  else if kind = 3 then { Activity.plain 0x04 (t / 12) t (u16 p 4) cmds with retest := true }
  else { Activity.test (kind + 1) t cmds with retest := true }

def repairInfo : OpInfo :=
  { code := 0x0A08, lenMin := 1, lenMax := 1,
    fields := fun c s => let p := c.payload
      let retest := u8 p 0 == 1 && u8 p 1 < 3
      let serving := retest && s.targetServes (u8 p 1 + 1) (u16 p 2) && !s.targetBad (u8 p 1 + 1) (u16 p 2)
      (firstFail [chk (1 < u8 p 0) 0, chk (3 < u8 p 1) 1, chk (repairTargets (u8 p 0) (u8 p 1) ≤ u16 p 2) 2,
                  chk (if u8 p 1 == 3 then 511 < u16 p 4 else u16 p 4 != 0) 4, rsvd p 6 10, locked3 serving]).andThen
        (s.arbiterCheck (if u8 p 0 == 0 then 0 else 3)) }

def repairEffect (c : Cmd) (s : State) : State := s.request (repairActivity c.payload [(0x0A08, c)])

/-- DEDUCED, safe (log 108). -/
def execRepairSubstitute (c : Cmd) (s : State) : Result := .next (s.run repairInfo c (repairEffect c))
/-- DEDUCED, safe (log 108). -/
def execRepairRetest (c : Cmd) (s : State) : Result := .next (s.run repairInfo c (repairEffect c))

/-! ## ARBITER_STATUS -/

/-- Four bytes of a running activity; how far it has come is not the spec's to say.
DESIGN CHOICE, safe (log 111). -/
def activityEntry (progress : Nat) (a : Activity) : List Byte := le 1 a.code ++ le 1 a.scope ++ le 1 a.cls ++ le 1 (progress % 101)

/-- DESIGN CHOICE, safe (log 111). -/
def State.arbiterBlock (s : State) : List Byte :=
  let l := s.health.running
  fit 64 (le 1 l.length ++ le 1 s.health.queue.length ++ le 1 (if s.nvmRunning.isSome then 1 else 0) ++ zeros 1 ++
    ((l.take 13).zipIdx.map fun x => activityEntry (Config.free (s.free + x.2)) x.1).flatten)

def arbiterStatusInfo : OpInfo := { code := 0x0A09, lenMin := 0, lenMax := 0, unseqOk := fun _ => true }

def arbiterStatusEffect (c : Cmd) (s : State) : State :=
  let d := s.arbiterBlock
  let n := s.health.running.length
  (({ s with free := s.free + n } : State)).finish 0x0A09 c stOk 0 s.health.queue.length d

def execArbiterStatus (c : Cmd) (s : State) : Result := .next (s.run arbiterStatusInfo c (arbiterStatusEffect c))

/-! ## HEALTH_CONFIG -/

def healthConfigInfo : OpInfo :=
  { code := 0x0A0A, lenMin := 1, lenMax := 1,
    fields := fun c s => let p := c.payload
      (firstFail [chk (u16 p 0 == 0 || 168 < u16 p 0) 0, chk (u16 p 2 == 0 || 1440 < u16 p 2) 2, rsvdBits p 4 2,
                  rsvd p 5 11]).andThen (s.storeCheck (bit (u8 p 4) 1)) }

/-- DEDUCED, safe (log 115). -/
def healthConfigEffect (c : Cmd) (s : State) : State :=
  let p := c.payload
  let s := s.onHealth fun h => { h with config := p }
  if bit (u8 p 4) 1 then s.storeAfter 0x0A0A 0x28 c (s.block stOk 0 0) else s.done 0x0A0A c 0

def execHealthConfig (c : Cmd) (s : State) : Result := .next (s.run healthConfigInfo c (healthConfigEffect c))

end Sys2Proof.Machine
end

