-- ==== Sys2Proof/Machine/Sets.lean ====
section
/-!
DEFINITION. The revolution boundary, the swap with all it carries and restarts (R85 to R88, Table 3.8), the shadow copy and
the writes that wait for it (R83), and the release of a retiring view (R81, R286).
-/
namespace Sys2Proof.Machine

/-! ## REVOLUTION_BOUNDARY -/

/-- Does the spindle stand at the boundary now: it turns forward, angle 0 is within 1 µs, and the last boundary lies half a
revolution back or more?
DESIGN CHOICE, unsafe (log 37). -/
def State.atBoundary (s : State) : Bool :=
  (s.angle.lock == .locked || s.angle.lock == .coast) && decide (0 < s.angle.pubSpeed) &&
  (s.tickNear 0).any (fun t => decide (t ≤ s.clk.tickCount + us 1) && decide (s.clk.tickCount ≤ t + us 1)) &&
  s.angle.lastBoundary.all fun t => s.since t s.halfTurnTicks

/-- SENT_MBPS of a stream over the revolution that ends; the count starts again. -/
def Stream.turnOver (ticks : Option Nat) (x : Stream) : Stream :=
  { x with revBytes := 0, sentMbps := match ticks with
    | some t => min 65535 (x.revBytes * 1280 / pos t)
    | none => x.sentMbps }

/-- The persistence maps move on by a revolution (R330). -/
def turnRain (l : List RainCell) : List RainCell :=
  (l.map fun r => { r with revs := r.revs * 2 % 512 }).filter fun r => r.revs != 0

/-- REVOLUTION_BOUNDARY: sectors count down, sent rates and rain maps turn over, and what is keyed to the boundary happens.
DESIGN CHOICE, unsafe (log 4); DESIGN CHOICE, unsafe (log 37). -/
def revolutionBoundary (s : State) : State :=
  if !s.atBoundary then s else
  let now := s.now
  let span := s.angle.lastBoundary.map fun t => now - t
  let s := s.onAngle fun a => { a with lastBoundary := some now }
  let s := s.onSched fun k =>
    { k with sectors := k.sectors.map fun (x : Sector) => ({ x with revs := x.revs - 1 } : Sector), nfAllRevs := k.nfAllRevs - 1 }
  let s := s.onFabric fun b => { b with streams := b.streams.map (Stream.turnOver span), rain := turnRain b.rain }
  s.angleBoundary.bezelBoundary

def execRevolutionBoundary (s : State) : Result := .next (revolutionBoundary s)

/-! ## SET_SWAP: what carries over and what restarts (R88) -/

/-- Engines pass to the views of the new set; one that leaves a view serves its last histograms first (R286).
DEDUCED, unsafe (log 38). -/
def State.assignEngines (s : State) : State :=
  let map := s.enginesFor s.sets.active
  let s := (List.range 144).foldl (fun s g => s.onEngine g fun e =>
    let new := (map.find? (·.1 == g)).map (·.2)
    let left := if e.assigned && new != some e.view && !e.leaving.contains e.view then e.leaving ++ [e.view] else e.leaving
    { e with view := new.getD 0, assigned := new.isSome, leaving := left, timeMax := 0 }) s
  s.leaveAll

/-- Fields whose definition stays keep their state; the others begin UNKNOWN (R201). -/
def State.carryFields (old : ConfigSet) (s : State) : State :=
  let new := s.sets.active
  s.onZone fun z =>
    { z with fields := new.fields.map fun f =>
        if old.fieldDef f.1 == new.fieldDef f.1 then (z.fields.find? (·.field == f.1)).getD (FieldRun.fresh f.1)
        else FieldRun.fresh f.1 }

/-- A field that begins anew has reached the cells of the new set that opened before the swap, which is at angle 0. -/
def State.reachOpened (s : State) : State :=
  let c := s.sets.active
  let at_ := s.zone.swept.getD (2 * turn)
  (s.zone.cells.filter (·.epoch == s.sets.epoch)).foldl (fun s z =>
    match c.view z.view with
    | none => s
    | some v => s.reachCell v z.cell (nearTurn at_ (v.cellStart z.cell))) s

/-- Is a set of an epoch still needed by a cell, histogram or window? -/
def State.epochUsed (n : Nat) (s : State) : Bool :=
  (s.sched.cells.any (·.epoch == n)) || s.zone.cells.any (·.epoch == n) || s.sched.queue.any (·.epoch == n) ||
  (s.sched.current.filterMap id).any (·.epoch == n) ||
  s.fabric.tiles.any (fun t => t.queue.any (·.epoch == n)) ||
  s.fabric.engines.any (fun g => g.job.any fun j => j.1.epoch == n) ||
  s.fabric.releases.any (·.epoch == n) ||
  s.returns.channels.any fun c => c.acc.any (·.epoch == n) || c.win.epoch == n || c.items.any fun i => match i with
    | .trailer w _ => w.epoch == n
    | .header w _ => w.epoch == n
    | _ => false

/-- Ambient estimates stay where block and CHANNEL_MASK are the same; other views begin new ones, with the records that have arrived and
no run has used, and the old ones stay for the chains of their sets (R316, R318).
DEDUCED, unsafe (log 38). -/
def State.carryAmbient (old : ConfigSet) (s : State) : State :=
  let n := s.sets.epoch
  let vs := s.sets.active.views.filter fun v => (v.posOf 5).isSome
  let kept (v : ViewDef) : Bool := (old.view v.handle).any fun w => (w.posOf 5).isSome && w.block 5 == v.block 5 &&
    w.channelMask == v.channelMask
  let used (r : AmbRun) : AmbRun := { r with epochs := r.epochs.filter fun e => s.epochUsed e }
  s.onFabric fun b =>
    let last (v : ViewDef) (ch : Nat) : Option AmbRun := b.ambRuns.find? fun r =>
      r.view == v.handle && r.channel == ch && r.epochs.contains (wrap 16 (n + 65535))
    let fresh (v : ViewDef) (ch : Nat) : AmbRun :=
      { view := v.handle, channel := ch, epochs := [n], lam := 0, first := true, stepSeen := (s.channel ch).ambStep,
        records := ((last v ch).map (·.records)).getD [] }
    let goesOn (r : AmbRun) : Bool := r.epochs.contains (wrap 16 (n + 65535)) && vs.any fun v => v.handle == r.view && kept v
    { b with ambRuns := (vs.map fun v => v.channels.map fun ch =>
        match if kept v then last v ch else none with
        | some r => { used r with epochs := n :: (used r).epochs }
        | none => fresh v ch).flatten ++
        ((b.ambRuns.filter fun r => !goesOn r).map used).filter fun r => !r.epochs.isEmpty }

/-- The K_RAIN blocks that name a channel, with their views. -/
def ConfigSet.rainBlocks (ch : Nat) (c : ConfigSet) : List (Nat × List Byte) :=
  (c.views.filter fun v => v.channelMask.testBit ch && (v.posOf 6).isSome).map fun v => (v.handle, v.block 6)

/-- A channel's map is cleared when a K_RAIN block that names it changes (R330).
DEDUCED, unsafe (log 38). -/
def State.carryRain (old : ConfigSet) (s : State) : State :=
  let same (ch : Nat) : Bool := old.rainBlocks ch == s.sets.active.rainBlocks ch
  s.onFabric fun b =>
    { b with rain := b.rain.filter fun r => same r.channel, prevTops := b.prevTops.filter fun r => same r.channel }

/-- Trackers of a tile go on only under the same governing block.
DEDUCED, unsafe (log 38). -/
def State.carryTrackers (before : Nat → Option (List Byte)) (s : State) : State :=
  (List.range 8).foldl (fun s t =>
    if before t == s.governing t then s
    else s.onRejection t fun r =>
      { r with trackers := List.replicate 4 Tracker.reset, freeStamp := none, tapWait := [], groupFirst := none, passed := [] }) s

/-- Cells of the old set that have shots left to plan close INCOMPLETE.
DEDUCED, unsafe (log 38). -/
def State.closeOldCells (epoch : Nat) (s : State) : State :=
  let due := s.sched.cells.filter fun c => c.epoch == epoch && match s.viewIn c.epoch c.view with
    | some v => (c.next v).isSome
    | none => true
  due.foldl (State.closeCell 1) s

/-- The active set becomes the shadow set under the next epoch.
DESIGN CHOICE, unsafe (log 39). -/
def State.installSet (s : State) : State :=
  let old := s.sets.active
  let e := s.sets.epoch
  let n := wrap 16 (e + 1)
  let t := s.stamp
  let new := s.sets.shadow
  let since := new.views.map fun v =>
    ((s.sets.since.find? fun x => x.view == v.handle && (old.view v.handle).isSome).getD { view := v.handle, epoch := n })
  s.onSets fun k =>
    { k with old := k.old ++ [(e, old)], active := new, epoch := n, lastSwap := t, since := since, copying := true, commits := [],
             decided := none }

/-- The swap itself.
DEDUCED, unsafe (log 38). -/
def State.swap (k : Commit) (s : State) : State :=
  let old := s.sets.active
  let oldEpoch := s.sets.epoch
  let before (t : Nat) : Option (List Byte) := s.governing t
  let s := if s.zone.swept.isSome then s.sweepTo 0 else s
  let s := s.installSet
  let s := (s.closeOldCells oldEpoch).endGroupsIf (·.epoch == oldEpoch)
  let s := s.onSets fun k => { k with old := k.old.filter fun x => s.epochUsed x.1 || x.1 == oldEpoch }
  let s := s.sets.active.views.foldl (State.loadLfsr old s.sets.epoch) s
  let s := s.copyLost false
  let lost := (s.integrity.lost.filter (!·.shadow)).map (·.view)
  let s := s.onSched fun q => { q with broken := lost, firstCells := q.firstCells.filter fun x => s.epochUsed x.2.1 || x.2.1 == s.sets.epoch }
  let s := s.assignEngines
  let s := s.onFabric fun b => { b with tiles := b.tiles.map fun t => { t with queueMax := 0, latencyMax := 0 } }
  let s := (((((s.carryFields old).reachOpened).carryAmbient old).carryRain old).carryTrackers before).driveZones
  let s := (List.range 16).foldl (fun s e => s.releaseFade e) s
  let s := ((s.refreshDomains).refreshChannels).refreshPlan
  s.doneOn 0x0301 .activeSet k.cmd s.sets.epoch

/-- Does the inhibit of R86 hold, so that no boundary is waited for? -/
def State.noBoundary (s : State) : Bool := s.causeSet causeAngle || s.causeSet causeSpeed

/-- SET_SWAP: at a boundary 100 µs or more after the commit, or at a 10 kHz strobe under R86.
DESIGN CHOICE, unsafe (log 4). -/
def setSwap (s : State) : State :=
  match s.sets.commits with
  | [] => s
  | k :: _ =>
    let atEdge := s.angle.lastBoundary == some s.now && decide (k.at_ + us 100 ≤ s.now) && s.swapCertain
    let atStrobe := s.noBoundary && s.clk.pllLocked && s.clk.tickCount % 128000 == 0 && s.swapReady
    if !s.sets.copying && (atEdge || atStrobe) then s.swap k else s

def execSetSwap (s : State) : Result := .next (setSwap s)

/-! ## SHADOW_COPY_COMPLETE (R83) -/

/-- The checks and the effect of an opcode that writes the shadow set or orders its commit. -/
def setOp : Nat → Option (OpInfo × (Cmd → State → State))
  | 0x0201 => some (viewCreateInfo, viewCreateEffect)
  | 0x0202 => some (viewDestroyInfo, viewDestroyEffect)
  | 0x0204 => some (viewParamInfo, viewParamEffect)
  | 0x0205 => some (viewUpdateInfo, viewUpdateEffect)
  | 0x0301 => some (setCommitInfo, setCommitEffect)
  | 0x0302 => some (setAbortInfo, setAbortEffect)
  | 0x0601 => some (loopConfigInfo, loopConfigEffect)
  | 0x0602 => some (loopCoeffInfo, loopCoeffEffect)
  | 0x0701 => some (fireTableInfo, fireTableEffect)
  | 0x0702 => some (nearfieldConfigInfo, nearfieldConfigEffect)
  | 0x0703 => some (fieldDefineInfo, fieldDefineEffect)
  | 0x0704 => some (zoneConfigInfo, zoneConfigEffect)
  | 0x0705 => some (schedConfigInfo, schedConfigEffect)
  | 0x0802 => some (streamConfigInfo, streamConfigEffect)
  | 0x0981 => some (rxConfigInfo, rxConfigEffect)
  | _ => none

/-- A command whose turn in the order has come: its checks are made now. Behind a commit it waits again; so does a
VIEW_CREATE while Clasp awaits its checkpoint (R401), and so does each while the recovery-only state keeps it from running.
DEDUCED, safe (log 36). -/
def State.runWaiting (s : State) (x : Nat × Cmd) : State :=
  match setOp x.1 with
  | none => s
  | some o =>
    let again (s : State) : State := s.onSets fun k => { k with waiting := k.waiting ++ [x] }
    if (x.1 == 0x0201 && 64 ≤ s.sets.claspUnsaved) || (s.recoveryOnly && !recoveryOpcode x.1) then again s
    else match o.1.check x.2 s with
    | .reject st d => (again s).dropCommit x.2 ((s.unpend x.2).refuseRun o.1 x.2 st d)
    | .ok => o.2 x.2 (s.onLive x.2 fun l => { l with state := .executing })

/-- Runs the waiting writes in acceptance order. -/
def State.runAllWaiting (s : State) : State :=
  let l := s.sets.waiting
  l.foldl State.runWaiting (s.onSets fun k => { k with waiting := [] })

/-- SHADOW_COPY_COMPLETE: the shadow set is the active set without its retiring views; the writes that waited follow.
DEDUCED, safe (log 36). -/
def shadowCopyComplete (s : State) : State :=
  if s.sets.copying then
    let live := s.sets.live
    let s := s.onSets fun k => { k with copying := false }
    let act := s.sets.active
    ((s.onShadow fun _ => { act with views := act.views.filter fun v => live.contains v.handle })).runAllWaiting
  else if s.sets.commits.isEmpty && !s.sets.waiting.isEmpty then s.runAllWaiting else s

def execShadowCopyComplete (s : State) : Result := .next (shadowCopyComplete s)

/-! ## VIEW_RELEASE -/

/-- Does a view still have histograms under way, or outputs to release? -/
def State.viewBusy (h : Nat) (s : State) : Bool :=
  (s.returns.channels.any fun c => c.acc.any (·.view == h)) || s.fabric.tiles.any (fun t => t.queue.any (·.view == h)) ||
  s.fabric.engines.any (fun g => g.job.any fun j => j.1.view == h) || s.fabric.releases.any (·.view == h)

/-- VIEW_RELEASE: the last chain of a retiring view that has left the active set has ended (R81). -/
def viewRelease (h : Nat) (s : State) : State :=
  if !s.sets.retiring.contains h || (s.activeView h).isSome || s.viewBusy h then s else
  let s := s.onSets fun k => { k with retiring := k.retiring.filter (· != h) }
  let s := s.onFabric fun b => { b with prevTops := b.prevTops.filter (·.view != h) }
  let s := s.onSched fun k =>
    { k with lfsrs := k.lfsrs.filter (·.view != h), lastBase := k.lastBase.filter (·.1 != h),
             firstCells := k.firstCells.filter (·.1 != h) }
  s.leaveAll.refreshDomains

def execViewRelease (view : Nat) (s : State) : Result := .next (viewRelease view s)

end Sys2Proof.Machine
end

