-- ==== Sys2Proof/Machine/System.lean ====
section
/-!
DEFINITION. The system opcodes (R63 to R67): NOP, GET_INFO, ECHO, RESET_WARM, SEQ_SET and QUEUE_BIND.
-/
namespace Sys2Proof.Machine

/-! ## NOP and ECHO (R63) -/

def nopInfo : OpInfo := { code := 0x0100, lenMin := 0, lenMax := 0, unseqOk := fun _ => true }

def nopEffect (c : Cmd) (s : State) : State := s.done 0x0100 c 0

def execNop (c : Cmd) (s : State) : Result := .next (s.run nopInfo c (nopEffect c))

def echoInfo : OpInfo := { code := 0x0102, lenMin := 0, lenMax := 255, unseqOk := fun _ => true }

/-- ECHO: the first 254 payload units come back. -/
def echoEffect (c : Cmd) (s : State) : State :=
  s.finish 0x0102 c stOk 0 (min (cmdLen c) 254) (c.payload.take 4064)

def execEcho (c : Cmd) (s : State) : Result := .next (s.run echoInfo c (echoEffect c))

/-! ## GET_INFO (R64) -/

/-- CREDITS of a queue (R41).
DEDUCED, safe (log 17). -/
def State.credits (q : Nat) (s : State) : Nat := 128 - (s.queue q).tags.length

/-- Table 2.13.
DESIGN CHOICE, unsafe (log 116). -/
def State.infoData (s : State) : List Byte :=
  le 2 0x7192 ++ le 1 Config.stepping ++ le 1 1 ++ le 8 Config.serial ++ le 4 s.power.firmware ++ le 4 s.fabric.library ++
  le 4 (s.recordGen 4) ++ le 1 s.power.phase.code ++ le 1 (if s.power.supervisorB then 1 else 0) ++ le 2 s.sets.epoch ++
  ((List.range 4).map fun q => le 1 (s.credits q)).flatten ++ ((List.range 4).map fun q => le 4 (s.queue q).nextSeq).flatten ++
  le 8 s.stamp ++ ((List.range 4).map fun q => le 1 (s.queue q).mask.toNat).flatten ++ le 4 s.fabric.startId

def getInfoInfo : OpInfo := { code := 0x0101, lenMin := 0, lenMax := 0, unseqOk := fun _ => true }

def getInfoEffect (c : Cmd) (s : State) : State := s.finish 0x0101 c stOk 0 0 s.infoData

def execGetInfo (c : Cmd) (s : State) : Result := .next (s.run getInfoInfo c (getInfoEffect c))

/-! ## RESET_WARM (R65) -/

def resetWarmInfo : OpInfo :=
  { code := 0x0110, lenMin := 1, lenMax := 1, lock := fun _ s => firstFail [locked3 (s.power.phase == .pavane)],
    fields := fun c _ => firstFail [chk (u32 c.payload 0 != 0x4D524157) 0, rsvd c.payload 4 12] }

/-- RESET_WARM waits for its warm start, and no credits are granted meanwhile. -/
def resetWarmEffect (c : Cmd) (s : State) : State := s.onPower fun p => { p with resetWarm := some c }

def execResetWarm (c : Cmd) (s : State) : Result := .next (s.run resetWarmInfo c (resetWarmEffect c))

/-! ## SEQ_SET (R66) -/

def seqSetInfo : OpInfo :=
  { code := 0x0111, lenMin := 1, lenMax := 1, fields := fun c _ => firstFail [rsvd c.payload 4 12] }

/-- A held packet is rejected with ST_SEQUENCE, DETAIL 0x04, and its tag is free (R40).
DESIGN CHOICE, unsafe (log 24). -/
def State.rejectHeld (s : State) (h : Held) : State :=
  let r := { mkReply h.opcode h.cmd true (s.block stSequence 4 0) [] with holdsTag := false }
  (s.post r).onQueue h.cmd.queue fun k =>
    { k with tags := k.tags.filter (· != h.cmd.tag), held := k.held.filter (· != h) }

/-- SEQ_SET: NEXT_SEQ is replaced, held packets are rejected and the duplicate window is cleared.
DESIGN CHOICE, unsafe (log 24). -/
def seqSetEffect (c : Cmd) (s : State) : State :=
  let old := (s.queue c.queue).nextSeq
  let s := s.onQueue c.queue fun k => { k with nextSeq := u32 c.payload 0 }
  let s := (s.queue c.queue).held.foldl State.rejectHeld s
  (s.onQueue c.queue fun k =>
    { k with dup := k.dup.filter fun d => d.seq == c.seq && d.trailer == c.trailer, held := [] }).done 0x0111 c old

def execSeqSet (c : Cmd) (s : State) : Result := .next (s.run seqSetInfo c (seqSetEffect c))

/-! ## QUEUE_BIND (R67) -/

def queueBindInfo : OpInfo :=
  { code := 0x0112, lenMin := 1, lenMax := 1,
    fields := fun c _ => let p := c.payload
      firstFail [chk (3 < u8 p 0) 0, rsvdBits p 1 3, rsvd p 2 14, chk (u8 p 0 == 3 && !bit (u8 p 1) 2) 0] }

/-- QUEUE_BIND: RESULT is the previous mask. -/
def queueBindEffect (c : Cmd) (s : State) : State :=
  let q := u8 c.payload 0
  let old := (s.queue q).mask.toNat
  (s.onQueue q fun k => { k with mask := BitVec.ofNat 3 (u8 c.payload 1) }).doneOn 0x0112 (.binding q) c old

def execQueueBind (c : Cmd) (s : State) : Result := .next (s.run queueBindInfo c (queueBindEffect c))

end Sys2Proof.Machine
end

