-- ==== Sys2Proof/Machine/Receipt.lean ====
section
/-!
DEFINITION. Receipt of command packets (R32 to R48, R392, R394): the checks of Table 2.4, sequence numbers, held packets and
duplicates, and the acceptance of a packet with its interim reply.
-/
namespace Sys2Proof.Machine

/-! ## The defined opcodes and their checks (Table 0.4 and the opcode tables of the chapters) -/

def infoSystem : List OpInfo := [nopInfo, getInfoInfo, echoInfo, resetWarmInfo, seqSetInfo, queueBindInfo]
def infoViews : List OpInfo :=
  [viewCreateInfo, viewDestroyInfo, viewQueryInfo, viewParamInfo, viewUpdateInfo, setCommitInfo, setAbortInfo, setReadInfo]
def infoEmission : List OpInfo :=
  [waveLoadInfo, waveReadInfo, waveFadeInfo, parkSetInfo, emitDirectInfo, unlockInfo, ledgerWriteInfo, ledgerReadInfo,
   resConfigInfo, emitStatusInfo]
def infoAngle : List OpInfo :=
  [angleConfigInfo, angleFrameInfo, filterSyncInfo, cycLearnInfo, cycSelectInfo, encConfigInfo, camConfigInfo, angleStatusInfo]
def infoMotion : List OpInfo :=
  [loopConfigInfo, loopCoeffInfo, ctrlInjectInfo, cameoArmInfo, cameoReadInfo, ctrlStatusInfo, motionRecordInfo]
def infoShots : List OpInfo :=
  [fireTableInfo, nearfieldConfigInfo, fieldDefineInfo, zoneConfigInfo, schedConfigInfo, emitHoldInfo, shotStatusInfo,
   zoneStatusInfo]
def infoNet : List OpInfo := [netConfigInfo, streamConfigInfo, trdpConfigInfo, netStatusInfo, streamStatusInfo]
def infoAux : List OpInfo :=
  [auxMeasConfigInfo, auxSwitchConfigInfo, auxCalInfo, bezelConfigInfo, bezelLearnInfo, auxReadInfo, auxStatusInfo,
   rxConfigInfo, biasConfigInfo, rxStatusInfo]
def infoHealth : List OpInfo :=
  [healthReadInfo, timebaseStatusInfo, fabricStatusInfo, memoryStatusInfo, checkUnitInfo, selfTestInfo, replanInfo,
   repairInfo, arbiterStatusInfo, healthConfigInfo]
def infoNvm : List OpInfo :=
  [nvmInfoInfo, nvmReadInfo, nvmStageInfo, nvmCommitInfo, nvmEraseInfo, keyProvisionInfo, powerDownInfo]

/-- The checks of an opcode; none for one that is not defined. -/
def opInfo (op : Nat) : Option OpInfo :=
  (infoSystem ++ infoViews ++ infoEmission ++ infoAngle ++ infoMotion ++ infoShots ++ infoNet ++ infoAux ++ infoHealth ++
   infoNvm).find? (·.code == op)

/-! ## Interim replies (R42, R44) -/

/-- Does the maintenance arbiter hold the scope that a command's activity needs? -/
def State.heldBehind (op : Nat) (p : List Byte) (s : State) : Bool :=
  let behind (scope : Nat) : Bool := (s.runningIn scope).isSome || s.health.queue.any (·.scope == scope)
  if (storedRecord op p).isSome then behind scopeNvm
  else if op = 0x0A06 then behind (testScope (u8 p 0) (u16 p 2))
  else if op = 0x0A08 then behind (repairActivity p []).scope
  else op == 0x0301 && s.arbiterHolds s.sets.shadow

/-- Status, DETAIL and STATE of the interim reply: DEFERRED for the causes of Table 3.9, QUEUED behind the arbiter.
DESIGN CHOICE, unsafe (log 14). -/
def State.interim (op : Nat) (c : Cmd) (s : State) : Nat × Nat × EntryState :=
  if op = 0x0301 && s.commitCause c != 0 then (stDeferred, s.commitCause c, .deferred)
  else if s.heldBehind op c.payload then (stQueued, min 255 (s.queuePosition + 1), .queued)
  else (stAccepted, 0, .accepted)

/-! ## Headers (Tables 2.1 and 2.2) -/

def pkVersion (b : List Byte) : Nat := u8 b 2
def pkFlags (b : List Byte) : Nat := u8 b 3
def pkOpcode (b : List Byte) : Nat := u16 b 4
def pkTag (b : List Byte) : Nat := u16 b 6
def pkQueue (b : List Byte) : Nat := u8 b 8
def pkLength (b : List Byte) : Nat := u8 b 9
def pkSeq (b : List Byte) : Nat := u32 b 10
def pkUnseq (b : List Byte) : Bool := bit (pkFlags b) 4
def pkFence (b : List Byte) : Bool := bit (pkFlags b) 3

/-- The command of a packet whose length is right. -/
def pkCmd (via : Via) (b : List Byte) : Cmd :=
  { via := via, tag := pkTag b, queue := pkQueue b, seq := pkSeq b, unseq := pkUnseq b, fence := pkFence b,
    trailer := u32 b (b.length - 4), payload := slice b 16 (b.length - 20) }

/-- DETAIL of the first invalid header field (step 4): its byte offset. -/
def State.headerFault (ring : Option Nat) (via : Via) (b : List Byte) (s : State) : Option Nat :=
  let q := pkQueue b
  if pkVersion b != 1 then some 2
  else if pkFlags b &&& 0xE7 != 0 then some 3
  else if 127 < pkTag b then some 6
  else if 3 < q || !(s.queue q).mask.getLsbD (maskBit via.transport) || ring.any (· != q) then some 8
  else none

/-! ## Rejections -/

/-- May an arriving packet take its tag: queue and tag exist, and no other packet has it? -/
def State.tagFree (c : Cmd) (s : State) : Bool :=
  decide (c.queue ≤ 3) && decide (c.tag ≤ 127) && !(s.queue c.queue).tags.contains c.tag

/-- A rejection that consumes no sequence number. The packet's tag is in use until the rejection is taken (R41), unless another packet
has it or the header is not to be trusted. `raw` is the header of a packet whose HCHK failed.
DEDUCED, unsafe (log 15). -/
def State.refuse (ring ver op : Nat) (c : Cmd) (st det : Nat) (raw : Option (List Byte)) (s : State) : State :=
  let held := raw.isNone && s.tagFree c
  let s := s.post { mkReply op c true (s.block st det 0) [] with version := ver, holdsTag := held, ring := ring, rawHeader := raw }
  if held then s.onQueue c.queue fun k => { k with tags := k.tags ++ [c.tag] } else s

/-- A rejection at steps 8 to 11: it consumes the sequence number and is recorded (R37), once that is durable (R392); its tag stays in
use until it is taken.
DEDUCED, unsafe (log 15). -/
def State.rejectConsumed (o : Option OpInfo) (op : Nat) (c : Cmd) (st det : Nat) (s : State) : State :=
  let s := match o with
    | some i => i.rejected c st det s
    | none => s
  let b := s.block st det 0
  let s := s.post (mkReply op c true b [])
  if c.unseq then s else
  (s.onQueue c.queue fun k => { k with nextSeq := wrap 32 (k.nextSeq + 1) }).recordDup c.queue
    { seq := c.seq, trailer := c.trailer, opcode := op, final := true, rejected := true, dataDropped := false, block := b }

/-! ## Steps 7 to 12 -/

/-- DETAIL of ST_BUSY while no packet is taken on (R41).
DEDUCED, safe (log 17). -/
def State.busyDetail (s : State) : Option Nat :=
  if s.power.takeover then some 2
  else if s.power.warm.any (·.step == .replay) then some 3
  else if s.power.resetWarm.isSome || s.power.phase == .warm then some 4
  else none

/-- The opcodes that permit UNSEQ, each with its effect. -/
def unseqEffects : List (OpInfo × (Cmd → State → State)) :=
  [(nopInfo, nopEffect), (getInfoInfo, getInfoEffect), (echoInfo, echoEffect), (viewQueryInfo, viewQueryEffect),
   (setReadInfo, setReadEffect), (waveReadInfo, waveReadEffect), (ledgerReadInfo, ledgerReadEffect),
   (emitStatusInfo, emitStatusEffect), (angleStatusInfo, angleStatusEffect), (cameoReadInfo, cameoReadEffect),
   (ctrlStatusInfo, ctrlStatusEffect), (shotStatusInfo, shotStatusEffect), (zoneStatusInfo, zoneStatusEffect),
   (netStatusInfo, netStatusEffect), (streamStatusInfo, streamStatusEffect), (auxReadInfo, auxReadEffect),
   (auxStatusInfo, auxStatusEffect), (rxStatusInfo, rxStatusEffect), (healthReadInfo, healthReadEffect),
   (timebaseStatusInfo, timebaseStatusEffect), (fabricStatusInfo, fabricStatusEffect), (memoryStatusInfo, memoryStatusEffect),
   (checkUnitInfo, checkUnitEffect), (arbiterStatusInfo, arbiterStatusEffect), (nvmInfoInfo, nvmInfoEffect),
   (nvmReadInfo, nvmReadEffect)]

/-- An UNSEQ packet that has passed the checks executes on arrival (R46). -/
def State.runUnseq (op : Nat) (c : Cmd) (s : State) : State :=
  match unseqEffects.find? (·.1.code == op) with
  | some e => s.run e.1 c (e.2 c)
  | none => s

/-- What steps 8 to 11 say of a command (Table 2.4). -/
def State.verdict (op : Nat) (c : Cmd) (s : State) : Verdict :=
  match opInfo op with
  | none => .reject stOpcode 1
  | some i => i.check c s

/-- Steps 8 to 11, for a packet whose tag is now in use: an UNSEQ packet runs, or is rejected; a sequenced one waits for step 12, which
also makes its rejection durable (R392). -/
def State.examine (op : Nat) (c : Cmd) (s : State) : State :=
  let v := s.verdict op c
  if c.unseq then
    match v with
    | .reject st d => s.rejectConsumed (opInfo op) op c st d
    | .ok => s.runUnseq op c
  else
    let r : Option (Nat × Nat) := match v with
      | .reject st d => some (st, d)
      | .ok => none
    s.onHost fun h => { h with checked := h.checked ++ [{ opcode := op, cmd := c, rejection := r }] }

/-- A released held packet goes on from step 7, its tag in use already (R40). -/
def State.examineFrom7 (h : Held) (s : State) : State :=
  match s.busyDetail with
  | some d => s.post (mkReply h.opcode h.cmd true (s.block stBusy d 0) [])
  | none => s.examine h.opcode h.cmd

/-- Held packets of a queue are examined again in sequence order, as long as NEXT_SEQ meets one (R38). -/
def State.examineHeld (q : Nat) (s : State) : Nat → State
  | 0 => s
  | n + 1 =>
    let k := s.queue q
    match k.held.find? (·.cmd.seq == k.nextSeq) with
    | none => s
    | some h => ((s.onQueue q fun k => { k with held := k.held.filter (· != h) }).examineFrom7 h).examineHeld q n

/-- All the held packets whose turn has come. -/
def State.releaseHeld (q : Nat) (s : State) : State := s.examineHeld q (s.queue q).held.length

/-- Is a packet of this sequence number being checked already (R39)?
DESIGN CHOICE, unsafe (log 16). -/
def State.inChecks (c : Cmd) (s : State) : Bool :=
  !c.unseq && s.host.checked.any fun k => k.cmd.queue == c.queue && k.cmd.seq == c.seq

/-- Step 7 and what follows. -/
def State.takeTag (ring op : Nat) (c : Cmd) (s : State) : State :=
  if (s.queue c.queue).tags.contains c.tag || s.inChecks c then s.refuse ring 1 op c stBusy 1 none
  else ((s.onQueue c.queue fun k => { k with tags := k.tags ++ [c.tag] }).examine op c).releaseHeld c.queue

/-- A packet ahead of NEXT_SEQ is stored and occupies its tag (R40).
DESIGN CHOICE, unsafe (log 16). -/
def State.hold (ring op : Nat) (c : Cmd) (s : State) : State :=
  let k := s.queue c.queue
  if k.tags.contains c.tag || k.held.any (·.cmd.seq == c.seq) then s.refuse ring 1 op c stBusy 1 none
  else
    let now := s.now
    s.onQueue c.queue fun k =>
      { k with tags := k.tags ++ [c.tag], held := k.held ++ [{ opcode := op, cmd := c, arrival := now }] }

/-- A copy of the latest reply for a sequence number, under the duplicate's tag (R39). -/
def State.repeatReply (ring : Nat) (c : Cmd) (d : DupRec) (s : State) : State :=
  let kept : Option Reply := (s.host.journal.live.find? (Live.isOf c)).bind (·.reply)
  let base : Reply := kept.getD (mkReply d.opcode c d.final d.block [])
  s.post { base with via := c.via, tag := c.tag, unseq := c.unseq, fence := c.fence, dup := true, holdsTag := false,
                     ring := ring, first := true }

/-- A sequence number behind NEXT_SEQ (R39).
DESIGN CHOICE, unsafe (log 16). -/
def State.duplicate (ring op : Nat) (c : Cmd) (s : State) : State :=
  match (s.queue c.queue).dup.find? (·.seq == c.seq) with
  | none => s.refuse ring 1 op c stSequence 3 none
  | some d => if d.trailer == c.trailer then s.repeatReply ring c d else s.refuse ring 1 op c stSequence 2 none

/-- Step 6: the sequence number's distance from NEXT_SEQ (R38). -/
def State.classify (ring op : Nat) (c : Cmd) (s : State) : State :=
  let d := toSigned 32 (wrap 32 (c.seq + 2 ^ 32 - (s.queue c.queue).nextSeq))
  if d = 0 then s.takeTag ring op c
  else if 1 ≤ d ∧ d ≤ 127 then s.hold ring op c
  else if 128 ≤ d then s.refuse ring 1 op c stSequence 1 none
  else if -1024 ≤ d then s.duplicate ring op c
  else s.refuse ring 1 op c stSequence 3 none

/-- Steps 5 to 11: in a power fail a sequenced packet gets no reply (R399).
DESIGN CHOICE, unsafe (log 18). -/
def State.sequence (ring op : Nat) (c : Cmd) (s : State) : State :=
  if c.unseq then s.takeTag ring op c
  else if s.host.journal.acceptStopped then s
  else if !s.host.journal.bankA.inService then s.refuse ring 1 op c stFaultJournal 1 none
  else if !s.host.journal.bankB.inService then s.refuse ring 1 op c stFaultJournal 2 none
  else s.classify ring op c

/-- A packet has come whole: steps 1 to 4 of Table 2.4, the answer of a busy device, and the rest. `ring` is the queue
whose submission ring brought it.
DESIGN CHOICE, safe (log 10); DESIGN CHOICE, unsafe (log 16); DEDUCED, safe (log 17). -/
def State.receive (ring : Option Nat) (via : Via) (b : List Byte) (s : State) : State :=
  let c := pkCmd via b
  let op := pkOpcode b
  let r := ring.getD c.queue
  let u := 2 * maskBit via.transport
  let s := (s.unitItem u (b.take 14)).unitItem (u + 1) (b.take (b.length - 4))
  if b.length < 16 || u16 b 0 != 0x6D4B || crc16 (b.take 14) != u16 b 14 then s.refuse r (pkVersion b) op c stCheck 1 (some (b.take 14))
  else if b.length != 20 + 16 * pkLength b then s.refuse r (pkVersion b) op c stLength 1 none
  else if crc32c (b.take (b.length - 4)) != c.trailer then s.refuse r (pkVersion b) op c stCheck 2 none
  else match s.headerFault ring via b with
    | some d => s.refuse r (pkVersion b) op c stHeader d none
    | none => match s.busyDetail with
      | some d => s.refuse r (pkVersion b) op c stBusy d none
      | none => s.sequence r op c

/-! ## JOURNAL_ACCEPT (R392) -/

/-- The packet of a queue that waits for step 12. -/
def State.nextChecked (q : Nat) (s : State) : Option Checked := s.host.checked.find? (·.cmd.queue == q)

def State.dropChecked (k : Checked) (s : State) : State :=
  s.onHost fun h => { h with checked := h.checked.filter (· != k) }

/-- The entry, the advanced NEXT_SEQ and the duplicate record of an accepted packet (R392). -/
def State.enter (k : Checked) (st : EntryState) (b : StatusBlock) (r : Option Reply) (s : State) : State :=
  let c := k.cmd
  let s := s.onJournal fun j =>
    { j with jixNext := wrap 48 (j.jixNext + 1),
             live := j.live ++ [{ jix := j.jixNext, state := st, opcode := k.opcode, cmd := c, reply := r }] }
  let s := s.onQueue c.queue fun q => { q with nextSeq := wrap 32 (q.nextSeq + 1) }
  s.recordDup c.queue
    { seq := c.seq, trailer := c.trailer, opcode := k.opcode, final := false, rejected := false, dataDropped := false, block := b }

/-- The entry, NEXT_SEQ and the duplicate record are durable: the packet is accepted and its interim reply goes. A
RESET_WARM ends the granting of credits (R65). -/
def State.accept (k : Checked) (s : State) : State :=
  let c := k.cmd
  let i := s.interim k.opcode c
  let b := s.block i.1 i.2.1 0
  let r := mkReply k.opcode c false b []
  let s := s.enter k i.2.2 b (some r)
  let s := (s.snoop (0x40 + c.queue) (packetBytes k.opcode c)).post r
  if k.opcode = 0x0110 then s.onPower fun p => { p with resetWarm := some c } else s

/-- What must hold as a packet is accepted, beside the checks it has passed: an unlock serves one accepted LEDGER_WRITE, and a challenge
one response (R236). -/
def State.acceptCheck (op : Nat) (c : Cmd) (s : State) : Verdict :=
  firstFail [locked3 (op == 0x0406 && s.unlockBarred c.payload), locked3 (s.needsUnlock op c.payload && !s.unlockOpen)]

/-- What step 12 makes of a packet: the rejection of steps 8 to 11, or the check that acceptance itself makes. -/
def State.settled (k : Checked) (s : State) : Verdict :=
  match k.rejection with
  | some r => .reject r.1 r.2
  | none => s.acceptCheck k.opcode k.cmd

/-- A packet that cannot be made durable: no sequence number is consumed; its tag is free with its reply (R47). -/
def State.notDurable (bank : Nat) (k : Checked) (s : State) : State :=
  s.post (mkReply k.opcode k.cmd true (s.block stFaultJournal (bank + 1) 0) [])

/-- What acceptance itself uses up (R236): any LEDGER_WRITE ends an open unlock, another command the one that it needs. -/
def State.acceptUse (op : Nat) (c : Cmd) (s : State) : State :=
  if op = 0x0406 then (if u8 c.payload 0 = 1 then s.takeResponse else s)
  else if op = 0x0407 || s.needsUnlock op c.payload then s.useUnlock
  else s

/-- JOURNAL_ACCEPT: the entry, NEXT_SEQ and the duplicate record are written, of a rejection only the last two; what read back wrong in
a bank is written once more, and a second failure takes the bank out (R392, R395).
DESIGN CHOICE, safe (log 10); DESIGN CHOICE, unsafe (log 14); DESIGN CHOICE, unsafe (log 18). -/
def journalAccept (q : Nat) (rb : ReadBack) (s : State) : State :=
  if !s.executes || s.host.journal.acceptStopped then s else
  match s.nextChecked q with
  | none => s
  | some k =>
    let s := s.dropChecked k
    let s := if rb.a1 || rb.a2 then s else s.bankOut 0
    let s := if rb.b1 || rb.b2 then s else s.bankOut 1
    if !(s.bank 0).inService then s.notDurable 0 k
    else if !(s.bank 1).inService then s.notDurable 1 k
    else match s.settled k with
      | .reject st d => (s.rejectConsumed (opInfo k.opcode) k.opcode k.cmd st d).releaseHeld q
      | .ok => ((s.acceptUse k.opcode k.cmd).accept k).releaseHeld q

def execJournalAccept (q : Nat) (rb : ReadBack) (s : State) : Result := .next (journalAccept q rb s)

/-! ## HOLD_EXPIRE (R40) -/

/-- HOLD_EXPIRE: 10 ms after its arrival a packet still held is rejected. -/
def holdExpire (q seq : Nat) (s : State) : State :=
  match (s.queue q).held.find? fun h => h.cmd.seq == seq && s.since h.arrival (ms 10) with
  | some h => s.rejectHeld h
  | none => s

def execHoldExpire (q seq : Nat) (s : State) : Result := .next (holdExpire q seq s)

/-! ## Room in the live area (R394) -/

/-- Units taken by live entries and by packets taken that may still become entries.
DEDUCED, safe (log 19). -/
def State.liveUnits (s : State) : Nat :=
  let of (c : Cmd) : Nat := entryUnits c.via.transport (cmdLen c)
  ((s.host.journal.live.map fun l => of l.cmd) ++ ((s.host.checked.filter (·.rejection.isNone)).map fun k => of k.cmd) ++
   (s.host.queues.map fun q => q.held.map fun h => of h.cmd).flatten).foldl (· + ·) 0

/-- Has the live area of 22 KiB room for a packet of these bytes?
DEDUCED, safe (log 19). -/
def State.roomFor (t : Transport) (units : Nat) (s : State) : Bool := decide (s.liveUnits + entryUnits t units ≤ 1408)

/-- May a packet be taken from SPI or TRDP: UNSEQ packets need no entry? -/
def State.mayTake (t : Transport) (b : List Byte) (s : State) : Bool := pkUnseq b || s.roomFor t (pkLength b)

end Sys2Proof.Machine
end

