-- ==== Sys2Proof/Machine/Replay.lean ====
section
/-!
DEFINITION. The journal replay of a takeover and a warm start (R21, R398), the end of a takeover, and the warm start (R65,
R403, R410, R411, Table 16.3) with the steps it takes in time.
-/
namespace Sys2Proof.Machine

/-! ## Commands that a block carries on (R396) -/

/-- The commands of an emitter's play, fade and slot transfers. -/
def Emitter.cmds (e : Emitter) : List Cmd :=
  (match e.out with
   | .direct _ _ _ _ _ c => [c]
   | _ => []) ++ (e.fade.map (·.cmd)).toList ++ e.transfers.map (·.cmd)

/-- Every command that waits or runs on in a block. -/
def State.carriers (s : State) : List Cmd :=
  ((s.health.queue ++ s.health.running).map fun a => a.cmds.map (·.2)).flatten ++
  (s.emission.emitters.map Emitter.cmds).flatten ++ s.sets.waiting.map (·.2) ++ s.sets.commits.map (·.cmd) ++
  (s.motion.loops.filterMap fun l => l.inject.map (·.cmd)) ++ s.motion.cameo.cmd.toList ++ s.bias.cmd.toList ++
  (s.angle.pendingReset.map (·.2.1)).toList ++ s.angle.resetCmds.map (·.2.1) ++ s.angle.cycCmds.map (·.2) ++
  (s.angle.learn.map (·.cmd)).toList ++ (s.net.wait.map (·.cmd)).toList ++ (s.aux.calRun.map (·.cmd)).toList ++
  (s.aux.learn.map (·.cmd)).toList ++ s.power.powerDown.map (·.1) ++ s.power.resetWarm.toList

/-- Does a live command complete where it runs?
DEDUCED, unsafe (log 25). -/
def State.carried (l : Live) (s : State) : Bool :=
  s.host.journal.pendingIdx.any (·.2 == l.jix) || s.carriers.any (Live.isOf · l)

/-! ## The copies of the two banks (R393) -/

/-- The copy of an entry in a bank as a replay reads it: its STATE, or none where it fails its ECC or its trailer. -/
def State.readCopy (bad : List BadCopy) (odd : List OddCopy) (b : Nat) (l : Live) (s : State) : Option EntryState :=
  if !s.copyGood b l.jix || bad.contains (.entry b l.jix) then none else
  some ((odd.findSome? fun o => match o with
    | .entry k j st => if k == b && j == l.jix then some (EntryState.ofCode st) else none
    | .nextSeq _ _ _ => none).getD l.state)

/-- The STATE that stands, bank A's first, and whether the copies differ; none for an unreadable entry. -/
def State.readCopies (bad : List BadCopy) (odd : List OddCopy) (l : Live) (s : State) : Option (EntryState × Bool) :=
  match s.readCopy bad odd 0 l, s.readCopy bad odd 1 l with
  | some a, some b => some (a, a != b)
  | some a, none => some (a, false)
  | none, some b => some (b, false)
  | none, none => none

/-- The higher of two NEXT_SEQ values stands. The packet that it covers is an accepted one whose entry both banks have; of a rejection
only the number is used.
DEDUCED, unsafe (log 25). -/
def State.raiseNext (s : State) (o : OddCopy) : State :=
  match o with
  | .entry _ _ _ => s
  | .nextSeq b q v =>
    let next := (s.queue q).nextSeq
    let d := toSigned 32 (wrap 32 (v + 2 ^ 32 - next))
    if !(s.bank b).inService || d ≤ 0 then s else
    match s.host.checked.find? fun k => k.cmd.queue == q && k.cmd.seq == next && k.rejection.isNone && d == 1 with
    | some k => s.enter k .accepted (s.block stAccepted 0 0) none
    | none => s.onQueue q fun x => { x with nextSeq := wrap 32 v }

/-- The control words are read (R393, R395): a bank with a bad one leaves service, and NEXT_SEQ is made good. -/
def State.restoreControl (bad : List BadCopy) (odd : List OddCopy) (s : State) : State :=
  let out (b : Nat) (s : State) : State := if bad.contains (.control b) then s.bankOut b else s
  odd.foldl State.raiseNext (out 1 (out 0 s))

/-! ## The replay (R398) -/

/-- A final reply that is sent after the start: its data is gone, which DUP shows, and no submission entry stands for it.
DEDUCED, unsafe (log 25). -/
def Reply.owed (dup : Bool) (r : Reply) : Reply :=
  { r with data := [], dup := r.dup || dup || !r.data.isEmpty, via := { r.via with sqIndex := 0xFFFF } }

/-- The recorded final reply of a DONE entry is owed, and kept so; the duplicate record notes that its data is gone (R402). -/
def State.oweReply (dup : Bool) (l : Live) (r : Reply) (s : State) : State :=
  let o := r.owed dup
  let s := (s.post o).onLive l.cmd fun x => { x with reply := some o }
  if r.data.isEmpty then s
  else s.updateDup l.cmd.queue l.cmd.seq l.cmd.trailer fun d => { d with dataDropped := true }

/-- The objects on which the model applies commands in the order of their indices (R396). -/
def orderedObjects (op : Nat) (p : List Byte) : List Obj :=
  let t := touchesOwn op p
  (if op = 0x0301 then [.activeSet] else if t.needs.contains .shadow then [.shadowSet] else []) ++
  (if op = 0x0706 then [.inhibit srcHost] else if op = 0x0112 then [.binding (u8 p 0)] else []) ++
  ((storedRecord op p).toList.map Obj.record)

/-- The completion block of an entry whose effect is done: that of its own index, or of the object it acts on, whose APPLIED_INDEX has
reached it (R398).
DEDUCED, unsafe (log 25). -/
def State.completion (l : Live) (s : State) : Option StatusBlock :=
  let a := s.host.journal.applied
  let own := a.find? (·.jix == l.jix)
  let past := a.find? fun x => l.jix ≤ x.jix && (orderedObjects l.opcode l.cmd.payload).contains x.obj
  (own.orElse fun _ => past).map (·.block)

/-- One live entry, in the order of its journal index. The recorded reply of a DONE entry is owed; when it is not among those that
waited, its delivery is not confirmed, and DUP is set (R58). What is run anew is listed, and runs in that order. -/
def State.resolve (waited : List Reply) (bad : List BadCopy) (odd : List OddCopy) (s : State) (l : Live) : State :=
  match s.readCopies bad odd l with
  | none => s.finish l.opcode l.cmd stFault 3 0 []
  | some x =>
    let s := if x.2 then s.onHealth fun h => { h with bankDiverged := true } else s
    match x.1, l.reply.filter (·.final) with
    | .done, some r => s.oweReply (!waited.contains r) l r
    | _, _ =>
      if s.carried l then s
      else match s.completion l with
        | some b => s.finishWith l.opcode l.cmd b []
        | none => (s.onLive l.cmd fun y => { y with state := .accepted }).onJournal fun j =>
            { j with requeued := j.requeued ++ [l.jix] }

/-- Is a reply that waits an answer to no live entry, which is sent again (R58): a rejection, or a final reply whose entry is gone?
UNSEQ packets and interim replies get none (R402).
DEDUCED, unsafe (log 25). -/
def State.survives (r : Reply) (s : State) : Bool :=
  r.final && !r.unseq && !s.host.journal.live.any fun l => l.cmd.queue == r.queue && l.cmd.seq == r.seq && l.cmd.tag == r.tag

/-- The replay: the control words are made good, what was not accepted is forgotten, and each live entry is resolved.
DEDUCED, unsafe (log 25). -/
def State.replay (bad : List BadCopy) (odd : List OddCopy) (s : State) : State :=
  let s := s.restoreControl bad odd
  let waited := s.host.waiting
  let kept := waited.filter fun r => s.survives r
  let s := (s.onHost fun h => { h with waiting := kept }).dropUnaccepted
  let s := s.onJournal fun j => { j with requeued := [] }
  let order := sortBy (fun a b : Live => decide (a.jix < b.jix)) s.host.journal.live
  let s := (order.foldl (State.resolve waited bad odd) s).repairCopies
  s.onHost fun h => { h with waiting := h.waiting.map (Reply.owed false) }

/-- TAKEOVER_COMPLETE: the promoted pair has replayed the journal, and packets are taken again (R21).
DEDUCED, unsafe (log 117). -/
def takeoverComplete (bad : List BadCopy) (odd : List OddCopy) (s : State) : State :=
  if !s.power.takeover then s else
  (s.replay bad odd).withStatus (State.onPower fun p => { p with takeover := false })

def execTakeoverComplete (bad : List BadCopy) (odd : List OddCopy) (s : State) : Result :=
  .next (takeoverComplete bad odd s)

/-! ## Warm start -/

/-- Every frame still held is sent again on the ports that carry it, with a new SequenceNr (R403).
DESIGN CHOICE, unsafe (log 26). -/
def State.resendFrames (s : State) : State :=
  let a := s.linkUp 0
  let b := s.linkUp 1
  (s.onFabric fun k =>
    { k with egress := k.egress.map fun f =>
        { f with waitA := scPortA f.settings && a, waitB := scPortB f.settings && b, onA := false, onB := false,
                 prp := none } }).dropEgress

/-- Activities that were running begin again (R447).
DESIGN CHOICE, unsafe (log 26). -/
def State.restartActivities (s : State) : State :=
  let now := s.now
  s.onHealth fun h => { h with running := h.running.map fun a => { a with start := some now } }

/-- Every lane in use that has not failed warms up anew (R122).
DESIGN CHOICE, unsafe (log 26). -/
def State.warmLanes (s : State) : State :=
  ((List.range 41).filter fun n => (s.lane n).inUse && !(s.lane n).failed).foldl State.warmLane s

/-- Step 1: the start hold, and what a warm start discards. -/
def State.quiesce (s : State) : State :=
  let s := s.registerSource srcStart
  let s := (List.range 32).foldl (fun s n => s.closeFrame n) s
  (s.discardLearn 2).onNvm fun n => { n with stageId := none, stage := [], stageTop := 0 }

/-- The warm start goes on to a step. -/
def State.warmTo (w : WarmStep) (s : State) : State :=
  s.onPower fun p => { p with warm := p.warm.map fun x => { x with step := w } }

/-- Step 8: the release; RESET_WARM is answered, and INT_STATUS gains bit 5 (R58). In the recovery-only state the start hold
stays (R412). -/
def State.warmRelease (w : WarmRun) (s : State) : State :=
  s.withStatus fun s =>
    let c := s.power.resetWarm
    let s := s.resendFrames.restartActivities
    let s := if w.recovery then s else s.clearSource srcStart
    let s := s.onPower fun p =>
      { p with resetWarm := none, warm := none, ready := !w.recovery, phase := if w.recovery then .recovery else .ready }
    match c with
    | some c => s.done 0x0110 c 0
    | none => s

/-- A warm start whose firmware or data test fails becomes a cold start, through Pavane (R411). -/
def State.escalate (s : State) : State :=
  (s.startPavane .escalation).onPower fun p => { p with coldStartAfter := true }

/-- The steps of Table 16.3 follow one another, each at its typical instant.
DESIGN CHOICE, unsafe (log 26). -/
def State.warmStep (s : State) : State :=
  match s.power.warm with
  | none => s
  | some w =>
    if s.power.phase != .warm then s else
    let due (n : Nat) : Bool := s.since w.since (us n)
    match w.step with
    | .restart =>
      if !due 6000 then s
      else if !w.imageOk then s.escalate
      else (s.replay w.bad w.odd).warmTo .replay
    | .replay => if due 6600 then s.warmTo .pace else s
    | .pace => if due 8600 then (s.measurePace.deliverPace.warmLanes).warmTo .lanes else s
    | .lanes => if due 9800 then s.warmRelease w else s

/-- WARM_START: the first step of Table 16.3, once a RESET_WARM asks for it; the others follow in time.
DESIGN CHOICE, unsafe (log 26). -/
def warmStart (imageOk : Bool) (bad : List BadCopy) (odd : List OddCopy) (s : State) : State :=
  if !s.executes || s.power.resetWarm.isNone || s.power.phase == .pavane then s
  else s.withStatus fun s =>
    let now := s.now
    s.quiesce.onPower fun p =>
      { p with phase := .warm, ready := false,
               warm := some { since := now, step := .restart, imageOk := imageOk, bad := bad, odd := odd, recovery := p.phase == .recovery } }

def execWarmStart (imageOk : Bool) (bad : List BadCopy) (odd : List OddCopy) (s : State) : Result :=
  .next (warmStart imageOk bad odd s)

end Sys2Proof.Machine
end

