-- ==== Sys2Proof/Machine/Links.lean ====
section
/-!
DEFINITION. The transports (R51 to R61, R394, R455): the PCIe register window and its rings, TRDP message data, and the SPI
recovery port.
-/
namespace Sys2Proof.Machine

/-! ## PCIe: the register window (R53, R54, Table 2.8) -/

def State.onRing (q : Nat) (f : Ring → Ring) (s : State) : State := s.onQueue q fun k => { k with ring := f k.ring }

def State.ring (q : Nat) (s : State) : Ring := (s.queue q).ring

/-- The endpoint answers: its reset is released, its clock runs, and the host has enabled its memory space.
PRESUMED, unsafe (log 155). -/
def State.pcieUp (s : State) : Bool :=
  s.host.pcie.perstHigh && s.host.pcie.config.memory && s.power.running && !s.power.halted && s.clk.started && !s.power.spiOnly

/-- Entries of a ring whose size field is `n`. -/
def depth (n : Nat) : Nat := 2 ^ n

/-- An index of a ring; one that the size does not hold wraps.
DEDUCED, unsafe (log 22). -/
def ringIndex (size v : Nat) : Nat := if size = 0 then v % 1024 else v % depth size

/-- SQ_DOORBELL. -/
def sqDoorbell (q v : Nat) (s : State) : State :=
  if !s.pcieUp then s else s.onRing q fun r => { r with sqTail := ringIndex r.sqSize v }

def execSqDoorbell (q value : Nat) (s : State) : Result := .next (sqDoorbell q value s)

/-- RQ_DOORBELL. -/
def rqDoorbell (q v : Nat) (s : State) : State :=
  if !s.pcieUp then s else s.onRing q fun r => { r with rqHead := ringIndex r.rqSize v }

def execRqDoorbell (q value : Nat) (s : State) : Result := .next (rqDoorbell q value s)

/-- May a ring be enabled with these settings? The reserved low bits of a base read 0 and the spec names no other invalid base, so the
sizes alone decide.
DESIGN CHOICE, unsafe (log 121). -/
def Ring.sized (r : Ring) : Bool := 4 ≤ r.sqSize && r.sqSize ≤ 10 && 8 ≤ r.rqSize && r.rqSize ≤ 10

/-- ENABLE written to 1: with a size out of range the queue stays disabled; after a halt it goes on past the faulty
entry (R54, R56).
DEDUCED, unsafe (log 22). -/
def Ring.enable (r : Ring) : Ring :=
  if r.enabled then r
  else if !r.sized then { r with qError := 6 }
  else if r.halted then
    { r with enabled := true, armed := true, halted := false, qError := 0, sqHead := ringIndex r.sqSize (r.sqHead + 1) }
  else { r with enabled := true, armed := true }

/-- Q_ENABLE. -/
def qEnable (q : Nat) (s : State) : State := if !s.pcieUp then s else s.onRing q Ring.enable

def execQEnable (q : Nat) (s : State) : Result := .next (qEnable q s)

/-- Q_DISABLE: only fetching stops. -/
def qDisable (q : Nat) (s : State) : State := if !s.pcieUp then s else s.onRing q fun r => { r with enabled := false }

def execQDisable (q : Nat) (s : State) : Result := .next (qDisable q s)

/-- INT_STATUS_CLEAR: the bits written 1 clear. -/
def intStatusClear (mask : Nat) (s : State) : State :=
  if !s.pcieUp then s else
  s.onHost fun h => { h with pcie := { h.pcie with intStatus := h.pcie.intStatus &&& ~~~ (BitVec.ofNat 6 mask) } }

def execIntStatusClear (mask : Nat) (s : State) : Result := .next (intStatusClear mask s)

/-- The base whose low or high half is written; its low 12 bits are reserved. -/
def setBase (high : Bool) (v old : Nat) : Nat :=
  if high then v % 2 ^ 32 * 2 ^ 32 + old % 2 ^ 32 else old / 2 ^ 32 * 2 ^ 32 + v % 2 ^ 32 / 4096 * 4096

/-- A write of a ring register at its offset in the queue's block; SQ_HEAD, RQ_TAIL and PHASE stand, also beyond a new size.
DEDUCED, unsafe (log 22); DESIGN CHOICE, unsafe (log 157). -/
def Ring.write (o v : Nat) (r : Ring) : Ring :=
  match o with
  | 0x00 => { r with sqBase := setBase false v r.sqBase }
  | 0x04 => { r with sqBase := setBase true v r.sqBase }
  | 0x08 => { r with sqSize := v % 16 }
  | 0x14 => { r with rqBase := setBase false v r.rqBase }
  | 0x18 => { r with rqBase := setBase true v r.rqBase }
  | 0x1C => { r with rqSize := v % 16 }
  | 0x28 => { r with dataBase := setBase false v r.dataBase }
  | 0x2C => { r with dataBase := setBase true v r.dataBase }
  | _ => r

/-- Do all tags in use belong to replies that a start owes and that wait until the host has set this ring up (R400)?
DEDUCED, unsafe (log 22). -/
def State.owedOnly (q : Nat) (s : State) : Bool :=
  !(s.ring q).armed && (s.queue q).tags.all fun t =>
    s.host.waiting.any fun r => r.final && r.holdsTag && r.queue == q && r.tag == t && r.via.transport == .pcie

/-- Is a ring register in use, so that a write is ignored with Q_ERROR 0x05 (R54): the SQ registers while ENABLED, the others while
CREDITS are below 128?
DEDUCED, unsafe (log 22). -/
def State.ringBusy (q o : Nat) (s : State) : Bool :=
  if o ≤ 0x08 then (s.ring q).enabled
  else [0x14, 0x18, 0x1C, 0x28, 0x2C].contains o && decide (s.credits q < 128) && !s.owedOnly q

/-- A write to queue `q`'s block. -/
def State.writeRing (q o v : Nat) (s : State) : State :=
  if o = 0x0C then sqDoorbell q v s
  else if o = 0x24 then rqDoorbell q v s
  else if o = 0x30 then (if bit v 0 then qEnable q s else qDisable q s)
  else if s.ringBusy q o then s.onRing q fun r => { r with qError := 5 }
  else s.onRing q (Ring.write o v)

/-- REGISTER_WRITE: a 32-bit write to the window; reserved and read-only offsets ignore it.
DESIGN CHOICE, safe (log 23). -/
def registerWrite (off v : Nat) (s : State) : State :=
  if !s.pcieUp then s
  else if off = 0x018 then intStatusClear v s
  else if off = 0x01C then s.onHost fun h => { h with pcie := { h.pcie with intEnable := BitVec.ofNat 6 v } }
  else if 0x100 ≤ off && off < 0x200 && off % 4 = 0 then s.writeRing ((off - 0x100) / 0x40) ((off - 0x100) % 0x40) v
  else s

def execRegisterWrite (offset value : Nat) (s : State) : Result := .next (registerWrite offset value s)

/-- Q_STATUS. IDLE shows that no tag is in use, as its default beside CREDITS 128 suggests.
DEDUCED, unsafe (log 122). -/
def State.qStatus (q : Nat) (s : State) : Nat :=
  let r := s.ring q
  let n := s.credits q
  n + flag r.enabled 8 + flag r.halted 9 + flag ((s.queue q).mask.getLsbD 0) 10 + flag (n == 128) 11

/-- What a read of queue `q`'s block returns. -/
def State.readRing (q o : Nat) (s : State) : Nat :=
  let r := s.ring q
  match o with
  | 0x00 => r.sqBase % 2 ^ 32
  | 0x04 => r.sqBase / 2 ^ 32
  | 0x08 => r.sqSize
  | 0x10 => r.sqHead
  | 0x14 => r.rqBase % 2 ^ 32
  | 0x18 => r.rqBase / 2 ^ 32
  | 0x1C => r.rqSize
  | 0x20 => r.rqTail
  | 0x28 => r.dataBase % 2 ^ 32
  | 0x2C => r.dataBase / 2 ^ 32
  | 0x30 => flag r.enabled 0
  | 0x34 => s.qStatus q
  | 0x38 => r.qError
  | _ => 0

/-- What a read of the window returns (Table 2.8); 0 at reserved offsets. -/
def State.readWindow (off : Nat) (s : State) : Nat :=
  match off with
  | 0x000 => 0x71920001 + 256 * (Config.stepping % 256)
  | 0x004 => 0x00FF7F04
  | 0x008 => s.devStatus
  | 0x010 => Config.serial % 2 ^ 32
  | 0x014 => Config.serial / 2 ^ 32 % 2 ^ 32
  | 0x018 => s.host.pcie.intStatus.toNat
  | 0x01C => s.host.pcie.intEnable.toNat
  | _ => if 0x100 ≤ off ∧ off < 0x200 then s.readRing ((off - 0x100) / 0x40) ((off - 0x100) % 0x40) else 0

/-- PCIE_PERST (R455): the low level gives configuration space and the registers their defaults; nothing else is reset. After a high one
the host configures the endpoint anew.
PRESUMED, unsafe (log 155). -/
def pciePerst (l : Perst) (s : State) : State :=
  match l with
  | .high c => s.onHost fun h => { h with pcie := { h.pcie with perstHigh := true, config := c } }
  | .low => s.onHost fun h =>
    { h with pcie := { perstHigh := false, config := PcieConfig.reset, intStatus := 0, intEnable := 0 },
             queues := h.queues.map fun k => { k with ring := Ring.reset } }

def execPciePerst (level : Perst) (s : State) : Result := .next (pciePerst level s)

/-! ## PCIe: submission rings (R55, R56, Table 2.9) -/

/-- Q_ERROR of a submission entry; 0 for a good one. -/
def entryFault (readError : Bool) (d : List Byte) : Nat :=
  if u64 d 0 % 16 != 0 then 1
  else if u16 d 8 < 20 || 4100 < u16 d 8 then 2
  else if !zeroAt d 10 6 then 3
  else if readError then 4 else 0

/-- Is the device to read the next entry of queue `q`: the queue fetches, the ring has one, and there is a credit for it? -/
def State.fetches (q : Nat) (s : State) : Bool :=
  let r := s.ring q
  decide (q < 4) && s.pcieUp && s.host.pcie.config.master && r.enabled && !r.halted && r.sqHead != r.sqTail && decide (0 < s.credits q) && s.busyDetail.isNone

/-- Is a packet of `units` units to be fetched: the live area has room for it too (R394)? -/
def State.mayFetch (q units : Nat) (s : State) : Bool := s.fetches q && s.roomFor .pcie units

/-- DESCRIPTOR_FETCH: a faulty entry halts the queue without a reply (R56); a good one brings its packet to receipt, once there is room
for it. -/
def descriptorFetch (q : Nat) (readError : Bool) (desc packet : List Byte) (s : State) : State :=
  let e := entryFault readError desc
  if !s.fetches q then s
  else if e != 0 then (s.onRing q fun r => { r with halted := true, qError := e }).interrupt 4
  else if !s.roomFor .pcie ((u16 desc 8 - 20) / 16) then s
  else
    let i := (s.ring q).sqHead
    let s := s.onRing q fun r => { r with sqHead := ringIndex r.sqSize (r.sqHead + 1) }
    s.receive (some q) { transport := .pcie, sqIndex := i, route := { addr := 0, port := 0, session := [] } }
      (fit (u16 desc 8) packet)

def execDescriptorFetch (q : Nat) (readError : Bool) (desc packet : List Byte) (s : State) : Result :=
  .next (descriptorFetch q readError desc packet s)

/-! ## PCIe: reply rings (R57, Table 2.10) -/

/-- A reply ring entry. -/
def Reply.entry (phase : Bool) (r : Reply) : List Byte :=
  let b := r.header ++ r.block.bytes
  b ++ le 4 (crc32c (b ++ r.data)) ++ le 2 r.data.length ++ le 2 r.via.sqIndex ++ zeros 23 ++ le 1 (if phase then 1 else 0)

/-- Has the reply ring room, measured against the last RQ_DOORBELL, and has the host set it up? -/
def Ring.hasRoom (r : Ring) : Bool := r.armed && r.sized && ringIndex r.rqSize (r.rqTail + 1) != r.rqHead

/-- The tail moves past an entry; PHASE inverts on a wrap. -/
def Ring.advance (r : Ring) : Ring :=
  let t := ringIndex r.rqSize (r.rqTail + 1)
  { r with rqTail := t, phase := if t = 0 then !r.phase else r.phase }

/-- The oldest reply for a ring. -/
def State.ringReply (q : Nat) (s : State) : Option Reply :=
  s.host.waiting.find? fun r => r.via.transport == .pcie && r.ring == q && s.mayDeliver r

/-- REPLY_RING_WRITE: reply data, then the entry, then the interrupt; the transport has taken the reply.
DEDUCED, unsafe (log 22). -/
def replyRingWrite (q : Nat) (s : State) : State :=
  let k := s.ring q
  if !s.pcieUp || !s.host.pcie.config.master || !k.hasRoom then s else
  match s.ringReply q with
  | none => s
  | some r =>
    let s := s.emit (.ringEntry q k.rqTail (k.dataBase + 4096 * r.tag) r.data (r.entry k.phase))
    ((s.onRing q Ring.advance).taken r).interrupt q

def execReplyRingWrite (q : Nat) (s : State) : Result := .next (replyRingWrite q s)

/-! ## TRDP (R59, R367, R394) -/

/-- MSG_TYPE of a request, the two letters "Mr". -/
def mrType : Nat := 0x4D72

/-- The four permitted source addresses.
DESIGN CHOICE, unsafe (log 158). -/
def tcSources (p : List Byte) : List Nat := (List.range 4).map fun k => beNat (slice p (48 + 4 * k) 4)

/-- Does a message fail the topology or the source filter? -/
def topoWrong (p : List Byte) (m : TrdpMessage) : Bool :=
  (tcEtb p != 0 && m.etbTopoCnt != 0 && m.etbTopoCnt != tcEtb p) ||
  (tcOpTrn p != 0 && m.opTrnTopoCnt != 0 && m.opTrnTopoCnt != tcOpTrn p)

def sourceWrong (p : List Byte) (m : TrdpMessage) : Bool :=
  (tcSources p).any (· != 0) && !((tcSources p).filter (· != 0)).contains m.src

/-- The packet of a request goes to receipt. -/
def State.takeTrdp (m : TrdpMessage) (s : State) : State :=
  s.receive none
    { transport := .trdp, sqIndex := 0xFFFF, route := { addr := m.src, port := m.srcPort, session := fit 16 m.session } } m.data

/-- Does the device take message data: MD_EN is set, and it is in no state that serves PCIe and SPI alone (R62)? -/
def State.trdpServed (s : State) : Bool :=
  s.netPowered && s.power.running && !s.power.halted && !s.recoveryOnly && tcMd s.net.trdp

/-- A request that passed the filters is taken, waits in the store of 8, or is discarded and counted. -/
def State.storeTrdp (m : TrdpMessage) (s : State) : State :=
  let store := s.host.journal.trdpStore
  if store.isEmpty && s.mayTake .trdp m.data then s.takeTrdp m
  else if store.length < 8 then s.onJournal fun j => { j with trdpStore := j.trdpStore ++ [m] }
  else s.onJournal fun j => { j with fullDiscard := satInc 32 j.fullDiscard }

/-- TRDP_MR_RECEIVE: other message types of the request ComId are counted; an Mr passes the filters first.
DESIGN CHOICE, safe (log 20). -/
def trdpMrReceive (m : TrdpMessage) (s : State) : State :=
  let p := s.net.trdp
  if !s.trdpServed || m.comId != tcMdReq p then s
  else if m.msgType != mrType then s.onHost fun h => { h with trdpIgnored := h.trdpIgnored + 1 }
  else if topoWrong p m then s.onNet fun n => { n with mdRejected := satInc 32 n.mdRejected, topoMismatch := true }
  else if sourceWrong p m then s.onNet fun n => { n with mdRejected := satInc 32 n.mdRejected, srcReject := true }
  else s.storeTrdp m

def execTrdpMrReceive (m : TrdpMessage) (s : State) : Result := .next (trdpMrReceive m s)

/-- A request in a reassembled UDP datagram: to the message port, with a right checksum and header check.
PRESUMED, unsafe (log 97). -/
def mdOfDatagram (src : Nat) (own d : List Byte) : Option TrdpMessage :=
  let be_ (o n : Nat) : Nat := beNat (slice d o n)
  let len := be_ 28 4
  if be_ 2 2 = trdpMdPort && be_ 4 2 = d.length && 124 + len ≤ d.length && u32 d 120 = crc32 (slice d 8 112) &&
     (be_ 6 2 = 0 || inetCheck (pseudoHead false protoUdp d.length (be 4 src) own ++ d) = 0) then
    some { src := src, srcPort := be_ 0 2, comId := be_ 16 4, msgType := be_ 14 2, etbTopoCnt := be_ 20 4, opTrnTopoCnt := be_ 24 4,
           session := slice d 36 16, data := slice d 124 len }
  else none

/-- The message that a frame completes (R367). -/
def State.completed (p : Nat) (f : NetFrame) (s : State) : Option TrdpMessage :=
  match f.kind with
  | .fragment src ident offset last data =>
    if s.takesFrame p f then
      ((s.withFragment src ident offset last data).bind Reasm.whole).bind (mdOfDatagram src (ncAddr4 s.net.config))
    else none
  | _ => none

/-- NET_FRAME_RECEIVE: a frame has its effect, and the message of a datagram that it completes goes to receipt. -/
def execNetFrameReceive (port : Nat) (frame : NetFrame) (s : State) : Result :=
  let t := netFrameReceive port frame s
  .next (match s.completed port frame with
    | some m => trdpMrReceive m t
    | none => t)

/-! ## SPI (R60, R61, Table 2.11) -/

def State.onSpi (f : Spi → Spi) (s : State) : State := s.onHost fun h => { h with spi := f h.spi }

/-- Does the recovery port answer? -/
def State.spiUp (s : State) : Bool := s.power.running && !s.power.halted

/-- The 16 reply slots of the port; further replies wait behind them. -/
def State.spiSlots (s : State) : List Reply :=
  (s.host.waiting.filter fun r => r.via.transport == .spi && s.mayDeliver r).take 16

/-- The oldest reply for the port. -/
def State.spiReply (s : State) : Option Reply := s.spiSlots.head?

/-- The level of SPI_IRQ_N: low while REPLY_READY is set; released otherwise, and before the port answers (Table 16.5). -/
def State.spiIrqN (s : State) : Bool := !(s.spiUp && s.spiReply.isSome)

/-- The packet in the receive buffer is taken when the live area has room for it. -/
def State.takeSpi (s : State) : State :=
  match s.host.spi.rx with
  | some b =>
    if s.mayTake .spi b then
      (s.onSpi fun p => { p with rx := none }).receive none
        { transport := .spi, sqIndex := 0xFFFF, route := { addr := 0, port := 0, session := [] } } b
    else s
  | none => s

/-- SPI_WRITE_PACKET. -/
def spiWritePacket (b : List Byte) (s : State) : State :=
  if !s.spiUp then s
  else if s.host.spi.rx.isSome || 4100 < b.length then s.onSpi fun p => { p with frameErr := true }
  else (s.onSpi fun p => { p with rx := some b }).takeSpi

def execSpiWritePacket (bytes : List Byte) (s : State) : Result := .next (spiWritePacket bytes s)

/-- The STATUS byte of the port. -/
def State.spiStatus (s : State) : Nat :=
  flagsOf [s.spiReply.isSome, s.host.spi.rx.isSome, s.host.spi.frameErr, s.power.phase == .recovery]

/-- SPI_READ_STATUS: STATUS and the oldest reply's length; FRAME_ERR clears. -/
def spiReadStatus (s : State) : State :=
  if !s.spiUp then s else
  let n := (s.spiReply.map fun r => r.bytes.length).getD 0
  (s.emit (.spiStatus (le 1 s.spiStatus ++ le 2 n))).onSpi fun p => { p with frameErr := false }

def execSpiReadStatus (s : State) : Result := .next (spiReadStatus s)

/-- SPI_READ_REPLY: a reply read to its end frees its slot; one that is not stays at the head.
DESIGN CHOICE, safe (log 21). -/
def spiReadReply (complete : Bool) (s : State) : State :=
  if !s.spiUp || !complete then s else
  match s.spiReply with
  | some r => (s.emit (.spiReply r.bytes)).taken r
  | none => s

def execSpiReadReply (complete : Bool) (s : State) : Result := .next (spiReadReply complete s)

/-- SPI_UNKNOWN_INSTRUCTION. -/
def spiUnknownInstruction (code : Nat) (s : State) : State :=
  if !s.spiUp || (1 ≤ code && code ≤ 3) then s else s.onSpi fun p => { p with frameErr := true }

def execSpiUnknownInstruction (code : Nat) (s : State) : Result := .next (spiUnknownInstruction code s)

/-! ## Packets that waited for room -/

/-- As room comes, the packet in the SPI buffer and the oldest stored request are taken (R394).
DEDUCED, safe (log 19). -/
def State.takeWaiting (s : State) : State :=
  let s := s.takeSpi
  match s.host.journal.trdpStore with
  | m :: rest =>
    if s.mayTake .trdp m.data then (s.onJournal fun j => { j with trdpStore := rest }).takeTrdp m else s
  | [] => s

end Sys2Proof.Machine
end

