-- ==== Sys2Proof/Machine/Pins.lean ====
section
/-!
DEFINITION. The balls of Tables 18.5 and 16.5 (R413, R454): what each drives or shows in a state. VDD_IO33 is an input of the device, and
is given beside the state.
-/
namespace Sys2Proof.Machine

/-- The signals of Table 18.5; differential pairs and groups without a state of their own stand as one. -/
inductive Ball where
  | sipm | t0 | emitOut (e : Nat) | resCtl (k : Nat) | resMon (k : Nat) | excOut | galvoOut | filterIn | mdrvTxd | mdrvRxd
  | encA | encB | encZ | camTrig (k : Nat) | zoneA | zoneB | emitEnA | emitEnB | aux (k : Nat) | heat | fan | hvbSet | mdi (port : Nat)
  | pcieTx | pcieRx | perstN | spiSck | spiMosi | spiCsN | spiMiso | spiIrqN | jtagTck | jtagTrstN | jtagTms | jtagTdi | jtagTdo
  | factoryTest | xtal | pfail
deriving DecidableEq, Repr

/-- What a ball does: a driven level, high impedance, an on-die pull, an open output switch, a DAC's code or its running signal, the code of
HVB_SET, an aux pin's roles, a bias, a termination, a quiet or a working link, an oscillator, a comparator. -/
inductive BallState where
  | driven (high : Bool) | highZ | pulled (high : Bool) | switchOpen | code (n : Nat) | signal | volts (n : Nat) | roles (l : List AuxRole)
  | biased | terminated | quiet | link | off | oscillates | compares
deriving DecidableEq, Repr

/-- Has power-on reset released? -/
def State.released (s : State) : Bool := s.power.running || s.power.halted

/-- The level of MDRV_TXD: the bits of the last downlink frame, 100 ticks each, idle high before and after (R160). -/
def State.mdrvTxd (s : State) : Bool :=
  let m := s.mdrv
  let k := (s.now - m.strobeAt) / 100
  if !m.running || m.lastFrame.length ≠ 12 || 120 ≤ k then true
  else if k % 10 = 0 then false
  else k % 10 = 9 || bit (u8 m.lastFrame (k / 10)) (k % 10 - 1)

/-- The levels of ZONE_A and ZONE_B: high for clear, but in a test pulse (R203). -/
def State.zoneLevel (b : Bool) (s : State) : Bool :=
  let z := s.zone
  if b then z.clearB && z.pulseB.isNone else z.clearA && z.pulseA.isNone

def Output.ball : Output → BallState
  | .switchOpen => .switchOpen
  | .park c | .hold c | .direct c .. => .code c
  | .slot .. => .signal

def DacState.ball : DacState → BallState
  | .switchOpen => .switchOpen
  | .park c | .hold c => .code c
  | .run => .signal

/-- Is a backbone port past its training's start? -/
def State.trains (p : Nat) (s : State) : Bool := (s.port p).link != .down

/-- Does PCIe train: from step 3 of a cold start, with the endpoint out of reset (Table 16.2, R455)? -/
def State.pcieTrains (s : State) : Bool := s.host.pcie.perstHigh && s.clk.started && !s.clk.xoStop && !s.power.halted

/-- What a ball does in a state; `io33`: VDD_IO33 is valid. SPI and JTAG transfers are whole commands, so that the three-state outputs stand
released between them.
DEDUCED, unsafe (log 153). -/
def State.ball (io33 : Bool) (x : Ball) (s : State) : BallState :=
  let level (h : Bool) : BallState := if io33 then .driven h else .highZ
  match x with
  | .sipm | .t0 => .biased
  | .emitOut e => (s.emitter e).out.ball
  | .excOut => s.angle.exc.ball
  | .galvoOut => s.motion.galvo.ball
  | .resCtl k => level (s.reservoir k).ctl
  | .resMon _ | .filterIn => .highZ
  | .mdrvTxd => if !io33 then .highZ else if s.released then .driven s.mdrvTxd else .pulled true
  | .mdrvRxd | .perstN => if io33 then .pulled true else .highZ
  | .emitEnA | .emitEnB => if io33 then .pulled false else .highZ
  | .encA => level s.angle.encA
  | .encB => level s.angle.encB
  | .encZ => level s.angle.encZ
  | .camTrig k => level ((s.angle.cams[k]?).any CamPin.high)
  | .zoneA => level (s.zoneLevel false)
  | .zoneB => level (s.zoneLevel true)
  | .aux k => if s.pinRoles k = [] then .highZ else .roles (s.pinRoles k)
  | .heat => level s.heat
  | .fan => level s.fan
  | .hvbSet => .volts s.returns.bias.hvb
  | .mdi p => if s.trains p then .link else .quiet
  | .pcieTx => if s.pcieTrains then .link else .quiet
  | .pcieRx => if s.clk.started then .terminated else .highZ
  | .spiSck | .spiMosi | .jtagTck | .jtagTrstN | .factoryTest => .pulled false
  | .spiCsN | .jtagTms | .jtagTdi => .pulled true
  | .spiMiso | .jtagTdo => .highZ
  | .spiIrqN => if s.spiIrqN then .highZ else .driven false
  | .xtal => if s.clk.started && !s.clk.xoStop then .oscillates else .off
  | .pfail => .compares

/-! ## Boundary scan (R457) -/

/-- The digital balls that have a cell, in the order of Table 18.5; the balls of the test port itself have none.
DESIGN CHOICE, unsafe (log 154). -/
def scanChain : List Ball :=
  (List.range 4).map Ball.resCtl ++ [.mdrvTxd, .mdrvRxd, .encA, .encB, .encZ] ++ (List.range 4).map Ball.camTrig ++
  [.zoneA, .zoneB, .emitEnA, .emitEnB, .heat, .fan, .perstN, .spiSck, .spiMosi, .spiCsN, .spiMiso, .spiIrqN, .factoryTest]

/-- Cells that only observe. -/
def Ball.observed : Ball → Bool
  | .zoneA | .zoneB | .resCtl _ => true
  | _ => false

/-- Can a cell drive its ball? -/
def Ball.drivable (x : Ball) : Bool :=
  match x with
  | .mdrvTxd | .encA | .encB | .encZ | .camTrig _ | .heat | .fan | .spiMiso | .spiIrqN => true
  | _ => false

/-- Is EXTEST in control of the pins? -/
def State.extests (s : State) : Bool := s.power.jtagIr == .extest && (s.power.halted || s.power.phase == .recovery)

/-- A ball as EXTEST drives it, from the bits that PRELOAD left in its cells. -/
def State.scanned (io33 : Bool) (x : Ball) (s : State) : BallState :=
  if s.extests && x.drivable then
    match scanChain.findIdx? (· == x) with
    | some i => if io33 then .driven (s.power.preload.getD i false) else .highZ
    | none => s.ball io33 x
  else s.ball io33 x

/-- The level that the cell of a ball sees: what the device drives there, or the level that comes from outside. -/
def State.cellLevel (x : Ball) (outside : Bool) (s : State) : Bool :=
  match x with
  | .perstN => s.host.pcie.perstHigh
  | _ => match s.scanned true x with
    | .driven h => h
    | _ => outside

/-- What SAMPLE takes from the chain, with the outside levels of the balls. -/
def State.scanSample (outside : List Bool) (s : State) : List Bool :=
  scanChain.zipIdx.map fun x => s.cellLevel x.1 (outside.getD x.2 false)

end Sys2Proof.Machine
end

