-- ==== Sys2Proof/Machine/Jtag.lean ====
section
/-!
DEFINITION. The JTAG test access port (R457).
-/
namespace Sys2Proof.Machine

def State.setIr (i : JtagIr) (s : State) : State := s.onPower fun p => { p with jtagIr := i }

/-- JTAG_BYPASS: the bypass register gives a 0 first. -/
def jtagBypass (s : State) : State := (s.setIr .bypass).emit (.jtag 1 0)

def execJtagBypass (s : State) : Result := .next (jtagBypass s)

/-- The IDCODE. -/
def idcode : Nat := Config.stepping % 16 * 2 ^ 28 + 0x7192 * 2 ^ 12 + 0x2A7

/-- JTAG_IDCODE. -/
def jtagIdcode (s : State) : State := (s.setIr .idcode).emit (.jtag 32 idcode)

def execJtagIdcode (s : State) : Result := .next (jtagIdcode s)

/-- JTAG_SAMPLE_PRELOAD: the levels at the cells are taken, and the bits shifted in stay in them; nothing is disturbed. -/
def jtagSamplePreload (x : JtagScan) (s : State) : State :=
  ((s.emit (.sampled (s.scanSample x.outside))).setIr .sample).onPower fun p => { p with preload := x.shifted }

def execJtagSamplePreload (scan : JtagScan) (s : State) : Result := .next (jtagSamplePreload scan s)

/-- JTAG_EXTEST: only a halted device, or one in the recovery-only state, gives up its pins; otherwise it acts as BYPASS.
DEDUCED, safe (log 33). -/
def jtagExtest (s : State) : State :=
  if s.power.halted || s.power.phase == .recovery then s.setIr .extest else jtagBypass s

def execJtagExtest (s : State) : Result := .next (jtagExtest s)

/-- JTAG_TAP_RESET: IDCODE is the instruction after it. -/
def jtagTapReset (s : State) : State := s.setIr .idcode

def execJtagTapReset (s : State) : Result := .next (jtagTapReset s)

end Sys2Proof.Machine
end

