-- ==== Sys2Proof/Machine/Start.lean ====
section
/-!
DEFINITION. The cold start (R404, R407 to R409, R412, R416, R456; Tables 16.2 and 16.4), with the return of the journal from
its flush image (R400, R401) and START_ID (R315).
-/
namespace Sys2Proof.Machine

/-! ## What survives -/

/-- The state that a cold start begins from, a flush that was running cut short (R399): power-on reset, with the eMRAM, the levels of the
pins, a keeper domain's fault,
what was sent, and what the model keeps for itself. -/
def State.freshStart (s : State) : State :=
  let r := State.reset
  let s := if s.host.journal.flushing then s.writeFlush false else s
  let bank (k : Bank) : Bank := { Bank.reset with keeperFault := k.keeperFault, inService := !k.keeperFault }
  let m := s.emission
  let since (b : Bool) : Option Nat := if b then some 0 else none
  { r with
    nvm := { s.nvm with stageId := none, stage := [], stageTop := 0, repairedTotal := 0, storesTotal := 0, flushConsumed := false },
    host := { r.host with
      pcie := { r.host.pcie with perstHigh := s.host.pcie.perstHigh },
      journal := { r.host.journal with bankA := bank s.host.journal.bankA, bankB := bank s.host.journal.bankB } },
    emission := { r.emission with
      enA := m.enA, enB := m.enB, enHighSince := since (m.enA && m.enB), enLowSince := since (!m.enA && !m.enB),
      enDiffSince := since (m.enA != m.enB) },
    out := s.out, free := s.free, pending := s.pending }

/-! ## The journal after a power loss (R400) -/

/-- The newest unconsumed image whose blocks all pass, from either eMRAM bank. -/
def State.savedImage (s : State) : Option FlushImage :=
  newestImage (((if s.nvm.bank0 then s.nvm.flush0 else []) ++ (if s.nvm.bank1 then s.nvm.flush1 else [])).filter (!·.consumed))

/-- Marks the images of a generation consumed. -/
def consume (gen : Nat) (l : List FlushImage) : List FlushImage :=
  l.map fun x => if x.generation == gen then { x with consumed := true } else x

/-- The valid images of a generation: the same flush, in either eMRAM bank. -/
def State.imagesOf (gen : Nat) (s : State) : List FlushImage :=
  ((if s.nvm.bank0 then s.nvm.flush0 else []) ++ (if s.nvm.bank1 then s.nvm.flush1 else [])).filter
    fun i => i.valid && i.generation == gen

/-- Entries that no image of the flush holds readable (R400). -/
def State.lostEntries (i : FlushImage) (s : State) : List Nat :=
  i.bad.filter fun j => (s.imagesOf i.generation).all fun x => x.bad.contains j

/-- Handles issued since the checkpoint that eMRAM holds: what the generations of an image are above those of the record (R401). -/
def State.claspAhead (gens : List Nat) (s : State) : Nat :=
  let stored := ((s.inUseData 0x27).map fun p => numsAt p 0 2 4096).getD (List.replicate 4096 0)
  ((gens.zip stored).map fun x => x.1 - x.2).foldl (· + ·) 0

/-- NEXT_SEQ, the duplicate windows, the bindings, Clasp and the live entries come back to both banks; the image is consumed. A
checkpoint that the image is 64 handles or more ahead of is asked for (R401). -/
def State.loadImage (i : FlushImage) (s : State) : State :=
  let s := s.onHost fun h =>
    { h with
      queues := h.queues.zipIdx.map fun x => match i.queues[x.2]? with
        | some k => { x.1 with nextSeq := k.nextSeq, dup := k.dup, mask := k.mask,
                               tags := (i.live.filter (·.cmd.queue == x.2)).map (·.cmd.tag) }
        | none => x.1,
      journal := { h.journal with live := i.live, jixNext := i.jixNext } }
  let bad := s.lostEntries i
  let ahead := s.claspAhead i.claspGen
  let s := s.onJournal fun j => { j with bankA := { j.bankA with bad := bad }, bankB := { j.bankB with bad := bad } }
  let s := (s.onSets fun k => { k with claspGen := i.claspGen, claspPtr := i.claspPtr, claspUnsaved := ahead }).onNvm fun n =>
    { n with flush0 := consume i.generation n.flush0, flush1 := consume i.generation n.flush1, flushConsumed := true }
  let s := s.flushUnits i.toJournalImage i.toJournalImage
  if 64 ≤ ahead || (s.notRetired < 128 && ahead != 0) then s.claspStore else s

/-- Without an image the journal is empty, and JOURNAL_LOST says so (R401). -/
def State.loadJournal (s : State) : State :=
  let s := match s.savedImage with
    | some i => s.loadImage i
    | none => s.onHealth fun h => { h with journalLost := true }
  s.onJournal fun j => { j with imageRestored := true }

/-- The store that carries a command's journal index. -/
def State.storeOf (jix : Nat) (s : State) : Option NvmCopy :=
  s.nvm.records.findSome? fun r => r.inUse.filter fun k => k.jix == jix && jix != 0

/-- The final reply of a live entry after a power loss (Table 15.11). -/
def State.resolveLost (s : State) (l : Live) : State :=
  if !s.copyGood 0 l.jix && !s.copyGood 1 l.jix then s.finish l.opcode l.cmd stFault 3 0 [] else
  match l.state with
  | .done => match l.reply with
    | some r => s.oweReply true l r
    | none => s
  | .executing => match s.storeOf l.jix with
    | some k =>
      let b := { s.block stOk 0 (s.storeResult l.opcode k.generation l.cmd) with stamp := k.storeTime }
      s.finishWith l.opcode l.cmd b []
    | none => s.finish l.opcode l.cmd stFault 2 0 []
  | _ => s.finish l.opcode l.cmd stFault 1 0 []

/-- Every live entry gets its final reply, which waits until its transport can carry it. -/
def State.answerLost (s : State) : State :=
  let order := sortBy (fun a b : Live => decide (a.jix < b.jix)) s.host.journal.live
  let s := (order.foldl State.resolveLost s).repairCopies
  s.onHost fun h => { h with waiting := h.waiting.map (Reply.owed false) }

/-- START_ID: a nonzero value that differs from the one restored.
DESIGN CHOICE, safe (log 28). -/
def State.drawStartId (old : Nat) (s : State) : State :=
  let v := s.freeValue % (if old = 0 then 2 ^ 32 - 1 else 2 ^ 32 - 2) + 1
  (s.freeNext).onFabric fun b => { b with startId := if old != 0 && old ≤ v then v + 1 else v }

/-! ## The steps of Table 16.2 -/

/-- A domain that is kept awake by its function. -/
def DomainState.kept (d : Domain) : DomainState := { dom := d, phase := .awake, idleSince := none }

def State.powerDomains (l : List Domain) (s : State) : State :=
  s.onPower fun p => { p with domains := l.map DomainState.kept }

/-- Steps 1 and 2: the supervisor runs, records are chosen and loaded, the journal returns, and park codes take effect. -/
def State.loadStep (s : State) : State :=
  let old := (s.savedImage.map (·.startId)).getD 0
  let s := (s.powerDomains [.supervisor 0, .supervisor 1, .network]).onPower fun p => { p with running := true }
  let s := ((s.chooseRecords.loadRecords).loadJournal).drawStartId old
  let s := s.onPower fun p =>
    { p with firmware := match s.inUseData 0x30 with
      | some d => Config.firmwareVersion d
      | none => Config.recoveryVersion }
  let s := s.onEmission fun m => { m with emitters := m.emitters.map fun e => { e with out := .park e.park } }
  (s.onAngle fun a => { a with exc := .park s.emission.excPark }).onMotion fun m => { m with galvo := .park s.emission.galvoPark }

/-- Step 3: the crystal starts and the PLL locks; TICK_COUNT and device time run from 0. -/
def State.clockStep (ok : Bool) (s : State) : State :=
  if ok then s.onClk fun c => { c with started := true, pllLocked := true }
  else s.onPower fun p => { p with spiOnly := true }

/-- Is a row of Table 1.5 a memory whose fault the recovery-only state answers (R409)?
DEDUCED, safe (log 30). -/
def recoveryRow (row : Nat) : Bool := [4, 5, 6, 10, 11].contains row

/-- The spares that the tests of step 6 have just run on (Table 17.1).
DEDUCED, unsafe (log 29). -/
def State.noteSpares (s : State) : State :=
  let run (test n : Nat) (s : State) : State :=
    (List.range n).foldl (fun s t => if s.targetServes test t then s else s.noteTest test t) s
  run 5 1 (run 3 18 (run 2 144 (run 1 208 s)))

/-- A front end, engine or core that failed: it is marked, and what it serves is to be replaced. -/
def State.failedFe (s : State) (f : Nat) : State :=
  match s.power.repair.feFor.findIdx? (· == f) with
  | some ch => s.channelOut ch
  | none => s.markTarget 1 f true

def State.failedCore (s : State) (k : Nat) : State :=
  let s := s.markTarget 3 k true
  match s.outputOf k with
  | some e => s.coreTrouble e 0
  | none => s

/-- Step 6: what the tests found goes to self-repair, and the tested memories are loaded.
DESIGN CHOICE, unsafe (log 27). -/
def State.testStep (st : ColdStart) (s : State) : State :=
  let s := st.badFes.foldl State.failedFe s
  let s := st.badEngines.foldl (fun s g => (s.markTarget 2 g true).engineFailed g) s
  let s := st.badCores.foldl State.failedCore s
  let s := st.badSramRows.foldl (fun s x => s.rowTrouble (12 * x.1 + x.2.1) x.2.2) s
  let s := (s.onPower fun p => { p with standbyOut := !st.standbyOk || st.faultRows.contains 7 }).onHealth fun h =>
    { h with filterTestFail := h.filterTestFail || !st.filterOk }
  let s := s.switchSources.noteSpares.loadSlots.loadLibrary
  if s.health.journalLost then s.load 0x27 (loadClasp true) else s

/-- Step 7: PACE_FULL of every tile, at 0.85 V. -/
def State.paceStep (st : ColdStart) (s : State) : State :=
  s.onPower fun p =>
    { p with tiles := p.tiles.zipIdx.map fun x =>
        let v := st.paceFull.getD x.2 0
        { x.1 with paceA := v, paceB := v, paceFull := v } }

/-- Step 8: every lane warms up; one without 16 accepts in a row is reported failed, and its channels leave service (R113, R122). -/
def State.laneStep (st : ColdStart) (s : State) : State :=
  let s := (s.load 4 loadCorrections).onClk fun c =>
    { c with lanes := (List.range 41).map fun n => match st.lanes.getD n none with
        | some p => if !calLimits p.1 p.2 then { Lane.reset with inUse := true, failed := true } else
          { Lane.reset with inUse := true, last := some p, state := .accepted, consec := 16, ready := true }
        | none => { Lane.reset with inUse := true, failed := true } }
  (List.range 192).foldl (fun s ch => if (s.lane (s.laneOf ch)).failed then s.channelOut ch else s) s

/-- Lanes of the clusters that no view uses go unpowered with them; the T0 lane runs on. -/
def State.restLanes (s : State) : State := (List.range 40).foldl State.laneOff s

/-- Step 9: excitation starts at phase 0. -/
def State.excStep (s : State) : State :=
  let t := s.fineNow
  (s.onAngle fun a => { a with exc := .run, excStart := t }).resetCarrier

/-- Steps 7 to 11: the PHYs train, and the functions that keep their own domains awake run; the cores of the outputs, which
no view uses, hold their park codes (R28).
DEDUCED, unsafe (log 29). -/
def State.lastSteps (st : ColdStart) (s : State) : State :=
  let s := (s.paceStep st).deliverPace.powerDomains
    [.supervisor 0, .supervisor 1, .network, .phy 0, .phy 1, .filter, .motion, .aux, .excDac, .galvoDac]
  let phy := ncPhy s.net.config
  let s := s.onNet fun n => { n with ports := n.ports.zipIdx.map fun x => { x.1 with link := .training, master := bit phy x.2 && !bit phy (2 + x.2) } }
  let s := ((s.laneStep st).restLanes.excStep).onMdrv fun m => { m with running := true }
  let now := s.clk.tickCount
  let s := s.onEmission fun m =>
    { m.coldFill with enEval := true, emitters := m.emitters.map fun e => { e with out := .hold e.park, charged := now } }
  let s := (s.registerCause causeLedger).tryClearLedger
  ((s.onAux fun a => { a with loaded := true }).startAux).refreshPlan

/-- Measurement-ready: the start hold is released. -/
def State.releaseStart (s : State) : State :=
  (s.clearSource srcStart).withStatus (State.onPower fun p => { p with phase := .ready, ready := true })

/-- The device enters the recovery-only state (R412).
DEDUCED, safe (log 30). -/
def State.enterRecovery (s : State) : State :=
  s.answerLost.withStatus (State.onPower fun p => { p with phase := .recovery })

/-- The steps after the boot ROM's self-check.
DESIGN CHOICE, unsafe (log 27). -/
def State.coldSteps (st : ColdStart) (s : State) : State :=
  let s := s.loadStep
  if !s.recordPresent 1 || !s.recordPresent 0x30 then (s.clockStep st.crystalOk).enterRecovery
  else if !st.crystalOk then (s.clockStep false).enterRecovery
  else
    let s := (s.clockStep true).load 2 loadMap
    if st.faultRows.any recoveryRow then s.enterRecovery
    else (((s.testStep st).lastSteps st).answerLost).releaseStart

/-- A cold start. With FACTORY_TEST high, or a boot ROM that fails its check, the device halts.
DEDUCED, safe (log 5). -/
def State.coldStart (st : ColdStart) (s : State) : State :=
  let s := s.freshStart
  if st.factoryTest || !st.romOk then
    (s.unitItem 15 Config.bootRom).onPower fun p => { p with running := true, halted := true, factoryTest := st.factoryTest }
  else (s.unitItem 15 Config.bootRom).coldSteps st

/-- POR_RELEASE: the supplies have come up, and power-on reset releases (R404).
DEDUCED, safe (log 5); DESIGN CHOICE, unsafe (log 27). -/
def porRelease (st : ColdStart) (s : State) : State := s.coldStart st

def execPorRelease (st : ColdStart) (s : State) : Result := .next (porRelease st s)

/-- PFAIL_RECOVER: PFAIL has stood above 1.050 V for 10 ms with every rail valid; it ends a Pavane of cause PFAIL.
DEDUCED, safe (log 31). -/
def pfailRecover (st : ColdStart) (s : State) : State :=
  if s.power.phase == .pavane && s.power.pavaneCause == .pfail && !s.host.journal.flushing && s.since s.power.pavaneAt (ms 10) then
    s.coldStart st
  else s

def execPfailRecover (st : ColdStart) (s : State) : Result := .next (pfailRecover st s)

end Sys2Proof.Machine
end

