-- ==== Sys2Proof/Machine/Dispatch.lean ====
section
/-!
DEFINITION. The one dispatch from a row of the opcode table to its meaning.
-/
namespace Sys2Proof.Machine

/-- What a command or event does to everything but the queue. -/
def exec (i : Instr) (s : State) : Host.Outcome State Fault Refusal :=
  match i with
  | .sqDoorbell q value => Sys2Proof.Machine.execSqDoorbell q value s
  | .descriptorFetch q readError desc packet => Sys2Proof.Machine.execDescriptorFetch q readError desc packet s
  | .holdExpire q seq => Sys2Proof.Machine.execHoldExpire q seq s
  | .journalAccept q rb => Sys2Proof.Machine.execJournalAccept q rb s
  | .replyRingWrite q => Sys2Proof.Machine.execReplyRingWrite q s
  | .rqDoorbell q value => Sys2Proof.Machine.execRqDoorbell q value s
  | .qEnable q => Sys2Proof.Machine.execQEnable q s
  | .qDisable q => Sys2Proof.Machine.execQDisable q s
  | .intStatusClear mask => Sys2Proof.Machine.execIntStatusClear mask s
  | .registerWrite offset value => Sys2Proof.Machine.execRegisterWrite offset value s
  | .pciePerst level => Sys2Proof.Machine.execPciePerst level s
  | .trdpMrReceive m => Sys2Proof.Machine.execTrdpMrReceive m s
  | .reasmTimeout context => Sys2Proof.Machine.execReasmTimeout context s
  | .spiWritePacket bytes => Sys2Proof.Machine.execSpiWritePacket bytes s
  | .spiReadStatus => Sys2Proof.Machine.execSpiReadStatus s
  | .spiReadReply complete => Sys2Proof.Machine.execSpiReadReply complete s
  | .spiUnknownInstruction code => Sys2Proof.Machine.execSpiUnknownInstruction code s
  | .nop c => Sys2Proof.Machine.execNop c s
  | .getInfo c => Sys2Proof.Machine.execGetInfo c s
  | .echo c => Sys2Proof.Machine.execEcho c s
  | .resetWarm c => Sys2Proof.Machine.execResetWarm c s
  | .seqSet c => Sys2Proof.Machine.execSeqSet c s
  | .queueBind c => Sys2Proof.Machine.execQueueBind c s
  | .supervisorMismatch => Sys2Proof.Machine.execSupervisorMismatch s
  | .takeoverComplete bad odd => Sys2Proof.Machine.execTakeoverComplete bad odd s
  | .paceGate countsA countsB => Sys2Proof.Machine.execPaceGate countsA countsB s
  | .tileVoltageStepDown tile => Sys2Proof.Machine.execTileVoltageStepDown tile s
  | .domainSettled dom => Sys2Proof.Machine.execDomainSettled dom s
  | .domainSleep dom => Sys2Proof.Machine.execDomainSleep dom s
  | .shotPlan view cell => Sys2Proof.Machine.execShotPlan view cell s
  | .shotFix emitter => Sys2Proof.Machine.execShotFix emitter s
  | .windowStart emitter => Sys2Proof.Machine.execWindowStart emitter s
  | .calAccept lane ones twos fes => Sys2Proof.Machine.execCalAccept lane ones twos fes s
  | .laneStale lane => Sys2Proof.Machine.execLaneStale lane s
  | .laneFailed lane => Sys2Proof.Machine.execLaneFailed lane s
  | .laneWarmupDone lane => Sys2Proof.Machine.execLaneWarmupDone lane s
  | .threshReadback channel code => Sys2Proof.Machine.execThreshReadback channel code s
  | .blankingRelease channel high => Sys2Proof.Machine.execBlankingRelease channel high s
  | .shotFire emitter eccBad => Sys2Proof.Machine.execShotFire emitter eccBad s
  | .slotEnd emitter => Sys2Proof.Machine.execSlotEnd emitter s
  | .histogramRangeEnd channel => Sys2Proof.Machine.execHistogramRangeEnd channel s
  | .ambientSpanEnd channel => Sys2Proof.Machine.execAmbientSpanEnd channel s
  | .coarseOvf channel => Sys2Proof.Machine.execCoarseOvf channel s
  | .t0InEdge coarse raw charge => Sys2Proof.Machine.execT0InEdge coarse raw charge s
  | .t0Timeout emitter => Sys2Proof.Machine.execT0Timeout emitter s
  | .discriminatorEdge channel coarse raw => Sys2Proof.Machine.execDiscriminatorEdge channel coarse raw s
  | .discriminatorFall channel tot => Sys2Proof.Machine.execDiscriminatorFall channel tot s
  | .longHigh channel => Sys2Proof.Machine.execLongHigh channel s
  | .ingressEntry channel parityBad faults => Sys2Proof.Machine.execIngressEntry channel parityBad faults s
  | .trailerMerge channel => Sys2Proof.Machine.execTrailerMerge channel s
  | .chainStart engine => Sys2Proof.Machine.execChainStart engine s
  | .chainEnd engine faults => Sys2Proof.Machine.execChainEnd engine faults s
  | .engineFault engine stop => Sys2Proof.Machine.execEngineFault engine stop s
  | .fieldDeadline view cell => Sys2Proof.Machine.execFieldDeadline view cell s
  | .frameCloseTimeout stream => Sys2Proof.Machine.execFrameCloseTimeout stream s
  | .frameTransmit port => Sys2Proof.Machine.execFrameTransmit port s
  | .frameTxComplete port => Sys2Proof.Machine.execFrameTxComplete port s
  | .nearFieldRegister emitter => Sys2Proof.Machine.execNearFieldRegister emitter s
  | .nearFieldClear => Sys2Proof.Machine.execNearFieldClear s
  | .nfSectorRelease index => Sys2Proof.Machine.execNfSectorRelease index s
  | .revolutionBoundary => Sys2Proof.Machine.execRevolutionBoundary s
  | .setSwap => Sys2Proof.Machine.execSetSwap s
  | .shadowCopyComplete => Sys2Proof.Machine.execShadowCopyComplete s
  | .viewRelease view => Sys2Proof.Machine.execViewRelease view s
  | .viewCreate c => Sys2Proof.Machine.execViewCreate c s
  | .viewDestroy c => Sys2Proof.Machine.execViewDestroy c s
  | .viewQuery c => Sys2Proof.Machine.execViewQuery c s
  | .viewParam c => Sys2Proof.Machine.execViewParam c s
  | .viewUpdate c => Sys2Proof.Machine.execViewUpdate c s
  | .setCommit c => Sys2Proof.Machine.execSetCommit c s
  | .setAbort c => Sys2Proof.Machine.execSetAbort c s
  | .setRead c => Sys2Proof.Machine.execSetRead c s
  | .pllUnlock => Sys2Proof.Machine.execPllUnlock s
  | .xoStop => Sys2Proof.Machine.execXoStop s
  | .pllRelock cycles => Sys2Proof.Machine.execPllRelock cycles s
  | .pllLockHold => Sys2Proof.Machine.execPllLockHold s
  | .freqErrInterval => Sys2Proof.Machine.execFreqErrInterval s
  | .xoTrimRampStep => Sys2Proof.Machine.execXoTrimRampStep s
  | .ptpMessageReceive m => Sys2Proof.Machine.execPtpMessageReceive m s
  | .ptpHoldoverTimeout => Sys2Proof.Machine.execPtpHoldoverTimeout s
  | .ptpSyncTimeout => Sys2Proof.Machine.execPtpSyncTimeout s
  | .excShort => Sys2Proof.Machine.execExcShort s
  | .excChange => Sys2Proof.Machine.execExcChange s
  | .filterOutput slot samples test stamp => Sys2Proof.Machine.execFilterOutput slot samples test stamp s
  | .galvoFilterOutput gpa gpb test => Sys2Proof.Machine.execGalvoFilterOutput gpa gpb test s
  | .trackingUpdate => Sys2Proof.Machine.execTrackingUpdate s
  | .lockAcquired => Sys2Proof.Machine.execLockAcquired s
  | .stuckModulator slot => Sys2Proof.Machine.execStuckModulator slot s
  | .coastTimeout => Sys2Proof.Machine.execCoastTimeout s
  | .speedCheckGate => Sys2Proof.Machine.execSpeedCheckGate s
  | .cycLearnPassEnd => Sys2Proof.Machine.execCycLearnPassEnd s
  | .encOverrate => Sys2Proof.Machine.execEncOverrate s
  | .camTrigEdge pin => Sys2Proof.Machine.execCamTrigEdge pin s
  | .camTrigPulseEnd pin => Sys2Proof.Machine.execCamTrigPulseEnd pin s
  | .angleConfig c => Sys2Proof.Machine.execAngleConfig c s
  | .angleFrame c => Sys2Proof.Machine.execAngleFrame c s
  | .filterSync c => Sys2Proof.Machine.execFilterSync c s
  | .cycLearn c => Sys2Proof.Machine.execCycLearn c s
  | .cycSelect c => Sys2Proof.Machine.execCycSelect c s
  | .encConfig c => Sys2Proof.Machine.execEncConfig c s
  | .camConfig c => Sys2Proof.Machine.execCamConfig c s
  | .angleStatus c => Sys2Proof.Machine.execAngleStatus c s
  | .spindleSample finished => Sys2Proof.Machine.execSpindleSample finished s
  | .galvoSample finished => Sys2Proof.Machine.execGalvoSample finished s
  | .mdrvUplinkReceive bytes => Sys2Proof.Machine.execMdrvUplinkReceive bytes s
  | .mdrvUplinkTimeout => Sys2Proof.Machine.execMdrvUplinkTimeout s
  | .galvoShort => Sys2Proof.Machine.execGalvoShort s
  | .injectEnd loop => Sys2Proof.Machine.execInjectEnd loop s
  | .cameoCaptureComplete => Sys2Proof.Machine.execCameoCaptureComplete s
  | .loopConfig c => Sys2Proof.Machine.execLoopConfig c s
  | .loopCoeff c => Sys2Proof.Machine.execLoopCoeff c s
  | .ctrlInject c => Sys2Proof.Machine.execCtrlInject c s
  | .ctrlInjectStop c => Sys2Proof.Machine.execCtrlInjectStop c s
  | .cameoArm c => Sys2Proof.Machine.execCameoArm c s
  | .cameoStop c => Sys2Proof.Machine.execCameoStop c s
  | .cameoRead c => Sys2Proof.Machine.execCameoRead c s
  | .ctrlStatus c => Sys2Proof.Machine.execCtrlStatus c s
  | .motionRecord c => Sys2Proof.Machine.execMotionRecord c s
  | .zoneReadbackFault => Sys2Proof.Machine.execZoneReadbackFault s
  | .testPulseStart output => Sys2Proof.Machine.execTestPulseStart output s
  | .testPulseEnd output => Sys2Proof.Machine.execTestPulseEnd output s
  | .zoneSnapshot => Sys2Proof.Machine.execZoneSnapshot s
  | .zoneWdog => Sys2Proof.Machine.execZoneWdog s
  | .zoneTelegramSend => Sys2Proof.Machine.execZoneTelegramSend s
  | .fireTable c => Sys2Proof.Machine.execFireTable c s
  | .nearfieldConfig c => Sys2Proof.Machine.execNearfieldConfig c s
  | .fieldDefine c => Sys2Proof.Machine.execFieldDefine c s
  | .zoneConfig c => Sys2Proof.Machine.execZoneConfig c s
  | .schedConfig c => Sys2Proof.Machine.execSchedConfig c s
  | .emitHold c => Sys2Proof.Machine.execEmitHold c s
  | .shotStatus c => Sys2Proof.Machine.execShotStatus c s
  | .zoneStatus c => Sys2Proof.Machine.execZoneStatus c s
  | .waveLoad c => Sys2Proof.Machine.execWaveLoad c s
  | .waveLoadClear c => Sys2Proof.Machine.execWaveLoadClear c s
  | .waveTransfer emitter slot => Sys2Proof.Machine.execWaveTransfer emitter slot s
  | .waveRead c => Sys2Proof.Machine.execWaveRead c s
  | .waveFade c => Sys2Proof.Machine.execWaveFade c s
  | .fadeCopy emitter => Sys2Proof.Machine.execFadeCopy emitter s
  | .parkSet c => Sys2Proof.Machine.execParkSet c s
  | .emitDirect c => Sys2Proof.Machine.execEmitDirect c s
  | .emitDirectStop c => Sys2Proof.Machine.execEmitDirectStop c s
  | .directPlayEnd emitter => Sys2Proof.Machine.execDirectPlayEnd emitter s
  | .ledgerUnlockChallenge c => Sys2Proof.Machine.execLedgerUnlockChallenge c s
  | .ledgerUnlockResponse c => Sys2Proof.Machine.execLedgerUnlockResponse c s
  | .unlockExpire => Sys2Proof.Machine.execUnlockExpire s
  | .unlockLockoutEnd => Sys2Proof.Machine.execUnlockLockoutEnd s
  | .ledgerWrite c => Sys2Proof.Machine.execLedgerWrite c s
  | .ledgerRead c => Sys2Proof.Machine.execLedgerRead c s
  | .resConfig c => Sys2Proof.Machine.execResConfig c s
  | .emitStatus c => Sys2Proof.Machine.execEmitStatus c s
  | .emitterShort emitter => Sys2Proof.Machine.execEmitterShort emitter s
  | .ledgerBucketEdge window => Sys2Proof.Machine.execLedgerBucketEdge window s
  | .emitEnEdge a b => Sys2Proof.Machine.execEmitEnEdge a b s
  | .emitEnClear => Sys2Proof.Machine.execEmitEnClear s
  | .enDiscrepancy => Sys2Proof.Machine.execEnDiscrepancy s
  | .enDiscrepancyClear => Sys2Proof.Machine.execEnDiscrepancyClear s
  | .speedLowClear => Sys2Proof.Machine.execSpeedLowClear s
  | .resMonSample reservoir millivolts => Sys2Proof.Machine.execResMonSample reservoir millivolts s
  | .resOver reservoir => Sys2Proof.Machine.execResOver reservoir s
  | .resLow reservoir => Sys2Proof.Machine.execResLow reservoir s
  | .rxOverload channel => Sys2Proof.Machine.execRxOverload channel s
  | .rxSilent channel => Sys2Proof.Machine.execRxSilent channel s
  | .biasTargetCompute => Sys2Proof.Machine.execBiasTargetCompute s
  | .biasStep => Sys2Proof.Machine.execBiasStep s
  | .biasSettled => Sys2Proof.Machine.execBiasSettled s
  | .biasTempTimeout => Sys2Proof.Machine.execBiasTempTimeout s
  | .biasFault => Sys2Proof.Machine.execBiasFault s
  | .rxConfig c => Sys2Proof.Machine.execRxConfig c s
  | .biasConfig c => Sys2Proof.Machine.execBiasConfig c s
  | .rxStatus c => Sys2Proof.Machine.execRxStatus c s
  | .frontEndSwitch channel => Sys2Proof.Machine.execFrontEndSwitch channel s
  | .trackerGateClose tile tracker => Sys2Proof.Machine.execTrackerGateClose tile tracker s
  | .weatherUpdate => Sys2Proof.Machine.execWeatherUpdate s
  | .auxMeasurementDone code1 code2 compliance => Sys2Proof.Machine.execAuxMeasurementDone code1 code2 compliance s
  | .auxOffsetCal gain code => Sys2Proof.Machine.execAuxOffsetCal gain code s
  | .heatPwmPeriod => Sys2Proof.Machine.execHeatPwmPeriod s
  | .shock charge => Sys2Proof.Machine.execShock charge s
  | .piezoReset => Sys2Proof.Machine.execPiezoReset s
  | .auxMeasConfig c => Sys2Proof.Machine.execAuxMeasConfig c s
  | .auxSwitchConfig c => Sys2Proof.Machine.execAuxSwitchConfig c s
  | .auxCal c => Sys2Proof.Machine.execAuxCal c s
  | .bezelConfig c => Sys2Proof.Machine.execBezelConfig c s
  | .bezelLearn c => Sys2Proof.Machine.execBezelLearn c s
  | .auxRead c => Sys2Proof.Machine.execAuxRead c s
  | .auxStatus c => Sys2Proof.Machine.execAuxStatus c s
  | .linkUp port master anDone sqi => Sys2Proof.Machine.execLinkUp port master anDone sqi s
  | .linkDown port => Sys2Proof.Machine.execLinkDown port s
  | .linkTrainTimeout port => Sys2Proof.Machine.execLinkTrainTimeout port s
  | .netFrameReceive port frame => Sys2Proof.Machine.execNetFrameReceive port frame s
  | .prpSupervisionSend => Sys2Proof.Machine.execPrpSupervisionSend s
  | .neighbourRefresh addr => Sys2Proof.Machine.execNeighbourRefresh addr s
  | .dadComplete inUse => Sys2Proof.Machine.execDadComplete inUse s
  | .healthPublish => Sys2Proof.Machine.execHealthPublish s
  | .netConfig c => Sys2Proof.Machine.execNetConfig c s
  | .streamConfig c => Sys2Proof.Machine.execStreamConfig c s
  | .trdpConfig c => Sys2Proof.Machine.execTrdpConfig c s
  | .netStatus c => Sys2Proof.Machine.execNetStatus c s
  | .streamStatus c => Sys2Proof.Machine.execStreamStatus c s
  | .checkUnitScanDone unit bytes uncorrectable => Sys2Proof.Machine.execCheckUnitScanDone unit bytes uncorrectable s
  | .scrubWord row region word result => Sys2Proof.Machine.execScrubWord row region word result s
  | .journalRecopyTry bank good => Sys2Proof.Machine.execJournalRecopyTry bank good s
  | .journalFlushComplete => Sys2Proof.Machine.execJournalFlushComplete s
  | .porRelease st => Sys2Proof.Machine.execPorRelease st s
  | .pfail => Sys2Proof.Machine.execPfail s
  | .pavanePowerDown => Sys2Proof.Machine.execPavanePowerDown s
  | .pfailRecover st => Sys2Proof.Machine.execPfailRecover st s
  | .warmStart imageOk bad odd => Sys2Proof.Machine.execWarmStart imageOk bad odd s
  | .nvmStore write1 write2 => Sys2Proof.Machine.execNvmStore write1 write2 s
  | .nvmInfo c => Sys2Proof.Machine.execNvmInfo c s
  | .nvmRead c => Sys2Proof.Machine.execNvmRead c s
  | .nvmStage c => Sys2Proof.Machine.execNvmStage c s
  | .nvmCommit c => Sys2Proof.Machine.execNvmCommit c s
  | .nvmErase c => Sys2Proof.Machine.execNvmErase c s
  | .keyProvision c => Sys2Proof.Machine.execKeyProvision c s
  | .powerDown c => Sys2Proof.Machine.execPowerDown c s
  | .tileTempRead tile temp selfCheck => Sys2Proof.Machine.execTileTempRead tile temp selfCheck s
  | .selfTestPeriodic test target => Sys2Proof.Machine.execSelfTestPeriodic test target s
  | .testComplete scope pass => Sys2Proof.Machine.execTestComplete scope pass s
  | .replanPeriodic => Sys2Proof.Machine.execReplanPeriodic s
  | .arbiterGrant => Sys2Proof.Machine.execArbiterGrant s
  | .activityComplete scope ok => Sys2Proof.Machine.execActivityComplete scope ok s
  | .healthRead c => Sys2Proof.Machine.execHealthRead c s
  | .timebaseStatus c => Sys2Proof.Machine.execTimebaseStatus c s
  | .fabricStatus c => Sys2Proof.Machine.execFabricStatus c s
  | .memoryStatus c => Sys2Proof.Machine.execMemoryStatus c s
  | .checkUnitRead c => Sys2Proof.Machine.execCheckUnitRead c s
  | .checkUnitWrite c => Sys2Proof.Machine.execCheckUnitWrite c s
  | .selfTest c => Sys2Proof.Machine.execSelfTest c s
  | .replan c => Sys2Proof.Machine.execReplan c s
  | .repairSubstitute c => Sys2Proof.Machine.execRepairSubstitute c s
  | .repairRetest c => Sys2Proof.Machine.execRepairRetest c s
  | .arbiterStatus c => Sys2Proof.Machine.execArbiterStatus c s
  | .healthConfig c => Sys2Proof.Machine.execHealthConfig c s
  | .jtagBypass => Sys2Proof.Machine.execJtagBypass s
  | .jtagIdcode => Sys2Proof.Machine.execJtagIdcode s
  | .jtagSamplePreload scan => Sys2Proof.Machine.execJtagSamplePreload scan s
  | .jtagExtest => Sys2Proof.Machine.execJtagExtest s
  | .directPlayLedgerLimit emitter => Sys2Proof.Machine.execDirectPlayLedgerLimit emitter s
  | .encStateChange => Sys2Proof.Machine.execEncStateChange s
  | .announceReceiptTimeout port => Sys2Proof.Machine.execAnnounceReceiptTimeout port s
  | .keeperDomainFault bank present => Sys2Proof.Machine.execKeeperDomainFault bank present s
  | .standbyComparisonFail => Sys2Proof.Machine.execStandbyComparisonFail s
  | .domainWakeStart dom => Sys2Proof.Machine.execDomainWakeStart dom s
  | .jtagTapReset => Sys2Proof.Machine.execJtagTapReset s

end Sys2Proof.Machine
end

