-- ==== Sys2Proof/Machine/Tick.lean ====
section
/-!
DEFINITION. One tick of 781.25 ps with no command or event: the counters that run by themselves (R95, R97, R101), whether a swap
takes place at a boundary (R87), the peer-delay requests of the PTP ports (R363), a POWER_DOWN that waits (R429), the steps of a warm
start (R410), and packets that wait for room in
the live area (R394).
-/
namespace Sys2Proof.Machine

/-- Ticks of the tick clock in one crystal cycle of 25 ns (R94). -/
def crystalTicks : Nat := 32

/-- What a tick adds to device time: the increment under the PLL; a whole crystal cycle at once while it is unlocked; a
free amount on the RC oscillator after XO_STOP, whose rate the spec does not state.
DESIGN CHOICE, safe (log 46); DEDUCED, unsafe (log 47). -/
def State.devStep (s : State) : Int :=
  if !s.clk.started then 0
  else if s.clk.pllLocked then s.increment
  else if s.clk.xoStop then s.freeValue
  else if (s.clk.now + 1 - s.clk.unlockAt) % crystalTicks = 0 then crystalTicks * s.increment
  else 0

/-- The clocks move on by a tick.
DESIGN CHOICE, safe (log 1). -/
def State.tickClock (s : State) : State :=
  let d := s.devStep
  let s' := if s.clk.started && !s.clk.pllLocked && s.clk.xoStop then s.freeNext else s
  let lockedTicks := s.clk.state == .locked
  s'.onClk fun c =>
    { c with now := c.now + 1,
             tickCount := if c.pllLocked then wrap 64 (c.tickCount + 1) else c.tickCount,
             devTime := (c.devTime + d).toNat,
             rateSum := if lockedTicks then c.rateSum + c.rate else c.rateSum,
             rateTicks := if lockedTicks then c.rateTicks + 1 else c.rateTicks }

/-- One tick passes.
DESIGN CHOICE, safe (log 1). -/
def tick (s : State) : State := ([0, 1].foldl State.askPeer s.tickClock).decideSwap.powerDownStep.warmStep.takeWaiting

end Sys2Proof.Machine
end

