-- ==== Sys2Proof/Machine/Step.lean ====
section
/-!
DEFINITION. One step of the block: the command at the front of the queue runs; on an empty queue one tick passes.
-/
namespace Sys2Proof.Machine

/-- Takes the command at the front of the queue and runs it with the queue's rest; an empty queue lets a tick pass.
DESIGN CHOICE, safe (log 1); DESIGN CHOICE, safe (log 2). -/
def step (s : State) : Host.Outcome State Fault Refusal :=
  match s.pending with
  | [] => .next (tick s)
  | c :: rest => exec c { s with pending := rest }

/-- The state with the command that a table word spells in front of the queue.
DESIGN CHOICE, safe (log 3). -/
def State.withFetchWord (s : State) (nbits w : Nat) : State :=
  match decodeTableWord nbits w with
  | some c => { s with pending := c :: s.pending }
  | none => s

end Sys2Proof.Machine
end

