-- ==== Sys2Proof/Safety.lean ====
section
/-!
DEFINITION. The terms in which claims speak of a run: when the supervisor runs a command, how a command is answered and what
an answer leaves alone, and the properties that every step keeps.
-/
namespace Sys2Proof.Machine

/-! ## Commands -/

/-- The supervisor runs command `c` now: it executes commands, no earlier command that touches the same, or that its FENCE names, is
still to end, and it has not run before (R43, R45). -/
def Runs (c : Cmd) (s : State) : Prop := s.executes = true ∧ s.fenced c = false ∧ s.alreadyRun c = false

/-- Command `c` runs and passes steps 8 to 11 of Table 2.4. -/
def Accepted (o : OpInfo) (c : Cmd) (s : State) : Prop := Runs c s ∧ o.check c s = .ok

/-- Command `c` runs and fails one of steps 8 to 11 with this status and DETAIL, with which it may end: an accepted command ends only
with a status that Table 2.5 gives its final reply (R49). -/
def Rejected (o : OpInfo) (c : Cmd) (st det : Nat) (s : State) : Prop :=
  Runs c s ∧ o.check c s = .reject st det ∧ (c.unseq || finalStatus st) = true

/-- Command `c` runs and fails one of steps 8 to 11 with a status that Table 2.5 lets no accepted command end with. -/
def Failed (o : OpInfo) (c : Cmd) (s : State) : Prop :=
  Runs c s ∧ ∃ st det, o.check c s = .reject st det ∧ (c.unseq || finalStatus st) = false

/-- One final reply to `c` has joined those that wait: its header fields are the command's, its status block is `b` and its
data `d`, padded to whole units (R35, R41). -/
def Answered (op : Nat) (c : Cmd) (b : StatusBlock) (d : List Byte) (s t : State) : Prop :=
  ∃ r : Reply, t.host.waiting = s.host.waiting ++ [r] ∧ r.opcode = op ∧ r.tag = c.tag ∧ r.queue = c.queue ∧
    r.seq = c.seq ∧ r.via = c.via ∧ r.final = true ∧ r.dup = false ∧ r.block = b ∧ r.data = padUnits d

/-- What answering `c` leaves alone on the host side: every register of the PCIe window, the SPI port, every queue's
sequence number, tags, held packets, mask and ring, the other queues whole, and every other live entry. -/
def HostKept (c : Cmd) (s t : State) : Prop :=
  t.host.pcie = s.host.pcie ∧ t.host.spi = s.host.spi ∧ t.host.checked = s.host.checked ∧
  t.host.trdpIgnored = s.host.trdpIgnored ∧ t.host.queues.length = s.host.queues.length ∧
  (∀ q, (t.queue q).nextSeq = (s.queue q).nextSeq ∧ (t.queue q).tags = (s.queue q).tags ∧
    (t.queue q).held = (s.queue q).held ∧ (t.queue q).mask = (s.queue q).mask ∧ (t.queue q).ring = (s.queue q).ring) ∧
  (∀ q, q ≠ c.queue → t.queue q = s.queue q) ∧
  (∀ l ∈ s.host.journal.live, l.isOf c = false → l ∈ t.host.journal.live) ∧
  t.host.journal.bankA = s.host.journal.bankA ∧ t.host.journal.bankB = s.host.journal.bankB ∧
  t.host.journal.jixNext = s.host.journal.jixNext ∧ t.host.journal.trdpStore = s.host.journal.trdpStore

/-- `c` is answered, and on the host side nothing else changes than its duplicate record and its journal entry. -/
def Finished (op : Nat) (c : Cmd) (b : StatusBlock) (d : List Byte) (s t : State) : Prop :=
  Answered op c b d s t ∧ HostKept c s t

/-- `c` goes on without a reply yet: nothing is posted, and on the host side only its entry and the indices of the journal may
change. -/
def Silent (c : Cmd) (s t : State) : Prop := t.host.waiting = s.host.waiting ∧ HostKept c s t

/-- A write of the shadow set by opcode `op` (R83): behind a commit, a copy or an earlier write it waits in acceptance order
and changes nothing else; otherwise the shadow set becomes `f` of itself, every other part of the sets stands, and it is answered
with OK and RESULT `res`. -/
def ShadowWritten (op : Nat) (c : Cmd) (res : Nat) (f : ConfigSet → ConfigSet) (s t : State) : Prop :=
  (s.setsBusy = true → t.sets = { s.sets with waiting := s.sets.waiting ++ [(op, c)] } ∧ Silent c s t ∧
    t = { s with host := t.host, sets := t.sets }) ∧
  (s.setsBusy = false → t.sets = { s.sets with shadow := f s.sets.shadow } ∧
    Finished op c (s.block 0 0 res) [] s t ∧ t = { s with host := t.host, sets := t.sets, power := t.power })

/-! ## Queues and packets -/

/-- From `s` to `t` only the ring registers of queue `q` may differ. -/
def RingOnly (q : Nat) (s t : State) : Prop :=
  t = { s with host := { s.host with queues := t.host.queues } } ∧ t.host.queues.length = s.host.queues.length ∧
  (∀ p, p ≠ q → t.queue p = s.queue p) ∧ t.queue q = { s.queue q with ring := t.ring q }

/-- The host may use the register window of the four queues. -/
def WindowUp (q : Nat) (s : State) : Prop := q < 4 ∧ s.host.queues.length = 4 ∧ s.pcieUp = true

/-- A packet that passes steps 1 to 4 of Table 2.4, in a device that is not busy with a takeover or a warm start. -/
def GoodPacket (ring : Option Nat) (via : Via) (b : List Byte) (s : State) : Prop :=
  16 ≤ b.length ∧ u16 b 0 = 0x6D4B ∧ crc16 (b.take 14) = u16 b 14 ∧ b.length = 20 + 16 * pkLength b ∧
  crc32c (b.take (b.length - 4)) = u32 b (b.length - 4) ∧ s.headerFault ring via b = none ∧ s.busyDetail = none

/-- A sequenced packet whose turn has come on its queue, with a free tag, both retention banks in service and no packet
held behind it. -/
def InTurn (c : Cmd) (s : State) : Prop :=
  c.unseq = false ∧ s.host.journal.acceptStopped = false ∧ s.host.journal.bankA.inService = true ∧
  s.host.journal.bankB.inService = true ∧ c.queue < s.host.queues.length ∧ c.seq < 2 ^ 32 ∧
  (s.queue c.queue).nextSeq = c.seq ∧ (s.queue c.queue).tags.contains c.tag = false ∧ s.inChecks c = false ∧
  (s.queue c.queue).held = []

/-- Opcode `op` is defined, and its checks pass on every state that differs from `s` in its queues and check units alone. -/
def ChecksPass (op : Nat) (c : Cmd) (s : State) : Prop :=
  ∃ o, opInfo op = some o ∧ ∀ t : State,
    t = { s with host := { s.host with queues := t.host.queues }, integrity := t.integrity } → o.check c t = .ok

/-- From `s` to `t` a packet has been taken in: it waits for step 12 with its tag in use, and beside that only the check
units have worked. NEXT_SEQ stands. -/
def TakenIn (op : Nat) (c : Cmd) (s t : State) : Prop :=
  t.host.checked = s.host.checked ++ [{ opcode := op, rejection := none, cmd := c }] ∧
  t = { s with host := { s.host with checked := t.host.checked, queues := t.host.queues }, integrity := t.integrity } ∧
  (∀ p, p ≠ c.queue → t.queue p = s.queue p) ∧
  t.queue c.queue = { s.queue c.queue with tags := (s.queue c.queue).tags ++ [c.tag] }

/-- From `s` to `t` a packet has been refused with this status: one final reply, and beside it only the check units have worked;
its tag is in use from then on when `held` says so, until the reply is taken. -/
def Refused (op ver : Nat) (held : Bool) (c : Cmd) (st det : Nat) (s t : State) : Prop :=
  (∃ r : Reply, t.host.waiting = s.host.waiting ++ [r] ∧ r.opcode = op ∧ r.version = ver ∧ r.tag = c.tag ∧ r.via = c.via ∧
    r.final = true ∧ r.holdsTag = held ∧ r.block = s.block st det 0) ∧
  t.queue c.queue =
    { s.queue c.queue with tags := (s.queue c.queue).tags ++ (if held then [c.tag] else []) } ∧
  (∀ p, p ≠ c.queue → t.queue p = s.queue p) ∧
  t = { s with host := { s.host with waiting := t.host.waiting, queues := t.host.queues }, integrity := t.integrity }

/-! ## Light -/

/-- Does an output play a slot or a direct code? -/
def Output.lit : Output → Bool
  | .slot .. => true
  | .direct .. => true
  | _ => false

/-- No emitter plays. -/
def Dark (s : State) : Prop := ∀ x ∈ s.emission.emitters, x.out.lit = false

/-- From `s` to `t` emitter `e` alone may differ, of the emission chapter's state. -/
def EmitterOnly (e : Nat) (s t : State) : Prop :=
  t.emission = { s.emission with emitters := t.emission.emitters } ∧
  t.emission.emitters.length = s.emission.emitters.length ∧ ∀ k, k ≠ e → t.emitter k = s.emitter k

/-! ## Zone outputs and Pavane -/

/-- The zone outputs are safe (R202, R203): both are driven alike; neither is clear under ZONE_OUT_FAULT, under ZONE_WDOG or in
Pavane; and a test pulse runs only on an output that is clear. -/
def ZoneSafe (s : State) : Prop :=
  s.zone.clearA = s.zone.clearB ∧
  (s.zone.clearA = true → s.zone.outFault = false ∧ s.zone.wdog = false ∧ s.power.phase ≠ .pavane) ∧
  (s.zone.pulseA ≠ none → s.zone.clearA = true) ∧ (s.zone.pulseB ≠ none → s.zone.clearB = true)

/-- Command `c` begins a cold start of a device that is in Pavane: the supplies come up anew, or a power fail that began Pavane has
ended, 10 ms after it and with the journal flushed (R416). -/
def StartsCold (c : Instr) (s : State) : Prop :=
  (∃ st, c = .porRelease st) ∨
  (∃ st, c = .pfailRecover st ∧ s.power.pavaneCause = .pfail ∧ s.host.journal.flushing = false ∧
    s.power.pavaneAt + 12800000 ≤ s.clk.now)

/-! ## Angle -/

/-- The angle has been lost with this cause (R144, R146): ANGLE_LOSS is registered, the count has risen, and the encoder outputs are
frozen; without an inhibit before, no emitter plays any more. -/
def AngleLost (cause : Nat) (s t : State) : Prop :=
  t.angle.lock = .lost ∧ t.angle.lossCause = cause ∧ t.angle.lossCount = satInc 16 s.angle.lossCount ∧
  t.sched.inhibit.getLsbD 2 = true ∧ t.angle.encFrozen = true ∧ t.angle.config = s.angle.config ∧
  (s.inhibited = false → Dark t ∧ t.sched.queue = []) ∧
  t = { s with angle := t.angle, emission := t.emission, fabric := t.fabric, health := t.health, host := t.host,
               motion := t.motion, net := t.net, returns := t.returns, sched := t.sched, zone := t.zone }

end Sys2Proof.Machine
end

