-- ==== Sys2Proof/WellFormed.lean ====
section
/-!
DEFINITION. Which commands and events the outside can send: every index names a part that exists, and every value fits the
field, pin or converter that carries it. The meanings are total, so they answer for ill-formed operands as well.
-/
namespace Sys2Proof

/-- Every element of a list is below `n`. -/
def allBelow (n : Nat) (l : List Nat) : Bool := l.all (· < n)

/-- Does a signed value fit `w` bits? -/
def fitsSigned (w : Nat) (i : Int) : Bool := decide (-(2 ^ (w - 1) : Nat) ≤ i) && decide (i < (2 ^ (w - 1) : Nat))

def Route.wf (r : Route) : Bool := decide (r.addr < 2 ^ 32) && decide (r.port < 2 ^ 16) && r.session.length == 16

/-- SQ_INDEX is 16 bits; a session of 16 bytes stands on TRDP only (Table 15.9). -/
def Via.wf (v : Via) : Bool := decide (v.sqIndex < 2 ^ 16) && (v.transport != .trdp || v.route.wf)

/-- Header fields of Table 2.1 and a payload of at most 255 units. -/
def Cmd.wf (c : Cmd) : Bool :=
  c.via.wf && decide (c.tag < 2 ^ 16) && decide (c.queue < 4) && decide (c.seq < 2 ^ 32) &&
  decide (c.trailer < 2 ^ 32) && c.payload.length % 16 == 0 && decide (c.payload.length ≤ 4080)

def TrdpMessage.wf (m : TrdpMessage) : Bool :=
  decide (m.src < 2 ^ 32) && decide (m.srcPort < 2 ^ 16) && decide (m.comId < 2 ^ 32) && decide (m.msgType < 2 ^ 16) &&
  m.session.length == 16

/-- The numbers of Table 1.6. -/
def Domain.wf : Domain → Bool
  | .tileFabric t => decide (t < 8)
  | .tileSram t => decide (t < 8)
  | .cluster k => decide (k < 24)
  | .engine g => decide (g < 144)
  | .emitterDac k => decide (k < 18)
  | .phy p => decide (p < 2)
  | .supervisor p => decide (p < 2)
  | .excDac | .galvoDac | .filter | .motion | .aux | .network => true

def GmData.wf (g : GmData) : Bool :=
  decide (g.priority1 < 256) && decide (g.clockClass < 256) && decide (g.accuracy < 256) &&
  decide (g.variance < 2 ^ 16) && decide (g.priority2 < 256) && decide (g.identity < 2 ^ 64) && decide (g.steps < 2 ^ 16)

def PtpKind.wf : PtpKind → Bool
  | .announce gm i => gm.wf && fitsSigned 8 i
  | .sync origin i => decide (origin < 2 ^ 112) && fitsSigned 8 i
  | .delayResponse sequence receipt => decide (sequence < 2 ^ 16) && decide (receipt < 2 ^ 112)
  | .pdelayResponse sequence receipt => decide (sequence < 2 ^ 16) && decide (receipt < 2 ^ 112)
  | .pdelayFollowUp sequence departed => decide (sequence < 2 ^ 16) && decide (departed < 2 ^ 112)
  | .requestReceived sequence requester => decide (sequence < 2 ^ 16) && requester.length == 10

def PtpMessage.wf (m : PtpMessage) : Bool :=
  decide (m.port < 2) && decide (m.profile < 256) && decide (m.domain < 256) && m.kind.wf

def FrameKind.wf : FrameKind → Bool
  | .arpRequest sender target => sender.length == 16 && target.length == 16
  | .arpReply addr mac => addr.length == 16 && mac.length == 6
  | .neighbourSolicit sender target => sender.length == 16 && target.length == 16
  | .neighbourAdvert addr mac => addr.length == 16 && mac.length == 6
  | .echoRequest _ src payload => src.length == 16 && decide (payload.length ≤ 1500)
  | .fragment src ident offset _ payload =>
    decide (src < 2 ^ 32) && decide (ident < 2 ^ 16) && decide (offset < 2 ^ 16) && decide (payload.length ≤ 1500)
  | .pause | .supervision | .ptp | .other => true

def NetFrame.wf (f : NetFrame) : Bool :=
  f.dst.length == 6 && f.src.length == 6 && f.vlan.all (· < 2 ^ 16) &&
  f.rct.all (fun x => decide (x.1 < 2 ^ 16) && decide (x.2 < 16)) && f.kind.wf

/-- A word of the code has 36 symbols (R387), each wrong once. -/
def ScrubResult.wf (r : ScrubResult) : Bool := allBelow 36 r.wrong && decide r.wrong.Nodup

/-- Two retention banks, journal indices of 48 bits. -/
def BadCopy.wf : BadCopy → Bool
  | .entry bank jix => decide (bank < 2) && decide (jix < 2 ^ 48)
  | .control bank => decide (bank < 2)

/-- STATE is 1 to 5 (Table 15.9). -/
def OddCopy.wf : OddCopy → Bool
  | .entry bank jix state => decide (bank < 2) && decide (jix < 2 ^ 48) && decide (1 ≤ state) && decide (state ≤ 5)
  | .nextSeq bank queue value => decide (bank < 2) && decide (queue < 4) && decide (value < 2 ^ 32)

def ColdStart.wf (k : ColdStart) : Bool :=
  allBelow 64 k.faultRows && (k.badSramRows.all fun x => decide (x.1 < 8)) && allBelow 144 k.badEngines &&
  allBelow 18 k.badCores && allBelow 208 k.badFes && k.paceFull.length == 8 && k.lanes.length == 41 &&
  (k.lanes.all fun x => x.all fun p => decide (p.1 < 2048) && decide (p.2 < 2048))

/-- Is a row well-formed? -/
def Instr.wf : Instr → Bool
  | .sqDoorbell q value => decide (q < 4) && decide (value < 2 ^ 32)
  | .descriptorFetch q _ desc packet => decide (q < 4) && desc.length == 16 && decide (packet.length ≤ 4100)
  | .holdExpire q seq => decide (q < 4) && decide (seq < 2 ^ 32)
  | .journalAccept q _ => decide (q < 4)
  | .replyRingWrite q | .qEnable q | .qDisable q => decide (q < 4)
  | .rqDoorbell q value => decide (q < 4) && decide (value < 2 ^ 32)
  | .intStatusClear mask => decide (mask < 2 ^ 32)
  | .registerWrite offset value => decide (offset < 2 ^ 16) && decide (value < 2 ^ 64)
  | .pciePerst _ => true
  | .trdpMrReceive m => m.wf
  | .reasmTimeout context => decide (context < 4)
  | .spiWritePacket _ | .spiReadStatus | .spiReadReply _ => true
  | .spiUnknownInstruction code => decide (code < 256)
  | .nop c | .getInfo c | .echo c | .resetWarm c | .seqSet c | .queueBind c => c.wf
  | .supervisorMismatch => true
  | .takeoverComplete bad odd | .warmStart _ bad odd => bad.all BadCopy.wf && odd.all OddCopy.wf
  | .paceGate countsA countsB => countsA.length == 8 && countsB.length == 8
  | .tileVoltageStepDown tile => decide (tile < 8)
  | .domainSettled dom | .domainSleep dom | .domainWakeStart dom => dom.wf
  | .shotPlan view cell | .fieldDeadline view cell => decide (view < 2 ^ 32) && decide (cell < 2 ^ 16)
  | .shotFix emitter | .windowStart emitter | .slotEnd emitter | .t0Timeout emitter | .nearFieldRegister emitter
  | .fadeCopy emitter | .directPlayEnd emitter | .emitterShort emitter | .directPlayLedgerLimit emitter => decide (emitter < 16)
  | .calAccept lane ones twos fes =>
    decide (lane < 41) && ones.length == 8 && twos.length == 8 && allBelow 256 ones && allBelow 256 twos &&
    (fes.all fun x => decide (x.1 < 208) && decide (x.2 < 256))
  | .laneStale lane | .laneFailed lane | .laneWarmupDone lane => decide (lane < 41)
  | .threshReadback channel code => decide (channel < 192) && decide (code < 256)
  | .blankingRelease channel _ => decide (channel < 192)
  | .shotFire emitter _ => decide (emitter < 16)
  | .histogramRangeEnd channel | .ambientSpanEnd channel | .coarseOvf channel | .longHigh channel | .trailerMerge channel
  | .rxOverload channel | .rxSilent channel | .frontEndSwitch channel => decide (channel < 192)
  | .t0InEdge coarse raw charge => decide (coarse < 2 ^ 16) && decide (raw < 256) && decide (charge < 2 ^ 16)
  | .discriminatorEdge channel coarse raw => decide (channel < 192) && decide (coarse < 2 ^ 16) && decide (raw < 256)
  | .discriminatorFall channel tot => decide (channel < 192) && decide (tot ≤ 64)
  | .ingressEntry channel _ _ => decide (channel < 192)
  | .chainStart engine => decide (engine < 144)
  | .chainEnd engine _ => decide (engine < 144)
  | .engineFault engine stop => decide (engine < 144) && decide (stop.cause < 256)
  | .frameCloseTimeout stream => decide (stream < 32)
  | .frameTransmit port | .frameTxComplete port => decide (port < 2)
  | .nearFieldClear | .revolutionBoundary | .setSwap | .shadowCopyComplete => true
  | .nfSectorRelease _ => true
  | .viewRelease view => decide (view < 2 ^ 32)
  | .viewCreate c | .viewDestroy c | .viewQuery c | .viewParam c | .viewUpdate c | .setCommit c | .setAbort c
  | .setRead c => c.wf
  | .pllUnlock | .xoStop | .pllLockHold | .freqErrInterval | .xoTrimRampStep | .ptpHoldoverTimeout | .ptpSyncTimeout
  | .excShort | .excChange | .trackingUpdate | .lockAcquired | .coastTimeout | .speedCheckGate | .cycLearnPassEnd
  | .encOverrate => true
  | .ptpMessageReceive m => m.wf
  | .pllRelock _ => true
  | .filterOutput slot samples _ _ => decide (slot < 3) && [512, 1024, 2048, 5120].contains samples.length
  | .galvoFilterOutput gpa gpb _ => decide (gpa.length = 512 ∧ gpb.length = 512)
  | .stuckModulator slot => decide (slot < 5)
  | .camTrigEdge pin | .camTrigPulseEnd pin => decide (pin < 4)
  | .angleConfig c | .angleFrame c | .filterSync c | .cycLearn c | .cycSelect c | .encConfig c | .camConfig c
  | .angleStatus c => c.wf
  | .spindleSample _ | .galvoSample _ | .mdrvUplinkTimeout | .galvoShort | .cameoCaptureComplete => true
  | .mdrvUplinkReceive bytes => decide (bytes.length ≤ 64)
  | .injectEnd loop => decide (loop < 2)
  | .loopConfig c | .loopCoeff c | .ctrlInject c | .ctrlInjectStop c | .cameoArm c | .cameoStop c | .cameoRead c
  | .ctrlStatus c | .motionRecord c => c.wf
  | .zoneReadbackFault | .zoneSnapshot | .zoneWdog | .zoneTelegramSend => true
  | .testPulseStart output | .testPulseEnd output => decide (output < 2)
  | .fireTable c | .nearfieldConfig c | .fieldDefine c | .zoneConfig c | .schedConfig c | .emitHold c | .shotStatus c
  | .zoneStatus c | .waveLoad c | .waveLoadClear c => c.wf
  | .waveTransfer emitter slot => decide (emitter < 16) && decide (slot < 64)
  | .waveRead c | .waveFade c | .parkSet c | .emitDirect c | .emitDirectStop c | .ledgerUnlockChallenge c
  | .ledgerUnlockResponse c | .ledgerWrite c | .ledgerRead c | .resConfig c | .emitStatus c => c.wf
  | .unlockExpire | .unlockLockoutEnd | .emitEnEdge _ _ | .emitEnClear | .enDiscrepancy | .enDiscrepancyClear
  | .speedLowClear => true
  | .ledgerBucketEdge window => decide (1 ≤ window) && decide (window ≤ 3)
  | .resMonSample reservoir millivolts => decide (reservoir < 4) && decide (millivolts < 2 ^ 16)
  | .resOver reservoir | .resLow reservoir => decide (reservoir < 4)
  | .biasTargetCompute | .biasStep | .biasSettled | .biasTempTimeout | .biasFault => true
  | .rxConfig c | .biasConfig c | .rxStatus c => c.wf
  | .trackerGateClose tile tracker => decide (tile < 8) && decide (tracker < 4)
  | .weatherUpdate | .heatPwmPeriod | .piezoReset => true
  | .auxMeasurementDone code1 code2 _ => fitsSigned 24 code1 && fitsSigned 24 code2
  | .auxOffsetCal gain code => decide (gain < 8) && fitsSigned 24 code
  | .shock charge => fitsSigned 32 charge
  | .auxMeasConfig c | .auxSwitchConfig c | .auxCal c | .bezelConfig c | .bezelLearn c | .auxRead c | .auxStatus c => c.wf
  | .linkUp port _ _ sqi => decide (port < 2) && decide (sqi < 256)
  | .linkDown port | .linkTrainTimeout port | .announceReceiptTimeout port => decide (port < 2)
  | .netFrameReceive port frame => decide (port < 2) && frame.wf
  | .prpSupervisionSend | .dadComplete _ | .healthPublish => true
  | .neighbourRefresh addr => addr.length == 16
  | .netConfig c | .streamConfig c | .trdpConfig c | .netStatus c | .streamStatus c => c.wf
  | .checkUnitScanDone unit _ _ => decide (unit < 24)
  | .scrubWord row region _ result => decide (row < 256) && decide (region < 256) && result.wf
  | .journalRecopyTry bank _ => decide (bank < 2)
  | .journalFlushComplete | .pfail | .pavanePowerDown | .nvmStore _ _ => true
  | .porRelease st | .pfailRecover st => st.wf
  | .nvmInfo c | .nvmRead c | .nvmStage c | .nvmCommit c | .nvmErase c | .keyProvision c | .powerDown c => c.wf
  | .tileTempRead tile temp _ => decide (tile < 8) && fitsSigned 16 temp
  | .selfTestPeriodic test target => decide (test < 256) && decide (target < 256)
  | .testComplete scope _ | .activityComplete scope _ => decide (scope < 256)
  | .replanPeriodic | .arbiterGrant => true
  | .healthRead c | .timebaseStatus c | .fabricStatus c | .memoryStatus c | .checkUnitRead c | .checkUnitWrite c
  | .selfTest c | .replan c | .repairSubstitute c | .repairRetest c | .arbiterStatus c | .healthConfig c => c.wf
  | .jtagBypass | .jtagIdcode | .jtagSamplePreload _ | .jtagExtest | .jtagTapReset => true
  | .encStateChange | .standbyComparisonFail => true
  | .keeperDomainFault bank _ => decide (bank < 2)

end Sys2Proof
end

