-- ==== Sys2Proof/Certificates/Slice0/Obligations.lean ====
section
/-!
DEFINITION. The statements about the machine, chapter by chapter. Each docstring names the rules of the spec it says.
-/
open Sys2Proof Sys2Proof.Machine

/-! ## Domains, pace and the supervisor pairs (chapter 1) -/

/-- The block takes its commands in order: with command `c` at the front of the queue, a step is `exec` of `c` on the state
with the queue's rest; on an empty queue one tick passes (the model's choice: log entry 1).
Where the spec is open it rests on log entries 1, 2. -/
def Obligations.StepRunsTheCommandInFront : Prop :=
  (∀ (c : Instr) (rest : List Instr) (s : State), s.pending = c :: rest → step s = exec c { s with pending := rest }) ∧
  (∀ s : State, s.pending = [] → step s = .next (tick s))

/-- R26, R28, R466, Table 9.4. A requested domain starts its wake 1.25 µs or more after the wake before it, not earlier; a waking
domain becomes awake; a core that serves an output in its hold state takes it to its park code; the channels of a cluster become
ACTIVE or STANDBY as the active set names them. A domain that neither set has referred to for 1 ms, and that no activity and no
direct play holds, goes to sleep 1.25 µs or more after the one before; a core that served an output leaves it in the hold state, at
the code it parked with; a domain in use, or one idle for less, does not sleep. Once Pavane powers domains down, those that do not stay
powered sleep in the same turn.
Where the spec is open it rests on log entries 4, 35. -/
def Obligations.DomainsWakeAndSleepInTurn : Prop :=
  (∀ (d : Domain) (x : DomainState) (s : State), s.domain d = some x →
    (x.phase = .requested → (∀ t, s.power.lastWake = some t → t + 1600 ≤ s.clk.now) →
      ∃ t, exec (.domainWakeStart d) s = .next t ∧ t.domain d = some { x with phase := .waking s.clk.now } ∧
        t.power.lastWake = some s.clk.now ∧ (∀ e, e ≠ d → t.domain e = s.domain e) ∧
        t = { s with power := { s.power with domains := t.power.domains, lastWake := t.power.lastWake } }) ∧
    (∀ t, s.power.lastWake = some t → s.clk.now < t + 1600 → exec (.domainWakeStart d) s = .next s) ∧
    (x.phase ≠ .requested → exec (.domainWakeStart d) s = .next s)) ∧
  (∀ (d : Domain) (x : DomainState) (t0 : Nat) (s : State), s.domain d = some x → x.phase = .waking t0 →
    ∃ t, exec (.domainSettled d) s = .next t ∧ t.domain d = some { x with phase := .awake } ∧
      (∀ e, e ≠ d → t.domain e = s.domain e) ∧
      t = { s with power := { s.power with domains := t.power.domains }, clk := t.clk, emission := t.emission,
                   returns := t.returns } ∧
      (∀ k e code, d = .emitterDac k → s.outputOf k = some e → (s.emitter e).out = .hold code →
        e < s.emission.emitters.length → (t.emitter e).out = .park code) ∧
      (∀ k ch, d = .cluster k → ch < 192 → s.returns.channels.length = 192 → clusterOf (s.feOf ch) = k →
        (s.channel ch).st ≠ .outOfService →
        (t.channel ch).st = if s.sets.active.namesChannel ch then .active else .standby) ∧
      ((∀ k, d ≠ .emitterDac k ∧ d ≠ .cluster k) → t.clk = s.clk ∧ t.emission = s.emission ∧ t.returns = s.returns)) ∧
  (∀ (d : Domain) (x : DomainState) (s : State), s.domain d = some x → x.phase = .awake →
    ((∃ t0, x.idleSince = some t0 ∧ t0 + 1280000 ≤ s.clk.now) ∧ s.maintained d = false ∧ s.playsDirect d = false ∨
      s.power.poweredDown = true ∧ staysPowered d = false) → (∀ t, s.power.lastSleep = some t → t + 1600 ≤ s.clk.now) →
    ∃ t, exec (.domainSleep d) s = .next t ∧ t.domain d = none ∧ (∀ e, e ≠ d → t.domain e = s.domain e) ∧
      t.power.lastSleep = some s.clk.now ∧
      (∀ k e, d = .emitterDac k → s.outputOf k = some e → e < s.emission.emitters.length →
        (∃ code, (t.emitter e).out = .hold code) ∧
        (∀ code, (s.emitter e).out = .park code → (t.emitter e).out = .hold code)) ∧
      t = { s with power := { s.power with domains := t.power.domains, lastSleep := t.power.lastSleep }, clk := t.clk,
                   emission := t.emission, returns := t.returns }) ∧
  (∀ (d : Domain) (x : DomainState) (s : State), s.domain d = some x → s.power.poweredDown = false ∨ staysPowered d = true →
    (∀ t0, x.idleSince = some t0 → s.clk.now < t0 + 1280000) → exec (.domainSleep d) s = .next s) ∧
  (∀ (d : Domain) (t : Nat) (s : State), s.power.lastSleep = some t → s.clk.now < t + 1600 → exec (.domainSleep d) s = .next s)

/-- R18, R27, Table 1.4. A pace gate gives each tile the pace of the lower of its two lines, and the device the lowest tile pace, which
Minuet and the health monitors receive; a tile whose pace falls below its need goes up 10 mV at once, to 0.85 V at most; a tile steps
down 10 mV at most once a millisecond, only while its pace exceeds the
need by more than 5 %, to 0.65 V at least.
Where the spec is open it rests on log entries 34, 129. -/
def Obligations.PaceDrivesTheVoltage : Prop :=
  (∀ (as bs : List Nat) (s : State), s.power.tiles.length = 8 →
    ∃ t, exec (.paceGate as bs) s = .next t ∧
      (∀ i, i < 8 → (t.pace i).paceA = as.getD i 0 / 5 ∧ (t.pace i).paceB = bs.getD i 0 / 5 ∧
        (t.pace i).pace = min (as.getD i 0 / 5) (bs.getD i 0 / 5) ∧
        (t.pace i).mv = (if min (as.getD i 0 / 5) (bs.getD i 0 / 5) < s.paceNeed i then min 850 ((s.pace i).mv + 10)
                         else (s.pace i).mv)) ∧
      (∀ i, i < 8 → t.sched.devicePace ≤ (t.pace i).pace) ∧ (∃ i, i < 8 ∧ t.sched.devicePace = (t.pace i).pace) ∧
      t.health = { s.health with devicePace := t.sched.devicePace } ∧
      t = { s with power := { s.power with tiles := t.power.tiles }, sched := t.sched, health := t.health }) ∧
  (∀ (i : Nat) (s : State), i < s.power.tiles.length →
    (s.paceNeed i * 105 < (s.pace i).pace * 100 → 650 < (s.pace i).mv → (s.pace i).lastStepDown + 1280000 ≤ s.clk.now →
      ∃ t, exec (.tileVoltageStepDown i) s = .next t ∧
        t.pace i = { s.pace i with mv := (s.pace i).mv - 10, lastStepDown := s.clk.now } ∧
        (∀ j, j ≠ i → t.pace j = s.pace j) ∧ t = { s with power := { s.power with tiles := t.power.tiles } }) ∧
    ((s.pace i).pace * 100 ≤ s.paceNeed i * 105 ∨ (s.pace i).mv ≤ 650 ∨ s.clk.now < (s.pace i).lastStepDown + 1280000 →
      exec (.tileVoltageStepDown i) s = .next s))

/-- R21, R41, R58, R398. A failing comparison of the active pair promotes the standby: packets not yet accepted are forgotten, no
command runs and every other packet is answered ST_BUSY 0x02 until the replay is complete; then each finished live entry's final
reply is sent again, with DUP set when its delivery was not confirmed or its data is gone, and so is a rejection that still waited
(R58); an entry that neither bank holds readable ends with ST_FAULT 0x03, one that has neither taken effect nor runs on is run anew,
copies that differ set BANK_DIVERGED, the higher of two NEXT_SEQ values stands (R393), and packets are taken again.
Where the spec is open it rests on log entries 25, 117. -/
def Obligations.TakeoverReplaysTheJournal : Prop :=
  (∀ s : State, s.power.running = true → s.power.halted = false → s.standbyReady = true →
    ∃ t, exec .supervisorMismatch s = .next t ∧ t.power.takeover = true ∧ t.power.supervisorB = !s.power.supervisorB ∧
      t.power.failedPair = true ∧ t.power.takeovers = satInc 32 s.power.takeovers ∧ t.executes = false ∧ t.busyDetail = some 2 ∧
      t.health.takeoverSeen = true ∧ t.host.checked = [] ∧ (∀ k ∈ t.host.queues, k.held = []) ∧
      t.host.journal = s.host.journal ∧ t.host.waiting = s.host.waiting ∧
      t = { s with host := t.host, power := t.power, health := t.health, out := t.out }) ∧
  (∀ (bad : List BadCopy) (odd : List OddCopy) (s : State), s.power.takeover = true →
    let s1 := s.restoreControl bad odd
    ∃ t, exec (.takeoverComplete bad odd) s = .next t ∧ t.power.takeover = false ∧
      t.power = { s.power with takeover := false } ∧
      (∀ l ∈ s.host.journal.live, ∀ r d, s1.readCopies bad odd l = some (.done, d) → l.reply = some r → r.final = true →
        ∃ r1 ∈ t.host.waiting, r1.tag = r.tag ∧ r1.seq = r.seq ∧ r1.block = r.block ∧ r1.final = r.final ∧
          r1.via.sqIndex = 0xFFFF ∧ (r.data ≠ [] ∨ r ∉ s.host.waiting → r1.dup = true)) ∧
      (∀ r ∈ s.host.waiting, r.final = true → r.unseq = false →
        (∀ l ∈ s1.host.journal.live, ¬ (l.cmd.queue = r.queue ∧ l.cmd.seq = r.seq ∧ l.cmd.tag = r.tag)) →
        ∃ r1 ∈ t.host.waiting, r1.tag = r.tag ∧ r1.seq = r.seq ∧ r1.block = r.block ∧ r1.final = true) ∧
      (∀ l ∈ s.host.journal.live, s1.readCopies bad odd l = none →
        ∃ r1 ∈ t.host.waiting, r1.tag = l.cmd.tag ∧ r1.seq = l.cmd.seq ∧ r1.final = true ∧ r1.block = s.block 0x20 3 0) ∧
      (∀ l ∈ s.host.journal.live, ∀ st d, s1.readCopies bad odd l = some (st, d) → (d = true → t.health.bankDiverged = true) ∧
        (st ≠ .done → s.carried l = false → s.completion l = none → l.jix ∈ t.host.journal.requeued)) ∧
      (∀ b q v, bad = [] → odd = [.nextSeq b q v] → (s.bank b).inService = true → q < s.host.queues.length →
        v = ((s.queue q).nextSeq + 1) % 2 ^ 32 → (s.queue q).nextSeq < 2 ^ 32 → (t.queue q).nextSeq = v) ∧
      t = { s with host := t.host, power := t.power, health := t.health, out := t.out })

/-! ## Transports, queues and the journal (chapter 2, chapter 15) -/

/-- R53, R54, Table 2.8. Writes of the ring registers: a queue's registers can be written while they are not in use, their
reserved bits stay 0, and a write while they are in use changes nothing but Q_ERROR, to 0x05. A write to a read-only or reserved
offset changes nothing. (That replies a start
owes hold no ring back before the host sets it up is the model's choice: log entry 22.) R54, R53, R55,
R57, R455. The doorbells, Q_CTRL, INT_STATUS and PERST#: enabling with a size out of range leaves the queue disabled with
Q_ERROR 0x06; enabling after a halt skips the faulty entry and clears HALTED and Q_ERROR; disabling changes ENABLED alone;
writing 1s to INT_STATUS clears those bits alone; PERST# low gives configuration space, every register and every ring its defaults, and
after its high level the endpoint stands as the host has configured it.
Where the spec is open it rests on log entries 22, 23, 155, 157. -/
def Obligations.RingRegistersFollowTheHost : Prop :=
  (∀ (q v : Nat) (s : State), WindowUp q s → v < 2 ^ 32 →
     ((s.ring q).enabled = false →
       (∃ t, exec (.registerWrite (0x100 + 0x40 * q) v) s = .next t ∧ RingOnly q s t ∧
         t.readWindow (0x100 + 0x40 * q) = v / 4096 * 4096 ∧ (t.ring q).rqBase = (s.ring q).rqBase) ∧
       (∃ t, exec (.registerWrite (0x100 + 0x40 * q + 0x04) v) s = .next t ∧ RingOnly q s t ∧
         t.readWindow (0x100 + 0x40 * q + 0x04) = v) ∧
       (∃ t, exec (.registerWrite (0x100 + 0x40 * q + 0x08) v) s = .next t ∧ RingOnly q s t ∧
         t.readWindow (0x100 + 0x40 * q + 0x08) = v % 16)) ∧
     ((s.ring q).enabled = true → ∀ o ∈ [0x00, 0x04, 0x08],
       ∃ t, exec (.registerWrite (0x100 + 0x40 * q + o) v) s = .next t ∧ RingOnly q s t ∧
         t.ring q = { s.ring q with qError := 5 }) ∧
     (s.credits q = 128 →
       (∃ t, exec (.registerWrite (0x100 + 0x40 * q + 0x14) v) s = .next t ∧ RingOnly q s t ∧
         t.readWindow (0x100 + 0x40 * q + 0x14) = v / 4096 * 4096) ∧
       (∃ t, exec (.registerWrite (0x100 + 0x40 * q + 0x1C) v) s = .next t ∧ RingOnly q s t ∧
         t.readWindow (0x100 + 0x40 * q + 0x1C) = v % 16) ∧
       (∃ t, exec (.registerWrite (0x100 + 0x40 * q + 0x28) v) s = .next t ∧ RingOnly q s t ∧
         t.readWindow (0x100 + 0x40 * q + 0x28) = v / 4096 * 4096)) ∧
     (s.credits q < 128 → s.owedOnly q = false → ∀ o ∈ [0x14, 0x18, 0x1C, 0x28, 0x2C],
       ∃ t, exec (.registerWrite (0x100 + 0x40 * q + o) v) s = .next t ∧ RingOnly q s t ∧
         t.ring q = { s.ring q with qError := 5 }) ∧
     (∀ o ∈ [0x10, 0x20, 0x34, 0x38, 0x3C], exec (.registerWrite (0x100 + 0x40 * q + o) v) s = .next s) ∧
     (∀ o, o < 0x100 → o ≠ 0x018 → o ≠ 0x01C → exec (.registerWrite o v) s = .next s)) ∧
  ((∀ (q v : Nat) (s : State), WindowUp q s →
     (∃ t, exec (.sqDoorbell q v) s = .next t ∧ RingOnly q s t ∧
       t.ring q = { s.ring q with sqTail := ringIndex (s.ring q).sqSize v }) ∧
     (∃ t, exec (.rqDoorbell q v) s = .next t ∧ RingOnly q s t ∧
       t.ring q = { s.ring q with rqHead := ringIndex (s.ring q).rqSize v }) ∧
     (∃ t, exec (.qDisable q) s = .next t ∧ RingOnly q s t ∧ t.ring q = { s.ring q with enabled := false }) ∧
     ((s.ring q).enabled = false → (s.ring q).sized = false →
       ∃ t, exec (.qEnable q) s = .next t ∧ RingOnly q s t ∧ t.ring q = { s.ring q with qError := 6 }) ∧
     ((s.ring q).enabled = false → (s.ring q).sized = true → (s.ring q).halted = true →
       ∃ t, exec (.qEnable q) s = .next t ∧ RingOnly q s t ∧ (t.ring q).enabled = true ∧ (t.ring q).halted = false ∧
         (t.ring q).qError = 0 ∧ (t.ring q).sqHead = ((s.ring q).sqHead + 1) % 2 ^ (s.ring q).sqSize ∧
         (t.ring q).sqTail = (s.ring q).sqTail) ∧
     ((s.ring q).enabled = false → (s.ring q).sized = true → (s.ring q).halted = false →
       ∃ t, exec (.qEnable q) s = .next t ∧ RingOnly q s t ∧ t.ring q = { s.ring q with enabled := true, armed := true })) ∧
   (∀ (m : Nat) (s : State), s.pcieUp = true →
     ∃ t, exec (.intStatusClear m) s = .next t ∧
       t = { s with host := { s.host with pcie := { s.host.pcie with intStatus := t.host.pcie.intStatus } } } ∧
       ∀ b, b < 6 → t.host.pcie.intStatus.getLsbD b = (s.host.pcie.intStatus.getLsbD b && !m.testBit b)) ∧
   (∀ s : State, ∃ t, exec (.pciePerst .low) s = .next t ∧ t = { s with host := t.host } ∧
     t.host.pcie = { perstHigh := false, config := PcieConfig.reset, intStatus := 0, intEnable := 0 } ∧ t.pcieUp = false ∧
     (∀ q, q < s.host.queues.length → t.queue q = { s.queue q with ring := Ring.reset }) ∧
     t.host.journal = s.host.journal ∧ t.host.waiting = s.host.waiting ∧ t.host.checked = s.host.checked) ∧
   (∀ (k : PcieConfig) (s : State), ∃ t, exec (.pciePerst (.high k)) s = .next t ∧
     t = { s with host := { s.host with pcie := { s.host.pcie with perstHigh := true, config := k } } }))

/-- R36, R38, R46, R55, R61, R367. On each of the three transports a valid sequenced packet whose turn has come, of a defined
opcode whose checks pass, is taken in: its tag is in use and it waits for the journal, while NEXT_SEQ stands; on PCIe SQ_HEAD
has moved on by one entry. A packet with UNSEQ whose opcode permits it runs on arrival: an ECHO is answered at once, and NEXT_SEQ
stands.
Where the spec is open it rests on log entries 10, 19. -/
def Obligations.PacketInTurnIsTakenIn : Prop :=
  (∀ (q : Nat) (desc packet : List Byte) (s : State),
    let b := fit (u16 desc 8) packet
    let via : Via := { transport := .pcie, sqIndex := (s.ring q).sqHead, route := { addr := 0, port := 0, session := [] } }
    let s1 := s.onRing q fun r => { r with sqHead := ringIndex r.sqSize (r.sqHead + 1) }
    s.mayFetch q ((u16 desc 8 - 20) / 16) = true → entryFault false desc = 0 → GoodPacket (some q) via b s1 →
    InTurn (pkCmd via b) s1 → ChecksPass (pkOpcode b) (pkCmd via b) s1 →
    ∃ t, exec (.descriptorFetch q false desc packet) s = .next t ∧ TakenIn (pkOpcode b) (pkCmd via b) s1 t) ∧
  (∀ (m : TrdpMessage) (s : State),
    let via : Via := { transport := .trdp, sqIndex := 0xFFFF,
                       route := { addr := m.src, port := m.srcPort, session := fit 16 m.session } }
    s.trdpServed = true → m.comId = tcMdReq s.net.trdp → m.msgType = 0x4D72 → topoWrong s.net.trdp m = false →
    sourceWrong s.net.trdp m = false → s.host.journal.trdpStore = [] → s.mayTake .trdp m.data = true →
    GoodPacket none via m.data s → InTurn (pkCmd via m.data) s → ChecksPass (pkOpcode m.data) (pkCmd via m.data) s →
    ∃ t, exec (.trdpMrReceive m) s = .next t ∧ TakenIn (pkOpcode m.data) (pkCmd via m.data) s t) ∧
  (∀ (b : List Byte) (s : State),
    let via : Via := { transport := .spi, sqIndex := 0xFFFF, route := { addr := 0, port := 0, session := [] } }
    s.spiUp = true → s.host.spi.rx = none → b.length ≤ 4100 → s.mayTake .spi b = true →
    GoodPacket none via b s → InTurn (pkCmd via b) s → ChecksPass (pkOpcode b) (pkCmd via b) s →
    ∃ t, exec (.spiWritePacket b) s = .next t ∧ TakenIn (pkOpcode b) (pkCmd via b) s t) ∧
  (∀ (b : List Byte) (s : State),
    let via : Via := { transport := .spi, sqIndex := 0xFFFF, route := { addr := 0, port := 0, session := [] } }
    let c := pkCmd via b
    let k := s.queue c.queue
    s.spiUp = true → s.host.spi.rx = none → b.length ≤ 4100 → GoodPacket none via b s → pkOpcode b = 0x0102 → c.unseq = true →
    s.executes = true → c.queue < s.host.queues.length → k.tags.contains c.tag = false → k.held = [] →
    ∃ t, exec (.spiWritePacket b) s = .next t ∧
      Answered 0x0102 c (s.block 0 0 (min (c.payload.length / 16) 254)) (c.payload.take 4064) s t ∧
      t.queue c.queue = { k with tags := k.tags ++ [c.tag] } ∧ (∀ p, p ≠ c.queue → t.queue p = s.queue p) ∧
      t = { s with host := { s.host with waiting := t.host.waiting, queues := t.host.queues }, integrity := t.integrity })

/-- R35, R36, R38, R39, R40, R41, R47, Table 2.4. The order of the checks on receipt, for a packet on the SPI port: the first failing
step answers with its status, DETAIL and VERSION, NEXT_SEQ standing, and its tag is in use until the answer is taken when its header
is sound and the tag was free; a duplicate with its original's trailer gets a copy of the original's answer with DUP set and is not
run; one with another trailer is refused with ST_SEQUENCE 0x02; a packet up to 127 ahead is held with its tag.
Where the spec is open it rests on log entries 12, 13, 15, 16. -/
def Obligations.ReceiptStopsAtTheFirstFailure : Prop :=
  ∀ (b : List Byte) (s : State),
    let via : Via := { transport := .spi, sqIndex := 0xFFFF, route := { addr := 0, port := 0, session := [] } }
    let c := pkCmd via b
    let op := pkOpcode b
    let k := s.queue c.queue
    s.spiUp = true → s.host.spi.rx = none → b.length ≤ 4100 → s.mayTake .spi b = true → s.host.queues.length = 4 →
    let good1 := 16 ≤ b.length ∧ u16 b 0 = 0x6D4B ∧ crc16 (b.take 14) = u16 b 14
    let good2 := good1 ∧ b.length = 20 + 16 * pkLength b
    let good3 := good2 ∧ crc32c (b.take (b.length - 4)) = c.trailer
    let good4 := good3 ∧ s.headerFault none via b = none
    let good5 := good4 ∧ s.busyDetail = none ∧ c.unseq = false ∧ s.host.journal.acceptStopped = false ∧
      s.host.journal.bankA.inService = true ∧ s.host.journal.bankB.inService = true
    let ahead := (c.seq + 2 ^ 32 - k.nextSeq) % 2 ^ 32
    let answers (st det : Nat) := ∃ t, exec (.spiWritePacket b) s = .next t ∧
      Refused op (pkVersion b) (s.tagFree c) c st det s t
    (¬ good1 → ∃ t, exec (.spiWritePacket b) s = .next t ∧ Refused op (pkVersion b) false c 0x17 0x01 s t) ∧
    (good1 → ¬ good2 → answers 0x10 0x01) ∧
    (good2 → ¬ good3 → answers 0x17 0x02) ∧
    (good3 → ∀ d, s.headerFault none via b = some d → answers 0x19 d) ∧
    (good4 → ∀ d, s.busyDetail = some d → answers 0x15 d) ∧
    (good4 → s.busyDetail = none → c.unseq = false → s.host.journal.acceptStopped = false →
      s.host.journal.bankA.inService = false → answers 0x21 0x01) ∧
    (good4 → s.busyDetail = none → c.unseq = false → s.host.journal.acceptStopped = false →
      s.host.journal.bankA.inService = true → s.host.journal.bankB.inService = false → answers 0x21 0x02) ∧
    (good5 → k.nextSeq < 2 ^ 32 → c.seq < 2 ^ 32 → ahead = 0 → k.tags.contains c.tag = true → answers 0x15 0x01) ∧
    (good5 → k.nextSeq < 2 ^ 32 → c.seq < 2 ^ 32 → 1 ≤ ahead → ahead ≤ 127 → k.tags.contains c.tag = false →
      (∀ h ∈ k.held, h.cmd.seq ≠ c.seq) →
      ∃ t, exec (.spiWritePacket b) s = .next t ∧
        t.queue c.queue = { k with tags := k.tags ++ [c.tag],
                                   held := k.held ++ [{ opcode := op, cmd := c, arrival := s.clk.now }] } ∧
        (∀ p, p ≠ c.queue → t.queue p = s.queue p) ∧
        t = { s with host := { s.host with queues := t.host.queues }, integrity := t.integrity }) ∧
    (good5 → k.nextSeq < 2 ^ 32 → c.seq < 2 ^ 32 → 128 ≤ ahead → ahead < 2 ^ 31 → answers 0x18 0x01) ∧
    (good5 → k.nextSeq < 2 ^ 32 → c.seq < 2 ^ 32 → 2 ^ 31 ≤ ahead → ahead < 2 ^ 32 - 1024 → answers 0x18 0x03) ∧
    (good5 → k.nextSeq < 2 ^ 32 → c.seq < 2 ^ 32 → 2 ^ 32 - 1024 ≤ ahead → ∀ d, k.dup.find? (·.seq == c.seq) = some d →
      (d.trailer ≠ c.trailer → answers 0x18 0x02) ∧
      (d.trailer = c.trailer → s.host.journal.live.find? (Live.isOf c) = none →
        ∃ t r, exec (.spiWritePacket b) s = .next t ∧
          t = { s with host := { s.host with waiting := s.host.waiting ++ [r] }, integrity := t.integrity } ∧
          r.opcode = d.opcode ∧ r.tag = c.tag ∧ r.final = d.final ∧ r.block = d.block ∧ r.dup = true ∧
          r.holdsTag = false) ∧
      (d.trailer = c.trailer → ∀ l r0, s.host.journal.live.find? (Live.isOf c) = some l → l.reply = some r0 →
        ∃ t r, exec (.spiWritePacket b) s = .next t ∧
          t = { s with host := { s.host with waiting := s.host.waiting ++ [r] }, integrity := t.integrity } ∧
          r.opcode = r0.opcode ∧ r.tag = c.tag ∧ r.final = r0.final ∧ r.block = r0.block ∧ r.data = r0.data ∧
          r.dup = true ∧ r.holdsTag = false))

/-- R43, R392, R395, R47. JOURNAL_ACCEPT: when both banks read back right, the packet becomes a live entry with the next journal
index, NEXT_SEQ advances by one, its duplicate record is written and its interim reply ACCEPTED joins the replies; of a packet that
steps 8 to 11 reject, NEXT_SEQ and the duplicate record are written, and its rejection joins them; when a bank
fails twice it goes out of service, the packet is refused with ST_FAULT_JOURNAL and no sequence number is consumed. R40. HOLD_EXPIRE:
10 ms after its arrival a held packet is rejected with ST_SEQUENCE 0x04, its tag free and NEXT_SEQ standing; before that nothing
happens.
Where the spec is open it rests on log entries 14, 18. -/
def Obligations.AcceptanceIsDurable : Prop :=
  (∀ (q : Nat) (rb : ReadBack) (k : Checked) (s : State),
    let c := k.cmd
    s.executes = true → s.host.journal.acceptStopped = false → s.nextChecked q = some k → q < s.host.queues.length →
    rb.a1 = true ∨ rb.a2 = true → rb.b1 = true ∨ rb.b2 = true → s.host.journal.bankA.inService = true →
    s.host.journal.bankB.inService = true → (s.queue q).held = [] → k.rejection = none → k.opcode ≠ 0x0110 → k.opcode ≠ 0x0301 →
    k.opcode ≠ 0x0406 → k.opcode ≠ 0x0407 → s.needsUnlock k.opcode c.payload = false →
    (s.dropChecked k).heldBehind k.opcode c.payload = false →
    ∃ t r, exec (.journalAccept q rb) s = .next t ∧
      t.host.journal.live = s.host.journal.live ++
        [{ jix := s.host.journal.jixNext, state := .accepted, opcode := k.opcode, cmd := c, reply := some r }] ∧
      t.host.journal.jixNext = (s.host.journal.jixNext + 1) % 2 ^ 48 ∧
      (t.queue q).nextSeq = ((s.queue q).nextSeq + 1) % 2 ^ 32 ∧ (t.queue q).tags = (s.queue q).tags ∧
      (∃ d ∈ (t.queue q).dup, d.seq = c.seq ∧ d.trailer = c.trailer ∧ d.final = false ∧ d.rejected = false) ∧
      t.host.waiting = s.host.waiting ++ [r] ∧ r.final = false ∧ r.tag = c.tag ∧ r.seq = c.seq ∧ r.block = s.block 0x01 0 0 ∧
      k ∉ t.host.checked ∧ (∀ p, p ≠ q → t.queue p = s.queue p) ∧
      t = { s with host := { t.host with pcie := s.host.pcie, spi := s.host.spi }, integrity := t.integrity }) ∧
  (∀ (q : Nat) (rb : ReadBack) (k : Checked) (st det : Nat) (s : State),
    let c := k.cmd
    s.executes = true → s.host.journal.acceptStopped = false → s.nextChecked q = some k → q < s.host.queues.length →
    rb.a1 = true ∨ rb.a2 = true → rb.b1 = true ∨ rb.b2 = true → s.host.journal.bankA.inService = true →
    s.host.journal.bankB.inService = true → (s.queue q).held = [] → c.unseq = false → k.rejection = some (st, det) →
    ∃ t r, exec (.journalAccept q rb) s = .next t ∧ t.host.waiting = s.host.waiting ++ [r] ∧ r.final = true ∧ r.tag = c.tag ∧
      r.seq = c.seq ∧ r.block = s.block st det 0 ∧ t.host.journal = s.host.journal ∧
      (t.queue q).nextSeq = ((s.queue q).nextSeq + 1) % 2 ^ 32 ∧ (t.queue q).tags = (s.queue q).tags ∧
      (∃ d ∈ (t.queue q).dup, d.seq = c.seq ∧ d.trailer = c.trailer ∧ d.final = true ∧ d.rejected = true) ∧
      k ∉ t.host.checked ∧ (∀ p, p ≠ q → t.queue p = s.queue p) ∧
      t = { s with host := { t.host with pcie := s.host.pcie, spi := s.host.spi }, emission := t.emission }) ∧
  (∀ (q : Nat) (b1 b2 : Bool) (k : Checked) (s : State),
    s.executes = true → s.host.journal.acceptStopped = false → s.nextChecked q = some k →
    s.host.journal.bankA.inService = true →
    ∃ t r, exec (.journalAccept q { a1 := false, a2 := false, b1 := b1, b2 := b2 }) s = .next t ∧
      t.host.journal.bankA.inService = false ∧ t.host.waiting = s.host.waiting ++ [r] ∧ r.final = true ∧
      r.tag = k.cmd.tag ∧ r.block = s.block 0x21 0x01 0 ∧ (∀ p, t.queue p = s.queue p) ∧
      t.host.journal.live = s.host.journal.live ∧ k ∉ t.host.checked ∧
      t = { s with host := t.host, out := t.out }) ∧
  (∀ (q seq : Nat) (h : Held) (s : State), h ∈ (s.queue q).held → (∀ g ∈ (s.queue q).held, g.cmd.seq = seq → g = h) →
    h.cmd.seq = seq → h.cmd.queue = q → q < s.host.queues.length → h.arrival + 10 * 1280000 ≤ s.clk.now →
    ∃ t r, exec (.holdExpire q seq) s = .next t ∧ t.host.waiting = s.host.waiting ++ [r] ∧ r.tag = h.cmd.tag ∧
      r.final = true ∧ r.block = s.block 0x18 0x04 0 ∧
      t.queue q = { s.queue q with held := (s.queue q).held.filter (· != h),
                                   tags := (s.queue q).tags.filter (· != h.cmd.tag) } ∧
      (∀ p, p ≠ q → t.queue p = s.queue p) ∧
      t = { s with host := { s.host with waiting := t.host.waiting, queues := t.host.queues } }) ∧
  (∀ (q seq : Nat) (s : State), (∀ h ∈ (s.queue q).held, s.clk.now < h.arrival + 10 * 1280000) →
    exec (.holdExpire q seq) s = .next s)

/-- R41, R57, Table 2.10. REPLY_RING_WRITE: with room in the ring, the oldest reply of the ring goes to host memory: its data at
DATA_BASE + TAG * 4096, then its entry at RQ_TAIL with the ring's PHASE; the tail moves on, PHASE inverting on a wrap; a final
reply frees its tag; INT_STATUS shows the queue. Without room, or before the host lets the endpoint write its memory, nothing happens.
R56, R59, R60, R61. What a transport does with
what it cannot use, and how the SPI port is read: a faulty submission entry halts its queue without a reply; message data of
another type is ignored and counted; READ_STATUS returns the STATUS byte and the oldest reply's length and clears FRAME_ERR;
READ_REPLY read to its end returns the oldest reply and frees its tag; an instruction outside 0x01 to 0x03, a packet that comes
while RX_BUSY is set and one of more than 4100 bytes set FRAME_ERR.
Where the spec is open it rests on log entries 7, 20, 21. -/
def Obligations.RepliesReachTheirTransport : Prop :=
  ((∀ (q : Nat) (r : Reply) (s : State), WindowUp q s → s.host.pcie.config.master = true → (s.ring q).hasRoom = true →
     s.ringReply q = some r → r.queue = q →
     ∃ t, exec (.replyRingWrite q) s = .next t ∧
       (∃ rest, t.out = s.out ++ [Out.ringEntry q (s.ring q).rqTail ((s.ring q).dataBase + 4096 * r.tag) r.data
         (r.entry (s.ring q).phase)] ++ rest ∧
         (rest = if s.host.pcie.intEnable.getLsbD q && s.host.pcie.config.msix then [Out.msix q] else [])) ∧
       t.host.waiting = s.host.waiting.erase r ∧
       (t.ring q).rqTail = ringIndex (s.ring q).rqSize ((s.ring q).rqTail + 1) ∧
       (t.ring q).phase = (if (t.ring q).rqTail = 0 then !(s.ring q).phase else (s.ring q).phase) ∧
       (t.queue q).tags = (if r.final && r.holdsTag then (s.queue q).tags.filter (· != r.tag) else (s.queue q).tags) ∧
       (t.queue q).nextSeq = (s.queue q).nextSeq ∧ (t.queue q).held = (s.queue q).held ∧
       t.host.pcie.intStatus = s.host.pcie.intStatus ||| BitVec.ofNat 6 (2 ^ q) ∧
       (∀ p, p ≠ q → t.queue p = s.queue p) ∧
       t = { s with host := t.host, integrity := t.integrity, net := t.net, out := t.out } ∧
       ((∀ w, s.net.wait = some w → w.answeredBy r = false) → t.net = s.net)) ∧
   (∀ (q : Nat) (s : State), (s.ring q).hasRoom = false ∨ s.host.pcie.config.master = false → exec (.replyRingWrite q) s = .next s)) ∧
  ((∀ (q : Nat) (re : Bool) (desc packet : List Byte) (s : State), WindowUp q s →
     s.fetches q = true → entryFault re desc ≠ 0 →
     ∃ t, exec (.descriptorFetch q re desc packet) s = .next t ∧
       t.queue q = { s.queue q with ring := { s.ring q with halted := true, qError := entryFault re desc } } ∧
       t.host.waiting = s.host.waiting ∧ t.host.journal = s.host.journal ∧ t.host.checked = s.host.checked ∧
       (∀ p, p ≠ q → t.queue p = s.queue p) ∧ t.host.pcie.intStatus.getLsbD 4 = true ∧
       t = { s with host := t.host, out := t.out }) ∧
   (∀ (m : TrdpMessage) (s : State), s.trdpServed = true → m.comId = tcMdReq s.net.trdp → m.msgType ≠ 0x4D72 →
     exec (.trdpMrReceive m) s = .next { s with host := { s.host with trdpIgnored := s.host.trdpIgnored + 1 } }) ∧
   (∀ s : State, s.spiUp = true →
     ∃ t, exec .spiReadStatus s = .next t ∧
       t.out = s.out ++ [Out.spiStatus (le 1 s.spiStatus ++ le 2 ((s.spiReply.map fun r => r.bytes.length).getD 0))] ∧
       t.host.spi.frameErr = false ∧ t.host.spi.rx = s.host.spi.rx ∧
       t = { s with host := { s.host with spi := t.host.spi }, out := t.out }) ∧
   (∀ (r : Reply) (s : State), s.spiUp = true → s.spiReply = some r → r.queue < s.host.queues.length →
     ∃ t, exec (.spiReadReply true) s = .next t ∧ t.out = s.out ++ [Out.spiReply r.bytes] ∧
       t.host.waiting = s.host.waiting.erase r ∧
       (t.queue r.queue).tags =
         (if r.final && r.holdsTag then (s.queue r.queue).tags.filter (· != r.tag) else (s.queue r.queue).tags) ∧
       (∀ p, p ≠ r.queue → t.queue p = s.queue p) ∧ t.host.spi = s.host.spi ∧ t.host.pcie = s.host.pcie ∧
       t = { s with host := t.host, integrity := t.integrity, net := t.net, out := t.out } ∧
       ((∀ w, s.net.wait = some w → w.answeredBy r = false) → t.net = s.net)) ∧
   (∀ s : State, exec (.spiReadReply false) s = .next s) ∧
   (∀ (code : Nat) (s : State), s.spiUp = true → code = 0 ∨ 3 < code →
     exec (.spiUnknownInstruction code) s =
       .next { s with host := { s.host with spi := { s.host.spi with frameErr := true } } }) ∧
   (∀ (b : List Byte) (s : State), s.spiUp = true → s.host.spi.rx.isSome = true ∨ 4100 < b.length →
     exec (.spiWritePacket b) s = .next { s with host := { s.host with spi := { s.host.spi with frameErr := true } } }))

/-! ## System commands -/

/-- R63, R64. NOP, GET_INFO and ECHO change nothing and are answered OK: GET_INFO with the 64 bytes of Table 2.13, ECHO with its
first 254 payload units at most, RESULT their number. R65, R66, R67. SEQ_SET replaces NEXT_SEQ of its own queue, with the old
value as RESULT, rejects the held packets with ST_SEQUENCE 0x04 and clears the duplicate window; QUEUE_BIND sets one queue's
mask, with the previous mask as RESULT; RESET_WARM waits for its warm start, and until then every other packet is answered
ST_BUSY 0x04.
Where the spec is open it rests on log entries 9, 17, 24, 116. -/
def Obligations.SystemCommandsTakeEffect : Prop :=
  (∀ (c : Cmd) (s : State),
     (Accepted nopInfo c s → ∃ t, exec (.nop c) s = .next t ∧ Finished 0x0100 c (s.block 0 0 0) [] s t ∧
       t = { s with host := t.host }) ∧
     (Accepted getInfoInfo c s → ∃ t d, exec (.getInfo c) s = .next t ∧ Finished 0x0101 c (s.block 0 0 0) d s t ∧
       t = { s with host := t.host } ∧ d.length = 64 ∧ u16 d 0 = 0x7192 ∧ u8 d 3 = 1 ∧ u16 d 26 = s.sets.epoch % 2 ^ 16 ∧
       (∀ q, q < 4 → u8 d (28 + q) = s.credits q % 256 ∧ u32 d (32 + 4 * q) = (s.queue q).nextSeq % 2 ^ 32 ∧
         u8 d (56 + q) = (s.queue q).mask.toNat) ∧
       u64 d 48 = s.stamp ∧ u32 d 60 = (s.fabric.startId : Nat) % 2 ^ 32) ∧
     (Accepted echoInfo c s → ∃ t, exec (.echo c) s = .next t ∧
       Finished 0x0102 c (s.block 0 0 (min (c.payload.length / 16) 254)) (c.payload.take 4064) s t ∧
       t = { s with host := t.host })) ∧
  ((∀ (c : Cmd) (s : State), Accepted seqSetInfo c s → c.queue < s.host.queues.length →
     (∀ h ∈ (s.queue c.queue).held, h.cmd.queue = c.queue) →
     ∃ t replies, exec (.seqSet c) s = .next t ∧ (t.queue c.queue).nextSeq = u32 c.payload 0 ∧
       (t.queue c.queue).held = [] ∧ (∀ d ∈ (t.queue c.queue).dup, d.seq = c.seq) ∧
       (t.queue c.queue).mask = (s.queue c.queue).mask ∧
       (t.queue c.queue).tags = (s.queue c.queue).tags.filter
         (fun n => !(s.queue c.queue).held.any fun h => h.cmd.tag == n) ∧
       t.host.waiting = s.host.waiting ++ replies ∧
       replies.map (fun r => (r.seq, r.block)) =
         (s.queue c.queue).held.map (fun h => (h.cmd.seq, s.block 0x18 0x04 0)) ++
         [(c.seq, s.block 0 0 (s.queue c.queue).nextSeq)] ∧
       (∀ p, p ≠ c.queue → t.queue p = s.queue p) ∧ t = { s with host := t.host }) ∧
   (∀ (c : Cmd) (s : State), Accepted queueBindInfo c s → c.queue < s.host.queues.length →
     let q := u8 c.payload 0
     q < s.host.queues.length →
     ∃ t, exec (.queueBind c) s = .next t ∧ Answered 0x0112 c (s.block 0 0 (s.queue q).mask.toNat) [] s t ∧
       (t.queue q).mask = BitVec.ofNat 3 (u8 c.payload 1) ∧ (t.queue q).nextSeq = (s.queue q).nextSeq ∧
       (t.queue q).tags = (s.queue q).tags ∧ (∀ p, p ≠ q → (t.queue p).mask = (s.queue p).mask) ∧
       (∀ p, p ≠ c.queue → p ≠ q → t.queue p = s.queue p) ∧ t.host.pcie = s.host.pcie ∧
       t = { s with host := t.host }) ∧
   (∀ (c : Cmd) (s : State), Accepted resetWarmInfo c s →
     ∃ t, exec (.resetWarm c) s = .next t ∧ t.power = { s.power with resetWarm := some c } ∧
       t.host.waiting = s.host.waiting ∧ HostKept c s t ∧
       (s.power.takeover = false → s.power.warm = none → t.busyDetail = some 4) ∧
       t = { s with host := t.host, power := t.power }))

/-- Table 2.1, R32, R34, R36. The packet of a command, laid out with its check values, is read back as that command with its
opcode, and passes steps 1 to 3 of Table 2.4: no header field is dropped. -/
def Obligations.PacketReadsBackAsItsCommand : Prop :=
  ∀ (op : Nat) (c : Cmd), c.wf = true → op < 2 ^ 16 →
    let b := packetBytes op c
    c.trailer = crc32c (b.take (b.length - 4)) →
    pkOpcode b = op ∧ pkCmd c.via b = c ∧ pkVersion b = 1 ∧ 16 ≤ b.length ∧ u16 b 0 = 0x6D4B ∧
    crc16 (b.take 14) = u16 b 14 ∧ b.length = 20 + 16 * pkLength b ∧ crc32c (b.take (b.length - 4)) = u32 b (b.length - 4)

/-! ## Views and sets (chapter 3) -/

/-- R83, R209, R210, R211, R78, R79, R168, R263, R369. Every SET-class write changes its own part of the shadow set and nothing else of
the sets: the active set and the epoch stand; while a commit is armed or a copy runs it waits in acceptance order.
Where the spec is open it rests on log entry 36. -/
def Obligations.ShadowWritesLeaveTheActiveSet : Prop :=
  (∀ (c : Cmd) (s : State), Accepted fireTableInfo c s → ∃ t, exec (.fireTable c) s = .next t ∧
    ShadowWritten 0x0701 c 0 (·.onView (u32 c.payload 0) fun v => { v with fire := some c.payload }) s t) ∧
  (∀ (c : Cmd) (s : State), Accepted nearfieldConfigInfo c s → ∃ t, exec (.nearfieldConfig c) s = .next t ∧
    ShadowWritten 0x0702 c 0 (fun k => { k with nearField := c.payload, nearWritten := true }) s t) ∧
  (∀ (c : Cmd) (s : State), Accepted fieldDefineInfo c s → ∃ t, exec (.fieldDefine c) s = .next t ∧
    ShadowWritten 0x0703 c 0 (·.withField c.payload) s t) ∧
  (∀ (c : Cmd) (s : State), Accepted zoneConfigInfo c s → ∃ t, exec (.zoneConfig c) s = .next t ∧
    ShadowWritten 0x0704 c 0 (fun k => { k with zone := c.payload }) s t) ∧
  (∀ (c : Cmd) (s : State), Accepted schedConfigInfo c s → ∃ t, exec (.schedConfig c) s = .next t ∧
    ShadowWritten 0x0705 c 0 (fun k => { k with sched := c.payload }) s t) ∧
  (∀ (c : Cmd) (s : State), Accepted viewParamInfo c s → ∃ t, exec (.viewParam c) s = .next t ∧
    ShadowWritten 0x0204 c (c.payload.length - 16) (·.onView (u32 c.payload 0) (ViewDef.withParam c.payload)) s t) ∧
  (∀ (c : Cmd) (s : State), Accepted rxConfigInfo c s → ∃ t, exec (.rxConfig c) s = .next t ∧
    ShadowWritten 0x0981 c 0 (·.withRx c.payload) s t) ∧
  (∀ (c : Cmd) (s : State), Accepted loopConfigInfo c s → ∃ t, exec (.loopConfig c) s = .next t ∧
    ShadowWritten 0x0601 c 0 (·.withLoop c.payload) s t) ∧
  (∀ (c : Cmd) (s : State), Accepted loopCoeffInfo c s → ∃ t, exec (.loopCoeff c) s = .next t ∧
    ShadowWritten 0x0602 c 0 (fun k => { k with coefs := k.coefs.modify (u8 c.payload 0) fun _ => c.payload }) s t) ∧
  (∀ (c : Cmd) (s : State), Accepted streamConfigInfo c s → ∃ t, exec (.streamConfig c) s = .next t ∧
    ShadowWritten 0x0802 c 0 (·.withStream c.payload) s t)

/-- R70, R71, R74, R78, R80, R81, R91, R401. VIEW_CREATE issues the next index of the rotation with its generation one higher, joins
the view to the shadow set with default blocks and no firing table, and answers with the handle; it waits while 64 handles are not
yet in a checkpoint, and one that fails a check only answers. VIEW_UPDATE binds anew, VIEW_DESTROY ends the handle at once, SET_ABORT
takes the active set back and ends
the handles made since; VIEW_QUERY changes nothing. The active set stands in all of them.
Where the spec is open it rests on log entries 36, 41, 42. -/
def Obligations.HandlesNameViews : Prop :=
  (∀ (c : Cmd) (s : State), 64 ≤ s.sets.claspUnsaved → exec (.viewCreate c) s = .next s) ∧
  (∀ (c : Cmd) (i : Nat) (s : State), Accepted viewCreateInfo c s → s.sets.claspUnsaved < 64 → s.setsBusy = false →
    s.nextIndex = some i →
    let h := 0x10000000 + 65536 * i + (s.sets.claspGen.getD i 0 + 1)
    ∃ t d, exec (.viewCreate c) s = .next t ∧ Finished 0x0201 c (s.block 0 0 h) d s t ∧
      t.sets.shadow = { s.sets.shadow with views := s.sets.shadow.views ++ [newView h c.payload] } ∧
      t.sets.live = s.sets.live ++ [h] ∧ t.sets.active = s.sets.active ∧ t.sets.epoch = s.sets.epoch ∧
      t.sets.claspPtr = (i + 1) % 4096 ∧ t.sets.claspGen = s.sets.claspGen.set i (s.sets.claspGen.getD i 0 + 1) ∧
      t = { s with host := t.host, sets := t.sets, power := t.power, health := t.health }) ∧
  (∀ (c : Cmd) (st det : Nat) (s : State), Rejected viewCreateInfo c st det s → s.sets.claspUnsaved < 64 →
    ∃ t, exec (.viewCreate c) s = .next t ∧ Finished 0x0201 c (s.block st det 0) [] s t ∧ t = { s with host := t.host }) ∧
  (∀ (c : Cmd) (s : State), Accepted viewUpdateInfo c s → s.setsBusy = false →
    ∃ t d, exec (.viewUpdate c) s = .next t ∧ Finished 0x0205 c (s.block 0 0 0) d s t ∧
      t.sets = { s.sets with shadow := s.sets.shadow.onView (u32 c.payload 0) (ViewDef.rebind (c.payload.drop 16)) } ∧
      t = { s with host := t.host, sets := t.sets, power := t.power }) ∧
  (∀ (c : Cmd) (s : State), Accepted viewDestroyInfo c s → s.setsBusy = false →
    let h := u32 c.payload 0
    h ∈ s.sets.live ∧
    ∃ t, exec (.viewDestroy c) s = .next t ∧ Finished 0x0202 c (s.block 0 0 0) [] s t ∧
      t.sets = { s.sets with live := s.sets.live.filter (· != h),
                             shadow := { s.sets.shadow with views := s.sets.shadow.views.filter (·.handle != h) },
                             retiring := if (s.activeView h).isSome then s.sets.retiring ++ [h] else s.sets.retiring } ∧
      t = { s with host := t.host, sets := t.sets, power := t.power }) ∧
  (∀ (c : Cmd) (s : State), Accepted setAbortInfo c s → s.setsBusy = false →
    ∃ t, exec (.setAbort c) s = .next t ∧
      Finished 0x0302 c (s.block 0 0 (s.sets.live.filter fun h => (s.sets.active.view h).isNone).length) [] s t ∧
      t.sets.active = s.sets.active ∧ t.sets.epoch = s.sets.epoch ∧
      (∀ h, h ∈ t.sets.live ↔ h ∈ s.sets.live ∧ (s.sets.active.view h).isSome) ∧
      t.sets.shadow = { s.sets.active with views := s.sets.active.views.filter fun v => t.sets.live.contains v.handle } ∧
      t = { s with host := t.host, integrity := t.integrity, sets := t.sets, power := t.power }) ∧
  (∀ (c : Cmd) (s : State), Accepted viewUpdateInfo c s ∧ s.setsBusy = true →
    ∃ t, exec (.viewUpdate c) s = .next t ∧ Silent c s t ∧
      t.sets = { s.sets with waiting := s.sets.waiting ++ [(0x0205, c)] } ∧ t = { s with host := t.host, sets := t.sets }) ∧
  (∀ (c : Cmd) (s : State), Accepted viewQueryInfo c s → ∃ t d, exec (.viewQuery c) s = .next t ∧
    Finished 0x0203 c (s.block 0 0 (s.viewState (u32 c.payload 0))) d s t ∧ u8 d 4 = s.viewState (u32 c.payload 0) ∧
    t = { s with host := t.host })

/-- R85, R87, R90, R92. SET_COMMIT arms the swap without a reply; SET_SWAP happens only at a revolution boundary 100 µs or more
after the commit, when 100 µs before it nothing of Table 3.9 held it back and every domain was awake, so that it was decided, or at
a 10 kHz strobe while no boundary can come and nothing holds it back: then the shadow set is the active one under the next epoch, a copy
runs, and the commit is answered with the
epoch. SET_READ changes nothing, and answers ST_FAULT_MEMORY with the memory's row where a word of the set cannot be read (R388). R83,
R81, R86, R196, R330. After the copy the shadow set holds the active set's views that are
still live; a retiring view is released once it has left the active set and nothing of it runs; a revolution boundary counts
every blocked sector down and turns the persistence maps over, and away from angle 0 nothing happens.
Where the spec is open it rests on log entries 36, 37, 38, 39, 40. -/
def Obligations.SetsSwapCopyAndRelease : Prop :=
  ((∀ (c : Cmd) (s : State), Accepted setCommitInfo c s → ∃ t, exec (.setCommit c) s = .next t ∧ Silent c s t ∧
     (s.setsBusy = false → t.sets = { s.sets with commits := [{ cmd := c, state := s.commitState c, at_ := s.clk.now }] }) ∧
     (s.setsBusy = true → t.sets = { s.sets with waiting := s.sets.waiting ++ [(0x0301, c)] }) ∧
     t = { s with host := t.host, sets := t.sets }) ∧
   (∀ (k : Commit) (s : State), s.sets.commits = [k] →
     let atEdge := s.angle.lastBoundary = some s.clk.now ∧ k.at_ + 128000 ≤ s.clk.now ∧ s.sets.decided = some true
     let atStrobe := (s.sched.inhibit.getLsbD 2 = true ∨ s.sched.inhibit.getLsbD 3 = true) ∧ s.clk.pllLocked = true ∧
       s.clk.tickCount % 128000 = 0 ∧ s.swapReady = true
     (s.sets.copying = true ∨ ¬ (atEdge ∨ atStrobe) → exec .setSwap s = .next s) ∧
     (s.sets.copying = false → atEdge ∨ atStrobe → (∀ x ∈ s.emission.emitters, x.fade = none) →
       let n := (s.sets.epoch + 1) % 65536
       ∃ t, exec .setSwap s = .next t ∧ t.sets.active = s.sets.shadow ∧ t.sets.shadow = s.sets.shadow ∧ t.sets.epoch = n ∧
         t.sets.commits = [] ∧ t.sets.copying = true ∧ t.sets.lastSwap = s.stamp ∧ t.sets.live = s.sets.live ∧
         Finished 0x0301 k.cmd { s.block 0 0 n with epoch := n } [] s t ∧ t.sched.inhibit = s.sched.inhibit ∧
         t = { s with fabric := t.fabric, host := t.host, integrity := t.integrity, net := t.net, power := t.power,
                      returns := t.returns, sched := t.sched, sets := t.sets, zone := t.zone })) ∧
   (∀ s : State, s.sets.commits = [] → exec .setSwap s = .next s) ∧
   (∀ (c : Cmd) (s : State), Accepted setReadInfo c s →
     (∀ row, s.lostRow (u8 c.payload 0 == 1) = some row → (row = 4 ∨ row = 5) ∧ ∃ t, exec (.setRead c) s = .next t ∧
       Finished 0x0303 c (s.block 0x22 row 0) [] s t ∧ t = { s with host := t.host }) ∧
     (s.lostRow (u8 c.payload 0 == 1) = none → ∃ t d, exec (.setRead c) s = .next t ∧
     Finished 0x0303 c (s.block 0 0 s.sets.epoch) d s t ∧ u16 d 0 =
       (if u8 c.payload 0 = 0 then s.sets.epoch else s.sets.epoch + 1) % 65536 ∧ t = { s with host := t.host }))) ∧
  ((∀ s : State, s.sets.copying = true → s.sets.waiting = [] →
     ∃ t, exec .shadowCopyComplete s = .next t ∧ t.sets = { s.sets with copying := false, shadow := { s.sets.active with
         views := s.sets.active.views.filter fun v => s.sets.live.contains v.handle } } ∧
       t = { s with sets := t.sets, power := t.power }) ∧
   (∀ s : State, s.sets.copying = false → s.sets.waiting = [] → exec .shadowCopyComplete s = .next s) ∧
   (∀ (h : Nat) (s : State),
     (h ∉ s.sets.retiring ∨ (s.activeView h).isSome ∨ s.viewBusy h = true → exec (.viewRelease h) s = .next s) ∧
     (h ∈ s.sets.retiring → s.activeView h = none → s.viewBusy h = false → ∃ t, exec (.viewRelease h) s = .next t ∧
       t.sets = { s.sets with retiring := s.sets.retiring.filter (· != h) } ∧ t.sched.queue = s.sched.queue ∧
       t = { s with sets := t.sets, fabric := t.fabric, sched := t.sched, power := t.power })) ∧
   (∀ s : State, (s.atBoundary = false → exec .revolutionBoundary s = .next s) ∧
     (s.atBoundary = true → ∃ t, exec .revolutionBoundary s = .next t ∧ t.angle.lastBoundary = some s.clk.now ∧
       t.sched = { s.sched with sectors := s.sched.sectors.map (fun x => { x with revs := x.revs - 1 }),
                                nfAllRevs := s.sched.nfAllRevs - 1 } ∧
       t.fabric.rain = turnRain s.fabric.rain ∧ t.sets = s.sets ∧
       t = { s with angle := t.angle, aux := t.aux, fabric := t.fabric, health := t.health, host := t.host, nvm := t.nvm,
                    sched := t.sched })))


/-! ## Shots, windows and lanes (chapters 4, 7 and 9) -/

/-- R187, R188, R189, R194. While an inhibit cause is present no shot is planned. For an open cell the next shot of the order is
stamped by the last publication, plus the entry's offset and the dither of the view's LFSR; with the stamp inside the horizon, room
in the emitter's queue and no reason against it, it joins the queue unfixed; a stamp less than 1 µs ahead is not placed and LATE
counts; beyond the horizon, or with eight queued, nothing happens yet.
Where the spec is open it rests on log entries 4, 66. -/
def Obligations.ShotIsPlannedWithinTheHorizon : Prop :=
  (∀ (view cell : Nat) (s : State), s.inhibited = true ∨ s.clk.pllLocked = false → exec (.shotPlan view cell) s = .next s) ∧
  ∀ (view cell e k base : Nat) (c : OpenCell) (v : ViewDef) (s : State), s.inhibited = false → s.clk.pllLocked = true →
    s.openCell view cell = some c → s.viewIn c.epoch view = some v → v.handle = view → c.next v = some (e, k) →
    s.tickOf (v.shotAngle cell k) = some base →
    let f := v.entries.getD e (fireEntry [] 0)
    let dither := if fireDitherMax v.table = 0 then 0 else lfsrStep (s.lfsr view) % (fireDitherMax v.table + 1)
    let stamp := base + f.offset + dither
    let queued := (s.sched.queue.filter (·.emitter == f.emitter)).length
    (s.clk.tickCount + 31232 < stamp ∨ 8 ≤ queued → exec (.shotPlan view cell) s = .next s) ∧
    (stamp ≤ s.clk.tickCount + 31232 → queued < 8 → s.skipReason v c f e k stamp (f.offset + dither) = none →
      ∃ t d, exec (.shotPlan view cell) s = .next t ∧ t.sched.queue = s.sched.queue ++ [d] ∧ d.stamp = stamp ∧
        d.emitter = f.emitter ∧ d.slot = f.slotBase + k % pos f.slotCount ∧ d.view = view ∧ d.cell = cell ∧ d.shot = k ∧
        d.fixed = false ∧ d.epoch = c.epoch ∧ t = { s with sched := t.sched }) ∧
    (stamp ≤ s.clk.tickCount + 31232 → queued < 8 → s.skipReason v c f e k stamp (f.offset + dither) = some .late →
      ∃ t, exec (.shotPlan view cell) s = .next t ∧ t.sched.queue = s.sched.queue ∧
        t.sched.lateTotal = satInc 32 s.sched.lateTotal ∧ t.sched.inhibit = s.sched.inhibit ∧
        t = { s with emission := t.emission, fabric := t.fabric, net := t.net, returns := t.returns, sched := t.sched, zone := t.zone })

/-- R17, R188, R228, R230, R103, R29, R216, R220. The life of a planned shot: SHOT_FIX fixes it 1 µs before its stamp, not earlier, with
its slot's samples and charge, or registers LEDGER when the charge would overrun a window; WINDOW_START takes it from the queue
240 ns before its stamp, and opens no window but counts SHOT_LATE when that instant has passed; SHOT_FIRE plays the slot at the stamp, or
with an uncorrectable word marks the slot ECC_FAILED and plays
nothing; SLOT_END parks the emitter after sample 255, and no other emitter changes.
Where the spec is open it rests on log entries 4, 67, 137. -/
def Obligations.ShotIsFixedFiredAndEnded : Prop :=
  (∀ (e : Nat) (d : Descriptor) (s : State), s.sched.queue.find? (fun x => x.emitter == e && !x.fixed) = some d →
    (s.clk.tickCount + 1280 < d.stamp → exec (.shotFix e) s = .next s) ∧
    (d.stamp ≤ s.clk.tickCount + 1280 → (s.emitter e).faulted = false → (s.slot e d.slot).st = .loaded →
      (∀ c, s.openCell d.view d.cell = some c → c.barred.contains d.entry = false) →
      let x := s.settleAll.fixCharge d
      s.settleAll.overLimit e 0 x.2.1 = false →
      (s.settleAll.overrun e x.2.1 = none →
        ∃ t, exec (.shotFix e) s = .next t ∧
          t.sched.queue = s.sched.queue.map (fun y => if y = d then { d with fixed := true, charge := x.2.1, codes := x.1 } else y) ∧
          t = { s with sched := { s.sched with queue := t.sched.queue }, emission := t.emission }) ∧
      (∀ r w, s.settleAll.overrun e x.2.1 = some (r, w) → s.emission.emitters.length = 16 →
        ∃ t, exec (.shotFix e) s = .next t ∧ t.sched.inhibit = s.sched.inhibit ||| 0x02#6 ∧ t.emission.ledgerRow = r ∧
          t.emission.ledgerWindow = w ∧ (s.inhibited = false → Dark t ∧ t.sched.queue = [])))) ∧
  (∀ (e : Nat) (d : Descriptor) (v : ViewDef) (s : State), s.dueWindow e = some d → s.viewIn d.epoch d.view = some v →
    ∃ t, exec (.windowStart e) s = .next t ∧ t.sched.queue = s.sched.queue.filter (· != d) ∧
      t.sched.current = s.sched.current.set e (some d) ∧
      (d.stamp < s.clk.tickCount + 307 → t.sched.lateTotal = satInc 32 s.sched.lateTotal ∧
        (∀ ch, ch < s.returns.channels.length → (t.channel ch).win = (s.channel ch).win)) ∧
      (s.clk.tickCount + 307 ≤ d.stamp → t.sched.lateTotal = s.sched.lateTotal ∧ t.emission = s.emission) ∧
      t = { s with clk := t.clk, emission := t.emission, fabric := t.fabric, health := t.health, net := t.net, returns := t.returns,
                   sched := t.sched, zone := t.zone }) ∧
  (∀ (e : Nat) (s : State), s.dueWindow e = none → exec (.windowStart e) s = .next s) ∧
  (∀ (e : Nat) (bad : Bool) (d : Descriptor) (v : ViewDef) (s : State), e < s.emission.emitters.length →
    s.sched.current.getD e none = some d → d.emitter = e →
    (s.clk.tickCount < d.stamp → exec (.shotFire e bad) s = .next s) ∧
    (d.stamp ≤ s.clk.tickCount → s.viewIn d.epoch d.view = some v →
      ∃ t, exec (.shotFire e bad) s = .next t ∧ t.sched.current.getD e none = none ∧ t.sched.queue = s.sched.queue ∧
        (bad = false → (t.emitter e).out = .slot d.slot d.codes (s.slot e d.slot).range2 d.stamp 0 d.charge) ∧
        (bad = true → d.slot < (s.emitter e).slots.length →
          (t.slot e d.slot).st = .eccFailed ∧ (t.emitter e).slotEcc = true ∧ (t.emitter e).out = (s.emitter e).out) ∧
        (∀ k, k ≠ e → t.emitter k = s.emitter k) ∧
        t = { s with clk := t.clk, emission := t.emission, fabric := t.fabric, free := t.free, health := t.health, host := t.host,
                     integrity := t.integrity, returns := t.returns, sched := t.sched, zone := t.zone })) ∧
  ∀ (e n t0 done left : Nat) (codes : List Nat) (x2 : Bool) (s : State), e < s.emission.emitters.length →
    (s.emitter e).out = .slot n codes x2 t0 done left →
    (s.clk.tickCount < t0 + 128 → exec (.slotEnd e) s = .next s) ∧
    (t0 + 128 ≤ s.clk.tickCount → ∃ t, exec (.slotEnd e) s = .next t ∧ (t.emitter e).out = .park (s.emitter e).park ∧
      (t.emitter e).slots = (s.emitter e).slots ∧ (∀ k, k ≠ e → t.emitter k = s.emitter k) ∧ t = { s with emission := t.emission })

/-- R111. On a lane with an accepted result, outside its warm-up and with fewer than 63 windows missed: a result is accepted and
becomes the lane's last exactly when all five conditions hold, in eighths of a raw unit; otherwise the last accepted result stands
and the windows in blanking at the t0 that waits first on the lane are marked HELD; every other channel stands. -/
def Obligations.PlausibleReferencesAreAccepted : Prop :=
  ∀ (n q1 span a1 aspan : Nat) (ones twos : List Nat) (fes : List (Nat × Nat)) (s : State), n < s.clk.lanes.length →
    ones.length = 8 → twos.length = 8 → ones.sum = q1 → twos.sum = q1 + span →
    (s.lane n).failed = false → s.laneDue n = true → (s.lane n).warm = none → (s.lane n).last = some (a1, aspan) →
    (s.lane n).missed < 63 → s.returns.channels.length = 192 →
    let plausible := 8 * 40 ≤ q1 ∧ q1 ≤ 8 * 88 ∧ 8 * 48 ≤ span ∧ span ≤ 8 * 80 ∧
      (∀ r ∈ ones, 8 * r ≤ q1 + 16 ∧ q1 ≤ 8 * r + 16) ∧ (∀ r ∈ twos, 8 * r ≤ q1 + span + 16 ∧ q1 + span ≤ 8 * r + 16) ∧
      q1 ≤ a1 + 32 ∧ a1 ≤ q1 + 32 ∧ span ≤ aspan + 24 ∧ aspan ≤ span + 24
    (plausible → ∃ t, exec (.calAccept n ones twos fes) s = .next t ∧ (t.lane n).last = some (q1, span) ∧
      (t.lane n).state = .accepted ∧ (t.lane n).missed = 0 ∧ (∀ m, m ≠ n → t.lane m = s.lane m) ∧
      (∀ ch, ch < 192 → s.laneOf ch = n → (s.channel ch).win.phase = .blanked → s.laneWait n = some (s.channel ch).win.t0 →
        (t.channel ch).win.cal = .accepted) ∧ (∀ x ∈ (t.lane n).waits, s.laneWait n ≠ some x ∧ x ∈ (s.lane n).waits) ∧
      (∀ ch, ch < 192 → s.laneWait n ≠ some (s.channel ch).win.t0 → t.channel ch = s.channel ch) ∧
      t = { s with clk := t.clk, health := t.health, returns := t.returns }) ∧
    (¬ plausible → ∃ t, exec (.calAccept n ones twos fes) s = .next t ∧ (t.lane n).last = some (a1, aspan) ∧
      (t.lane n).state = .held ∧ (t.lane n).missed = (s.lane n).missed + 1 ∧ (∀ m, m ≠ n → t.lane m = s.lane m) ∧
      (∀ ch, ch < 192 → s.laneOf ch = n → (s.channel ch).win.phase = .blanked → s.laneWait n = some (s.channel ch).win.t0 →
        (t.channel ch).win.cal = .held) ∧ (∀ x ∈ (t.lane n).waits, s.laneWait n ≠ some x ∧ x ∈ (s.lane n).waits) ∧
      (∀ ch, ch < 192 → s.laneWait n ≠ some (s.channel ch).win.t0 → t.channel ch = s.channel ch) ∧
      t = { s with clk := t.clk, health := t.health, returns := t.returns })

/-- R112, R113. A lane is stale after 64 windows without an accepted result, not before; it fails after 4096, or when its warm-up ends
without 16 in a row, and every channel in service that it serves goes OUT_OF_SERVICE; 16 consecutive accepts of a warm-up make it
ready.
Where the spec is open it rests on log entry 50. -/
def Obligations.LanesGrowStaleFailAndWarm : Prop :=
  (∀ (n : Nat) (s : State), n < s.clk.lanes.length →
    ((s.lane n).missed < 64 → exec (.laneStale n) s = .next s) ∧
    (64 ≤ (s.lane n).missed → ∃ t, exec (.laneStale n) s = .next t ∧ t.lane n = { s.lane n with state := .stale } ∧
      (∀ m, m ≠ n → t.lane m = s.lane m) ∧ t = { s with clk := t.clk, returns := t.returns })) ∧
  (∀ (n : Nat) (s : State), n < s.clk.lanes.length → s.returns.channels.length = 192 → (s.lane n).failed = false →
    ((s.lane n).missed < 4096 → (s.lane n).warm = none → exec (.laneFailed n) s = .next s) ∧
    (4096 ≤ (s.lane n).missed ∨ (∃ k, (s.lane n).warm = some k ∧ 64 ≤ k ∧ (s.lane n).consec < 16) →
      ∃ t, exec (.laneFailed n) s = .next t ∧
        t.lane n = { s.lane n with failed := true, ready := false, state := .failed, warm := none } ∧
        (∀ m, m ≠ n → t.lane m = s.lane m) ∧
        (∀ ch, ch < 192 → s.laneOf ch = n → (s.channel ch).st = .active ∨ (s.channel ch).st = .standby →
          (t.channel ch).st = .outOfService) ∧
        t = { s with clk := t.clk, health := t.health, power := t.power, returns := t.returns })) ∧
  ∀ (n k : Nat) (s : State), n < s.clk.lanes.length → (s.lane n).warm = some k →
    (16 ≤ (s.lane n).consec → ∃ t, exec (.laneWarmupDone n) s = .next t ∧
      t.lane n = { s.lane n with ready := true, warm := none, missed := 0 } ∧ (∀ m, m ≠ n → t.lane m = s.lane m) ∧
      t = { s with clk := t.clk }) ∧
    ((s.lane n).consec < 16 → exec (.laneWarmupDone n) s = .next s)

/-- R246, R103, R104, R105, R251. From 60 ns before t0 on, not earlier, a threshold readback beyond 2 codes marks its window and
counts, and the 64th in a row takes the channel out of service; from 40 ns before t0 on, not earlier, blanking ends into the pre-start
part; a histogram range ends at its last tick with a trailer and the ambient span
begins; the ambient span ends at the next blanking with its record, which names the window; beyond coarse count 0xFFFF edges are untimed.
Where the spec is open it rests on log entry 49. -/
def Obligations.WindowPartsFollowOneAnother : Prop :=
  (∀ (ch code : Nat) (s : State), s.clk.tickCount + 76 < (s.channel ch).win.t0 → exec (.threshReadback ch code) s = .next s) ∧
  (∀ (ch code : Nat) (s : State), ch < s.returns.channels.length → (s.channel ch).win.phase = .blanked →
    (s.channel ch).win.t0 ≤ s.clk.tickCount + 76 →
    (code ≤ (s.channel ch).threshNow + 2 → (s.channel ch).threshNow ≤ code + 2 →
      ∃ t, exec (.threshReadback ch code) s = .next t ∧ t.channel ch = { s.channel ch with threshFails := 0 } ∧
        (∀ k, k ≠ ch → t.channel k = s.channel k) ∧ t = { s with returns := t.returns }) ∧
    ((s.channel ch).threshNow + 2 < code ∨ code + 2 < (s.channel ch).threshNow →
      ∃ t, exec (.threshReadback ch code) s = .next t ∧ (t.channel ch).threshFault = true ∧
        (t.channel ch).win.threshFault = true ∧ (t.channel ch).threshFails = (s.channel ch).threshFails + 1 ∧
        ((s.channel ch).threshFails + 1 < 64 → (t.channel ch).st = (s.channel ch).st) ∧
        (64 ≤ (s.channel ch).threshFails + 1 → (s.channel ch).st = .active → (t.channel ch).st = .outOfService) ∧
        (∀ k, k ≠ ch → t.channel k = s.channel k) ∧ t = { s with returns := t.returns, power := t.power, health := t.health })) ∧
  (∀ (ch : Nat) (high : Bool) (s : State), ch < s.returns.channels.length → (s.channel ch).win.phase = .blanked →
    (s.clk.tickCount + 51 < (s.channel ch).win.t0 → exec (.blankingRelease ch high) s = .next s) ∧
    ((s.channel ch).win.t0 ≤ s.clk.tickCount + 51 →
      ∃ t, exec (.blankingRelease ch high) s = .next t ∧ (t.channel ch).win.phase = .preStart ∧ (t.channel ch).high = high ∧
        (t.channel ch).win.high = high ∧ (∀ k, k ≠ ch → t.channel k = s.channel k) ∧ t = { s with returns := t.returns })) ∧
  (∀ (ch : Nat) (v : ViewDef) (s : State), ch < s.returns.channels.length →
    let w := (s.channel ch).win
    w.phase = .range → w.fired = true → (w.optical = true → w.t0Value.isSome) → (s.channel ch).edge = none →
    s.viewIn w.epoch w.view = some v →
    (s.clk.tickCount < w.rangeEnd → exec (.histogramRangeEnd ch) s = .next s) ∧
    (w.rangeEnd ≤ s.clk.tickCount → ∃ t x, exec (.histogramRangeEnd ch) s = .next t ∧ (t.channel ch).win.phase = .ambient ∧
      (t.channel ch).items = (s.channel ch).items ++ [.trailer x (s.channel ch).entrySeq] ∧ x.cut = false ∧ x.lastBin = v.bins - 1 ∧
      x.cell = w.cell ∧ (∀ k, k ≠ ch → t.channel k = s.channel k) ∧ t = { s with returns := t.returns })) ∧
  (∀ (ch : Nat) (s : State), ch < s.returns.channels.length → (s.channel ch).win.phase = .ambient →
    (∀ e, (s.channel ch).edge = some e → e.inWindow = false) →
    (s.dueOn ch = false → exec (.ambientSpanEnd ch) s = .next s) ∧
    (s.dueOn ch = true → ∃ t, exec (.ambientSpanEnd ch) s = .next t ∧ (t.channel ch).win.phase = .none ∧
      (∃ r : AmbRecord, r.window = (s.channel ch).win.t0 % 2 ^ 32 ∧ r.coarseOvf = false ∧
        r.span = min 65536 (s.clk.tickCount - (s.channel ch).win.rangeEnd) ∧ r.count = (s.channel ch).win.ambCount % 2 ^ 16 ∧
        ∀ x ∈ s.fabric.ambRuns, x.channel = ch → { x with records := x.records ++ [r] } ∈ t.fabric.ambRuns) ∧
      (∀ k, k ≠ ch → t.channel k = s.channel k) ∧ t = { s with returns := t.returns, fabric := t.fabric, health := t.health }) ∧
    (s.clk.tickCount < (s.channel ch).win.t0 + 65536 → exec (.coarseOvf ch) s = .next s) ∧
    ((s.channel ch).win.t0 + 65536 ≤ s.clk.tickCount → ∃ t, exec (.coarseOvf ch) s = .next t ∧
      (t.channel ch).win.phase = .untimed ∧ (t.channel ch).win.coarseOvf = true ∧
      (∃ r : AmbRecord, r.window = (s.channel ch).win.t0 % 2 ^ 32 ∧ r.coarseOvf = true ∧
        ∀ x ∈ s.fabric.ambRuns, x.channel = ch → { x with records := x.records ++ [r] } ∈ t.fabric.ambRuns) ∧
      t.clk.coarseOvfTotal = satInc 32 s.clk.coarseOvfTotal ∧ (∀ k, k ≠ ch → t.channel k = s.channel k) ∧
      t = { s with returns := t.returns, clk := t.clk, fabric := t.fabric, health := t.health }))

/-- R106, R247, R248, R249, Table 9.2. An edge in blanking, before the start or in the untimed part only counts; an edge in an
open window of electrical start is held with the interval of R106, and its fall places it with the weight of its time over
threshold in the bin of the interval; a second edge before the fall is ignored; LONG_HIGH marks a channel whose output stays
high for longer than its LONG_HIGH. R114, R115, R116. The first edge of the reference channel after a t0, beyond the dead time of
20 ns that each stamped edge starts, settles the value of its shot when it comes 0 to 52 ticks after t0: the shot leaves the open
list and the value joins the emitter's average; while another shot is about to fire within the 52 ticks it is kept instead, until
they have passed; without one, at 52 ticks the average stands in and T0_NOT_MEASURED counts.
Where the spec is open it rests on log entries 49, 71. -/
def Obligations.EdgesAndReferencesBecomeEvents : Prop :=
  ((∀ (ch coarse raw : Nat) (s : State), ch < s.returns.channels.length → (s.channel ch).st = .active →
     (s.channel ch).high = false →
     let w := (s.channel ch).win
     let now := s.clk.tickCount
     let dead := 64 * now + deadFine (s.rxFor ch w)
     ((s.channel ch).deadUntil ≤ 64 * now → w.phase = .blanked → ∃ t, exec (.discriminatorEdge ch coarse raw) s = .next t ∧
       t.channel ch = { s.channel ch with blankedTotal := satInc 32 (s.channel ch).blankedTotal, high := true, highAt := now,
                                          deadUntil := dead } ∧
       t = { s with returns := t.returns }) ∧
     ((s.channel ch).deadUntil ≤ 64 * now → w.phase = .untimed → ∃ t, exec (.discriminatorEdge ch coarse raw) s = .next t ∧
       t.channel ch = { s.channel ch with untimedTotal := satInc 32 (s.channel ch).untimedTotal, high := true, highAt := now,
                                          deadUntil := dead } ∧
       t = { s with returns := t.returns, clk := t.clk }) ∧
     ((s.channel ch).deadUntil ≤ 64 * now → w.phase = .preStart → ∃ t, exec (.discriminatorEdge ch coarse raw) s = .next t ∧
       (t.channel ch).win.prestart = min 255 (w.prestart + 1) ∧ t.clk.prestartTotal = satInc 32 s.clk.prestartTotal ∧
       (t.channel ch).deadUntil = dead ∧ t = { s with returns := t.returns, clk := t.clk }) ∧
     (64 * now < (s.channel ch).deadUntil → w.phase ≠ .range → w.phase ≠ .ambient →
       ∃ t, exec (.discriminatorEdge ch coarse raw) s = .next t ∧
         t.channel ch = { s.channel ch with high := true, highAt := now } ∧ t = { s with returns := t.returns }) ∧
     (∀ cal, w.phase = .range → (s.lane (s.laneOf ch)).last = some cal →
       let tau := (convert cal (s.fe (s.feOf ch)) coarse raw).1
       (s.channel ch).deadUntil ≤ (64 * (w.t0 : Int) + tau).toNat →
       ∃ t x, exec (.discriminatorEdge ch coarse raw) s = .next t ∧ (t.channel ch).edge = some x ∧ x.tau = tau ∧
         x.inWindow = true ∧ (t.channel ch).high = true ∧
         (t.channel ch).deadUntil = (64 * (w.t0 : Int) + tau).toNat + deadFine (s.rxFor ch w) ∧
         (∀ k, k ≠ ch → t.channel k = s.channel k) ∧ t = { s with returns := t.returns, health := t.health })) ∧
   (∀ (ch coarse raw : Nat) (s : State), (s.channel ch).high = true → exec (.discriminatorEdge ch coarse raw) s = .next s) ∧
   (∀ (ch tot tau : Nat) (v : ViewDef) (s : State), ch < s.returns.channels.length →
     let c := s.channel ch
     c.edge = some { tau := (tau : Int), inWindow := true, blanked := false } → c.win.optical = false →
     s.viewIn c.win.epoch c.win.view = some v → tau / v.binWidth < v.bins → c.items = [] → tot < 64 →
     ∃ t, exec (.discriminatorFall ch tot) s = .next t ∧
       (t.channel ch).items = [.entry [(tau / v.binWidth, rxWeight (s.rxFor ch c.win) tot)]] ∧
       (t.channel ch).eventTotal = wrap 32 (c.eventTotal + 1) ∧ (t.channel ch).edge = none ∧ (t.channel ch).high = false ∧
       (∀ k, k ≠ ch → t.channel k = s.channel k) ∧
       t = { s with clk := t.clk, fabric := t.fabric, returns := t.returns, sched := t.sched }) ∧
   ∀ (ch : Nat) (s : State), ch < s.returns.channels.length →
     ((s.channel ch).high = true → (s.channel ch).longNow = false → (s.channel ch).st = .active → (s.channel ch).win.phase ≠ .none →
       rxLongHigh (s.rxFor ch (s.channel ch).win) * 64 < (s.clk.tickCount - (s.channel ch).highAt) * 5 →
       ∃ t, exec (.longHigh ch) s = .next t ∧
         t.channel ch = { s.channel ch with longHigh := true, longNow := true, longDue := true,
                                            longHighTotal := satInc 32 (s.channel ch).longHighTotal } ∧
         (∀ k, k ≠ ch → t.channel k = s.channel k) ∧ t = { s with returns := t.returns }) ∧
     (s.highTooLong ch = false → exec (.longHigh ch) s = .next s)) ∧
  ((∀ (coarse raw charge : Nat) (x : T0Shot) (cal : Nat × Nat) (s : State), s.clk.t0Open = [x] → s.clk.t0Await = some x.t0 →
     x.ambiguous = false → x.optical = true → (s.lane 40).last = some cal →
     let tau := (convert cal FrontEndCal.reset coarse raw).1
     let dead := 64 * x.t0 + tau.toNat + 1639
     (tau < 0 ∨ 64 * x.t0 + tau.toNat < s.clk.t0Dead → exec (.t0InEdge coarse raw charge) s = .next s) ∧
     (0 ≤ tau → s.clk.t0Dead ≤ 64 * x.t0 + tau.toNat → 3328 < tau → exec (.t0InEdge coarse raw charge) s =
       .next { s with clk := { s.clk with t0Await := none, t0Dead := dead } }) ∧
     (0 ≤ tau → s.clk.t0Dead ≤ 64 * x.t0 + tau.toNat → tau ≤ 3328 → s.t0Crowded x.emitter x.t0 = true →
       exec (.t0InEdge coarse raw charge) s =
       .next { s with clk := { s.clk with t0Await := none, t0Dead := dead, t0Open := [{ x with edge := some (tau, charge) }] } }) ∧
     (0 ≤ tau → s.clk.t0Dead ≤ 64 * x.t0 + tau.toNat → tau ≤ 3328 → s.t0Crowded x.emitter x.t0 = false →
       ∃ t, exec (.t0InEdge coarse raw charge) s = .next t ∧ t.clk.t0Open = [] ∧ t.clk.t0Await = none ∧ t.clk.t0Dead = dead ∧
       (x.emitter < s.clk.t0Delays.length →
         t.clk.t0Delays.getD x.emitter [] = (tau :: s.clk.t0Delays.getD x.emitter []).take 256) ∧
       t = { s with clk := t.clk, fabric := t.fabric, health := t.health, returns := t.returns, sched := t.sched })) ∧
   ∀ (e : Nat) (x : T0Shot) (s : State), s.clk.t0Open = [x] → x.emitter = e → x.optical = true →
     (s.clk.tickCount < x.t0 + 52 → exec (.t0Timeout e) s = .next s) ∧
     (∀ tau q, x.t0 + 52 ≤ s.clk.tickCount → x.edge = some (tau, q) → x.ambiguous = false →
       ∃ t, exec (.t0Timeout e) s = .next t ∧ t.clk.t0Open = [] ∧ t.clk.t0NotMeasured = s.clk.t0NotMeasured ∧
         (e < s.clk.t0Delays.length → t.clk.t0Delays.getD e [] = (tau :: s.clk.t0Delays.getD e []).take 256) ∧
         t = { s with clk := t.clk, fabric := t.fabric, health := t.health, returns := t.returns, sched := t.sched }) ∧
     (x.t0 + 52 ≤ s.clk.tickCount → x.edge = none ∨ x.ambiguous = true → ∃ t, exec (.t0Timeout e) s = .next t ∧ t.clk.t0Open = [] ∧
       t.clk.t0NotMeasured = satInc 32 s.clk.t0NotMeasured ∧ t.clk.t0Delays = s.clk.t0Delays ∧
       t = { s with clk := t.clk, fabric := t.fabric, health := t.health, returns := t.returns, sched := t.sched }))

/-- R269, R273, R274. An entry at the head of a channel's path counts its records into the histogram that gathers its window's cell,
after the words that it is added to have been corrected or, beyond correction, cleared;
with a parity error nothing is counted, the records count as lost, also in the trailer of their window, and the histogram is INCOMPLETE;
a trailer adds one observed
window, one fewer is left to the histogram, and the last one closes it.
Where the spec is open it rests on log entry 82. -/
def Obligations.RecordsMergeIntoTheirHistogram : Prop :=
  (∀ (ch : Nat) (rs : List (Nat × Nat)) (w : Window) (q : Nat) (v : ViewDef) (h : Hist) (s : State),
    ch < s.returns.channels.length → (s.channel ch).items = [.entry rs, .trailer w q] →
    s.viewIn w.epoch w.view = some v → (s.channel ch).acc = [h] → h.holds w.view w.cell w.epoch = true → h.left ≠ 0 →
    (∀ faults : List EccFault, ∃ t, exec (.ingressEntry ch false faults) s = .next t ∧ (t.channel ch).items = [.trailer w q] ∧
      (t.channel ch).acc = [rs.foldl (fun h r => h.count v r.1 r.2)
        ((faults.filter (h.meets (v.addsTo rs))).foldl (Hist.afterEcc v.weightPlane) h)] ∧
      (faults = [] → t.health = s.health ∧ t.integrity = s.integrity) ∧
      t = { s with fabric := t.fabric, health := t.health, integrity := t.integrity, returns := t.returns }) ∧
    (∀ faults : List EccFault, ∃ t, exec (.ingressEntry ch true faults) s = .next t ∧
      (t.channel ch).items = [.trailer { w with overflows := w.overflows + rs.length } q] ∧
      (t.channel ch).acc = [h.setMark 1 true] ∧
      (t.channel ch).overflowTotal = satAdd 32 (s.channel ch).overflowTotal rs.length ∧
      t = { s with returns := t.returns, fabric := t.fabric })) ∧
  ∀ (ch : Nat) (w : Window) (q : Nat) (h : Hist) (s : State), ch < s.returns.channels.length →
    (s.channel ch).items = [.trailer w q] → (s.channel ch).acc = [h] → h.holds w.view w.cell w.epoch = true →
    (1 < h.left → ∃ t, exec (.trailerMerge ch) s = .next t ∧ (t.channel ch).items = [] ∧
      (t.channel ch).acc = [h.mergeTrailer w] ∧ (h.mergeTrailer w).left = h.left - 1 ∧
      (h.mergeTrailer w).observed = h.observed + 1 ∧ t = { s with returns := t.returns }) ∧
    (h.left = 1 → ch / 24 < s.fabric.tiles.length → ∃ t g, exec (.trailerMerge ch) s = .next t ∧ (t.channel ch).items = [] ∧
      (t.channel ch).acc = [] ∧ (t.tile (ch / 24)).queue = (s.tile (ch / 24)).queue ++ [g] ∧ g.closeSeq = s.fabric.closeSeq ∧
      g.bins = h.bins ∧ g.observed = h.observed + 1 ∧ t = { s with returns := t.returns, fabric := t.fabric })

/-- R195, R196, Table 7.1. A shot whose near-field count reaches NF_COUNT registers NEAR_FIELD and opens a blocked sector around its angle,
or with eight sectors blocks every angle; the cause clears 2 µs after the latest registration, not before; a sector whose
revolutions have passed is released. -/
def Obligations.NearFieldInhibitsAndBlocks : Prop :=
  (∀ (e n : Nat) (d : Descriptor) (v : ViewDef) (s : State), s.sched.nfCount.getD e none = some n →
    s.sched.fired.getD e none = some d → s.viewIn d.epoch d.view = some v →
    (n < (s.setOf d.epoch).nfCount ∨ (s.setOf d.epoch).nfEnable = false → exec (.nearFieldRegister e) s = .next s) ∧
    ((s.setOf d.epoch).nfCount ≤ n → (s.setOf d.epoch).nfEnable = true → s.emission.emitters.length = 16 →
      ∃ t, exec (.nearFieldRegister e) s = .next t ∧ t.sched.inhibit = s.sched.inhibit ||| 0x01#6 ∧
        t.sched.nfLast = s.clk.now ∧ t.sched.nfEvents = satInc 32 s.sched.nfEvents ∧
        (s.inhibited = false → Dark t ∧ t.sched.queue = []) ∧
        t = { s with emission := t.emission, fabric := t.fabric, host := t.host, net := t.net, returns := t.returns, sched := t.sched, zone := t.zone } ∧
        (s.sched.sectors.length < 8 → t.sched.sectors = s.sched.sectors ++
          [{ centre := v.shotAngle d.cell d.shot, half := (s.setOf d.epoch).nfSector, revs := (s.setOf d.epoch).nfHold }] ∧
          t.sched.nfAllRevs = s.sched.nfAllRevs) ∧
        (8 ≤ s.sched.sectors.length → t.sched.sectors = s.sched.sectors ∧ t.sched.nfAllRevs = (s.setOf d.epoch).nfHold))) ∧
  (∀ s : State, s.sched.inhibit.getLsbD 0 = true →
    (s.clk.now < s.sched.nfLast + 2560 → exec .nearFieldClear s = .next s) ∧
    (s.sched.nfLast + 2560 ≤ s.clk.now → ∃ t, exec .nearFieldClear s = .next t ∧ t.sched.inhibit.getLsbD 0 = false ∧
      (∀ b, b < 6 → b ≠ 0 → t.sched.inhibit.getLsbD b = s.sched.inhibit.getLsbD b) ∧
      t = { s with sched := { s.sched with inhibit := t.sched.inhibit, resumeAt := t.sched.resumeAt } })) ∧
  ∀ (i : Nat) (x : Sector) (s : State), s.sched.sectors[i]? = some x →
    (x.revs = 0 → exec (.nfSectorRelease i) s = .next { s with sched := { s.sched with sectors := s.sched.sectors.eraseIdx i } }) ∧
    (x.revs ≠ 0 → exec (.nfSectorRelease i) s = .next s)

/-! ## Time base and PTP (chapters 4 and 14) -/

/-- R96, R97, R113, R325. PLL_UNLOCK and XO_STOP register their source of SUPERVISOR, so that no emitter plays, end every window under
way, return every tracker to IDLE, and device time goes on degraded; TICK_COUNT stands. PLL_RELOCK carries TICK_COUNT on by 32 ticks per
lost crystal cycle
and warms every lane in use, the inhibit standing; it clears only after 100 µs of lock with an accepted calibration in every
such lane. XO_STOP starts Pavane, in which the SPI port alone is left and both zone outputs are not clear. R98, R99. Ten minutes
of LOCKED give FREQ_ERR; a retrim follows only a mean above 0.1 ppm with none stored in the ten minutes before: its code lies
within 64 of the one in use, which stands until the store has completed; then XO_TRIM moves one code per 100 µs towards the
stored code and never past it.
Where the spec is open it rests on log entries 44, 47. -/
def Obligations.ClockLossInhibitsAndRetrimRamps : Prop :=
  ((∀ s : State, s.clk.started = true → s.clk.pllLocked = true → s.emission.emitters.length = 16 →
     ∃ t, exec .pllUnlock s = .next t ∧
       t.clk = { s.clk with unlocked := true, unlockCount := satInc 16 s.clk.unlockCount, pllLocked := false, degraded := true,
                            unlockAt := s.clk.now, history := t.clk.history, prestartTotal := t.clk.prestartTotal,
                            substepTotal := t.clk.substepTotal } ∧
       t.sched.inhibit = s.sched.inhibit ||| 0x20#6 ∧ t.sched.src = s.sched.src ||| 0x01#6 ∧
       (s.inhibited = false → Dark t ∧ t.sched.queue = []) ∧
       (∀ ch, ch < 192 → (t.channel ch).win.phase ≠ .range ∧ (t.channel ch).win.phase ≠ .ambient) ∧
       (∀ r ∈ t.fabric.rejection, ∀ k ∈ r.trackers, k.st = .idle) ∧
       t = { s with angle := t.angle, clk := t.clk, emission := t.emission, fabric := t.fabric, health := t.health, host := t.host,
                    returns := t.returns, sched := t.sched, zone := t.zone }) ∧
   (∀ s : State, s.clk.started = false ∨ s.clk.pllLocked = false → exec .pllUnlock s = .next s) ∧
   (∀ s : State, s.clk.started = true → s.clk.xoStop = false → s.power.running = true → s.power.phase ≠ .pavane →
     s.emission.emitters.length = 16 →
     ∃ t, exec .xoStop s = .next t ∧ t.clk.xoStop = true ∧ t.clk.xoStopSeen = true ∧ t.clk.pllLocked = false ∧
       t.clk.degraded = true ∧ t.clk.tickCount = s.clk.tickCount ∧ t.sched.inhibit.getLsbD 5 = true ∧ t.sched.src.getLsbD 1 = true ∧
       t.sched.src.getLsbD 4 = true ∧ (s.inhibited = false → Dark t) ∧ t.power.phase = .pavane ∧ t.power.spiOnly = true ∧
       t.angle.lock = .noSignal ∧ t.zone.clearA = false ∧ t.zone.clearB = false ∧ t.sets = s.sets ∧ t.nvm = s.nvm) ∧
   (∀ (n : Nat) (s : State), s.clk.unlocked = false ∨ s.clk.pllLocked = true ∨ s.clk.xoStop = true ∨
     n ≠ (s.clk.now - s.clk.unlockAt) / 32 → exec (.pllRelock n) s = .next s) ∧
   (∀ s : State, s.clk.unlocked = true → s.clk.pllLocked = false → s.clk.xoStop = false →
     ∃ t, exec (.pllRelock ((s.clk.now - s.clk.unlockAt) / 32)) s = .next t ∧ t.clk.pllLocked = true ∧ t.clk.relockAt = s.clk.now ∧
       t.clk.tickCount = (s.clk.tickCount + 32 * ((s.clk.now - s.clk.unlockAt) / 32)) % 2 ^ 64 ∧
       (∀ n ∈ s.lanesInUse, n < s.clk.lanes.length → (t.lane n).warm = some 0 ∧ (t.lane n).ready = false ∧ (t.lane n).last = none) ∧
       (∀ n, n ∉ s.lanesInUse → t.lane n = s.lane n) ∧ t = { s with clk := t.clk, angle := t.angle }) ∧
   (∀ s : State,
     let ready := s.clk.unlocked = true ∧ s.clk.pllLocked = true ∧ s.clk.relockAt + 128000 ≤ s.clk.now ∧
       ∀ n ∈ s.lanesInUse, (s.lane n).last.isSome = true
     (¬ ready → exec .pllLockHold s = .next s) ∧
     (ready → ∃ t, exec .pllLockHold s = .next t ∧ t.clk = { s.clk with unlocked := false, degraded := false } ∧
       t.sched.src = s.sched.src &&& 0x3E#6 ∧ (t.sched.src = 0 → t.sched.inhibit = s.sched.inhibit &&& 0x1F#6) ∧
       (t.sched.src ≠ 0 → t.sched.inhibit = s.sched.inhibit) ∧
       t = { s with clk := t.clk, sched := { s.sched with inhibit := t.sched.inhibit, src := t.sched.src,
                                                          resumeAt := t.sched.resumeAt } }))) ∧
  ((∀ s : State,
     (s.clk.state ≠ .locked ∨ s.clk.rateTicks < 768000000000 → exec .freqErrInterval s = .next s) ∧
     (s.clk.state = .locked → 768000000000 ≤ s.clk.rateTicks → ∃ t, exec .freqErrInterval s = .next t ∧
       t.clk.freqErr = s.clk.meanError ∧ t.clk.rateSum = 0 ∧ t.clk.rateTicks = 0 ∧ t.clk.xoTrim = s.clk.xoTrim ∧
       t.clk.xoStored = s.clk.xoStored ∧
       (s.clk.errorLarge = false ∨ s.clk.retrimPending = true ∨
           (∃ t0, s.clk.lastRetrim = some t0 ∧ s.clk.now < t0 + 768000000000) →
         t = { s with clk := { s.clk with freqErr := t.clk.freqErr, rateSum := 0, rateTicks := 0 } }) ∧
       (s.clk.errorLarge = true → s.clk.retrimPending = false → s.clk.lastRetrim = none → s.clk.xoTrim ≤ 4095 →
         t.clk.retrimPending = true ∧ t.clk.xoTarget ≤ s.clk.xoTrim + 64 ∧ s.clk.xoTrim ≤ t.clk.xoTarget + 64 ∧
         t.clk.xoTarget ≤ 4095 ∧ t.clk.retrims = s.clk.retrims ++ [((s.clk.xoTrim : Int), s.clk.meanError)] ∧
         (0 < s.clk.meanError → 0 < s.clk.pullSlope → t.clk.xoTarget ≤ s.clk.xoTrim) ∧
         (s.clk.meanError < 0 → 0 < s.clk.pullSlope → s.clk.xoTrim ≤ t.clk.xoTarget)) ∧
       t = { s with clk := t.clk, health := t.health })) ∧
   ∀ s : State,
     (s.clk.xoTrim = s.clk.xoStored ∨ s.clk.now < s.clk.rampAt + 128000 ∨ s.clk.state = .holdover →
       exec .xoTrimRampStep s = .next s) ∧
     (s.clk.xoTrim ≠ s.clk.xoStored → s.clk.rampAt + 128000 ≤ s.clk.now → s.clk.state ≠ .holdover →
       ∃ t, exec .xoTrimRampStep s = .next t ∧
       (s.clk.xoTrim < s.clk.xoStored → t.clk.xoTrim = s.clk.xoTrim + 1) ∧
       (s.clk.xoStored < s.clk.xoTrim → t.clk.xoTrim = s.clk.xoTrim - 1) ∧ t.clk.rampAt = s.clk.now ∧
       t.clk.xoStored = s.clk.xoStored ∧ t = { s with clk := t.clk }))

/-- R102, R363, R364, R365. A Sync on the only usable port: in LOCKED a deviation up to 10 µs slews device time within 500 ppm, a larger
one leaves LOCKED for HOLDOVER; from FREE, before the time is valid, device time is set. An Announce of a master better than the device's
own
clock brings a port to SLAVE, three announce intervals without one take it to LISTENING; where the selected port gets no Sync for three
intervals, the other port is selected if it is in SLAVE, with PTP_PORT_CHANGED; 4 s without a sample leave LOCKED. Pdelay_Req is answered
with a stamped response on its port alone, and the delay is taken from both ways' stamps.
Where the spec is open it rests on log entries 45, 48, 145. -/
def Obligations.PtpDisciplinesDeviceTime : Prop :=
  (∀ (m : PtpMessage) (s : State), s.netPowered = false ∨ ncProfile s.net.config = 0 ∨ m.profile ≠ ncProfile s.net.config ∨
    m.domain ≠ ncDomain s.net.config ∨ s.linkUp m.port = false → exec (.ptpMessageReceive m) s = .next s) ∧
  (∀ (m : PtpMessage) (s : State), m.port < 2 → m.port < s.net.ports.length → s.netPowered = true → s.linkUp m.port = true →
    ncProfile s.net.config ≠ 0 → m.profile = ncProfile s.net.config → m.domain = ncDomain s.net.config →
    (∀ gm i, m.kind = .announce gm i →
      ((s.ptp m.port).gm = none → gmBetter gm s.ownClock = true → ∃ t, exec (.ptpMessageReceive m) s = .next t ∧
        (t.ptp m.port).state = 9 ∧ (t.ptp m.port).gm = some gm ∧ t = { s with net := t.net }) ∧
      (gmBetter gm s.ownClock = false → exec (.ptpMessageReceive m) s = .next s)) ∧
    (∀ n who, m.kind = .requestReceived n who → m.profile = 1 → ∃ t, exec (.ptpMessageReceive m) s = .next t ∧
      (∃ f, t.net.tx = s.net.tx ++ [f] ∧ f.kind = .ptp ∧ f.both = false ∧ f.event = some (.response n (fit 10 who)) ∧
        f.waits m.port = true ∧ f.waits (1 - m.port) = false) ∧ t = { s with net := { s.net with tx := t.net.tx } }) ∧
    (∀ n t2 t3 t1 t4, m.profile = 1 → (s.ptp m.port).asked = some (n, t1) →
      (m.kind = .pdelayResponse n t2 → ∃ t, exec (.ptpMessageReceive m) s = .next t ∧
        (t.ptp m.port).answer = some (t2, (s.clk.devTime : Int) - Config.ingressLatency m.port) ∧ (t.ptp m.port).delay = (s.ptp m.port).delay ∧
        t = { s with net := { s.net with ports := t.net.ports } }) ∧
      (m.kind = .pdelayFollowUp n t3 → (s.ptp m.port).answer = some (t2, t4) → ∃ t, exec (.ptpMessageReceive m) s = .next t ∧
        (t.ptp m.port).delay = ((t4 - t1) - ((t3 : Int) - t2)) / 2 ∧ (t.ptp m.port).asked = none ∧
        t = { s with net := { s.net with ports := t.net.ports } })) ∧
    (∀ n t3 t4 gap, m.profile = 2 → m.kind = .delayResponse n t4 → (s.ptp m.port).asked = some (n, t3) →
      (s.ptp m.port).syncGap = some gap → ∃ t, exec (.ptpMessageReceive m) s = .next t ∧
        (t.ptp m.port).delay = (gap + ((t4 : Int) - t3)) / 2 ∧ t = { s with net := { s.net with ports := t.net.ports } }) ∧
    (∀ origin i, m.kind = .sync origin i → -7 ≤ i → i ≤ 1 → (s.ptp m.port).state = 9 → s.ptpUsable (1 - m.port) = false →
      let offset := (s.clk.devTime : Int) - Config.ingressLatency m.port - origin - (s.ptp m.port).delay
      ∃ t, exec (.ptpMessageReceive m) s = .next t ∧ t.clk.lastSample = some s.clk.now ∧
        (s.clk.state = .locked → t.clk.devTime = s.clk.devTime ∧
          (offset.natAbs ≤ 10 * devUs → t.clk.state = .locked ∧ t.clk.rate.natAbs ≤ 7205759) ∧
          (10 * devUs < offset.natAbs → t.clk.state = .holdover ∧ t.clk.rate = s.clk.rate)) ∧
        (s.clk.state = .free → s.clk.timeValid = false → t.clk.devTime = ((s.clk.devTime : Int) - offset).toNat ∧
          t.clk.state = .acquire ∧ t.clk.timeValid = true ∧ t.clk.stepped = true) ∧
        t = { s with clk := t.clk, net := t.net, free := t.free })) ∧
  (∀ s : State,
    (s.clk.state ≠ .locked ∨ (∃ t0, s.clk.lastSample = some t0 ∧ s.clk.now < t0 + 5120000000) →
      exec .ptpHoldoverTimeout s = .next s) ∧
    (∀ t0, s.clk.state = .locked → s.clk.lastSample = some t0 → t0 + 5120000000 ≤ s.clk.now →
      exec .ptpHoldoverTimeout s = .next { s with clk := { s.clk with state := .holdover, goodSamples := 0, rateSum := 0, rateTicks := 0 } })) ∧
  (∀ (p t0 : Nat) (s : State), p < 2 → p < s.net.ports.length → (s.ptp p).state = 9 → (s.ptp p).lastAnnounce = some t0 →
    (s.clk.now < t0 + 3 * (s.ptp p).announceInterval → exec (.announceReceiptTimeout p) s = .next s) ∧
    (t0 + 3 * (s.ptp p).announceInterval ≤ s.clk.now → ∃ t, exec (.announceReceiptTimeout p) s = .next t ∧
      (t.ptp p).state = (if ncProfile s.net.config ≠ 0 ∧ s.linkUp p = true then 4 else 3) ∧ (t.ptp p).gm = none ∧ (t.ptp p).selected = false ∧ t = { s with net := t.net })) ∧
  ∀ s : State,
    (s.ptpSelected = none → exec .ptpSyncTimeout s = .next s) ∧
    (∀ p, s.ptpSelected = some p → p < s.net.ports.length →
      (s.syncLost p = false → exec .ptpSyncTimeout s = .next s) ∧
      (s.syncLost p = true → ∃ t, exec .ptpSyncTimeout s = .next t ∧
        ((s.ptp (1 - p)).state = 9 → (t.ptp p).selected = false ∧ t.net.portChanged = true ∧
          (1 - p < s.net.ports.length → (t.ptp (1 - p)).selected = true)) ∧
        ((s.ptp (1 - p)).state ≠ 9 → (s.ptp p).state = 9 → (t.ptp p).selected = true ∧ t.net.portChanged = s.net.portChanged) ∧
        t = { s with net := t.net }))

/-! ## Angle (chapter 5) -/

/-- R126, R127, R128, R129, R130, R131, R132. A carrier slot's output is what its stages and its demodulator make of the modulator
bits of a step: it is delivered once per window end, within 24 bits, and marked while the slot is settling or a stage saturated; one
settling output fewer is left; the other slots stand; while the PLL is unlocked every output is marked and its stamp stays. Before
the window's end nothing happens, nor for bits of another source than the one in use. The galvo outputs, averages of the
bits up to 256 modulator samples before a 40 kHz strobe, go to their registers once per strobe.
Where the spec is open it rests on log entries 51, 53, 130. -/
def Obligations.FilterDeliversItsOutputs : Prop :=
  (∀ (slot n : Nat) (bs : List Bool) (test : Bool) (s : State), 3 ≤ slot ∨ s.filterRuns = false ∨
      bs.length ≠ stepSamples s.angle.config ∨ test ≠ s.onTestSource →
    exec (.filterOutput slot bs test n) s = .next s) ∧
  (∀ (slot : Nat) (bs : List Bool) (s : State), slot < 3 → slot < s.angle.slots.length → s.filterRuns = true →
    s.clk.pllLocked = false → bs.length = stepSamples s.angle.config →
    ∃ t, exec (.filterOutput slot bs s.onTestSource (s.fslot slot).index) s = .next t ∧ (t.fslot slot).mark = true ∧
      (t.fslot slot).unsettled = settleCount s.angle.config ∧ (t.fslot slot).index = (s.fslot slot).index) ∧
  (∀ (slot e : Nat) (bs : List Bool) (s : State), slot < 3 → slot < s.angle.slots.length → s.filterRuns = true →
    s.clk.pllLocked = true → bs.length = stepSamples s.angle.config → s.windowEnd slot = some e →
    let g := (s.fslot slot).demodulate s.angle.config s.angle.phaseAdj s.angle.excStart e s.dcHeld bs
    (∀ (n : Nat) (test : Bool), e ≤ (s.fslot slot).index ∨ n ≠ e → exec (.filterOutput slot bs test n) s = .next s) ∧
    ((s.fslot slot).index < e → ∃ t, exec (.filterOutput slot bs s.onTestSource e) s = .next t ∧
      (t.fslot slot).out = g.1.out ∧ -8388608 ≤ (t.fslot slot).out ∧ (t.fslot slot).out ≤ 8388607 ∧
      (t.fslot slot).dcBlock = g.1.dcBlock ∧ (t.fslot slot).index = e ∧ (t.fslot slot).fresh = true ∧
      (t.fslot slot).unsettled = (s.fslot slot).unsettled - 1 ∧
      (t.fslot slot).mark = ((s.fslot slot).unsettled != 0 || g.2) ∧ (∀ k, k ≠ slot → t.fslot k = s.fslot k) ∧
      (slot ≠ 2 → t.angle.lock = s.angle.lock ∧
        t = { s with angle := t.angle, health := t.health, host := t.host, nvm := t.nvm }))) ∧
  ∀ (a b : List Bool) (s : State),
    (∀ test, s.filterRuns = false ∨ s.clk.pllLocked = false ∨ a.length ≠ 512 ∨ b.length ≠ 512 ∨ test ≠ s.onTestSource →
      exec (.galvoFilterOutput a b test) s = .next s) ∧
    (∀ e, s.filterRuns = true → s.clk.pllLocked = true → a.length = 512 → b.length = 512 → s.galvoEnd = some e →
      (e + 1024000) % 2048000 = 0 ∧
      (e ≤ (s.fslot 3).index → ∀ test, exec (.galvoFilterOutput a b test) s = .next s) ∧
      ((s.fslot 3).index < e → ∃ t, exec (.galvoFilterOutput a b s.onTestSource) s = .next t ∧
        t.motion = { s.motion with gpa := ((s.fslot 3).average a).1.out, gpb := ((s.fslot 4).average b).1.out } ∧
        (s.angle.slots.length = 5 → (t.fslot 3).index = e ∧ (t.fslot 4).index = e + 64000) ∧
        (∀ k, k < 3 → t.fslot k = s.fslot k) ∧ t.angle.lock = s.angle.lock ∧ t = { s with angle := t.angle, motion := t.motion }))

/-- R119, R133, R135, R136, R142, R143, R144, R145, R124, R233, Table 5.5. A settled, good pair updates the loop of R136 from the
prediction for its stamp and publishes angle and speed half an excitation period later, and a published speed below EMIT_MIN_SPEED
registers SPEED_LOW. A marked pair takes LOCKED to COAST with the publication as it was, or loses the angle where an output is stuck;
a pair whose amplitude fails for the AMP_COUNT-th time, a
stuck modulator, an excitation short, a coast beyond COAST_MAX each lose the angle with their own cause; 64 counting updates
acquire lock and clear ANGLE_LOSS; a speed-check gate fits its pairs, reports the difference from the mean tracked speed, counts a
mismatch and loses the angle at the second in a row; one that a fault crossed judges nothing and gives TIME_FAULT, no period and no
intercept; a reset at the zero crossing takes the excitation, the preset and the cascade, and what else its settings change waits for
the next tracking update; each does nothing before its time.
Where the spec is open it rests on log entries 52, 54, 58, 131. -/
def Obligations.AngleIsLostAndLocked : Prop :=
  (∀ s : State, (s.fslot 0).fresh = false ∨ (s.fslot 1).fresh = false → exec .trackingUpdate s = .next s) ∧
  (∀ s : State, (s.fslot 0).fresh = true → (s.fslot 1).fresh = true → (s.fslot 1).index = (s.fslot 0).index + 64000 →
    s.angle.encOver = false → s.angle.lock = .locked →
    ((s.fslot 0).mark = true ∨ (s.fslot 1).mark = true → s.stuckOutput = false → s.angle.learn = none →
      ∃ t, exec .trackingUpdate s = .next t ∧ t.angle.lock = .coast ∧ t.angle.coastSince = some s.clk.now ∧
        t.angle.angle = s.angle.angle ∧ t.angle.pubSpeed = s.angle.pubSpeed ∧ t.angle.pubStamp = s.angle.pubStamp ∧
        t = { s with angle := t.angle, fabric := t.fabric, returns := t.returns, zone := t.zone }) ∧
    ((s.fslot 0).mark = true ∨ (s.fslot 1).mark = true → s.stuckOutput = true → s.emission.emitters.length = 16 →
      ∃ t, exec .trackingUpdate s = .next t ∧ AngleLost 4 s t) ∧
    ((s.fslot 0).mark = false → (s.fslot 1).mark = false →
      s.angle.next = none → ampLow s.angle.config (amplitude (s.fslot 0).out (s.fslot 1).out) s.angle.aRef = true →
      acAmpCount s.angle.config ≤ s.angle.lowFails + 1 → s.emission.emitters.length = 16 →
      ∃ t, exec .trackingUpdate s = .next t ∧ AngleLost 1 s t)) ∧
  (∀ s : State, (s.fslot 0).fresh = true → (s.fslot 1).fresh = true → (s.fslot 1).index = (s.fslot 0).index + 64000 →
    (s.fslot 0).mark = false → (s.fslot 1).mark = false → s.angle.lock = .locked ∨ s.angle.lock = .coast → s.angle.encOver = false →
    s.angle.next = none → s.angle.learn = none → s.stuckOutput = false → 0 < acAmpCount s.angle.config →
    let amp := amplitude (s.fslot 0).out (s.fslot 1).out
    let u := (s.angle.predict s.pairStamp).update (s.fslot 0).out (s.fslot 1).out amp
    let est := s.toFrame (((u.1.phi : Int) - s.angle.cyc u.1.phi) % 2 ^ 32).toNat
    let v := if s.angle.dir then -roundDiv u.1.speed 65536 else roundDiv u.1.speed 65536
    ampLow s.angle.config amp s.angle.aRef = false → ampHigh s.angle.config amp s.angle.aRef = false →
    errAbove u.2 (acSlip s.angle.config) = false → u.1.speed.natAbs ≤ 100 * 2 ^ 32 →
      ∃ t, exec .trackingUpdate s = .next t ∧ t.angle.lock = .locked ∧ t.angle.coastSince = none ∧ t.angle.phi = u.1.phi ∧
        t.angle.speed = u.1.speed ∧ t.angle.speedI = u.1.speedI ∧ t.angle.est = est ∧
        t.angle.angle = (roundDiv est 4096 % turn).toNat ∧ t.angle.pubSpeed = v ∧
        t.angle.pubStamp = s.pairStamp + halfPeriod s.angle.config ∧ (v < ltMinSpeed s.emission.table → t.sched.inhibit.getLsbD 3 = true) ∧
        t = { s with angle := t.angle, emission := t.emission, fabric := t.fabric, health := t.health, host := t.host,
                     net := t.net, returns := t.returns, sched := t.sched, zone := t.zone }) ∧
  (∀ s : State,
    (s.angle.lock ≠ .acquire ∨ s.angle.lockCount < 64 → exec .lockAcquired s = .next s) ∧
    (s.angle.lock = .acquire → 64 ≤ s.angle.lockCount → ∃ t, exec .lockAcquired s = .next t ∧ t.angle.lock = .locked ∧
      t.angle.aRef = s.angle.aSum / pos s.angle.aCount ∧ t.sched.inhibit = s.sched.inhibit &&& 0x3B#6 ∧
      t = { s with angle := t.angle, sched := { s.sched with inhibit := t.sched.inhibit, resumeAt := t.sched.resumeAt } })) ∧
  (∀ (slot : Nat) (s : State), slot < 3 → s.tracking = true → s.emission.emitters.length = 16 →
    ∃ t, exec (.stuckModulator slot) s = .next t ∧ AngleLost (if slot = 2 then 8 else 3) s t) ∧
  (∀ (t0 : Nat) (s : State), s.angle.lock = .coast → s.angle.coastSince = some t0 →
    (s.clk.now ≤ t0 + 12800 * acCoast s.angle.config → exec .coastTimeout s = .next s) ∧
    (t0 + 12800 * acCoast s.angle.config < s.clk.now → s.emission.emitters.length = 16 →
      ∃ t, exec .coastTimeout s = .next t ∧ AngleLost 5 s t)) ∧
  (∀ s : State,
    (s.angle.lock ≠ .locked ∨ 64 * s.clk.tickCount < s.angle.gate.start + acGate s.angle.config →
      exec .speedCheckGate s = .next s) ∧
    (s.angle.lock = .locked → s.angle.gate.start + acGate s.angle.config ≤ 64 * s.clk.tickCount → s.angle.gate.fault = true →
      ∃ t, exec .speedCheckGate s = .next t ∧ t.angle.lock = .locked ∧ t.angle.speedCheckPpm = s.angle.speedCheckPpm ∧
        t.angle.gate.start = s.angle.gate.start + acGate s.angle.config ∧ t.angle.gate.fault = false ∧
        t.angle.gate.pairs = s.angle.gate.pairs.filter (fun x => decide (s.angle.gate.start + acGate s.angle.config ≤ x.2)) ∧
        bit (u8 t.angle.speedFit 22) 4 = true ∧ u64 t.angle.speedFit 0 = 0 ∧ u64 t.angle.speedFit 8 = 0 ∧
        t = { s with angle := t.angle }) ∧
    (s.angle.lock = .locked → s.angle.gate.start + acGate s.angle.config ≤ 64 * s.clk.tickCount → s.angle.gate.fault = false →
      let stop := s.angle.gate.start + acGate s.angle.config
      let g := (s.angle.gate.cut stop).1
      let f := fitPairs (acMinCount s.angle.config) (acResid s.angle.config) g.pairs
      let kept (t : State) : Prop := t.angle.lock = .locked ∧ t.angle.speedFit = f.bytes ∧ t.angle.gate = (s.angle.gate.cut stop).2 ∧
        t = { s with angle := t.angle }
      (g.ppm f = none → ∃ t, exec .speedCheckGate s = .next t ∧ kept t ∧ t.angle.speedCheckPpm = s.angle.speedCheckPpm ∧
        t.angle.mismatchRun = s.angle.mismatchRun ∧ t.angle.mismatchTotal = s.angle.mismatchTotal) ∧
      ∀ ppm, g.ppm f = some ppm →
        (absRat ppm ≤ ((acSpeedTol s.angle.config : Nat) : Rat) → ∃ t, exec .speedCheckGate s = .next t ∧ kept t ∧
          t.angle.speedCheckPpm = clampInt int32Min int32Max (roundRat ppm) ∧ t.angle.mismatchRun = 0 ∧
          t.angle.mismatchTotal = s.angle.mismatchTotal) ∧
        (((acSpeedTol s.angle.config : Nat) : Rat) < absRat ppm → s.angle.mismatchRun = 0 →
          ∃ t, exec .speedCheckGate s = .next t ∧ kept t ∧ t.angle.speedMismatch = true ∧ t.angle.mismatchRun = 1 ∧
            t.angle.mismatchTotal = satInc 32 s.angle.mismatchTotal) ∧
        (((acSpeedTol s.angle.config : Nat) : Rat) < absRat ppm → 0 < s.angle.mismatchRun → s.emission.emitters.length = 16 →
          ∃ t, exec .speedCheckGate s = .next t ∧ AngleLost 9 s t ∧ t.angle.speedMismatch = true))) ∧
  (∀ s : State,
    (s.angle.exc = .switchOpen → exec .excShort s = .next s) ∧
    (s.angle.exc = .run → s.tracking = true → s.emission.emitters.length = 16 → ∃ t, exec .excShort s = .next t ∧
      AngleLost 8 s t ∧ t.angle.exc = .park s.emission.excPark ∧ t.angle.excShort = true)) ∧
  ∀ s : State,
    (s.angle.pendingReset = none → exec .excChange s = .next s) ∧
    (∀ op c at_, s.angle.pendingReset = some (op, c, at_) →
      (64 * s.clk.tickCount < at_ → exec .excChange s = .next s) ∧
      (at_ ≤ 64 * s.clk.tickCount → s.clk.pllLocked = true → s.angle.learn = none → ∃ t, exec .excChange s = .next t ∧
        t.angle.pendingReset = none ∧ t.angle.resetCmds = s.angle.resetCmds ++ [(op, c, s.stamp, false)] ∧
        t.angle.config = (if op = 0x0501 then resetPart s.angle.config c.payload else s.angle.config) ∧
        t.angle.next = (if op = 0x0501 then some c.payload else s.angle.next) ∧
        (∀ k, k < 3 → k < s.angle.slots.length → (t.fslot k).unsettled = settleCount t.angle.config) ∧
        t = { s with angle := t.angle }))

/-- R140, R141, R147, R148, R150, R151. The encoder generator moves one state at a time, on the 12.5 ns grid and at most once per 50 ns,
and freezes above 20 MHz
once it is more than four states behind; a camera pulse starts at its trigger angle, lasts WIDTH, and without a valid angle counts
as missed; a learning pass ends only with its revolutions: an unsteady one is discarded with ST_FAULT_ANGLE 1, a good one takes the
new table, of the next generation, at the next boundary.
Where the spec is open it rests on log entries 56, 57, 59. -/
def Obligations.EncoderTriggersAndLearning : Prop :=
  (∀ s : State,
    (s.encTurn = 0 ∨ s.angle.encFrozen = true ∨ s.encAhead = 0 ∨ s.clk.now < s.angle.encAt + 64 ∨ s.clk.tickCount % 16 ≠ 0 →
      exec .encStateChange s = .next s) ∧
    (s.encTurn ≠ 0 → s.angle.encFrozen = false → s.encAhead ≠ 0 → s.angle.encAt + 64 ≤ s.clk.now → s.clk.tickCount % 16 = 0 →
      ∃ t, exec .encStateChange s = .next t ∧ t.angle.encAt = s.clk.now ∧
        (t.angle.encCount = (s.angle.encCount + 1) % s.encTurn ∨ t.angle.encCount = (s.angle.encCount + s.encTurn - 1) % s.encTurn) ∧
        t.angle.encImage = s.angle.encImage ∧ t = { s with angle := t.angle })) ∧
  (∀ s : State,
    (s.encRate ≤ 20000000 * 65536 ∨ s.encBehind ≤ 4 → exec .encOverrate s = .next s) ∧
    (s.angle.encFrozen = false → s.angle.encCatch = false → s.encTurn ≠ 0 → 20000000 * 65536 < s.encRate → 4 < s.encBehind →
      ∃ t, exec .encOverrate s = .next t ∧ t.angle.encFrozen = true ∧ t.angle.encOverrate = true ∧ t.angle.encA = s.angle.encA ∧
        t.angle.encB = s.angle.encB ∧ t = { s with angle := t.angle })) ∧
  (∀ (n : Nat) (s : State), n < s.angle.cams.length →
    (camCount (s.cam n).image = 0 → exec (.camTrigEdge n) s = .next s) ∧
    (camCount (s.cam n).image ≠ 0 → s.tracking = false → exec (.camTrigEdge n) s = .next { s with angle := { s.angle with
      camMissed := true, camMissedTotal := satInc 32 s.angle.camMissedTotal } }) ∧
    (∀ th, camCount (s.cam n).image ≠ 0 → s.tracking = true → s.clk.pllLocked = true → s.camDue n = some th →
      ∃ t, exec (.camTrigEdge n) s = .next t ∧ (t.cam n).high = true ∧
        (t.cam n).endAt = s.clk.now + u32 (s.cam n).image 4 * 32 / 25 ∧ (∀ k, k ≠ n → t.cam k = s.cam k) ∧
        t.angle.camOverlap = (s.angle.camOverlap || (s.cam n).high) ∧ t = { s with angle := t.angle }) ∧
    ((s.cam n).high = true → s.clk.now < (s.cam n).endAt → exec (.camTrigPulseEnd n) s = .next s) ∧
    ((s.cam n).high = true → (s.cam n).endAt ≤ s.clk.now → ∃ t, exec (.camTrigPulseEnd n) s = .next t ∧
      t.cam n = { s.cam n with high := false } ∧ (∀ k, k ≠ n → t.cam k = s.cam k) ∧ t = { s with angle := t.angle })) ∧
  (∀ s : State, s.angle.learn = none → exec .cycLearnPassEnd s = .next s) ∧
  ∀ (l : Learn) (s : State), s.angle.learn = some l →
    (l.waiting = true ∨ l.done < l.revs → exec .cycLearnPassEnd s = .next s) ∧
    (l.waiting = false → l.revs ≤ l.done → steady l.boundaries = false → ∃ t, exec .cycLearnPassEnd s = .next t ∧
      t.angle.learn = none ∧ t.angle.learnDiscarded = true ∧ t.angle.table = s.angle.table ∧
      Finished 0x0504 l.cmd (s.block 0x23 1 0) [] s t ∧ t = { s with angle := t.angle, host := t.host }) ∧
    (l.waiting = false → l.revs ≤ l.done → steady l.boundaries = true → l.store = false → 65536 ≤ s.angle.pubSpeed.natAbs →
      (∀ e ∈ learnEntries l.samples, e.1.natAbs ≤ acCycLimit s.angle.config * 4096) →
      ∃ t g, exec .cycLearnPassEnd s = .next t ∧ t.angle.learn = none ∧ t.angle.table = s.angle.table ∧
        t.angle.cycPending = .use { generation := g, entries := learnEntries l.samples } ∧
        t.angle.cycCmds = s.angle.cycCmds ++ [(0x0504, l.cmd)] ∧ t = { s with angle := t.angle })

/-- R133, R134, R140, R141, R147, R151, R152, R153, Table 5.10. ANGLE_CONFIG without a reset is what the next tracking update takes; a
change of the excitation, the preset or the
cascade, and FILTER_SYNC, wait for the next positive zero crossing of the running excitation. ANGLE_FRAME sets the mounting,
CYC_LEARN starts a pass that waits for its boundary, CYC_SELECT changes the table at the next boundary, ENC_CONFIG realigns by
jump, CAM_CONFIG waits for a boundary while the spindle turns, ANGLE_STATUS clears what its mask names.
Where the spec is open it rests on log entries 56, 58, 59. -/
def Obligations.AngleCommandsTakeEffect : Prop :=
  (∀ (c : Cmd) (s : State), Accepted angleConfigInfo c s → s.angle.pendingReset = none →
    (resetNeeded s.angle.wanted c.payload = false → bit (u8 c.payload 9) 0 = false → ∃ t, exec (.angleConfig c) s = .next t ∧
      t.angle = { s.angle with next := some c.payload } ∧ Finished 0x0501 c (s.block 0 0 0) [] s t ∧ t = { s with angle := t.angle, host := t.host }) ∧
    (resetNeeded s.angle.wanted c.payload = true → s.angle.exc = .run → ∃ t at_, exec (.angleConfig c) s = .next t ∧ Silent c s t ∧
      t.angle = { s.angle with pendingReset := some (0x0501, c, at_) } ∧ 64 * s.clk.tickCount < at_ ∧
      t = { s with angle := t.angle, host := t.host })) ∧
  (∀ (c : Cmd) (s : State), Accepted filterSyncInfo c s → s.angle.pendingReset = none → s.angle.exc = .run →
    ∃ t at_, exec (.filterSync c) s = .next t ∧ Silent c s t ∧ 64 * s.clk.tickCount < at_ ∧
      t.angle = { s.angle with pendingReset := some (0x0503, c, at_) } ∧ t = { s with angle := t.angle, host := t.host }) ∧
  (∀ (c : Cmd) (s : State), Accepted angleFrameInfo c s → s.angle.pendingReset = none → bit (u8 c.payload 5) 0 = false →
    ∃ t, exec (.angleFrame c) s = .next t ∧
      t.angle = { s.angle with zeroOffset := u32 c.payload 0, dir := bit (u8 c.payload 4) 0 } ∧
      Finished 0x0502 c (s.block 0 0 0) [] s t ∧ t = { s with angle := t.angle, host := t.host }) ∧
  (∀ (c : Cmd) (s : State), Accepted cycLearnInfo c s → s.angle.pendingReset = none → s.angle.learn = none →
    s.angle.lock = .locked → ∃ t l, exec (.cycLearn c) s = .next t ∧ Silent c s t ∧
      t.angle = { s.angle with learn := some l, learnState := 1 } ∧ l.cmd = c ∧ l.revs = u8 c.payload 0 ∧ l.waiting = true ∧
      t = { s with angle := t.angle, host := t.host }) ∧
  (∀ (c : Cmd) (s : State), Accepted cycSelectInfo c s → s.angle.pendingReset = none → u8 c.payload 0 = 0 →
    (65536 ≤ s.angle.pubSpeed.natAbs → ∃ t, exec (.cycSelect c) s = .next t ∧ Silent c s t ∧
      t.angle = { s.angle with cycPending := .disable, cycCmds := s.angle.cycCmds ++ [(0x0505, c)] } ∧
      t = { s with angle := t.angle, host := t.host }) ∧
    (s.angle.pubSpeed.natAbs < 65536 → s.angle.cycCmds = [] → ∃ t, exec (.cycSelect c) s = .next t ∧ t.angle.table = none ∧
      Finished 0x0505 c (s.block 0 0 0) [] s t ∧ t = { s with angle := t.angle, host := t.host })) ∧
  (∀ (c : Cmd) (s : State), Accepted encConfigInfo c s → s.angle.pendingReset = none → ∃ t, exec (.encConfig c) s = .next t ∧
    t.angle.encImage = c.payload ∧ t.angle.encFrozen = !(s.tracking && s.clk.pllLocked) ∧ t.angle.encRealigned = true ∧
    t.angle.realignTotal = satInc 32 s.angle.realignTotal ∧ Finished 0x0506 c (s.block 0 0 0) [] s t ∧
    t = { s with angle := t.angle, host := t.host }) ∧
  (∀ (c : Cmd) (s : State), Accepted camConfigInfo c s → s.angle.pendingReset = none → let n := u8 c.payload 0
    n < s.angle.cams.length → ∃ t, exec (.camConfig c) s = .next t ∧
      (65536 ≤ s.angle.pubSpeed.natAbs → t.cam n = { s.cam n with pending := some c.payload }) ∧
      (s.angle.pubSpeed.natAbs < 65536 → t.cam n = { s.cam n with image := c.payload, pending := none, committed := [] }) ∧
      (∀ k, k ≠ n → t.cam k = s.cam k) ∧ Finished 0x0507 c (s.block 0 0 0) [] s t ∧
      t = { s with angle := { s.angle with cams := t.angle.cams }, host := t.host }) ∧
  (∀ (c : Cmd) (s : State), Accepted angleStatusInfo c s → s.angle.pendingReset = none → let m := u16 c.payload 0
    ∃ t d, exec (.angleStatus c) s = .next t ∧ Finished 0x0508 c (s.block 0 0 s.angle.lock.code) d s t ∧
      u8 d 0 = s.angle.lock.code ∧ t.angle.excShort = (s.angle.excShort && !m.testBit 3) ∧
      t.angle.speedMismatch = (s.angle.speedMismatch && !m.testBit 5) ∧ t.angle.camMissed = (s.angle.camMissed && !m.testBit 9) ∧
      t.angle.lock = s.angle.lock ∧ t.angle.config = s.angle.config ∧ t = { s with angle := t.angle, host := t.host }) ∧
  ∀ (c : Cmd) (s : State), s.angle.pendingReset.isSome = true → (s.liveOf c).isSome = true →
    exec (.angleConfig c) s = .next s ∧ exec (.filterSync c) s = .next s ∧ exec (.angleFrame c) s = .next s ∧
    exec (.encConfig c) s = .next s ∧ exec (.camConfig c) s = .next s

/-! ## Control loops, the drive link, test signals and Cameo (chapter 6) -/

/-- R157, R158, R159, R160, R164, R165. At a strobe of 10 kHz (128 000 ticks), and only there, one downlink frame of 12 bytes leaves and the
spindle loop's sample counts; at one of 40 kHz (32 000 ticks) the galvo loop's does. An open loop with its settings in use changes
nothing beside its own registers, and the galvo output takes the park code or HOLD_CODE. A closed and measured loop without a test
signal computes the law: its output stays within U_MIN and U_MAX, the integrator within AW_LIMIT, and the spindle's result is the
demand of the next frame. A sample that did not end in time is discarded, and counted when its demand is due: the spindle's with the
next frame, the galvo's at its own strobe; the eighth in a row is fault 4.
Where the spec is open it rests on log entries 60, 61, 64. -/
def Obligations.SamplesFollowTheirStrobes : Prop :=
  (∀ (fin : Bool) (s : State), s.strobes = false ∨ s.clk.tickCount % 128000 ≠ 0 ∨ s.clk.now ≤ s.mdrv.strobeAt →
    exec (.spindleSample fin) s = .next s) ∧
  (∀ (fin : Bool) (s : State), s.strobes = false ∨ s.clk.tickCount % 32000 ≠ 0 ∨ s.clk.now ≤ s.motion.galvoAt →
    exec (.galvoSample fin) s = .next s) ∧
  (∀ s : State, s.strobes = true → s.clk.tickCount % 128000 = 0 → s.mdrv.strobeAt < s.clk.now → s.motion.loops.length = 2 →
    s.mdrv.running = true → s.power.phase ≠ .pavane →
    let f := s.mdrvFrame
    let l := s.loop 0
    f.length = 12 ∧ u8 f 0 = 0xA5 ∧ u8 f 2 = s.mdrv.seq % 256 ∧ bit (u8 f 3) 0 = s.inhibited ∧ u16 f 10 = crc16 (f.take 10) ∧
    (∀ fin, ∃ t, exec (.spindleSample fin) s = .next t ∧ t.out = s.out ++ [.mdrv f] ∧ t.mdrv.lastFrame = f ∧
      t.mdrv.strobeAt = s.clk.now ∧ t.mdrv.seq = wrap 8 (s.mdrv.seq + 1) ∧ t.mdrv.answered = false ∧
      (t.loop 0).samples = wrap 32 (l.samples + 1) ∧
      t = { s with emission := t.emission, fabric := t.fabric, free := t.free, health := t.health, host := t.host,
                   integrity := t.integrity, motion := t.motion, net := t.net, out := t.out, returns := t.returns, sched := t.sched, zone := t.zone }) ∧
    (s.mdrv.late = false → l.st = .opened → l.image = s.sets.active.loops.getD 0 [] → l.coef = s.sets.active.coefs.getD 0 [] →
      ∃ t, exec (.spindleSample true) s = .next t ∧ (t.loop 0).st = .opened ∧ (t.loop 0).us = l.us ∧ (t.loop 0).overruns = 0 ∧
        t.loop 1 = s.loop 1 ∧ t.motion.galvo = s.motion.galvo ∧ t.motion.galvoCode = s.motion.galvoCode ∧
        t = { s with integrity := t.integrity, motion := t.motion, out := t.out }) ∧
    (s.mdrv.late = false → l.st = .closed → l.closing = false → l.inject = none → l.image = s.sets.active.loops.getD 0 [] →
      l.coef = s.sets.active.coefs.getD 0 [] → lcFeLimit l.image = 0 → lcInnovLimit l.image = 0 → s.angle.lock = .locked →
      let o := (lawSample 0 l.image l.coef (some s.angle.pubSpeed) 0 0 0 l).loop
      u8 f 1 = 2 ∧ ∃ t, exec (.spindleSample true) s = .next t ∧ (t.loop 0).us = o.us ∧ (t.loop 0).u = o.u ∧
        (t.loop 0).q = o.q ∧ (t.loop 0).r = o.r ∧ (t.loop 0).xh = o.xh ∧ (t.loop 0).e = o.e ∧ t.mdrv.nextDemand = o.us ∧
        (lcMin l.image < lcMax l.image → lcMin l.image ≤ o.us ∧ o.us ≤ lcMax l.image) ∧
        (lcIntEn l.image = true → -lcAw l.image ≤ o.q ∧ o.q ≤ lcAw l.image) ∧ t.loop 1 = s.loop 1 ∧
        t = { s with integrity := t.integrity, motion := t.motion, out := t.out }) ∧
    (s.mdrv.late = false → ∃ t, exec (.spindleSample false) s = .next t ∧ t.mdrv.late = true ∧
      t.loop 0 = { l with samples := (t.loop 0).samples, closedFor := (t.loop 0).closedFor } ∧
      t.loop 1 = s.loop 1 ∧ t = { s with integrity := t.integrity, motion := t.motion, out := t.out }) ∧
    (s.mdrv.late = true → l.overruns + 1 ≠ 8 → ∃ t, exec (.spindleSample false) s = .next t ∧
      t.loop 0 = { l with samples := (t.loop 0).samples, closedFor := (t.loop 0).closedFor, overruns := l.overruns + 1,
                          overrunTotal := satInc 32 l.overrunTotal, ctrlOverrun := true } ∧
      t.loop 1 = s.loop 1 ∧ t = { s with integrity := t.integrity, motion := t.motion, out := t.out }) ∧
    (s.mdrv.late = true → l.overruns + 1 = 8 → l.inFault = false → l.image ≠ [] → bit (lcAction l.image 4) 0 = true →
      ∃ t, exec (.spindleSample false) s = .next t ∧ (t.loop 0).st = .fault ∧ (t.loop 0).faultCause = 4 ∧
        (t.loop 0).prior = l.st ∧ t.sched.src.getLsbD 2 = true ∧ t.sched.inhibit.getLsbD 5 = true)) ∧
  (∀ s : State, s.strobes = true → s.clk.tickCount % 32000 = 0 → s.motion.galvoAt < s.clk.now → s.motion.loops.length = 2 →
    let l := s.loop 1
    (∀ fin, ∃ t, exec (.galvoSample fin) s = .next t ∧ t.motion.galvoAt = s.clk.now ∧
      (t.loop 1).samples = wrap 32 (l.samples + 1) ∧
      t = { s with emission := t.emission, fabric := t.fabric, free := t.free, health := t.health, host := t.host,
                   motion := t.motion, net := t.net, returns := t.returns, sched := t.sched, zone := t.zone }) ∧
    (s.motion.galvo = .switchOpen → ∀ fin, ∃ t, exec (.galvoSample fin) s = .next t ∧ t.motion.galvo = .switchOpen) ∧
    (s.motion.galvo ≠ .switchOpen → l.st = .opened → l.image = s.sets.active.loops.getD 1 [] →
      l.coef = s.sets.active.coefs.getD 1 [] → ∃ t, exec (.galvoSample true) s = .next t ∧
        (lcMode l.image = 0 → t.motion.galvo = s.motion.galvo.parked s.emission.galvoPark) ∧
        (lcMode l.image ≠ 0 → t.motion.galvo = .run ∧ t.motion.galvoCode = lcHold l.image) ∧
        (t.loop 1).st = .opened ∧ t.loop 0 = s.loop 0 ∧ t.motion.mdrv = s.motion.mdrv ∧ t = { s with motion := t.motion }) ∧
    (∀ y, s.motion.galvo ≠ .switchOpen → l.st = .closed → l.closing = false → l.inject = none →
      l.image = s.sets.active.loops.getD 1 [] → l.coef = s.sets.active.coefs.getD 1 [] → lcFeLimit l.image = 0 →
      lcInnovLimit l.image = 0 → s.galvoMeasure = some y →
      let o := (lawSample 1 l.image l.coef (some y) 0 0 0 l).loop
      ∃ t, exec (.galvoSample true) s = .next t ∧ (t.loop 1).us = o.us ∧ (t.loop 1).q = o.q ∧ (t.loop 1).xh = o.xh ∧
        t.motion.galvo = .run ∧ t.motion.galvoCode = (clampInt 0 4095 ((lcZero l.image : Int) + o.us / 2 ^ 20)).toNat ∧
        (lcMin l.image < lcMax l.image → lcMin l.image ≤ o.us ∧ o.us ≤ lcMax l.image) ∧ t.loop 0 = s.loop 0 ∧
        t = { s with motion := t.motion }) ∧
    (l.overruns + 1 ≠ 8 → ∃ t, exec (.galvoSample false) s = .next t ∧ (t.loop 1).st = l.st ∧ (t.loop 1).us = l.us ∧
      (t.loop 1).xh = l.xh ∧ (t.loop 1).overruns = l.overruns + 1 ∧ t.motion.galvo = s.motion.galvo ∧
      t.motion.galvoCode = s.motion.galvoCode ∧ t.loop 0 = s.loop 0 ∧ t = { s with motion := t.motion }) ∧
    (l.overruns + 1 = 8 → l.inFault = false → l.image ≠ [] → bit (lcAction l.image 4) 0 = true →
      ∃ t, exec (.galvoSample false) s = .next t ∧ (t.loop 1).st = .fault ∧ (t.loop 1).faultCause = 4 ∧
        (t.loop 1).prior = l.st ∧ t.sched.src.getLsbD 2 = true ∧ t.sched.inhibit.getLsbD 5 = true))

/-- R161, R163, R173, R174, Table 6.7, Table 18.6. Only a valid answer to the last frame counts: it ends the misses and reports the
drive, and
DRV_FAULT coasts the spindle; without one by 60 µs a miss counts, and a run of MDRV_LOSS misses or more is
fault 5, once, while MODE of the spindle loop or of the last frame is not 0 (Table 18.6). A shorted galvo output
parks at once and faults its loop, unless its switch is open already.
Where the spec is open it rests on log entries 62, 64, 136. -/
def Obligations.DriveAndGalvoFaultsAct : Prop :=
  (∀ (b : List Byte) (s : State), s.uplinkValid b = false →
    ∃ t, exec (.mdrvUplinkReceive b) s = .next t ∧ t = { s with integrity := { s.integrity with units := t.integrity.units } }) ∧
  (∀ (b : List Byte) (s : State), s.uplinkValid b = true →
    let m := { s.mdrv with answered := true, misses := 0, lossRaised := false, drvState := u8 b 1 % 8, drvFault := bit (u8 b 1) 1,
                           torqueFb := s16 b 4, drvCode := u16 b 6 }
    (bit (u8 b 1) 1 = false → ∃ t, exec (.mdrvUplinkReceive b) s = .next t ∧
      t = { s with integrity := { s.integrity with units := t.integrity.units }, motion := { s.motion with mdrv := m } }) ∧
    (bit (u8 b 1) 1 = true → s.motion.loops.length = 2 → ∃ t, exec (.mdrvUplinkReceive b) s = .next t ∧ t.mdrv = m ∧
      (t.loop 0).st = .fault ∧ bit (t.loop 0).faultAction 1 = true ∧
      (t.loop 0).faultCause = (if (s.loop 0).inFault then (s.loop 0).faultCause else 6) ∧
      t = { s with emission := t.emission, fabric := t.fabric, health := t.health, host := t.host, integrity := t.integrity,
                   motion := t.motion, net := t.net, returns := t.returns, sched := t.sched, zone := t.zone })) ∧
  (∀ s : State, s.motion.loops.length = 2 →
    let due := s.mdrv.running = true ∧ s.mdrv.lastFrame ≠ [] ∧ s.mdrv.answered = false ∧ s.mdrv.strobeAt + 76800 ≤ s.clk.now
    (¬ due → exec .mdrvUplinkTimeout s = .next s) ∧
    (due → s.mdrv.misses + 1 < s.mdrvLoss ∨ s.mdrv.lossRaised = true ∨ (lcMode (s.loop 0).image = 0 ∧ u8 s.mdrv.lastFrame 1 = 0) → ∃ t, exec .mdrvUplinkTimeout s = .next t ∧
      t.mdrv = { s.mdrv with answered := true, misses := s.mdrv.misses + 1 } ∧
      t.loop 0 = { s.loop 0 with miss := true, gapTotal := satInc 32 (s.loop 0).gapTotal } ∧ t.loop 1 = s.loop 1 ∧
      t = { s with motion := { s.motion with mdrv := t.mdrv, loops := t.motion.loops } }) ∧
    (due → s.mdrvLoss ≤ s.mdrv.misses + 1 → s.mdrv.lossRaised = false →
      lcMode (s.loop 0).image ≠ 0 ∨ u8 s.mdrv.lastFrame 1 ≠ 0 → ∃ t, exec .mdrvUplinkTimeout s = .next t ∧
      t.mdrv = { s.mdrv with answered := true, misses := s.mdrv.misses + 1, lossRaised := true } ∧ (t.loop 0).st = .fault ∧
      bit (t.loop 0).faultAction 1 = true ∧
      (t.loop 0).faultCause = (if (s.loop 0).inFault then (s.loop 0).faultCause else 5))) ∧
  (∀ s : State, s.motion.galvo = .switchOpen → exec .galvoShort s = .next s) ∧
  ∀ s : State, s.motion.galvo ≠ .switchOpen → s.motion.loops.length = 2 → ∃ t, exec .galvoShort s = .next t ∧
    t.motion.galvo = s.motion.galvo.parked s.emission.galvoPark ∧ t.motion.galvoShort = true ∧ (t.loop 1).st = .fault ∧ bit (t.loop 1).faultAction 2 = true ∧
    (t.loop 1).faultCause = (if (s.loop 1).inFault then (s.loop 1).faultCause else 5) ∧ t.motion.mdrv = s.motion.mdrv ∧
    t = { s with emission := t.emission, fabric := t.fabric, health := t.health, host := t.host, motion := t.motion,
                 net := t.net, returns := t.returns, sched := t.sched, zone := t.zone }

/-- R175, R177, R178, R182. CTRL_INJECT starts a test signal on a closed loop that has none, waits behind a commit accepted before it or
a running
signal, and answers ST_FAULT_MOTION 2 once its loop has left CLOSED; INJECT_END and STOP end it with the samples played. CAMEO_ARM
starts a capture at its trigger, ended by the full buffer or by STOP, and CAMEO_READ gives its samples. CTRL_STATUS clears the
sticky flags of its mask, and with FAULT_CLEAR a fault whose cause has ended. MOTION_RECORD replaces the motion record.
Where the spec is open it rests on log entries 63, 65. -/
def Obligations.ControlCommandsTakeEffect : Prop :=
  (∀ (c : Cmd) (s : State), s.motion.loops.length = 2 → injShape c.payload ≠ 3 → let n := u8 c.payload 0
    (s.swapsAhead c ≠ 0 ∨ ((s.liveOf c).isSome = true ∧ (s.loop n).inject.isSome = true) → exec (.ctrlInject c) s = .next s) ∧
    (Accepted ctrlInjectInfo c s → s.swapsAhead c = 0 → (s.loop n).inject = none → (s.loop n).st = .closed →
      ∃ t j, exec (.ctrlInject c) s = .next t ∧ Silent c s t ∧ (t.loop n).inject = some j ∧ j.cmd = c ∧ j.index = 0 ∧
        j.point = u8 c.payload 1 ∧ j.shape = injShape c.payload ∧ j.ampl = s32 c.payload 4 ∧
        j.duration = injDuration c.payload ∧ t.loop (1 - n) = s.loop (1 - n) ∧ t = { s with host := t.host, motion := t.motion }) ∧
    (Accepted ctrlInjectInfo c s → s.swapsAhead c = 0 → (s.loop n).inject = none → (s.loop n).st ≠ .closed →
      ∃ t, exec (.ctrlInject c) s = .next t ∧ Finished 0x0603 c (s.block 0x24 2 0) [] s t ∧ t = { s with host := t.host })) ∧
  (∀ (c : Cmd) (s : State), Accepted ctrlInjectInfo c s → injShape c.payload = 3 → let n := u8 c.payload 0
    ((s.loop n).inject = none → ∃ t, exec (.ctrlInjectStop c) s = .next t ∧ Finished 0x0603 c (s.block 0 0 0) [] s t ∧
      t = { s with host := t.host }) ∧
    (∀ j, (s.loop n).inject = some j → ∃ t r1 r2, exec (.ctrlInjectStop c) s = .next t ∧ (t.loop n).inject = none ∧
      t.host.waiting = s.host.waiting ++ [r1, r2] ∧ r1.tag = j.cmd.tag ∧ r1.block = s.block 0 0 j.index ∧ r2.tag = c.tag ∧
      r2.block = s.block 0 0 j.index ∧ t = { s with host := t.host, motion := { s.motion with loops := t.motion.loops } })) ∧
  (∀ (n : Nat) (s : State),
    ((s.loop n).inject = none → exec (.injectEnd n) s = .next s) ∧
    ∀ j, (s.loop n).inject = some j →
      (j.index < j.duration → exec (.injectEnd n) s = .next s) ∧
      (j.duration ≤ j.index → ∃ t, exec (.injectEnd n) s = .next t ∧ t.loop n = { s.loop n with inject := none, inj := 0 } ∧
        Finished 0x0603 j.cmd (s.block 0 0 j.index) [] s t ∧
        t = { s with host := t.host, motion := { s.motion with loops := t.motion.loops } })) ∧
  (∀ (c : Cmd) (s : State), Accepted cameoArmInfo c s → u8 c.payload 1 ≠ 4 → s.cameo.running = false →
    ∃ t, exec (.cameoArm c) s = .next t ∧ Silent c s t ∧ t.cameo.st = (if u8 c.payload 1 = 0 then .capturing else .armed) ∧
      t.cameo.cmd = some c ∧ t.cameo.loop = u8 c.payload 0 ∧ t.cameo.decimate = u8 c.payload 2 ∧ t.cameo.pre = u16 c.payload 8 ∧
      t.cameo.samples = [] ∧ t = { s with host := t.host, motion := { s.motion with cameo := t.cameo } }) ∧
  (∀ (c : Cmd) (s : State), Accepted cameoArmInfo c s → u8 c.payload 1 = 4 →
    (s.cameo.running = false → ∃ t, exec (.cameoStop c) s = .next t ∧ Finished 0x0604 c (s.block 0 0 0) [] s t ∧
      t = { s with host := t.host }) ∧
    (∀ k, s.cameo.running = true → s.cameo.cmd = some k → ∃ t r1 r2, exec (.cameoStop c) s = .next t ∧ t.cameo.st = .idle ∧
      t.host.waiting = s.host.waiting ++ [r1, r2] ∧ r1.tag = k.tag ∧ r1.block = s.block 0x24 3 0 ∧ r2.tag = c.tag ∧
      r2.block = s.block 0 0 0 ∧ t = { s with host := t.host, motion := { s.motion with cameo := t.cameo } })) ∧
  (∀ (k : Cmd) (s : State), s.cameo.st = .capturing → s.cameo.cmd = some k →
    (s.cameo.samples.length < 16384 → exec .cameoCaptureComplete s = .next s) ∧
    (16384 ≤ s.cameo.samples.length → ∃ t, exec .cameoCaptureComplete s = .next t ∧
      t.motion = { s.motion with cameo := { s.cameo with st := .complete, cmd := none } } ∧
      Finished 0x0604 k (s.block 0 0 s.cameo.trigIndex) [] s t ∧ t = { s with host := t.host, motion := t.motion })) ∧
  (∀ (c : Cmd) (s : State), Accepted cameoReadInfo c s → ∃ t, exec (.cameoRead c) s = .next t ∧
    Finished 0x0605 c (s.block 0 0 s.cameo.trigIndex)
      (((List.range (u16 c.payload 2)).map fun i => s.cameo.sampleBytes (u16 c.payload 0 + i)).flatten) s t ∧
    t = { s with host := t.host }) ∧
  (∀ (c : Cmd) (s : State), Accepted ctrlStatusInfo c s → s.motion.loops.length = 2 →
    let n := u8 c.payload 0
    let m := u16 c.payload 2
    let ask := bit (u8 c.payload 1) 0 = true ∧ (s.loop n).inFault = true
    (¬ ask → ∃ t d, exec (.ctrlStatus c) s = .next t ∧ Finished 0x0606 c (s.block 0 0 (s.loop n).st.code) d s t ∧
      t.loop n = { s.loop n with arithSat := (s.loop n).arithSat && !bit m 2, outSat := (s.loop n).outSat && !bit m 3,
                                 outSatLong := (s.loop n).outSatLong && !bit m 4, intClamp := (s.loop n).intClamp && !bit m 5,
                                 ctrlOverrun := (s.loop n).ctrlOverrun && !bit m 6, miss := (s.loop n).miss && !bit m 7 } ∧
      t.loop (1 - n) = s.loop (1 - n) ∧
      t = { s with host := t.host, motion := { s.motion with loops := t.motion.loops, galvoShort := t.motion.galvoShort } }) ∧
    (ask → (s.clearLoop n m).causeEnded n = false → ∃ t d, exec (.ctrlStatus c) s = .next t ∧ (t.loop n).st = .fault ∧
      Finished 0x0606 c (s.block 0x24 1 3) d s t ∧ t = { s with host := t.host, motion := t.motion }) ∧
    (ask → (s.clearLoop n m).causeEnded n = true → ∃ t d, exec (.ctrlStatus c) s = .next t ∧ (t.loop n).st ≠ .fault ∧
      (t.loop n).faultCause = 0 ∧ (t.loop n).faultAction = 0 ∧ Finished 0x0606 c (s.block 0 0 (t.loop n).st.code) d s t ∧
      ((t.loop 0).inFault = false → (t.loop 1).inFault = false → t.sched.src.getLsbD 2 = false) ∧
      t = { s with host := t.host, motion := t.motion, sched := t.sched })) ∧
  ∀ (c : Cmd) (s : State), Accepted motionRecordInfo c s → ∃ t, exec (.motionRecord c) s = .next t ∧
    t.motion = { s.motion with record := slice c.payload 0 12 ++ zeros 4 } ∧
    (bit (u8 c.payload 12) 0 = false → Finished 0x0607 c (s.block 0 0 0) [] s t ∧ t.health = s.health) ∧
    (bit (u8 c.payload 12) 0 = true → Silent c s t) ∧
    t = { s with health := t.health, host := t.host, motion := t.motion, nvm := t.nvm,
                 sched := { s.sched with load := t.sched.load, ceiling := t.sched.ceiling, planOver := t.sched.planOver } }

/-! ## Inhibit by the host, fields and zone outputs (chapter 7) -/

/-- R192, R193, R194, R211, Table 7.11. With HOLD set EMIT_HOLD registers HOST under SUPERVISOR and no emitter plays; with HOLD clear
HOST clears, and SUPERVISOR with it when it was the last source. SHOT_STATUS clears the positions of its mask alone and reports
INHIBIT_LIVE; ZONE_STATUS without OUT_FAULT_CLEAR changes nothing.
Where the spec is open it rests on log entries 69, 70. -/
def Obligations.HostHoldsEmission : Prop :=
  (∀ (c : Cmd) (s : State), Accepted emitHoldInfo c s →
    (bit (u8 c.payload 0) 0 = true → ∃ t, exec (.emitHold c) s = .next t ∧ t.sched.inhibit = s.sched.inhibit ||| 0x20#6 ∧
      t.sched.src = s.sched.src ||| 0x08#6 ∧
      (s.inhibited = false → t.sched.queue = [] ∧ (s.emission.emitters.length = 16 → Dark t)) ∧ (Dark s → Dark t) ∧
      (∃ r ∈ t.host.waiting, r.opcode = 0x0706 ∧ r.tag = c.tag ∧ r.seq = c.seq ∧ r.queue = c.queue ∧ r.final = true ∧
        r.block = s.block 0 0 t.sched.inhibit.toNat) ∧
      (s.inhibited = true ∨ (Dark s ∧ ∀ x ∈ s.emission.emitters, x.fade = none) →
        Finished 0x0706 c (s.block 0 0 t.sched.inhibit.toNat) [] s t) ∧
      t = { s with emission := t.emission, fabric := t.fabric, host := t.host, net := t.net, returns := t.returns,
                   sched := t.sched, zone := t.zone }) ∧
    (bit (u8 c.payload 0) 0 = false → ∃ t, exec (.emitHold c) s = .next t ∧ t.sched.src = s.sched.src &&& 0x37#6 ∧
      (t.sched.src = 0 → t.sched.inhibit = s.sched.inhibit &&& 0x1F#6) ∧ (t.sched.src ≠ 0 → t.sched.inhibit = s.sched.inhibit) ∧
      Finished 0x0706 c (s.block 0 0 t.sched.inhibit.toNat) [] s t ∧
      t = { s with host := t.host, sched := { s.sched with inhibit := t.sched.inhibit, src := t.sched.src,
                                                           resumeAt := t.sched.resumeAt } })) ∧
  (∀ (c : Cmd) (s : State), Accepted shotStatusInfo c s → ∃ t d, exec (.shotStatus c) s = .next t ∧
    Finished 0x0707 c (s.block 0 0 s.sched.inhibit.toNat) d s t ∧ u8 d 0 = s.sched.inhibit.toNat ∧ u8 d 1 = s.sched.src.toNat ∧
    let m := u16 c.payload 0
    t.sched = { s.sched with paceShort := s.sched.paceShort && !m.testBit 1, lateSeen := s.sched.lateSeen && !m.testBit 2,
                             skippedSeen := s.sched.skippedSeen && !m.testBit 3, inhibitSeen := s.sched.inhibitSeen && !m.testBit 5,
                             fieldLate := s.sched.fieldLate && !m.testBit 6 } ∧
    t = { s with host := t.host, sched := t.sched }) ∧
  (∀ (c : Cmd) (s : State), Accepted zoneStatusInfo c s →
    (bit (u8 c.payload 0) 0 = false → ∃ t, exec (.zoneStatus c) s = .next t ∧
      Finished 0x0708 c (s.block 0 0 s.zoneState) s.zonePayload s t ∧ t = { s with host := t.host }) ∧
    (bit (u8 c.payload 0) 0 = true → ∃ t d, exec (.zoneStatus c) s = .next t ∧
      Finished 0x0708 c (s.block 0 0 t.zoneState) d s t ∧
      t.zone.outFault = (s.zone.outFault && Config.free s.free % 2 != 1) ∧ (t.zone.outFault = true → t.zone.clearA = false) ∧
      t.zone.fields = s.zone.fields ∧ t.zone.wdog = s.zone.wdog ∧ t = { s with host := t.host, zone := t.zone, free := s.free + 1 }))

/-- R202, R203, R205, R206. A readback fault or two missing snapshots drive both zone outputs not clear, and no field changes; a
test pulse of ZONE_A starts once in TP_PERIOD and lasts TP_WIDTH, that of ZONE_B half a period later, while neither has one; a snapshot
is taken every
12 800 000 ticks while the motion domain is awake, clears ZONE_WDOG and raises ALIVE; its telegram follows once, with
TG_SEQUENCE one higher, unless it is disabled or has no destination. R198, R199, R200. A gathered cell whose last shot lies more
than 1 ms back, without a result, is unobserved: FIELD_LATE is set, and a CLEAR field that the cell overlaps becomes UNKNOWN,
with both zone outputs not clear if the map holds it; up to 1 ms, or with the cell still open, nothing happens.
Where the spec is open it rests on log entries 4, 68, 69. -/
def Obligations.ZoneOutputsFailSafe : Prop :=
  ((∀ s : State, ∃ t, exec .zoneReadbackFault s = .next t ∧
     t.zone = { s.zone with outFault := true, clearA := false, clearB := false, pulseA := none, pulseB := none } ∧
     t = { s with zone := t.zone }) ∧
   (∀ s : State,
     (s.clk.tickCount ≤ s.zone.lastSnapshot + 25600000 → exec .zoneWdog s = .next s) ∧
     (s.zone.lastSnapshot + 25600000 < s.clk.tickCount → ∃ t, exec .zoneWdog s = .next t ∧
       t.zone = { s.zone with wdog := true, clearA := false, clearB := false, pulseA := none, pulseB := none } ∧
       t = { s with zone := t.zone })) ∧
   (∀ s : State,
     let period := 1280000 * s.sets.active.tpPeriod
     let idle := s.zone.pulseA = none ∧ s.zone.pulseB = none
     let dueA := s.zone.clearA = true ∧ idle ∧ s.zone.lastPulseA + period ≤ s.clk.now
     let dueB := s.zone.clearB = true ∧ idle ∧ s.zone.lastPulseB < s.zone.lastPulseA ∧ s.zone.lastPulseA + period / 2 ≤ s.clk.now
     (dueA → exec (.testPulseStart 0) s = .next { s with zone := { s.zone with pulseA := some s.clk.now, lastPulseA := s.clk.now } }) ∧
     (¬ dueA → exec (.testPulseStart 0) s = .next s) ∧
     (dueB → exec (.testPulseStart 1) s = .next { s with zone := { s.zone with pulseB := some s.clk.now, lastPulseB := s.clk.now } }) ∧
     (¬ dueB → exec (.testPulseStart 1) s = .next s)) ∧
   (∀ s : State,
     let ended (o : Option Nat) : Prop := ∃ t0, o = some t0 ∧ t0 + 1280 * s.sets.active.tpWidth ≤ s.clk.now
     (ended s.zone.pulseA → exec (.testPulseEnd 0) s = .next { s with zone := { s.zone with pulseA := none } }) ∧
     (¬ ended s.zone.pulseA → exec (.testPulseEnd 0) s = .next s) ∧
     (ended s.zone.pulseB → exec (.testPulseEnd 1) s = .next { s with zone := { s.zone with pulseB := none } }) ∧
     (¬ ended s.zone.pulseB → exec (.testPulseEnd 1) s = .next s)) ∧
   (∀ s : State,
     let due := s.clk.tickCount % 12800000 = 0 ∧ s.clk.tickCount ≠ s.zone.lastSnapshot ∧ s.awake .motion = true
     (¬ due → exec .zoneSnapshot s = .next s) ∧
     (due → ∃ t, exec .zoneSnapshot s = .next t ∧ t.zone.wdog = false ∧ t.zone.alive = (s.zone.alive + 1) % 65536 ∧
       t.zone.lastSnapshot = s.clk.tickCount ∧ t.zone.tgDue = true ∧ t.zone.snapshot.length = 48 ∧
       u16 t.zone.snapshot 4 = s.zone.alive % 65536 ∧ u16 t.zone.snapshot 6 = s.sets.epoch % 65536 ∧
       bit (u8 t.zone.snapshot 22) 0 = t.zone.clearA ∧ bit (u8 t.zone.snapshot 22) 1 = t.zone.clearB ∧
       u8 t.zone.snapshot 23 = s.sched.inhibit.toNat ∧ t.zone.fields = s.zone.fields ∧ t = { s with zone := t.zone })) ∧
   ∀ s : State, s.netPowered = true → s.zone.tgDue = true →
     ∃ t, exec .zoneTelegramSend s = .next t ∧ t.zone.tgDue = false ∧
       (tcZone s.net.trdp = false ∨ zeroAt s.net.trdp 24 4 = true → t.net = s.net ∧ t.zone.tgSequence = s.zone.tgSequence) ∧
       (tcZone s.net.trdp = true → zeroAt s.net.trdp 24 4 = false → t.zone.tgSequence = (s.zone.tgSequence + 1) % 2 ^ 32 ∧
         (s.linkUp 0 = true → ∃ f, t.net.tx = s.net.tx ++ [f] ∧ f.kind = .zone)) ∧
       t.zone.clearA = s.zone.clearA ∧ t.zone.clearB = s.zone.clearB ∧
       t = { s with zone := t.zone, net := t.net, integrity := t.integrity }) ∧
  (∀ (view cell : Nat) (z : ZoneCell) (s : State), s.zone.cells.find? (fun y => y.view == view && y.cell == cell) = some z →
     (s.clk.tickCount ≤ z.last + 1280000 ∨ (∃ c ∈ s.sched.cells, c.view = view ∧ c.cell = cell ∧ c.epoch = z.epoch) →
       exec (.fieldDeadline view cell) s = .next s) ∧
     (z.last + 1280000 < s.clk.tickCount → (∀ c ∈ s.sched.cells, ¬ (c.view = view ∧ c.cell = cell ∧ c.epoch = z.epoch)) →
       ∃ t, exec (.fieldDeadline view cell) s = .next t ∧ t.sched = { s.sched with fieldLate := true } ∧
         t = { s with zone := t.zone, sched := t.sched } ∧
         ∀ (v : ViewDef) (n : Nat) (p : List Byte), s.viewIn z.epoch z.view = some v → z.results = [] →
           (n, p) ∈ (s.setOf z.epoch).fields → contributes v n p = true → overlaps p v z.cell = true → n ∉ z.decided →
           s.sameField z.epoch n = true → s.fieldState n = some .clear →
           t.fieldState n = some .unknown ∧
           (n < 16 → s.sets.active.zoneMap.testBit n = true → t.zone.clearA = false ∧ t.zone.clearB = false)))


/-! ## Emission (chapter 8) -/

/-- R217, R218, R219, R240. WAVE_LOAD leaves the slot as it is and waits for a gap of its core; WAVE_TRANSFER in a gap writes exactly
that slot, with the charge that the table in use gives and OVER or LOADED by it, and answers with the charge in pJ; outside a gap
it waits; WAVE_READ returns a slot's 528 bytes and changes nothing.
Where the spec is open it rests on log entry 75. -/
def Obligations.SlotWritesWaitForAGap : Prop :=
  (∀ (c : Cmd) (s : State), Accepted waveLoadInfo c s →
    let p := c.payload
    let e := u8 p 0
    e < s.emission.emitters.length →
    (waveClear p = false → ∃ t, exec (.waveLoad c) s = .next t ∧
      t.emitter e = { s.emitter e with transfers := (s.emitter e).transfers ++
        [{ slot := u8 p 1, new := { st := .loaded, range2 := bit (u8 p 2) 0, codeId := u8 p 3,
                                    samples := (List.range 256).map fun i => u16 p (16 + 2 * i), charge := 0 },
           persist := bit (u8 p 2) 2, cmd := c }] } ∧
      EmitterOnly e s t ∧ t.host.waiting = s.host.waiting ∧ HostKept c s t ∧
      t = { s with host := t.host, emission := t.emission }) ∧
    (waveClear p = true → ∃ t, exec (.waveLoadClear c) s = .next t ∧
      t.emitter e = { s.emitter e with transfers := (s.emitter e).transfers ++
        [{ slot := u8 p 1, new := Slot.empty, persist := bit (u8 p 2) 2, cmd := c }] } ∧
      EmitterOnly e s t ∧ t.host.waiting = s.host.waiting ∧ HostKept c s t ∧
      t = { s with host := t.host, emission := t.emission })) ∧
  (∀ (e n : Nat) (x : Transfer) (s : State), e < s.emission.emitters.length → n < (s.emitter e).slots.length →
    (s.emitter e).transfers.find? (·.slot == n) = some x →
    let q := slotCharge s.emission.table e x.new.samples x.new.range2
    (s.inGap e = true → x.persist = false → ∃ t, exec (.waveTransfer e n) s = .next t ∧
      t.slot e n = (if x.new.st = .empty then Slot.empty else
        { x.new with charge := q,
                     st := if !rowEmits s.emission.table e || s.overLimit e 0 q then .slotOver else .loaded }) ∧
      (∀ m, m ≠ n → t.slot e m = s.slot e m) ∧ (t.emitter e).transfers = (s.emitter e).transfers.erase x ∧
      (t.emitter e).out = (s.emitter e).out ∧ EmitterOnly e s t ∧
      Finished 0x0401 x.cmd (s.block 0 0 (chargePj (t.slot e n).charge)) [] s t ∧
      t = { s with host := t.host, emission := t.emission }) ∧
    (s.inGap e = false → exec (.waveTransfer e n) s = .next s)) ∧
  (∀ (c : Cmd) (s : State), Accepted waveReadInfo c s →
    let e := u8 c.payload 0
    let k := s.slot e (u8 c.payload 1)
    ∃ t d, exec (.waveRead c) s = .next t ∧ Finished 0x0402 c (s.block 0 0 (chargePj k.charge)) d s t ∧
      t = { s with host := t.host } ∧ d.length = 528 ∧ u8 d 0 = e ∧ u8 d 1 = u8 c.payload 1 ∧
      u8 d 4 = k.st.code ∧ u32 d 8 = chargePj k.charge % 2 ^ 32 ∧
      (∀ i, i < 256 → u16 d (16 + 2 * i) = k.samples.getD i 0 % 65536))

/-- R224, R225, R90. WAVE_FADE waits for its first shot, behind commits accepted before it for their swaps, and touches no slot; after
shot N
FADE_COPY writes DST's samples into SRC in a gap, leaves every other slot, and answers with N.
Where the spec is open it rests on log entry 79. -/
def Obligations.FadeEndsWithItsDestination : Prop :=
  (∀ (c : Cmd) (s : State), Accepted waveFadeInfo c s →
    let p := c.payload
    let e := u8 p 4
    e < s.emission.emitters.length →
    ∃ t f, exec (.waveFade c) s = .next t ∧ t.emitter e = { s.emitter e with fade := some f } ∧ f.cmd = c ∧
      f.view = u32 p 0 ∧ f.src = u8 p 5 ∧ f.dst = u8 p 6 ∧ f.n = u8 p 7 ∧ f.i = 0 ∧
      f.waitSwap = s.swapsAhead c ∧
      EmitterOnly e s t ∧ t.host.waiting = s.host.waiting ∧ HostKept c s t ∧
      t = { s with host := t.host, emission := t.emission }) ∧
  (∀ (e : Nat) (f : Fade) (s : State), e < s.emission.emitters.length → (s.emitter e).fade = some f →
    f.src < (s.emitter e).slots.length → f.src ≠ f.dst →
    (f.n ≤ f.i → f.waitSwap = 0 → s.inGap e = true → (s.slot e f.dst).st ≠ .empty →
      ∃ t, exec (.fadeCopy e) s = .next t ∧ (t.slot e f.src).samples = (s.slot e f.dst).samples ∧
        (t.slot e f.src).charge = slotCharge s.emission.table e (s.slot e f.dst).samples (s.slot e f.dst).range2 ∧
        (∀ m, m ≠ f.src → t.slot e m = s.slot e m) ∧ (t.emitter e).fade = none ∧ EmitterOnly e s t ∧
        Finished 0x0403 f.cmd (s.block 0 0 f.n) [] s t ∧ t = { s with host := t.host, emission := t.emission }) ∧
    (f.i < f.n ∨ f.waitSwap ≠ 0 ∨ s.inGap e = false → exec (.fadeCopy e) s = .next s))

/-- R221, R222, R228, R234. EMIT_DIRECT plays its code from now for DURATION ticks, a change of range kept with the code before it; a play
in progress has completed with OK, RESULT the ticks it played. On an emitter that is FAULTED or whose row permits no emission it plays
nothing and ends with ST_FAULT_EMISSION 0x03; STOP parks a running play, which completes with OK and the ticks it played ahead of the
STOP, and completes at once on an emitter that plays nothing; at DURATION the play ends with RESULT its ticks, and the output drives its
park code, in the hold state where its core's
domain sleeps; when a level or the PULSE accumulator has reached its effective limit, LEDGER is registered with that row and window
and every emitter parks. R223, R221, R225, R241. A short parks its emitter and marks it FAULTED: its direct play and its fade end
with ST_FAULT_EMISSION, none of its shots already fixed fires, no inhibit cause is registered and the other emitters go on;
EMIT_STATUS clears what its masks name and reports 64 bytes, INHIBIT_LIVE as RESULT.
Where the spec is open it rests on log entries 72, 75, 137. -/
def Obligations.DirectPlaysEndAndShortsPark : Prop :=
  ((∀ (c : Cmd) (s : State), Accepted emitDirectInfo c s →
     let p := c.payload
     let e := u8 p 0
     bit (u8 p 1) 1 = false → (s.emitter e).faulted = false → rowEmits s.emission.table e = true → e < s.emission.emitters.length →
     let x := (s.settle e).emitter e
     let x2 := bit (u8 p 1) 0
     let kept : Option RangeChange := if x.range2 = x2 then x.change else some { before := x.lastCode, start := s.clk.tickCount }
     ∃ t, exec (.emitDirect c) s = .next t ∧
       t.emitter e = { x with out := .direct (u16 p 2) x2 s.clk.tickCount (u32 p 4) 0 c, pulse := 0, change := kept } ∧
       EmitterOnly e (s.settle e) t ∧
       ((∀ code x2 start dur done old, x.out ≠ .direct code x2 start dur done old) →
         t.host.waiting = s.host.waiting ∧ HostKept c s t) ∧
       (∀ code x2 start dur done old, (s.emitter e).out = .direct code x2 start dur done old →
         Answered 0x0405 old (s.block 0 0 (min dur (s.clk.tickCount - start))) [] s t) ∧
       t = { s with host := t.host, emission := t.emission }) ∧
   (∀ (c : Cmd) (s : State), Accepted emitDirectInfo c s →
     let e := u8 c.payload 0
     bit (u8 c.payload 1) 1 = false → (s.emitter e).faulted = true ∨ rowEmits s.emission.table e = false →
     ∃ t, exec (.emitDirect c) s = .next t ∧ Finished 0x0405 c (s.block 0x25 3 0) [] s t ∧ t = { s with host := t.host }) ∧
   (∀ (c : Cmd) (s : State), Accepted emitDirectInfo c s →
     let e := u8 c.payload 0
     bit (u8 c.payload 1) 1 = true →
     ((s.emitter e).out.lit = false → ∃ t, exec (.emitDirectStop c) s = .next t ∧ Finished 0x0405 c (s.block 0 0 0) [] s t ∧
       t = { s with host := t.host }) ∧
     (∀ code x2 start dur done old, (s.emitter e).out = .direct code x2 start dur done old → e < s.emission.emitters.length →
       ∃ t r1 r2, exec (.emitDirectStop c) s = .next t ∧
         (t.emitter e).out = (if s.coreAwake e then .park (s.emitter e).park else .hold (s.emitter e).park) ∧
         (∀ k, k ≠ e → t.emitter k = s.emitter k) ∧ t.host.waiting = s.host.waiting ++ [r1, r2] ∧ r1.tag = old.tag ∧
         r1.block = s.block 0 0 (min dur (s.clk.tickCount - start)) ∧ r2.tag = c.tag ∧ r2.block = s.block 0 0 0 ∧
         t = { s with host := t.host, emission := t.emission })) ∧
   (∀ (e code start dur done : Nat) (x2 : Bool) (cmd : Cmd) (s : State), e < s.emission.emitters.length →
     (s.emitter e).out = .direct code x2 start dur done cmd →
     (start + dur ≤ s.clk.tickCount → ∃ t, exec (.directPlayEnd e) s = .next t ∧
       (t.emitter e).out = (if s.coreAwake e then .park (s.emitter e).park else .hold (s.emitter e).park) ∧
       (∀ k, k ≠ e → t.emitter k = s.emitter k) ∧
       Finished 0x0405 cmd (s.block 0 0 dur) [] s t ∧ t = { s with host := t.host, emission := t.emission }) ∧
     (s.clk.tickCount < start + dur → exec (.directPlayEnd e) s = .next s) ∧
     (∀ r w, s.settleAll.directLimit e = some (r, w) → s.emission.emitters.length = 16 →
       ∃ t, exec (.directPlayLedgerLimit e) s = .next t ∧ t.sched.inhibit.getLsbD 1 = true ∧ t.emission.ledgerRow = r ∧
         t.emission.ledgerWindow = w ∧ t.emission.ledgerSeen = true ∧
         t.emission.exhaustTotal = satInc 32 s.emission.exhaustTotal ∧ (s.inhibited = false → Dark t)) ∧
     (s.settleAll.directLimit e = none →
       ∃ t, exec (.directPlayLedgerLimit e) s = .next t ∧ t.sched = s.sched ∧ t.host = s.host))) ∧
  ((∀ (e : Nat) (s : State), e < 16 → e < s.emission.emitters.length →
     ∃ t, exec (.emitterShort e) s = .next t ∧ (t.emitter e).faulted = true ∧ (t.emitter e).short = true ∧
       (t.emitter e).out.lit = false ∧ (t.emitter e).fade = none ∧ (∀ k, k ≠ e → t.emitter k = s.emitter k) ∧
       t.sched.inhibit = s.sched.inhibit ∧ t.sched.current.getD e none = none ∧
       (∀ d ∈ t.sched.queue, d ∈ s.sched.queue ∧ (d.emitter = e → d.fixed = false)) ∧
       (∀ code x2 start dur done cmd, (s.emitter e).out = .direct code x2 start dur done cmd →
         (s.emitter e).fade = none →
         Answered 0x0405 cmd (s.block 0x25 3 (min dur (s.clk.tickCount - start))) [] s t) ∧
       t = { s with host := t.host, emission := t.emission, health := t.health, sched := t.sched, fabric := t.fabric,
                    returns := t.returns, zone := t.zone }) ∧
   (∀ (c : Cmd) (s : State), Accepted emitStatusInfo c s → s.emission.emitters.length = 16 → s.emission.reservoirs.length = 4 →
     ∃ t d, exec (.emitStatus c) s = .next t ∧ Finished 0x040A c (s.block 0 0 t.sched.inhibit.toNat) d s t ∧ d.length = 64 ∧
       u8 d 0 = t.sched.inhibit.toNat ∧ u8 d 4 = t.emission.ledgerRow % 256 ∧
       (bit (u16 c.payload 0) 4 = true → t.emission.ledgerSeen = false) ∧
       (bit (u16 c.payload 0) 5 = true → t.emission.slotOverSeen = false) ∧
       (∀ e, e < 16 → (t.emitter e).out = (s.emitter e).out ∧
         ((u16 c.payload 2).testBit e = true →
           (t.emitter e).short = false ∧ (t.emitter e).slotEcc = false ∧
           ((t.emitter e).faulted = true ↔ (s.emitter e).faulted = true ∧ s.coreGone e = true)) ∧
         ((u16 c.payload 2).testBit e = false → t.emitter e = s.emitter e)) ∧
       t = { s with host := t.host, emission := t.emission, sched := t.sched, health := t.health }))

/-- R236. The unlock of the ledger: STEP 0 draws an 8-byte challenge (a free value, for every value of it) and returns it with
the table's generation; STEP 1 with the right response opens the unlock from now and sets the count of wrong ones back; any
other STEP 1 is rejected, on receipt or when its turn of acceptance comes, with ST_LOCKED 0x03, consumes its sequence number, uses the
challenge up, sets UNLOCK_FAIL and counts, and the third in a row locks STEP 0 out from now; a challenge serves one response, an
unlock one accepted command that needs it or LEDGER_WRITE, both used up by acceptance; the unlock ends 10 s after it opened and the
lockout 60 s after it began, not before. R235, R215, R241, R426, R428. A LEDGER_WRITE that raises a value, a commit of a guarded
record and a key's replacement are accepted only with an open unlock; LEDGER_WRITE asks for the store of the ledger record, while the
table in use and every level stand; PARK_SET asks for the store of the DAC
record, every park code standing; LEDGER_READ with SEL 0 returns the 608-byte table in use.
Where the spec is open it rests on log entries 11, 12, 76, 77. -/
def Obligations.LedgerIsWrittenUnderItsUnlock : Prop :=
  ((∀ (c : Cmd) (s : State), Accepted unlockInfo c s → u8 c.payload 0 = 0 →
     ∃ t, exec (.ledgerUnlockChallenge c) s = .next t ∧
       t.emission = { s.emission with unlock := { s.emission.unlock with
         challenge := some (le 8 (Config.free s.free), s.clk.now) } } ∧ t.free = s.free + 1 ∧
       Finished 0x0406 c (s.block 0 0 0) (le 8 (Config.free s.free) ++ le 4 s.emission.tableGen ++ zeros 4) s t ∧
       t = { s with host := t.host, emission := t.emission, free := t.free }) ∧
   (∀ (c : Cmd) (s : State), Accepted unlockInfo c s → u8 c.payload 0 = 1 →
     ∃ t, exec (.ledgerUnlockResponse c) s = .next t ∧
       t.emission = { s.emission with unlock := { s.emission.unlock with openAt := some s.clk.now } } ∧
       Finished 0x0406 c (s.block 0 0 0) [] s t ∧ t = { s with host := t.host, emission := t.emission }) ∧
   (∀ (b : List Byte) (s : State),
     let via : Via := { transport := .spi, sqIndex := 0xFFFF, route := { addr := 0, port := 0, session := [] } }
     let c := pkCmd via b
     let k := s.queue c.queue
     s.spiUp = true → s.host.spi.rx = none → b.length ≤ 4100 → s.mayTake .spi b = true → GoodPacket none via b s → InTurn c s →
     pkOpcode b = 0x0406 → u8 c.payload 0 = 1 → c.payload.length = 32 → zeroAt c.payload 1 15 = true →
     s.goodResponse c.payload = false →
     s.liveOf c = none →
     ∃ t, exec (.spiWritePacket b) s = .next t ∧
       t.host.checked = s.host.checked ++ [{ opcode := 0x0406, cmd := c, rejection := some (0x16, 3) }] ∧
       (t.queue c.queue).nextSeq = k.nextSeq ∧ (t.queue c.queue).tags = k.tags ++ [c.tag] ∧
       (∀ p, p ≠ c.queue → t.queue p = s.queue p) ∧
       t = { s with host := { s.host with checked := t.host.checked, queues := t.host.queues }, integrity := t.integrity }) ∧
   (∀ (q : Nat) (rb : ReadBack) (k : Checked) (s : State),
     let c := k.cmd
     s.executes = true → s.host.journal.acceptStopped = false → s.nextChecked q = some k → q < s.host.queues.length →
     rb.a1 = true ∨ rb.a2 = true → rb.b1 = true ∨ rb.b2 = true → s.host.journal.bankA.inService = true →
     s.host.journal.bankB.inService = true → (s.queue q).held = [] →
     let accepted (t : State) : Prop := exec (.journalAccept q rb) s = .next t ∧ t.host.journal.live.any (Live.isOf c) = true ∧
       (t.queue q).nextSeq = ((s.queue q).nextSeq + 1) % 2 ^ 32
     let refused (t : State) : Prop := exec (.journalAccept q rb) s = .next t ∧ t.host.journal.live = s.host.journal.live ∧
       (t.queue q).nextSeq = ((s.queue q).nextSeq + 1) % 2 ^ 32 ∧ Answered k.opcode c (s.block 0x16 3 0) [] s t
     let wrong := s.emission.unlock.wrong + 1
     (k.opcode = 0x0406 → u8 c.payload 0 = 1 → c.unseq = false → k.rejection = some (0x16, 3) → ∃ t, refused t ∧
       t.emission = { s.emission with unlock := { s.emission.unlock with
         challenge := none, wrong := wrong, failSeen := true,
         lockoutAt := if 3 ≤ wrong then some s.clk.now else s.emission.unlock.lockoutAt } }) ∧
     (k.rejection = none → k.opcode = 0x0406 → u8 c.payload 0 = 1 →
       (s.goodResponse c.payload = true → ∃ t, accepted t ∧
         t.emission = { s.emission with unlock := { s.emission.unlock with challenge := none, wrong := 0 } }) ∧
       (s.goodResponse c.payload = false → ∃ t, refused t ∧
         t.emission = { s.emission with unlock := { s.emission.unlock with
           challenge := none, wrong := wrong, failSeen := true,
           lockoutAt := if 3 ≤ wrong then some s.clk.now else s.emission.unlock.lockoutAt } })) ∧
     let needs := (k.opcode = 0x0407 ∧ raises s.emission.table (fit 608 (c.payload.drop 16)) = true) ∨
       (k.opcode = 0x0B04 ∧ guarded (u16 c.payload 0) = true ∧ s.recordPresent 3 = true) ∨
       (k.opcode = 0x0B06 ∧ s.recordPresent 3 = true)
     (k.rejection = none → needs → (s.unlockOpen = true → ∃ t, accepted t ∧
         t.emission = { s.emission with unlock := { s.emission.unlock with openAt := none } }) ∧
       (s.unlockOpen = false → ∃ t, refused t ∧ t.emission = s.emission)) ∧
     (k.rejection = none → k.opcode = 0x0407 → ¬ needs → ∃ t, accepted t ∧
       t.emission = { s.emission with unlock := { s.emission.unlock with openAt := none } })) ∧
   (∀ (t0 : Nat) (s : State), s.emission.unlock.openAt = some t0 →
     (t0 + 10 * 1280000000 ≤ s.clk.now → exec .unlockExpire s =
       .next { s with emission := { s.emission with unlock := { s.emission.unlock with openAt := none } } }) ∧
     (s.clk.now < t0 + 10 * 1280000000 → exec .unlockExpire s = .next s)) ∧
   (∀ (t0 : Nat) (s : State), s.emission.unlock.lockoutAt = some t0 →
     (t0 + 60 * 1280000000 ≤ s.clk.now → exec .unlockLockoutEnd s =
       .next { s with emission := { s.emission with unlock := { s.emission.unlock with lockoutAt := none } } }) ∧
     (s.clk.now < t0 + 60 * 1280000000 → exec .unlockLockoutEnd s = .next s))) ∧
  ((∀ (c : Cmd) (s : State), Accepted ledgerWriteInfo c s → raises s.emission.table (fit 608 (c.payload.drop 16)) = true →
     c.via.transport ≠ .trdp) ∧
   (∀ (c : Cmd) (s : State), Accepted ledgerWriteInfo c s → (∀ a ∈ s.health.queue, a.recId = 5 → a.scope ≠ 0x30) →
     u32 c.payload 0 = s.emission.tableGen ∧
     ∃ t, exec (.ledgerWrite c) s = .next t ∧
       t.health = { s.health with queue := s.health.queue ++
         [{ code := 7, scope := 0x30, target := 0, row := 0, recId := 5, format := 1,
            data := some (fit 608 (c.payload.drop 16)), cmds := [(0x0407, c)], retest := false, start := none }] } ∧
       t.host.waiting = s.host.waiting ∧ HostKept c s t ∧ t = { s with host := t.host, health := t.health }) ∧
   (∀ (c : Cmd) (s : State), Accepted parkSetInfo c s → (∀ a ∈ s.health.queue, a.recId = 6 → a.scope ≠ 0x30) →
     ∃ t, exec (.parkSet c) s = .next t ∧
       t.health = { s.health with queue := s.health.queue ++
         [{ code := 7, scope := 0x30, target := 0, row := 0, recId := 6, format := 1, data := none,
            cmds := [(0x0404, c)], retest := false, start := none }] } ∧
       t.host.waiting = s.host.waiting ∧ HostKept c s t ∧ t = { s with host := t.host, health := t.health }) ∧
   (∀ (c : Cmd) (s : State), Accepted ledgerReadInfo c s → u8 c.payload 0 = 0 →
     ∃ t, exec (.ledgerRead c) s = .next t ∧
       Finished 0x0408 c (s.block 0 0 s.emission.tableGen) s.emission.table s t ∧ t = { s.settleAll with host := t.host }) ∧
   (∀ (c : Cmd) (s : State), Accepted ledgerReadInfo c s → u8 c.payload 0 = 1 →
     ∃ t d, exec (.ledgerRead c) s = .next t ∧ Finished 0x0408 c (s.block 0 0 s.emission.tableGen) d s t ∧
       d.length = 288 ∧ u32 d 0 = s.emission.tableGen % 2 ^ 32 ∧ u8 d 4 = s.emission.headroom % 256 ∧
       t = { s.settleAll with host := t.host, free := t.free }))

/-- R227, Table 8.4. LEDGER_BUCKET_EDGE: what the outputs have driven is charged (`State.settleAll`); then, once per bucket length, the
bucket after the current one becomes
the current one and empty in every row, the other windows stand; before the edge nothing happens.
Where the spec is open it rests on log entries 4, 72. -/
def Obligations.BucketEdgeEmptiesTheOldestBucket : Prop :=
  ∀ s : State,
    (∀ w, w = 1 ∨ w = 2 ∨ w = 3 →
      (s.clk.tickCount / bucketTicks w ≤ s.emission.edges.getD (w - 1) 0 → exec (.ledgerBucketEdge w) s = .next s)) ∧
    (s.emission.edges.getD 0 0 < s.clk.tickCount / 100 →
      ∃ t, exec (.ledgerBucketEdge 1) s = .next t ∧ t.emission.cur5 = (s.emission.cur5 + 1) % 65 ∧
        t.emission.rows = s.settleAll.emission.rows.map (fun r => { r with w5 := r.w5.set t.emission.cur5 0 }) ∧
        t.emission.cur100 = s.emission.cur100 ∧ t.emission.cur10 = s.emission.cur10 ∧
        t.emission.emitters = s.settleAll.emission.emitters ∧
        t = { s with emission := t.emission, sched := t.sched }) ∧
    (s.emission.edges.getD 1 0 < s.clk.tickCount / 1280000 →
      ∃ t, exec (.ledgerBucketEdge 2) s = .next t ∧ t.emission.cur100 = (s.emission.cur100 + 1) % 101 ∧
        t.emission.rows = s.settleAll.emission.rows.map (fun r => { r with w100 := r.w100.set t.emission.cur100 0 }) ∧
        t.emission.cur5 = s.emission.cur5 ∧ t.emission.cur10 = s.emission.cur10 ∧
        t = { s with emission := t.emission, sched := t.sched }) ∧
    (s.emission.edges.getD 2 0 < s.clk.tickCount / 128000000 →
      ∃ t, exec (.ledgerBucketEdge 3) s = .next t ∧ t.emission.cur10 = (s.emission.cur10 + 1) % 101 ∧
        t.emission.rows = s.settleAll.emission.rows.map (fun r => { r with w10 := r.w10.set t.emission.cur10 0 }) ∧
        t.emission.cur5 = s.emission.cur5 ∧ t.emission.cur100 = s.emission.cur100 ∧
        t = { s with emission := t.emission, sched := t.sched })

/-- R232, R233, R194, R473. The enable inputs and the scan speed: an input takes a level 25 ns or more after its last change; an edge that
leaves either input low registers EMIT_EN, and from then on no emitter plays, and any other changes the inputs alone; EMIT_EN clears when
both have been high for 10 ms without EN_DISCREPANCY; 50 ms of different levels set EN_DISCREPANCY, and only both inputs low for 10 ms
clear it; SPEED_LOW clears after 64 updates at or above 65/64 of the minimum.
A cause that clears leaves every other cause.
Where the spec is open it rests on log entries 4, 156. -/
def Obligations.EnableInputsGateEmission : Prop :=
  (∀ (a b : Bool) (s : State),
    let m := s.emission
    let settled (at_ : Option Nat) : Bool := at_.all fun n => decide (n + 32 ≤ s.clk.now)
    let p := if a != m.enA && !settled m.enAtA then m.enA else a
    let q := if b != m.enB && !settled m.enAtB then m.enB else b
    let since (h : Bool) (o : Option Nat) : Option Nat := if h then some (o.getD s.clk.now) else none
    let n := { m with enA := p, enB := q, enHighSince := since (p && q) m.enHighSince,
                      enLowSince := since (!p && !q) m.enLowSince, enDiffSince := since (p != q) m.enDiffSince,
                      enAtA := if p = m.enA then m.enAtA else some s.clk.now,
                      enAtB := if q = m.enB then m.enAtB else some s.clk.now }
    (m.enEval = true → (p && q) = false → m.emitters.length = 16 →
      ∃ t, exec (.emitEnEdge a b) s = .next t ∧ t.emission.enA = p ∧ t.emission.enB = q ∧ t.emission.enLowSince = n.enLowSince ∧
        t.emission.enDiffSince = n.enDiffSince ∧ t.emission.enHighSince = none ∧
        t.sched.inhibit = s.sched.inhibit ||| 0x10#6 ∧ (s.inhibited = false → Dark t ∧ t.sched.queue = [])) ∧
    (m.enEval = false ∨ (p && q) = true → exec (.emitEnEdge a b) s = .next { s with emission := n })) ∧
  (∀ (t0 : Nat) (s : State), s.emission.enEval = true → s.emission.enHighSince = some t0 → t0 + 10 * 1280000 ≤ s.clk.now →
    s.emission.enDiscrepancy = false → s.sched.inhibit.getLsbD 4 = true →
    ∃ t, exec .emitEnClear s = .next t ∧ t.sched.inhibit.getLsbD 4 = false ∧
      (∀ b, b < 6 → b ≠ 4 → t.sched.inhibit.getLsbD b = s.sched.inhibit.getLsbD b) ∧
      t = { s with sched := { s.sched with inhibit := t.sched.inhibit, resumeAt := t.sched.resumeAt } }) ∧
  (∀ (t0 : Nat) (s : State), s.emission.enHighSince = some t0 → s.clk.now < t0 + 10 * 1280000 →
    exec .emitEnClear s = .next s) ∧
  (∀ (t0 : Nat) (s : State), s.emission.enEval = true → s.emission.enDiffSince = some t0 → t0 + 50 * 1280000 ≤ s.clk.now →
    exec .enDiscrepancy s = .next { s with emission := { s.emission with enDiscrepancy := true } }) ∧
  (∀ (t0 : Nat) (s : State), s.emission.enLowSince = some t0 → t0 + 10 * 1280000 ≤ s.clk.now →
    exec .enDiscrepancyClear s = .next { s with emission := { s.emission with enDiscrepancy := false } }) ∧
  (∀ s : State, s.emission.enLowSince = none → exec .enDiscrepancyClear s = .next s) ∧
  (∀ s : State, 64 ≤ s.emission.speedCount → s.sched.inhibit.getLsbD 3 = true →
    ∃ t, exec .speedLowClear s = .next t ∧ t.sched.inhibit.getLsbD 3 = false ∧
      (∀ b, b < 6 → b ≠ 3 → t.sched.inhibit.getLsbD b = s.sched.inhibit.getLsbD b) ∧
      t = { s with sched := { s.sched with inhibit := t.sched.inhibit, resumeAt := t.sched.resumeAt } }) ∧
  (∀ s : State, s.emission.speedCount < 64 → exec .speedLowClear s = .next s)

/-- R237, R238. The reservoirs: RES_CONFIG sets one reservoir's enable and V_SET; a sample sets the voltage and drives RES_CTL high
below 63/64 of V_SET and low at V_SET; 10 µs above 17/16 of V_SET drive RES_CTL low, set RES_OVER and register LEDGER with row
0xFE; 10 ms below three quarters while charging set RES_LOW and nothing else.
Where the spec is open it rests on log entries 4, 78, 137. -/
def Obligations.ReservoirsStayWithinBudget : Prop :=
  (∀ (c : Cmd) (s : State), Accepted resConfigInfo c s →
    let p := c.payload
    let k := u8 p 0
    k < s.emission.reservoirs.length →
    ∃ t, exec (.resConfig c) s = .next t ∧ (t.reservoir k).enabled = bit (u8 p 1) 0 ∧ (t.reservoir k).vSet = u16 p 2 ∧
      (t.reservoir k).resOver = (s.reservoir k).resOver ∧ (bit (u8 p 1) 0 = false → (t.reservoir k).ctl = false) ∧
      (∀ j, j ≠ k → t.reservoir j = s.reservoir j) ∧
      t.emission = { s.emission with reservoirs := t.emission.reservoirs } ∧ Finished 0x0409 c (s.block 0 0 0) [] s t ∧
      t = { s with host := t.host, emission := t.emission }) ∧
  (∀ (k mv : Nat) (s : State), k < s.emission.reservoirs.length →
    let v := mv * ltResDiv s.emission.table k
    let set := 1600 * (s.reservoir k).vSet
    ∃ t, exec (.resMonSample k mv) s = .next t ∧ (t.reservoir k).volt = v / 1600 ∧
      ((s.reservoir k).enabled = true → (s.reservoir k).resOver = false → v * 64 < set * 63 → (t.reservoir k).ctl = true) ∧
      (set ≤ v → (t.reservoir k).ctl = false) ∧ ((s.reservoir k).enabled = false → (t.reservoir k).ctl = false) ∧
      (∀ j, j ≠ k → t.reservoir j = s.reservoir j) ∧ t = { s with emission := t.emission } ∧
      t.emission = { s.emission with reservoirs := t.emission.reservoirs }) ∧
  (∀ (k t0 : Nat) (s : State), k < s.emission.reservoirs.length → (s.reservoir k).overSince = some t0 →
    t0 + 12800 ≤ s.clk.now → (s.reservoir k).resOver = false → s.emission.emitters.length = 16 →
    ∃ t, exec (.resOver k) s = .next t ∧ (t.reservoir k).ctl = false ∧ (t.reservoir k).resOver = true ∧
      t.emission.ledgerRow = 0xFE ∧ t.sched.inhibit = s.sched.inhibit ||| 0x02#6 ∧ (s.inhibited = false → Dark t)) ∧
  (∀ (k t0 : Nat) (s : State), k < s.emission.reservoirs.length → (s.reservoir k).lowSince = some t0 →
    t0 + 10 * 1280000 ≤ s.clk.now →
    ∃ t, exec (.resLow k) s = .next t ∧ t.reservoir k = { s.reservoir k with low := true } ∧
      (∀ j, j ≠ k → t.reservoir j = s.reservoir j) ∧ t = { s with emission := { s.emission with reservoirs := t.emission.reservoirs } })


/-! ## SiPM bias, channel tests and spare front ends (chapter 9) -/

/-- R252, R253, R254, R262. While ENABLE is 1 the target is computed every 100 ms from the temperature in use, held to V_MIN and V_MAX,
and not computed
without a valid temperature; HVB_SET moves towards the target's code every 100 µs within the slew allowance and never beyond it;
5 ms within 50 mV end BIAS_UNSETTLED and complete the waiting BIAS_CONFIG, with ST_FAULT_RECEIVE 1 when the target is clamped, with
PERSIST only once its record is stored; 1 s
without a valid reading holds the temperature, and ends a BIAS_CONFIG that never had one with DETAIL 2; 1 s of wrong monitor readings
is a fault that sets 0 V and ends the command with DETAIL 3. BIAS_CONFIG replaces the settings and clears a fault when it enables.
Where the spec is open it rests on log entries 80, 81. -/
def Obligations.BiasFollowsItsTarget : Prop :=
  (∀ s : State, s.bias.cmd = none →
    let due := bcEnable s.bias.image = true ∧ s.bias.computeAt + 128000000 ≤ s.clk.now
    (¬ due → exec .biasTargetCompute s = .next s) ∧
    (due → s.biasTempOk = false → exec .biasTargetCompute s = .next (s.onBias fun b => { b with computeAt := s.clk.now })) ∧
    (due → s.biasTempOk = true → ∃ t, exec .biasTargetCompute s = .next t ∧
      let v := clampInt (10000 * u16 s.bias.image 10) (10000 * u16 s.bias.image 12) s.biasWanted
      t.bias.target = v.toNat ∧ t.bias.targetValid = true ∧ t.bias.clamped = (v != s.biasWanted) ∧ t.bias.hvb = s.bias.hvb ∧
      t = { s with returns := { s.returns with bias := { s.bias with
        target := t.bias.target, targetValid := true, clamped := t.bias.clamped, computeAt := s.clk.now,
        unsettled := t.bias.unsettled, within50At := t.bias.within50At } } })) ∧
  (∀ s : State, s.bias.cmd = none →
    let due := s.bias.fault = false ∧ s.bias.stepAt + 128000 ≤ s.clk.now ∧ (s.biasDown = true ∨ s.bias.targetValid = true)
    (¬ due → exec .biasStep s = .next s) ∧
    (due → ∃ t, exec .biasStep s = .next t ∧ t.bias.stepAt = s.clk.now ∧
      (s.bias.hvb ≤ s.biasCode → s.bias.hvb ≤ t.bias.hvb ∧ t.bias.hvb ≤ s.biasCode ∧
        (t.bias.hvb - s.bias.hvb) * codeCost s.bias.image ≤ s.bias.allowance + u16 s.bias.image 16 * 100 * 2 ^ 20) ∧
      (s.biasCode ≤ s.bias.hvb → s.biasCode ≤ t.bias.hvb ∧ t.bias.hvb ≤ s.bias.hvb ∧
        (s.bias.hvb - t.bias.hvb) * codeCost s.bias.image ≤ s.bias.allowance + u16 s.bias.image 16 * 100 * 2 ^ 20) ∧
      t = { s with returns := { s.returns with bias := { s.bias with
        hvb := t.bias.hvb, allowance := t.bias.allowance, stepAt := t.bias.stepAt, unsettled := t.bias.unsettled,
        within50At := t.bias.within50At } } })) ∧
  (∀ s : State,
    ((s.bias.unsettled = false ∨ s.bias.within50At = none) → exec .biasSettled s = .next s) ∧
    ∀ t0, s.bias.unsettled = true → s.bias.within50At = some t0 →
      (s.clk.now < t0 + 6400000 → exec .biasSettled s = .next s) ∧
      (t0 + 6400000 ≤ s.clk.now → s.bias.cmd = none →
        exec .biasSettled s = .next (s.onBias fun b => { b with unsettled := false, within50At := none })) ∧
      (∀ c, t0 + 6400000 ≤ s.clk.now → s.bias.cmd = some c → bcEnable c.payload = true → s.bias.targetValid = true → bcPersist c.payload = false →
        ∃ t, exec .biasSettled s = .next t ∧
          Finished 0x0982 c (if s.bias.clamped then s.block 0x26 1 s.bias.tens else s.block 0 0 s.bias.tens) [] s t ∧
          t.bias = { s.bias with unsettled := false, within50At := none, cmd := none } ∧
          t = { s with host := t.host, returns := { s.returns with bias := t.bias } }) ∧
      (∀ c, t0 + 6400000 ≤ s.clk.now → s.bias.cmd = some c → bcEnable c.payload = true → s.bias.targetValid = true → bcPersist c.payload = true →
        ∃ t w, exec .biasSettled s = .next t ∧ Silent c s t ∧ w ∈ t.nvm.waits ∧ w.cmd = c ∧
          w.block = (if s.bias.clamped then s.block 0x26 1 s.bias.tens else s.block 0 0 s.bias.tens) ∧
          t.bias = { s.bias with unsettled := false, within50At := none, cmd := none } ∧
          t = { s with health := t.health, host := t.host, nvm := { s.nvm with waits := t.nvm.waits },
                       returns := { s.returns with bias := t.bias } })) ∧
  (∀ s : State,
    (∀ t0, s.bias.tempAt = some t0 →
      (s.clk.now < t0 + 1280000000 → exec .biasTempTimeout s = .next s) ∧
      (t0 + 1280000000 ≤ s.clk.now → s.bias.cmd = none ∨ s.bias.enabledAt ≤ t0 →
        exec .biasTempTimeout s = .next (s.onBias fun b => { b with tempHold := true }))) ∧
    (s.bias.tempAt = none → s.clk.now < s.bias.enabledAt + 1280000000 → exec .biasTempTimeout s = .next s) ∧
    (s.bias.tempAt = none → s.bias.enabledAt + 1280000000 ≤ s.clk.now → s.bias.cmd = none →
      exec .biasTempTimeout s = .next (s.onBias fun b => { b with tempHold := true })) ∧
    (∀ c, (∀ t0, s.bias.tempAt = some t0 → t0 < s.bias.enabledAt) → s.bias.enabledAt + 1280000000 ≤ s.clk.now →
      s.bias.cmd = some c → bcEnable c.payload = true → bcPersist c.payload = false → ∃ t, exec .biasTempTimeout s = .next t ∧
        Finished 0x0982 c (s.block 0x26 2 s.bias.tens) [] s t ∧
        t.bias = { s.bias with tempHold := true, targetValid := false, cmd := none } ∧
        t = { s with host := t.host, returns := { s.returns with bias := t.bias } })) ∧
  (∀ s : State,
    ((bcMon s.bias.image = false ∨ s.bias.fault = true ∨ s.bias.monBadSince = none) → exec .biasFault s = .next s) ∧
    ∀ t0, bcMon s.bias.image = true → s.bias.fault = false → s.bias.monBadSince = some t0 →
      (s.clk.now < t0 + 1280000000 → exec .biasFault s = .next s) ∧
      (t0 + 1280000000 ≤ s.clk.now → ∃ t, exec .biasFault s = .next t ∧ t.bias.fault = true ∧ t.bias.hvb = 0 ∧
        t.bias.image = s.bias.image ∧ t.bias.target = s.bias.target ∧ t.bias.cmd = none ∧
        (s.bias.cmd = none → t = { s with returns := { s.returns with bias := t.bias } }) ∧
        (∀ c, s.bias.cmd = some c → bcPersist c.payload = false → Finished 0x0982 c (s.block 0x26 3 0) [] s t ∧
          t = { s with host := t.host, returns := { s.returns with bias := t.bias } }))) ∧
  ∀ (c : Cmd) (s : State), Accepted biasConfigInfo c s → s.bias.cmd = none →
    (bcEnable c.payload = true → ∃ t, exec (.biasConfig c) s = .next t ∧ Silent c s t ∧ t.bias.image = c.payload ∧
      t.bias.cmd = some c ∧ t.bias.fault = false ∧ t.bias.hvb = s.bias.hvb ∧ t.bias.targetValid = false ∧
      (u8 c.payload 1 = u8 s.bias.image 1 → t.bias.tempAt = s.bias.tempAt) ∧
      t = { s with host := t.host, returns := { s.returns with bias := t.bias } }) ∧
    (bcEnable c.payload = false → bcPersist c.payload = false → s.bias.hvb = 0 → ∃ t, exec (.biasConfig c) s = .next t ∧
      t.bias.image = c.payload ∧ t.bias.cmd = none ∧ t.bias.fault = s.bias.fault ∧ t.bias.hvb = 0 ∧
      Finished 0x0982 c (s.block 0 0 0) [] s t ∧
      t = { s with host := t.host, returns := { s.returns with bias := t.bias } })

/-- R249, R256, R259, R264, Table 9.5. A conducting clamp marks an ACTIVE channel, and 65 536 windows without an edge mark it silent;
RX_STATUS clears the sticky flags its mask names and reports; the steering of a channel goes over to a prepared spare when its lane
is ready, and on a channel that a view names only with the first window of a cell.
Where the spec is open it rests on log entry 110. -/
def Obligations.ChannelTestsAndSpares : Prop :=
  (∀ (ch : Nat) (s : State), ch < s.returns.channels.length →
    ((s.channel ch).st = .active → ∃ t, exec (.rxOverload ch) s = .next t ∧ t.channel ch = { s.channel ch with overload := true } ∧
      (∀ k, k ≠ ch → t.channel k = s.channel k) ∧ t = { s with returns := { s.returns with channels := t.returns.channels } }) ∧
    ((s.channel ch).st ≠ .active → exec (.rxOverload ch) s = .next s ∧ exec (.rxSilent ch) s = .next s) ∧
    ((s.channel ch).silentWindows < 65536 → exec (.rxSilent ch) s = .next s) ∧
    ((s.channel ch).st = .active → 65536 ≤ (s.channel ch).silentWindows → ∃ t, exec (.rxSilent ch) s = .next t ∧
      t.channel ch = { s.channel ch with silent := true } ∧ (∀ k, k ≠ ch → t.channel k = s.channel k) ∧
      t = { s with returns := { s.returns with channels := t.returns.channels } })) ∧
  (∀ (c : Cmd) (s : State), Accepted rxStatusInfo c s → let ch := u8 c.payload 0
    ch < s.returns.channels.length → ∃ t d, exec (.rxStatus c) s = .next t ∧
      Finished 0x0983 c (s.block 0 0 (s.channel ch).st.code) d s t ∧
      t.channel ch = (s.channel ch).clearSticky (u16 c.payload 2) ∧ (∀ k, k ≠ ch → t.channel k = s.channel k) ∧
      t = { s with host := t.host, returns := { s.returns with channels := t.returns.channels } }) ∧
  ∀ (ch : Nat) (s : State), ch < s.returns.channels.length →
    ((s.channel ch).pendingSlot = none → exec (.frontEndSwitch ch) s = .next s) ∧
    ∀ fe, (s.channel ch).pendingSlot = some fe →
      let may := s.laneReady (laneOfFe fe) = true ∧ (s.sets.active.namesChannel ch = true → s.newCellDue ch = true)
      (¬ may → exec (.frontEndSwitch ch) s = .next s) ∧
      (may → ∃ t, exec (.frontEndSwitch ch) s = .next t ∧
        t.power.repair = { s.power.repair with feFor := s.power.repair.feFor.set ch fe } ∧
        (t.channel ch).pendingSlot = none ∧ (t.channel ch).threshFails = 0 ∧ (t.channel ch).silentWindows = 0 ∧
        (∀ a, s.health.running.find? (fun a => a.code == 0x01 && a.target == ch) = some a →
          t.health.repairsTotal = satInc 32 s.health.repairsTotal) ∧
        t = { s with clk := t.clk, health := t.health, host := t.host, power := t.power, returns := t.returns })

/-! ## Engines, trackers, weather and frames (chapters 10 to 12 and 14) -/

/-- R283, R284, R285, R288. A free engine takes its view's oldest histogram; the end of a chain frees the engine and counts, and what it
gave is released only in close order: at once at the head of its view's order, and not while an earlier one is unfinished. An
engine fault abandons the running histogram, which counts for its stream, and takes the engine out of service.
Where the spec is open it rests on log entries 38, 83. -/
def Obligations.ChainsReleaseInCloseOrder : Prop :=
  (∀ (g : Nat) (s : State), s.engineReady g = false → exec (.chainStart g) s = .next s) ∧
  (∀ (g : Nat) (s : State), g < 144 → g < s.fabric.engines.length → s.engineReady g = true → (s.engine g).leaving = [] →
    (s.engine g).assigned = true →
    let q := (s.tile (g / 18)).queue
    (∀ h, q.find? (fun x => x.view == (s.engine g).view) = some h → g / 18 < s.fabric.tiles.length →
      ∃ t, exec (.chainStart g) s = .next t ∧ t.engine g = { s.engine g with job := some (h, s.clk.now) } ∧
        (t.tile (g / 18)).queue = q.filter (·.closeSeq != h.closeSeq) ∧ (∀ k, k ≠ g → t.engine k = s.engine k) ∧
        t = { s with fabric := t.fabric }) ∧
    ((∀ h ∈ q, h.view ≠ (s.engine g).view) → exec (.chainStart g) s = .next s)) ∧
  (∀ (g start : Nat) (bad : List PassFault) (h : Hist) (v : ViewDef) (s : State), g < s.fabric.engines.length →
    (s.engine g).job = some (h, start) → s.viewIn h.epoch h.view = some v →
    ∃ t, exec (.chainEnd g bad) s = .next t ∧ (t.engine g).job = none ∧ (t.engine g).chains = satInc 32 (s.engine g).chains ∧
      (∀ k, k ≠ g → t.engine k = { s.engine k with leaving := (t.engine k).leaving }) ∧
      (∀ k, ∀ x ∈ (t.engine k).leaving, x ∈ (s.engine k).leaving) ∧
      (∀ r, s.fabric.releases = [r] → r.closeSeq = h.closeSeq → r.view = h.view → t.fabric.releases = []) ∧
      (∀ r0 r, s.fabric.releases = [r0, r] → r0.view = h.view → r0.done = false → r0.abandoned = false →
        r0.closeSeq ≠ h.closeSeq → r.closeSeq = h.closeSeq →
        t.fabric.streams = s.fabric.streams ∧ t.zone = s.zone ∧ t.net = s.net ∧
        ∃ r', t.fabric.releases = [r0, r'] ∧ r'.done = true ∧ r'.closeSeq = h.closeSeq) ∧
      t = { s with aux := t.aux, fabric := t.fabric, free := t.free, health := t.health, integrity := t.integrity, net := t.net,
                   power := t.power, returns := t.returns, zone := t.zone }) ∧
  (∀ (g : Nat) (bad : List PassFault) (s : State), (s.engine g).job = none → exec (.chainEnd g bad) s = .next s) ∧
  (∀ (g start : Nat) (stop : EngineStop) (h : Hist) (v : ViewDef) (s : State), g < s.fabric.engines.length →
    (s.engine g).job = some (h, start) → s.viewIn h.epoch h.view = some v → v.role = 0 →
    v.stream < s.fabric.streams.length →
    ∃ t, exec (.engineFault g stop) s = .next t ∧ (t.engine g).job = none ∧ (t.engine g).fault = true ∧
      (t.engine g).outOfService = true ∧ (t.engine g).abandoned = satInc 32 (s.engine g).abandoned ∧
      (t.engine g).eccUncorrected = satAdd 32 (s.engine g).eccUncorrected
        ((s.metBy h stop.faults).countP fun f => !isCorrected f.fault) ∧
      (t.stream v.stream).abandonedTotal = satInc 32 (s.stream v.stream).abandonedTotal ∧
      g ∈ t.power.repair.badEngine ∧ (∀ k, k ≠ g → t.engine k = { s.engine k with leaving := (t.engine k).leaving }) ∧
      t = { s with fabric := t.fabric, health := t.health, integrity := t.integrity, net := t.net, power := t.power,
                   returns := t.returns, zone := t.zone })

/-- R325, R326, R333. A tracker's gate closes once and not before its time, with the stamps that leave the tap by then: a seeded tracker
with too few pulses returns to idle, and a locked one counts a miss and stays locked below MISS_MAX. The weather of a tile is judged once
a second from that second's figures:
from CLEAR it takes at once the class they ask for, FOG from a half of the histograms on, and the counts start again.
Where the spec is open it rests on log entries 86, 87. -/
def Obligations.TrackersAndWeatherKeepTheirGates : Prop :=
  (∀ (k i : Nat) (p : List Byte) (x : Tracker) (s : State), k < s.fabric.rejection.length → s.governing k = some p →
    (s.rejection k).trackers[i]? = some x →
    (s.gateOver k p x = false → exec (.trackerGateClose k i) s = .next s) ∧
    (s.gateOver k p x = true → ∃ t x' y, exec (.trackerGateClose k i) s = .next t ∧ (t.rejection k).trackers[i]? = some y ∧
      ((s.releaseStamps k p (x.gateStart + fgGate p - 1)).rejection k).trackers[i]? = some x' ∧ x'.st = x.st ∧
      ((s.rejection k).tapWait = [] → x' = x) ∧
      (x'.pairs.length < u16 p 36 → x'.st = .seeded → y = { Tracker.reset with result := y.result }) ∧
      (x'.pairs.length < u16 p 36 → x'.st = .locked → x'.missed + 1 < u8 p 22 →
        y.missed = x'.missed + 1 ∧ (y.st = .locked ∨ y.st = .lockedNoBlank) ∧ y.period = x'.period) ∧
      (t.rejection k).lockOrder = (s.rejection k).lockOrder + 1 ∧ (∀ j, j ≠ k → t.rejection j = s.rejection j) ∧
      t = { s with fabric := t.fabric })) ∧
  ∀ s : State, s.fabric.rejection.length = 8 →
    (s.clk.now < s.fabric.weatherAt + 1280000000 → exec .weatherUpdate s = .next s) ∧
    (s.fabric.weatherAt + 1280000000 ≤ s.clk.now → ∃ t, exec .weatherUpdate s = .next t ∧ t.fabric.weatherAt = s.clk.now ∧
      (∀ k, k < 8 → let r := s.rejection k
        let fog := share256 r.fogHistograms r.histograms
        let precip := share256 r.markedRegions r.histograms
        (t.rejection k).histograms = 0 ∧ (t.rejection k).fogFraction = min 255 fog ∧
        (t.rejection k).precipIndex = min 65535 precip ∧ (t.rejection k).trackers = r.trackers ∧
        (r.weather = 0 → 128 ≤ fog → (t.rejection k).weather = 3) ∧
        (r.weather = 0 → fog < 128 → precip < u16 (s.rainBlock k) 14 → (t.rejection k).weather = 0)) ∧
      t = { s with fabric := t.fabric })

/-- R312, R358, R359, R361. An open frame closes 100 µs after its first record, with the next FRAME_SEQ and RECORD_SEQ raised by its
records, and waits for the ports in use whose links are up. A port whose link is up and whose wire is free sends first a PTP
frame, then a zone telegram, then the oldest other frame, then the oldest point frame, with its headers and trailers around it; the
end of a transmission frees the wire.
Where the spec is open it rests on log entries 20, 88, 94. -/
def Obligations.FramesLeaveInPriority : Prop :=
  (∀ (n : Nat) (f : OpenFrame) (s : State), n < s.fabric.streams.length → (s.stream n).frame = some f →
    (s.clk.now < f.placedAt + 128000 → exec (.frameCloseTimeout n) s = .next s) ∧
    (f.placedAt + 128000 ≤ s.clk.now → ∃ t, exec (.frameCloseTimeout n) s = .next t ∧ (t.stream n).frame = none ∧
      (t.stream n).frameSeq = ((s.stream n).frameSeq + 1) % 2 ^ 32 ∧
      (t.stream n).recordSeq = ((s.stream n).recordSeq + f.records.length) % 2 ^ 32 ∧
      (∀ m, m ≠ n → t.stream m = s.stream m) ∧
      (scPortA f.settings = true → s.linkUp 0 = true → ∃ e, t.fabric.egress = s.fabric.egress ++ [e] ∧ e.stream = n ∧
        e.seq = (s.stream n).frameSeq ∧ e.waitA = true ∧ e.waitB = (scPortB f.settings && s.linkUp 1)) ∧
      (s.linkUp 0 = false → s.linkUp 1 = false → t.fabric.egress = s.fabric.egress ∧
        (t.stream n).discarded = satInc 32 (s.stream n).discarded) ∧
      t = { s with fabric := t.fabric, integrity := { s.integrity with units := t.integrity.units }, net := t.net })) ∧
  (∀ (p : Nat) (s : State), p < 2 → s.host.waiting = [] →
    (s.netPowered = false ∨ s.linkUp p = false ∨ (s.fabric.egress.any (·.onWire p)) = true →
      exec (.frameTransmit p) s = .next s) ∧
    (s.netPowered = true → s.linkUp p = true → (s.fabric.egress.any (·.onWire p)) = false →
      ((∃ g ∈ s.net.tx, g.waits p = true) → ∃ t f x, exec (.frameTransmit p) s = .next t ∧
        f ∈ s.net.tx ∧ f.waits p = true ∧ (∀ g ∈ s.net.tx, g.waits p = true → f.kind.priority ≤ g.kind.priority) ∧
        t.out = s.out ++ [.frame p f.kind x f.dest f.bytes (s.frameWire p f x)] ∧ t.fabric = s.fabric ∧ t = { s with net := t.net, out := t.out }) ∧
      ((∀ g ∈ s.net.tx, g.waits p = false) → ∀ f, s.fabric.egress.find? (·.waits p) = some f →
        (s.resolved f.settings = true → ∃ t x, exec (.frameTransmit p) s = .next t ∧
          t.out = s.out ++ [.point p x f.stream f.bytes (s.pointWire p f x)] ∧ (t.fabric.egress.any (·.onWire p)) = true ∧
          t = { s with net := t.net, fabric := t.fabric, integrity := t.integrity, out := t.out }) ∧
        (s.resolved f.settings = false → ∃ t, exec (.frameTransmit p) s = .next t ∧ t.net.unresolvedSeen = true ∧
          t.net.unresolved = satInc 32 s.net.unresolved ∧ t.out = s.out ∧
          t = { s with net := t.net, fabric := t.fabric })))) ∧
  ∀ (p : Nat) (s : State), p < 2 → ∃ t, exec (.frameTxComplete p) s = .next t ∧
    (t.fabric.egress.any (·.onWire p)) = false ∧ (∀ f ∈ s.fabric.egress, f.onWire p = false → f.waits 0 = true → f ∈ t.fabric.egress) ∧
    t.fabric.streams = s.fabric.streams ∧ t = { s with fabric := { s.fabric with egress := t.fabric.egress } }

/-! ## Auxiliary sensing and Bezel (chapter 13) -/

/-- R338, R339, R346, R349, R350. A turn ends with its result once its time has passed, behind the calibrations that are due: PRIMARY is
computed from the codes less the gain's offset, VALUE by the curve; a result after a change of settings is UNSETTLED and not VALID.
An offset code is accepted within 8389 and within 839 of the one in use, and otherwise held. The PWM takes up HEAT_DUTY every
10 ms. The charge amplifier's output is kept beside its peak outside a reset, and a shock counts when it reaches its level; the
amplifier is reset every RESET_PERIOD, with its output beyond 90 % of full scale and once at the start. A measurement behind
calibrations starts with the settings that stand when they have ended.
Where the spec is open it rests on log entries 89, 90, 91. -/
def Obligations.AuxMeasuresInTurn : Prop :=
  (∀ (a b : Int) (comp : Bool) (s : State), s.aux.turn = none ∨ s.awake .aux = false ∨ s.aux.cal ≠ [] →
    exec (.auxMeasurementDone a b comp) s = .next s) ∧
  (∀ (a b : Int) (comp : Bool) (m : Nat) (s : State), s.aux.turn = some m → s.awake .aux = true → s.aux.cal = [] →
    m < s.aux.meas.length → m < 16 → (s.meas m).pending = none → let p := (s.meas m).image
    (s.turnOver p = false → exec (.auxMeasurementDone a b comp) s = .next s) ∧
    (s.turnOver p = true → ∃ t, exec (.auxMeasurementDone a b comp) s = .next t ∧
      let off := (s.auxOffset (amGain p)).code.getD 0
      let x := primaryOf p ((if amType p = 6 then peakCode p s.aux.piezo.peak a else a) - off) (b - off)
      let drawn := if primaryFits p x then 0 else 1
      let r := (t.meas m).result
      (primaryFits p x = true → r.primary = x) ∧ primaryFits p r.primary = true ∧ (amType p = 6 → t.aux.piezo.peak = 0) ∧
      r.value = (curveValue p r.primary (s.meas (amCj p)).result.value (Config.free (s.free + drawn))).1 ∧ r.stamp = stamp48 s.stamp ∧
      bit r.status 3 = (s.meas m).unsettledNext ∧ ((s.meas m).unsettledNext = true → bit r.status 0 = false) ∧
      (bit r.status 1 = true → bit r.status 0 = false) ∧ (t.meas m).unsettledNext = false ∧ (t.meas m).image = p ∧
      t.free = s.free + drawn + (if curveFree p then 1 else 0) ∧
      t = { s with aux := t.aux, free := t.free, health := t.health, host := t.host, nvm := t.nvm,
                   returns := { s.returns with bias := t.bias } })) ∧
  (∀ (g : Nat) (code : Int) (s : State), g < s.aux.offsets.length → s.aux.calRun = none →
    let due := s.awake .aux = true ∧ s.aux.cal.head? = some g ∧ s.aux.turnAt + convTime (s.calRate g) ≤ s.clk.now
    let good := code.natAbs ≤ 8389 ∧ ∀ k, (s.auxOffset g).code = some k → (code - k).natAbs ≤ 839
    (¬ due → exec (.auxOffsetCal g code) s = .next s) ∧
    (due → ∃ t, exec (.auxOffsetCal g code) s = .next t ∧
      (good → (t.auxOffset g).code = some code ∧ (t.auxOffset g).held = false ∧ t.aux.heldTotal = s.aux.heldTotal) ∧
      (¬ good → (t.auxOffset g).code = (s.auxOffset g).code ∧ (t.auxOffset g).held = true ∧ t.aux.calHeldSeen = true ∧
        t.aux.heldTotal = satInc 32 s.aux.heldTotal) ∧
      (∀ k, k ≠ g → (t.auxOffset k).code = (s.auxOffset k).code ∧ (t.auxOffset k).held = (s.auxOffset k).held) ∧
      (1 < s.aux.cal.length → (t.auxOffset g).calibrated = some s.clk.now ∧
        t = { s with aux := { s.aux with offsets := t.aux.offsets, calHeldSeen := t.aux.calHeldSeen, heldTotal := t.aux.heldTotal,
                                         cal := s.aux.cal.drop 1, turnAt := s.clk.now } }) ∧
      (∀ m, s.aux.cal.length = 1 → s.aux.turn = some m → m < s.aux.meas.length → (s.meas m).pending = none →
        amType (s.meas m).image ≠ 0 → (t.auxOffset g).calibrated = some s.clk.now ∧ t.aux.turn = some m ∧ t.aux.meas = s.aux.meas) ∧
      (∀ m x, s.aux.cal.length = 1 → s.aux.turn = some m → m < s.aux.meas.length → (s.meas m).pending = some x → amType x ≠ 0 →
        t.aux.turn = some m ∧ (t.meas m).image = x ∧ (t.meas m).pending = none) ∧
      t = { s with aux := t.aux })) ∧
  (∀ s : State,
    (s.clk.now < s.aux.heatAt + 12800000 → exec .heatPwmPeriod s = .next s) ∧
    (s.aux.heatAt + 12800000 ≤ s.clk.now →
      exec .heatPwmPeriod s = .next { s with aux := { s.aux with heatInUse := s.heatDuty, heatAt := s.clk.now } })) ∧
  (∀ (q : Int) (s : State),
    (s.piezoMeas = none → exec (.shock q) s = .next s ∧ exec .piezoReset s = .next s) ∧
    ∀ m, s.piezoMeas = some m → m < s.aux.meas.length → let p := (s.meas m).image
      let z := s.aux.piezo
      let put (k : Piezo) : State := { s with aux := { s.aux with piezo := k } }
      let peak := if z.peak.natAbs < q.natAbs then q else z.peak
      (s.clk.now + 256000 < z.blindUntil → exec (.shock q) s = .next s) ∧
      (z.blindUntil ≤ s.clk.now + 256000 → s.clk.now < z.blindUntil → exec (.shock q) s = .next (put { z with output := q })) ∧
      (z.blindUntil ≤ s.clk.now → q.natAbs < amShock p → exec (.shock q) s = .next (put { z with output := q, peak := peak })) ∧
      (z.blindUntil ≤ s.clk.now → amShock p ≤ q.natAbs →
        exec (.shock q) s = .next (put { z with output := q, peak := peak, shock := true, shockTotal := satInc 32 z.shockTotal,
                                                shockPeak := max z.shockPeak q.natAbs })) ∧
      let due := s.aux.loaded = true ∧ (z.startReset = true ∨ z.lastReset + 1280000 * amReset p ≤ s.clk.now ∨
        9 * chargeScale p < 10 * z.output.natAbs)
      (¬ due → exec .piezoReset s = .next s) ∧
      (due → ∃ t, exec .piezoReset s = .next t ∧
        t.aux.piezo = { z with resetTotal := satInc 32 z.resetTotal, lastReset := s.clk.now, blindUntil := s.clk.now + 384000,
                               output := 0, startReset := false } ∧
        t.meas m = { s.meas m with unsettledNext := true } ∧ (∀ k, k ≠ m → t.meas k = s.meas k) ∧
        t = { s with aux := { s.aux with piezo := t.aux.piezo, meas := t.aux.meas } }))

/-- R347, R348, R353, R354. The settings of a measurement wait for its turn; those of a switch and of Bezel act at once; with PERSIST the
reply follows the store. A calibration or a learning pass runs alone: a second one waits. AUX_READ gives the results and AUX_STATUS
clears the flags its mask names; neither changes a measurement.
Where the spec is open it rests on log entry 91. -/
def Obligations.AuxCommandsTakeEffect : Prop :=
  (∀ (c : Cmd) (s : State), Accepted auxMeasConfigInfo c s → s.aux.turn.isSome = true →
    let m := u8 c.payload 0
    m < s.aux.meas.length → ∃ t, exec (.auxMeasConfig c) s = .next t ∧
      t.meas m = { s.meas m with pending := some c.payload } ∧ (∀ k, k ≠ m → t.meas k = s.meas k) ∧
      (bit (u8 c.payload 15) 0 = false → Finished 0x0901 c (s.block 0 0 0) [] s t ∧ t.health = s.health ∧ t.nvm = s.nvm) ∧
      (bit (u8 c.payload 15) 0 = true → Silent c s t ∧ ∃ w ∈ t.nvm.waits, w.cmd = c ∧ w.block = s.block 0 0 0) ∧
      t = { s with aux := { s.aux with meas := t.aux.meas }, health := t.health, host := t.host,
                   nvm := { s.nvm with waits := t.nvm.waits } }) ∧
  (∀ (c : Cmd) (s : State), Accepted auxSwitchConfigInfo c s → ∃ t, exec (.auxSwitchConfig c) s = .next t ∧
    t.aux = { s.aux with switches := s.aux.switches.modify (u8 c.payload 0) fun w =>
      { image := c.payload, active := w.active && swEnable c.payload } } ∧
    (bit (u8 c.payload 12) 0 = false → Finished 0x0902 c (s.block 0 0 0) [] s t ∧ t.health = s.health ∧ t.nvm = s.nvm) ∧
    (bit (u8 c.payload 12) 0 = true → Silent c s t ∧ ∃ w ∈ t.nvm.waits, w.cmd = c ∧ w.block = s.block 0 0 0) ∧
    t = { s with aux := t.aux, health := t.health, host := t.host, nvm := { s.nvm with waits := t.nvm.waits } }) ∧
  (∀ (c : Cmd) (s : State),
    (s.aux.calRun.isSome = true → exec (.auxCal c) s = .next s) ∧
    (Accepted auxCalInfo c s → s.aux.calRun = none → bit (u8 c.payload 0) 0 = false → bit (u8 c.payload 4) 0 = false →
      ∃ t, exec (.auxCal c) s = .next t ∧ t.aux = { s.aux with calPeriod := u16 c.payload 2, calResult := 0 } ∧
        Finished 0x0903 c (s.block 0 0 0) [] s t ∧ t = { s with aux := t.aux, host := t.host }) ∧
    (Accepted auxCalInfo c s → s.aux.calRun = none → bit (u8 c.payload 0) 0 = true → s.gainsInUse ≠ [] →
      ∃ t, exec (.auxCal c) s = .next t ∧ t.aux = { s.aux with
        calPeriod := u16 c.payload 2, calResult := 0, calRun := some { cmd := c, left := s.gainsInUse, held := 0 } } ∧
        Silent c s t ∧ t = { s with aux := t.aux, host := t.host })) ∧
  (∀ (c : Cmd) (s : State), Accepted bezelConfigInfo c s → ∃ t, exec (.bezelConfig c) s = .next t ∧
    t.aux = { s.aux with bezelImage := c.payload, bezelDuty := if bzHeat c.payload then s.aux.bezelDuty else 0,
                         tempInvalid := s.aux.tempInvalid && bzHeat c.payload } ∧
    (bit (u8 c.payload 0) 1 = false → Finished 0x0904 c (s.block 0 0 0) [] s t ∧ t.health = s.health ∧ t.nvm = s.nvm) ∧
    (bit (u8 c.payload 0) 1 = true → Silent c s t ∧ ∃ w ∈ t.nvm.waits, w.cmd = c ∧ w.block = s.block 0 0 0) ∧
    t = { s with aux := t.aux, health := t.health, host := t.host, nvm := { s.nvm with waits := t.nvm.waits } }) ∧
  (∀ (c : Cmd) (s : State),
    (s.aux.learn.isSome = true → exec (.bezelLearn c) s = .next s) ∧
    (Accepted bezelLearnInfo c s → s.aux.learn = none → ∃ t, exec (.bezelLearn c) s = .next t ∧ Silent c s t ∧
      t.aux = { s.aux with learn := some { cmd := c, revs := u8 c.payload 0, done := 0 },
                           sectors := s.aux.sectors.map fun k => { k with learnSum := 0, learnCount := 0 } } ∧
      t = { s with aux := t.aux, host := t.host })) ∧
  (∀ (c : Cmd) (s : State), Accepted auxReadInfo c s → ∃ t, exec (.auxRead c) s = .next t ∧
    Finished 0x0906 c (s.block 0 0 s.aux.cycles) ((s.aux.meas.map fun m => m.result.bytes).flatten) s t ∧
    t = { s with host := t.host }) ∧
  ∀ (c : Cmd) (s : State), Accepted auxStatusInfo c s → let m := u16 c.payload 0
    ∃ t d, exec (.auxStatus c) s = .next t ∧ Finished 0x0907 c (s.block 0 0 t.auxFlags) d s t ∧
      t.aux = { s.aux with calHeldSeen := s.aux.calHeldSeen && !bit m 0, excCompliance := s.aux.excCompliance && !bit m 6,
                           piezo := { s.aux.piezo with shock := s.aux.piezo.shock && !bit m 1 } } ∧
      t = { s with aux := t.aux, host := t.host }

/-! ## Backbone (chapter 14) -/

/-- R356, R357, R358, R362, R367. A link that comes up is up with its role; one that is lost counts, is marked lost and keeps nothing
waiting for its port; supervision frames go out every 2 s; a neighbour is asked for again every 60 s; an incomplete datagram is
discarded after 50 ms, and the message of one that a fragment completes goes to receipt; a received frame with a wrong FCS, not addressed
to the device, or the second copy of one taken from the other
LAN, only counts; an accepted one enters the drop window, and ARP requests for the device, echo requests and answers of neighbours have
their effect.
Where the spec is open it rests on log entries 95, 96. -/
def Obligations.LinksCountAndRecover : Prop :=
  (∀ (p : Nat) (s : State), p < 2 → p < s.net.ports.length →
    (s.linkUp p = false → exec (.linkDown p) s = .next s) ∧
    (s.linkUp p = true → ∃ t, exec (.linkDown p) s = .next t ∧ t.linkUp p = false ∧ (t.port p).lost = true ∧
      (t.port p).downCount = satInc 32 (s.port p).downCount ∧
      (t.port p).downDiscard = satAdd 32 (s.port p).downDiscard (s.queuedFor p) ∧ (∀ f ∈ t.net.tx, f.waits p = false) ∧
      (∀ f ∈ t.fabric.egress, f.waits p = false) ∧ (∀ q, q ≠ p → t.port q = s.port q) ∧
      t = { s with net := t.net, fabric := t.fabric }) ∧
    (∀ m a q, s.linkUp p = false → ∃ t, exec (.linkUp p m a q) s = .next t ∧ t.linkUp p = true ∧
      (t.port p).sqi = q % 8 ∧ (s.net.probe = false → ∀ k, k ≠ p → t.port k = s.port k) ∧ (s.net.wait = none → t = { s with net := t.net }) ∧
      ((s.port p).ptp.state = 3 → ncProfile s.net.config ≠ 0 → (t.port p).ptp.state = 4) ∧
      (∀ w, s.net.wait = some w → w.train = [true, false] → p = 0 → w.dad = false → w.answered = false →
        bit (u8 w.newImage 6) 2 = false →
        Finished 0x0801 w.cmd (s.block 0 0 0) [] s t ∧ t.net.config = s.net.config ∧
        t.net.wait = some { w with train := [false, false], answered := true }) ∧
      t = { s with health := t.health, host := t.host, net := t.net }) ∧
    (∀ m a q, s.linkUp p = true → exec (.linkUp p m a q) s = .next s)) ∧
  (∀ s : State, s.netPowered = true →
    (s.clk.now < s.net.lastSupervision + 2560000000 → exec .prpSupervisionSend s = .next s) ∧
    (s.net.lastSupervision + 2560000000 ≤ s.clk.now → ∃ t, exec .prpSupervisionSend s = .next t ∧
      t.net.lastSupervision = s.clk.now ∧ (s.linkUp 0 = true → ∃ f, t.net.tx = s.net.tx ++ [f] ∧ f.kind = .supervision ∧ f.both = true) ∧
      t = { s with net := t.net })) ∧
  (∀ (a : List Byte) (x : Neighbour) (s : State), s.neighbour (addr16 a) = some x →
    (s.clk.now < x.refreshed + 76800000000 → exec (.neighbourRefresh a) s = .next s) ∧
    (x.refreshed + 76800000000 ≤ s.clk.now → ∃ t y, exec (.neighbourRefresh a) s = .next t ∧
      t.neighbour (addr16 a) = some y ∧ y.mac = x.mac ∧ y.refreshed = s.clk.now ∧ t = { s with net := t.net })) ∧
  (∀ (i : Nat) (r : Reasm) (s : State), s.net.reasm[i]? = some r →
    (s.clk.now < r.since + 64000000 → exec (.reasmTimeout i) s = .next s) ∧
    (r.since + 64000000 ≤ s.clk.now → exec (.reasmTimeout i) s = .next { s with net := { s.net with
      reasm := s.net.reasm.eraseIdx i, reasmFail := true, mdRejected := satInc 32 s.net.mdRejected } })) ∧
  ∀ (p : Nat) (f : NetFrame) (s : State), p < 2 → p < s.net.ports.length → s.netPowered = true → s.linkUp p = true →
    (f.fcsOk = false → ∃ t, exec (.netFrameReceive p f) s = .next t ∧
      t.port p = { s.port p with fcsErr := satInc 32 (s.port p).fcsErr } ∧ t = { s with net := { s.net with ports := t.net.ports } }) ∧
    (f.fcsOk = true → f.kind ≠ .pause → s.accepts f = false → ∃ t, exec (.netFrameReceive p f) s = .next t ∧
      t.port p = { s.port p with framesRx := wrap 32 ((s.port p).framesRx + 1), rxDiscard := satInc 32 (s.port p).rxDiscard } ∧
      t = { s with net := { s.net with ports := t.net.ports } }) ∧
    (f.fcsOk = true → f.kind = .pause → ∃ t, exec (.netFrameReceive p f) s = .next t ∧
      t.port p = { s.port p with framesRx := wrap 32 ((s.port p).framesRx + 1) } ∧
      t = { s with net := { s.net with ports := t.net.ports } }) ∧
    (f.fcsOk = true → f.kind ≠ .pause → s.accepts f = true →
      (s.prpDuplicate p f = true → ∃ t, exec (.netFrameReceive p f) s = .next t ∧
        t.port p = { s.port p with framesRx := wrap 32 ((s.port p).framesRx + 1), prpDup := satInc 32 (s.port p).prpDup } ∧
        t = { s with net := { s.net with ports := t.net.ports } }) ∧
      (s.prpDuplicate p f = false → ∃ t, exec (.netFrameReceive p f) s =
          (match s.completed p f with
           | some m => exec (.trdpMrReceive m) t
           | none => .next t) ∧
        ((∀ src ident offset last data, f.kind ≠ .fragment src ident offset last data) → s.completed p f = none) ∧
        (t.port p).framesRx = wrap 32 ((s.port p).framesRx + 1) ∧ (t.port p).rxDiscard = (s.port p).rxDiscard ∧
        (∀ r, f.rct = some r → (∃ d ∈ t.net.drops, d.src = f.src ∧ d.seq = r.1 ∧ d.lanA = (p == 0) ∧ d.at_ = s.clk.now) ∧
          (t.port p).wrongLan = (if r.2 = 10 + p then (s.port p).wrongLan else satInc 32 (s.port p).wrongLan)) ∧
        (∀ a m x, f.kind = .arpReply a m ∨ f.kind = .neighbourAdvert a m → s.neighbour (addr16 a) = some x →
          t.neighbour (addr16 a) = some { x with mac := some m }) ∧
        (∀ a b, f.kind = .arpRequest a b → ncV4 s.net.config = true → slice b 0 4 = ncAddr4 s.net.config →
          ∃ g, t.net.tx = s.net.tx ++ [g] ∧ g.kind = .arp ∧ g.dest = f.src ∧
            g.bytes = arpPacket 2 (ncMac s.net.config) (ncAddr4 s.net.config) f.src a) ∧
        (∀ src x, f.kind = .echoRequest false src x → ncIcmp s.net.config = true → ncV4 s.net.config = true → s.net.echoes = [] →
          ∃ g, t.net.tx = s.net.tx ++ [g] ∧ g.kind = .icmp ∧ g.dest = addr16 src) ∧
        t = { s with net := t.net }))

/-- R373, R374, R375, R376, R377. NET_CONFIG waits for the reply of an earlier one; one that neither retrains a port nor brings an IPv6
address nor is stored is answered at once; its addresses govern once its final reply has been taken; one whose training is not over after
500 ms, or whose address is in
use, ends with ST_FAULT_NETWORK 1 or 2. TRDP_CONFIG acts at once; the status reads clear what their mask names and nothing else.
Where the spec is open it rests on log entry 93. -/
def Obligations.NetworkSettingsFollowTheirReply : Prop :=
  (∀ (c : Cmd) (s : State), s.net.wait.isSome = true → exec (.netConfig c) s = .next s) ∧
  (∀ (c : Cmd) (s : State), Accepted netConfigInfo c s → s.net.wait = none →
    ncPhy s.net.config = ncPhy c.payload → newV6 s.net.config c.payload = false → bit (u8 c.payload 6) 2 = false →
    ncProfile s.net.config = ncProfile c.payload → ncDomain s.net.config = ncDomain c.payload →
    ∃ t w, exec (.netConfig c) s = .next t ∧ Finished 0x0801 c (s.block 0 0 0) [] s t ∧
      t.net.config = keepAddresses s.net.config c.payload ∧ t.net.wait = some w ∧ w.cmd = c ∧ w.answered = true ∧
      w.newImage = c.payload ∧ t.net.ports = s.net.ports ∧ t = { s with host := t.host, net := t.net }) ∧
  (∀ (r : Reply) (w : NetWait) (s : State), s.spiUp = true → s.spiReply = some r → s.net.wait = some w →
    (w.answeredBy r = true → ∃ t, exec (.spiReadReply true) s = .next t ∧ t.net.config = w.newImage ∧ t.net.v6Usable = w.v6 ∧
      t.net.wait = none ∧ (keepAddresses s.net.config w.newImage ≠ w.newImage → t.net.neighbours = []) ∧ t.net.tx = s.net.tx) ∧
    (w.answeredBy r = false → ∃ t, exec (.spiReadReply true) s = .next t ∧ t.net = s.net)) ∧
  (∀ (c : Cmd) (s : State), Accepted netConfigInfo c s → s.net.wait = none → newV6 s.net.config c.payload = true →
    s.net.config.length = 64 →
    ∃ t w, exec (.netConfig c) s = .next t ∧ Silent c s t ∧ t.net.wait = some w ∧ w.cmd = c ∧ w.dad = true ∧ w.newImage = c.payload ∧
      w.v6 = false ∧ w.answered = false ∧ t.net.dad = true ∧ slice t.net.config 16 16 = slice s.net.config 16 16 ∧
      t.net.v6Usable = s.net.v6Usable ∧ t = { s with host := t.host, net := t.net, fabric := t.fabric, clk := t.clk }) ∧
  (∀ (p : Nat) (w : NetWait) (s : State), s.net.wait = some w → w.train.getD p false = true →
    (s.clk.now < w.since + 640000000 ∨ w.answered = true → exec (.linkTrainTimeout p) s = .next s) ∧
    (w.answered = false → w.since + 640000000 ≤ s.clk.now → ∃ t, exec (.linkTrainTimeout p) s = .next t ∧
      Finished 0x0801 w.cmd (s.block 0x27 1 0) [] s t ∧ t.net.config = s.net.config ∧
      t.net.wait = some { w with answered := true } ∧
      t = { s with host := t.host, net := t.net })) ∧
  (∀ (inUse : Bool) (s : State), s.net.dad = true →
    (s.net.wait = none → ∃ t, exec (.dadComplete inUse) s = .next t ∧ t.net.v6Usable = !inUse ∧ t.net.dad = false ∧
      t.net.dupAddress = (s.net.dupAddress || inUse) ∧ t = { s with net := t.net }) ∧
    (∀ w, s.net.wait = some w → w.dad = true → w.answered = false → inUse = true → ∃ t, exec (.dadComplete inUse) s = .next t ∧
      Finished 0x0801 w.cmd (s.block 0x27 2 0) [] s t ∧ t.net.v6Usable = s.net.v6Usable ∧ t.net.dupAddress = true ∧
      t.net.wait = some { w with dad := false, v6 := false, answered := true } ∧ t = { s with host := t.host, net := t.net })) ∧
  (∀ (inUse : Bool) (s : State), s.net.dad = false → exec (.dadComplete inUse) s = .next s) ∧
  (∀ (c : Cmd) (s : State), Accepted trdpConfigInfo c s → bit (u8 c.payload 0) 3 = false →
    ∃ t, exec (.trdpConfig c) s = .next t ∧ Finished 0x0803 c (s.block 0 0 0) [] s t ∧
      t.net = { s.net with trdp := c.payload } ∧ t = { s with host := t.host, net := t.net }) ∧
  (∀ (c : Cmd) (s : State), Accepted netStatusInfo c s → u8 c.payload 0 < s.net.ports.length →
    let p := u8 c.payload 0
    ∃ t d, exec (.netStatus c) s = .next t ∧ Finished 0x0804 c (s.block 0 0 (s.port p).link.code) d s t ∧
      u8 d 0 = (s.port p).link.code ∧ (t.port p).lost = ((s.port p).lost && !(u16 c.payload 2).testBit 0) ∧
      t.net.reasmFail = (s.net.reasmFail && !(u16 c.payload 2).testBit 6) ∧ (∀ q, q ≠ p → t.port q = s.port q) ∧
      t = { s with host := t.host, net := t.net }) ∧
  (∀ (c : Cmd) (s : State), Accepted streamStatusInfo c s → let n := u8 c.payload 0
    ∃ t d, exec (.streamStatus c) s = .next t ∧ Finished 0x0805 c (s.block 0 0 (s.stream n).frameSeq) d s t ∧
      u32 d 4 = (s.stream n).frameSeq % 2 ^ 32 ∧ u32 d 8 = (s.stream n).recordSeq % 2 ^ 32 ∧ t = { s with host := t.host })

/-! ## Check units, scrubbing and the retention banks (chapter 15) -/

/-- R382, R383, R388, R389, R390, R395. A scan of a general unit ends with all its bytes folded in, or stops on an uncorrectable word. The
scrubber counts a correction of one symbol that it wrote back and nothing for one that a functional write overtook, marks and counts a
word with two wrong symbols, and skips histogram rows that hold nothing; its last word ends a pass. A failed bank's recopy is asked of the
arbiter once a second and given up after the third failure; a
keeper domain's fault takes its two banks out. MEMORY_STATUS and CHECK_UNIT report, and clear or write what their fields name.
Where the spec is open it rests on log entries 103, 104, 106, 107. -/
def Obligations.MemoriesAreCheckedAndCounted : Prop :=
  (∀ (u : Nat) (b : List Byte) (ue : Bool) (s : State), u < s.integrity.units.length →
    let x := s.unit u
    let fits := if ue then b.length < x.length else b.length = x.length
    (¬ (20 ≤ u ∧ u < 24 ∧ x.mode = 2 ∧ fits) → exec (.checkUnitScanDone u b ue) s = .next s) ∧
    (20 ≤ u → u < 24 → x.mode = 2 → fits → ∃ t, exec (.checkUnitScanDone u b ue) s = .next t ∧
      t.unit u = { x with running := crcRun x.alg x.running b, count := wrap 32 (x.count + b.length), mode := 0, done := !ue,
                          memUe := ue } ∧
      (∀ k, k ≠ u → t.unit k = s.unit k) ∧ t = { s with integrity := { s.integrity with units := t.integrity.units } })) ∧
  (∀ (row region word : Nat) (res : ScrubResult) (s : State), regionCount row ≤ region ∨ regionWords row region ≤ word →
    exec (.scrubWord row region word res) s = .next s) ∧
  (∀ (row region word sym : Nat) (s : State), region < regionCount row → word < regionWords row region →
    (word + 1 ≠ regionWords row region → ∀ w,
      exec (.scrubWord row region word ⟨[], w⟩) s = .next s ∧ exec (.scrubWord row region word ⟨[sym], false⟩) s = .next s ∧
      (row = 1 → s.histWordHeld region word = false → ∀ l, exec (.scrubWord row region word ⟨l, w⟩) s = .next s)) ∧
    (word + 1 = regionWords row region → ∀ w, ∃ t, exec (.scrubWord row region word ⟨[], w⟩) s = .next t ∧
      t.memRegion row region = { s.memRegion row region with ceLastPass := (s.memRegion row region).ceThisPass, ceThisPass := 0,
                                                             passes := wrap 32 ((s.memRegion row region).passes + 1) } ∧
      t = { s with integrity := { s.integrity with regions := t.integrity.regions } }) ∧
    ((row = 1 → s.histWordHeld region word = true) →
      (∃ t, exec (.scrubWord row region word ⟨[sym], true⟩) s = .next t ∧
        (t.memRegion row region).ce = satInc 32 (s.memRegion row region).ce ∧ (t.memRegion row region).lastCe = word ∧
        (t.memRegion row region).ue = (s.memRegion row region).ue ∧
        t = { s with integrity := t.integrity, fabric := t.fabric, health := t.health }) ∧
      (∀ sym2 w, ∃ t, exec (.scrubWord row region word ⟨[sym, sym2], w⟩) s = .next t ∧
        (t.memRegion row region).ue = satInc 32 (s.memRegion row region).ue ∧ (t.memRegion row region).ueSeen = true ∧
        (t.memRegion row region).lastUe = word ∧ (t.memRegion row region).ce = (s.memRegion row region).ce ∧
        t.nvm = s.nvm ∧ t.sets = s.sets))) ∧
  (∀ (b : Nat) (good : Bool) (s : State),
    (1 < b ∨ (s.bank b).inService = true ∨ (s.bank b).gaveUp = true ∨
      s.clk.now < (s.bank b).outAt + 1280000000 * ((s.bank b).failedTries + 1) → exec (.journalRecopyTry b good) s = .next s) ∧
    (b ≤ 1 → (s.bank b).inService = false → (s.bank b).gaveUp = false →
      (s.bank b).outAt + 1280000000 * ((s.bank b).failedTries + 1) ≤ s.clk.now →
      (s.underway 0x06 (2 + b) = false → s.arbiterFull 0 = false → ∃ t, exec (.journalRecopyTry b good) s = .next t ∧
        t.health.queue = s.health.queue ++ [Activity.recopy b] ∧ t = { s with health := { s.health with queue := t.health.queue } }) ∧
      ((∃ a ∈ s.health.running, a.code = 0x06 ∧ a.target = 2 + b) →
        ∃ t, exec (.journalRecopyTry b good) s = .next t ∧ t.bank (1 - b) = s.bank (1 - b) ∧
          (good = true ∧ (s.bank b).keeperFault = false ∧ (s.bank (1 - b)).inService = true →
            t.bank b = { s.bank b with inService := true, failedTries := 0, bad := (s.bank (1 - b)).bad, frozen := none }) ∧
          (good = false ∨ (s.bank b).keeperFault = true ∨ (s.bank (1 - b)).inService = false →
            t.bank b = { s.bank b with failedTries := (s.bank b).failedTries + 1, gaveUp := decide (3 ≤ (s.bank b).failedTries + 1) }) ∧
          (∀ a ∈ t.health.running, a.scope ≠ scopeCommand) ∧ t.host.journal.live = s.host.journal.live ∧
          t = { s with health := t.health, host := t.host, out := t.out }))) ∧
  (∀ (b : Nat) (present : Bool) (s : State),
    (1 < b → exec (.keeperDomainFault b present) s = .next s) ∧
    (b ≤ 1 → ∃ t, exec (.keeperDomainFault b present) s = .next t ∧ (t.bank b).keeperFault = present ∧
      t.bankUp b = !present ∧ (present = true → (t.bank b).inService = false) ∧
      (present = false → (t.bank b).inService = (s.bank b).inService) ∧ t.bank (1 - b) = s.bank (1 - b) ∧
      t.bankUp (1 - b) = s.bankUp (1 - b) ∧ t.nvm.records = s.nvm.records ∧
      t = { s with host := t.host, nvm := t.nvm, out := t.out })) ∧
  (∀ (c : Cmd) (s : State), Accepted memoryStatusInfo c s →
    let r := s.memRegion (u8 c.payload 0) (u16 c.payload 2)
    (u8 c.payload 4 = 0 → ∃ t, exec (.memoryStatus c) s = .next t ∧ Finished 0x0A04 c (s.block 0 0 r.ue) r.bytes s t ∧
      t = { s with host := t.host }) ∧
    (u8 c.payload 4 = 1 → ∃ t, exec (.memoryStatus c) s = .next t ∧
      t.memRegion (u8 c.payload 0) (u16 c.payload 2) = { r with ueSeen := false } ∧
      Finished 0x0A04 c (s.block 0 0 r.ue) ({ r with ueSeen := false }).bytes s t ∧
      t = { s with host := t.host, integrity := { s.integrity with regions := t.integrity.regions } })) ∧
  (∀ (c : Cmd) (s : State), Accepted checkUnitInfo c s → unitWrites c.payload = false → ∃ t, exec (.checkUnitRead c) s = .next t ∧
    Finished 0x0A05 c (s.block 0 0 (s.unit (u8 c.payload 0)).count) (s.unitBlock (u8 c.payload 0)) s t ∧
    t = { s with host := t.host }) ∧
  ∀ (c : Cmd) (s : State), Accepted checkUnitInfo c s → unitWrites c.payload = true → let p := c.payload
    u8 p 0 < s.integrity.units.length → 20 ≤ u8 p 0 ∧ ((s.unit (u8 p 0)).mode = 0 ∨ (s.unit (u8 p 0)).mode ≠ 1 ∧ (s.unit (u8 p 0)).mode ≠ 2) ∧
    ∃ t d, exec (.checkUnitWrite c) s = .next t ∧ Finished 0x0A05 c (s.block 0 0 0) d s t ∧
      t.unit (u8 p 0) = { mode := u8 p 17, alg := u8 p 18, done := false, memUe := false, source := u8 p 20, running := u64 p 24,
                          start := u32 p 32, length := u32 p 36, count := 0 } ∧
      (∀ k, k ≠ u8 p 0 → t.unit k = s.unit k) ∧
      t = { s with host := t.host, integrity := { s.integrity with units := t.integrity.units } }

/-! ## eMRAM, power fail, Pavane and starts (chapter 16) -/

/-- R420, R422, R424 to R428. A store with both banks up writes the next generation to one bank, the bank g mod 2 unless it fails, puts it
in use, answers and goes on with the mirror, which clears MIRROR_PENDING when the other bank takes it; a mirror that cannot be written
leaves it pending and answers ST_FAULT_NVM 3, with none it changes no record, gives up what waited for it and answers 2; other records
stand. A command that took effect before its store is answered after it with the block of that effect. NVM_INFO and
NVM_READ change nothing; NVM_STAGE fills the staging buffer; NVM_COMMIT, NVM_ERASE and KEY_PROVISION ask for their store and consume
the unlock they needed, and a commit whose staged bytes do not match answers ST_FAULT_NVM 1.
Where the spec is open it rests on log entries 98, 101, 102. -/
def Obligations.StoresKeepTheirRecords : Prop :=
  (∀ (w1 w2 : Bool) (s : State), s.nvmRunning = none → exec (.nvmStore w1 w2) s = .next s) ∧
  (∀ (a : Activity) (s : State), s.nvmRunning = some a → a.target ≠ 1 → a.cmds = [] → s.bankUp 0 = true → s.bankUp 1 = true →
    (∃ r ∈ s.nvm.records, r.id = a.recId) →
    let k := a.copyOf (s.lastGen a.recId + 1) 0
    let first := k.generation % 2
    let stored (bank : Nat) (t : State) : Prop := (t.record a.recId).inUse = some k ∧ (t.record a.recId).copy bank = some k ∧
      (t.record a.recId).inBank1 = decide (bank = 1) ∧ (t.record a.recId).mirrorPending = true ∧
      t.nvm.storesTotal = satInc 32 s.nvm.storesTotal ∧ (∀ id, id ≠ a.recId → t.record id = s.record id) ∧
      t.nvm.flush0 = s.nvm.flush0 ∧ t.nvm.flush1 = s.nvm.flush1 ∧ t.nvm.stage = s.nvm.stage
    let mirrors (t : State) : Prop := ∃ a2, t.nvmRunning = some a2 ∧ a2.target = 2 ∧ a2.recId = a.recId
    (∃ t, exec (.nvmStore true true) s = .next t ∧ stored first t ∧ mirrors t ∧
      (t.record a.recId).copy (1 - first) = (s.record a.recId).copy (1 - first)) ∧
    (∃ t, exec (.nvmStore true false) s = .next t ∧ stored first t ∧ t.nvmRunning = none) ∧
    (∃ t, exec (.nvmStore false true) s = .next t ∧ stored (1 - first) t ∧ mirrors t) ∧
    (∃ t, exec (.nvmStore false false) s = .next t ∧ t.nvm = s.nvm ∧
      (a.recId = 0x20 → t.angle = { s.angle with toStore := none }) ∧ (a.recId ≠ 0x20 → t.angle = s.angle) ∧
      (a.recId = 4 → t.clk = { s.clk with retrimPending := false, xoTarget := s.clk.xoStored }) ∧ (a.recId ≠ 4 → t.clk = s.clk) ∧
      t = { s.endScope scopeNvm with angle := t.angle, clk := t.clk })) ∧
  (∀ (a : Activity) (op : Nat) (c : Cmd) (w : StoreWait) (s : State), s.nvmRunning = some a → a.target ≠ 1 → a.cmds = [(op, c)] →
    a.recId ≠ 5 → op ≠ 0x0801 → op ≠ 0x0404 → s.bankUp 0 = true → s.bankUp 1 = true →
    s.nvm.waits.find? (·.cmd == c) = some w →
    (∀ w1, ∃ t, exec (.nvmStore w1 true) s = .next t ∧ Answered op c w.block [] s t) ∧
    (∃ t, exec (.nvmStore true false) s = .next t ∧ ∀ r, t.host.waiting = s.host.waiting ++ [r] →
      r.block.status = 0x28 ∧ r.block.detail = 3 ∧ r.block.stamp = w.block.stamp)) ∧
  (∀ (a : Activity) (w1 w2 : Bool) (c : Cmd) (s : State), s.nvmRunning = some a → a.target ≠ 1 → a.cmds = [(0x0B05, c)] →
    a.format = 0xFFFF → s.bankUp 0 = true → s.bankUp 1 = true → (∃ r ∈ s.nvm.records, r.id = a.recId) →
    (∀ w ∈ s.nvm.waits, w.cmd ≠ c) →
    let gen := s.lastGen a.recId + 1
    let b := if w2 then s.block 0 0 gen else if w1 then s.block 0x28 3 gen else s.block 0x28 2 0
    ∃ t, exec (.nvmStore w1 w2) s = .next t ∧ Finished 0x0B05 c b [] s t ∧
      ((w1 || w2) = true → t.recordGen a.recId = gen ∧ t.recordPresent a.recId = false) ∧
      ((w1 || w2) = false → t.nvm = s.nvm) ∧
      (w2 = false → t.health = { s.health with running := s.health.running.filter (·.scope != scopeNvm) }) ∧
      (w2 = true → t.health = { s.health with running := t.health.running } ∧
        ∀ x ∈ t.health.running, x.scope = scopeNvm → x.target = 2 ∧ x.cmds = []) ∧
      ((w1 || w2) = true ∨ a.recId ≠ 0x20 ∧ a.recId ≠ 4 → t.angle = s.angle ∧ t.clk = s.clk) ∧
      t = { s with angle := t.angle, clk := t.clk, health := t.health, host := t.host, integrity := t.integrity, nvm := t.nvm }) ∧
  (∀ (a : Activity) (k : NvmCopy) (took w2 : Bool) (s : State), s.nvmRunning = some a → a.target = 2 →
    (s.record a.recId).inUse = some k → k.recId = a.recId → s.bankUp 0 = true → s.bankUp 1 = true →
    (∃ r ∈ s.nvm.records, r.id = a.recId) →
    let bank := if (s.record a.recId).inBank1 then 0 else 1
    ∃ t, exec (.nvmStore took w2) s = .next t ∧ (t.record a.recId).copy bank = some { k with checkOk := took } ∧
      (t.record a.recId).copy (1 - bank) = (s.record a.recId).copy (1 - bank) ∧ (t.record a.recId).inUse = some k ∧
      (t.record a.recId).mirrorPending = ((s.record a.recId).mirrorPending && !took) ∧ t.nvmRunning = none ∧
      (∀ id, id ≠ a.recId → t.record id = s.record id) ∧
      t = { s with health := t.health, integrity := t.integrity, nvm := t.nvm }) ∧
  (∀ (a : Activity) (s : State), s.nvmRunning = some a → a.target = 1 → ∀ w2, exec (.nvmStore false w2) s = .next (s.endScope scopeNvm)) ∧
  (∀ (c : Cmd) (s : State), Accepted nvmInfoInfo c s → ∃ t, exec (.nvmInfo c) s = .next t ∧
    Finished 0x0B01 c (s.block 0 0 (recordIds.filter fun id => s.recordPresent id).length) s.nvmInfoData s t ∧
    t = { s with host := t.host }) ∧
  (∀ (c : Cmd) (s : State), Accepted nvmReadInfo c s → u16 c.payload 0 ≠ 3 ∧ ∃ t, exec (.nvmRead c) s = .next t ∧
    Finished 0x0B02 c (s.block 0 0 (if u8 c.payload 2 = 0 then s.recordGen (u16 c.payload 0) else
      (((s.record (u16 c.payload 0)).copy (s.bankSel (u16 c.payload 0) (u8 c.payload 2))).map (·.generation)).getD 0))
      (s.regionBytes (s.bankSel (u16 c.payload 0) (u8 c.payload 2)) (u16 c.payload 0) (u32 c.payload 4) (u16 c.payload 8)) s t ∧
    t = { s with host := t.host }) ∧
  (∀ (c : Cmd) (s : State), Accepted nvmStageInfo c s → let id := u16 c.payload 0
    let top := max (if s.nvm.stageId = some id then s.nvm.stageTop else 0) (u32 c.payload 4 + (c.payload.length - 16))
    ∃ t, exec (.nvmStage c) s = .next t ∧ t.nvm.stageId = some id ∧ t.nvm.stageTop = top ∧
      slice t.nvm.stage (u32 c.payload 4) (c.payload.length - 16) = c.payload.drop 16 ∧ t.nvm.records = s.nvm.records ∧
      Finished 0x0B03 c (s.block 0 0 top) [] s t ∧ t = { s with host := t.host, nvm := t.nvm }) ∧
  (∀ (c : Cmd) (s : State), Accepted nvmCommitInfo c s →
    (s.stageMatches c.payload = false → ∃ t, exec (.nvmCommit c) s = .next t ∧ Finished 0x0B04 c (s.block 0x28 1 0) [] s t ∧
      t = { s with host := t.host }) ∧
    (s.stageMatches c.payload = true → ∃ t, exec (.nvmCommit c) s = .next t ∧ Silent c s t ∧
      (∃ a ∈ t.health.queue, a.scope = scopeNvm ∧ a.recId = u16 c.payload 0 ∧
        a.data = some (fit (u32 c.payload 4) s.nvm.stage) ∧ (0x0B04, c) ∈ a.cmds) ∧ t = { s with health := t.health, host := t.host })) ∧
  (∀ (c : Cmd) (s : State), Accepted nvmEraseInfo c s → erasable (u16 c.payload 0) = true ∧
    ∃ t, exec (.nvmErase c) s = .next t ∧ Silent c s t ∧
      (∃ a ∈ t.health.queue, a.scope = scopeNvm ∧ a.recId = u16 c.payload 0 ∧ a.format = 0xFFFF ∧ a.data = some [] ∧
        (0x0B05, c) ∈ a.cmds) ∧ t = { s with health := t.health, host := t.host }) ∧
  ∀ (c : Cmd) (s : State), Accepted keyProvisionInfo c s → ∃ t, exec (.keyProvision c) s = .next t ∧ Silent c s t ∧
    (∃ a ∈ t.health.queue, a.scope = scopeNvm ∧ a.recId = 3 ∧ a.data = some (slice c.payload 16 32) ∧ (0x0B06, c) ∈ a.cmds) ∧
    t = { s with health := t.health, host := t.host }

/-- R417, with R405, R399 and R414 beside it. A registered power fail puts the device into Pavane and stops acceptance; it asks for a flush
exactly when the restored image stands in the retention banks, and without one the flush areas stand, also when the flush is said to
be complete. A flush leaves in each area's two slots the newest valid image and the new one, of a higher generation, with what its bank of
the journal holds; then packets are accepted again. The aux pins carry nothing from the power fail on. -/
def Obligations.FlushKeepsTheNewestImage : Prop :=
  (∀ s : State, s.power.running = false ∨ s.power.halted = true ∨ s.power.pfail = true → exec .pfail s = .next s) ∧
  (∀ s : State, s.power.running = true → s.power.halted = false → s.power.pfail = false → ∃ t, exec .pfail s = .next t ∧
    t.power.pfail = true ∧ t.power.phase = .pavane ∧ t.host.journal.acceptStopped = true ∧
    t.host.journal.flushing = s.host.journal.imageRestored ∧ t.host.checked = [] ∧ t.nvm.flush0 = s.nvm.flush0 ∧
    t.nvm.flush1 = s.nvm.flush1 ∧ (s.power.phase ≠ .pavane → t.power.pavaneCause = .pfail ∧ t.sched.src.getLsbD 4 = true ∧
      t.aux.turn = none) ∧ (∀ pin, t.pinRoles pin = []) ∧
    (s.host.journal.imageRestored = false → exec .journalFlushComplete t = .next t)) ∧
  (∀ s : State, s.host.journal.flushing = false → exec .journalFlushComplete s = .next s) ∧
  ∀ s : State, s.host.journal.flushing = true → ∃ t i j, exec .journalFlushComplete s = .next t ∧
    (s.nvm.bank0 = false → t.nvm.flush0 = s.nvm.flush0) ∧ (s.nvm.bank1 = false → t.nvm.flush1 = s.nvm.flush1) ∧
    (s.nvm.bank0 = true → i ∈ t.nvm.flush0 ∧ t.nvm.flush0.length ≤ 2 ∧ ∀ x, newestImage s.nvm.flush0 = some x → x ∈ t.nvm.flush0) ∧
    (s.nvm.bank1 = true → j ∈ t.nvm.flush1 ∧ t.nvm.flush1.length ≤ 2 ∧ ∀ x, newestImage s.nvm.flush1 = some x → x ∈ t.nvm.flush1) ∧
    (∀ x ∈ s.nvm.flush0 ++ s.nvm.flush1, x.generation < i.generation) ∧ j.generation = i.generation ∧ i.consumed = false ∧
    i.valid = s.host.journal.bankA.inService ∧ j.valid = s.host.journal.bankB.inService ∧
    (s.host.journal.bankA.inService = true → i.toJournalImage = s.journalImage s.host.journal.bankA.bad) ∧
    (s.host.journal.bankB.inService = true → j.toJournalImage = s.journalImage s.host.journal.bankB.bad) ∧
    t.host.journal.flushing = false ∧ t.host.journal.acceptStopped = false ∧
    t.host.journal.live = s.host.journal.live ∧ t.nvm.records = s.nvm.records ∧
    t = { s with nvm := t.nvm, host := t.host, integrity := { s.integrity with units := t.integrity.units }, power := t.power }

/-- R404, R407, R408, R410 to R412, R414 to R416, R429, R456. A cold start with FACTORY_TEST high or a failed boot ROM halts and starts
nothing; any other ends measurement-ready, with the start hold released, or in the recovery-only state with it; in every case both
sets are empty, no emitter plays and the records stay in use from eMRAM. PFAIL_RECOVER is such a start, under its conditions alone.
A warm start goes through its steps in time: it takes no packet meanwhile, replays the journal (ST_BUSY 0x03), keeps both sets, and
answers RESET_WARM at its release; one that fails goes through Pavane. POWER_DOWN is answered once earlier
commands are. Pavane powers down after 10 ms and 0 V of bias.
Where the spec is open it rests on log entries 26, 27, 30, 31, 32. -/
def Obligations.StartsAndPowerDown : Prop :=
  (∀ (st : ColdStart) (s : State), st.factoryTest = true ∨ st.romOk = false → ∃ t, exec (.porRelease st) s = .next t ∧
    t.power.halted = true ∧ t.executes = false ∧ t.host.waiting = [] ∧ t.clk.started = false ∧ t.sched.inhibit = 0x3E#6 ∧ Dark t ∧
    t.nvm.records = s.nvm.records ∧ t.out = s.out ∧ t.pending = s.pending) ∧
  (∀ (st : ColdStart) (s : State), st.factoryTest = false → st.romOk = true → ∃ t, exec (.porRelease st) s = .next t ∧
    t.power.running = true ∧ t.power.halted = false ∧ Dark t ∧ t.sets.epoch = 0 ∧ t.sets.active.views = [] ∧
    t.sets.shadow.views = [] ∧ t.zone.clearA = false ∧ t.zone.clearB = false ∧ t.pending = s.pending ∧
    (t.power.phase = .ready ∧ t.power.ready = true ∧ t.sched.src.getLsbD 5 = false ∨
      t.power.phase = .recovery ∧ t.sched.src.getLsbD 5 = true) ∧
    (st.crystalOk = false → t.power.phase = .recovery ∧ t.power.spiOnly = true)) ∧
  (∀ (st : ColdStart) (s : State),
    let may := s.power.phase = .pavane ∧ s.power.pavaneCause = .pfail ∧ s.host.journal.flushing = false ∧
      s.power.pavaneAt + 12800000 ≤ s.clk.now
    (¬ may → exec (.pfailRecover st) s = .next s) ∧ (may → exec (.pfailRecover st) s = exec (.porRelease st) s)) ∧
  (∀ (un : List BadCopy) (dv : List OddCopy) (s : State),
    (s.executes = false ∨ s.power.resetWarm = none ∨ s.power.phase = .pavane →
      ∀ ok, exec (.warmStart ok un dv) s = .next s) ∧
    ∀ c ok, s.executes = true → s.power.resetWarm = some c → s.power.phase ≠ .pavane →
      ∃ t, exec (.warmStart ok un dv) s = .next t ∧ t.power.phase = .warm ∧ t.power.ready = false ∧ t.power.resetWarm = some c ∧
        t.power.warm = some { since := s.clk.now, step := .restart, imageOk := ok, bad := un, odd := dv,
                              recovery := decide (s.power.phase = .recovery) } ∧
        t.executes = false ∧ t.busyDetail = some 4 ∧ t.sched.src.getLsbD 5 = true ∧ t.sets = s.sets ∧ t.clk = s.clk ∧
        t.nvm.records = s.nvm.records ∧ t.free = s.free) ∧
  (∀ (w : WarmRun) (s : State), s.power.phase = .warm → s.power.running = true → s.power.warm = some w →
    (w.step = .restart → s.clk.now < w.since + 7680000 → s.warmStep = s) ∧
    (w.step = .restart → w.since + 7680000 ≤ s.clk.now → w.imageOk = false →
      s.warmStep.power.phase = .pavane ∧ s.warmStep.power.pavaneCause = .escalation ∧ s.warmStep.power.coldStartAfter = true ∧
      s.warmStep.power.warm = none ∧ s.warmStep.sets = s.sets ∧ s.warmStep.nvm.records = s.nvm.records) ∧
    (w.step = .restart → w.since + 7680000 ≤ s.clk.now → w.imageOk = true →
      s.warmStep.power.warm = some { w with step := .replay } ∧ (s.power.takeover = false → s.warmStep.busyDetail = some 3) ∧
      s.warmStep.sets = s.sets ∧
      (∀ l ∈ s.host.journal.live, ∀ r d, (s.restoreControl w.bad w.odd).readCopies w.bad w.odd l = some (.done, d) →
        l.reply = some r → r.final = true →
        ∃ r1 ∈ s.warmStep.host.waiting, r1.tag = r.tag ∧ r1.seq = r.seq ∧ r1.block = r.block ∧ r1.final = r.final)) ∧
    (w.step = .lanes → w.since + 12544000 ≤ s.clk.now → ∀ c, s.power.resetWarm = some c → ∃ r,
      s.warmStep.power.phase = (if w.recovery then .recovery else .ready) ∧ s.warmStep.power.ready = !w.recovery ∧
      s.warmStep.power.warm = none ∧ s.warmStep.power.resetWarm = none ∧ s.warmStep.sets = s.sets ∧
      (w.recovery = false → s.warmStep.sched.src.getLsbD 5 = false) ∧
      s.warmStep.host.waiting.getLast? = some r ∧ r.opcode = 0x0110 ∧ r.tag = c.tag ∧ r.final = true ∧ r.block = s.block 0 0 0 ∧
      s.warmStep.nvm.records = s.nvm.records ∧ s.warmStep.free = s.free)) ∧
  (∀ s : State,
    (s.power.running = false ∨ s.power.halted = true ∨ s.power.phase = .pavane → exec .standbyComparisonFail s = .next s) ∧
    (s.power.running = true → s.power.halted = false → s.power.phase ≠ .pavane → ∃ t, exec .standbyComparisonFail s = .next t ∧
      t.power.phase = .pavane ∧ t.power.pavaneCause = .supervisor ∧ t.sched.src.getLsbD 4 = true ∧
      t.sched.inhibit.getLsbD 5 = true ∧ t.zone.clearA = false ∧ t.zone.clearB = false ∧ t.sets = s.sets ∧ t.nvm = s.nvm)) ∧
  (∀ (c : Cmd) (s : State), Accepted powerDownInfo c s → (∀ l ∈ s.host.journal.live, l.isOf c = true → s.jixOf c ≤ l.jix) →
    (s.earlierDone c = true → s.power.powerDown = [] → ∃ t, exec (.powerDown c) s = .next t ∧ Finished 0x0B07 c (s.block 0 0 0) [] s t ∧
      t.power = { s.power with powerDown := [], pavaneDue := some (s.power.pavaneDue.getD s.clk.now),
                               coldStartAfter := s.power.coldStartAfter || decide (u8 c.payload 0 = 1) } ∧
      t = { s with host := t.host, power := t.power }) ∧
    (s.earlierDone c = false → (∀ x ∈ s.power.powerDown, s.earlierDone x.1 = false ∧ s.clk.now < x.2 + 1280000000) →
      ∃ t, exec (.powerDown c) s = .next t ∧ Silent c s t ∧
      t.power = { s.power with powerDown := s.power.powerDown ++ [(c, s.clk.now)] } ∧ t = { s with host := t.host, power := t.power })) ∧
  ∀ s : State,
    let due := s.power.phase = .pavane ∧ s.power.pfail = false ∧ s.power.poweredDown = false ∧
      s.power.pavaneAt + 12800000 ≤ s.clk.now
    (¬ due → exec .pavanePowerDown s = .next s) ∧
    (due → s.bias.hvb ≠ 0 →
      exec .pavanePowerDown s = .next { s with motion := { s.motion with mdrv := { s.motion.mdrv with running := false } } }) ∧
    (due → s.bias.hvb = 0 → s.emission.emitters.length = 16 → ∃ t, exec .pavanePowerDown s = .next t ∧ t.power.poweredDown = true ∧
      t.mdrv.running = false ∧ (∀ x ∈ t.emission.emitters, ∃ code, x.out = .hold code) ∧ t.power.phase = .pavane ∧
      t.angle = { s.angle with exc := s.angle.exc.held } ∧ t.motion.galvo = s.motion.galvo.held ∧
      t = { s with angle := t.angle, clk := t.clk, emission := t.emission, motion := t.motion, power := t.power, returns := t.returns })

/-! ## Health record, re-plan and maintenance (chapter 17) -/

/-- R434, R438, R439, R444, R446, Table 17.3. The status opcodes report and clear what their masks name; each HEALTH_READ and each due
HEALTH_PUBLISH takes the next record number, and a publication sends seven telegrams. A tile temperature outside −45 to +135 °C, or
with a failed self-check, is invalid and leaves the last one. A re-plan, commanded or due, counts, notes its time, delivers the device
pace and moves the
margins only within their steps: HEADROOM falls by at most 8, but to 0 where the re-plan takes its baseline, OV_TRIM moves by at most 5
and a THR_OFFSET by at most 4.
Where the spec is open it rests on log entries 113, 114. -/
def Obligations.HealthIsReportedAndReplanned : Prop :=
  (∀ (c : Cmd) (s : State), Accepted timebaseStatusInfo c s → ∃ t, exec (.timebaseStatus c) s = .next t ∧
    Finished 0x0A02 c (s.block 0 0 s.clk.state.code) s.timebaseBlock s t ∧ t = { s with host := t.host }) ∧
  (∀ (c : Cmd) (s : State), Accepted arbiterStatusInfo c s → ∃ t d, exec (.arbiterStatus c) s = .next t ∧
    Finished 0x0A09 c (s.block 0 0 s.health.queue.length) d s t ∧ u8 d 0 = s.health.running.length % 256 ∧
    u8 d 1 = s.health.queue.length % 256 ∧ t = { s with host := t.host, free := s.free + s.health.running.length }) ∧
  (∀ (c : Cmd) (s : State), Accepted fabricStatusInfo c s → let n := u8 c.payload 0
    let m := u16 c.payload 2
    n < s.fabric.tiles.length → n < s.fabric.rejection.length → ∃ t d, exec (.fabricStatus c) s = .next t ∧
      Finished 0x0A03 c (s.block 0 0 (s.tileSpares n)) d s t ∧
      t.tile n = { s.tile n with chainAbandonedSeen := (s.tile n).chainAbandonedSeen && !bit m 0,
                                 overflowSeen := (s.tile n).overflowSeen && !bit m 1,
                                 droppedSeen := (s.tile n).droppedSeen && !bit m 2 } ∧
      t.rejection n = { s.rejection n with budgetLimited := (s.rejection n).budgetLimited && !bit m 3,
                                           ownRejected := (s.rejection n).ownRejected && !bit m 4,
                                           tapOverrun := (s.rejection n).tapOverrun && !bit m 5 } ∧
      (∀ k, k ≠ n → t.tile k = s.tile k ∧ t.rejection k = s.rejection k) ∧
      t = { s with host := t.host, fabric := { s.fabric with tiles := t.fabric.tiles, rejection := t.fabric.rejection } }) ∧
  (∀ (c : Cmd) (s : State), Accepted healthReadInfo c s → let p := c.payload
    let m := u16 p 2
    ∃ t, exec (.healthRead c) s = .next t ∧ t.health.recordNumber = wrap 32 (s.health.recordNumber + 1) ∧
      t.health.snapshot.length = 7168 ∧
      Finished 0x0A01 c (s.block 0 0 t.health.recordNumber) (slice t.health.snapshot (1024 * u8 p 0) (1024 * u8 p 1)) s t ∧
      t.health = { s.health with recordNumber := t.health.recordNumber, snapshot := t.health.snapshot,
                                 takeoverSeen := s.health.takeoverSeen && !bit m 0, journalLost := s.health.journalLost && !bit m 3,
                                 bankDiverged := s.health.bankDiverged && !bit m 4, nvmDiverged := s.health.nvmDiverged && !bit m 5,
                                 replanHeld := s.health.replanHeld && !bit m 10,
                                 filterTestFail := s.health.filterTestFail && !bit m 13 } ∧
      t = { s with health := t.health, host := t.host }) ∧
  (∀ (c : Cmd) (s : State), Accepted healthConfigInfo c s → ∃ t, exec (.healthConfig c) s = .next t ∧
    t.health.config = c.payload ∧
    (bit (u8 c.payload 4) 1 = false → Finished 0x0A0A c (s.block 0 0 0) [] s t ∧ t.health = { s.health with config := c.payload } ∧
      t.nvm = s.nvm) ∧
    (bit (u8 c.payload 4) 1 = true → Silent c s t ∧ (∃ w ∈ t.nvm.waits, w.cmd = c ∧ w.block = s.block 0 0 0) ∧
      ∃ a ∈ t.health.queue, a.recId = 0x28 ∧ (0x0A0A, c) ∈ a.cmds) ∧
    t = { s with health := t.health, host := t.host, nvm := { s.nvm with waits := t.nvm.waits } }) ∧
  (∀ s : State,
    let due := s.power.running = true ∧ s.healthEnabled = true ∧ s.net.lastHealth + 1280000 * tcPeriod s.net.trdp ≤ s.clk.now
    (¬ due → exec .healthPublish s = .next s) ∧
    (due → ∃ t, exec .healthPublish s = .next t ∧ t.net.lastHealth = s.clk.now ∧
      t.health = { s.health with recordNumber := wrap 32 (s.health.recordNumber + 1), snapshot := t.health.snapshot } ∧
      (s.linkUp 0 = true → s.netPowered = true → ∃ fs, t.net.tx = s.net.tx ++ fs ∧ fs.length = 7 ∧ ∀ f ∈ fs, f.kind = .health) ∧
      t = { s with health := t.health, integrity := t.integrity, net := t.net })) ∧
  (∀ (n : Nat) (temp : Int) (ok : Bool) (s : State),
    (ok = true → -4500 ≤ temp → temp ≤ 13500 → exec (.tileTempRead n temp ok) s = .next { s with fabric := { s.fabric with
      tileTemp := s.fabric.tileTemp.set n (some temp), tileTempValid := s.fabric.tileTempValid.set n true } }) ∧
    (ok = false ∨ temp < -4500 ∨ 13500 < temp → exec (.tileTempRead n temp ok) s = .next { s with fabric := { s.fabric with
      tileTempValid := s.fabric.tileTempValid.set n false } })) ∧
  (∀ s : State, s.power.running = false ∨ s.power.phase ≠ .ready ∨ s.replanDue = false → exec .replanPeriodic s = .next s) ∧
  ∀ (c : Cmd) (s : State), s.health.ovTrim.natAbs ≤ 50 → (∀ k, (s.health.thrOffset.getD k 0).natAbs ≤ 16) →
    let kept (t : State) : Prop := t.health.replanCount = satInc 32 s.health.replanCount ∧ t.health.replanTime = s.stamp ∧
      t.health.lastReplan = some s.clk.now ∧ t.health.monitorValid = s.monitorsValid ∧
      ((∃ m ∈ s.health.eff, m.value ≠ none) ∨ (∀ m ∈ s.health.eff, m.ratio = none ∨ m.baseline ≠ none) →
        s.emission.headroom ≤ t.emission.headroom + 8) ∧
      ((∀ m ∈ s.health.eff, m.value = none) → (∃ m ∈ s.health.eff, m.ratio ≠ none ∧ m.baseline = none) → t.emission.headroom = 0) ∧
      (t.health.ovTrim - s.health.ovTrim).natAbs ≤ 5 ∧
      (∀ k, (t.health.thrOffset.getD k 0 - s.health.thrOffset.getD k 0).natAbs ≤ 4) ∧
      t = { s with clk := t.clk, emission := t.emission, free := t.free, health := t.health, host := t.host, integrity := t.integrity,
                   net := t.net, power := { s.power with tiles := t.power.tiles }, sched := t.sched }
    (s.power.running = true → s.power.phase = .ready → s.replanDue = true →
      ∃ t, exec .replanPeriodic s = .next t ∧ kept t ∧ t.host = s.host) ∧
    (Accepted replanInfo c s → ∃ t, exec (.replan c) s = .next t ∧ kept t ∧
      Finished 0x0A07 c (s.block 0 0 s.monitorsValid) [] s t)

/-- R432, R433, R440 to R443, R446. SELF_TEST and REPAIR queue their activity; a periodic test is queued once its period has passed and
its target serves nothing; the arbiter starts the first waiting activity whose scope is free, and a store takes its record's data
then; a row repair that class 0 had no room for is queued once there is room. A failed core passes to the lowest spare in a gap, which is
woken first, or without a spare leaves its emitter FAULTED. A completed row or engine substitution changes the repair map alone, counts,
asks for the map's store and answers what serves
now, or ST_FAULT_REPAIR 1 without a spare; a failed test marks its target failed, a passed RETEST clears it, and a failed filter
test only sets FILTER_TEST_FAIL.
Where the spec is open it rests on log entries 109, 110, 111, 112. -/
def Obligations.MaintenanceRunsItsActivities : Prop :=
  (∀ (c : Cmd) (s : State), Accepted selfTestInfo c s → ∃ t, exec (.selfTest c) s = .next t ∧ Silent c s t ∧
    t.health = { s.health with
      queue := s.health.queue ++ [Activity.test (u8 c.payload 0) (u16 c.payload 2) [(0x0A06, c)]] } ∧
    t = { s with health := t.health, host := t.host }) ∧
  (∀ (c : Cmd) (s : State), Accepted repairInfo c s → ∃ t, exec (.repairSubstitute c) s = .next t ∧
    exec (.repairRetest c) s = .next t ∧ Silent c s t ∧
    t.health = { s.health with queue := s.health.queue ++ [repairActivity c.payload [(0x0A08, c)]] } ∧
    t = { s with health := t.health, host := t.host }) ∧
  (∀ (test target : Nat) (s : State),
    let due := 1 ≤ test ∧ test ≤ 3 ∧ target < testTargets test ∧ s.power.running = true ∧ s.power.phase = .ready ∧
      (∀ r, s.health.tests.find? (fun r => r.test == test && r.target == target) = some r →
        r.at_ + 1280000000 * (60 * s.testPeriod) ≤ s.clk.now) ∧
      s.targetServes test target = false ∧ s.targetBad test target = false ∧ s.underway (0x09 + test) target = false
    (¬ due → exec (.selfTestPeriodic test target) s = .next s) ∧
    (due → s.arbiterFull 3 = false → ∃ t, exec (.selfTestPeriodic test target) s = .next t ∧
      t = { s with health := { s.health with queue := s.health.queue ++ [Activity.test test target []] } })) ∧
  (∀ s : State,
    (s.power.running = false ∨ s.power.pfail = true ∨ s.power.phase = .cold ∨ s.power.phase = .warm →
      exec .arbiterGrant s = .next s) ∧
    (s.power.running = true → s.power.pfail = false → s.power.phase ≠ .cold → s.power.phase ≠ .warm →
      (∀ x ∈ s.health.queue, x.cls = 0 → (s.runningIn x.scope).any (·.cls == 3) = false) →
      ((∀ x ∈ s.health.queue, s.startable x = false) → exec .arbiterGrant s = .next s) ∧
      ∀ a, (arbiterOrder s.health.queue).find? (fun a => s.startable a) = some a →
        (a.scope ≠ scopeNvm → (a.code = 0x02 ∨ a.code = 0x03 ∨ a.code = 0x04 ∨ a.code = 0x06) → exec .arbiterGrant s =
          .next (State.listedRow { s with health := { s.health with
            queue := s.health.queue.erase a, running := s.health.running ++ [{ a with start := some s.clk.now }] } })) ∧
        (a.scope = scopeNvm → a.target ≠ 1 → ∃ t : State, exec .arbiterGrant s = .next t.listedRow ∧ t.health.queue = s.health.queue.erase a ∧
          (∃ d, t.health.running = s.health.running ++ [{ a with row := s.stamp, data := some d, start := some s.clk.now }] ∧
            ∀ x, a.data = some x → d = x) ∧ t = { s with health := t.health }))) ∧
  (∀ s : State,
    (s.integrity.repairList = [] ∨ s.arbiterFull 0 = true → s.listedRow = s) ∧
    ∀ bank row rest, bank < 96 → s.integrity.repairList = (bank, row) :: rest → s.arbiterFull 0 = false → ∃ a,
      a.code = 0x04 ∧ a.target = bank ∧ a.row = row ∧ a.cmds = [] ∧
      s.listedRow = { s with health := { s.health with queue := s.health.queue ++ [a] },
                             integrity := { s.integrity with repairList := rest } }) ∧
  (∀ (scope : Nat) (ok : Bool) (s : State), s.runningIn scope = none →
    exec (.activityComplete scope ok) s = .next s ∧ exec (.testComplete scope ok) s = .next s) ∧
  (∀ (scope op : Nat) (ok : Bool) (c : Cmd) (a : Activity) (s : State), s.runningIn scope = some a → a.cmds = [(op, c)] →
    (a.code = 0x06 → exec (.activityComplete scope ok) s = .next (s.endScope scope)) ∧
    (a.code = 0x04 → a.retest = false →
      (∀ r, s.freeRow a.target = some r → ∃ t, exec (.activityComplete scope ok) s = .next t ∧
        t.power = { s.power with repair := { s.power.repair with
          sramRows := s.power.repair.sramRows ++ [(a.target, a.row, r)] } } ∧
        t.health.repairsTotal = satInc 32 s.health.repairsTotal ∧ Finished op c (s.block 0 0 r) [] s t ∧
        t = { s with health := t.health, host := t.host, integrity := t.integrity, power := t.power }) ∧
      (s.freeRow a.target = none → ∃ t, exec (.activityComplete scope ok) s = .next t ∧
        Finished op c (s.block 0x29 1 0) [] s t ∧ t.power = s.power ∧ t.health.repairsTotal = s.health.repairsTotal)) ∧
    (a.code = 0x03 → ok = false → a.target < s.emission.emitters.length →
      (s.nextSpareCore a.target = none → a.row ≠ 2 ∨ (s.emitter a.target).short = true →
        ∃ t, exec (.activityComplete scope ok) s = .next t ∧ (t.emitter a.target).faulted = true ∧
          ∀ k, s.power.repair.coreFor.getD a.target none = some k → k ∈ t.power.repair.badCore) ∧
      (∀ k, s.nextSpareCore a.target = some k →
        (s.domain (.emitterDac k) = none → ∃ t, exec (.activityComplete scope ok) s = .next t ∧
          t.domain (.emitterDac k) = some { dom := .emitterDac k, phase := .requested, idleSince := none } ∧
          t.power.repair.coreFor = s.power.repair.coreFor ∧ t.health = s.health) ∧
        (s.awake (.emitterDac k) = true → s.inGap a.target = true → ∃ t, exec (.activityComplete scope ok) s = .next t ∧
          t.power.repair.coreFor = s.power.repair.coreFor.set a.target (some k) ∧ (t.emitter a.target).faulted = false ∧
          t.health.repairsTotal = satInc 32 s.health.repairsTotal))) ∧
    (a.code = 0x02 → ∀ g, s.nextSpareEngine (a.target / 16) = some g → ∃ t, exec (.activityComplete scope ok) s = .next t ∧
      t.power.repair = { s.power.repair with engineFor := s.power.repair.engineFor.set a.target (some g) } ∧
      t.health.repairsTotal = satInc 32 s.health.repairsTotal ∧ Finished op c (s.block 0 0 g) [] s t ∧
      t = { s with fabric := t.fabric, health := t.health, host := t.host, power := t.power })) ∧
  ∀ (scope op test : Nat) (pass : Bool) (c : Cmd) (a : Activity) (s : State), s.runningIn scope = some a → a.cmds = [(op, c)] →
    1 ≤ test → test ≤ 4 → a.code = 0x09 + test →
    ∃ t, exec (.testComplete scope pass) s = .next t ∧
      t.health.running = s.health.running.filter (·.scope != scope) ∧
      (test ≤ 3 → a.retest = false →
        (pass = true → Finished op c (s.block 0 0 0) [] s t ∧ t.power = s.power) ∧
        (pass = false → Finished op c (s.block 0 0 1) [] s t ∧ t.targetBad test a.target = true)) ∧
      (test ≤ 3 → a.retest = true →
        (pass = true → Finished op c (s.block 0 0 a.target) [] s t ∧ t.targetBad test a.target = false) ∧
        (pass = false → Finished op c (s.block 0x29 2 0) [] s t ∧ t.targetBad test a.target = true)) ∧
      (test = 4 → t.health.filterTestFail = (s.health.filterTestFail || !pass) ∧ t.power = s.power ∧
        Finished op c (s.block 0 0 (if pass then 0 else 1)) [] s t) ∧
      t = { s with angle := t.angle, clk := t.clk, fabric := t.fabric, health := t.health, host := t.host, power := t.power,
                   returns := t.returns }

/-! ## The JTAG port (chapter 18) -/

/-- R456, R457. IDCODE gives STEPPING, 0x7192 and 0x2A7 in 32 bits and is the instruction after TAP reset; BYPASS gives one 0;
SAMPLE/PRELOAD reads the pins and keeps the bits shifted in; EXTEST takes the pins, but those that are only observed, while the device is
halted or recovery-only, and is BYPASS otherwise. None changes anything beside the TAP's instruction, the preloaded bits and what is
shifted out.
Where the spec is open it rests on log entries 33, 153, 154. -/
def Obligations.TestPortDisturbsNothing : Prop :=
  (∀ s : State, exec .jtagIdcode s = .next { s with power := { s.power with jtagIr := .idcode }, out := s.out ++ [.jtag 32 idcode] }) ∧
  (idcode % 2 ^ 12 = 0x2A7 ∧ idcode / 2 ^ 12 % 2 ^ 16 = 0x7192 ∧ idcode / 2 ^ 28 = Config.stepping % 16 ∧ idcode < 2 ^ 32) ∧
  (∀ s : State, exec .jtagTapReset s = .next { s with power := { s.power with jtagIr := .idcode } }) ∧
  (∀ s : State, exec .jtagBypass s = .next { s with power := { s.power with jtagIr := .bypass }, out := s.out ++ [.jtag 1 0] }) ∧
  (∀ (x : JtagScan) (s : State), exec (.jtagSamplePreload x) s =
    .next { s with power := { s.power with jtagIr := .sample, preload := x.shifted }, out := s.out ++ [.sampled (s.scanSample x.outside)] }) ∧
  (∀ (io33 : Bool) (x : Ball) (s : State), (x.observed = true ∨ s.extests = false → s.scanned io33 x = s.ball io33 x) ∧
    (s.power.halted = false → s.power.phase ≠ .recovery → s.extests = false)) ∧
  ∀ s : State,
    (s.power.halted = true ∨ s.power.phase = .recovery →
      exec .jtagExtest s = .next { s with power := { s.power with jtagIr := .extest } }) ∧
    (s.power.halted = false → s.power.phase ≠ .recovery → exec .jtagExtest s = exec .jtagBypass s)

/-! ## The whole machine -/

/-- Every command completes: from every state, with every operand, `exec` answers a next state, raises no fault and refuses nothing,
and leaves the queue as it stands; so every step answers a next state with the queue's rest.
Where the spec is open it rests on log entries 1, 4. -/
def Obligations.EveryCommandCompletes : Prop :=
  (∀ (c : Instr) (s : State), ∃ t, exec c s = .next t ∧ t.pending = s.pending) ∧
  ∀ s : State, ∃ t, step s = .next t ∧ t.pending = s.pending.tail

/-- R202, R203. Every step from a state with safe zone outputs ends in one: both outputs are driven alike, are low under
ZONE_OUT_FAULT, under ZONE_WDOG and in Pavane, and a test pulse runs only on a clear output.
Where the spec is open it rests on log entry 1. -/
def Obligations.StepsKeepZoneOutputsSafe : Prop := ∀ s t : State, ZoneSafe s → step s = .next t → ZoneSafe t

/-- R416. A step from Pavane stays in Pavane unless its command is one that begins a cold start, and such a start leaves Pavane or
halts. The completion of POWER_DOWN with MODE 1 (the flush it waits for) stops the device for its cold start, which POR_RELEASE then
is. -/
def Obligations.OnlyAColdStartEndsPavane : Prop :=
  (∀ s t : State, s.power.phase = .pavane → step s = .next t →
    t.power.phase = .pavane ∨ ∃ c rest, s.pending = c :: rest ∧ StartsCold c s) ∧
  (∀ (c : Instr) (s : State), s.power.phase = .pavane → StartsCold c s →
    ∃ t, exec c s = .next t ∧ t.power.phase ≠ .pavane ∧ t.power.running = true) ∧
  ∀ s : State, s.power.phase = .pavane → s.power.coldStartAfter = true → s.power.pfail = false →
    s.host.journal.flushing = true → ∃ t, exec .journalFlushComplete s = .next t ∧ t.power.running = false ∧
      t.power.phase = .pavane

/-- R84, R192, R202, R416. The state after reset: INHIBIT_LIVE reads 0x3E with START as the only source, nothing plays, both zone
outputs are low and safe, both sets are empty with epoch 0, every queue expects sequence 0 with no tag in use, its ring
disabled and running, and no command waits.
Where the spec is open it rests on log entries 5, 6. -/
def Obligations.ResetIsDarkAndEmpty : Prop :=
  State.reset.sched.inhibit = 0x3E#6 ∧ State.reset.sched.src = 0x20#6 ∧ State.reset.sched.queue = [] ∧ Dark State.reset ∧
  ZoneSafe State.reset ∧ State.reset.zone.clearA = false ∧ State.reset.sets.epoch = 0 ∧ State.reset.sets.active.views = [] ∧
  State.reset.sets.shadow.views = [] ∧ State.reset.host.queues.length = 4 ∧
  (∀ q, q < 4 → (State.reset.queue q).nextSeq = 0 ∧ (State.reset.queue q).tags = [] ∧ (State.reset.ring q).enabled = false ∧
    (State.reset.ring q).halted = false ∧ (State.reset.ring q).phase = true) ∧
  State.reset.power.running = false ∧ State.reset.pending = []
end

