-- ==== Sys2Proof/Laws/State.lean ====
section
/-!
SUPPORT. One lemma per field per update of the state, each true by unfolding the update once: no later proof has to unfold a
record update.
-/
namespace Sys2Proof.Machine

/-- Two states with the same fields are the same state. -/
theorem State.ext_fields {s t : State} (h1 : s.host = t.host) (h2 : s.power = t.power) (h3 : s.nvm = t.nvm)
    (h4 : s.clk = t.clk) (h5 : s.emission = t.emission) (h6 : s.sched = t.sched) (h7 : s.zone = t.zone)
    (h8 : s.sets = t.sets) (h9 : s.returns = t.returns) (h10 : s.fabric = t.fabric) (h11 : s.angle = t.angle)
    (h12 : s.motion = t.motion) (h13 : s.aux = t.aux) (h14 : s.net = t.net) (h15 : s.integrity = t.integrity)
    (h16 : s.health = t.health) (h17 : s.out = t.out) (h18 : s.free = t.free) (h19 : s.pending = t.pending) : s = t := by
  cases s; cases t; simp_all

/-! ### onHost -/

@[simp] theorem State.onHost_host (f : HostSide → HostSide) (s : State) :
    (s.onHost f).host = f s.host := rfl
@[simp] theorem State.onHost_power (f : HostSide → HostSide) (s : State) :
    (s.onHost f).power = s.power := rfl
@[simp] theorem State.onHost_nvm (f : HostSide → HostSide) (s : State) :
    (s.onHost f).nvm = s.nvm := rfl
@[simp] theorem State.onHost_clk (f : HostSide → HostSide) (s : State) :
    (s.onHost f).clk = s.clk := rfl
@[simp] theorem State.onHost_emission (f : HostSide → HostSide) (s : State) :
    (s.onHost f).emission = s.emission := rfl
@[simp] theorem State.onHost_sched (f : HostSide → HostSide) (s : State) :
    (s.onHost f).sched = s.sched := rfl
@[simp] theorem State.onHost_zone (f : HostSide → HostSide) (s : State) :
    (s.onHost f).zone = s.zone := rfl
@[simp] theorem State.onHost_sets (f : HostSide → HostSide) (s : State) :
    (s.onHost f).sets = s.sets := rfl
@[simp] theorem State.onHost_returns (f : HostSide → HostSide) (s : State) :
    (s.onHost f).returns = s.returns := rfl
@[simp] theorem State.onHost_fabric (f : HostSide → HostSide) (s : State) :
    (s.onHost f).fabric = s.fabric := rfl
@[simp] theorem State.onHost_angle (f : HostSide → HostSide) (s : State) :
    (s.onHost f).angle = s.angle := rfl
@[simp] theorem State.onHost_motion (f : HostSide → HostSide) (s : State) :
    (s.onHost f).motion = s.motion := rfl
@[simp] theorem State.onHost_aux (f : HostSide → HostSide) (s : State) :
    (s.onHost f).aux = s.aux := rfl
@[simp] theorem State.onHost_net (f : HostSide → HostSide) (s : State) :
    (s.onHost f).net = s.net := rfl
@[simp] theorem State.onHost_integrity (f : HostSide → HostSide) (s : State) :
    (s.onHost f).integrity = s.integrity := rfl
@[simp] theorem State.onHost_health (f : HostSide → HostSide) (s : State) :
    (s.onHost f).health = s.health := rfl
@[simp] theorem State.onHost_out (f : HostSide → HostSide) (s : State) :
    (s.onHost f).out = s.out := rfl
@[simp] theorem State.onHost_free (f : HostSide → HostSide) (s : State) :
    (s.onHost f).free = s.free := rfl
@[simp] theorem State.onHost_pending (f : HostSide → HostSide) (s : State) :
    (s.onHost f).pending = s.pending := rfl

/-! ### onPower -/

@[simp] theorem State.onPower_host (f : Power → Power) (s : State) :
    (s.onPower f).host = s.host := rfl
@[simp] theorem State.onPower_power (f : Power → Power) (s : State) :
    (s.onPower f).power = f s.power := rfl
@[simp] theorem State.onPower_nvm (f : Power → Power) (s : State) :
    (s.onPower f).nvm = s.nvm := rfl
@[simp] theorem State.onPower_clk (f : Power → Power) (s : State) :
    (s.onPower f).clk = s.clk := rfl
@[simp] theorem State.onPower_emission (f : Power → Power) (s : State) :
    (s.onPower f).emission = s.emission := rfl
@[simp] theorem State.onPower_sched (f : Power → Power) (s : State) :
    (s.onPower f).sched = s.sched := rfl
@[simp] theorem State.onPower_zone (f : Power → Power) (s : State) :
    (s.onPower f).zone = s.zone := rfl
@[simp] theorem State.onPower_sets (f : Power → Power) (s : State) :
    (s.onPower f).sets = s.sets := rfl
@[simp] theorem State.onPower_returns (f : Power → Power) (s : State) :
    (s.onPower f).returns = s.returns := rfl
@[simp] theorem State.onPower_fabric (f : Power → Power) (s : State) :
    (s.onPower f).fabric = s.fabric := rfl
@[simp] theorem State.onPower_angle (f : Power → Power) (s : State) :
    (s.onPower f).angle = s.angle := rfl
@[simp] theorem State.onPower_motion (f : Power → Power) (s : State) :
    (s.onPower f).motion = s.motion := rfl
@[simp] theorem State.onPower_aux (f : Power → Power) (s : State) :
    (s.onPower f).aux = s.aux := rfl
@[simp] theorem State.onPower_net (f : Power → Power) (s : State) :
    (s.onPower f).net = s.net := rfl
@[simp] theorem State.onPower_integrity (f : Power → Power) (s : State) :
    (s.onPower f).integrity = s.integrity := rfl
@[simp] theorem State.onPower_health (f : Power → Power) (s : State) :
    (s.onPower f).health = s.health := rfl
@[simp] theorem State.onPower_out (f : Power → Power) (s : State) :
    (s.onPower f).out = s.out := rfl
@[simp] theorem State.onPower_free (f : Power → Power) (s : State) :
    (s.onPower f).free = s.free := rfl
@[simp] theorem State.onPower_pending (f : Power → Power) (s : State) :
    (s.onPower f).pending = s.pending := rfl

/-! ### onNvm -/

@[simp] theorem State.onNvm_host (f : Nvm → Nvm) (s : State) :
    (s.onNvm f).host = s.host := rfl
@[simp] theorem State.onNvm_power (f : Nvm → Nvm) (s : State) :
    (s.onNvm f).power = s.power := rfl
@[simp] theorem State.onNvm_nvm (f : Nvm → Nvm) (s : State) :
    (s.onNvm f).nvm = f s.nvm := rfl
@[simp] theorem State.onNvm_clk (f : Nvm → Nvm) (s : State) :
    (s.onNvm f).clk = s.clk := rfl
@[simp] theorem State.onNvm_emission (f : Nvm → Nvm) (s : State) :
    (s.onNvm f).emission = s.emission := rfl
@[simp] theorem State.onNvm_sched (f : Nvm → Nvm) (s : State) :
    (s.onNvm f).sched = s.sched := rfl
@[simp] theorem State.onNvm_zone (f : Nvm → Nvm) (s : State) :
    (s.onNvm f).zone = s.zone := rfl
@[simp] theorem State.onNvm_sets (f : Nvm → Nvm) (s : State) :
    (s.onNvm f).sets = s.sets := rfl
@[simp] theorem State.onNvm_returns (f : Nvm → Nvm) (s : State) :
    (s.onNvm f).returns = s.returns := rfl
@[simp] theorem State.onNvm_fabric (f : Nvm → Nvm) (s : State) :
    (s.onNvm f).fabric = s.fabric := rfl
@[simp] theorem State.onNvm_angle (f : Nvm → Nvm) (s : State) :
    (s.onNvm f).angle = s.angle := rfl
@[simp] theorem State.onNvm_motion (f : Nvm → Nvm) (s : State) :
    (s.onNvm f).motion = s.motion := rfl
@[simp] theorem State.onNvm_aux (f : Nvm → Nvm) (s : State) :
    (s.onNvm f).aux = s.aux := rfl
@[simp] theorem State.onNvm_net (f : Nvm → Nvm) (s : State) :
    (s.onNvm f).net = s.net := rfl
@[simp] theorem State.onNvm_integrity (f : Nvm → Nvm) (s : State) :
    (s.onNvm f).integrity = s.integrity := rfl
@[simp] theorem State.onNvm_health (f : Nvm → Nvm) (s : State) :
    (s.onNvm f).health = s.health := rfl
@[simp] theorem State.onNvm_out (f : Nvm → Nvm) (s : State) :
    (s.onNvm f).out = s.out := rfl
@[simp] theorem State.onNvm_free (f : Nvm → Nvm) (s : State) :
    (s.onNvm f).free = s.free := rfl
@[simp] theorem State.onNvm_pending (f : Nvm → Nvm) (s : State) :
    (s.onNvm f).pending = s.pending := rfl

/-! ### onClk -/

@[simp] theorem State.onClk_host (f : Clk → Clk) (s : State) :
    (s.onClk f).host = s.host := rfl
@[simp] theorem State.onClk_power (f : Clk → Clk) (s : State) :
    (s.onClk f).power = s.power := rfl
@[simp] theorem State.onClk_nvm (f : Clk → Clk) (s : State) :
    (s.onClk f).nvm = s.nvm := rfl
@[simp] theorem State.onClk_clk (f : Clk → Clk) (s : State) :
    (s.onClk f).clk = f s.clk := rfl
@[simp] theorem State.onClk_emission (f : Clk → Clk) (s : State) :
    (s.onClk f).emission = s.emission := rfl
@[simp] theorem State.onClk_sched (f : Clk → Clk) (s : State) :
    (s.onClk f).sched = s.sched := rfl
@[simp] theorem State.onClk_zone (f : Clk → Clk) (s : State) :
    (s.onClk f).zone = s.zone := rfl
@[simp] theorem State.onClk_sets (f : Clk → Clk) (s : State) :
    (s.onClk f).sets = s.sets := rfl
@[simp] theorem State.onClk_returns (f : Clk → Clk) (s : State) :
    (s.onClk f).returns = s.returns := rfl
@[simp] theorem State.onClk_fabric (f : Clk → Clk) (s : State) :
    (s.onClk f).fabric = s.fabric := rfl
@[simp] theorem State.onClk_angle (f : Clk → Clk) (s : State) :
    (s.onClk f).angle = s.angle := rfl
@[simp] theorem State.onClk_motion (f : Clk → Clk) (s : State) :
    (s.onClk f).motion = s.motion := rfl
@[simp] theorem State.onClk_aux (f : Clk → Clk) (s : State) :
    (s.onClk f).aux = s.aux := rfl
@[simp] theorem State.onClk_net (f : Clk → Clk) (s : State) :
    (s.onClk f).net = s.net := rfl
@[simp] theorem State.onClk_integrity (f : Clk → Clk) (s : State) :
    (s.onClk f).integrity = s.integrity := rfl
@[simp] theorem State.onClk_health (f : Clk → Clk) (s : State) :
    (s.onClk f).health = s.health := rfl
@[simp] theorem State.onClk_out (f : Clk → Clk) (s : State) :
    (s.onClk f).out = s.out := rfl
@[simp] theorem State.onClk_free (f : Clk → Clk) (s : State) :
    (s.onClk f).free = s.free := rfl
@[simp] theorem State.onClk_pending (f : Clk → Clk) (s : State) :
    (s.onClk f).pending = s.pending := rfl

/-! ### onEmission -/

@[simp] theorem State.onEmission_host (f : Emission → Emission) (s : State) :
    (s.onEmission f).host = s.host := rfl
@[simp] theorem State.onEmission_power (f : Emission → Emission) (s : State) :
    (s.onEmission f).power = s.power := rfl
@[simp] theorem State.onEmission_nvm (f : Emission → Emission) (s : State) :
    (s.onEmission f).nvm = s.nvm := rfl
@[simp] theorem State.onEmission_clk (f : Emission → Emission) (s : State) :
    (s.onEmission f).clk = s.clk := rfl
@[simp] theorem State.onEmission_emission (f : Emission → Emission) (s : State) :
    (s.onEmission f).emission = f s.emission := rfl
@[simp] theorem State.onEmission_sched (f : Emission → Emission) (s : State) :
    (s.onEmission f).sched = s.sched := rfl
@[simp] theorem State.onEmission_zone (f : Emission → Emission) (s : State) :
    (s.onEmission f).zone = s.zone := rfl
@[simp] theorem State.onEmission_sets (f : Emission → Emission) (s : State) :
    (s.onEmission f).sets = s.sets := rfl
@[simp] theorem State.onEmission_returns (f : Emission → Emission) (s : State) :
    (s.onEmission f).returns = s.returns := rfl
@[simp] theorem State.onEmission_fabric (f : Emission → Emission) (s : State) :
    (s.onEmission f).fabric = s.fabric := rfl
@[simp] theorem State.onEmission_angle (f : Emission → Emission) (s : State) :
    (s.onEmission f).angle = s.angle := rfl
@[simp] theorem State.onEmission_motion (f : Emission → Emission) (s : State) :
    (s.onEmission f).motion = s.motion := rfl
@[simp] theorem State.onEmission_aux (f : Emission → Emission) (s : State) :
    (s.onEmission f).aux = s.aux := rfl
@[simp] theorem State.onEmission_net (f : Emission → Emission) (s : State) :
    (s.onEmission f).net = s.net := rfl
@[simp] theorem State.onEmission_integrity (f : Emission → Emission) (s : State) :
    (s.onEmission f).integrity = s.integrity := rfl
@[simp] theorem State.onEmission_health (f : Emission → Emission) (s : State) :
    (s.onEmission f).health = s.health := rfl
@[simp] theorem State.onEmission_out (f : Emission → Emission) (s : State) :
    (s.onEmission f).out = s.out := rfl
@[simp] theorem State.onEmission_free (f : Emission → Emission) (s : State) :
    (s.onEmission f).free = s.free := rfl
@[simp] theorem State.onEmission_pending (f : Emission → Emission) (s : State) :
    (s.onEmission f).pending = s.pending := rfl

/-! ### onSched -/

@[simp] theorem State.onSched_host (f : Sched → Sched) (s : State) :
    (s.onSched f).host = s.host := rfl
@[simp] theorem State.onSched_power (f : Sched → Sched) (s : State) :
    (s.onSched f).power = s.power := rfl
@[simp] theorem State.onSched_nvm (f : Sched → Sched) (s : State) :
    (s.onSched f).nvm = s.nvm := rfl
@[simp] theorem State.onSched_clk (f : Sched → Sched) (s : State) :
    (s.onSched f).clk = s.clk := rfl
@[simp] theorem State.onSched_emission (f : Sched → Sched) (s : State) :
    (s.onSched f).emission = s.emission := rfl
@[simp] theorem State.onSched_sched (f : Sched → Sched) (s : State) :
    (s.onSched f).sched = f s.sched := rfl
@[simp] theorem State.onSched_zone (f : Sched → Sched) (s : State) :
    (s.onSched f).zone = s.zone := rfl
@[simp] theorem State.onSched_sets (f : Sched → Sched) (s : State) :
    (s.onSched f).sets = s.sets := rfl
@[simp] theorem State.onSched_returns (f : Sched → Sched) (s : State) :
    (s.onSched f).returns = s.returns := rfl
@[simp] theorem State.onSched_fabric (f : Sched → Sched) (s : State) :
    (s.onSched f).fabric = s.fabric := rfl
@[simp] theorem State.onSched_angle (f : Sched → Sched) (s : State) :
    (s.onSched f).angle = s.angle := rfl
@[simp] theorem State.onSched_motion (f : Sched → Sched) (s : State) :
    (s.onSched f).motion = s.motion := rfl
@[simp] theorem State.onSched_aux (f : Sched → Sched) (s : State) :
    (s.onSched f).aux = s.aux := rfl
@[simp] theorem State.onSched_net (f : Sched → Sched) (s : State) :
    (s.onSched f).net = s.net := rfl
@[simp] theorem State.onSched_integrity (f : Sched → Sched) (s : State) :
    (s.onSched f).integrity = s.integrity := rfl
@[simp] theorem State.onSched_health (f : Sched → Sched) (s : State) :
    (s.onSched f).health = s.health := rfl
@[simp] theorem State.onSched_out (f : Sched → Sched) (s : State) :
    (s.onSched f).out = s.out := rfl
@[simp] theorem State.onSched_free (f : Sched → Sched) (s : State) :
    (s.onSched f).free = s.free := rfl
@[simp] theorem State.onSched_pending (f : Sched → Sched) (s : State) :
    (s.onSched f).pending = s.pending := rfl

/-! ### onZone -/

@[simp] theorem State.onZone_host (f : Zone → Zone) (s : State) :
    (s.onZone f).host = s.host := rfl
@[simp] theorem State.onZone_power (f : Zone → Zone) (s : State) :
    (s.onZone f).power = s.power := rfl
@[simp] theorem State.onZone_nvm (f : Zone → Zone) (s : State) :
    (s.onZone f).nvm = s.nvm := rfl
@[simp] theorem State.onZone_clk (f : Zone → Zone) (s : State) :
    (s.onZone f).clk = s.clk := rfl
@[simp] theorem State.onZone_emission (f : Zone → Zone) (s : State) :
    (s.onZone f).emission = s.emission := rfl
@[simp] theorem State.onZone_sched (f : Zone → Zone) (s : State) :
    (s.onZone f).sched = s.sched := rfl
@[simp] theorem State.onZone_zone (f : Zone → Zone) (s : State) :
    (s.onZone f).zone = f s.zone := rfl
@[simp] theorem State.onZone_sets (f : Zone → Zone) (s : State) :
    (s.onZone f).sets = s.sets := rfl
@[simp] theorem State.onZone_returns (f : Zone → Zone) (s : State) :
    (s.onZone f).returns = s.returns := rfl
@[simp] theorem State.onZone_fabric (f : Zone → Zone) (s : State) :
    (s.onZone f).fabric = s.fabric := rfl
@[simp] theorem State.onZone_angle (f : Zone → Zone) (s : State) :
    (s.onZone f).angle = s.angle := rfl
@[simp] theorem State.onZone_motion (f : Zone → Zone) (s : State) :
    (s.onZone f).motion = s.motion := rfl
@[simp] theorem State.onZone_aux (f : Zone → Zone) (s : State) :
    (s.onZone f).aux = s.aux := rfl
@[simp] theorem State.onZone_net (f : Zone → Zone) (s : State) :
    (s.onZone f).net = s.net := rfl
@[simp] theorem State.onZone_integrity (f : Zone → Zone) (s : State) :
    (s.onZone f).integrity = s.integrity := rfl
@[simp] theorem State.onZone_health (f : Zone → Zone) (s : State) :
    (s.onZone f).health = s.health := rfl
@[simp] theorem State.onZone_out (f : Zone → Zone) (s : State) :
    (s.onZone f).out = s.out := rfl
@[simp] theorem State.onZone_free (f : Zone → Zone) (s : State) :
    (s.onZone f).free = s.free := rfl
@[simp] theorem State.onZone_pending (f : Zone → Zone) (s : State) :
    (s.onZone f).pending = s.pending := rfl

/-! ### onSets -/

@[simp] theorem State.onSets_host (f : Sets → Sets) (s : State) :
    (s.onSets f).host = s.host := rfl
@[simp] theorem State.onSets_power (f : Sets → Sets) (s : State) :
    (s.onSets f).power = s.power := rfl
@[simp] theorem State.onSets_nvm (f : Sets → Sets) (s : State) :
    (s.onSets f).nvm = s.nvm := rfl
@[simp] theorem State.onSets_clk (f : Sets → Sets) (s : State) :
    (s.onSets f).clk = s.clk := rfl
@[simp] theorem State.onSets_emission (f : Sets → Sets) (s : State) :
    (s.onSets f).emission = s.emission := rfl
@[simp] theorem State.onSets_sched (f : Sets → Sets) (s : State) :
    (s.onSets f).sched = s.sched := rfl
@[simp] theorem State.onSets_zone (f : Sets → Sets) (s : State) :
    (s.onSets f).zone = s.zone := rfl
@[simp] theorem State.onSets_sets (f : Sets → Sets) (s : State) :
    (s.onSets f).sets = f s.sets := rfl
@[simp] theorem State.onSets_returns (f : Sets → Sets) (s : State) :
    (s.onSets f).returns = s.returns := rfl
@[simp] theorem State.onSets_fabric (f : Sets → Sets) (s : State) :
    (s.onSets f).fabric = s.fabric := rfl
@[simp] theorem State.onSets_angle (f : Sets → Sets) (s : State) :
    (s.onSets f).angle = s.angle := rfl
@[simp] theorem State.onSets_motion (f : Sets → Sets) (s : State) :
    (s.onSets f).motion = s.motion := rfl
@[simp] theorem State.onSets_aux (f : Sets → Sets) (s : State) :
    (s.onSets f).aux = s.aux := rfl
@[simp] theorem State.onSets_net (f : Sets → Sets) (s : State) :
    (s.onSets f).net = s.net := rfl
@[simp] theorem State.onSets_integrity (f : Sets → Sets) (s : State) :
    (s.onSets f).integrity = s.integrity := rfl
@[simp] theorem State.onSets_health (f : Sets → Sets) (s : State) :
    (s.onSets f).health = s.health := rfl
@[simp] theorem State.onSets_out (f : Sets → Sets) (s : State) :
    (s.onSets f).out = s.out := rfl
@[simp] theorem State.onSets_free (f : Sets → Sets) (s : State) :
    (s.onSets f).free = s.free := rfl
@[simp] theorem State.onSets_pending (f : Sets → Sets) (s : State) :
    (s.onSets f).pending = s.pending := rfl

/-! ### onReturns -/

@[simp] theorem State.onReturns_host (f : Returns → Returns) (s : State) :
    (s.onReturns f).host = s.host := rfl
@[simp] theorem State.onReturns_power (f : Returns → Returns) (s : State) :
    (s.onReturns f).power = s.power := rfl
@[simp] theorem State.onReturns_nvm (f : Returns → Returns) (s : State) :
    (s.onReturns f).nvm = s.nvm := rfl
@[simp] theorem State.onReturns_clk (f : Returns → Returns) (s : State) :
    (s.onReturns f).clk = s.clk := rfl
@[simp] theorem State.onReturns_emission (f : Returns → Returns) (s : State) :
    (s.onReturns f).emission = s.emission := rfl
@[simp] theorem State.onReturns_sched (f : Returns → Returns) (s : State) :
    (s.onReturns f).sched = s.sched := rfl
@[simp] theorem State.onReturns_zone (f : Returns → Returns) (s : State) :
    (s.onReturns f).zone = s.zone := rfl
@[simp] theorem State.onReturns_sets (f : Returns → Returns) (s : State) :
    (s.onReturns f).sets = s.sets := rfl
@[simp] theorem State.onReturns_returns (f : Returns → Returns) (s : State) :
    (s.onReturns f).returns = f s.returns := rfl
@[simp] theorem State.onReturns_fabric (f : Returns → Returns) (s : State) :
    (s.onReturns f).fabric = s.fabric := rfl
@[simp] theorem State.onReturns_angle (f : Returns → Returns) (s : State) :
    (s.onReturns f).angle = s.angle := rfl
@[simp] theorem State.onReturns_motion (f : Returns → Returns) (s : State) :
    (s.onReturns f).motion = s.motion := rfl
@[simp] theorem State.onReturns_aux (f : Returns → Returns) (s : State) :
    (s.onReturns f).aux = s.aux := rfl
@[simp] theorem State.onReturns_net (f : Returns → Returns) (s : State) :
    (s.onReturns f).net = s.net := rfl
@[simp] theorem State.onReturns_integrity (f : Returns → Returns) (s : State) :
    (s.onReturns f).integrity = s.integrity := rfl
@[simp] theorem State.onReturns_health (f : Returns → Returns) (s : State) :
    (s.onReturns f).health = s.health := rfl
@[simp] theorem State.onReturns_out (f : Returns → Returns) (s : State) :
    (s.onReturns f).out = s.out := rfl
@[simp] theorem State.onReturns_free (f : Returns → Returns) (s : State) :
    (s.onReturns f).free = s.free := rfl
@[simp] theorem State.onReturns_pending (f : Returns → Returns) (s : State) :
    (s.onReturns f).pending = s.pending := rfl

/-! ### onFabric -/

@[simp] theorem State.onFabric_host (f : Fabric → Fabric) (s : State) :
    (s.onFabric f).host = s.host := rfl
@[simp] theorem State.onFabric_power (f : Fabric → Fabric) (s : State) :
    (s.onFabric f).power = s.power := rfl
@[simp] theorem State.onFabric_nvm (f : Fabric → Fabric) (s : State) :
    (s.onFabric f).nvm = s.nvm := rfl
@[simp] theorem State.onFabric_clk (f : Fabric → Fabric) (s : State) :
    (s.onFabric f).clk = s.clk := rfl
@[simp] theorem State.onFabric_emission (f : Fabric → Fabric) (s : State) :
    (s.onFabric f).emission = s.emission := rfl
@[simp] theorem State.onFabric_sched (f : Fabric → Fabric) (s : State) :
    (s.onFabric f).sched = s.sched := rfl
@[simp] theorem State.onFabric_zone (f : Fabric → Fabric) (s : State) :
    (s.onFabric f).zone = s.zone := rfl
@[simp] theorem State.onFabric_sets (f : Fabric → Fabric) (s : State) :
    (s.onFabric f).sets = s.sets := rfl
@[simp] theorem State.onFabric_returns (f : Fabric → Fabric) (s : State) :
    (s.onFabric f).returns = s.returns := rfl
@[simp] theorem State.onFabric_fabric (f : Fabric → Fabric) (s : State) :
    (s.onFabric f).fabric = f s.fabric := rfl
@[simp] theorem State.onFabric_angle (f : Fabric → Fabric) (s : State) :
    (s.onFabric f).angle = s.angle := rfl
@[simp] theorem State.onFabric_motion (f : Fabric → Fabric) (s : State) :
    (s.onFabric f).motion = s.motion := rfl
@[simp] theorem State.onFabric_aux (f : Fabric → Fabric) (s : State) :
    (s.onFabric f).aux = s.aux := rfl
@[simp] theorem State.onFabric_net (f : Fabric → Fabric) (s : State) :
    (s.onFabric f).net = s.net := rfl
@[simp] theorem State.onFabric_integrity (f : Fabric → Fabric) (s : State) :
    (s.onFabric f).integrity = s.integrity := rfl
@[simp] theorem State.onFabric_health (f : Fabric → Fabric) (s : State) :
    (s.onFabric f).health = s.health := rfl
@[simp] theorem State.onFabric_out (f : Fabric → Fabric) (s : State) :
    (s.onFabric f).out = s.out := rfl
@[simp] theorem State.onFabric_free (f : Fabric → Fabric) (s : State) :
    (s.onFabric f).free = s.free := rfl
@[simp] theorem State.onFabric_pending (f : Fabric → Fabric) (s : State) :
    (s.onFabric f).pending = s.pending := rfl

/-! ### onAngle -/

@[simp] theorem State.onAngle_host (f : Angle → Angle) (s : State) :
    (s.onAngle f).host = s.host := rfl
@[simp] theorem State.onAngle_power (f : Angle → Angle) (s : State) :
    (s.onAngle f).power = s.power := rfl
@[simp] theorem State.onAngle_nvm (f : Angle → Angle) (s : State) :
    (s.onAngle f).nvm = s.nvm := rfl
@[simp] theorem State.onAngle_clk (f : Angle → Angle) (s : State) :
    (s.onAngle f).clk = s.clk := rfl
@[simp] theorem State.onAngle_emission (f : Angle → Angle) (s : State) :
    (s.onAngle f).emission = s.emission := rfl
@[simp] theorem State.onAngle_sched (f : Angle → Angle) (s : State) :
    (s.onAngle f).sched = s.sched := rfl
@[simp] theorem State.onAngle_zone (f : Angle → Angle) (s : State) :
    (s.onAngle f).zone = s.zone := rfl
@[simp] theorem State.onAngle_sets (f : Angle → Angle) (s : State) :
    (s.onAngle f).sets = s.sets := rfl
@[simp] theorem State.onAngle_returns (f : Angle → Angle) (s : State) :
    (s.onAngle f).returns = s.returns := rfl
@[simp] theorem State.onAngle_fabric (f : Angle → Angle) (s : State) :
    (s.onAngle f).fabric = s.fabric := rfl
@[simp] theorem State.onAngle_angle (f : Angle → Angle) (s : State) :
    (s.onAngle f).angle = f s.angle := rfl
@[simp] theorem State.onAngle_motion (f : Angle → Angle) (s : State) :
    (s.onAngle f).motion = s.motion := rfl
@[simp] theorem State.onAngle_aux (f : Angle → Angle) (s : State) :
    (s.onAngle f).aux = s.aux := rfl
@[simp] theorem State.onAngle_net (f : Angle → Angle) (s : State) :
    (s.onAngle f).net = s.net := rfl
@[simp] theorem State.onAngle_integrity (f : Angle → Angle) (s : State) :
    (s.onAngle f).integrity = s.integrity := rfl
@[simp] theorem State.onAngle_health (f : Angle → Angle) (s : State) :
    (s.onAngle f).health = s.health := rfl
@[simp] theorem State.onAngle_out (f : Angle → Angle) (s : State) :
    (s.onAngle f).out = s.out := rfl
@[simp] theorem State.onAngle_free (f : Angle → Angle) (s : State) :
    (s.onAngle f).free = s.free := rfl
@[simp] theorem State.onAngle_pending (f : Angle → Angle) (s : State) :
    (s.onAngle f).pending = s.pending := rfl

/-! ### onMotion -/

@[simp] theorem State.onMotion_host (f : Motion → Motion) (s : State) :
    (s.onMotion f).host = s.host := rfl
@[simp] theorem State.onMotion_power (f : Motion → Motion) (s : State) :
    (s.onMotion f).power = s.power := rfl
@[simp] theorem State.onMotion_nvm (f : Motion → Motion) (s : State) :
    (s.onMotion f).nvm = s.nvm := rfl
@[simp] theorem State.onMotion_clk (f : Motion → Motion) (s : State) :
    (s.onMotion f).clk = s.clk := rfl
@[simp] theorem State.onMotion_emission (f : Motion → Motion) (s : State) :
    (s.onMotion f).emission = s.emission := rfl
@[simp] theorem State.onMotion_sched (f : Motion → Motion) (s : State) :
    (s.onMotion f).sched = s.sched := rfl
@[simp] theorem State.onMotion_zone (f : Motion → Motion) (s : State) :
    (s.onMotion f).zone = s.zone := rfl
@[simp] theorem State.onMotion_sets (f : Motion → Motion) (s : State) :
    (s.onMotion f).sets = s.sets := rfl
@[simp] theorem State.onMotion_returns (f : Motion → Motion) (s : State) :
    (s.onMotion f).returns = s.returns := rfl
@[simp] theorem State.onMotion_fabric (f : Motion → Motion) (s : State) :
    (s.onMotion f).fabric = s.fabric := rfl
@[simp] theorem State.onMotion_angle (f : Motion → Motion) (s : State) :
    (s.onMotion f).angle = s.angle := rfl
@[simp] theorem State.onMotion_motion (f : Motion → Motion) (s : State) :
    (s.onMotion f).motion = f s.motion := rfl
@[simp] theorem State.onMotion_aux (f : Motion → Motion) (s : State) :
    (s.onMotion f).aux = s.aux := rfl
@[simp] theorem State.onMotion_net (f : Motion → Motion) (s : State) :
    (s.onMotion f).net = s.net := rfl
@[simp] theorem State.onMotion_integrity (f : Motion → Motion) (s : State) :
    (s.onMotion f).integrity = s.integrity := rfl
@[simp] theorem State.onMotion_health (f : Motion → Motion) (s : State) :
    (s.onMotion f).health = s.health := rfl
@[simp] theorem State.onMotion_out (f : Motion → Motion) (s : State) :
    (s.onMotion f).out = s.out := rfl
@[simp] theorem State.onMotion_free (f : Motion → Motion) (s : State) :
    (s.onMotion f).free = s.free := rfl
@[simp] theorem State.onMotion_pending (f : Motion → Motion) (s : State) :
    (s.onMotion f).pending = s.pending := rfl

/-! ### onAux -/

@[simp] theorem State.onAux_host (f : Aux → Aux) (s : State) :
    (s.onAux f).host = s.host := rfl
@[simp] theorem State.onAux_power (f : Aux → Aux) (s : State) :
    (s.onAux f).power = s.power := rfl
@[simp] theorem State.onAux_nvm (f : Aux → Aux) (s : State) :
    (s.onAux f).nvm = s.nvm := rfl
@[simp] theorem State.onAux_clk (f : Aux → Aux) (s : State) :
    (s.onAux f).clk = s.clk := rfl
@[simp] theorem State.onAux_emission (f : Aux → Aux) (s : State) :
    (s.onAux f).emission = s.emission := rfl
@[simp] theorem State.onAux_sched (f : Aux → Aux) (s : State) :
    (s.onAux f).sched = s.sched := rfl
@[simp] theorem State.onAux_zone (f : Aux → Aux) (s : State) :
    (s.onAux f).zone = s.zone := rfl
@[simp] theorem State.onAux_sets (f : Aux → Aux) (s : State) :
    (s.onAux f).sets = s.sets := rfl
@[simp] theorem State.onAux_returns (f : Aux → Aux) (s : State) :
    (s.onAux f).returns = s.returns := rfl
@[simp] theorem State.onAux_fabric (f : Aux → Aux) (s : State) :
    (s.onAux f).fabric = s.fabric := rfl
@[simp] theorem State.onAux_angle (f : Aux → Aux) (s : State) :
    (s.onAux f).angle = s.angle := rfl
@[simp] theorem State.onAux_motion (f : Aux → Aux) (s : State) :
    (s.onAux f).motion = s.motion := rfl
@[simp] theorem State.onAux_aux (f : Aux → Aux) (s : State) :
    (s.onAux f).aux = f s.aux := rfl
@[simp] theorem State.onAux_net (f : Aux → Aux) (s : State) :
    (s.onAux f).net = s.net := rfl
@[simp] theorem State.onAux_integrity (f : Aux → Aux) (s : State) :
    (s.onAux f).integrity = s.integrity := rfl
@[simp] theorem State.onAux_health (f : Aux → Aux) (s : State) :
    (s.onAux f).health = s.health := rfl
@[simp] theorem State.onAux_out (f : Aux → Aux) (s : State) :
    (s.onAux f).out = s.out := rfl
@[simp] theorem State.onAux_free (f : Aux → Aux) (s : State) :
    (s.onAux f).free = s.free := rfl
@[simp] theorem State.onAux_pending (f : Aux → Aux) (s : State) :
    (s.onAux f).pending = s.pending := rfl

/-! ### onNet -/

@[simp] theorem State.onNet_host (f : Net → Net) (s : State) :
    (s.onNet f).host = s.host := rfl
@[simp] theorem State.onNet_power (f : Net → Net) (s : State) :
    (s.onNet f).power = s.power := rfl
@[simp] theorem State.onNet_nvm (f : Net → Net) (s : State) :
    (s.onNet f).nvm = s.nvm := rfl
@[simp] theorem State.onNet_clk (f : Net → Net) (s : State) :
    (s.onNet f).clk = s.clk := rfl
@[simp] theorem State.onNet_emission (f : Net → Net) (s : State) :
    (s.onNet f).emission = s.emission := rfl
@[simp] theorem State.onNet_sched (f : Net → Net) (s : State) :
    (s.onNet f).sched = s.sched := rfl
@[simp] theorem State.onNet_zone (f : Net → Net) (s : State) :
    (s.onNet f).zone = s.zone := rfl
@[simp] theorem State.onNet_sets (f : Net → Net) (s : State) :
    (s.onNet f).sets = s.sets := rfl
@[simp] theorem State.onNet_returns (f : Net → Net) (s : State) :
    (s.onNet f).returns = s.returns := rfl
@[simp] theorem State.onNet_fabric (f : Net → Net) (s : State) :
    (s.onNet f).fabric = s.fabric := rfl
@[simp] theorem State.onNet_angle (f : Net → Net) (s : State) :
    (s.onNet f).angle = s.angle := rfl
@[simp] theorem State.onNet_motion (f : Net → Net) (s : State) :
    (s.onNet f).motion = s.motion := rfl
@[simp] theorem State.onNet_aux (f : Net → Net) (s : State) :
    (s.onNet f).aux = s.aux := rfl
@[simp] theorem State.onNet_net (f : Net → Net) (s : State) :
    (s.onNet f).net = f s.net := rfl
@[simp] theorem State.onNet_integrity (f : Net → Net) (s : State) :
    (s.onNet f).integrity = s.integrity := rfl
@[simp] theorem State.onNet_health (f : Net → Net) (s : State) :
    (s.onNet f).health = s.health := rfl
@[simp] theorem State.onNet_out (f : Net → Net) (s : State) :
    (s.onNet f).out = s.out := rfl
@[simp] theorem State.onNet_free (f : Net → Net) (s : State) :
    (s.onNet f).free = s.free := rfl
@[simp] theorem State.onNet_pending (f : Net → Net) (s : State) :
    (s.onNet f).pending = s.pending := rfl

/-! ### onIntegrity -/

@[simp] theorem State.onIntegrity_host (f : Integrity → Integrity) (s : State) :
    (s.onIntegrity f).host = s.host := rfl
@[simp] theorem State.onIntegrity_power (f : Integrity → Integrity) (s : State) :
    (s.onIntegrity f).power = s.power := rfl
@[simp] theorem State.onIntegrity_nvm (f : Integrity → Integrity) (s : State) :
    (s.onIntegrity f).nvm = s.nvm := rfl
@[simp] theorem State.onIntegrity_clk (f : Integrity → Integrity) (s : State) :
    (s.onIntegrity f).clk = s.clk := rfl
@[simp] theorem State.onIntegrity_emission (f : Integrity → Integrity) (s : State) :
    (s.onIntegrity f).emission = s.emission := rfl
@[simp] theorem State.onIntegrity_sched (f : Integrity → Integrity) (s : State) :
    (s.onIntegrity f).sched = s.sched := rfl
@[simp] theorem State.onIntegrity_zone (f : Integrity → Integrity) (s : State) :
    (s.onIntegrity f).zone = s.zone := rfl
@[simp] theorem State.onIntegrity_sets (f : Integrity → Integrity) (s : State) :
    (s.onIntegrity f).sets = s.sets := rfl
@[simp] theorem State.onIntegrity_returns (f : Integrity → Integrity) (s : State) :
    (s.onIntegrity f).returns = s.returns := rfl
@[simp] theorem State.onIntegrity_fabric (f : Integrity → Integrity) (s : State) :
    (s.onIntegrity f).fabric = s.fabric := rfl
@[simp] theorem State.onIntegrity_angle (f : Integrity → Integrity) (s : State) :
    (s.onIntegrity f).angle = s.angle := rfl
@[simp] theorem State.onIntegrity_motion (f : Integrity → Integrity) (s : State) :
    (s.onIntegrity f).motion = s.motion := rfl
@[simp] theorem State.onIntegrity_aux (f : Integrity → Integrity) (s : State) :
    (s.onIntegrity f).aux = s.aux := rfl
@[simp] theorem State.onIntegrity_net (f : Integrity → Integrity) (s : State) :
    (s.onIntegrity f).net = s.net := rfl
@[simp] theorem State.onIntegrity_integrity (f : Integrity → Integrity) (s : State) :
    (s.onIntegrity f).integrity = f s.integrity := rfl
@[simp] theorem State.onIntegrity_health (f : Integrity → Integrity) (s : State) :
    (s.onIntegrity f).health = s.health := rfl
@[simp] theorem State.onIntegrity_out (f : Integrity → Integrity) (s : State) :
    (s.onIntegrity f).out = s.out := rfl
@[simp] theorem State.onIntegrity_free (f : Integrity → Integrity) (s : State) :
    (s.onIntegrity f).free = s.free := rfl
@[simp] theorem State.onIntegrity_pending (f : Integrity → Integrity) (s : State) :
    (s.onIntegrity f).pending = s.pending := rfl

/-! ### onHealth -/

@[simp] theorem State.onHealth_host (f : Health → Health) (s : State) :
    (s.onHealth f).host = s.host := rfl
@[simp] theorem State.onHealth_power (f : Health → Health) (s : State) :
    (s.onHealth f).power = s.power := rfl
@[simp] theorem State.onHealth_nvm (f : Health → Health) (s : State) :
    (s.onHealth f).nvm = s.nvm := rfl
@[simp] theorem State.onHealth_clk (f : Health → Health) (s : State) :
    (s.onHealth f).clk = s.clk := rfl
@[simp] theorem State.onHealth_emission (f : Health → Health) (s : State) :
    (s.onHealth f).emission = s.emission := rfl
@[simp] theorem State.onHealth_sched (f : Health → Health) (s : State) :
    (s.onHealth f).sched = s.sched := rfl
@[simp] theorem State.onHealth_zone (f : Health → Health) (s : State) :
    (s.onHealth f).zone = s.zone := rfl
@[simp] theorem State.onHealth_sets (f : Health → Health) (s : State) :
    (s.onHealth f).sets = s.sets := rfl
@[simp] theorem State.onHealth_returns (f : Health → Health) (s : State) :
    (s.onHealth f).returns = s.returns := rfl
@[simp] theorem State.onHealth_fabric (f : Health → Health) (s : State) :
    (s.onHealth f).fabric = s.fabric := rfl
@[simp] theorem State.onHealth_angle (f : Health → Health) (s : State) :
    (s.onHealth f).angle = s.angle := rfl
@[simp] theorem State.onHealth_motion (f : Health → Health) (s : State) :
    (s.onHealth f).motion = s.motion := rfl
@[simp] theorem State.onHealth_aux (f : Health → Health) (s : State) :
    (s.onHealth f).aux = s.aux := rfl
@[simp] theorem State.onHealth_net (f : Health → Health) (s : State) :
    (s.onHealth f).net = s.net := rfl
@[simp] theorem State.onHealth_integrity (f : Health → Health) (s : State) :
    (s.onHealth f).integrity = s.integrity := rfl
@[simp] theorem State.onHealth_health (f : Health → Health) (s : State) :
    (s.onHealth f).health = f s.health := rfl
@[simp] theorem State.onHealth_out (f : Health → Health) (s : State) :
    (s.onHealth f).out = s.out := rfl
@[simp] theorem State.onHealth_free (f : Health → Health) (s : State) :
    (s.onHealth f).free = s.free := rfl
@[simp] theorem State.onHealth_pending (f : Health → Health) (s : State) :
    (s.onHealth f).pending = s.pending := rfl

/-! ### emit -/

@[simp] theorem State.emit_host (o : Out) (s : State) :
    (s.emit o).host = s.host := rfl
@[simp] theorem State.emit_power (o : Out) (s : State) :
    (s.emit o).power = s.power := rfl
@[simp] theorem State.emit_nvm (o : Out) (s : State) :
    (s.emit o).nvm = s.nvm := rfl
@[simp] theorem State.emit_clk (o : Out) (s : State) :
    (s.emit o).clk = s.clk := rfl
@[simp] theorem State.emit_emission (o : Out) (s : State) :
    (s.emit o).emission = s.emission := rfl
@[simp] theorem State.emit_sched (o : Out) (s : State) :
    (s.emit o).sched = s.sched := rfl
@[simp] theorem State.emit_zone (o : Out) (s : State) :
    (s.emit o).zone = s.zone := rfl
@[simp] theorem State.emit_sets (o : Out) (s : State) :
    (s.emit o).sets = s.sets := rfl
@[simp] theorem State.emit_returns (o : Out) (s : State) :
    (s.emit o).returns = s.returns := rfl
@[simp] theorem State.emit_fabric (o : Out) (s : State) :
    (s.emit o).fabric = s.fabric := rfl
@[simp] theorem State.emit_angle (o : Out) (s : State) :
    (s.emit o).angle = s.angle := rfl
@[simp] theorem State.emit_motion (o : Out) (s : State) :
    (s.emit o).motion = s.motion := rfl
@[simp] theorem State.emit_aux (o : Out) (s : State) :
    (s.emit o).aux = s.aux := rfl
@[simp] theorem State.emit_net (o : Out) (s : State) :
    (s.emit o).net = s.net := rfl
@[simp] theorem State.emit_integrity (o : Out) (s : State) :
    (s.emit o).integrity = s.integrity := rfl
@[simp] theorem State.emit_health (o : Out) (s : State) :
    (s.emit o).health = s.health := rfl
@[simp] theorem State.emit_out (o : Out) (s : State) :
    (s.emit o).out = s.out ++ [o] := rfl
@[simp] theorem State.emit_free (o : Out) (s : State) :
    (s.emit o).free = s.free := rfl
@[simp] theorem State.emit_pending (o : Out) (s : State) :
    (s.emit o).pending = s.pending := rfl

/-! ### freeNext -/

@[simp] theorem State.freeNext_host (s : State) :
    (s.freeNext).host = s.host := rfl
@[simp] theorem State.freeNext_power (s : State) :
    (s.freeNext).power = s.power := rfl
@[simp] theorem State.freeNext_nvm (s : State) :
    (s.freeNext).nvm = s.nvm := rfl
@[simp] theorem State.freeNext_clk (s : State) :
    (s.freeNext).clk = s.clk := rfl
@[simp] theorem State.freeNext_emission (s : State) :
    (s.freeNext).emission = s.emission := rfl
@[simp] theorem State.freeNext_sched (s : State) :
    (s.freeNext).sched = s.sched := rfl
@[simp] theorem State.freeNext_zone (s : State) :
    (s.freeNext).zone = s.zone := rfl
@[simp] theorem State.freeNext_sets (s : State) :
    (s.freeNext).sets = s.sets := rfl
@[simp] theorem State.freeNext_returns (s : State) :
    (s.freeNext).returns = s.returns := rfl
@[simp] theorem State.freeNext_fabric (s : State) :
    (s.freeNext).fabric = s.fabric := rfl
@[simp] theorem State.freeNext_angle (s : State) :
    (s.freeNext).angle = s.angle := rfl
@[simp] theorem State.freeNext_motion (s : State) :
    (s.freeNext).motion = s.motion := rfl
@[simp] theorem State.freeNext_aux (s : State) :
    (s.freeNext).aux = s.aux := rfl
@[simp] theorem State.freeNext_net (s : State) :
    (s.freeNext).net = s.net := rfl
@[simp] theorem State.freeNext_integrity (s : State) :
    (s.freeNext).integrity = s.integrity := rfl
@[simp] theorem State.freeNext_health (s : State) :
    (s.freeNext).health = s.health := rfl
@[simp] theorem State.freeNext_out (s : State) :
    (s.freeNext).out = s.out := rfl
@[simp] theorem State.freeNext_free (s : State) :
    (s.freeNext).free = s.free + 1 := rfl
@[simp] theorem State.freeNext_pending (s : State) :
    (s.freeNext).pending = s.pending := rfl

/-! ### onQueue -/

@[simp] theorem State.onQueue_host (q : Nat) (f : Queue → Queue) (s : State) :
    (s.onQueue q f).host = { s.host with queues := s.host.queues.modify q f } := rfl
@[simp] theorem State.onQueue_power (q : Nat) (f : Queue → Queue) (s : State) :
    (s.onQueue q f).power = s.power := rfl
@[simp] theorem State.onQueue_nvm (q : Nat) (f : Queue → Queue) (s : State) :
    (s.onQueue q f).nvm = s.nvm := rfl
@[simp] theorem State.onQueue_clk (q : Nat) (f : Queue → Queue) (s : State) :
    (s.onQueue q f).clk = s.clk := rfl
@[simp] theorem State.onQueue_emission (q : Nat) (f : Queue → Queue) (s : State) :
    (s.onQueue q f).emission = s.emission := rfl
@[simp] theorem State.onQueue_sched (q : Nat) (f : Queue → Queue) (s : State) :
    (s.onQueue q f).sched = s.sched := rfl
@[simp] theorem State.onQueue_zone (q : Nat) (f : Queue → Queue) (s : State) :
    (s.onQueue q f).zone = s.zone := rfl
@[simp] theorem State.onQueue_sets (q : Nat) (f : Queue → Queue) (s : State) :
    (s.onQueue q f).sets = s.sets := rfl
@[simp] theorem State.onQueue_returns (q : Nat) (f : Queue → Queue) (s : State) :
    (s.onQueue q f).returns = s.returns := rfl
@[simp] theorem State.onQueue_fabric (q : Nat) (f : Queue → Queue) (s : State) :
    (s.onQueue q f).fabric = s.fabric := rfl
@[simp] theorem State.onQueue_angle (q : Nat) (f : Queue → Queue) (s : State) :
    (s.onQueue q f).angle = s.angle := rfl
@[simp] theorem State.onQueue_motion (q : Nat) (f : Queue → Queue) (s : State) :
    (s.onQueue q f).motion = s.motion := rfl
@[simp] theorem State.onQueue_aux (q : Nat) (f : Queue → Queue) (s : State) :
    (s.onQueue q f).aux = s.aux := rfl
@[simp] theorem State.onQueue_net (q : Nat) (f : Queue → Queue) (s : State) :
    (s.onQueue q f).net = s.net := rfl
@[simp] theorem State.onQueue_integrity (q : Nat) (f : Queue → Queue) (s : State) :
    (s.onQueue q f).integrity = s.integrity := rfl
@[simp] theorem State.onQueue_health (q : Nat) (f : Queue → Queue) (s : State) :
    (s.onQueue q f).health = s.health := rfl
@[simp] theorem State.onQueue_out (q : Nat) (f : Queue → Queue) (s : State) :
    (s.onQueue q f).out = s.out := rfl
@[simp] theorem State.onQueue_free (q : Nat) (f : Queue → Queue) (s : State) :
    (s.onQueue q f).free = s.free := rfl
@[simp] theorem State.onQueue_pending (q : Nat) (f : Queue → Queue) (s : State) :
    (s.onQueue q f).pending = s.pending := rfl

/-! ### onJournal -/

@[simp] theorem State.onJournal_host (f : Journal → Journal) (s : State) :
    (s.onJournal f).host = { s.host with journal := f s.host.journal } := rfl
@[simp] theorem State.onJournal_power (f : Journal → Journal) (s : State) :
    (s.onJournal f).power = s.power := rfl
@[simp] theorem State.onJournal_nvm (f : Journal → Journal) (s : State) :
    (s.onJournal f).nvm = s.nvm := rfl
@[simp] theorem State.onJournal_clk (f : Journal → Journal) (s : State) :
    (s.onJournal f).clk = s.clk := rfl
@[simp] theorem State.onJournal_emission (f : Journal → Journal) (s : State) :
    (s.onJournal f).emission = s.emission := rfl
@[simp] theorem State.onJournal_sched (f : Journal → Journal) (s : State) :
    (s.onJournal f).sched = s.sched := rfl
@[simp] theorem State.onJournal_zone (f : Journal → Journal) (s : State) :
    (s.onJournal f).zone = s.zone := rfl
@[simp] theorem State.onJournal_sets (f : Journal → Journal) (s : State) :
    (s.onJournal f).sets = s.sets := rfl
@[simp] theorem State.onJournal_returns (f : Journal → Journal) (s : State) :
    (s.onJournal f).returns = s.returns := rfl
@[simp] theorem State.onJournal_fabric (f : Journal → Journal) (s : State) :
    (s.onJournal f).fabric = s.fabric := rfl
@[simp] theorem State.onJournal_angle (f : Journal → Journal) (s : State) :
    (s.onJournal f).angle = s.angle := rfl
@[simp] theorem State.onJournal_motion (f : Journal → Journal) (s : State) :
    (s.onJournal f).motion = s.motion := rfl
@[simp] theorem State.onJournal_aux (f : Journal → Journal) (s : State) :
    (s.onJournal f).aux = s.aux := rfl
@[simp] theorem State.onJournal_net (f : Journal → Journal) (s : State) :
    (s.onJournal f).net = s.net := rfl
@[simp] theorem State.onJournal_integrity (f : Journal → Journal) (s : State) :
    (s.onJournal f).integrity = s.integrity := rfl
@[simp] theorem State.onJournal_health (f : Journal → Journal) (s : State) :
    (s.onJournal f).health = s.health := rfl
@[simp] theorem State.onJournal_out (f : Journal → Journal) (s : State) :
    (s.onJournal f).out = s.out := rfl
@[simp] theorem State.onJournal_free (f : Journal → Journal) (s : State) :
    (s.onJournal f).free = s.free := rfl
@[simp] theorem State.onJournal_pending (f : Journal → Journal) (s : State) :
    (s.onJournal f).pending = s.pending := rfl

/-! ### onEmitter -/

@[simp] theorem State.onEmitter_host (e : Nat) (f : Emitter → Emitter) (s : State) :
    (s.onEmitter e f).host = s.host := rfl
@[simp] theorem State.onEmitter_power (e : Nat) (f : Emitter → Emitter) (s : State) :
    (s.onEmitter e f).power = s.power := rfl
@[simp] theorem State.onEmitter_nvm (e : Nat) (f : Emitter → Emitter) (s : State) :
    (s.onEmitter e f).nvm = s.nvm := rfl
@[simp] theorem State.onEmitter_clk (e : Nat) (f : Emitter → Emitter) (s : State) :
    (s.onEmitter e f).clk = s.clk := rfl
@[simp] theorem State.onEmitter_emission (e : Nat) (f : Emitter → Emitter) (s : State) :
    (s.onEmitter e f).emission = { s.emission with emitters := s.emission.emitters.modify e f } := rfl
@[simp] theorem State.onEmitter_sched (e : Nat) (f : Emitter → Emitter) (s : State) :
    (s.onEmitter e f).sched = s.sched := rfl
@[simp] theorem State.onEmitter_zone (e : Nat) (f : Emitter → Emitter) (s : State) :
    (s.onEmitter e f).zone = s.zone := rfl
@[simp] theorem State.onEmitter_sets (e : Nat) (f : Emitter → Emitter) (s : State) :
    (s.onEmitter e f).sets = s.sets := rfl
@[simp] theorem State.onEmitter_returns (e : Nat) (f : Emitter → Emitter) (s : State) :
    (s.onEmitter e f).returns = s.returns := rfl
@[simp] theorem State.onEmitter_fabric (e : Nat) (f : Emitter → Emitter) (s : State) :
    (s.onEmitter e f).fabric = s.fabric := rfl
@[simp] theorem State.onEmitter_angle (e : Nat) (f : Emitter → Emitter) (s : State) :
    (s.onEmitter e f).angle = s.angle := rfl
@[simp] theorem State.onEmitter_motion (e : Nat) (f : Emitter → Emitter) (s : State) :
    (s.onEmitter e f).motion = s.motion := rfl
@[simp] theorem State.onEmitter_aux (e : Nat) (f : Emitter → Emitter) (s : State) :
    (s.onEmitter e f).aux = s.aux := rfl
@[simp] theorem State.onEmitter_net (e : Nat) (f : Emitter → Emitter) (s : State) :
    (s.onEmitter e f).net = s.net := rfl
@[simp] theorem State.onEmitter_integrity (e : Nat) (f : Emitter → Emitter) (s : State) :
    (s.onEmitter e f).integrity = s.integrity := rfl
@[simp] theorem State.onEmitter_health (e : Nat) (f : Emitter → Emitter) (s : State) :
    (s.onEmitter e f).health = s.health := rfl
@[simp] theorem State.onEmitter_out (e : Nat) (f : Emitter → Emitter) (s : State) :
    (s.onEmitter e f).out = s.out := rfl
@[simp] theorem State.onEmitter_free (e : Nat) (f : Emitter → Emitter) (s : State) :
    (s.onEmitter e f).free = s.free := rfl
@[simp] theorem State.onEmitter_pending (e : Nat) (f : Emitter → Emitter) (s : State) :
    (s.onEmitter e f).pending = s.pending := rfl

/-! ### onChannel -/

@[simp] theorem State.onChannel_host (c : Nat) (f : Channel → Channel) (s : State) :
    (s.onChannel c f).host = s.host := rfl
@[simp] theorem State.onChannel_power (c : Nat) (f : Channel → Channel) (s : State) :
    (s.onChannel c f).power = s.power := rfl
@[simp] theorem State.onChannel_nvm (c : Nat) (f : Channel → Channel) (s : State) :
    (s.onChannel c f).nvm = s.nvm := rfl
@[simp] theorem State.onChannel_clk (c : Nat) (f : Channel → Channel) (s : State) :
    (s.onChannel c f).clk = s.clk := rfl
@[simp] theorem State.onChannel_emission (c : Nat) (f : Channel → Channel) (s : State) :
    (s.onChannel c f).emission = s.emission := rfl
@[simp] theorem State.onChannel_sched (c : Nat) (f : Channel → Channel) (s : State) :
    (s.onChannel c f).sched = s.sched := rfl
@[simp] theorem State.onChannel_zone (c : Nat) (f : Channel → Channel) (s : State) :
    (s.onChannel c f).zone = s.zone := rfl
@[simp] theorem State.onChannel_sets (c : Nat) (f : Channel → Channel) (s : State) :
    (s.onChannel c f).sets = s.sets := rfl
@[simp] theorem State.onChannel_returns (c : Nat) (f : Channel → Channel) (s : State) :
    (s.onChannel c f).returns = { s.returns with channels := s.returns.channels.modify c f } := rfl
@[simp] theorem State.onChannel_fabric (c : Nat) (f : Channel → Channel) (s : State) :
    (s.onChannel c f).fabric = s.fabric := rfl
@[simp] theorem State.onChannel_angle (c : Nat) (f : Channel → Channel) (s : State) :
    (s.onChannel c f).angle = s.angle := rfl
@[simp] theorem State.onChannel_motion (c : Nat) (f : Channel → Channel) (s : State) :
    (s.onChannel c f).motion = s.motion := rfl
@[simp] theorem State.onChannel_aux (c : Nat) (f : Channel → Channel) (s : State) :
    (s.onChannel c f).aux = s.aux := rfl
@[simp] theorem State.onChannel_net (c : Nat) (f : Channel → Channel) (s : State) :
    (s.onChannel c f).net = s.net := rfl
@[simp] theorem State.onChannel_integrity (c : Nat) (f : Channel → Channel) (s : State) :
    (s.onChannel c f).integrity = s.integrity := rfl
@[simp] theorem State.onChannel_health (c : Nat) (f : Channel → Channel) (s : State) :
    (s.onChannel c f).health = s.health := rfl
@[simp] theorem State.onChannel_out (c : Nat) (f : Channel → Channel) (s : State) :
    (s.onChannel c f).out = s.out := rfl
@[simp] theorem State.onChannel_free (c : Nat) (f : Channel → Channel) (s : State) :
    (s.onChannel c f).free = s.free := rfl
@[simp] theorem State.onChannel_pending (c : Nat) (f : Channel → Channel) (s : State) :
    (s.onChannel c f).pending = s.pending := rfl

/-! ### onTile -/

@[simp] theorem State.onTile_host (t : Nat) (f : Tile → Tile) (s : State) :
    (s.onTile t f).host = s.host := rfl
@[simp] theorem State.onTile_power (t : Nat) (f : Tile → Tile) (s : State) :
    (s.onTile t f).power = s.power := rfl
@[simp] theorem State.onTile_nvm (t : Nat) (f : Tile → Tile) (s : State) :
    (s.onTile t f).nvm = s.nvm := rfl
@[simp] theorem State.onTile_clk (t : Nat) (f : Tile → Tile) (s : State) :
    (s.onTile t f).clk = s.clk := rfl
@[simp] theorem State.onTile_emission (t : Nat) (f : Tile → Tile) (s : State) :
    (s.onTile t f).emission = s.emission := rfl
@[simp] theorem State.onTile_sched (t : Nat) (f : Tile → Tile) (s : State) :
    (s.onTile t f).sched = s.sched := rfl
@[simp] theorem State.onTile_zone (t : Nat) (f : Tile → Tile) (s : State) :
    (s.onTile t f).zone = s.zone := rfl
@[simp] theorem State.onTile_sets (t : Nat) (f : Tile → Tile) (s : State) :
    (s.onTile t f).sets = s.sets := rfl
@[simp] theorem State.onTile_returns (t : Nat) (f : Tile → Tile) (s : State) :
    (s.onTile t f).returns = s.returns := rfl
@[simp] theorem State.onTile_fabric (t : Nat) (f : Tile → Tile) (s : State) :
    (s.onTile t f).fabric = { s.fabric with tiles := s.fabric.tiles.modify t f } := rfl
@[simp] theorem State.onTile_angle (t : Nat) (f : Tile → Tile) (s : State) :
    (s.onTile t f).angle = s.angle := rfl
@[simp] theorem State.onTile_motion (t : Nat) (f : Tile → Tile) (s : State) :
    (s.onTile t f).motion = s.motion := rfl
@[simp] theorem State.onTile_aux (t : Nat) (f : Tile → Tile) (s : State) :
    (s.onTile t f).aux = s.aux := rfl
@[simp] theorem State.onTile_net (t : Nat) (f : Tile → Tile) (s : State) :
    (s.onTile t f).net = s.net := rfl
@[simp] theorem State.onTile_integrity (t : Nat) (f : Tile → Tile) (s : State) :
    (s.onTile t f).integrity = s.integrity := rfl
@[simp] theorem State.onTile_health (t : Nat) (f : Tile → Tile) (s : State) :
    (s.onTile t f).health = s.health := rfl
@[simp] theorem State.onTile_out (t : Nat) (f : Tile → Tile) (s : State) :
    (s.onTile t f).out = s.out := rfl
@[simp] theorem State.onTile_free (t : Nat) (f : Tile → Tile) (s : State) :
    (s.onTile t f).free = s.free := rfl
@[simp] theorem State.onTile_pending (t : Nat) (f : Tile → Tile) (s : State) :
    (s.onTile t f).pending = s.pending := rfl

/-! ### onStream -/

@[simp] theorem State.onStream_host (n : Nat) (f : Stream → Stream) (s : State) :
    (s.onStream n f).host = s.host := rfl
@[simp] theorem State.onStream_power (n : Nat) (f : Stream → Stream) (s : State) :
    (s.onStream n f).power = s.power := rfl
@[simp] theorem State.onStream_nvm (n : Nat) (f : Stream → Stream) (s : State) :
    (s.onStream n f).nvm = s.nvm := rfl
@[simp] theorem State.onStream_clk (n : Nat) (f : Stream → Stream) (s : State) :
    (s.onStream n f).clk = s.clk := rfl
@[simp] theorem State.onStream_emission (n : Nat) (f : Stream → Stream) (s : State) :
    (s.onStream n f).emission = s.emission := rfl
@[simp] theorem State.onStream_sched (n : Nat) (f : Stream → Stream) (s : State) :
    (s.onStream n f).sched = s.sched := rfl
@[simp] theorem State.onStream_zone (n : Nat) (f : Stream → Stream) (s : State) :
    (s.onStream n f).zone = s.zone := rfl
@[simp] theorem State.onStream_sets (n : Nat) (f : Stream → Stream) (s : State) :
    (s.onStream n f).sets = s.sets := rfl
@[simp] theorem State.onStream_returns (n : Nat) (f : Stream → Stream) (s : State) :
    (s.onStream n f).returns = s.returns := rfl
@[simp] theorem State.onStream_fabric (n : Nat) (f : Stream → Stream) (s : State) :
    (s.onStream n f).fabric = { s.fabric with streams := s.fabric.streams.modify n f } := rfl
@[simp] theorem State.onStream_angle (n : Nat) (f : Stream → Stream) (s : State) :
    (s.onStream n f).angle = s.angle := rfl
@[simp] theorem State.onStream_motion (n : Nat) (f : Stream → Stream) (s : State) :
    (s.onStream n f).motion = s.motion := rfl
@[simp] theorem State.onStream_aux (n : Nat) (f : Stream → Stream) (s : State) :
    (s.onStream n f).aux = s.aux := rfl
@[simp] theorem State.onStream_net (n : Nat) (f : Stream → Stream) (s : State) :
    (s.onStream n f).net = s.net := rfl
@[simp] theorem State.onStream_integrity (n : Nat) (f : Stream → Stream) (s : State) :
    (s.onStream n f).integrity = s.integrity := rfl
@[simp] theorem State.onStream_health (n : Nat) (f : Stream → Stream) (s : State) :
    (s.onStream n f).health = s.health := rfl
@[simp] theorem State.onStream_out (n : Nat) (f : Stream → Stream) (s : State) :
    (s.onStream n f).out = s.out := rfl
@[simp] theorem State.onStream_free (n : Nat) (f : Stream → Stream) (s : State) :
    (s.onStream n f).free = s.free := rfl
@[simp] theorem State.onStream_pending (n : Nat) (f : Stream → Stream) (s : State) :
    (s.onStream n f).pending = s.pending := rfl

/-! ### onRejection -/

@[simp] theorem State.onRejection_host (t : Nat) (f : Rejection → Rejection) (s : State) :
    (s.onRejection t f).host = s.host := rfl
@[simp] theorem State.onRejection_power (t : Nat) (f : Rejection → Rejection) (s : State) :
    (s.onRejection t f).power = s.power := rfl
@[simp] theorem State.onRejection_nvm (t : Nat) (f : Rejection → Rejection) (s : State) :
    (s.onRejection t f).nvm = s.nvm := rfl
@[simp] theorem State.onRejection_clk (t : Nat) (f : Rejection → Rejection) (s : State) :
    (s.onRejection t f).clk = s.clk := rfl
@[simp] theorem State.onRejection_emission (t : Nat) (f : Rejection → Rejection) (s : State) :
    (s.onRejection t f).emission = s.emission := rfl
@[simp] theorem State.onRejection_sched (t : Nat) (f : Rejection → Rejection) (s : State) :
    (s.onRejection t f).sched = s.sched := rfl
@[simp] theorem State.onRejection_zone (t : Nat) (f : Rejection → Rejection) (s : State) :
    (s.onRejection t f).zone = s.zone := rfl
@[simp] theorem State.onRejection_sets (t : Nat) (f : Rejection → Rejection) (s : State) :
    (s.onRejection t f).sets = s.sets := rfl
@[simp] theorem State.onRejection_returns (t : Nat) (f : Rejection → Rejection) (s : State) :
    (s.onRejection t f).returns = s.returns := rfl
@[simp] theorem State.onRejection_fabric (t : Nat) (f : Rejection → Rejection) (s : State) :
    (s.onRejection t f).fabric = { s.fabric with rejection := s.fabric.rejection.modify t f } := rfl
@[simp] theorem State.onRejection_angle (t : Nat) (f : Rejection → Rejection) (s : State) :
    (s.onRejection t f).angle = s.angle := rfl
@[simp] theorem State.onRejection_motion (t : Nat) (f : Rejection → Rejection) (s : State) :
    (s.onRejection t f).motion = s.motion := rfl
@[simp] theorem State.onRejection_aux (t : Nat) (f : Rejection → Rejection) (s : State) :
    (s.onRejection t f).aux = s.aux := rfl
@[simp] theorem State.onRejection_net (t : Nat) (f : Rejection → Rejection) (s : State) :
    (s.onRejection t f).net = s.net := rfl
@[simp] theorem State.onRejection_integrity (t : Nat) (f : Rejection → Rejection) (s : State) :
    (s.onRejection t f).integrity = s.integrity := rfl
@[simp] theorem State.onRejection_health (t : Nat) (f : Rejection → Rejection) (s : State) :
    (s.onRejection t f).health = s.health := rfl
@[simp] theorem State.onRejection_out (t : Nat) (f : Rejection → Rejection) (s : State) :
    (s.onRejection t f).out = s.out := rfl
@[simp] theorem State.onRejection_free (t : Nat) (f : Rejection → Rejection) (s : State) :
    (s.onRejection t f).free = s.free := rfl
@[simp] theorem State.onRejection_pending (t : Nat) (f : Rejection → Rejection) (s : State) :
    (s.onRejection t f).pending = s.pending := rfl

/-! ### onEngine -/

@[simp] theorem State.onEngine_host (g : Nat) (f : Engine → Engine) (s : State) :
    (s.onEngine g f).host = s.host := rfl
@[simp] theorem State.onEngine_power (g : Nat) (f : Engine → Engine) (s : State) :
    (s.onEngine g f).power = s.power := rfl
@[simp] theorem State.onEngine_nvm (g : Nat) (f : Engine → Engine) (s : State) :
    (s.onEngine g f).nvm = s.nvm := rfl
@[simp] theorem State.onEngine_clk (g : Nat) (f : Engine → Engine) (s : State) :
    (s.onEngine g f).clk = s.clk := rfl
@[simp] theorem State.onEngine_emission (g : Nat) (f : Engine → Engine) (s : State) :
    (s.onEngine g f).emission = s.emission := rfl
@[simp] theorem State.onEngine_sched (g : Nat) (f : Engine → Engine) (s : State) :
    (s.onEngine g f).sched = s.sched := rfl
@[simp] theorem State.onEngine_zone (g : Nat) (f : Engine → Engine) (s : State) :
    (s.onEngine g f).zone = s.zone := rfl
@[simp] theorem State.onEngine_sets (g : Nat) (f : Engine → Engine) (s : State) :
    (s.onEngine g f).sets = s.sets := rfl
@[simp] theorem State.onEngine_returns (g : Nat) (f : Engine → Engine) (s : State) :
    (s.onEngine g f).returns = s.returns := rfl
@[simp] theorem State.onEngine_fabric (g : Nat) (f : Engine → Engine) (s : State) :
    (s.onEngine g f).fabric = { s.fabric with engines := s.fabric.engines.modify g f } := rfl
@[simp] theorem State.onEngine_angle (g : Nat) (f : Engine → Engine) (s : State) :
    (s.onEngine g f).angle = s.angle := rfl
@[simp] theorem State.onEngine_motion (g : Nat) (f : Engine → Engine) (s : State) :
    (s.onEngine g f).motion = s.motion := rfl
@[simp] theorem State.onEngine_aux (g : Nat) (f : Engine → Engine) (s : State) :
    (s.onEngine g f).aux = s.aux := rfl
@[simp] theorem State.onEngine_net (g : Nat) (f : Engine → Engine) (s : State) :
    (s.onEngine g f).net = s.net := rfl
@[simp] theorem State.onEngine_integrity (g : Nat) (f : Engine → Engine) (s : State) :
    (s.onEngine g f).integrity = s.integrity := rfl
@[simp] theorem State.onEngine_health (g : Nat) (f : Engine → Engine) (s : State) :
    (s.onEngine g f).health = s.health := rfl
@[simp] theorem State.onEngine_out (g : Nat) (f : Engine → Engine) (s : State) :
    (s.onEngine g f).out = s.out := rfl
@[simp] theorem State.onEngine_free (g : Nat) (f : Engine → Engine) (s : State) :
    (s.onEngine g f).free = s.free := rfl
@[simp] theorem State.onEngine_pending (g : Nat) (f : Engine → Engine) (s : State) :
    (s.onEngine g f).pending = s.pending := rfl

/-! ### onLoop -/

@[simp] theorem State.onLoop_host (n : Nat) (f : Loop → Loop) (s : State) :
    (s.onLoop n f).host = s.host := rfl
@[simp] theorem State.onLoop_power (n : Nat) (f : Loop → Loop) (s : State) :
    (s.onLoop n f).power = s.power := rfl
@[simp] theorem State.onLoop_nvm (n : Nat) (f : Loop → Loop) (s : State) :
    (s.onLoop n f).nvm = s.nvm := rfl
@[simp] theorem State.onLoop_clk (n : Nat) (f : Loop → Loop) (s : State) :
    (s.onLoop n f).clk = s.clk := rfl
@[simp] theorem State.onLoop_emission (n : Nat) (f : Loop → Loop) (s : State) :
    (s.onLoop n f).emission = s.emission := rfl
@[simp] theorem State.onLoop_sched (n : Nat) (f : Loop → Loop) (s : State) :
    (s.onLoop n f).sched = s.sched := rfl
@[simp] theorem State.onLoop_zone (n : Nat) (f : Loop → Loop) (s : State) :
    (s.onLoop n f).zone = s.zone := rfl
@[simp] theorem State.onLoop_sets (n : Nat) (f : Loop → Loop) (s : State) :
    (s.onLoop n f).sets = s.sets := rfl
@[simp] theorem State.onLoop_returns (n : Nat) (f : Loop → Loop) (s : State) :
    (s.onLoop n f).returns = s.returns := rfl
@[simp] theorem State.onLoop_fabric (n : Nat) (f : Loop → Loop) (s : State) :
    (s.onLoop n f).fabric = s.fabric := rfl
@[simp] theorem State.onLoop_angle (n : Nat) (f : Loop → Loop) (s : State) :
    (s.onLoop n f).angle = s.angle := rfl
@[simp] theorem State.onLoop_motion (n : Nat) (f : Loop → Loop) (s : State) :
    (s.onLoop n f).motion = { s.motion with loops := s.motion.loops.modify n f } := rfl
@[simp] theorem State.onLoop_aux (n : Nat) (f : Loop → Loop) (s : State) :
    (s.onLoop n f).aux = s.aux := rfl
@[simp] theorem State.onLoop_net (n : Nat) (f : Loop → Loop) (s : State) :
    (s.onLoop n f).net = s.net := rfl
@[simp] theorem State.onLoop_integrity (n : Nat) (f : Loop → Loop) (s : State) :
    (s.onLoop n f).integrity = s.integrity := rfl
@[simp] theorem State.onLoop_health (n : Nat) (f : Loop → Loop) (s : State) :
    (s.onLoop n f).health = s.health := rfl
@[simp] theorem State.onLoop_out (n : Nat) (f : Loop → Loop) (s : State) :
    (s.onLoop n f).out = s.out := rfl
@[simp] theorem State.onLoop_free (n : Nat) (f : Loop → Loop) (s : State) :
    (s.onLoop n f).free = s.free := rfl
@[simp] theorem State.onLoop_pending (n : Nat) (f : Loop → Loop) (s : State) :
    (s.onLoop n f).pending = s.pending := rfl

/-! ### onPort -/

@[simp] theorem State.onPort_host (p : Nat) (f : Port → Port) (s : State) :
    (s.onPort p f).host = s.host := rfl
@[simp] theorem State.onPort_power (p : Nat) (f : Port → Port) (s : State) :
    (s.onPort p f).power = s.power := rfl
@[simp] theorem State.onPort_nvm (p : Nat) (f : Port → Port) (s : State) :
    (s.onPort p f).nvm = s.nvm := rfl
@[simp] theorem State.onPort_clk (p : Nat) (f : Port → Port) (s : State) :
    (s.onPort p f).clk = s.clk := rfl
@[simp] theorem State.onPort_emission (p : Nat) (f : Port → Port) (s : State) :
    (s.onPort p f).emission = s.emission := rfl
@[simp] theorem State.onPort_sched (p : Nat) (f : Port → Port) (s : State) :
    (s.onPort p f).sched = s.sched := rfl
@[simp] theorem State.onPort_zone (p : Nat) (f : Port → Port) (s : State) :
    (s.onPort p f).zone = s.zone := rfl
@[simp] theorem State.onPort_sets (p : Nat) (f : Port → Port) (s : State) :
    (s.onPort p f).sets = s.sets := rfl
@[simp] theorem State.onPort_returns (p : Nat) (f : Port → Port) (s : State) :
    (s.onPort p f).returns = s.returns := rfl
@[simp] theorem State.onPort_fabric (p : Nat) (f : Port → Port) (s : State) :
    (s.onPort p f).fabric = s.fabric := rfl
@[simp] theorem State.onPort_angle (p : Nat) (f : Port → Port) (s : State) :
    (s.onPort p f).angle = s.angle := rfl
@[simp] theorem State.onPort_motion (p : Nat) (f : Port → Port) (s : State) :
    (s.onPort p f).motion = s.motion := rfl
@[simp] theorem State.onPort_aux (p : Nat) (f : Port → Port) (s : State) :
    (s.onPort p f).aux = s.aux := rfl
@[simp] theorem State.onPort_net (p : Nat) (f : Port → Port) (s : State) :
    (s.onPort p f).net = { s.net with ports := s.net.ports.modify p f } := rfl
@[simp] theorem State.onPort_integrity (p : Nat) (f : Port → Port) (s : State) :
    (s.onPort p f).integrity = s.integrity := rfl
@[simp] theorem State.onPort_health (p : Nat) (f : Port → Port) (s : State) :
    (s.onPort p f).health = s.health := rfl
@[simp] theorem State.onPort_out (p : Nat) (f : Port → Port) (s : State) :
    (s.onPort p f).out = s.out := rfl
@[simp] theorem State.onPort_free (p : Nat) (f : Port → Port) (s : State) :
    (s.onPort p f).free = s.free := rfl
@[simp] theorem State.onPort_pending (p : Nat) (f : Port → Port) (s : State) :
    (s.onPort p f).pending = s.pending := rfl

/-! ### onLane -/

@[simp] theorem State.onLane_host (n : Nat) (f : Lane → Lane) (s : State) :
    (s.onLane n f).host = s.host := rfl
@[simp] theorem State.onLane_power (n : Nat) (f : Lane → Lane) (s : State) :
    (s.onLane n f).power = s.power := rfl
@[simp] theorem State.onLane_nvm (n : Nat) (f : Lane → Lane) (s : State) :
    (s.onLane n f).nvm = s.nvm := rfl
@[simp] theorem State.onLane_clk (n : Nat) (f : Lane → Lane) (s : State) :
    (s.onLane n f).clk = { s.clk with lanes := s.clk.lanes.modify n f } := rfl
@[simp] theorem State.onLane_emission (n : Nat) (f : Lane → Lane) (s : State) :
    (s.onLane n f).emission = s.emission := rfl
@[simp] theorem State.onLane_sched (n : Nat) (f : Lane → Lane) (s : State) :
    (s.onLane n f).sched = s.sched := rfl
@[simp] theorem State.onLane_zone (n : Nat) (f : Lane → Lane) (s : State) :
    (s.onLane n f).zone = s.zone := rfl
@[simp] theorem State.onLane_sets (n : Nat) (f : Lane → Lane) (s : State) :
    (s.onLane n f).sets = s.sets := rfl
@[simp] theorem State.onLane_returns (n : Nat) (f : Lane → Lane) (s : State) :
    (s.onLane n f).returns = s.returns := rfl
@[simp] theorem State.onLane_fabric (n : Nat) (f : Lane → Lane) (s : State) :
    (s.onLane n f).fabric = s.fabric := rfl
@[simp] theorem State.onLane_angle (n : Nat) (f : Lane → Lane) (s : State) :
    (s.onLane n f).angle = s.angle := rfl
@[simp] theorem State.onLane_motion (n : Nat) (f : Lane → Lane) (s : State) :
    (s.onLane n f).motion = s.motion := rfl
@[simp] theorem State.onLane_aux (n : Nat) (f : Lane → Lane) (s : State) :
    (s.onLane n f).aux = s.aux := rfl
@[simp] theorem State.onLane_net (n : Nat) (f : Lane → Lane) (s : State) :
    (s.onLane n f).net = s.net := rfl
@[simp] theorem State.onLane_integrity (n : Nat) (f : Lane → Lane) (s : State) :
    (s.onLane n f).integrity = s.integrity := rfl
@[simp] theorem State.onLane_health (n : Nat) (f : Lane → Lane) (s : State) :
    (s.onLane n f).health = s.health := rfl
@[simp] theorem State.onLane_out (n : Nat) (f : Lane → Lane) (s : State) :
    (s.onLane n f).out = s.out := rfl
@[simp] theorem State.onLane_free (n : Nat) (f : Lane → Lane) (s : State) :
    (s.onLane n f).free = s.free := rfl
@[simp] theorem State.onLane_pending (n : Nat) (f : Lane → Lane) (s : State) :
    (s.onLane n f).pending = s.pending := rfl

/-! ### onFe -/

@[simp] theorem State.onFe_host (n : Nat) (f : FrontEndCal → FrontEndCal) (s : State) :
    (s.onFe n f).host = s.host := rfl
@[simp] theorem State.onFe_power (n : Nat) (f : FrontEndCal → FrontEndCal) (s : State) :
    (s.onFe n f).power = s.power := rfl
@[simp] theorem State.onFe_nvm (n : Nat) (f : FrontEndCal → FrontEndCal) (s : State) :
    (s.onFe n f).nvm = s.nvm := rfl
@[simp] theorem State.onFe_clk (n : Nat) (f : FrontEndCal → FrontEndCal) (s : State) :
    (s.onFe n f).clk = { s.clk with fes := s.clk.fes.modify n f } := rfl
@[simp] theorem State.onFe_emission (n : Nat) (f : FrontEndCal → FrontEndCal) (s : State) :
    (s.onFe n f).emission = s.emission := rfl
@[simp] theorem State.onFe_sched (n : Nat) (f : FrontEndCal → FrontEndCal) (s : State) :
    (s.onFe n f).sched = s.sched := rfl
@[simp] theorem State.onFe_zone (n : Nat) (f : FrontEndCal → FrontEndCal) (s : State) :
    (s.onFe n f).zone = s.zone := rfl
@[simp] theorem State.onFe_sets (n : Nat) (f : FrontEndCal → FrontEndCal) (s : State) :
    (s.onFe n f).sets = s.sets := rfl
@[simp] theorem State.onFe_returns (n : Nat) (f : FrontEndCal → FrontEndCal) (s : State) :
    (s.onFe n f).returns = s.returns := rfl
@[simp] theorem State.onFe_fabric (n : Nat) (f : FrontEndCal → FrontEndCal) (s : State) :
    (s.onFe n f).fabric = s.fabric := rfl
@[simp] theorem State.onFe_angle (n : Nat) (f : FrontEndCal → FrontEndCal) (s : State) :
    (s.onFe n f).angle = s.angle := rfl
@[simp] theorem State.onFe_motion (n : Nat) (f : FrontEndCal → FrontEndCal) (s : State) :
    (s.onFe n f).motion = s.motion := rfl
@[simp] theorem State.onFe_aux (n : Nat) (f : FrontEndCal → FrontEndCal) (s : State) :
    (s.onFe n f).aux = s.aux := rfl
@[simp] theorem State.onFe_net (n : Nat) (f : FrontEndCal → FrontEndCal) (s : State) :
    (s.onFe n f).net = s.net := rfl
@[simp] theorem State.onFe_integrity (n : Nat) (f : FrontEndCal → FrontEndCal) (s : State) :
    (s.onFe n f).integrity = s.integrity := rfl
@[simp] theorem State.onFe_health (n : Nat) (f : FrontEndCal → FrontEndCal) (s : State) :
    (s.onFe n f).health = s.health := rfl
@[simp] theorem State.onFe_out (n : Nat) (f : FrontEndCal → FrontEndCal) (s : State) :
    (s.onFe n f).out = s.out := rfl
@[simp] theorem State.onFe_free (n : Nat) (f : FrontEndCal → FrontEndCal) (s : State) :
    (s.onFe n f).free = s.free := rfl
@[simp] theorem State.onFe_pending (n : Nat) (f : FrontEndCal → FrontEndCal) (s : State) :
    (s.onFe n f).pending = s.pending := rfl

/-! ### onDomain -/

@[simp] theorem State.onDomain_host (d : Domain) (f : DomainState → DomainState) (s : State) :
    (s.onDomain d f).host = s.host := rfl
@[simp] theorem State.onDomain_nvm (d : Domain) (f : DomainState → DomainState) (s : State) :
    (s.onDomain d f).nvm = s.nvm := rfl
@[simp] theorem State.onDomain_clk (d : Domain) (f : DomainState → DomainState) (s : State) :
    (s.onDomain d f).clk = s.clk := rfl
@[simp] theorem State.onDomain_emission (d : Domain) (f : DomainState → DomainState) (s : State) :
    (s.onDomain d f).emission = s.emission := rfl
@[simp] theorem State.onDomain_sched (d : Domain) (f : DomainState → DomainState) (s : State) :
    (s.onDomain d f).sched = s.sched := rfl
@[simp] theorem State.onDomain_zone (d : Domain) (f : DomainState → DomainState) (s : State) :
    (s.onDomain d f).zone = s.zone := rfl
@[simp] theorem State.onDomain_sets (d : Domain) (f : DomainState → DomainState) (s : State) :
    (s.onDomain d f).sets = s.sets := rfl
@[simp] theorem State.onDomain_returns (d : Domain) (f : DomainState → DomainState) (s : State) :
    (s.onDomain d f).returns = s.returns := rfl
@[simp] theorem State.onDomain_fabric (d : Domain) (f : DomainState → DomainState) (s : State) :
    (s.onDomain d f).fabric = s.fabric := rfl
@[simp] theorem State.onDomain_angle (d : Domain) (f : DomainState → DomainState) (s : State) :
    (s.onDomain d f).angle = s.angle := rfl
@[simp] theorem State.onDomain_motion (d : Domain) (f : DomainState → DomainState) (s : State) :
    (s.onDomain d f).motion = s.motion := rfl
@[simp] theorem State.onDomain_aux (d : Domain) (f : DomainState → DomainState) (s : State) :
    (s.onDomain d f).aux = s.aux := rfl
@[simp] theorem State.onDomain_net (d : Domain) (f : DomainState → DomainState) (s : State) :
    (s.onDomain d f).net = s.net := rfl
@[simp] theorem State.onDomain_integrity (d : Domain) (f : DomainState → DomainState) (s : State) :
    (s.onDomain d f).integrity = s.integrity := rfl
@[simp] theorem State.onDomain_health (d : Domain) (f : DomainState → DomainState) (s : State) :
    (s.onDomain d f).health = s.health := rfl
@[simp] theorem State.onDomain_out (d : Domain) (f : DomainState → DomainState) (s : State) :
    (s.onDomain d f).out = s.out := rfl
@[simp] theorem State.onDomain_free (d : Domain) (f : DomainState → DomainState) (s : State) :
    (s.onDomain d f).free = s.free := rfl
@[simp] theorem State.onDomain_pending (d : Domain) (f : DomainState → DomainState) (s : State) :
    (s.onDomain d f).pending = s.pending := rfl

/-! ### post -/

@[simp] theorem State.post_host (r : Reply) (s : State) :
    (s.post r).host = { s.host with waiting := s.host.waiting ++ [r] } := rfl
@[simp] theorem State.post_power (r : Reply) (s : State) :
    (s.post r).power = s.power := rfl
@[simp] theorem State.post_nvm (r : Reply) (s : State) :
    (s.post r).nvm = s.nvm := rfl
@[simp] theorem State.post_clk (r : Reply) (s : State) :
    (s.post r).clk = s.clk := rfl
@[simp] theorem State.post_emission (r : Reply) (s : State) :
    (s.post r).emission = s.emission := rfl
@[simp] theorem State.post_sched (r : Reply) (s : State) :
    (s.post r).sched = s.sched := rfl
@[simp] theorem State.post_zone (r : Reply) (s : State) :
    (s.post r).zone = s.zone := rfl
@[simp] theorem State.post_sets (r : Reply) (s : State) :
    (s.post r).sets = s.sets := rfl
@[simp] theorem State.post_returns (r : Reply) (s : State) :
    (s.post r).returns = s.returns := rfl
@[simp] theorem State.post_fabric (r : Reply) (s : State) :
    (s.post r).fabric = s.fabric := rfl
@[simp] theorem State.post_angle (r : Reply) (s : State) :
    (s.post r).angle = s.angle := rfl
@[simp] theorem State.post_motion (r : Reply) (s : State) :
    (s.post r).motion = s.motion := rfl
@[simp] theorem State.post_aux (r : Reply) (s : State) :
    (s.post r).aux = s.aux := rfl
@[simp] theorem State.post_net (r : Reply) (s : State) :
    (s.post r).net = s.net := rfl
@[simp] theorem State.post_integrity (r : Reply) (s : State) :
    (s.post r).integrity = s.integrity := rfl
@[simp] theorem State.post_health (r : Reply) (s : State) :
    (s.post r).health = s.health := rfl
@[simp] theorem State.post_out (r : Reply) (s : State) :
    (s.post r).out = s.out := rfl
@[simp] theorem State.post_free (r : Reply) (s : State) :
    (s.post r).free = s.free := rfl
@[simp] theorem State.post_pending (r : Reply) (s : State) :
    (s.post r).pending = s.pending := rfl

/-! ### recordDup -/

@[simp] theorem State.recordDup_power (q : Nat) (d : DupRec) (s : State) :
    (s.recordDup q d).power = s.power := rfl
@[simp] theorem State.recordDup_nvm (q : Nat) (d : DupRec) (s : State) :
    (s.recordDup q d).nvm = s.nvm := rfl
@[simp] theorem State.recordDup_clk (q : Nat) (d : DupRec) (s : State) :
    (s.recordDup q d).clk = s.clk := rfl
@[simp] theorem State.recordDup_emission (q : Nat) (d : DupRec) (s : State) :
    (s.recordDup q d).emission = s.emission := rfl
@[simp] theorem State.recordDup_sched (q : Nat) (d : DupRec) (s : State) :
    (s.recordDup q d).sched = s.sched := rfl
@[simp] theorem State.recordDup_zone (q : Nat) (d : DupRec) (s : State) :
    (s.recordDup q d).zone = s.zone := rfl
@[simp] theorem State.recordDup_sets (q : Nat) (d : DupRec) (s : State) :
    (s.recordDup q d).sets = s.sets := rfl
@[simp] theorem State.recordDup_returns (q : Nat) (d : DupRec) (s : State) :
    (s.recordDup q d).returns = s.returns := rfl
@[simp] theorem State.recordDup_fabric (q : Nat) (d : DupRec) (s : State) :
    (s.recordDup q d).fabric = s.fabric := rfl
@[simp] theorem State.recordDup_angle (q : Nat) (d : DupRec) (s : State) :
    (s.recordDup q d).angle = s.angle := rfl
@[simp] theorem State.recordDup_motion (q : Nat) (d : DupRec) (s : State) :
    (s.recordDup q d).motion = s.motion := rfl
@[simp] theorem State.recordDup_aux (q : Nat) (d : DupRec) (s : State) :
    (s.recordDup q d).aux = s.aux := rfl
@[simp] theorem State.recordDup_net (q : Nat) (d : DupRec) (s : State) :
    (s.recordDup q d).net = s.net := rfl
@[simp] theorem State.recordDup_integrity (q : Nat) (d : DupRec) (s : State) :
    (s.recordDup q d).integrity = s.integrity := rfl
@[simp] theorem State.recordDup_health (q : Nat) (d : DupRec) (s : State) :
    (s.recordDup q d).health = s.health := rfl
@[simp] theorem State.recordDup_out (q : Nat) (d : DupRec) (s : State) :
    (s.recordDup q d).out = s.out := rfl
@[simp] theorem State.recordDup_free (q : Nat) (d : DupRec) (s : State) :
    (s.recordDup q d).free = s.free := rfl
@[simp] theorem State.recordDup_pending (q : Nat) (d : DupRec) (s : State) :
    (s.recordDup q d).pending = s.pending := rfl

/-! ### updateDup -/

@[simp] theorem State.updateDup_power (q seq tr : Nat) (f : DupRec → DupRec) (s : State) :
    (s.updateDup q seq tr f).power = s.power := rfl
@[simp] theorem State.updateDup_nvm (q seq tr : Nat) (f : DupRec → DupRec) (s : State) :
    (s.updateDup q seq tr f).nvm = s.nvm := rfl
@[simp] theorem State.updateDup_clk (q seq tr : Nat) (f : DupRec → DupRec) (s : State) :
    (s.updateDup q seq tr f).clk = s.clk := rfl
@[simp] theorem State.updateDup_emission (q seq tr : Nat) (f : DupRec → DupRec) (s : State) :
    (s.updateDup q seq tr f).emission = s.emission := rfl
@[simp] theorem State.updateDup_sched (q seq tr : Nat) (f : DupRec → DupRec) (s : State) :
    (s.updateDup q seq tr f).sched = s.sched := rfl
@[simp] theorem State.updateDup_zone (q seq tr : Nat) (f : DupRec → DupRec) (s : State) :
    (s.updateDup q seq tr f).zone = s.zone := rfl
@[simp] theorem State.updateDup_sets (q seq tr : Nat) (f : DupRec → DupRec) (s : State) :
    (s.updateDup q seq tr f).sets = s.sets := rfl
@[simp] theorem State.updateDup_returns (q seq tr : Nat) (f : DupRec → DupRec) (s : State) :
    (s.updateDup q seq tr f).returns = s.returns := rfl
@[simp] theorem State.updateDup_fabric (q seq tr : Nat) (f : DupRec → DupRec) (s : State) :
    (s.updateDup q seq tr f).fabric = s.fabric := rfl
@[simp] theorem State.updateDup_angle (q seq tr : Nat) (f : DupRec → DupRec) (s : State) :
    (s.updateDup q seq tr f).angle = s.angle := rfl
@[simp] theorem State.updateDup_motion (q seq tr : Nat) (f : DupRec → DupRec) (s : State) :
    (s.updateDup q seq tr f).motion = s.motion := rfl
@[simp] theorem State.updateDup_aux (q seq tr : Nat) (f : DupRec → DupRec) (s : State) :
    (s.updateDup q seq tr f).aux = s.aux := rfl
@[simp] theorem State.updateDup_net (q seq tr : Nat) (f : DupRec → DupRec) (s : State) :
    (s.updateDup q seq tr f).net = s.net := rfl
@[simp] theorem State.updateDup_integrity (q seq tr : Nat) (f : DupRec → DupRec) (s : State) :
    (s.updateDup q seq tr f).integrity = s.integrity := rfl
@[simp] theorem State.updateDup_health (q seq tr : Nat) (f : DupRec → DupRec) (s : State) :
    (s.updateDup q seq tr f).health = s.health := rfl
@[simp] theorem State.updateDup_out (q seq tr : Nat) (f : DupRec → DupRec) (s : State) :
    (s.updateDup q seq tr f).out = s.out := rfl
@[simp] theorem State.updateDup_free (q seq tr : Nat) (f : DupRec → DupRec) (s : State) :
    (s.updateDup q seq tr f).free = s.free := rfl
@[simp] theorem State.updateDup_pending (q seq tr : Nat) (f : DupRec → DupRec) (s : State) :
    (s.updateDup q seq tr f).pending = s.pending := rfl

/-! ### applied -/

@[simp] theorem State.applied_power (o : Obj) (c : Cmd) (b : StatusBlock) (s : State) :
    (s.applied o c b).power = s.power := rfl
@[simp] theorem State.applied_nvm (o : Obj) (c : Cmd) (b : StatusBlock) (s : State) :
    (s.applied o c b).nvm = s.nvm := rfl
@[simp] theorem State.applied_clk (o : Obj) (c : Cmd) (b : StatusBlock) (s : State) :
    (s.applied o c b).clk = s.clk := rfl
@[simp] theorem State.applied_emission (o : Obj) (c : Cmd) (b : StatusBlock) (s : State) :
    (s.applied o c b).emission = s.emission := rfl
@[simp] theorem State.applied_sched (o : Obj) (c : Cmd) (b : StatusBlock) (s : State) :
    (s.applied o c b).sched = s.sched := rfl
@[simp] theorem State.applied_zone (o : Obj) (c : Cmd) (b : StatusBlock) (s : State) :
    (s.applied o c b).zone = s.zone := rfl
@[simp] theorem State.applied_sets (o : Obj) (c : Cmd) (b : StatusBlock) (s : State) :
    (s.applied o c b).sets = s.sets := rfl
@[simp] theorem State.applied_returns (o : Obj) (c : Cmd) (b : StatusBlock) (s : State) :
    (s.applied o c b).returns = s.returns := rfl
@[simp] theorem State.applied_fabric (o : Obj) (c : Cmd) (b : StatusBlock) (s : State) :
    (s.applied o c b).fabric = s.fabric := rfl
@[simp] theorem State.applied_angle (o : Obj) (c : Cmd) (b : StatusBlock) (s : State) :
    (s.applied o c b).angle = s.angle := rfl
@[simp] theorem State.applied_motion (o : Obj) (c : Cmd) (b : StatusBlock) (s : State) :
    (s.applied o c b).motion = s.motion := rfl
@[simp] theorem State.applied_aux (o : Obj) (c : Cmd) (b : StatusBlock) (s : State) :
    (s.applied o c b).aux = s.aux := rfl
@[simp] theorem State.applied_net (o : Obj) (c : Cmd) (b : StatusBlock) (s : State) :
    (s.applied o c b).net = s.net := rfl
@[simp] theorem State.applied_integrity (o : Obj) (c : Cmd) (b : StatusBlock) (s : State) :
    (s.applied o c b).integrity = s.integrity := rfl
@[simp] theorem State.applied_health (o : Obj) (c : Cmd) (b : StatusBlock) (s : State) :
    (s.applied o c b).health = s.health := rfl
@[simp] theorem State.applied_out (o : Obj) (c : Cmd) (b : StatusBlock) (s : State) :
    (s.applied o c b).out = s.out := rfl
@[simp] theorem State.applied_free (o : Obj) (c : Cmd) (b : StatusBlock) (s : State) :
    (s.applied o c b).free = s.free := rfl
@[simp] theorem State.applied_pending (o : Obj) (c : Cmd) (b : StatusBlock) (s : State) :
    (s.applied o c b).pending = s.pending := rfl

/-! ### setPending -/

@[simp] theorem State.setPending_power (o : Obj) (c : Cmd) (s : State) :
    (s.setPending o c).power = s.power := rfl
@[simp] theorem State.setPending_nvm (o : Obj) (c : Cmd) (s : State) :
    (s.setPending o c).nvm = s.nvm := rfl
@[simp] theorem State.setPending_clk (o : Obj) (c : Cmd) (s : State) :
    (s.setPending o c).clk = s.clk := rfl
@[simp] theorem State.setPending_emission (o : Obj) (c : Cmd) (s : State) :
    (s.setPending o c).emission = s.emission := rfl
@[simp] theorem State.setPending_sched (o : Obj) (c : Cmd) (s : State) :
    (s.setPending o c).sched = s.sched := rfl
@[simp] theorem State.setPending_zone (o : Obj) (c : Cmd) (s : State) :
    (s.setPending o c).zone = s.zone := rfl
@[simp] theorem State.setPending_sets (o : Obj) (c : Cmd) (s : State) :
    (s.setPending o c).sets = s.sets := rfl
@[simp] theorem State.setPending_returns (o : Obj) (c : Cmd) (s : State) :
    (s.setPending o c).returns = s.returns := rfl
@[simp] theorem State.setPending_fabric (o : Obj) (c : Cmd) (s : State) :
    (s.setPending o c).fabric = s.fabric := rfl
@[simp] theorem State.setPending_angle (o : Obj) (c : Cmd) (s : State) :
    (s.setPending o c).angle = s.angle := rfl
@[simp] theorem State.setPending_motion (o : Obj) (c : Cmd) (s : State) :
    (s.setPending o c).motion = s.motion := rfl
@[simp] theorem State.setPending_aux (o : Obj) (c : Cmd) (s : State) :
    (s.setPending o c).aux = s.aux := rfl
@[simp] theorem State.setPending_net (o : Obj) (c : Cmd) (s : State) :
    (s.setPending o c).net = s.net := rfl
@[simp] theorem State.setPending_integrity (o : Obj) (c : Cmd) (s : State) :
    (s.setPending o c).integrity = s.integrity := rfl
@[simp] theorem State.setPending_health (o : Obj) (c : Cmd) (s : State) :
    (s.setPending o c).health = s.health := rfl
@[simp] theorem State.setPending_out (o : Obj) (c : Cmd) (s : State) :
    (s.setPending o c).out = s.out := rfl
@[simp] theorem State.setPending_free (o : Obj) (c : Cmd) (s : State) :
    (s.setPending o c).free = s.free := rfl
@[simp] theorem State.setPending_pending (o : Obj) (c : Cmd) (s : State) :
    (s.setPending o c).pending = s.pending := rfl

/-! ### onLive -/

@[simp] theorem State.onLive_power (c : Cmd) (f : Live → Live) (s : State) :
    (s.onLive c f).power = s.power := by
  unfold State.onLive; split <;> simp
@[simp] theorem State.onLive_nvm (c : Cmd) (f : Live → Live) (s : State) :
    (s.onLive c f).nvm = s.nvm := by
  unfold State.onLive; split <;> simp
@[simp] theorem State.onLive_clk (c : Cmd) (f : Live → Live) (s : State) :
    (s.onLive c f).clk = s.clk := by
  unfold State.onLive; split <;> simp
@[simp] theorem State.onLive_emission (c : Cmd) (f : Live → Live) (s : State) :
    (s.onLive c f).emission = s.emission := by
  unfold State.onLive; split <;> simp
@[simp] theorem State.onLive_sched (c : Cmd) (f : Live → Live) (s : State) :
    (s.onLive c f).sched = s.sched := by
  unfold State.onLive; split <;> simp
@[simp] theorem State.onLive_zone (c : Cmd) (f : Live → Live) (s : State) :
    (s.onLive c f).zone = s.zone := by
  unfold State.onLive; split <;> simp
@[simp] theorem State.onLive_sets (c : Cmd) (f : Live → Live) (s : State) :
    (s.onLive c f).sets = s.sets := by
  unfold State.onLive; split <;> simp
@[simp] theorem State.onLive_returns (c : Cmd) (f : Live → Live) (s : State) :
    (s.onLive c f).returns = s.returns := by
  unfold State.onLive; split <;> simp
@[simp] theorem State.onLive_fabric (c : Cmd) (f : Live → Live) (s : State) :
    (s.onLive c f).fabric = s.fabric := by
  unfold State.onLive; split <;> simp
@[simp] theorem State.onLive_angle (c : Cmd) (f : Live → Live) (s : State) :
    (s.onLive c f).angle = s.angle := by
  unfold State.onLive; split <;> simp
@[simp] theorem State.onLive_motion (c : Cmd) (f : Live → Live) (s : State) :
    (s.onLive c f).motion = s.motion := by
  unfold State.onLive; split <;> simp
@[simp] theorem State.onLive_aux (c : Cmd) (f : Live → Live) (s : State) :
    (s.onLive c f).aux = s.aux := by
  unfold State.onLive; split <;> simp
@[simp] theorem State.onLive_net (c : Cmd) (f : Live → Live) (s : State) :
    (s.onLive c f).net = s.net := by
  unfold State.onLive; split <;> simp
@[simp] theorem State.onLive_integrity (c : Cmd) (f : Live → Live) (s : State) :
    (s.onLive c f).integrity = s.integrity := by
  unfold State.onLive; split <;> simp
@[simp] theorem State.onLive_health (c : Cmd) (f : Live → Live) (s : State) :
    (s.onLive c f).health = s.health := by
  unfold State.onLive; split <;> simp
@[simp] theorem State.onLive_out (c : Cmd) (f : Live → Live) (s : State) :
    (s.onLive c f).out = s.out := by
  unfold State.onLive; split <;> simp
@[simp] theorem State.onLive_free (c : Cmd) (f : Live → Live) (s : State) :
    (s.onLive c f).free = s.free := by
  unfold State.onLive; split <;> simp
@[simp] theorem State.onLive_pending (c : Cmd) (f : Live → Live) (s : State) :
    (s.onLive c f).pending = s.pending := by
  unfold State.onLive; split <;> simp

/-! ### recordDone -/

@[simp] theorem State.recordDone_power (c : Cmd) (r : Reply) (s : State) :
    (s.recordDone c r).power = s.power := by
  unfold State.recordDone; split <;> simp
@[simp] theorem State.recordDone_nvm (c : Cmd) (r : Reply) (s : State) :
    (s.recordDone c r).nvm = s.nvm := by
  unfold State.recordDone; split <;> simp
@[simp] theorem State.recordDone_clk (c : Cmd) (r : Reply) (s : State) :
    (s.recordDone c r).clk = s.clk := by
  unfold State.recordDone; split <;> simp
@[simp] theorem State.recordDone_emission (c : Cmd) (r : Reply) (s : State) :
    (s.recordDone c r).emission = s.emission := by
  unfold State.recordDone; split <;> simp
@[simp] theorem State.recordDone_sched (c : Cmd) (r : Reply) (s : State) :
    (s.recordDone c r).sched = s.sched := by
  unfold State.recordDone; split <;> simp
@[simp] theorem State.recordDone_zone (c : Cmd) (r : Reply) (s : State) :
    (s.recordDone c r).zone = s.zone := by
  unfold State.recordDone; split <;> simp
@[simp] theorem State.recordDone_sets (c : Cmd) (r : Reply) (s : State) :
    (s.recordDone c r).sets = s.sets := by
  unfold State.recordDone; split <;> simp
@[simp] theorem State.recordDone_returns (c : Cmd) (r : Reply) (s : State) :
    (s.recordDone c r).returns = s.returns := by
  unfold State.recordDone; split <;> simp
@[simp] theorem State.recordDone_fabric (c : Cmd) (r : Reply) (s : State) :
    (s.recordDone c r).fabric = s.fabric := by
  unfold State.recordDone; split <;> simp
@[simp] theorem State.recordDone_angle (c : Cmd) (r : Reply) (s : State) :
    (s.recordDone c r).angle = s.angle := by
  unfold State.recordDone; split <;> simp
@[simp] theorem State.recordDone_motion (c : Cmd) (r : Reply) (s : State) :
    (s.recordDone c r).motion = s.motion := by
  unfold State.recordDone; split <;> simp
@[simp] theorem State.recordDone_aux (c : Cmd) (r : Reply) (s : State) :
    (s.recordDone c r).aux = s.aux := by
  unfold State.recordDone; split <;> simp
@[simp] theorem State.recordDone_net (c : Cmd) (r : Reply) (s : State) :
    (s.recordDone c r).net = s.net := by
  unfold State.recordDone; split <;> simp
@[simp] theorem State.recordDone_integrity (c : Cmd) (r : Reply) (s : State) :
    (s.recordDone c r).integrity = s.integrity := by
  unfold State.recordDone; split <;> simp
@[simp] theorem State.recordDone_health (c : Cmd) (r : Reply) (s : State) :
    (s.recordDone c r).health = s.health := by
  unfold State.recordDone; split <;> simp
@[simp] theorem State.recordDone_out (c : Cmd) (r : Reply) (s : State) :
    (s.recordDone c r).out = s.out := by
  unfold State.recordDone; split <;> simp
@[simp] theorem State.recordDone_free (c : Cmd) (r : Reply) (s : State) :
    (s.recordDone c r).free = s.free := by
  unfold State.recordDone; split <;> simp
@[simp] theorem State.recordDone_pending (c : Cmd) (r : Reply) (s : State) :
    (s.recordDone c r).pending = s.pending := by
  unfold State.recordDone; split <;> simp

/-! ### finishWith -/

@[simp] theorem State.finishWith_power (op : Nat) (c : Cmd) (b : StatusBlock) (d : List Byte) (s : State) :
    (s.finishWith op c b d).power = s.power := by
  simp [State.finishWith]
@[simp] theorem State.finishWith_nvm (op : Nat) (c : Cmd) (b : StatusBlock) (d : List Byte) (s : State) :
    (s.finishWith op c b d).nvm = s.nvm := by
  simp [State.finishWith]
@[simp] theorem State.finishWith_clk (op : Nat) (c : Cmd) (b : StatusBlock) (d : List Byte) (s : State) :
    (s.finishWith op c b d).clk = s.clk := by
  simp [State.finishWith]
@[simp] theorem State.finishWith_emission (op : Nat) (c : Cmd) (b : StatusBlock) (d : List Byte) (s : State) :
    (s.finishWith op c b d).emission = s.emission := by
  simp [State.finishWith]
@[simp] theorem State.finishWith_sched (op : Nat) (c : Cmd) (b : StatusBlock) (d : List Byte) (s : State) :
    (s.finishWith op c b d).sched = s.sched := by
  simp [State.finishWith]
@[simp] theorem State.finishWith_zone (op : Nat) (c : Cmd) (b : StatusBlock) (d : List Byte) (s : State) :
    (s.finishWith op c b d).zone = s.zone := by
  simp [State.finishWith]
@[simp] theorem State.finishWith_sets (op : Nat) (c : Cmd) (b : StatusBlock) (d : List Byte) (s : State) :
    (s.finishWith op c b d).sets = s.sets := by
  simp [State.finishWith]
@[simp] theorem State.finishWith_returns (op : Nat) (c : Cmd) (b : StatusBlock) (d : List Byte) (s : State) :
    (s.finishWith op c b d).returns = s.returns := by
  simp [State.finishWith]
@[simp] theorem State.finishWith_fabric (op : Nat) (c : Cmd) (b : StatusBlock) (d : List Byte) (s : State) :
    (s.finishWith op c b d).fabric = s.fabric := by
  simp [State.finishWith]
@[simp] theorem State.finishWith_angle (op : Nat) (c : Cmd) (b : StatusBlock) (d : List Byte) (s : State) :
    (s.finishWith op c b d).angle = s.angle := by
  simp [State.finishWith]
@[simp] theorem State.finishWith_motion (op : Nat) (c : Cmd) (b : StatusBlock) (d : List Byte) (s : State) :
    (s.finishWith op c b d).motion = s.motion := by
  simp [State.finishWith]
@[simp] theorem State.finishWith_aux (op : Nat) (c : Cmd) (b : StatusBlock) (d : List Byte) (s : State) :
    (s.finishWith op c b d).aux = s.aux := by
  simp [State.finishWith]
@[simp] theorem State.finishWith_net (op : Nat) (c : Cmd) (b : StatusBlock) (d : List Byte) (s : State) :
    (s.finishWith op c b d).net = s.net := by
  simp [State.finishWith]
@[simp] theorem State.finishWith_integrity (op : Nat) (c : Cmd) (b : StatusBlock) (d : List Byte) (s : State) :
    (s.finishWith op c b d).integrity = s.integrity := by
  simp [State.finishWith]
@[simp] theorem State.finishWith_health (op : Nat) (c : Cmd) (b : StatusBlock) (d : List Byte) (s : State) :
    (s.finishWith op c b d).health = s.health := by
  simp [State.finishWith]
@[simp] theorem State.finishWith_out (op : Nat) (c : Cmd) (b : StatusBlock) (d : List Byte) (s : State) :
    (s.finishWith op c b d).out = s.out := by
  simp [State.finishWith]
@[simp] theorem State.finishWith_free (op : Nat) (c : Cmd) (b : StatusBlock) (d : List Byte) (s : State) :
    (s.finishWith op c b d).free = s.free := by
  simp [State.finishWith]
@[simp] theorem State.finishWith_pending (op : Nat) (c : Cmd) (b : StatusBlock) (d : List Byte) (s : State) :
    (s.finishWith op c b d).pending = s.pending := by
  simp [State.finishWith]

/-! ### finish -/

@[simp] theorem State.finish_power (op : Nat) (c : Cmd) (st det res : Nat) (d : List Byte) (s : State) :
    (s.finish op c st det res d).power = s.power := by
  simp [State.finish]
@[simp] theorem State.finish_nvm (op : Nat) (c : Cmd) (st det res : Nat) (d : List Byte) (s : State) :
    (s.finish op c st det res d).nvm = s.nvm := by
  simp [State.finish]
@[simp] theorem State.finish_clk (op : Nat) (c : Cmd) (st det res : Nat) (d : List Byte) (s : State) :
    (s.finish op c st det res d).clk = s.clk := by
  simp [State.finish]
@[simp] theorem State.finish_emission (op : Nat) (c : Cmd) (st det res : Nat) (d : List Byte) (s : State) :
    (s.finish op c st det res d).emission = s.emission := by
  simp [State.finish]
@[simp] theorem State.finish_sched (op : Nat) (c : Cmd) (st det res : Nat) (d : List Byte) (s : State) :
    (s.finish op c st det res d).sched = s.sched := by
  simp [State.finish]
@[simp] theorem State.finish_zone (op : Nat) (c : Cmd) (st det res : Nat) (d : List Byte) (s : State) :
    (s.finish op c st det res d).zone = s.zone := by
  simp [State.finish]
@[simp] theorem State.finish_sets (op : Nat) (c : Cmd) (st det res : Nat) (d : List Byte) (s : State) :
    (s.finish op c st det res d).sets = s.sets := by
  simp [State.finish]
@[simp] theorem State.finish_returns (op : Nat) (c : Cmd) (st det res : Nat) (d : List Byte) (s : State) :
    (s.finish op c st det res d).returns = s.returns := by
  simp [State.finish]
@[simp] theorem State.finish_fabric (op : Nat) (c : Cmd) (st det res : Nat) (d : List Byte) (s : State) :
    (s.finish op c st det res d).fabric = s.fabric := by
  simp [State.finish]
@[simp] theorem State.finish_angle (op : Nat) (c : Cmd) (st det res : Nat) (d : List Byte) (s : State) :
    (s.finish op c st det res d).angle = s.angle := by
  simp [State.finish]
@[simp] theorem State.finish_motion (op : Nat) (c : Cmd) (st det res : Nat) (d : List Byte) (s : State) :
    (s.finish op c st det res d).motion = s.motion := by
  simp [State.finish]
@[simp] theorem State.finish_aux (op : Nat) (c : Cmd) (st det res : Nat) (d : List Byte) (s : State) :
    (s.finish op c st det res d).aux = s.aux := by
  simp [State.finish]
@[simp] theorem State.finish_net (op : Nat) (c : Cmd) (st det res : Nat) (d : List Byte) (s : State) :
    (s.finish op c st det res d).net = s.net := by
  simp [State.finish]
@[simp] theorem State.finish_integrity (op : Nat) (c : Cmd) (st det res : Nat) (d : List Byte) (s : State) :
    (s.finish op c st det res d).integrity = s.integrity := by
  simp [State.finish]
@[simp] theorem State.finish_health (op : Nat) (c : Cmd) (st det res : Nat) (d : List Byte) (s : State) :
    (s.finish op c st det res d).health = s.health := by
  simp [State.finish]
@[simp] theorem State.finish_out (op : Nat) (c : Cmd) (st det res : Nat) (d : List Byte) (s : State) :
    (s.finish op c st det res d).out = s.out := by
  simp [State.finish]
@[simp] theorem State.finish_free (op : Nat) (c : Cmd) (st det res : Nat) (d : List Byte) (s : State) :
    (s.finish op c st det res d).free = s.free := by
  simp [State.finish]
@[simp] theorem State.finish_pending (op : Nat) (c : Cmd) (st det res : Nat) (d : List Byte) (s : State) :
    (s.finish op c st det res d).pending = s.pending := by
  simp [State.finish]

/-! ### done -/

@[simp] theorem State.done_power (op : Nat) (c : Cmd) (res : Nat) (s : State) :
    (s.done op c res).power = s.power := by
  simp [State.done]
@[simp] theorem State.done_nvm (op : Nat) (c : Cmd) (res : Nat) (s : State) :
    (s.done op c res).nvm = s.nvm := by
  simp [State.done]
@[simp] theorem State.done_clk (op : Nat) (c : Cmd) (res : Nat) (s : State) :
    (s.done op c res).clk = s.clk := by
  simp [State.done]
@[simp] theorem State.done_emission (op : Nat) (c : Cmd) (res : Nat) (s : State) :
    (s.done op c res).emission = s.emission := by
  simp [State.done]
@[simp] theorem State.done_sched (op : Nat) (c : Cmd) (res : Nat) (s : State) :
    (s.done op c res).sched = s.sched := by
  simp [State.done]
@[simp] theorem State.done_zone (op : Nat) (c : Cmd) (res : Nat) (s : State) :
    (s.done op c res).zone = s.zone := by
  simp [State.done]
@[simp] theorem State.done_sets (op : Nat) (c : Cmd) (res : Nat) (s : State) :
    (s.done op c res).sets = s.sets := by
  simp [State.done]
@[simp] theorem State.done_returns (op : Nat) (c : Cmd) (res : Nat) (s : State) :
    (s.done op c res).returns = s.returns := by
  simp [State.done]
@[simp] theorem State.done_fabric (op : Nat) (c : Cmd) (res : Nat) (s : State) :
    (s.done op c res).fabric = s.fabric := by
  simp [State.done]
@[simp] theorem State.done_angle (op : Nat) (c : Cmd) (res : Nat) (s : State) :
    (s.done op c res).angle = s.angle := by
  simp [State.done]
@[simp] theorem State.done_motion (op : Nat) (c : Cmd) (res : Nat) (s : State) :
    (s.done op c res).motion = s.motion := by
  simp [State.done]
@[simp] theorem State.done_aux (op : Nat) (c : Cmd) (res : Nat) (s : State) :
    (s.done op c res).aux = s.aux := by
  simp [State.done]
@[simp] theorem State.done_net (op : Nat) (c : Cmd) (res : Nat) (s : State) :
    (s.done op c res).net = s.net := by
  simp [State.done]
@[simp] theorem State.done_integrity (op : Nat) (c : Cmd) (res : Nat) (s : State) :
    (s.done op c res).integrity = s.integrity := by
  simp [State.done]
@[simp] theorem State.done_health (op : Nat) (c : Cmd) (res : Nat) (s : State) :
    (s.done op c res).health = s.health := by
  simp [State.done]
@[simp] theorem State.done_out (op : Nat) (c : Cmd) (res : Nat) (s : State) :
    (s.done op c res).out = s.out := by
  simp [State.done]
@[simp] theorem State.done_free (op : Nat) (c : Cmd) (res : Nat) (s : State) :
    (s.done op c res).free = s.free := by
  simp [State.done]
@[simp] theorem State.done_pending (op : Nat) (c : Cmd) (res : Nat) (s : State) :
    (s.done op c res).pending = s.pending := by
  simp [State.done]

/-! ### doneOn -/

@[simp] theorem State.doneOn_power (op : Nat) (o : Obj) (c : Cmd) (res : Nat) (s : State) :
    (s.doneOn op o c res).power = s.power := by
  simp [State.doneOn]
@[simp] theorem State.doneOn_nvm (op : Nat) (o : Obj) (c : Cmd) (res : Nat) (s : State) :
    (s.doneOn op o c res).nvm = s.nvm := by
  simp [State.doneOn]
@[simp] theorem State.doneOn_clk (op : Nat) (o : Obj) (c : Cmd) (res : Nat) (s : State) :
    (s.doneOn op o c res).clk = s.clk := by
  simp [State.doneOn]
@[simp] theorem State.doneOn_emission (op : Nat) (o : Obj) (c : Cmd) (res : Nat) (s : State) :
    (s.doneOn op o c res).emission = s.emission := by
  simp [State.doneOn]
@[simp] theorem State.doneOn_sched (op : Nat) (o : Obj) (c : Cmd) (res : Nat) (s : State) :
    (s.doneOn op o c res).sched = s.sched := by
  simp [State.doneOn]
@[simp] theorem State.doneOn_zone (op : Nat) (o : Obj) (c : Cmd) (res : Nat) (s : State) :
    (s.doneOn op o c res).zone = s.zone := by
  simp [State.doneOn]
@[simp] theorem State.doneOn_sets (op : Nat) (o : Obj) (c : Cmd) (res : Nat) (s : State) :
    (s.doneOn op o c res).sets = s.sets := by
  simp [State.doneOn]
@[simp] theorem State.doneOn_returns (op : Nat) (o : Obj) (c : Cmd) (res : Nat) (s : State) :
    (s.doneOn op o c res).returns = s.returns := by
  simp [State.doneOn]
@[simp] theorem State.doneOn_fabric (op : Nat) (o : Obj) (c : Cmd) (res : Nat) (s : State) :
    (s.doneOn op o c res).fabric = s.fabric := by
  simp [State.doneOn]
@[simp] theorem State.doneOn_angle (op : Nat) (o : Obj) (c : Cmd) (res : Nat) (s : State) :
    (s.doneOn op o c res).angle = s.angle := by
  simp [State.doneOn]
@[simp] theorem State.doneOn_motion (op : Nat) (o : Obj) (c : Cmd) (res : Nat) (s : State) :
    (s.doneOn op o c res).motion = s.motion := by
  simp [State.doneOn]
@[simp] theorem State.doneOn_aux (op : Nat) (o : Obj) (c : Cmd) (res : Nat) (s : State) :
    (s.doneOn op o c res).aux = s.aux := by
  simp [State.doneOn]
@[simp] theorem State.doneOn_net (op : Nat) (o : Obj) (c : Cmd) (res : Nat) (s : State) :
    (s.doneOn op o c res).net = s.net := by
  simp [State.doneOn]
@[simp] theorem State.doneOn_integrity (op : Nat) (o : Obj) (c : Cmd) (res : Nat) (s : State) :
    (s.doneOn op o c res).integrity = s.integrity := by
  simp [State.doneOn]
@[simp] theorem State.doneOn_health (op : Nat) (o : Obj) (c : Cmd) (res : Nat) (s : State) :
    (s.doneOn op o c res).health = s.health := by
  simp [State.doneOn]
@[simp] theorem State.doneOn_out (op : Nat) (o : Obj) (c : Cmd) (res : Nat) (s : State) :
    (s.doneOn op o c res).out = s.out := by
  simp [State.doneOn]
@[simp] theorem State.doneOn_free (op : Nat) (o : Obj) (c : Cmd) (res : Nat) (s : State) :
    (s.doneOn op o c res).free = s.free := by
  simp [State.doneOn]
@[simp] theorem State.doneOn_pending (op : Nat) (o : Obj) (c : Cmd) (res : Nat) (s : State) :
    (s.doneOn op o c res).pending = s.pending := by
  simp [State.doneOn]

end Sys2Proof.Machine
end

