-- ==== Sys2Proof/Laws/Run.lean ====
section
/-!
SUPPORT. What running and answering a command can do, said once.
-/
namespace Sys2Proof.Machine

/-! ## Queues -/

theorem State.queue_onQueue_ne (q p : Nat) (f : Queue → Queue) (s : State) (h : p ≠ q) :
    (s.onQueue q f).queue p = s.queue p := by
  simp [State.queue, List.getD, Ne.symm h]

/-- A field that the update of a queue keeps reads as before on every queue. -/
theorem State.queue_onQueue_keep {α : Type} (g : Queue → α) (q p : Nat) (f : Queue → Queue) (s : State)
    (h : ∀ k, g (f k) = g k) : g ((s.onQueue q f).queue p) = g (s.queue p) := by
  by_cases hp : q = p
  · subst hp
    simp only [State.queue, State.onQueue_host, List.getD, List.getElem?_modify, if_pos]
    cases s.host.queues[q]? <;> simp [h]
  · rw [State.queue_onQueue_ne _ _ _ _ (Ne.symm hp)]

/-! ## Running a command -/

/-- A command whose checks pass runs its effect, on the state in which its entry is EXECUTING. -/
theorem State.run_accepted (o : OpInfo) (c : Cmd) (eff : State → State) (s : State) (h : Accepted o c s) :
    s.run o c eff = eff (s.onLive c fun l => { l with state := .executing }) := by
  obtain ⟨⟨h1, h2, h3⟩, h4⟩ := h
  simp [State.run, h1, h2, h3, h4]

/-- A command that a check refuses is answered with its rejection. -/
theorem State.run_rejected (o : OpInfo) (c : Cmd) (eff : State → State) (st d : Nat) (s : State)
    (h : Rejected o c st d s) : s.run o c eff = (o.rejected c st d s).finish o.code c st d 0 [] := by
  obtain ⟨⟨h1, h2, h3⟩, h4, h5⟩ := h
  simp [State.run, State.refuseRun, h1, h2, h3, h4, h5]

/-- A command whose failing check gives a status that no accepted command may end with waits in the recovery-only state, and ends with
ST_FAULT outside it. -/
theorem State.run_failed (o : OpInfo) (c : Cmd) (eff : State → State) (st d : Nat) (s : State)
    (h : Failed o c s) (hv : o.check c s = .reject st d) :
    s.run o c eff = if s.recoveryOnly && !recoveryOpcode o.code then s else s.failInside o.code c := by
  obtain ⟨⟨h1, h2, h3⟩, st', d', h4, h5⟩ := h
  obtain ⟨rfl, rfl⟩ : st = st' ∧ d = d' := by simpa [hv] using h4
  simp [State.run, State.refuseRun, h1, h2, h3, hv, h5]

/-- A command that the supervisor does not run changes nothing. -/
theorem State.run_waits (o : OpInfo) (c : Cmd) (eff : State → State) (s : State) (h : ¬ Runs c s) :
    s.run o c eff = s := by
  unfold State.run
  split
  · rfl
  · rename_i g; exact absurd (by simpa [Runs] using g) (by simpa [Runs, and_assoc] using h)

/-- Running a command does one of four things: nothing, an answer with the status of the check that fails, one with ST_FAULT, or its
effect. -/
theorem State.run_cases (o : OpInfo) (c : Cmd) (eff : State → State) (s : State) :
    s.run o c eff = s ∨ (Failed o c s ∧ s.run o c eff = s.failInside o.code c) ∨
    (∃ st d, Rejected o c st d s ∧ s.run o c eff = (o.rejected c st d s).finish o.code c st d 0 []) ∨
    (Accepted o c s ∧ s.run o c eff = eff (s.onLive c fun l => { l with state := .executing })) := by
  by_cases hr : Runs c s
  · cases hv : o.check c s with
    | ok => exact .inr (.inr (.inr ⟨⟨hr, hv⟩, s.run_accepted o c eff ⟨hr, hv⟩⟩))
    | reject st d =>
      cases hf : c.unseq || finalStatus st with
      | true => exact .inr (.inr (.inl ⟨st, d, ⟨hr, hv, hf⟩, s.run_rejected o c eff st d ⟨hr, hv, hf⟩⟩))
      | false =>
        have hq : Failed o c s := ⟨hr, st, d, hv, hf⟩
        have he := s.run_failed o c eff st d hq hv
        by_cases hw : (s.recoveryOnly && !recoveryOpcode o.code) = true
        · exact .inl (he.trans (if_pos hw))
        · exact .inr (.inl ⟨hq, he.trans (if_neg hw)⟩)
  · exact .inl (s.run_waits o c eff hr)

/-! ## Answering a command -/

theorem HostKept.refl (c : Cmd) (s : State) : HostKept c s s := by
  simp +contextual [HostKept]

theorem HostKept.trans {c : Cmd} {s t u : State} (h : HostKept c s t) (k : HostKept c t u) : HostKept c s u := by
  obtain ⟨a1, a2, a3, a4, a5, a6, a7, a8, a9, a10, a11, a12⟩ := h
  obtain ⟨b1, b2, b3, b4, b5, b6, b7, b8, b9, b10, b11, b12⟩ := k
  refine ⟨b1.trans a1, b2.trans a2, b3.trans a3, b4.trans a4, b5.trans a5, fun q => ?_, fun q hq => ?_,
    fun l hl hc => b8 l (a8 l hl hc) hc, b9.trans a9, b10.trans a10, b11.trans a11, b12.trans a12⟩
  · obtain ⟨x1, x2, x3, x4, x5⟩ := a6 q
    obtain ⟨y1, y2, y3, y4, y5⟩ := b6 q
    exact ⟨y1.trans x1, y2.trans x2, y3.trans x3, y4.trans x4, y5.trans x5⟩
  · exact (b7 q hq).trans (a7 q hq)

theorem HostKept.of_host {c : Cmd} {s t : State} (h : t.host = s.host) : HostKept c s t := by
  simp +contextual [HostKept, State.queue, h]

theorem HostKept.onLive (c : Cmd) (f : Live → Live) (s : State) : HostKept c s (s.onLive c f) := by
  unfold State.onLive
  split
  · exact HostKept.refl c s
  · simp only [HostKept, State.onJournal_host, State.queue, true_and, and_true, implies_true, and_self]
    intro l hl hc
    exact List.mem_map.mpr ⟨l, hl, by simp [hc]⟩

/-- A change of the duplicate records of its queue alone. -/
theorem HostKept.onDup (c : Cmd) (f : Queue → List DupRec) (s : State) :
    HostKept c s (s.onQueue c.queue fun k => { k with dup := f k }) := by
  refine ⟨rfl, rfl, rfl, rfl, by simp, fun q => ?_, fun q hq => State.queue_onQueue_ne _ _ _ _ hq, fun l hl _ => by simpa using hl,
    rfl, rfl, rfl, rfl⟩
  refine ⟨?_, ?_, ?_, ?_, ?_⟩
  · exact State.queue_onQueue_keep Queue.nextSeq _ _ _ _ (fun _ => rfl)
  · exact State.queue_onQueue_keep Queue.tags _ _ _ _ (fun _ => rfl)
  · exact State.queue_onQueue_keep Queue.held _ _ _ _ (fun _ => rfl)
  · exact State.queue_onQueue_keep Queue.mask _ _ _ _ (fun _ => rfl)
  · exact State.queue_onQueue_keep Queue.ring _ _ _ _ (fun _ => rfl)

theorem HostKept.recordDup (c : Cmd) (d : DupRec) (s : State) : HostKept c s (s.recordDup c.queue d) :=
  HostKept.onDup c _ s

theorem HostKept.updateDup (c : Cmd) (seq tr : Nat) (f : DupRec → DupRec) (s : State) :
    HostKept c s (s.updateDup c.queue seq tr f) := HostKept.onDup c _ s

theorem HostKept.post (c : Cmd) (r : Reply) (s : State) : HostKept c s (s.post r) := by
  simp +contextual [HostKept, State.queue]

theorem HostKept.applied (c : Cmd) (o : Obj) (b : StatusBlock) (s : State) : HostKept c s (s.applied o c b) := by
  simp +contextual [HostKept, State.queue, State.applied, State.onJournal, State.onHost]

theorem HostKept.setPending (c : Cmd) (o : Obj) (s : State) : HostKept c s (s.setPending o c) := by
  simp +contextual [HostKept, State.queue, State.setPending, State.onJournal, State.onHost]

theorem HostKept.recordDone (c : Cmd) (r : Reply) (s : State) : HostKept c s (s.recordDone c r) := by
  unfold State.recordDone
  split
  · exact HostKept.refl c s
  · exact (HostKept.onLive c _ s).trans (HostKept.updateDup c _ _ _ _)

@[simp] theorem State.onLive_waiting (c : Cmd) (f : Live → Live) (s : State) :
    (s.onLive c f).host.waiting = s.host.waiting := by
  unfold State.onLive; split <;> simp

@[simp] theorem State.recordDup_waiting (q : Nat) (d : DupRec) (s : State) :
    (s.recordDup q d).host.waiting = s.host.waiting := by simp [State.recordDup]

@[simp] theorem State.updateDup_waiting (q seq tr : Nat) (f : DupRec → DupRec) (s : State) :
    (s.updateDup q seq tr f).host.waiting = s.host.waiting := by simp [State.updateDup]

@[simp] theorem State.recordDone_waiting (c : Cmd) (r : Reply) (s : State) :
    (s.recordDone c r).host.waiting = s.host.waiting := by
  unfold State.recordDone; split <;> simp

@[simp] theorem State.applied_waiting (o : Obj) (c : Cmd) (b : StatusBlock) (s : State) :
    (s.applied o c b).host.waiting = s.host.waiting := by simp [State.applied]

@[simp] theorem State.setPending_waiting (o : Obj) (c : Cmd) (s : State) :
    (s.setPending o c).host.waiting = s.host.waiting := by simp [State.setPending]

/-- Completing a command answers it and touches nothing else of the host side. -/
theorem finishWith_finished (op : Nat) (c : Cmd) (b : StatusBlock) (d : List Byte) (s : State) :
    Finished op c b d s (s.finishWith op c b d) := by
  refine ⟨⟨{ mkReply op c true b d with first := (s.liveOf c).all fun l => l.reply.isNone }, ?_, rfl, rfl, rfl, rfl, rfl,
    rfl, rfl, rfl, rfl⟩, ?_⟩
  · simp [State.finishWith]
  · exact (HostKept.post c _ s).trans (HostKept.recordDone c _ _)

/-- What came before the answer, when it kept the replies and the rest of the host side. -/
theorem Finished.after {op : Nat} {c : Cmd} {b : StatusBlock} {d : List Byte} {s t u : State}
    (hw : t.host.waiting = s.host.waiting) (hk : HostKept c s t) (h : Finished op c b d t u) : Finished op c b d s u := by
  obtain ⟨⟨r, h1, h2⟩, h3⟩ := h
  exact ⟨⟨r, by rw [h1, hw], h2⟩, hk.trans h3⟩

theorem finish_finished (op : Nat) (c : Cmd) (st det res : Nat) (d : List Byte) (s : State) :
    Finished op c (s.block st det res) d s (s.finish op c st det res d) := finishWith_finished op c _ d s

/-- A status block depends on the epoch and the time alone. -/
theorem State.block_congr {s t : State} (st det res : Nat) (h1 : t.sets = s.sets) (h2 : t.clk = s.clk) :
    t.block st det res = s.block st det res := by simp [State.block, State.stamp, h1, h2]

/-- A command whose effect is its answer: it is answered, and only the host side changes. -/
theorem run_finish (o : OpInfo) (op : Nat) (c : Cmd) (st det res : Nat) (d : List Byte) (s : State)
    (h : Accepted o c s) :
    Finished op c (s.block st det res) d s (s.run o c fun t => t.finish op c st det res d) ∧
    s.run o c (fun t => t.finish op c st det res d) =
      { s with host := (s.run o c fun t => t.finish op c st det res d).host } := by
  rw [State.run_accepted o c _ s h]
  refine ⟨?_, State.ext_fields rfl (by simp) (by simp) (by simp) (by simp) (by simp) (by simp) (by simp) (by simp)
    (by simp) (by simp) (by simp) (by simp) (by simp) (by simp) (by simp) (by simp) (by simp) (by simp)⟩
  have hb : s.block st det res = (s.onLive c fun l => { l with state := .executing }).block st det res :=
    (State.block_congr _ _ _ (by simp) (by simp)).symm
  rw [hb]
  exact (finish_finished ..).after (by simp) (HostKept.onLive c _ s)

/-- A refused command without a special rejection is answered, and only the host side changes. -/
theorem run_refused (o : OpInfo) (c : Cmd) (eff : State → State) (st det : Nat) (s : State)
    (h : Rejected o c st det s) (hr : o.rejected c st det s = s) :
    Finished o.code c (s.block st det 0) [] s (s.run o c eff) ∧
    s.run o c eff = { s with host := (s.run o c eff).host } := by
  rw [State.run_rejected o c _ st det s h, hr]
  exact ⟨finish_finished .., State.ext_fields rfl (by simp) (by simp) (by simp) (by simp) (by simp) (by simp) (by simp)
    (by simp) (by simp) (by simp) (by simp) (by simp) (by simp) (by simp) (by simp) (by simp) (by simp) (by simp)⟩

end Sys2Proof.Machine
end

