-- ==== Sys2Proof/Tests/Slice0.lean ====
section
/-!
SUPPORT. Tests of the model on values of the spec, ill-formed commands that WellFormed refuses, and for the statements a state
and operands that meet their hypotheses.
-/
namespace Sys2Proof.Machine.Tests

-- One theorem after the other: started all at once, the kernel evaluations below ask for more threads than a compile is given.
set_option Elab.async false

/-! ## Small states -/

/-- A command on queue 0 over PCIe. -/
def pk (p : List Byte) : Cmd :=
  { via := { transport := .pcie, sqIndex := 0, route := { addr := 0, port := 0, session := [] } }, tag := 1, queue := 0, seq := 0,
    unseq := false, fence := false, trailer := 0, payload := p }

/-- A command that has been accepted as entry 1. -/
def entryOf (op : Nat) (c : Cmd) (st : EntryState) (r : Option Reply) : Live :=
  { jix := 1, state := st, opcode := op, cmd := c, reply := r }

/-- A device after a good start: it executes, no inhibit cause is present, and time has gone by; its journal holds the entry
of a command on queue 0 that waits for its turn. -/
def up : State :=
  { State.reset with
    host := { State.reset.host with journal := { State.reset.host.journal with live := [entryOf 0x0100 (pk []) .accepted none] } }
    power := { Power.reset with running := true, phase := .ready, ready := true }
    sched := { Sched.reset with inhibit := 0, src := 0 }
    clk := { Clk.reset with now := 10000000000000, tickCount := 10000000000000, started := true, pllLocked := true } }

/-- A command's checks pass, as a computation. -/
def passes (o : OpInfo) (c : Cmd) (s : State) : Bool :=
  s.executes && !s.fenced c && !s.alreadyRun c && o.check c s == .ok

theorem accepted_of_passes {o : OpInfo} {c : Cmd} {s : State} (h : passes o c s = true) : Accepted o c s := by
  simp [passes] at h
  exact ⟨⟨h.1.1.1, h.1.1.2, h.1.2⟩, h.2⟩

theorem runs_of_passes {o : OpInfo} {c : Cmd} {s : State} (h : passes o c s = true) : Runs c s := (accepted_of_passes h).1

/-! ## Witnesses: domains, pace and the supervisor -/

theorem witness_StepRunsTheCommandInFront :
    ({ up with pending := [.jtagBypass] } : State).pending = [.jtagBypass] ∧ up.pending = [] := ⟨rfl, rfl⟩

def withFabric (f : Fabric → Fabric) (s : State) : State := { s with fabric := f s.fabric }
def awakeIn (l : List Domain) (s : State) : State :=
  { s with power := { s.power with domains := l.map fun d => { dom := d, phase := .awake, idleSince := none } } }

/-- `up` with one domain awake or on its way, 1.25 µs after the last wake and sleep. -/
def withDomain (d : Domain) (p : DomainPhase) (idle : Option Nat) : State :=
  { up with power := { up.power with domains := [{ dom := d, phase := p, idleSince := idle }],
                                     lastWake := some (up.clk.now - 1600), lastSleep := some (up.clk.now - 1600) } }

theorem witness_DomainsWakeAndSleepInTurn_wake :
    let s := withDomain .motion .requested none
    let s1 := { s with power := { s.power with lastWake := some (up.clk.now - 1599) } }
    s.domain .motion = some { dom := .motion, phase := .requested, idleSince := none } ∧
    (∀ t ∈ s.power.lastWake, t + 1600 ≤ s.clk.now) ∧ (∀ t ∈ s1.power.lastWake, s1.clk.now < t + 1600) ∧
    (withDomain .motion .awake none).domain .motion = some { dom := .motion, phase := .awake, idleSince := none } := by
  decide +kernel

/-- A core that serves output 3 in its hold state. -/
def heldCore : State :=
  let s := withDomain (.emitterDac 3) (.waking 0) none
  { s with emission := { s.emission with emitters := s.emission.emitters.modify 3 fun x => { x with out := .hold 77 } } }

theorem witness_DomainsWakeAndSleepInTurn_settle :
    let s := withDomain (.cluster 0) (.waking 0) none
    s.domain (.cluster 0) = some { dom := .cluster 0, phase := .waking 0, idleSince := none } ∧ s.returns.channels.length = 192 ∧
    clusterOf (s.feOf 7) = 0 ∧ (s.channel 7).st ≠ .outOfService ∧
    heldCore.domain (.emitterDac 3) = some { dom := .emitterDac 3, phase := .waking 0, idleSince := none } ∧
    heldCore.outputOf 3 = some 3 ∧ (heldCore.emitter 3).out = .hold 77 ∧ 3 < heldCore.emission.emitters.length := by decide +kernel

theorem witness_DomainsWakeAndSleepInTurn_sleep :
    let s := withDomain (.emitterDac 3) .awake (some (up.clk.now - 1280000))
    let s1 := withDomain (.emitterDac 3) .awake (some (up.clk.now - 1279999))
    s.domain (.emitterDac 3) = some { dom := .emitterDac 3, phase := .awake, idleSince := some (up.clk.now - 1280000) } ∧
    up.clk.now - 1280000 + 1280000 ≤ s.clk.now ∧ s.maintained (.emitterDac 3) = false ∧
    s.playsDirect (.emitterDac 3) = false ∧ (∀ t ∈ s.power.lastSleep, t + 1600 ≤ s.clk.now) ∧ s.outputOf 3 = some 3 ∧
    s1.domain (.emitterDac 3) = some { dom := .emitterDac 3, phase := .awake, idleSince := some (up.clk.now - 1279999) } ∧
    s1.clk.now < up.clk.now - 1279999 + 1280000 ∧ s1.power.poweredDown = false ∧
    (let p := withDomain .motion .awake none
     let s2 : State := { p with power := { p.power with poweredDown := true } }
     s2.domain .motion = some { dom := .motion, phase := .awake, idleSince := none } ∧ staysPowered .motion = false ∧
     staysPowered (.emitterDac 3) = true) := by decide +kernel

theorem witness_DomainsWakeAndSleepInTurn_park :
    let s : State := { up with emission := { up.emission with emitters := up.emission.emitters.modify 3 fun x => { x with out := .park 5 } } }
    (s.emitter 3).out = .park 5 ∧ s.outputOf 3 = some 3 ∧ 3 < s.emission.emitters.length := by decide +kernel

/-- `up` with a load of 4 on tile 0, whose need so is 5, a pace of 6 there, and 0.66 V. -/
def paced : State :=
  { up with power := { up.power with tiles := up.power.tiles.modify 0 fun _ =>
                         { paceA := 6, paceB := 7, mv := 660, lastStepDown := up.clk.now - 1280000, paceFull := 6 } }
            sched := { up.sched with load := [4, 0, 0, 0, 0, 0, 0, 0] } }

theorem witness_PaceDrivesTheVoltage :
    paced.power.tiles.length = 8 ∧ paced.paceNeed 0 * 105 < (paced.pace 0).pace * 100 ∧ 650 < (paced.pace 0).mv ∧
    (paced.pace 0).lastStepDown + 1280000 ≤ paced.clk.now ∧ (up.pace 1).pace * 100 ≤ up.paceNeed 1 * 105 := by decide +kernel

def withLive (l : Live) (s : State) : State :=
  { s with host := { s.host with journal := { s.host.journal with live := [l] } } }

/-- The reply of a finished NOP. -/
def nopReply : Reply := mkReply 0x0100 (pk []) true (up.block 0 0 0) []

theorem witness_TakeoverReplaysTheJournal :
    let l := entryOf 0x0100 (pk []) .done (some nopReply)
    let run := entryOf 0x0100 (pk []) .executing none
    let s := withLive l { up with power := { up.power with takeover := true } }
    let s1 := s.restoreControl [.entry 0 2, .entry 1 2] []
    let s2 := withLive run s
    up.power.running = true ∧ up.power.halted = false ∧ up.standbyReady = true ∧
    s.power.takeover = true ∧ l ∈ s.host.journal.live ∧ l.reply = some nopReply ∧ nopReply.final = true ∧
    s1.readCopies [.entry 0 2, .entry 1 2] [] l = some (.done, false) ∧
    (s.restoreControl [.entry 0 1, .entry 1 1] []).readCopies [.entry 0 1, .entry 1 1] [] l = none ∧
    (s2.restoreControl [] [.entry 1 1 1]).readCopies [] [.entry 1 1 1] run = some (.executing, true) ∧
    s2.carried run = false ∧ s2.completion run = none ∧ (s.bank 0).inService = true ∧ 0 < s.host.queues.length ∧
    1 = ((s.queue 0).nextSeq + 1) % 2 ^ 32 := by decide +kernel

/-- A rejection that waits, of a packet without an entry. -/
def rejection5 : Reply := mkReply 0x0100 { pk [] with seq := 5 } true (up.block 0x11 0 0) []

theorem witness_TakeoverReplaysTheJournal_rejection :
    let s : State := { up with host := { up.host with waiting := [rejection5] }, power := { up.power with takeover := true } }
    s.power.takeover = true ∧ rejection5 ∈ s.host.waiting ∧ rejection5.final = true ∧ rejection5.unseq = false ∧
    (∀ l ∈ s.host.journal.live, ¬ (l.cmd.queue = rejection5.queue ∧ l.cmd.seq = rejection5.seq ∧ l.cmd.tag = rejection5.tag)) ∧
    nopReply ∉ s.host.waiting := by decide +kernel

/-! ## Witnesses: transports, queues and the journal -/

/-- What a host configures. -/
def configured : PcieConfig := { PcieConfig.reset with bar0 := 4096, memory := true, master := true, msix := true }

/-- `up` with the PCIe window of queue 0 as given. -/
def ringed (r : Ring) : State :=
  { up with host := { up.host with pcie := { perstHigh := true, config := configured, intStatus := 0, intEnable := 0 },
                                   queues := up.host.queues.modify 0 (fun q => { q with ring := r }) } }

/-- A ring of the smallest sizes that is enabled and holds one entry, the last of its ring. -/
def busyRing : Ring := { Ring.reset with enabled := true, armed := true, sqSize := 4, rqSize := 8, sqHead := 15, sqTail := 0 }

theorem windowUp_ringed (r : Ring) : WindowUp 0 (ringed r) := by
  refine ⟨by decide, ?_, ?_⟩ <;> rfl

theorem witness_RingRegistersFollowTheHost_writes :
    let s := (ringed busyRing).onQueue 0 fun q => { q with tags := [127] }
    ((ringed Ring.reset).ring 0).enabled = false ∧ ((ringed busyRing).ring 0).enabled = true ∧ (ringed busyRing).credits 0 = 128 ∧
    s.credits 0 < 128 ∧ s.owedOnly 0 = false ∧ WindowUp 0 s ∧ 0xFFFFFFFF < 2 ^ 32 := by
  refine ⟨?_, ?_, ?_, ?_, ?_, ⟨?_, ?_, ?_⟩, ?_⟩ <;> decide +kernel

theorem witness_RingRegistersFollowTheHost_enable :
    let r := { busyRing with enabled := false }
    ((ringed Ring.reset).ring 0).enabled = false ∧ ((ringed Ring.reset).ring 0).sized = false ∧
    ((ringed { r with halted := true }).ring 0).enabled = false ∧ ((ringed { r with halted := true }).ring 0).sized = true ∧
    ((ringed { r with halted := true }).ring 0).halted = true ∧ ((ringed r).ring 0).sized = true ∧
    ((ringed r).ring 0).halted = false ∧ (ringed r).pcieUp = true := by decide +kernel

/-- The packet of a command as a host sends it, with its trailer. -/
def wire (op : Nat) (c : Cmd) : List Byte :=
  let b := packetBytes op c
  b.take (b.length - 4) ++ le 4 (crc32c (b.take (b.length - 4)))

/-- A NOP on queue 1, whose number is the next one, as SPI and TRDP may bring it. -/
def spiNop : Cmd := { pk [] with queue := 3, tag := 127 }
def trdpNop : Cmd := { pk [] with queue := 2, tag := 127 }

/-- Its ring entry: 20 bytes at address 0. -/
def entry20 : List Byte := zeros 8 ++ le 2 20 ++ zeros 6

/-- The checks of a NOP look at the phase alone. -/
theorem nop_checks (c : Cmd) (s : State) (h1 : c.unseq = false) (h2 : c.payload = []) (h3 : s.recoveryOnly = false) :
    ChecksPass 0x0100 c s := by
  refine ⟨nopInfo, rfl, fun t h => ?_⟩
  have hp : t.power = s.power := by rw [h]
  have hr : t.recoveryOnly = false := by rw [← h3, State.recoveryOnly, State.recoveryOnly, hp]
  simp [OpInfo.check, nopInfo, firstFail, Verdict.andThen, h1, h2, hr, cmdLen]

def pcieVia : Via := { transport := .pcie, sqIndex := 15, route := { addr := 0, port := 0, session := [] } }
def spiVia : Via := { transport := .spi, sqIndex := 0xFFFF, route := { addr := 0, port := 0, session := [] } }

theorem witness_PacketInTurnIsTakenIn_pcie :
    let s := ringed busyRing
    let b := fit (u16 entry20 8) (wire 0x0100 (pk []))
    let s1 := s.onRing 0 fun r => { r with sqHead := ringIndex r.sqSize (r.sqHead + 1) }
    s.mayFetch 0 ((u16 entry20 8 - 20) / 16) = true ∧ entryFault false entry20 = 0 ∧ GoodPacket (some 0) pcieVia b s1 ∧
    InTurn (pkCmd pcieVia b) s1 ∧ ChecksPass (pkOpcode b) (pkCmd pcieVia b) s1 := by
  refine ⟨by decide +kernel, by decide +kernel, by unfold GoodPacket; decide +kernel, by unfold InTurn; decide +kernel, ?_⟩
  exact nop_checks _ _ (by decide +kernel) (by decide +kernel) (by decide +kernel)
/-- `up` with message data enabled on the network. -/
def trdpUp : State :=
  { up with net := { up.net with trdp := patch up.net.trdp 0 [1] },
            power := { up.power with domains := [{ dom := .network, phase := .awake, idleSince := none }] } }

def mr (b : List Byte) : TrdpMessage :=
  { src := 0x0A000001, srcPort := 17225, comId := tcMdReq up.net.trdp, msgType := 0x4D72, etbTopoCnt := 0, opTrnTopoCnt := 0,
    session := zeros 16, data := b }

theorem witness_PacketInTurnIsTakenIn_trdp :
    let m := mr (wire 0x0100 trdpNop)
    let via : Via := { transport := .trdp, sqIndex := 0xFFFF, route := { addr := m.src, port := m.srcPort, session := fit 16 m.session } }
    let s := trdpUp
    s.trdpServed = true ∧ m.comId = tcMdReq s.net.trdp ∧ m.msgType = 0x4D72 ∧ topoWrong s.net.trdp m = false ∧
    sourceWrong s.net.trdp m = false ∧ s.host.journal.trdpStore = [] ∧ s.mayTake .trdp m.data = true ∧
    GoodPacket none via m.data s ∧ InTurn (pkCmd via m.data) s ∧ ChecksPass (pkOpcode m.data) (pkCmd via m.data) s := by
  refine ⟨?_, ?_, ?_, ?_, ?_, ?_, ?_, by unfold GoodPacket; decide +kernel, by unfold InTurn; decide +kernel,
    nop_checks _ _ (by decide +kernel) (by decide +kernel) (by decide +kernel)⟩ <;> decide +kernel

theorem witness_PacketInTurnIsTakenIn_spi :
    let b := wire 0x0100 spiNop
    up.spiUp = true ∧ up.host.spi.rx = none ∧ b.length ≤ 4100 ∧ up.mayTake .spi b = true ∧ GoodPacket none spiVia b up ∧
    InTurn (pkCmd spiVia b) up ∧ ChecksPass (pkOpcode b) (pkCmd spiVia b) up := by
  refine ⟨?_, ?_, ?_, ?_, by unfold GoodPacket; decide +kernel, by unfold InTurn; decide +kernel,
    nop_checks _ _ (by decide +kernel) (by decide +kernel) (by decide +kernel)⟩ <;> decide +kernel

/-- An ECHO outside the sequence. -/
def unseqEcho : Cmd := { pk (fit 16 [7]) with queue := 3, tag := 127, unseq := true }

theorem witness_PacketInTurnIsTakenIn_unseq :
    let b := wire 0x0102 unseqEcho
    let c := pkCmd spiVia b
    up.spiUp = true ∧ up.host.spi.rx = none ∧ b.length ≤ 4100 ∧ GoodPacket none spiVia b up ∧ pkOpcode b = 0x0102 ∧ c.unseq = true ∧
    up.executes = true ∧ c.queue < up.host.queues.length ∧ (up.queue c.queue).tags.contains c.tag = false ∧
    (up.queue c.queue).held = [] ∧ c.payload = fit 16 [7] := by
  refine ⟨?_, ?_, ?_, by unfold GoodPacket; decide +kernel, ?_⟩ <;> decide +kernel

/-- Each step of Table 2.4 is the first to fail for some packet on the SPI port. -/
theorem witness_ReceiptStopsAtTheFirstFailure_header :
    let good := wire 0x0100 spiNop
    let badHead := patch good 0 [0]
    let long := good ++ zeros 16
    let badTrailer := patch good 16 [0, 0, 0, 0]
    let otherQueue := wire 0x0100 (pk [])
    (∀ b ∈ [good, badHead, long, badTrailer, otherQueue], b.length ≤ 4100 ∧ up.mayTake .spi b = true ∧ 16 ≤ b.length) ∧
    u16 badHead 0 ≠ 0x6D4B ∧ u16 long 0 = 0x6D4B ∧ crc16 (long.take 14) = u16 long 14 ∧ long.length ≠ 20 + 16 * pkLength long ∧
    badTrailer.length = 20 + 16 * pkLength badTrailer ∧ crc16 (badTrailer.take 14) = u16 badTrailer 14 ∧
    crc32c (badTrailer.take (badTrailer.length - 4)) ≠ (pkCmd spiVia badTrailer).trailer ∧
    crc32c (otherQueue.take (otherQueue.length - 4)) = (pkCmd spiVia otherQueue).trailer ∧
    up.headerFault none spiVia otherQueue = some 8 ∧ up.headerFault none spiVia good = none := by decide +kernel

/-- `up` in a takeover, with a bank out of service, and with another NEXT_SEQ or window of queue 3. -/
def queue3 (n : Nat) (d : List DupRec) (s : State) : State := s.onQueue 3 fun q => { q with nextSeq := n, dup := d }
def dupOf (t : Nat) : DupRec :=
  { seq := 0, trailer := t, opcode := 0x0100, final := false, rejected := false, dataDropped := false, block := up.block 1 0 0 }

theorem witness_ReceiptStopsAtTheFirstFailure_sequence :
    let b := wire 0x0100 spiNop
    let c := pkCmd spiVia b
    let ahead (s : State) := (c.seq + 2 ^ 32 - (s.queue c.queue).nextSeq) % 2 ^ 32
    ({ up with power := { up.power with takeover := true } } : State).busyDetail = some 2 ∧ up.busyDetail = none ∧
    c.unseq = false ∧ up.host.journal.acceptStopped = false ∧ c.queue = 3 ∧ c.seq = 0 ∧
    ahead (queue3 (2 ^ 32 - 128) [] up) = 128 ∧ ahead (queue3 (2 ^ 31 + 1) [] up) = 2 ^ 31 - 1 ∧
    ahead (queue3 (2 ^ 31) [] up) = 2 ^ 31 ∧ ahead (queue3 1025 [] up) = 2 ^ 32 - 1025 ∧
    ahead (queue3 1024 [] up) = 2 ^ 32 - 1024 ∧ ahead (queue3 1 [] up) = 2 ^ 32 - 1 ∧ ahead up = 0 ∧
    ahead (queue3 (2 ^ 32 - 1) [] up) = 1 ∧ ahead (queue3 (2 ^ 32 - 127) [] up) = 127 ∧ up.host.queues.length = 4 ∧
    ((up.onQueue 3 fun q => { q with tags := [127] }).queue 3).tags.contains c.tag = true ∧
    ((queue3 (2 ^ 32 - 1) [] up).queue 3).tags.contains c.tag = false ∧ ((queue3 (2 ^ 32 - 1) [] up).queue 3).held = [] ∧
    ((queue3 1 [dupOf c.trailer] up).queue 3).dup.find? (·.seq == c.seq) = some (dupOf c.trailer) ∧
    (dupOf c.trailer).trailer = c.trailer ∧ (dupOf 0).trailer ≠ c.trailer ∧
    (queue3 1 [dupOf c.trailer] up).host.journal.live.find? (Live.isOf c) = none ∧
    (withLive (entryOf 0x0100 c .accepted (some nopReply)) (queue3 1 [dupOf c.trailer] up)).host.journal.live.find? (Live.isOf c) =
      some (entryOf 0x0100 c .accepted (some nopReply)) := by decide +kernel

/-- A packet past step 11. -/
def waiting12 : Checked := { opcode := 0x0100, cmd := pk [], rejection := none }

theorem witness_AcceptanceIsDurable_accept :
    let s := { up with host := { up.host with checked := [waiting12] } }
    s.executes = true ∧ s.host.journal.acceptStopped = false ∧ s.nextChecked 0 = some waiting12 ∧ 0 < s.host.queues.length ∧
    s.host.journal.bankA.inService = true ∧ s.host.journal.bankB.inService = true ∧ (s.queue 0).held = [] ∧
    waiting12.opcode ≠ 0x0110 ∧ waiting12.opcode ≠ 0x0301 ∧
    (s.dropChecked waiting12).heldBehind waiting12.opcode waiting12.cmd.payload = false := by decide +kernel

/-- A packet that a check of R54 has refused. -/
def refused12 : Checked := { waiting12 with rejection := some (0x12, 5) }

theorem witness_AcceptanceIsDurable_reject :
    let s := { up with host := { up.host with checked := [refused12] } }
    s.executes = true ∧ s.nextChecked 0 = some refused12 ∧ refused12.cmd.unseq = false ∧ refused12.rejection = some (0x12, 5) ∧
    waiting12.rejection = none ∧ (s.queue 0).held = [] := by decide +kernel

/-- A held packet that came `t` ticks before now. -/
def heldFor (t : Nat) : Held := { opcode := 0x0100, cmd := { pk [] with seq := 127 }, arrival := up.clk.now - t }
def holding (t : Nat) : State := up.onQueue 0 fun q => { q with held := [heldFor t], tags := [1] }

theorem witness_AcceptanceIsDurable_hold :
    heldFor 12800000 ∈ ((holding 12800000).queue 0).held ∧ (heldFor 12800000).cmd.seq = 127 ∧
    (∀ g ∈ ((holding 12800000).queue 0).held, g.cmd.seq = 127 → g = heldFor 12800000) ∧
    (heldFor 12800000).cmd.queue = 0 ∧ 0 < (holding 12800000).host.queues.length ∧
    (heldFor 12800000).arrival + 10 * 1280000 ≤ (holding 12800000).clk.now ∧
    (∀ h ∈ ((holding 12799999).queue 0).held, (holding 12799999).clk.now < h.arrival + 10 * 1280000) := by decide +kernel

theorem witness_RepliesReachTheirTransport :
    let r := { busyRing with rqHead := 1, rqTail := 255, sqTail := 0 }
    let s := { ringed r with host := { (ringed r).host with waiting := [nopReply] } }
    let s1 := { up with host := { up.host with waiting := [{ nopReply with via := spiVia }] } }
    WindowUp 0 s ∧ s.host.pcie.config.master = true ∧ (s.ring 0).hasRoom = true ∧ s.ringReply 0 = some nopReply ∧
    nopReply.queue = 0 ∧ ((ringed { r with rqHead := 0 }).ring 0).hasRoom = false ∧
    (ringed r).fetches 0 = true ∧ entryFault true entry20 = 4 ∧ entryFault false (patch entry20 0 [1]) = 1 ∧
    s1.spiUp = true ∧ s1.spiReply = some { nopReply with via := spiVia } ∧ nopReply.queue < s1.host.queues.length ∧
    trdpUp.trdpServed = true ∧ (mr []).comId = tcMdReq trdpUp.net.trdp ∧ ({ mr [] with msgType := 0x4D70 } : TrdpMessage).msgType ≠ 0x4D72 ∧
    ({ up.host.spi with rx := some [] } : Spi).rx.isSome = true ∧ 4100 < (zeros 4101).length := by
  refine ⟨⟨?_, ?_, ?_⟩, ?_⟩ <;> decide +kernel
/-! ## Witnesses: system commands, views and sets -/

theorem witness_SystemCommandsTakeEffect :
    let s := up.onQueue 0 fun q => { q with held := [heldFor 0], dup := [dupOf 1], tags := [1, 2] }
    Accepted nopInfo (pk []) up ∧ Accepted getInfoInfo (pk []) up ∧ Accepted echoInfo (pk (zeros 4080)) up ∧
    Accepted seqSetInfo (pk (fit 16 (le 4 7))) s ∧ (∀ h ∈ (s.queue 0).held, h.cmd.queue = 0) ∧
    Accepted queueBindInfo (pk (fit 16 [3, 7])) up ∧ u8 (fit 16 [3, 7]) 0 < up.host.queues.length ∧
    Accepted resetWarmInfo (pk (fit 16 (le 4 0x4D524157))) up ∧ up.power.takeover = false ∧ up.power.warm = none := by
  refine ⟨?_, ?_, ?_, ?_, ?_, ?_, ?_, ?_, ?_, ?_⟩ <;>
    first | exact accepted_of_passes (by decide +kernel) | decide +kernel

/-- A packet with every header field at its greatest value. -/
def edgeCmd : Cmd :=
  let c : Cmd := { via := pcieVia, tag := 127, queue := 3, seq := 0xFFFFFFFF, unseq := true, fence := true, trailer := 0,
                   payload := zeros 16 }
  let b := packetBytes 0x0102 c
  { c with trailer := crc32c (b.take (b.length - 4)) }

theorem witness_PacketReadsBackAsItsCommand :
    let b := packetBytes 0x0102 edgeCmd
    edgeCmd.wf = true ∧ 0x0102 < 2 ^ 16 ∧ edgeCmd.trailer = crc32c (b.take (b.length - 4)) := by decide +kernel

/-- A binding of 8 cells of one shot with one channel, one emitter and the kernel K_ACCUM. -/
def binding : List Byte :=
  le 4 0 ++ le 4 65536 ++ le 2 8 ++ [1, 0] ++ le 2 64 ++ [4, 3] ++ zeros 4 ++ le 2 1 ++ zeros 10 ++ fit 24 [1] ++ fit 8 [1] ++
  fit 16 [1, 1]

/-- The first handle that Clasp issues. -/
def h0 : Nat := 0x10000001

/-- A firing table that lets emitter 0 play slot 0 for the view's channel. -/
def fireImage : List Byte := fit 16 (le 4 h0 ++ [0, 1]) ++ fit 8 [0, 0, 1] ++ fit 24 [1]

def view0 : ViewDef := { newView h0 binding with fire := some fireImage }

/-- `up` with this view live, in the shadow set and in the active set. -/
def viewed : State :=
  { up with power := { up.power with tiles := List.replicate 8 { paceA := 300, paceB := 300, mv := 850, lastStepDown := 0,
                                                                 paceFull := 300 } }
            fabric := { up.fabric with libraryMajors := List.replicate 9 1 }
            sets := { up.sets with live := [h0], claspPtr := 1, claspGen := up.sets.claspGen.set 0 1,
                                   active := { up.sets.active with views := [view0] },
                                   shadow := { up.sets.shadow with views := [view0], loops := [loopDefault 0, loopDefault 1] } } }

/-- The same while a copy of the sets runs. -/
def copying : State := { viewed with sets := { viewed.sets with copying := true } }

theorem witness_ShadowWritesLeaveTheActiveSet :
    ∀ s ∈ [viewed, copying],
    passes fireTableInfo (pk fireImage) s = true ∧ passes nearfieldConfigInfo (pk nearFieldDefault) s = true ∧
    passes fieldDefineInfo (pk (zeros 48)) s = true ∧ passes zoneConfigInfo (pk zoneDefault) s = true ∧
    passes schedConfigInfo (pk schedDefault) s = true ∧ passes viewParamInfo (pk (fit 16 (le 4 h0 ++ [0, 1]) ++ blockDefault 1)) s = true ∧
    passes rxConfigInfo (pk (fit 24 [1] ++ rxDefault)) s = true ∧ passes loopConfigInfo (pk (loopDefault 0)) s = true ∧
    passes loopCoeffInfo (pk (fit (16 * (1 + ceilDiv (coefCount (lcStates (loopDefault 0))) 8)) [0, BitVec.ofNat 8 (lcStates (loopDefault 0))])) s = true ∧ passes streamConfigInfo (pk (streamDefault 0)) s = true := by
  decide +kernel

theorem witness_HandlesNameViews :
    let s := { viewed with sets := { viewed.sets with claspUnsaved := 63 } }
    let full := { viewed with sets := { viewed.sets with claspGen := List.replicate 4096 65535 } }
    let spare := patch (patch (patch binding 0 (le 4 524288)) 20 [2]) 32 [2]
    (64 ≤ ({ viewed with sets := { viewed.sets with claspUnsaved := 64 } } : State).sets.claspUnsaved) ∧
    passes viewCreateInfo (pk spare) s = true ∧
    s.sets.claspUnsaved < 64 ∧ s.setsBusy = false ∧ s.nextIndex = some 1 ∧ viewCreateInfo.check (pk spare) full = .reject 0x14 2 ∧
    passes viewUpdateInfo (pk (fit 16 (le 4 h0) ++ binding)) viewed = true ∧ viewed.setsBusy = false ∧
    passes viewDestroyInfo (pk (fit 16 (le 4 h0))) viewed = true ∧ passes setAbortInfo (pk []) viewed = true ∧
    passes viewUpdateInfo (pk (fit 16 (le 4 h0) ++ binding)) copying = true ∧ copying.setsBusy = true ∧
    passes viewQueryInfo (pk (fit 16 (le 4 h0))) viewed = true := by decide +kernel
/-- A commit 100 µs old in `viewed`, with nothing in the way of its swap, at a revolution boundary. -/
def commit0 : Commit := { cmd := pk [], state := .armed, at_ := up.clk.now - 128000 }
def committed (n : Option Nat) : State :=
  { viewed with sets := { viewed.sets with commits := [commit0], decided := some true, shadow := ConfigSet.empty },
                angle := { viewed.angle with lastBoundary := n } }

/-- `viewed` with the view retiring. -/
def retiring : State := { viewed with sets := { viewed.sets with retiring := [h0], active := ConfigSet.empty } }

/-- A locked angle that turns at 10 revolutions a second and has just passed 0. -/
def turning : State :=
  { viewed with angle := { viewed.angle with lock := .locked, angle := 0, pubSpeed := 655360, pubStamp := 64 * up.clk.tickCount,
                                             est := 0, speed := 655360, stamp := 64 * up.clk.tickCount } }

/-- `viewed` with a word of the view's firing table, or of its parameter blocks, lost. -/
def lostWord (p : Bool) : State :=
  { viewed with integrity := { viewed.integrity with lost := [{ shadow := false, params := p, view := h0 }] } }

theorem witness_SetsSwapCopyAndRelease :
    let s := committed (some up.clk.now)
    let strobed := { committed none with sched := { up.sched with inhibit := 4 } }
    Accepted setCommitInfo (pk []) viewed ∧ Accepted setCommitInfo (pk []) copying ∧ Accepted setReadInfo (pk (zeros 16)) viewed ∧
    viewed.setsBusy = false ∧ copying.setsBusy = true ∧
    s.sets.commits = [commit0] ∧ s.sets.decided = some true ∧ s.sets.copying = false ∧ s.angle.lastBoundary = some s.clk.now ∧
    commit0.at_ + 128000 ≤ s.clk.now ∧ (∀ x ∈ s.emission.emitters, x.fade = none) ∧
    strobed.swapReady = true ∧ strobed.sched.inhibit.getLsbD 2 = true ∧ strobed.clk.tickCount % 128000 = 0 ∧
    strobed.clk.pllLocked = true ∧ viewed.sets.commits = [] ∧ copying.sets.copying = true ∧ copying.sets.waiting = [] ∧
    viewed.sets.copying = false ∧ h0 ∉ viewed.sets.retiring ∧ h0 ∈ retiring.sets.retiring ∧ retiring.activeView h0 = none ∧
    retiring.viewBusy h0 = false ∧ turning.atBoundary = true ∧ viewed.atBoundary = false ∧ viewed.lostRow false = none ∧
    (∀ p ∈ [false, true], (lostWord p).lostRow false = some (if p then 5 else 4)) := by
  refine ⟨accepted_of_passes (by decide +kernel), accepted_of_passes (by decide +kernel), accepted_of_passes (by decide +kernel), ?_⟩
  decide +kernel
/-! ## Witnesses: shots, windows and lanes -/

/-- One loaded slot of emitter 0, and a ledger table whose pulse limit lets it play. -/
def slot0 : Slot := { st := .loaded, range2 := false, codeId := 0, samples := List.replicate 256 0, charge := 1 }
def loadSlot (s : State) : State :=
  { s with emission := { s.emission with table := patch s.emission.table 72 (le 4 1)
                                         emitters := s.emission.emitters.modify 0 fun x => { x with slots := x.slots.set 0 slot0 } } }

/-- `turning` with cell 0 of the view open, its shot `ac` units of angle ahead. -/
def shooting (ac : Nat) : State :=
  let s := loadSlot turning
  { s with angle := { s.angle with angle := 32768 - ac }
           sched := { s.sched with cells := [{ view := h0, cell := 0, epoch := s.sets.epoch, planned := [0], settled := [0],
                                               barred := [], begun := [0] }] } }
def cell00 : OpenCell := { view := h0, cell := 0, epoch := 0, planned := [0], settled := [0], barred := [], begun := [0] }

theorem witness_ShotIsPlannedWithinTheHorizon :
    let s := shooting 100
    let far := shooting 300
    let near := shooting 5
    let f := view0.entries.getD 0 (fireEntry [] 0)
    (∀ x ∈ [s, far, near], x.inhibited = false ∧ x.clk.pllLocked = true ∧ x.openCell h0 0 = some cell00 ∧
      x.viewIn 0 h0 = some view0 ∧ view0.handle = h0 ∧ cell00.next view0 = some (0, 0) ∧ fireDitherMax view0.table = 0 ∧
      (x.sched.queue.filter (·.emitter == f.emitter)).length < 8) ∧
    (∃ b, s.tickOf (view0.shotAngle 0 0) = some b ∧ b + f.offset ≤ s.clk.tickCount + 31232 ∧
      s.skipReason view0 cell00 f 0 0 (b + f.offset + 0) (f.offset + 0) = none) ∧
    (∃ b, near.tickOf (view0.shotAngle 0 0) = some b ∧
      near.skipReason view0 cell00 f 0 0 (b + f.offset + 0) (f.offset + 0) = some .late) ∧
    (∃ b, far.tickOf (view0.shotAngle 0 0) = some b ∧ far.clk.tickCount + 31232 < b + f.offset) ∧
    ({ s with sched := { s.sched with inhibit := 1 } } : State).inhibited = true := by
  refine ⟨?_, ⟨10000000012207, ?_⟩, ⟨10000000000610, ?_⟩, ⟨10000000036621, ?_⟩, ?_⟩ <;> decide +kernel

/-- A planned shot of emitter 0 with a stamp `t` ticks ahead. -/
def shot (t : Nat) (fixed : Bool) : Descriptor :=
  { emitter := 0, view := h0, cell := 0, shot := 0, entry := 0, slot := 0, dither := 0, stamp := up.clk.tickCount + t, fixed := fixed,
    charge := 1, codes := slot0.samples, epoch := 0 }
def withShot (d : Descriptor) : State :=
  let s := loadSlot viewed
  { s with sched := { s.sched with queue := [d] } }
def atFire (d : Descriptor) : State :=
  let s := loadSlot viewed
  { s with sched := { s.sched with current := s.sched.current.set 0 (some d) } }
def playing (t : Nat) : State :=
  let s := loadSlot viewed
  { s with emission := { s.emission with emitters := s.emission.emitters.modify 0 fun x =>
                           { x with out := .slot 0 slot0.samples false (up.clk.tickCount - t) 0 1 } } }

/-- The same with windows wide enough for the slot. -/
def roomy (s : State) : State :=
  { s with emission := { s.emission with table := patch (patch s.emission.table 76 (le 4 9 ++ le 4 9 ++ le 4 9))
                                                    588 (le 4 9 ++ le 4 9 ++ le 4 9) } }

theorem witness_ShotIsFixedFiredAndEnded :
    let s := roomy (withShot (shot 1280 false))
    let tight := withShot (shot 1280 false)
    (∀ x ∈ [s, tight], x.sched.queue.find? (fun y => y.emitter == 0 && !y.fixed) = some (shot 1280 false) ∧
      (shot 1280 false).stamp ≤ x.clk.tickCount + 1280 ∧ (x.emitter 0).faulted = false ∧ (x.slot 0 0).st = .loaded ∧
      x.settleAll.overLimit 0 0 (x.settleAll.fixCharge (shot 1280 false)).2.1 = false ∧ x.emission.emitters.length = 16) ∧
    s.settleAll.overrun 0 (s.settleAll.fixCharge (shot 1280 false)).2.1 = none ∧
    tight.settleAll.overrun 0 (tight.settleAll.fixCharge (shot 1280 false)).2.1 = some (0, 1) ∧
    (∀ c, s.openCell h0 0 = some c → c.barred.contains 0 = false) ∧
    (withShot (shot 1281 false)).clk.tickCount + 1280 < (shot 1281 false).stamp ∧
    (withShot (shot 307 true)).dueWindow 0 = some (shot 307 true) ∧
    (withShot (shot 307 true)).viewIn 0 h0 = some view0 ∧ (withShot (shot 308 true)).dueWindow 0 = none ∧
    (withShot (shot 307 true)).clk.tickCount + 307 ≤ (shot 307 true).stamp ∧ (withShot (shot 306 true)).dueWindow 0 = some (shot 306 true) ∧
    (shot 306 true).stamp < (withShot (shot 306 true)).clk.tickCount + 307 ∧
    (atFire (shot 0 true)).sched.current.getD 0 none = some (shot 0 true) ∧ (atFire (shot 0 true)).viewIn 0 h0 = some view0 ∧
    (shot 0 true).stamp ≤ up.clk.tickCount ∧ up.clk.tickCount < (shot 1 true).stamp ∧
    ((playing 128).emitter 0).out = .slot 0 slot0.samples false (up.clk.tickCount - 128) 0 1 ∧
    up.clk.tickCount - 128 + 128 ≤ up.clk.tickCount ∧ up.clk.tickCount < up.clk.tickCount - 127 + 128 ∧
    0 < (playing 128).emission.emitters.length := by decide +kernel

/-- `viewed` with lane 0 in use and calibrated, as R113's example has it. -/
def onLane (f : Lane → Lane) (s : State) : State := { s with clk := { s.clk with lanes := s.clk.lanes.modify 0 f } }
def laned : State :=
  onLane (fun l => { l with inUse := true, failed := false, waits := [up.clk.tickCount + 102], last := some (491, 526), state := .accepted,
                            ready := true }) viewed

/-- `laned` while channel 0 is blanked for a window whose t0 is `t` ticks ahead. -/
def measuring (t : Nat) : State :=
  { onLane (fun l => { l with waits := [up.clk.tickCount + t] }) laned with returns := { laned.returns with channels := laned.returns.channels.modify 0 fun c =>
      { c with win := { Window.reset with phase := .blanked, view := h0, t0 := up.clk.tickCount + t } } } }

theorem witness_PlausibleReferencesAreAccepted_due :
    let s := measuring 102
    0 < s.clk.lanes.length ∧ (s.lane 0).failed = false ∧ s.laneDue 0 = true ∧ (measuring 103).laneDue 0 = false ∧
    (s.lane 0).warm = none ∧ (s.lane 0).last = some (491, 526) ∧ (s.lane 0).missed < 63 ∧ s.returns.channels.length = 192 ∧
    s.laneOf 0 = 0 ∧ (s.channel 0).win.phase = .blanked ∧ s.laneWait 0 = some (s.channel 0).win.t0 ∧
    (onLane (fun l => { l with warm := some 63, consec := 15 }) laned).laneDue 0 = true ∧
    (onLane (fun l => { l with warm := some 64, consec := 15 }) laned).laneDue 0 = false ∧
    (onLane (fun l => { l with warm := some 16, consec := 16 }) laned).laneDue 0 = false := by decide +kernel

theorem witness_PlausibleReferencesAreAccepted :
    let ones := [61, 61, 61, 61, 61, 62, 62, 62]
    let twos := [127, 127, 127, 127, 127, 127, 127, 128]
    0 < laned.clk.lanes.length ∧ ones.length = 8 ∧ twos.length = 8 ∧ ones.sum = 491 ∧ twos.sum = 491 + 526 ∧
    (laned.lane 0).failed = false ∧ (laned.lane 0).waits ≠ [] ∧ (laned.lane 0).warm = none ∧
    (laned.lane 0).last = some (491, 526) ∧ (laned.lane 0).missed < 63 ∧ laned.returns.channels.length = 192 ∧
    (∀ r ∈ ones, 8 * r ≤ 491 + 16 ∧ 491 ≤ 8 * r + 16) ∧ (∀ r ∈ twos, 8 * r ≤ 491 + 526 + 16 ∧ 491 + 526 ≤ 8 * r + 16) ∧
    (List.replicate 8 39).sum < 8 * 40 := by decide +kernel

theorem witness_LanesGrowStaleFailAndWarm :
    let missed (n : Nat) := onLane (fun l => { l with missed := n }) laned
    let warm (k c : Nat) := onLane (fun l => { l with warm := some k, consec := c }) laned
    0 < laned.clk.lanes.length ∧ laned.returns.channels.length = 192 ∧ ((missed 63).lane 0).missed < 64 ∧
    64 ≤ ((missed 64).lane 0).missed ∧ ((missed 4095).lane 0).missed < 4096 ∧ ((missed 4095).lane 0).warm = none ∧
    4096 ≤ ((missed 4096).lane 0).missed ∧ ((missed 4096).lane 0).failed = false ∧ ((warm 64 15).lane 0).warm = some 64 ∧
    ((warm 64 15).lane 0).consec < 16 ∧ ((warm 16 16).lane 0).warm = some 16 ∧ 16 ≤ ((warm 16 16).lane 0).consec := by
  decide +kernel
/-- `laned` with channel 0 as given. -/
def onCh (f : Channel → Channel) (s : State) : State :=
  { s with returns := { s.returns with channels := s.returns.channels.modify 0 f } }

/-- Channel 0 in service in a part of a window of shot 0 of the view, whose range ends `t` ticks before now. -/
def inPart (p : WinPhase) (t : Nat) : State :=
  onCh (fun c => { c with st := .active, threshNow := 100,
                          win := { Window.reset with phase := p, view := h0, fired := true, t0 := up.clk.tickCount - 65536,
                                                     rangeEnd := up.clk.tickCount - t } }) laned
def withT0 (t : Nat) (s : State) : State := onCh (fun c => { c with win := { c.win with t0 := up.clk.tickCount - t } }) s

theorem witness_WindowPartsFollowOneAnother :
    let b := inPart .blanked 0
    let r := inPart .range 0
    let a := inPart .ambient 0
    let due := { a with sched := { a.sched with queue := [shot 307 true] } }
    let bad := onCh (fun c => { c with threshFails := 63 }) b
    0 < b.returns.channels.length ∧ (b.channel 0).win.phase = .blanked ∧ 98 ≤ (b.channel 0).threshNow + 2 ∧
    102 ≤ (b.channel 0).threshNow + 2 ∧ (b.channel 0).threshNow ≤ 98 + 2 ∧ (b.channel 0).threshNow + 2 < 103 ∧
    97 + 2 < (b.channel 0).threshNow ∧ 64 ≤ (bad.channel 0).threshFails + 1 ∧ (bad.channel 0).st = .active ∧
    (r.channel 0).win.phase = .range ∧ (r.channel 0).win.fired = true ∧ (r.channel 0).win.optical = false ∧
    (r.channel 0).edge = none ∧ r.viewIn 0 h0 = some view0 ∧ (r.channel 0).win.rangeEnd ≤ r.clk.tickCount ∧
    r.clk.tickCount - 1 < (r.channel 0).win.rangeEnd ∧ (a.channel 0).win.phase = .ambient ∧ a.dueOn 0 = false ∧ due.dueOn 0 = true ∧
    (a.channel 0).win.t0 + 65536 ≤ a.clk.tickCount ∧ a.clk.tickCount < ((withT0 65535 a).channel 0).win.t0 + 65536 := by
  decide +kernel

/-- Channel 0 blanked for a window whose t0 is `t` ticks ahead. -/
def blankedTo (t : Nat) : State := onCh (fun c => { c with win := { c.win with t0 := up.clk.tickCount + t } }) (inPart .blanked 0)

theorem witness_WindowPartsFollowOneAnother_instants :
    let run : AmbRun := { view := h0, channel := 0, epochs := [0], lam := 0, first := true, stepSeen := 0, records := [] }
    let a := { inPart .ambient 0 with fabric := { up.fabric with ambRuns := [run] } }
    (∀ t ∈ [76, 77, 51, 52], ((blankedTo t).channel 0).win.phase = .blanked ∧ ((blankedTo t).channel 0).win.t0 = up.clk.tickCount + t) ∧
    up.clk.tickCount + 76 < ((blankedTo 77).channel 0).win.t0 ∧ up.clk.tickCount + 51 < ((blankedTo 52).channel 0).win.t0 ∧
    run ∈ a.fabric.ambRuns ∧ run.channel = 0 ∧ (∀ e, (a.channel 0).edge = some e → e.inWindow = false) ∧
    (a.channel 0).win.phase = .ambient := by decide +kernel

/-- An edge of channel 0 that waits for its fall, at the last fine step of the last bin. -/
def edged : State :=
  onCh (fun c => { c with edge := some { tau := 511, inWindow := true, blanked := false }, high := true }) (inPart .range 0)

/-- A shot whose reference is awaited, `t` ticks after its start, with lane 40 calibrated. -/
def t0Of (t : Nat) : T0Shot := { emitter := 15, t0 := up.clk.tickCount - t, ambiguous := false, optical := true, charge := 1, edge := none }
def awaiting (t : Nat) : State :=
  { laned with clk := { laned.clk with t0Open := [t0Of t], lanes := laned.clk.lanes.modify 40 fun l =>
                          { l with inUse := true, last := some (491, 526) } } }

theorem witness_EdgesAndReferencesBecomeEvents :
    (∀ p ∈ [WinPhase.blanked, .untimed, .preStart, .range],
      ((inPart p 0).channel 0).win.phase = p ∧ ((inPart p 0).channel 0).st = .active ∧ ((inPart p 0).channel 0).high = false ∧
      ((inPart p 0).channel 0).deadUntil ≤ 64 * (inPart p 0).clk.tickCount ∧
      ((inPart p 0).lane ((inPart p 0).laneOf 0)).last = some (491, 526)) ∧
    (edged.channel 0).high = true ∧ (edged.channel 0).edge = some { tau := ((511 : Nat) : Int), inWindow := true, blanked := false } ∧
    (edged.channel 0).win.optical = false ∧ edged.viewIn 0 h0 = some view0 ∧ 511 / view0.binWidth < view0.bins ∧
    (edged.channel 0).items = [] ∧ (edged.channel 0).longNow = false ∧ (edged.channel 0).st = .active ∧
    (awaiting 51).clk.t0Open = [t0Of 51] ∧ (t0Of 51).t0 ≤ (awaiting 51).clk.tickCount ∧
    ((awaiting 51).lane 40).last = some (491, 526) ∧ (awaiting 51).clk.t0Dead ≤ 64 * (awaiting 51).clk.tickCount ∧
    (convert (491, 526) FrontEndCal.reset 53 61).1 = 3328 ∧ (convert (491, 526) FrontEndCal.reset 1 61).1 = 0 ∧
    (convert (491, 526) FrontEndCal.reset 0 61).1 < 0 ∧ (awaiting 51).clk.tickCount < (t0Of 51).t0 + 52 ∧
    (t0Of 52).t0 + 52 ≤ (awaiting 52).clk.tickCount ∧ (awaiting 51).clk.t0Delays.length = 16 := by decide +kernel

/-- Channel 0 over its threshold for `t` ticks, with LONG_HIGH 1, or under it within its dead time. -/
def highFor (t : Nat) : State := onCh (fun c => { c with high := true, highAt := up.clk.tickCount - t }) (inPart .range 0)
def deadFor (p : WinPhase) : State := onCh (fun c => { c with deadUntil := 64 * up.clk.tickCount + 1 }) (inPart p 0)

theorem witness_EdgesAndReferencesBecomeEvents_dead :
    let n := rxLongHigh ((highFor 0).rxFor 0 ((highFor 0).channel 0).win) * 64 / 5
    (∀ p ∈ [WinPhase.blanked, .untimed, .preStart, .none], p ≠ .range ∧ p ≠ .ambient ∧ ((deadFor p).channel 0).high = false ∧
      ((deadFor p).channel 0).st = .active ∧ ((deadFor p).channel 0).win.phase = p ∧
      64 * (deadFor p).clk.tickCount < ((deadFor p).channel 0).deadUntil) ∧
    ((highFor (n + 1)).channel 0).high = true ∧ ((highFor (n + 1)).channel 0).longNow = false ∧
    ((highFor (n + 1)).channel 0).st = .active ∧ ((highFor (n + 1)).channel 0).win.phase ≠ .none ∧
    rxLongHigh ((highFor (n + 1)).rxFor 0 ((highFor (n + 1)).channel 0).win) * 64 <
      ((highFor (n + 1)).clk.tickCount - ((highFor (n + 1)).channel 0).highAt) * 5 ∧
    (highFor n).highTooLong 0 = false ∧
    (let s := inPart .range 0
     (s.channel 0).deadUntil ≤ (64 * ((s.channel 0).win.t0 : Int) + (convert (491, 526) (s.fe (s.feOf 0)) 0 61).1).toNat) := by
  decide +kernel

/-- A shot whose reference is awaited, while another emitter is about to fire. -/
def waitsT0 (x : T0Shot) (dead : Nat) (q : List Descriptor) : State :=
  let s := loadSlot laned
  { s with clk := { s.clk with t0Open := [x], t0Await := some x.t0, t0Dead := dead, lanes := s.clk.lanes.modify 40 fun l =>
                      { l with inUse := true, last := some (491, 526) } },
           sched := { s.sched with queue := q } }

theorem witness_EdgesAndReferencesBecomeEvents_settled :
    let x := t0Of 1
    let s := waitsT0 x 0 []
    let near := waitsT0 x 0 [shot 51 true]
    let tau (c : Nat) : Int := (convert (491, 526) FrontEndCal.reset c 61).1
    s.clk.t0Open = [x] ∧ s.clk.t0Await = some x.t0 ∧ x.ambiguous = false ∧ x.optical = true ∧ (s.lane 40).last = some (491, 526) ∧
    tau 0 < 0 ∧ 0 ≤ tau 1 ∧ tau 53 ≤ 3328 ∧ 3328 < tau 54 ∧ s.clk.t0Dead ≤ 64 * x.t0 + (tau 1).toNat ∧
    64 * x.t0 + (tau 1).toNat < (waitsT0 x (64 * x.t0 + (tau 1).toNat + 1) []).clk.t0Dead ∧ s.t0Crowded x.emitter x.t0 = false ∧
    near.t0Crowded x.emitter x.t0 = true ∧ x.emitter < s.clk.t0Delays.length ∧
    (let y : T0Shot := { t0Of 52 with edge := some (5, 1) }
     (waitsT0 y 0 []).clk.t0Open = [y] ∧ y.edge = some (5, 1) ∧ y.ambiguous = false ∧
     y.t0 + 52 ≤ (waitsT0 y 0 []).clk.tickCount) ∧ (t0Of 52).edge = none ∧ ({ t0Of 52 with ambiguous := true } : T0Shot).ambiguous = true := by
  decide +kernel

/-- The histogram of cell 0 on channel 0 with `n` windows still to come, and what stands in the channel's path. -/
def hist0 (n : Nat) : Hist := { newHist view0 0 0 0 0 false false with left := n }
def merging (n : Nat) (l : List IngressItem) : State := onCh (fun c => { c with items := l, acc := [hist0 n] }) laned
def win0 : Window := { Window.reset with view := h0 }

theorem witness_RecordsMergeIntoTheirHistogram :
    let s := merging 1 [.entry [(63, 15), (0, 1)], .trailer win0 0]
    (s.channel 0).items = [.entry [(63, 15), (0, 1)], .trailer win0 0] ∧ s.viewIn win0.epoch win0.view = some view0 ∧
    (s.channel 0).acc = [hist0 1] ∧ (hist0 1).holds win0.view win0.cell win0.epoch = true ∧ (hist0 1).left ≠ 0 ∧
    (∀ n ∈ [1, 2], ((merging n [.trailer win0 0]).channel 0).items = [.trailer win0 0] ∧ (hist0 n).left = n) ∧
    0 / 24 < s.fabric.tiles.length := by decide +kernel

theorem witness_RecordsMergeIntoTheirHistogram_ecc :
    let h := hist0 1
    h.meets (view0.addsTo [(63, 15)]) (.rowInvalid 0) = true ∧
    (h.count view0 63 15).meets (view0.addsTo [(63, 15)]) (.uncorrectable 7) = true ∧
    (h.count view0 63 15).meets (view0.addsTo [(63, 15)]) (.uncorrectable 6) = false ∧
    (h.count view0 63 15).meets (view0.addsTo [(63, 15)]) (.corrected 7) = true ∧
    h.meets (view0.addsTo [(63, 15)]) (.uncorrectable 7) = false := by decide +kernel

/-- A near-field count of `n` for the latest shot of emitter 0, with `k` sectors blocked already. -/
def nearField (n k : Nat) : State :=
  { viewed with sched := { viewed.sched with nfCount := viewed.sched.nfCount.set 0 (some n)
                                             fired := viewed.sched.fired.set 0 (some (shot 0 true))
                                             sectors := List.replicate k { centre := 0, half := 64, revs := 0 } } }
def nfCause (t : Nat) : State := { viewed with sched := { viewed.sched with inhibit := 1, nfLast := up.clk.now - t } }

theorem witness_NearFieldInhibitsAndBlocks :
    let c := (viewed.setOf 0).nfCount
    (∀ x ∈ [(c - 1, 0), (c, 7), (c, 8)], (nearField x.1 x.2).sched.nfCount.getD 0 none = some x.1 ∧
      (nearField x.1 x.2).sched.fired.getD 0 none = some (shot 0 true) ∧ (nearField x.1 x.2).viewIn 0 h0 = some view0 ∧
      (nearField x.1 x.2).emission.emitters.length = 16 ∧ (nearField x.1 x.2).inhibited = false) ∧
    c - 1 < c ∧ ((nearField c 7).setOf 0).nfEnable = true ∧ (nearField c 7).sched.sectors.length < 8 ∧
    8 ≤ (nearField c 8).sched.sectors.length ∧ (nfCause 2560).sched.inhibit.getLsbD 0 = true ∧
    (nfCause 2560).sched.nfLast + 2560 ≤ (nfCause 2560).clk.now ∧ (nfCause 2559).clk.now < (nfCause 2559).sched.nfLast + 2560 ∧
    (nearField c 1).sched.sectors[0]? = some { centre := 0, half := 64, revs := 0 } := by decide +kernel
/-! ## Witnesses: time base and PTP -/

def withClk (f : Clk → Clk) (s : State) : State := { s with clk := f s.clk }
def lostPll : State := withClk (fun c => { c with unlocked := true, pllLocked := false }) laned
def xoStopped : State := withClk (fun c => { c with xoStop := true }) lostPll
/-- Lock back for `t` ticks, with lane 0 calibrated and the source of SUPERVISOR registered. -/
def relocked (t : Nat) : State :=
  { withClk (fun c => { c with unlocked := true, relockAt := up.clk.now - t }) laned with
    sched := { laned.sched with inhibit := 0x20, src := 1 } }
/-- Ten minutes of LOCKED with an error of 1 ppm. -/
def drifted (n : Nat) : State :=
  withClk (fun c => { c with state := .locked, rateTicks := n, rateSum := n * 14411518808 / 1000000 }) laned
def ramping (t : Nat) (a b : Nat) : State := withClk (fun c => { c with xoTrim := a, xoStored := b, rampAt := up.clk.now - t }) laned

theorem witness_ClockLossInhibitsAndRetrimRamps :
    let r := relocked 128000
    let n := 768000000000
    laned.clk.started = true ∧ laned.clk.pllLocked = true ∧ laned.emission.emitters.length = 16 ∧ laned.inhibited = false ∧
    lostPll.clk.pllLocked = false ∧ laned.clk.xoStop = false ∧ laned.power.running = true ∧ laned.power.phase ≠ .pavane ∧
    lostPll.clk.unlocked = true ∧ lostPll.clk.xoStop = false ∧ lostPll.lanesInUse = [0] ∧ r.clk.unlocked = true ∧
    r.clk.pllLocked = true ∧ r.clk.relockAt + 128000 ≤ r.clk.now ∧ (∀ n ∈ r.lanesInUse, (r.lane n).last.isSome = true) ∧
    ¬ (relocked 127999).clk.relockAt + 128000 ≤ (relocked 127999).clk.now ∧ (drifted n).clk.state = .locked ∧
    n ≤ (drifted n).clk.rateTicks ∧ (drifted (n - 1)).clk.rateTicks < n ∧ (drifted n).clk.errorLarge = true ∧
    (drifted n).clk.retrimPending = false ∧ (drifted n).clk.lastRetrim = none ∧ (drifted n).clk.xoTrim ≤ 4095 ∧
    (ramping 128000 5 6).clk.xoTrim < (ramping 128000 5 6).clk.xoStored ∧
    (ramping 128000 6 5).clk.xoStored < (ramping 128000 6 5).clk.xoTrim ∧
    (ramping 128000 5 6).clk.rampAt + 128000 ≤ (ramping 128000 5 6).clk.now ∧
    (ramping 127999 5 6).clk.now < (ramping 127999 5 6).clk.rampAt + 128000 := by decide +kernel

/-- The mean error of ten minutes, with a slope that two retrims have measured. -/
def sloped (sum : Int) : State :=
  withClk (fun c => { c with rateSum := sum, retrims := [(5, 0), (6, 10)] }) (drifted 768000000000)

theorem witness_ClockLossInhibitsAndRetrimRamps_slope :
    let n := 768000000000
    0 < (sloped (n * 14411518808 / 1000000)).clk.pullSlope ∧ 0 < (sloped (n * 14411518808 / 1000000)).clk.meanError ∧
    (sloped (-(n * 14411518808 / 1000000))).clk.meanError < 0 ∧ (sloped (-(n * 14411518808 / 1000000))).clk.errorLarge = true ∧
    (sloped (n * 14411518808 / 1000000)).clk.errorLarge = true ∧ (ramping 128000 5 6).clk.state ≠ .holdover ∧
    (withClk (fun c => { c with state := .holdover }) (ramping 128000 5 6)).clk.state = .holdover ∧
    (lostPll.clk.now - lostPll.clk.unlockAt) / 32 ≠ 0 ∧ up.clk.unlocked = false ∧ xoStopped.clk.xoStop = true := by decide +kernel

/-- The network awake, port 0 in SLAVE with a Sync and an Announce `t` ticks ago. -/
def ptpUp (t : Nat) (st : TimeState) : State :=
  { up with power := { up.power with domains := [{ dom := .network, phase := .awake, idleSince := none }] }
            clk := { up.clk with state := st, devTime := 2 ^ 70, lastSample := some (up.clk.now - t) }
            net := { up.net with ports := [
              { Port.reset with link := .up, ptp := { Port.reset.ptp with state := 9, selected := true,
                                                                          syncGap := some 5, asked := some (3, 7), answer := some (9, 11),
                                                                          syncFrom := up.clk.now - t, syncInterval := 1000,
                                                                          lastAnnounce := some (up.clk.now - t), announceInterval := 1000 } },
              { Port.reset with link := .up }] } }
def ptpMsg (k : PtpKind) : PtpMessage := { port := 0, profile := 1, domain := 0, kind := k }
def gm0 : GmData := { priority1 := 128, clockClass := 6, accuracy := 33, variance := 0, priority2 := 128, identity := 1, steps := 0 }

theorem witness_PtpDisciplinesDeviceTime :
    let s := ptpUp 0 .locked
    s.netPowered = true ∧ s.linkUp 0 = true ∧ ncProfile s.net.config = 1 ∧ ncDomain s.net.config = 0 ∧ up.netPowered = false ∧
    (s.ptp 1).gm = none ∧ s.linkUp 1 = true ∧ (s.ptp 0).state = 9 ∧ s.ptpUsable (1 - 0) = false ∧ s.clk.state = .locked ∧
    (ptpUp 0 .free).clk.timeValid = false ∧ (ptpUp 5120000000 .locked).clk.lastSample = some (up.clk.now - 5120000000) ∧
    up.clk.now < up.clk.now - 5119999999 + 5120000000 ∧ ((ptpUp 3000 .locked).ptp 0).lastAnnounce = some (up.clk.now - 3000) ∧
    up.clk.now - 3000 + 3 * 1000 ≤ up.clk.now ∧ up.clk.now < up.clk.now - 2999 + 3 * 1000 ∧ up.ptpSelected = none ∧
    (ptpUp 3000 .locked).ptpSelected = some 0 ∧ (ptpUp 3000 .locked).syncLost 0 = true ∧ (ptpUp 2999 .locked).syncLost 0 = false := by
  decide +kernel

theorem witness_PtpDisciplinesDeviceTime_delays :
    let s := ptpUp 0 .locked
    let both : State := { s with net := { s.net with ports := s.net.ports.map fun x => { x with ptp := { x.ptp with state := 9 } } } }
    let e2e : State := { s with net := { s.net with config := patch s.net.config 33 [2] } }
    gmBetter gm0 s.ownClock = true ∧ gmBetter { gm0 with priority1 := 255, clockClass := 255, accuracy := 255 } s.ownClock = false ∧
    (s.ptp 0).asked = some (3, 7) ∧ (s.ptp 0).answer = some (9, 11) ∧ ncProfile e2e.net.config = 2 ∧ (e2e.ptp 0).asked = some (3, 7) ∧
    (e2e.ptp 0).syncGap = some 5 ∧ (both.ptp 1).state = 9 ∧ (s.ptp 1).state = 3 ∧ (ptpMsg (.requestReceived 5 [])).profile = 1 := by
  decide +kernel

/-! ## Witnesses: angle -/

def withAngle (f : Angle → Angle) (s : State) : State := { s with angle := f s.angle }

/-- The filter awake and the excitation running. -/
def filtering : State :=
  withAngle (fun a => { a with exc := .run })
    { up with power := { up.power with domains := [{ dom := .filter, phase := .awake, idleSince := none }] } }

/-- A window of the 20 kHz excitation ends at this fine step. -/
def end0 : Nat := 640000000000000 / 4096000 * 4096000

def outputAt (n : Nat) : State := withAngle (fun a => { a with slots := a.slots.modify 0 fun x => { x with index := n } }) filtering

theorem witness_FilterDeliversItsOutputs :
    up.filterRuns = false ∧ filtering.filterRuns = true ∧ filtering.clk.pllLocked = true ∧ filtering.angle.slots.length = 5 ∧
    filtering.windowEnd 0 = some end0 ∧ ((outputAt end0).fslot 0).index = end0 ∧ (outputAt end0).windowEnd 0 = some end0 ∧
    (filtering.fslot 0).index < end0 ∧ true ≠ filtering.onTestSource ∧
    (let s := withClk (fun c => { c with pllLocked := false }) filtering
     s.clk.pllLocked = false ∧ s.filterRuns = true ∧ stepSamples s.angle.config = stepSamples filtering.angle.config) := by
  decide +kernel

theorem witness_FilterDeliversItsOutputs_bits :
    let n := stepSamples filtering.angle.config
    let bs := List.replicate n true
    let e := 640000000000000 / 2048000 * 2048000 - 1024000
    bs.length = stepSamples filtering.angle.config ∧ bs.tail.length ≠ stepSamples filtering.angle.config ∧
    (List.replicate 512 false).length = 512 ∧ filtering.galvoEnd = some e ∧ (filtering.fslot 3).index < e ∧
    (let s := withAngle (fun a => { a with slots := a.slots.modify 3 fun x => { x with index := e } }) filtering
     e ≤ (s.fslot 3).index ∧ s.galvoEnd = some e ∧ s.filterRuns = true) := by decide +kernel

/-- A fresh pair of outputs of slots 0 and 1 in LOCKED, marked or not, whose amplitude is next to nothing. -/
def paired (m : Bool) : State :=
  withAngle (fun a => { a with
    lock := .locked, aRef := 2 ^ 38, lowFails := acAmpCount a.config - 1
    slots := [{ FilterSlot.reset with out := 1, index := 0, unsettled := 0, mark := m, fresh := true },
              { FilterSlot.reset with out := 1, index := 64000, unsettled := 0, mark := false, fresh := true },
              FilterSlot.reset, FilterSlot.reset, FilterSlot.reset] }) filtering
def acquiring (n : Nat) : State := withAngle (fun a => { a with lock := .acquire, lockCount := n }) filtering
def coasting (t : Nat) : State := withAngle (fun a => { a with lock := .coast, coastSince := some (up.clk.now - t) }) filtering
def gated (t : Nat) : State :=
  withAngle (fun a => { a with lock := .locked, gate := { a.gate with start := 64 * up.clk.tickCount - t, fault := true } }) filtering
def resetAt (t : Nat) (c : Cmd) : State := withAngle (fun a => { a with pendingReset := some (0x0501, c, t) }) filtering

theorem witness_AngleIsLostAndLocked :
    (up.fslot 0).fresh = false ∧
    (∀ m ∈ [true, false], ((paired m).fslot 0).fresh = true ∧ ((paired m).fslot 1).fresh = true ∧
      ((paired m).fslot 1).index = ((paired m).fslot 0).index + 64000 ∧ (paired m).angle.encOver = false ∧
      (paired m).angle.lock = .locked ∧ ((paired m).fslot 0).mark = m ∧ (paired m).angle.learn = none) ∧
    ((paired false).fslot 1).mark = false ∧
    ampLow (paired false).angle.config (amplitude ((paired false).fslot 0).out ((paired false).fslot 1).out) (paired false).angle.aRef = true ∧
    acAmpCount (paired false).angle.config ≤ (paired false).angle.lowFails + 1 ∧ (paired false).emission.emitters.length = 16 ∧
    (paired false).angle.next = none ∧ (acquiring 63).angle.lockCount < 64 ∧ (acquiring 64).angle.lock = .acquire ∧ 64 ≤ (acquiring 64).angle.lockCount ∧
    (paired true).tracking = true ∧
    (let n := 12800 * acCoast filtering.angle.config
     (coasting n).angle.lock = .coast ∧ (coasting n).angle.coastSince = some (up.clk.now - n) ∧
     up.clk.now ≤ up.clk.now - n + 12800 * acCoast (coasting n).angle.config ∧
     up.clk.now - (n + 1) + 12800 * acCoast (coasting (n + 1)).angle.config < up.clk.now) ∧
    (let n := acGate filtering.angle.config
     (gated n).angle.lock = .locked ∧ (gated n).angle.gate.fault = true ∧
     (gated n).angle.gate.start + acGate (gated n).angle.config ≤ 64 * (gated n).clk.tickCount ∧
     64 * (gated (n - 1)).clk.tickCount < (gated (n - 1)).angle.gate.start + acGate (gated (n - 1)).angle.config) ∧
    up.angle.exc = .switchOpen ∧ (paired true).angle.exc = .run ∧ up.angle.pendingReset = none ∧
    (resetAt (64 * up.clk.tickCount) (pk angleDefault)).angle.pendingReset = some (0x0501, pk angleDefault, 64 * up.clk.tickCount) ∧
    (resetAt 0 (pk angleDefault)).clk.pllLocked = true ∧ (resetAt 0 (pk angleDefault)).angle.learn = none := by decide +kernel

/-- A stuck output beside a marked pair; a good pair at angle 0, of a loop that stands still. -/
def stuckPair : State :=
  withAngle (fun a => { a with slots := a.slots.modify 0 fun x => { x with stuck := acStuckCount a.config } }) (paired true)
def goodPair : State :=
  withAngle (fun a => { a with
    aRef := 2 ^ 30, lowFails := 0, phi := 0, speed := 0, speedI := 0, stamp := 0, next := none
    slots := a.slots.mapIdx fun i x => { x with out := if i = 1 then 2 ^ 14 else 0, stuck := 0 } }) (paired false)

theorem witness_AngleIsLostAndLocked_pairs :
    (paired true).stuckOutput = false ∧ stuckPair.stuckOutput = true ∧ (stuckPair.fslot 0).mark = true ∧
    stuckPair.emission.emitters.length = 16 ∧
    (let s := goodPair
     let amp := amplitude (s.fslot 0).out (s.fslot 1).out
     let u := (s.angle.predict s.pairStamp).update (s.fslot 0).out (s.fslot 1).out amp
     (s.fslot 0).fresh = true ∧ (s.fslot 1).fresh = true ∧ (s.fslot 1).index = (s.fslot 0).index + 64000 ∧
     (s.fslot 0).mark = false ∧ (s.fslot 1).mark = false ∧ s.angle.lock = .locked ∧ s.angle.encOver = false ∧ s.angle.next = none ∧
     s.angle.learn = none ∧ s.stuckOutput = false ∧ 0 < acAmpCount s.angle.config ∧
     ampLow s.angle.config amp s.angle.aRef = false ∧ ampHigh s.angle.config amp s.angle.aRef = false ∧
     errAbove u.2 (acSlip s.angle.config) = false ∧ u.1.speed.natAbs ≤ 100 * 2 ^ 32) := by decide +kernel

/-- A gate of `k` crossings in line, at a tracked speed of `v` × 2^-32 rev/s. -/
def gateOf (k : Nat) (v : Int) (run : Nat) : State :=
  withAngle (fun a => { a with
    mismatchRun := run
    gate := { a.gate with fault := false, pairs := (List.range k).map fun (i : Nat) => ((i : Int), a.gate.start + 64000 * i),
                          speeds := [(a.gate.start, v)] } }) (gated (acGate filtering.angle.config))

theorem witness_AngleIsLostAndLocked_gate :
    let judged (s : State) : Option Rat :=
      let g := (s.angle.gate.cut (s.angle.gate.start + acGate s.angle.config)).1
      g.ppm (fitPairs (acMinCount s.angle.config) (acResid s.angle.config) g.pairs)
    let k := acMinCount filtering.angle.config + 1
    let tol : Rat := (acSpeedTol filtering.angle.config : Nat)
    (∀ s ∈ [gateOf 0 0 0, gateOf k 85899345920000 0, gateOf k 1 0, gateOf k 1 1], s.angle.lock = .locked ∧
      s.angle.gate.start + acGate s.angle.config ≤ 64 * s.clk.tickCount ∧ s.angle.gate.fault = false) ∧
    judged (gateOf 0 0 0) = none ∧ ((judged (gateOf k 85899345920000 0)).any fun p => decide (absRat p ≤ tol)) = true ∧
    ((judged (gateOf k 1 0)).any fun p => decide (tol < absRat p)) = true ∧ (gateOf k 1 0).angle.mismatchRun = 0 ∧
    0 < (gateOf k 1 1).angle.mismatchRun ∧ (gateOf k 1 1).emission.emitters.length = 16 := by decide +kernel


/-- An encoder of `n` lines whose generator is `k` states behind its target, with an angle that turns at `v`. -/
def encoding (n k : Nat) (v : Int) : State :=
  let s := withAngle (fun a => { a with encImage := le 4 n ++ zeros 12, encFrozen := false, encAt := up.clk.now - 64, pubSpeed := v,
                                        encCount := 0 }) turning
  withAngle (fun a => { a with encCount := (s.encTarget + s.encTurn - k) % pos s.encTurn }) s

/-- Camera pin 0 with one trigger at angle 0, and its pulse for `t` more ticks. -/
def camImage : List Byte := [0, 1, 0, 0] ++ le 4 100 ++ zeros 8 ++ le 4 0 ++ zeros 12
def camera (img : List Byte) (t : Nat) (s : State) : State :=
  withAngle (fun a => { a with cams := a.cams.modify 0 fun k => { k with image := img, high := true, endAt := up.clk.now + t } }) s

/-- A learning pass of one revolution of 0.1 s, steady or not. -/
def pass (w : Bool) (d : Nat) (bs : List Nat) : Learn :=
  { cmd := pk [], revs := 2, store := false, waiting := w, done := d, boundaries := bs, samples := [] }
def learning (l : Learn) : State := withAngle (fun a => { a with learn := some l }) turning

theorem harmonic_nil (f : Rat → Int) (h : Nat) : harmonic f h [] = 0 := by
  simp [harmonic]

theorem foldl_zeros (l : List Nat) : (l.map fun _ => (0 : Rat)).foldl (· + ·) 0 = 0 := by
  induction l with
  | nil => rfl
  | cons _ _ ih => simpa using ih

/-- A pass without samples learns nothing. -/
theorem learnEntries_nil : ∀ e ∈ learnEntries [], e.1 = 0 := by
  intro e he
  simp only [learnEntries, List.zip_nil_right, List.map_nil, harmonic_nil, List.map_map, List.mem_map] at he
  obtain ⟨j, hj, rfl⟩ := he
  simp only [Function.comp_def, zero_mul, add_zero, zero_div, foldl_zeros]
  have h0 : roundRat 0 = 0 := by decide +kernel
  simp only [h0, List.getD_eq_getElem?_getD, List.getElem?_map]
  cases (List.range 1024)[j]? <;> rfl

theorem witness_EncoderTriggersAndLearning :
    let even := pass false 2 [0, 8192000000, 16384000000]
    let uneven := pass false 2 [0, 8192000000, 24576000000]
    (∀ e ∈ learnEntries even.samples, e.1.natAbs ≤ acCycLimit (learning even).angle.config * 4096) ∧
    up.encTurn = 0 ∧ (encoding 1000 1 655360).encTurn ≠ 0 ∧ (encoding 1000 1 655360).angle.encFrozen = false ∧
    (encoding 1000 1 655360).encAhead ≠ 0 ∧ (encoding 1000 1 655360).clk.tickCount % 16 = 0 ∧
    (withClk (fun c => { c with tickCount := c.tickCount + 1 }) (encoding 1000 1 655360)).clk.tickCount % 16 ≠ 0 ∧ (encoding 1000 1 655360).angle.encAt + 64 ≤ up.clk.now ∧
    (encoding 60000 4 6553600).encBehind ≤ 4 ∧ (encoding 60000 5 6553600).angle.encCatch = false ∧
    20000000 * 65536 < (encoding 60000 5 6553600).encRate ∧ 4 < (encoding 60000 5 6553600).encBehind ∧
    0 < turning.angle.cams.length ∧ camCount (turning.cam 0).image = 0 ∧
    camCount ((camera camImage 0 up).cam 0).image ≠ 0 ∧ (camera camImage 0 up).tracking = false ∧
    (camera camImage 0 turning).tracking = true ∧ (camera camImage 0 turning).camDue 0 = some 0 ∧
    ((camera camImage 1 turning).cam 0).high = true ∧ up.clk.now < ((camera camImage 1 turning).cam 0).endAt ∧
    ((camera camImage 0 turning).cam 0).endAt ≤ up.clk.now ∧ turning.angle.learn = none ∧
    (learning even).angle.learn = some even ∧ (pass true 2 []).waiting = true ∧ (pass false 1 []).done < (pass false 1 []).revs ∧
    steady uneven.boundaries = false ∧ steady even.boundaries = true ∧ 65536 ≤ (learning even).angle.pubSpeed.natAbs :=
  ⟨fun e he => by rw [learnEntries_nil e he]; exact Nat.zero_le _, by decide +kernel⟩

theorem witness_AngleCommandsTakeEffect :
    let reset := patch angleDefault 2 (le 2 1201)
    let s := withAngle (fun a => { a with lock := .locked }) filtering
    let fast := withAngle (fun a => { a with pubSpeed := 65536 }) filtering
    (∀ x ∈ [(angleConfigInfo, angleDefault), (angleConfigInfo, reset), (filterSyncInfo, []), (angleFrameInfo, zeros 16),
            (cycSelectInfo, zeros 16), (encConfigInfo, zeros 16), (camConfigInfo, camImage), (angleStatusInfo, zeros 16)],
      passes x.1 (pk x.2) filtering = true ∧ passes x.1 (pk x.2) fast = true) ∧
    passes cycLearnInfo (pk (fit 16 [4])) s = true ∧ s.angle.learn = none ∧ s.angle.lock = .locked ∧
    filtering.angle.pendingReset = none ∧ resetNeeded filtering.angle.wanted angleDefault = false ∧
    bit (u8 angleDefault 9) 0 = false ∧ resetNeeded filtering.angle.wanted reset = true ∧ filtering.angle.exc = .run ∧
    fast.angle.pendingReset = none ∧ 65536 ≤ fast.angle.pubSpeed.natAbs ∧ filtering.angle.pubSpeed.natAbs < 65536 ∧
    filtering.angle.cycCmds = [] ∧ u8 camImage 0 < filtering.angle.cams.length ∧
    (withLive (entryOf 0x0501 (pk []) .accepted none) (resetAt 0 (pk []))).angle.pendingReset.isSome = true ∧
    ((withLive (entryOf 0x0501 (pk []) .accepted none) (resetAt 0 (pk []))).liveOf (pk [])).isSome = true := by decide +kernel
/-! ## Witnesses: control -/

def withLoop (n : Nat) (f : Loop → Loop) (s : State) : State :=
  { s with motion := { s.motion with loops := s.motion.loops.modify n f } }
def withMdrv (f : Mdrv → Mdrv) (s : State) : State := { s with motion := { s.motion with mdrv := f s.motion.mdrv } }

/-- Limits of the two loops at their defaults, without a following-error or innovation limit. -/
def calm (n : Nat) : List Byte := patch (loopDefault n) 32 (zeros 8)

/-- The control domain at a strobe, the drive running, the angle locked, both loops in `st`. -/
def controlling (st : LoopState) : State :=
  let l (n : Nat) : Loop := { Loop.reset with st := st, image := calm n, coef := [] }
  { up with power := { up.power with domains := [{ dom := .motion, phase := .awake, idleSince := none }] }
            clk := { up.clk with tickCount := 128000000, now := 128000000 }
            angle := { up.angle with lock := .locked
                                     slots := up.angle.slots.map fun x => { x with mark := false } }
            sets := { up.sets with active := { up.sets.active with loops := [calm 0, calm 1], coefs := [[], []] } }
            motion := { up.motion with loops := [l 0, l 1], galvo := .park 0, gpa := 1000000, gpb := 1000000
                                       mdrv := { up.motion.mdrv with running := true } } }
def lateLoop (n k : Nat) : State := withLoop n (fun l => { l with overruns := k }) (controlling .closed)

theorem witness_SamplesFollowTheirStrobes :
    let o := controlling .opened
    let c := controlling .closed
    (∀ s ∈ [o, c], s.strobes = true ∧ s.clk.tickCount % 128000 = 0 ∧ s.mdrv.strobeAt < s.clk.now ∧ s.motion.loops.length = 2 ∧
      s.mdrv.running = true ∧ s.power.phase ≠ .pavane ∧ s.clk.tickCount % 32000 = 0 ∧ s.motion.galvoAt < s.clk.now ∧
      s.motion.galvo ≠ .switchOpen ∧
      ∀ n ∈ [0, 1], (s.loop n).image = s.sets.active.loops.getD n [] ∧ (s.loop n).coef = s.sets.active.coefs.getD n [] ∧
        lcFeLimit (s.loop n).image = 0 ∧ lcInnovLimit (s.loop n).image = 0 ∧ (s.loop n).closing = false ∧ (s.loop n).inject = none) ∧
    (o.loop 0).st = .opened ∧ (c.loop 0).st = .closed ∧ (c.loop 1).st = .closed ∧ c.angle.lock = .locked ∧
    c.galvoMeasure.isSome = true ∧ lcMin (calm 0) < lcMax (calm 0) ∧ ((lateLoop 0 6).loop 0).overruns + 1 ≠ 8 ∧
    ((lateLoop 0 7).loop 0).overruns + 1 = 8 ∧ ((lateLoop 0 7).loop 0).inFault = false ∧ (calm 0) ≠ [] ∧
    bit (lcAction (calm 0) 4) 0 = true ∧ ((lateLoop 1 6).loop 1).overruns + 1 ≠ 8 ∧ up.strobes = false ∧
    up.motion.galvo = .switchOpen := by decide +kernel

theorem witness_SamplesFollowTheirStrobes_late :
    let late (k : Nat) := withMdrv (fun m => { m with late := true }) (lateLoop 0 k)
    (controlling .closed).mdrv.late = false ∧ (controlling .opened).mdrv.late = false ∧ (late 6).mdrv.late = true ∧
    ((late 6).loop 0).overruns + 1 ≠ 8 ∧ ((late 7).loop 0).overruns + 1 = 8 ∧ ((late 7).loop 0).inFault = false ∧
    ((late 7).loop 0).image ≠ [] ∧ bit (lcAction ((late 7).loop 0).image 4) 0 = true ∧ (late 7).strobes = true ∧
    (late 7).motion.loops.length = 2 ∧ (late 7).mdrv.running = true := by decide +kernel

theorem witness_SamplesFollowTheirStrobes_lateGalvo :
    let s := lateLoop 1 7
    (s.loop 1).overruns + 1 = 8 ∧ (s.loop 1).inFault = false ∧ (s.loop 1).image ≠ [] ∧ bit (lcAction (s.loop 1).image 4) 0 = true ∧
    s.strobes = true ∧ s.clk.tickCount % 32000 = 0 ∧ s.motion.galvoAt < s.clk.now := by decide +kernel

/-- A frame to the drive `t` ticks ago, and an answer to it. -/
def asked (t k : Nat) : State :=
  withMdrv (fun m => { m with lastFrame := fit 12 [0xA5, 2, 9], answered := false, strobeAt := 128000000 - t, misses := k })
    (controlling .closed)
def answer (flags : Byte) : List Byte :=
  let b : List Byte := [0x5A, flags, 9, 0, 1, 0, 2, 0, 0, 0]
  b ++ le 2 (crc16 b)

theorem witness_DriveAndGalvoFaultsAct :
    let s := asked 24000 0
    let loss := s.mdrvLoss
    s.uplinkValid (answer 0) = true ∧ s.uplinkValid (answer 2) = true ∧ s.uplinkValid [] = false ∧ bit (u8 (answer 0) 1) 1 = false ∧
    bit (u8 (answer 2) 1) 1 = true ∧ s.motion.loops.length = 2 ∧
    (let d := asked 76800 0
     d.mdrv.running = true ∧ d.mdrv.lastFrame ≠ [] ∧ d.mdrv.answered = false ∧ d.mdrv.strobeAt + 76800 ≤ d.clk.now ∧
     d.mdrv.misses + 1 < d.mdrvLoss ∧ d.mdrv.lossRaised = false) ∧
    ¬ (asked 76799 0).mdrv.strobeAt + 76800 ≤ (asked 76799 0).clk.now ∧
    (asked 76800 (loss - 1)).mdrvLoss ≤ (asked 76800 (loss - 1)).mdrv.misses + 1 ∧ (asked 76800 (loss - 1)).mdrv.lossRaised = false ∧
    (withMdrv (fun m => { m with lossRaised := true }) (asked 76800 loss)).mdrv.lossRaised = true ∧
    u8 (asked 76800 (loss - 1)).mdrv.lastFrame 1 ≠ 0 ∧
    (let d := withLoop 0 (fun l => { l with image := [] }) (withMdrv (fun m => { m with lastFrame := [0xA5, 0] }) (asked 76800 loss))
     lcMode (d.loop 0).image = 0 ∧ u8 d.mdrv.lastFrame 1 = 0 ∧ d.mdrv.lossRaised = false) ∧ up.motion.galvo = .switchOpen ∧
    s.motion.galvo ≠ .switchOpen := by decide +kernel

/-- CTRL_INJECT of a sine on the set point of the spindle loop; STOP; CAMEO_ARM at once and its STOP. -/
def injectImage : List Byte := [0, 0, 0, 7] ++ le 4 1 ++ le 4 1 ++ le 4 2 ++ le 4 100 ++ [1] ++ zeros 11
def injectStop : List Byte := patch injectImage 2 [3]
def armImage : List Byte := [0, 0, 1, 1, 0, 255, 255, 255] ++ zeros 8
def signal (i d : Nat) : Inject :=
  { cmd := { pk injectImage with seq := 9 }, point := 0, shape := 0, order := 7, ampl := 1, fStart := 1, fStop := 2, duration := d,
    hold := 1, index := i, lfsr := 0 }
def injecting (i d : Nat) : State := withLoop 0 (fun l => { l with inject := some (signal i d) }) (controlling .closed)
def capture (n : Nat) : State :=
  let s := controlling .closed
  { s with motion := { s.motion with cameo := { s.motion.cameo with st := .capturing, cmd := some { pk armImage with seq := 9 }
                                                                    samples := List.replicate n [0, 0] } } }
def faulted (cause : Nat) : State :=
  withLoop 0 (fun l => { l with st := .fault, faultCause := cause, prior := .opened }) (controlling .closed)

theorem witness_ControlCommandsTakeEffect :
    let s := controlling .closed
    let c := pk injectImage
    let kept := withLive (entryOf 0x0603 c .accepted none) (controlling .opened)
    let run := withLive (entryOf 0x0603 c .executing none) (injecting 0 100)
    s.motion.loops.length = 2 ∧ injShape c.payload ≠ 3 ∧ (let b := { s with sets := { s.sets with commits := [{ commit0 with cmd := { pk [] with seq := 9 } }] } }
     let b2 := { b with host := { b.host with journal := { b.host.journal with
       live := [entryOf 0x0301 { pk [] with seq := 9 } .accepted none, { entryOf 0x0603 c .accepted none with jix := 2 }] } } }
     b2.swapsAhead c ≠ 0 ∧ b2.motion.loops.length = 2) ∧ (run.liveOf c).isSome = true ∧
    (run.loop 0).inject.isSome = true ∧ passes ctrlInjectInfo c s = true ∧ s.swapsAhead c = 0 ∧ kept.swapsAhead c = 0 ∧ (s.loop 0).inject = none ∧
    (s.loop 0).st = .closed ∧ passes ctrlInjectInfo c kept = true ∧ (kept.loop 0).inject = none ∧ (kept.loop 0).st ≠ .closed ∧
    passes ctrlInjectInfo (pk injectStop) s = true ∧ injShape (pk injectStop).payload = 3 ∧
    ((injecting 5 100).loop 0).inject = some (signal 5 100) ∧ passes ctrlInjectInfo (pk injectStop) (injecting 5 100) = true ∧
    (signal 99 100).index < (signal 99 100).duration ∧ (signal 100 100).duration ≤ (signal 100 100).index ∧
    passes cameoArmInfo (pk armImage) s = true ∧ u8 (pk armImage).payload 1 ≠ 4 ∧ s.cameo.running = false ∧
    passes cameoArmInfo (pk (patch armImage 1 [4])) (capture 0) = true ∧ (capture 0).cameo.running = true ∧
    (capture 16383).cameo.st = .capturing ∧ (capture 16383).cameo.samples.length < 16384 ∧
    passes cameoReadInfo (pk (fit 16 [0, 0, 1, 0])) { up with motion := { up.motion with cameo := { up.motion.cameo with st := .complete } } } = true ∧
    passes ctrlStatusInfo (pk (zeros 16)) s = true ∧ passes ctrlStatusInfo (pk (fit 16 [0, 1])) (faulted 4) = true ∧
    ((faulted 4).loop 0).inFault = true ∧ ((faulted 4).clearLoop 0 0).causeEnded 0 = true ∧
    ((faulted 7).clearLoop 0 0).causeEnded 0 = true ∧ ((withMdrv (fun m => { m with drvFault := true }) (faulted 6)).clearLoop 0 0).causeEnded 0 = false ∧
    passes motionRecordInfo (pk (fit 16 [0, 0, 0, 0, 0, 0, 0, 3])) s = true ∧
    passes motionRecordInfo (pk (fit 16 [0, 0, 0, 0, 0, 0, 0, 3, 0, 0, 0, 0, 1])) s = true := by decide +kernel

theorem witness_ControlCommandsTakeEffect_full :
    (capture 16384).cameo.st = .capturing ∧ (capture 16384).cameo.cmd = some { pk armImage with seq := 9 } ∧
    16384 ≤ (capture 16384).cameo.samples.length := 
  ⟨rfl, rfl, Nat.le_of_eq (List.length_replicate (n := 16384) (a := [0, 0])).symm⟩
/-! ## Witnesses: inhibit by the host, fields and zone outputs -/

theorem witness_HostHoldsEmission :
    let s := { viewed with sched := { viewed.sched with inhibit := 0x20, src := 8 } }
    let f := { viewed with zone := { viewed.zone with outFault := true } }
    passes emitHoldInfo (pk (fit 16 [1])) viewed = true ∧ passes emitHoldInfo (pk (fit 16 [0])) s = true ∧
    viewed.emission.emitters.all (fun x => !x.out.lit) = true ∧ viewed.emission.emitters.length = 16 ∧ s.inhibited = true ∧
    (∀ x ∈ viewed.emission.emitters, x.fade = none) ∧ passes shotStatusInfo (pk (zeros 16)) viewed = true ∧
    passes zoneStatusInfo (pk (zeros 16)) viewed = true ∧ passes zoneStatusInfo (pk (fit 16 [1])) f = true ∧
    bit (u8 (fit 16 [0]) 0) 0 = false ∧ bit (u8 (fit 16 [1]) 0) 0 = true ∧ viewed.inhibited = false := by decide +kernel

theorem dark_of_all {s : State} (h : s.emission.emitters.all (fun x => !x.out.lit) = true) : Dark s := by
  intro x hx
  simpa using List.all_eq_true.mp h x hx

theorem witness_HostHoldsEmission_dark : Dark viewed := dark_of_all (by decide +kernel)

/-- Clear zone outputs, and pulses that began so many ticks ago: the last one of ZONE_A, and those that run. -/
def clearOut (t : Nat) (a b : Option Nat) : State :=
  { viewed with zone := { viewed.zone with clearA := true, clearB := true, lastPulseA := up.clk.now - t, lastPulseB := 0,
                                           pulseA := a.map (up.clk.now - ·), pulseB := b.map (up.clk.now - ·) } }
def wdogAt (t : Nat) : State := { viewed with zone := { viewed.zone with lastSnapshot := up.clk.tickCount - t } }
def snapping : State :=
  { viewed with power := { viewed.power with domains := [{ dom := .motion, phase := .awake, idleSince := none }] } }
def telegram (on : Bool) : State :=
  { trdpUp with zone := { up.zone with tgDue := true },
                net := { trdpUp.net with trdp := if on then patch trdpUp.net.trdp 0 ([2] ++ zeros 23 ++ [239, 1, 1, 1]) else trdpUp.net.trdp,
                                         ports := [{ Port.reset with link := .up }, Port.reset] } }

/-- A zone view of one channel and a field over its cells; a gathered cell of it `t` ticks old. -/
def zoneBinding : List Byte :=
  patch (fit 16 (binding.take 16)) 15 [1] ++ slice binding 16 8 ++ le 2 1 ++ zeros 6 ++ fit 24 [1] ++ fit 8 [3] ++
  fit 8 [1, 1] ++ fit 8 [4, 1] ++ fit 8 [8, 1] ++ zeros 8
def zoneView : ViewDef := newView h0 zoneBinding
def square : List Byte :=
  fit 16 [0, 2, 1, 1, 1, 1] ++ fit 24 [1] ++ zeros 8 ++ le 4 0 ++ le 2 0 ++ le 2 1000 ++ le 4 65536 ++ le 2 0 ++ le 2 1000
def lateCell (t : Nat) : ZoneCell :=
  { view := h0, cell := 0, epoch := 0, last := up.clk.tickCount - t, results := [], decided := [] }
def gathering (t : Nat) : State :=
  { viewed with sets := { viewed.sets with active := { viewed.sets.active with views := [zoneView], fields := [(0, square)],
                                                                                zone := patch zoneDefault 0 [1] } },
                zone := { viewed.zone with clearA := true, clearB := true, cells := [lateCell t],
                                           fields := [{ field := 0, state := .clear, cells := [], cleanPasses := 0, passes := [], lastPass := none,
                                                        violAngle := 0, violRange := 0 }] } }

theorem witness_ZoneOutputsFailSafe :
    let period := 1280000 * viewed.sets.active.tpPeriod
    let width := 1280 * viewed.sets.active.tpWidth
    (wdogAt 25600000).clk.tickCount ≤ (wdogAt 25600000).zone.lastSnapshot + 25600000 ∧
    (wdogAt 25600001).zone.lastSnapshot + 25600000 < (wdogAt 25600001).clk.tickCount ∧
    (let s := clearOut period none none
     s.zone.clearA = true ∧ s.zone.clearB = true ∧ s.zone.pulseA = none ∧ s.zone.pulseB = none ∧
     s.zone.lastPulseA + period ≤ s.clk.now ∧ s.zone.lastPulseB < s.zone.lastPulseA ∧ s.zone.lastPulseA + period / 2 ≤ s.clk.now) ∧
    up.clk.now < (clearOut (period - 1) none none).zone.lastPulseA + period ∧ (clearOut 0 (some 0) none).zone.pulseA ≠ none ∧
    (clearOut width (some width) none).zone.pulseA = some (up.clk.now - width) ∧
    (clearOut period none (some width)).zone.pulseB = some (up.clk.now - width) ∧
    (clearOut period none (some width)).zone.pulseA = none ∧
    up.clk.now - width + width ≤ up.clk.now ∧ up.clk.now < up.clk.now - (width - 1) + width ∧
    snapping.clk.tickCount % 12800000 = 0 ∧ snapping.clk.tickCount ≠ snapping.zone.lastSnapshot ∧ snapping.awake .motion = true ∧
    viewed.awake .motion = false ∧ (telegram true).netPowered = true ∧ (telegram true).zone.tgDue = true ∧
    tcZone (telegram true).net.trdp = true ∧ zeroAt (telegram true).net.trdp 24 4 = false ∧ (telegram true).linkUp 0 = true ∧
    tcZone (telegram false).net.trdp = false ∧
    (let s := gathering 1280001
     s.zone.cells.find? (fun y => y.view == h0 && y.cell == 0) = some (lateCell 1280001) ∧
     (lateCell 1280001).last + 1280000 < s.clk.tickCount ∧ s.sched.cells = [] ∧ s.viewIn 0 h0 = some zoneView ∧
     (0, square) ∈ (s.setOf 0).fields ∧ contributes zoneView 0 square = true ∧ overlaps square zoneView 0 = true ∧
     s.sameField 0 0 = true ∧ s.fieldState 0 = some .clear ∧ s.sets.active.zoneMap.testBit 0 = true) ∧
    up.clk.tickCount ≤ (lateCell 1280000).last + 1280000 := by decide +kernel
/-! ## Witnesses: emission -/

def withEmission (f : Emission → Emission) (s : State) : State := { s with emission := f s.emission }
def withEmitter (e : Nat) (f : Emitter → Emitter) (s : State) : State :=
  withEmission (fun m => { m with emitters := m.emitters.modify e f }) s

/-- A ledger table of one emitter row with a scale of one and limits of 9 for the emitter and the device. -/
def table1 : List Byte :=
  patch (patch ledgerDefault 64 (le 4 1 ++ le 2 0 ++ zeros 2 ++ le 4 9 ++ le 4 9 ++ le 4 9 ++ le 4 9)) 588 (le 4 9 ++ le 4 9 ++ le 4 9)

/-- `viewed` with this table and slots 0 and 1 loaded with different samples. -/
def loaded : State :=
  withEmitter 0 (fun x => { x with slots := (x.slots.set 0 slot0).set 1 { slot0 with samples := List.replicate 256 3 } })
    (withEmission (fun m => { m with table := table1 }) viewed)

/-- WAVE_LOAD of slot 2 of emitter 0 with samples of 1, and the same with CLEAR. -/
def waveImage : List Byte := fit 16 [0, 2, 0, 5] ++ le 2 0 ++ (List.replicate 254 (le 2 1)).flatten ++ le 2 0
def waveClearImage : List Byte := fit 16 [0, 2, 2]
def transfer (new : Slot) : Transfer := { slot := 2, new := new, persist := false, cmd := { pk waveImage with seq := 5 } }
def waiting (new : Slot) (out : Output) : State := withEmitter 0 (fun x => { x with transfers := [transfer new], out := out }) loaded

theorem witness_SlotWritesWaitForAGap :
    let new := { slot0 with samples := List.replicate 256 1 }
    passes waveLoadInfo (pk waveImage) loaded = true ∧ waveClear waveImage = false ∧
    passes waveLoadInfo (pk waveClearImage) loaded = true ∧ waveClear waveClearImage = true ∧ 0 < loaded.emission.emitters.length ∧
    2 < (loaded.emitter 0).slots.length ∧
    (∀ n ∈ [new, Slot.empty], ((waiting n (.park 0)).emitter 0).transfers.find? (·.slot == 2) = some (transfer n) ∧
      (waiting n (.park 0)).inGap 0 = true ∧ (transfer n).persist = false) ∧
    (waiting new (.slot 0 [] false 0 0 0)).inGap 0 = false ∧ passes waveReadInfo (pk (zeros 16)) loaded = true := by decide +kernel

def fadeImage (n : Byte) : List Byte := fit 16 (le 4 h0 ++ [0, 0, 1, n])
def fade (n i w : Nat) : Fade :=
  { cmd := { pk (fadeImage 3) with seq := 5 }, view := h0, src := 0, dst := 1, n := n, i := i, waitSwap := w }
def fading (n i w : Nat) : State := withEmitter 0 (fun x => { x with fade := some (fade n i w), out := .park 0 }) loaded

theorem witness_FadeEndsWithItsDestination :
    passes waveFadeInfo (pk (fadeImage 64)) loaded = true ∧ u8 (fadeImage 64) 4 < loaded.emission.emitters.length ∧
    ((fading 3 3 0).emitter 0).fade = some (fade 3 3 0) ∧
    (fade 3 3 0).src < ((fading 3 3 0).emitter 0).slots.length ∧ (fade 3 3 0).src ≠ (fade 3 3 0).dst ∧
    (fade 3 3 0).n ≤ (fade 3 3 0).i ∧ (fading 3 3 0).inGap 0 = true ∧ ((fading 3 3 0).slot 0 1).st ≠ .empty ∧
    (fade 3 2 0).i < (fade 3 2 0).n ∧ (fade 3 3 1).waitSwap ≠ 0 := by decide +kernel

/-- EMIT_DIRECT of code 7 on emitter 1 for 100 ticks, and its STOP. -/
def directImage : List Byte := fit 16 ([1, 0] ++ le 2 7 ++ le 4 100)
def directStop : List Byte := patch directImage 1 [2]
def parked : State :=
  withEmission (fun m => { m with table := patch m.table (64 + 32) (slice m.table 64 32) })
    (withEmitter 1 (fun x => { x with out := .park 0 }) loaded)
def direct (t : Nat) : State :=
  withEmitter 1 (fun x => { x with out := .direct 7 false (up.clk.tickCount - t) 100 0 { pk directImage with seq := 5 } }) loaded

theorem witness_DirectPlaysEndAndShortsPark :
    let limited := withEmission (fun m => { m with table := ledgerDefault }) (direct 100)
    passes emitDirectInfo (pk directImage) parked = true ∧ bit (u8 directImage 1) 1 = false ∧ (parked.emitter 1).out.lit = false ∧
    (direct 50).clk.tickCount = up.clk.tickCount ∧
    rowEmits parked.emission.table 1 = true ∧ (parked.emitter 1).faulted = false ∧ 1 < parked.emission.emitters.length ∧
    passes emitDirectInfo (pk directStop) parked = true ∧ passes emitDirectInfo (pk directStop) (direct 50) = true ∧
    bit (u8 directStop 1) 1 = true ∧ up.clk.tickCount - 100 + 100 ≤ (direct 100).clk.tickCount ∧
    (direct 99).clk.tickCount < up.clk.tickCount - 99 + 100 ∧ limited.settleAll.directLimit 1 = some (1, 0) ∧
    (withEmission (fun m => { m with table := patch table1 (64 + 32) (slice table1 64 32) }) (direct 100)).settleAll.directLimit 1 = none ∧
    loaded.emission.emitters.length = 16 ∧ loaded.emission.reservoirs.length = 4 ∧
    passes emitStatusInfo (pk (fit 16 [0x70, 1, 255, 255])) loaded = true ∧ ((direct 50).emitter 1).fade = none := by decide +kernel

theorem witness_DirectPlaysEndAndShortsPark_silent :
    let faulted := withEmitter 1 (fun x => { x with faulted := true }) parked
    let barred := withEmission (fun m => { m with table := patch m.table (64 + 32) (zeros 32) }) parked
    passes emitDirectInfo (pk directImage) faulted = true ∧ (faulted.emitter 1).faulted = true ∧
    passes emitDirectInfo (pk directImage) barred = true ∧ rowEmits barred.emission.table 1 = false ∧
    ((direct 100).emitter 1).fade = none ∧ (direct 100).coreAwake 1 = false ∧
    (awakeIn [.emitterDac 1] (direct 100)).coreAwake 1 = true := by decide +kernel

/-- EMIT_HOLD meets a direct play under way. -/
theorem witness_HostHoldsEmission_lit :
    passes emitHoldInfo (pk (fit 16 [1])) (direct 50) = true ∧ bit (u8 (fit 16 [1]) 0) 0 = true ∧ (direct 50).inhibited = false ∧
    (direct 50).emission.emitters.length = 16 ∧ ((direct 50).emitter 1).out.lit = true := by decide +kernel


def unlocked (f : Unlock → Unlock) (s : State) : State := withEmission (fun m => { m with unlock := f m.unlock }) s
def ledgerPayload (t : List Byte) : List Byte := zeros 16 ++ t

theorem witness_LedgerIsWrittenUnderItsUnlock :
    let opened := unlocked (fun u => { u with openAt := some (up.clk.now - 12799999999) }) viewed
    let wrongOne := pk (fit 32 [1])
    let locked (t : Nat) := unlocked (fun u => { u with lockoutAt := some t }) viewed
    let raised := patch ledgerDefault 3 [225]
    passes unlockInfo (pk (zeros 16)) viewed = true ∧ u8 (zeros 16) 0 = 0 ∧ viewed.executes = true ∧
    wrongOne.payload.length = 32 ∧ zeroAt wrongOne.payload 1 15 = true ∧ wrongOne.unseq = false ∧
    viewed.goodResponse wrongOne.payload = false ∧
    opened.emission.unlock.openAt = some (up.clk.now - 12799999999) ∧ up.clk.now < up.clk.now - 12799999999 + 10 * 1280000000 ∧
    up.clk.now - 12800000000 + 10 * 1280000000 ≤ up.clk.now ∧ (locked 5).emission.unlock.lockoutAt = some 5 ∧
    5 + 60 * 1280000000 ≤ up.clk.now ∧ up.clk.now < up.clk.now - 1 + 60 * 1280000000 ∧
    passes ledgerWriteInfo (pk (ledgerPayload raised)) opened = true ∧
    raises opened.emission.table (fit 608 ((ledgerPayload raised).drop 16)) = true ∧
    (∀ a ∈ opened.health.queue, a.recId = 5 → a.scope ≠ 0x30) ∧ passes parkSetInfo (pk (zeros 16)) up = true ∧
    (∀ a ∈ up.health.queue, a.recId = 6 → a.scope ≠ 0x30) ∧ passes ledgerReadInfo (pk (zeros 16)) viewed = true ∧
    passes ledgerReadInfo (pk (fit 16 [1])) viewed = true := by decide +kernel

/-- A packet that has passed its checks and waits for its turn of acceptance. -/
def turnOf (op : Nat) (p : List Byte) (s : State) : State :=
  let c : Cmd := { pk p with seq := 7 }
  { s with host := { s.host with checked := [{ opcode := op, cmd := c, rejection := none }] } }

/-- A STEP 1 whose response was found wrong at its checks. -/
def refusedStep1 : State :=
  { viewed with host := { viewed.host with
      checked := [{ opcode := 0x0406, cmd := { pk (fit 32 [1]) with seq := 7 }, rejection := some (0x16, 3) }] } }

theorem witness_LedgerIsWrittenUnderItsUnlock_turn :
    let wrong := turnOf 0x0406 (fit 32 [1]) viewed
    let raised := turnOf 0x0407 (ledgerPayload (patch ledgerDefault 3 [225])) viewed
    let same := turnOf 0x0407 (ledgerPayload viewed.emission.table) viewed
    let opened := unlocked (fun u => { u with openAt := some up.clk.now }) raised
    (∀ s ∈ [wrong, raised, same, opened], s.executes = true ∧ s.host.journal.acceptStopped = false ∧ (s.nextChecked 0).isSome = true ∧
      0 < s.host.queues.length ∧ s.host.journal.bankA.inService = true ∧ s.host.journal.bankB.inService = true ∧
      (s.queue 0).held = []) ∧
    (∀ s ∈ [wrong, raised, same, opened], s.host.checked.all (·.rejection == none) = true) ∧
    (refusedStep1.nextChecked 0).map (·.rejection) = some (some (0x16, 3)) ∧ refusedStep1.executes = true ∧
    wrong.goodResponse (fit 32 [1]) = false ∧ raised.unlockOpen = false ∧ opened.unlockOpen = true ∧
    raises raised.emission.table (fit 608 ((ledgerPayload (patch ledgerDefault 3 [225])).drop 16)) = true ∧
    raises same.emission.table (fit 608 ((ledgerPayload viewed.emission.table).drop 16)) = false := by decide +kernel

/-- A packet of STEP 1 with a wrong response. -/
def wrongStep1 : List Byte := wire 0x0406 { pk (fit 32 [1]) with queue := 3, tag := 127 }

theorem witness_LedgerIsWrittenUnderItsUnlock_wrong :
    let c := pkCmd spiVia wrongStep1
    viewed.spiUp = true ∧ viewed.host.spi.rx = none ∧ wrongStep1.length ≤ 4100 ∧ viewed.mayTake .spi wrongStep1 = true ∧
    GoodPacket none spiVia wrongStep1 viewed ∧ InTurn c viewed ∧ Runs (pk (fit 32 [1])) viewed ∧ pkOpcode wrongStep1 = 0x0406 ∧
    u8 c.payload 0 = 1 ∧ c.payload.length = 32 ∧ zeroAt c.payload 1 15 = true ∧ viewed.goodResponse c.payload = false ∧ viewed.liveOf c = none ∧
    ((unlocked (fun u => { u with wrong := 2 }) viewed).emission.unlock.wrong = 2) := by
  refine ⟨?_, ?_, ?_, ?_, by unfold GoodPacket; decide +kernel, by unfold InTurn; decide +kernel, by unfold Runs; decide +kernel, ?_⟩ <;>
    decide +kernel

theorem be4_length (n : Nat) : (be 4 n).length = 4 := by simp [be, le]

theorem response_length (key ch : List Byte) (g : Nat) : (unlockResponse key ch g).length = 16 := by
  simp [unlockResponse, hmacSha256, sha256, ShaQuad.bytes, be4_length]

/-- A device with a key, a drawn challenge, and the response that opens its ledger. -/
def keyed : State :=
  withEmission (fun m => { m with key := some (zeros 32), unlock := { m.unlock with challenge := some (zeros 8, up.clk.now - 12800000000) } }) viewed

theorem unlock_check (p : List Byte) (s : State) (hl : p.length = 32) (hr : s.recoveryOnly = false) (h0 : u8 p 0 = 1)
    (hz : (rsvd p 1 15).1 = false) (hg : s.goodResponse p = true) : unlockInfo.check (pk p) s = .ok := by
  have hc : cmdLen (pk p) = 2 := by simp [cmdLen, pk, hl]
  have hp : (pk p).payload = p := rfl
  have hu : (pk p).unseq = false := rfl
  have ht : (pk p).via.transport = Transport.pcie := rfl
  simp [OpInfo.check, unlockInfo, unlockFields, firstFail, Verdict.andThen, hp, hu, ht, hl, hc, h0, hr, chk, locked3,
    State.unlockBarred, hg, hz]

theorem witness_LedgerIsWrittenUnderItsUnlock_response :
    ∃ p, Accepted unlockInfo (pk p) keyed ∧ u8 p 0 = 1 ∧ keyed.goodResponse p = true := by
  have hl := response_length (zeros 32) (zeros 8) keyed.emission.tableGen
  generalize hr : unlockResponse (zeros 32) (zeros 8) keyed.emission.tableGen = r at hl
  match r, hl with
  | [b0, b1, b2, b3, b4, b5, b6, b7, b8, b9, b10, b11, b12, b13, b14, b15], _ =>
    let r : List Byte := [b0, b1, b2, b3, b4, b5, b6, b7, b8, b9, b10, b11, b12, b13, b14, b15]
    have hs : slice (fit 16 [1] ++ r) 16 16 = r := rfl
    have hg : keyed.goodResponse (fit 16 [1] ++ r) = true := by
      have hk : keyed.emission.key = some (zeros 32) := rfl
      have hc : keyed.emission.unlock.challenge = some (zeros 8, up.clk.now - 12800000000) := rfl
      have ht : keyed.now ≤ up.clk.now - 12800000000 + sec 10 := by decide +kernel
      simp only [State.goodResponse, hk, hc, hr, hs, ht]
      simp [r]
    exact ⟨fit 16 [1] ++ r, ⟨⟨by decide +kernel, rfl, rfl⟩, unlock_check _ _ rfl (by decide +kernel) rfl rfl hg⟩, rfl, hg⟩

theorem witness_BucketEdgeEmptiesTheOldestBucket :
    let s := withEmission (fun m => { m with edges := [up.clk.tickCount / 100, up.clk.tickCount / 1280000, up.clk.tickCount / 128000000] }) viewed
    Dark viewed ∧ Dark s ∧ (∀ w ∈ [1, 2, 3], s.clk.tickCount / bucketTicks w ≤ s.emission.edges.getD (w - 1) 0) ∧
    viewed.emission.edges.getD 0 0 < viewed.clk.tickCount / 100 ∧ viewed.emission.edges.getD 1 0 < viewed.clk.tickCount / 1280000 ∧
    viewed.emission.edges.getD 2 0 < viewed.clk.tickCount / 128000000 :=
  ⟨dark_of_all (by decide +kernel), dark_of_all (by decide +kernel), by decide +kernel⟩
/-! ## Witnesses: enable inputs, reservoirs, bias, channels -/

theorem witness_EnableInputsGateEmission :
    let e (h l d : Option Nat) (k : Nat) : State :=
      let m (m : Emission) : Emission := { m with enEval := true, enHighSince := h, enLowSince := l, enDiffSince := d, speedCount := k }
      { withEmission m viewed with
        sched := { viewed.sched with inhibit := 0x18 } }
    let past (t : Nat) := some (up.clk.now - t)
    (e none none none 0).emission.enEval = true ∧ (e none none none 0).emission.enA = false ∧ viewed.emission.enEval = false ∧ viewed.emission.enAtA = none ∧
    viewed.emission.emitters.length = 16 ∧ viewed.inhibited = false ∧
    (e (past 12800000) none none 0).emission.enHighSince = some (up.clk.now - 12800000) ∧ viewed.emission.enDiscrepancy = false ∧
    (e none none none 0).sched.inhibit.getLsbD 4 = true ∧ (e none none none 0).sched.inhibit.getLsbD 3 = true ∧
    up.clk.now - 12800000 + 10 * 1280000 ≤ up.clk.now ∧ up.clk.now < up.clk.now - 12799999 + 10 * 1280000 ∧
    up.clk.now - 64000000 + 50 * 1280000 ≤ up.clk.now ∧ 64 ≤ (e none none none 64).emission.speedCount ∧
    (e none none none 63).emission.speedCount < 64 := by decide +kernel

def withRes (f : Reservoir → Reservoir) (s : State) : State :=
  withEmission (fun m => { m with reservoirs := m.reservoirs.modify 0 f }) s

/-- RES_CONFIG of reservoir 0 with V_SET 100. -/
def resImage : List Byte := fit 16 ([0, 1] ++ le 2 100)
def resState : State :=
  let t := patch (patch (patch table1 16 (le 2 1)) 24 (le 2 1600)) 32 (le 4 100)
  withRes (fun r => { r with enabled := true, vSet := 100 }) (withEmission (fun m => { m with table := t }) viewed)

theorem witness_ReservoirsStayWithinBudget :
    let high := withRes (fun r => { r with ctl := true, overSince := some (up.clk.now - 12800) }) resState
    let low := withRes (fun r => { r with lowSince := some (up.clk.now - 12800000) }) resState
    passes resConfigInfo (pk resImage) resState = true ∧ passes resConfigInfo (pk (zeros 16)) viewed = true ∧
    0 < resState.emission.reservoirs.length ∧ (high.reservoir 0).overSince = some (up.clk.now - 12800) ∧
    up.clk.now - 12800 + 12800 ≤ up.clk.now ∧ (high.reservoir 0).resOver = false ∧
    (low.reservoir 0).lowSince = some (up.clk.now - 12800000) ∧ (resState.reservoir 0).enabled = true ∧
    90 * ltResDiv resState.emission.table 0 * 64 < 1600 * (resState.reservoir 0).vSet * 63 ∧
    1600 * (resState.reservoir 0).vSet ≤ 100 * ltResDiv resState.emission.table 0 ∧ high.inhibited = false ∧
    high.emission.emitters.length = 16 := by decide +kernel

def withBias (f : Bias → Bias) (s : State) : State := s.onBias f

/-- BIAS_CONFIG that enables with V0 = 30 V, between 20 and 40 V, and one that disables. -/
def biasImage : List Byte :=
  patch (patch biasDefault 0 [5]) 4 (le 2 3000 ++ zeros 4 ++ le 2 2000 ++ le 2 4000 ++ le 2 10000)
def biasOff : List Byte := patch biasImage 0 [0]
def biasCmd : Cmd := { pk biasImage with seq := 5 }

/-- Bias enabled, the target known, and the times as far back as given. -/
def biased (f : Bias → Bias) : State :=
  let g (b : Bias) : Bias := { b with image := biasImage, target := 30000000, targetValid := true }
  withBias (fun b => f { g b with tempAt := some up.clk.now, computeAt := up.clk.now, stepAt := up.clk.now }) viewed

theorem witness_BiasFollowsItsTarget :
    let due (t : Option Nat) := biased fun b => { b with computeAt := up.clk.now - 128000000, tempAt := t }
    let step (k : Nat) := biased fun b => { b with stepAt := up.clk.now - 128000, hvb := k }
    let at50 (t : Nat) (c : Option Cmd) (k : Bool) := biased fun b =>
      { b with unsettled := true, within50At := some (up.clk.now - t), cmd := c, clamped := k }
    let noTemp := biased fun b => { b with tempAt := none, cmd := some biasCmd }
    let bad (t : Nat) := biased fun b => { b with monBadSince := some (up.clk.now - t), cmd := some biasCmd }
    (due none).biasDown = false ∧ (due none).bias.fault = false ∧ (due none).bias.cmd = none ∧ (due none).biasTempOk = false ∧
    (due (some up.clk.now)).biasTempOk = true ∧ (due none).bias.computeAt + 128000000 ≤ up.clk.now ∧
    up.clk.now < (biased id).bias.computeAt + 128000000 ∧
    (step 0).bias.stepAt + 128000 ≤ up.clk.now ∧ (step 0).bias.hvb ≤ (step 0).biasCode ∧
    (step 4000).biasCode ≤ (step 4000).bias.hvb ∧ (step 4000).biasCode ≠ 4000 ∧ (step 0).biasCode ≠ 0 ∧
    (at50 6400000 none false).bias.within50At = some (up.clk.now - 6400000) ∧ up.clk.now - 6400000 + 6400000 ≤ up.clk.now ∧
    up.clk.now < up.clk.now - 6399999 + 6400000 ∧ (at50 6400000 (some biasCmd) true).bias.cmd = some biasCmd ∧
    bcEnable biasImage = true ∧ bcPersist biasImage = false ∧ bcMon biasImage = true ∧ noTemp.bias.tempAt = none ∧
    noTemp.bias.enabledAt + 1280000000 ≤ up.clk.now ∧ (bad 5).bias.monBadSince = some (up.clk.now - 5) ∧
    up.clk.now - 1280000000 + 1280000000 ≤ up.clk.now ∧ passes biasConfigInfo (pk biasImage) viewed = true ∧
    passes biasConfigInfo (pk biasOff) viewed = true ∧ bcEnable biasOff = false ∧ viewed.bias.hvb = 0 ∧
    viewed.bias.cmd = none := by decide +kernel

theorem witness_BiasFollowsItsTarget_store :
    let c := { biasCmd with payload := patch biasImage 0 [7] }
    let s := biased fun b => { b with unsettled := true, within50At := some (up.clk.now - 6400000), cmd := some c }
    let fresh := biased fun b => { b with tempAt := none, enabledAt := up.clk.now }
    let noTemp := biased fun b => { b with tempAt := none, cmd := some biasCmd }
    (∀ x, noTemp.bias.tempAt = some x → x < noTemp.bias.enabledAt) ∧ s.bias.targetValid = true ∧
    bcEnable c.payload = true ∧ bcPersist c.payload = true ∧ s.bias.cmd = some c ∧ s.bias.unsettled = true ∧
    s.bias.within50At = some (up.clk.now - 6400000) ∧ fresh.bias.tempAt = none ∧ fresh.clk.now < fresh.bias.enabledAt + 1280000000 ∧
    (biased fun b => { b with tempAt := none }).bias.cmd = none ∧
    (biased fun b => { b with tempAt := none }).bias.enabledAt + 1280000000 ≤ up.clk.now := by decide +kernel

/-- Channel 0 with this state and front end 200 prepared for it; `named`: the view stays in the active set. -/
def sparing (fe : Option Nat) (named : Bool) : State :=
  let s := onCh (fun c => { c with st := .active, pendingSlot := fe }) laned
  let s := { s with clk := { s.clk with lanes := s.clk.lanes.set (laneOfFe 200) (s.lane 0) } }
  if named then s else { s with sets := { s.sets with active := ConfigSet.empty } }

theorem witness_ChannelTestsAndSpares :
    let silent (n : Nat) := onCh (fun c => { c with st := .active, silentWindows := n }) viewed
    0 < viewed.returns.channels.length ∧ ((silent 65536).channel 0).st = .active ∧ 65536 ≤ ((silent 65536).channel 0).silentWindows ∧
    ((silent 65535).channel 0).silentWindows < 65536 ∧ (viewed.channel 0).st ≠ .active ∧
    passes rxStatusInfo (pk (zeros 16)) viewed = true ∧ passes rxStatusInfo (pk (fit 16 [0, 0, 0xFC])) viewed = true ∧
    ((sparing none true).channel 0).pendingSlot = none ∧ ((sparing (some 200) true).channel 0).pendingSlot = some 200 ∧
    (sparing (some 200) true).laneReady (laneOfFe 200) = true ∧ (sparing (some 200) true).sets.active.namesChannel 0 = true ∧
    (sparing (some 200) true).newCellDue 0 = false ∧ (sparing (some 200) false).sets.active.namesChannel 0 = false := by
  decide +kernel

/-! ## Witnesses: engines, trackers, frames, auxiliary sensing -/

def release0 (n : Nat) : Release :=
  { view := h0, epoch := 0, cell := 0, channel := 0, closeSeq := n, done := false, abandoned := false, stream := some 0, records := [],
    dev := 0, tick := 0, zone := none, ambient := none }

/-- The view with points as its output. -/
def pointView : ViewDef := { view0 with binding := patch binding 15 [0] }

/-- Engine 0 awake and given to the view, with this work, this queue of tile 0 and these releases awaited. -/
def engined (job : Option (Hist × Nat)) (q : List Hist) (r : List Release) : State :=
  let v := { viewed with sets := { viewed.sets with active := { viewed.sets.active with views := [pointView] } } }
  awakeIn [.engine 0, .tileFabric 0] (withFabric (fun f =>
    { f with engines := f.engines.modify 0 fun x => { x with assigned := true, view := h0, job := job }
             tiles := f.tiles.modify 0 fun x => { x with queue := q }
             releases := r }) v)

theorem witness_ChainsReleaseInCloseOrder :
    let run (r : List Release) := engined (some (hist0 0, up.clk.now - 1280)) [] r
    viewed.engineReady 0 = false ∧ (engined none [hist0 0] []).engineReady 0 = true ∧
    ((engined none [hist0 0] []).tile 0).queue.find? (fun x => x.view == h0) = some (hist0 0) ∧
    ((engined none [hist0 0] []).engine 0).assigned = true ∧ ((engined none [hist0 0] []).engine 0).leaving = [] ∧
    0 < viewed.fabric.tiles.length ∧ 0 < viewed.fabric.engines.length ∧ ((engined none [] []).tile 0).queue = [] ∧
    ((run []).engine 0).job = some (hist0 0, up.clk.now - 1280) ∧ ((run []).engine 0).leaving = [] ∧
    (run []).viewIn (hist0 0).epoch (hist0 0).view = some pointView ∧ (release0 0).closeSeq = (hist0 0).closeSeq ∧
    (release0 0).view = (hist0 0).view ∧ (release0 7).closeSeq ≠ (hist0 0).closeSeq ∧ (release0 7).done = false ∧
    (viewed.engine 0).job = none ∧ pointView.role = 0 ∧ pointView.stream < (run []).fabric.streams.length := by decide +kernel

theorem witness_ChainsReleaseInCloseOrder_two :
    let s := engined (some (hist0 0, up.clk.now - 1280)) [] [release0 7, release0 0]
    s.fabric.releases = [release0 7, release0 0] ∧ (release0 7).view = (hist0 0).view ∧ (release0 7).abandoned = false ∧
    (s.engine 0).job = some (hist0 0, up.clk.now - 1280) ∧ (engined none [] []).engineReady 0 = true ∧
    ((engined none [] []).tile 0).queue = [] := by decide +kernel

def onTile0 (f : Rejection → Rejection) (s : State) : State :=
  withFabric (fun b => { b with rejection := b.rejection.modify 0 f }) s

/-- A view whose chain ends with K_FOREIGN and tracks, on the channel of tile 0, and one tracker. -/
def foreignView : ViewDef :=
  newView h0 (patch (fit 16 (binding.take 16)) 15 [1] ++ slice binding 16 8 ++ le 2 1 ++ zeros 6 ++ fit 24 [1] ++ fit 8 [2] ++
    fit 8 [1, 1] ++ fit 8 [7, 1] ++ zeros 16)
def tracking (x : Tracker) : State :=
  { onTile0 (fun r => { r with trackers := r.trackers.set 1 x }) viewed with
    sets := { viewed.sets with active := { viewed.sets.active with views := [foreignView] } } }
def tracker (st : TrackerState) (t : Nat) : Tracker :=
  { Tracker.reset with st := st, period := 81920, gateStart := 64 * (up.clk.tickCount - 33) - 2000 * 81920 - t }
def weather (f : Rejection → Rejection) : State := withFabric (fun b => { b with weatherAt := up.clk.now - 1280000000 }) (onTile0 f viewed)

theorem witness_TrackersAndWeatherKeepTheirGates :
    let p := blockDefault 7
    (tracking (tracker .seeded 0)).governing 0 = some p ∧ 0 < viewed.fabric.rejection.length ∧
    ((tracking (tracker .seeded 0)).rejection 0).trackers[1]? = some (tracker .seeded 0) ∧
    (tracking (tracker .seeded 0)).gateOver 0 p (tracker .seeded 0) = true ∧ (tracker .seeded 0).pairs.length < u16 p 36 ∧
    (tracking (tracker .locked 0)).gateOver 0 p (tracker .locked 0) = true ∧ (tracker .locked 0).missed + 1 < u8 p 22 ∧
    viewed.gateOver 0 p Tracker.reset = false ∧ (tracking (tracker .locked 0)).gateOver 0 p
      { tracker .locked 0 with gateStart := (tracker .locked 0).gateStart + 1 } = false ∧ ((tracking (tracker .locked 0)).rejection 0).tapWait = [] ∧ viewed.fabric.rejection.length = 8 ∧
    (weather id).fabric.weatherAt + 1280000000 ≤ up.clk.now ∧ up.clk.now < up.clk.now - 1279999999 + 1280000000 ∧
    128 ≤ share256 ((weather fun r => { r with histograms := 2, fogHistograms := 1 }).rejection 0).fogHistograms 2 ∧
    share256 0 0 < u16 (viewed.rainBlock 0) 14 ∧ (viewed.rejection 0).weather = 0 := by decide +kernel

def linked (a b : Bool) (s : State) : State :=
  { s with net := { s.net with ports := s.net.ports.zipIdx.map fun x =>
                      { x.1 with link := if (x.2 == 0 && a) || (x.2 == 1 && b) then .up else .down } } }
def settings (sel : Byte) : List Byte := patch (patch (streamDefault 0) 1 [1 + 4 * sel]) 10 [2, 2, 2, 2, 2, 2]
def frame0 (t : Nat) : OpenFrame :=
  { records := [zeros 16, zeros 16], refTime := 0, refTick := 0, flags := 0, speed := 0, galvoPos := 0, placedAt := up.clk.now - t, epoch := 0,
    settings := settings 0, running := 0 }
def framed (t : Nat) : State :=
  withFabric (fun f => { f with streams := f.streams.modify 0 fun x => { x with frame := some (frame0 t), frameSeq := 41, recordSeq := 7 } })
    viewed
def eframe (n : Nat) (set : List Byte) : EgressFrame :=
  { stream := 0, seq := n, bytes := zeros 16, settings := set, waitA := true, waitB := true, onA := false, onB := false, prp := none,
    sent := false }
def txframe (k : TxKind) : TxFrame :=
  { kind := k, both := false, prp := none, waitA := true, waitB := false, bytes := zeros 60, dest := zeros 6,
    src := zeros 6, hop := none, event := none }
def sending (tx : List TxFrame) (e : List EgressFrame) : State :=
  let s := withFabric (fun f => { f with egress := e }) (linked true true (awakeIn [.network] viewed))
  { s with net := { s.net with tx := tx } }

theorem witness_FramesLeaveInPriority :
    let wired := sending [] [{ eframe 0 (settings 0) with onA := true, waitA := false }]
    0 < viewed.fabric.streams.length ∧ ((framed 128000).stream 0).frame = some (frame0 128000) ∧ up.clk.now - 128000 + 128000 ≤ up.clk.now ∧
    up.clk.now < (frame0 127999).placedAt + 128000 ∧ scPortA (settings 0) = true ∧ (linked true true (framed 128000)).linkUp 0 = true ∧
    (framed 128000).linkUp 0 = false ∧ (framed 128000).linkUp 1 = false ∧ (sending [] []).host.waiting = [] ∧
    viewed.netPowered = false ∧ (sending [] []).netPowered = true ∧ (sending [] []).linkUp 0 = true ∧
    (wired.fabric.egress.any (·.onWire 0)) = true ∧ ((sending [] [eframe 0 (settings 0)]).fabric.egress.any (·.onWire 0)) = false ∧
    (sending [txframe .supervision, txframe .ptp] []).net.tx.any (·.waits 0) = true ∧
    (sending [] [eframe 0 (settings 0)]).fabric.egress.find? (·.waits 0) = some (eframe 0 (settings 0)) ∧
    (sending [] []).resolved (settings 0) = true ∧ (sending [] []).resolved (streamDefault 0) = false := by decide +kernel

def withAux (f : Aux → Aux) (s : State) : State := { s with aux := f s.aux }
def auxImage (ty : Byte) : List Byte := patch (auxMeasDefault 0) 1 ([ty] ++ [0, 0, 1, 2, 3, 4, 5, 6])

/-- The sequencer at measurement 0 of this type, `t` ticks into its turn. -/
def turned (ty : Byte) (t : Nat) : State :=
  awakeIn [.aux] (withAux (fun a => { a with loaded := true, turn := some 0, turnAt := up.clk.now - t, cal := [],
                                             meas := a.meas.modify 0 fun m => { m with image := auxImage ty } }) viewed)
def calibrating (t : Nat) (code : Option Int) : State :=
  withAux (fun a => { a with cal := [2, 5], turnAt := up.clk.now - t, calRun := none,
                             offsets := a.offsets.modify 2 fun o => { o with code := code } }) (turned 1 0)
def shocked (blind : Nat) (last : Nat) (n : Nat) (peak : Int) : State :=
  withAux (fun a => { a with loaded := true, piezo := { a.piezo with blindUntil := blind, lastReset := last, resetTotal := n, peak := peak,
                                                                     output := peak, startReset := n == 0 } }) (turned 6 0)

theorem witness_AuxMeasuresInTurn :
    let t := us 100 + 2 * us 100000
    (turned 1 0).aux.turn = some 0 ∧ (turned 1 0).awake .aux = true ∧ (turned 1 0).aux.cal = [] ∧ 0 < (turned 1 0).aux.meas.length ∧
    ((turned 1 0).meas 0).pending = none ∧ (turned 1 0).turnOver (auxImage 1) = false ∧ (turned 1 t).turnOver (auxImage 1) = true ∧
    amType (auxImage 1) ≠ 6 ∧ amType (auxImage 6) = 6 ∧ (turned 6 t).turnOver ((turned 6 t).meas 0).image = true ∧
    viewed.aux.turn = none ∧ (calibrating (us 100000) none).aux.cal.head? = some 2 ∧ 2 < viewed.aux.offsets.length ∧
    (calibrating (us 100000) none).aux.turnAt + convTime ((calibrating (us 100000) none).calRate 2) ≤ up.clk.now ∧
    (calibrating (us 100000) none).aux.calRun = none ∧ (turned 1 0).aux.cal.head? ≠ some 2 ∧
    up.aux.heatAt + 12800000 ≤ up.clk.now ∧ viewed.piezoMeas = none ∧ (turned 6 0).piezoMeas = some 0 ∧
    (shocked 0 0 1 0).aux.piezo.blindUntil ≤ up.clk.now ∧ amShock (auxImage 6) ≤ (50000 : Int).natAbs ∧ (49999 : Int).natAbs < amShock (auxImage 6) ∧
    (shocked 0 0 1 0).aux.piezo.lastReset + 1280000 * amReset (auxImage 6) ≤ up.clk.now ∧
    9 * chargeScale (auxImage 6) < 10 * (shocked 0 up.clk.now 1 90001).aux.piezo.output.natAbs ∧
    (shocked 0 up.clk.now 1 90000).aux.piezo.startReset = false ∧ (shocked 0 up.clk.now 0 0).aux.piezo.startReset = true ∧
    (shocked 0 0 1 0).aux.loaded = true ∧ up.clk.now < (shocked (up.clk.now + 1) 0 1 0).aux.piezo.blindUntil ∧
    (shocked (up.clk.now + 256000) 0 1 0).aux.piezo.blindUntil ≤ up.clk.now + 256000 ∧
    up.clk.now + 256000 < (shocked (up.clk.now + 256001) 0 1 0).aux.piezo.blindUntil := by decide +kernel

/-- The last calibration stands before measurement 0, whose settings wait or not. -/
theorem witness_AuxMeasuresInTurn_lastCal :
    let s := withAux (fun a => { a with cal := [2] }) (calibrating (us 100000) none)
    let w := { s with aux := { s.aux with meas := s.aux.meas.modify 0 fun m => { m with pending := some (auxImage 1) } } }
    s.aux.cal.length = 1 ∧ s.aux.turn = some 0 ∧ (s.meas 0).pending = none ∧ amType (s.meas 0).image ≠ 0 ∧
    (w.meas 0).pending = some (auxImage 1) ∧ amType (auxImage 1) ≠ 0 ∧
    1 < ({ s.aux with cal := s.aux.cal ++ [3] } : Aux).cal.length := by decide +kernel

theorem witness_AuxMeasuresInTurn_format :
    let t := us 100 + 2 * us 100000
    let s := turned 1 t
    let off := (s.auxOffset (amGain (auxImage 1))).code.getD 0
    primaryFits (auxImage 1) (primaryOf (auxImage 1) (5 - off) (6 - off)) = true ∧
    (turned 6 t).turnOver (auxImage 6) = true ∧ primaryFits (auxImage 6) 2147483647 = true ∧
    peakCode (auxImage 6) 0 7 = 7 ∧ peakCode (auxImage 6) 90000 7 = chargeCode (auxImage 6) 90000 ∧
    primaryFits (auxImage 6) 2147483648 = false := by decide +kernel

def auxSwitched : List Byte := zeros 16
def auxCalNow : List Byte := fit 16 [1]

theorem witness_AuxCommandsTakeEffect :
    passes auxMeasConfigInfo (pk (auxMeasDefault 0)) (turned 1 0) = true ∧ (turned 1 0).aux.turn.isSome = true ∧
    passes auxMeasConfigInfo (pk (patch (auxMeasDefault 0) 15 [1])) (turned 1 0) = true ∧
    passes auxSwitchConfigInfo (pk (zeros 16)) viewed = true ∧ passes auxSwitchConfigInfo (pk (patch (zeros 16) 12 [1])) viewed = true ∧
    passes auxCalInfo (pk (zeros 16)) (turned 1 0) = true ∧ passes auxCalInfo (pk (fit 16 [1])) (turned 1 0) = true ∧
    (turned 1 0).aux.calRun = none ∧ (turned 1 0).gainsInUse ≠ [] ∧ passes bezelConfigInfo (pk bezelDefault) viewed = true ∧
    passes bezelConfigInfo (pk (patch bezelDefault 0 [2])) viewed = true ∧ passes bezelLearnInfo (pk (fit 16 [4])) viewed = true ∧
    viewed.aux.learn = none ∧ passes auxReadInfo (pk []) viewed = true ∧ passes auxStatusInfo (pk (fit 16 [0x43])) viewed = true := by
  decide +kernel
/-! ## Witnesses: links, network settings, memories -/

/-- NET_CONFIG with this MAC address, IPv6 on, an IPv6 address, PHY roles and profile as given. -/
def netImage (v6 : Byte) (addr : List Byte) (phy : Byte) : List Byte :=
  [2, 0, 0, 0, 0, 1, v6, 24] ++ zeros 8 ++ fit 16 addr ++ [64, 1, 0, phy, 64, 0, 0, 0] ++ le 2 8000 ++ le 2 8000 ++ zeros 20

def withNet (f : Net → Net) (s : State) : State := { s with net := f s.net }
def networked : State :=
  withNet (fun n => { n with config := netImage 0 [] 0, lastSupervision := up.clk.now - 2560000000 }) (linked true false (awakeIn [.network] viewed))
def addrOf (n : Byte) : List Byte := fit 16 [10, 0, 0, n]
def neighbour0 (t : Nat) : Neighbour := { addr := addrOf 1, mac := some [2, 0, 0, 0, 0, 9], refreshed := up.clk.now - t }
def reasm0 (t : Nat) : Reasm := { src := 5, ident := 6, since := up.clk.now - t, parts := [], total := none }
def netFrame (k : FrameKind) (ok : Bool) : NetFrame :=
  { dst := [2, 0, 0, 0, 0, 7], src := [2, 0, 0, 0, 0, 9], vlan := none, rct := none, fcsOk := ok, kind := k }

theorem witness_LinksCountAndRecover :
    let busy := withNet (fun n => { n with tx := [txframe .ptp], neighbours := [neighbour0 76800000000], reasm := [reasm0 64000000] })
      (withFabric (fun f => { f with egress := [eframe 0 (settings 0)] }) networked)
    1 < networked.net.ports.length ∧ networked.linkUp 0 = true ∧ networked.linkUp 1 = false ∧ networked.net.wait = none ∧
    networked.netPowered = true ∧ networked.net.lastSupervision + 2560000000 ≤ up.clk.now ∧
    up.clk.now < up.clk.now - 2559999999 + 2560000000 ∧ busy.neighbour (addr16 [10, 0, 0, 1]) = some (neighbour0 76800000000) ∧
    (neighbour0 76800000000).refreshed + 76800000000 ≤ up.clk.now ∧ up.clk.now < (neighbour0 76799999999).refreshed + 76800000000 ∧
    busy.net.reasm[0]? = some (reasm0 64000000) ∧ (reasm0 64000000).since + 64000000 ≤ up.clk.now ∧
    up.clk.now < (reasm0 63999999).since + 64000000 ∧ (netFrame .other false).fcsOk = false ∧
    networked.accepts (netFrame .other true) = false := by decide +kernel

def trainWait (t : Nat) (dad : Bool) : NetWait :=
  { cmd := { pk (netImage 0 [] 1) with seq := 5 }, train := [true, false], since := up.clk.now - t, dad := dad, v6 := false,
    answered := false, newImage := netImage 0 [] 1 }
def waitingNet (w : Option NetWait) (dad : Bool) : State := withNet (fun n => { n with wait := w, dad := dad }) networked

theorem witness_NetworkSettingsFollowTheirReply :
    let plain := netImage 8 [] 0
    let v6 := netImage 2 [0xFE, 0x80, 1] 0
    passes netConfigInfo (pk plain) networked = true ∧ ncPhy networked.net.config = ncPhy plain ∧
    newV6 networked.net.config plain = false ∧ bit (u8 plain 6) 2 = false ∧ ncProfile networked.net.config = ncProfile plain ∧
    ncDomain networked.net.config = ncDomain plain ∧ passes netConfigInfo (pk v6) networked = true ∧
    newV6 networked.net.config v6 = true ∧ networked.net.config.length = 64 ∧
    (waitingNet (some (trainWait 640000000 false)) false).net.wait = some (trainWait 640000000 false) ∧
    (trainWait 640000000 false).train.getD 0 false = true ∧ (trainWait 640000000 false).since + 640000000 ≤ up.clk.now ∧
    up.clk.now < (trainWait 639999999 false).since + 640000000 ∧ (waitingNet none true).net.dad = true ∧
    (waitingNet none true).net.wait = none ∧ (waitingNet (some (trainWait 5 true)) true).net.wait = some (trainWait 5 true) ∧
    (trainWait 5 true).dad = true ∧ networked.net.dad = false ∧ passes trdpConfigInfo (pk trdpDefault) networked = true ∧
    bit (u8 trdpDefault 0) 3 = false ∧ passes netStatusInfo (pk (fit 16 [0, 0, 0x7F])) networked = true ∧
    0 < networked.net.ports.length ∧ passes streamStatusInfo (pk (fit 16 [31])) networked = true := by decide +kernel

theorem witness_NetworkSettingsFollowTheirReply_taken :
    let c : Cmd := { pk (netImage 2 [0xFE, 0x80, 1] 0) with seq := 5, via := { (pk []).via with transport := .spi } }
    let r (final : Bool) := mkReply 0x0801 c final (viewed.block 0 0 0) []
    let w := { trainWait 5 false with cmd := c, answered := true }
    let s (final : Bool) := (waitingNet (some w) false).onHost fun h => { h with waiting := [r final] }
    (s true).spiUp = true ∧ (s true).spiReply = some (r true) ∧ (s true).net.wait = some w ∧ w.answeredBy (r true) = true ∧
    (s false).spiReply = some (r false) ∧ w.answeredBy (r false) = false := by decide +kernel

/-- R367. A datagram that came in two fragments is read whole, whichever comes first. -/
theorem test_reassembly :
    let s := networked.addFragment 7 6 4 true [5, 6]
    s.net.reasm.length = 1 ∧ (s.addFragment 7 6 0 false [1, 2, 3, 4]).net.reasm = [] ∧
    (s.withFragment 7 6 0 false [1, 2, 3, 4]).bind Reasm.whole = some [1, 2, 3, 4, 5, 6] ∧
    (s.withFragment 7 6 0 false [1, 2, 3]).bind Reasm.whole = none := by decide +kernel


theorem witness_LinksCountAndRecover_frames :
    let mine (k : FrameKind) : NetFrame := { netFrame k true with dst := ncMac networked.net.config }
    let tagged : NetFrame := { mine .other with rct := some (7, 10) }
    let taken (lan : Bool) := withNet (fun n => { n with
      drops := [{ src := tagged.src, seq := 7, lanA := lan, at_ := up.clk.now - 5 }] }) networked
    let known := withNet (fun n => { n with neighbours := [neighbour0 5] }) networked
    let v4 := withNet (fun n => { n with config := patch n.config 6 [9] }) networked
    let w := { trainWait 5 false with cmd := { pk (netImage 0 [] 1) with seq := 5 } }
    let training := withNet (fun n => { n with wait := some w }) (linked false false (awakeIn [.network] viewed))
    (∀ k ∈ [FrameKind.other, .arpRequest [10, 0, 0, 1] [0, 0, 0, 0], .arpReply [10, 0, 0, 1] [2, 0, 0, 0, 0, 3],
            .neighbourAdvert [10, 0, 0, 1] [2, 0, 0, 0, 0, 3], .echoRequest false [10, 0, 0, 1] []],
      networked.accepts (mine k) = true ∧ known.accepts (mine k) = true ∧ v4.accepts (mine k) = true ∧ (mine k).kind ≠ .pause ∧
      (mine k).fcsOk = true ∧ networked.prpDuplicate 0 (mine k) = false) ∧
    networked.accepts tagged = true ∧ (taken false).prpDuplicate 0 tagged = true ∧ (taken true).prpDuplicate 0 tagged = false ∧
    known.neighbour (addr16 [10, 0, 0, 1]) = some (neighbour0 5) ∧ ncV4 v4.net.config = true ∧ ncIcmp v4.net.config = true ∧
    slice [0, 0, 0, 0] 0 4 = ncAddr4 v4.net.config ∧ v4.net.echoes = [] ∧
    training.linkUp 0 = false ∧ training.net.wait = some w ∧ w.train = [true, false] ∧ w.dad = false ∧
    bit (u8 w.newImage 6) 2 = false := by decide +kernel

def withIntegrity (f : Integrity → Integrity) (s : State) : State := { s with integrity := f s.integrity }
/-- A CHECK_UNIT that has unit 20 scan 32 bytes of the firing-table memory. -/
def unitImage : List Byte :=
  fit 16 [20, 1] ++ [20, 2, 2, 0, 3, 0, 0, 0] ++ le 8 0xFFFFFFFF ++ le 4 16 ++ le 4 32 ++ zeros 8
def scanning : State :=
  withIntegrity (fun i => { i with units := i.units.modify 20 fun x => { x with mode := 2, alg := 2, running := 0xFFFFFFFF, length := 16 } })
    viewed
def bankOut (t n : Nat) (gone keeper other : Bool) : State :=
  { viewed with host := { viewed.host with journal := { viewed.host.journal with
      bankA := { inService := false, failedTries := n, outAt := up.clk.now - t, keeperFault := keeper, gaveUp := gone, bad := [], frozen := none }
      bankB := { viewed.host.journal.bankB with inService := other } } } }

def recopying (good : Bool) : State :=
  { bankOut 1280000000 0 false false good with health := { viewed.health with running := [{ Activity.recopy 0 with start := some 5 }] } }

theorem witness_MemoriesAreCheckedAndCounted_recopy :
    ((bankOut 1280000000 0 false false true).underway 0x06 2 = false) ∧ (bankOut 1280000000 0 false false true).arbiterFull 0 = false ∧
    (∃ a ∈ (recopying true).health.running, a.code = 0x06 ∧ a.target = 2 + 0) ∧ ((recopying false).bank 1).inService = false ∧
    viewed.histWordHeld 0 0 = false ∧
    (onCh (fun c => { c with acc := [(hist0 1).count view0 63 15] }) laned).histWordHeld 0 7 = true := by decide +kernel

theorem witness_MemoriesAreCheckedAndCounted :
    20 < scanning.integrity.units.length ∧ (scanning.unit 20).mode = 2 ∧ (scanning.unit 20).length = (zeros 16).length ∧
    5 < (scanning.unit 20).length ∧ regionCount 3 ≤ 18 ∧ regionWords 3 0 ≤ 2048 ∧ 17 < regionCount 3 ∧ 2047 + 1 = regionWords 3 17 ∧
    2046 < regionWords 3 17 ∧ ((bankOut 1280000000 0 false false true).bank 0).inService = false ∧
    ((bankOut 1280000000 0 false false true).bank 0).outAt + 1280000000 * (0 + 1) ≤ up.clk.now ∧
    up.clk.now < ((bankOut 1279999999 0 false false true).bank 0).outAt + 1280000000 * (0 + 1) ∧
    ((bankOut 1280000000 0 false false true).bank 1).inService = true ∧ ((bankOut 1280000000 0 true false true).bank 0).gaveUp = true ∧
    ((bankOut 1280000000 0 false true true).bank 0).keeperFault = true ∧ passes memoryStatusInfo (pk (fit 16 [3, 0, 17])) viewed = true ∧
    passes memoryStatusInfo (pk (fit 16 [3, 0, 17, 0, 1])) viewed = true ∧ passes checkUnitInfo (pk (fit 16 [7])) viewed = true ∧
    unitWrites (fit 16 [7]) = false ∧ passes checkUnitInfo (pk unitImage) viewed = true ∧ unitWrites unitImage = true ∧
    u8 unitImage 0 < viewed.integrity.units.length := by decide +kernel
/-! ## Witnesses: stores, power fail, starts -/

def withPower (f : Power → Power) (s : State) : State := { s with power := f s.power }
def withHealth (f : Health → Health) (s : State) : State := { s with health := f s.health }
def withNvm (f : Nvm → Nvm) (s : State) : State := { s with nvm := f s.nvm }

/-- A store of record 0x20 under way for these commands. -/
def storing (target format : Nat) (d : List Byte) (cs : List (Nat × Cmd)) : Activity :=
  { code := 0x07, scope := scopeNvm, target := target, row := 9, recId := 0x20, format := format, data := some d, cmds := cs,
    retest := false, start := some 5 }
def storeRuns (a : Activity) (b0 b1 : Bool) : State :=
  withHealth (fun h => { h with running := [a] }) (withNvm (fun n => { n with bank0 := b0, bank1 := b1 }) viewed)
def eraseCmd : Cmd := { pk (fit 16 [0x20]) with seq := 5 }

/-- NVM_STAGE of 16 bytes of record 0x26, the staged bytes of 384, and NVM_COMMITs of them. -/
def stageImage : List Byte := fit 16 (le 2 0x26) ++ List.replicate 16 7
def staged : State := withNvm (fun n => { n with stageId := some 0x26, stageTop := 384, stage := zeros 384 }) viewed
def commitImage (crc : Nat) : List Byte := le 2 0x26 ++ zeros 2 ++ le 4 384 ++ le 8 crc ++ zeros 16
def keyImage : List Byte := zeros 16 ++ List.replicate 32 7
def keyed3 : State :=
  let k : NvmCopy := { recId := 3, format := 1, generation := 1, jix := 0, storeTime := 0, data := List.replicate 32 7, checkOk := true }
  withEmission (fun m => { m with unlock := { m.unlock with openAt := some up.clk.now } })
    (withNvm (fun n => { n with records := n.records.map fun r => if r.id = 3 then { r with inUse := some k } else r }) viewed)

theorem witness_StoresKeepTheirRecords :
    let run := storeRuns (storing 0 1 (zeros 16) []) true true
    let erase := storeRuns (storing 0 0xFFFF [] [(0x0B05, eraseCmd)]) true true
    let copy := storeRuns (storing 1 1 (zeros 16) []) true true
    viewed.nvmRunning = none ∧ run.nvmRunning = some (storing 0 1 (zeros 16) []) ∧ run.bankUp 0 = true ∧ run.bankUp 1 = true ∧
    run.nvm.records.any (·.id == 0x20) = true ∧ erase.nvmRunning = some (storing 0 0xFFFF [] [(0x0B05, eraseCmd)]) ∧
    erase.nvm.waits = [] ∧ copy.nvmRunning = some (storing 1 1 (zeros 16) []) ∧ passes nvmInfoInfo (pk []) viewed = true ∧
    passes nvmReadInfo (pk (fit 16 [0x20, 0, 0, 0, 0, 0, 0, 0, 16])) viewed = true ∧
    passes nvmReadInfo (pk (fit 16 [0x20, 0, 2, 0, 0, 0, 0, 0, 16])) viewed = true ∧ passes nvmStageInfo (pk stageImage) viewed = true ∧
    passes nvmCommitInfo (pk (commitImage 5)) viewed = true ∧ guarded 0x26 = false ∧ viewed.stageMatches (commitImage 5) = false ∧
    passes nvmEraseInfo (pk (fit 16 [0x20])) viewed = true ∧ passes keyProvisionInfo (pk keyImage) viewed = true ∧
    viewed.recordPresent 3 = false ∧ passes keyProvisionInfo (pk keyImage) keyed3 = true ∧ keyed3.recordPresent 3 = true := by
  decide +kernel

/-- The record that a store has put into the first bank. -/
def half20 : NvmCopy := { recId := 0x20, format := 1, generation := 1, jix := 0, storeTime := 0, data := zeros 16, checkOk := true }

theorem witness_StoresKeepTheirRecords_mirror :
    let a := storing 2 1 (zeros 16) []
    let s := withNvm (fun n => { n with records := n.records.map fun r => if r.id = 0x20 then { r with inUse := some half20 } else r })
      (storeRuns a true true)
    s.nvmRunning = some a ∧ (s.record a.recId).inUse = some half20 ∧ half20.recId = a.recId ∧ s.bankUp 0 = true ∧ s.bankUp 1 = true ∧
    (∃ r ∈ s.nvm.records, r.id = a.recId) := by
  refine ⟨?_, ?_, ?_, ?_, ?_, ?_⟩ <;> decide +kernel

theorem witness_StoresKeepTheirRecords_waits :
    let c : Cmd := { pk (patch (auxMeasDefault 0) 15 [1]) with seq := 5 }
    let w : StoreWait := { cmd := c, block := viewed.block 0 0 0 }
    let a := storing 0 1 (zeros 16) [(0x0901, c)]
    let s := withNvm (fun n => { n with waits := [w] }) (storeRuns a true true)
    s.nvmRunning = some a ∧ a.target ≠ 1 ∧ a.cmds = [(0x0901, c)] ∧ a.recId ≠ 5 ∧ s.bankUp 0 = true ∧ s.bankUp 1 = true ∧
    s.nvm.waits.find? (·.cmd == c) = some w ∧ (∃ r ∈ s.nvm.records, r.id = a.recId) ∧
    (∀ id ∈ [0x20, 4], (storeRuns { a with recId := id, cmds := [] } true true).nvmRunning =
      some { a with recId := id, cmds := [] }) := by
  refine ⟨?_, ?_, ?_, ?_, ?_, ?_, ?_, ?_, ?_⟩ <;> decide +kernel

theorem u64_commitImage (n : Nat) (h : n < 2 ^ 64) : u64 (commitImage n) 8 = n := by
  have e0 : u8 (commitImage n) 8 = n % 256 := rfl
  have e1 : u8 (commitImage n) 9 = n / 256 % 256 := rfl
  have e2 : u8 (commitImage n) 10 = n / 256 / 256 % 256 := rfl
  have e3 : u8 (commitImage n) 11 = n / 256 / 256 / 256 % 256 := rfl
  have e4 : u8 (commitImage n) 12 = n / 256 / 256 / 256 / 256 % 256 := rfl
  have e5 : u8 (commitImage n) 13 = n / 256 / 256 / 256 / 256 / 256 % 256 := rfl
  have e6 : u8 (commitImage n) 14 = n / 256 / 256 / 256 / 256 / 256 / 256 % 256 := rfl
  have e7 : u8 (commitImage n) 15 = n / 256 / 256 / 256 / 256 / 256 / 256 / 256 % 256 := rfl
  simp only [u64, u32, u16, e0, e1, e2, e3, e4, e5, e6, e7]
  omega

theorem witness_StoresKeepTheirRecords_match :
    ∃ p, passes nvmCommitInfo (pk p) staged = true ∧ guarded (u16 p 0) = false ∧ staged.stageMatches p = true := by
  have hn : crc64 (zeros 384) < 2 ^ 64 := BitVec.isLt _
  have h := u64_commitImage _ hn
  refine ⟨commitImage (crc64 (zeros 384)), by decide +kernel, by decide +kernel, ?_⟩
  have h1 : (staged.nvm.stageId == some (u16 (commitImage (crc64 (zeros 384))) 0)) = true := by decide +kernel
  have h2 : (staged.nvm.stageTop == 16 * ceilDiv (u32 (commitImage (crc64 (zeros 384))) 4) 16) = true := by decide +kernel
  have h3 : fit (u32 (commitImage (crc64 (zeros 384))) 4) staged.nvm.stage = zeros 384 := by decide +kernel
  rw [State.stageMatches, h1, h2, h, h3, beq_self_eq_true]
  rfl

def flushImage (g : Nat) : FlushImage :=
  { generation := g, consumed := false, inService := true, bad := [], blocks := List.replicate 8 true, header := true, queues := [], live := [], jixNext := 0, claspGen := [], claspPtr := 0, startId := 0 }
def flushing (b0 b1 : Bool) : State :=
  withNvm (fun n => { n with bank0 := b0, bank1 := b1, flush0 := [flushImage 4, flushImage 3], flush1 := [flushImage 4] })
    { viewed with host := { viewed.host with journal := { viewed.host.journal with flushing := true, imageRestored := true } } }

theorem witness_FlushKeepsTheNewestImage :
    viewed.power.running = true ∧ viewed.power.halted = false ∧ viewed.power.pfail = false ∧ viewed.power.phase ≠ .pavane ∧
    State.reset.power.running = false ∧ viewed.host.journal.imageRestored = false ∧ viewed.host.journal.flushing = false ∧
    (flushing true true).host.journal.flushing = true ∧ (flushing false true).nvm.bank0 = false := by decide +kernel

def cold (test rom xtal : Bool) : ColdStart :=
  { factoryTest := test, romOk := rom, crystalOk := xtal, standbyOk := true, faultRows := [], badSramRows := [], badEngines := [],
    badCores := [], badFes := [], paceFull := List.replicate 8 300, lanes := [], filterOk := true }
def pavane (c : PavaneCause) (t : Nat) : State :=
  withPower (fun p => { p with phase := .pavane, pavaneCause := c, pavaneAt := up.clk.now - t }) viewed
def warming : State := withPower (fun p => { p with resetWarm := some { pk (zeros 16) with seq := 5 } }) viewed
def downCmd (mode : Byte) : Cmd := pk (fit 16 ([mode, 0, 0, 0] ++ le 4 0x4E574F44))
def runningNop : Live := entryOf 0x0100 { pk [] with seq := 77 } .executing none

theorem witness_StartsAndPowerDown :
    (cold true true true).factoryTest = true ∧ (cold false false true).romOk = false ∧ (cold false true true).factoryTest = false ∧
    (cold false true true).romOk = true ∧ (cold false true false).crystalOk = false ∧ (pavane .pfail 12800000).power.phase = .pavane ∧
    (pavane .pfail 12800000).power.pavaneCause = .pfail ∧ (pavane .pfail 12800000).host.journal.flushing = false ∧
    (pavane .pfail 12800000).power.pavaneAt + 12800000 ≤ up.clk.now ∧ up.clk.now < (pavane .pfail 12799999).power.pavaneAt + 12800000 ∧
    viewed.power.resetWarm = none ∧ warming.executes = true ∧ warming.power.resetWarm = some { pk (zeros 16) with seq := 5 } ∧
    warming.power.phase ≠ .pavane ∧ State.reset.power.running = false ∧ viewed.power.running = true ∧ viewed.power.halted = false ∧
    passes powerDownInfo (downCmd 0) viewed = true ∧ passes powerDownInfo (downCmd 1) viewed = true ∧ viewed.power.powerDown = [] ∧
    viewed.earlierDone (downCmd 0) = true ∧ (pavane .supervisor 12800000).power.pfail = false ∧
    (pavane .supervisor 12800000).power.poweredDown = false ∧ (pavane .supervisor 12800000).bias.hvb = 0 ∧
    (withBias (fun b => { b with hvb := 7 }) (pavane .supervisor 12800000)).bias.hvb ≠ 0 ∧ viewed.emission.emitters.length = 16 := by
  decide +kernel

/-- A warm start `t` ticks after it began. -/
def warmAt (st : WarmStep) (t : Nat) (ok : Bool) : State :=
  withPower (fun p => { p with phase := .warm, resetWarm := some { pk (zeros 16) with seq := 5 },
                               warm := some { since := up.clk.now - t, step := st, imageOk := ok, bad := [], odd := [],
                                              recovery := false } })
    (withLive (entryOf 0x0100 (pk []) .done (some nopReply)) viewed)

theorem witness_StartsAndPowerDown_warm :
    (∀ ok ∈ [true, false], (warmAt .restart 7680000 ok).power.phase = .warm ∧ (warmAt .restart 7680000 ok).power.running = true ∧
      (warmAt .restart 7680000 ok).power.warm = some { since := up.clk.now - 7680000, step := .restart, imageOk := ok, bad := [], odd := [], recovery := false } ∧
      up.clk.now - 7680000 + 7680000 ≤ (warmAt .restart 7680000 ok).clk.now) ∧
    (warmAt .restart 7679999 true).clk.now < up.clk.now - 7679999 + 7680000 ∧
    (warmAt .restart 7680000 true).power.takeover = false ∧
    (∀ l ∈ (warmAt .restart 7680000 true).host.journal.live, l.state = .done ∧ l.reply = some nopReply ∧
      (warmAt .restart 7680000 true).readCopies [] [] l = some (.done, false)) ∧
    (warmAt .lanes 12544000 true).power.resetWarm = some { pk (zeros 16) with seq := 5 } ∧
    up.clk.now - 12544000 + 12544000 ≤ (warmAt .lanes 12544000 true).clk.now := by decide +kernel

theorem witness_StartsAndPowerDown_waits :
    let c := { downCmd 1 with seq := 78 }
    let s : State := { viewed with host := { viewed.host with journal := { viewed.host.journal with
                        live := [runningNop, { entryOf 0x0B07 c .accepted none with jix := 2 }] } } }
    passes powerDownInfo c s = true ∧ (∀ l ∈ s.host.journal.live, l.isOf c = true → s.jixOf c ≤ l.jix) ∧ s.earlierDone c = false := by
  decide +kernel
/-! ## Witnesses: health, maintenance, the whole machine -/

def clearTile : List Byte := fit 16 [0, 0, 0x3F]
def publishing : State :=
  withNet (fun n => { n with trdp := patch (patch trdpDefault 0 [4]) 28 [239, 1, 1, 1], lastHealth := up.clk.now - 1280000000 }) networked
def marked : State :=
  onTile0 (fun r => { r with tapOverrun := true })
    (withHealth (fun h => { h with takeoverSeen := true, running := [storing 0 1 [] []] }) viewed)
def replanned (t : Nat) : State := withHealth (fun h => { h with lastReplan := some (up.clk.now - t), ovTrim := 50 }) viewed

theorem witness_HealthIsReportedAndReplanned :
    passes timebaseStatusInfo (pk []) viewed = true ∧ passes arbiterStatusInfo (pk []) marked = true ∧
    passes fabricStatusInfo (pk clearTile) marked = true ∧ 0 < marked.fabric.tiles.length ∧ 0 < marked.fabric.rejection.length ∧
    passes healthReadInfo (pk (fit 16 [4, 3, 1])) marked = true ∧ passes healthConfigInfo (pk healthDefault) viewed = true ∧
    bit (u8 healthDefault 4) 1 = false ∧ passes healthConfigInfo (pk (patch healthDefault 4 [3])) viewed = true ∧
    publishing.power.running = true ∧ publishing.healthEnabled = true ∧ publishing.linkUp 0 = true ∧
    publishing.net.lastHealth + 1280000 * tcPeriod publishing.net.trdp ≤ up.clk.now ∧ viewed.healthEnabled = false ∧
    (replanned 5).replanDue = false ∧ (replanned (86400 * 1280000000)).power.phase = .ready ∧
    (withClk (fun c => { c with now := 10 * up.clk.now + 86400 * 1280000000 }) (replanned 0)).replanDue = true ∧
    (replanned 5).health.ovTrim.natAbs ≤ 50 ∧ passes replanInfo (pk []) (replanned 5) = true := by decide +kernel

/-- An emitter whose monitor is valid and whose baseline was cleared, and one with its baseline. -/
def cleared (b : Option Rat) : State :=
  withHealth (fun h => { h with eff := [{ chargeSum := 5, slotSum := 5, shots := 65536, baseline := b, eff := 0 }] }) (replanned 5)

theorem witness_HealthIsReportedAndReplanned_baseline :
    (∀ m ∈ (cleared none).health.eff, m.value = none ∧ m.ratio ≠ none ∧ m.baseline = none) ∧
    (∀ m ∈ (cleared (some 1)).health.eff, m.value ≠ none) := by decide +kernel

theorem witness_HealthIsReportedAndReplanned_offsets (k : Nat) : ((replanned 5).health.thrOffset.getD k 0).natAbs ≤ 16 := by
  have h : (replanned 5).health.thrOffset = List.replicate 192 0 := rfl
  rw [h, List.getD_eq_getElem?_getD, List.getElem?_replicate]
  split <;> decide

def maintaining (a : Activity) : State := withHealth (fun h => { h with running := [a] }) viewed
def asking (l : List Activity) : State := withHealth (fun h => { h with queue := l }) viewed
def cmd9 : Cmd := { pk (zeros 16) with seq := 9 }
def rowsGone : State :=
  withPower (fun p => { p with repair := { p.repair with sramRows := (List.range 8).map fun r => (3, r, r) } })
    (maintaining (Activity.plain 4 0 3 7 [(0x0A08, cmd9)]))

theorem witness_MaintenanceRunsItsActivities :
    let test (n : Nat) (r : Bool) : Activity := { Activity.test n 25 [(0x0A06, cmd9)] with retest := r }
    let row := Activity.plain 4 0 3 7 [(0x0A08, cmd9)]
    let engine := Activity.plain 2 0 5 0 [(0x0A08, cmd9)]
    let core := Activity.plain 3 (scopeHalf 0) 1 2 []
    let store := { Activity.store 0x08 0x26 1 (some []) [] with target := 0 }
    passes selfTestInfo (pk (fit 16 [1, 0, 25])) viewed = true ∧ passes selfTestInfo (pk (fit 16 [4, 0, 0])) viewed = true ∧
    passes repairInfo (pk (fit 16 [0, 3, 5, 0, 7])) viewed = true ∧ passes repairInfo (pk (fit 16 [1, 0, 25])) viewed = true ∧
    viewed.targetServes 1 25 = false ∧ viewed.targetBad 1 25 = false ∧ viewed.underway 10 25 = false ∧ 25 < testTargets 1 ∧
    viewed.health.tests = [] ∧ viewed.arbiterFull 3 = false ∧ viewed.targetServes 1 0 = true ∧
    (asking [core]).startable core = true ∧ (asking [store]).startable store = true ∧
    (arbiterOrder (asking [core]).health.queue).find? (fun a => (asking [core]).startable a) = some core ∧ core.scope ≠ scopeNvm ∧
    (arbiterOrder (asking [store]).health.queue).find? (fun a => (asking [store]).startable a) = some store ∧ store.target ≠ 1 ∧
    viewed.runningIn 0 = none ∧ (maintaining row).runningIn 0 = some row ∧ row.retest = false ∧ (maintaining row).freeRow 3 = some 0 ∧
    rowsGone.freeRow 3 = none ∧ rowsGone.runningIn 0 = some row ∧ (maintaining engine).runningIn 0 = some engine ∧
    (maintaining engine).nextSpareEngine (engine.target / 16) = some 16 ∧
    (∀ n ∈ [1, 2, 3, 4], (maintaining (test n true)).runningIn (test n true).scope = some (test n true)) ∧
    (∀ n ∈ [1, 2, 3, 4], (maintaining (test n false)).runningIn (test n false).scope = some (test n false)) ∧
    (∀ n ∈ [1, 2, 3, 4], (test n true).code = 9 + n) := by decide +kernel

/-- A core check of output 1 that a command asked for, with the spare core powered down or awake. -/
def coreCheck : Activity := Activity.plain 3 (scopeHalf 0) 1 1 [(0x0A08, cmd9)]
def spareGone : State :=
  withPower (fun p => { p with repair := { p.repair with badCore := [16] } }) (maintaining coreCheck)

theorem witness_MaintenanceRunsItsActivities_core :
    let s := maintaining coreCheck
    let w := awakeIn [.emitterDac 16] s
    s.runningIn (scopeHalf 0) = some coreCheck ∧ coreCheck.target < s.emission.emitters.length ∧ coreCheck.row ≠ 2 ∧
    spareGone.runningIn (scopeHalf 0) = some coreCheck ∧ spareGone.nextSpareCore 1 = none ∧
    spareGone.power.repair.coreFor.getD 1 none = some 1 ∧ s.nextSpareCore 1 = some 16 ∧ s.domain (.emitterDac 16) = none ∧
    w.runningIn (scopeHalf 0) = some coreCheck ∧ w.awake (.emitterDac 16) = true ∧ w.inGap 1 = true := by decide +kernel

theorem witness_MaintenanceRunsItsActivities_listed :
    let s := withIntegrity (fun i => { i with repairList := [(95, 3), (0, 1)] }) viewed
    s.integrity.repairList = (95, 3) :: [(0, 1)] ∧ 95 < 96 ∧ s.arbiterFull 0 = false ∧ viewed.integrity.repairList = [] ∧
    s.power.running = true ∧ s.power.pfail = false ∧ s.power.phase ≠ .cold ∧ s.power.phase ≠ .warm ∧
    (∀ x ∈ s.health.queue, s.startable x = false) := by decide +kernel


theorem witness_TestPortDisturbsNothing :
    (withPower (fun p => { p with halted := true }) up).power.halted = true ∧ up.power.halted = false ∧ up.power.phase ≠ .recovery := by
  decide +kernel

theorem witness_StepsKeepZoneOutputsSafe : ZoneSafe up ∧ ZoneSafe (clearOut 5 (some 5) none) ∧ (clearOut 5 (some 5) none).zone.clearA = true ∧
    (∃ t, step { up with pending := [.jtagTapReset] } = .next t) := by
  refine ⟨?_, ?_, rfl, _, rfl⟩ <;> exact ⟨by decide +kernel, by decide +kernel, by decide +kernel, by decide +kernel⟩

theorem witness_OnlyAColdStartEndsPavane :
    let s := pavane .pfail 12800000
    let t : State := withPower (fun p => { p with phase := .pavane, coldStartAfter := true }) (flushing true true)
    s.power.phase = .pavane ∧ s.power.pavaneCause = .pfail ∧ s.host.journal.flushing = false ∧
    s.power.pavaneAt + 12800000 ≤ s.clk.now ∧ t.power.phase = .pavane ∧ t.power.coldStartAfter = true ∧ t.power.pfail = false ∧
    t.host.journal.flushing = true := by decide +kernel

theorem witness_OnlyAColdStartEndsPavane_por : StartsCold (.porRelease (cold false true true)) (pavane .supervisor 5) :=
  Or.inl ⟨_, rfl⟩

end Sys2Proof.Machine.Tests
end

/-!
## What a step leaves of the queue

SUPPORT. Every operation of the model keeps the queue of waiting commands: one lemma per operation, in the order of the model's
definitions, each proved by the lemmas of the operations it calls. `simp` goes through choices and folds by `pending_ite` and
`pending_foldl`; an operation whose branches are matches is split along them.

`simp` can discharge the condition of `pending_foldl` only with an explicit proof. So lemmas that hold by unfolding are proved
`by rfl`, which keeps them ordinary equations, and where a fold's step rests on such an equation of Laws/State alone,
`-implicitDefEqProofs` asks for that proof; it also spares the kernel from comparing the arithmetic of an update by unfolding.
-/
namespace Sys2Proof.Machine

/-! ### Choices, folds and rejections -/

/-- What a rejection by this opcode's checks leaves behind keeps the queue. -/
def OpInfo.KeepsQueue (o : OpInfo) : Prop := ∀ c st d s, (o.rejected c st d s).pending = s.pending

/-- Most opcodes' rejections leave nothing behind. -/
theorem OpInfo.KeepsQueue.of_plain {o : OpInfo} (h : o.rejected = fun _ _ _ s => s) : o.KeepsQueue := by
  simp [OpInfo.KeepsQueue, h]

@[simp] theorem pending_ite (p : Prop) [Decidable p] (s t : State) :
    (if p then s else t).pending = if p then s.pending else t.pending := apply_ite State.pending p s t

/-- A fold over the state keeps the queue when each of its steps does. -/
@[simp] theorem pending_foldl {α : Type} (f : State → α → State) (l : List α) (s : State)
    (h : ∀ t a, (f t a).pending = t.pending) : (l.foldl f s).pending = s.pending := by
  induction l generalizing s with
  | nil => rfl
  | cons a l ih => exact (ih _).trans (h s a)

/-- A fold over the state and what is gathered beside it. -/
theorem pending_foldl_fst {α β : Type} (f : State × β → α → State × β) (l : List α) (x : State × β)
    (h : ∀ y a, (f y a).1.pending = y.1.pending) : (l.foldl f x).1.pending = x.1.pending := by
  induction l generalizing x with
  | nil => rfl
  | cons a l ih => exact (ih _).trans (h x a)

/-! ### Shared operations -/

@[simp] theorem State.onUnit_pending (u : Nat) (f : CheckUnit → CheckUnit) (s : State) : (s.onUnit u f).pending = s.pending := by
  rfl
@[simp] theorem State.unitItem_pending (u : Nat) (bytes : List Byte) (s : State) : (s.unitItem u bytes).pending = s.pending := by
  rfl
@[simp] theorem State.unitLoads_pending (u running n : Nat) (s : State) : (s.unitLoads u running n).pending = s.pending := by
  rfl
@[simp] theorem State.snoop_pending (source : Nat) (bytes : List Byte) (s : State) :
    (s.snoop source bytes).pending = s.pending := by
  simp [State.snoop]
@[simp] theorem State.parkGalvo_pending (s : State) : s.parkGalvo.pending = s.pending := by rfl
@[simp] theorem State.notBegun_pending (c : Cmd) (s : State) : (s.notBegun c).pending = s.pending := by
  simp [State.notBegun]
@[simp] theorem State.failInside_pending (op : Nat) (c : Cmd) (s : State) : (s.failInside op c).pending = s.pending := by
  simp [State.failInside]
@[simp] theorem State.refuseRun_pending (o : OpInfo) (c : Cmd) (st d : Nat) (s : State) (hr : o.KeepsQueue) :
    (s.refuseRun o c st d).pending = s.pending := by
  unfold State.refuseRun; split
  · simp [hr c st d s]
  · split <;> simp
@[simp] theorem State.run_pending (o : OpInfo) (c : Cmd) (eff : State → State) (s : State) (hr : o.KeepsQueue)
    (h : ∀ t, (eff t).pending = t.pending) : (s.run o c eff).pending = s.pending := by
  unfold State.run; split
  · rfl
  · split
    · exact State.refuseRun_pending _ _ _ _ _ hr
    · simp [h]

/-! ### Lanes, front ends and engines -/

@[simp] theorem State.onRegion_pending (row region : Nat) (f : MemRegion → MemRegion) (s : State) :
    (s.onRegion row region f).pending = s.pending := by rfl
@[simp] theorem State.noteLost_pending (row region word : Nat) (s : State) :
    (s.noteLost row region word).pending = s.pending := by rfl

/-! ### The maintenance arbiter's queue and the repair map -/

@[simp] theorem State.onArbiterQueue_pending (f : List Activity → List Activity) (s : State) :
    (s.onArbiterQueue f).pending = s.pending := by rfl
@[simp] theorem State.request_pending (a : Activity) (s : State) : (s.request a).pending = s.pending := by
  simp [State.request]
@[simp] theorem State.storeFor_pending (op id : Nat) (data : Option (List Byte)) (c : Cmd) (s : State) :
    (s.storeFor op id data c).pending = s.pending := by
  simp [State.storeFor]
@[simp] theorem State.storeAfter_pending (op id : Nat) (c : Cmd) (b : StatusBlock) (s : State) :
    (s.storeAfter op id c b).pending = s.pending := by
  simp [State.storeAfter]
@[simp] theorem State.deviceStore_pending (id : Nat) (s : State) : (s.deviceStore id).pending = s.pending := by
  simp [State.deviceStore]
@[simp] theorem State.claspStore_pending (s : State) : s.claspStore.pending = s.pending := by
  simp [State.claspStore]
@[simp] theorem State.storeMap_pending (s : State) : s.storeMap.pending = s.pending := by
  simp [State.storeMap]
@[simp] theorem State.onRepair_pending (f : RepairMap → RepairMap) (s : State) : (s.onRepair f).pending = s.pending := by rfl
@[simp] theorem State.trigger_pending (code scope target row : Nat) (s : State) :
    (s.trigger code scope target row).pending = s.pending := by
  simp [State.trigger]
@[simp] theorem State.feFailed_pending (ch : Nat) (s : State) : (s.feFailed ch).pending = s.pending := by
  simp [State.feFailed]
@[simp] theorem State.engineFailed_pending (g : Nat) (s : State) : (s.engineFailed g).pending = s.pending := by
  simp only [State.engineFailed]; split <;> simp
@[simp] theorem State.coreTrouble_pending (e row : Nat) (s : State) : (s.coreTrouble e row).pending = s.pending := by
  simp [State.coreTrouble]
@[simp] theorem State.rowTrouble_pending (bank row : Nat) (s : State) : (s.rowTrouble bank row).pending = s.pending := by
  simp [State.rowTrouble]
@[simp] theorem State.listedRow_pending (s : State) : s.listedRow.pending = s.pending := by
  unfold State.listedRow; split <;> simp

/-! ### Instants and angles -/

@[simp] theorem State.endSegment_pending (s : State) : s.endSegment.pending = s.pending := by rfl

/-! ### Admission figures -/

@[simp] theorem State.refreshPlan_pending (s : State) : s.refreshPlan.pending = s.pending := by rfl

/-! ### Sets and the engines they need -/

@[simp] theorem State.wakeDomain_pending (d : Domain) (s : State) : (s.wakeDomain d).pending = s.pending := by
  simp [State.wakeDomain]
@[simp] theorem State.decideSwap_pending (s : State) : s.decideSwap.pending = s.pending := by
  simp [State.decideSwap]

/-! ### The foreign-pulse tap and its trackers -/

@[simp] theorem State.offerStamp_pending (t : Nat) (p : List Byte) (x : Nat) (s : State) :
    (s.offerStamp t p x).pending = s.pending := by
  fun_cases State.offerStamp <;> simp +zetaDelta
@[simp] theorem State.mergeStamp_pending (t : Nat) (p : List Byte) (x : Nat) (s : State) :
    (s.mergeStamp t p x).pending = s.pending := by
  simp [State.mergeStamp]
@[simp] theorem State.releaseStamps_pending (t : Nat) (p : List Byte) (x : Nat) (s : State) :
    (s.releaseStamps t p x).pending = s.pending := by
  simp [State.releaseStamps]
@[simp] theorem State.tapStamp_pending (t : Nat) (p : List Byte) (x : TapStamp) (s : State) :
    (s.tapStamp t p x).pending = s.pending := by
  simp [State.tapStamp]
@[simp] theorem State.tap_pending (ch weight x : Nat) (shot : Option (Nat × Nat)) (s : State) :
    (s.tap ch weight x shot).pending = s.pending := by
  simp only [State.tap]; split <;> simp
@[simp] theorem State.idleTrackers_pending (s : State) : s.idleTrackers.pending = s.pending := by rfl

/-! ### Emitter outputs and the energy ledger -/

@[simp] theorem State.charge_pending (e de : Nat) (s : State) : (s.charge e de).pending = s.pending := by rfl
@[simp] theorem State.onReserve_pending (r : Nat) (f : Nat → Nat) (s : State) : (s.onReserve r f).pending = s.pending := by
  rfl
@[simp] theorem State.unreserve_pending (e q : Nat) (s : State) : (s.unreserve e q).pending = s.pending := by rfl
@[simp] theorem State.reserve_pending (e q : Nat) (s : State) : (s.reserve e q).pending = s.pending := by rfl
@[simp] theorem State.settle_pending (e : Nat) (s : State) : (s.settle e).pending = s.pending := by
  simp only [State.settle]; split <;> simp
@[simp] theorem State.settleAll_pending (s : State) : s.settleAll.pending = s.pending := by
  simp [State.settleAll]
@[simp] theorem State.parkOutput_pending (e : Nat) (s : State) : (s.parkOutput e).pending = s.pending := by
  simp only [State.parkOutput]; split <;> simp
@[simp] theorem State.holdOutput_pending (e : Nat) (s : State) : (s.holdOutput e).pending = s.pending := by
  simp [State.holdOutput]
@[simp] theorem State.endDirect_pending (e st det : Nat) (s : State) : (s.endDirect e st det).pending = s.pending := by
  unfold State.endDirect; split <;> simp
@[simp] theorem State.abandonFade_pending (e det : Nat) (running : Bool) (s : State) :
    (s.abandonFade e det running).pending = s.pending := by
  unfold State.abandonFade; split <;> simp
@[simp] theorem State.parkAll_pending (s : State) : s.parkAll.pending = s.pending := by
  simp [State.parkAll]
@[simp] theorem State.refreshSlots_pending (s : State) : s.refreshSlots.pending = s.pending :=
  pending_foldl _ _ _ fun _ _ => State.onEmitter_pending ..
@[simp] theorem State.onSlot_pending (e n : Nat) (f : Slot → Slot) (s : State) : (s.onSlot e n f).pending = s.pending := by
  rfl
@[simp] theorem State.eccFail_pending (e n : Nat) (s : State) : (s.eccFail e n).pending = s.pending := by rfl

/-! ### Histograms under accumulation -/

@[simp] theorem State.closeHist_pending (ch : Nat) (h : Hist) (s : State) : (s.closeHist ch h).pending = s.pending := by
  simp [State.closeHist]
@[simp] theorem State.updHist_pending (ch view cell epoch : Nat) (f : Hist → Hist) (s : State) :
    (s.updHist ch view cell epoch f).pending = s.pending := by
  simp only [State.updHist]; split <;> simp
@[simp] theorem State.dropShots_pending (chs : List Nat) (view cell epoch n : Nat) (s : State) :
    (s.dropShots chs view cell epoch n).pending = s.pending := by
  simp [State.dropShots]

/-! ### Protection fields -/

@[simp] theorem State.driveZones_pending (s : State) : s.driveZones.pending = s.pending := by
  simp [State.driveZones]
@[simp] theorem State.onField_pending (n : Nat) (f : FieldRun → FieldRun) (s : State) : (s.onField n f).pending = s.pending := by
  simp [State.onField]
@[simp] theorem State.enterField_pending (n : Nat) (st : FieldState) (s : State) : (s.enterField n st).pending = s.pending := by
  simp [State.enterField]
@[simp] theorem State.decideCell_pending (n : Nat) (v : ViewDef) (j : Nat) (observed occupied : Bool) (near : Nat)
    (s : State) : (s.decideCell n v j observed occupied near).pending = s.pending := by
  simp only [State.decideCell]; split <;> simp
@[simp] theorem State.reachCell_pending (v : ViewDef) (j a : Nat) (s : State) : (s.reachCell v j a).pending = s.pending := by
  simp [State.reachCell]
@[simp] theorem State.missCell_pending (v : ViewDef) (a : Nat) (s : State) (j : Nat) :
    (s.missCell v a j).pending = s.pending := by
  simp [State.missCell]
@[simp] theorem State.startSweep_pending (b : Nat) (s : State) : (s.startSweep b).pending = s.pending := by rfl
@[simp] theorem State.breakSweep_pending (unseen : Nat → List Byte → Bool) (s : State) :
    (s.breakSweep unseen).pending = s.pending := by
  simp [State.breakSweep]
@[simp] theorem State.sweepTo_pending (b : Nat) (s : State) : (s.sweepTo b).pending = s.pending := by
  unfold State.sweepTo; split <;> simp
@[simp] theorem State.loseSweep_pending (s : State) : s.loseSweep.pending = s.pending := by
  simp [State.loseSweep]
@[simp] theorem State.tryField_pending (v : ViewDef) (n : Nat) (p : List Byte) (late : Bool) (x : State × ZoneCell) :
    (State.tryField v n p late x).1.pending = x.1.pending := by
  simp only [State.tryField]; split <;> simp
@[simp] theorem State.tryCell_pending (late : Bool) (z : ZoneCell) (s : State) :
    (State.tryCell late z s).1.pending = s.pending := by
  unfold State.tryCell; split
  · exact pending_foldl_fst _ _ _ fun x f => State.tryField_pending ..
  · rfl
@[simp] theorem State.keepCell_pending (z : ZoneCell) (s : State) : (s.keepCell z).pending = s.pending := by
  simp [State.keepCell]
@[simp] theorem State.zoneArrives_pending (view cell epoch : Nat) (r : ZoneResult) (s : State) :
    (s.zoneArrives view cell epoch r).pending = s.pending := by
  unfold State.zoneArrives; split <;> simp
@[simp] theorem State.zoneDeadline_pending (z : ZoneCell) (s : State) : (s.zoneDeadline z).pending = s.pending := by
  simp [State.zoneDeadline]
@[simp] theorem State.openZoneCell_pending (v : ViewDef) (cell epoch last : Nat) (s : State) :
    (s.openZoneCell v cell epoch last).pending = s.pending := by
  simp [State.openZoneCell]
@[simp] theorem State.zoneShot_pending (view cell epoch t : Nat) (s : State) :
    (s.zoneShot view cell epoch t).pending = s.pending := by
  simp [State.zoneShot]

/-! ### Point frames and the release of chains -/

@[simp] theorem State.countDown_pending (p : Nat) (c : Bool) (s : State) : (s.countDown p c).pending = s.pending := by
  simp [State.countDown]
@[simp] theorem State.closeFrame_pending (n : Nat) (s : State) : (s.closeFrame n).pending = s.pending := by
  simp only [State.closeFrame]; split <;> simp
@[simp] theorem State.placeRecord_pending (n dev tick epoch : Nat) (s : State) (rec : List Byte) :
    (s.placeRecord n dev tick epoch rec).pending = s.pending := by
  unfold State.placeRecord; split <;> simp
@[simp] theorem State.releaseAmbient_pending (r : Release) (s : State) : (s.releaseAmbient r).pending = s.pending := by
  unfold State.releaseAmbient; split <;> simp
@[simp] theorem State.releaseOne_pending (r : Release) (s : State) : (s.releaseOne r).pending = s.pending := by
  simp only [State.releaseOne]
  repeat' split
  all_goals simp
@[simp] theorem State.flushReleases_pending (view fuel : Nat) (s : State) : (s.flushReleases view fuel).pending = s.pending := by
  induction fuel generalizing s with
  | zero => rfl
  | succ k ih =>
    unfold State.flushReleases; split
    · split <;> simp [ih]
    · rfl
@[simp] theorem State.flushView_pending (view : Nat) (s : State) : (s.flushView view).pending = s.pending := by
  simp [State.flushView]
@[simp] theorem State.settleRelease_pending (seq : Nat) (f : Release → Release) (s : State) :
    (s.settleRelease seq f).pending = s.pending := by
  simp [State.settleRelease]
@[simp] theorem State.abandonHist_pending (h : Hist) (s : State) : (s.abandonHist h).pending = s.pending := by
  simp only [State.abandonHist]; split <;> simp

/-! ### Opening and ending histograms; the inhibit network -/

@[simp] theorem State.freeBuffer_pending (ch buf : Nat) (s : State) : (s.freeBuffer ch buf).pending = s.pending := by
  simp only [State.freeBuffer]
  rw [pending_foldl _ _ _ fun _ _ => State.abandonHist_pending .., State.onTile_pending]
  exact pending_foldl _ _ _ fun s g => by split <;> simp
@[simp] theorem State.endOlder_pending (ch : Nat) (s : State) : (s.endOlder ch).pending = s.pending := by
  simp [State.endOlder]
@[simp] theorem State.startHist_pending (v : ViewDef) (j epoch ch : Nat) (s : State) :
    (s.startHist v j epoch ch).pending = s.pending := by
  simp [State.startHist]
@[simp] theorem State.onCell_pending (view cell : Nat) (f : OpenCell → OpenCell) (s : State) :
    (s.onCell view cell f).pending = s.pending := by
  simp [State.onCell]
@[simp] theorem State.ensureHist_pending (v : ViewDef) (j epoch ch : Nat) (s : State) :
    (s.ensureHist v j epoch ch).pending = s.pending := by
  simp [State.ensureHist]
@[simp] theorem State.closeCellOn_pending (v : ViewDef) (c : OpenCell) (m : Nat) (s : State) (x : Nat × Nat) :
    (s.closeCellOn v c m x).pending = s.pending := by
  simp [State.closeCellOn]
@[simp] theorem State.closeCell_pending (m : Nat) (s : State) (c : OpenCell) : (s.closeCell m c).pending = s.pending := by
  unfold State.closeCell; split <;> simp
@[simp] theorem State.abandonWindow_pending (ch : Nat) (s : State) : (s.abandonWindow ch).pending = s.pending := by
  simp [State.abandonWindow]
@[simp] theorem State.abandonWindows_pending (s : State) : s.abandonWindows.pending = s.pending := by
  simp [State.abandonWindows]
@[simp] theorem State.releaseDescriptor_pending (s : State) (d : Descriptor) : (s.releaseDescriptor d).pending = s.pending := by
  simp [State.releaseDescriptor]
@[simp] theorem State.inhibitNow_pending (cause : Nat) (s : State) : (s.inhibitNow cause).pending = s.pending := by
  simp [State.inhibitNow]
@[simp] theorem State.registerCause_pending (cause : Nat) (s : State) : (s.registerCause cause).pending = s.pending := by
  simp [State.registerCause]
@[simp] theorem State.clearCause_pending (cause : Nat) (s : State) : (s.clearCause cause).pending = s.pending := by
  simp [State.clearCause]
@[simp] theorem State.registerSource_pending (src : Nat) (s : State) : (s.registerSource src).pending = s.pending := by
  simp [State.registerSource]
@[simp] theorem State.clearSource_pending (src : Nat) (s : State) : (s.clearSource src).pending = s.pending := by
  simp [State.clearSource]
@[simp] theorem State.endGroup_pending (ch : Nat) (s : State) (h : Hist) : (s.endGroup ch h).pending = s.pending := by
  simp [State.endGroup]
@[simp] theorem State.endGroupsIf_pending (ends : Hist → Bool) (s : State) : (s.endGroupsIf ends).pending = s.pending := by
  simp [State.endGroupsIf]
@[simp] theorem State.endGroups_pending (s : State) : s.endGroups.pending = s.pending := State.endGroupsIf_pending ..
@[simp] theorem State.endPassed_pending (a d : Nat) (s : State) : (s.endPassed a d).pending = s.pending :=
  State.endGroupsIf_pending ..
@[simp] theorem State.sweepNow_pending (s : State) : s.sweepNow.pending = s.pending := by
  unfold State.sweepNow; split <;> simp
@[simp] theorem State.restamp_pending (s : State) : s.restamp.pending = s.pending := by
  simp [State.restamp]
@[simp] theorem State.speedRule_pending (s : State) : s.speedRule.pending = s.pending := by
  simp [State.speedRule]
@[simp] theorem State.followAngle_pending (s : State) : s.followAngle.pending = s.pending := by
  simp [State.followAngle]

/-! ### Windows -/

@[simp] theorem State.overflow_pending (ch : Nat) (s : State) : (s.overflow ch).pending = s.pending := by
  simp [State.overflow]
@[simp] theorem State.countNear_pending (e : Nat) (s : State) : (s.countNear e).pending = s.pending := by rfl
@[simp] theorem State.placeEvent_pending (ch : Nat) (interval : Int) (weight : Nat) (s : State) :
    (s.placeEvent ch interval weight).pending = s.pending := by
  fun_cases State.placeEvent <;> simp +zetaDelta
@[simp] theorem State.eventAt_pending (ch : Nat) (tau : Int) (weight : Nat) (s : State) :
    (s.eventAt ch tau weight).pending = s.pending := by
  fun_cases State.eventAt <;> simp +zetaDelta
@[simp] theorem State.sendAmbient_pending (ch span : Nat) (ovf : Bool) (s : State) :
    (s.sendAmbient ch span ovf).pending = s.pending := by
  simp [State.sendAmbient]
@[simp] theorem State.totSample_pending (ch tot : Nat) (s : State) : (s.totSample ch tot).pending = s.pending := by
  simp [State.totSample]
@[simp] theorem State.endEdge_pending (ch tot : Nat) (s : State) : (s.endEdge ch tot).pending = s.pending := by
  simp only [State.endEdge]; split <;> simp
@[simp] theorem State.flushEdge_pending (ch : Nat) (s : State) : (s.flushEdge ch).pending = s.pending := by
  unfold State.flushEdge; split <;> simp
@[simp] theorem State.endAmbient_pending (ch t : Nat) (ovf : Bool) (s : State) :
    (s.endAmbient ch t ovf).pending = s.pending := by
  simp [State.endAmbient]
@[simp] theorem State.endRange_pending (ch t : Nat) (cut fault : Bool) (s : State) :
    (s.endRange ch t cut fault).pending = s.pending := by
  fun_cases State.endRange <;> simp +zetaDelta
@[simp] theorem State.stopRange_pending (ch t : Nat) (cut fault : Bool) (s : State) :
    (s.stopRange ch t cut fault).pending = s.pending := by
  simp [State.stopRange]
@[simp] theorem State.endEarlier_pending (ch : Nat) (s : State) : (s.endEarlier ch).pending = s.pending := by
  unfold State.endEarlier; split <;> simp
@[simp] theorem State.placeSkid_pending (ch : Nat) (value : Int) (s : State) : (s.placeSkid ch value).pending = s.pending := by
  simp [State.placeSkid]
@[simp] theorem State.resolveOpen_pending (ch : Nat) (value : Int) (st : T0Status) (s : State) :
    (s.resolveOpen ch value st).pending = s.pending := by
  simp only [State.resolveOpen]; split <;> simp
@[simp] theorem State.resolveClosing_pending (ch : Nat) (value : Int) (st : T0Status) (w : Window) (s : State) :
    (s.resolveClosing ch value st w).pending = s.pending := by
  simp only [State.resolveClosing]; split <;> simp
@[simp] theorem State.resolveOn_pending (e t0 : Nat) (value : Int) (st : T0Status) (s : State) (ch : Nat) :
    (s.resolveOn e t0 value st ch).pending = s.pending := by
  simp only [State.resolveOn]; split <;> simp
@[simp] theorem State.resolveT0_pending (e t0 : Nat) (value : Int) (st : T0Status) (s : State) :
    (s.resolveT0 e t0 value st).pending = s.pending := by
  simp [State.resolveT0]
@[simp] theorem State.noWindow_pending (ch : Nat) (d : Descriptor) (s : State) : (s.noWindow ch d).pending = s.pending := by
  simp [State.noWindow]
@[simp] theorem State.takeDnl_pending (f : Nat) (s : State) : (s.takeDnl f).pending = s.pending := by
  unfold State.takeDnl; split <;> simp
@[simp] theorem State.openWindow_pending (v : ViewDef) (d : Descriptor) (s : State) (ch : Nat) :
    (s.openWindow v d ch).pending = s.pending := by
  simp [State.openWindow]
@[simp] theorem State.mergeHeader_pending (ch : Nat) (w : Window) (s : State) : (s.mergeHeader ch w).pending = s.pending := by
  simp [State.mergeHeader]
@[simp] theorem State.mergeHeaders_pending (ch fuel : Nat) (s : State) : (s.mergeHeaders ch fuel).pending = s.pending := by
  induction fuel generalizing s with
  | zero => rfl
  | succ k ih => unfold State.mergeHeaders; split <;> simp [ih]
@[simp] theorem State.countRecords_pending (ch : Nat) (w : Window) (rs : List (Nat × Nat)) (s : State) :
    (s.countRecords ch w rs).pending = s.pending := by
  unfold State.countRecords; split <;> simp

/-! ### Shot events -/

@[simp] theorem State.setLfsr_pending (view x : Nat) (s : State) : (s.setLfsr view x).pending = s.pending := by
  simp [State.setLfsr]
@[simp] theorem State.loadLfsr_pending (old : ConfigSet) (epoch : Nat) (s : State) (v : ViewDef) :
    (s.loadLfsr old epoch v).pending = s.pending := by
  simp [State.loadLfsr]
@[simp] theorem State.setLastBase_pending (view t : Nat) (s : State) : (s.setLastBase view t).pending = s.pending := by rfl
@[simp] theorem State.beginCell_pending (v : ViewDef) (j epoch : Nat) (s : State) :
    (s.beginCell v j epoch).pending = s.pending := by
  simp [State.beginCell]
@[simp] theorem State.blockedCell_pending (v : ViewDef) (j base : Nat) (s : State) :
    (s.blockedCell v j base).pending = s.pending := by
  simp only [State.blockedCell]; split <;> simp
@[simp] theorem State.endCell_pending (v : ViewDef) (j : Nat) (s : State) : (s.endCell v j).pending = s.pending := by
  unfold State.endCell; split <;> simp
@[simp] theorem State.shortfall_pending (v : ViewDef) (j e : Nat) (s : State) : (s.shortfall v j e).pending = s.pending := by
  unfold State.shortfall; split <;> simp
@[simp] theorem State.countSkip_pending (e : Nat) (r : Skip) (s : State) : (s.countSkip e r).pending = s.pending := by
  unfold State.countSkip; split <;> simp
@[simp] theorem State.planShot_pending (v : ViewDef) (c : OpenCell) (e k base : Nat) (s : State) :
    (s.planShot v c e k base).pending = s.pending := by
  fun_cases State.planShot <;> simp +zetaDelta
@[simp] theorem State.planNext_pending (c : OpenCell) (s : State) : (s.planNext c).pending = s.pending := by
  fun_cases State.planNext <;> simp +zetaDelta
@[simp] theorem State.brokenCell_pending (v : ViewDef) (j base : Nat) (s : State) :
    (s.brokenCell v j base).pending = s.pending := by
  simp only [State.brokenCell]; split <;> simp
@[simp] theorem State.planBlocked_pending (view cell : Nat) (s : State) : (s.planBlocked view cell).pending = s.pending := by
  fun_cases State.planBlocked <;> simp +zetaDelta
@[simp] theorem State.planFirst_pending (view cell : Nat) (s : State) : (s.planFirst view cell).pending = s.pending := by
  fun_cases State.planFirst <;> simp +zetaDelta
@[simp] theorem shotPlan_pending (view cell : Nat) (s : State) : (shotPlan view cell s).pending = s.pending := by
  fun_cases shotPlan <;> simp +zetaDelta
@[simp] theorem State.registerLedger_pending (row window : Nat) (s : State) :
    (s.registerLedger row window).pending = s.pending := by
  simp [State.registerLedger]
@[simp] theorem State.tryClearLedger_pending (s : State) : s.tryClearLedger.pending = s.pending := by
  simp [State.tryClearLedger]
@[simp] theorem State.dropDescriptor_pending (d : Descriptor) (s : State) : (s.dropDescriptor d).pending = s.pending := by
  simp only [State.dropDescriptor]; split <;> simp
@[simp] theorem State.barEntry_pending (d : Descriptor) (s : State) : (s.barEntry d).pending = s.pending := by rfl
@[simp] theorem shotFix_pending (e : Nat) (s : State) : (shotFix e s).pending = s.pending := by
  fun_cases shotFix
  case case7 =>
    simp +zetaDelta only [State.onSched_pending]
    split <;> simp
  all_goals simp +zetaDelta
@[simp] theorem windowStart_pending (e : Nat) (s : State) : (windowStart e s).pending = s.pending := by
  fun_cases windowStart <;> simp +zetaDelta
@[simp] theorem State.markLane_pending (n : Nat) (c : CalState) (of : Window → Bool) (s : State) :
    (s.markLane n c of).pending = s.pending := by
  simp [State.markLane]
@[simp] theorem calAccept_pending (n : Nat) (ones twos : List Nat) (fes : List (Nat × Nat)) (s : State) :
    (calAccept n ones twos fes s).pending = s.pending := by
  simp [calAccept]
@[simp] theorem laneStale_pending (n : Nat) (s : State) : (laneStale n s).pending = s.pending := by
  simp [laneStale]
@[simp] theorem State.channelOut_pending (s : State) (ch : Nat) : (s.channelOut ch).pending = s.pending := by
  simp [State.channelOut]
@[simp] theorem laneFailed_pending (n : Nat) (s : State) : (laneFailed n s).pending = s.pending := by
  simp [laneFailed]
@[simp] theorem laneWarmupDone_pending (n : Nat) (s : State) : (laneWarmupDone n s).pending = s.pending := by
  simp [laneWarmupDone]
@[simp] theorem State.warmLane_pending (s : State) (n : Nat) : (s.warmLane n).pending = s.pending := by rfl
@[simp] theorem threshReadback_pending (ch code : Nat) (s : State) : (threshReadback ch code s).pending = s.pending := by
  simp [threshReadback]
@[simp] theorem blankingRelease_pending (ch : Nat) (high : Bool) (s : State) :
    (blankingRelease ch high s).pending = s.pending := by
  simp [blankingRelease]
@[simp] theorem State.startWindow_pending (d : Descriptor) (v : ViewDef) (s : State) (ch : Nat) :
    (s.startWindow d v ch).pending = s.pending := by
  simp [State.startWindow]
@[simp] theorem State.noteSlotEcc_pending (e : Nat) (s : State) : (s.noteSlotEcc e).pending = s.pending := by
  unfold State.noteSlotEcc; split <;> simp
@[simp] theorem State.noteWaveLost_pending (e slot : Nat) (s : State) : (s.noteWaveLost e slot).pending = s.pending := by
  unfold State.noteWaveLost; split <;> simp
@[simp] theorem State.unreadable_pending (d : Descriptor) (v : ViewDef) (s : State) :
    (s.unreadable d v).pending = s.pending := by
  simp [State.unreadable]
@[simp] theorem State.t0Measured_pending (x : T0Shot) (tau : Int) (charge : Nat) (s : State) :
    (s.t0Measured x tau charge).pending = s.pending := by
  simp -implicitDefEqProofs [State.t0Measured]
@[simp] theorem State.t0Stamped_pending (x : T0Shot) (tau : Int) (charge : Nat) (s : State) :
    (s.t0Stamped x tau charge).pending = s.pending := by
  simp [State.t0Stamped]
@[simp] theorem t0InEdge_pending (coarse raw charge : Nat) (s : State) : (t0InEdge coarse raw charge s).pending = s.pending := by
  fun_cases t0InEdge <;> simp +zetaDelta
@[simp] theorem t0Timeout_pending (e : Nat) (s : State) : (t0Timeout e s).pending = s.pending := by
  simp only [t0Timeout]
  repeat' split
  all_goals simp -implicitDefEqProofs
@[simp] theorem State.t0Overdue_pending (s : State) : s.t0Overdue.pending = s.pending := by
  simp [State.t0Overdue]
@[simp] theorem State.fire_pending (d : Descriptor) (v : ViewDef) (s : State) : (s.fire d v).pending = s.pending := by
  simp -implicitDefEqProofs [State.fire]
@[simp] theorem shotFire_pending (e : Nat) (eccBad : Bool) (s : State) : (shotFire e eccBad s).pending = s.pending := by
  fun_cases shotFire <;> simp +zetaDelta
@[simp] theorem slotEnd_pending (e : Nat) (s : State) : (slotEnd e s).pending = s.pending := by
  unfold slotEnd; split <;> simp
@[simp] theorem histogramRangeEnd_pending (ch : Nat) (s : State) : (histogramRangeEnd ch s).pending = s.pending := by
  simp [histogramRangeEnd]
@[simp] theorem ambientSpanEnd_pending (ch : Nat) (s : State) : (ambientSpanEnd ch s).pending = s.pending := by
  simp [ambientSpanEnd]
@[simp] theorem coarseOvf_pending (ch : Nat) (s : State) : (coarseOvf ch s).pending = s.pending := by
  simp [coarseOvf]
@[simp] theorem State.acceptEdge_pending (ch stamp : Nat) (s : State) : (s.acceptEdge ch stamp).pending = s.pending := by rfl
@[simp] theorem State.untimedEdge_pending (ch : Nat) (ph : WinPhase) (s : State) :
    (s.untimedEdge ch ph).pending = s.pending := by
  unfold State.untimedEdge; split <;> simp
@[simp] theorem State.timedEdge_pending (ch : Nat) (tau f : Int) (s : State) : (s.timedEdge ch tau f).pending = s.pending := by
  simp [State.timedEdge]
@[simp] theorem discriminatorEdge_pending (ch coarse raw : Nat) (s : State) :
    (discriminatorEdge ch coarse raw s).pending = s.pending := by
  fun_cases discriminatorEdge <;> simp +zetaDelta
@[simp] theorem discriminatorFall_pending (ch tot : Nat) (s : State) : (discriminatorFall ch tot s).pending = s.pending := by
  simp [discriminatorFall]
@[simp] theorem longHigh_pending (ch : Nat) (s : State) : (longHigh ch s).pending = s.pending := by
  simp [longHigh]
@[simp] theorem State.noteEcc_pending (ch buf : Nat) (fs : List EccFault) (s : State) :
    (s.noteEcc ch buf fs).pending = s.pending := by
  unfold State.noteEcc
  rw [pending_foldl _ _ _ fun s f => by split <;> simp, State.onTile_pending]
@[simp] theorem State.ingressEcc_pending (ch : Nat) (w : Window) (rs : List (Nat × Nat)) (faults : List EccFault)
    (s : State) : (s.ingressEcc ch w rs faults).pending = s.pending := by
  unfold State.ingressEcc; split <;> simp
@[simp] theorem ingressEntry_pending (ch : Nat) (parityBad : Bool) (faults : List EccFault) (s : State) :
    (ingressEntry ch parityBad faults s).pending = s.pending := by
  simp only [ingressEntry]; split <;> simp
@[simp] theorem trailerMerge_pending (ch : Nat) (s : State) : (trailerMerge ch s).pending = s.pending := by
  simp only [trailerMerge]; split <;> simp
@[simp] theorem nearFieldRegister_pending (e : Nat) (s : State) : (nearFieldRegister e s).pending = s.pending := by
  fun_cases nearFieldRegister <;> simp +zetaDelta
@[simp] theorem nearFieldClear_pending (s : State) : (nearFieldClear s).pending = s.pending := by
  simp [nearFieldClear]
@[simp] theorem nfSectorRelease_pending (i : Nat) (s : State) : (nfSectorRelease i s).pending = s.pending := by
  unfold nfSectorRelease; split <;> simp

/-! ### The emission chapter -/

@[simp] theorem waveLoadEffect_pending (c : Cmd) (s : State) : (waveLoadEffect c s).pending = s.pending := by
  simp [waveLoadEffect]
@[simp] theorem State.writeSlot_pending (e n : Nat) (k : Slot) (s : State) : (s.writeSlot e n k).pending = s.pending := by
  simp [State.writeSlot]
@[simp] theorem waveTransfer_pending (e n : Nat) (s : State) : (waveTransfer e n s).pending = s.pending := by
  unfold waveTransfer; split <;> simp
@[simp] theorem waveReadEffect_pending (c : Cmd) (s : State) : (waveReadEffect c s).pending = s.pending := by
  simp [waveReadEffect]
@[simp] theorem waveFadeEffect_pending (c : Cmd) (s : State) : (waveFadeEffect c s).pending = s.pending := by rfl
@[simp] theorem fadeCopy_pending (e : Nat) (s : State) : (fadeCopy e s).pending = s.pending := by
  unfold fadeCopy; split <;> simp
@[simp] theorem parkSetEffect_pending (c : Cmd) (s : State) : (parkSetEffect c s).pending = s.pending := by
  simp [parkSetEffect]
@[simp] theorem State.setPark_pending (ch code : Nat) (s : State) : (s.setPark ch code).pending = s.pending := by
  simp [State.setPark]
@[simp] theorem State.supersede_pending (e : Nat) (s : State) : (s.supersede e).pending = s.pending := by
  unfold State.supersede; split <;> simp
@[simp] theorem emitDirectStart_pending (c : Cmd) (s : State) : (emitDirectStart c s).pending = s.pending := by
  simp [emitDirectStart]
@[simp] theorem emitDirectPark_pending (c : Cmd) (s : State) : (emitDirectPark c s).pending = s.pending := by
  simp [emitDirectPark]
@[simp] theorem emitDirectEffect_pending (c : Cmd) (s : State) : (emitDirectEffect c s).pending = s.pending := by
  simp [emitDirectEffect]
@[simp] theorem directPlayEnd_pending (e : Nat) (s : State) : (directPlayEnd e s).pending = s.pending := by
  unfold directPlayEnd; split <;> simp
@[simp] theorem directPlayLedgerLimit_pending (e : Nat) (s : State) : (directPlayLedgerLimit e s).pending = s.pending := by
  fun_cases directPlayLedgerLimit <;> simp +zetaDelta
@[simp] theorem State.barStarted_pending (e : Nat) (s : State) : (s.barStarted e).pending = s.pending := by
  simp [State.barStarted]
@[simp] theorem State.dropFixed_pending (r : Skip) (s : State) (d : Descriptor) : (s.dropFixed r d).pending = s.pending := by
  simp [State.dropFixed]
@[simp] theorem State.dropCurrent_pending (e : Nat) (r : Skip) (s : State) : (s.dropCurrent e r).pending = s.pending := by
  fun_cases State.dropCurrent <;> simp +zetaDelta
@[simp] theorem State.dropShotsOf_pending (e : Nat) (r : Skip) (s : State) : (s.dropShotsOf e r).pending = s.pending := by
  simp [State.dropShotsOf]
@[simp] theorem State.faultEmitter_pending (e : Nat) (s : State) : (s.faultEmitter e).pending = s.pending := by
  simp [State.faultEmitter]
@[simp] theorem emitterShort_pending (e : Nat) (s : State) : (emitterShort e s).pending = s.pending := by
  simp [emitterShort]
@[simp] theorem ledgerBucketEdge_pending (w : Nat) (s : State) : (ledgerBucketEdge w s).pending = s.pending := by
  simp [ledgerBucketEdge]
@[simp] theorem State.onUnlock_pending (f : Unlock → Unlock) (s : State) : (s.onUnlock f).pending = s.pending := by rfl
@[simp] theorem unlockRejected_pending (c : Cmd) (st det : Nat) (s : State) :
    (unlockRejected c st det s).pending = s.pending := by
  simp [unlockRejected]
@[simp] theorem unlockDraw_pending (c : Cmd) (s : State) : (unlockDraw c s).pending = s.pending := by
  simp [unlockDraw]
@[simp] theorem State.takeResponse_pending (s : State) : s.takeResponse.pending = s.pending := by rfl
@[simp] theorem unlockOpenNow_pending (c : Cmd) (s : State) : (unlockOpenNow c s).pending = s.pending := by
  simp [unlockOpenNow]
@[simp] theorem unlockEffect_pending (c : Cmd) (s : State) : (unlockEffect c s).pending = s.pending := by
  simp [unlockEffect]
@[simp] theorem unlockExpire_pending (s : State) : (unlockExpire s).pending = s.pending := by
  simp [unlockExpire]
@[simp] theorem unlockLockoutEnd_pending (s : State) : (unlockLockoutEnd s).pending = s.pending := by
  simp [unlockLockoutEnd]
@[simp] theorem State.useUnlock_pending (s : State) : s.useUnlock.pending = s.pending := by rfl
@[simp] theorem ledgerWriteEffect_pending (c : Cmd) (s : State) : (ledgerWriteEffect c s).pending = s.pending := by
  simp [ledgerWriteEffect]
@[simp] theorem State.forbidEmitter_pending (s : State) (e : Nat) : (s.forbidEmitter e).pending = s.pending := by
  simp [State.forbidEmitter]
@[simp] theorem State.installLedger_pending (t : List Byte) (gen : Nat) (s : State) :
    (s.installLedger t gen).pending = s.pending := by
  simp [State.installLedger]
@[simp] theorem ledgerReadEffect_pending (c : Cmd) (s : State) : (ledgerReadEffect c s).pending = s.pending := by
  simp [ledgerReadEffect]
@[simp] theorem State.clearEmission_pending (mask emitters : Nat) (s : State) :
    (s.clearEmission mask emitters).pending = s.pending := by
  simp -implicitDefEqProofs [State.clearEmission]
@[simp] theorem emitStatusEffect_pending (c : Cmd) (s : State) : (emitStatusEffect c s).pending = s.pending := by
  simp [emitStatusEffect]
@[simp] theorem emitEnEdge_pending (a b : Bool) (s : State) : (emitEnEdge a b s).pending = s.pending := by
  simp [emitEnEdge]
@[simp] theorem emitEnClear_pending (s : State) : (emitEnClear s).pending = s.pending := by
  simp [emitEnClear]
@[simp] theorem enDiscrepancy_pending (s : State) : (enDiscrepancy s).pending = s.pending := by
  simp [enDiscrepancy]
@[simp] theorem enDiscrepancyClear_pending (s : State) : (enDiscrepancyClear s).pending = s.pending := by
  simp [enDiscrepancyClear]
@[simp] theorem speedLowClear_pending (s : State) : (speedLowClear s).pending = s.pending := by
  simp [speedLowClear]
@[simp] theorem State.onReservoir_pending (k : Nat) (f : Reservoir → Reservoir) (s : State) :
    (s.onReservoir k f).pending = s.pending := by rfl
@[simp] theorem resConfigEffect_pending (c : Cmd) (s : State) : (resConfigEffect c s).pending = s.pending := by
  simp [resConfigEffect]
@[simp] theorem resMonSample_pending (k mv : Nat) (s : State) : (resMonSample k mv s).pending = s.pending := by
  simp [resMonSample]
@[simp] theorem resOver_pending (k : Nat) (s : State) : (resOver k s).pending = s.pending := by
  simp [resOver]
@[simp] theorem resLow_pending (k : Nat) (s : State) : (resLow k s).pending = s.pending := by
  simp [resLow]

/-! ### Power domains -/

@[simp] theorem State.refreshDomains_pending (s : State) : s.refreshDomains.pending = s.pending := by
  simp [State.refreshDomains]
@[simp] theorem State.refreshChannels_pending (s : State) : s.refreshChannels.pending = s.pending := by
  simp -implicitDefEqProofs [State.refreshChannels]
@[simp] theorem State.laneOff_pending (s : State) (n : Nat) : (s.laneOff n).pending = s.pending := by
  simp [State.laneOff]
@[simp] theorem domainWakeStart_pending (d : Domain) (s : State) : (domainWakeStart d s).pending = s.pending := by
  unfold domainWakeStart; split <;> simp
@[simp] theorem State.domainUp_pending (d : Domain) (s : State) : (s.domainUp d).pending = s.pending := by
  fun_cases State.domainUp <;> simp +zetaDelta
@[simp] theorem domainSettled_pending (d : Domain) (s : State) : (domainSettled d s).pending = s.pending := by
  fun_cases domainSettled <;> simp +zetaDelta
@[simp] theorem State.domainDown_pending (d : Domain) (s : State) : (s.domainDown d).pending = s.pending := by
  fun_cases State.domainDown <;> simp +zetaDelta
@[simp] theorem domainSleep_pending (d : Domain) (s : State) : (domainSleep d s).pending = s.pending := by
  unfold domainSleep; split <;> simp
@[simp] theorem State.onPace_pending (t : Nat) (f : TilePace → TilePace) (s : State) : (s.onPace t f).pending = s.pending := by
  rfl
@[simp] theorem State.tileGate_pending (a b t : Nat) (s : State) : (s.tileGate a b t).pending = s.pending := by
  simp [State.tileGate]
@[simp] theorem State.measurePace_pending (s : State) : s.measurePace.pending = s.pending := by
  simp [State.measurePace]
@[simp] theorem State.deliverPace_pending (s : State) : s.deliverPace.pending = s.pending := by
  simp [State.deliverPace]
@[simp] theorem paceGate_pending (as bs : List Nat) (s : State) : (paceGate as bs s).pending = s.pending := by
  simp [paceGate]
@[simp] theorem tileVoltageStepDown_pending (t : Nat) (s : State) : (tileVoltageStepDown t s).pending = s.pending := by
  simp [tileVoltageStepDown]

/-! ### Admission and its checks -/

@[simp] theorem State.deferSet_pending (op : Nat) (c : Cmd) (s : State) : (s.deferSet op c).pending = s.pending := by
  simp [State.deferSet]
@[simp] theorem State.shadowWrite_pending (op : Nat) (c : Cmd) (eff : State → State) (s : State)
    (h : (eff s).pending = s.pending) : (s.shadowWrite op c eff).pending = s.pending := by
  simp [State.shadowWrite, h]
@[simp] theorem State.onShadow_pending (f : ConfigSet → ConfigSet) (s : State) : (s.onShadow f).pending = s.pending := by rfl
@[simp] theorem State.doneSet_pending (op : Nat) (c : Cmd) (result : Nat) (data : List Byte) (s : State) :
    (s.doneSet op c result data).pending = s.pending := by
  simp [State.doneSet]

/-! ### What other chapters ask of the ports -/

@[simp] theorem State.enqueue_pending (f : TxFrame) (s : State) : (s.enqueue f).pending = s.pending := by
  simp [State.enqueue]
@[simp] theorem State.queueFrame_pending (kind : TxKind) (a b : Bool) (dest bytes : List Byte) (s : State) :
    (s.queueFrame kind a b dest bytes).pending = s.pending := by
  simp [State.queueFrame]
@[simp] theorem State.askNeighbour_pending (v6 : Bool) (a : List Byte) (s : State) :
    (s.askNeighbour v6 a).pending = s.pending := by
  simp [State.askNeighbour]
@[simp] theorem State.needNeighbour_pending (v6 : Bool) (a : List Byte) (s : State) :
    (s.needNeighbour v6 a).pending = s.pending := by
  simp [State.needNeighbour]
@[simp] theorem State.onPtp_pending (p : Nat) (f : PtpPort → PtpPort) (s : State) : (s.onPtp p f).pending = s.pending := by
  rfl
@[simp] theorem State.sendPtp_pending (p type flags control sequence : Nat) (body : List Byte) (event : Option PtpEvent)
    (s : State) : (s.sendPtp p type flags control sequence body event).pending = s.pending := by
  simp [State.sendPtp]
@[simp] theorem State.ptpDeparts_pending (p : Nat) (f : TxFrame) (s : State) : (s.ptpDeparts p f).pending = s.pending := by
  unfold State.ptpDeparts; split <;> simp
@[simp] theorem State.sendRequest_pending (p type : Nat) (s : State) : (s.sendRequest p type).pending = s.pending := by
  simp [State.sendRequest]
@[simp] theorem State.sendPdelay_pending (p sequence : Nat) (requester : List Byte) (s : State) :
    (s.sendPdelay p sequence requester).pending = s.pending := by
  simp [State.sendPdelay]
@[simp] theorem State.askPeer_pending (s : State) (p : Nat) : (s.askPeer p).pending = s.pending := by
  simp [State.askPeer]
@[simp] theorem State.installNet_pending (w : NetWait) (s : State) : (s.installNet w).pending = s.pending := by
  simp [State.installNet]
@[simp] theorem State.netSent_pending (r : Reply) (s : State) : (s.netSent r).pending = s.pending := by
  unfold State.netSent; split <;> simp
@[simp] theorem State.sendProbe_pending (s : State) : s.sendProbe.pending = s.pending := by
  simp [State.sendProbe]
@[simp] theorem State.sendPd_pending (kind : TxKind) (com : Nat) (dest dataset : List Byte) (s : State) :
    (s.sendPd kind com dest dataset).pending = s.pending := by
  simp [State.sendPd]
@[simp] theorem State.sendMd_pending (final : Bool) (r : Route) (packet : List Byte) (s : State) :
    (s.sendMd final r packet).pending = s.pending := by
  simp [State.sendMd]

/-! ### The taking of replies -/

@[simp] theorem State.taken_pending (r : Reply) (s : State) : (s.taken r).pending = s.pending := by
  simp [State.taken]
@[simp] theorem State.sendReply_pending (s : State) (r : Reply) : (s.sendReply r).pending = s.pending := by
  simp [State.sendReply]
@[simp] theorem State.sendReplies_pending (s : State) : s.sendReplies.pending = s.pending := by
  simp [State.sendReplies]

/-! ### The network chapter -/

@[simp] theorem State.dropEgress_pending (s : State) : s.dropEgress.pending = s.pending := by
  simp -implicitDefEqProofs [State.dropEgress]
@[simp] theorem State.discardPort_pending (p : Nat) (s : State) : (s.discardPort p).pending = s.pending := by
  simp [State.discardPort]
@[simp] theorem State.loseLink_pending (p : Nat) (s : State) : (s.loseLink p).pending = s.pending := by
  simp [State.loseLink]
@[simp] theorem linkDown_pending (p : Nat) (s : State) : (linkDown p s).pending = s.pending := by
  simp [linkDown]
@[simp] theorem State.endNetConfig_pending (st det : Nat) (s : State) : (s.endNetConfig st det).pending = s.pending := by
  unfold State.endNetConfig; split <;> simp
@[simp] theorem State.netReady_pending (s : State) : s.netReady.pending = s.pending := by
  unfold State.netReady; split <;> simp
@[simp] theorem linkUp_pending (p : Nat) (master anDone : Bool) (sqi : Nat) (s : State) :
    (linkUp p master anDone sqi s).pending = s.pending := by
  fun_cases linkUp <;> simp +zetaDelta
@[simp] theorem linkTrainTimeout_pending (p : Nat) (s : State) : (linkTrainTimeout p s).pending = s.pending := by
  unfold linkTrainTimeout; split <;> simp
@[simp] theorem dadComplete_pending (inUse : Bool) (s : State) : (dadComplete inUse s).pending = s.pending := by
  fun_cases dadComplete <;> simp +zetaDelta
@[simp] theorem State.retrain_pending (phy : Nat) (s : State) (p : Nat) : (s.retrain phy p).pending = s.pending := by
  simp [State.retrain]
@[simp] theorem State.restartPtp_pending (profile : Nat) (s : State) : (s.restartPtp profile).pending = s.pending := by
  simp [State.restartPtp]
@[simp] theorem netConfigEffect_pending (c : Cmd) (s : State) : (netConfigEffect c s).pending = s.pending := by
  simp [netConfigEffect]
@[simp] theorem netConfig_pending (c : Cmd) (s : State) : (netConfig c s).pending = s.pending := by
  unfold netConfig; split
  · rfl
  · exact State.run_pending _ _ _ _ (.of_plain rfl) (netConfigEffect_pending c)
@[simp] theorem trdpConfigEffect_pending (c : Cmd) (s : State) : (trdpConfigEffect c s).pending = s.pending := by
  simp [trdpConfigEffect]
@[simp] theorem streamConfigEffect_pending (c : Cmd) (s : State) : (streamConfigEffect c s).pending = s.pending := by
  simp [streamConfigEffect]
@[simp] theorem State.clearNet_pending (p mask : Nat) (s : State) : (s.clearNet p mask).pending = s.pending := by rfl
@[simp] theorem netStatusEffect_pending (c : Cmd) (s : State) : (netStatusEffect c s).pending = s.pending := by
  simp [netStatusEffect]
@[simp] theorem streamStatusEffect_pending (c : Cmd) (s : State) : (streamStatusEffect c s).pending = s.pending := by
  simp [streamStatusEffect]
@[simp] theorem State.countSent_pending (p bits : Nat) (s : State) : (s.countSent p bits).pending = s.pending := by rfl
@[simp] theorem State.takePrp_pending (both : Bool) (prp : Option Nat) (s : State) :
    (State.takePrp both prp s).2.pending = s.pending := by
  fun_cases State.takePrp <;> simp +zetaDelta
@[simp] theorem State.sendTx_pending (p : Nat) (f : TxFrame) (s : State) : (s.sendTx p f).pending = s.pending := by
  simp only [State.sendTx]; split <;> simp
@[simp] theorem State.unresolvedFrame_pending (f : EgressFrame) (s : State) : (s.unresolvedFrame f).pending = s.pending := by
  unfold State.unresolvedFrame; split <;> simp
@[simp] theorem State.sendPoint_pending (p : Nat) (f : EgressFrame) (s : State) : (s.sendPoint p f).pending = s.pending := by
  simp [State.sendPoint]
@[simp] theorem frameTransmit_pending (p : Nat) (s : State) : (frameTransmit p s).pending = s.pending := by
  fun_cases frameTransmit <;> simp +zetaDelta
@[simp] theorem frameTxComplete_pending (p : Nat) (s : State) : (frameTxComplete p s).pending = s.pending := by
  simp [frameTxComplete]
@[simp] theorem State.noteSeq_pending (p : Nat) (f : NetFrame) (s : State) : (s.noteSeq p f).pending = s.pending := by
  unfold State.noteSeq; split <;> simp
@[simp] theorem State.learnNeighbour_pending (a mac : List Byte) (s : State) : (s.learnNeighbour a mac).pending = s.pending := by
  simp [State.learnNeighbour]
@[simp] theorem State.answerEcho_pending (v6 : Bool) (src payload : List Byte) (s : State) :
    (s.answerEcho v6 src payload).pending = s.pending := by
  simp [State.answerEcho]
@[simp] theorem State.addFragment_pending (src ident offset : Nat) (last : Bool) (data : List Byte) (s : State) :
    (s.addFragment src ident offset last data).pending = s.pending := by
  unfold State.addFragment; split <;> simp
@[simp] theorem State.takeFrame_pending (f : NetFrame) (s : State) : (s.takeFrame f).pending = s.pending := by
  unfold State.takeFrame; split <;> simp
@[simp] theorem netFrameReceive_pending (p : Nat) (f : NetFrame) (s : State) : (netFrameReceive p f s).pending = s.pending := by
  simp [netFrameReceive]
@[simp] theorem reasmTimeout_pending (context : Nat) (s : State) : (reasmTimeout context s).pending = s.pending := by
  unfold reasmTimeout; split <;> simp
@[simp] theorem prpSupervisionSend_pending (s : State) : (prpSupervisionSend s).pending = s.pending := by
  simp [prpSupervisionSend]
@[simp] theorem neighbourRefresh_pending (addr : List Byte) (s : State) : (neighbourRefresh addr s).pending = s.pending := by
  unfold neighbourRefresh; split <;> simp

/-! ### Loop faults and test signals -/

@[simp] theorem State.injectLost_pending (n : Nat) (c : Cmd) (played : Nat) (s : State) :
    (s.injectLost n c played).pending = s.pending := by
  simp [State.injectLost]
@[simp] theorem State.breakInject_pending (n : Nat) (s : State) : (s.breakInject n).pending = s.pending := by
  unfold State.breakInject; split <;> simp
@[simp] theorem State.cameoTrigger_pending (n trig : Nat) (s : State) : (s.cameoTrigger n trig).pending = s.pending := by
  simp [State.cameoTrigger]
@[simp] theorem State.galvoActs_pending (s : State) : s.galvoActs.pending = s.pending := by
  simp [State.galvoActs]
@[simp] theorem State.latch_pending (n cls action : Nat) (s : State) : (s.latch n cls action).pending = s.pending := by
  simp [State.latch]
@[simp] theorem State.countFault_pending (n : Nat) (s : State) : (s.countFault n).pending = s.pending := by rfl
@[simp] theorem State.raiseFault_pending (n cls : Nat) (s : State) : (s.raiseFault n cls).pending = s.pending := by
  simp [State.raiseFault]
@[simp] theorem State.spindleLost_pending (s : State) : s.spindleLost.pending = s.pending := by
  simp [State.spindleLost]
@[simp] theorem State.pavaneMotion_pending (s : State) : s.pavaneMotion.pending = s.pending := by
  simp [State.pavaneMotion]
@[simp] theorem State.motionCheck_pending (s : State) : s.motionCheck.pending = s.pending := by
  simp [State.motionCheck]
@[simp] theorem State.unlatch_pending (n : Nat) (s : State) : (s.unlatch n).pending = s.pending := by
  simp [State.unlatch]

/-! ### The resolver's shared operations -/

@[simp] theorem State.onFslot_pending (n : Nat) (f : FilterSlot → FilterSlot) (s : State) :
    (s.onFslot n f).pending = s.pending := by rfl
@[simp] theorem State.unsettleCarrier_pending (s : State) : s.unsettleCarrier.pending = s.pending := by
  simp [State.unsettleCarrier]
@[simp] theorem State.resetCarrier_pending (s : State) : s.resetCarrier.pending = s.pending := by
  simp [State.resetCarrier]
@[simp] theorem State.switchSources_pending (s : State) : s.switchSources.pending = s.pending := by
  simp [State.switchSources]
@[simp] theorem State.publish_pending (stampNext : Nat) (s : State) : (s.publish stampNext).pending = s.pending := by
  simp [State.publish]
@[simp] theorem State.encDrive_pending (s : State) : s.encDrive.pending = s.pending := by
  simp [State.encDrive]
@[simp] theorem State.encJump_pending (s : State) : s.encJump.pending = s.pending := by rfl
@[simp] theorem State.encResume_pending (s : State) : s.encResume.pending = s.pending := by
  fun_cases State.encResume <;> simp +zetaDelta
@[simp] theorem State.encFreeze_pending (s : State) : s.encFreeze.pending = s.pending := by rfl
@[simp] theorem State.discardLearn_pending (det : Nat) (s : State) : (s.discardLearn det).pending = s.pending := by
  unfold State.discardLearn; split <;> simp
@[simp] theorem State.angleGone_pending (st : LockState) (s : State) : (s.angleGone st).pending = s.pending := by
  simp [State.angleGone]
@[simp] theorem State.loseLock_pending (cause : Nat) (s : State) : (s.loseLock cause).pending = s.pending := by
  simp [State.loseLock]
@[simp] theorem State.coast_pending (s : State) : s.coast.pending = s.pending := by
  simp [State.coast]
@[simp] theorem State.parkExc_pending (s : State) : s.parkExc.pending = s.pending := by rfl
@[simp] theorem State.resolverUnlock_pending (s : State) : s.resolverUnlock.pending = s.pending := by
  simp [State.resolverUnlock]

/-! ### The time base and PTP -/

@[simp] theorem State.faultWindow_pending (s : State) (ch : Nat) : (s.faultWindow ch).pending = s.pending := by
  unfold State.faultWindow; split <;> simp
@[simp] theorem State.loseClock_pending (src : Nat) (s : State) : (s.loseClock src).pending = s.pending := by
  simp [State.loseClock]
@[simp] theorem pllUnlock_pending (s : State) : (pllUnlock s).pending = s.pending := by
  simp [pllUnlock]
@[simp] theorem pllRelock_pending (cycles : Nat) (s : State) : (pllRelock cycles s).pending = s.pending := by
  simp [pllRelock]
@[simp] theorem pllLockHold_pending (s : State) : (pllLockHold s).pending = s.pending := by
  simp [pllLockHold]
@[simp] theorem State.retrim_pending (s : State) : s.retrim.pending = s.pending := by
  simp [State.retrim]
@[simp] theorem freqErrInterval_pending (s : State) : (freqErrInterval s).pending = s.pending := by
  simp [freqErrInterval]
@[simp] theorem xoTrimRampStep_pending (s : State) : (xoTrimRampStep s).pending = s.pending := by
  simp [xoTrimRampStep]
@[simp] theorem State.slew_pending (s : State) : s.slew.pending = s.pending := by rfl
@[simp] theorem State.stepTime_pending (offset : Int) (s : State) : (s.stepTime offset).pending = s.pending := by rfl
@[simp] theorem State.holdOver_pending (s : State) : s.holdOver.pending = s.pending := by rfl
@[simp] theorem State.acquire_pending (offset : Int) (s : State) : (s.acquire offset).pending = s.pending := by
  simp [State.acquire]
@[simp] theorem State.offsetSample_pending (offset : Int) (s : State) : (s.offsetSample offset).pending = s.pending := by
  simp only [State.offsetSample]; split <;> simp
@[simp] theorem ptpHoldoverTimeout_pending (s : State) : (ptpHoldoverTimeout s).pending = s.pending := by
  simp [ptpHoldoverTimeout]
@[simp] theorem State.selectPtp_pending (s : State) : s.selectPtp.pending = s.pending := by
  simp [State.selectPtp]
@[simp] theorem State.ptpAnnounce_pending (p : Nat) (gm : GmData) (interval : Int) (s : State) :
    (s.ptpAnnounce p gm interval).pending = s.pending := by
  simp [State.ptpAnnounce]
@[simp] theorem State.ptpSync_pending (p origin : Nat) (interval : Int) (s : State) :
    (s.ptpSync p origin interval).pending = s.pending := by
  simp [State.ptpSync]
@[simp] theorem ptpMessageReceive_pending (m : PtpMessage) (s : State) : (ptpMessageReceive m s).pending = s.pending := by
  unfold ptpMessageReceive; split <;> simp
@[simp] theorem ptpSyncTimeout_pending (s : State) : (ptpSyncTimeout s).pending = s.pending := by
  simp [ptpSyncTimeout]
@[simp] theorem announceReceiptTimeout_pending (p : Nat) (s : State) : (announceReceiptTimeout p s).pending = s.pending := by
  simp [announceReceiptTimeout]

/-! ### The filter engine -/

@[simp] theorem State.noteSat_pending (sat : Bool) (s : State) : (s.noteSat sat).pending = s.pending := by
  simp [State.noteSat]

/-! ### Zone outputs and telegrams -/

@[simp] theorem zoneReadbackFault_pending (s : State) : (zoneReadbackFault s).pending = s.pending := by rfl
@[simp] theorem testPulseStart_pending (out : Nat) (s : State) : (testPulseStart out s).pending = s.pending := by
  simp [testPulseStart]
@[simp] theorem testPulseEnd_pending (out : Nat) (s : State) : (testPulseEnd out s).pending = s.pending := by
  simp [testPulseEnd]
@[simp] theorem zoneSnapshot_pending (s : State) : (zoneSnapshot s).pending = s.pending := by
  simp [zoneSnapshot]
@[simp] theorem zoneWdog_pending (s : State) : (zoneWdog s).pending = s.pending := by
  simp [zoneWdog]
@[simp] theorem State.sendTelegram_pending (payload : List Byte) (s : State) : (s.sendTelegram payload).pending = s.pending := by
  simp [State.sendTelegram]
@[simp] theorem zoneTelegramSend_pending (s : State) : (zoneTelegramSend s).pending = s.pending := by
  simp [zoneTelegramSend]
@[simp] theorem fieldDeadline_pending (view cell : Nat) (s : State) : (fieldDeadline view cell s).pending = s.pending := by
  unfold fieldDeadline; split <;> simp
@[simp] theorem fireTableEffect_pending (c : Cmd) (s : State) : (fireTableEffect c s).pending = s.pending := by
  simp [fireTableEffect]
@[simp] theorem nearfieldConfigEffect_pending (c : Cmd) (s : State) : (nearfieldConfigEffect c s).pending = s.pending := by
  simp [nearfieldConfigEffect]
@[simp] theorem fieldDefineEffect_pending (c : Cmd) (s : State) : (fieldDefineEffect c s).pending = s.pending := by
  simp [fieldDefineEffect]
@[simp] theorem zoneConfigEffect_pending (c : Cmd) (s : State) : (zoneConfigEffect c s).pending = s.pending := by
  simp [zoneConfigEffect]
@[simp] theorem schedConfigEffect_pending (c : Cmd) (s : State) : (schedConfigEffect c s).pending = s.pending := by
  simp [schedConfigEffect]
@[simp] theorem emitHoldEffect_pending (c : Cmd) (s : State) : (emitHoldEffect c s).pending = s.pending := by
  simp [emitHoldEffect]
@[simp] theorem State.clearShots_pending (mask : Nat) (s : State) : (s.clearShots mask).pending = s.pending := by rfl
@[simp] theorem shotStatusEffect_pending (c : Cmd) (s : State) : (shotStatusEffect c s).pending = s.pending := by
  simp [shotStatusEffect]
@[simp] theorem State.clearOutFault_pending (s : State) : s.clearOutFault.pending = s.pending := by rfl
@[simp] theorem zoneStatusEffect_pending (c : Cmd) (s : State) : (zoneStatusEffect c s).pending = s.pending := by
  simp [zoneStatusEffect]

/-! ### Views and sets -/

@[simp] theorem State.issueHandle_pending (i : Nat) (s : State) : (State.issueHandle i s).2.pending = s.pending := by
  simp [State.issueHandle]
@[simp] theorem viewCreateNow_pending (c : Cmd) (s : State) : (viewCreateNow c s).pending = s.pending := by
  unfold viewCreateNow; split <;> simp
@[simp] theorem viewCreateEffect_pending (c : Cmd) (s : State) : (viewCreateEffect c s).pending = s.pending := by
  simp [viewCreateEffect]
@[simp] theorem viewCreate_pending (c : Cmd) (s : State) : (viewCreate c s).pending = s.pending := by
  unfold viewCreate; split
  · rfl
  · exact State.run_pending _ _ _ _ (.of_plain rfl) (viewCreateEffect_pending c)
@[simp] theorem viewDestroyNow_pending (c : Cmd) (s : State) : (viewDestroyNow c s).pending = s.pending := by
  simp [viewDestroyNow]
@[simp] theorem viewDestroyEffect_pending (c : Cmd) (s : State) : (viewDestroyEffect c s).pending = s.pending := by
  simp [viewDestroyEffect]
@[simp] theorem viewQueryEffect_pending (c : Cmd) (s : State) : (viewQueryEffect c s).pending = s.pending := by
  simp [viewQueryEffect]
@[simp] theorem viewParamEffect_pending (c : Cmd) (s : State) : (viewParamEffect c s).pending = s.pending := by
  simp [viewParamEffect]
@[simp] theorem viewUpdateNow_pending (c : Cmd) (s : State) : (viewUpdateNow c s).pending = s.pending := by
  simp [viewUpdateNow]
@[simp] theorem viewUpdateEffect_pending (c : Cmd) (s : State) : (viewUpdateEffect c s).pending = s.pending := by
  simp [viewUpdateEffect]
@[simp] theorem State.releaseFade_pending (e : Nat) (s : State) : (s.releaseFade e).pending = s.pending := by
  unfold State.releaseFade; split <;> simp
@[simp] theorem State.dropCommit_pending (c : Cmd) (s t : State) : (s.dropCommit c t).pending = t.pending := by
  simp [State.dropCommit]
@[simp] theorem setCommitEffect_pending (c : Cmd) (s : State) : (setCommitEffect c s).pending = s.pending := by
  simp [setCommitEffect]
@[simp] theorem State.copyLost_pending (shadow : Bool) (s : State) : (s.copyLost shadow).pending = s.pending := by rfl
@[simp] theorem setAbortNow_pending (c : Cmd) (s : State) : (setAbortNow c s).pending = s.pending := by
  simp [setAbortNow]
@[simp] theorem setAbortEffect_pending (c : Cmd) (s : State) : (setAbortEffect c s).pending = s.pending := by
  simp [setAbortEffect]
@[simp] theorem setReadEffect_pending (c : Cmd) (s : State) : (setReadEffect c s).pending = s.pending := by
  unfold setReadEffect; split <;> simp

/-! ### The control rows -/

@[simp] theorem State.onMdrv_pending (f : Mdrv → Mdrv) (s : State) : (s.onMdrv f).pending = s.pending := by rfl
@[simp] theorem State.onCameo_pending (f : Cameo → Cameo) (s : State) : (s.onCameo f).pending = s.pending := by rfl
@[simp] theorem State.capture_pending (n : Nat) (s : State) : (s.capture n).pending = s.pending := by
  simp [State.capture]
@[simp] theorem State.endCapture_pending (s : State) : s.endCapture.pending = s.pending := by
  unfold State.endCapture; split <;> simp
@[simp] theorem cameoCaptureComplete_pending (s : State) : (cameoCaptureComplete s).pending = s.pending := by
  fun_cases cameoCaptureComplete <;> simp +zetaDelta
@[simp] theorem State.adoptSettings_pending (n : Nat) (s : State) : (s.adoptSettings n).pending = s.pending := by
  simp [State.adoptSettings]
@[simp] theorem State.adoptGain_pending (n : Nat) (s : State) : (s.adoptGain n).pending = s.pending := by
  simp [State.adoptGain]
@[simp] theorem State.injectStep_pending (n : Nat) (s : State) : (s.injectStep n).pending = s.pending := by
  unfold State.injectStep; split <;> simp
@[simp] theorem State.supervise_pending (n : Nat) (ri yv : Rat) (s : State) : (s.supervise n ri yv).pending = s.pending := by
  simp [State.supervise]
@[simp] theorem State.runLaw_pending (n : Nat) (y : Option Int) (s : State) : (s.runLaw n y).pending = s.pending := by
  fun_cases State.runLaw <;> simp +zetaDelta
@[simp] theorem State.galvoGap_pending (s : State) : s.galvoGap.pending = s.pending := by
  simp [State.galvoGap]
@[simp] theorem State.sampleDone_pending (n : Nat) (s : State) : (s.sampleDone n).pending = s.pending := by
  simp [State.sampleDone]
@[simp] theorem State.sampleLate_pending (n : Nat) (s : State) : (s.sampleLate n).pending = s.pending := by
  simp [State.sampleLate]
@[simp] theorem State.sample_pending (n : Nat) (finished : Bool) (s : State) : (s.sample n finished).pending = s.pending := by
  simp [State.sample]
@[simp] theorem State.demandDue_pending (s : State) : s.demandDue.pending = s.pending := by
  simp [State.demandDue]
@[simp] theorem State.mdrvUnit_pending (b : List Byte) (s : State) : (s.mdrvUnit b).pending = s.pending := by rfl
@[simp] theorem State.mdrvSend_pending (s : State) : s.mdrvSend.pending = s.pending := by
  simp [State.mdrvSend]
@[simp] theorem spindleSample_pending (finished : Bool) (s : State) : (spindleSample finished s).pending = s.pending := by
  simp [spindleSample]
@[simp] theorem mdrvUplinkReceive_pending (b : List Byte) (s : State) : (mdrvUplinkReceive b s).pending = s.pending := by
  simp [mdrvUplinkReceive]
@[simp] theorem mdrvUplinkTimeout_pending (s : State) : (mdrvUplinkTimeout s).pending = s.pending := by
  simp [mdrvUplinkTimeout]
@[simp] theorem State.galvoOutput_pending (st : LoopState) (s : State) : (s.galvoOutput st).pending = s.pending := by
  unfold State.galvoOutput; split <;> simp
@[simp] theorem State.galvoRelease_pending (s : State) : s.galvoRelease.pending = s.pending := by
  simp [State.galvoRelease]
@[simp] theorem State.keepGalvo_pending (s : State) : s.keepGalvo.pending = s.pending := by
  simp [State.keepGalvo]
@[simp] theorem galvoSample_pending (finished : Bool) (s : State) : (galvoSample finished s).pending = s.pending := by
  simp [galvoSample]
@[simp] theorem galvoShort_pending (s : State) : (galvoShort s).pending = s.pending := by
  simp [galvoShort]
@[simp] theorem loopConfigEffect_pending (c : Cmd) (s : State) : (loopConfigEffect c s).pending = s.pending := by
  simp [loopConfigEffect]
@[simp] theorem loopCoeffEffect_pending (c : Cmd) (s : State) : (loopCoeffEffect c s).pending = s.pending := by
  simp [loopCoeffEffect]
@[simp] theorem State.endInject_pending (n : Nat) (s : State) : (s.endInject n).pending = s.pending := by
  unfold State.endInject; split <;> simp
@[simp] theorem ctrlInjectEffect_pending (c : Cmd) (s : State) : (ctrlInjectEffect c s).pending = s.pending := by
  simp [ctrlInjectEffect]
@[simp] theorem ctrlInject_pending (c : Cmd) (s : State) : (ctrlInject c s).pending = s.pending := by
  simp only [ctrlInject]; split
  · rfl
  · exact State.run_pending _ _ _ _ (.of_plain rfl) (ctrlInjectEffect_pending c)
@[simp] theorem ctrlInjectStop_pending (c : Cmd) (s : State) : (ctrlInjectStop c s).pending = s.pending :=
  State.run_pending _ _ _ _ (.of_plain rfl) (ctrlInjectEffect_pending c)
@[simp] theorem injectEnd_pending (n : Nat) (s : State) : (injectEnd n s).pending = s.pending := by
  unfold injectEnd; split <;> simp
@[simp] theorem cameoArmEffect_pending (c : Cmd) (s : State) : (cameoArmEffect c s).pending = s.pending := by
  simp [cameoArmEffect]
@[simp] theorem cameoStop_pending (c : Cmd) (s : State) : (cameoStop c s).pending = s.pending :=
  State.run_pending _ _ _ _ (.of_plain rfl) (cameoArmEffect_pending c)
@[simp] theorem cameoReadEffect_pending (c : Cmd) (s : State) : (cameoReadEffect c s).pending = s.pending := by
  simp [cameoReadEffect]
@[simp] theorem State.clearLoop_pending (n m : Nat) (s : State) : (s.clearLoop n m).pending = s.pending := by rfl
@[simp] theorem ctrlStatusEffect_pending (c : Cmd) (s : State) : (ctrlStatusEffect c s).pending = s.pending := by
  simp [ctrlStatusEffect]
@[simp] theorem motionRecordEffect_pending (c : Cmd) (s : State) : (motionRecordEffect c s).pending = s.pending := by
  simp [motionRecordEffect]

/-! ### The resolver's events -/

@[simp] theorem State.endReset_pending (s : State) (x : Nat × Cmd × Nat × Bool) : (s.endReset x).pending = s.pending := by
  simp [State.endReset]
@[simp] theorem State.settleReset_pending (s : State) : s.settleReset.pending = s.pending := by
  simp [State.settleReset]
@[simp] theorem State.takeReset_pending (p : List Byte) (s : State) : (s.takeReset p).pending = s.pending := by
  simp [State.takeReset]
@[simp] theorem State.syncReset_pending (op : Nat) (c : Cmd) (at_ : Nat) (s : State) :
    (s.syncReset op c at_).pending = s.pending := by
  simp [State.syncReset]
@[simp] theorem excChange_pending (s : State) : (excChange s).pending = s.pending := by
  unfold excChange; split <;> simp
@[simp] theorem excShort_pending (s : State) : (excShort s).pending = s.pending := by
  simp [excShort]
@[simp] theorem State.checkExc_pending (s : State) : s.checkExc.pending = s.pending := by
  simp [State.checkExc]
@[simp] theorem State.takeOutput_pending (slot : Nat) (g : FilterSlot) (sat : Bool) (at_ : Nat) (s : State) :
    (s.takeOutput slot g sat at_).pending = s.pending := by
  simp [State.takeOutput]
@[simp] theorem filterOutput_pending (slot : Nat) (bits : List Bool) (test : Bool) (stamp : Nat) (s : State) :
    (filterOutput slot bits test stamp s).pending = s.pending := by
  simp [filterOutput]
@[simp] theorem galvoFilterOutput_pending (gpa gpb : List Bool) (test : Bool) (s : State) :
    (galvoFilterOutput gpa gpb test s).pending = s.pending := by
  fun_cases galvoFilterOutput <;> simp +zetaDelta
@[simp] theorem State.onCam_pending (n : Nat) (f : CamPin → CamPin) (s : State) : (s.onCam n f).pending = s.pending := by rfl
@[simp] theorem State.commitCams_pending (s : State) : s.commitCams.pending = s.pending := by
  simp [State.commitCams]
@[simp] theorem State.lateCams_pending (old s : State) : (old.lateCams s).pending = s.pending := by
  simp [State.lateCams]
@[simp] theorem State.takeCams_pending (s : State) : s.takeCams.pending = s.pending := by
  simp [State.takeCams]
@[simp] theorem State.cycTake_pending (s : State) : s.cycTake.pending = s.pending := by
  unfold State.cycTake; split <;> simp
@[simp] theorem State.slowEffects_pending (s : State) : s.slowEffects.pending = s.pending := by
  simp [State.slowEffects]
@[simp] theorem State.runUpdate_pending (x y : Int) (amp : Nat) (s : State) :
    (State.runUpdate x y amp s).1.pending = s.pending := by
  simp [State.runUpdate]
@[simp] theorem State.seekPair_pending (x y : Int) (amp : Nat) (s : State) : (s.seekPair x y amp).pending = s.pending := by
  fun_cases State.seekPair <;> simp +zetaDelta
@[simp] theorem State.acquireUpdate_pending (x y : Int) (amp : Nat) (s : State) :
    (s.acquireUpdate x y amp).pending = s.pending := by
  simp [State.acquireUpdate]
@[simp] theorem lockAcquired_pending (s : State) : (lockAcquired s).pending = s.pending := by
  simp [lockAcquired]
@[simp] theorem State.gatePair_pending (x y : Int) (s : State) : (s.gatePair x y).pending = s.pending := by
  simp [State.gatePair]
@[simp] theorem speedCheckGate_pending (s : State) : (speedCheckGate s).pending = s.pending := by
  simp only [speedCheckGate]
  repeat' split
  all_goals simp -implicitDefEqProofs
@[simp] theorem State.steerPhase_pending (x y : Int) (s : State) : (s.steerPhase x y).pending = s.pending := by
  simp -implicitDefEqProofs [State.steerPhase]
@[simp] theorem State.coastPair_pending (s : State) : s.coastPair.pending = s.pending := by
  simp [State.coastPair]
@[simp] theorem State.trackUpdate_pending (x y : Int) (amp : Nat) (s : State) : (s.trackUpdate x y amp).pending = s.pending := by
  simp [State.trackUpdate]
@[simp] theorem trackingUpdate_pending (s : State) : (trackingUpdate s).pending = s.pending := by
  simp only [trackingUpdate]
  repeat' split
  all_goals simp
@[simp] theorem stuckModulator_pending (slot : Nat) (s : State) : (stuckModulator slot s).pending = s.pending := by
  simp [stuckModulator]
@[simp] theorem coastTimeout_pending (s : State) : (coastTimeout s).pending = s.pending := by
  simp [coastTimeout]
@[simp] theorem State.cycReplace_pending (p : CycPending) (cmds : List (Nat × Cmd)) (s : State) :
    (s.cycReplace p cmds).pending = s.pending := by
  simp [State.cycReplace]
@[simp] theorem cycLearnPassEnd_pending (s : State) : (cycLearnPassEnd s).pending = s.pending := by
  unfold cycLearnPassEnd; split <;> simp
@[simp] theorem State.angleBoundary_pending (s : State) : s.angleBoundary.pending = s.pending := by
  simp [State.angleBoundary]
@[simp] theorem encStateChange_pending (s : State) : (encStateChange s).pending = s.pending := by
  simp [encStateChange]
@[simp] theorem encOverrate_pending (s : State) : (encOverrate s).pending = s.pending := by
  simp [encOverrate]
@[simp] theorem camTrigEdge_pending (n : Nat) (s : State) : (camTrigEdge n s).pending = s.pending := by
  fun_cases camTrigEdge <;> simp +zetaDelta
@[simp] theorem camTrigPulseEnd_pending (n : Nat) (s : State) : (camTrigPulseEnd n s).pending = s.pending := by
  simp [camTrigPulseEnd]

/-! ### The angle opcodes -/

@[simp] theorem State.angleRun_pending (o : OpInfo) (c : Cmd) (eff : State → State) (s : State) (hr : o.KeepsQueue)
    (h : ∀ t, (eff t).pending = t.pending) : (s.angleRun o c eff).pending = s.pending := by
  unfold State.angleRun; split
  · rfl
  · exact State.run_pending o c eff s hr h
@[simp] theorem State.requestReset_pending (op : Nat) (c : Cmd) (s : State) : (s.requestReset op c).pending = s.pending := by
  simp [State.requestReset]
@[simp] theorem angleConfigEffect_pending (c : Cmd) (s : State) : (angleConfigEffect c s).pending = s.pending := by
  simp [angleConfigEffect]
@[simp] theorem angleFrameEffect_pending (c : Cmd) (s : State) : (angleFrameEffect c s).pending = s.pending := by
  simp [angleFrameEffect]
@[simp] theorem cycLearnEffect_pending (c : Cmd) (s : State) : (cycLearnEffect c s).pending = s.pending := by
  simp [cycLearnEffect]
@[simp] theorem cycLearn_pending (c : Cmd) (s : State) : (cycLearn c s).pending = s.pending := by
  unfold cycLearn; split
  · rfl
  · exact State.angleRun_pending _ _ _ _ (.of_plain rfl) (cycLearnEffect_pending c)
@[simp] theorem cycSelectEffect_pending (c : Cmd) (s : State) : (cycSelectEffect c s).pending = s.pending := by
  simp [cycSelectEffect]
@[simp] theorem encConfigEffect_pending (c : Cmd) (s : State) : (encConfigEffect c s).pending = s.pending := by
  simp [encConfigEffect]
@[simp] theorem camConfigEffect_pending (c : Cmd) (s : State) : (camConfigEffect c s).pending = s.pending := by
  simp [camConfigEffect]
@[simp] theorem State.restartExc_pending (s : State) : s.restartExc.pending = s.pending := by
  simp [State.restartExc]
@[simp] theorem State.clearAngle_pending (m : Nat) (s : State) : (s.clearAngle m).pending = s.pending := by
  simp [State.clearAngle]
@[simp] theorem angleStatusEffect_pending (c : Cmd) (s : State) : (angleStatusEffect c s).pending = s.pending := by
  simp [angleStatusEffect]

/-! ### The SiPM bias and the return channels -/

@[simp] theorem State.onBias_pending (f : Bias → Bias) (s : State) : (s.onBias f).pending = s.pending := by rfl
@[simp] theorem State.endBias_pending (st det : Nat) (s : State) : (s.endBias st det).pending = s.pending := by
  unfold State.endBias; split <;> simp
@[simp] theorem State.settleBias_pending (s : State) : s.settleBias.pending = s.pending := by
  simp [State.settleBias]
@[simp] theorem State.biasReading_pending (m curve : Nat) (value : Int) (valid : Bool) (s : State) :
    (s.biasReading m curve value valid).pending = s.pending := by
  simp [State.biasReading]
@[simp] theorem biasTempTimeout_pending (s : State) : (biasTempTimeout s).pending = s.pending := by
  simp [biasTempTimeout]
@[simp] theorem biasTargetCompute_pending (s : State) : (biasTargetCompute s).pending = s.pending := by
  simp [biasTargetCompute]
@[simp] theorem biasStep_pending (s : State) : (biasStep s).pending = s.pending := by
  simp [biasStep]
@[simp] theorem biasSettled_pending (s : State) : (biasSettled s).pending = s.pending := by
  simp [biasSettled]
@[simp] theorem biasFault_pending (s : State) : (biasFault s).pending = s.pending := by
  simp [biasFault]
@[simp] theorem biasConfigEffect_pending (c : Cmd) (s : State) : (biasConfigEffect c s).pending = s.pending := by
  simp [biasConfigEffect]
@[simp] theorem rxConfigEffect_pending (c : Cmd) (s : State) : (rxConfigEffect c s).pending = s.pending := by
  simp [rxConfigEffect]
@[simp] theorem rxStatusEffect_pending (c : Cmd) (s : State) : (rxStatusEffect c s).pending = s.pending := by
  simp [rxStatusEffect]
@[simp] theorem rxOverload_pending (ch : Nat) (s : State) : (rxOverload ch s).pending = s.pending := by
  simp [rxOverload]
@[simp] theorem rxSilent_pending (ch : Nat) (s : State) : (rxSilent ch s).pending = s.pending := by
  simp [rxSilent]

/-! ### Auxiliary sensing and Bezel -/

@[simp] theorem State.onMeas_pending (m : Nat) (f : AuxMeas → AuxMeas) (s : State) : (s.onMeas m f).pending = s.pending := by
  rfl
@[simp] theorem State.onPiezo_pending (f : Piezo → Piezo) (s : State) : (s.onPiezo f).pending = s.pending := by rfl
@[simp] theorem State.takeSettings_pending (m : Nat) (s : State) : (s.takeSettings m).pending = s.pending := by
  unfold State.takeSettings; split <;> simp
@[simp] theorem State.seek_pending (l : List Nat) (s : State) : (s.seek l).pending = s.pending := by
  induction l generalizing s with
  | nil => rfl
  | cons m r ih => simp [State.seek, ih]
@[simp] theorem State.seekAgain_pending (s : State) : s.seekAgain.pending = s.pending := by
  unfold State.seekAgain; split <;> simp
@[simp] theorem State.checkCalRun_pending (s : State) : s.checkCalRun.pending = s.pending := by
  unfold State.checkCalRun; split <;> simp
@[simp] theorem State.insertCals_pending (s : State) : s.insertCals.pending = s.pending := by
  simp [State.insertCals]
@[simp] theorem State.nextTurn_pending (m : Nat) (s : State) : (s.nextTurn m).pending = s.pending := by
  simp [State.nextTurn]
@[simp] theorem State.startAux_pending (s : State) : s.startAux.pending = s.pending := by
  simp [State.startAux]
@[simp] theorem State.bezelDutyFor_pending (curve : Nat) (r : AuxResult) (s : State) :
    (s.bezelDutyFor curve r).pending = s.pending := by
  simp [State.bezelDutyFor]
@[simp] theorem State.publishAux_pending (m : Nat) (p : List Byte) (r : AuxResult) (s : State) :
    (s.publishAux m p r).pending = s.pending := by
  simp only [State.publishAux]; split <;> simp
@[simp] theorem auxMeasurementDone_pending (code1 code2 : Int) (compliance : Bool) (s : State) :
    (auxMeasurementDone code1 code2 compliance s).pending = s.pending := by
  unfold auxMeasurementDone; split <;> simp
@[simp] theorem State.offsetCode_pending (g : Nat) (code : Int) (s : State) : (s.offsetCode g code).pending = s.pending := by
  simp [State.offsetCode]
@[simp] theorem auxOffsetCal_pending (g : Nat) (code : Int) (s : State) : (auxOffsetCal g code s).pending = s.pending := by
  simp [auxOffsetCal]
@[simp] theorem heatPwmPeriod_pending (s : State) : (heatPwmPeriod s).pending = s.pending := by
  simp [heatPwmPeriod]
@[simp] theorem shock_pending (charge : Int) (s : State) : (shock charge s).pending = s.pending := by
  unfold shock; split <;> simp
@[simp] theorem piezoReset_pending (s : State) : (piezoReset s).pending = s.pending := by
  unfold piezoReset; split <;> simp
@[simp] theorem State.bezelLearned_pending (c : Cmd) (s : State) : (s.bezelLearned c).pending = s.pending := by
  simp [State.bezelLearned]
@[simp] theorem State.bezelBoundary_pending (s : State) : s.bezelBoundary.pending = s.pending := by
  simp only [State.bezelBoundary]; split <;> simp
@[simp] theorem State.doneOrStore_pending (op rec : Nat) (persist : Bool) (c : Cmd) (s : State) :
    (s.doneOrStore op rec persist c).pending = s.pending := by
  simp [State.doneOrStore]
@[simp] theorem auxMeasConfigEffect_pending (c : Cmd) (s : State) : (auxMeasConfigEffect c s).pending = s.pending := by
  simp [auxMeasConfigEffect]
@[simp] theorem auxSwitchConfigEffect_pending (c : Cmd) (s : State) : (auxSwitchConfigEffect c s).pending = s.pending := by
  simp [auxSwitchConfigEffect]
@[simp] theorem auxCalEffect_pending (c : Cmd) (s : State) : (auxCalEffect c s).pending = s.pending := by
  simp [auxCalEffect]
@[simp] theorem auxCal_pending (c : Cmd) (s : State) : (auxCal c s).pending = s.pending := by
  unfold auxCal; split
  · rfl
  · exact State.run_pending _ _ _ _ (.of_plain rfl) (auxCalEffect_pending c)
@[simp] theorem bezelConfigEffect_pending (c : Cmd) (s : State) : (bezelConfigEffect c s).pending = s.pending := by
  simp [bezelConfigEffect]
@[simp] theorem bezelLearnEffect_pending (c : Cmd) (s : State) : (bezelLearnEffect c s).pending = s.pending := by rfl
@[simp] theorem bezelLearn_pending (c : Cmd) (s : State) : (bezelLearn c s).pending = s.pending := by
  unfold bezelLearn; split
  · rfl
  · exact State.run_pending _ _ _ _ (.of_plain rfl) (bezelLearnEffect_pending c)
@[simp] theorem auxReadEffect_pending (c : Cmd) (s : State) : (auxReadEffect c s).pending = s.pending := by
  simp [auxReadEffect]
@[simp] theorem auxStatusEffect_pending (c : Cmd) (s : State) : (auxStatusEffect c s).pending = s.pending := by
  simp [auxStatusEffect]

/-! ### Engines and chains -/

@[simp] theorem State.leaveDone_pending (s : State) (g : Nat) : (s.leaveDone g).pending = s.pending := by
  simp [State.leaveDone]
@[simp] theorem State.leaveAll_pending (s : State) : s.leaveAll.pending = s.pending := by
  simp [State.leaveAll]
@[simp] theorem chainStart_pending (g : Nat) (s : State) : (chainStart g s).pending = s.pending := by
  fun_cases chainStart <;> simp +zetaDelta
@[simp] theorem State.runAmbient_pending (x : State × Work) : (State.runAmbient x).1.pending = x.1.pending := by
  fun_cases State.runAmbient <;> simp +zetaDelta
@[simp] theorem State.enterRain_pending (ch sector : Nat) (s : State) (zone : Nat) :
    (s.enterRain ch sector zone).pending = s.pending := by
  simp [State.enterRain]
@[simp] theorem State.runRain_pending (x : State × Work) : (State.runRain x).1.pending = x.1.pending := by
  simp [State.runRain]
@[simp] theorem State.runWindow_pending (x : State × Work) : (State.runWindow x).1.pending = x.1.pending := by
  unfold State.runWindow; split <;> simp
@[simp] theorem State.runKernel_pending (x : State × Work) (k : Nat) : (State.runKernel x k).1.pending = x.1.pending := by
  unfold State.runKernel; split <;> simp
@[simp] theorem State.runChain_pending (v : ViewDef) (h : Hist) (fs : List PassFault) (s : State) :
    (State.runChain v h fs s).1.pending = s.pending := pending_foldl_fst _ _ _ fun _ _ => State.runKernel_pending ..
@[simp] theorem State.notePasses_pending (g : Nat) (h : Hist) (fs : List PassFault) (s : State) :
    (s.notePasses g h fs).pending = s.pending := by
  simp [State.notePasses]
@[simp] theorem chainEnd_pending (g : Nat) (faults : List PassFault) (s : State) :
    (chainEnd g faults s).pending = s.pending := by
  fun_cases chainEnd <;> simp +zetaDelta
@[simp] theorem engineFault_pending (g : Nat) (faults : List PassFault) (s : State) :
    (engineFault g faults s).pending = s.pending := by
  unfold engineFault; split <;> simp
@[simp] theorem frameCloseTimeout_pending (n : Nat) (s : State) : (frameCloseTimeout n s).pending = s.pending := by
  simp [frameCloseTimeout]
@[simp] theorem trackerGateClose_pending (t i : Nat) (s : State) : (trackerGateClose t i s).pending = s.pending := by
  unfold trackerGateClose; split <;> simp
@[simp] theorem weatherUpdate_pending (s : State) : (weatherUpdate s).pending = s.pending := by
  simp -implicitDefEqProofs [weatherUpdate]

/-! ### Retention banks -/

@[simp] theorem State.repairCopies_pending (s : State) : s.repairCopies.pending = s.pending := by rfl
@[simp] theorem State.writeFlush_pending (whole : Bool) (s : State) : (s.writeFlush whole).pending = s.pending := by
  simp [State.writeFlush]
@[simp] theorem State.flushUnits_pending (a b : JournalImage) (s : State) : (s.flushUnits a b).pending = s.pending := by rfl

/-! ### Records of the eMRAM -/

@[simp] theorem State.onRecord_pending (id : Nat) (f : NvmRecord → NvmRecord) (s : State) :
    (s.onRecord id f).pending = s.pending := by
  simp [State.onRecord]
@[simp] theorem State.checkCopy_pending (bank id : Nat) (s : State) : (s.checkCopy bank id).pending = s.pending := by
  unfold State.checkCopy; cases s.readable bank id <;> simp
@[simp] theorem State.chooseRecords_pending (s : State) : s.chooseRecords.pending = s.pending := by
  simp [State.chooseRecords]
@[simp] theorem State.load_pending (id : Nat) (f : List Byte → State → State) (s : State)
    (h : ∀ p, (f p s).pending = s.pending) : (s.load id f).pending = s.pending := by
  unfold State.load; split <;> simp [h]
@[simp] theorem loadDac_pending (p : List Byte) (s : State) : (loadDac p s).pending = s.pending := by
  simp -implicitDefEqProofs [loadDac]
@[simp] theorem loadTimebase_pending (p : List Byte) (s : State) : (loadTimebase p s).pending = s.pending := by rfl
@[simp] theorem loadCorrections_pending (p : List Byte) (s : State) : (loadCorrections p s).pending = s.pending :=
  pending_foldl _ _ _ fun _ _ => State.onFe_pending ..
@[simp] theorem loadLedger_pending (p : List Byte) (s : State) : (loadLedger p s).pending = s.pending := by
  simp [loadLedger]
@[simp] theorem loadKey_pending (p : List Byte) (s : State) : (loadKey p s).pending = s.pending := by rfl
@[simp] theorem loadMap_pending (p : List Byte) (s : State) : (loadMap p s).pending = s.pending := by rfl
@[simp] theorem loadWave_pending (e : Nat) (p : List Byte) (s : State) : (loadWave e p s).pending = s.pending := by
  simp [loadWave]
@[simp] theorem loadAngle_pending (p : List Byte) (s : State) : (loadAngle p s).pending = s.pending := by rfl
@[simp] theorem loadMotion_pending (p : List Byte) (s : State) : (loadMotion p s).pending = s.pending := by rfl
@[simp] theorem loadBias_pending (p : List Byte) (s : State) : (loadBias p s).pending = s.pending := by rfl
@[simp] theorem loadAux_pending (p : List Byte) (s : State) : (loadAux p s).pending = s.pending := by rfl
@[simp] theorem loadBezel_pending (p : List Byte) (s : State) : (loadBezel p s).pending = s.pending := by rfl
@[simp] theorem loadNetwork_pending (p : List Byte) (s : State) : (loadNetwork p s).pending = s.pending := by rfl
@[simp] theorem loadRange_pending (p : List Byte) (s : State) : (loadRange p s).pending = s.pending := by rfl
@[simp] theorem loadClasp_pending (lost : Bool) (p : List Byte) (s : State) : (loadClasp lost p s).pending = s.pending := by
  simp [loadClasp]
@[simp] theorem loadMargins_pending (p : List Byte) (s : State) : (loadMargins p s).pending = s.pending := by rfl
@[simp] theorem State.loadLibrary_pending (s : State) : s.loadLibrary.pending = s.pending := by
  unfold State.loadLibrary; split <;> simp
@[simp] theorem State.loadRecords_pending (s : State) : s.loadRecords.pending = s.pending := by
  simp [State.loadRecords]
@[simp] theorem State.loadSlots_pending (s : State) : s.loadSlots.pending = s.pending := by
  simp [State.loadSlots]

/-! ### Stores -/

@[simp] theorem State.endScope_pending (scope : Nat) (s : State) : (s.endScope scope).pending = s.pending := by rfl
@[simp] theorem State.unpend_pending (c : Cmd) (s : State) : (s.unpend c).pending = s.pending := by rfl
@[simp] theorem State.storeEffect_pending (id gen : Nat) (p : List Byte) (s : State) :
    (s.storeEffect id gen p).pending = s.pending := by
  unfold State.storeEffect; split <;> simp
@[simp] theorem State.storeReply_pending (id gen st det : Nat) (s : State) (x : Nat × Cmd) :
    (s.storeReply id gen st det x).pending = s.pending := by
  simp [State.storeReply]
@[simp] theorem State.storeLost_pending (id : Nat) (s : State) : (s.storeLost id).pending = s.pending := by
  simp [State.storeLost]
@[simp] theorem State.writeCopy_pending (bank : Nat) (took : Bool) (k : NvmCopy) (s : State) :
    (s.writeCopy bank took k).pending = s.pending := by
  simp [State.writeCopy]
@[simp] theorem State.toMirror_pending (s : State) : s.toMirror.pending = s.pending := by
  simp [State.toMirror]
@[simp] theorem State.runStore_pending (a : Activity) (w1 w2 : Bool) (s : State) : (s.runStore a w1 w2).pending = s.pending := by
  simp [State.runStore]
@[simp] theorem State.runMirror_pending (a : Activity) (took : Bool) (s : State) : (s.runMirror a took).pending = s.pending := by
  simp only [State.runMirror]; split <;> simp
@[simp] theorem State.runFollowUp_pending (a : Activity) (took : Bool) (s : State) :
    (s.runFollowUp a took).pending = s.pending := by
  simp only [State.runFollowUp]; split <;> simp
@[simp] theorem nvmStore_pending (w1 w2 : Bool) (s : State) : (nvmStore w1 w2 s).pending = s.pending := by
  fun_cases nvmStore <;> simp +zetaDelta
@[simp] theorem nvmInfoEffect_pending (c : Cmd) (s : State) : (nvmInfoEffect c s).pending = s.pending := by
  simp [nvmInfoEffect]
@[simp] theorem nvmReadEffect_pending (c : Cmd) (s : State) : (nvmReadEffect c s).pending = s.pending := by
  simp [nvmReadEffect]
@[simp] theorem nvmStageEffect_pending (c : Cmd) (s : State) : (nvmStageEffect c s).pending = s.pending := by
  simp [nvmStageEffect]
@[simp] theorem nvmCommitEffect_pending (c : Cmd) (s : State) : (nvmCommitEffect c s).pending = s.pending := by
  simp [nvmCommitEffect]
@[simp] theorem nvmEraseEffect_pending (c : Cmd) (s : State) : (nvmEraseEffect c s).pending = s.pending := by
  simp [nvmEraseEffect]
@[simp] theorem keyProvisionEffect_pending (c : Cmd) (s : State) : (keyProvisionEffect c s).pending = s.pending := by
  simp [keyProvisionEffect]

/-! ### Pavane, the flush and the takeover -/

@[simp] theorem State.interrupt_pending (b : Nat) (s : State) : (s.interrupt b).pending = s.pending := by
  simp [State.interrupt]
@[simp] theorem State.withStatus_pending (f : State → State) (s : State) (h : (f s).pending = s.pending) :
    (s.withStatus f).pending = s.pending := by
  simp [State.withStatus, h]
@[simp] theorem State.dropUnaccepted_pending (s : State) : s.dropUnaccepted.pending = s.pending := by rfl
@[simp] theorem journalFlushComplete_pending (s : State) : (journalFlushComplete s).pending = s.pending := by
  simp [journalFlushComplete]
@[simp] theorem State.startFlush_pending (s : State) : s.startFlush.pending = s.pending := by rfl
@[simp] theorem State.pavaneOutputs_pending (s : State) : s.pavaneOutputs.pending = s.pending := by
  simp [State.pavaneOutputs]
@[simp] theorem State.startPavane_pending (cause : PavaneCause) (s : State) : (s.startPavane cause).pending = s.pending := by
  simp [State.startPavane]
@[simp] theorem State.tearStore_pending (s : State) : s.tearStore.pending = s.pending := by
  fun_cases State.tearStore <;> simp +zetaDelta
@[simp] theorem pfail_pending (s : State) : (pfail s).pending = s.pending := by
  simp [pfail]
@[simp] theorem xoStop_pending (s : State) : (xoStop s).pending = s.pending := by
  simp [xoStop]
@[simp] theorem State.powerDomainsDown_pending (s : State) : s.powerDomainsDown.pending = s.pending := by
  simp [State.powerDomainsDown]
@[simp] theorem pavanePowerDown_pending (s : State) : (pavanePowerDown s).pending = s.pending := by
  simp [pavanePowerDown]
@[simp] theorem State.takeOver_pending (s : State) : s.takeOver.pending = s.pending := by
  simp [State.takeOver]
@[simp] theorem standbyComparisonFail_pending (s : State) : (standbyComparisonFail s).pending = s.pending := by
  simp [standbyComparisonFail]
@[simp] theorem State.powerDownReply_pending (s : State) (x : Cmd × Nat) : (s.powerDownReply x).pending = s.pending := by
  simp [State.powerDownReply]
@[simp] theorem State.powerDownReplies_pending (s : State) : s.powerDownReplies.pending = s.pending := by
  simp [State.powerDownReplies]
@[simp] theorem State.powerDownPavane_pending (s : State) : s.powerDownPavane.pending = s.pending := by
  unfold State.powerDownPavane; split <;> simp
@[simp] theorem State.powerDownStep_pending (s : State) : s.powerDownStep.pending = s.pending := by
  simp [State.powerDownStep]
@[simp] theorem powerDownEffect_pending (c : Cmd) (s : State) : (powerDownEffect c s).pending = s.pending := by
  simp [powerDownEffect]

/-! ### Check units and memory errors -/

@[simp] theorem State.histWordLost_pending (bank word : Nat) (s : State) : (s.histWordLost bank word).pending = s.pending := by
  simp [State.histWordLost]
@[simp] theorem State.breakView_pending (h : Nat) (s : State) : (s.breakView h).pending = s.pending := by
  simp [State.breakView]
@[simp] theorem State.abandonChains_pending (h : Nat) (s : State) : (s.abandonChains h).pending = s.pending := by
  refine pending_foldl _ _ _ fun s g => ?_
  repeat' split
  all_goals simp
@[simp] theorem State.addLost_pending (w : LostWord) (s : State) : (s.addLost w).pending = s.pending := by
  simp [State.addLost]
@[simp] theorem State.viewWordLost_pending (params shadow : Bool) (s : State) :
    (s.viewWordLost params shadow).pending = s.pending := by
  simp only [State.viewWordLost]; split <;> simp
@[simp] theorem State.waveWordLost_pending (core word : Nat) (s : State) : (s.waveWordLost core word).pending = s.pending := by
  unfold State.waveWordLost; split <;> simp
@[simp] theorem State.frameWordLost_pending (s : State) : s.frameWordLost.pending = s.pending := by rfl
@[simp] theorem State.reloadStandby_pending (s : State) : s.reloadStandby.pending = s.pending := by
  simp [State.reloadStandby]
@[simp] theorem State.pairWordLost_pending (pair : Nat) (s : State) : (s.pairWordLost pair).pending = s.pending := by
  simp [State.pairWordLost]
@[simp] theorem State.captureWordLost_pending (w : Nat) (s : State) : (s.captureWordLost w).pending = s.pending := by rfl
@[simp] theorem State.cycWordLost_pending (s : State) : s.cycWordLost.pending = s.pending := by
  fun_cases State.cycWordLost <;> simp +zetaDelta
@[simp] theorem State.bankOut_pending (b : Nat) (s : State) : (s.bankOut b).pending = s.pending := by
  simp -implicitDefEqProofs [State.bankOut]
@[simp] theorem State.bankBack_pending (b : Nat) (s : State) : (s.bankBack b).pending = s.pending := by
  simp -implicitDefEqProofs [State.bankBack]
@[simp] theorem State.recopyEnd_pending (b : Nat) (good : Bool) (s : State) : (s.recopyEnd b good).pending = s.pending := by
  simp [State.recopyEnd]
@[simp] theorem journalRecopyTry_pending (b : Nat) (good : Bool) (s : State) :
    (journalRecopyTry b good s).pending = s.pending := by
  simp [journalRecopyTry]
@[simp] theorem keeperDomainFault_pending (b : Nat) (present : Bool) (s : State) :
    (keeperDomainFault b present s).pending = s.pending := by
  simp [keeperDomainFault]
@[simp] theorem State.bankWordLost_pending (b word : Nat) (s : State) : (s.bankWordLost b word).pending = s.pending := by
  fun_cases State.bankWordLost <;> simp +zetaDelta
@[simp] theorem State.wordLost_pending (row region word : Nat) (s : State) :
    (s.wordLost row region word).pending = s.pending := by
  unfold State.wordLost; split <;> simp
@[simp] theorem State.wordCorrected_pending (row region word symbol : Nat) (s : State) :
    (s.wordCorrected row region word symbol).pending = s.pending := by
  simp [State.wordCorrected]
@[simp] theorem State.endPass_pending (row region word : Nat) (s : State) : (s.endPass row region word).pending = s.pending := by
  simp [State.endPass]
@[simp] theorem scrubWord_pending (row region word : Nat) (found : ScrubResult) (s : State) :
    (scrubWord row region word found s).pending = s.pending := by
  simp only [scrubWord]
  repeat' split
  all_goals simp
@[simp] theorem checkUnitScanDone_pending (u : Nat) (bytes : List Byte) (uncorrectable : Bool) (s : State) :
    (checkUnitScanDone u bytes uncorrectable s).pending = s.pending := by
  simp [checkUnitScanDone]
@[simp] theorem checkUnitEffect_pending (c : Cmd) (s : State) : (checkUnitEffect c s).pending = s.pending := by
  simp [checkUnitEffect]
@[simp] theorem memoryStatusEffect_pending (c : Cmd) (s : State) : (memoryStatusEffect c s).pending = s.pending := by
  simp [memoryStatusEffect]

/-! ### Health records -/

@[simp] theorem timebaseStatusEffect_pending (c : Cmd) (s : State) : (timebaseStatusEffect c s).pending = s.pending := by
  simp [timebaseStatusEffect]
@[simp] theorem State.clearFabric_pending (t m : Nat) (s : State) : (s.clearFabric t m).pending = s.pending := by rfl
@[simp] theorem fabricStatusEffect_pending (c : Cmd) (s : State) : (fabricStatusEffect c s).pending = s.pending := by
  simp [fabricStatusEffect]
@[simp] theorem State.snapshotHealth_pending (s : State) : s.snapshotHealth.pending = s.pending := by rfl
@[simp] theorem State.clearHealth_pending (m : Nat) (s : State) : (s.clearHealth m).pending = s.pending := by rfl
@[simp] theorem healthReadEffect_pending (c : Cmd) (s : State) : (healthReadEffect c s).pending = s.pending := by
  simp [healthReadEffect]
@[simp] theorem State.sendSegment_pending (s : State) (k : Nat) : (s.sendSegment k).pending = s.pending := by
  simp [State.sendSegment]
@[simp] theorem State.publishHealth_pending (s : State) : s.publishHealth.pending = s.pending := by
  simp [State.publishHealth]
@[simp] theorem healthPublish_pending (s : State) : (healthPublish s).pending = s.pending := by
  simp [healthPublish]
@[simp] theorem tileTempRead_pending (t : Nat) (temp : Int) (selfCheck : Bool) (s : State) :
    (tileTempRead t temp selfCheck s).pending = s.pending := by
  simp [tileTempRead]

/-! ### The margin re-plan -/

@[simp] theorem State.applyMargins_pending (s : State) : s.applyMargins.pending = s.pending := by
  simp [State.applyMargins]
@[simp] theorem State.applyDnl_pending (s : State) : s.applyDnl.pending = s.pending := by
  simp [State.applyDnl]
@[simp] theorem State.restartMonitors_pending (s : State) : s.restartMonitors.pending = s.pending := by rfl
@[simp] theorem State.replan_pending (s : State) : s.replan.pending = s.pending := by
  simp [State.replan]
@[simp] theorem replanEffect_pending (c : Cmd) (s : State) : (replanEffect c s).pending = s.pending := by
  simp [replanEffect]
@[simp] theorem replanPeriodic_pending (s : State) : (replanPeriodic s).pending = s.pending := by
  simp [replanPeriodic]

/-! ### Tests, substitutions and grants -/

@[simp] theorem State.answer_pending (st det result : Nat) (cmds : List (Nat × Cmd)) (s : State) :
    (s.answer st det result cmds).pending = s.pending := by
  simp [State.answer]
@[simp] theorem State.repaired_pending (result : Nat) (a : Activity) (s : State) :
    (s.repaired result a).pending = s.pending := by
  simp [State.repaired]
@[simp] theorem State.prepareSpare_pending (a : Activity) (s : State) : (s.prepareSpare a).pending = s.pending := by
  unfold State.prepareSpare; split <;> simp
@[simp] theorem State.steer_pending (ch fe : Nat) (s : State) : (s.steer ch fe).pending = s.pending := by
  simp [State.steer]
@[simp] theorem frontEndSwitch_pending (ch : Nat) (s : State) : (frontEndSwitch ch s).pending = s.pending := by
  fun_cases frontEndSwitch <;> simp +zetaDelta
@[simp] theorem State.spareFailed_pending (a : Activity) (s : State) : (s.spareFailed a).pending = s.pending := by
  unfold State.spareFailed; split <;> simp
@[simp] theorem State.bindEngine_pending (e h : Nat) (old : Option Nat) (s : State) :
    (s.bindEngine e h old).pending = s.pending := by
  unfold State.bindEngine; split <;> simp
@[simp] theorem State.endEngineRepair_pending (a : Activity) (s : State) : (s.endEngineRepair a).pending = s.pending := by
  simp only [State.endEngineRepair]; split <;> simp
@[simp] theorem State.restoreSlots_pending (e : Nat) (s : State) : (s.restoreSlots e).pending = s.pending := by
  simp [State.restoreSlots]
@[simp] theorem State.steerCore_pending (e k : Nat) (s : State) : (s.steerCore e k).pending = s.pending := by
  simp [State.steerCore]
@[simp] theorem State.coreFailed_pending (e : Nat) (s : State) : (s.coreFailed e).pending = s.pending := by
  unfold State.coreFailed; split <;> simp
@[simp] theorem State.endCoreRepair_pending (a : Activity) (ok : Bool) (s : State) :
    (s.endCoreRepair a ok).pending = s.pending := by
  fun_cases State.endCoreRepair <;> simp +zetaDelta
@[simp] theorem State.endRowRepair_pending (a : Activity) (ok : Bool) (s : State) :
    (s.endRowRepair a ok).pending = s.pending := by
  fun_cases State.endRowRepair <;> simp +zetaDelta
@[simp] theorem activityComplete_pending (scope : Nat) (ok : Bool) (s : State) :
    (activityComplete scope ok s).pending = s.pending := by
  fun_cases activityComplete <;> simp +zetaDelta
@[simp] theorem State.markTarget_pending (test target : Nat) (bad : Bool) (s : State) :
    (s.markTarget test target bad).pending = s.pending := by
  fun_cases State.markTarget <;> simp +zetaDelta
@[simp] theorem State.endFilterTest_pending (pass : Bool) (s : State) : (s.endFilterTest pass).pending = s.pending := by
  simp [State.endFilterTest]
@[simp] theorem State.noteTest_pending (test target : Nat) (s : State) : (s.noteTest test target).pending = s.pending := by
  rfl
@[simp] theorem testComplete_pending (scope : Nat) (pass : Bool) (s : State) :
    (testComplete scope pass s).pending = s.pending := by
  unfold testComplete; split <;> simp
@[simp] theorem selfTestPeriodic_pending (test target : Nat) (s : State) :
    (selfTestPeriodic test target s).pending = s.pending := by
  simp [selfTestPeriodic]
@[simp] theorem State.preempt_pending (s : State) : s.preempt.pending = s.pending := by
  fun_cases State.preempt <;> simp +zetaDelta
@[simp] theorem State.begin_pending (a : Activity) (s : State) : (s.begin a).pending = s.pending := by
  simp [State.begin]
@[simp] theorem arbiterGrant_pending (s : State) : (arbiterGrant s).pending = s.pending := by
  fun_cases arbiterGrant <;> simp +zetaDelta
@[simp] theorem selfTestEffect_pending (c : Cmd) (s : State) : (selfTestEffect c s).pending = s.pending := by
  simp [selfTestEffect]
@[simp] theorem repairEffect_pending (c : Cmd) (s : State) : (repairEffect c s).pending = s.pending := by
  simp [repairEffect]
@[simp] theorem arbiterStatusEffect_pending (c : Cmd) (s : State) : (arbiterStatusEffect c s).pending = s.pending := by
  simp [arbiterStatusEffect]
@[simp] theorem healthConfigEffect_pending (c : Cmd) (s : State) : (healthConfigEffect c s).pending = s.pending := by
  simp [healthConfigEffect]

/-! ### The revolution boundary and the swap -/

@[simp] theorem revolutionBoundary_pending (s : State) : (revolutionBoundary s).pending = s.pending := by
  simp [revolutionBoundary]
@[simp] theorem State.assignEngines_pending (s : State) : s.assignEngines.pending = s.pending := by
  simp -implicitDefEqProofs [State.assignEngines]
@[simp] theorem State.carryFields_pending (old : ConfigSet) (s : State) : (s.carryFields old).pending = s.pending := by
  simp [State.carryFields]
@[simp] theorem State.reachOpened_pending (s : State) : s.reachOpened.pending = s.pending :=
  pending_foldl _ _ _ fun s z => by split <;> simp
@[simp] theorem State.carryAmbient_pending (old : ConfigSet) (s : State) : (s.carryAmbient old).pending = s.pending := by
  simp [State.carryAmbient]
@[simp] theorem State.carryRain_pending (old : ConfigSet) (s : State) : (s.carryRain old).pending = s.pending := by rfl
@[simp] theorem State.carryTrackers_pending (before : Nat → Option (List Byte)) (s : State) :
    (s.carryTrackers before).pending = s.pending := by
  simp [State.carryTrackers]
@[simp] theorem State.closeOldCells_pending (epoch : Nat) (s : State) : (s.closeOldCells epoch).pending = s.pending := by
  simp [State.closeOldCells]
@[simp] theorem State.installSet_pending (s : State) : s.installSet.pending = s.pending := by rfl
@[simp] theorem State.swap_pending (k : Commit) (s : State) : (s.swap k).pending = s.pending := by
  simp [State.swap]
@[simp] theorem setSwap_pending (s : State) : (setSwap s).pending = s.pending := by
  unfold setSwap; split <;> simp

/-- Every opcode that writes the shadow set or orders its commit has an effect that keeps the queue. -/
theorem setOp_keepsQueue {op : Nat} {o : OpInfo × (Cmd → State → State)} (h : setOp op = some o) :
    o.1.KeepsQueue ∧ ∀ c s, (o.2 c s).pending = s.pending := by
  unfold setOp at h
  split at h <;> cases h <;> exact ⟨.of_plain rfl, by simp⟩

@[simp] theorem State.runWaiting_pending (s : State) (x : Nat × Cmd) : (s.runWaiting x).pending = s.pending := by
  unfold State.runWaiting; split
  · rfl
  · next o ho =>
    obtain ⟨hr, h⟩ := setOp_keepsQueue ho
    simp only []; split
    · simp
    · split
      · simp [State.refuseRun_pending _ _ _ _ _ hr]
      · simp [h]
@[simp] theorem State.runAllWaiting_pending (s : State) : s.runAllWaiting.pending = s.pending := by
  simp [State.runAllWaiting]
@[simp] theorem shadowCopyComplete_pending (s : State) : (shadowCopyComplete s).pending = s.pending := by
  simp [shadowCopyComplete]
@[simp] theorem viewRelease_pending (h : Nat) (s : State) : (viewRelease h s).pending = s.pending := by
  simp [viewRelease]

/-! ### The system opcodes -/

@[simp] theorem nopEffect_pending (c : Cmd) (s : State) : (nopEffect c s).pending = s.pending := by
  simp [nopEffect]
@[simp] theorem echoEffect_pending (c : Cmd) (s : State) : (echoEffect c s).pending = s.pending := by
  simp [echoEffect]
@[simp] theorem getInfoEffect_pending (c : Cmd) (s : State) : (getInfoEffect c s).pending = s.pending := by
  simp [getInfoEffect]
@[simp] theorem resetWarmEffect_pending (c : Cmd) (s : State) : (resetWarmEffect c s).pending = s.pending := by rfl
@[simp] theorem State.rejectHeld_pending (s : State) (h : Held) : (s.rejectHeld h).pending = s.pending := by rfl
@[simp] theorem seqSetEffect_pending (c : Cmd) (s : State) : (seqSetEffect c s).pending = s.pending := by
  simp [seqSetEffect]
@[simp] theorem queueBindEffect_pending (c : Cmd) (s : State) : (queueBindEffect c s).pending = s.pending := by
  simp [queueBindEffect]

/-! ### Receipt of packets -/

@[simp] theorem State.refuse_pending (ring ver op : Nat) (c : Cmd) (st det : Nat) (raw : Option (List Byte)) (s : State) :
    (s.refuse ring ver op c st det raw).pending = s.pending := by
  simp [State.refuse]

theorem unlockInfo_keepsQueue : unlockInfo.KeepsQueue := unlockRejected_pending

/-- A wrong answer to the challenge is the one rejection of the chapter that leaves something behind (R236). -/
theorem infoEmission_keepsQueue : ∀ o ∈ infoEmission, o.KeepsQueue := by
  intro o ho
  fin_cases ho
  pick_goal 6
  · exact unlockInfo_keepsQueue
  all_goals exact .of_plain rfl

/-- Every rejection of a defined opcode keeps the queue. -/
theorem opInfo_keepsQueue {op : Nat} {o : OpInfo} (h : opInfo op = some o) : o.KeepsQueue := by
  have hm := List.mem_of_find?_eq_some h
  simp only [List.mem_append] at hm
  obtain ((((((((h | h) | h) | h) | h) | h) | h) | h) | h) | h := hm
  pick_goal 3
  · exact infoEmission_keepsQueue o h
  all_goals (fin_cases h <;> exact .of_plain rfl)

@[simp] theorem State.rejectConsumed_pending (k op : Nat) (c : Cmd) (st det : Nat) (s : State) :
    (s.rejectConsumed (opInfo k) op c st det).pending = s.pending := by
  unfold State.rejectConsumed
  cases h : opInfo k with
  | none => simp
  | some i => simp [opInfo_keepsQueue h c st det s]

/-- Every opcode that permits UNSEQ runs an effect that keeps the queue. -/
theorem unseqEffects_keepsQueue :
    ∀ e ∈ unseqEffects, e.1.KeepsQueue ∧ ∀ c s, (e.2 c s).pending = s.pending := by
  intro e he
  fin_cases he <;> exact ⟨.of_plain rfl, by simp⟩

@[simp] theorem State.runUnseq_pending (op : Nat) (c : Cmd) (s : State) : (s.runUnseq op c).pending = s.pending := by
  unfold State.runUnseq; split
  · next e he =>
    obtain ⟨hr, h⟩ := unseqEffects_keepsQueue e (List.mem_of_find?_eq_some he)
    exact State.run_pending _ _ _ _ hr (h c)
  · rfl
@[simp] theorem State.examine_pending (op : Nat) (c : Cmd) (s : State) : (s.examine op c).pending = s.pending := by
  simp only [State.examine]; split
  · split <;> simp
  · simp
@[simp] theorem State.examineFrom7_pending (h : Held) (s : State) : (s.examineFrom7 h).pending = s.pending := by
  unfold State.examineFrom7; split <;> simp
@[simp] theorem State.examineHeld_pending (q : Nat) (s : State) (n : Nat) : (s.examineHeld q n).pending = s.pending := by
  induction n generalizing s with
  | zero => rfl
  | succ n ih => simp only [State.examineHeld]; split <;> simp [ih]
@[simp] theorem State.releaseHeld_pending (q : Nat) (s : State) : (s.releaseHeld q).pending = s.pending := by
  simp [State.releaseHeld]
@[simp] theorem State.takeTag_pending (ring op : Nat) (c : Cmd) (s : State) : (s.takeTag ring op c).pending = s.pending := by
  simp [State.takeTag]
@[simp] theorem State.hold_pending (ring op : Nat) (c : Cmd) (s : State) : (s.hold ring op c).pending = s.pending := by
  simp [State.hold]
@[simp] theorem State.repeatReply_pending (ring : Nat) (c : Cmd) (d : DupRec) (s : State) :
    (s.repeatReply ring c d).pending = s.pending := by rfl
@[simp] theorem State.duplicate_pending (ring op : Nat) (c : Cmd) (s : State) : (s.duplicate ring op c).pending = s.pending := by
  unfold State.duplicate; split <;> simp
@[simp] theorem State.classify_pending (ring op : Nat) (c : Cmd) (s : State) : (s.classify ring op c).pending = s.pending := by
  simp [State.classify]
@[simp] theorem State.sequence_pending (ring op : Nat) (c : Cmd) (s : State) : (s.sequence ring op c).pending = s.pending := by
  simp [State.sequence]
@[simp] theorem State.receive_pending (ring : Option Nat) (via : Via) (b : List Byte) (s : State) :
    (s.receive ring via b).pending = s.pending := by
  fun_cases State.receive <;> simp +zetaDelta
@[simp] theorem State.dropChecked_pending (k : Checked) (s : State) : (s.dropChecked k).pending = s.pending := by rfl
@[simp] theorem State.enter_pending (k : Checked) (st : EntryState) (b : StatusBlock) (r : Option Reply) (s : State) :
    (s.enter k st b r).pending = s.pending := by rfl
@[simp] theorem State.accept_pending (k : Checked) (s : State) : (s.accept k).pending = s.pending := by
  simp [State.accept]
@[simp] theorem State.notDurable_pending (bank : Nat) (k : Checked) (s : State) : (s.notDurable bank k).pending = s.pending := by
  rfl
@[simp] theorem State.acceptUse_pending (op : Nat) (c : Cmd) (s : State) : (s.acceptUse op c).pending = s.pending := by
  simp [State.acceptUse]
@[simp] theorem journalAccept_pending (q : Nat) (rb : ReadBack) (s : State) : (journalAccept q rb s).pending = s.pending := by
  unfold journalAccept; split
  · rfl
  · split
    · rfl
    · next k _ =>
      extract_lets t u v
      have hv : v.pending = s.pending := by simp [v, u, t]
      repeat' split
      all_goals simp [hv]
@[simp] theorem holdExpire_pending (q seq : Nat) (s : State) : (holdExpire q seq s).pending = s.pending := by
  unfold holdExpire; split <;> simp

/-! ### The replay and the warm start -/

@[simp] theorem State.raiseNext_pending (s : State) (o : OddCopy) : (s.raiseNext o).pending = s.pending := by
  fun_cases State.raiseNext <;> simp +zetaDelta
@[simp] theorem State.restoreControl_pending (bad : List BadCopy) (odd : List OddCopy) (s : State) :
    (s.restoreControl bad odd).pending = s.pending := by
  simp [State.restoreControl]
@[simp] theorem State.oweReply_pending (dup : Bool) (l : Live) (r : Reply) (s : State) :
    (s.oweReply dup l r).pending = s.pending := by
  simp [State.oweReply]
@[simp] theorem State.resolve_pending (waited : List Reply) (bad : List BadCopy) (odd : List OddCopy) (s : State) (l : Live) :
    (s.resolve waited bad odd l).pending = s.pending := by
  fun_cases State.resolve <;> simp +zetaDelta
@[simp] theorem State.replay_pending (bad : List BadCopy) (odd : List OddCopy) (s : State) :
    (s.replay bad odd).pending = s.pending := by
  simp [State.replay]
@[simp] theorem takeoverComplete_pending (bad : List BadCopy) (odd : List OddCopy) (s : State) :
    (takeoverComplete bad odd s).pending = s.pending := by
  simp [takeoverComplete]
@[simp] theorem State.resendFrames_pending (s : State) : s.resendFrames.pending = s.pending := by
  simp [State.resendFrames]
@[simp] theorem State.restartActivities_pending (s : State) : s.restartActivities.pending = s.pending := by rfl
@[simp] theorem State.warmLanes_pending (s : State) : s.warmLanes.pending = s.pending := by
  simp [State.warmLanes]
@[simp] theorem State.quiesce_pending (s : State) : s.quiesce.pending = s.pending := by
  simp [State.quiesce]
@[simp] theorem State.warmTo_pending (w : WarmStep) (s : State) : (s.warmTo w).pending = s.pending := by rfl
@[simp] theorem State.warmRelease_pending (w : WarmRun) (s : State) : (s.warmRelease w).pending = s.pending := by
  unfold State.warmRelease
  apply State.withStatus_pending
  simp only []
  split <;> simp
@[simp] theorem State.escalate_pending (s : State) : s.escalate.pending = s.pending := by
  simp [State.escalate]
@[simp] theorem State.warmStep_pending (s : State) : s.warmStep.pending = s.pending := by
  unfold State.warmStep; split
  · rfl
  · simp only []; repeat' split
    all_goals simp
@[simp] theorem warmStart_pending (imageOk : Bool) (bad : List BadCopy) (odd : List OddCopy) (s : State) :
    (warmStart imageOk bad odd s).pending = s.pending := by
  simp [warmStart]

/-! ### The transports -/

@[simp] theorem State.onRing_pending (q : Nat) (f : Ring → Ring) (s : State) : (s.onRing q f).pending = s.pending := by rfl
@[simp] theorem sqDoorbell_pending (q v : Nat) (s : State) : (sqDoorbell q v s).pending = s.pending := by
  simp [sqDoorbell]
@[simp] theorem rqDoorbell_pending (q v : Nat) (s : State) : (rqDoorbell q v s).pending = s.pending := by
  simp [rqDoorbell]
@[simp] theorem qEnable_pending (q : Nat) (s : State) : (qEnable q s).pending = s.pending := by
  simp [qEnable]
@[simp] theorem qDisable_pending (q : Nat) (s : State) : (qDisable q s).pending = s.pending := by
  simp [qDisable]
@[simp] theorem intStatusClear_pending (mask : Nat) (s : State) : (intStatusClear mask s).pending = s.pending := by
  simp [intStatusClear]
@[simp] theorem State.writeRing_pending (q o v : Nat) (s : State) : (s.writeRing q o v).pending = s.pending := by
  simp [State.writeRing]
@[simp] theorem registerWrite_pending (off v : Nat) (s : State) : (registerWrite off v s).pending = s.pending := by
  simp [registerWrite]
@[simp] theorem pciePerst_pending (l : Perst) (s : State) : (pciePerst l s).pending = s.pending := by
  unfold pciePerst; split <;> simp
@[simp] theorem descriptorFetch_pending (q : Nat) (readError : Bool) (desc packet : List Byte) (s : State) :
    (descriptorFetch q readError desc packet s).pending = s.pending := by
  simp [descriptorFetch]
@[simp] theorem replyRingWrite_pending (q : Nat) (s : State) : (replyRingWrite q s).pending = s.pending := by
  unfold replyRingWrite; split <;> simp
@[simp] theorem State.takeTrdp_pending (m : TrdpMessage) (s : State) : (s.takeTrdp m).pending = s.pending := by
  simp [State.takeTrdp]
@[simp] theorem State.storeTrdp_pending (m : TrdpMessage) (s : State) : (s.storeTrdp m).pending = s.pending := by
  simp [State.storeTrdp]
@[simp] theorem trdpMrReceive_pending (m : TrdpMessage) (s : State) : (trdpMrReceive m s).pending = s.pending := by
  simp [trdpMrReceive]
@[simp] theorem State.onSpi_pending (f : Spi → Spi) (s : State) : (s.onSpi f).pending = s.pending := by rfl
@[simp] theorem State.takeSpi_pending (s : State) : s.takeSpi.pending = s.pending := by
  unfold State.takeSpi; split <;> simp
@[simp] theorem spiWritePacket_pending (b : List Byte) (s : State) : (spiWritePacket b s).pending = s.pending := by
  simp [spiWritePacket]
@[simp] theorem spiReadStatus_pending (s : State) : (spiReadStatus s).pending = s.pending := by
  simp [spiReadStatus]
@[simp] theorem spiReadReply_pending (complete : Bool) (s : State) : (spiReadReply complete s).pending = s.pending := by
  fun_cases spiReadReply <;> simp +zetaDelta
@[simp] theorem spiUnknownInstruction_pending (code : Nat) (s : State) : (spiUnknownInstruction code s).pending = s.pending := by
  simp [spiUnknownInstruction]
@[simp] theorem State.takeWaiting_pending (s : State) : s.takeWaiting.pending = s.pending := by
  simp only [State.takeWaiting]; split <;> simp

/-! ### The test access port -/

@[simp] theorem State.setIr_pending (i : JtagIr) (s : State) : (s.setIr i).pending = s.pending := by rfl
@[simp] theorem jtagBypass_pending (s : State) : (jtagBypass s).pending = s.pending := by rfl
@[simp] theorem jtagIdcode_pending (s : State) : (jtagIdcode s).pending = s.pending := by rfl
@[simp] theorem jtagSamplePreload_pending (x : JtagScan) (s : State) : (jtagSamplePreload x s).pending = s.pending := by rfl
@[simp] theorem jtagExtest_pending (s : State) : (jtagExtest s).pending = s.pending := by
  simp [jtagExtest]
@[simp] theorem jtagTapReset_pending (s : State) : (jtagTapReset s).pending = s.pending := by rfl

/-! ### The cold start -/

@[simp] theorem State.freshStart_pending (s : State) : s.freshStart.pending = s.pending := by
  simp [State.freshStart]
@[simp] theorem State.loadImage_pending (i : FlushImage) (s : State) : (s.loadImage i).pending = s.pending := by
  simp [State.loadImage]
@[simp] theorem State.loadJournal_pending (s : State) : s.loadJournal.pending = s.pending := by
  unfold State.loadJournal; split <;> simp
@[simp] theorem State.resolveLost_pending (s : State) (l : Live) : (s.resolveLost l).pending = s.pending := by
  fun_cases State.resolveLost <;> simp +zetaDelta
@[simp] theorem State.answerLost_pending (s : State) : s.answerLost.pending = s.pending := by
  simp [State.answerLost]
@[simp] theorem State.drawStartId_pending (old : Nat) (s : State) : (s.drawStartId old).pending = s.pending := by
  simp [State.drawStartId]
@[simp] theorem State.powerDomains_pending (l : List Domain) (s : State) : (s.powerDomains l).pending = s.pending := by rfl
@[simp] theorem State.loadStep_pending (s : State) : s.loadStep.pending = s.pending := by
  simp [State.loadStep]
@[simp] theorem State.clockStep_pending (ok : Bool) (s : State) : (s.clockStep ok).pending = s.pending := by
  simp [State.clockStep]
@[simp] theorem State.noteSpares_pending (s : State) : s.noteSpares.pending = s.pending := by
  simp [State.noteSpares]
@[simp] theorem State.failedFe_pending (s : State) (f : Nat) : (s.failedFe f).pending = s.pending := by
  unfold State.failedFe; split <;> simp
@[simp] theorem State.failedCore_pending (s : State) (k : Nat) : (s.failedCore k).pending = s.pending := by
  simp only [State.failedCore]; split <;> simp
@[simp] theorem State.testStep_pending (st : ColdStart) (s : State) : (s.testStep st).pending = s.pending := by
  simp [State.testStep]
@[simp] theorem State.paceStep_pending (st : ColdStart) (s : State) : (s.paceStep st).pending = s.pending := by rfl
@[simp] theorem State.laneStep_pending (st : ColdStart) (s : State) : (s.laneStep st).pending = s.pending := by
  simp [State.laneStep]
@[simp] theorem State.restLanes_pending (s : State) : s.restLanes.pending = s.pending := by
  simp [State.restLanes]
@[simp] theorem State.excStep_pending (s : State) : s.excStep.pending = s.pending := by
  simp [State.excStep]
@[simp] theorem State.lastSteps_pending (st : ColdStart) (s : State) : (s.lastSteps st).pending = s.pending := by
  simp -implicitDefEqProofs [State.lastSteps]
@[simp] theorem State.releaseStart_pending (s : State) : s.releaseStart.pending = s.pending := by
  simp [State.releaseStart]
@[simp] theorem State.enterRecovery_pending (s : State) : s.enterRecovery.pending = s.pending := by
  simp [State.enterRecovery]
@[simp] theorem State.coldSteps_pending (st : ColdStart) (s : State) : (s.coldSteps st).pending = s.pending := by
  simp [State.coldSteps]
@[simp] theorem State.coldStart_pending (st : ColdStart) (s : State) : (s.coldStart st).pending = s.pending := by
  simp [State.coldStart]
@[simp] theorem porRelease_pending (st : ColdStart) (s : State) : (porRelease st s).pending = s.pending := by
  simp [porRelease]
@[simp] theorem pfailRecover_pending (st : ColdStart) (s : State) : (pfailRecover st s).pending = s.pending := by
  simp [pfailRecover]

/-! ### The tick -/

@[simp] theorem State.tickClock_pending (s : State) : s.tickClock.pending = s.pending := by
  simp [State.tickClock]
@[simp] theorem tick_pending (s : State) : (tick s).pending = s.pending := by
  simp [tick]

/-! ### Commands and steps -/

/-- Every command completes with the queue as it stands. A packet runs its effect behind the checks of steps 8 to 11, an angle
packet also behind a reset that waits; every other row is an operation of its own. -/
theorem exec_completes (i : Instr) (s : State) : ∃ t, exec i s = .next t ∧ t.pending = s.pending := by
  cases i with
  | nop _ | getInfo _ | echo _ | resetWarm _ | seqSet _ | queueBind _ | viewDestroy _ | viewQuery _ | viewParam _
  | viewUpdate _ | setAbort _ | setRead _ | loopConfig _ | loopCoeff _ | cameoArm _ | cameoRead _ | ctrlStatus _
  | motionRecord _ | fireTable _ | nearfieldConfig _ | fieldDefine _ | zoneConfig _ | schedConfig _ | emitHold _
  | shotStatus _ | zoneStatus _ | waveLoad _ | waveLoadClear _ | waveRead _ | waveFade _ | parkSet _ | emitDirect _
  | emitDirectStop _ | ledgerWrite _ | ledgerRead _ | resConfig _ | emitStatus _ | rxConfig _ | biasConfig _
  | rxStatus _ | auxMeasConfig _ | auxSwitchConfig _ | bezelConfig _ | auxRead _ | auxStatus _ | streamConfig _
  | trdpConfig _ | netStatus _ | streamStatus _ | nvmInfo _ | nvmRead _ | nvmStage _ | nvmCommit _ | nvmErase _
  | keyProvision _ | powerDown _ | healthRead _ | timebaseStatus _ | fabricStatus _ | memoryStatus _
  | checkUnitRead _ | checkUnitWrite _ | selfTest _ | replan _ | repairSubstitute _ | repairRetest _
  | arbiterStatus _ | healthConfig _ =>
    exact ⟨_, rfl, State.run_pending _ _ _ _ (.of_plain rfl) (by simp)⟩
  | angleConfig _ | angleFrame _ | filterSync _ | cycSelect _ | encConfig _ | camConfig _ | angleStatus _ =>
    exact ⟨_, rfl, State.angleRun_pending _ _ _ _ (.of_plain rfl) (by simp)⟩
  | ledgerUnlockChallenge c | ledgerUnlockResponse c =>
    exact ⟨_, rfl, State.run_pending _ _ _ _ unlockInfo_keepsQueue (unlockEffect_pending c)⟩
  | setCommit c =>
    have hrun := State.run_pending setCommitInfo c (setCommitEffect c) s (.of_plain rfl) (setCommitEffect_pending c)
    exact ⟨_, rfl, (State.dropCommit_pending ..).trans hrun⟩
  | netFrameReceive port frame =>
    refine ⟨_, rfl, ?_⟩
    split <;> simp
  | _ => exact ⟨_, rfl, by simp⟩

/-- Every step answers a next state with the rest of the queue. -/
theorem step_completes (s : State) : ∃ t, step s = .next t ∧ t.pending = s.pending.tail := by
  unfold step
  split
  · next h => exact ⟨tick s, rfl, by simp [h]⟩
  · next c rest h =>
    obtain ⟨t, ht, hp⟩ := exec_completes c { s with pending := rest }
    exact ⟨t, ht, by simp [hp, h]⟩

/-- Settles O57: the operation behind each row of `exec`, and the tick, answer a next state and keep the queue. -/
theorem everyCommandCompletes : Obligations.EveryCommandCompletes := ⟨exec_completes, step_completes⟩

end Sys2Proof.Machine

/-!
## A lane's calibration result (R110, R111)

SUPPORT. What CAL_ACCEPT leaves of a lane outside its warm-up: the tests of R111 as conditions on the mean and the span of the
references, the lane behind its result, and the windows that the result marks.
-/
namespace Sys2Proof.Machine

/-! ### Lanes and channels behind their updates -/

theorem State.lane_onLane_same (n : Nat) (f : Lane → Lane) (s : State) (hn : n < s.clk.lanes.length) :
    (s.onLane n f).lane n = f (s.lane n) := by
  simp [State.lane, hn]

theorem State.lane_onLane_ne (n m : Nat) (f : Lane → Lane) (s : State) (h : m ≠ n) : (s.onLane n f).lane m = s.lane m := by
  simp [State.lane, h.symm]

theorem State.channel_onChannel_same (ch : Nat) (f : Channel → Channel) (s : State) (h : ch < s.returns.channels.length) :
    (s.onChannel ch f).channel ch = f (s.channel ch) := by
  simp [State.channel, h]

theorem State.channel_onChannel_ne (ch k : Nat) (f : Channel → Channel) (s : State) (h : k ≠ ch) :
    (s.onChannel ch f).channel k = s.channel k := by
  simp [State.channel, h.symm]

/-! ### The windows a lane marks -/

/-- The windows in blanking on a lane that a condition names. -/
def State.marked (n : Nat) (of : Window → Bool) (s : State) (ch : Nat) : Bool :=
  s.laneOf ch = n && (s.channel ch).win.phase == .blanked && of (s.channel ch).win

def Channel.withCal (c : CalState) (x : Channel) : Channel := { x with win := { x.win with cal := c } }

/-- `markLane` over the first `m` channels. -/
def State.markFirst (m n : Nat) (c : CalState) (of : Window → Bool) (s : State) : State :=
  (List.range m).foldl (fun s ch => if s.marked n of ch then s.onChannel ch (Channel.withCal c) else s) s

theorem State.markLane_eq (n : Nat) (c : CalState) (of : Window → Bool) (s : State) :
    s.markLane n c of = s.markFirst 192 n c of := rfl

theorem State.markFirst_succ (m n : Nat) (c : CalState) (of : Window → Bool) (s : State) :
    s.markFirst (m + 1) n c of =
      if (s.markFirst m n c of).marked n of m then (s.markFirst m n c of).onChannel m (Channel.withCal c)
      else s.markFirst m n c of := by
  rw [State.markFirst, List.range_succ, List.foldl_append]; rfl

/-- Marking changes nothing but the channels, whose number stands. -/
theorem State.markFirst_frame (m n : Nat) (c : CalState) (of : Window → Bool) (s : State) :
    s.markFirst m n c of = { s with returns := (s.markFirst m n c of).returns } ∧
      (s.markFirst m n c of).returns.channels.length = s.returns.channels.length := by
  induction m with
  | zero => exact ⟨rfl, rfl⟩
  | succ m ih =>
    obtain ⟨hs, hlen⟩ := ih
    rw [State.markFirst_succ]
    split
    · refine ⟨?_, by simpa using hlen⟩
      rw [hs]; rfl
    · exact ⟨hs, hlen⟩

theorem State.lane_markFirst (m n : Nat) (c : CalState) (of : Window → Bool) (s : State) (k : Nat) :
    (s.markFirst m n c of).lane k = s.lane k := by
  rw [(State.markFirst_frame m n c of s).1]; rfl

theorem State.laneOf_markFirst (m n : Nat) (c : CalState) (of : Window → Bool) (s : State) (ch : Nat) :
    (s.markFirst m n c of).laneOf ch = s.laneOf ch := by
  rw [(State.markFirst_frame m n c of s).1]; rfl

theorem State.channel_markFirst (m n : Nat) (c : CalState) (of : Window → Bool) (s : State) (hm : m ≤ s.returns.channels.length)
    (ch : Nat) : (s.markFirst m n c of).channel ch =
      if ch < m ∧ s.marked n of ch = true then (s.channel ch).withCal c else s.channel ch := by
  induction m generalizing ch with
  | zero => simp [State.markFirst]
  | succ m ih =>
    have ih := ih (by omega)
    have hmark : (s.markFirst m n c of).marked n of m = s.marked n of m := by
      simp [State.marked, State.laneOf_markFirst, ih]
    have hlen := (State.markFirst_frame m n c of s).2
    rw [State.markFirst_succ, hmark]
    by_cases hch : ch = m
    · subst hch
      split
      · next h => rw [State.channel_onChannel_same _ _ _ (by omega), ih]; simp [h]
      · next h => simp [ih, h]
    · have hlt : ch < m + 1 ↔ ch < m := by omega
      simp only [hlt, ← ih ch]
      split
      · exact State.channel_onChannel_ne _ _ _ _ hch
      · rfl

/-! ### The tests of R111 -/

theorem sum8_eq_sum {l : List Nat} (h : l.length = 8) : sum8 l = l.sum := by
  rw [sum8, List.take_of_length_le h.le, List.sum_eq_foldl]

theorem sum8_sub_eq_span {ones twos : List Nat} {q1 span : Nat} (h1 : ones.length = 8) (h2 : twos.length = 8) (hq : ones.sum = q1)
    (hs : twos.sum = q1 + span) : sum8 twos - sum8 ones = span := by
  rw [sum8_eq_sum h1, sum8_eq_sum h2]; omega

theorem calAbsolute_iff {ones twos : List Nat} {q1 span : Nat} (h1 : ones.length = 8) (h2 : twos.length = 8)
    (hq : ones.sum = q1) (hs : twos.sum = q1 + span) :
    calAbsolute ones twos = true ↔ 8 * 40 ≤ q1 ∧ q1 ≤ 8 * 88 ∧ 8 * 48 ≤ span ∧ span ≤ 8 * 80 ∧
      (∀ r ∈ ones, 8 * r ≤ q1 + 16 ∧ q1 ≤ 8 * r + 16) ∧
      (∀ r ∈ twos, 8 * r ≤ q1 + span + 16 ∧ q1 + span ≤ 8 * r + 16) := by
  simp [calAbsolute, calLimits, sum8_eq_sum, h1, h2, hq, hs, and_assoc]

theorem calRelative_some_iff (a1 aspan q1 span : Nat) :
    calRelative (some (a1, aspan)) q1 span = true ↔
      q1 ≤ a1 + 32 ∧ a1 ≤ q1 + 32 ∧ span ≤ aspan + 24 ∧ aspan ≤ span + 24 := by
  simp [calRelative, and_assoc]

/-! ### CAL_ACCEPT outside the warm-up -/

/-- A lane behind a result for the window that waits at `wait`: accepted as `new`, or held. -/
def Lane.judged (ok : Bool) (new : Nat × Nat) (wait : Option Nat) (l : Lane) : Lane :=
  { l with
    last := if ok then some new else l.last
    state := if ok then .accepted else heldState (l.missed + 1)
    missed := if ok then 0 else l.missed + 1
    consec := if ok then l.consec + 1 else 0
    warm := none
    waits := l.waits.filter fun t => wait != some t }

/-- A judged lane waits on for every other t0, and for no new one. -/
theorem Lane.judged_waits (ok : Bool) (new : Nat × Nat) (wait : Option Nat) (l : Lane) :
    ∀ x ∈ (l.judged ok new wait).waits, wait ≠ some x ∧ x ∈ l.waits := by
  simp +contextual [Lane.judged]

theorem heldState_of_lt {missed : Nat} (h : missed < 64) : heldState missed = .held := if_neg (by omega)

/-- The verdict of R111 on a lane's references. -/
def State.calPlausible (n : Nat) (ones twos : List Nat) (s : State) : Bool :=
  calAbsolute ones twos && calRelative (s.lane n).last (sum8 ones) (sum8 twos - sum8 ones)

/-- A lane takes its judged form; the device counts a held result, and the health part what `health` says. -/
def State.judgeLane (n : Nat) (ok : Bool) (l : Lane) (health : Health → Health) (s : State) : State :=
  (if ok then s.onLane n fun _ => l
   else (s.onLane n fun _ => l).onClk fun k => { k with calHeldTotal := satInc 32 k.calHeldTotal }).onHealth health

theorem State.judgeLane_frame (n : Nat) (ok : Bool) (l : Lane) (health : Health → Health) (s : State) :
    s.judgeLane n ok l health = { s with clk := (s.judgeLane n ok l health).clk, health := (s.judgeLane n ok l health).health } := by
  cases ok <;> rfl

theorem State.lane_judgeLane (n : Nat) (ok : Bool) (l : Lane) (health : Health → Health) (s : State) (m : Nat) :
    (s.judgeLane n ok l health).lane m = (s.onLane n fun _ => l).lane m := by
  cases ok <;> rfl

/-- A result that is due outside the warm-up judges its lane and marks the windows at the t0 that waits first. -/
theorem calAccept_eq_markLane {n : Nat} (ones twos : List Nat) (fes : List (Nat × Nat)) {s : State}
    (hf : (s.lane n).failed = false) (hd : s.laneDue n = true) (hw : (s.lane n).warm = none) :
    let ok := s.calPlausible n ones twos
    let l := (s.lane n).judged ok (sum8 ones, sum8 twos - sum8 ones) (s.laneWait n)
    ∃ health, calAccept n ones twos fes s =
      (s.judgeLane n ok l health).markLane n l.state fun w => s.laneWait n == some w.t0 := by
  simp only [calAccept, State.judgeLane, State.calPlausible, Lane.judged, hf, hd, hw, Option.isSome_none, Option.map_none,
    Bool.false_or, Bool.not_true, Bool.false_eq_true, if_false]
  exact ⟨_, rfl⟩

/-- What a result for the first waiting window leaves: the lane's last accepted result, its state and its missed windows as given, the
lane's windows in blanking at that t0 marked with the state, and every other lane, every channel with another t0 and every part but the
clock, the returns and the health counts as they stand. -/
def CalSettled (n : Nat) (last : Nat × Nat) (c : CalState) (missed : Nat) (s t : State) : Prop :=
  (t.lane n).last = some last ∧ (t.lane n).state = c ∧ (t.lane n).missed = missed ∧ (∀ m, m ≠ n → t.lane m = s.lane m) ∧
  (∀ ch, ch < 192 → s.laneOf ch = n → (s.channel ch).win.phase = .blanked → s.laneWait n = some (s.channel ch).win.t0 →
    (t.channel ch).win.cal = c) ∧
  (∀ x ∈ (t.lane n).waits, s.laneWait n ≠ some x ∧ x ∈ (s.lane n).waits) ∧
  (∀ ch, ch < 192 → s.laneWait n ≠ some (s.channel ch).win.t0 → t.channel ch = s.channel ch) ∧
  t = { s with clk := t.clk, health := t.health, returns := t.returns }

theorem judgeLane_markLane_settled {n : Nat} (ok : Bool) (l : Lane) (health : Health → Health) {s : State} {last : Nat × Nat}
    (hn : n < s.clk.lanes.length) (hlen : s.returns.channels.length = 192) (hlast : l.last = some last)
    (hwaits : ∀ x ∈ l.waits, s.laneWait n ≠ some x ∧ x ∈ (s.lane n).waits) :
    CalSettled n last l.state l.missed s
      ((s.judgeLane n ok l health).markLane n l.state fun w => s.laneWait n == some w.t0) := by
  rw [State.markLane_eq]
  have hframe := State.judgeLane_frame n ok l health s
  have hlane := State.lane_judgeLane n ok l health s
  generalize s.judgeLane n ok l health = u at hframe hlane ⊢
  have hself : u.lane n = l := (hlane n).trans (State.lane_onLane_same n _ s hn)
  have hchan := State.channel_markFirst 192 n l.state (fun w => s.laneWait n == some w.t0) u (by rw [hframe]; exact hlen.ge)
  have huchan : ∀ ch, u.channel ch = s.channel ch := fun ch => by rw [hframe]; rfl
  have hulane : ∀ ch, u.laneOf ch = s.laneOf ch := fun ch => by rw [hframe]; rfl
  simp only [CalSettled, State.lane_markFirst, hself, hchan, State.marked, huchan, hulane]
  refine ⟨hlast, trivial, trivial, fun m hm => (hlane m).trans (State.lane_onLane_ne n m _ s hm), ?_, hwaits, ?_, ?_⟩
  · intro ch hch hof hphase hwait
    simp [hch, hof, hphase, hwait, Channel.withCal]
  · intro ch _ hwait
    simp [hwait]
  · rw [(State.markFirst_frame ..).1, hframe]

section
variable {n : Nat} {ones twos : List Nat} (fes : List (Nat × Nat)) {s : State} (hn : n < s.clk.lanes.length)
  (hlen : s.returns.channels.length = 192) (hf : (s.lane n).failed = false) (hd : s.laneDue n = true) (hw : (s.lane n).warm = none)
include hn hlen hf hd hw

theorem calAccept_of_plausible (hok : s.calPlausible n ones twos = true) :
    CalSettled n (sum8 ones, sum8 twos - sum8 ones) .accepted 0 s (calAccept n ones twos fes s) := by
  obtain ⟨health, h⟩ := calAccept_eq_markLane ones twos fes hf hd hw
  rw [h, hok]
  exact judgeLane_markLane_settled _ _ health hn hlen rfl (Lane.judged_waits _ _ _ _)

theorem calAccept_of_not_plausible {last : Nat × Nat} (hlast : (s.lane n).last = some last)
    (hbad : s.calPlausible n ones twos = false) :
    CalSettled n last (heldState ((s.lane n).missed + 1)) ((s.lane n).missed + 1) s (calAccept n ones twos fes s) := by
  obtain ⟨health, h⟩ := calAccept_eq_markLane ones twos fes hf hd hw
  rw [h, hbad]
  exact judgeLane_markLane_settled _ _ health hn hlen hlast (Lane.judged_waits _ _ _ _)

end

theorem calPlausible_iff {n q1 span a1 aspan : Nat} {ones twos : List Nat} {s : State} (h1 : ones.length = 8) (h2 : twos.length = 8)
    (hq : ones.sum = q1) (hs : twos.sum = q1 + span) (hlast : (s.lane n).last = some (a1, aspan)) :
    s.calPlausible n ones twos = true ↔ 8 * 40 ≤ q1 ∧ q1 ≤ 8 * 88 ∧ 8 * 48 ≤ span ∧ span ≤ 8 * 80 ∧
      (∀ r ∈ ones, 8 * r ≤ q1 + 16 ∧ q1 ≤ 8 * r + 16) ∧
      (∀ r ∈ twos, 8 * r ≤ q1 + span + 16 ∧ q1 + span ≤ 8 * r + 16) ∧
      q1 ≤ a1 + 32 ∧ a1 ≤ q1 + 32 ∧ span ≤ aspan + 24 ∧ aspan ≤ span + 24 := by
  rw [State.calPlausible, Bool.and_eq_true, calAbsolute_iff h1 h2 hq hs, sum8_sub_eq_span h1 h2 hq hs,
    sum8_eq_sum h1, hq, hlast, calRelative_some_iff]
  simp only [and_assoc]

/-- Settles O17: the model's verdict is the five conditions of R111, and either outcome leaves what `CalSettled` says. -/
theorem plausibleReferencesAreAccepted : Obligations.PlausibleReferencesAreAccepted := by
  intro n q1 span a1 aspan ones twos fes s hn h1 h2 hq hs hf hd hw hlast hmissed hlen plausible
  have hverdict : s.calPlausible n ones twos = true ↔ plausible := calPlausible_iff h1 h2 hq hs hlast
  refine ⟨fun hp => ⟨_, rfl, ?_⟩, fun hp => ⟨_, rfl, ?_⟩⟩
  · have hset := calAccept_of_plausible fes hn hlen hf hd hw (hverdict.mpr hp)
    rwa [sum8_sub_eq_span h1 h2 hq hs, sum8_eq_sum h1, hq] at hset
  · have hset := calAccept_of_not_plausible fes hn hlen hf hd hw hlast (Bool.eq_false_iff.mpr (mt hverdict.mp hp))
    rwa [heldState_of_lt (by omega)] at hset

end Sys2Proof.Machine

/-!
## What starts, Pavane and flushes alone change (R399, R405, R416, R417)

SUPPORT. Every operation keeps the mode but those that start the device, enter Pavane or flush: one lemma per operation, in the
order of the model's definitions, each proved by the lemmas of the operations it calls, as for the queue. `simp` goes through
choices and folds by `mode_ite` and `mode_foldl`. An operation that enters Pavane keeps the mode of a device that is there
already, and so does what calls it. Then O59: in Pavane the phase outlasts every command but a cold start.
-/
namespace Sys2Proof.Machine

/-- The part of the state that starts, Pavane and flushes alone change: the phase, whether the supervisor runs, the cause of
Pavane, whether the image of the journal is back, and the flush areas of both banks of eMRAM. -/
structure Mode where
  phase : StartPhase
  running : Bool
  cause : PavaneCause
  restored : Bool
  area0 : List FlushImage
  area1 : List FlushImage

def State.mode (s : State) : Mode :=
  { phase := s.power.phase, running := s.power.running, cause := s.power.pavaneCause, restored := s.host.journal.imageRestored,
    area0 := s.nvm.flush0, area1 := s.nvm.flush1 }

/-! ### Updates of the state and replies -/

@[simp] theorem State.onHost_mode (f : HostSide → HostSide) (s : State)
    (h : ∀ x, (f x).journal.imageRestored = x.journal.imageRestored) : (s.onHost f).mode = s.mode := by simp [State.mode, h]
@[simp] theorem State.onPower_mode (f : Power → Power) (s : State)
    (h : ∀ p, (f p).phase = p.phase ∧ (f p).running = p.running ∧ (f p).pavaneCause = p.pavaneCause) :
    (s.onPower f).mode = s.mode := by
  simp [State.mode, h]
@[simp] theorem State.onNvm_mode (f : Nvm → Nvm) (s : State)
    (h : ∀ n, (f n).flush0 = n.flush0 ∧ (f n).flush1 = n.flush1) : (s.onNvm f).mode = s.mode := by simp [State.mode, h]
@[simp] theorem State.onClk_mode (f : Clk → Clk) (s : State) : (s.onClk f).mode = s.mode := by rfl
@[simp] theorem State.onEmission_mode (f : Emission → Emission) (s : State) : (s.onEmission f).mode = s.mode := by rfl
@[simp] theorem State.onSched_mode (f : Sched → Sched) (s : State) : (s.onSched f).mode = s.mode := by rfl
@[simp] theorem State.onZone_mode (f : Zone → Zone) (s : State) : (s.onZone f).mode = s.mode := by rfl
@[simp] theorem State.onSets_mode (f : Sets → Sets) (s : State) : (s.onSets f).mode = s.mode := by rfl
@[simp] theorem State.onFabric_mode (f : Fabric → Fabric) (s : State) : (s.onFabric f).mode = s.mode := by rfl
@[simp] theorem State.onAngle_mode (f : Angle → Angle) (s : State) : (s.onAngle f).mode = s.mode := by rfl
@[simp] theorem State.onMotion_mode (f : Motion → Motion) (s : State) : (s.onMotion f).mode = s.mode := by rfl
@[simp] theorem State.onAux_mode (f : Aux → Aux) (s : State) : (s.onAux f).mode = s.mode := by rfl
@[simp] theorem State.onNet_mode (f : Net → Net) (s : State) : (s.onNet f).mode = s.mode := by rfl
@[simp] theorem State.onIntegrity_mode (f : Integrity → Integrity) (s : State) : (s.onIntegrity f).mode = s.mode := by rfl
@[simp] theorem State.onHealth_mode (f : Health → Health) (s : State) : (s.onHealth f).mode = s.mode := by rfl
@[simp] theorem State.emit_mode (o : Out) (s : State) : (s.emit o).mode = s.mode := by rfl
@[simp] theorem State.freeNext_mode (s : State) : (s.freeNext).mode = s.mode := by rfl
@[simp] theorem State.onQueue_mode (q : Nat) (f : Queue → Queue) (s : State) : (s.onQueue q f).mode = s.mode := by rfl
@[simp] theorem State.onJournal_mode (f : Journal → Journal) (s : State)
    (h : ∀ j, (f j).imageRestored = j.imageRestored) : (s.onJournal f).mode = s.mode := by simp [State.mode, h]
@[simp] theorem State.onEmitter_mode (e : Nat) (f : Emitter → Emitter) (s : State) : (s.onEmitter e f).mode = s.mode := by rfl
@[simp] theorem State.onChannel_mode (c : Nat) (f : Channel → Channel) (s : State) : (s.onChannel c f).mode = s.mode := by rfl
@[simp] theorem State.onTile_mode (t : Nat) (f : Tile → Tile) (s : State) : (s.onTile t f).mode = s.mode := by rfl
@[simp] theorem State.onStream_mode (n : Nat) (f : Stream → Stream) (s : State) : (s.onStream n f).mode = s.mode := by rfl
@[simp] theorem State.onRejection_mode (t : Nat) (f : Rejection → Rejection) (s : State) :
    (s.onRejection t f).mode = s.mode := by rfl
@[simp] theorem State.onEngine_mode (g : Nat) (f : Engine → Engine) (s : State) : (s.onEngine g f).mode = s.mode := by rfl
@[simp] theorem State.onLoop_mode (n : Nat) (f : Loop → Loop) (s : State) : (s.onLoop n f).mode = s.mode := by rfl
@[simp] theorem State.onPort_mode (p : Nat) (f : Port → Port) (s : State) : (s.onPort p f).mode = s.mode := by rfl
@[simp] theorem State.onLane_mode (n : Nat) (f : Lane → Lane) (s : State) : (s.onLane n f).mode = s.mode := by rfl
@[simp] theorem State.onFe_mode (n : Nat) (f : FrontEndCal → FrontEndCal) (s : State) : (s.onFe n f).mode = s.mode := by rfl
@[simp] theorem State.onDomain_mode (d : Domain) (f : DomainState → DomainState) (s : State) :
    (s.onDomain d f).mode = s.mode := by rfl
@[simp] theorem State.post_mode (r : Reply) (s : State) : (s.post r).mode = s.mode := by rfl
@[simp] theorem State.recordDup_mode (q : Nat) (d : DupRec) (s : State) : (s.recordDup q d).mode = s.mode := by rfl
@[simp] theorem State.updateDup_mode (q seq tr : Nat) (f : DupRec → DupRec) (s : State) :
    (s.updateDup q seq tr f).mode = s.mode := by rfl
@[simp] theorem State.applied_mode (o : Obj) (c : Cmd) (b : StatusBlock) (s : State) :
    (s.applied o c b).mode = s.mode := by rfl
@[simp] theorem State.setPending_mode (o : Obj) (c : Cmd) (s : State) : (s.setPending o c).mode = s.mode := by rfl
@[simp] theorem State.onLive_mode (c : Cmd) (f : Live → Live) (s : State) : (s.onLive c f).mode = s.mode := by
  unfold State.onLive; split <;> simp
@[simp] theorem State.recordDone_mode (c : Cmd) (r : Reply) (s : State) : (s.recordDone c r).mode = s.mode := by
  unfold State.recordDone; split <;> simp
@[simp] theorem State.finishWith_mode (op : Nat) (c : Cmd) (b : StatusBlock) (d : List Byte) (s : State) :
    (s.finishWith op c b d).mode = s.mode := by simp [State.finishWith]
@[simp] theorem State.finish_mode (op : Nat) (c : Cmd) (st det res : Nat) (d : List Byte) (s : State) :
    (s.finish op c st det res d).mode = s.mode := by simp [State.finish]
@[simp] theorem State.done_mode (op : Nat) (c : Cmd) (res : Nat) (s : State) : (s.done op c res).mode = s.mode := by
  simp [State.done]
@[simp] theorem State.doneOn_mode (op : Nat) (o : Obj) (c : Cmd) (res : Nat) (s : State) :
    (s.doneOn op o c res).mode = s.mode := by simp [State.doneOn]

/-! ### Choices, folds and rejections -/

/-- What a rejection by this opcode's checks leaves behind keeps the mode. -/
def OpInfo.KeepsMode (o : OpInfo) : Prop := ∀ c st d s, (o.rejected c st d s).mode = s.mode

/-- Most opcodes' rejections leave nothing behind. -/
theorem OpInfo.KeepsMode.of_plain {o : OpInfo} (h : o.rejected = fun _ _ _ s => s) : o.KeepsMode := by
  simp [OpInfo.KeepsMode, h]

@[simp] theorem mode_ite (p : Prop) [Decidable p] (s t : State) :
    (if p then s else t).mode = if p then s.mode else t.mode := apply_ite State.mode p s t

/-- A fold over the state keeps the mode when each of its steps does. -/
@[simp] theorem mode_foldl {α : Type} (f : State → α → State) (l : List α) (s : State)
    (h : ∀ t a, (f t a).mode = t.mode) : (l.foldl f s).mode = s.mode := by
  induction l generalizing s with
  | nil => rfl
  | cons a l ih => exact (ih _).trans (h s a)

/-- A fold over the state and what is gathered beside it. -/
theorem mode_foldl_fst {α β : Type} (f : State × β → α → State × β) (l : List α) (x : State × β)
    (h : ∀ y a, (f y a).1.mode = y.1.mode) : (l.foldl f x).1.mode = x.1.mode := by
  induction l generalizing x with
  | nil => rfl
  | cons a l ih => exact (ih _).trans (h x a)

/-! ### Shared operations -/

@[simp] theorem State.onUnit_mode (u : Nat) (f : CheckUnit → CheckUnit) (s : State) : (s.onUnit u f).mode = s.mode := by rfl
@[simp] theorem State.unitItem_mode (u : Nat) (bytes : List Byte) (s : State) : (s.unitItem u bytes).mode = s.mode := by rfl
@[simp] theorem State.unitLoads_mode (u running n : Nat) (s : State) : (s.unitLoads u running n).mode = s.mode := by rfl
@[simp] theorem State.snoop_mode (source : Nat) (bytes : List Byte) (s : State) : (s.snoop source bytes).mode = s.mode := by
  simp [State.snoop]
@[simp] theorem State.parkGalvo_mode (s : State) : s.parkGalvo.mode = s.mode := by rfl
@[simp] theorem State.notBegun_mode (c : Cmd) (s : State) : (s.notBegun c).mode = s.mode := by simp [State.notBegun]
@[simp] theorem State.failInside_mode (op : Nat) (c : Cmd) (s : State) : (s.failInside op c).mode = s.mode := by
  simp [State.failInside]
@[simp] theorem State.refuseRun_mode (o : OpInfo) (c : Cmd) (st d : Nat) (s : State) (hr : o.KeepsMode) :
    (s.refuseRun o c st d).mode = s.mode := by
  unfold State.refuseRun; split
  · simp [hr c st d s]
  · split <;> simp
@[simp] theorem State.run_mode (o : OpInfo) (c : Cmd) (eff : State → State) (s : State) (hr : o.KeepsMode)
    (h : ∀ t, (eff t).mode = t.mode) : (s.run o c eff).mode = s.mode := by
  unfold State.run; split
  · rfl
  · split
    · exact State.refuseRun_mode _ _ _ _ _ hr
    · simp [h]

/-! ### Lanes, front ends and engines -/

@[simp] theorem State.onRegion_mode (row region : Nat) (f : MemRegion → MemRegion) (s : State) :
    (s.onRegion row region f).mode = s.mode := by rfl
@[simp] theorem State.noteLost_mode (row region word : Nat) (s : State) : (s.noteLost row region word).mode = s.mode := by rfl

/-! ### The maintenance arbiter's queue and the repair map -/

@[simp] theorem State.onArbiterQueue_mode (f : List Activity → List Activity) (s : State) :
    (s.onArbiterQueue f).mode = s.mode := by rfl
@[simp] theorem State.request_mode (a : Activity) (s : State) : (s.request a).mode = s.mode := by simp [State.request]
@[simp] theorem State.storeFor_mode (op id : Nat) (data : Option (List Byte)) (c : Cmd) (s : State) :
    (s.storeFor op id data c).mode = s.mode := by simp [State.storeFor]
@[simp] theorem State.storeAfter_mode (op id : Nat) (c : Cmd) (b : StatusBlock) (s : State) :
    (s.storeAfter op id c b).mode = s.mode := by simp [State.storeAfter]
@[simp] theorem State.deviceStore_mode (id : Nat) (s : State) : (s.deviceStore id).mode = s.mode := by
  simp [State.deviceStore]
@[simp] theorem State.claspStore_mode (s : State) : s.claspStore.mode = s.mode := by simp [State.claspStore]
@[simp] theorem State.storeMap_mode (s : State) : s.storeMap.mode = s.mode := by simp [State.storeMap]
@[simp] theorem State.onRepair_mode (f : RepairMap → RepairMap) (s : State) : (s.onRepair f).mode = s.mode := by rfl
@[simp] theorem State.trigger_mode (code scope target row : Nat) (s : State) :
    (s.trigger code scope target row).mode = s.mode := by simp [State.trigger]
@[simp] theorem State.feFailed_mode (ch : Nat) (s : State) : (s.feFailed ch).mode = s.mode := by simp [State.feFailed]
@[simp] theorem State.engineFailed_mode (g : Nat) (s : State) : (s.engineFailed g).mode = s.mode := by
  simp only [State.engineFailed]; split <;> simp
@[simp] theorem State.coreTrouble_mode (e row : Nat) (s : State) : (s.coreTrouble e row).mode = s.mode := by
  simp [State.coreTrouble]
@[simp] theorem State.rowTrouble_mode (bank row : Nat) (s : State) : (s.rowTrouble bank row).mode = s.mode := by
  simp [State.rowTrouble]
@[simp] theorem State.listedRow_mode (s : State) : s.listedRow.mode = s.mode := by unfold State.listedRow; split <;> simp

/-! ### Instants and angles -/

@[simp] theorem State.endSegment_mode (s : State) : s.endSegment.mode = s.mode := by rfl

/-! ### Admission figures -/

@[simp] theorem State.refreshPlan_mode (s : State) : s.refreshPlan.mode = s.mode := by rfl

/-! ### Sets and the engines they need -/

@[simp] theorem State.wakeDomain_mode (d : Domain) (s : State) : (s.wakeDomain d).mode = s.mode := by simp [State.wakeDomain]
@[simp] theorem State.decideSwap_mode (s : State) : s.decideSwap.mode = s.mode := by simp [State.decideSwap]

/-! ### The foreign-pulse tap and its trackers -/

@[simp] theorem State.offerStamp_mode (t : Nat) (p : List Byte) (x : Nat) (s : State) :
    (s.offerStamp t p x).mode = s.mode := by fun_cases State.offerStamp <;> simp +zetaDelta
@[simp] theorem State.mergeStamp_mode (t : Nat) (p : List Byte) (x : Nat) (s : State) :
    (s.mergeStamp t p x).mode = s.mode := by simp [State.mergeStamp]
@[simp] theorem State.releaseStamps_mode (t : Nat) (p : List Byte) (x : Nat) (s : State) :
    (s.releaseStamps t p x).mode = s.mode := by simp [State.releaseStamps]
@[simp] theorem State.tapStamp_mode (t : Nat) (p : List Byte) (x : TapStamp) (s : State) :
    (s.tapStamp t p x).mode = s.mode := by simp [State.tapStamp]
@[simp] theorem State.tap_mode (ch weight x : Nat) (shot : Option (Nat × Nat)) (s : State) :
    (s.tap ch weight x shot).mode = s.mode := by simp only [State.tap]; split <;> simp
@[simp] theorem State.idleTrackers_mode (s : State) : s.idleTrackers.mode = s.mode := by rfl

/-! ### Emitter outputs and the energy ledger -/

@[simp] theorem State.charge_mode (e de : Nat) (s : State) : (s.charge e de).mode = s.mode := by rfl
@[simp] theorem State.unreserve_mode (e q : Nat) (s : State) : (s.unreserve e q).mode = s.mode := by rfl
@[simp] theorem State.reserve_mode (e q : Nat) (s : State) : (s.reserve e q).mode = s.mode := by rfl
@[simp] theorem State.settle_mode (e : Nat) (s : State) : (s.settle e).mode = s.mode := by
  simp only [State.settle]; split <;> simp
@[simp] theorem State.settleAll_mode (s : State) : s.settleAll.mode = s.mode := by simp [State.settleAll]
@[simp] theorem State.parkOutput_mode (e : Nat) (s : State) : (s.parkOutput e).mode = s.mode := by
  simp only [State.parkOutput]; split <;> simp
@[simp] theorem State.holdOutput_mode (e : Nat) (s : State) : (s.holdOutput e).mode = s.mode := by simp [State.holdOutput]
@[simp] theorem State.endDirect_mode (e st det : Nat) (s : State) : (s.endDirect e st det).mode = s.mode := by
  unfold State.endDirect; split <;> simp
@[simp] theorem State.abandonFade_mode (e det : Nat) (running : Bool) (s : State) :
    (s.abandonFade e det running).mode = s.mode := by unfold State.abandonFade; split <;> simp
@[simp] theorem State.parkAll_mode (s : State) : s.parkAll.mode = s.mode := by simp [State.parkAll]
@[simp] theorem State.refreshSlots_mode (s : State) : s.refreshSlots.mode = s.mode :=
  mode_foldl _ _ _ fun _ _ => State.onEmitter_mode ..
@[simp] theorem State.onSlot_mode (e n : Nat) (f : Slot → Slot) (s : State) : (s.onSlot e n f).mode = s.mode := by rfl
@[simp] theorem State.eccFail_mode (e n : Nat) (s : State) : (s.eccFail e n).mode = s.mode := by rfl

/-! ### Histograms under accumulation -/

@[simp] theorem State.closeHist_mode (ch : Nat) (h : Hist) (s : State) : (s.closeHist ch h).mode = s.mode := by
  simp [State.closeHist]
@[simp] theorem State.updHist_mode (ch view cell epoch : Nat) (f : Hist → Hist) (s : State) :
    (s.updHist ch view cell epoch f).mode = s.mode := by simp only [State.updHist]; split <;> simp
@[simp] theorem State.dropShots_mode (chs : List Nat) (view cell epoch n : Nat) (s : State) :
    (s.dropShots chs view cell epoch n).mode = s.mode := by simp [State.dropShots]

/-! ### Protection fields -/

@[simp] theorem State.driveZones_mode (s : State) : s.driveZones.mode = s.mode := by simp [State.driveZones]
@[simp] theorem State.onField_mode (n : Nat) (f : FieldRun → FieldRun) (s : State) : (s.onField n f).mode = s.mode := by
  simp [State.onField]
@[simp] theorem State.enterField_mode (n : Nat) (st : FieldState) (s : State) : (s.enterField n st).mode = s.mode := by
  simp [State.enterField]
@[simp] theorem State.decideCell_mode (n : Nat) (v : ViewDef) (j : Nat) (observed occupied : Bool) (near : Nat)
    (s : State) : (s.decideCell n v j observed occupied near).mode = s.mode := by simp only [State.decideCell]; split <;> simp
@[simp] theorem State.reachCell_mode (v : ViewDef) (j a : Nat) (s : State) : (s.reachCell v j a).mode = s.mode := by
  simp [State.reachCell]
@[simp] theorem State.missCell_mode (v : ViewDef) (a : Nat) (s : State) (j : Nat) : (s.missCell v a j).mode = s.mode := by
  simp [State.missCell]
@[simp] theorem State.startSweep_mode (b : Nat) (s : State) : (s.startSweep b).mode = s.mode := by rfl
@[simp] theorem State.breakSweep_mode (unseen : Nat → List Byte → Bool) (s : State) :
    (s.breakSweep unseen).mode = s.mode := by simp [State.breakSweep]
@[simp] theorem State.sweepTo_mode (b : Nat) (s : State) : (s.sweepTo b).mode = s.mode := by
  unfold State.sweepTo; split <;> simp
@[simp] theorem State.loseSweep_mode (s : State) : s.loseSweep.mode = s.mode := by simp [State.loseSweep]
@[simp] theorem State.tryField_mode (v : ViewDef) (n : Nat) (p : List Byte) (late : Bool) (x : State × ZoneCell) :
    (State.tryField v n p late x).1.mode = x.1.mode := by simp only [State.tryField]; split <;> simp
@[simp] theorem State.tryCell_mode (late : Bool) (z : ZoneCell) (s : State) : (State.tryCell late z s).1.mode = s.mode := by
  unfold State.tryCell; split
  · exact mode_foldl_fst _ _ _ fun x f => State.tryField_mode ..
  · rfl
@[simp] theorem State.keepCell_mode (z : ZoneCell) (s : State) : (s.keepCell z).mode = s.mode := by simp [State.keepCell]
@[simp] theorem State.zoneArrives_mode (view cell epoch : Nat) (r : ZoneResult) (s : State) :
    (s.zoneArrives view cell epoch r).mode = s.mode := by unfold State.zoneArrives; split <;> simp
@[simp] theorem State.zoneDeadline_mode (z : ZoneCell) (s : State) : (s.zoneDeadline z).mode = s.mode := by
  simp [State.zoneDeadline]
@[simp] theorem State.openZoneCell_mode (v : ViewDef) (cell epoch last : Nat) (s : State) :
    (s.openZoneCell v cell epoch last).mode = s.mode := by simp [State.openZoneCell]
@[simp] theorem State.zoneShot_mode (view cell epoch t : Nat) (s : State) : (s.zoneShot view cell epoch t).mode = s.mode := by
  simp [State.zoneShot]

/-! ### Point frames and the release of chains -/

@[simp] theorem State.countDown_mode (p : Nat) (c : Bool) (s : State) : (s.countDown p c).mode = s.mode := by
  simp [State.countDown]
@[simp] theorem State.closeFrame_mode (n : Nat) (s : State) : (s.closeFrame n).mode = s.mode := by
  simp only [State.closeFrame]; split <;> simp
@[simp] theorem State.placeRecord_mode (n dev tick epoch : Nat) (s : State) (rec : List Byte) :
    (s.placeRecord n dev tick epoch rec).mode = s.mode := by unfold State.placeRecord; split <;> simp
@[simp] theorem State.releaseAmbient_mode (r : Release) (s : State) : (s.releaseAmbient r).mode = s.mode := by
  unfold State.releaseAmbient; split <;> simp
@[simp] theorem State.releaseOne_mode (r : Release) (s : State) : (s.releaseOne r).mode = s.mode := by
  simp only [State.releaseOne]
  repeat' split
  all_goals simp
@[simp] theorem State.flushReleases_mode (view fuel : Nat) (s : State) : (s.flushReleases view fuel).mode = s.mode := by
  induction fuel generalizing s with
  | zero => rfl
  | succ k ih =>
    unfold State.flushReleases; split
    · split <;> simp [ih]
    · rfl
@[simp] theorem State.flushView_mode (view : Nat) (s : State) : (s.flushView view).mode = s.mode := by simp [State.flushView]
@[simp] theorem State.settleRelease_mode (seq : Nat) (f : Release → Release) (s : State) :
    (s.settleRelease seq f).mode = s.mode := by simp [State.settleRelease]
@[simp] theorem State.abandonHist_mode (h : Hist) (s : State) : (s.abandonHist h).mode = s.mode := by
  simp only [State.abandonHist]; split <;> simp

/-! ### Opening and ending histograms; the inhibit network -/

@[simp] theorem State.freeBuffer_mode (ch buf : Nat) (s : State) : (s.freeBuffer ch buf).mode = s.mode := by
  simp only [State.freeBuffer]
  rw [mode_foldl _ _ _ fun _ _ => State.abandonHist_mode .., State.onTile_mode]
  exact mode_foldl _ _ _ fun s g => by split <;> simp
@[simp] theorem State.endOlder_mode (ch : Nat) (s : State) : (s.endOlder ch).mode = s.mode := by simp [State.endOlder]
@[simp] theorem State.startHist_mode (v : ViewDef) (j epoch ch : Nat) (s : State) :
    (s.startHist v j epoch ch).mode = s.mode := by simp [State.startHist]
@[simp] theorem State.onCell_mode (view cell : Nat) (f : OpenCell → OpenCell) (s : State) :
    (s.onCell view cell f).mode = s.mode := by simp [State.onCell]
@[simp] theorem State.ensureHist_mode (v : ViewDef) (j epoch ch : Nat) (s : State) :
    (s.ensureHist v j epoch ch).mode = s.mode := by simp [State.ensureHist]
@[simp] theorem State.closeCellOn_mode (v : ViewDef) (c : OpenCell) (m : Nat) (s : State) (x : Nat × Nat) :
    (s.closeCellOn v c m x).mode = s.mode := by simp [State.closeCellOn]
@[simp] theorem State.closeCell_mode (m : Nat) (s : State) (c : OpenCell) : (s.closeCell m c).mode = s.mode := by
  unfold State.closeCell; split <;> simp
@[simp] theorem State.abandonWindow_mode (ch : Nat) (s : State) : (s.abandonWindow ch).mode = s.mode := by
  simp [State.abandonWindow]
@[simp] theorem State.abandonWindows_mode (s : State) : s.abandonWindows.mode = s.mode := by simp [State.abandonWindows]
@[simp] theorem State.releaseDescriptor_mode (s : State) (d : Descriptor) : (s.releaseDescriptor d).mode = s.mode := by
  simp [State.releaseDescriptor]
@[simp] theorem State.inhibitNow_mode (cause : Nat) (s : State) : (s.inhibitNow cause).mode = s.mode := by
  simp [State.inhibitNow]
@[simp] theorem State.registerCause_mode (cause : Nat) (s : State) : (s.registerCause cause).mode = s.mode := by
  simp [State.registerCause]
@[simp] theorem State.clearCause_mode (cause : Nat) (s : State) : (s.clearCause cause).mode = s.mode := by
  simp [State.clearCause]
@[simp] theorem State.registerSource_mode (src : Nat) (s : State) : (s.registerSource src).mode = s.mode := by
  simp [State.registerSource]
@[simp] theorem State.clearSource_mode (src : Nat) (s : State) : (s.clearSource src).mode = s.mode := by
  simp [State.clearSource]
@[simp] theorem State.endGroup_mode (ch : Nat) (s : State) (h : Hist) : (s.endGroup ch h).mode = s.mode := by
  simp [State.endGroup]
@[simp] theorem State.endGroupsIf_mode (ends : Hist → Bool) (s : State) : (s.endGroupsIf ends).mode = s.mode := by
  simp [State.endGroupsIf]
@[simp] theorem State.endGroups_mode (s : State) : s.endGroups.mode = s.mode := State.endGroupsIf_mode ..
@[simp] theorem State.endPassed_mode (a d : Nat) (s : State) : (s.endPassed a d).mode = s.mode := State.endGroupsIf_mode ..
@[simp] theorem State.sweepNow_mode (s : State) : s.sweepNow.mode = s.mode := by unfold State.sweepNow; split <;> simp
@[simp] theorem State.restamp_mode (s : State) : s.restamp.mode = s.mode := by simp [State.restamp]
@[simp] theorem State.speedRule_mode (s : State) : s.speedRule.mode = s.mode := by simp [State.speedRule]
@[simp] theorem State.followAngle_mode (s : State) : s.followAngle.mode = s.mode := by simp [State.followAngle]

/-! ### Windows -/

@[simp] theorem State.overflow_mode (ch : Nat) (s : State) : (s.overflow ch).mode = s.mode := by simp [State.overflow]
@[simp] theorem State.countNear_mode (e : Nat) (s : State) : (s.countNear e).mode = s.mode := by rfl
@[simp] theorem State.placeEvent_mode (ch : Nat) (interval : Int) (weight : Nat) (s : State) :
    (s.placeEvent ch interval weight).mode = s.mode := by fun_cases State.placeEvent <;> simp +zetaDelta
@[simp] theorem State.eventAt_mode (ch : Nat) (tau : Int) (weight : Nat) (s : State) :
    (s.eventAt ch tau weight).mode = s.mode := by fun_cases State.eventAt <;> simp +zetaDelta
@[simp] theorem State.sendAmbient_mode (ch span : Nat) (ovf : Bool) (s : State) :
    (s.sendAmbient ch span ovf).mode = s.mode := by simp [State.sendAmbient]
@[simp] theorem State.totSample_mode (ch tot : Nat) (s : State) : (s.totSample ch tot).mode = s.mode := by
  simp [State.totSample]
@[simp] theorem State.endEdge_mode (ch tot : Nat) (s : State) : (s.endEdge ch tot).mode = s.mode := by
  simp only [State.endEdge]; split <;> simp
@[simp] theorem State.flushEdge_mode (ch : Nat) (s : State) : (s.flushEdge ch).mode = s.mode := by
  unfold State.flushEdge; split <;> simp
@[simp] theorem State.endAmbient_mode (ch t : Nat) (ovf : Bool) (s : State) : (s.endAmbient ch t ovf).mode = s.mode := by
  simp [State.endAmbient]
@[simp] theorem State.endRange_mode (ch t : Nat) (cut fault : Bool) (s : State) :
    (s.endRange ch t cut fault).mode = s.mode := by fun_cases State.endRange <;> simp +zetaDelta
@[simp] theorem State.stopRange_mode (ch t : Nat) (cut fault : Bool) (s : State) :
    (s.stopRange ch t cut fault).mode = s.mode := by simp [State.stopRange]
@[simp] theorem State.endEarlier_mode (ch : Nat) (s : State) : (s.endEarlier ch).mode = s.mode := by
  unfold State.endEarlier; split <;> simp
@[simp] theorem State.placeSkid_mode (ch : Nat) (value : Int) (s : State) : (s.placeSkid ch value).mode = s.mode := by
  simp [State.placeSkid]
@[simp] theorem State.resolveOpen_mode (ch : Nat) (value : Int) (st : T0Status) (s : State) :
    (s.resolveOpen ch value st).mode = s.mode := by simp only [State.resolveOpen]; split <;> simp
@[simp] theorem State.resolveClosing_mode (ch : Nat) (value : Int) (st : T0Status) (w : Window) (s : State) :
    (s.resolveClosing ch value st w).mode = s.mode := by simp only [State.resolveClosing]; split <;> simp
@[simp] theorem State.resolveOn_mode (e t0 : Nat) (value : Int) (st : T0Status) (s : State) (ch : Nat) :
    (s.resolveOn e t0 value st ch).mode = s.mode := by simp only [State.resolveOn]; split <;> simp
@[simp] theorem State.resolveT0_mode (e t0 : Nat) (value : Int) (st : T0Status) (s : State) :
    (s.resolveT0 e t0 value st).mode = s.mode := by simp [State.resolveT0]
@[simp] theorem State.noWindow_mode (ch : Nat) (d : Descriptor) (s : State) : (s.noWindow ch d).mode = s.mode := by
  simp [State.noWindow]
@[simp] theorem State.takeDnl_mode (f : Nat) (s : State) : (s.takeDnl f).mode = s.mode := by
  unfold State.takeDnl; split <;> simp
@[simp] theorem State.openWindow_mode (v : ViewDef) (d : Descriptor) (s : State) (ch : Nat) :
    (s.openWindow v d ch).mode = s.mode := by simp [State.openWindow]
@[simp] theorem State.mergeHeader_mode (ch : Nat) (w : Window) (s : State) : (s.mergeHeader ch w).mode = s.mode := by
  simp [State.mergeHeader]
@[simp] theorem State.mergeHeaders_mode (ch fuel : Nat) (s : State) : (s.mergeHeaders ch fuel).mode = s.mode := by
  induction fuel generalizing s with
  | zero => rfl
  | succ k ih => unfold State.mergeHeaders; split <;> simp [ih]
@[simp] theorem State.countRecords_mode (ch : Nat) (w : Window) (rs : List (Nat × Nat)) (s : State) :
    (s.countRecords ch w rs).mode = s.mode := by unfold State.countRecords; split <;> simp

/-! ### Shot events -/

@[simp] theorem State.setLfsr_mode (view x : Nat) (s : State) : (s.setLfsr view x).mode = s.mode := by simp [State.setLfsr]
@[simp] theorem State.loadLfsr_mode (old : ConfigSet) (epoch : Nat) (s : State) (v : ViewDef) :
    (s.loadLfsr old epoch v).mode = s.mode := by simp [State.loadLfsr]
@[simp] theorem State.setLastBase_mode (view t : Nat) (s : State) : (s.setLastBase view t).mode = s.mode := by rfl
@[simp] theorem State.beginCell_mode (v : ViewDef) (j epoch : Nat) (s : State) : (s.beginCell v j epoch).mode = s.mode := by
  simp [State.beginCell]
@[simp] theorem State.blockedCell_mode (v : ViewDef) (j base : Nat) (s : State) : (s.blockedCell v j base).mode = s.mode := by
  simp only [State.blockedCell]; split <;> simp
@[simp] theorem State.endCell_mode (v : ViewDef) (j : Nat) (s : State) : (s.endCell v j).mode = s.mode := by
  unfold State.endCell; split <;> simp
@[simp] theorem State.shortfall_mode (v : ViewDef) (j e : Nat) (s : State) : (s.shortfall v j e).mode = s.mode := by
  unfold State.shortfall; split <;> simp
@[simp] theorem State.countSkip_mode (e : Nat) (r : Skip) (s : State) : (s.countSkip e r).mode = s.mode := by
  unfold State.countSkip; split <;> simp
@[simp] theorem State.planShot_mode (v : ViewDef) (c : OpenCell) (e k base : Nat) (s : State) :
    (s.planShot v c e k base).mode = s.mode := by fun_cases State.planShot <;> simp +zetaDelta
@[simp] theorem State.planNext_mode (c : OpenCell) (s : State) : (s.planNext c).mode = s.mode := by
  fun_cases State.planNext <;> simp +zetaDelta
@[simp] theorem State.brokenCell_mode (v : ViewDef) (j base : Nat) (s : State) : (s.brokenCell v j base).mode = s.mode := by
  simp only [State.brokenCell]; split <;> simp
@[simp] theorem State.planBlocked_mode (view cell : Nat) (s : State) : (s.planBlocked view cell).mode = s.mode := by
  fun_cases State.planBlocked <;> simp +zetaDelta
@[simp] theorem State.planFirst_mode (view cell : Nat) (s : State) : (s.planFirst view cell).mode = s.mode := by
  fun_cases State.planFirst <;> simp +zetaDelta
@[simp] theorem shotPlan_mode (view cell : Nat) (s : State) : (shotPlan view cell s).mode = s.mode := by
  fun_cases shotPlan <;> simp +zetaDelta
@[simp] theorem State.registerLedger_mode (row window : Nat) (s : State) : (s.registerLedger row window).mode = s.mode := by
  simp [State.registerLedger]
@[simp] theorem State.tryClearLedger_mode (s : State) : s.tryClearLedger.mode = s.mode := by simp [State.tryClearLedger]
@[simp] theorem State.dropDescriptor_mode (d : Descriptor) (s : State) : (s.dropDescriptor d).mode = s.mode := by
  simp only [State.dropDescriptor]; split <;> simp
@[simp] theorem State.barEntry_mode (d : Descriptor) (s : State) : (s.barEntry d).mode = s.mode := by rfl
@[simp] theorem shotFix_mode (e : Nat) (s : State) : (shotFix e s).mode = s.mode := by
  fun_cases shotFix
  case case7 =>
    simp +zetaDelta only [State.onSched_mode]
    split <;> simp
  all_goals simp +zetaDelta
@[simp] theorem windowStart_mode (e : Nat) (s : State) : (windowStart e s).mode = s.mode := by
  fun_cases windowStart <;> simp +zetaDelta
@[simp] theorem State.markLane_mode (n : Nat) (c : CalState) (of : Window → Bool) (s : State) :
    (s.markLane n c of).mode = s.mode := by simp [State.markLane]
@[simp] theorem calAccept_mode (n : Nat) (ones twos : List Nat) (fes : List (Nat × Nat)) (s : State) :
    (calAccept n ones twos fes s).mode = s.mode := by simp [calAccept]
@[simp] theorem laneStale_mode (n : Nat) (s : State) : (laneStale n s).mode = s.mode := by simp [laneStale]
@[simp] theorem State.channelOut_mode (s : State) (ch : Nat) : (s.channelOut ch).mode = s.mode := by simp [State.channelOut]
@[simp] theorem laneFailed_mode (n : Nat) (s : State) : (laneFailed n s).mode = s.mode := by simp [laneFailed]
@[simp] theorem laneWarmupDone_mode (n : Nat) (s : State) : (laneWarmupDone n s).mode = s.mode := by simp [laneWarmupDone]
@[simp] theorem State.warmLane_mode (s : State) (n : Nat) : (s.warmLane n).mode = s.mode := by rfl
@[simp] theorem threshReadback_mode (ch code : Nat) (s : State) : (threshReadback ch code s).mode = s.mode := by
  simp [threshReadback]
@[simp] theorem blankingRelease_mode (ch : Nat) (high : Bool) (s : State) : (blankingRelease ch high s).mode = s.mode := by
  simp [blankingRelease]
@[simp] theorem State.startWindow_mode (d : Descriptor) (v : ViewDef) (s : State) (ch : Nat) :
    (s.startWindow d v ch).mode = s.mode := by simp [State.startWindow]
@[simp] theorem State.noteSlotEcc_mode (e : Nat) (s : State) : (s.noteSlotEcc e).mode = s.mode := by
  unfold State.noteSlotEcc; split <;> simp
@[simp] theorem State.noteWaveLost_mode (e slot : Nat) (s : State) : (s.noteWaveLost e slot).mode = s.mode := by
  unfold State.noteWaveLost; split <;> simp
@[simp] theorem State.unreadable_mode (d : Descriptor) (v : ViewDef) (s : State) : (s.unreadable d v).mode = s.mode := by
  simp [State.unreadable]
@[simp] theorem State.t0Measured_mode (x : T0Shot) (tau : Int) (charge : Nat) (s : State) :
    (s.t0Measured x tau charge).mode = s.mode := by simp -implicitDefEqProofs [State.t0Measured]
@[simp] theorem State.t0Stamped_mode (x : T0Shot) (tau : Int) (charge : Nat) (s : State) :
    (s.t0Stamped x tau charge).mode = s.mode := by simp [State.t0Stamped]
@[simp] theorem t0InEdge_mode (coarse raw charge : Nat) (s : State) : (t0InEdge coarse raw charge s).mode = s.mode := by
  fun_cases t0InEdge <;> simp +zetaDelta
@[simp] theorem t0Timeout_mode (e : Nat) (s : State) : (t0Timeout e s).mode = s.mode := by
  simp only [t0Timeout]
  repeat' split
  all_goals simp -implicitDefEqProofs
@[simp] theorem State.t0Overdue_mode (s : State) : s.t0Overdue.mode = s.mode := by simp [State.t0Overdue]
@[simp] theorem State.fire_mode (d : Descriptor) (v : ViewDef) (s : State) : (s.fire d v).mode = s.mode := by
  simp -implicitDefEqProofs [State.fire]
@[simp] theorem shotFire_mode (e : Nat) (eccBad : Bool) (s : State) : (shotFire e eccBad s).mode = s.mode := by
  fun_cases shotFire <;> simp +zetaDelta
@[simp] theorem slotEnd_mode (e : Nat) (s : State) : (slotEnd e s).mode = s.mode := by unfold slotEnd; split <;> simp
@[simp] theorem histogramRangeEnd_mode (ch : Nat) (s : State) : (histogramRangeEnd ch s).mode = s.mode := by
  simp [histogramRangeEnd]
@[simp] theorem ambientSpanEnd_mode (ch : Nat) (s : State) : (ambientSpanEnd ch s).mode = s.mode := by simp [ambientSpanEnd]
@[simp] theorem coarseOvf_mode (ch : Nat) (s : State) : (coarseOvf ch s).mode = s.mode := by simp [coarseOvf]
@[simp] theorem State.acceptEdge_mode (ch stamp : Nat) (s : State) : (s.acceptEdge ch stamp).mode = s.mode := by rfl
@[simp] theorem State.untimedEdge_mode (ch : Nat) (ph : WinPhase) (s : State) : (s.untimedEdge ch ph).mode = s.mode := by
  unfold State.untimedEdge; split <;> simp
@[simp] theorem State.timedEdge_mode (ch : Nat) (tau f : Int) (s : State) : (s.timedEdge ch tau f).mode = s.mode := by
  simp [State.timedEdge]
@[simp] theorem discriminatorEdge_mode (ch coarse raw : Nat) (s : State) :
    (discriminatorEdge ch coarse raw s).mode = s.mode := by fun_cases discriminatorEdge <;> simp +zetaDelta
@[simp] theorem discriminatorFall_mode (ch tot : Nat) (s : State) : (discriminatorFall ch tot s).mode = s.mode := by
  simp [discriminatorFall]
@[simp] theorem longHigh_mode (ch : Nat) (s : State) : (longHigh ch s).mode = s.mode := by simp [longHigh]
@[simp] theorem State.noteEcc_mode (ch buf : Nat) (fs : List EccFault) (s : State) : (s.noteEcc ch buf fs).mode = s.mode := by
  unfold State.noteEcc
  rw [mode_foldl _ _ _ fun s f => by split <;> simp, State.onTile_mode]
@[simp] theorem State.ingressEcc_mode (ch : Nat) (w : Window) (rs : List (Nat × Nat)) (faults : List EccFault)
    (s : State) : (s.ingressEcc ch w rs faults).mode = s.mode := by unfold State.ingressEcc; split <;> simp
@[simp] theorem ingressEntry_mode (ch : Nat) (parityBad : Bool) (faults : List EccFault) (s : State) :
    (ingressEntry ch parityBad faults s).mode = s.mode := by simp only [ingressEntry]; split <;> simp
@[simp] theorem trailerMerge_mode (ch : Nat) (s : State) : (trailerMerge ch s).mode = s.mode := by
  simp only [trailerMerge]; split <;> simp
@[simp] theorem nearFieldRegister_mode (e : Nat) (s : State) : (nearFieldRegister e s).mode = s.mode := by
  fun_cases nearFieldRegister <;> simp +zetaDelta
@[simp] theorem nearFieldClear_mode (s : State) : (nearFieldClear s).mode = s.mode := by simp [nearFieldClear]
@[simp] theorem nfSectorRelease_mode (i : Nat) (s : State) : (nfSectorRelease i s).mode = s.mode := by
  unfold nfSectorRelease; split <;> simp

/-! ### The emission chapter -/

@[simp] theorem waveLoadEffect_mode (c : Cmd) (s : State) : (waveLoadEffect c s).mode = s.mode := by simp [waveLoadEffect]
@[simp] theorem State.writeSlot_mode (e n : Nat) (k : Slot) (s : State) : (s.writeSlot e n k).mode = s.mode := by
  simp [State.writeSlot]
@[simp] theorem waveTransfer_mode (e n : Nat) (s : State) : (waveTransfer e n s).mode = s.mode := by
  unfold waveTransfer; split <;> simp
@[simp] theorem waveReadEffect_mode (c : Cmd) (s : State) : (waveReadEffect c s).mode = s.mode := by simp [waveReadEffect]
@[simp] theorem waveFadeEffect_mode (c : Cmd) (s : State) : (waveFadeEffect c s).mode = s.mode := by rfl
@[simp] theorem fadeCopy_mode (e : Nat) (s : State) : (fadeCopy e s).mode = s.mode := by unfold fadeCopy; split <;> simp
@[simp] theorem parkSetEffect_mode (c : Cmd) (s : State) : (parkSetEffect c s).mode = s.mode := by simp [parkSetEffect]
@[simp] theorem State.setPark_mode (ch code : Nat) (s : State) : (s.setPark ch code).mode = s.mode := by simp [State.setPark]
@[simp] theorem State.supersede_mode (e : Nat) (s : State) : (s.supersede e).mode = s.mode := by
  unfold State.supersede; split <;> simp
@[simp] theorem emitDirectStart_mode (c : Cmd) (s : State) : (emitDirectStart c s).mode = s.mode := by simp [emitDirectStart]
@[simp] theorem emitDirectPark_mode (c : Cmd) (s : State) : (emitDirectPark c s).mode = s.mode := by simp [emitDirectPark]
@[simp] theorem emitDirectEffect_mode (c : Cmd) (s : State) : (emitDirectEffect c s).mode = s.mode := by
  simp [emitDirectEffect]
@[simp] theorem directPlayEnd_mode (e : Nat) (s : State) : (directPlayEnd e s).mode = s.mode := by
  unfold directPlayEnd; split <;> simp
@[simp] theorem directPlayLedgerLimit_mode (e : Nat) (s : State) : (directPlayLedgerLimit e s).mode = s.mode := by
  fun_cases directPlayLedgerLimit <;> simp +zetaDelta
@[simp] theorem State.barStarted_mode (e : Nat) (s : State) : (s.barStarted e).mode = s.mode := by simp [State.barStarted]
@[simp] theorem State.dropFixed_mode (r : Skip) (s : State) (d : Descriptor) : (s.dropFixed r d).mode = s.mode := by
  simp [State.dropFixed]
@[simp] theorem State.dropCurrent_mode (e : Nat) (r : Skip) (s : State) : (s.dropCurrent e r).mode = s.mode := by
  fun_cases State.dropCurrent <;> simp +zetaDelta
@[simp] theorem State.dropShotsOf_mode (e : Nat) (r : Skip) (s : State) : (s.dropShotsOf e r).mode = s.mode := by
  simp [State.dropShotsOf]
@[simp] theorem State.faultEmitter_mode (e : Nat) (s : State) : (s.faultEmitter e).mode = s.mode := by
  simp [State.faultEmitter]
@[simp] theorem emitterShort_mode (e : Nat) (s : State) : (emitterShort e s).mode = s.mode := by simp [emitterShort]
@[simp] theorem ledgerBucketEdge_mode (w : Nat) (s : State) : (ledgerBucketEdge w s).mode = s.mode := by
  simp [ledgerBucketEdge]
@[simp] theorem State.onUnlock_mode (f : Unlock → Unlock) (s : State) : (s.onUnlock f).mode = s.mode := by rfl
@[simp] theorem unlockRejected_mode (c : Cmd) (st det : Nat) (s : State) : (unlockRejected c st det s).mode = s.mode := by
  simp [unlockRejected]
@[simp] theorem unlockDraw_mode (c : Cmd) (s : State) : (unlockDraw c s).mode = s.mode := by simp [unlockDraw]
@[simp] theorem State.takeResponse_mode (s : State) : s.takeResponse.mode = s.mode := by rfl
@[simp] theorem unlockOpenNow_mode (c : Cmd) (s : State) : (unlockOpenNow c s).mode = s.mode := by simp [unlockOpenNow]
@[simp] theorem unlockEffect_mode (c : Cmd) (s : State) : (unlockEffect c s).mode = s.mode := by simp [unlockEffect]
@[simp] theorem unlockExpire_mode (s : State) : (unlockExpire s).mode = s.mode := by simp [unlockExpire]
@[simp] theorem unlockLockoutEnd_mode (s : State) : (unlockLockoutEnd s).mode = s.mode := by simp [unlockLockoutEnd]
@[simp] theorem State.useUnlock_mode (s : State) : s.useUnlock.mode = s.mode := by rfl
@[simp] theorem ledgerWriteEffect_mode (c : Cmd) (s : State) : (ledgerWriteEffect c s).mode = s.mode := by
  simp [ledgerWriteEffect]
@[simp] theorem State.forbidEmitter_mode (s : State) (e : Nat) : (s.forbidEmitter e).mode = s.mode := by
  simp [State.forbidEmitter]
@[simp] theorem State.installLedger_mode (t : List Byte) (gen : Nat) (s : State) : (s.installLedger t gen).mode = s.mode := by
  simp [State.installLedger]
@[simp] theorem ledgerReadEffect_mode (c : Cmd) (s : State) : (ledgerReadEffect c s).mode = s.mode := by
  simp [ledgerReadEffect]
@[simp] theorem State.clearEmission_mode (mask emitters : Nat) (s : State) :
    (s.clearEmission mask emitters).mode = s.mode := by simp -implicitDefEqProofs [State.clearEmission]
@[simp] theorem emitStatusEffect_mode (c : Cmd) (s : State) : (emitStatusEffect c s).mode = s.mode := by
  simp [emitStatusEffect]
@[simp] theorem emitEnEdge_mode (a b : Bool) (s : State) : (emitEnEdge a b s).mode = s.mode := by simp [emitEnEdge]
@[simp] theorem emitEnClear_mode (s : State) : (emitEnClear s).mode = s.mode := by simp [emitEnClear]
@[simp] theorem enDiscrepancy_mode (s : State) : (enDiscrepancy s).mode = s.mode := by simp [enDiscrepancy]
@[simp] theorem enDiscrepancyClear_mode (s : State) : (enDiscrepancyClear s).mode = s.mode := by simp [enDiscrepancyClear]
@[simp] theorem speedLowClear_mode (s : State) : (speedLowClear s).mode = s.mode := by simp [speedLowClear]
@[simp] theorem State.onReservoir_mode (k : Nat) (f : Reservoir → Reservoir) (s : State) :
    (s.onReservoir k f).mode = s.mode := by rfl
@[simp] theorem resConfigEffect_mode (c : Cmd) (s : State) : (resConfigEffect c s).mode = s.mode := by simp [resConfigEffect]
@[simp] theorem resMonSample_mode (k mv : Nat) (s : State) : (resMonSample k mv s).mode = s.mode := by simp [resMonSample]
@[simp] theorem resOver_mode (k : Nat) (s : State) : (resOver k s).mode = s.mode := by simp [resOver]
@[simp] theorem resLow_mode (k : Nat) (s : State) : (resLow k s).mode = s.mode := by simp [resLow]

/-! ### Power domains -/

@[simp] theorem State.refreshDomains_mode (s : State) : s.refreshDomains.mode = s.mode := by simp [State.refreshDomains]
@[simp] theorem State.refreshChannels_mode (s : State) : s.refreshChannels.mode = s.mode := by
  simp -implicitDefEqProofs [State.refreshChannels]
@[simp] theorem State.laneOff_mode (s : State) (n : Nat) : (s.laneOff n).mode = s.mode := by simp [State.laneOff]
@[simp] theorem domainWakeStart_mode (d : Domain) (s : State) : (domainWakeStart d s).mode = s.mode := by
  unfold domainWakeStart; split <;> simp
@[simp] theorem State.domainUp_mode (d : Domain) (s : State) : (s.domainUp d).mode = s.mode := by
  fun_cases State.domainUp <;> simp +zetaDelta
@[simp] theorem domainSettled_mode (d : Domain) (s : State) : (domainSettled d s).mode = s.mode := by
  fun_cases domainSettled <;> simp +zetaDelta
@[simp] theorem State.domainDown_mode (d : Domain) (s : State) : (s.domainDown d).mode = s.mode := by
  fun_cases State.domainDown <;> simp +zetaDelta
@[simp] theorem domainSleep_mode (d : Domain) (s : State) : (domainSleep d s).mode = s.mode := by
  unfold domainSleep; split <;> simp
@[simp] theorem State.onPace_mode (t : Nat) (f : TilePace → TilePace) (s : State) : (s.onPace t f).mode = s.mode := by rfl
@[simp] theorem State.tileGate_mode (a b t : Nat) (s : State) : (s.tileGate a b t).mode = s.mode := by simp [State.tileGate]
@[simp] theorem State.measurePace_mode (s : State) : s.measurePace.mode = s.mode := by simp [State.measurePace]
@[simp] theorem State.deliverPace_mode (s : State) : s.deliverPace.mode = s.mode := by simp [State.deliverPace]
@[simp] theorem paceGate_mode (as bs : List Nat) (s : State) : (paceGate as bs s).mode = s.mode := by simp [paceGate]
@[simp] theorem tileVoltageStepDown_mode (t : Nat) (s : State) : (tileVoltageStepDown t s).mode = s.mode := by
  simp [tileVoltageStepDown]

/-! ### Admission and its checks -/

@[simp] theorem State.deferSet_mode (op : Nat) (c : Cmd) (s : State) : (s.deferSet op c).mode = s.mode := by
  simp [State.deferSet]
@[simp] theorem State.shadowWrite_mode (op : Nat) (c : Cmd) (eff : State → State) (s : State)
    (h : (eff s).mode = s.mode) : (s.shadowWrite op c eff).mode = s.mode := by simp [State.shadowWrite, h]
@[simp] theorem State.onShadow_mode (f : ConfigSet → ConfigSet) (s : State) : (s.onShadow f).mode = s.mode := by rfl
@[simp] theorem State.doneSet_mode (op : Nat) (c : Cmd) (result : Nat) (data : List Byte) (s : State) :
    (s.doneSet op c result data).mode = s.mode := by simp [State.doneSet]

/-! ### What other chapters ask of the ports -/

@[simp] theorem State.enqueue_mode (f : TxFrame) (s : State) : (s.enqueue f).mode = s.mode := by simp [State.enqueue]
@[simp] theorem State.queueFrame_mode (kind : TxKind) (a b : Bool) (dest bytes : List Byte) (s : State) :
    (s.queueFrame kind a b dest bytes).mode = s.mode := by simp [State.queueFrame]
@[simp] theorem State.askNeighbour_mode (v6 : Bool) (a : List Byte) (s : State) : (s.askNeighbour v6 a).mode = s.mode := by
  simp [State.askNeighbour]
@[simp] theorem State.needNeighbour_mode (v6 : Bool) (a : List Byte) (s : State) : (s.needNeighbour v6 a).mode = s.mode := by
  simp [State.needNeighbour]
@[simp] theorem State.onPtp_mode (p : Nat) (f : PtpPort → PtpPort) (s : State) : (s.onPtp p f).mode = s.mode := by rfl
@[simp] theorem State.sendPtp_mode (p type flags control sequence : Nat) (body : List Byte) (event : Option PtpEvent)
    (s : State) : (s.sendPtp p type flags control sequence body event).mode = s.mode := by simp [State.sendPtp]
@[simp] theorem State.ptpDeparts_mode (p : Nat) (f : TxFrame) (s : State) : (s.ptpDeparts p f).mode = s.mode := by
  unfold State.ptpDeparts; split <;> simp
@[simp] theorem State.sendRequest_mode (p type : Nat) (s : State) : (s.sendRequest p type).mode = s.mode := by
  simp [State.sendRequest]
@[simp] theorem State.sendPdelay_mode (p sequence : Nat) (requester : List Byte) (s : State) :
    (s.sendPdelay p sequence requester).mode = s.mode := by simp [State.sendPdelay]
@[simp] theorem State.askPeer_mode (s : State) (p : Nat) : (s.askPeer p).mode = s.mode := by simp [State.askPeer]
@[simp] theorem State.installNet_mode (w : NetWait) (s : State) : (s.installNet w).mode = s.mode := by simp [State.installNet]
@[simp] theorem State.netSent_mode (r : Reply) (s : State) : (s.netSent r).mode = s.mode := by
  unfold State.netSent; split <;> simp
@[simp] theorem State.sendProbe_mode (s : State) : s.sendProbe.mode = s.mode := by simp [State.sendProbe]
@[simp] theorem State.sendPd_mode (kind : TxKind) (com : Nat) (dest dataset : List Byte) (s : State) :
    (s.sendPd kind com dest dataset).mode = s.mode := by simp [State.sendPd]
@[simp] theorem State.sendMd_mode (final : Bool) (r : Route) (packet : List Byte) (s : State) :
    (s.sendMd final r packet).mode = s.mode := by simp [State.sendMd]

/-! ### The taking of replies -/

@[simp] theorem State.taken_mode (r : Reply) (s : State) : (s.taken r).mode = s.mode := by simp [State.taken]
@[simp] theorem State.sendReply_mode (s : State) (r : Reply) : (s.sendReply r).mode = s.mode := by simp [State.sendReply]
@[simp] theorem State.sendReplies_mode (s : State) : s.sendReplies.mode = s.mode := by simp [State.sendReplies]

/-! ### The network chapter -/

@[simp] theorem State.dropEgress_mode (s : State) : s.dropEgress.mode = s.mode := by
  simp -implicitDefEqProofs [State.dropEgress]
@[simp] theorem State.discardPort_mode (p : Nat) (s : State) : (s.discardPort p).mode = s.mode := by simp [State.discardPort]
@[simp] theorem State.loseLink_mode (p : Nat) (s : State) : (s.loseLink p).mode = s.mode := by simp [State.loseLink]
@[simp] theorem linkDown_mode (p : Nat) (s : State) : (linkDown p s).mode = s.mode := by simp [linkDown]
@[simp] theorem State.endNetConfig_mode (st det : Nat) (s : State) : (s.endNetConfig st det).mode = s.mode := by
  unfold State.endNetConfig; split <;> simp
@[simp] theorem State.netReady_mode (s : State) : s.netReady.mode = s.mode := by unfold State.netReady; split <;> simp
@[simp] theorem linkUp_mode (p : Nat) (master anDone : Bool) (sqi : Nat) (s : State) :
    (linkUp p master anDone sqi s).mode = s.mode := by fun_cases linkUp <;> simp +zetaDelta
@[simp] theorem linkTrainTimeout_mode (p : Nat) (s : State) : (linkTrainTimeout p s).mode = s.mode := by
  unfold linkTrainTimeout; split <;> simp
@[simp] theorem dadComplete_mode (inUse : Bool) (s : State) : (dadComplete inUse s).mode = s.mode := by
  fun_cases dadComplete <;> simp +zetaDelta
@[simp] theorem State.retrain_mode (phy : Nat) (s : State) (p : Nat) : (s.retrain phy p).mode = s.mode := by
  simp [State.retrain]
@[simp] theorem State.restartPtp_mode (profile : Nat) (s : State) : (s.restartPtp profile).mode = s.mode := by
  simp [State.restartPtp]
@[simp] theorem netConfigEffect_mode (c : Cmd) (s : State) : (netConfigEffect c s).mode = s.mode := by simp [netConfigEffect]
@[simp] theorem netConfig_mode (c : Cmd) (s : State) : (netConfig c s).mode = s.mode := by
  unfold netConfig; split
  · rfl
  · exact State.run_mode _ _ _ _ (.of_plain rfl) (netConfigEffect_mode c)
@[simp] theorem trdpConfigEffect_mode (c : Cmd) (s : State) : (trdpConfigEffect c s).mode = s.mode := by
  simp [trdpConfigEffect]
@[simp] theorem streamConfigEffect_mode (c : Cmd) (s : State) : (streamConfigEffect c s).mode = s.mode := by
  simp [streamConfigEffect]
@[simp] theorem State.clearNet_mode (p mask : Nat) (s : State) : (s.clearNet p mask).mode = s.mode := by rfl
@[simp] theorem netStatusEffect_mode (c : Cmd) (s : State) : (netStatusEffect c s).mode = s.mode := by simp [netStatusEffect]
@[simp] theorem streamStatusEffect_mode (c : Cmd) (s : State) : (streamStatusEffect c s).mode = s.mode := by
  simp [streamStatusEffect]
@[simp] theorem State.countSent_mode (p bits : Nat) (s : State) : (s.countSent p bits).mode = s.mode := by rfl
@[simp] theorem State.takePrp_mode (both : Bool) (prp : Option Nat) (s : State) :
    (State.takePrp both prp s).2.mode = s.mode := by fun_cases State.takePrp <;> simp +zetaDelta
@[simp] theorem State.sendTx_mode (p : Nat) (f : TxFrame) (s : State) : (s.sendTx p f).mode = s.mode := by
  simp only [State.sendTx]; split <;> simp
@[simp] theorem State.unresolvedFrame_mode (f : EgressFrame) (s : State) : (s.unresolvedFrame f).mode = s.mode := by
  unfold State.unresolvedFrame; split <;> simp
@[simp] theorem State.sendPoint_mode (p : Nat) (f : EgressFrame) (s : State) : (s.sendPoint p f).mode = s.mode := by
  simp [State.sendPoint]
@[simp] theorem frameTransmit_mode (p : Nat) (s : State) : (frameTransmit p s).mode = s.mode := by
  fun_cases frameTransmit <;> simp +zetaDelta
@[simp] theorem frameTxComplete_mode (p : Nat) (s : State) : (frameTxComplete p s).mode = s.mode := by simp [frameTxComplete]
@[simp] theorem State.noteSeq_mode (p : Nat) (f : NetFrame) (s : State) : (s.noteSeq p f).mode = s.mode := by
  unfold State.noteSeq; split <;> simp
@[simp] theorem State.learnNeighbour_mode (a mac : List Byte) (s : State) : (s.learnNeighbour a mac).mode = s.mode := by
  simp [State.learnNeighbour]
@[simp] theorem State.answerEcho_mode (v6 : Bool) (src payload : List Byte) (s : State) :
    (s.answerEcho v6 src payload).mode = s.mode := by simp [State.answerEcho]
@[simp] theorem State.addFragment_mode (src ident offset : Nat) (last : Bool) (data : List Byte) (s : State) :
    (s.addFragment src ident offset last data).mode = s.mode := by unfold State.addFragment; split <;> simp
@[simp] theorem State.takeFrame_mode (f : NetFrame) (s : State) : (s.takeFrame f).mode = s.mode := by
  unfold State.takeFrame; split <;> simp
@[simp] theorem netFrameReceive_mode (p : Nat) (f : NetFrame) (s : State) : (netFrameReceive p f s).mode = s.mode := by
  simp [netFrameReceive]
@[simp] theorem reasmTimeout_mode (context : Nat) (s : State) : (reasmTimeout context s).mode = s.mode := by
  unfold reasmTimeout; split <;> simp
@[simp] theorem prpSupervisionSend_mode (s : State) : (prpSupervisionSend s).mode = s.mode := by simp [prpSupervisionSend]
@[simp] theorem neighbourRefresh_mode (addr : List Byte) (s : State) : (neighbourRefresh addr s).mode = s.mode := by
  unfold neighbourRefresh; split <;> simp

/-! ### Loop faults and test signals -/

@[simp] theorem State.injectLost_mode (n : Nat) (c : Cmd) (played : Nat) (s : State) :
    (s.injectLost n c played).mode = s.mode := by simp [State.injectLost]
@[simp] theorem State.breakInject_mode (n : Nat) (s : State) : (s.breakInject n).mode = s.mode := by
  unfold State.breakInject; split <;> simp
@[simp] theorem State.cameoTrigger_mode (n trig : Nat) (s : State) : (s.cameoTrigger n trig).mode = s.mode := by
  simp [State.cameoTrigger]
@[simp] theorem State.galvoActs_mode (s : State) : s.galvoActs.mode = s.mode := by simp [State.galvoActs]
@[simp] theorem State.latch_mode (n cls action : Nat) (s : State) : (s.latch n cls action).mode = s.mode := by
  simp [State.latch]
@[simp] theorem State.countFault_mode (n : Nat) (s : State) : (s.countFault n).mode = s.mode := by rfl
@[simp] theorem State.raiseFault_mode (n cls : Nat) (s : State) : (s.raiseFault n cls).mode = s.mode := by
  simp [State.raiseFault]
@[simp] theorem State.spindleLost_mode (s : State) : s.spindleLost.mode = s.mode := by simp [State.spindleLost]
@[simp] theorem State.pavaneMotion_mode (s : State) : s.pavaneMotion.mode = s.mode := by simp [State.pavaneMotion]
@[simp] theorem State.motionCheck_mode (s : State) : s.motionCheck.mode = s.mode := by simp [State.motionCheck]
@[simp] theorem State.unlatch_mode (n : Nat) (s : State) : (s.unlatch n).mode = s.mode := by simp [State.unlatch]

/-! ### The resolver's shared operations -/

@[simp] theorem State.onFslot_mode (n : Nat) (f : FilterSlot → FilterSlot) (s : State) :
    (s.onFslot n f).mode = s.mode := by rfl
@[simp] theorem State.unsettleCarrier_mode (s : State) : s.unsettleCarrier.mode = s.mode := by simp [State.unsettleCarrier]
@[simp] theorem State.resetCarrier_mode (s : State) : s.resetCarrier.mode = s.mode := by simp [State.resetCarrier]
@[simp] theorem State.switchSources_mode (s : State) : s.switchSources.mode = s.mode := by simp [State.switchSources]
@[simp] theorem State.publish_mode (stampNext : Nat) (s : State) : (s.publish stampNext).mode = s.mode := by
  simp [State.publish]
@[simp] theorem State.encDrive_mode (s : State) : s.encDrive.mode = s.mode := by simp [State.encDrive]
@[simp] theorem State.encJump_mode (s : State) : s.encJump.mode = s.mode := by rfl
@[simp] theorem State.encResume_mode (s : State) : s.encResume.mode = s.mode := by
  fun_cases State.encResume <;> simp +zetaDelta
@[simp] theorem State.encFreeze_mode (s : State) : s.encFreeze.mode = s.mode := by rfl
@[simp] theorem State.discardLearn_mode (det : Nat) (s : State) : (s.discardLearn det).mode = s.mode := by
  unfold State.discardLearn; split <;> simp
@[simp] theorem State.angleGone_mode (st : LockState) (s : State) : (s.angleGone st).mode = s.mode := by
  simp [State.angleGone]
@[simp] theorem State.loseLock_mode (cause : Nat) (s : State) : (s.loseLock cause).mode = s.mode := by simp [State.loseLock]
@[simp] theorem State.coast_mode (s : State) : s.coast.mode = s.mode := by simp [State.coast]
@[simp] theorem State.parkExc_mode (s : State) : s.parkExc.mode = s.mode := by rfl
@[simp] theorem State.resolverUnlock_mode (s : State) : s.resolverUnlock.mode = s.mode := by simp [State.resolverUnlock]

/-! ### The time base and PTP -/

@[simp] theorem State.faultWindow_mode (s : State) (ch : Nat) : (s.faultWindow ch).mode = s.mode := by
  unfold State.faultWindow; split <;> simp
@[simp] theorem State.loseClock_mode (src : Nat) (s : State) : (s.loseClock src).mode = s.mode := by simp [State.loseClock]
@[simp] theorem pllUnlock_mode (s : State) : (pllUnlock s).mode = s.mode := by simp [pllUnlock]
@[simp] theorem pllRelock_mode (cycles : Nat) (s : State) : (pllRelock cycles s).mode = s.mode := by simp [pllRelock]
@[simp] theorem pllLockHold_mode (s : State) : (pllLockHold s).mode = s.mode := by simp [pllLockHold]
@[simp] theorem State.retrim_mode (s : State) : s.retrim.mode = s.mode := by simp [State.retrim]
@[simp] theorem freqErrInterval_mode (s : State) : (freqErrInterval s).mode = s.mode := by simp [freqErrInterval]
@[simp] theorem xoTrimRampStep_mode (s : State) : (xoTrimRampStep s).mode = s.mode := by simp [xoTrimRampStep]
@[simp] theorem State.slew_mode (s : State) : s.slew.mode = s.mode := by rfl
@[simp] theorem State.stepTime_mode (offset : Int) (s : State) : (s.stepTime offset).mode = s.mode := by rfl
@[simp] theorem State.holdOver_mode (s : State) : s.holdOver.mode = s.mode := by rfl
@[simp] theorem State.acquire_mode (offset : Int) (s : State) : (s.acquire offset).mode = s.mode := by simp [State.acquire]
@[simp] theorem State.offsetSample_mode (offset : Int) (s : State) : (s.offsetSample offset).mode = s.mode := by
  simp only [State.offsetSample]; split <;> simp
@[simp] theorem ptpHoldoverTimeout_mode (s : State) : (ptpHoldoverTimeout s).mode = s.mode := by simp [ptpHoldoverTimeout]
@[simp] theorem State.selectPtp_mode (s : State) : s.selectPtp.mode = s.mode := by simp [State.selectPtp]
@[simp] theorem State.ptpAnnounce_mode (p : Nat) (gm : GmData) (interval : Int) (s : State) :
    (s.ptpAnnounce p gm interval).mode = s.mode := by simp [State.ptpAnnounce]
@[simp] theorem State.ptpSync_mode (p origin : Nat) (interval : Int) (s : State) :
    (s.ptpSync p origin interval).mode = s.mode := by simp [State.ptpSync]
@[simp] theorem ptpMessageReceive_mode (m : PtpMessage) (s : State) : (ptpMessageReceive m s).mode = s.mode := by
  unfold ptpMessageReceive; split <;> simp
@[simp] theorem ptpSyncTimeout_mode (s : State) : (ptpSyncTimeout s).mode = s.mode := by simp [ptpSyncTimeout]
@[simp] theorem announceReceiptTimeout_mode (p : Nat) (s : State) : (announceReceiptTimeout p s).mode = s.mode := by
  simp [announceReceiptTimeout]

/-! ### The filter engine -/

@[simp] theorem State.noteSat_mode (sat : Bool) (s : State) : (s.noteSat sat).mode = s.mode := by simp [State.noteSat]

/-! ### Zone outputs and telegrams -/

@[simp] theorem zoneReadbackFault_mode (s : State) : (zoneReadbackFault s).mode = s.mode := by rfl
@[simp] theorem testPulseStart_mode (out : Nat) (s : State) : (testPulseStart out s).mode = s.mode := by simp [testPulseStart]
@[simp] theorem testPulseEnd_mode (out : Nat) (s : State) : (testPulseEnd out s).mode = s.mode := by simp [testPulseEnd]
@[simp] theorem zoneSnapshot_mode (s : State) : (zoneSnapshot s).mode = s.mode := by simp [zoneSnapshot]
@[simp] theorem zoneWdog_mode (s : State) : (zoneWdog s).mode = s.mode := by simp [zoneWdog]
@[simp] theorem State.sendTelegram_mode (payload : List Byte) (s : State) : (s.sendTelegram payload).mode = s.mode := by
  simp [State.sendTelegram]
@[simp] theorem zoneTelegramSend_mode (s : State) : (zoneTelegramSend s).mode = s.mode := by simp [zoneTelegramSend]
@[simp] theorem fieldDeadline_mode (view cell : Nat) (s : State) : (fieldDeadline view cell s).mode = s.mode := by
  unfold fieldDeadline; split <;> simp
@[simp] theorem fireTableEffect_mode (c : Cmd) (s : State) : (fireTableEffect c s).mode = s.mode := by simp [fireTableEffect]
@[simp] theorem nearfieldConfigEffect_mode (c : Cmd) (s : State) : (nearfieldConfigEffect c s).mode = s.mode := by
  simp [nearfieldConfigEffect]
@[simp] theorem fieldDefineEffect_mode (c : Cmd) (s : State) : (fieldDefineEffect c s).mode = s.mode := by
  simp [fieldDefineEffect]
@[simp] theorem zoneConfigEffect_mode (c : Cmd) (s : State) : (zoneConfigEffect c s).mode = s.mode := by
  simp [zoneConfigEffect]
@[simp] theorem schedConfigEffect_mode (c : Cmd) (s : State) : (schedConfigEffect c s).mode = s.mode := by
  simp [schedConfigEffect]
@[simp] theorem emitHoldEffect_mode (c : Cmd) (s : State) : (emitHoldEffect c s).mode = s.mode := by simp [emitHoldEffect]
@[simp] theorem State.clearShots_mode (mask : Nat) (s : State) : (s.clearShots mask).mode = s.mode := by rfl
@[simp] theorem shotStatusEffect_mode (c : Cmd) (s : State) : (shotStatusEffect c s).mode = s.mode := by
  simp [shotStatusEffect]
@[simp] theorem State.clearOutFault_mode (s : State) : s.clearOutFault.mode = s.mode := by rfl
@[simp] theorem zoneStatusEffect_mode (c : Cmd) (s : State) : (zoneStatusEffect c s).mode = s.mode := by
  simp [zoneStatusEffect]

/-! ### Views and sets -/

@[simp] theorem State.issueHandle_mode (i : Nat) (s : State) : (State.issueHandle i s).2.mode = s.mode := by
  simp [State.issueHandle]
@[simp] theorem viewCreateNow_mode (c : Cmd) (s : State) : (viewCreateNow c s).mode = s.mode := by
  unfold viewCreateNow; split <;> simp
@[simp] theorem viewCreateEffect_mode (c : Cmd) (s : State) : (viewCreateEffect c s).mode = s.mode := by
  simp [viewCreateEffect]
@[simp] theorem viewCreate_mode (c : Cmd) (s : State) : (viewCreate c s).mode = s.mode := by
  unfold viewCreate; split
  · rfl
  · exact State.run_mode _ _ _ _ (.of_plain rfl) (viewCreateEffect_mode c)
@[simp] theorem viewDestroyNow_mode (c : Cmd) (s : State) : (viewDestroyNow c s).mode = s.mode := by simp [viewDestroyNow]
@[simp] theorem viewDestroyEffect_mode (c : Cmd) (s : State) : (viewDestroyEffect c s).mode = s.mode := by
  simp [viewDestroyEffect]
@[simp] theorem viewQueryEffect_mode (c : Cmd) (s : State) : (viewQueryEffect c s).mode = s.mode := by simp [viewQueryEffect]
@[simp] theorem viewParamEffect_mode (c : Cmd) (s : State) : (viewParamEffect c s).mode = s.mode := by simp [viewParamEffect]
@[simp] theorem viewUpdateNow_mode (c : Cmd) (s : State) : (viewUpdateNow c s).mode = s.mode := by simp [viewUpdateNow]
@[simp] theorem viewUpdateEffect_mode (c : Cmd) (s : State) : (viewUpdateEffect c s).mode = s.mode := by
  simp [viewUpdateEffect]
@[simp] theorem State.releaseFade_mode (e : Nat) (s : State) : (s.releaseFade e).mode = s.mode := by
  unfold State.releaseFade; split <;> simp
@[simp] theorem State.dropCommit_mode (c : Cmd) (s t : State) : (s.dropCommit c t).mode = t.mode := by simp [State.dropCommit]
@[simp] theorem setCommitEffect_mode (c : Cmd) (s : State) : (setCommitEffect c s).mode = s.mode := by simp [setCommitEffect]
@[simp] theorem State.copyLost_mode (shadow : Bool) (s : State) : (s.copyLost shadow).mode = s.mode := by rfl
@[simp] theorem setAbortNow_mode (c : Cmd) (s : State) : (setAbortNow c s).mode = s.mode := by simp [setAbortNow]
@[simp] theorem setAbortEffect_mode (c : Cmd) (s : State) : (setAbortEffect c s).mode = s.mode := by simp [setAbortEffect]
@[simp] theorem setReadEffect_mode (c : Cmd) (s : State) : (setReadEffect c s).mode = s.mode := by
  unfold setReadEffect; split <;> simp

/-! ### The control rows -/

@[simp] theorem State.onMdrv_mode (f : Mdrv → Mdrv) (s : State) : (s.onMdrv f).mode = s.mode := by rfl
@[simp] theorem State.onCameo_mode (f : Cameo → Cameo) (s : State) : (s.onCameo f).mode = s.mode := by rfl
@[simp] theorem State.capture_mode (n : Nat) (s : State) : (s.capture n).mode = s.mode := by simp [State.capture]
@[simp] theorem State.endCapture_mode (s : State) : s.endCapture.mode = s.mode := by unfold State.endCapture; split <;> simp
@[simp] theorem cameoCaptureComplete_mode (s : State) : (cameoCaptureComplete s).mode = s.mode := by
  fun_cases cameoCaptureComplete <;> simp +zetaDelta
@[simp] theorem State.adoptSettings_mode (n : Nat) (s : State) : (s.adoptSettings n).mode = s.mode := by
  simp [State.adoptSettings]
@[simp] theorem State.adoptGain_mode (n : Nat) (s : State) : (s.adoptGain n).mode = s.mode := by simp [State.adoptGain]
@[simp] theorem State.injectStep_mode (n : Nat) (s : State) : (s.injectStep n).mode = s.mode := by
  unfold State.injectStep; split <;> simp
@[simp] theorem State.supervise_mode (n : Nat) (ri yv : Rat) (s : State) : (s.supervise n ri yv).mode = s.mode := by
  simp [State.supervise]
@[simp] theorem State.runLaw_mode (n : Nat) (y : Option Int) (s : State) : (s.runLaw n y).mode = s.mode := by
  fun_cases State.runLaw <;> simp +zetaDelta
@[simp] theorem State.galvoGap_mode (s : State) : s.galvoGap.mode = s.mode := by simp [State.galvoGap]
@[simp] theorem State.sampleDone_mode (n : Nat) (s : State) : (s.sampleDone n).mode = s.mode := by simp [State.sampleDone]
@[simp] theorem State.sampleLate_mode (n : Nat) (s : State) : (s.sampleLate n).mode = s.mode := by simp [State.sampleLate]
@[simp] theorem State.sample_mode (n : Nat) (finished : Bool) (s : State) : (s.sample n finished).mode = s.mode := by
  simp [State.sample]
@[simp] theorem State.demandDue_mode (s : State) : s.demandDue.mode = s.mode := by simp [State.demandDue]
@[simp] theorem State.mdrvUnit_mode (b : List Byte) (s : State) : (s.mdrvUnit b).mode = s.mode := by rfl
@[simp] theorem State.mdrvSend_mode (s : State) : s.mdrvSend.mode = s.mode := by simp [State.mdrvSend]
@[simp] theorem spindleSample_mode (finished : Bool) (s : State) : (spindleSample finished s).mode = s.mode := by
  simp [spindleSample]
@[simp] theorem mdrvUplinkReceive_mode (b : List Byte) (s : State) : (mdrvUplinkReceive b s).mode = s.mode := by
  simp [mdrvUplinkReceive]
@[simp] theorem mdrvUplinkTimeout_mode (s : State) : (mdrvUplinkTimeout s).mode = s.mode := by simp [mdrvUplinkTimeout]
@[simp] theorem State.galvoOutput_mode (st : LoopState) (s : State) : (s.galvoOutput st).mode = s.mode := by
  unfold State.galvoOutput; split <;> simp
@[simp] theorem State.galvoRelease_mode (s : State) : s.galvoRelease.mode = s.mode := by simp [State.galvoRelease]
@[simp] theorem State.keepGalvo_mode (s : State) : s.keepGalvo.mode = s.mode := by simp [State.keepGalvo]
@[simp] theorem galvoSample_mode (finished : Bool) (s : State) : (galvoSample finished s).mode = s.mode := by
  simp [galvoSample]
@[simp] theorem galvoShort_mode (s : State) : (galvoShort s).mode = s.mode := by simp [galvoShort]
@[simp] theorem loopConfigEffect_mode (c : Cmd) (s : State) : (loopConfigEffect c s).mode = s.mode := by
  simp [loopConfigEffect]
@[simp] theorem loopCoeffEffect_mode (c : Cmd) (s : State) : (loopCoeffEffect c s).mode = s.mode := by simp [loopCoeffEffect]
@[simp] theorem State.endInject_mode (n : Nat) (s : State) : (s.endInject n).mode = s.mode := by
  unfold State.endInject; split <;> simp
@[simp] theorem ctrlInjectEffect_mode (c : Cmd) (s : State) : (ctrlInjectEffect c s).mode = s.mode := by
  simp [ctrlInjectEffect]
@[simp] theorem ctrlInject_mode (c : Cmd) (s : State) : (ctrlInject c s).mode = s.mode := by
  simp only [ctrlInject]; split
  · rfl
  · exact State.run_mode _ _ _ _ (.of_plain rfl) (ctrlInjectEffect_mode c)
@[simp] theorem ctrlInjectStop_mode (c : Cmd) (s : State) : (ctrlInjectStop c s).mode = s.mode :=
  State.run_mode _ _ _ _ (.of_plain rfl) (ctrlInjectEffect_mode c)
@[simp] theorem injectEnd_mode (n : Nat) (s : State) : (injectEnd n s).mode = s.mode := by unfold injectEnd; split <;> simp
@[simp] theorem cameoArmEffect_mode (c : Cmd) (s : State) : (cameoArmEffect c s).mode = s.mode := by simp [cameoArmEffect]
@[simp] theorem cameoStop_mode (c : Cmd) (s : State) : (cameoStop c s).mode = s.mode :=
  State.run_mode _ _ _ _ (.of_plain rfl) (cameoArmEffect_mode c)
@[simp] theorem cameoReadEffect_mode (c : Cmd) (s : State) : (cameoReadEffect c s).mode = s.mode := by simp [cameoReadEffect]
@[simp] theorem State.clearLoop_mode (n m : Nat) (s : State) : (s.clearLoop n m).mode = s.mode := by rfl
@[simp] theorem ctrlStatusEffect_mode (c : Cmd) (s : State) : (ctrlStatusEffect c s).mode = s.mode := by
  simp [ctrlStatusEffect]
@[simp] theorem motionRecordEffect_mode (c : Cmd) (s : State) : (motionRecordEffect c s).mode = s.mode := by
  simp [motionRecordEffect]

/-! ### The resolver's events -/

@[simp] theorem State.endReset_mode (s : State) (x : Nat × Cmd × Nat × Bool) : (s.endReset x).mode = s.mode := by
  simp [State.endReset]
@[simp] theorem State.settleReset_mode (s : State) : s.settleReset.mode = s.mode := by simp [State.settleReset]
@[simp] theorem State.takeReset_mode (p : List Byte) (s : State) : (s.takeReset p).mode = s.mode := by simp [State.takeReset]
@[simp] theorem State.syncReset_mode (op : Nat) (c : Cmd) (at_ : Nat) (s : State) : (s.syncReset op c at_).mode = s.mode := by
  simp [State.syncReset]
@[simp] theorem excChange_mode (s : State) : (excChange s).mode = s.mode := by unfold excChange; split <;> simp
@[simp] theorem excShort_mode (s : State) : (excShort s).mode = s.mode := by simp [excShort]
@[simp] theorem State.checkExc_mode (s : State) : s.checkExc.mode = s.mode := by simp [State.checkExc]
@[simp] theorem State.takeOutput_mode (slot : Nat) (g : FilterSlot) (sat : Bool) (at_ : Nat) (s : State) :
    (s.takeOutput slot g sat at_).mode = s.mode := by simp [State.takeOutput]
@[simp] theorem filterOutput_mode (slot : Nat) (bits : List Bool) (test : Bool) (stamp : Nat) (s : State) :
    (filterOutput slot bits test stamp s).mode = s.mode := by simp [filterOutput]
@[simp] theorem galvoFilterOutput_mode (gpa gpb : List Bool) (test : Bool) (s : State) :
    (galvoFilterOutput gpa gpb test s).mode = s.mode := by fun_cases galvoFilterOutput <;> simp +zetaDelta
@[simp] theorem State.onCam_mode (n : Nat) (f : CamPin → CamPin) (s : State) : (s.onCam n f).mode = s.mode := by rfl
@[simp] theorem State.commitCams_mode (s : State) : s.commitCams.mode = s.mode := by simp [State.commitCams]
@[simp] theorem State.lateCams_mode (old s : State) : (old.lateCams s).mode = s.mode := by simp [State.lateCams]
@[simp] theorem State.takeCams_mode (s : State) : s.takeCams.mode = s.mode := by simp [State.takeCams]
@[simp] theorem State.cycTake_mode (s : State) : s.cycTake.mode = s.mode := by unfold State.cycTake; split <;> simp
@[simp] theorem State.slowEffects_mode (s : State) : s.slowEffects.mode = s.mode := by simp [State.slowEffects]
@[simp] theorem State.runUpdate_mode (x y : Int) (amp : Nat) (s : State) : (State.runUpdate x y amp s).1.mode = s.mode := by
  simp [State.runUpdate]
@[simp] theorem State.seekPair_mode (x y : Int) (amp : Nat) (s : State) : (s.seekPair x y amp).mode = s.mode := by
  fun_cases State.seekPair <;> simp +zetaDelta
@[simp] theorem State.acquireUpdate_mode (x y : Int) (amp : Nat) (s : State) : (s.acquireUpdate x y amp).mode = s.mode := by
  simp [State.acquireUpdate]
@[simp] theorem lockAcquired_mode (s : State) : (lockAcquired s).mode = s.mode := by simp [lockAcquired]
@[simp] theorem State.gatePair_mode (x y : Int) (s : State) : (s.gatePair x y).mode = s.mode := by simp [State.gatePair]
@[simp] theorem speedCheckGate_mode (s : State) : (speedCheckGate s).mode = s.mode := by
  simp only [speedCheckGate]
  repeat' split
  all_goals simp -implicitDefEqProofs
@[simp] theorem State.steerPhase_mode (x y : Int) (s : State) : (s.steerPhase x y).mode = s.mode := by
  simp -implicitDefEqProofs [State.steerPhase]
@[simp] theorem State.coastPair_mode (s : State) : s.coastPair.mode = s.mode := by simp [State.coastPair]
@[simp] theorem State.trackUpdate_mode (x y : Int) (amp : Nat) (s : State) : (s.trackUpdate x y amp).mode = s.mode := by
  simp [State.trackUpdate]
@[simp] theorem trackingUpdate_mode (s : State) : (trackingUpdate s).mode = s.mode := by
  simp only [trackingUpdate]
  repeat' split
  all_goals simp
@[simp] theorem stuckModulator_mode (slot : Nat) (s : State) : (stuckModulator slot s).mode = s.mode := by
  simp [stuckModulator]
@[simp] theorem coastTimeout_mode (s : State) : (coastTimeout s).mode = s.mode := by simp [coastTimeout]
@[simp] theorem State.cycReplace_mode (p : CycPending) (cmds : List (Nat × Cmd)) (s : State) :
    (s.cycReplace p cmds).mode = s.mode := by simp [State.cycReplace]
@[simp] theorem cycLearnPassEnd_mode (s : State) : (cycLearnPassEnd s).mode = s.mode := by
  unfold cycLearnPassEnd; split <;> simp
@[simp] theorem State.angleBoundary_mode (s : State) : s.angleBoundary.mode = s.mode := by simp [State.angleBoundary]
@[simp] theorem encStateChange_mode (s : State) : (encStateChange s).mode = s.mode := by simp [encStateChange]
@[simp] theorem encOverrate_mode (s : State) : (encOverrate s).mode = s.mode := by simp [encOverrate]
@[simp] theorem camTrigEdge_mode (n : Nat) (s : State) : (camTrigEdge n s).mode = s.mode := by
  fun_cases camTrigEdge <;> simp +zetaDelta
@[simp] theorem camTrigPulseEnd_mode (n : Nat) (s : State) : (camTrigPulseEnd n s).mode = s.mode := by simp [camTrigPulseEnd]

/-! ### The angle opcodes -/

@[simp] theorem State.angleRun_mode (o : OpInfo) (c : Cmd) (eff : State → State) (s : State) (hr : o.KeepsMode)
    (h : ∀ t, (eff t).mode = t.mode) : (s.angleRun o c eff).mode = s.mode := by
  unfold State.angleRun; split
  · rfl
  · exact State.run_mode o c eff s hr h
@[simp] theorem State.requestReset_mode (op : Nat) (c : Cmd) (s : State) : (s.requestReset op c).mode = s.mode := by
  simp [State.requestReset]
@[simp] theorem angleConfigEffect_mode (c : Cmd) (s : State) : (angleConfigEffect c s).mode = s.mode := by
  simp [angleConfigEffect]
@[simp] theorem angleFrameEffect_mode (c : Cmd) (s : State) : (angleFrameEffect c s).mode = s.mode := by
  simp [angleFrameEffect]
@[simp] theorem cycLearnEffect_mode (c : Cmd) (s : State) : (cycLearnEffect c s).mode = s.mode := by simp [cycLearnEffect]
@[simp] theorem cycLearn_mode (c : Cmd) (s : State) : (cycLearn c s).mode = s.mode := by
  unfold cycLearn; split
  · rfl
  · exact State.angleRun_mode _ _ _ _ (.of_plain rfl) (cycLearnEffect_mode c)
@[simp] theorem cycSelectEffect_mode (c : Cmd) (s : State) : (cycSelectEffect c s).mode = s.mode := by simp [cycSelectEffect]
@[simp] theorem encConfigEffect_mode (c : Cmd) (s : State) : (encConfigEffect c s).mode = s.mode := by simp [encConfigEffect]
@[simp] theorem camConfigEffect_mode (c : Cmd) (s : State) : (camConfigEffect c s).mode = s.mode := by simp [camConfigEffect]
@[simp] theorem State.restartExc_mode (s : State) : s.restartExc.mode = s.mode := by simp [State.restartExc]
@[simp] theorem State.clearAngle_mode (m : Nat) (s : State) : (s.clearAngle m).mode = s.mode := by simp [State.clearAngle]
@[simp] theorem angleStatusEffect_mode (c : Cmd) (s : State) : (angleStatusEffect c s).mode = s.mode := by
  simp [angleStatusEffect]

/-! ### The SiPM bias and the return channels -/

@[simp] theorem State.onBias_mode (f : Bias → Bias) (s : State) : (s.onBias f).mode = s.mode := by rfl
@[simp] theorem State.endBias_mode (st det : Nat) (s : State) : (s.endBias st det).mode = s.mode := by
  unfold State.endBias; split <;> simp
@[simp] theorem State.settleBias_mode (s : State) : s.settleBias.mode = s.mode := by simp [State.settleBias]
@[simp] theorem State.biasReading_mode (m curve : Nat) (value : Int) (valid : Bool) (s : State) :
    (s.biasReading m curve value valid).mode = s.mode := by simp [State.biasReading]
@[simp] theorem biasTempTimeout_mode (s : State) : (biasTempTimeout s).mode = s.mode := by simp [biasTempTimeout]
@[simp] theorem biasTargetCompute_mode (s : State) : (biasTargetCompute s).mode = s.mode := by simp [biasTargetCompute]
@[simp] theorem biasStep_mode (s : State) : (biasStep s).mode = s.mode := by simp [biasStep]
@[simp] theorem biasSettled_mode (s : State) : (biasSettled s).mode = s.mode := by simp [biasSettled]
@[simp] theorem biasFault_mode (s : State) : (biasFault s).mode = s.mode := by simp [biasFault]
@[simp] theorem biasConfigEffect_mode (c : Cmd) (s : State) : (biasConfigEffect c s).mode = s.mode := by
  simp [biasConfigEffect]
@[simp] theorem rxConfigEffect_mode (c : Cmd) (s : State) : (rxConfigEffect c s).mode = s.mode := by simp [rxConfigEffect]
@[simp] theorem rxStatusEffect_mode (c : Cmd) (s : State) : (rxStatusEffect c s).mode = s.mode := by simp [rxStatusEffect]
@[simp] theorem rxOverload_mode (ch : Nat) (s : State) : (rxOverload ch s).mode = s.mode := by simp [rxOverload]
@[simp] theorem rxSilent_mode (ch : Nat) (s : State) : (rxSilent ch s).mode = s.mode := by simp [rxSilent]

/-! ### Auxiliary sensing and Bezel -/

@[simp] theorem State.onMeas_mode (m : Nat) (f : AuxMeas → AuxMeas) (s : State) : (s.onMeas m f).mode = s.mode := by rfl
@[simp] theorem State.onPiezo_mode (f : Piezo → Piezo) (s : State) : (s.onPiezo f).mode = s.mode := by rfl
@[simp] theorem State.takeSettings_mode (m : Nat) (s : State) : (s.takeSettings m).mode = s.mode := by
  unfold State.takeSettings; split <;> simp
@[simp] theorem State.seek_mode (l : List Nat) (s : State) : (s.seek l).mode = s.mode := by
  induction l generalizing s with
  | nil => rfl
  | cons m r ih => simp [State.seek, ih]
@[simp] theorem State.seekAgain_mode (s : State) : s.seekAgain.mode = s.mode := by unfold State.seekAgain; split <;> simp
@[simp] theorem State.checkCalRun_mode (s : State) : s.checkCalRun.mode = s.mode := by
  unfold State.checkCalRun; split <;> simp
@[simp] theorem State.insertCals_mode (s : State) : s.insertCals.mode = s.mode := by simp [State.insertCals]
@[simp] theorem State.nextTurn_mode (m : Nat) (s : State) : (s.nextTurn m).mode = s.mode := by simp [State.nextTurn]
@[simp] theorem State.startAux_mode (s : State) : s.startAux.mode = s.mode := by simp [State.startAux]
@[simp] theorem State.bezelDutyFor_mode (curve : Nat) (r : AuxResult) (s : State) :
    (s.bezelDutyFor curve r).mode = s.mode := by simp [State.bezelDutyFor]
@[simp] theorem State.publishAux_mode (m : Nat) (p : List Byte) (r : AuxResult) (s : State) :
    (s.publishAux m p r).mode = s.mode := by simp only [State.publishAux]; split <;> simp
@[simp] theorem auxMeasurementDone_mode (code1 code2 : Int) (compliance : Bool) (s : State) :
    (auxMeasurementDone code1 code2 compliance s).mode = s.mode := by unfold auxMeasurementDone; split <;> simp
@[simp] theorem State.offsetCode_mode (g : Nat) (code : Int) (s : State) : (s.offsetCode g code).mode = s.mode := by
  simp [State.offsetCode]
@[simp] theorem auxOffsetCal_mode (g : Nat) (code : Int) (s : State) : (auxOffsetCal g code s).mode = s.mode := by
  simp [auxOffsetCal]
@[simp] theorem heatPwmPeriod_mode (s : State) : (heatPwmPeriod s).mode = s.mode := by simp [heatPwmPeriod]
@[simp] theorem shock_mode (charge : Int) (s : State) : (shock charge s).mode = s.mode := by unfold shock; split <;> simp
@[simp] theorem piezoReset_mode (s : State) : (piezoReset s).mode = s.mode := by unfold piezoReset; split <;> simp
@[simp] theorem State.bezelLearned_mode (c : Cmd) (s : State) : (s.bezelLearned c).mode = s.mode := by
  simp [State.bezelLearned]
@[simp] theorem State.bezelBoundary_mode (s : State) : s.bezelBoundary.mode = s.mode := by
  simp only [State.bezelBoundary]; split <;> simp
@[simp] theorem State.doneOrStore_mode (op rec : Nat) (persist : Bool) (c : Cmd) (s : State) :
    (s.doneOrStore op rec persist c).mode = s.mode := by simp [State.doneOrStore]
@[simp] theorem auxMeasConfigEffect_mode (c : Cmd) (s : State) : (auxMeasConfigEffect c s).mode = s.mode := by
  simp [auxMeasConfigEffect]
@[simp] theorem auxSwitchConfigEffect_mode (c : Cmd) (s : State) : (auxSwitchConfigEffect c s).mode = s.mode := by
  simp [auxSwitchConfigEffect]
@[simp] theorem auxCalEffect_mode (c : Cmd) (s : State) : (auxCalEffect c s).mode = s.mode := by simp [auxCalEffect]
@[simp] theorem auxCal_mode (c : Cmd) (s : State) : (auxCal c s).mode = s.mode := by
  unfold auxCal; split
  · rfl
  · exact State.run_mode _ _ _ _ (.of_plain rfl) (auxCalEffect_mode c)
@[simp] theorem bezelConfigEffect_mode (c : Cmd) (s : State) : (bezelConfigEffect c s).mode = s.mode := by
  simp [bezelConfigEffect]
@[simp] theorem bezelLearnEffect_mode (c : Cmd) (s : State) : (bezelLearnEffect c s).mode = s.mode := by rfl
@[simp] theorem bezelLearn_mode (c : Cmd) (s : State) : (bezelLearn c s).mode = s.mode := by
  unfold bezelLearn; split
  · rfl
  · exact State.run_mode _ _ _ _ (.of_plain rfl) (bezelLearnEffect_mode c)
@[simp] theorem auxReadEffect_mode (c : Cmd) (s : State) : (auxReadEffect c s).mode = s.mode := by simp [auxReadEffect]
@[simp] theorem auxStatusEffect_mode (c : Cmd) (s : State) : (auxStatusEffect c s).mode = s.mode := by simp [auxStatusEffect]

/-! ### Engines and chains -/

@[simp] theorem State.leaveDone_mode (s : State) (g : Nat) : (s.leaveDone g).mode = s.mode := by simp [State.leaveDone]
@[simp] theorem State.leaveAll_mode (s : State) : s.leaveAll.mode = s.mode := by simp [State.leaveAll]
@[simp] theorem chainStart_mode (g : Nat) (s : State) : (chainStart g s).mode = s.mode := by
  fun_cases chainStart <;> simp +zetaDelta
@[simp] theorem State.runAmbient_mode (x : State × Work) : (State.runAmbient x).1.mode = x.1.mode := by
  fun_cases State.runAmbient <;> simp +zetaDelta
@[simp] theorem State.enterRain_mode (ch sector : Nat) (s : State) (zone : Nat) :
    (s.enterRain ch sector zone).mode = s.mode := by simp [State.enterRain]
@[simp] theorem State.runRain_mode (x : State × Work) : (State.runRain x).1.mode = x.1.mode := by simp [State.runRain]
@[simp] theorem State.runWindow_mode (x : State × Work) : (State.runWindow x).1.mode = x.1.mode := by
  unfold State.runWindow; split <;> simp
@[simp] theorem State.runKernel_mode (x : State × Work) (k : Nat) : (State.runKernel x k).1.mode = x.1.mode := by
  unfold State.runKernel; split <;> simp
@[simp] theorem State.runChain_mode (v : ViewDef) (h : Hist) (fs : List PassFault) (s : State) :
    (State.runChain v h fs s).1.mode = s.mode := mode_foldl_fst _ _ _ fun _ _ => State.runKernel_mode ..
@[simp] theorem State.notePasses_mode (g : Nat) (h : Hist) (fs : List PassFault) (s : State) :
    (s.notePasses g h fs).mode = s.mode := by simp [State.notePasses]
@[simp] theorem chainEnd_mode (g : Nat) (faults : List PassFault) (s : State) : (chainEnd g faults s).mode = s.mode := by
  fun_cases chainEnd <;> simp +zetaDelta
@[simp] theorem engineFault_mode (g : Nat) (faults : List PassFault) (s : State) :
    (engineFault g faults s).mode = s.mode := by unfold engineFault; split <;> simp
@[simp] theorem frameCloseTimeout_mode (n : Nat) (s : State) : (frameCloseTimeout n s).mode = s.mode := by
  simp [frameCloseTimeout]
@[simp] theorem trackerGateClose_mode (t i : Nat) (s : State) : (trackerGateClose t i s).mode = s.mode := by
  unfold trackerGateClose; split <;> simp
@[simp] theorem weatherUpdate_mode (s : State) : (weatherUpdate s).mode = s.mode := by
  simp -implicitDefEqProofs [weatherUpdate]

/-! ### Retention banks -/

@[simp] theorem State.repairCopies_mode (s : State) : s.repairCopies.mode = s.mode := by rfl

/-! ### Records of the eMRAM -/

@[simp] theorem State.onRecord_mode (id : Nat) (f : NvmRecord → NvmRecord) (s : State) : (s.onRecord id f).mode = s.mode := by
  simp [State.onRecord]
@[simp] theorem State.checkCopy_mode (bank id : Nat) (s : State) : (s.checkCopy bank id).mode = s.mode := by
  unfold State.checkCopy; cases s.readable bank id <;> simp
@[simp] theorem State.chooseRecords_mode (s : State) : s.chooseRecords.mode = s.mode := by simp [State.chooseRecords]
@[simp] theorem State.load_mode (id : Nat) (f : List Byte → State → State) (s : State)
    (h : ∀ p, (f p s).mode = s.mode) : (s.load id f).mode = s.mode := by unfold State.load; split <;> simp [h]
@[simp] theorem loadDac_mode (p : List Byte) (s : State) : (loadDac p s).mode = s.mode := by
  simp -implicitDefEqProofs [loadDac]
@[simp] theorem loadTimebase_mode (p : List Byte) (s : State) : (loadTimebase p s).mode = s.mode := by rfl
@[simp] theorem loadCorrections_mode (p : List Byte) (s : State) : (loadCorrections p s).mode = s.mode :=
  mode_foldl _ _ _ fun _ _ => State.onFe_mode ..
@[simp] theorem loadLedger_mode (p : List Byte) (s : State) : (loadLedger p s).mode = s.mode := by simp [loadLedger]
@[simp] theorem loadKey_mode (p : List Byte) (s : State) : (loadKey p s).mode = s.mode := by rfl
@[simp] theorem loadMap_mode (p : List Byte) (s : State) : (loadMap p s).mode = s.mode := by rfl
@[simp] theorem loadWave_mode (e : Nat) (p : List Byte) (s : State) : (loadWave e p s).mode = s.mode := by simp [loadWave]
@[simp] theorem loadAngle_mode (p : List Byte) (s : State) : (loadAngle p s).mode = s.mode := by rfl
@[simp] theorem loadMotion_mode (p : List Byte) (s : State) : (loadMotion p s).mode = s.mode := by rfl
@[simp] theorem loadBias_mode (p : List Byte) (s : State) : (loadBias p s).mode = s.mode := by rfl
@[simp] theorem loadAux_mode (p : List Byte) (s : State) : (loadAux p s).mode = s.mode := by rfl
@[simp] theorem loadBezel_mode (p : List Byte) (s : State) : (loadBezel p s).mode = s.mode := by rfl
@[simp] theorem loadNetwork_mode (p : List Byte) (s : State) : (loadNetwork p s).mode = s.mode := by rfl
@[simp] theorem loadRange_mode (p : List Byte) (s : State) : (loadRange p s).mode = s.mode := by rfl
@[simp] theorem loadClasp_mode (lost : Bool) (p : List Byte) (s : State) : (loadClasp lost p s).mode = s.mode := by
  simp [loadClasp]
@[simp] theorem loadMargins_mode (p : List Byte) (s : State) : (loadMargins p s).mode = s.mode := by rfl
@[simp] theorem State.loadLibrary_mode (s : State) : s.loadLibrary.mode = s.mode := by
  unfold State.loadLibrary; split <;> simp
@[simp] theorem State.loadRecords_mode (s : State) : s.loadRecords.mode = s.mode := by simp [State.loadRecords]
@[simp] theorem State.loadSlots_mode (s : State) : s.loadSlots.mode = s.mode := by simp [State.loadSlots]

/-! ### Stores -/

@[simp] theorem State.endScope_mode (scope : Nat) (s : State) : (s.endScope scope).mode = s.mode := by rfl
@[simp] theorem State.unpend_mode (c : Cmd) (s : State) : (s.unpend c).mode = s.mode := by rfl
@[simp] theorem State.storeEffect_mode (id gen : Nat) (p : List Byte) (s : State) :
    (s.storeEffect id gen p).mode = s.mode := by unfold State.storeEffect; split <;> simp
@[simp] theorem State.storeReply_mode (id gen st det : Nat) (s : State) (x : Nat × Cmd) :
    (s.storeReply id gen st det x).mode = s.mode := by simp [State.storeReply]
@[simp] theorem State.storeLost_mode (id : Nat) (s : State) : (s.storeLost id).mode = s.mode := by simp [State.storeLost]
@[simp] theorem State.writeCopy_mode (bank : Nat) (took : Bool) (k : NvmCopy) (s : State) :
    (s.writeCopy bank took k).mode = s.mode := by simp [State.writeCopy]
@[simp] theorem State.toMirror_mode (s : State) : s.toMirror.mode = s.mode := by simp [State.toMirror]
@[simp] theorem State.runStore_mode (a : Activity) (w1 w2 : Bool) (s : State) : (s.runStore a w1 w2).mode = s.mode := by
  simp [State.runStore]
@[simp] theorem State.runMirror_mode (a : Activity) (took : Bool) (s : State) : (s.runMirror a took).mode = s.mode := by
  simp only [State.runMirror]; split <;> simp
@[simp] theorem State.runFollowUp_mode (a : Activity) (took : Bool) (s : State) : (s.runFollowUp a took).mode = s.mode := by
  simp only [State.runFollowUp]; split <;> simp
@[simp] theorem nvmStore_mode (w1 w2 : Bool) (s : State) : (nvmStore w1 w2 s).mode = s.mode := by
  fun_cases nvmStore <;> simp +zetaDelta
@[simp] theorem nvmInfoEffect_mode (c : Cmd) (s : State) : (nvmInfoEffect c s).mode = s.mode := by simp [nvmInfoEffect]
@[simp] theorem nvmReadEffect_mode (c : Cmd) (s : State) : (nvmReadEffect c s).mode = s.mode := by simp [nvmReadEffect]
@[simp] theorem nvmStageEffect_mode (c : Cmd) (s : State) : (nvmStageEffect c s).mode = s.mode := by simp [nvmStageEffect]
@[simp] theorem nvmCommitEffect_mode (c : Cmd) (s : State) : (nvmCommitEffect c s).mode = s.mode := by simp [nvmCommitEffect]
@[simp] theorem nvmEraseEffect_mode (c : Cmd) (s : State) : (nvmEraseEffect c s).mode = s.mode := by simp [nvmEraseEffect]
@[simp] theorem keyProvisionEffect_mode (c : Cmd) (s : State) : (keyProvisionEffect c s).mode = s.mode := by
  simp [keyProvisionEffect]

/-! ### Pavane, the flush and the takeover -/

@[simp] theorem State.interrupt_mode (b : Nat) (s : State) : (s.interrupt b).mode = s.mode := by simp [State.interrupt]
@[simp] theorem State.withStatus_mode (f : State → State) (s : State) : (s.withStatus f).mode = (f s).mode := by
  simp [State.withStatus]
@[simp] theorem State.dropUnaccepted_mode (s : State) : s.dropUnaccepted.mode = s.mode := by rfl
@[simp] theorem State.startFlush_mode (s : State) : s.startFlush.mode = s.mode := by rfl
@[simp] theorem State.pavaneOutputs_mode (s : State) : s.pavaneOutputs.mode = s.mode := by simp [State.pavaneOutputs]

/-- Pavane starts once: there it is no operation (R414). -/
@[simp] theorem State.startPavane_of_pavane (cause : PavaneCause) (s : State) (h : s.mode.phase = .pavane) :
    s.startPavane cause = s := by
  simp [State.startPavane, show s.power.phase = .pavane from h]

/-- Pavane starts from any other phase of a device that runs. -/
theorem State.startPavane_mode (cause : PavaneCause) (s : State) (h : s.power.phase ≠ .pavane)
    (hrun : s.power.running = true) : (s.startPavane cause).mode = { s.mode with phase := .pavane, cause := cause } := by
  simp only [State.startPavane, h, hrun, beq_iff_eq, Bool.not_true, Bool.or_false, if_false, State.withStatus_mode,
    State.startFlush_mode, State.pavaneOutputs_mode, State.pavaneMotion_mode, State.registerSource_mode]
  rfl
@[simp] theorem State.tearStore_mode (s : State) : s.tearStore.mode = s.mode := by
  fun_cases State.tearStore <;> simp +zetaDelta
theorem pfail_mode (s : State) (h : s.mode.phase = .pavane) : (pfail s).mode = s.mode := by simp [pfail, h]
theorem xoStop_mode (s : State) (h : s.mode.phase = .pavane) : (xoStop s).mode = s.mode := by simp [xoStop, h]
@[simp] theorem State.powerDomainsDown_mode (s : State) : s.powerDomainsDown.mode = s.mode := by simp [State.powerDomainsDown]
@[simp] theorem pavanePowerDown_mode (s : State) : (pavanePowerDown s).mode = s.mode := by simp [pavanePowerDown]
@[simp] theorem State.takeOver_mode (s : State) (h : s.mode.phase = .pavane) : s.takeOver.mode = s.mode := by
  simp [State.takeOver, h]
theorem standbyComparisonFail_mode (s : State) (h : s.mode.phase = .pavane) : (standbyComparisonFail s).mode = s.mode := by
  simp [standbyComparisonFail, h]
@[simp] theorem State.powerDownReply_mode (s : State) (x : Cmd × Nat) : (s.powerDownReply x).mode = s.mode := by
  simp [State.powerDownReply]
@[simp] theorem State.powerDownReplies_mode (s : State) : s.powerDownReplies.mode = s.mode := by simp [State.powerDownReplies]
@[simp] theorem powerDownEffect_mode (c : Cmd) (s : State) : (powerDownEffect c s).mode = s.mode := by simp [powerDownEffect]

/-! ### Check units and memory errors -/

@[simp] theorem State.histWordLost_mode (bank word : Nat) (s : State) : (s.histWordLost bank word).mode = s.mode := by
  simp [State.histWordLost]
@[simp] theorem State.breakView_mode (h : Nat) (s : State) : (s.breakView h).mode = s.mode := by simp [State.breakView]
@[simp] theorem State.abandonChains_mode (h : Nat) (s : State) : (s.abandonChains h).mode = s.mode := by
  refine mode_foldl _ _ _ fun s g => ?_
  repeat' split
  all_goals simp
@[simp] theorem State.addLost_mode (w : LostWord) (s : State) : (s.addLost w).mode = s.mode := by simp [State.addLost]
@[simp] theorem State.viewWordLost_mode (params shadow : Bool) (s : State) :
    (s.viewWordLost params shadow).mode = s.mode := by simp only [State.viewWordLost]; split <;> simp
@[simp] theorem State.waveWordLost_mode (core word : Nat) (s : State) : (s.waveWordLost core word).mode = s.mode := by
  unfold State.waveWordLost; split <;> simp
@[simp] theorem State.frameWordLost_mode (s : State) : s.frameWordLost.mode = s.mode := by rfl
@[simp] theorem State.reloadStandby_mode (s : State) : s.reloadStandby.mode = s.mode := by simp [State.reloadStandby]
@[simp] theorem State.pairWordLost_mode (pair : Nat) (s : State) (h : s.mode.phase = .pavane) :
    (s.pairWordLost pair).mode = s.mode := by simp [State.pairWordLost, h]
@[simp] theorem State.captureWordLost_mode (w : Nat) (s : State) : (s.captureWordLost w).mode = s.mode := by rfl
@[simp] theorem State.cycWordLost_mode (s : State) : s.cycWordLost.mode = s.mode := by
  fun_cases State.cycWordLost <;> simp +zetaDelta
@[simp] theorem Journal.onBank_imageRestored (b : Nat) (f : Bank → Bank) (j : Journal) :
    (j.onBank b f).imageRestored = j.imageRestored := by unfold Journal.onBank; split <;> rfl
@[simp] theorem State.bankOut_mode (b : Nat) (s : State) : (s.bankOut b).mode = s.mode := by simp [State.bankOut]
@[simp] theorem State.bankBack_mode (b : Nat) (s : State) : (s.bankBack b).mode = s.mode := by simp [State.bankBack]
@[simp] theorem State.recopyEnd_mode (b : Nat) (good : Bool) (s : State) : (s.recopyEnd b good).mode = s.mode := by
  simp [State.recopyEnd]
@[simp] theorem journalRecopyTry_mode (b : Nat) (good : Bool) (s : State) : (journalRecopyTry b good s).mode = s.mode := by
  simp [journalRecopyTry]
@[simp] theorem keeperDomainFault_mode (b : Nat) (present : Bool) (s : State) :
    (keeperDomainFault b present s).mode = s.mode := by
  have hnvm (n : Nvm) : (if b = 0 then { n with bank0 := !present } else { n with bank1 := !present }).flush0 = n.flush0 ∧
      (if b = 0 then { n with bank0 := !present } else { n with bank1 := !present }).flush1 = n.flush1 := by
    split <;> exact ⟨rfl, rfl⟩
  simp [keeperDomainFault, hnvm]
@[simp] theorem State.bankWordLost_mode (b word : Nat) (s : State) : (s.bankWordLost b word).mode = s.mode := by
  fun_cases State.bankWordLost <;> simp +zetaDelta
@[simp] theorem State.wordLost_mode (row region word : Nat) (s : State) (h : s.mode.phase = .pavane) :
    (s.wordLost row region word).mode = s.mode := by unfold State.wordLost; split <;> simp [h]
@[simp] theorem State.wordCorrected_mode (row region word symbol : Nat) (s : State) :
    (s.wordCorrected row region word symbol).mode = s.mode := by simp [State.wordCorrected]
@[simp] theorem State.endPass_mode (row region word : Nat) (s : State) : (s.endPass row region word).mode = s.mode := by
  simp [State.endPass]
theorem scrubWord_mode (row region word : Nat) (found : ScrubResult) (s : State) (h : s.mode.phase = .pavane) :
    (scrubWord row region word found s).mode = s.mode := by
  simp only [scrubWord]
  repeat' split
  all_goals simp [h]
@[simp] theorem checkUnitScanDone_mode (u : Nat) (bytes : List Byte) (uncorrectable : Bool) (s : State) :
    (checkUnitScanDone u bytes uncorrectable s).mode = s.mode := by simp [checkUnitScanDone]
@[simp] theorem checkUnitEffect_mode (c : Cmd) (s : State) : (checkUnitEffect c s).mode = s.mode := by simp [checkUnitEffect]
@[simp] theorem memoryStatusEffect_mode (c : Cmd) (s : State) : (memoryStatusEffect c s).mode = s.mode := by
  simp [memoryStatusEffect]

/-! ### Health records -/

@[simp] theorem timebaseStatusEffect_mode (c : Cmd) (s : State) : (timebaseStatusEffect c s).mode = s.mode := by
  simp [timebaseStatusEffect]
@[simp] theorem State.clearFabric_mode (t m : Nat) (s : State) : (s.clearFabric t m).mode = s.mode := by rfl
@[simp] theorem fabricStatusEffect_mode (c : Cmd) (s : State) : (fabricStatusEffect c s).mode = s.mode := by
  simp [fabricStatusEffect]
@[simp] theorem State.snapshotHealth_mode (s : State) : s.snapshotHealth.mode = s.mode := by rfl
@[simp] theorem State.clearHealth_mode (m : Nat) (s : State) : (s.clearHealth m).mode = s.mode := by rfl
@[simp] theorem healthReadEffect_mode (c : Cmd) (s : State) : (healthReadEffect c s).mode = s.mode := by
  simp [healthReadEffect]
@[simp] theorem State.sendSegment_mode (s : State) (k : Nat) : (s.sendSegment k).mode = s.mode := by simp [State.sendSegment]
@[simp] theorem State.publishHealth_mode (s : State) : s.publishHealth.mode = s.mode := by simp [State.publishHealth]
@[simp] theorem healthPublish_mode (s : State) : (healthPublish s).mode = s.mode := by simp [healthPublish]
@[simp] theorem tileTempRead_mode (t : Nat) (temp : Int) (selfCheck : Bool) (s : State) :
    (tileTempRead t temp selfCheck s).mode = s.mode := by simp [tileTempRead]

/-! ### The margin re-plan -/

@[simp] theorem State.applyMargins_mode (s : State) : s.applyMargins.mode = s.mode := by simp [State.applyMargins]
@[simp] theorem State.applyDnl_mode (s : State) : s.applyDnl.mode = s.mode := by simp [State.applyDnl]
@[simp] theorem State.restartMonitors_mode (s : State) : s.restartMonitors.mode = s.mode := by rfl
@[simp] theorem State.replan_mode (s : State) : s.replan.mode = s.mode := by simp [State.replan]
@[simp] theorem replanEffect_mode (c : Cmd) (s : State) : (replanEffect c s).mode = s.mode := by simp [replanEffect]
@[simp] theorem replanPeriodic_mode (s : State) : (replanPeriodic s).mode = s.mode := by simp [replanPeriodic]

/-! ### Tests, substitutions and grants -/

@[simp] theorem State.answer_mode (st det result : Nat) (cmds : List (Nat × Cmd)) (s : State) :
    (s.answer st det result cmds).mode = s.mode := by simp [State.answer]
@[simp] theorem State.repaired_mode (result : Nat) (a : Activity) (s : State) : (s.repaired result a).mode = s.mode := by
  simp [State.repaired]
@[simp] theorem State.prepareSpare_mode (a : Activity) (s : State) : (s.prepareSpare a).mode = s.mode := by
  unfold State.prepareSpare; split <;> simp
@[simp] theorem State.steer_mode (ch fe : Nat) (s : State) : (s.steer ch fe).mode = s.mode := by simp [State.steer]
@[simp] theorem frontEndSwitch_mode (ch : Nat) (s : State) : (frontEndSwitch ch s).mode = s.mode := by
  fun_cases frontEndSwitch <;> simp +zetaDelta
@[simp] theorem State.spareFailed_mode (a : Activity) (s : State) : (s.spareFailed a).mode = s.mode := by
  unfold State.spareFailed; split <;> simp
@[simp] theorem State.bindEngine_mode (e h : Nat) (old : Option Nat) (s : State) : (s.bindEngine e h old).mode = s.mode := by
  unfold State.bindEngine; split <;> simp
@[simp] theorem State.endEngineRepair_mode (a : Activity) (s : State) : (s.endEngineRepair a).mode = s.mode := by
  simp only [State.endEngineRepair]; split <;> simp
@[simp] theorem State.restoreSlots_mode (e : Nat) (s : State) : (s.restoreSlots e).mode = s.mode := by
  simp [State.restoreSlots]
@[simp] theorem State.steerCore_mode (e k : Nat) (s : State) : (s.steerCore e k).mode = s.mode := by simp [State.steerCore]
@[simp] theorem State.coreFailed_mode (e : Nat) (s : State) : (s.coreFailed e).mode = s.mode := by
  unfold State.coreFailed; split <;> simp
@[simp] theorem State.endCoreRepair_mode (a : Activity) (ok : Bool) (s : State) : (s.endCoreRepair a ok).mode = s.mode := by
  fun_cases State.endCoreRepair <;> simp +zetaDelta
@[simp] theorem State.endRowRepair_mode (a : Activity) (ok : Bool) (s : State) : (s.endRowRepair a ok).mode = s.mode := by
  fun_cases State.endRowRepair <;> simp +zetaDelta
@[simp] theorem activityComplete_mode (scope : Nat) (ok : Bool) (s : State) :
    (activityComplete scope ok s).mode = s.mode := by fun_cases activityComplete <;> simp +zetaDelta
@[simp] theorem State.markTarget_mode (test target : Nat) (bad : Bool) (s : State) :
    (s.markTarget test target bad).mode = s.mode := by fun_cases State.markTarget <;> simp +zetaDelta
@[simp] theorem State.endFilterTest_mode (pass : Bool) (s : State) : (s.endFilterTest pass).mode = s.mode := by
  simp [State.endFilterTest]
@[simp] theorem State.noteTest_mode (test target : Nat) (s : State) : (s.noteTest test target).mode = s.mode := by rfl
@[simp] theorem testComplete_mode (scope : Nat) (pass : Bool) (s : State) : (testComplete scope pass s).mode = s.mode := by
  unfold testComplete; split <;> simp
@[simp] theorem selfTestPeriodic_mode (test target : Nat) (s : State) : (selfTestPeriodic test target s).mode = s.mode := by
  simp [selfTestPeriodic]
@[simp] theorem State.preempt_mode (s : State) : s.preempt.mode = s.mode := by fun_cases State.preempt <;> simp +zetaDelta
@[simp] theorem State.begin_mode (a : Activity) (s : State) : (s.begin a).mode = s.mode := by simp [State.begin]
@[simp] theorem arbiterGrant_mode (s : State) : (arbiterGrant s).mode = s.mode := by
  fun_cases arbiterGrant <;> simp +zetaDelta
@[simp] theorem selfTestEffect_mode (c : Cmd) (s : State) : (selfTestEffect c s).mode = s.mode := by simp [selfTestEffect]
@[simp] theorem repairEffect_mode (c : Cmd) (s : State) : (repairEffect c s).mode = s.mode := by simp [repairEffect]
@[simp] theorem arbiterStatusEffect_mode (c : Cmd) (s : State) : (arbiterStatusEffect c s).mode = s.mode :=
  State.finish_mode ..
@[simp] theorem healthConfigEffect_mode (c : Cmd) (s : State) : (healthConfigEffect c s).mode = s.mode := by
  simp [healthConfigEffect]

/-! ### The revolution boundary and the swap -/

@[simp] theorem revolutionBoundary_mode (s : State) : (revolutionBoundary s).mode = s.mode := by simp [revolutionBoundary]
@[simp] theorem State.assignEngines_mode (s : State) : s.assignEngines.mode = s.mode := by
  simp -implicitDefEqProofs [State.assignEngines]
@[simp] theorem State.carryFields_mode (old : ConfigSet) (s : State) : (s.carryFields old).mode = s.mode := by
  simp [State.carryFields]
@[simp] theorem State.reachOpened_mode (s : State) : s.reachOpened.mode = s.mode :=
  mode_foldl _ _ _ fun s z => by split <;> simp
@[simp] theorem State.carryAmbient_mode (old : ConfigSet) (s : State) : (s.carryAmbient old).mode = s.mode := by
  simp [State.carryAmbient]
@[simp] theorem State.carryRain_mode (old : ConfigSet) (s : State) : (s.carryRain old).mode = s.mode := by rfl
@[simp] theorem State.carryTrackers_mode (before : Nat → Option (List Byte)) (s : State) :
    (s.carryTrackers before).mode = s.mode := by simp [State.carryTrackers]
@[simp] theorem State.closeOldCells_mode (epoch : Nat) (s : State) : (s.closeOldCells epoch).mode = s.mode := by
  simp [State.closeOldCells]
@[simp] theorem State.installSet_mode (s : State) : s.installSet.mode = s.mode := by rfl
@[simp] theorem State.swap_mode (k : Commit) (s : State) : (s.swap k).mode = s.mode := by simp [State.swap]
@[simp] theorem setSwap_mode (s : State) : (setSwap s).mode = s.mode := by unfold setSwap; split <;> simp

/-- Every opcode that writes the shadow set or orders its commit has an effect that keeps the mode. -/
theorem setOp_keepsMode {op : Nat} {o : OpInfo × (Cmd → State → State)} (h : setOp op = some o) :
    o.1.KeepsMode ∧ ∀ c s, (o.2 c s).mode = s.mode := by
  unfold setOp at h
  split at h <;> cases h <;> exact ⟨.of_plain rfl, by simp⟩

@[simp] theorem State.runWaiting_mode (s : State) (x : Nat × Cmd) : (s.runWaiting x).mode = s.mode := by
  unfold State.runWaiting; split
  · rfl
  · next o ho =>
    obtain ⟨hr, h⟩ := setOp_keepsMode ho
    simp only []; split
    · simp
    · split
      · simp [State.refuseRun_mode _ _ _ _ _ hr]
      · simp [h]
@[simp] theorem State.runAllWaiting_mode (s : State) : s.runAllWaiting.mode = s.mode := by simp [State.runAllWaiting]
@[simp] theorem shadowCopyComplete_mode (s : State) : (shadowCopyComplete s).mode = s.mode := by simp [shadowCopyComplete]
@[simp] theorem viewRelease_mode (h : Nat) (s : State) : (viewRelease h s).mode = s.mode := by simp [viewRelease]

/-! ### The system opcodes -/

@[simp] theorem nopEffect_mode (c : Cmd) (s : State) : (nopEffect c s).mode = s.mode := by simp [nopEffect]
@[simp] theorem echoEffect_mode (c : Cmd) (s : State) : (echoEffect c s).mode = s.mode := by simp [echoEffect]
@[simp] theorem getInfoEffect_mode (c : Cmd) (s : State) : (getInfoEffect c s).mode = s.mode := by simp [getInfoEffect]
@[simp] theorem resetWarmEffect_mode (c : Cmd) (s : State) : (resetWarmEffect c s).mode = s.mode := by rfl
@[simp] theorem State.rejectHeld_mode (s : State) (h : Held) : (s.rejectHeld h).mode = s.mode := by rfl
@[simp] theorem seqSetEffect_mode (c : Cmd) (s : State) : (seqSetEffect c s).mode = s.mode := by simp [seqSetEffect]
@[simp] theorem queueBindEffect_mode (c : Cmd) (s : State) : (queueBindEffect c s).mode = s.mode := by simp [queueBindEffect]

/-! ### Receipt of packets -/

@[simp] theorem State.refuse_mode (ring ver op : Nat) (c : Cmd) (st det : Nat) (raw : Option (List Byte)) (s : State) :
    (s.refuse ring ver op c st det raw).mode = s.mode := by simp [State.refuse]

theorem unlockInfo_keepsMode : unlockInfo.KeepsMode := unlockRejected_mode

/-- A wrong answer to the challenge is the one rejection of the chapter that leaves something behind (R236). -/
theorem infoEmission_keepsMode : ∀ o ∈ infoEmission, o.KeepsMode := by
  intro o ho
  fin_cases ho
  pick_goal 6
  · exact unlockInfo_keepsMode
  all_goals exact .of_plain rfl

/-- Every rejection of a defined opcode keeps the mode. -/
theorem opInfo_keepsMode {op : Nat} {o : OpInfo} (h : opInfo op = some o) : o.KeepsMode := by
  have hm := List.mem_of_find?_eq_some h
  simp only [List.mem_append] at hm
  obtain ((((((((h | h) | h) | h) | h) | h) | h) | h) | h) | h := hm
  pick_goal 3
  · exact infoEmission_keepsMode o h
  all_goals (fin_cases h <;> exact .of_plain rfl)

@[simp] theorem State.rejectConsumed_mode (k op : Nat) (c : Cmd) (st det : Nat) (s : State) :
    (s.rejectConsumed (opInfo k) op c st det).mode = s.mode := by
  unfold State.rejectConsumed
  cases h : opInfo k with
  | none => simp
  | some i => simp [opInfo_keepsMode h c st det s]

/-- Every opcode that permits UNSEQ runs an effect that keeps the mode. -/
theorem unseqEffects_keepsMode : ∀ e ∈ unseqEffects, e.1.KeepsMode ∧ ∀ c s, (e.2 c s).mode = s.mode := by
  intro e he
  fin_cases he <;> exact ⟨.of_plain rfl, by simp⟩

@[simp] theorem State.runUnseq_mode (op : Nat) (c : Cmd) (s : State) : (s.runUnseq op c).mode = s.mode := by
  unfold State.runUnseq; split
  · next e he =>
    obtain ⟨hr, h⟩ := unseqEffects_keepsMode e (List.mem_of_find?_eq_some he)
    exact State.run_mode _ _ _ _ hr (h c)
  · rfl
@[simp] theorem State.examine_mode (op : Nat) (c : Cmd) (s : State) : (s.examine op c).mode = s.mode := by
  simp only [State.examine]; split
  · split <;> simp
  · simp
@[simp] theorem State.examineFrom7_mode (h : Held) (s : State) : (s.examineFrom7 h).mode = s.mode := by
  unfold State.examineFrom7; split <;> simp
@[simp] theorem State.examineHeld_mode (q : Nat) (s : State) (n : Nat) : (s.examineHeld q n).mode = s.mode := by
  induction n generalizing s with
  | zero => rfl
  | succ n ih => simp only [State.examineHeld]; split <;> simp [ih]
@[simp] theorem State.releaseHeld_mode (q : Nat) (s : State) : (s.releaseHeld q).mode = s.mode := by simp [State.releaseHeld]
@[simp] theorem State.takeTag_mode (ring op : Nat) (c : Cmd) (s : State) : (s.takeTag ring op c).mode = s.mode := by
  simp [State.takeTag]
@[simp] theorem State.hold_mode (ring op : Nat) (c : Cmd) (s : State) : (s.hold ring op c).mode = s.mode := by
  simp [State.hold]
@[simp] theorem State.repeatReply_mode (ring : Nat) (c : Cmd) (d : DupRec) (s : State) :
    (s.repeatReply ring c d).mode = s.mode := by rfl
@[simp] theorem State.duplicate_mode (ring op : Nat) (c : Cmd) (s : State) : (s.duplicate ring op c).mode = s.mode := by
  unfold State.duplicate; split <;> simp
@[simp] theorem State.classify_mode (ring op : Nat) (c : Cmd) (s : State) : (s.classify ring op c).mode = s.mode := by
  simp [State.classify]
@[simp] theorem State.sequence_mode (ring op : Nat) (c : Cmd) (s : State) : (s.sequence ring op c).mode = s.mode := by
  simp [State.sequence]
@[simp] theorem State.receive_mode (ring : Option Nat) (via : Via) (b : List Byte) (s : State) :
    (s.receive ring via b).mode = s.mode := by fun_cases State.receive <;> simp +zetaDelta
@[simp] theorem State.dropChecked_mode (k : Checked) (s : State) : (s.dropChecked k).mode = s.mode := by rfl
@[simp] theorem State.enter_mode (k : Checked) (st : EntryState) (b : StatusBlock) (r : Option Reply) (s : State) :
    (s.enter k st b r).mode = s.mode := by rfl
@[simp] theorem State.accept_mode (k : Checked) (s : State) : (s.accept k).mode = s.mode := by simp [State.accept]
@[simp] theorem State.notDurable_mode (bank : Nat) (k : Checked) (s : State) : (s.notDurable bank k).mode = s.mode := by rfl
@[simp] theorem State.acceptUse_mode (op : Nat) (c : Cmd) (s : State) : (s.acceptUse op c).mode = s.mode := by
  simp [State.acceptUse]
@[simp] theorem journalAccept_mode (q : Nat) (rb : ReadBack) (s : State) : (journalAccept q rb s).mode = s.mode := by
  unfold journalAccept; split
  · rfl
  · split
    · rfl
    · next k _ =>
      extract_lets t u v
      have hv : v.mode = s.mode := by simp [v, u, t]
      repeat' split
      all_goals simp [hv]
@[simp] theorem holdExpire_mode (q seq : Nat) (s : State) : (holdExpire q seq s).mode = s.mode := by
  unfold holdExpire; split <;> simp

/-! ### The replay and the warm start -/

@[simp] theorem State.raiseNext_mode (s : State) (o : OddCopy) : (s.raiseNext o).mode = s.mode := by
  fun_cases State.raiseNext <;> simp +zetaDelta
@[simp] theorem State.restoreControl_mode (bad : List BadCopy) (odd : List OddCopy) (s : State) :
    (s.restoreControl bad odd).mode = s.mode := by simp [State.restoreControl]
@[simp] theorem State.oweReply_mode (dup : Bool) (l : Live) (r : Reply) (s : State) : (s.oweReply dup l r).mode = s.mode := by
  simp [State.oweReply]
@[simp] theorem State.resolve_mode (waited : List Reply) (bad : List BadCopy) (odd : List OddCopy) (s : State) (l : Live) :
    (s.resolve waited bad odd l).mode = s.mode := by fun_cases State.resolve <;> simp +zetaDelta
@[simp] theorem State.replay_mode (bad : List BadCopy) (odd : List OddCopy) (s : State) :
    (s.replay bad odd).mode = s.mode := by simp [State.replay]
@[simp] theorem takeoverComplete_mode (bad : List BadCopy) (odd : List OddCopy) (s : State) :
    (takeoverComplete bad odd s).mode = s.mode := by simp [takeoverComplete]

/-! ### The transports -/

@[simp] theorem State.onRing_mode (q : Nat) (f : Ring → Ring) (s : State) : (s.onRing q f).mode = s.mode := by rfl
@[simp] theorem sqDoorbell_mode (q v : Nat) (s : State) : (sqDoorbell q v s).mode = s.mode := by simp [sqDoorbell]
@[simp] theorem rqDoorbell_mode (q v : Nat) (s : State) : (rqDoorbell q v s).mode = s.mode := by simp [rqDoorbell]
@[simp] theorem qEnable_mode (q : Nat) (s : State) : (qEnable q s).mode = s.mode := by simp [qEnable]
@[simp] theorem qDisable_mode (q : Nat) (s : State) : (qDisable q s).mode = s.mode := by simp [qDisable]
@[simp] theorem intStatusClear_mode (mask : Nat) (s : State) : (intStatusClear mask s).mode = s.mode := by
  simp [intStatusClear]
@[simp] theorem State.writeRing_mode (q o v : Nat) (s : State) : (s.writeRing q o v).mode = s.mode := by
  simp [State.writeRing]
@[simp] theorem registerWrite_mode (off v : Nat) (s : State) : (registerWrite off v s).mode = s.mode := by
  simp [registerWrite]
@[simp] theorem pciePerst_mode (l : Perst) (s : State) : (pciePerst l s).mode = s.mode := by unfold pciePerst; split <;> simp
@[simp] theorem descriptorFetch_mode (q : Nat) (readError : Bool) (desc packet : List Byte) (s : State) :
    (descriptorFetch q readError desc packet s).mode = s.mode := by simp [descriptorFetch]
@[simp] theorem replyRingWrite_mode (q : Nat) (s : State) : (replyRingWrite q s).mode = s.mode := by
  unfold replyRingWrite; split <;> simp
@[simp] theorem State.takeTrdp_mode (m : TrdpMessage) (s : State) : (s.takeTrdp m).mode = s.mode := by simp [State.takeTrdp]
@[simp] theorem State.storeTrdp_mode (m : TrdpMessage) (s : State) : (s.storeTrdp m).mode = s.mode := by
  simp [State.storeTrdp]
@[simp] theorem trdpMrReceive_mode (m : TrdpMessage) (s : State) : (trdpMrReceive m s).mode = s.mode := by
  simp [trdpMrReceive]
@[simp] theorem State.onSpi_mode (f : Spi → Spi) (s : State) : (s.onSpi f).mode = s.mode := by rfl
@[simp] theorem State.takeSpi_mode (s : State) : s.takeSpi.mode = s.mode := by unfold State.takeSpi; split <;> simp
@[simp] theorem spiWritePacket_mode (b : List Byte) (s : State) : (spiWritePacket b s).mode = s.mode := by
  simp [spiWritePacket]
@[simp] theorem spiReadStatus_mode (s : State) : (spiReadStatus s).mode = s.mode := by simp [spiReadStatus]
@[simp] theorem spiReadReply_mode (complete : Bool) (s : State) : (spiReadReply complete s).mode = s.mode := by
  fun_cases spiReadReply <;> simp +zetaDelta
@[simp] theorem spiUnknownInstruction_mode (code : Nat) (s : State) : (spiUnknownInstruction code s).mode = s.mode := by
  simp [spiUnknownInstruction]
@[simp] theorem State.takeWaiting_mode (s : State) : s.takeWaiting.mode = s.mode := by
  simp only [State.takeWaiting]; split <;> simp

/-! ### The test access port -/

@[simp] theorem State.setIr_mode (i : JtagIr) (s : State) : (s.setIr i).mode = s.mode := by rfl
@[simp] theorem jtagBypass_mode (s : State) : (jtagBypass s).mode = s.mode := by rfl
@[simp] theorem jtagIdcode_mode (s : State) : (jtagIdcode s).mode = s.mode := by rfl
@[simp] theorem jtagSamplePreload_mode (x : JtagScan) (s : State) : (jtagSamplePreload x s).mode = s.mode := by rfl
@[simp] theorem jtagExtest_mode (s : State) : (jtagExtest s).mode = s.mode := by simp [jtagExtest]
@[simp] theorem jtagTapReset_mode (s : State) : (jtagTapReset s).mode = s.mode := by rfl

/-! ### The tick -/

@[simp] theorem State.tickClock_mode (s : State) : s.tickClock.mode = s.mode := by simp [State.tickClock]

/-! ### The cold start -/

@[simp] theorem State.resolveLost_mode (s : State) (l : Live) : (s.resolveLost l).mode = s.mode := by
  fun_cases State.resolveLost <;> simp +zetaDelta
@[simp] theorem State.answerLost_mode (s : State) : s.answerLost.mode = s.mode := by simp [State.answerLost]
@[simp] theorem State.drawStartId_mode (old : Nat) (s : State) : (s.drawStartId old).mode = s.mode := by
  simp [State.drawStartId]
@[simp] theorem State.powerDomains_mode (l : List Domain) (s : State) : (s.powerDomains l).mode = s.mode := by rfl
@[simp] theorem State.clockStep_mode (ok : Bool) (s : State) : (s.clockStep ok).mode = s.mode := by simp [State.clockStep]
@[simp] theorem State.noteSpares_mode (s : State) : s.noteSpares.mode = s.mode := by simp [State.noteSpares]
@[simp] theorem State.failedFe_mode (s : State) (f : Nat) : (s.failedFe f).mode = s.mode := by
  unfold State.failedFe; split <;> simp
@[simp] theorem State.failedCore_mode (s : State) (k : Nat) : (s.failedCore k).mode = s.mode := by
  simp only [State.failedCore]; split <;> simp
@[simp] theorem State.testStep_mode (st : ColdStart) (s : State) : (s.testStep st).mode = s.mode := by simp [State.testStep]
@[simp] theorem State.paceStep_mode (st : ColdStart) (s : State) : (s.paceStep st).mode = s.mode := by rfl
@[simp] theorem State.laneStep_mode (st : ColdStart) (s : State) : (s.laneStep st).mode = s.mode := by simp [State.laneStep]
@[simp] theorem State.restLanes_mode (s : State) : s.restLanes.mode = s.mode := by simp [State.restLanes]
@[simp] theorem State.excStep_mode (s : State) : s.excStep.mode = s.mode := by simp [State.excStep]
@[simp] theorem State.lastSteps_mode (st : ColdStart) (s : State) : (s.lastSteps st).mode = s.mode := by
  simp -implicitDefEqProofs [State.lastSteps]

/-- An image that returns is consumed in both flush areas (R400). -/
theorem State.loadImage_mode (i : FlushImage) (s : State) : (s.loadImage i).mode =
    { s.mode with area0 := consume i.generation s.nvm.flush0, area1 := consume i.generation s.nvm.flush1 } := by
  simp only [State.loadImage]
  split
  · exact (State.claspStore_mode _).trans rfl
  · rfl

theorem State.loadJournal_running (s : State) : s.loadJournal.mode.running = s.mode.running := by
  unfold State.loadJournal
  split
  · next i _ =>
    have himage : (s.loadImage i).mode.running = s.mode.running := by rw [s.loadImage_mode i]
    exact himage
  · rfl

/-- Steps 1 and 2 set the supervisor running. -/
theorem State.loadStep_running (s : State) : s.loadStep.mode.running = true := by
  simp only [State.loadStep, State.onMotion_mode, State.onAngle_mode, State.onEmission_mode]
  rw [State.onPower_mode (h := by simp)]
  simp only [State.drawStartId_mode, State.loadJournal_running, State.loadRecords_mode, State.chooseRecords_mode]
  rfl

theorem State.releaseStart_mode (s : State) : s.releaseStart.mode = { s.mode with phase := .ready } := by
  rw [← s.clearSource_mode srcStart]
  exact State.withStatus_mode ..

theorem State.enterRecovery_mode (s : State) : s.enterRecovery.mode = { s.mode with phase := .recovery } := by
  rw [← s.answerLost_mode]
  exact State.withStatus_mode ..

/-- The steps end measurement-ready or in the recovery-only state (R404, R412). -/
theorem State.coldSteps_leaves_pavane (st : ColdStart) (s : State) :
    (s.coldSteps st).mode.phase ≠ .pavane ∧ (s.coldSteps st).mode.running = true := by
  simp only [State.coldSteps]
  repeat' split
  all_goals simp [State.releaseStart_mode, State.enterRecovery_mode, State.loadStep_running]

/-- A cold start leaves the supervisor running and the device outside Pavane, also where it halts. -/
theorem State.coldStart_leaves_pavane (st : ColdStart) (s : State) :
    (s.coldStart st).mode.phase ≠ .pavane ∧ (s.coldStart st).mode.running = true := by
  simp only [State.coldStart]
  split
  · exact ⟨nofun, rfl⟩
  · exact State.coldSteps_leaves_pavane ..

/-! ### What ends Pavane, and what does not -/

theorem startsCold_pfailRecover (st : ColdStart) (s : State) :
    StartsCold (.pfailRecover st) s ↔ s.power.pavaneCause = .pfail ∧ s.host.journal.flushing = false ∧
      s.power.pavaneAt + 12800000 ≤ s.clk.now := by
  simp [StartsCold]

/-- In Pavane, PFAIL_RECOVER is a cold start under the conditions of `StartsCold`, and nothing without them. -/
theorem pfailRecover_of_startsCold (st : ColdStart) (s : State) (h : s.power.phase = .pavane)
    (hc : StartsCold (.pfailRecover st) s) : pfailRecover st s = s.coldStart st := by
  simp [pfailRecover, State.since, ms, h, (startsCold_pfailRecover st s).mp hc]

theorem pfailRecover_of_not_startsCold (st : ColdStart) (s : State) (h : s.power.phase = .pavane)
    (hc : ¬ StartsCold (.pfailRecover st) s) : pfailRecover st s = s := by
  have hsince : s.since s.power.pavaneAt (ms 10) = decide (s.power.pavaneAt + 12800000 ≤ s.clk.now) := rfl
  rw [startsCold_pfailRecover] at hc
  refine if_neg fun hif => hc ?_
  simpa [hsince, h, and_assoc] using hif

/-- The end of the flush may stop the supervisor, and keeps the phase. -/
theorem journalFlushComplete_phase (s : State) : (journalFlushComplete s).power.phase = s.power.phase := by
  simp only [journalFlushComplete]
  repeat' split
  all_goals rfl

/-- The flush that MODE 1 of POWER_DOWN waits for stops the supervisor (R416). -/
theorem journalFlushComplete_running (s : State) (hcold : s.power.coldStartAfter = true) (hpf : s.power.pfail = false)
    (hflush : s.host.journal.flushing = true) : (journalFlushComplete s).power.running = false := by
  simp only [journalFlushComplete, hflush, Bool.not_true, Bool.false_eq_true, if_false]
  rw [if_pos]
  · rfl
  · exact (Bool.and_eq_true ..).mpr ⟨hcold, by rw [Bool.not_eq_true']; exact hpf⟩

/-- A POWER_DOWN in Pavane may stop the supervisor for its cold start, and keeps the phase. -/
theorem State.powerDownPavane_phase (s : State) (h : s.power.phase = .pavane) : s.powerDownPavane.power.phase = .pavane := by
  unfold State.powerDownPavane
  split
  · split
    · exact h
    · simp [h]
  · exact h

theorem State.warmStep_of_pavane (s : State) (h : s.power.phase = .pavane) : s.warmStep = s := by
  unfold State.warmStep
  split
  · rfl
  · simp [h]

theorem warmStart_of_pavane (imageOk : Bool) (bad : List BadCopy) (odd : List OddCopy) (s : State)
    (h : s.power.phase = .pavane) : warmStart imageOk bad odd s = s := by simp [warmStart, h]

theorem tick_phase (s : State) (h : s.power.phase = .pavane) : (tick s).power.phase = .pavane := by
  have hmode : ([0, 1].foldl State.askPeer s.tickClock).decideSwap.powerDownReplies.mode = s.mode := by simp
  have hdown := State.powerDownPavane_phase _ ((congrArg Mode.phase hmode).trans h)
  rw [tick, State.powerDownStep, State.warmStep_of_pavane _ hdown]
  exact (congrArg Mode.phase (State.takeWaiting_mode _)).trans hdown

/-! ### Commands and steps -/

/-- A command that does not begin a cold start leaves a device in Pavane there. A packet runs its effect behind the checks of
steps 8 to 11; of the other rows the end of the flush alone may change the mode. -/
theorem exec_in_pavane (i : Instr) (s : State) (h : s.power.phase = .pavane) (hi : ¬ StartsCold i s) :
    ∃ t, exec i s = .next t ∧ t.power.phase = .pavane := by
  have keeps {t : State} (hexec : exec i s = .next t) (hmode : t.mode = s.mode) :
      ∃ t, exec i s = .next t ∧ t.power.phase = .pavane := ⟨t, hexec, (congrArg Mode.phase hmode).trans h⟩
  cases i with
  | nop _ | getInfo _ | echo _ | resetWarm _ | seqSet _ | queueBind _ | viewDestroy _ | viewQuery _ | viewParam _
  | viewUpdate _ | setAbort _ | setRead _ | loopConfig _ | loopCoeff _ | cameoArm _ | cameoRead _ | ctrlStatus _
  | motionRecord _ | fireTable _ | nearfieldConfig _ | fieldDefine _ | zoneConfig _ | schedConfig _ | emitHold _
  | shotStatus _ | zoneStatus _ | waveLoad _ | waveLoadClear _ | waveRead _ | waveFade _ | parkSet _ | emitDirect _
  | emitDirectStop _ | ledgerWrite _ | ledgerRead _ | resConfig _ | emitStatus _ | rxConfig _ | biasConfig _
  | rxStatus _ | auxMeasConfig _ | auxSwitchConfig _ | bezelConfig _ | auxRead _ | auxStatus _ | streamConfig _
  | trdpConfig _ | netStatus _ | streamStatus _ | nvmInfo _ | nvmRead _ | nvmStage _ | nvmCommit _ | nvmErase _
  | keyProvision _ | powerDown _ | healthRead _ | timebaseStatus _ | fabricStatus _ | memoryStatus _
  | checkUnitRead _ | checkUnitWrite _ | selfTest _ | replan _ | repairSubstitute _ | repairRetest _
  | arbiterStatus _ | healthConfig _ =>
    exact keeps rfl (State.run_mode _ _ _ _ (.of_plain rfl) (by simp))
  | angleConfig _ | angleFrame _ | filterSync _ | cycSelect _ | encConfig _ | camConfig _ | angleStatus _ =>
    exact keeps rfl (State.angleRun_mode _ _ _ _ (.of_plain rfl) (by simp))
  | ledgerUnlockChallenge c | ledgerUnlockResponse c =>
    exact keeps rfl (State.run_mode _ _ _ _ unlockInfo_keepsMode (unlockEffect_mode c))
  | setCommit c =>
    have hrun := State.run_mode setCommitInfo c (setCommitEffect c) s (.of_plain rfl) (setCommitEffect_mode c)
    exact keeps rfl ((State.dropCommit_mode ..).trans hrun)
  | netFrameReceive port frame =>
    refine keeps rfl ?_
    split <;> simp
  | supervisorMismatch => exact keeps rfl (State.takeOver_mode s h)
  | standbyComparisonFail => exact keeps rfl (standbyComparisonFail_mode s h)
  | pfail => exact keeps rfl (pfail_mode s h)
  | xoStop => exact keeps rfl (xoStop_mode s h)
  | scrubWord row region word found => exact keeps rfl (scrubWord_mode row region word found s h)
  | warmStart imageOk bad odd => exact keeps rfl (congrArg State.mode (warmStart_of_pavane imageOk bad odd s h))
  | journalFlushComplete => exact ⟨_, rfl, (journalFlushComplete_phase s).trans h⟩
  | porRelease st => exact absurd (.inl ⟨st, rfl⟩) hi
  | pfailRecover st => exact keeps rfl (congrArg State.mode (pfailRecover_of_not_startsCold st s h hi))
  | _ => exact keeps rfl (by simp)

theorem step_in_pavane (s t : State) (h : s.power.phase = .pavane) (hstep : step s = .next t) :
    t.power.phase = .pavane ∨ ∃ c rest, s.pending = c :: rest ∧ StartsCold c s := by
  unfold step at hstep
  split at hstep
  · obtain rfl := Host.Outcome.next.inj hstep
    exact .inl (tick_phase s h)
  · next c rest hpending =>
    by_cases hc : StartsCold c s
    · exact .inr ⟨c, rest, hpending, hc⟩
    · obtain ⟨u, hu, hphase⟩ := exec_in_pavane c { s with pending := rest } h hc
      obtain rfl := Host.Outcome.next.inj (hu.symm.trans hstep)
      exact .inl hphase

/-- A command that begins a cold start of a device in Pavane is one. -/
theorem exec_of_startsCold (c : Instr) (s : State) (h : s.power.phase = .pavane) (hc : StartsCold c s) :
    ∃ st, exec c s = .next (s.coldStart st) := by
  obtain ⟨st, rfl⟩ | ⟨st, rfl, _⟩ := id hc
  · exact ⟨st, rfl⟩
  · exact ⟨st, congrArg Host.Outcome.next (pfailRecover_of_startsCold st s h hc)⟩

/-- Settles O59: in Pavane every operation and the tick keep the phase; a cold start begins from power-on reset and ends outside
Pavane. -/
theorem onlyAColdStartEndsPavane : Obligations.OnlyAColdStartEndsPavane := by
  refine ⟨step_in_pavane, fun c s h hc => ?_, fun s h hcold hpf hflush => ?_⟩
  · obtain ⟨st, hst⟩ := exec_of_startsCold c s h hc
    exact ⟨_, hst, State.coldStart_leaves_pavane st s⟩
  · exact ⟨_, rfl, journalFlushComplete_running s hcold hpf hflush, (journalFlushComplete_phase s).trans h⟩

end Sys2Proof.Machine

/-!
## Flushes and the power fail (R399, R405, R414, R417)

SUPPORT. The images that a flush leaves in its areas, and what a power fail leaves of the sources, the aux pins and the journal.
-/
namespace Sys2Proof.Machine

/-! ### The slots of a flush area -/

theorem mem_writeImage (new : FlushImage) (l : List FlushImage) : new ∈ writeImage new l := by
  unfold writeImage
  split
  · simp
  · split <;> simp

theorem length_writeImage_le (new : FlushImage) (l : List FlushImage) : (writeImage new l).length ≤ 2 := by
  unfold writeImage
  split
  · simp
  · split
    · simp
    · simp [List.length_take]

/-- The slot that is written is not that of the newest valid image. -/
theorem newestImage_mem_writeImage {l : List FlushImage} {x : FlushImage} (new : FlushImage) (h : newestImage l = some x) :
    x ∈ writeImage new l := by
  unfold writeImage
  split
  · cases h
  · next a r =>
    split
    · next hnewest =>
      obtain rfl := Option.some.inj (h.symm.trans (beq_iff_eq.mp hnewest))
      simp
    · simp [h]

theorem State.lt_imageGen {s : State} {x : FlushImage} (h : x ∈ s.nvm.flush0 ++ s.nvm.flush1) :
    x.generation < s.imageGen := by
  rw [State.imageGen, List.foldl_max]
  exact Nat.lt_succ_of_le (le_max_of_le_right (List.le_max?_getD_of_mem (List.mem_map_of_mem h)))

/-! ### The image of a bank -/

theorem State.flushImage_valid (b : Nat) (s : State) : (s.flushImage b true).valid = (s.bank b).inService := by
  have hbank : (s.bankImage b).inService = (s.bank b).inService := by
    simp only [State.bankImage]
    split
    · next h => exact h.symm
    · next h => exact (Bool.eq_false_iff.mpr h).symm
  simp [FlushImage.valid, State.flushImage, hbank]

theorem State.flushImage_content (b : Nat) (whole : Bool) {s : State} (h : (s.bank b).inService = true) :
    (s.flushImage b whole).toJournalImage = s.journalImage (s.bank b).bad := by
  simp [State.flushImage, State.bankImage, h]

/-! ### The flush -/

theorem journalFlushComplete_of_not_flushing {s : State} (h : s.host.journal.flushing = false) :
    journalFlushComplete s = s := by
  simp [journalFlushComplete, h]

theorem State.flushUnits_eq (a b : JournalImage) (s : State) :
    s.flushUnits a b = { s with integrity := { s.integrity with units := (s.flushUnits a b).integrity.units } } := rfl

/-- A flush writes its areas, with units 18 and 19, and lets acceptance go on; the cold start that may wait for it is a matter of
the supervisor alone. -/
theorem journalFlushComplete_eq {s : State} (h : s.host.journal.flushing = true) :
    ∃ units power, journalFlushComplete s =
      { s with
        nvm := (s.writeFlush true).nvm
        host := { s.host with journal := { s.host.journal with flushing := false, acceptStopped := false } }
        integrity := { s.integrity with units := units }
        power := power } := by
  simp only [journalFlushComplete, h, Bool.not_true, Bool.false_eq_true, if_false]
  generalize s.bankImage 0 = a
  generalize s.bankImage 1 = b
  rw [State.flushUnits_eq]
  generalize (State.flushUnits a b _).integrity.units = units
  split
  · exact ⟨units, _, rfl⟩
  · exact ⟨units, _, rfl⟩

/-- What a flush leaves of an area whose bank of eMRAM is up: the new image and the newest valid one. -/
theorem flushed_area (new : FlushImage) (l : List FlushImage) :
    new ∈ writeImage new l ∧ (writeImage new l).length ≤ 2 ∧ ∀ x, newestImage l = some x → x ∈ writeImage new l :=
  ⟨mem_writeImage new l, length_writeImage_le new l, fun _ => newestImage_mem_writeImage new⟩

/-! ### The source of Pavane stays registered -/

@[simp] theorem sched_ite (p : Prop) [Decidable p] (s t : State) :
    (if p then s else t).sched = if p then s.sched else t.sched := apply_ite State.sched p s t

theorem sched_foldl {α : Type} (f : State → α → State) (l : List α) (s : State) (h : ∀ t a, (f t a).sched = t.sched) :
    (l.foldl f s).sched = s.sched := by
  induction l generalizing s with
  | nil => rfl
  | cons a l ih => exact (ih _).trans (h s a)

@[simp] theorem State.driveZones_sched (s : State) : s.driveZones.sched = s.sched := by rfl
@[simp] theorem State.parkExc_sched (s : State) : s.parkExc.sched = s.sched := by rfl
@[simp] theorem State.closeHist_sched (ch : Nat) (h : Hist) (s : State) : (s.closeHist ch h).sched = s.sched := by rfl
@[simp] theorem State.enterField_sched (n : Nat) (st : FieldState) (s : State) : (s.enterField n st).sched = s.sched := by
  simp [State.enterField, State.onField]
@[simp] theorem State.loseSweep_sched (s : State) : s.loseSweep.sched = s.sched := by
  unfold State.loseSweep
  split
  · exact sched_foldl _ _ _ fun _ _ => State.enterField_sched ..
  · rfl
@[simp] theorem State.endGroup_sched (ch : Nat) (s : State) (h : Hist) : (s.endGroup ch h).sched = s.sched := by
  simp [State.endGroup]
@[simp] theorem State.endGroups_sched (s : State) : s.endGroups.sched = s.sched :=
  sched_foldl _ _ _ fun _ _ => sched_foldl _ _ _ fun _ _ => State.endGroup_sched ..
@[simp] theorem State.discardLearn_sched (det : Nat) (s : State) : (s.discardLearn det).sched = s.sched := by
  unfold State.discardLearn; split <;> simp
@[simp] theorem State.countFault_sched (n : Nat) (s : State) : (s.countFault n).sched = s.sched := by rfl
@[simp] theorem State.injectLost_sched (n : Nat) (c : Cmd) (played : Nat) (s : State) :
    (s.injectLost n c played).sched = s.sched := by
  simp [State.injectLost]
@[simp] theorem State.breakInject_sched (n : Nat) (s : State) : (s.breakInject n).sched = s.sched := by
  unfold State.breakInject
  refine (sched_foldl _ _ _ fun _ _ => State.injectLost_sched ..).trans ?_
  split <;> simp
@[simp] theorem State.latch_sched (n cls action : Nat) (s : State) : (s.latch n cls action).sched = s.sched := by
  simp [State.latch, State.galvoActs, State.parkGalvo, State.cameoTrigger]

/-- Emission is inhibited, with Pavane among the sources of the SUPERVISOR cause. -/
def State.PavaneSource (s : State) : Prop := s.inhibited = true ∧ s.sched.src.getLsbD srcPavane = true

theorem State.PavaneSource.of_sched {s t : State} (hs : s.PavaneSource) (h : t.sched = s.sched) : t.PavaneSource := by
  rwa [State.PavaneSource, State.inhibited, h]

/-- Another cause leaves the descriptors of an inhibited device alone (R193). -/
theorem State.registerCause_sched {s : State} (cause : Nat) (h : s.inhibited = true) :
    (s.registerCause cause).sched = { s.sched with inhibit := s.sched.inhibit ||| bit6 cause } := by
  simp [State.registerCause, h]

theorem State.PavaneSource.registerCause {s : State} (hs : s.PavaneSource) (cause : Nat) :
    (s.registerCause cause).PavaneSource := by
  obtain ⟨hinh, hsrc⟩ := hs
  have hne : s.sched.inhibit ≠ 0 := by simpa [State.inhibited] using hinh
  rw [State.PavaneSource, State.inhibited, State.registerCause_sched cause hinh]
  refine ⟨bne_iff_ne.mpr fun h => hne (BitVec.or_eq_zero_iff.mp h).1, hsrc⟩

theorem State.PavaneSource.registerSource {s : State} (hs : s.PavaneSource) (src : Nat) :
    (s.registerSource src).PavaneSource := by
  obtain ⟨hinh, hsrc⟩ := hs.registerCause causeSupervisor
  exact ⟨hinh, by simp [State.registerSource, hsrc]⟩

theorem State.pavaneSource_registerSource (s : State) : (s.registerSource srcPavane).PavaneSource := by
  have hbit : bit6 causeSupervisor ≠ 0 := by decide
  refine ⟨bne_iff_ne.mpr fun h => hbit (BitVec.or_eq_zero_iff.mp h).2, ?_⟩
  have hsrc : (bit6 srcPavane).getLsbD srcPavane = true := by decide
  simp [State.registerSource, hsrc]

/-- A loop fault latches on its loop and the other, and registers at most one more source (R173, R175). -/
theorem State.PavaneSource.raiseFault {s : State} (hs : s.PavaneSource) (n cls : Nat) : (s.raiseFault n cls).PavaneSource := by
  unfold State.raiseFault
  extract_lets p action counted
  split
  · exact hs.of_sched rfl
  · rename_i latched o onOther both _
    have hboth : both.PavaneSource := hs.of_sched (by simp [both, latched, counted])
    split
    · exact hboth.registerSource srcMotion
    · exact hboth

theorem State.PavaneSource.spindleLost {s : State} (hs : s.PavaneSource) : s.spindleLost.PavaneSource := by
  unfold State.spindleLost
  split
  · exact hs.raiseFault 0 3
  · exact hs

theorem State.PavaneSource.angleGone {s : State} (hs : s.PavaneSource) (st : LockState) : (s.angleGone st).PavaneSource := by
  have hgone := (hs.registerCause causeAngle).of_sched (t := (s.registerCause causeAngle).endGroups.loseSweep) (by simp)
  exact (hgone.of_sched (by simp [State.encFreeze])).spindleLost

theorem State.PavaneSource.pavaneMotion {s : State} (hs : s.PavaneSource) : s.pavaneMotion.PavaneSource :=
  (hs.of_sched (by simp)).registerSource srcMotion

theorem State.PavaneSource.pavaneOutputs {s : State} (hs : s.PavaneSource) : s.pavaneOutputs.PavaneSource := by
  have hpark := hs.of_sched s.parkExc_sched
  simp only [State.pavaneOutputs]
  split
  · exact hpark.of_sched (by simp)
  · exact (hpark.angleGone .noSignal).of_sched (by simp)

/-! ### The power fail -/

@[simp] theorem State.withStatus_sched (f : State → State) (s : State) : (s.withStatus f).sched = (f s).sched := by
  simp [State.withStatus, State.interrupt]

@[simp] theorem State.withStatus_aux (f : State → State) (s : State) : (s.withStatus f).aux = (f s).aux := by
  simp [State.withStatus, State.interrupt, apply_ite State.aux]

@[simp] theorem State.startFlush_sched (s : State) : s.startFlush.sched = s.sched := by rfl
@[simp] theorem State.startFlush_aux (s : State) : s.startFlush.aux = s.aux := by rfl

@[simp] theorem State.pavaneOutputs_turn (s : State) : s.pavaneOutputs.aux.turn = none := by
  simp only [State.pavaneOutputs, State.driveZones, State.onZone_aux, State.onAux_aux]

/-- Pavane starts with its source registered, and the aux engine measures no more (R414, Table 16.5). -/
theorem State.startPavane_outputs (cause : PavaneCause) (s : State) (h : s.power.phase ≠ .pavane)
    (hrun : s.power.running = true) : (s.startPavane cause).PavaneSource ∧ (s.startPavane cause).aux.turn = none := by
  simp only [State.startPavane, h, hrun, beq_iff_eq, Bool.not_true, Bool.or_false, if_false]
  constructor
  · refine .of_sched ?_ (State.withStatus_sched ..)
    exact (State.pavaneSource_registerSource _).pavaneMotion.pavaneOutputs.of_sched (State.startFlush_sched _)
  · rw [State.withStatus_aux, State.startFlush_aux]
    exact State.pavaneOutputs_turn _

theorem State.writeCopy_eq (bank : Nat) (took : Bool) (k : NvmCopy) (s : State) :
    ∃ nvm integrity, s.writeCopy bank took k = { s with nvm := nvm, integrity := integrity } := by
  unfold State.writeCopy
  split
  · exact ⟨_, _, rfl⟩
  · exact ⟨_, _, rfl⟩

/-- A store that a power fail cuts changes eMRAM, its check units and the arbiter's list (R421). -/
theorem State.tearStore_eq (s : State) :
    ∃ nvm health integrity, s.tearStore = { s with nvm := nvm, health := health, integrity := integrity } := by
  have hwrite (bank : Nat) (k : NvmCopy) : ∃ nvm health integrity, (s.endScope scopeNvm).writeCopy bank false k =
      { s with nvm := nvm, health := health, integrity := integrity } := by
    obtain ⟨nvm, integrity, hw⟩ := (s.endScope scopeNvm).writeCopy_eq bank false k
    exact ⟨nvm, _, integrity, hw⟩
  simp only [State.tearStore]
  split
  · exact ⟨_, _, _, rfl⟩
  · split
    · exact hwrite _ _
    · split
      · split
        · exact hwrite _ _
        · exact ⟨_, _, _, rfl⟩
      · exact ⟨_, _, _, rfl⟩

section
variable {s : State} (hrun : s.power.running = true) (hhalt : s.power.halted = false) (hpf : s.power.pfail = false)
include hrun hhalt hpf

theorem pfail_eq : pfail s = ((s.startPavane .pfail).onPower fun p => { p with pfail := true }).tearStore.startFlush := by
  simp [pfail, hrun, hhalt, hpf]

/-- Beside eMRAM, its check units and the arbiter's list, a registered power fail leaves what Pavane leaves. -/
theorem pfail_outputs : (pfail s).power = { (s.startPavane .pfail).power with pfail := true } ∧
    (pfail s).sched = (s.startPavane .pfail).sched ∧ (pfail s).aux = (s.startPavane .pfail).aux := by
  obtain ⟨nvm, health, integrity, htear⟩ := ((s.startPavane .pfail).onPower fun p => { p with pfail := true }).tearStore_eq
  rw [pfail_eq hrun hhalt hpf, htear]
  exact ⟨rfl, rfl, rfl⟩

/-- A registered power fail starts Pavane where it does not run yet (R405). -/
theorem pfail_mode_of_runs : (pfail s).mode =
    { s.mode with phase := .pavane, cause := if s.power.phase = .pavane then s.power.pavaneCause else .pfail } := by
  by_cases h : s.power.phase = .pavane
  · rw [pfail_mode s h, if_pos h, ← h]
    rfl
  · rw [if_neg h, ← State.startPavane_mode .pfail s h hrun, pfail_eq hrun hhalt hpf]
    simp

/-- It stops acceptance, forgets what was not accepted, and asks for a flush where the image was restored (R399, R417). -/
theorem pfail_journal : (pfail s).host.journal.acceptStopped = true ∧ (pfail s).host.checked = [] ∧
    (pfail s).host.journal.flushing = (pfail s).host.journal.imageRestored := by
  rw [pfail_eq hrun hhalt hpf]
  generalize State.tearStore _ = t
  exact ⟨rfl, rfl, rfl⟩

end

/-- In Pavane the aux engine drives no pin (Table 16.5). -/
theorem State.pinRoles_of_pavane (pin : Nat) (s : State) (h : s.power.phase = .pavane) : s.pinRoles pin = [] := by
  simp [State.pinRoles, State.auxDrives, h]

/-- Settles O52: a flush writes the slot that does not hold the newest valid image, under a generation of its own; a power fail
asks for one where the image was restored. -/
theorem flushKeepsTheNewestImage : Obligations.FlushKeepsTheNewestImage := by
  refine ⟨fun s h => ?_, fun s hrun hhalt hpf => ?_,
    fun s h => congrArg Host.Outcome.next (journalFlushComplete_of_not_flushing h), fun s h => ?_⟩
  · refine congrArg Host.Outcome.next (if_pos ?_)
    simpa [or_assoc] using h
  · obtain ⟨hpower, hsched, haux⟩ := pfail_outputs hrun hhalt hpf
    obtain ⟨hstop, hchecked, hflushing⟩ := pfail_journal hrun hhalt hpf
    have hmode := pfail_mode_of_runs hrun hhalt hpf
    have hphase : (pfail s).power.phase = .pavane := congrArg Mode.phase hmode
    have hasked : (pfail s).host.journal.flushing = s.host.journal.imageRestored :=
      hflushing.trans (congrArg Mode.restored hmode)
    refine ⟨pfail s, rfl, by rw [hpower], hphase, hstop, hasked, hchecked, congrArg Mode.area0 hmode, congrArg Mode.area1 hmode,
      fun h => ?_, fun pin => (pfail s).pinRoles_of_pavane pin hphase,
      fun h => congrArg Host.Outcome.next (journalFlushComplete_of_not_flushing (hasked.trans h))⟩
    obtain ⟨⟨_, hsrc⟩, hturn⟩ := s.startPavane_outputs .pfail h hrun
    exact ⟨(congrArg Mode.cause hmode).trans (if_neg h), hsched ▸ hsrc, haux ▸ hturn⟩
  · obtain ⟨units, power, ht⟩ := journalFlushComplete_eq h
    have hnvm : (journalFlushComplete s).nvm = (s.writeFlush true).nvm := by rw [ht]
    refine ⟨journalFlushComplete s, s.flushImage 0 true, s.flushImage 1 true, rfl, ?_⟩
    rw [hnvm, ht]
    refine ⟨fun h0 => by simp [State.writeFlush, h0], fun h1 => by simp [State.writeFlush, h1],
      fun h0 => ?_, fun h1 => ?_, fun _ => State.lt_imageGen, rfl, rfl, s.flushImage_valid 0, s.flushImage_valid 1,
      s.flushImage_content 0 true, s.flushImage_content 1 true, rfl, rfl, rfl, rfl, rfl⟩
    · simpa [State.writeFlush, h0] using flushed_area (s.flushImage 0 true) s.nvm.flush0
    · simpa [State.writeFlush, h1] using flushed_area (s.flushImage 1 true) s.nvm.flush1

end Sys2Proof.Machine

/-!
## The zone outputs stay safe (R202, R203)

SUPPORT. Every operation keeps what the safety of the zone outputs rests on, or keeps it safe: one lemma per operation, in the
order of the model's definitions, each proved by the lemmas of the operations it calls, as for the queue and the mode. An
operation that does not drive the outputs keeps their view (`_zoneView`); one that may drive them, and what calls it, keeps
the view safe (`_safe`), since `driveZones` ends safe from any state. Then O58.
-/
namespace Sys2Proof.Machine


/-- The part of the state that the safety of the zone outputs rests on. -/
structure ZoneView where
  clearA : Bool
  clearB : Bool
  outFault : Bool
  wdog : Bool
  pulseA : Option Nat
  pulseB : Option Nat
  phase : StartPhase

def State.zoneView (s : State) : ZoneView :=
  { clearA := s.zone.clearA, clearB := s.zone.clearB, outFault := s.zone.outFault, wdog := s.zone.wdog,
    pulseA := s.zone.pulseA, pulseB := s.zone.pulseB, phase := s.power.phase }

/-- Both outputs alike, clear only without a fault and outside Pavane, and a test pulse on a clear output alone (R202, R203). -/
def ZoneView.Safe (v : ZoneView) : Prop :=
  v.clearA = v.clearB ∧ (v.clearA = true → v.outFault = false ∧ v.wdog = false ∧ v.phase ≠ .pavane) ∧
  (v.pulseA ≠ none → v.clearA = true) ∧ (v.pulseB ≠ none → v.clearB = true)

@[simp] theorem ZoneView.safe_ite (p : Prop) [Decidable p] (v w : ZoneView) :
    (if p then v else w).Safe ↔ if p then v.Safe else w.Safe := by
  split <;> rfl

theorem zoneSafe_iff (s : State) : ZoneSafe s ↔ s.zoneView.Safe := Iff.rfl

/-! ### Updates of the state and replies -/

@[simp] theorem State.onHost_zoneView (f : HostSide → HostSide) (s : State) : (s.onHost f).zoneView = s.zoneView := by rfl
@[simp] theorem State.onPower_zoneView (f : Power → Power) (s : State)
    (h : ∀ p, (f p).phase = p.phase) : (s.onPower f).zoneView = s.zoneView := by
  simp [State.zoneView, h]
@[simp] theorem State.onNvm_zoneView (f : Nvm → Nvm) (s : State) : (s.onNvm f).zoneView = s.zoneView := by rfl
@[simp] theorem State.onClk_zoneView (f : Clk → Clk) (s : State) : (s.onClk f).zoneView = s.zoneView := by rfl
@[simp] theorem State.onEmission_zoneView (f : Emission → Emission) (s : State) : (s.onEmission f).zoneView = s.zoneView := by
  rfl
@[simp] theorem State.onSched_zoneView (f : Sched → Sched) (s : State) : (s.onSched f).zoneView = s.zoneView := by rfl
@[simp] theorem State.onZone_zoneView (f : Zone → Zone) (s : State)
    (h : ∀ z, (f z).clearA = z.clearA ∧ (f z).clearB = z.clearB ∧ (f z).outFault = z.outFault ∧ (f z).wdog = z.wdog ∧
      (f z).pulseA = z.pulseA ∧ (f z).pulseB = z.pulseB) : (s.onZone f).zoneView = s.zoneView := by
  simp [State.zoneView, h]
@[simp] theorem State.onSets_zoneView (f : Sets → Sets) (s : State) : (s.onSets f).zoneView = s.zoneView := by rfl
@[simp] theorem State.onFabric_zoneView (f : Fabric → Fabric) (s : State) : (s.onFabric f).zoneView = s.zoneView := by rfl
@[simp] theorem State.onAngle_zoneView (f : Angle → Angle) (s : State) : (s.onAngle f).zoneView = s.zoneView := by rfl
@[simp] theorem State.onMotion_zoneView (f : Motion → Motion) (s : State) : (s.onMotion f).zoneView = s.zoneView := by rfl
@[simp] theorem State.onAux_zoneView (f : Aux → Aux) (s : State) : (s.onAux f).zoneView = s.zoneView := by rfl
@[simp] theorem State.onNet_zoneView (f : Net → Net) (s : State) : (s.onNet f).zoneView = s.zoneView := by rfl
@[simp] theorem State.onIntegrity_zoneView (f : Integrity → Integrity) (s : State) :
    (s.onIntegrity f).zoneView = s.zoneView := by
  rfl
@[simp] theorem State.onHealth_zoneView (f : Health → Health) (s : State) : (s.onHealth f).zoneView = s.zoneView := by rfl
@[simp] theorem State.emit_zoneView (o : Out) (s : State) : (s.emit o).zoneView = s.zoneView := by rfl
@[simp] theorem State.freeNext_zoneView (s : State) : (s.freeNext).zoneView = s.zoneView := by rfl
@[simp] theorem State.onQueue_zoneView (q : Nat) (f : Queue → Queue) (s : State) : (s.onQueue q f).zoneView = s.zoneView := by
  rfl
@[simp] theorem State.onJournal_zoneView (f : Journal → Journal) (s : State) : (s.onJournal f).zoneView = s.zoneView := by rfl
@[simp] theorem State.onEmitter_zoneView (e : Nat) (f : Emitter → Emitter) (s : State) :
    (s.onEmitter e f).zoneView = s.zoneView := by
  rfl
@[simp] theorem State.onChannel_zoneView (c : Nat) (f : Channel → Channel) (s : State) :
    (s.onChannel c f).zoneView = s.zoneView := by
  rfl
@[simp] theorem State.onTile_zoneView (t : Nat) (f : Tile → Tile) (s : State) : (s.onTile t f).zoneView = s.zoneView := by rfl
@[simp] theorem State.onStream_zoneView (n : Nat) (f : Stream → Stream) (s : State) :
    (s.onStream n f).zoneView = s.zoneView := by
  rfl
@[simp] theorem State.onRejection_zoneView (t : Nat) (f : Rejection → Rejection) (s : State) :
    (s.onRejection t f).zoneView = s.zoneView := by rfl
@[simp] theorem State.onEngine_zoneView (g : Nat) (f : Engine → Engine) (s : State) :
    (s.onEngine g f).zoneView = s.zoneView := by
  rfl
@[simp] theorem State.onLoop_zoneView (n : Nat) (f : Loop → Loop) (s : State) : (s.onLoop n f).zoneView = s.zoneView := by rfl
@[simp] theorem State.onPort_zoneView (p : Nat) (f : Port → Port) (s : State) : (s.onPort p f).zoneView = s.zoneView := by rfl
@[simp] theorem State.onLane_zoneView (n : Nat) (f : Lane → Lane) (s : State) : (s.onLane n f).zoneView = s.zoneView := by rfl
@[simp] theorem State.onFe_zoneView (n : Nat) (f : FrontEndCal → FrontEndCal) (s : State) :
    (s.onFe n f).zoneView = s.zoneView := by
  rfl
@[simp] theorem State.onDomain_zoneView (d : Domain) (f : DomainState → DomainState) (s : State) :
    (s.onDomain d f).zoneView = s.zoneView := by rfl
@[simp] theorem State.post_zoneView (r : Reply) (s : State) : (s.post r).zoneView = s.zoneView := by rfl
@[simp] theorem State.recordDup_zoneView (q : Nat) (d : DupRec) (s : State) : (s.recordDup q d).zoneView = s.zoneView := by rfl
@[simp] theorem State.updateDup_zoneView (q seq tr : Nat) (f : DupRec → DupRec) (s : State) :
    (s.updateDup q seq tr f).zoneView = s.zoneView := by rfl
@[simp] theorem State.applied_zoneView (o : Obj) (c : Cmd) (b : StatusBlock) (s : State) :
    (s.applied o c b).zoneView = s.zoneView := by rfl
@[simp] theorem State.setPending_zoneView (o : Obj) (c : Cmd) (s : State) : (s.setPending o c).zoneView = s.zoneView := by rfl
@[simp] theorem State.onLive_zoneView (c : Cmd) (f : Live → Live) (s : State) : (s.onLive c f).zoneView = s.zoneView := by
  unfold State.onLive; split <;> simp
@[simp] theorem State.recordDone_zoneView (c : Cmd) (r : Reply) (s : State) : (s.recordDone c r).zoneView = s.zoneView := by
  unfold State.recordDone; split <;> simp
@[simp] theorem State.finishWith_zoneView (op : Nat) (c : Cmd) (b : StatusBlock) (d : List Byte) (s : State) :
    (s.finishWith op c b d).zoneView = s.zoneView := by simp [State.finishWith]
@[simp] theorem State.finish_zoneView (op : Nat) (c : Cmd) (st det res : Nat) (d : List Byte) (s : State) :
    (s.finish op c st det res d).zoneView = s.zoneView := by simp [State.finish]
@[simp] theorem State.done_zoneView (op : Nat) (c : Cmd) (res : Nat) (s : State) : (s.done op c res).zoneView = s.zoneView := by
  simp [State.done]
@[simp] theorem State.doneOn_zoneView (op : Nat) (o : Obj) (c : Cmd) (res : Nat) (s : State) :
    (s.doneOn op o c res).zoneView = s.zoneView := by simp [State.doneOn]

/-! ### Choices, folds and rejections -/

/-- What a rejection by this opcode's checks leaves behind keeps the zone outputs as they are. -/
def OpInfo.KeepsZoneView (o : OpInfo) : Prop := ∀ c st d s, (o.rejected c st d s).zoneView = s.zoneView

/-- Most opcodes' rejections leave nothing behind. -/
theorem OpInfo.KeepsZoneView.of_plain {o : OpInfo} (h : o.rejected = fun _ _ _ s => s) : o.KeepsZoneView := by
  simp [OpInfo.KeepsZoneView, h]

@[simp] theorem zoneView_ite (p : Prop) [Decidable p] (s t : State) :
    (if p then s else t).zoneView = if p then s.zoneView else t.zoneView := apply_ite State.zoneView p s t

/-- A fold over the state keeps the zone outputs as they are when each of its steps does. -/
@[simp] theorem zoneView_foldl {α : Type} (f : State → α → State) (l : List α) (s : State)
    (h : ∀ t a, (f t a).zoneView = t.zoneView) : (l.foldl f s).zoneView = s.zoneView := by
  induction l generalizing s with
  | nil => rfl
  | cons a l ih => exact (ih _).trans (h s a)

/-- A fold over the state keeps the zone outputs safe when each of its steps does. -/
@[simp] theorem safe_foldl {α : Type} (f : State → α → State) (l : List α) (s : State)
    (h : ∀ t a, t.zoneView.Safe → (f t a).zoneView.Safe) (hs : s.zoneView.Safe) : (l.foldl f s).zoneView.Safe := by
  induction l generalizing s with
  | nil => exact hs
  | cons a l ih => exact ih _ (h s a hs)

/-- A fold over the state and what is gathered beside it. -/
theorem zoneView_foldl_fst {α β : Type} (f : State × β → α → State × β) (l : List α) (x : State × β)
    (h : ∀ y a, (f y a).1.zoneView = y.1.zoneView) : (l.foldl f x).1.zoneView = x.1.zoneView := by
  induction l generalizing x with
  | nil => rfl
  | cons a l ih => exact (ih _).trans (h x a)

/-! ### Shared operations -/

@[simp] theorem State.onUnit_zoneView (u : Nat) (f : CheckUnit → CheckUnit) (s : State) :
    (s.onUnit u f).zoneView = s.zoneView := by
  rfl
@[simp] theorem State.unitItem_zoneView (u : Nat) (bytes : List Byte) (s : State) :
    (s.unitItem u bytes).zoneView = s.zoneView := by
  rfl
@[simp] theorem State.unitLoads_zoneView (u running n : Nat) (s : State) : (s.unitLoads u running n).zoneView = s.zoneView := by
  rfl
@[simp] theorem State.snoop_zoneView (source : Nat) (bytes : List Byte) (s : State) :
    (s.snoop source bytes).zoneView = s.zoneView := by
  simp [State.snoop]
@[simp] theorem State.parkGalvo_zoneView (s : State) : s.parkGalvo.zoneView = s.zoneView := by rfl
@[simp] theorem State.notBegun_zoneView (c : Cmd) (s : State) : (s.notBegun c).zoneView = s.zoneView := by simp [State.notBegun]
@[simp] theorem State.failInside_zoneView (op : Nat) (c : Cmd) (s : State) : (s.failInside op c).zoneView = s.zoneView := by
  simp [State.failInside]
@[simp] theorem State.refuseRun_zoneView (o : OpInfo) (c : Cmd) (st d : Nat) (s : State) (hr : o.KeepsZoneView) :
    (s.refuseRun o c st d).zoneView = s.zoneView := by
  unfold State.refuseRun; split
  · simp [hr c st d s]
  · split <;> simp
@[simp] theorem State.run_zoneView (o : OpInfo) (c : Cmd) (eff : State → State) (s : State) (hr : o.KeepsZoneView)
    (h : ∀ t, (eff t).zoneView = t.zoneView) : (s.run o c eff).zoneView = s.zoneView := by
  unfold State.run; split
  · rfl
  · split
    · exact State.refuseRun_zoneView _ _ _ _ _ hr
    · simp [h]

@[simp] theorem State.run_safe (o : OpInfo) (c : Cmd) (eff : State → State) (s : State) (hr : o.KeepsZoneView)
    (h : ∀ t, t.zoneView.Safe → (eff t).zoneView.Safe) (hs : s.zoneView.Safe) : (s.run o c eff).zoneView.Safe := by
  unfold State.run; split
  · exact hs
  · split
    · rw [State.refuseRun_zoneView _ _ _ _ _ hr]; exact hs
    · exact h _ (by simpa using hs)

/-! ### Lanes, front ends and engines -/

@[simp] theorem State.onRegion_zoneView (row region : Nat) (f : MemRegion → MemRegion) (s : State) :
    (s.onRegion row region f).zoneView = s.zoneView := by rfl
@[simp] theorem State.noteLost_zoneView (row region word : Nat) (s : State) :
    (s.noteLost row region word).zoneView = s.zoneView := by
  rfl

/-! ### The maintenance arbiter's queue and the repair map -/

@[simp] theorem State.onArbiterQueue_zoneView (f : List Activity → List Activity) (s : State) :
    (s.onArbiterQueue f).zoneView = s.zoneView := by rfl
@[simp] theorem State.request_zoneView (a : Activity) (s : State) : (s.request a).zoneView = s.zoneView := by
  simp [State.request]
@[simp] theorem State.storeFor_zoneView (op id : Nat) (data : Option (List Byte)) (c : Cmd) (s : State) :
    (s.storeFor op id data c).zoneView = s.zoneView := by simp [State.storeFor]
@[simp] theorem State.storeAfter_zoneView (op id : Nat) (c : Cmd) (b : StatusBlock) (s : State) :
    (s.storeAfter op id c b).zoneView = s.zoneView := by simp [State.storeAfter]
@[simp] theorem State.deviceStore_zoneView (id : Nat) (s : State) : (s.deviceStore id).zoneView = s.zoneView := by
  simp [State.deviceStore]
@[simp] theorem State.claspStore_zoneView (s : State) : s.claspStore.zoneView = s.zoneView := by simp [State.claspStore]
@[simp] theorem State.storeMap_zoneView (s : State) : s.storeMap.zoneView = s.zoneView := by simp [State.storeMap]
@[simp] theorem State.onRepair_zoneView (f : RepairMap → RepairMap) (s : State) : (s.onRepair f).zoneView = s.zoneView := by rfl
@[simp] theorem State.trigger_zoneView (code scope target row : Nat) (s : State) :
    (s.trigger code scope target row).zoneView = s.zoneView := by simp [State.trigger]
@[simp] theorem State.feFailed_zoneView (ch : Nat) (s : State) : (s.feFailed ch).zoneView = s.zoneView := by
  simp [State.feFailed]
@[simp] theorem State.engineFailed_zoneView (g : Nat) (s : State) : (s.engineFailed g).zoneView = s.zoneView := by
  simp only [State.engineFailed]; split <;> simp
@[simp] theorem State.coreTrouble_zoneView (e row : Nat) (s : State) : (s.coreTrouble e row).zoneView = s.zoneView := by
  simp [State.coreTrouble]
@[simp] theorem State.rowTrouble_zoneView (bank row : Nat) (s : State) : (s.rowTrouble bank row).zoneView = s.zoneView := by
  simp [State.rowTrouble]
@[simp] theorem State.listedRow_zoneView (s : State) : s.listedRow.zoneView = s.zoneView := by
  unfold State.listedRow; split <;> simp

/-! ### Instants and angles -/

@[simp] theorem State.endSegment_zoneView (s : State) : s.endSegment.zoneView = s.zoneView := by rfl

/-! ### Admission figures -/

@[simp] theorem State.refreshPlan_zoneView (s : State) : s.refreshPlan.zoneView = s.zoneView := by rfl

/-! ### Sets and the engines they need -/

@[simp] theorem State.wakeDomain_zoneView (d : Domain) (s : State) : (s.wakeDomain d).zoneView = s.zoneView := by
  simp [State.wakeDomain]
@[simp] theorem State.decideSwap_zoneView (s : State) : s.decideSwap.zoneView = s.zoneView := by simp [State.decideSwap]

/-! ### The foreign-pulse tap and its trackers -/

@[simp] theorem State.offerStamp_zoneView (t : Nat) (p : List Byte) (x : Nat) (s : State) :
    (s.offerStamp t p x).zoneView = s.zoneView := by fun_cases State.offerStamp <;> simp +zetaDelta
@[simp] theorem State.mergeStamp_zoneView (t : Nat) (p : List Byte) (x : Nat) (s : State) :
    (s.mergeStamp t p x).zoneView = s.zoneView := by simp [State.mergeStamp]
@[simp] theorem State.releaseStamps_zoneView (t : Nat) (p : List Byte) (x : Nat) (s : State) :
    (s.releaseStamps t p x).zoneView = s.zoneView := by simp [State.releaseStamps]
@[simp] theorem State.tapStamp_zoneView (t : Nat) (p : List Byte) (x : TapStamp) (s : State) :
    (s.tapStamp t p x).zoneView = s.zoneView := by simp [State.tapStamp]
@[simp] theorem State.tap_zoneView (ch weight x : Nat) (shot : Option (Nat × Nat)) (s : State) :
    (s.tap ch weight x shot).zoneView = s.zoneView := by simp only [State.tap]; split <;> simp
@[simp] theorem State.idleTrackers_zoneView (s : State) : s.idleTrackers.zoneView = s.zoneView := by rfl

/-! ### Emitter outputs and the energy ledger -/

@[simp] theorem State.charge_zoneView (e de : Nat) (s : State) : (s.charge e de).zoneView = s.zoneView := by rfl
@[simp] theorem State.unreserve_zoneView (e q : Nat) (s : State) : (s.unreserve e q).zoneView = s.zoneView := by rfl
@[simp] theorem State.reserve_zoneView (e q : Nat) (s : State) : (s.reserve e q).zoneView = s.zoneView := by rfl
@[simp] theorem State.settle_zoneView (e : Nat) (s : State) : (s.settle e).zoneView = s.zoneView := by
  simp only [State.settle]; split <;> simp
@[simp] theorem State.settleAll_zoneView (s : State) : s.settleAll.zoneView = s.zoneView := by simp [State.settleAll]
@[simp] theorem State.parkOutput_zoneView (e : Nat) (s : State) : (s.parkOutput e).zoneView = s.zoneView := by
  simp only [State.parkOutput]; split <;> simp
@[simp] theorem State.holdOutput_zoneView (e : Nat) (s : State) : (s.holdOutput e).zoneView = s.zoneView := by
  simp [State.holdOutput]
@[simp] theorem State.endDirect_zoneView (e st det : Nat) (s : State) : (s.endDirect e st det).zoneView = s.zoneView := by
  unfold State.endDirect; split <;> simp
@[simp] theorem State.abandonFade_zoneView (e det : Nat) (running : Bool) (s : State) :
    (s.abandonFade e det running).zoneView = s.zoneView := by unfold State.abandonFade; split <;> simp
@[simp] theorem State.parkAll_zoneView (s : State) : s.parkAll.zoneView = s.zoneView := by simp [State.parkAll]
@[simp] theorem State.refreshSlots_zoneView (s : State) : s.refreshSlots.zoneView = s.zoneView :=
  zoneView_foldl _ _ _ fun _ _ => State.onEmitter_zoneView ..
@[simp] theorem State.onSlot_zoneView (e n : Nat) (f : Slot → Slot) (s : State) : (s.onSlot e n f).zoneView = s.zoneView := by
  rfl
@[simp] theorem State.eccFail_zoneView (e n : Nat) (s : State) : (s.eccFail e n).zoneView = s.zoneView := by rfl

/-! ### Histograms under accumulation -/

@[simp] theorem State.closeHist_zoneView (ch : Nat) (h : Hist) (s : State) : (s.closeHist ch h).zoneView = s.zoneView := by
  simp [State.closeHist]
@[simp] theorem State.updHist_zoneView (ch view cell epoch : Nat) (f : Hist → Hist) (s : State) :
    (s.updHist ch view cell epoch f).zoneView = s.zoneView := by simp only [State.updHist]; split <;> simp
@[simp] theorem State.dropShots_zoneView (chs : List Nat) (view cell epoch n : Nat) (s : State) :
    (s.dropShots chs view cell epoch n).zoneView = s.zoneView := by simp [State.dropShots]

/-! ### Protection fields -/

@[simp] theorem State.driveZones_safe (s : State) : s.driveZones.zoneView.Safe := by
  cases hc : s.zonesClear
  · simp [State.driveZones, State.zoneView, ZoneView.Safe, hc]
  · obtain ⟨h1, h2, h3⟩ : s.zone.outFault = false ∧ s.zone.wdog = false ∧ s.power.phase ≠ .pavane := by
      simp [State.zonesClear] at hc
      tauto
    simp [State.driveZones, State.zoneView, ZoneView.Safe, hc, h1, h2, h3]
@[simp] theorem State.onField_zoneView (n : Nat) (f : FieldRun → FieldRun) (s : State) :
    (s.onField n f).zoneView = s.zoneView := by
  simp [State.onField]
@[simp] theorem State.enterField_zoneView (n : Nat) (st : FieldState) (s : State) :
    (s.enterField n st).zoneView = s.zoneView := by
  simp [State.enterField]
@[simp] theorem State.decideCell_zoneView (n : Nat) (v : ViewDef) (j : Nat) (observed occupied : Bool) (near : Nat)
    (s : State) : (s.decideCell n v j observed occupied near).zoneView = s.zoneView := by
  simp only [State.decideCell]; split <;> simp
@[simp] theorem State.reachCell_zoneView (v : ViewDef) (j a : Nat) (s : State) : (s.reachCell v j a).zoneView = s.zoneView := by
  simp [State.reachCell]
@[simp] theorem State.missCell_zoneView (v : ViewDef) (a : Nat) (s : State) (j : Nat) :
    (s.missCell v a j).zoneView = s.zoneView := by
  simp [State.missCell]
@[simp] theorem State.startSweep_zoneView (b : Nat) (s : State) : (s.startSweep b).zoneView = s.zoneView := by rfl
@[simp] theorem State.breakSweep_safe (unseen : Nat → List Byte → Bool) (s : State) :
    (s.breakSweep unseen).zoneView.Safe := by simp [State.breakSweep]
@[simp] theorem State.sweepTo_safe (b : Nat) (s : State) (hs : s.zoneView.Safe) : (s.sweepTo b).zoneView.Safe := by
  unfold State.sweepTo; split <;> simp [hs]
@[simp] theorem State.loseSweep_safe (s : State) (hs : s.zoneView.Safe) : s.loseSweep.zoneView.Safe := by
  simp [hs, State.loseSweep]
@[simp] theorem State.tryField_zoneView (v : ViewDef) (n : Nat) (p : List Byte) (late : Bool) (x : State × ZoneCell) :
    (State.tryField v n p late x).1.zoneView = x.1.zoneView := by simp only [State.tryField]; split <;> simp
@[simp] theorem State.tryCell_zoneView (late : Bool) (z : ZoneCell) (s : State) :
    (State.tryCell late z s).1.zoneView = s.zoneView := by
  unfold State.tryCell; split
  · exact zoneView_foldl_fst _ _ _ fun x f => State.tryField_zoneView ..
  · rfl
@[simp] theorem State.keepCell_safe (z : ZoneCell) (s : State) : (s.keepCell z).zoneView.Safe := by
  simp [State.keepCell]
@[simp] theorem State.zoneArrives_safe (view cell epoch : Nat) (r : ZoneResult) (s : State) (hs : s.zoneView.Safe) :
    (s.zoneArrives view cell epoch r).zoneView.Safe := by unfold State.zoneArrives; split <;> simp [hs]
@[simp] theorem State.zoneDeadline_safe (z : ZoneCell) (s : State) (hs : s.zoneView.Safe) :
    (s.zoneDeadline z).zoneView.Safe := by
  simp [State.zoneDeadline]
@[simp] theorem State.openZoneCell_zoneView (v : ViewDef) (cell epoch last : Nat) (s : State) :
    (s.openZoneCell v cell epoch last).zoneView = s.zoneView := by simp [State.openZoneCell]
@[simp] theorem State.zoneShot_zoneView (view cell epoch t : Nat) (s : State) :
    (s.zoneShot view cell epoch t).zoneView = s.zoneView := by
  simp [State.zoneShot]

/-! ### Point frames and the release of chains -/

@[simp] theorem State.countDown_zoneView (p : Nat) (c : Bool) (s : State) : (s.countDown p c).zoneView = s.zoneView := by
  simp [State.countDown]
@[simp] theorem State.closeFrame_zoneView (n : Nat) (s : State) : (s.closeFrame n).zoneView = s.zoneView := by
  simp only [State.closeFrame]; split <;> simp
@[simp] theorem State.placeRecord_zoneView (n dev tick epoch : Nat) (s : State) (rec : List Byte) :
    (s.placeRecord n dev tick epoch rec).zoneView = s.zoneView := by unfold State.placeRecord; split <;> simp
@[simp] theorem State.releaseAmbient_zoneView (r : Release) (s : State) : (s.releaseAmbient r).zoneView = s.zoneView := by
  unfold State.releaseAmbient; split <;> simp
@[simp] theorem State.releaseOne_safe (r : Release) (s : State) (hs : s.zoneView.Safe) :
    (s.releaseOne r).zoneView.Safe := by
  simp only [State.releaseOne]
  repeat' split
  all_goals simp [hs]
@[simp] theorem State.flushReleases_safe (view fuel : Nat) (s : State) (hs : s.zoneView.Safe) :
    (s.flushReleases view fuel).zoneView.Safe := by
  induction fuel generalizing s with
  | zero => exact hs
  | succ k ih =>
    unfold State.flushReleases; split
    · split
      · exact ih _ (State.releaseOne_safe _ _ (by simpa using hs))
      · exact hs
    · exact hs
@[simp] theorem State.flushView_safe (view : Nat) (s : State) (hs : s.zoneView.Safe) :
    (s.flushView view).zoneView.Safe := by simp [hs, State.flushView]
@[simp] theorem State.settleRelease_zoneView (seq : Nat) (f : Release → Release) (s : State) :
    (s.settleRelease seq f).zoneView = s.zoneView := by simp [State.settleRelease]
@[simp] theorem State.abandonHist_safe (h : Hist) (s : State) (hs : s.zoneView.Safe) : (s.abandonHist h).zoneView.Safe := by
  simp only [State.abandonHist]; split <;> simp [hs]

/-! ### Opening and ending histograms; the inhibit network -/

@[simp] theorem State.freeBuffer_safe (ch buf : Nat) (s : State) (hs : s.zoneView.Safe) :
    (s.freeBuffer ch buf).zoneView.Safe := by
  simp only [State.freeBuffer]
  refine safe_foldl _ _ _ (fun _ h hs => State.abandonHist_safe h _ hs) ?_
  rw [State.onTile_zoneView]
  exact safe_foldl _ _ _ (fun s g hs => by split <;> simp [hs]) hs
@[simp] theorem State.endOlder_zoneView (ch : Nat) (s : State) : (s.endOlder ch).zoneView = s.zoneView := by
  simp [State.endOlder]
@[simp] theorem State.startHist_safe (v : ViewDef) (j epoch ch : Nat) (s : State) (hs : s.zoneView.Safe) :
    (s.startHist v j epoch ch).zoneView.Safe := by simp [hs, State.startHist]
@[simp] theorem State.onCell_zoneView (view cell : Nat) (f : OpenCell → OpenCell) (s : State) :
    (s.onCell view cell f).zoneView = s.zoneView := by simp [State.onCell]
@[simp] theorem State.ensureHist_safe (v : ViewDef) (j epoch ch : Nat) (s : State) (hs : s.zoneView.Safe) :
    (s.ensureHist v j epoch ch).zoneView.Safe := by simp [hs, State.ensureHist]
@[simp] theorem State.closeCellOn_safe (v : ViewDef) (c : OpenCell) (m : Nat) (s : State) (x : Nat × Nat) (hs : s.zoneView.Safe) :
    (s.closeCellOn v c m x).zoneView.Safe := by simp [hs, State.closeCellOn]
@[simp] theorem State.closeCell_safe (m : Nat) (s : State) (c : OpenCell) (hs : s.zoneView.Safe) :
    (s.closeCell m c).zoneView.Safe := by
  unfold State.closeCell; split <;> simp +contextual [hs]
@[simp] theorem State.abandonWindow_zoneView (ch : Nat) (s : State) : (s.abandonWindow ch).zoneView = s.zoneView := by
  simp [State.abandonWindow]
@[simp] theorem State.abandonWindows_zoneView (s : State) : s.abandonWindows.zoneView = s.zoneView := by
  simp [State.abandonWindows]
@[simp] theorem State.releaseDescriptor_zoneView (s : State) (d : Descriptor) :
    (s.releaseDescriptor d).zoneView = s.zoneView := by
  simp [State.releaseDescriptor]
@[simp] theorem State.inhibitNow_safe (cause : Nat) (s : State) (hs : s.zoneView.Safe) :
    (s.inhibitNow cause).zoneView.Safe := by
  simp +contextual [hs, State.inhibitNow]
@[simp] theorem State.registerCause_safe (cause : Nat) (s : State) (hs : s.zoneView.Safe) :
    (s.registerCause cause).zoneView.Safe := by
  simp [hs, State.registerCause]
@[simp] theorem State.clearCause_zoneView (cause : Nat) (s : State) : (s.clearCause cause).zoneView = s.zoneView := by
  simp [State.clearCause]
@[simp] theorem State.registerSource_safe (src : Nat) (s : State) (hs : s.zoneView.Safe) :
    (s.registerSource src).zoneView.Safe := by
  simp [hs, State.registerSource]
@[simp] theorem State.clearSource_zoneView (src : Nat) (s : State) : (s.clearSource src).zoneView = s.zoneView := by
  simp [State.clearSource]
@[simp] theorem State.endGroup_zoneView (ch : Nat) (s : State) (h : Hist) : (s.endGroup ch h).zoneView = s.zoneView := by
  simp [State.endGroup]
@[simp] theorem State.endGroupsIf_zoneView (ends : Hist → Bool) (s : State) : (s.endGroupsIf ends).zoneView = s.zoneView := by
  simp [State.endGroupsIf]
@[simp] theorem State.endGroups_zoneView (s : State) : s.endGroups.zoneView = s.zoneView := State.endGroupsIf_zoneView ..
@[simp] theorem State.endPassed_zoneView (a d : Nat) (s : State) :
    (s.endPassed a d).zoneView = s.zoneView := State.endGroupsIf_zoneView ..
@[simp] theorem State.sweepNow_safe (s : State) (hs : s.zoneView.Safe) : s.sweepNow.zoneView.Safe := by
  unfold State.sweepNow; split <;> simp [hs]
@[simp] theorem State.restamp_zoneView (s : State) : s.restamp.zoneView = s.zoneView := by simp [State.restamp]
@[simp] theorem State.speedRule_safe (s : State) (hs : s.zoneView.Safe) : s.speedRule.zoneView.Safe := by
  simp [hs, State.speedRule]
@[simp] theorem State.followAngle_safe (s : State) (hs : s.zoneView.Safe) : s.followAngle.zoneView.Safe := by
  simp [hs, State.followAngle]

/-! ### Windows -/

@[simp] theorem State.overflow_zoneView (ch : Nat) (s : State) : (s.overflow ch).zoneView = s.zoneView := by
  simp [State.overflow]
@[simp] theorem State.countNear_zoneView (e : Nat) (s : State) : (s.countNear e).zoneView = s.zoneView := by rfl
@[simp] theorem State.placeEvent_zoneView (ch : Nat) (interval : Int) (weight : Nat) (s : State) :
    (s.placeEvent ch interval weight).zoneView = s.zoneView := by fun_cases State.placeEvent <;> simp +zetaDelta
@[simp] theorem State.eventAt_zoneView (ch : Nat) (tau : Int) (weight : Nat) (s : State) :
    (s.eventAt ch tau weight).zoneView = s.zoneView := by fun_cases State.eventAt <;> simp +zetaDelta
@[simp] theorem State.sendAmbient_zoneView (ch span : Nat) (ovf : Bool) (s : State) :
    (s.sendAmbient ch span ovf).zoneView = s.zoneView := by simp [State.sendAmbient]
@[simp] theorem State.totSample_zoneView (ch tot : Nat) (s : State) : (s.totSample ch tot).zoneView = s.zoneView := by
  simp [State.totSample]
@[simp] theorem State.endEdge_zoneView (ch tot : Nat) (s : State) : (s.endEdge ch tot).zoneView = s.zoneView := by
  simp only [State.endEdge]; split <;> simp
@[simp] theorem State.flushEdge_zoneView (ch : Nat) (s : State) : (s.flushEdge ch).zoneView = s.zoneView := by
  unfold State.flushEdge; split <;> simp
@[simp] theorem State.endAmbient_zoneView (ch t : Nat) (ovf : Bool) (s : State) :
    (s.endAmbient ch t ovf).zoneView = s.zoneView := by
  simp [State.endAmbient]
@[simp] theorem State.endRange_zoneView (ch t : Nat) (cut fault : Bool) (s : State) :
    (s.endRange ch t cut fault).zoneView = s.zoneView := by fun_cases State.endRange <;> simp +zetaDelta
@[simp] theorem State.stopRange_zoneView (ch t : Nat) (cut fault : Bool) (s : State) :
    (s.stopRange ch t cut fault).zoneView = s.zoneView := by simp [State.stopRange]
@[simp] theorem State.endEarlier_zoneView (ch : Nat) (s : State) : (s.endEarlier ch).zoneView = s.zoneView := by
  unfold State.endEarlier; split <;> simp
@[simp] theorem State.placeSkid_zoneView (ch : Nat) (value : Int) (s : State) :
    (s.placeSkid ch value).zoneView = s.zoneView := by
  simp [State.placeSkid]
@[simp] theorem State.resolveOpen_zoneView (ch : Nat) (value : Int) (st : T0Status) (s : State) :
    (s.resolveOpen ch value st).zoneView = s.zoneView := by simp only [State.resolveOpen]; split <;> simp
@[simp] theorem State.resolveClosing_zoneView (ch : Nat) (value : Int) (st : T0Status) (w : Window) (s : State) :
    (s.resolveClosing ch value st w).zoneView = s.zoneView := by simp only [State.resolveClosing]; split <;> simp
@[simp] theorem State.resolveOn_zoneView (e t0 : Nat) (value : Int) (st : T0Status) (s : State) (ch : Nat) :
    (s.resolveOn e t0 value st ch).zoneView = s.zoneView := by simp only [State.resolveOn]; split <;> simp
@[simp] theorem State.resolveT0_zoneView (e t0 : Nat) (value : Int) (st : T0Status) (s : State) :
    (s.resolveT0 e t0 value st).zoneView = s.zoneView := by simp [State.resolveT0]
@[simp] theorem State.noWindow_zoneView (ch : Nat) (d : Descriptor) (s : State) : (s.noWindow ch d).zoneView = s.zoneView := by
  simp [State.noWindow]
@[simp] theorem State.takeDnl_zoneView (f : Nat) (s : State) : (s.takeDnl f).zoneView = s.zoneView := by
  unfold State.takeDnl; split <;> simp
@[simp] theorem State.openWindow_safe (v : ViewDef) (d : Descriptor) (s : State) (ch : Nat) (hs : s.zoneView.Safe) :
    (s.openWindow v d ch).zoneView.Safe := by simp [hs, State.openWindow]
@[simp] theorem State.mergeHeader_zoneView (ch : Nat) (w : Window) (s : State) :
    (s.mergeHeader ch w).zoneView = s.zoneView := by
  simp [State.mergeHeader]
@[simp] theorem State.mergeHeaders_zoneView (ch fuel : Nat) (s : State) : (s.mergeHeaders ch fuel).zoneView = s.zoneView := by
  induction fuel generalizing s with
  | zero => rfl
  | succ k ih => unfold State.mergeHeaders; split <;> simp [ih]
@[simp] theorem State.countRecords_zoneView (ch : Nat) (w : Window) (rs : List (Nat × Nat)) (s : State) :
    (s.countRecords ch w rs).zoneView = s.zoneView := by unfold State.countRecords; split <;> simp

/-! ### Shot events -/

@[simp] theorem State.setLfsr_zoneView (view x : Nat) (s : State) : (s.setLfsr view x).zoneView = s.zoneView := by
  simp [State.setLfsr]
@[simp] theorem State.loadLfsr_zoneView (old : ConfigSet) (epoch : Nat) (s : State) (v : ViewDef) :
    (s.loadLfsr old epoch v).zoneView = s.zoneView := by simp [State.loadLfsr]
@[simp] theorem State.setLastBase_zoneView (view t : Nat) (s : State) : (s.setLastBase view t).zoneView = s.zoneView := by rfl
@[simp] theorem State.beginCell_zoneView (v : ViewDef) (j epoch : Nat) (s : State) :
    (s.beginCell v j epoch).zoneView = s.zoneView := by
  simp [State.beginCell]
@[simp] theorem State.blockedCell_safe (v : ViewDef) (j base : Nat) (s : State) (hs : s.zoneView.Safe) :
    (s.blockedCell v j base).zoneView.Safe := by
  simp only [State.blockedCell]; split <;> simp [hs]
@[simp] theorem State.endCell_safe (v : ViewDef) (j : Nat) (s : State) (hs : s.zoneView.Safe) :
    (s.endCell v j).zoneView.Safe := by
  unfold State.endCell; split <;> simp +contextual [hs]
@[simp] theorem State.shortfall_safe (v : ViewDef) (j e : Nat) (s : State) (hs : s.zoneView.Safe) :
    (s.shortfall v j e).zoneView.Safe := by
  unfold State.shortfall; split <;> simp [hs]
@[simp] theorem State.countSkip_zoneView (e : Nat) (r : Skip) (s : State) : (s.countSkip e r).zoneView = s.zoneView := by
  unfold State.countSkip; split <;> simp
@[simp] theorem State.planShot_safe (v : ViewDef) (c : OpenCell) (e k base : Nat) (s : State) (hs : s.zoneView.Safe) :
    (s.planShot v c e k base).zoneView.Safe := by fun_cases State.planShot <;> simp +zetaDelta [hs]
@[simp] theorem State.planNext_safe (c : OpenCell) (s : State) (hs : s.zoneView.Safe) : (s.planNext c).zoneView.Safe := by
  fun_cases State.planNext <;> simp +zetaDelta [hs]
@[simp] theorem State.brokenCell_safe (v : ViewDef) (j base : Nat) (s : State) (hs : s.zoneView.Safe) :
    (s.brokenCell v j base).zoneView.Safe := by
  simp only [State.brokenCell]; split <;> simp [hs]
@[simp] theorem State.planBlocked_safe (view cell : Nat) (s : State) (hs : s.zoneView.Safe) :
    (s.planBlocked view cell).zoneView.Safe := by
  fun_cases State.planBlocked <;> simp +zetaDelta [hs]
@[simp] theorem State.planFirst_safe (view cell : Nat) (s : State) (hs : s.zoneView.Safe) :
    (s.planFirst view cell).zoneView.Safe := by
  fun_cases State.planFirst <;> simp +zetaDelta [hs]
@[simp] theorem shotPlan_safe (view cell : Nat) (s : State) (hs : s.zoneView.Safe) :
    (shotPlan view cell s).zoneView.Safe := by
  fun_cases shotPlan <;> simp +zetaDelta [hs]
@[simp] theorem State.registerLedger_safe (row window : Nat) (s : State) (hs : s.zoneView.Safe) :
    (s.registerLedger row window).zoneView.Safe := by
  simp [hs, State.registerLedger]
@[simp] theorem State.tryClearLedger_zoneView (s : State) : s.tryClearLedger.zoneView = s.zoneView := by
  simp [State.tryClearLedger]
@[simp] theorem State.dropDescriptor_safe (d : Descriptor) (s : State) (hs : s.zoneView.Safe) :
    (s.dropDescriptor d).zoneView.Safe := by
  simp only [State.dropDescriptor]; split <;> simp [hs]
@[simp] theorem State.barEntry_zoneView (d : Descriptor) (s : State) : (s.barEntry d).zoneView = s.zoneView := by rfl
@[simp] theorem shotFix_safe (e : Nat) (s : State) (hs : s.zoneView.Safe) : (shotFix e s).zoneView.Safe := by
  fun_cases shotFix
  case case7 =>
    simp +zetaDelta only [State.onSched_zoneView]
    split <;> simp +contextual [hs]
  all_goals simp +zetaDelta +contextual [hs]
@[simp] theorem windowStart_safe (e : Nat) (s : State) (hs : s.zoneView.Safe) : (windowStart e s).zoneView.Safe := by
  fun_cases windowStart <;> simp +zetaDelta +contextual [hs]
@[simp] theorem State.markLane_zoneView (n : Nat) (c : CalState) (of : Window → Bool) (s : State) :
    (s.markLane n c of).zoneView = s.zoneView := by simp [State.markLane]
@[simp] theorem calAccept_zoneView (n : Nat) (ones twos : List Nat) (fes : List (Nat × Nat)) (s : State) :
    (calAccept n ones twos fes s).zoneView = s.zoneView := by simp [calAccept]
@[simp] theorem laneStale_zoneView (n : Nat) (s : State) : (laneStale n s).zoneView = s.zoneView := by simp [laneStale]
@[simp] theorem State.channelOut_zoneView (s : State) (ch : Nat) : (s.channelOut ch).zoneView = s.zoneView := by
  simp [State.channelOut]
@[simp] theorem laneFailed_zoneView (n : Nat) (s : State) : (laneFailed n s).zoneView = s.zoneView := by simp [laneFailed]
@[simp] theorem laneWarmupDone_zoneView (n : Nat) (s : State) : (laneWarmupDone n s).zoneView = s.zoneView := by
  simp [laneWarmupDone]
@[simp] theorem State.warmLane_zoneView (s : State) (n : Nat) : (s.warmLane n).zoneView = s.zoneView := by rfl
@[simp] theorem threshReadback_zoneView (ch code : Nat) (s : State) : (threshReadback ch code s).zoneView = s.zoneView := by
  simp [threshReadback]
@[simp] theorem blankingRelease_zoneView (ch : Nat) (high : Bool) (s : State) :
    (blankingRelease ch high s).zoneView = s.zoneView := by
  simp [blankingRelease]
@[simp] theorem State.startWindow_zoneView (d : Descriptor) (v : ViewDef) (s : State) (ch : Nat) :
    (s.startWindow d v ch).zoneView = s.zoneView := by simp [State.startWindow]
@[simp] theorem State.noteSlotEcc_zoneView (e : Nat) (s : State) : (s.noteSlotEcc e).zoneView = s.zoneView := by
  unfold State.noteSlotEcc; split <;> simp
@[simp] theorem State.noteWaveLost_zoneView (e slot : Nat) (s : State) : (s.noteWaveLost e slot).zoneView = s.zoneView := by
  unfold State.noteWaveLost; split <;> simp
@[simp] theorem State.unreadable_zoneView (d : Descriptor) (v : ViewDef) (s : State) :
    (s.unreadable d v).zoneView = s.zoneView := by
  simp [State.unreadable]
@[simp] theorem State.t0Measured_zoneView (x : T0Shot) (tau : Int) (charge : Nat) (s : State) :
    (s.t0Measured x tau charge).zoneView = s.zoneView := by simp -implicitDefEqProofs [State.t0Measured]
@[simp] theorem State.t0Stamped_zoneView (x : T0Shot) (tau : Int) (charge : Nat) (s : State) :
    (s.t0Stamped x tau charge).zoneView = s.zoneView := by simp [State.t0Stamped]
@[simp] theorem t0InEdge_zoneView (coarse raw charge : Nat) (s : State) :
    (t0InEdge coarse raw charge s).zoneView = s.zoneView := by
  fun_cases t0InEdge <;> simp +zetaDelta
@[simp] theorem t0Timeout_zoneView (e : Nat) (s : State) : (t0Timeout e s).zoneView = s.zoneView := by
  simp only [t0Timeout]
  repeat' split
  all_goals simp -implicitDefEqProofs
@[simp] theorem State.t0Overdue_zoneView (s : State) : s.t0Overdue.zoneView = s.zoneView := by simp [State.t0Overdue]
@[simp] theorem State.fire_zoneView (d : Descriptor) (v : ViewDef) (s : State) : (s.fire d v).zoneView = s.zoneView := by
  simp -implicitDefEqProofs [State.fire]
@[simp] theorem shotFire_safe (e : Nat) (eccBad : Bool) (s : State) (hs : s.zoneView.Safe) :
    (shotFire e eccBad s).zoneView.Safe := by
  fun_cases shotFire <;> simp +zetaDelta [hs]
@[simp] theorem slotEnd_zoneView (e : Nat) (s : State) : (slotEnd e s).zoneView = s.zoneView := by
  unfold slotEnd; split <;> simp
@[simp] theorem histogramRangeEnd_zoneView (ch : Nat) (s : State) : (histogramRangeEnd ch s).zoneView = s.zoneView := by
  simp [histogramRangeEnd]
@[simp] theorem ambientSpanEnd_zoneView (ch : Nat) (s : State) : (ambientSpanEnd ch s).zoneView = s.zoneView := by
  simp [ambientSpanEnd]
@[simp] theorem coarseOvf_zoneView (ch : Nat) (s : State) : (coarseOvf ch s).zoneView = s.zoneView := by simp [coarseOvf]
@[simp] theorem State.acceptEdge_zoneView (ch stamp : Nat) (s : State) : (s.acceptEdge ch stamp).zoneView = s.zoneView := by rfl
@[simp] theorem State.untimedEdge_zoneView (ch : Nat) (ph : WinPhase) (s : State) :
    (s.untimedEdge ch ph).zoneView = s.zoneView := by
  unfold State.untimedEdge; split <;> simp
@[simp] theorem State.timedEdge_zoneView (ch : Nat) (tau f : Int) (s : State) :
    (s.timedEdge ch tau f).zoneView = s.zoneView := by
  simp [State.timedEdge]
@[simp] theorem discriminatorEdge_zoneView (ch coarse raw : Nat) (s : State) :
    (discriminatorEdge ch coarse raw s).zoneView = s.zoneView := by fun_cases discriminatorEdge <;> simp +zetaDelta
@[simp] theorem discriminatorFall_zoneView (ch tot : Nat) (s : State) : (discriminatorFall ch tot s).zoneView = s.zoneView := by
  simp [discriminatorFall]
@[simp] theorem longHigh_zoneView (ch : Nat) (s : State) : (longHigh ch s).zoneView = s.zoneView := by simp [longHigh]
@[simp] theorem State.noteEcc_zoneView (ch buf : Nat) (fs : List EccFault) (s : State) :
    (s.noteEcc ch buf fs).zoneView = s.zoneView := by
  unfold State.noteEcc
  rw [zoneView_foldl _ _ _ fun s f => by split <;> simp, State.onTile_zoneView]
@[simp] theorem State.ingressEcc_zoneView (ch : Nat) (w : Window) (rs : List (Nat × Nat)) (faults : List EccFault)
    (s : State) : (s.ingressEcc ch w rs faults).zoneView = s.zoneView := by unfold State.ingressEcc; split <;> simp
@[simp] theorem ingressEntry_zoneView (ch : Nat) (parityBad : Bool) (faults : List EccFault) (s : State) :
    (ingressEntry ch parityBad faults s).zoneView = s.zoneView := by simp only [ingressEntry]; split <;> simp
@[simp] theorem trailerMerge_zoneView (ch : Nat) (s : State) : (trailerMerge ch s).zoneView = s.zoneView := by
  simp only [trailerMerge]; split <;> simp
@[simp] theorem nearFieldRegister_safe (e : Nat) (s : State) (hs : s.zoneView.Safe) :
    (nearFieldRegister e s).zoneView.Safe := by
  fun_cases nearFieldRegister <;> simp +zetaDelta [hs]
@[simp] theorem nearFieldClear_zoneView (s : State) : (nearFieldClear s).zoneView = s.zoneView := by simp [nearFieldClear]
@[simp] theorem nfSectorRelease_zoneView (i : Nat) (s : State) : (nfSectorRelease i s).zoneView = s.zoneView := by
  unfold nfSectorRelease; split <;> simp

/-! ### The emission chapter -/

@[simp] theorem waveLoadEffect_zoneView (c : Cmd) (s : State) : (waveLoadEffect c s).zoneView = s.zoneView := by
  simp [waveLoadEffect]
@[simp] theorem State.writeSlot_zoneView (e n : Nat) (k : Slot) (s : State) : (s.writeSlot e n k).zoneView = s.zoneView := by
  simp [State.writeSlot]
@[simp] theorem waveTransfer_zoneView (e n : Nat) (s : State) : (waveTransfer e n s).zoneView = s.zoneView := by
  unfold waveTransfer; split <;> simp
@[simp] theorem waveReadEffect_zoneView (c : Cmd) (s : State) : (waveReadEffect c s).zoneView = s.zoneView := by
  simp [waveReadEffect]
@[simp] theorem waveFadeEffect_zoneView (c : Cmd) (s : State) : (waveFadeEffect c s).zoneView = s.zoneView := by rfl
@[simp] theorem fadeCopy_zoneView (e : Nat) (s : State) : (fadeCopy e s).zoneView = s.zoneView := by
  unfold fadeCopy; split <;> simp
@[simp] theorem parkSetEffect_zoneView (c : Cmd) (s : State) : (parkSetEffect c s).zoneView = s.zoneView := by
  simp [parkSetEffect]
@[simp] theorem State.setPark_zoneView (ch code : Nat) (s : State) : (s.setPark ch code).zoneView = s.zoneView := by
  simp [State.setPark]
@[simp] theorem State.supersede_zoneView (e : Nat) (s : State) : (s.supersede e).zoneView = s.zoneView := by
  unfold State.supersede; split <;> simp
@[simp] theorem emitDirectStart_zoneView (c : Cmd) (s : State) : (emitDirectStart c s).zoneView = s.zoneView := by
  simp [emitDirectStart]
@[simp] theorem emitDirectPark_zoneView (c : Cmd) (s : State) : (emitDirectPark c s).zoneView = s.zoneView := by
  simp [emitDirectPark]
@[simp] theorem emitDirectEffect_zoneView (c : Cmd) (s : State) : (emitDirectEffect c s).zoneView = s.zoneView := by
  simp [emitDirectEffect]
@[simp] theorem directPlayEnd_zoneView (e : Nat) (s : State) : (directPlayEnd e s).zoneView = s.zoneView := by
  unfold directPlayEnd; split <;> simp
@[simp] theorem directPlayLedgerLimit_safe (e : Nat) (s : State) (hs : s.zoneView.Safe) :
    (directPlayLedgerLimit e s).zoneView.Safe := by
  fun_cases directPlayLedgerLimit <;> simp +zetaDelta [hs]
@[simp] theorem State.barStarted_zoneView (e : Nat) (s : State) : (s.barStarted e).zoneView = s.zoneView := by
  simp [State.barStarted]
@[simp] theorem State.dropFixed_safe (r : Skip) (s : State) (d : Descriptor) (hs : s.zoneView.Safe) :
    (s.dropFixed r d).zoneView.Safe := by
  simp [hs, State.dropFixed]
@[simp] theorem State.dropCurrent_safe (e : Nat) (r : Skip) (s : State) (hs : s.zoneView.Safe) :
    (s.dropCurrent e r).zoneView.Safe := by
  fun_cases State.dropCurrent <;> simp +zetaDelta [hs]
@[simp] theorem State.dropShotsOf_safe (e : Nat) (r : Skip) (s : State) (hs : s.zoneView.Safe) :
    (s.dropShotsOf e r).zoneView.Safe := by
  exact State.dropCurrent_safe _ _ _ (safe_foldl _ _ _ (fun _ _ h => State.dropFixed_safe _ _ _ h) hs)
@[simp] theorem State.faultEmitter_safe (e : Nat) (s : State) (hs : s.zoneView.Safe) :
    (s.faultEmitter e).zoneView.Safe := by
  simp [hs, State.faultEmitter]
@[simp] theorem emitterShort_safe (e : Nat) (s : State) (hs : s.zoneView.Safe) : (emitterShort e s).zoneView.Safe := by
  simp [hs, emitterShort]
@[simp] theorem ledgerBucketEdge_zoneView (w : Nat) (s : State) : (ledgerBucketEdge w s).zoneView = s.zoneView := by
  simp [ledgerBucketEdge]
@[simp] theorem State.onUnlock_zoneView (f : Unlock → Unlock) (s : State) : (s.onUnlock f).zoneView = s.zoneView := by rfl
@[simp] theorem unlockRejected_zoneView (c : Cmd) (st det : Nat) (s : State) :
    (unlockRejected c st det s).zoneView = s.zoneView := by
  simp [unlockRejected]
@[simp] theorem unlockDraw_zoneView (c : Cmd) (s : State) : (unlockDraw c s).zoneView = s.zoneView := by simp [unlockDraw]
@[simp] theorem State.takeResponse_zoneView (s : State) : s.takeResponse.zoneView = s.zoneView := by rfl
@[simp] theorem unlockOpenNow_zoneView (c : Cmd) (s : State) : (unlockOpenNow c s).zoneView = s.zoneView := by
  simp [unlockOpenNow]
@[simp] theorem unlockEffect_zoneView (c : Cmd) (s : State) : (unlockEffect c s).zoneView = s.zoneView := by simp [unlockEffect]
@[simp] theorem unlockExpire_zoneView (s : State) : (unlockExpire s).zoneView = s.zoneView := by simp [unlockExpire]
@[simp] theorem unlockLockoutEnd_zoneView (s : State) : (unlockLockoutEnd s).zoneView = s.zoneView := by simp [unlockLockoutEnd]
@[simp] theorem State.useUnlock_zoneView (s : State) : s.useUnlock.zoneView = s.zoneView := by rfl
@[simp] theorem ledgerWriteEffect_zoneView (c : Cmd) (s : State) : (ledgerWriteEffect c s).zoneView = s.zoneView := by
  simp [ledgerWriteEffect]
@[simp] theorem State.forbidEmitter_safe (s : State) (e : Nat) (hs : s.zoneView.Safe) :
    (s.forbidEmitter e).zoneView.Safe := by
  simp [hs, State.forbidEmitter]
@[simp] theorem State.installLedger_safe (t : List Byte) (gen : Nat) (s : State) (hs : s.zoneView.Safe) :
    (s.installLedger t gen).zoneView.Safe := by
  have hforbid (t : State) (l : List Nat) (ht : t.zoneView.Safe) : (l.foldl State.forbidEmitter t).zoneView.Safe :=
    safe_foldl _ _ _ (fun _ _ h => State.forbidEmitter_safe _ _ h) ht
  simp only [State.installLedger]
  split <;> simp [hs, hforbid]
@[simp] theorem ledgerReadEffect_zoneView (c : Cmd) (s : State) : (ledgerReadEffect c s).zoneView = s.zoneView := by
  simp [ledgerReadEffect]
@[simp] theorem State.clearEmission_zoneView (mask emitters : Nat) (s : State) :
    (s.clearEmission mask emitters).zoneView = s.zoneView := by simp -implicitDefEqProofs [State.clearEmission]
@[simp] theorem emitStatusEffect_zoneView (c : Cmd) (s : State) : (emitStatusEffect c s).zoneView = s.zoneView := by
  simp [emitStatusEffect]
@[simp] theorem emitEnEdge_safe (a b : Bool) (s : State) (hs : s.zoneView.Safe) : (emitEnEdge a b s).zoneView.Safe := by
  simp [hs, emitEnEdge]
@[simp] theorem emitEnClear_zoneView (s : State) : (emitEnClear s).zoneView = s.zoneView := by simp [emitEnClear]
@[simp] theorem enDiscrepancy_zoneView (s : State) : (enDiscrepancy s).zoneView = s.zoneView := by simp [enDiscrepancy]
@[simp] theorem enDiscrepancyClear_zoneView (s : State) : (enDiscrepancyClear s).zoneView = s.zoneView := by
  simp [enDiscrepancyClear]
@[simp] theorem speedLowClear_zoneView (s : State) : (speedLowClear s).zoneView = s.zoneView := by simp [speedLowClear]
@[simp] theorem State.onReservoir_zoneView (k : Nat) (f : Reservoir → Reservoir) (s : State) :
    (s.onReservoir k f).zoneView = s.zoneView := by rfl
@[simp] theorem resConfigEffect_zoneView (c : Cmd) (s : State) : (resConfigEffect c s).zoneView = s.zoneView := by
  simp [resConfigEffect]
@[simp] theorem resMonSample_zoneView (k mv : Nat) (s : State) : (resMonSample k mv s).zoneView = s.zoneView := by
  simp [resMonSample]
@[simp] theorem resOver_safe (k : Nat) (s : State) (hs : s.zoneView.Safe) : (resOver k s).zoneView.Safe := by simp [hs, resOver]
@[simp] theorem resLow_zoneView (k : Nat) (s : State) : (resLow k s).zoneView = s.zoneView := by simp [resLow]

/-! ### Power domains -/

@[simp] theorem State.refreshDomains_zoneView (s : State) : s.refreshDomains.zoneView = s.zoneView := by
  simp [State.refreshDomains]
@[simp] theorem State.refreshChannels_zoneView (s : State) : s.refreshChannels.zoneView = s.zoneView := by
  simp -implicitDefEqProofs [State.refreshChannels]
@[simp] theorem State.laneOff_zoneView (s : State) (n : Nat) : (s.laneOff n).zoneView = s.zoneView := by simp [State.laneOff]
@[simp] theorem domainWakeStart_zoneView (d : Domain) (s : State) : (domainWakeStart d s).zoneView = s.zoneView := by
  unfold domainWakeStart; split <;> simp
@[simp] theorem State.domainUp_zoneView (d : Domain) (s : State) : (s.domainUp d).zoneView = s.zoneView := by
  fun_cases State.domainUp <;> simp +zetaDelta
@[simp] theorem domainSettled_zoneView (d : Domain) (s : State) : (domainSettled d s).zoneView = s.zoneView := by
  fun_cases domainSettled <;> simp +zetaDelta
@[simp] theorem State.domainDown_zoneView (d : Domain) (s : State) : (s.domainDown d).zoneView = s.zoneView := by
  fun_cases State.domainDown <;> simp +zetaDelta
@[simp] theorem domainSleep_zoneView (d : Domain) (s : State) : (domainSleep d s).zoneView = s.zoneView := by
  unfold domainSleep; split <;> simp
@[simp] theorem State.onPace_zoneView (t : Nat) (f : TilePace → TilePace) (s : State) :
    (s.onPace t f).zoneView = s.zoneView := by
  rfl
@[simp] theorem State.tileGate_zoneView (a b t : Nat) (s : State) : (s.tileGate a b t).zoneView = s.zoneView := by
  simp [State.tileGate]
@[simp] theorem State.measurePace_zoneView (s : State) : s.measurePace.zoneView = s.zoneView := by simp [State.measurePace]
@[simp] theorem State.deliverPace_zoneView (s : State) : s.deliverPace.zoneView = s.zoneView := by simp [State.deliverPace]
@[simp] theorem paceGate_zoneView (as bs : List Nat) (s : State) : (paceGate as bs s).zoneView = s.zoneView := by
  simp [paceGate]
@[simp] theorem tileVoltageStepDown_zoneView (t : Nat) (s : State) : (tileVoltageStepDown t s).zoneView = s.zoneView := by
  simp [tileVoltageStepDown]

/-! ### Admission and its checks -/

@[simp] theorem State.deferSet_zoneView (op : Nat) (c : Cmd) (s : State) : (s.deferSet op c).zoneView = s.zoneView := by
  simp [State.deferSet]
@[simp] theorem State.shadowWrite_zoneView (op : Nat) (c : Cmd) (eff : State → State) (s : State)
    (h : (eff s).zoneView = s.zoneView) : (s.shadowWrite op c eff).zoneView = s.zoneView := by simp [State.shadowWrite, h]
@[simp] theorem State.onShadow_zoneView (f : ConfigSet → ConfigSet) (s : State) : (s.onShadow f).zoneView = s.zoneView := by rfl
@[simp] theorem State.doneSet_zoneView (op : Nat) (c : Cmd) (result : Nat) (data : List Byte) (s : State) :
    (s.doneSet op c result data).zoneView = s.zoneView := by simp [State.doneSet]

/-! ### What other chapters ask of the ports -/

@[simp] theorem State.enqueue_zoneView (f : TxFrame) (s : State) : (s.enqueue f).zoneView = s.zoneView := by
  simp [State.enqueue]
@[simp] theorem State.queueFrame_zoneView (kind : TxKind) (a b : Bool) (dest bytes : List Byte) (s : State) :
    (s.queueFrame kind a b dest bytes).zoneView = s.zoneView := by simp [State.queueFrame]
@[simp] theorem State.askNeighbour_zoneView (v6 : Bool) (a : List Byte) (s : State) :
    (s.askNeighbour v6 a).zoneView = s.zoneView := by
  simp [State.askNeighbour]
@[simp] theorem State.needNeighbour_zoneView (v6 : Bool) (a : List Byte) (s : State) :
    (s.needNeighbour v6 a).zoneView = s.zoneView := by
  simp [State.needNeighbour]
@[simp] theorem State.onPtp_zoneView (p : Nat) (f : PtpPort → PtpPort) (s : State) : (s.onPtp p f).zoneView = s.zoneView := by
  rfl
@[simp] theorem State.sendPtp_zoneView (p type flags control sequence : Nat) (body : List Byte) (event : Option PtpEvent)
    (s : State) : (s.sendPtp p type flags control sequence body event).zoneView = s.zoneView := by simp [State.sendPtp]
@[simp] theorem State.ptpDeparts_zoneView (p : Nat) (f : TxFrame) (s : State) : (s.ptpDeparts p f).zoneView = s.zoneView := by
  unfold State.ptpDeparts; split <;> simp
@[simp] theorem State.sendRequest_zoneView (p type : Nat) (s : State) : (s.sendRequest p type).zoneView = s.zoneView := by
  simp [State.sendRequest]
@[simp] theorem State.sendPdelay_zoneView (p sequence : Nat) (requester : List Byte) (s : State) :
    (s.sendPdelay p sequence requester).zoneView = s.zoneView := by simp [State.sendPdelay]
@[simp] theorem State.askPeer_zoneView (s : State) (p : Nat) : (s.askPeer p).zoneView = s.zoneView := by simp [State.askPeer]
@[simp] theorem State.installNet_zoneView (w : NetWait) (s : State) : (s.installNet w).zoneView = s.zoneView := by
  simp [State.installNet]
@[simp] theorem State.netSent_zoneView (r : Reply) (s : State) : (s.netSent r).zoneView = s.zoneView := by
  unfold State.netSent; split <;> simp
@[simp] theorem State.sendProbe_zoneView (s : State) : s.sendProbe.zoneView = s.zoneView := by simp [State.sendProbe]
@[simp] theorem State.sendPd_zoneView (kind : TxKind) (com : Nat) (dest dataset : List Byte) (s : State) :
    (s.sendPd kind com dest dataset).zoneView = s.zoneView := by simp [State.sendPd]
@[simp] theorem State.sendMd_zoneView (final : Bool) (r : Route) (packet : List Byte) (s : State) :
    (s.sendMd final r packet).zoneView = s.zoneView := by simp [State.sendMd]

/-! ### The taking of replies -/

@[simp] theorem State.taken_zoneView (r : Reply) (s : State) : (s.taken r).zoneView = s.zoneView := by simp [State.taken]
@[simp] theorem State.sendReply_zoneView (s : State) (r : Reply) : (s.sendReply r).zoneView = s.zoneView := by
  simp [State.sendReply]
@[simp] theorem State.sendReplies_zoneView (s : State) : s.sendReplies.zoneView = s.zoneView := by simp [State.sendReplies]

/-! ### The network chapter -/

@[simp] theorem State.dropEgress_zoneView (s : State) : s.dropEgress.zoneView = s.zoneView := by
  simp -implicitDefEqProofs [State.dropEgress]
@[simp] theorem State.discardPort_zoneView (p : Nat) (s : State) : (s.discardPort p).zoneView = s.zoneView := by
  simp [State.discardPort]
@[simp] theorem State.loseLink_zoneView (p : Nat) (s : State) : (s.loseLink p).zoneView = s.zoneView := by simp [State.loseLink]
@[simp] theorem linkDown_zoneView (p : Nat) (s : State) : (linkDown p s).zoneView = s.zoneView := by simp [linkDown]
@[simp] theorem State.endNetConfig_zoneView (st det : Nat) (s : State) : (s.endNetConfig st det).zoneView = s.zoneView := by
  unfold State.endNetConfig; split <;> simp
@[simp] theorem State.netReady_zoneView (s : State) : s.netReady.zoneView = s.zoneView := by
  unfold State.netReady; split <;> simp
@[simp] theorem linkUp_zoneView (p : Nat) (master anDone : Bool) (sqi : Nat) (s : State) :
    (linkUp p master anDone sqi s).zoneView = s.zoneView := by fun_cases linkUp <;> simp +zetaDelta
@[simp] theorem linkTrainTimeout_zoneView (p : Nat) (s : State) : (linkTrainTimeout p s).zoneView = s.zoneView := by
  unfold linkTrainTimeout; split <;> simp
@[simp] theorem dadComplete_zoneView (inUse : Bool) (s : State) : (dadComplete inUse s).zoneView = s.zoneView := by
  fun_cases dadComplete <;> simp +zetaDelta
@[simp] theorem State.retrain_zoneView (phy : Nat) (s : State) (p : Nat) : (s.retrain phy p).zoneView = s.zoneView := by
  simp [State.retrain]
@[simp] theorem State.restartPtp_zoneView (profile : Nat) (s : State) : (s.restartPtp profile).zoneView = s.zoneView := by
  simp [State.restartPtp]
@[simp] theorem netConfigEffect_zoneView (c : Cmd) (s : State) : (netConfigEffect c s).zoneView = s.zoneView := by
  simp [netConfigEffect]
@[simp] theorem netConfig_zoneView (c : Cmd) (s : State) : (netConfig c s).zoneView = s.zoneView := by
  unfold netConfig; split
  · rfl
  · exact State.run_zoneView _ _ _ _ (.of_plain rfl) (netConfigEffect_zoneView c)
@[simp] theorem trdpConfigEffect_zoneView (c : Cmd) (s : State) : (trdpConfigEffect c s).zoneView = s.zoneView := by
  simp [trdpConfigEffect]
@[simp] theorem streamConfigEffect_zoneView (c : Cmd) (s : State) : (streamConfigEffect c s).zoneView = s.zoneView := by
  simp [streamConfigEffect]
@[simp] theorem State.clearNet_zoneView (p mask : Nat) (s : State) : (s.clearNet p mask).zoneView = s.zoneView := by rfl
@[simp] theorem netStatusEffect_zoneView (c : Cmd) (s : State) : (netStatusEffect c s).zoneView = s.zoneView := by
  simp [netStatusEffect]
@[simp] theorem streamStatusEffect_zoneView (c : Cmd) (s : State) : (streamStatusEffect c s).zoneView = s.zoneView := by
  simp [streamStatusEffect]
@[simp] theorem State.countSent_zoneView (p bits : Nat) (s : State) : (s.countSent p bits).zoneView = s.zoneView := by rfl
@[simp] theorem State.takePrp_zoneView (both : Bool) (prp : Option Nat) (s : State) :
    (State.takePrp both prp s).2.zoneView = s.zoneView := by fun_cases State.takePrp <;> simp +zetaDelta
@[simp] theorem State.sendTx_zoneView (p : Nat) (f : TxFrame) (s : State) : (s.sendTx p f).zoneView = s.zoneView := by
  simp only [State.sendTx]; split <;> simp
@[simp] theorem State.unresolvedFrame_zoneView (f : EgressFrame) (s : State) : (s.unresolvedFrame f).zoneView = s.zoneView := by
  unfold State.unresolvedFrame; split <;> simp
@[simp] theorem State.sendPoint_zoneView (p : Nat) (f : EgressFrame) (s : State) : (s.sendPoint p f).zoneView = s.zoneView := by
  simp [State.sendPoint]
@[simp] theorem frameTransmit_zoneView (p : Nat) (s : State) : (frameTransmit p s).zoneView = s.zoneView := by
  fun_cases frameTransmit <;> simp +zetaDelta
@[simp] theorem frameTxComplete_zoneView (p : Nat) (s : State) : (frameTxComplete p s).zoneView = s.zoneView := by
  simp [frameTxComplete]
@[simp] theorem State.noteSeq_zoneView (p : Nat) (f : NetFrame) (s : State) : (s.noteSeq p f).zoneView = s.zoneView := by
  unfold State.noteSeq; split <;> simp
@[simp] theorem State.learnNeighbour_zoneView (a mac : List Byte) (s : State) :
    (s.learnNeighbour a mac).zoneView = s.zoneView := by
  simp [State.learnNeighbour]
@[simp] theorem State.answerEcho_zoneView (v6 : Bool) (src payload : List Byte) (s : State) :
    (s.answerEcho v6 src payload).zoneView = s.zoneView := by simp [State.answerEcho]
@[simp] theorem State.addFragment_zoneView (src ident offset : Nat) (last : Bool) (data : List Byte) (s : State) :
    (s.addFragment src ident offset last data).zoneView = s.zoneView := by unfold State.addFragment; split <;> simp
@[simp] theorem State.takeFrame_zoneView (f : NetFrame) (s : State) : (s.takeFrame f).zoneView = s.zoneView := by
  unfold State.takeFrame; split <;> simp
@[simp] theorem netFrameReceive_zoneView (p : Nat) (f : NetFrame) (s : State) :
    (netFrameReceive p f s).zoneView = s.zoneView := by
  simp [netFrameReceive]
@[simp] theorem reasmTimeout_zoneView (context : Nat) (s : State) : (reasmTimeout context s).zoneView = s.zoneView := by
  unfold reasmTimeout; split <;> simp
@[simp] theorem prpSupervisionSend_zoneView (s : State) : (prpSupervisionSend s).zoneView = s.zoneView := by
  simp [prpSupervisionSend]
@[simp] theorem neighbourRefresh_zoneView (addr : List Byte) (s : State) : (neighbourRefresh addr s).zoneView = s.zoneView := by
  unfold neighbourRefresh; split <;> simp

/-! ### Loop faults and test signals -/

@[simp] theorem State.injectLost_zoneView (n : Nat) (c : Cmd) (played : Nat) (s : State) :
    (s.injectLost n c played).zoneView = s.zoneView := by simp [State.injectLost]
@[simp] theorem State.breakInject_zoneView (n : Nat) (s : State) : (s.breakInject n).zoneView = s.zoneView := by
  unfold State.breakInject; split <;> simp
@[simp] theorem State.cameoTrigger_zoneView (n trig : Nat) (s : State) : (s.cameoTrigger n trig).zoneView = s.zoneView := by
  simp [State.cameoTrigger]
@[simp] theorem State.galvoActs_zoneView (s : State) : s.galvoActs.zoneView = s.zoneView := by simp [State.galvoActs]
@[simp] theorem State.latch_zoneView (n cls action : Nat) (s : State) : (s.latch n cls action).zoneView = s.zoneView := by
  simp [State.latch]
@[simp] theorem State.countFault_zoneView (n : Nat) (s : State) : (s.countFault n).zoneView = s.zoneView := by rfl
@[simp] theorem State.raiseFault_safe (n cls : Nat) (s : State) (hs : s.zoneView.Safe) :
    (s.raiseFault n cls).zoneView.Safe := by
  simp [hs, State.raiseFault]
@[simp] theorem State.spindleLost_safe (s : State) (hs : s.zoneView.Safe) : s.spindleLost.zoneView.Safe := by
  simp [hs, State.spindleLost]
@[simp] theorem State.pavaneMotion_safe (s : State) (hs : s.zoneView.Safe) : s.pavaneMotion.zoneView.Safe := by
  simp [hs, State.pavaneMotion]
@[simp] theorem State.motionCheck_zoneView (s : State) : s.motionCheck.zoneView = s.zoneView := by simp [State.motionCheck]
@[simp] theorem State.unlatch_zoneView (n : Nat) (s : State) : (s.unlatch n).zoneView = s.zoneView := by simp [State.unlatch]

/-! ### The resolver's shared operations -/

@[simp] theorem State.onFslot_zoneView (n : Nat) (f : FilterSlot → FilterSlot) (s : State) :
    (s.onFslot n f).zoneView = s.zoneView := by rfl
@[simp] theorem State.unsettleCarrier_zoneView (s : State) : s.unsettleCarrier.zoneView = s.zoneView := by
  simp [State.unsettleCarrier]
@[simp] theorem State.resetCarrier_zoneView (s : State) : s.resetCarrier.zoneView = s.zoneView := by simp [State.resetCarrier]
@[simp] theorem State.switchSources_zoneView (s : State) : s.switchSources.zoneView = s.zoneView := by
  simp [State.switchSources]
@[simp] theorem State.publish_zoneView (stampNext : Nat) (s : State) : (s.publish stampNext).zoneView = s.zoneView := by
  simp [State.publish]
@[simp] theorem State.encDrive_zoneView (s : State) : s.encDrive.zoneView = s.zoneView := by simp [State.encDrive]
@[simp] theorem State.encJump_zoneView (s : State) : s.encJump.zoneView = s.zoneView := by rfl
@[simp] theorem State.encResume_zoneView (s : State) : s.encResume.zoneView = s.zoneView := by
  fun_cases State.encResume <;> simp +zetaDelta
@[simp] theorem State.encFreeze_zoneView (s : State) : s.encFreeze.zoneView = s.zoneView := by rfl
@[simp] theorem State.discardLearn_zoneView (det : Nat) (s : State) : (s.discardLearn det).zoneView = s.zoneView := by
  unfold State.discardLearn; split <;> simp
@[simp] theorem State.angleGone_safe (st : LockState) (s : State) (hs : s.zoneView.Safe) :
    (s.angleGone st).zoneView.Safe := by
  simp only [State.angleGone]
  refine State.spindleLost_safe _ ?_
  simp [hs]
@[simp] theorem State.loseLock_safe (cause : Nat) (s : State) (hs : s.zoneView.Safe) :
    (s.loseLock cause).zoneView.Safe := by simp [hs, State.loseLock]
@[simp] theorem State.coast_zoneView (s : State) : s.coast.zoneView = s.zoneView := by simp [State.coast]
@[simp] theorem State.parkExc_zoneView (s : State) : s.parkExc.zoneView = s.zoneView := by rfl
@[simp] theorem State.resolverUnlock_zoneView (s : State) : s.resolverUnlock.zoneView = s.zoneView := by
  simp [State.resolverUnlock]

/-! ### The time base and PTP -/

@[simp] theorem State.faultWindow_zoneView (s : State) (ch : Nat) : (s.faultWindow ch).zoneView = s.zoneView := by
  unfold State.faultWindow; split <;> simp
@[simp] theorem State.loseClock_safe (src : Nat) (s : State) (hs : s.zoneView.Safe) : (s.loseClock src).zoneView.Safe := by
  simp [hs, State.loseClock]
@[simp] theorem pllUnlock_safe (s : State) (hs : s.zoneView.Safe) : (pllUnlock s).zoneView.Safe := by simp [hs, pllUnlock]
@[simp] theorem pllRelock_zoneView (cycles : Nat) (s : State) : (pllRelock cycles s).zoneView = s.zoneView := by
  simp [pllRelock]
@[simp] theorem pllLockHold_zoneView (s : State) : (pllLockHold s).zoneView = s.zoneView := by simp [pllLockHold]
@[simp] theorem State.retrim_zoneView (s : State) : s.retrim.zoneView = s.zoneView := by simp [State.retrim]
@[simp] theorem freqErrInterval_zoneView (s : State) : (freqErrInterval s).zoneView = s.zoneView := by simp [freqErrInterval]
@[simp] theorem xoTrimRampStep_zoneView (s : State) : (xoTrimRampStep s).zoneView = s.zoneView := by simp [xoTrimRampStep]
@[simp] theorem State.slew_zoneView (s : State) : s.slew.zoneView = s.zoneView := by rfl
@[simp] theorem State.stepTime_zoneView (offset : Int) (s : State) : (s.stepTime offset).zoneView = s.zoneView := by rfl
@[simp] theorem State.holdOver_zoneView (s : State) : s.holdOver.zoneView = s.zoneView := by rfl
@[simp] theorem State.acquire_zoneView (offset : Int) (s : State) : (s.acquire offset).zoneView = s.zoneView := by
  simp [State.acquire]
@[simp] theorem State.offsetSample_zoneView (offset : Int) (s : State) : (s.offsetSample offset).zoneView = s.zoneView := by
  simp only [State.offsetSample]; split <;> simp
@[simp] theorem ptpHoldoverTimeout_zoneView (s : State) : (ptpHoldoverTimeout s).zoneView = s.zoneView := by
  simp [ptpHoldoverTimeout]
@[simp] theorem State.selectPtp_zoneView (s : State) : s.selectPtp.zoneView = s.zoneView := by simp [State.selectPtp]
@[simp] theorem State.ptpAnnounce_zoneView (p : Nat) (gm : GmData) (interval : Int) (s : State) :
    (s.ptpAnnounce p gm interval).zoneView = s.zoneView := by simp [State.ptpAnnounce]
@[simp] theorem State.ptpSync_zoneView (p origin : Nat) (interval : Int) (s : State) :
    (s.ptpSync p origin interval).zoneView = s.zoneView := by simp [State.ptpSync]
@[simp] theorem ptpMessageReceive_zoneView (m : PtpMessage) (s : State) : (ptpMessageReceive m s).zoneView = s.zoneView := by
  unfold ptpMessageReceive; split <;> simp
@[simp] theorem ptpSyncTimeout_zoneView (s : State) : (ptpSyncTimeout s).zoneView = s.zoneView := by simp [ptpSyncTimeout]
@[simp] theorem announceReceiptTimeout_zoneView (p : Nat) (s : State) : (announceReceiptTimeout p s).zoneView = s.zoneView := by
  simp [announceReceiptTimeout]

/-! ### The filter engine -/

@[simp] theorem State.noteSat_zoneView (sat : Bool) (s : State) : (s.noteSat sat).zoneView = s.zoneView := by
  simp [State.noteSat]

/-! ### Zone outputs and telegrams -/

@[simp] theorem zoneReadbackFault_safe (s : State) : (zoneReadbackFault s).zoneView.Safe := by
  simp [zoneReadbackFault]
/-- A test pulse starts on a clear output alone (R203). -/
@[simp] theorem testPulseStart_safe (out : Nat) (s : State) (hs : s.zoneView.Safe) : (testPulseStart out s).zoneView.Safe := by
  unfold testPulseStart
  split
  · exact hs
  · next hdue =>
    obtain ⟨hAB, hfault, hA, hB⟩ := hs
    simp only [State.zoneView] at hAB hfault hA hB
    by_cases h0 : out = 0 <;> simp_all [State.pulseDue, State.zoneView, ZoneView.Safe]
@[simp] theorem testPulseEnd_safe (out : Nat) (s : State) (hs : s.zoneView.Safe) : (testPulseEnd out s).zoneView.Safe := by
  obtain ⟨hAB, hfault, hA, hB⟩ := hs
  simp only [State.zoneView] at hAB hfault hA hB
  unfold testPulseEnd
  by_cases h0 : out = 0
  · simp_all [State.zoneView, ZoneView.Safe]
  · by_cases h1 : out = 1 <;> simp_all [State.zoneView, ZoneView.Safe]
@[simp] theorem zoneSnapshot_safe (s : State) (hs : s.zoneView.Safe) : (zoneSnapshot s).zoneView.Safe := by
  simp [hs, zoneSnapshot]
@[simp] theorem zoneWdog_safe (s : State) (hs : s.zoneView.Safe) : (zoneWdog s).zoneView.Safe := by simp [hs, zoneWdog]
@[simp] theorem State.sendTelegram_zoneView (payload : List Byte) (s : State) :
    (s.sendTelegram payload).zoneView = s.zoneView := by
  simp [State.sendTelegram]
@[simp] theorem zoneTelegramSend_zoneView (s : State) : (zoneTelegramSend s).zoneView = s.zoneView := by simp [zoneTelegramSend]
@[simp] theorem fieldDeadline_safe (view cell : Nat) (s : State) (hs : s.zoneView.Safe) :
    (fieldDeadline view cell s).zoneView.Safe := by
  unfold fieldDeadline; split <;> simp [hs]
@[simp] theorem fireTableEffect_zoneView (c : Cmd) (s : State) : (fireTableEffect c s).zoneView = s.zoneView := by
  simp [fireTableEffect]
@[simp] theorem nearfieldConfigEffect_zoneView (c : Cmd) (s : State) : (nearfieldConfigEffect c s).zoneView = s.zoneView := by
  simp [nearfieldConfigEffect]
@[simp] theorem fieldDefineEffect_zoneView (c : Cmd) (s : State) : (fieldDefineEffect c s).zoneView = s.zoneView := by
  simp [fieldDefineEffect]
@[simp] theorem zoneConfigEffect_zoneView (c : Cmd) (s : State) : (zoneConfigEffect c s).zoneView = s.zoneView := by
  simp [zoneConfigEffect]
@[simp] theorem schedConfigEffect_zoneView (c : Cmd) (s : State) : (schedConfigEffect c s).zoneView = s.zoneView := by
  simp [schedConfigEffect]
@[simp] theorem emitHoldEffect_safe (c : Cmd) (s : State) (hs : s.zoneView.Safe) : (emitHoldEffect c s).zoneView.Safe := by
  simp [hs, emitHoldEffect]
@[simp] theorem State.clearShots_zoneView (mask : Nat) (s : State) : (s.clearShots mask).zoneView = s.zoneView := by rfl
@[simp] theorem shotStatusEffect_zoneView (c : Cmd) (s : State) : (shotStatusEffect c s).zoneView = s.zoneView := by
  simp [shotStatusEffect]
@[simp] theorem State.clearOutFault_safe (s : State) : s.clearOutFault.zoneView.Safe := by
  simp [State.clearOutFault]
@[simp] theorem zoneStatusEffect_safe (c : Cmd) (s : State) (hs : s.zoneView.Safe) :
    (zoneStatusEffect c s).zoneView.Safe := by
  simp [hs, zoneStatusEffect]

/-! ### Views and sets -/

@[simp] theorem State.issueHandle_zoneView (i : Nat) (s : State) : (State.issueHandle i s).2.zoneView = s.zoneView := by
  simp [State.issueHandle]
@[simp] theorem viewCreateNow_zoneView (c : Cmd) (s : State) : (viewCreateNow c s).zoneView = s.zoneView := by
  unfold viewCreateNow; split <;> simp
@[simp] theorem viewCreateEffect_zoneView (c : Cmd) (s : State) : (viewCreateEffect c s).zoneView = s.zoneView := by
  simp [viewCreateEffect]
@[simp] theorem viewCreate_zoneView (c : Cmd) (s : State) : (viewCreate c s).zoneView = s.zoneView := by
  unfold viewCreate; split
  · rfl
  · exact State.run_zoneView _ _ _ _ (.of_plain rfl) (viewCreateEffect_zoneView c)
@[simp] theorem viewDestroyNow_zoneView (c : Cmd) (s : State) : (viewDestroyNow c s).zoneView = s.zoneView := by
  simp [viewDestroyNow]
@[simp] theorem viewDestroyEffect_zoneView (c : Cmd) (s : State) : (viewDestroyEffect c s).zoneView = s.zoneView := by
  simp [viewDestroyEffect]
@[simp] theorem viewQueryEffect_zoneView (c : Cmd) (s : State) : (viewQueryEffect c s).zoneView = s.zoneView := by
  simp [viewQueryEffect]
@[simp] theorem viewParamEffect_zoneView (c : Cmd) (s : State) : (viewParamEffect c s).zoneView = s.zoneView := by
  simp [viewParamEffect]
@[simp] theorem viewUpdateNow_zoneView (c : Cmd) (s : State) : (viewUpdateNow c s).zoneView = s.zoneView := by
  simp [viewUpdateNow]
@[simp] theorem viewUpdateEffect_zoneView (c : Cmd) (s : State) : (viewUpdateEffect c s).zoneView = s.zoneView := by
  simp [viewUpdateEffect]
@[simp] theorem State.releaseFade_zoneView (e : Nat) (s : State) : (s.releaseFade e).zoneView = s.zoneView := by
  unfold State.releaseFade; split <;> simp
@[simp] theorem State.dropCommit_zoneView (c : Cmd) (s t : State) : (s.dropCommit c t).zoneView = t.zoneView := by
  simp [State.dropCommit]
@[simp] theorem setCommitEffect_zoneView (c : Cmd) (s : State) : (setCommitEffect c s).zoneView = s.zoneView := by
  simp [setCommitEffect]
@[simp] theorem State.copyLost_zoneView (shadow : Bool) (s : State) : (s.copyLost shadow).zoneView = s.zoneView := by rfl
@[simp] theorem setAbortNow_zoneView (c : Cmd) (s : State) : (setAbortNow c s).zoneView = s.zoneView := by simp [setAbortNow]
@[simp] theorem setAbortEffect_zoneView (c : Cmd) (s : State) : (setAbortEffect c s).zoneView = s.zoneView := by
  simp [setAbortEffect]
@[simp] theorem setReadEffect_zoneView (c : Cmd) (s : State) : (setReadEffect c s).zoneView = s.zoneView := by
  unfold setReadEffect; split <;> simp

/-! ### The control rows -/

@[simp] theorem State.onMdrv_zoneView (f : Mdrv → Mdrv) (s : State) : (s.onMdrv f).zoneView = s.zoneView := by rfl
@[simp] theorem State.onCameo_zoneView (f : Cameo → Cameo) (s : State) : (s.onCameo f).zoneView = s.zoneView := by rfl
@[simp] theorem State.capture_zoneView (n : Nat) (s : State) : (s.capture n).zoneView = s.zoneView := by simp [State.capture]
@[simp] theorem State.endCapture_zoneView (s : State) : s.endCapture.zoneView = s.zoneView := by
  unfold State.endCapture; split <;> simp
@[simp] theorem cameoCaptureComplete_zoneView (s : State) : (cameoCaptureComplete s).zoneView = s.zoneView := by
  fun_cases cameoCaptureComplete <;> simp +zetaDelta
@[simp] theorem State.adoptSettings_zoneView (n : Nat) (s : State) : (s.adoptSettings n).zoneView = s.zoneView := by
  simp [State.adoptSettings]
@[simp] theorem State.adoptGain_zoneView (n : Nat) (s : State) : (s.adoptGain n).zoneView = s.zoneView := by
  simp [State.adoptGain]
@[simp] theorem State.injectStep_zoneView (n : Nat) (s : State) : (s.injectStep n).zoneView = s.zoneView := by
  unfold State.injectStep; split <;> simp
@[simp] theorem State.supervise_safe (n : Nat) (ri yv : Rat) (s : State) (hs : s.zoneView.Safe) :
    (s.supervise n ri yv).zoneView.Safe := by
  simp [hs, State.supervise]
@[simp] theorem State.runLaw_safe (n : Nat) (y : Option Int) (s : State) (hs : s.zoneView.Safe) :
    (s.runLaw n y).zoneView.Safe := by
  fun_cases State.runLaw <;> simp +zetaDelta [hs]
@[simp] theorem State.galvoGap_safe (s : State) (hs : s.zoneView.Safe) : s.galvoGap.zoneView.Safe := by
  simp [hs, State.galvoGap]
@[simp] theorem State.sampleDone_safe (n : Nat) (s : State) (hs : s.zoneView.Safe) : (s.sampleDone n).zoneView.Safe := by
  simp [hs, State.sampleDone]
@[simp] theorem State.sampleLate_safe (n : Nat) (s : State) (hs : s.zoneView.Safe) : (s.sampleLate n).zoneView.Safe := by
  simp [hs, State.sampleLate]
@[simp] theorem State.sample_safe (n : Nat) (finished : Bool) (s : State) (hs : s.zoneView.Safe) :
    (s.sample n finished).zoneView.Safe := by
  simp [hs, State.sample]
@[simp] theorem State.demandDue_safe (s : State) (hs : s.zoneView.Safe) : s.demandDue.zoneView.Safe := by
  simp [hs, State.demandDue]
@[simp] theorem State.mdrvUnit_zoneView (b : List Byte) (s : State) : (s.mdrvUnit b).zoneView = s.zoneView := by rfl
@[simp] theorem State.mdrvSend_zoneView (s : State) : s.mdrvSend.zoneView = s.zoneView := by simp [State.mdrvSend]
@[simp] theorem spindleSample_safe (finished : Bool) (s : State) (hs : s.zoneView.Safe) :
    (spindleSample finished s).zoneView.Safe := by
  simp [hs, spindleSample]
@[simp] theorem mdrvUplinkReceive_safe (b : List Byte) (s : State) (hs : s.zoneView.Safe) :
    (mdrvUplinkReceive b s).zoneView.Safe := by
  simp [hs, mdrvUplinkReceive]
@[simp] theorem mdrvUplinkTimeout_safe (s : State) (hs : s.zoneView.Safe) : (mdrvUplinkTimeout s).zoneView.Safe := by
  simp [hs, mdrvUplinkTimeout]
@[simp] theorem State.galvoOutput_zoneView (st : LoopState) (s : State) : (s.galvoOutput st).zoneView = s.zoneView := by
  unfold State.galvoOutput; split <;> simp
@[simp] theorem State.galvoRelease_zoneView (s : State) : s.galvoRelease.zoneView = s.zoneView := by simp [State.galvoRelease]
@[simp] theorem State.keepGalvo_zoneView (s : State) : s.keepGalvo.zoneView = s.zoneView := by simp [State.keepGalvo]
@[simp] theorem galvoSample_safe (finished : Bool) (s : State) (hs : s.zoneView.Safe) :
    (galvoSample finished s).zoneView.Safe := by
  simp [hs, galvoSample]
@[simp] theorem galvoShort_safe (s : State) (hs : s.zoneView.Safe) : (galvoShort s).zoneView.Safe := by simp [hs, galvoShort]
@[simp] theorem loopConfigEffect_zoneView (c : Cmd) (s : State) : (loopConfigEffect c s).zoneView = s.zoneView := by
  simp [loopConfigEffect]
@[simp] theorem loopCoeffEffect_zoneView (c : Cmd) (s : State) : (loopCoeffEffect c s).zoneView = s.zoneView := by
  simp [loopCoeffEffect]
@[simp] theorem State.endInject_zoneView (n : Nat) (s : State) : (s.endInject n).zoneView = s.zoneView := by
  unfold State.endInject; split <;> simp
@[simp] theorem ctrlInjectEffect_zoneView (c : Cmd) (s : State) : (ctrlInjectEffect c s).zoneView = s.zoneView := by
  simp [ctrlInjectEffect]
@[simp] theorem ctrlInject_zoneView (c : Cmd) (s : State) : (ctrlInject c s).zoneView = s.zoneView := by
  simp only [ctrlInject]; split
  · rfl
  · exact State.run_zoneView _ _ _ _ (.of_plain rfl) (ctrlInjectEffect_zoneView c)
@[simp] theorem ctrlInjectStop_zoneView (c : Cmd) (s : State) : (ctrlInjectStop c s).zoneView = s.zoneView :=
  State.run_zoneView _ _ _ _ (.of_plain rfl) (ctrlInjectEffect_zoneView c)
@[simp] theorem injectEnd_zoneView (n : Nat) (s : State) : (injectEnd n s).zoneView = s.zoneView := by
  unfold injectEnd; split <;> simp
@[simp] theorem cameoArmEffect_zoneView (c : Cmd) (s : State) : (cameoArmEffect c s).zoneView = s.zoneView := by
  simp [cameoArmEffect]
@[simp] theorem cameoStop_zoneView (c : Cmd) (s : State) : (cameoStop c s).zoneView = s.zoneView :=
  State.run_zoneView _ _ _ _ (.of_plain rfl) (cameoArmEffect_zoneView c)
@[simp] theorem cameoReadEffect_zoneView (c : Cmd) (s : State) : (cameoReadEffect c s).zoneView = s.zoneView := by
  simp [cameoReadEffect]
@[simp] theorem State.clearLoop_zoneView (n m : Nat) (s : State) : (s.clearLoop n m).zoneView = s.zoneView := by rfl
@[simp] theorem ctrlStatusEffect_zoneView (c : Cmd) (s : State) : (ctrlStatusEffect c s).zoneView = s.zoneView := by
  simp [ctrlStatusEffect]
@[simp] theorem motionRecordEffect_zoneView (c : Cmd) (s : State) : (motionRecordEffect c s).zoneView = s.zoneView := by
  simp [motionRecordEffect]

/-! ### The resolver's events -/

@[simp] theorem State.endReset_zoneView (s : State) (x : Nat × Cmd × Nat × Bool) : (s.endReset x).zoneView = s.zoneView := by
  simp [State.endReset]
@[simp] theorem State.settleReset_zoneView (s : State) : s.settleReset.zoneView = s.zoneView := by simp [State.settleReset]
@[simp] theorem State.takeReset_zoneView (p : List Byte) (s : State) : (s.takeReset p).zoneView = s.zoneView := by
  simp [State.takeReset]
@[simp] theorem State.syncReset_zoneView (op : Nat) (c : Cmd) (at_ : Nat) (s : State) :
    (s.syncReset op c at_).zoneView = s.zoneView := by
  simp [State.syncReset]
@[simp] theorem excChange_zoneView (s : State) : (excChange s).zoneView = s.zoneView := by unfold excChange; split <;> simp
@[simp] theorem excShort_safe (s : State) (hs : s.zoneView.Safe) : (excShort s).zoneView.Safe := by simp [hs, excShort]
@[simp] theorem State.checkExc_safe (s : State) (hs : s.zoneView.Safe) : s.checkExc.zoneView.Safe := by
  simp [hs, State.checkExc]
@[simp] theorem State.takeOutput_safe (slot : Nat) (g : FilterSlot) (sat : Bool) (at_ : Nat) (s : State) (hs : s.zoneView.Safe) :
    (s.takeOutput slot g sat at_).zoneView.Safe := by simp [hs, State.takeOutput]
@[simp] theorem filterOutput_safe (slot : Nat) (bits : List Bool) (test : Bool) (stamp : Nat) (s : State) (hs : s.zoneView.Safe) :
    (filterOutput slot bits test stamp s).zoneView.Safe := by simp [hs, filterOutput]
@[simp] theorem galvoFilterOutput_zoneView (gpa gpb : List Bool) (test : Bool) (s : State) :
    (galvoFilterOutput gpa gpb test s).zoneView = s.zoneView := by fun_cases galvoFilterOutput <;> simp +zetaDelta
@[simp] theorem State.onCam_zoneView (n : Nat) (f : CamPin → CamPin) (s : State) : (s.onCam n f).zoneView = s.zoneView := by rfl
@[simp] theorem State.commitCams_zoneView (s : State) : s.commitCams.zoneView = s.zoneView := by simp [State.commitCams]
@[simp] theorem State.lateCams_zoneView (old s : State) : (old.lateCams s).zoneView = s.zoneView := by simp [State.lateCams]
@[simp] theorem State.takeCams_zoneView (s : State) : s.takeCams.zoneView = s.zoneView := by simp [State.takeCams]
@[simp] theorem State.cycTake_zoneView (s : State) : s.cycTake.zoneView = s.zoneView := by unfold State.cycTake; split <;> simp
@[simp] theorem State.slowEffects_zoneView (s : State) : s.slowEffects.zoneView = s.zoneView := by simp [State.slowEffects]
@[simp] theorem State.runUpdate_safe (x y : Int) (amp : Nat) (s : State) (hs : s.zoneView.Safe) :
    (State.runUpdate x y amp s).1.zoneView.Safe := by
  simp [hs, State.runUpdate]
@[simp] theorem State.seekPair_zoneView (x y : Int) (amp : Nat) (s : State) : (s.seekPair x y amp).zoneView = s.zoneView := by
  fun_cases State.seekPair <;> simp +zetaDelta
@[simp] theorem State.acquireUpdate_safe (x y : Int) (amp : Nat) (s : State) (hs : s.zoneView.Safe) :
    (s.acquireUpdate x y amp).zoneView.Safe := by
  simp [hs, State.acquireUpdate]
@[simp] theorem lockAcquired_zoneView (s : State) : (lockAcquired s).zoneView = s.zoneView := by simp [lockAcquired]
@[simp] theorem State.gatePair_zoneView (x y : Int) (s : State) : (s.gatePair x y).zoneView = s.zoneView := by
  simp [State.gatePair]
@[simp] theorem speedCheckGate_safe (s : State) (hs : s.zoneView.Safe) : (speedCheckGate s).zoneView.Safe := by
  simp only [speedCheckGate]
  repeat' split
  all_goals simp -implicitDefEqProofs [hs]
@[simp] theorem State.steerPhase_zoneView (x y : Int) (s : State) : (s.steerPhase x y).zoneView = s.zoneView := by
  simp -implicitDefEqProofs [State.steerPhase]
@[simp] theorem State.coastPair_safe (s : State) (hs : s.zoneView.Safe) : s.coastPair.zoneView.Safe := by
  simp [hs, State.coastPair]
@[simp] theorem State.trackUpdate_safe (x y : Int) (amp : Nat) (s : State) (hs : s.zoneView.Safe) :
    (s.trackUpdate x y amp).zoneView.Safe := by
  simp [hs, State.trackUpdate]
@[simp] theorem trackingUpdate_safe (s : State) (hs : s.zoneView.Safe) : (trackingUpdate s).zoneView.Safe := by
  simp only [trackingUpdate]
  repeat' split
  all_goals simp [hs]
@[simp] theorem stuckModulator_safe (slot : Nat) (s : State) (hs : s.zoneView.Safe) :
    (stuckModulator slot s).zoneView.Safe := by
  simp [hs, stuckModulator]
@[simp] theorem coastTimeout_safe (s : State) (hs : s.zoneView.Safe) : (coastTimeout s).zoneView.Safe := by
  simp [hs, coastTimeout]
@[simp] theorem State.cycReplace_zoneView (p : CycPending) (cmds : List (Nat × Cmd)) (s : State) :
    (s.cycReplace p cmds).zoneView = s.zoneView := by simp [State.cycReplace]
@[simp] theorem cycLearnPassEnd_zoneView (s : State) : (cycLearnPassEnd s).zoneView = s.zoneView := by
  unfold cycLearnPassEnd; split <;> simp
@[simp] theorem State.angleBoundary_zoneView (s : State) : s.angleBoundary.zoneView = s.zoneView := by
  simp [State.angleBoundary]
@[simp] theorem encStateChange_zoneView (s : State) : (encStateChange s).zoneView = s.zoneView := by simp [encStateChange]
@[simp] theorem encOverrate_zoneView (s : State) : (encOverrate s).zoneView = s.zoneView := by simp [encOverrate]
@[simp] theorem camTrigEdge_zoneView (n : Nat) (s : State) : (camTrigEdge n s).zoneView = s.zoneView := by
  fun_cases camTrigEdge <;> simp +zetaDelta
@[simp] theorem camTrigPulseEnd_zoneView (n : Nat) (s : State) : (camTrigPulseEnd n s).zoneView = s.zoneView := by
  simp [camTrigPulseEnd]

/-! ### The angle opcodes -/

@[simp] theorem State.angleRun_zoneView (o : OpInfo) (c : Cmd) (eff : State → State) (s : State) (hr : o.KeepsZoneView)
    (h : ∀ t, (eff t).zoneView = t.zoneView) : (s.angleRun o c eff).zoneView = s.zoneView := by
  unfold State.angleRun; split
  · rfl
  · exact State.run_zoneView o c eff s hr h
@[simp] theorem State.requestReset_zoneView (op : Nat) (c : Cmd) (s : State) : (s.requestReset op c).zoneView = s.zoneView := by
  simp [State.requestReset]
@[simp] theorem angleConfigEffect_zoneView (c : Cmd) (s : State) : (angleConfigEffect c s).zoneView = s.zoneView := by
  simp [angleConfigEffect]
@[simp] theorem angleFrameEffect_zoneView (c : Cmd) (s : State) : (angleFrameEffect c s).zoneView = s.zoneView := by
  simp [angleFrameEffect]
@[simp] theorem cycLearnEffect_zoneView (c : Cmd) (s : State) : (cycLearnEffect c s).zoneView = s.zoneView := by
  simp [cycLearnEffect]
@[simp] theorem cycLearn_zoneView (c : Cmd) (s : State) : (cycLearn c s).zoneView = s.zoneView := by
  unfold cycLearn; split
  · rfl
  · exact State.angleRun_zoneView _ _ _ _ (.of_plain rfl) (cycLearnEffect_zoneView c)
@[simp] theorem cycSelectEffect_zoneView (c : Cmd) (s : State) : (cycSelectEffect c s).zoneView = s.zoneView := by
  simp [cycSelectEffect]
@[simp] theorem encConfigEffect_zoneView (c : Cmd) (s : State) : (encConfigEffect c s).zoneView = s.zoneView := by
  simp [encConfigEffect]
@[simp] theorem camConfigEffect_zoneView (c : Cmd) (s : State) : (camConfigEffect c s).zoneView = s.zoneView := by
  simp [camConfigEffect]
@[simp] theorem State.restartExc_zoneView (s : State) : s.restartExc.zoneView = s.zoneView := by simp [State.restartExc]
@[simp] theorem State.clearAngle_zoneView (m : Nat) (s : State) : (s.clearAngle m).zoneView = s.zoneView := by
  simp [State.clearAngle]
@[simp] theorem angleStatusEffect_zoneView (c : Cmd) (s : State) : (angleStatusEffect c s).zoneView = s.zoneView := by
  simp [angleStatusEffect]

/-! ### The SiPM bias and the return channels -/

@[simp] theorem State.onBias_zoneView (f : Bias → Bias) (s : State) : (s.onBias f).zoneView = s.zoneView := by rfl
@[simp] theorem State.endBias_zoneView (st det : Nat) (s : State) : (s.endBias st det).zoneView = s.zoneView := by
  unfold State.endBias; split <;> simp
@[simp] theorem State.settleBias_zoneView (s : State) : s.settleBias.zoneView = s.zoneView := by simp [State.settleBias]
@[simp] theorem State.biasReading_zoneView (m curve : Nat) (value : Int) (valid : Bool) (s : State) :
    (s.biasReading m curve value valid).zoneView = s.zoneView := by simp [State.biasReading]
@[simp] theorem biasTempTimeout_zoneView (s : State) : (biasTempTimeout s).zoneView = s.zoneView := by simp [biasTempTimeout]
@[simp] theorem biasTargetCompute_zoneView (s : State) : (biasTargetCompute s).zoneView = s.zoneView := by
  simp [biasTargetCompute]
@[simp] theorem biasStep_zoneView (s : State) : (biasStep s).zoneView = s.zoneView := by simp [biasStep]
@[simp] theorem biasSettled_zoneView (s : State) : (biasSettled s).zoneView = s.zoneView := by simp [biasSettled]
@[simp] theorem biasFault_zoneView (s : State) : (biasFault s).zoneView = s.zoneView := by simp [biasFault]
@[simp] theorem biasConfigEffect_zoneView (c : Cmd) (s : State) : (biasConfigEffect c s).zoneView = s.zoneView := by
  simp [biasConfigEffect]
@[simp] theorem rxConfigEffect_zoneView (c : Cmd) (s : State) : (rxConfigEffect c s).zoneView = s.zoneView := by
  simp [rxConfigEffect]
@[simp] theorem rxStatusEffect_zoneView (c : Cmd) (s : State) : (rxStatusEffect c s).zoneView = s.zoneView := by
  simp [rxStatusEffect]
@[simp] theorem rxOverload_zoneView (ch : Nat) (s : State) : (rxOverload ch s).zoneView = s.zoneView := by simp [rxOverload]
@[simp] theorem rxSilent_zoneView (ch : Nat) (s : State) : (rxSilent ch s).zoneView = s.zoneView := by simp [rxSilent]

/-! ### Auxiliary sensing and Bezel -/

@[simp] theorem State.onMeas_zoneView (m : Nat) (f : AuxMeas → AuxMeas) (s : State) : (s.onMeas m f).zoneView = s.zoneView := by
  rfl
@[simp] theorem State.onPiezo_zoneView (f : Piezo → Piezo) (s : State) : (s.onPiezo f).zoneView = s.zoneView := by rfl
@[simp] theorem State.takeSettings_zoneView (m : Nat) (s : State) : (s.takeSettings m).zoneView = s.zoneView := by
  unfold State.takeSettings; split <;> simp
@[simp] theorem State.seek_zoneView (l : List Nat) (s : State) : (s.seek l).zoneView = s.zoneView := by
  induction l generalizing s with
  | nil => rfl
  | cons m r ih => simp [State.seek, ih]
@[simp] theorem State.seekAgain_zoneView (s : State) : s.seekAgain.zoneView = s.zoneView := by
  unfold State.seekAgain; split <;> simp
@[simp] theorem State.checkCalRun_zoneView (s : State) : s.checkCalRun.zoneView = s.zoneView := by
  unfold State.checkCalRun; split <;> simp
@[simp] theorem State.insertCals_zoneView (s : State) : s.insertCals.zoneView = s.zoneView := by simp [State.insertCals]
@[simp] theorem State.nextTurn_zoneView (m : Nat) (s : State) : (s.nextTurn m).zoneView = s.zoneView := by simp [State.nextTurn]
@[simp] theorem State.startAux_zoneView (s : State) : s.startAux.zoneView = s.zoneView := by simp [State.startAux]
@[simp] theorem State.bezelDutyFor_zoneView (curve : Nat) (r : AuxResult) (s : State) :
    (s.bezelDutyFor curve r).zoneView = s.zoneView := by simp [State.bezelDutyFor]
@[simp] theorem State.publishAux_zoneView (m : Nat) (p : List Byte) (r : AuxResult) (s : State) :
    (s.publishAux m p r).zoneView = s.zoneView := by simp only [State.publishAux]; split <;> simp
@[simp] theorem auxMeasurementDone_zoneView (code1 code2 : Int) (compliance : Bool) (s : State) :
    (auxMeasurementDone code1 code2 compliance s).zoneView = s.zoneView := by unfold auxMeasurementDone; split <;> simp
@[simp] theorem State.offsetCode_zoneView (g : Nat) (code : Int) (s : State) : (s.offsetCode g code).zoneView = s.zoneView := by
  simp [State.offsetCode]
@[simp] theorem auxOffsetCal_zoneView (g : Nat) (code : Int) (s : State) : (auxOffsetCal g code s).zoneView = s.zoneView := by
  simp [auxOffsetCal]
@[simp] theorem heatPwmPeriod_zoneView (s : State) : (heatPwmPeriod s).zoneView = s.zoneView := by simp [heatPwmPeriod]
@[simp] theorem shock_zoneView (charge : Int) (s : State) : (shock charge s).zoneView = s.zoneView := by
  unfold shock; split <;> simp
@[simp] theorem piezoReset_zoneView (s : State) : (piezoReset s).zoneView = s.zoneView := by unfold piezoReset; split <;> simp
@[simp] theorem State.bezelLearned_zoneView (c : Cmd) (s : State) : (s.bezelLearned c).zoneView = s.zoneView := by
  simp [State.bezelLearned]
@[simp] theorem State.bezelBoundary_zoneView (s : State) : s.bezelBoundary.zoneView = s.zoneView := by
  simp only [State.bezelBoundary]; split <;> simp
@[simp] theorem State.doneOrStore_zoneView (op rec : Nat) (persist : Bool) (c : Cmd) (s : State) :
    (s.doneOrStore op rec persist c).zoneView = s.zoneView := by simp [State.doneOrStore]
@[simp] theorem auxMeasConfigEffect_zoneView (c : Cmd) (s : State) : (auxMeasConfigEffect c s).zoneView = s.zoneView := by
  simp [auxMeasConfigEffect]
@[simp] theorem auxSwitchConfigEffect_zoneView (c : Cmd) (s : State) : (auxSwitchConfigEffect c s).zoneView = s.zoneView := by
  simp [auxSwitchConfigEffect]
@[simp] theorem auxCalEffect_zoneView (c : Cmd) (s : State) : (auxCalEffect c s).zoneView = s.zoneView := by simp [auxCalEffect]
@[simp] theorem auxCal_zoneView (c : Cmd) (s : State) : (auxCal c s).zoneView = s.zoneView := by
  unfold auxCal; split
  · rfl
  · exact State.run_zoneView _ _ _ _ (.of_plain rfl) (auxCalEffect_zoneView c)
@[simp] theorem bezelConfigEffect_zoneView (c : Cmd) (s : State) : (bezelConfigEffect c s).zoneView = s.zoneView := by
  simp [bezelConfigEffect]
@[simp] theorem bezelLearnEffect_zoneView (c : Cmd) (s : State) : (bezelLearnEffect c s).zoneView = s.zoneView := by rfl
@[simp] theorem bezelLearn_zoneView (c : Cmd) (s : State) : (bezelLearn c s).zoneView = s.zoneView := by
  unfold bezelLearn; split
  · rfl
  · exact State.run_zoneView _ _ _ _ (.of_plain rfl) (bezelLearnEffect_zoneView c)
@[simp] theorem auxReadEffect_zoneView (c : Cmd) (s : State) : (auxReadEffect c s).zoneView = s.zoneView := by
  simp [auxReadEffect]
@[simp] theorem auxStatusEffect_zoneView (c : Cmd) (s : State) : (auxStatusEffect c s).zoneView = s.zoneView := by
  simp [auxStatusEffect]

/-! ### Engines and chains -/

@[simp] theorem State.leaveDone_zoneView (s : State) (g : Nat) : (s.leaveDone g).zoneView = s.zoneView := by
  simp [State.leaveDone]
@[simp] theorem State.leaveAll_zoneView (s : State) : s.leaveAll.zoneView = s.zoneView := by simp [State.leaveAll]
@[simp] theorem chainStart_zoneView (g : Nat) (s : State) : (chainStart g s).zoneView = s.zoneView := by
  fun_cases chainStart <;> simp +zetaDelta
@[simp] theorem State.runAmbient_zoneView (x : State × Work) : (State.runAmbient x).1.zoneView = x.1.zoneView := by
  fun_cases State.runAmbient <;> simp +zetaDelta
@[simp] theorem State.enterRain_zoneView (ch sector : Nat) (s : State) (zone : Nat) :
    (s.enterRain ch sector zone).zoneView = s.zoneView := by simp [State.enterRain]
@[simp] theorem State.runRain_zoneView (x : State × Work) : (State.runRain x).1.zoneView = x.1.zoneView := by
  simp [State.runRain]
@[simp] theorem State.runWindow_zoneView (x : State × Work) : (State.runWindow x).1.zoneView = x.1.zoneView := by
  unfold State.runWindow; split <;> simp
@[simp] theorem State.runKernel_zoneView (x : State × Work) (k : Nat) : (State.runKernel x k).1.zoneView = x.1.zoneView := by
  unfold State.runKernel; split <;> simp
@[simp] theorem State.runChain_zoneView (v : ViewDef) (h : Hist) (fs : List PassFault) (s : State) :
    (State.runChain v h fs s).1.zoneView = s.zoneView := zoneView_foldl_fst _ _ _ fun _ _ => State.runKernel_zoneView ..
@[simp] theorem State.notePasses_zoneView (g : Nat) (h : Hist) (fs : List PassFault) (s : State) :
    (s.notePasses g h fs).zoneView = s.zoneView := by simp [State.notePasses]
@[simp] theorem chainEnd_safe (g : Nat) (faults : List PassFault) (s : State) (hs : s.zoneView.Safe) :
    (chainEnd g faults s).zoneView.Safe := by
  fun_cases chainEnd <;> simp +zetaDelta [hs]
@[simp] theorem engineFault_safe (g : Nat) (faults : List PassFault) (s : State) (hs : s.zoneView.Safe) :
    (engineFault g faults s).zoneView.Safe := by unfold engineFault; split <;> simp [hs]
@[simp] theorem frameCloseTimeout_zoneView (n : Nat) (s : State) : (frameCloseTimeout n s).zoneView = s.zoneView := by
  simp [frameCloseTimeout]
@[simp] theorem trackerGateClose_zoneView (t i : Nat) (s : State) : (trackerGateClose t i s).zoneView = s.zoneView := by
  unfold trackerGateClose; split <;> simp
@[simp] theorem weatherUpdate_zoneView (s : State) : (weatherUpdate s).zoneView = s.zoneView := by
  simp -implicitDefEqProofs [weatherUpdate]

/-! ### Retention banks -/

@[simp] theorem State.repairCopies_zoneView (s : State) : s.repairCopies.zoneView = s.zoneView := by rfl

/-! ### Records of the eMRAM -/

@[simp] theorem State.onRecord_zoneView (id : Nat) (f : NvmRecord → NvmRecord) (s : State) :
    (s.onRecord id f).zoneView = s.zoneView := by
  simp [State.onRecord]
@[simp] theorem State.checkCopy_zoneView (bank id : Nat) (s : State) : (s.checkCopy bank id).zoneView = s.zoneView := by
  unfold State.checkCopy; cases s.readable bank id <;> simp
@[simp] theorem State.chooseRecords_zoneView (s : State) : s.chooseRecords.zoneView = s.zoneView := by
  simp [State.chooseRecords]
@[simp] theorem State.load_zoneView (id : Nat) (f : List Byte → State → State) (s : State)
    (h : ∀ p, (f p s).zoneView = s.zoneView) : (s.load id f).zoneView = s.zoneView := by unfold State.load; split <;> simp [h]
@[simp] theorem State.load_safe (id : Nat) (f : List Byte → State → State) (s : State)
    (h : ∀ p, (f p s).zoneView.Safe) (hs : s.zoneView.Safe) : (s.load id f).zoneView.Safe := by
  unfold State.load; split <;> simp [h, hs]
@[simp] theorem loadDac_zoneView (p : List Byte) (s : State) : (loadDac p s).zoneView = s.zoneView := by
  simp -implicitDefEqProofs [loadDac]
@[simp] theorem loadTimebase_zoneView (p : List Byte) (s : State) : (loadTimebase p s).zoneView = s.zoneView := by rfl
@[simp] theorem loadCorrections_zoneView (p : List Byte) (s : State) : (loadCorrections p s).zoneView = s.zoneView :=
  zoneView_foldl _ _ _ fun _ _ => State.onFe_zoneView ..
@[simp] theorem loadLedger_safe (p : List Byte) (s : State) (hs : s.zoneView.Safe) : (loadLedger p s).zoneView.Safe := by
  simp [hs, loadLedger]
@[simp] theorem loadKey_zoneView (p : List Byte) (s : State) : (loadKey p s).zoneView = s.zoneView := by rfl
@[simp] theorem loadMap_zoneView (p : List Byte) (s : State) : (loadMap p s).zoneView = s.zoneView := by rfl
@[simp] theorem loadWave_zoneView (e : Nat) (p : List Byte) (s : State) : (loadWave e p s).zoneView = s.zoneView := by
  simp [loadWave]
@[simp] theorem loadAngle_zoneView (p : List Byte) (s : State) : (loadAngle p s).zoneView = s.zoneView := by rfl
@[simp] theorem loadMotion_zoneView (p : List Byte) (s : State) : (loadMotion p s).zoneView = s.zoneView := by rfl
@[simp] theorem loadBias_zoneView (p : List Byte) (s : State) : (loadBias p s).zoneView = s.zoneView := by rfl
@[simp] theorem loadAux_zoneView (p : List Byte) (s : State) : (loadAux p s).zoneView = s.zoneView := by rfl
@[simp] theorem loadBezel_zoneView (p : List Byte) (s : State) : (loadBezel p s).zoneView = s.zoneView := by rfl
@[simp] theorem loadNetwork_zoneView (p : List Byte) (s : State) : (loadNetwork p s).zoneView = s.zoneView := by rfl
@[simp] theorem loadRange_zoneView (p : List Byte) (s : State) : (loadRange p s).zoneView = s.zoneView := by rfl
@[simp] theorem loadClasp_zoneView (lost : Bool) (p : List Byte) (s : State) : (loadClasp lost p s).zoneView = s.zoneView := by
  simp [loadClasp]
@[simp] theorem loadMargins_zoneView (p : List Byte) (s : State) : (loadMargins p s).zoneView = s.zoneView := by rfl
@[simp] theorem State.loadLibrary_zoneView (s : State) : s.loadLibrary.zoneView = s.zoneView := by
  unfold State.loadLibrary; split <;> simp
@[simp] theorem State.loadRecords_safe (s : State) (hs : s.zoneView.Safe) : s.loadRecords.zoneView.Safe := by
  have hkey : (((s.load 6 loadDac).load 4 loadTimebase).load 3 loadKey).zoneView.Safe := by simpa using hs
  have hledger := State.load_safe 5 loadLedger _ (fun p => loadLedger_safe p _ hkey) hkey
  simpa [State.loadRecords] using hledger
@[simp] theorem State.loadSlots_zoneView (s : State) : s.loadSlots.zoneView = s.zoneView := by simp [State.loadSlots]

/-! ### Stores -/

@[simp] theorem State.endScope_zoneView (scope : Nat) (s : State) : (s.endScope scope).zoneView = s.zoneView := by rfl
@[simp] theorem State.unpend_zoneView (c : Cmd) (s : State) : (s.unpend c).zoneView = s.zoneView := by rfl
@[simp] theorem State.storeEffect_safe (id gen : Nat) (p : List Byte) (s : State) (hs : s.zoneView.Safe) :
    (s.storeEffect id gen p).zoneView.Safe := by unfold State.storeEffect; split <;> simp [hs]
@[simp] theorem State.storeReply_zoneView (id gen st det : Nat) (s : State) (x : Nat × Cmd) :
    (s.storeReply id gen st det x).zoneView = s.zoneView := by simp [State.storeReply]
@[simp] theorem State.storeLost_zoneView (id : Nat) (s : State) : (s.storeLost id).zoneView = s.zoneView := by
  simp [State.storeLost]
@[simp] theorem State.writeCopy_zoneView (bank : Nat) (took : Bool) (k : NvmCopy) (s : State) :
    (s.writeCopy bank took k).zoneView = s.zoneView := by simp [State.writeCopy]
@[simp] theorem State.toMirror_zoneView (s : State) : s.toMirror.zoneView = s.zoneView := by simp [State.toMirror]
@[simp] theorem State.runStore_safe (a : Activity) (w1 w2 : Bool) (s : State) (hs : s.zoneView.Safe) :
    (s.runStore a w1 w2).zoneView.Safe := by
  simp [hs, State.runStore]
@[simp] theorem State.runMirror_zoneView (a : Activity) (took : Bool) (s : State) :
    (s.runMirror a took).zoneView = s.zoneView := by
  simp only [State.runMirror]; split <;> simp
@[simp] theorem State.runFollowUp_zoneView (a : Activity) (took : Bool) (s : State) :
    (s.runFollowUp a took).zoneView = s.zoneView := by
  simp only [State.runFollowUp]; split <;> simp
@[simp] theorem nvmStore_safe (w1 w2 : Bool) (s : State) (hs : s.zoneView.Safe) : (nvmStore w1 w2 s).zoneView.Safe := by
  fun_cases nvmStore <;> simp +zetaDelta [hs]
@[simp] theorem nvmInfoEffect_zoneView (c : Cmd) (s : State) : (nvmInfoEffect c s).zoneView = s.zoneView := by
  simp [nvmInfoEffect]
@[simp] theorem nvmReadEffect_zoneView (c : Cmd) (s : State) : (nvmReadEffect c s).zoneView = s.zoneView := by
  simp [nvmReadEffect]
@[simp] theorem nvmStageEffect_zoneView (c : Cmd) (s : State) : (nvmStageEffect c s).zoneView = s.zoneView := by
  simp [nvmStageEffect]
@[simp] theorem nvmCommitEffect_zoneView (c : Cmd) (s : State) : (nvmCommitEffect c s).zoneView = s.zoneView := by
  simp [nvmCommitEffect]
@[simp] theorem nvmEraseEffect_zoneView (c : Cmd) (s : State) : (nvmEraseEffect c s).zoneView = s.zoneView := by
  simp [nvmEraseEffect]
@[simp] theorem keyProvisionEffect_zoneView (c : Cmd) (s : State) : (keyProvisionEffect c s).zoneView = s.zoneView := by
  simp [keyProvisionEffect]

/-! ### Pavane, the flush and the takeover -/

@[simp] theorem State.interrupt_zoneView (b : Nat) (s : State) : (s.interrupt b).zoneView = s.zoneView := by
  simp [State.interrupt]
@[simp] theorem State.withStatus_zoneView (f : State → State) (s : State) : (s.withStatus f).zoneView = (f s).zoneView := by
  simp [State.withStatus]
@[simp] theorem State.dropUnaccepted_zoneView (s : State) : s.dropUnaccepted.zoneView = s.zoneView := by rfl
@[simp] theorem State.startFlush_zoneView (s : State) : s.startFlush.zoneView = s.zoneView := by rfl
@[simp] theorem State.pavaneOutputs_safe (s : State) : s.pavaneOutputs.zoneView.Safe := by simp [State.pavaneOutputs]
/-- Pavane ends with its outputs driven, not clear (R414, Table 16.5). -/
@[simp] theorem State.startPavane_safe (cause : PavaneCause) (s : State) (hs : s.zoneView.Safe) :
    (s.startPavane cause).zoneView.Safe := by
  simp only [State.startPavane]
  split
  · exact hs
  · simp
@[simp] theorem State.tearStore_zoneView (s : State) : s.tearStore.zoneView = s.zoneView := by
  fun_cases State.tearStore <;> simp +zetaDelta
@[simp] theorem pfail_safe (s : State) (hs : s.zoneView.Safe) : (pfail s).zoneView.Safe := by simp [pfail, hs]
@[simp] theorem xoStop_safe (s : State) (hs : s.zoneView.Safe) : (xoStop s).zoneView.Safe := by
  have hlost : ((s.onClk fun c => { c with xoStop := true, xoStopSeen := true }).loseClock srcXo).zoneView.Safe :=
    State.loseClock_safe _ _ (by simpa using hs)
  simp only [xoStop]
  split
  · exact hs
  · rw [State.onPower_zoneView _ _ (by simp)]
    refine State.startPavane_safe _ _ ?_
    split
    · exact State.loseLock_safe _ _ hlost
    · exact hlost
@[simp] theorem State.powerDomainsDown_zoneView (s : State) : s.powerDomainsDown.zoneView = s.zoneView := by
  simp [State.powerDomainsDown]
@[simp] theorem pavanePowerDown_zoneView (s : State) : (pavanePowerDown s).zoneView = s.zoneView := by simp [pavanePowerDown]
@[simp] theorem State.takeOver_safe (s : State) (hs : s.zoneView.Safe) : s.takeOver.zoneView.Safe := by
  simp [State.takeOver, hs]
@[simp] theorem standbyComparisonFail_safe (s : State) (hs : s.zoneView.Safe) : (standbyComparisonFail s).zoneView.Safe := by
  simp [standbyComparisonFail, hs]
@[simp] theorem State.powerDownReply_zoneView (s : State) (x : Cmd × Nat) : (s.powerDownReply x).zoneView = s.zoneView := by
  simp [State.powerDownReply]
@[simp] theorem State.powerDownReplies_zoneView (s : State) : s.powerDownReplies.zoneView = s.zoneView := by
  simp [State.powerDownReplies]
@[simp] theorem powerDownEffect_zoneView (c : Cmd) (s : State) : (powerDownEffect c s).zoneView = s.zoneView := by
  simp [powerDownEffect]

/-! ### Check units and memory errors -/

@[simp] theorem State.histWordLost_zoneView (bank word : Nat) (s : State) :
    (s.histWordLost bank word).zoneView = s.zoneView := by
  simp [State.histWordLost]
@[simp] theorem State.breakView_safe (h : Nat) (s : State) (hs : s.zoneView.Safe) : (s.breakView h).zoneView.Safe := by
  simp +contextual [hs, State.breakView]
@[simp] theorem State.abandonChains_safe (h : Nat) (s : State) (hs : s.zoneView.Safe) :
    (s.abandonChains h).zoneView.Safe := by
  refine safe_foldl _ _ _ (fun s g hs => ?_) hs
  repeat' split
  all_goals simp [hs]
@[simp] theorem State.addLost_zoneView (w : LostWord) (s : State) : (s.addLost w).zoneView = s.zoneView := by
  simp [State.addLost]
@[simp] theorem State.viewWordLost_safe (params shadow : Bool) (s : State) (hs : s.zoneView.Safe) :
    (s.viewWordLost params shadow).zoneView.Safe := by simp only [State.viewWordLost]; split <;> simp [hs]
@[simp] theorem State.waveWordLost_zoneView (core word : Nat) (s : State) :
    (s.waveWordLost core word).zoneView = s.zoneView := by
  unfold State.waveWordLost; split <;> simp
@[simp] theorem State.frameWordLost_zoneView (s : State) : s.frameWordLost.zoneView = s.zoneView := by rfl
@[simp] theorem State.reloadStandby_zoneView (s : State) : s.reloadStandby.zoneView = s.zoneView := by
  simp [State.reloadStandby]
@[simp] theorem State.pairWordLost_safe (pair : Nat) (s : State) (hs : s.zoneView.Safe) :
    (s.pairWordLost pair).zoneView.Safe := by simp [hs, State.pairWordLost]
@[simp] theorem State.captureWordLost_zoneView (w : Nat) (s : State) : (s.captureWordLost w).zoneView = s.zoneView := by rfl
@[simp] theorem State.cycWordLost_zoneView (s : State) : s.cycWordLost.zoneView = s.zoneView := by
  fun_cases State.cycWordLost <;> simp +zetaDelta
@[simp] theorem State.bankOut_zoneView (b : Nat) (s : State) : (s.bankOut b).zoneView = s.zoneView := by simp [State.bankOut]
@[simp] theorem State.bankBack_zoneView (b : Nat) (s : State) : (s.bankBack b).zoneView = s.zoneView := by simp [State.bankBack]
@[simp] theorem State.recopyEnd_zoneView (b : Nat) (good : Bool) (s : State) : (s.recopyEnd b good).zoneView = s.zoneView := by
  simp [State.recopyEnd]
@[simp] theorem journalRecopyTry_zoneView (b : Nat) (good : Bool) (s : State) :
    (journalRecopyTry b good s).zoneView = s.zoneView := by
  simp [journalRecopyTry]
@[simp] theorem keeperDomainFault_zoneView (b : Nat) (present : Bool) (s : State) :
    (keeperDomainFault b present s).zoneView = s.zoneView := by
  have hnvm (n : Nvm) : (if b = 0 then { n with bank0 := !present } else { n with bank1 := !present }).flush0 = n.flush0 ∧
      (if b = 0 then { n with bank0 := !present } else { n with bank1 := !present }).flush1 = n.flush1 := by
    split <;> exact ⟨rfl, rfl⟩
  simp [keeperDomainFault]
@[simp] theorem State.bankWordLost_zoneView (b word : Nat) (s : State) : (s.bankWordLost b word).zoneView = s.zoneView := by
  fun_cases State.bankWordLost <;> simp +zetaDelta
@[simp] theorem State.wordLost_safe (row region word : Nat) (s : State) (hs : s.zoneView.Safe) :
    (s.wordLost row region word).zoneView.Safe := by unfold State.wordLost; split <;> simp [hs]
@[simp] theorem State.wordCorrected_zoneView (row region word symbol : Nat) (s : State) :
    (s.wordCorrected row region word symbol).zoneView = s.zoneView := by simp [State.wordCorrected]
@[simp] theorem State.endPass_zoneView (row region word : Nat) (s : State) :
    (s.endPass row region word).zoneView = s.zoneView := by
  simp [State.endPass]
@[simp] theorem scrubWord_safe (row region word : Nat) (found : ScrubResult) (s : State) (hs : s.zoneView.Safe) :
    (scrubWord row region word found s).zoneView.Safe := by
  simp only [scrubWord]
  repeat' split
  all_goals simp [hs]
@[simp] theorem checkUnitScanDone_zoneView (u : Nat) (bytes : List Byte) (uncorrectable : Bool) (s : State) :
    (checkUnitScanDone u bytes uncorrectable s).zoneView = s.zoneView := by simp [checkUnitScanDone]
@[simp] theorem checkUnitEffect_zoneView (c : Cmd) (s : State) : (checkUnitEffect c s).zoneView = s.zoneView := by
  simp [checkUnitEffect]
@[simp] theorem memoryStatusEffect_zoneView (c : Cmd) (s : State) : (memoryStatusEffect c s).zoneView = s.zoneView := by
  simp [memoryStatusEffect]

/-! ### Health records -/

@[simp] theorem timebaseStatusEffect_zoneView (c : Cmd) (s : State) : (timebaseStatusEffect c s).zoneView = s.zoneView := by
  simp [timebaseStatusEffect]
@[simp] theorem State.clearFabric_zoneView (t m : Nat) (s : State) : (s.clearFabric t m).zoneView = s.zoneView := by rfl
@[simp] theorem fabricStatusEffect_zoneView (c : Cmd) (s : State) : (fabricStatusEffect c s).zoneView = s.zoneView := by
  simp [fabricStatusEffect]
@[simp] theorem State.snapshotHealth_zoneView (s : State) : s.snapshotHealth.zoneView = s.zoneView := by rfl
@[simp] theorem State.clearHealth_zoneView (m : Nat) (s : State) : (s.clearHealth m).zoneView = s.zoneView := by rfl
@[simp] theorem healthReadEffect_zoneView (c : Cmd) (s : State) : (healthReadEffect c s).zoneView = s.zoneView := by
  simp [healthReadEffect]
@[simp] theorem State.sendSegment_zoneView (s : State) (k : Nat) : (s.sendSegment k).zoneView = s.zoneView := by
  simp [State.sendSegment]
@[simp] theorem State.publishHealth_zoneView (s : State) : s.publishHealth.zoneView = s.zoneView := by
  simp [State.publishHealth]
@[simp] theorem healthPublish_zoneView (s : State) : (healthPublish s).zoneView = s.zoneView := by simp [healthPublish]
@[simp] theorem tileTempRead_zoneView (t : Nat) (temp : Int) (selfCheck : Bool) (s : State) :
    (tileTempRead t temp selfCheck s).zoneView = s.zoneView := by simp [tileTempRead]

/-! ### The margin re-plan -/

@[simp] theorem State.applyMargins_zoneView (s : State) : s.applyMargins.zoneView = s.zoneView := by simp [State.applyMargins]
@[simp] theorem State.applyDnl_zoneView (s : State) : s.applyDnl.zoneView = s.zoneView := by simp [State.applyDnl]
@[simp] theorem State.restartMonitors_zoneView (s : State) : s.restartMonitors.zoneView = s.zoneView := by rfl
@[simp] theorem State.replan_zoneView (s : State) : s.replan.zoneView = s.zoneView := by simp [State.replan]
@[simp] theorem replanEffect_zoneView (c : Cmd) (s : State) : (replanEffect c s).zoneView = s.zoneView := by simp [replanEffect]
@[simp] theorem replanPeriodic_zoneView (s : State) : (replanPeriodic s).zoneView = s.zoneView := by simp [replanPeriodic]

/-! ### Tests, substitutions and grants -/

@[simp] theorem State.answer_zoneView (st det result : Nat) (cmds : List (Nat × Cmd)) (s : State) :
    (s.answer st det result cmds).zoneView = s.zoneView := by simp [State.answer]
@[simp] theorem State.repaired_zoneView (result : Nat) (a : Activity) (s : State) :
    (s.repaired result a).zoneView = s.zoneView := by
  simp [State.repaired]
@[simp] theorem State.prepareSpare_zoneView (a : Activity) (s : State) : (s.prepareSpare a).zoneView = s.zoneView := by
  unfold State.prepareSpare; split <;> simp
@[simp] theorem State.steer_zoneView (ch fe : Nat) (s : State) : (s.steer ch fe).zoneView = s.zoneView := by simp [State.steer]
@[simp] theorem frontEndSwitch_zoneView (ch : Nat) (s : State) : (frontEndSwitch ch s).zoneView = s.zoneView := by
  fun_cases frontEndSwitch <;> simp +zetaDelta
@[simp] theorem State.spareFailed_zoneView (a : Activity) (s : State) : (s.spareFailed a).zoneView = s.zoneView := by
  unfold State.spareFailed; split <;> simp
@[simp] theorem State.bindEngine_zoneView (e h : Nat) (old : Option Nat) (s : State) :
    (s.bindEngine e h old).zoneView = s.zoneView := by
  unfold State.bindEngine; split <;> simp
@[simp] theorem State.endEngineRepair_zoneView (a : Activity) (s : State) : (s.endEngineRepair a).zoneView = s.zoneView := by
  simp only [State.endEngineRepair]; split <;> simp
@[simp] theorem State.restoreSlots_zoneView (e : Nat) (s : State) : (s.restoreSlots e).zoneView = s.zoneView := by
  simp [State.restoreSlots]
@[simp] theorem State.steerCore_zoneView (e k : Nat) (s : State) : (s.steerCore e k).zoneView = s.zoneView := by
  simp [State.steerCore]
@[simp] theorem State.coreFailed_zoneView (e : Nat) (s : State) : (s.coreFailed e).zoneView = s.zoneView := by
  unfold State.coreFailed; split <;> simp
@[simp] theorem State.endCoreRepair_safe (a : Activity) (ok : Bool) (s : State) (hs : s.zoneView.Safe) :
    (s.endCoreRepair a ok).zoneView.Safe := by
  fun_cases State.endCoreRepair <;> simp +zetaDelta [hs]
@[simp] theorem State.endRowRepair_zoneView (a : Activity) (ok : Bool) (s : State) :
    (s.endRowRepair a ok).zoneView = s.zoneView := by
  fun_cases State.endRowRepair <;> simp +zetaDelta
@[simp] theorem activityComplete_safe (scope : Nat) (ok : Bool) (s : State) (hs : s.zoneView.Safe) :
    (activityComplete scope ok s).zoneView.Safe := by fun_cases activityComplete <;> simp +zetaDelta [hs]
@[simp] theorem State.markTarget_zoneView (test target : Nat) (bad : Bool) (s : State) :
    (s.markTarget test target bad).zoneView = s.zoneView := by fun_cases State.markTarget <;> simp +zetaDelta
@[simp] theorem State.endFilterTest_zoneView (pass : Bool) (s : State) : (s.endFilterTest pass).zoneView = s.zoneView := by
  simp [State.endFilterTest]
@[simp] theorem State.noteTest_zoneView (test target : Nat) (s : State) : (s.noteTest test target).zoneView = s.zoneView := by
  rfl
@[simp] theorem testComplete_zoneView (scope : Nat) (pass : Bool) (s : State) :
    (testComplete scope pass s).zoneView = s.zoneView := by
  unfold testComplete; split <;> simp
@[simp] theorem selfTestPeriodic_zoneView (test target : Nat) (s : State) :
    (selfTestPeriodic test target s).zoneView = s.zoneView := by
  simp [selfTestPeriodic]
@[simp] theorem State.preempt_zoneView (s : State) : s.preempt.zoneView = s.zoneView := by
  fun_cases State.preempt <;> simp +zetaDelta
@[simp] theorem State.begin_zoneView (a : Activity) (s : State) : (s.begin a).zoneView = s.zoneView := by simp [State.begin]
@[simp] theorem arbiterGrant_zoneView (s : State) : (arbiterGrant s).zoneView = s.zoneView := by
  fun_cases arbiterGrant <;> simp +zetaDelta
@[simp] theorem selfTestEffect_zoneView (c : Cmd) (s : State) : (selfTestEffect c s).zoneView = s.zoneView := by
  simp [selfTestEffect]
@[simp] theorem repairEffect_zoneView (c : Cmd) (s : State) : (repairEffect c s).zoneView = s.zoneView := by simp [repairEffect]
@[simp] theorem arbiterStatusEffect_zoneView (c : Cmd) (s : State) : (arbiterStatusEffect c s).zoneView = s.zoneView :=
  State.finish_zoneView ..
@[simp] theorem healthConfigEffect_zoneView (c : Cmd) (s : State) : (healthConfigEffect c s).zoneView = s.zoneView := by
  simp [healthConfigEffect]

/-! ### The revolution boundary and the swap -/

@[simp] theorem revolutionBoundary_zoneView (s : State) : (revolutionBoundary s).zoneView = s.zoneView := by
  simp [revolutionBoundary]
@[simp] theorem State.assignEngines_zoneView (s : State) : s.assignEngines.zoneView = s.zoneView := by
  simp -implicitDefEqProofs [State.assignEngines]
@[simp] theorem State.carryFields_zoneView (old : ConfigSet) (s : State) : (s.carryFields old).zoneView = s.zoneView := by
  simp [State.carryFields]
@[simp] theorem State.reachOpened_zoneView (s : State) : s.reachOpened.zoneView = s.zoneView :=
  zoneView_foldl _ _ _ fun s z => by split <;> simp
@[simp] theorem State.carryAmbient_zoneView (old : ConfigSet) (s : State) : (s.carryAmbient old).zoneView = s.zoneView := by
  simp [State.carryAmbient]
@[simp] theorem State.carryRain_zoneView (old : ConfigSet) (s : State) : (s.carryRain old).zoneView = s.zoneView := by rfl
@[simp] theorem State.carryTrackers_zoneView (before : Nat → Option (List Byte)) (s : State) :
    (s.carryTrackers before).zoneView = s.zoneView := by simp [State.carryTrackers]
@[simp] theorem State.closeOldCells_safe (epoch : Nat) (s : State) (hs : s.zoneView.Safe) :
    (s.closeOldCells epoch).zoneView.Safe := by
  simp +contextual [hs, State.closeOldCells]
@[simp] theorem State.installSet_zoneView (s : State) : s.installSet.zoneView = s.zoneView := by rfl
@[simp] theorem State.swap_safe (k : Commit) (s : State) : (s.swap k).zoneView.Safe := by
  simp [State.swap]
@[simp] theorem setSwap_safe (s : State) (hs : s.zoneView.Safe) : (setSwap s).zoneView.Safe := by
  unfold setSwap; split <;> simp [hs]

/-- Every opcode that writes the shadow set or orders its commit has an effect that keeps them so. -/
theorem setOp_keepsZoneView {op : Nat} {o : OpInfo × (Cmd → State → State)} (h : setOp op = some o) :
    o.1.KeepsZoneView ∧ ∀ c s, (o.2 c s).zoneView = s.zoneView := by
  unfold setOp at h
  split at h <;> cases h <;> exact ⟨.of_plain rfl, by simp⟩

@[simp] theorem State.runWaiting_zoneView (s : State) (x : Nat × Cmd) : (s.runWaiting x).zoneView = s.zoneView := by
  unfold State.runWaiting; split
  · rfl
  · next o ho =>
    obtain ⟨hr, h⟩ := setOp_keepsZoneView ho
    simp only []; split
    · simp
    · split
      · simp [State.refuseRun_zoneView _ _ _ _ _ hr]
      · simp [h]
@[simp] theorem State.runAllWaiting_zoneView (s : State) : s.runAllWaiting.zoneView = s.zoneView := by
  simp [State.runAllWaiting]
@[simp] theorem shadowCopyComplete_zoneView (s : State) : (shadowCopyComplete s).zoneView = s.zoneView := by
  simp [shadowCopyComplete]
@[simp] theorem viewRelease_zoneView (h : Nat) (s : State) : (viewRelease h s).zoneView = s.zoneView := by simp [viewRelease]

/-! ### The system opcodes -/

@[simp] theorem nopEffect_zoneView (c : Cmd) (s : State) : (nopEffect c s).zoneView = s.zoneView := by simp [nopEffect]
@[simp] theorem echoEffect_zoneView (c : Cmd) (s : State) : (echoEffect c s).zoneView = s.zoneView := by simp [echoEffect]
@[simp] theorem getInfoEffect_zoneView (c : Cmd) (s : State) : (getInfoEffect c s).zoneView = s.zoneView := by
  simp [getInfoEffect]
@[simp] theorem resetWarmEffect_zoneView (c : Cmd) (s : State) : (resetWarmEffect c s).zoneView = s.zoneView := by rfl
@[simp] theorem State.rejectHeld_zoneView (s : State) (h : Held) : (s.rejectHeld h).zoneView = s.zoneView := by rfl
@[simp] theorem seqSetEffect_zoneView (c : Cmd) (s : State) : (seqSetEffect c s).zoneView = s.zoneView := by simp [seqSetEffect]
@[simp] theorem queueBindEffect_zoneView (c : Cmd) (s : State) : (queueBindEffect c s).zoneView = s.zoneView := by
  simp [queueBindEffect]

/-! ### Receipt of packets -/

@[simp] theorem State.refuse_zoneView (ring ver op : Nat) (c : Cmd) (st det : Nat) (raw : Option (List Byte)) (s : State) :
    (s.refuse ring ver op c st det raw).zoneView = s.zoneView := by simp [State.refuse]

theorem unlockInfo_keepsZoneView : unlockInfo.KeepsZoneView := unlockRejected_zoneView

/-- A wrong answer to the challenge is the one rejection of the chapter that leaves something behind (R236). -/
theorem infoEmission_keepsZoneView : ∀ o ∈ infoEmission, o.KeepsZoneView := by
  intro o ho
  fin_cases ho
  pick_goal 6
  · exact unlockInfo_keepsZoneView
  all_goals exact .of_plain rfl

/-- Every rejection of a defined opcode keeps the zone outputs as they are. -/
theorem opInfo_keepsZoneView {op : Nat} {o : OpInfo} (h : opInfo op = some o) : o.KeepsZoneView := by
  have hm := List.mem_of_find?_eq_some h
  simp only [List.mem_append] at hm
  obtain ((((((((h | h) | h) | h) | h) | h) | h) | h) | h) | h := hm
  pick_goal 3
  · exact infoEmission_keepsZoneView o h
  all_goals (fin_cases h <;> exact .of_plain rfl)

@[simp] theorem State.rejectConsumed_zoneView (k op : Nat) (c : Cmd) (st det : Nat) (s : State) :
    (s.rejectConsumed (opInfo k) op c st det).zoneView = s.zoneView := by
  unfold State.rejectConsumed
  cases h : opInfo k with
  | none => simp
  | some i => simp [opInfo_keepsZoneView h c st det s]

/-- Every opcode that permits UNSEQ runs an effect that keeps the zone outputs as they are. -/
theorem unseqEffects_safe : ∀ e ∈ unseqEffects, e.1.KeepsZoneView ∧ ∀ c s, s.zoneView.Safe → (e.2 c s).zoneView.Safe := by
  intro e he
  fin_cases he <;> exact ⟨.of_plain rfl, by simp +contextual⟩

@[simp] theorem State.runUnseq_safe (op : Nat) (c : Cmd) (s : State) (hs : s.zoneView.Safe) :
    (s.runUnseq op c).zoneView.Safe := by
  unfold State.runUnseq; split
  · next e he =>
    obtain ⟨hr, h⟩ := unseqEffects_safe e (List.mem_of_find?_eq_some he)
    exact State.run_safe _ _ _ _ hr (h c) hs
  · exact hs
@[simp] theorem State.examine_safe (op : Nat) (c : Cmd) (s : State) (hs : s.zoneView.Safe) :
    (s.examine op c).zoneView.Safe := by
  simp only [State.examine]; split
  · split <;> simp [hs]
  · simp [hs]
@[simp] theorem State.examineFrom7_safe (h : Held) (s : State) (hs : s.zoneView.Safe) :
    (s.examineFrom7 h).zoneView.Safe := by
  unfold State.examineFrom7; split <;> simp [hs]
@[simp] theorem State.examineHeld_safe (q : Nat) (s : State) (n : Nat) (hs : s.zoneView.Safe) :
    (s.examineHeld q n).zoneView.Safe := by
  induction n generalizing s with
  | zero => exact hs
  | succ n ih => simp only [State.examineHeld]; split <;> simp [hs, ih]
@[simp] theorem State.releaseHeld_safe (q : Nat) (s : State) (hs : s.zoneView.Safe) : (s.releaseHeld q).zoneView.Safe := by
  simp [hs, State.releaseHeld]
@[simp] theorem State.takeTag_safe (ring op : Nat) (c : Cmd) (s : State) (hs : s.zoneView.Safe) :
    (s.takeTag ring op c).zoneView.Safe := by
  simp [hs, State.takeTag]
@[simp] theorem State.hold_zoneView (ring op : Nat) (c : Cmd) (s : State) : (s.hold ring op c).zoneView = s.zoneView := by
  simp [State.hold]
@[simp] theorem State.repeatReply_zoneView (ring : Nat) (c : Cmd) (d : DupRec) (s : State) :
    (s.repeatReply ring c d).zoneView = s.zoneView := by rfl
@[simp] theorem State.duplicate_zoneView (ring op : Nat) (c : Cmd) (s : State) :
    (s.duplicate ring op c).zoneView = s.zoneView := by
  unfold State.duplicate; split <;> simp
@[simp] theorem State.classify_safe (ring op : Nat) (c : Cmd) (s : State) (hs : s.zoneView.Safe) :
    (s.classify ring op c).zoneView.Safe := by
  simp [hs, State.classify]
@[simp] theorem State.sequence_safe (ring op : Nat) (c : Cmd) (s : State) (hs : s.zoneView.Safe) :
    (s.sequence ring op c).zoneView.Safe := by
  simp [hs, State.sequence]
@[simp] theorem State.receive_safe (ring : Option Nat) (via : Via) (b : List Byte) (s : State) (hs : s.zoneView.Safe) :
    (s.receive ring via b).zoneView.Safe := by fun_cases State.receive <;> simp +zetaDelta [hs]
@[simp] theorem State.dropChecked_zoneView (k : Checked) (s : State) : (s.dropChecked k).zoneView = s.zoneView := by rfl
@[simp] theorem State.enter_zoneView (k : Checked) (st : EntryState) (b : StatusBlock) (r : Option Reply) (s : State) :
    (s.enter k st b r).zoneView = s.zoneView := by rfl
@[simp] theorem State.accept_zoneView (k : Checked) (s : State) : (s.accept k).zoneView = s.zoneView := by simp [State.accept]
@[simp] theorem State.notDurable_zoneView (bank : Nat) (k : Checked) (s : State) :
    (s.notDurable bank k).zoneView = s.zoneView := by
  rfl
@[simp] theorem State.acceptUse_zoneView (op : Nat) (c : Cmd) (s : State) : (s.acceptUse op c).zoneView = s.zoneView := by
  simp [State.acceptUse]
@[simp] theorem journalAccept_safe (q : Nat) (rb : ReadBack) (s : State) (hs : s.zoneView.Safe) :
    (journalAccept q rb s).zoneView.Safe := by
  unfold journalAccept; split
  · exact hs
  · split
    · exact hs
    · next k _ =>
      extract_lets t u v
      have hv : v.zoneView = s.zoneView := by simp [v, u, t]
      repeat' split
      all_goals simp [hs, hv]
@[simp] theorem holdExpire_zoneView (q seq : Nat) (s : State) : (holdExpire q seq s).zoneView = s.zoneView := by
  unfold holdExpire; split <;> simp

/-! ### The replay and the warm start -/

@[simp] theorem State.raiseNext_zoneView (s : State) (o : OddCopy) : (s.raiseNext o).zoneView = s.zoneView := by
  fun_cases State.raiseNext <;> simp +zetaDelta
@[simp] theorem State.restoreControl_zoneView (bad : List BadCopy) (odd : List OddCopy) (s : State) :
    (s.restoreControl bad odd).zoneView = s.zoneView := by simp [State.restoreControl]
@[simp] theorem State.oweReply_zoneView (dup : Bool) (l : Live) (r : Reply) (s : State) :
    (s.oweReply dup l r).zoneView = s.zoneView := by
  simp [State.oweReply]
@[simp] theorem State.resolve_zoneView (waited : List Reply) (bad : List BadCopy) (odd : List OddCopy) (s : State) (l : Live) :
    (s.resolve waited bad odd l).zoneView = s.zoneView := by fun_cases State.resolve <;> simp +zetaDelta
@[simp] theorem State.replay_zoneView (bad : List BadCopy) (odd : List OddCopy) (s : State) :
    (s.replay bad odd).zoneView = s.zoneView := by simp [State.replay]
@[simp] theorem takeoverComplete_zoneView (bad : List BadCopy) (odd : List OddCopy) (s : State) :
    (takeoverComplete bad odd s).zoneView = s.zoneView := by simp [takeoverComplete]

/-! ### The transports -/

@[simp] theorem State.onRing_zoneView (q : Nat) (f : Ring → Ring) (s : State) : (s.onRing q f).zoneView = s.zoneView := by rfl
@[simp] theorem sqDoorbell_zoneView (q v : Nat) (s : State) : (sqDoorbell q v s).zoneView = s.zoneView := by simp [sqDoorbell]
@[simp] theorem rqDoorbell_zoneView (q v : Nat) (s : State) : (rqDoorbell q v s).zoneView = s.zoneView := by simp [rqDoorbell]
@[simp] theorem qEnable_zoneView (q : Nat) (s : State) : (qEnable q s).zoneView = s.zoneView := by simp [qEnable]
@[simp] theorem qDisable_zoneView (q : Nat) (s : State) : (qDisable q s).zoneView = s.zoneView := by simp [qDisable]
@[simp] theorem intStatusClear_zoneView (mask : Nat) (s : State) : (intStatusClear mask s).zoneView = s.zoneView := by
  simp [intStatusClear]
@[simp] theorem State.writeRing_zoneView (q o v : Nat) (s : State) : (s.writeRing q o v).zoneView = s.zoneView := by
  simp [State.writeRing]
@[simp] theorem registerWrite_zoneView (off v : Nat) (s : State) : (registerWrite off v s).zoneView = s.zoneView := by
  simp [registerWrite]
@[simp] theorem pciePerst_zoneView (l : Perst) (s : State) : (pciePerst l s).zoneView = s.zoneView := by
  unfold pciePerst; split <;> simp
@[simp] theorem descriptorFetch_safe (q : Nat) (readError : Bool) (desc packet : List Byte) (s : State) (hs : s.zoneView.Safe) :
    (descriptorFetch q readError desc packet s).zoneView.Safe := by simp [hs, descriptorFetch]
@[simp] theorem replyRingWrite_zoneView (q : Nat) (s : State) : (replyRingWrite q s).zoneView = s.zoneView := by
  unfold replyRingWrite; split <;> simp
@[simp] theorem State.takeTrdp_safe (m : TrdpMessage) (s : State) (hs : s.zoneView.Safe) :
    (s.takeTrdp m).zoneView.Safe := by simp [hs, State.takeTrdp]
@[simp] theorem State.storeTrdp_safe (m : TrdpMessage) (s : State) (hs : s.zoneView.Safe) :
    (s.storeTrdp m).zoneView.Safe := by
  simp [hs, State.storeTrdp]
@[simp] theorem trdpMrReceive_safe (m : TrdpMessage) (s : State) (hs : s.zoneView.Safe) :
    (trdpMrReceive m s).zoneView.Safe := by
  simp [hs, trdpMrReceive]
@[simp] theorem State.onSpi_zoneView (f : Spi → Spi) (s : State) : (s.onSpi f).zoneView = s.zoneView := by rfl
@[simp] theorem State.takeSpi_safe (s : State) (hs : s.zoneView.Safe) : s.takeSpi.zoneView.Safe := by
  unfold State.takeSpi; split <;> simp [hs]
@[simp] theorem spiWritePacket_safe (b : List Byte) (s : State) (hs : s.zoneView.Safe) :
    (spiWritePacket b s).zoneView.Safe := by
  simp [hs, spiWritePacket]
@[simp] theorem spiReadStatus_zoneView (s : State) : (spiReadStatus s).zoneView = s.zoneView := by simp [spiReadStatus]
@[simp] theorem spiReadReply_zoneView (complete : Bool) (s : State) : (spiReadReply complete s).zoneView = s.zoneView := by
  fun_cases spiReadReply <;> simp +zetaDelta
@[simp] theorem spiUnknownInstruction_zoneView (code : Nat) (s : State) :
    (spiUnknownInstruction code s).zoneView = s.zoneView := by
  simp [spiUnknownInstruction]
@[simp] theorem State.takeWaiting_safe (s : State) (hs : s.zoneView.Safe) : s.takeWaiting.zoneView.Safe := by
  simp only [State.takeWaiting]; split <;> simp [hs]

/-! ### The test access port -/

@[simp] theorem State.setIr_zoneView (i : JtagIr) (s : State) : (s.setIr i).zoneView = s.zoneView := by rfl
@[simp] theorem jtagBypass_zoneView (s : State) : (jtagBypass s).zoneView = s.zoneView := by rfl
@[simp] theorem jtagIdcode_zoneView (s : State) : (jtagIdcode s).zoneView = s.zoneView := by rfl
@[simp] theorem jtagSamplePreload_zoneView (x : JtagScan) (s : State) : (jtagSamplePreload x s).zoneView = s.zoneView := by rfl
@[simp] theorem jtagExtest_zoneView (s : State) : (jtagExtest s).zoneView = s.zoneView := by simp [jtagExtest]
@[simp] theorem jtagTapReset_zoneView (s : State) : (jtagTapReset s).zoneView = s.zoneView := by rfl

/-! ### The tick -/

@[simp] theorem State.tickClock_zoneView (s : State) : s.tickClock.zoneView = s.zoneView := by simp [State.tickClock]

/-! ### The cold start -/

@[simp] theorem State.resolveLost_zoneView (s : State) (l : Live) : (s.resolveLost l).zoneView = s.zoneView := by
  fun_cases State.resolveLost <;> simp +zetaDelta
@[simp] theorem State.answerLost_zoneView (s : State) : s.answerLost.zoneView = s.zoneView := by simp [State.answerLost]
@[simp] theorem State.drawStartId_zoneView (old : Nat) (s : State) : (s.drawStartId old).zoneView = s.zoneView := by
  simp [State.drawStartId]
@[simp] theorem State.powerDomains_zoneView (l : List Domain) (s : State) : (s.powerDomains l).zoneView = s.zoneView := by rfl
@[simp] theorem State.clockStep_zoneView (ok : Bool) (s : State) : (s.clockStep ok).zoneView = s.zoneView := by
  simp [State.clockStep]
@[simp] theorem State.noteSpares_zoneView (s : State) : s.noteSpares.zoneView = s.zoneView := by simp [State.noteSpares]
@[simp] theorem State.failedFe_zoneView (s : State) (f : Nat) : (s.failedFe f).zoneView = s.zoneView := by
  unfold State.failedFe; split <;> simp
@[simp] theorem State.failedCore_zoneView (s : State) (k : Nat) : (s.failedCore k).zoneView = s.zoneView := by
  simp only [State.failedCore]; split <;> simp
@[simp] theorem State.testStep_zoneView (st : ColdStart) (s : State) : (s.testStep st).zoneView = s.zoneView := by
  simp [State.testStep]
@[simp] theorem State.paceStep_zoneView (st : ColdStart) (s : State) : (s.paceStep st).zoneView = s.zoneView := by rfl
@[simp] theorem State.laneStep_zoneView (st : ColdStart) (s : State) : (s.laneStep st).zoneView = s.zoneView := by
  simp [State.laneStep]
@[simp] theorem State.restLanes_zoneView (s : State) : s.restLanes.zoneView = s.zoneView := by simp [State.restLanes]
@[simp] theorem State.excStep_zoneView (s : State) : s.excStep.zoneView = s.zoneView := by simp [State.excStep]
@[simp] theorem State.lastSteps_safe (st : ColdStart) (s : State) (hs : s.zoneView.Safe) :
    (s.lastSteps st).zoneView.Safe := by
  simp only [State.lastSteps, State.refreshPlan_zoneView, State.startAux_zoneView, State.onAux_zoneView, State.tryClearLedger_zoneView]
  refine State.registerCause_safe _ _ ?_
  simp -implicitDefEqProofs [hs]

/-! ### What changes the phase -/

/-- Any phase but Pavane is safe for outputs that are (R202). -/
theorem State.onPower_safe (f : Power → Power) (s : State) (hf : (f s.power).phase ≠ .pavane) (hs : s.zoneView.Safe) :
    (s.onPower f).zoneView.Safe := by
  obtain ⟨hAB, hfault, hA, hB⟩ := hs
  exact ⟨hAB, fun h => ⟨(hfault h).1, (hfault h).2.1, hf⟩, hA, hB⟩

@[simp] theorem State.powerDownPavane_safe (s : State) (hs : s.zoneView.Safe) : s.powerDownPavane.zoneView.Safe := by
  unfold State.powerDownPavane
  repeat' split
  all_goals simp [hs]
@[simp] theorem State.flushUnits_zoneView (a b : JournalImage) (s : State) : (s.flushUnits a b).zoneView = s.zoneView := by rfl
@[simp] theorem State.writeFlush_zoneView (whole : Bool) (s : State) : (s.writeFlush whole).zoneView = s.zoneView := by rfl
@[simp] theorem journalFlushComplete_zoneView (s : State) : (journalFlushComplete s).zoneView = s.zoneView := by
  simp only [journalFlushComplete]
  repeat' split
  all_goals simp
@[simp] theorem State.resendFrames_zoneView (s : State) : s.resendFrames.zoneView = s.zoneView := by simp [State.resendFrames]
@[simp] theorem State.restartActivities_zoneView (s : State) : s.restartActivities.zoneView = s.zoneView := by rfl
@[simp] theorem State.warmLanes_zoneView (s : State) : s.warmLanes.zoneView = s.zoneView := by simp [State.warmLanes]
@[simp] theorem State.quiesce_safe (s : State) (hs : s.zoneView.Safe) : s.quiesce.zoneView.Safe := by simp [State.quiesce, hs]
@[simp] theorem State.warmTo_zoneView (w : WarmStep) (s : State) : (s.warmTo w).zoneView = s.zoneView := by simp [State.warmTo]
@[simp] theorem State.warmRelease_safe (w : WarmRun) (s : State) (hs : s.zoneView.Safe) : (s.warmRelease w).zoneView.Safe := by
  have hphase : (if w.recovery then StartPhase.recovery else .ready) ≠ .pavane := by split <;> decide
  simp only [State.warmRelease, State.withStatus_zoneView]
  split
  · rw [State.done_zoneView]
    exact State.onPower_safe _ _ hphase (by simp [hs])
  · exact State.onPower_safe _ _ hphase (by simp [hs])
@[simp] theorem State.escalate_safe (s : State) (hs : s.zoneView.Safe) : s.escalate.zoneView.Safe := by
  simp [State.escalate, hs]
@[simp] theorem State.warmStep_safe (s : State) (hs : s.zoneView.Safe) : s.warmStep.zoneView.Safe := by
  unfold State.warmStep
  split
  · exact hs
  · dsimp only
    repeat' split
    all_goals simp [hs]
@[simp] theorem warmStart_safe (imageOk : Bool) (bad : List BadCopy) (odd : List OddCopy) (s : State) (hs : s.zoneView.Safe) :
    (warmStart imageOk bad odd s).zoneView.Safe := by
  unfold warmStart
  split
  · exact hs
  · rw [State.withStatus_zoneView]
    exact State.onPower_safe _ _ nofun (State.quiesce_safe s hs)
@[simp] theorem State.loadImage_zoneView (i : FlushImage) (s : State) : (s.loadImage i).zoneView = s.zoneView := by
  simp [State.loadImage]
@[simp] theorem State.loadJournal_zoneView (s : State) : s.loadJournal.zoneView = s.zoneView := by
  unfold State.loadJournal; split <;> simp
@[simp] theorem State.loadStep_safe (s : State) (hs : s.zoneView.Safe) : s.loadStep.zoneView.Safe := by
  simp [State.loadStep, hs]
@[simp] theorem State.releaseStart_safe (s : State) (hs : s.zoneView.Safe) : s.releaseStart.zoneView.Safe := by
  rw [State.releaseStart, State.withStatus_zoneView]
  exact State.onPower_safe _ _ nofun (by simpa using hs)
@[simp] theorem State.enterRecovery_safe (s : State) (hs : s.zoneView.Safe) : s.enterRecovery.zoneView.Safe := by
  rw [State.enterRecovery, State.withStatus_zoneView]
  exact State.onPower_safe _ _ nofun (by simpa using hs)
@[simp] theorem State.coldSteps_safe (st : ColdStart) (s : State) (hs : s.zoneView.Safe) : (s.coldSteps st).zoneView.Safe := by
  have hload := State.loadStep_safe s hs
  have hlast (t : State) (ht : t.zoneView.Safe) : ((t.testStep st).lastSteps st).zoneView.Safe :=
    State.lastSteps_safe st _ (by simpa using ht)
  simp only [State.coldSteps]
  repeat' split
  · simp [hload]
  · simp [hload]
  · simp [hload]
  · refine State.releaseStart_safe _ ?_
    rw [State.answerLost_zoneView]
    exact hlast _ (by simp [hload])

/-- A cold start begins with the zone outputs of power-on reset. -/
theorem State.freshStart_safe (s : State) : s.freshStart.zoneView.Safe := by
  simp [State.zoneView, State.freshStart, State.reset, Zone.reset, ZoneView.Safe]
@[simp] theorem State.coldStart_safe (st : ColdStart) (s : State) : (s.coldStart st).zoneView.Safe := by
  have hfresh := s.freshStart_safe
  simp only [State.coldStart]
  split <;> simp [hfresh]
@[simp] theorem porRelease_safe (st : ColdStart) (s : State) : (porRelease st s).zoneView.Safe := by simp [porRelease]
@[simp] theorem pfailRecover_safe (st : ColdStart) (s : State) (hs : s.zoneView.Safe) : (pfailRecover st s).zoneView.Safe := by
  simp [pfailRecover, hs]
@[simp] theorem tick_safe (s : State) (hs : s.zoneView.Safe) : (tick s).zoneView.Safe := by
  have hclock : ([0, 1].foldl State.askPeer s.tickClock).decideSwap.powerDownReplies.zoneView.Safe := by simpa using hs
  exact State.takeWaiting_safe _ (State.warmStep_safe _ (State.powerDownPavane_safe _ hclock))

/-! ### Commands and steps -/

/-- Every command keeps the zone outputs safe. A packet runs its effect behind the checks of steps 8 to 11, an angle packet also
behind a reset that waits; every other row is an operation of its own. -/
theorem exec_keeps_zoneSafe (i : Instr) (s t : State) (hs : s.zoneView.Safe) (h : exec i s = .next t) : t.zoneView.Safe := by
  suffices ∃ u, exec i s = .next u ∧ u.zoneView.Safe by
    obtain ⟨u, hu, hsafe⟩ := this
    obtain rfl := Host.Outcome.next.inj (hu.symm.trans h)
    exact hsafe
  cases i with
  | nop _ | getInfo _ | echo _ | resetWarm _ | seqSet _ | queueBind _ | viewDestroy _ | viewQuery _ | viewParam _
  | viewUpdate _ | setAbort _ | setRead _ | loopConfig _ | loopCoeff _ | cameoArm _ | cameoRead _ | ctrlStatus _
  | motionRecord _ | fireTable _ | nearfieldConfig _ | fieldDefine _ | zoneConfig _ | schedConfig _ | emitHold _
  | shotStatus _ | zoneStatus _ | waveLoad _ | waveLoadClear _ | waveRead _ | waveFade _ | parkSet _ | emitDirect _
  | emitDirectStop _ | ledgerWrite _ | ledgerRead _ | resConfig _ | emitStatus _ | rxConfig _ | biasConfig _
  | rxStatus _ | auxMeasConfig _ | auxSwitchConfig _ | bezelConfig _ | auxRead _ | auxStatus _ | streamConfig _
  | trdpConfig _ | netStatus _ | streamStatus _ | nvmInfo _ | nvmRead _ | nvmStage _ | nvmCommit _ | nvmErase _
  | keyProvision _ | powerDown _ | healthRead _ | timebaseStatus _ | fabricStatus _ | memoryStatus _
  | checkUnitRead _ | checkUnitWrite _ | selfTest _ | replan _ | repairSubstitute _ | repairRetest _
  | arbiterStatus _ | healthConfig _ =>
    exact ⟨_, rfl, State.run_safe _ _ _ _ (.of_plain rfl) (fun t ht => by simp [ht]) hs⟩
  | angleConfig _ | angleFrame _ | filterSync _ | cycSelect _ | encConfig _ | camConfig _ | angleStatus _ =>
    exact ⟨_, rfl, (congrArg ZoneView.Safe (State.angleRun_zoneView _ _ _ _ (.of_plain rfl) (by simp))).mpr hs⟩
  | ledgerUnlockChallenge c | ledgerUnlockResponse c =>
    exact ⟨_, rfl, State.run_safe _ _ _ _ unlockInfo_keepsZoneView (fun t ht => by rwa [unlockEffect_zoneView]) hs⟩
  | setCommit c =>
    have hrun := State.run_safe setCommitInfo c (setCommitEffect c) s (.of_plain rfl) (fun t ht => by rwa [setCommitEffect_zoneView]) hs
    exact ⟨_, rfl, (congrArg ZoneView.Safe (State.dropCommit_zoneView ..)).mpr hrun⟩
  | netFrameReceive port frame =>
    refine ⟨_, rfl, ?_⟩
    split <;> simp [hs]
  | _ => exact ⟨_, rfl, by simp [hs]⟩

/-- Settles O58: every command and the tick keep the zone outputs safe. -/
theorem stepsKeepZoneOutputsSafe : Obligations.StepsKeepZoneOutputsSafe := by
  intro s t hs h
  unfold step at h
  split at h
  · obtain rfl := Host.Outcome.next.inj h
    exact tick_safe s hs
  · next c rest _ => exact exec_keeps_zoneSafe c { s with pending := rest } t hs h

end Sys2Proof.Machine

/-!
## Steps, reset and the test port (R84, R192, R202, R416, R456, R457)
-/
namespace Sys2Proof.Machine

/-- Settles O1: the two branches of `step`. -/
theorem stepRunsTheCommandInFront : Obligations.StepRunsTheCommandInFront := by
  refine ⟨fun c rest s h => ?_, fun s h => ?_⟩
  · simp only [step, h]
  · simp only [step, h]

/-- EXTEST controls a ball only where the device has given up its pins, and never one that is only observed. -/
theorem State.scanned_eq_ball (io33 : Bool) (x : Ball) (s : State) (h : x.observed = true ∨ s.extests = false) :
    s.scanned io33 x = s.ball io33 x := by
  have hnot : (s.extests && x.drivable) = false := by
    rcases h with h | h
    · cases x <;> simp_all [Ball.observed, Ball.drivable]
    · simp [h]
  simp [State.scanned, hnot]

/-- The IDCODE with its fields left open: with literals there the kernel would count them down as it compares the definition with
its value. -/
def idcodeOf (part maker stepping : Nat) : Nat := stepping % 16 * 2 ^ 28 + part * 2 ^ 12 + maker

theorem idcode_eq_idcodeOf : idcode = idcodeOf 0x7192 0x2A7 Config.stepping := rfl

theorem idcodeOf_fields {part maker : Nat} (n : Nat) (hpart : part < 2 ^ 16) (hmaker : maker < 2 ^ 12) :
    idcodeOf part maker n % 2 ^ 12 = maker ∧ idcodeOf part maker n / 2 ^ 12 % 2 ^ 16 = part ∧
    idcodeOf part maker n / 2 ^ 28 = n % 16 ∧ idcodeOf part maker n < 2 ^ 32 := by
  unfold idcodeOf
  omega

theorem idcode_fields : idcode % 2 ^ 12 = 0x2A7 ∧ idcode / 2 ^ 12 % 2 ^ 16 = 0x7192 ∧
    idcode / 2 ^ 28 = Config.stepping % 16 ∧ idcode < 2 ^ 32 := by
  rw [idcode_eq_idcodeOf]
  exact idcodeOf_fields Config.stepping (by decide) (by decide)

/-- Settles O56: each instruction is its TAP register and what it shifts out; EXTEST outside its two states is BYPASS. -/
theorem testPortDisturbsNothing : Obligations.TestPortDisturbsNothing := by
  refine ⟨fun _ => rfl, idcode_fields, fun _ => rfl, fun _ => rfl, fun _ _ => rfl, fun io33 x s => ?_, fun s => ⟨fun h => ?_, fun h1 h2 => ?_⟩⟩
  · exact ⟨s.scanned_eq_ball io33 x, fun h1 h2 => by simp [State.extests, h1, h2]⟩
  · exact congrArg Host.Outcome.next (if_pos (by simpa using h))
  · exact congrArg Host.Outcome.next (if_neg (by simp [h1, h2]))

/-- Settles O60: each figure is a field of the reset state. -/
theorem resetIsDarkAndEmpty : Obligations.ResetIsDarkAndEmpty := by
  refine ⟨rfl, rfl, rfl, ?_, ?_, rfl, rfl, rfl, rfl, rfl, ?_, rfl, rfl⟩
  · intro x hx
    rw [List.eq_of_mem_replicate (show x ∈ List.replicate 16 Emitter.reset from hx)]
    rfl
  · simp [ZoneSafe, State.reset, Zone.reset]
  · intro q hq
    interval_cases q <;> exact ⟨rfl, rfl, rfl, rfl, rfl⟩

end Sys2Proof.Machine

/-!
## Inhibits that release results (R83, R192, R285, R312)

An inhibit closes every open cell (`State.inhibitNow`). Where a channel that serves the cell has gathered nothing yet, its histogram
is begun (`State.startHist`), which takes the channel's other buffer; a histogram that still waits there is abandoned, and the results
that were finished behind it are released to their stream's frame. Their records run through the frame's check unit, and a frame
that closes for a port whose link is down counts there. The state `releasing` is in this position. So a row that can register a cause
changes the check units and the ports, and statements whose frames leave them out fail.
-/
namespace Sys2Proof.Machine

/-- A view of one shot a cell on channel 0. -/
def releasingView : ViewDef :=
  { handle := 1, binding := le 4 0 ++ le 4 65536 ++ le 2 8 ++ [1], params := [], fire := some (zeros 5 ++ [1] ++ zeros 18 ++ [1] ++ zeros 23) }

/-- A result of channel 0 in its view's order of release. -/
def releasingResult (closeSeq : Nat) (done : Bool) : Release :=
  { view := 1, epoch := 0, cell := 5, channel := 0, closeSeq := closeSeq, done := done, abandoned := false, stream := some 0,
    records := [zeros 16], dev := 0, tick := 0, zone := none, ambient := none }

/-- Without an inhibit cause, cell 0 of the view is open and channel 0 has nothing of it; histogram 1 waits for an engine in the
channel's other buffer, and the result of histogram 2 is finished behind it. The stream's frame is open with other settings, and both
links are down. -/
def releasing : State :=
  { State.reset with
    clk := { Clk.reset with now := 10000000000000, tickCount := 10000000000000, started := true, pllLocked := true }
    sched := { Sched.reset with
      inhibit := 0, src := 0
      cells := [{ view := 1, cell := 0, epoch := 0, planned := [0], settled := [0], barred := [], begun := [] }] }
    sets := { State.reset.sets with active := { ConfigSet.empty with views := [releasingView], streams := [[0, 1]] } }
    fabric := { State.reset.fabric with
      tiles := [{ Tile.reset with queue := [{ newHist releasingView 5 0 0 1 false false with closeSeq := 1 }] }]
      streams := [{ State.reset.stream 0 with
        frame := some { records := [zeros 16], refTime := 0, refTick := 0, flags := 0, speed := 0, galvoPos := 0, placedAt := 0,
                        epoch := 0, settings := [], running := 0 } }]
      releases := [releasingResult 1 false, releasingResult 2 true] } }

/-- How many bytes each check unit has taken. -/
def State.unitCounts (s : State) : List Nat := s.integrity.units.map (·.count)

/-- The same after a row. -/
def unitCountsAfter (i : Instr) (s : State) : List Nat :=
  match exec i s with
  | .next t => t.unitCounts
  | _ => []

theorem unitCountsAfter_of_frame {i : Instr} {s t u : State} (hnext : exec i s = .next t) (hframe : t = u)
    (hint : u.integrity = s.integrity) : unitCountsAfter i s = s.unitCounts := by
  simp only [unitCountsAfter, hnext, State.unitCounts, congrArg State.integrity hframe, hint]

/-! ### What leaves the check units alone -/

@[simp] theorem integrity_ite (p : Prop) [Decidable p] (s t : State) :
    (if p then s else t).integrity = if p then s.integrity else t.integrity := apply_ite State.integrity p s t

@[simp] theorem integrity_foldl {α : Type} (f : State → α → State) (l : List α) (s : State)
    (h : ∀ t a, (f t a).integrity = t.integrity) : (l.foldl f s).integrity = s.integrity := by
  induction l generalizing s with
  | nil => rfl
  | cons a l ih => exact (ih _).trans (h s a)

@[simp] theorem State.endSegment_integrity (s : State) : s.endSegment.integrity = s.integrity := by rfl
@[simp] theorem State.offerStamp_integrity (t : Nat) (p : List Byte) (x : Nat) (s : State) :
    (s.offerStamp t p x).integrity = s.integrity := by fun_cases State.offerStamp <;> simp +zetaDelta
@[simp] theorem State.mergeStamp_integrity (t : Nat) (p : List Byte) (x : Nat) (s : State) :
    (s.mergeStamp t p x).integrity = s.integrity := by simp [State.mergeStamp]
@[simp] theorem State.releaseStamps_integrity (t : Nat) (p : List Byte) (x : Nat) (s : State) :
    (s.releaseStamps t p x).integrity = s.integrity := by simp [State.releaseStamps]
@[simp] theorem State.tapStamp_integrity (t : Nat) (p : List Byte) (x : TapStamp) (s : State) :
    (s.tapStamp t p x).integrity = s.integrity := by simp [State.tapStamp]
@[simp] theorem State.tap_integrity (ch weight x : Nat) (shot : Option (Nat × Nat)) (s : State) :
    (s.tap ch weight x shot).integrity = s.integrity := by simp only [State.tap]; split <;> simp
@[simp] theorem State.idleTrackers_integrity (s : State) : s.idleTrackers.integrity = s.integrity := by rfl
@[simp] theorem State.closeHist_integrity (ch : Nat) (h : Hist) (s : State) : (s.closeHist ch h).integrity = s.integrity := by
  simp [State.closeHist]
@[simp] theorem State.updHist_integrity (ch view cell epoch : Nat) (f : Hist → Hist) (s : State) :
    (s.updHist ch view cell epoch f).integrity = s.integrity := by simp only [State.updHist]; split <;> simp
@[simp] theorem State.driveZones_integrity (s : State) : s.driveZones.integrity = s.integrity := by simp [State.driveZones]
@[simp] theorem State.onField_integrity (n : Nat) (f : FieldRun → FieldRun) (s : State) :
    (s.onField n f).integrity = s.integrity := by
  simp [State.onField]
@[simp] theorem State.enterField_integrity (n : Nat) (st : FieldState) (s : State) :
    (s.enterField n st).integrity = s.integrity := by
  simp [State.enterField]
@[simp] theorem State.breakSweep_integrity (unseen : Nat → List Byte → Bool) (s : State) :
    (s.breakSweep unseen).integrity = s.integrity := by simp [State.breakSweep]
@[simp] theorem State.loseSweep_integrity (s : State) : s.loseSweep.integrity = s.integrity := by simp [State.loseSweep]
@[simp] theorem State.endGroup_integrity (ch : Nat) (s : State) (h : Hist) : (s.endGroup ch h).integrity = s.integrity := by
  simp [State.endGroup]
@[simp] theorem State.endGroupsIf_integrity (ends : Hist → Bool) (s : State) :
    (s.endGroupsIf ends).integrity = s.integrity := by
  simp [State.endGroupsIf]
@[simp] theorem State.endGroups_integrity (s : State) : s.endGroups.integrity = s.integrity := State.endGroupsIf_integrity ..
@[simp] theorem State.overflow_integrity (ch : Nat) (s : State) : (s.overflow ch).integrity = s.integrity := by
  simp [State.overflow]
@[simp] theorem State.countNear_integrity (e : Nat) (s : State) : (s.countNear e).integrity = s.integrity := by rfl
@[simp] theorem State.placeEvent_integrity (ch : Nat) (interval : Int) (weight : Nat) (s : State) :
    (s.placeEvent ch interval weight).integrity = s.integrity := by fun_cases State.placeEvent <;> simp +zetaDelta
@[simp] theorem State.eventAt_integrity (ch : Nat) (tau : Int) (weight : Nat) (s : State) :
    (s.eventAt ch tau weight).integrity = s.integrity := by fun_cases State.eventAt <;> simp +zetaDelta
@[simp] theorem State.sendAmbient_integrity (ch span : Nat) (ovf : Bool) (s : State) :
    (s.sendAmbient ch span ovf).integrity = s.integrity := by simp [State.sendAmbient]
@[simp] theorem State.totSample_integrity (ch tot : Nat) (s : State) : (s.totSample ch tot).integrity = s.integrity := by
  simp [State.totSample]
@[simp] theorem State.endEdge_integrity (ch tot : Nat) (s : State) : (s.endEdge ch tot).integrity = s.integrity := by
  simp only [State.endEdge]; split <;> simp
@[simp] theorem State.flushEdge_integrity (ch : Nat) (s : State) : (s.flushEdge ch).integrity = s.integrity := by
  unfold State.flushEdge; split <;> simp
@[simp] theorem State.endAmbient_integrity (ch t : Nat) (ovf : Bool) (s : State) :
    (s.endAmbient ch t ovf).integrity = s.integrity := by
  simp [State.endAmbient]
@[simp] theorem State.endRange_integrity (ch t : Nat) (cut fault : Bool) (s : State) :
    (s.endRange ch t cut fault).integrity = s.integrity := by fun_cases State.endRange <;> simp +zetaDelta
@[simp] theorem State.stopRange_integrity (ch t : Nat) (cut fault : Bool) (s : State) :
    (s.stopRange ch t cut fault).integrity = s.integrity := by simp [State.stopRange]
@[simp] theorem State.onFslot_integrity (n : Nat) (f : FilterSlot → FilterSlot) (s : State) :
    (s.onFslot n f).integrity = s.integrity := by rfl
@[simp] theorem State.unsettleCarrier_integrity (s : State) : s.unsettleCarrier.integrity = s.integrity := by
  simp [State.unsettleCarrier]
@[simp] theorem State.encFreeze_integrity (s : State) : s.encFreeze.integrity = s.integrity := by rfl
@[simp] theorem State.discardLearn_integrity (det : Nat) (s : State) : (s.discardLearn det).integrity = s.integrity := by
  unfold State.discardLearn; split <;> simp
@[simp] theorem State.resolverUnlock_integrity (s : State) : s.resolverUnlock.integrity = s.integrity := by
  simp [State.resolverUnlock]
@[simp] theorem State.faultWindow_integrity (s : State) (ch : Nat) : (s.faultWindow ch).integrity = s.integrity := by
  unfold State.faultWindow; split <;> simp

/-! ### Shots -/

/-- A shot of emitter 0 in the open cell. -/
def releasingShot : Descriptor :=
  { emitter := 0, view := 1, cell := 0, shot := 0, entry := 0, slot := 0, dither := 0, stamp := 10000000000307, fixed := true, charge := 0,
    codes := [], epoch := 0 }

/-- `releasing` with a near-field count of 3 for a shot that has been fired. -/
def releasingNear : State :=
  { releasing with sched := { releasing.sched with nfCount := [some 3], fired := [some releasingShot] } }

/-- Refutes O22: NEAR_FIELD ends `releasing`'s open cell, and the check units that the registration loads are missing in the frame. -/
theorem not_nearFieldInhibitsAndBlocks : ¬ Obligations.NearFieldInhibitsAndBlocks := by
  intro h
  obtain ⟨h, -⟩ := h
  obtain ⟨t, hnext, -, -, -, -, hframe, -⟩ := (h 0 3 releasingShot releasingView releasingNear rfl rfl rfl).2 (by decide) rfl rfl
  exact absurd (unitCountsAfter_of_frame hnext hframe rfl) (by decide +kernel)

/-- `releasing` with that shot due for its windows. -/
def releasingDue : State := { releasing with sched := { releasing.sched with queue := [releasingShot] } }

/-- Refutes O16: the window that WINDOW_START opens begins the histogram of its cell, and the check units that this loads are missing in
the frame. -/
theorem not_shotIsFixedFiredAndEnded : ¬ Obligations.ShotIsFixedFiredAndEnded := by
  intro h
  obtain ⟨-, h, -⟩ := h
  obtain ⟨t, hnext, -, -, -, -, hframe⟩ := h 0 releasingShot releasingView releasingDue (by decide) rfl
  exact absurd (unitCountsAfter_of_frame hnext hframe rfl) (by decide +kernel)

/-- `releasing` with an angle whose prediction puts the shot of the open cell into the past. -/
def releasingLate : State :=
  { releasing with
    angle := { Angle.reset with pubSpeed := 2 ^ 40 }
    emission := { Emission.reset with emitters := [{ Emitter.reset with slots := [{ Slot.empty with st := .loaded }] }] } }

/-- Refutes O15: the LATE shot is the last of its cell, whose histogram is begun, and the check units that this loads are missing in the
frame. -/
theorem not_shotIsPlannedWithinTheHorizon : ¬ Obligations.ShotIsPlannedWithinTheHorizon := by
  intro h
  obtain ⟨-, h⟩ := h
  obtain ⟨-, -, h⟩ := h 1 0 0 0 ((releasingLate.tickOf (releasingView.shotAngle 0 0)).getD 0)
    { view := 1, cell := 0, epoch := 0, planned := [0], settled := [0], barred := [], begun := [] } releasingView releasingLate
    rfl rfl rfl rfl rfl (by decide) (by decide)
  obtain ⟨t, hnext, -, -, -, hframe⟩ := h (by decide) (by decide) (by decide)
  exact absurd (unitCountsAfter_of_frame hnext hframe rfl) (by decide +kernel)

/-! ### The clock, the angle and the loops -/

/-- A state as its clock has been lost, before the source is registered. -/
def State.clockLost (s : State) : State :=
  (if s.clk.pllLocked then s.endSegment else s).onClk fun c =>
    { c with pllLocked := false, degraded := true, unlockAt := if c.pllLocked then s.now else c.unlockAt }

theorem State.loseClock_integrity (src : Nat) (s : State) :
    (s.loseClock src).integrity = (s.clockLost.registerSource src).integrity := by
  simp [State.loseClock, State.clockLost]

/-- `releasing` with the loss of its clock counted. -/
def releasingUnlocked : State :=
  releasing.onClk fun c => { c with unlocked := true, unlockCount := satInc 16 c.unlockCount }

theorem unitCountsAfter_pllUnlock :
    unitCountsAfter .pllUnlock releasing = (releasingUnlocked.clockLost.registerSource srcPll).unitCounts := by
  have hnext : exec .pllUnlock releasing = .next (releasingUnlocked.loseClock srcPll) := rfl
  simp only [unitCountsAfter, hnext, State.unitCounts, State.loseClock_integrity]

/-- Refutes O23: PLL_UNLOCK ends `releasing`'s open cell, and the check units that the registration loads are missing in the frame. -/
theorem not_clockLossInhibitsAndRetrimRamps : ¬ Obligations.ClockLossInhibitsAndRetrimRamps := by
  intro h
  obtain ⟨⟨h, -⟩, -⟩ := h
  obtain ⟨t, hnext, -, -, -, -, -, -, hframe⟩ := h releasing rfl rfl rfl
  exact absurd (unitCountsAfter_pllUnlock.symm.trans (unitCountsAfter_of_frame hnext hframe rfl)) (by decide +kernel)

/-- `releasing` in lock. -/
def releasingLocked : State := { releasing with angle := { Angle.reset with lock := .locked } }

@[simp] theorem motion_ite (p : Prop) [Decidable p] (s t : State) :
    (if p then s else t).motion = if p then s.motion else t.motion := apply_ite State.motion p s t

@[simp] theorem motion_foldl {α : Type} (f : State → α → State) (l : List α) (s : State)
    (h : ∀ t a, (f t a).motion = t.motion) : (l.foldl f s).motion = s.motion := by
  induction l generalizing s with
  | nil => rfl
  | cons a l ih => exact (ih _).trans (h s a)

@[simp] theorem State.closeHist_motion (ch : Nat) (h : Hist) (s : State) : (s.closeHist ch h).motion = s.motion := by
  simp [State.closeHist]
@[simp] theorem State.driveZones_motion (s : State) : s.driveZones.motion = s.motion := by simp [State.driveZones]
@[simp] theorem State.onField_motion (n : Nat) (f : FieldRun → FieldRun) (s : State) : (s.onField n f).motion = s.motion := by
  simp [State.onField]
@[simp] theorem State.enterField_motion (n : Nat) (st : FieldState) (s : State) : (s.enterField n st).motion = s.motion := by
  simp [State.enterField]
@[simp] theorem State.breakSweep_motion (unseen : Nat → List Byte → Bool) (s : State) :
    (s.breakSweep unseen).motion = s.motion := by simp [State.breakSweep]
@[simp] theorem State.loseSweep_motion (s : State) : s.loseSweep.motion = s.motion := by simp [State.loseSweep]
@[simp] theorem State.endGroup_motion (ch : Nat) (s : State) (h : Hist) : (s.endGroup ch h).motion = s.motion := by
  simp [State.endGroup]
@[simp] theorem State.endGroupsIf_motion (ends : Hist → Bool) (s : State) : (s.endGroupsIf ends).motion = s.motion := by
  simp [State.endGroupsIf]
@[simp] theorem State.endGroups_motion (s : State) : s.endGroups.motion = s.motion := State.endGroupsIf_motion ..
@[simp] theorem State.encFreeze_motion (s : State) : s.encFreeze.motion = s.motion := by rfl
@[simp] theorem State.discardLearn_motion (det : Nat) (s : State) : (s.discardLearn det).motion = s.motion := by
  unfold State.discardLearn; split <;> simp

/-- Once the angle is lost with the spindle loop not closed, the registration alone has loaded check units. -/
theorem State.angleGone_integrity {s : State} (st : LockState) (hloop : ((s.registerCause causeAngle).loop 0).st ≠ .closed) :
    (s.angleGone st).integrity = (s.registerCause causeAngle).integrity := by
  simp only [State.loop, List.getD_eq_getElem?_getD] at hloop
  simp [State.angleGone, State.spindleLost, State.loop, hloop]

/-- `releasingLocked` with the loss counted. -/
def releasingLost : State := releasingLocked.onAngle fun a => { a with lossCause := 3, lossCount := satInc 16 a.lossCount }

theorem stuckModulator_of_tracking {s : State} (h : s.tracking = true) : stuckModulator 0 s = s.loseLock 3 := by
  simp [stuckModulator, h]

theorem unitCountsAfter_stuckModulator :
    unitCountsAfter (.stuckModulator 0) releasingLocked = (releasingLost.registerCause causeAngle).unitCounts := by
  have hloop : ((releasingLost.registerCause causeAngle).loop 0).st ≠ .closed := by decide +kernel
  have hstep : stuckModulator 0 releasingLocked = releasingLost.angleGone .lost := stuckModulator_of_tracking rfl
  have hnext : exec (.stuckModulator 0) releasingLocked = .next (stuckModulator 0 releasingLocked) := rfl
  simp only [unitCountsAfter, hnext, hstep, State.unitCounts, State.angleGone_integrity _ hloop]

/-- Refutes O26: ANGLE_LOSS ends `releasing`'s open cell, and the check units that the registration loads are missing in the frame of
`AngleLost`. -/
theorem not_angleIsLostAndLocked : ¬ Obligations.AngleIsLostAndLocked := by
  intro h
  obtain ⟨-, -, -, -, h, -⟩ := h
  obtain ⟨t, hnext, -, -, -, -, -, -, -, hframe⟩ := h 0 releasingLocked (by decide) rfl rfl
  exact absurd (unitCountsAfter_stuckModulator.symm.trans (unitCountsAfter_of_frame hnext hframe rfl)) (by decide +kernel)

/-- `releasing` with a galvo loop whose faults inhibit emission, at a strobe of its loop and after seven overruns. -/
def releasingGalvo : State :=
  { releasing with
    power := { Power.reset with domains := [{ dom := .motion, phase := .awake, idleSince := none }] }
    motion := { Motion.reset with
      galvo := .run
      loops := [Loop.reset, { Loop.reset with st := .closed, image := List.replicate 64 1, overruns := 7 }] } }

/-- Refutes O29: the galvo loop's eighth overrun ends `releasing`'s open cell, and the check units that the registration loads are
missing in the frame. -/
theorem not_samplesFollowTheirStrobes : ¬ Obligations.SamplesFollowTheirStrobes := by
  intro h
  obtain ⟨-, -, -, h⟩ := h
  obtain ⟨h, -⟩ := h releasingGalvo (by decide) (by decide) (by decide) rfl
  obtain ⟨t, hnext, -, -, hframe⟩ := h false
  exact absurd (unitCountsAfter_of_frame hnext hframe rfl) (by decide +kernel)

/-- Refutes O30: a shorted galvo output ends `releasing`'s open cell, and the check units that the registration loads are missing in the
frame. -/
theorem not_driveAndGalvoFaultsAct : ¬ Obligations.DriveAndGalvoFaultsAct := by
  intro h
  obtain ⟨-, -, -, -, h⟩ := h
  obtain ⟨t, hnext, -, -, -, -, -, -, hframe⟩ := h releasingGalvo (by decide) rfl
  exact absurd (unitCountsAfter_of_frame hnext hframe rfl) (by decide +kernel)

/-! ### Emission -/

/-- A command whose checks pass, found by evaluation. -/
def accepts (o : OpInfo) (c : Cmd) (s : State) : Bool :=
  s.executes && !s.fenced c && !s.alreadyRun c && o.check c s == .ok

theorem accepted_of_accepts {o : OpInfo} {c : Cmd} {s : State} (h : accepts o c s = true) : Accepted o c s := by
  simp only [accepts, Bool.and_eq_true, Bool.not_eq_true', beq_iff_eq] at h
  obtain ⟨⟨⟨hexec, hfence⟩, hrun⟩, hcheck⟩ := h
  exact ⟨⟨hexec, hfence, hrun⟩, hcheck⟩

/-- EMIT_HOLD with HOLD set, on queue 0. -/
def holdCmd : Cmd :=
  { via := { transport := .pcie, sqIndex := 0, route := { addr := 0, port := 0, session := [] } }, tag := 1, queue := 0, seq := 0,
    unseq := false, fence := false, trailer := 0, payload := fit 16 [1] }

/-- `releasing` in a device that executes commands, with that one accepted. -/
def releasingReady : State :=
  { releasing with
    power := { Power.reset with running := true, phase := .ready, ready := true }
    host := { State.reset.host with
      journal := { State.reset.host.journal with
        live := [{ jix := 1, state := .accepted, opcode := 0x0706, cmd := holdCmd, reply := none }] } } }

/-- Refutes O32: EMIT_HOLD ends `releasing`'s open cell, and the check units that the registration loads are missing in the frame. -/
theorem not_hostHoldsEmission : ¬ Obligations.HostHoldsEmission := by
  intro h
  obtain ⟨h, -⟩ := h
  obtain ⟨h, -⟩ := h holdCmd releasingReady (accepted_of_accepts (by decide +kernel))
  obtain ⟨t, hnext, -, -, -, -, -, -, hframe⟩ := h (by decide)
  exact absurd (unitCountsAfter_of_frame hnext hframe rfl) (by decide +kernel)

/-- Refutes O36: a short drops the fixed shot that was the last of `releasing`'s open cell, and the check units that this loads are missing
in the frame. -/
theorem not_directPlaysEndAndShortsPark : ¬ Obligations.DirectPlaysEndAndShortsPark := by
  intro h
  obtain ⟨-, h, -⟩ := h
  obtain ⟨t, hnext, -, -, -, -, -, -, -, -, -, hframe⟩ := h 0 releasingDue (by decide) (by decide)
  exact absurd (unitCountsAfter_of_frame hnext hframe rfl) (by decide +kernel)

end Sys2Proof.Machine

/-!
## Power domains (R26, R28, R466)
-/
namespace Sys2Proof.Machine

/-! ### Domains behind their updates -/

theorem State.domain_dom {d : Domain} {x : DomainState} {s : State} (h : s.domain d = some x) : x.dom = d := by
  simpa using List.find?_some h

theorem State.domain_onDomain (d e : Domain) (f : DomainState → DomainState) (s : State) (hf : ∀ y, (f y).dom = y.dom) :
    (s.onDomain d f).domain e = (s.domain e).map fun y => if y.dom == d then f y else y := by
  have hfix : ((fun y : DomainState => y.dom == e) ∘ fun y => if y.dom == d then f y else y) = fun y => y.dom == e := by
    funext y
    by_cases hy : y.dom = d <;> simp [hy, hf]
  simp only [State.domain, State.onDomain, State.onPower_power, List.find?_map, hfix]

theorem State.domain_onDomain_same {d : Domain} {x : DomainState} {s : State} (f : DomainState → DomainState)
    (h : s.domain d = some x) (hf : ∀ y, (f y).dom = y.dom) : (s.onDomain d f).domain d = some (f x) := by
  simp [State.domain_onDomain d d f s hf, h, State.domain_dom h]

theorem State.domain_onDomain_ne {d e : Domain} (f : DomainState → DomainState) (s : State) (he : e ≠ d)
    (hf : ∀ y, (f y).dom = y.dom) : (s.onDomain d f).domain e = s.domain e := by
  rw [State.domain_onDomain d e f s hf]
  cases hx : s.domain e with
  | none => rfl
  | some x => simp [State.domain_dom hx, he]

theorem State.domain_of_power {s t : State} (h : t.power = s.power) (d : Domain) : t.domain d = s.domain d := by
  simp [State.domain, h]

/-! ### Channels and outputs behind a change of their domain -/

def Channel.inState (st : RxState) (c : Channel) : Channel := { c with st := st }

/-- `refreshChannels` over the first `m` channels. -/
def State.refreshFirst (m : Nat) (s : State) : State :=
  (List.range m).foldl (fun s ch => s.onChannel ch (Channel.inState (s.rxStateOf ch))) s

theorem State.refreshChannels_eq (s : State) : s.refreshChannels = s.refreshFirst 192 := rfl

theorem State.refreshFirst_succ (m : Nat) (s : State) :
    s.refreshFirst (m + 1) = (s.refreshFirst m).onChannel m (Channel.inState ((s.refreshFirst m).rxStateOf m)) := by
  rw [State.refreshFirst, List.range_succ, List.foldl_append]; rfl

theorem State.refreshFirst_frame (m : Nat) (s : State) :
    s.refreshFirst m = { s with returns := (s.refreshFirst m).returns } ∧
      (s.refreshFirst m).returns.channels.length = s.returns.channels.length := by
  induction m with
  | zero => exact ⟨rfl, rfl⟩
  | succ m ih =>
    obtain ⟨hs, hlen⟩ := ih
    rw [State.refreshFirst_succ]
    refine ⟨?_, by simpa using hlen⟩
    rw [hs]; rfl

/-- Every channel among the first `m` takes the state of Table 9.4; the others stand. -/
theorem State.channel_refreshFirst (m : Nat) (s : State) (hm : m ≤ s.returns.channels.length) (ch : Nat) :
    (s.refreshFirst m).channel ch = if ch < m then (s.channel ch).inState (s.rxStateOf ch) else s.channel ch := by
  induction m generalizing ch with
  | zero => simp [State.refreshFirst]
  | succ m ih =>
    have ih := ih (by omega)
    obtain ⟨hs, hlen⟩ := s.refreshFirst_frame m
    have hst : (s.refreshFirst m).rxStateOf m = s.rxStateOf m := by
      have hch := ih m
      rw [if_neg (lt_irrefl m)] at hch
      rw [State.rxStateOf, hch, hs]; rfl
    rw [State.refreshFirst_succ, hst]
    by_cases hch : ch = m
    · subst hch
      rw [State.channel_onChannel_same _ _ _ (by omega), ih]; simp
    · rw [State.channel_onChannel_ne _ _ _ _ hch, ih]
      by_cases hlt : ch < m
      · simp [hlt, Nat.lt_succ_of_lt hlt]
      · simp [hlt, show ¬ ch < m + 1 by omega]

theorem State.refreshChannels_frame (s : State) : s.refreshChannels = { s with returns := s.refreshChannels.returns } :=
  (s.refreshFirst_frame 192).1

theorem State.emitter_onEmitter_same (e : Nat) (f : Emitter → Emitter) (s : State) (he : e < s.emission.emitters.length) :
    (s.onEmitter e f).emitter e = f (s.emitter e) := by
  simp [State.emitter, he]

theorem State.emitter_onEmitter_ne (e k : Nat) (f : Emitter → Emitter) (s : State) (h : k ≠ e) :
    (s.onEmitter e f).emitter k = s.emitter k := by
  simp [State.emitter, h.symm]

def DomainState.inPhase (p : DomainPhase) (x : DomainState) : DomainState := { x with phase := p }

theorem State.since_iff {t d : Nat} {s : State} : s.since t d = true ↔ t + d ≤ s.clk.now := decide_eq_true_iff

theorem State.heldFor_iff {o : Option Nat} {d : Nat} {s : State} :
    s.heldFor o d = true ↔ ∃ t, o = some t ∧ t + d ≤ s.clk.now := by
  cases o <;> simp [State.heldFor, State.since_iff]

@[simp] theorem DomainState.inPhase_dom (p : DomainPhase) (x : DomainState) : (x.inPhase p).dom = x.dom := rfl

/-! ### DOMAIN_WAKE_START -/

theorem domainWakeStart_of_requested {d : Domain} {x : DomainState} {s : State} (hx : s.domain d = some x)
    (hphase : x.phase = .requested) (hlast : ∀ t, s.power.lastWake = some t → t + 1600 ≤ s.clk.now) :
    domainWakeStart d s =
      (s.onDomain d (DomainState.inPhase (.waking s.clk.now))).onPower fun p => { p with lastWake := some s.clk.now } := by
  have hall : (s.power.lastWake.all fun t => s.since t 1600) = true := by
    cases h : s.power.lastWake <;> simp [h, State.since, hlast]
  simp [domainWakeStart, hx, hphase, hall]
  rfl

/-! ### DOMAIN_SETTLED -/

theorem domainSettled_of_waking {d : Domain} {x : DomainState} {t0 : Nat} {s : State} (hx : s.domain d = some x)
    (hphase : x.phase = .waking t0) :
    domainSettled d s = (s.onDomain d (DomainState.inPhase .awake)).domainUp d := by
  simp only [domainSettled, hx, hphase]
  rfl

@[simp] theorem State.warmLane_power (s : State) (n : Nat) : (s.warmLane n).power = s.power := rfl

theorem State.warmLanes_frame (l : List Nat) (s : State) :
    l.foldl State.warmLane s = { s with clk := (l.foldl State.warmLane s).clk } := by
  induction l generalizing s with
  | nil => rfl
  | cons n l ih => rw [List.foldl_cons, ih]; rfl

theorem State.laneOffs_frame (l : List Nat) (s : State) :
    l.foldl State.laneOff s = { s with clk := (l.foldl State.laneOff s).clk } := by
  induction l generalizing s with
  | nil => rfl
  | cons n l ih => rw [List.foldl_cons, ih]; rfl

/-- The lanes of a cluster that warm up with it. -/
def State.lanesUp (k : Nat) (s : State) : List Nat := (clusterLanes k).filter fun n => s.laneServes n && !(s.lane n).failed

theorem State.domainUp_cluster (k : Nat) (s : State) :
    s.domainUp (.cluster k) = ((s.lanesUp k).foldl State.warmLane s).refreshChannels := rfl

theorem State.domainUp_emitterDac {k e : Nat} {s : State} (h : s.outputOf k = some e) :
    s.domainUp (.emitterDac k) = s.onEmitter e fun x => { x with out := x.out.awaken } := by
  simp [State.domainUp, h]

theorem State.domainUp_frame (d : Domain) (s : State) :
    s.domainUp d = { s with clk := (s.domainUp d).clk, emission := (s.domainUp d).emission, returns := (s.domainUp d).returns } := by
  fun_cases State.domainUp d s
  · rw [State.refreshChannels_frame, State.warmLanes_frame]
  all_goals rfl

theorem State.domainUp_other {d : Domain} (s : State) (h : ∀ k, d ≠ .emitterDac k ∧ d ≠ .cluster k) : s.domainUp d = s := by
  cases d <;> simp_all [State.domainUp]

/-- A channel of the woken cluster that is in service becomes ACTIVE where the active set names it, and STANDBY elsewhere. -/
theorem State.channel_domainUp_cluster {k ch : Nat} {s : State} (hch : ch < 192) (hlen : s.returns.channels.length = 192)
    (hk : clusterOf (s.feOf ch) = k) (hst : (s.channel ch).st ≠ .outOfService) (hawake : s.awake (.cluster k) = true) :
    ((s.domainUp (.cluster k)).channel ch).st = if s.sets.active.namesChannel ch then .active else .standby := by
  rw [State.domainUp_cluster, State.refreshChannels_eq, State.warmLanes_frame, State.channel_refreshFirst _ _ (by exact hlen.ge),
    if_pos hch]
  change (if (s.channel ch).st == .outOfService then RxState.outOfService
    else if !s.awake (.cluster (clusterOf (s.feOf ch))) then .off
    else if s.sets.active.namesChannel ch then .active else .standby) = _
  simp [hk, hst, hawake]

/-! ### DOMAIN_SLEEP -/

@[simp] theorem State.charge_emitters_length (e de : Nat) (s : State) :
    (s.charge e de).emission.emitters.length = s.emission.emitters.length := by simp [State.charge]

theorem State.emitter_charge {e : Nat} (de : Nat) {s : State} (he : e < s.emission.emitters.length) :
    (s.charge e de).emitter e = { s.emitter e with pulse := (s.emitter e).pulse + de } := by
  simp [State.charge, State.emitter, he]

@[simp] theorem State.settle_emitters_length (e : Nat) (s : State) :
    (s.settle e).emission.emitters.length = s.emission.emitters.length := by
  unfold State.settle
  dsimp only
  split <;> simp [State.unreserve, State.onReserve]

@[simp] theorem State.parkOutput_emitters_length (e : Nat) (s : State) :
    (s.parkOutput e).emission.emitters.length = s.emission.emitters.length := by
  fun_cases State.parkOutput <;> simp +zetaDelta [State.unreserve, State.onReserve]

/-- Charging what an output has driven leaves the park code that it drives. -/
theorem State.out_settle_park {e code : Nat} {s : State} (he : e < s.emission.emitters.length)
    (hout : (s.emitter e).out = .park code) : ((s.settle e).emitter e).out = .park code := by
  simp only [State.settle, hout]
  rw [State.emitter_onEmitter_same _ _ _ (by simpa using he), State.emitter_charge _ he]
  exact hout

theorem State.parkOutput_of_park {e code : Nat} {s : State} (he : e < s.emission.emitters.length)
    (hout : (s.emitter e).out = .park code) : s.parkOutput e = s.settle e := by
  simp [State.parkOutput, State.out_settle_park he hout]

/-- An output whose core goes to sleep holds: the code it parked with, where it was parked. -/
theorem State.out_holdOutput {e : Nat} {s : State} (he : e < s.emission.emitters.length) :
    (∃ code, ((s.holdOutput e).emitter e).out = .hold code) ∧
      ∀ code, (s.emitter e).out = .park code → ((s.holdOutput e).emitter e).out = .hold code := by
  have hlen : e < (s.parkOutput e).emission.emitters.length := by simpa using he
  rw [State.holdOutput, State.emitter_onEmitter_same _ _ _ hlen]
  refine ⟨?_, fun code hout => ?_⟩
  · dsimp only
    split <;> exact ⟨_, rfl⟩
  · simp [State.parkOutput_of_park he hout, State.out_settle_park he hout]

theorem State.settle_frame (e : Nat) (s : State) : s.settle e = { s with emission := (s.settle e).emission } := by
  unfold State.settle
  dsimp only
  split <;> rfl

theorem State.parkOutput_frame (e : Nat) (s : State) : s.parkOutput e = { s with emission := (s.parkOutput e).emission } := by
  unfold State.parkOutput
  rw [State.settle_frame]
  dsimp only
  split <;> rfl

theorem State.holdOutput_frame (e : Nat) (s : State) : s.holdOutput e = { s with emission := (s.holdOutput e).emission } := by
  rw [State.holdOutput, State.parkOutput_frame]
  rfl

theorem State.domainDown_emitterDac {k e : Nat} {s : State} (h : s.outputOf k = some e) :
    s.domainDown (.emitterDac k) = s.holdOutput e := by
  simp [State.domainDown, h]

theorem State.domainDown_frame (d : Domain) (s : State) :
    s.domainDown d =
      { s with clk := (s.domainDown d).clk, emission := (s.domainDown d).emission, returns := (s.domainDown d).returns } := by
  fun_cases State.domainDown d s
  · rw [State.refreshChannels_frame, State.laneOffs_frame]
  · rw [State.holdOutput_frame]
  all_goals rfl

/-- A state from which domain `d` has gone, at the time of the last sleep. -/
def State.slept (d : Domain) (s : State) : State :=
  s.onPower fun p => { p with domains := p.domains.filter (·.dom != d), lastSleep := some s.clk.now }

theorem State.domain_slept_same (d : Domain) (s : State) : (s.slept d).domain d = none := by
  simp [State.domain, State.slept]

theorem State.domain_slept_ne {d e : Domain} (s : State) (h : e ≠ d) : (s.slept d).domain e = s.domain e := by
  simp only [State.domain, State.slept, State.onPower_power, List.find?_filter]
  congr 1
  funext x
  by_cases hx : x.dom = e <;> simp [hx, h]

theorem domainSleep_of_maySleep {d : Domain} {x : DomainState} {s : State} (hx : s.domain d = some x) (hphase : x.phase = .awake)
    (hmay : s.maySleep d x = true) (hlast : ∀ t, s.power.lastSleep = some t → t + 1600 ≤ s.clk.now) :
    domainSleep d s = (s.slept d).domainDown d := by
  have hall : (s.power.lastSleep.all fun t => s.since t 1600) = true := by
    cases h : s.power.lastSleep <;> simp [h, State.since, hlast]
  simp [domainSleep, hx, hphase, hmay, hall, State.now, State.slept]

theorem domainSleep_of_not_maySleep {d : Domain} {x : DomainState} {s : State} (hx : s.domain d = some x)
    (hmay : s.maySleep d x = false) : domainSleep d s = s := by
  simp [domainSleep, hx, hmay]

theorem domainSleep_of_recent {d : Domain} {t : Nat} {s : State} (hlast : s.power.lastSleep = some t)
    (hnow : s.clk.now < t + 1600) : domainSleep d s = s := by
  unfold domainSleep
  split
  · rw [if_neg]
    simp [hlast, State.since, Nat.not_le.mpr hnow]
  · rfl

theorem State.domain_domainUp (d e : Domain) (s : State) : (s.domainUp d).domain e = s.domain e :=
  State.domain_of_power (by rw [State.domainUp_frame]) e

theorem State.domain_domainDown (d e : Domain) (s : State) : (s.domainDown d).domain e = s.domain e :=
  State.domain_of_power (by rw [State.domainDown_frame]) e

theorem domainWakeStart_of_recent {d : Domain} {t : Nat} {s : State} (hlast : s.power.lastWake = some t)
    (hnow : s.clk.now < t + 1600) : domainWakeStart d s = s := by
  unfold domainWakeStart
  split
  · rw [if_neg]
    simp [hlast, State.since, Nat.not_le.mpr hnow]
  · rfl

theorem domainWakeStart_of_not_requested {d : Domain} {x : DomainState} {s : State} (hx : s.domain d = some x)
    (hphase : x.phase ≠ .requested) : domainWakeStart d s = s := by
  simp [domainWakeStart, hx, hphase]

/-- A domain may sleep once it has been idle for 1 ms with nothing to hold it, or as Pavane powers it down. -/
theorem State.maySleep_of_idle {d : Domain} {x : DomainState} {s : State}
    (h : (∃ t0, x.idleSince = some t0 ∧ t0 + 1280000 ≤ s.clk.now) ∧ s.maintained d = false ∧ s.playsDirect d = false ∨
      s.power.poweredDown = true ∧ staysPowered d = false) : s.maySleep d x = true := by
  rcases h with ⟨⟨t0, hidle, hlong⟩, hmaint, hplay⟩ | ⟨hdown, hstay⟩
  · have hheld : s.heldFor x.idleSince (ms 1) = true := State.heldFor_iff.mpr ⟨t0, hidle, hlong⟩
    simp [State.maySleep, hheld, hmaint, hplay]
  · simp [State.maySleep, hdown, hstay]

theorem State.not_maySleep_of_used {d : Domain} {x : DomainState} {s : State} (hup : s.power.poweredDown = false ∨ staysPowered d = true)
    (hidle : ∀ t0, x.idleSince = some t0 → s.clk.now < t0 + 1280000) : s.maySleep d x = false := by
  have hheld : s.heldFor x.idleSince (ms 1) = false := by
    rw [Bool.eq_false_iff]
    intro h
    obtain ⟨t0, ht0, hlong⟩ := State.heldFor_iff.mp h
    exact absurd hlong (Nat.not_le.mpr (hidle t0 ht0))
  rcases hup with hup | hup <;> simp [State.maySleep, hheld, hup]

/-- Settles O2: each row behind its conditions, and what its domain's function makes of it. -/
theorem domainsWakeAndSleepInTurn : Obligations.DomainsWakeAndSleepInTurn := by
  refine ⟨fun d x s hx => ⟨fun hphase hlast => ?_, fun t hlast hnow => ?_, fun hphase => ?_⟩, fun d x t0 s hx hphase => ?_,
    fun d x s hx hphase hmay hlast => ?_, fun d x s hx hup hidle => ?_, fun d t s hlast hnow => ?_⟩
  · refine ⟨_, rfl, ?_⟩
    rw [domainWakeStart_of_requested hx hphase hlast]
    exact ⟨State.domain_onDomain_same _ hx (DomainState.inPhase_dom _), rfl, fun e he => State.domain_onDomain_ne _ s he (DomainState.inPhase_dom _), rfl⟩
  · exact congrArg Host.Outcome.next (domainWakeStart_of_recent hlast hnow)
  · exact congrArg Host.Outcome.next (domainWakeStart_of_not_requested hx hphase)
  · refine ⟨_, rfl, ?_⟩
    rw [domainSettled_of_waking hx hphase]
    refine ⟨?_, fun e he => ?_, ?_, fun k e code hd hk hout he => ?_, fun k ch hd hch hlen hk hst => ?_, fun hd => ?_⟩
    · rw [State.domain_domainUp, State.domain_onDomain_same _ hx (DomainState.inPhase_dom _)]; rfl
    · rw [State.domain_domainUp, State.domain_onDomain_ne _ s he (DomainState.inPhase_dom _)]
    · rw [State.domainUp_frame]; rfl
    · subst hd
      rw [State.domainUp_emitterDac (s := s.onDomain _ _) hk, State.emitter_onEmitter_same e _ (s.onDomain _ _) he]
      exact congrArg Output.awaken hout
    · subst hd
      refine State.channel_domainUp_cluster hch hlen hk hst ?_
      rw [State.awake, State.domain_onDomain_same _ hx (DomainState.inPhase_dom _)]; rfl
    · rw [State.domainUp_other _ hd]
      exact ⟨rfl, rfl, rfl⟩
  · refine ⟨_, rfl, ?_⟩
    rw [domainSleep_of_maySleep hx hphase (State.maySleep_of_idle hmay) hlast]
    refine ⟨?_, fun e he => ?_, ?_, fun k e hd hk he => ?_, ?_⟩
    · rw [State.domain_domainDown, State.domain_slept_same]
    · rw [State.domain_domainDown, State.domain_slept_ne s he]
    · rw [State.domainDown_frame]; rfl
    · subst hd
      rw [State.domainDown_emitterDac (s := s.slept _) hk]
      exact State.out_holdOutput he
    · rw [State.domainDown_frame]; rfl
  · exact congrArg Host.Outcome.next (domainSleep_of_not_maySleep hx (State.not_maySleep_of_used hup hidle))
  · exact congrArg Host.Outcome.next (domainSleep_of_recent hlast hnow)

/-! ## Pace and voltage of the tiles (R18, R27) -/

/-- A tile behind its gate, with the pace that it must keep. -/
def TilePace.gated (a b need : Nat) (p : TilePace) : TilePace :=
  let q := { p with paceA := a, paceB := b, paceFull := if p.mv = 850 then min a b else p.paceFull }
  if min a b < need then { q with mv := min 850 (p.mv + 10) } else q

theorem TilePace.gated_lines (a b need : Nat) (p : TilePace) : (p.gated a b need).paceA = a ∧ (p.gated a b need).paceB = b := by
  unfold TilePace.gated
  dsimp only
  split <;> exact ⟨rfl, rfl⟩

theorem TilePace.gated_mv (a b need : Nat) (p : TilePace) :
    (p.gated a b need).mv = if min a b < need then min 850 (p.mv + 10) else p.mv := by
  unfold TilePace.gated
  dsimp only
  split <;> rfl

theorem State.pace_onPace_same (i : Nat) (f : TilePace → TilePace) (s : State) (hi : i < s.power.tiles.length) :
    (s.onPace i f).pace i = f (s.pace i) := by
  simp [State.pace, State.onPace, hi]

theorem State.pace_onPace_ne (i k : Nat) (f : TilePace → TilePace) (s : State) (h : k ≠ i) :
    (s.onPace i f).pace k = s.pace k := by
  simp [State.pace, State.onPace, h.symm]

theorem State.onPace_onPace (i : Nat) (f g : TilePace → TilePace) (s : State) :
    (s.onPace i f).onPace i g = s.onPace i (g ∘ f) := by
  simp [State.onPace, State.onPower, List.modify_modify_eq]

theorem State.tileGate_eq (a b i : Nat) (s : State) (hi : i < s.power.tiles.length) :
    s.tileGate a b i = s.onPace i (TilePace.gated a b (s.paceNeed i)) := by
  have hpace (f : TilePace → TilePace) (hf : ∀ p, (f p).pace = min a b) : ((s.onPace i f).pace i).pace = min a b := by
    rw [State.pace_onPace_same i f s hi, hf]
  unfold State.tileGate
  dsimp only
  rw [hpace _ fun _ => rfl]
  by_cases h : min a b < s.paceNeed i
  · rw [if_pos (show min a b < (s.onPace i _).paceNeed i from h), State.onPace_onPace]
    congr 1
    funext p
    exact (if_pos h).symm
  · rw [if_neg (show ¬ min a b < (s.onPace i _).paceNeed i from h)]
    congr 1
    funext p
    exact (if_neg h).symm

/-- The gates of the first `m` tiles. -/
def State.gateFirst (as bs : List Nat) (m : Nat) (s : State) : State :=
  (List.range m).foldl (fun s t => s.tileGate (as.getD t 0 / 5) (bs.getD t 0 / 5) t) s

theorem State.gateFirst_frame (as bs : List Nat) (m : Nat) (s : State) (hm : m ≤ s.power.tiles.length) :
    s.gateFirst as bs m = { s with power := { s.power with tiles := (s.gateFirst as bs m).power.tiles } } ∧
      (s.gateFirst as bs m).power.tiles.length = s.power.tiles.length ∧
      ∀ i, (s.gateFirst as bs m).pace i =
        if i < m then (s.pace i).gated (as.getD i 0 / 5) (bs.getD i 0 / 5) (s.paceNeed i) else s.pace i := by
  induction m with
  | zero => exact ⟨rfl, rfl, fun i => rfl⟩
  | succ m ih =>
    obtain ⟨hs, hlen, hpace⟩ := ih (by omega)
    have hneed : (s.gateFirst as bs m).paceNeed m = s.paceNeed m := by rw [hs]; rfl
    have hstep : s.gateFirst as bs (m + 1) =
        (s.gateFirst as bs m).onPace m (TilePace.gated (as.getD m 0 / 5) (bs.getD m 0 / 5) (s.paceNeed m)) := by
      rw [← hneed, ← State.tileGate_eq _ _ _ _ (by omega), State.gateFirst, List.range_succ, List.foldl_append]; rfl
    rw [hstep]
    refine ⟨?_, by simpa [State.onPace] using hlen, fun i => ?_⟩
    · rw [hs]; rfl
    · by_cases hi : i = m
      · subst hi
        rw [State.pace_onPace_same _ _ _ (by omega), hpace]; simp
      · rw [State.pace_onPace_ne _ _ _ _ hi, hpace]
        by_cases hlt : i < m
        · simp [hlt, Nat.lt_succ_of_lt hlt]
        · simp [hlt, show ¬ i < m + 1 by omega]

/-! ### The device pace -/

theorem foldl_min_le (l : List Nat) (a : Nat) : l.foldl min a ≤ a ∧ ∀ x ∈ l, l.foldl min a ≤ x := by
  induction l generalizing a with
  | nil => simp
  | cons b l ih =>
    obtain ⟨ha, hl⟩ := ih (min a b)
    exact ⟨ha.trans (min_le_left a b), List.forall_mem_cons.mpr ⟨ha.trans (min_le_right a b), hl⟩⟩

theorem foldl_min_mem (l : List Nat) (a : Nat) : l.foldl min a = a ∨ l.foldl min a ∈ l := by
  induction l generalizing a with
  | nil => simp
  | cons b l ih =>
    rcases ih (min a b) with h | h
    · rcases min_choice a b with hab | hab
      · exact .inl (h.trans hab)
      · exact .inr (by rw [List.foldl_cons, h, hab]; exact List.mem_cons_self)
    · exact .inr (List.mem_cons_of_mem b h)

theorem State.devicePace_le (s : State) {i : Nat} (hi : i < 8) : s.devicePace ≤ (s.pace i).pace :=
  (foldl_min_le _ _).2 _ (List.mem_map.mpr ⟨i, List.mem_range.mpr hi, rfl⟩)

theorem State.exists_devicePace_eq (s : State) : ∃ i, i < 8 ∧ s.devicePace = (s.pace i).pace := by
  rcases foldl_min_mem ((List.range 8).map fun t => (s.pace t).pace) ((s.pace 0).pace) with h | h
  · exact ⟨0, by decide, h⟩
  · obtain ⟨i, hi, heq⟩ := List.mem_map.mp h
    exact ⟨i, List.mem_range.mp hi, heq.symm⟩

/-- What a pace gate does behind the gates of the tiles. -/
def State.paced (s : State) : State :=
  s.deliverPace.refreshPlan.onSched fun k => { k with paceShort := k.paceShort || s.deliverPace.refreshPlan.paceShort }

theorem paceGate_eq (as bs : List Nat) (s : State) : paceGate as bs s = (s.gateFirst as bs 8).paced := by
  unfold paceGate State.paced State.gateFirst
  rfl

theorem State.deliverPace_frame (s : State) : s.deliverPace =
    { s with sched := { s.sched with devicePace := s.devicePace }, health := { s.health with devicePace := s.devicePace } } := by
  unfold State.deliverPace
  generalize s.devicePace = p
  rfl

theorem State.refreshPlan_frame (s : State) : s.refreshPlan = { s with sched := s.refreshPlan.sched } ∧
    s.refreshPlan.sched.devicePace = s.sched.devicePace := by
  unfold State.refreshPlan
  exact ⟨rfl, rfl⟩

/-- The device pace goes to Minuet and to the health monitors; beside it the plan alone changes. -/
theorem State.paced_frame (s : State) : s.paced.sched.devicePace = s.devicePace ∧
    s.paced = { s with sched := s.paced.sched, health := { s.health with devicePace := s.devicePace } } := by
  obtain ⟨hplan, hpace⟩ := s.deliverPace.refreshPlan_frame
  constructor
  · rw [State.paced, State.onSched_sched, hpace, State.deliverPace_frame]
  · rw [State.paced, hplan]
    generalize s.deliverPace.refreshPlan.sched = k
    rw [State.deliverPace_frame]
    rfl

theorem State.pace_paced (s : State) (i : Nat) : s.paced.pace i = s.pace i := by
  have hpower : s.paced.power = s.power := by rw [s.paced_frame.2]
  simp only [State.pace, hpower]

/-! ### TILE_VOLTAGE_STEP_DOWN -/

theorem tileVoltageStepDown_of_due {i : Nat} {s : State} (hpace : s.paceNeed i * 105 < (s.pace i).pace * 100)
    (hmv : 650 < (s.pace i).mv) (hlast : (s.pace i).lastStepDown + 1280000 ≤ s.clk.now) :
    tileVoltageStepDown i s = s.onPace i fun p => { p with mv := p.mv - 10, lastStepDown := s.clk.now } := by
  have hsince : s.since (s.pace i).lastStepDown (ms 1) = true := State.since_iff.mpr hlast
  simp only [tileVoltageStepDown, hpace, hmv, hsince, decide_true, Bool.and_self, if_true]
  rfl

theorem tileVoltageStepDown_of_not_due {i : Nat} {s : State} (h : (s.pace i).pace * 100 ≤ s.paceNeed i * 105 ∨ (s.pace i).mv ≤ 650 ∨
    s.clk.now < (s.pace i).lastStepDown + 1280000) : tileVoltageStepDown i s = s := by
  have hnot : (decide (s.paceNeed i * 105 < (s.pace i).pace * 100) && decide (650 < (s.pace i).mv) &&
      s.since (s.pace i).lastStepDown (ms 1)) = false := by
    rcases h with h | h | h
    · simp [Nat.not_lt.mpr h]
    · simp [Nat.not_lt.mpr h]
    · have hsince : s.since (s.pace i).lastStepDown (ms 1) = false :=
        Bool.eq_false_iff.mpr fun hs => absurd (State.since_iff.mp hs) (Nat.not_le.mpr h)
      simp [hsince]
  simp only [tileVoltageStepDown, hnot]
  rfl

/-- Settles O3: the gate of each tile, the lowest pace of them, and one step of voltage. -/
theorem paceDrivesTheVoltage : Obligations.PaceDrivesTheVoltage := by
  refine ⟨fun as bs s hlen => ?_, fun i s hi => ⟨fun hpace hmv hlast => ?_, fun h => ?_⟩⟩
  · obtain ⟨hframe, -, hgate⟩ := s.gateFirst_frame as bs 8 hlen.ge
    have hnext : exec (.paceGate as bs) s = .next (s.gateFirst as bs 8).paced := congrArg Host.Outcome.next (paceGate_eq as bs s)
    generalize s.gateFirst as bs 8 = g at hframe hgate hnext
    obtain ⟨tiles, rfl⟩ : ∃ tiles, g = { s with power := { s.power with tiles := tiles } } := ⟨_, hframe⟩
    obtain ⟨hdev, hrest⟩ := State.paced_frame { s with power := { s.power with tiles := tiles } }
    have hhealth := congrArg State.health hrest
    have hpower := congrArg State.power hrest
    refine ⟨_, hnext, fun i hi => ?_, fun i hi => ?_, ?_, ?_, ?_⟩
    · obtain ⟨hA, hB⟩ := TilePace.gated_lines (as.getD i 0 / 5) (bs.getD i 0 / 5) (s.paceNeed i) (s.pace i)
      rw [State.pace_paced, hgate, if_pos hi]
      exact ⟨hA, hB, by rw [TilePace.pace, hA, hB], TilePace.gated_mv ..⟩
    · rw [hdev, State.pace_paced]
      exact State.devicePace_le _ hi
    · obtain ⟨i, hi, heq⟩ := State.exists_devicePace_eq { s with power := { s.power with tiles := tiles } }
      exact ⟨i, hi, by rw [hdev, State.pace_paced, heq]⟩
    · rw [hdev]
      exact hhealth
    · rw [hpower, hhealth]
      exact hrest
  · refine ⟨_, rfl, ?_⟩
    rw [tileVoltageStepDown_of_due hpace hmv hlast]
    exact ⟨State.pace_onPace_same _ _ _ hi, fun j hj => State.pace_onPace_ne _ _ _ _ hj, rfl⟩
  · exact congrArg Host.Outcome.next (tileVoltageStepDown_of_not_due h)

end Sys2Proof.Machine

/-!
## Takeover and the replay of the journal (R21, R58, R393, R398)
-/
namespace Sys2Proof.Machine

/-! ### Status changes -/

/-- An interrupt changes the PCIe window and sends its message, nothing else. -/
theorem State.interrupt_frame (b : Nat) (s : State) :
    s.interrupt b = { s with host := { s.host with pcie := (s.interrupt b).host.pcie }, out := (s.interrupt b).out } := by
  unfold State.interrupt
  dsimp only
  split
  · rfl
  · split <;> rfl

theorem State.withStatus_frame (f : State → State) (s : State) : s.withStatus f =
    { f s with host := { (f s).host with pcie := (s.withStatus f).host.pcie }, out := (s.withStatus f).out } := by
  unfold State.withStatus
  dsimp only
  split
  · rfl
  · exact State.interrupt_frame 5 (f s)

@[simp] theorem State.withStatus_power (f : State → State) (s : State) : (s.withStatus f).power = (f s).power := by
  rw [State.withStatus_frame]

@[simp] theorem State.withStatus_health (f : State → State) (s : State) : (s.withStatus f).health = (f s).health := by
  rw [State.withStatus_frame]

@[simp] theorem State.withStatus_journal (f : State → State) (s : State) :
    (s.withStatus f).host.journal = (f s).host.journal := by
  rw [State.withStatus_frame]

@[simp] theorem State.withStatus_waiting (f : State → State) (s : State) :
    (s.withStatus f).host.waiting = (f s).host.waiting := by
  rw [State.withStatus_frame]

@[simp] theorem State.withStatus_checked (f : State → State) (s : State) :
    (s.withStatus f).host.checked = (f s).host.checked := by
  rw [State.withStatus_frame]

@[simp] theorem State.withStatus_queues (f : State → State) (s : State) :
    (s.withStatus f).host.queues = (f s).host.queues := by
  rw [State.withStatus_frame]

/-! ### Packets not yet accepted -/

theorem State.dropUnaccepted_frame (s : State) : s.dropUnaccepted =
    { s with host := { s.host with checked := [], queues := s.dropUnaccepted.host.queues } } := rfl

theorem State.held_dropUnaccepted (s : State) : ∀ k ∈ s.dropUnaccepted.host.queues, k.held = [] := by
  intro k hk
  obtain ⟨x, -, rfl⟩ := List.mem_map.mp hk
  rfl

theorem State.nextSeq_dropUnaccepted (q : Nat) (s : State) : (s.dropUnaccepted.queue q).nextSeq = (s.queue q).nextSeq := by
  simp only [State.queue, State.dropUnaccepted, State.onHost_host, List.getD_eq_getElem?_getD, List.getElem?_map,
    List.getElem?_zipIdx]
  cases s.host.queues[q]? <;> rfl

/-! ### The promotion of the standby -/

/-- What a promotion makes of a state, before the interrupt of DEV_STATUS. -/
def State.promoted (s : State) : State :=
  ((s.onPower fun p =>
    { p with takeover := true, supervisorB := !p.supervisorB, failedPair := true, takeovers := satInc 32 p.takeovers }).onHealth
    fun h => { h with takeoverSeen := true }).dropUnaccepted

theorem State.takeOver_of_ready {s : State} (hrun : s.power.running = true) (hhalt : s.power.halted = false)
    (hready : s.standbyReady = true) : s.takeOver = s.withStatus State.promoted := by
  simp only [State.takeOver, hrun, hhalt, hready]
  rfl

/-- While a takeover runs no command does, and packets are answered ST_BUSY 0x02. -/
theorem State.busy_of_takeover {s : State} (h : s.power.takeover = true) : s.executes = false ∧ s.busyDetail = some 2 := by
  simp [State.executes, State.busyDetail, h]

/-! ### The control words -/

/-- From `s` to `t` only control words and entries behind the live ones may be new, beside the PCIe window and its messages. -/
structure Restores (s t : State) : Prop where
  frame : t = { s with host := t.host, out := t.out }
  waiting : t.host.waiting = s.host.waiting
  applied : t.host.journal.applied = s.host.journal.applied
  pendingIdx : t.host.journal.pendingIdx = s.host.journal.pendingIdx
  live : ∀ l ∈ s.host.journal.live, l ∈ t.host.journal.live

theorem Restores.refl (s : State) : Restores s s := ⟨rfl, rfl, rfl, rfl, fun _ h => h⟩

theorem Restores.trans {s t u : State} (h : Restores s t) (k : Restores t u) : Restores s u where
  frame := by rw [k.frame, h.frame]
  waiting := k.waiting.trans h.waiting
  applied := k.applied.trans h.applied
  pendingIdx := k.pendingIdx.trans h.pendingIdx
  live l hl := k.live l (h.live l hl)

theorem Restores.bankOut (b : Nat) (s : State) : Restores s (s.bankOut b) := by
  unfold State.bankOut
  split
  · exact .refl s
  · refine ⟨?_, by simp, ?_, ?_, ?_⟩
    · rw [State.withStatus_frame]; rfl
    all_goals simp only [State.withStatus_journal, State.onJournal_host, Journal.onBank]
    · split <;> rfl
    · split <;> rfl
    · intro l hl
      split <;> exact hl

theorem Restores.enter (k : Checked) (st : EntryState) (b : StatusBlock) (r : Option Reply) (s : State) :
    Restores s (s.enter k st b r) :=
  ⟨rfl, rfl, rfl, rfl, fun _ hl => List.mem_append_left _ hl⟩

theorem Restores.raiseNext (s : State) (o : OddCopy) : Restores s (s.raiseNext o) := by
  unfold State.raiseNext
  split
  · exact .refl s
  · dsimp only
    split
    · exact .refl s
    · split
      · exact .enter ..
      · exact ⟨rfl, rfl, rfl, rfl, fun _ hl => hl⟩

theorem Restores.carried {s t : State} (h : Restores s t) (l : Live) : t.carried l = s.carried l := by
  rw [State.carried, h.pendingIdx, h.frame]
  rfl

theorem Restores.foldl {l : List OddCopy} {s t : State} (h : Restores s t) : Restores s (l.foldl State.raiseNext t) := by
  induction l generalizing t with
  | nil => exact h
  | cons o l ih => exact ih (h.trans (.raiseNext t o))

theorem Restores.restoreControl (bad : List BadCopy) (odd : List OddCopy) (s : State) :
    Restores s (s.restoreControl bad odd) := by
  have hout (b : Nat) (t : State) : Restores t (if bad.contains (.control b) then t.bankOut b else t) := by
    split
    · exact .bankOut b t
    · exact .refl t
  exact .foldl ((hout 0 s).trans (hout 1 _))

/-! ### Live entries -/

/-- From `s` to `t` entries have been resolved: replies and numbers of entries to run anew have been added, and what the replay of other
entries reads stands. -/
structure Resolves (s t : State) : Prop where
  frame : t = { s with host := t.host, health := { s.health with bankDiverged := t.health.bankDiverged } }
  diverged : s.health.bankDiverged = true → t.health.bankDiverged = true
  waiting : ∀ r ∈ s.host.waiting, r ∈ t.host.waiting
  requeued : ∀ x ∈ s.host.journal.requeued, x ∈ t.host.journal.requeued
  bankA : t.host.journal.bankA = s.host.journal.bankA
  bankB : t.host.journal.bankB = s.host.journal.bankB
  applied : t.host.journal.applied = s.host.journal.applied
  pendingIdx : t.host.journal.pendingIdx = s.host.journal.pendingIdx
  nextSeq : ∀ q, (t.queue q).nextSeq = (s.queue q).nextSeq

theorem Resolves.refl (s : State) : Resolves s s :=
  ⟨rfl, fun h => h, fun _ h => h, fun _ h => h, rfl, rfl, rfl, rfl, fun _ => rfl⟩

theorem Resolves.trans {s t u : State} (h : Resolves s t) (k : Resolves t u) : Resolves s u where
  frame := by rw [k.frame, h.frame]
  diverged hd := k.diverged (h.diverged hd)
  waiting r hr := k.waiting r (h.waiting r hr)
  requeued x hx := k.requeued x (h.requeued x hx)
  bankA := k.bankA.trans h.bankA
  bankB := k.bankB.trans h.bankB
  applied := k.applied.trans h.applied
  pendingIdx := k.pendingIdx.trans h.pendingIdx
  nextSeq q := (k.nextSeq q).trans (h.nextSeq q)

theorem Resolves.post (r : Reply) (s : State) : Resolves s (s.post r) :=
  ⟨rfl, fun h => h, fun _ h => List.mem_append_left _ h, fun _ h => h, rfl, rfl, rfl, rfl, fun _ => rfl⟩

theorem Resolves.onLive (c : Cmd) (f : Live → Live) (s : State) : Resolves s (s.onLive c f) := by
  unfold State.onLive
  split
  · exact .refl s
  · exact ⟨rfl, fun h => h, fun _ h => h, fun _ h => h, rfl, rfl, rfl, rfl, fun _ => rfl⟩

theorem Resolves.updateDup (q seq tr : Nat) (f : DupRec → DupRec) (s : State) : Resolves s (s.updateDup q seq tr f) :=
  ⟨rfl, fun h => h, fun _ h => h, fun _ h => h, rfl, rfl, rfl, rfl,
    fun p => State.queue_onQueue_keep Queue.nextSeq q p _ s fun _ => rfl⟩

theorem Resolves.finishWith (op : Nat) (c : Cmd) (b : StatusBlock) (d : List Byte) (s : State) :
    Resolves s (s.finishWith op c b d) := by
  unfold State.finishWith State.recordDone
  dsimp only
  split
  · exact .post ..
  · exact (Resolves.post ..).trans ((Resolves.onLive ..).trans (.updateDup ..))

theorem Resolves.oweReply (dup : Bool) (l : Live) (r : Reply) (s : State) : Resolves s (s.oweReply dup l r) := by
  unfold State.oweReply
  dsimp only
  split
  · exact (Resolves.post ..).trans (.onLive ..)
  · exact (Resolves.post ..).trans ((Resolves.onLive ..).trans (.updateDup ..))

theorem Resolves.requeue (x : Nat) (s : State) :
    Resolves s (s.onJournal fun j => { j with requeued := j.requeued ++ [x] }) :=
  ⟨rfl, fun h => h, fun _ h => h, fun _ h => List.mem_append_left _ h, rfl, rfl, rfl, rfl, fun _ => rfl⟩

/-- A copy that differs from the other bank's is noted. -/
def State.noteDiverged (d : Bool) (s : State) : State := if d then s.onHealth fun h => { h with bankDiverged := true } else s

theorem Resolves.noteDiverged (d : Bool) (s : State) : Resolves s (s.noteDiverged d) := by
  cases d
  · exact .refl s
  · exact ⟨rfl, fun _ => rfl, fun _ h => h, fun _ h => h, rfl, rfl, rfl, rfl, fun _ => rfl⟩

/-- An entry whose final reply is not recorded: it goes on in its block, ends with its completion block, or runs anew. -/
def State.resume (l : Live) (s : State) : State :=
  if s.carried l then s
  else match s.completion l with
    | some b => s.finishWith l.opcode l.cmd b []
    | none => (s.onLive l.cmd fun y => { y with state := .accepted }).onJournal fun j => { j with requeued := j.requeued ++ [l.jix] }

theorem Resolves.resume (l : Live) (s : State) : Resolves s (s.resume l) := by
  unfold State.resume
  split
  · exact .refl s
  · split
    · exact .finishWith ..
    · exact (Resolves.onLive ..).trans (.requeue ..)

theorem State.resolve_of_unreadable {waited : List Reply} {bad : List BadCopy} {odd : List OddCopy} {s : State} {l : Live}
    (h : s.readCopies bad odd l = none) : State.resolve waited bad odd s l = s.finish l.opcode l.cmd stFault 3 0 [] := by
  simp only [State.resolve, h]

theorem State.resolve_of_done {waited : List Reply} {bad : List BadCopy} {odd : List OddCopy} {s : State} {l : Live} {d : Bool} {r : Reply}
    (h : s.readCopies bad odd l = some (.done, d)) (hr : l.reply = some r) (hfinal : r.final = true) :
    State.resolve waited bad odd s l = (s.noteDiverged d).oweReply (!waited.contains r) l r := by
  simp only [State.resolve, h, hr, Option.filter_some, hfinal, if_true]
  rfl

theorem State.resolve_of_not_done {waited : List Reply} {bad : List BadCopy} {odd : List OddCopy} {s : State} {l : Live} {d : Bool}
    {st : EntryState} (h : s.readCopies bad odd l = some (st, d)) (hst : st ≠ .done ∨ l.reply.filter (·.final) = none) :
    State.resolve waited bad odd s l = (s.noteDiverged d).resume l := by
  simp only [State.resolve, h]
  rcases hst with hst | hst
  · cases st with
    | done => exact absurd rfl hst
    | _ => rfl
  · rw [hst]
    cases st <;> rfl

/-- What the replay makes of a readable entry follows the note that its copies differ. -/
theorem Resolves.of_readCopies (waited : List Reply) {bad : List BadCopy} {odd : List OddCopy} {s : State} {l : Live} {st : EntryState}
    {d : Bool} (hcopy : s.readCopies bad odd l = some (st, d)) : Resolves (s.noteDiverged d) (State.resolve waited bad odd s l) := by
  by_cases hst : st = .done
  · subst hst
    cases hr : l.reply.filter (·.final) with
    | none =>
      rw [State.resolve_of_not_done hcopy (.inr hr)]
      exact .resume ..
    | some r =>
      obtain ⟨hreply, hfinal⟩ := Option.filter_eq_some_iff.mp hr
      rw [State.resolve_of_done hcopy hreply hfinal]
      exact .oweReply ..
  · rw [State.resolve_of_not_done hcopy (.inl hst)]
    exact .resume ..

theorem Resolves.resolve (waited : List Reply) (bad : List BadCopy) (odd : List OddCopy) (s : State) (l : Live) :
    Resolves s (State.resolve waited bad odd s l) := by
  cases hcopy : s.readCopies bad odd l with
  | none =>
    rw [State.resolve_of_unreadable hcopy]
    exact .finishWith ..
  | some x => exact (Resolves.noteDiverged x.2 s).trans (.of_readCopies waited hcopy)

theorem Resolves.foldl (waited : List Reply) (bad : List BadCopy) (odd : List OddCopy) (order : List Live) (s : State) :
    Resolves s (order.foldl (State.resolve waited bad odd) s) := by
  induction order generalizing s with
  | nil => exact .refl s
  | cons l order ih => exact (Resolves.resolve waited bad odd s l).trans (ih _)

/-- The replay comes to each entry of its order, and what it makes of it stands. -/
theorem Resolves.exists_resolve {waited : List Reply} {bad : List BadCopy} {odd : List OddCopy} {order : List Live} {l : Live}
    (hl : l ∈ order) (s : State) : ∃ u, Resolves s u ∧
      Resolves (State.resolve waited bad odd u l) (order.foldl (State.resolve waited bad odd) s) := by
  obtain ⟨before, behind, rfl⟩ := List.append_of_mem hl
  refine ⟨before.foldl (State.resolve waited bad odd) s, .foldl .., ?_⟩
  rw [List.foldl_append, List.foldl_cons]
  exact .foldl ..

/-! ### What the resolution of an entry reads -/

theorem State.readCopies_congr {s t : State} (hA : t.host.journal.bankA = s.host.journal.bankA)
    (hB : t.host.journal.bankB = s.host.journal.bankB) (bad : List BadCopy) (odd : List OddCopy) (l : Live) :
    t.readCopies bad odd l = s.readCopies bad odd l := by
  have hbank (b : Nat) : t.bank b = s.bank b := by simp only [State.bank, hA, hB]
  have hcopy (b : Nat) : t.readCopy bad odd b l = s.readCopy bad odd b l := by
    unfold State.readCopy State.copyGood
    rw [hbank]
  unfold State.readCopies
  rw [hcopy, hcopy]

theorem State.completion_congr {s t : State} (h : t.host.journal.applied = s.host.journal.applied) (l : Live) :
    t.completion l = s.completion l := by
  simp only [State.completion, h]

theorem Resolves.carried {s t : State} (h : Resolves s t) (l : Live) : t.carried l = s.carried l := by
  rw [State.carried, h.pendingIdx, h.frame]
  rfl

theorem Resolves.block {s t : State} (h : Resolves s t) (st det res : Nat) : t.block st det res = s.block st det res :=
  State.block_congr st det res (by rw [h.frame]) (by rw [h.frame])

/-! ### The replay -/

theorem mem_insertBy {α : Type} (before : α → α → Bool) (x y : α) (l : List α) : y ∈ insertBy before x l ↔ y = x ∨ y ∈ l := by
  induction l with
  | nil => simp [insertBy]
  | cons z l ih =>
    unfold insertBy
    split
    · simp only [List.mem_cons, ih]
      tauto
    · simp

theorem mem_sortBy {α : Type} (before : α → α → Bool) (y : α) (l : List α) : y ∈ sortBy before l ↔ y ∈ l := by
  induction l with
  | nil => rfl
  | cons x l ih => rw [sortBy, mem_insertBy, ih, List.mem_cons]

/-- A state whose control words have been made good, with what was not accepted forgotten, as the replay comes to the entries. -/
def State.forReplay (s : State) : State :=
  (((s.onHost fun h => { h with waiting := h.waiting.filter fun r => s.survives r }).dropUnaccepted).onJournal
    fun j => { j with requeued := [] })

/-- The live entries in the order of their indices. -/
def State.liveOrder (s : State) : List Live := sortBy (fun a b : Live => decide (a.jix < b.jix)) s.host.journal.live

/-- A state whose entries have been resolved. -/
def State.entriesResolved (bad : List BadCopy) (odd : List OddCopy) (s : State) : State :=
  s.liveOrder.foldl (State.resolve s.host.waiting bad odd) s.forReplay

/-- The end of the replay: every copy is good again, and no data and no submission entry stand behind the replies. -/
def State.endReplay (s : State) : State :=
  s.repairCopies.onHost fun h => { h with waiting := h.waiting.map (Reply.owed false) }

theorem State.replay_eq (bad : List BadCopy) (odd : List OddCopy) (s : State) :
    s.replay bad odd = ((s.restoreControl bad odd).entriesResolved bad odd).endReplay := rfl

theorem State.forReplay_frame (s : State) :
    s.forReplay = { s with host := s.forReplay.host } := rfl

theorem State.nextSeq_forReplay (q : Nat) (s : State) : (s.forReplay.queue q).nextSeq = (s.queue q).nextSeq :=
  State.nextSeq_dropUnaccepted q (s.onHost _)

theorem State.entriesResolved_resolves (bad : List BadCopy) (odd : List OddCopy) (s : State) :
    Resolves s.forReplay (s.entriesResolved bad odd) := Resolves.foldl ..

/-- Each live entry is resolved in a state that reads like the one with its control words made good. -/
theorem State.exists_resolve (bad : List BadCopy) (odd : List OddCopy) {s : State} {l : Live} (hl : l ∈ s.host.journal.live) :
    ∃ u, Resolves s.forReplay u ∧ u.readCopies bad odd l = s.readCopies bad odd l ∧
      Resolves (State.resolve s.host.waiting bad odd u l) (s.entriesResolved bad odd) := by
  obtain ⟨u, hu, hlast⟩ := Resolves.exists_resolve (waited := s.host.waiting) (bad := bad) (odd := odd)
    ((mem_sortBy (fun a b : Live => decide (a.jix < b.jix)) l s.host.journal.live).mpr hl) s.forReplay
  exact ⟨u, hu, State.readCopies_congr (hu.bankA.trans rfl) (hu.bankB.trans rfl) bad odd l, hlast⟩

/-- A reply that waits behind the replay of the entries waits behind the whole replay. -/
theorem State.mem_waiting_endReplay {r : Reply} {s : State} (h : r ∈ s.host.waiting) :
    r.owed false ∈ s.endReplay.host.waiting :=
  List.mem_map_of_mem h

theorem State.owed_mem_oweReply (dup : Bool) (l : Live) (r : Reply) (s : State) :
    r.owed dup ∈ (s.oweReply dup l r).host.waiting := by
  unfold State.oweReply
  dsimp only
  split <;> simp

theorem State.mem_requeued_resume {l : Live} {s : State} (hcarried : s.carried l = false) (hcompletion : s.completion l = none) :
    l.jix ∈ (s.resume l).host.journal.requeued := by
  simp [State.resume, hcarried, hcompletion]

section
variable {s : State} {l : Live} (bad : List BadCopy) (odd : List OddCopy)

/-- The recorded final reply of a finished entry is sent again. -/
theorem State.replay_done {d : Bool} {r : Reply} (hl : l ∈ s.host.journal.live)
    (hcopy : (s.restoreControl bad odd).readCopies bad odd l = some (.done, d)) (hr : l.reply = some r) (hfinal : r.final = true) :
    (r.owed (!s.host.waiting.contains r)).owed false ∈ (s.replay bad odd).host.waiting := by
  have hrest := Restores.restoreControl bad odd s
  obtain ⟨u, -, hread, hlast⟩ := State.exists_resolve bad odd (hrest.live l hl)
  rw [State.resolve_of_done (hread.trans hcopy) hr hfinal, hrest.waiting] at hlast
  exact State.mem_waiting_endReplay (hlast.waiting _ (State.owed_mem_oweReply ..))

/-- A reply that no live entry stands for is sent again. -/
theorem State.replay_survives {r : Reply} (hr : r ∈ s.host.waiting) (hsurvives : (s.restoreControl bad odd).survives r = true) :
    r.owed false ∈ (s.replay bad odd).host.waiting := by
  have hrest := Restores.restoreControl bad odd s
  refine State.mem_waiting_endReplay ((State.entriesResolved_resolves bad odd _).waiting r ?_)
  exact List.mem_filter.mpr ⟨hrest.waiting ▸ hr, hsurvives⟩

/-- An entry that neither bank holds readable ends with ST_FAULT 0x03. -/
theorem State.replay_unreadable (hl : l ∈ s.host.journal.live) (hcopy : (s.restoreControl bad odd).readCopies bad odd l = none) :
    ∃ r ∈ (s.replay bad odd).host.waiting,
      r.tag = l.cmd.tag ∧ r.seq = l.cmd.seq ∧ r.final = true ∧ r.block = s.block 0x20 3 0 := by
  have hrest := Restores.restoreControl bad odd s
  obtain ⟨u, hu, hread, hlast⟩ := State.exists_resolve bad odd (hrest.live l hl)
  rw [State.resolve_of_unreadable (hread.trans hcopy)] at hlast
  obtain ⟨⟨r, hpost, -, htag, -, hseq, -, hfinal, -, hblock, -⟩, -⟩ := finish_finished l.opcode l.cmd stFault 3 0 [] u
  refine ⟨r.owed false, State.mem_waiting_endReplay (hlast.waiting r (by simp [hpost])), htag, hseq, hfinal, hblock.trans ?_⟩
  rw [hu.block]
  exact State.block_congr _ _ _ (by rw [State.forReplay_frame, hrest.frame]) (by rw [State.forReplay_frame, hrest.frame])

/-- Copies that differ are noted; an entry that is neither done nor carried on runs anew. -/
theorem State.replay_not_done {st : EntryState} {d : Bool} (hl : l ∈ s.host.journal.live)
    (hcopy : (s.restoreControl bad odd).readCopies bad odd l = some (st, d)) :
    (d = true → (s.replay bad odd).health.bankDiverged = true) ∧
    (st ≠ .done → s.carried l = false → s.completion l = none → l.jix ∈ (s.replay bad odd).host.journal.requeued) := by
  have hrest := Restores.restoreControl bad odd s
  obtain ⟨u, hu, hread, hlast⟩ := State.exists_resolve bad odd (hrest.live l hl)
  constructor
  · rintro rfl
    exact hlast.diverged ((Resolves.of_readCopies _ (hread.trans hcopy)).diverged rfl)
  · intro hst hcarried hcompletion
    rw [State.resolve_of_not_done (hread.trans hcopy) (.inl hst)] at hlast
    have hnote := hu.trans (.noteDiverged d u)
    refine hlast.requeued _ (State.mem_requeued_resume ?_ ?_)
    · rw [hnote.carried]
      exact (hrest.carried l).trans hcarried
    · rw [State.completion_congr (hnote.applied.trans hrest.applied), hcompletion]

end

/-- The replay changes the host side, BANK_DIVERGED and the messages it sends. -/
theorem State.replay_frame (bad : List BadCopy) (odd : List OddCopy) (s : State) :
    s.replay bad odd = { s with host := (s.replay bad odd).host, health := (s.replay bad odd).health, out := (s.replay bad odd).out } := by
  have hrest := (Restores.restoreControl bad odd s).frame
  have hres := (State.entriesResolved_resolves bad odd (s.restoreControl bad odd)).frame
  rw [State.replay_eq]
  generalize (s.restoreControl bad odd).entriesResolved bad odd = r at hres
  generalize s.restoreControl bad odd = t at hrest hres
  obtain ⟨host, out, rfl⟩ : ∃ host out, t = { s with host := host, out := out } := ⟨_, _, hrest⟩
  obtain ⟨host', health, rfl⟩ : ∃ host' health, r = { s with host := host', health := health, out := out } := ⟨_, _, hres⟩
  rfl

/-- NEXT_SEQ behind the replay is what the control words give. -/
theorem State.nextSeq_replay (bad : List BadCopy) (odd : List OddCopy) (s : State) (q : Nat) :
    ((s.replay bad odd).queue q).nextSeq = ((s.restoreControl bad odd).queue q).nextSeq :=
  ((State.entriesResolved_resolves bad odd _).nextSeq q).trans (State.nextSeq_forReplay q _)

/-- The higher of two NEXT_SEQ values stands. -/
theorem State.nextSeq_restoreControl {b q v : Nat} {s : State} (hbank : (s.bank b).inService = true) (hq : q < s.host.queues.length)
    (hv : v = ((s.queue q).nextSeq + 1) % 2 ^ 32) (hnext : (s.queue q).nextSeq < 2 ^ 32) :
    ((s.restoreControl [] [.nextSeq b q v]).queue q).nextSeq = v := by
  have hd : toSigned 32 (wrap 32 (v + 2 ^ 32 - (s.queue q).nextSeq)) = 1 := by
    have hw : wrap 32 (v + 2 ^ 32 - (s.queue q).nextSeq) = 1 := by
      unfold wrap
      omega
    rw [hw]
    rfl
  change ((State.raiseNext s (.nextSeq b q v)).queue q).nextSeq = v
  unfold State.raiseNext
  dsimp only
  rw [hd, hbank]
  simp only [Bool.not_true, Bool.false_or, decide_eq_true_eq, show ¬ (1 : Int) ≤ 0 by decide, if_false]
  split
  · next k hfind =>
    obtain ⟨hqueue, -⟩ : k.cmd.queue = q ∧ _ := by simpa [and_assoc] using List.find?_some hfind
    simp [State.enter, State.recordDup, State.queue, hqueue, hq, hv, wrap]
  · have hwrap : wrap 32 v = v := by
      unfold wrap
      omega
    simp [State.queue, hq, hwrap]

theorem State.survives_of_no_entry {r : Reply} {s : State} (hfinal : r.final = true) (hseq : r.unseq = false)
    (h : ∀ l ∈ s.host.journal.live, ¬ (l.cmd.queue = r.queue ∧ l.cmd.seq = r.seq ∧ l.cmd.tag = r.tag)) : s.survives r = true := by
  have hnone : (s.host.journal.live.any fun l => l.cmd.queue == r.queue && l.cmd.seq == r.seq && l.cmd.tag == r.tag) = false := by
    rw [List.any_eq_false]
    intro l hl
    simpa [and_assoc] using h l hl
  simp [State.survives, hfinal, hseq, hnone]

theorem Reply.dup_owed {waited : List Reply} {r : Reply} (h : r.data ≠ [] ∨ r ∉ waited) :
    ((r.owed (!waited.contains r)).owed false).dup = true := by
  rcases h with h | h
  · simp [Reply.owed, h]
  · simp [Reply.owed, h]

/-- Settles O4: the promotion, and what the replay makes of each entry and reply. -/
theorem takeoverReplaysTheJournal : Obligations.TakeoverReplaysTheJournal := by
  refine ⟨fun s hrun hhalt hready => ?_, fun bad odd s htake => ?_⟩
  · obtain ⟨hexec, hbusy⟩ := State.busy_of_takeover (s := s.withStatus State.promoted) (by rw [State.withStatus_power]; rfl)
    have hnext : exec .supervisorMismatch s = .next (s.withStatus State.promoted) :=
      congrArg Host.Outcome.next (State.takeOver_of_ready hrun hhalt hready)
    refine ⟨_, hnext, ?_, ?_, ?_, ?_, hexec, hbusy, ?_, ?_, ?_, ?_, ?_, ?_⟩
    · rw [State.withStatus_power]; rfl
    · rw [State.withStatus_power]; rfl
    · rw [State.withStatus_power]; rfl
    · rw [State.withStatus_power]; rfl
    · rw [State.withStatus_health]; rfl
    · rw [State.withStatus_checked]; rfl
    · rw [State.withStatus_queues]
      exact State.held_dropUnaccepted _
    · rw [State.withStatus_journal]; rfl
    · rw [State.withStatus_waiting]; rfl
    · rw [State.withStatus_frame]; rfl
  · have hnext : takeoverComplete bad odd s = (s.replay bad odd).withStatus (State.onPower fun p => { p with takeover := false }) := by
      simp [takeoverComplete, htake]
    intro s1
    have hrest := Restores.restoreControl bad odd s
    refine ⟨_, congrArg Host.Outcome.next hnext, ?_⟩
    have hframe := s.replay_frame bad odd
    simp only [State.withStatus_power, State.withStatus_waiting, State.withStatus_health, State.withStatus_journal, State.onPower_host,
      State.onPower_power, State.onPower_health]
    refine ⟨trivial, by rw [hframe], fun l hl r d hcopy hr hfinal => ⟨_, State.replay_done bad odd hl hcopy hr hfinal, rfl, rfl, rfl, rfl, rfl, Reply.dup_owed⟩,
      fun r hr hfinal hseq hnone => ⟨_, State.replay_survives bad odd hr (State.survives_of_no_entry hfinal hseq hnone), rfl, rfl, rfl, hfinal⟩,
      fun l hl hcopy => State.replay_unreadable bad odd hl hcopy, fun l hl st d hcopy => State.replay_not_done bad odd hl hcopy,
      fun b q v hbad hodd hbank hq hv hn => ?_, ?_⟩
    · subst hbad hodd
      rw [State.queue, State.withStatus_queues]
      exact (State.nextSeq_replay ..).trans (State.nextSeq_restoreControl hbank hq hv hn)
    · rw [State.withStatus_frame]
      generalize State.withStatus _ (s.replay bad odd) = t
      generalize s.replay bad odd = r at hframe
      obtain ⟨host, health, out, rfl⟩ : ∃ host health out, r = { s with host := host, health := health, out := out } := ⟨_, _, _, hframe⟩
      rfl

end Sys2Proof.Machine

/-!
## Ring registers (R53, R54, R455)
-/
namespace Sys2Proof.Machine

/-! ### Queues and rings behind an update -/

theorem State.queue_onQueue_same (q : Nat) (f : Queue → Queue) (s : State) (h : q < s.host.queues.length) :
    (s.onQueue q f).queue q = f (s.queue q) := by
  simp [State.queue, h]

@[simp] theorem State.onQueue_length (q : Nat) (f : Queue → Queue) (s : State) :
    (s.onQueue q f).host.queues.length = s.host.queues.length := by simp

theorem State.ring_onRing_same (q : Nat) (f : Ring → Ring) (s : State) (h : q < s.host.queues.length) :
    (s.onRing q f).ring q = f (s.ring q) := by
  rw [State.ring, State.onRing, State.queue_onQueue_same _ _ _ h]; rfl

/-- A change of a ring's registers changes nothing else. -/
theorem State.onRing_ringOnly (q : Nat) (f : Ring → Ring) (s : State) (h : q < s.host.queues.length) :
    RingOnly q s (s.onRing q f) := by
  refine ⟨rfl, by simp [State.onRing], fun p hp => State.queue_onQueue_ne _ _ _ _ hp, ?_⟩
  rw [State.ring_onRing_same _ _ _ h, State.onRing, State.queue_onQueue_same _ _ _ h]
  rfl

theorem State.onRing_eq_self {q : Nat} {f : Ring → Ring} (s : State) (hf : ∀ r, f r = r) : s.onRing q f = s := by
  have hid : (fun k : Queue => { k with ring := f k.ring }) = id := funext fun k => by rw [hf]; rfl
  simp [State.onRing, hid, State.onQueue, State.onHost, List.modify_id]

/-! ### Writes of the window -/

theorem State.readWindow_ring (q o : Nat) (s : State) (hq : q < 4) (ho : o < 0x40) :
    s.readWindow (0x100 + 0x40 * q + o) = s.readRing q o := by
  have hq' : (0x100 + 0x40 * q + o - 0x100) / 0x40 = q := by omega
  have ho' : (0x100 + 0x40 * q + o - 0x100) % 0x40 = o := by omega
  unfold State.readWindow
  split
  iterate 7 omega
  · rw [if_pos (by omega), hq', ho']

theorem registerWrite_ring (q o v : Nat) {s : State} (hup : s.pcieUp = true) (hq : q < 4) (ho : o < 0x40) (h4 : o % 4 = 0) :
    registerWrite (0x100 + 0x40 * q + o) v s = s.writeRing q o v := by
  have hq' : (0x100 + 0x40 * q + o - 0x100) / 0x40 = q := by omega
  have ho' : (0x100 + 0x40 * q + o - 0x100) % 0x40 = o := by omega
  have hin : (decide (0x100 ≤ 0x100 + 0x40 * q + o) && decide (0x100 + 0x40 * q + o < 0x200) &&
      decide ((0x100 + 0x40 * q + o) % 4 = 0)) = true := by
    simp only [Bool.and_eq_true, decide_eq_true_eq]
    omega
  simp only [registerWrite, hup, Bool.not_true, Bool.false_eq_true, if_false, show ¬ 0x100 + 0x40 * q + o = 0x018 by omega,
    show ¬ 0x100 + 0x40 * q + o = 0x01C by omega]
  rw [hq', ho']
  simpa using fun h => absurd hin (by simpa using h)

/-- The offsets of the ring registers that hold settings. -/
def ringSettings : List Nat := [0x00, 0x04, 0x08, 0x14, 0x18, 0x1C, 0x28, 0x2C]

theorem State.writeRing_free {q o : Nat} (v : Nat) {s : State} (ho : o ∈ ringSettings) (hfree : s.ringBusy q o = false) :
    s.writeRing q o v = s.onRing q (Ring.write o v) := by
  have hne : o ≠ 0x0C ∧ o ≠ 0x24 ∧ o ≠ 0x30 := by
    simp only [ringSettings, List.mem_cons, List.not_mem_nil, or_false] at ho
    omega
  obtain ⟨h1, h2, h3⟩ := hne
  simp only [State.writeRing, h1, h2, h3, hfree, if_false, Bool.false_eq_true]

theorem State.writeRing_busy {q o : Nat} (v : Nat) {s : State} (ho : o ∈ ringSettings) (hbusy : s.ringBusy q o = true) :
    s.writeRing q o v = s.onRing q fun r => { r with qError := 5 } := by
  have hne : o ≠ 0x0C ∧ o ≠ 0x24 ∧ o ≠ 0x30 := by
    simp only [ringSettings, List.mem_cons, List.not_mem_nil, or_false] at ho
    omega
  obtain ⟨h1, h2, h3⟩ := hne
  simp only [State.writeRing, h1, h2, h3, hbusy, if_false, if_true]

theorem State.ringBusy_sq {o : Nat} (q : Nat) (s : State) (h : o ≤ 0x08) : s.ringBusy q o = (s.ring q).enabled := by
  simp [State.ringBusy, h]

/-- With every credit there the registers of the reply ring are not in use. -/
theorem State.ringBusy_rq_free {q o : Nat} {s : State} (h : ¬ o ≤ 0x08) (hc : s.credits q = 128) : s.ringBusy q o = false := by
  simp [State.ringBusy, h, hc]

theorem State.ringBusy_rq_busy {q o : Nat} {s : State} (ho : o ∈ [0x14, 0x18, 0x1C, 0x28, 0x2C]) (hc : s.credits q < 128)
    (howed : s.owedOnly q = false) : s.ringBusy q o = true := by
  have h8 : ¬ o ≤ 0x08 := by
    simp only [List.mem_cons, List.not_mem_nil, or_false] at ho
    omega
  simpa [State.ringBusy, h8, hc, howed] using ho

theorem setBase_low {v : Nat} (old : Nat) (h : v < 2 ^ 32) : setBase false v old % 2 ^ 32 = v / 4096 * 4096 := by
  simp only [setBase, Bool.false_eq_true, if_false]
  omega

theorem setBase_high {v : Nat} (old : Nat) (h : v < 2 ^ 32) : setBase true v old / 2 ^ 32 = v := by
  simp only [setBase, if_true]
  omega

/-- R54, R53: a write of a setting while the ring is not in use takes effect there and reads back. -/
theorem registerWrite_free {q o v : Nat} {s : State} (h : WindowUp q s) (ho : o ∈ ringSettings) (hfree : s.ringBusy q o = false) :
    ∃ t, exec (.registerWrite (0x100 + 0x40 * q + o) v) s = .next t ∧ RingOnly q s t ∧
      (t.ring q = (s.ring q).write o v ∧ t.readWindow (0x100 + 0x40 * q + o) = t.readRing q o) := by
  obtain ⟨hq, hlen', hup⟩ := h
  have hlen : q < s.host.queues.length := by omega
  have hlt : o < 0x40 ∧ o % 4 = 0 := by
    simp only [ringSettings, List.mem_cons, List.not_mem_nil, or_false] at ho
    omega
  refine ⟨_, congrArg Host.Outcome.next (registerWrite_ring q o v hup hq hlt.1 hlt.2), ?_⟩
  rw [State.writeRing_free v ho hfree]
  exact ⟨State.onRing_ringOnly _ _ _ hlen, State.ring_onRing_same _ _ _ hlen, State.readWindow_ring _ _ _ hq hlt.1⟩

/-- R54: a write of a setting while the ring is in use leaves Q_ERROR 0x05. -/
theorem registerWrite_busy {q o v : Nat} {s : State} (h : WindowUp q s) (ho : o ∈ ringSettings) (hbusy : s.ringBusy q o = true) :
    ∃ t, exec (.registerWrite (0x100 + 0x40 * q + o) v) s = .next t ∧ RingOnly q s t ∧
      t.ring q = { s.ring q with qError := 5 } := by
  obtain ⟨hq, hlen', hup⟩ := h
  have hlen : q < s.host.queues.length := by omega
  have hlt : o < 0x40 ∧ o % 4 = 0 := by
    simp only [ringSettings, List.mem_cons, List.not_mem_nil, or_false] at ho
    omega
  refine ⟨_, congrArg Host.Outcome.next (registerWrite_ring q o v hup hq hlt.1 hlt.2), ?_⟩
  rw [State.writeRing_busy v ho hbusy]
  exact ⟨State.onRing_ringOnly _ _ _ hlen, State.ring_onRing_same _ _ _ hlen⟩

/-- A write to a read-only offset of a ring changes nothing. -/
theorem registerWrite_readOnly {q o : Nat} (v : Nat) {s : State} (h : WindowUp q s) (ho : o ∈ [0x10, 0x20, 0x34, 0x38, 0x3C]) :
    registerWrite (0x100 + 0x40 * q + o) v s = s := by
  obtain ⟨hq, hlen, hup⟩ := h
  simp only [List.mem_cons, List.not_mem_nil, or_false] at ho
  have hlt : o < 0x40 ∧ o % 4 = 0 := by omega
  rw [registerWrite_ring q o v hup hq hlt.1 hlt.2]
  obtain rfl | rfl | rfl | rfl | rfl := ho <;> exact State.onRing_eq_self s fun r => rfl

/-- A write below the queues' blocks changes nothing beyond the interrupt registers. -/
theorem registerWrite_low {o : Nat} (v : Nat) {s : State} (ho : o < 0x100) (h18 : o ≠ 0x018) (h1c : o ≠ 0x01C) :
    registerWrite o v s = s := by
  have hlo : ¬ 0x100 ≤ o := by omega
  simp [registerWrite, h18, h1c, hlo]

/-! ### Doorbells and queue control -/

theorem sqDoorbell_up {q : Nat} (v : Nat) {s : State} (h : s.pcieUp = true) :
    sqDoorbell q v s = s.onRing q fun r => { r with sqTail := ringIndex r.sqSize v } := by
  simp [sqDoorbell, h]

theorem rqDoorbell_up {q : Nat} (v : Nat) {s : State} (h : s.pcieUp = true) :
    rqDoorbell q v s = s.onRing q fun r => { r with rqHead := ringIndex r.rqSize v } := by
  simp [rqDoorbell, h]

theorem qEnable_up {q : Nat} {s : State} (h : s.pcieUp = true) : qEnable q s = s.onRing q Ring.enable := by
  simp [qEnable, h]

theorem qDisable_up {q : Nat} {s : State} (h : s.pcieUp = true) :
    qDisable q s = s.onRing q fun r => { r with enabled := false } := by
  simp [qDisable, h]

theorem Ring.enable_unsized {r : Ring} (he : r.enabled = false) (hs : r.sized = false) : r.enable = { r with qError := 6 } := by
  simp [Ring.enable, he, hs]

theorem Ring.enable_halted {r : Ring} (he : r.enabled = false) (hs : r.sized = true) (hh : r.halted = true) :
    r.enable = { r with enabled := true, armed := true, halted := false, qError := 0, sqHead := ringIndex r.sqSize (r.sqHead + 1) } := by
  simp [Ring.enable, he, hs, hh]

theorem Ring.enable_fresh {r : Ring} (he : r.enabled = false) (hs : r.sized = true) (hh : r.halted = false) :
    r.enable = { r with enabled := true, armed := true } := by
  simp [Ring.enable, he, hs, hh]

/-- An index of a ring with a size in range. -/
theorem ringIndex_of_sized {r : Ring} (v : Nat) (hs : r.sized = true) : ringIndex r.sqSize v = v % 2 ^ r.sqSize := by
  have hne : r.sqSize ≠ 0 := by
    simp only [Ring.sized, Bool.and_eq_true, decide_eq_true_eq] at hs
    omega
  simp [ringIndex, hne, depth]

theorem intStatusClear_up {m : Nat} {s : State} (h : s.pcieUp = true) :
    intStatusClear m s =
      s.onHost fun h => { h with pcie := { h.pcie with intStatus := h.pcie.intStatus &&& ~~~ (BitVec.ofNat 6 m) } } := by
  simp [intStatusClear, h]

/-- An update of one ring while the window answers, as a row that completes. -/
theorem ringRow {c : Instr} {q : Nat} {f : Ring → Ring} {s : State} (h : WindowUp q s)
    (hexec : exec c s = .next (s.onRing q f)) :
    ∃ t, exec c s = .next t ∧ RingOnly q s t ∧ t.ring q = f (s.ring q) := by
  obtain ⟨hq, hlen, -⟩ := h
  have hlt : q < s.host.queues.length := by omega
  exact ⟨_, hexec, State.onRing_ringOnly _ _ _ hlt, State.ring_onRing_same _ _ _ hlt⟩

theorem registers_while_disabled {q v : Nat} {s : State} (h : WindowUp q s) (hv : v < 2 ^ 32) (hoff : (s.ring q).enabled = false) :
    (∃ t, exec (.registerWrite (0x100 + 0x40 * q) v) s = .next t ∧ RingOnly q s t ∧
      t.readWindow (0x100 + 0x40 * q) = v / 4096 * 4096 ∧ (t.ring q).rqBase = (s.ring q).rqBase) ∧
    (∃ t, exec (.registerWrite (0x100 + 0x40 * q + 0x04) v) s = .next t ∧ RingOnly q s t ∧
      t.readWindow (0x100 + 0x40 * q + 0x04) = v) ∧
    (∃ t, exec (.registerWrite (0x100 + 0x40 * q + 0x08) v) s = .next t ∧ RingOnly q s t ∧
      t.readWindow (0x100 + 0x40 * q + 0x08) = v % 16) := by
  have hfree (o : Nat) (ho : o ≤ 0x08) : s.ringBusy q o = false := (State.ringBusy_sq q s ho).trans hoff
  obtain ⟨t₀, hexec₀, honly₀, hring₀, hread₀⟩ := registerWrite_free (v := v) h (by decide : 0x00 ∈ ringSettings) (hfree _ (by omega))
  obtain ⟨t₁, hexec₁, honly₁, hring₁, hread₁⟩ := registerWrite_free (v := v) h (by decide : 0x04 ∈ ringSettings) (hfree _ (by omega))
  obtain ⟨t₂, hexec₂, honly₂, hring₂, hread₂⟩ := registerWrite_free (v := v) h (by decide : 0x08 ∈ ringSettings) (hfree _ (by omega))
  refine ⟨⟨t₀, hexec₀, honly₀, ?_, ?_⟩, ⟨t₁, hexec₁, honly₁, ?_⟩, ⟨t₂, hexec₂, honly₂, ?_⟩⟩
  · refine hread₀.trans ?_
    simp only [State.readRing, hring₀, Ring.write]
    exact setBase_low _ hv
  · simp only [hring₀, Ring.write]
  · simp only [hread₁, State.readRing, hring₁, Ring.write]
    exact setBase_high _ hv
  · simp only [hread₂, State.readRing, hring₂, Ring.write]

theorem registers_with_all_credits {q v : Nat} {s : State} (h : WindowUp q s) (hv : v < 2 ^ 32) (hc : s.credits q = 128) :
    (∃ t, exec (.registerWrite (0x100 + 0x40 * q + 0x14) v) s = .next t ∧ RingOnly q s t ∧
      t.readWindow (0x100 + 0x40 * q + 0x14) = v / 4096 * 4096) ∧
    (∃ t, exec (.registerWrite (0x100 + 0x40 * q + 0x1C) v) s = .next t ∧ RingOnly q s t ∧
      t.readWindow (0x100 + 0x40 * q + 0x1C) = v % 16) ∧
    (∃ t, exec (.registerWrite (0x100 + 0x40 * q + 0x28) v) s = .next t ∧ RingOnly q s t ∧
      t.readWindow (0x100 + 0x40 * q + 0x28) = v / 4096 * 4096) := by
  have hfree (o : Nat) (ho : ¬ o ≤ 0x08) : s.ringBusy q o = false := State.ringBusy_rq_free ho hc
  obtain ⟨t₀, hexec₀, honly₀, hring₀, hread₀⟩ := registerWrite_free (v := v) h (by decide : 0x14 ∈ ringSettings) (hfree _ (by omega))
  obtain ⟨t₁, hexec₁, honly₁, hring₁, hread₁⟩ := registerWrite_free (v := v) h (by decide : 0x1C ∈ ringSettings) (hfree _ (by omega))
  obtain ⟨t₂, hexec₂, honly₂, hring₂, hread₂⟩ := registerWrite_free (v := v) h (by decide : 0x28 ∈ ringSettings) (hfree _ (by omega))
  refine ⟨⟨t₀, hexec₀, honly₀, ?_⟩, ⟨t₁, hexec₁, honly₁, ?_⟩, ⟨t₂, hexec₂, honly₂, ?_⟩⟩
  · simp only [hread₀, State.readRing, hring₀, Ring.write]
    exact setBase_low _ hv
  · simp only [hread₁, State.readRing, hring₁, Ring.write]
  · simp only [hread₂, State.readRing, hring₂, Ring.write]
    exact setBase_low _ hv

/-! ### PERST# -/

theorem pciePerst_low_queue {s : State} {q : Nat} (hq : q < s.host.queues.length) :
    (pciePerst .low s).queue q = { s.queue q with ring := Ring.reset } := by
  simp [pciePerst, State.queue, State.onHost, hq]

/-- Settles O5: a write in a ring's block is `State.writeRing`, which changes that ring's registers alone; the doorbells and queue
control are updates of one ring, and PERST# replaces the registers of all of them. -/
theorem ringRegistersFollowTheHost : Obligations.RingRegistersFollowTheHost := by
  unfold Obligations.RingRegistersFollowTheHost
  refine ⟨fun q v s h hv => ?_, fun q v s h => ?_, fun m s hup => ?_, fun s => ?_, fun k s => ?_⟩
  · refine ⟨registers_while_disabled h hv, fun hen o ho => ?_, registers_with_all_credits h hv, fun hc howed o ho => ?_,
      fun o ho => congrArg Host.Outcome.next (registerWrite_readOnly v h ho),
      fun o ho h18 h1c => congrArg Host.Outcome.next (registerWrite_low v ho h18 h1c)⟩
    · have hmem : o ∈ ringSettings ∧ o ≤ 0x08 := by
        simp only [ringSettings, List.mem_cons, List.not_mem_nil, or_false] at ho ⊢
        omega
      exact registerWrite_busy h hmem.1 ((State.ringBusy_sq q s hmem.2).trans hen)
    · have hmem : o ∈ ringSettings := by
        simp only [ringSettings, List.mem_cons, List.not_mem_nil, or_false] at ho ⊢
        omega
      exact registerWrite_busy h hmem (State.ringBusy_rq_busy ho hc howed)
  · obtain ⟨-, -, hup⟩ := id h
    have henable := ringRow (c := .qEnable q) h (congrArg Host.Outcome.next (qEnable_up hup))
    refine ⟨ringRow (c := .sqDoorbell q v) h (congrArg Host.Outcome.next (sqDoorbell_up v hup)),
      ringRow (c := .rqDoorbell q v) h (congrArg Host.Outcome.next (rqDoorbell_up v hup)),
      ringRow (c := .qDisable q) h (congrArg Host.Outcome.next (qDisable_up hup)), fun hoff hs => ?_, fun hoff hs hh => ?_, fun hoff hs hh => ?_⟩
    · rwa [Ring.enable_unsized hoff hs] at henable
    · rw [Ring.enable_halted hoff hs hh, ringIndex_of_sized _ hs] at henable
      obtain ⟨t, hexec, honly, hring⟩ := henable
      exact ⟨t, hexec, honly, by simp [hring]⟩
    · rwa [Ring.enable_fresh hoff hs hh] at henable
  · refine ⟨_, congrArg Host.Outcome.next (intStatusClear_up hup), rfl, fun b hb => ?_⟩
    simp [State.onHost, hb, -BitVec.getLsbD_eq_getElem, BitVec.getLsbD_ofNat]
  · exact ⟨_, rfl, rfl, rfl, by simp [pciePerst, State.pcieUp, State.onHost], fun q hq => pciePerst_low_queue hq, rfl, rfl, rfl⟩
  · exact ⟨_, rfl, rfl⟩

end Sys2Proof.Machine

/-!
## Receipt of packets (R35 to R47, Table 2.4)
-/
namespace Sys2Proof.Machine

/-! ### The steps before the sequence number -/

/-- Step 1: the header is whole, with its mark and its check. -/
def HeaderWhole (b : List Byte) : Prop := 16 ≤ b.length ∧ u16 b 0 = 0x6D4B ∧ crc16 (b.take 14) = u16 b 14

/-- Step 3: the trailer checks. -/
def TrailerRight (via : Via) (b : List Byte) : Prop := crc32c (b.take (b.length - 4)) = (pkCmd via b).trailer

/-- A packet's bytes in the two check units of its transport. -/
def State.measured (via : Via) (b : List Byte) (s : State) : State :=
  (s.unitItem (2 * maskBit via.transport) (b.take 14)).unitItem (2 * maskBit via.transport + 1) (b.take (b.length - 4))

theorem State.measured_frame (via : Via) (b : List Byte) (s : State) :
    ∃ i, s.measured via b = { s with integrity := i } := ⟨_, rfl⟩

section
variable {ring : Option Nat} {via : Via} {b : List Byte} {s : State}

theorem headerBroken_eq (b : List Byte) :
    (decide (b.length < 16) || u16 b 0 != 0x6D4B || crc16 (b.take 14) != u16 b 14) = true ↔ ¬ HeaderWhole b := by
  simp only [HeaderWhole, Bool.or_eq_true, decide_eq_true_eq, bne_iff_ne, ne_eq]
  by_cases h : b.length < 16 <;> simp [h, imp_iff_not_or]

theorem receive_brokenHeader (h : ¬ HeaderWhole b) :
    s.receive ring via b = (s.measured via b).refuse (ring.getD (pkCmd via b).queue) (pkVersion b) (pkOpcode b) (pkCmd via b)
      stCheck 1 (some (b.take 14)) := by
  simp only [State.receive, (headerBroken_eq b).mpr h, if_true]
  rfl

theorem receive_wrongSize (h1 : HeaderWhole b) (h2 : b.length ≠ 20 + 16 * pkLength b) :
    s.receive ring via b = (s.measured via b).refuse (ring.getD (pkCmd via b).queue) (pkVersion b) (pkOpcode b) (pkCmd via b)
      stLength 1 none := by
  have hw := mt (headerBroken_eq b).mp (not_not.mpr h1)
  have hs : (b.length != 20 + 16 * pkLength b) = true := bne_iff_ne.mpr h2
  simp only [State.receive, hw, hs, if_true]
  rfl

theorem receive_wrongTrailer (h1 : HeaderWhole b) (h2 : b.length = 20 + 16 * pkLength b) (h3 : ¬ TrailerRight via b) :
    s.receive ring via b = (s.measured via b).refuse (ring.getD (pkCmd via b).queue) (pkVersion b) (pkOpcode b) (pkCmd via b)
      stCheck 2 none := by
  have hw := mt (headerBroken_eq b).mp (not_not.mpr h1)
  have hs : ¬ (b.length != 20 + 16 * pkLength b) = true := by simpa using h2
  have ht : (crc32c (b.take (b.length - 4)) != (pkCmd via b).trailer) = true := bne_iff_ne.mpr h3
  simp only [State.receive, hw, hs, ht, if_true]
  rfl

/-- Steps 1 to 3. -/
def Whole (via : Via) (b : List Byte) : Prop := HeaderWhole b ∧ b.length = 20 + 16 * pkLength b ∧ TrailerRight via b

theorem Whole.guards (h : Whole via b) :
    ¬ (decide (b.length < 16) || u16 b 0 != 0x6D4B || crc16 (b.take 14) != u16 b 14) = true ∧
    ¬ (b.length != 20 + 16 * pkLength b) = true ∧ ¬ (crc32c (b.take (b.length - 4)) != (pkCmd via b).trailer) = true := by
  obtain ⟨hheader, hsize, htrailer⟩ := h
  exact ⟨mt (headerBroken_eq b).mp (not_not.mpr hheader), by simpa using hsize, by simpa [TrailerRight] using htrailer⟩

theorem receive_badField (h : Whole via b) {d : Nat} (hfault : s.headerFault ring via b = some d) :
    s.receive ring via b = (s.measured via b).refuse (ring.getD (pkCmd via b).queue) (pkVersion b) (pkOpcode b) (pkCmd via b)
      stHeader d none := by
  have hfault' : (s.measured via b).headerFault ring via b = some d := hfault
  obtain ⟨h1, h2, h3⟩ := h.guards
  rw [State.receive, if_neg h1, if_neg h2, if_neg h3]
  simp only [State.measured] at hfault' ⊢
  simp only [hfault']

theorem receive_busy (h : Whole via b) (hfault : s.headerFault ring via b = none) {d : Nat} (hbusy : s.busyDetail = some d) :
    s.receive ring via b = (s.measured via b).refuse (ring.getD (pkCmd via b).queue) (pkVersion b) (pkOpcode b) (pkCmd via b)
      stBusy d none := by
  have hfault' : (s.measured via b).headerFault ring via b = none := hfault
  have hbusy' : (s.measured via b).busyDetail = some d := hbusy
  obtain ⟨h1, h2, h3⟩ := h.guards
  rw [State.receive, if_neg h1, if_neg h2, if_neg h3]
  simp only [State.measured] at hfault' hbusy' ⊢
  simp only [hfault', hbusy']

theorem receive_sequence (h : Whole via b) (hfault : s.headerFault ring via b = none) (hbusy : s.busyDetail = none) :
    s.receive ring via b = (s.measured via b).sequence (ring.getD (pkCmd via b).queue) (pkOpcode b) (pkCmd via b) := by
  have hfault' : (s.measured via b).headerFault ring via b = none := hfault
  have hbusy' : (s.measured via b).busyDetail = none := hbusy
  obtain ⟨h1, h2, h3⟩ := h.guards
  rw [State.receive, if_neg h1, if_neg h2, if_neg h3]
  simp only [State.measured] at hfault' hbusy' ⊢
  simp only [hfault', hbusy']

theorem receive_good (h : GoodPacket ring via b s) :
    s.receive ring via b = (s.measured via b).sequence (ring.getD (pkCmd via b).queue) (pkOpcode b) (pkCmd via b) := by
  obtain ⟨hlen, hmark, hcheck, hsize, htrailer, hheader, hbusy⟩ := h
  exact receive_sequence ⟨⟨hlen, hmark, hcheck⟩, hsize, htrailer⟩ hheader hbusy

end

/-! ### Refusals that consume no sequence number -/

/-- A refusal on receipt, behind the check units' work. -/
theorem refuse_refused (ring ver op : Nat) (c : Cmd) (st det : Nat) (raw : Option (List Byte)) (i : Integrity) {held : Bool} {s : State}
    (hheld : (raw.isNone && s.tagFree c) = held) (hlen : s.host.queues.length = 4) :
    Refused op ver held c st det s (({ s with integrity := i } : State).refuse ring ver op c st det raw) := by
  have hbool : (raw.isNone && ({ s with integrity := i } : State).tagFree c) = held := hheld
  cases held with
  | false =>
    rw [State.refuse, hbool]
    refine ⟨⟨_, rfl, rfl, rfl, rfl, rfl, rfl, rfl, rfl⟩, ?_, fun _ _ => rfl, rfl⟩
    simp [State.queue]
  | true =>
    have hq : c.queue < s.host.queues.length := by
      simp only [State.tagFree, Bool.and_eq_true, decide_eq_true_eq] at hheld
      omega
    rw [State.refuse, hbool]
    refine ⟨⟨_, rfl, rfl, rfl, rfl, rfl, rfl, rfl, rfl⟩, ?_, fun p hp => State.queue_onQueue_ne _ _ _ _ hp, rfl⟩
    exact State.queue_onQueue_same _ _ _ hq

/-! ### Packets that are taken in -/

@[simp] theorem State.releaseHeld_of_empty {q : Nat} {s : State} (h : (s.queue q).held = []) : s.releaseHeld q = s := by
  simp [State.releaseHeld, h, State.examineHeld]

theorem takeTag_takenIn (ring : Nat) {op : Nat} {c : Cmd} (i : Integrity) {s : State} (h : InTurn c s) (hpass : ChecksPass op c s) :
    TakenIn op c s (({ s with integrity := i } : State).takeTag ring op c) := by
  obtain ⟨hseq, -, -, -, hq, -, -, htag, hchecks, hheld⟩ := h
  obtain ⟨o, hop, hok⟩ := hpass
  let u : State := ({ s with integrity := i } : State).onQueue c.queue fun k => { k with tags := k.tags ++ [c.tag] }
  have hu : u.queue c.queue = { s.queue c.queue with tags := (s.queue c.queue).tags ++ [c.tag] } := State.queue_onQueue_same _ _ _ hq
  have hverdict : u.verdict op c = .ok := by
    rw [State.verdict, hop]
    exact hok u rfl
  have hexam : u.examine op c = u.onHost fun h => { h with checked := h.checked ++ [{ opcode := op, cmd := c, rejection := none }] } := by
    simp [State.examine, hverdict, hseq]
  have hfree : ((({ s with integrity := i } : State).queue c.queue).tags.contains c.tag || ({ s with integrity := i } : State).inChecks c) = false := by
    have h1 : (({ s with integrity := i } : State).queue c.queue).tags.contains c.tag = false := htag
    have h2 : ({ s with integrity := i } : State).inChecks c = false := hchecks
    rw [h1, h2]; rfl
  have htake : ({ s with integrity := i } : State).takeTag ring op c =
      u.onHost fun h => { h with checked := h.checked ++ [{ opcode := op, cmd := c, rejection := none }] } := by
    rw [State.takeTag, hfree]
    simp only [Bool.false_eq_true, if_false]
    rw [show (({ s with integrity := i } : State).onQueue c.queue fun k => { k with tags := k.tags ++ [c.tag] }) = u from rfl, hexam]
    exact State.releaseHeld_of_empty ((congrArg Queue.held hu).trans hheld)
  rw [htake]
  exact ⟨rfl, rfl, fun p hp => State.queue_onQueue_ne _ _ _ _ hp, hu⟩

/-! ### The sequence number -/

/-- A sequenced packet while both banks are in service and acceptance goes on. -/
theorem sequence_eq_classify {ring op : Nat} {c : Cmd} {s : State} (hseq : c.unseq = false) (hstop : s.host.journal.acceptStopped = false)
    (ha : s.host.journal.bankA.inService = true) (hb : s.host.journal.bankB.inService = true) :
    s.sequence ring op c = s.classify ring op c := by
  simp [State.sequence, hseq, hstop, ha, hb]

/-- The distance of a sequence number from NEXT_SEQ, modulo 2^32. -/
def seqAhead (seq next : Nat) : Nat := (seq + 2 ^ 32 - next) % 2 ^ 32

theorem seqAhead_self (n : Nat) : seqAhead n n = 0 := by
  unfold seqAhead
  omega

theorem toSigned_seqAhead (seq next : Nat) :
    toSigned 32 (wrap 32 (seq + 2 ^ 32 - next)) =
      if seqAhead seq next < 2 ^ 31 then (seqAhead seq next : Int) else (seqAhead seq next : Int) - 2 ^ 32 := by
  unfold toSigned wrap seqAhead
  rw [Nat.mod_mod, show (32 : Nat) - 1 = 31 from rfl, Nat.cast_pow, Nat.cast_ofNat]

section
variable {ring op : Nat} {c : Cmd} {s : State}

theorem classify_inTurn (h : seqAhead c.seq (s.queue c.queue).nextSeq = 0) : s.classify ring op c = s.takeTag ring op c := by
  have hd := toSigned_seqAhead c.seq (s.queue c.queue).nextSeq
  rw [h, if_pos (by decide)] at hd
  rw [State.classify, hd, if_pos (by decide)]

theorem classify_ahead (h1 : 1 ≤ seqAhead c.seq (s.queue c.queue).nextSeq) (h2 : seqAhead c.seq (s.queue c.queue).nextSeq ≤ 127) :
    s.classify ring op c = s.hold ring op c := by
  have hd := toSigned_seqAhead c.seq (s.queue c.queue).nextSeq
  generalize seqAhead c.seq (s.queue c.queue).nextSeq = a at hd h1 h2
  rw [if_pos (by omega)] at hd
  rw [State.classify, hd, if_neg (by omega), if_pos (by omega)]

theorem classify_farAhead (h1 : 128 ≤ seqAhead c.seq (s.queue c.queue).nextSeq) (h2 : seqAhead c.seq (s.queue c.queue).nextSeq < 2 ^ 31) :
    s.classify ring op c = s.refuse ring 1 op c stSequence 1 none := by
  have hd := toSigned_seqAhead c.seq (s.queue c.queue).nextSeq
  generalize seqAhead c.seq (s.queue c.queue).nextSeq = a at hd h1 h2
  rw [if_pos (by omega)] at hd
  rw [State.classify, hd, if_neg (by omega), if_neg (by omega), if_pos (by omega)]

theorem classify_behind (h : 2 ^ 32 - 1024 ≤ seqAhead c.seq (s.queue c.queue).nextSeq)
    (hlt : seqAhead c.seq (s.queue c.queue).nextSeq < 2 ^ 32) : s.classify ring op c = s.duplicate ring op c := by
  have hd := toSigned_seqAhead c.seq (s.queue c.queue).nextSeq
  generalize seqAhead c.seq (s.queue c.queue).nextSeq = a at hd h hlt
  rw [if_neg (by omega)] at hd
  rw [State.classify, hd, if_neg (by omega), if_neg (by omega), if_neg (by omega), if_pos (by omega)]

theorem classify_farBehind (h1 : 2 ^ 31 ≤ seqAhead c.seq (s.queue c.queue).nextSeq)
    (h2 : seqAhead c.seq (s.queue c.queue).nextSeq < 2 ^ 32 - 1024) :
    s.classify ring op c = s.refuse ring 1 op c stSequence 3 none := by
  have hd := toSigned_seqAhead c.seq (s.queue c.queue).nextSeq
  generalize seqAhead c.seq (s.queue c.queue).nextSeq = a at hd h1 h2
  rw [if_neg (by omega)] at hd
  rw [State.classify, hd, if_neg (by omega), if_neg (by omega), if_neg (by omega), if_neg (by omega)]

end

/-- A valid packet in turn is taken in, whatever brought it. -/
theorem receive_takenIn {ring : Option Nat} {via : Via} {b : List Byte} {s : State} (hgood : GoodPacket ring via b s)
    (hturn : InTurn (pkCmd via b) s) (hpass : ChecksPass (pkOpcode b) (pkCmd via b) s) :
    TakenIn (pkOpcode b) (pkCmd via b) s (s.receive ring via b) := by
  obtain ⟨i, hi⟩ := s.measured_frame via b
  obtain ⟨hseq, hstop, ha, hb, -, -, hnext, -⟩ := id hturn
  have hahead : seqAhead (pkCmd via b).seq (s.queue (pkCmd via b).queue).nextSeq = 0 := by rw [hnext]; exact seqAhead_self _
  let u : State := { s with integrity := i }
  have htake : s.receive ring via b = u.takeTag (ring.getD (pkCmd via b).queue) (pkOpcode b) (pkCmd via b) := by
    rw [receive_good hgood, hi]
    exact (sequence_eq_classify (s := u) hseq hstop ha hb).trans (classify_inTurn (s := u) hahead)
  rw [htake]
  exact takeTag_takenIn _ i hturn hpass

/-! ### The SPI port -/

/-- The way of a packet on the SPI port. -/
def spiVia : Via := { transport := .spi, sqIndex := 0xFFFF, route := { addr := 0, port := 0, session := [] } }

/-- A packet on the free port, with room for it, goes to receipt at once. -/
theorem spiWritePacket_receive {b : List Byte} {s : State} (hup : s.spiUp = true) (hrx : s.host.spi.rx = none) (hlen : b.length ≤ 4100)
    (hroom : s.mayTake .spi b = true) : spiWritePacket b s = s.receive none spiVia b := by
  have hlen' : ¬ 4100 < b.length := by omega
  have hroom' : (s.onSpi fun p => { p with rx := some b }).mayTake .spi b = true := hroom
  have hback : ((s.onSpi fun p => { p with rx := some b }).onSpi fun p => { p with rx := none }) = s := by
    have hspi : { s.host.spi with rx := none } = s.host.spi := by rw [← hrx]
    simp only [State.onSpi, State.onHost]
    rw [hspi]
  simp only [spiWritePacket, hup, hrx, Option.isSome_none, hlen', decide_false, Bool.or_self, Bool.not_true, Bool.false_eq_true, if_false]
  simp only [State.takeSpi]
  rw [show (s.onSpi fun p => { p with rx := some b }).host.spi.rx = some b from rfl]
  simp only [hroom', if_true]
  rw [hback]
  rfl

/-! ### The other two transports -/

theorem descriptorFetch_receive {q : Nat} {desc packet : List Byte} {s : State} (hfetch : s.mayFetch q ((u16 desc 8 - 20) / 16) = true)
    (hgood : entryFault false desc = 0) :
    descriptorFetch q false desc packet s =
      (s.onRing q fun r => { r with sqHead := ringIndex r.sqSize (r.sqHead + 1) }).receive (some q)
        { transport := .pcie, sqIndex := (s.ring q).sqHead, route := { addr := 0, port := 0, session := [] } } (fit (u16 desc 8) packet) := by
  simp only [State.mayFetch, Bool.and_eq_true] at hfetch
  simp [descriptorFetch, hfetch, hgood]

theorem trdpMrReceive_receive {m : TrdpMessage} {s : State} (hserved : s.trdpServed = true) (hcom : m.comId = tcMdReq s.net.trdp)
    (htype : m.msgType = 0x4D72) (htopo : topoWrong s.net.trdp m = false) (hsource : sourceWrong s.net.trdp m = false)
    (hstore : s.host.journal.trdpStore = []) (hroom : s.mayTake .trdp m.data = true) :
    trdpMrReceive m s =
      s.receive none
        { transport := .trdp, sqIndex := 0xFFFF, route := { addr := m.src, port := m.srcPort, session := fit 16 m.session } } m.data := by
  simp [trdpMrReceive, hserved, hcom, htype, mrType, htopo, hsource, State.storeTrdp, hstore, hroom, State.takeTrdp]

/-! ### An ECHO with UNSEQ -/

theorem pkCmd_payload_length {via : Via} {b : List Byte} (h : b.length = 20 + 16 * pkLength b) :
    (pkCmd via b).payload.length = 16 * pkLength b := by
  simp only [pkCmd, slice, List.length_take, List.length_drop]
  omega

theorem pkLength_le (b : List Byte) : pkLength b ≤ 255 := by
  have h := (b.getD 9 0).isLt
  simp only [pkLength, u8]
  omega

theorem opInfo_echo : opInfo 0x0102 = some echoInfo := rfl

/-- ECHO passes its checks in every state. -/
theorem echo_check {via : Via} {b : List Byte} (h : b.length = 20 + 16 * pkLength b) (s : State) :
    echoInfo.check (pkCmd via b) s = .ok := by
  have hlen := pkCmd_payload_length (via := via) h
  have hle := pkLength_le b
  have h255 : ¬ 255 < pkLength b := by omega
  simp [OpInfo.check, echoInfo, firstFail, Verdict.andThen, recoveryOpcode, cmdLen, hlen, h255]

/-- An UNSEQ command of a device that executes commands waits for none. -/
theorem Runs.of_unseq {c : Cmd} {s : State} (h : c.unseq = true) (hexec : s.executes = true) : Runs c s := by
  refine ⟨hexec, ?_, ?_⟩
  · simp [State.fenced, State.liveOf, h]
  · simp [State.alreadyRun, h]

theorem runUnseq_echo (c : Cmd) (s : State) : s.runUnseq 0x0102 c = s.run echoInfo c (echoEffect c) := rfl

/-- What a step of an UNSEQ command leaves of the host side, beside the replies. -/
theorem run_unseq_host {o : OpInfo} {op : Nat} {c : Cmd} {st det res : Nat} {d : List Byte} {s : State} (h : Accepted o c s)
    (hu : c.unseq = true) :
    ∃ r, s.run o c (fun t => t.finish op c st det res d) = s.post r := by
  rw [State.run_accepted o c _ s h]
  simp only [State.onLive, hu, if_true, State.finish, State.finishWith, State.recordDone]
  exact ⟨_, rfl⟩

theorem takeTag_echo (ring : Nat) {b : List Byte} (i : Integrity) {s : State} (hsize : b.length = 20 + 16 * pkLength b)
    (hu : (pkCmd spiVia b).unseq = true) (hexec : s.executes = true) (hq : (pkCmd spiVia b).queue < s.host.queues.length)
    (htag : (s.queue (pkCmd spiVia b).queue).tags.contains (pkCmd spiVia b).tag = false)
    (hheld : (s.queue (pkCmd spiVia b).queue).held = []) :
    let c := pkCmd spiVia b
    let t := ({ s with integrity := i } : State).takeTag ring 0x0102 c
    Answered 0x0102 c (s.block 0 0 (min (c.payload.length / 16) 254)) (c.payload.take 4064) s t ∧
      t.queue c.queue = { s.queue c.queue with tags := (s.queue c.queue).tags ++ [c.tag] } ∧
      (∀ p, p ≠ c.queue → t.queue p = s.queue p) ∧
      t = { s with host := { s.host with waiting := t.host.waiting, queues := t.host.queues }, integrity := t.integrity } := by
  intro c t
  let v : State := ({ s with integrity := i } : State).onQueue c.queue fun k => { k with tags := k.tags ++ [c.tag] }
  have hv : v.queue c.queue = { s.queue c.queue with tags := (s.queue c.queue).tags ++ [c.tag] } := State.queue_onQueue_same _ _ _ hq
  have hacc : Accepted echoInfo c v := ⟨Runs.of_unseq hu hexec, echo_check hsize v⟩
  have hexam : v.examine 0x0102 c = v.run echoInfo c (echoEffect c) := by
    have hverdict : v.verdict 0x0102 c = .ok := by
      rw [State.verdict, opInfo_echo]
      exact echo_check hsize v
    rw [State.examine, hverdict, if_pos hu]
    rfl
  obtain ⟨⟨hans, hkept⟩, -⟩ := run_finish echoInfo 0x0102 c 0 0 (min (cmdLen c) 254) (c.payload.take 4064) v hacc
  obtain ⟨r, hpost⟩ := run_unseq_host (st := 0) (det := 0) (op := 0x0102) (res := min (cmdLen c) 254) (d := c.payload.take 4064) hacc hu
  have ht : t = v.post r := by
    have hcond : (({ s with integrity := i } : State).queue c.queue).tags.contains c.tag = false := htag
    have hchecks : ({ s with integrity := i } : State).inChecks c = false := by
      simp [State.inChecks, show c.unseq = true from hu]
    have htake : t = (v.examine 0x0102 c).releaseHeld c.queue := by
      simp only [t, State.takeTag, hcond, hchecks, Bool.or_self, Bool.false_eq_true, if_false]
      rfl
    rw [htake, hexam, show v.run echoInfo c (echoEffect c) = v.post r from hpost]
    exact State.releaseHeld_of_empty ((congrArg Queue.held hv).trans hheld)
  rw [hpost] at hans
  rw [ht]
  exact ⟨hans, hv, fun p hp => State.queue_onQueue_ne _ _ _ _ hp, rfl⟩

/-- Settles O6: on each transport a good packet goes to `State.receive`, which takes it in; an ECHO with UNSEQ runs there. -/
theorem packetInTurnIsTakenIn : Obligations.PacketInTurnIsTakenIn := by
  refine ⟨fun q desc packet s => ?_, fun m s => ?_, fun b s => ?_, fun b s => ?_⟩
  · intro b via s1 hfetch hentry hgood hturn hpass
    exact ⟨_, congrArg Host.Outcome.next (descriptorFetch_receive hfetch hentry), receive_takenIn hgood hturn hpass⟩
  · intro via hserved hcom htype htopo hsource hstore hroom hgood hturn hpass
    exact ⟨_, congrArg Host.Outcome.next (trdpMrReceive_receive hserved hcom htype htopo hsource hstore hroom),
      receive_takenIn hgood hturn hpass⟩
  · intro via hup hrx hlen hroom hgood hturn hpass
    exact ⟨_, congrArg Host.Outcome.next (spiWritePacket_receive hup hrx hlen hroom), receive_takenIn hgood hturn hpass⟩
  · intro via c k hup hrx hlen hgood hop hu hexec hq htag hheld
    have hroom : s.mayTake .spi b = true := by
      simp [State.mayTake, show pkUnseq b = true from hu]
    obtain ⟨i, hi⟩ := s.measured_frame spiVia b
    have htake : s.receive none spiVia b = ({ s with integrity := i } : State).takeTag c.queue 0x0102 c := by
      rw [receive_good (via := spiVia) hgood, hi, hop, State.sequence, if_pos (show (pkCmd spiVia b).unseq = true from hu)]
      rfl
    obtain ⟨-, -, -, hsize, -⟩ := hgood
    refine ⟨_, congrArg Host.Outcome.next ((spiWritePacket_receive hup hrx hlen hroom).trans htake), ?_⟩
    exact takeTag_echo c.queue i hsize hu hexec hq htag hheld

end Sys2Proof.Machine

/-!
## The order of the checks on receipt (R35 to R41, Table 2.4)
-/
namespace Sys2Proof.Machine

/-- A header without a fault is of version 1 and names a queue and a tag that exist. -/
theorem State.headerFault_none {ring : Option Nat} {via : Via} {b : List Byte} {s : State} (h : s.headerFault ring via b = none) :
    pkVersion b = 1 ∧ pkTag b ≤ 127 ∧ pkQueue b ≤ 3 := by
  unfold State.headerFault at h
  grind

/-- A packet on the free port that passes steps 1 to 4 while both banks are in service, up to its sequence number. -/
theorem spiWritePacket_classify {b : List Byte} {s : State} (hup : s.spiUp = true) (hrx : s.host.spi.rx = none) (hlen : b.length ≤ 4100)
    (hroom : s.mayTake .spi b = true) (hwhole : Whole spiVia b) (hfault : s.headerFault none spiVia b = none)
    (hbusy : s.busyDetail = none) (hseq : (pkCmd spiVia b).unseq = false) (hstop : s.host.journal.acceptStopped = false)
    (ha : s.host.journal.bankA.inService = true) (hb : s.host.journal.bankB.inService = true) :
    spiWritePacket b s = (s.measured spiVia b).classify (pkCmd spiVia b).queue (pkOpcode b) (pkCmd spiVia b) := by
  rw [spiWritePacket_receive hup hrx hlen hroom, receive_sequence hwhole hfault hbusy]
  exact sequence_eq_classify (s := s.measured spiVia b) hseq hstop ha hb

/-- A packet on the port that ends in a refusal on receipt. -/
theorem spiWritePacket_refused {b : List Byte} {ring ver st det : Nat} {raw : Option (List Byte)} {held : Bool} {s : State}
    (h : spiWritePacket b s = (s.measured spiVia b).refuse ring ver (pkOpcode b) (pkCmd spiVia b) st det raw)
    (hheld : (raw.isNone && s.tagFree (pkCmd spiVia b)) = held) (hlen : s.host.queues.length = 4) :
    ∃ t, exec (.spiWritePacket b) s = .next t ∧ Refused (pkOpcode b) ver held (pkCmd spiVia b) st det s t :=
  ⟨_, congrArg Host.Outcome.next h, refuse_refused ring ver _ _ st det raw _ hheld hlen⟩

theorem sequence_bankA {ring op : Nat} {c : Cmd} {s : State} (hseq : c.unseq = false) (hstop : s.host.journal.acceptStopped = false)
    (ha : s.host.journal.bankA.inService = false) : s.sequence ring op c = s.refuse ring 1 op c stFaultJournal 1 none := by
  simp [State.sequence, hseq, hstop, ha]

theorem sequence_bankB {ring op : Nat} {c : Cmd} {s : State} (hseq : c.unseq = false) (hstop : s.host.journal.acceptStopped = false)
    (ha : s.host.journal.bankA.inService = true) (hb : s.host.journal.bankB.inService = false) :
    s.sequence ring op c = s.refuse ring 1 op c stFaultJournal 2 none := by
  simp [State.sequence, hseq, hstop, ha, hb]

theorem takeTag_busy {ring op : Nat} {c : Cmd} {s : State} (htag : (s.queue c.queue).tags.contains c.tag = true) :
    s.takeTag ring op c = s.refuse ring 1 op c stBusy 1 none := by
  rw [State.takeTag, htag, Bool.true_or, if_pos rfl]

/-- A packet ahead of NEXT_SEQ with a free tag is stored. -/
theorem hold_frame (ring : Nat) {op : Nat} {c : Cmd} {i : Integrity} {s : State} (hq : c.queue < s.host.queues.length)
    (htag : (s.queue c.queue).tags.contains c.tag = false) (hheld : ∀ h ∈ (s.queue c.queue).held, h.cmd.seq ≠ c.seq) :
    let t := ({ s with integrity := i } : State).hold ring op c
    t.queue c.queue = { s.queue c.queue with tags := (s.queue c.queue).tags ++ [c.tag],
                                             held := (s.queue c.queue).held ++ [{ opcode := op, cmd := c, arrival := s.clk.now }] } ∧
      (∀ p, p ≠ c.queue → t.queue p = s.queue p) ∧
      t = { s with host := { s.host with queues := t.host.queues }, integrity := t.integrity } := by
  intro t
  have hany : (s.queue c.queue).held.any (·.cmd.seq == c.seq) = false := by simpa using hheld
  have hcond : ((({ s with integrity := i } : State).queue c.queue).tags.contains c.tag ||
      (({ s with integrity := i } : State).queue c.queue).held.any (·.cmd.seq == c.seq)) = false := by
    rw [show ({ s with integrity := i } : State).queue c.queue = s.queue c.queue from rfl, htag, hany]
    rfl
  have ht : t = ({ s with integrity := i } : State).onQueue c.queue fun k =>
      { k with tags := k.tags ++ [c.tag], held := k.held ++ [{ opcode := op, cmd := c, arrival := s.clk.now }] } := by
    simp only [t, State.hold, hcond, Bool.false_eq_true, if_false]
    rfl
  rw [ht]
  exact ⟨State.queue_onQueue_same _ _ _ hq, fun p hp => State.queue_onQueue_ne _ _ _ _ hp, rfl⟩

section
variable {ring op : Nat} {c : Cmd} {d : DupRec} {i : Integrity} {s : State}

theorem duplicate_otherTrailer (hfind : (s.queue c.queue).dup.find? (·.seq == c.seq) = some d) (h : d.trailer ≠ c.trailer) :
    s.duplicate ring op c = s.refuse ring 1 op c stSequence 2 none := by
  simp [State.duplicate, hfind, h]

/-- A duplicate with its original's trailer is answered with the reply that the journal keeps, or else from its record. -/
theorem duplicate_sameTrailer (hfind : (s.queue c.queue).dup.find? (·.seq == c.seq) = some d) (h : d.trailer = c.trailer) :
    s.duplicate ring op c = s.repeatReply ring c d := by
  simp [State.duplicate, hfind, h]

theorem repeatReply_recorded (hlive : s.host.journal.live.find? (Live.isOf c) = none) :
    ∃ r, ({ s with integrity := i } : State).repeatReply ring c d =
        { s with host := { s.host with waiting := s.host.waiting ++ [r] }, integrity := i } ∧
      r.opcode = d.opcode ∧ r.tag = c.tag ∧ r.final = d.final ∧ r.block = d.block ∧ r.dup = true ∧ r.holdsTag = false := by
  have hkept : (({ s with integrity := i } : State).host.journal.live.find? (Live.isOf c)).bind (·.reply) = none := by
    rw [hlive]
    rfl
  rw [State.repeatReply, hkept]
  exact ⟨_, rfl, rfl, rfl, rfl, rfl, rfl, rfl⟩

theorem repeatReply_kept {l : Live} {r0 : Reply} (hlive : s.host.journal.live.find? (Live.isOf c) = some l) (hreply : l.reply = some r0) :
    ∃ r, ({ s with integrity := i } : State).repeatReply ring c d =
        { s with host := { s.host with waiting := s.host.waiting ++ [r] }, integrity := i } ∧
      r.opcode = r0.opcode ∧ r.tag = c.tag ∧ r.final = r0.final ∧ r.block = r0.block ∧ r.data = r0.data ∧ r.dup = true ∧
      r.holdsTag = false := by
  have hkept : (({ s with integrity := i } : State).host.journal.live.find? (Live.isOf c)).bind (·.reply) = some r0 := by
    rw [hlive]; exact hreply
  rw [State.repeatReply, hkept]
  exact ⟨_, rfl, rfl, rfl, rfl, rfl, rfl, rfl, rfl⟩

end

/-- Settles O7: the steps of `State.receive` in their order, then the five cases of the distance from NEXT_SEQ. -/
theorem receiptStopsAtTheFirstFailure : Obligations.ReceiptStopsAtTheFirstFailure := by
  intro b s via c op k hup hrx hlen hroom hqueues good1 good2 good3 good4 good5 ahead answers
  have hspi := spiWritePacket_receive hup hrx hlen hroom
  have hrefuse {ring ver st det : Nat} {raw : Option (List Byte)} {held : Bool}
      (h : spiWritePacket b s = (s.measured spiVia b).refuse ring ver op c st det raw) (hheld : (raw.isNone && s.tagFree c) = held) :
      ∃ t, exec (.spiWritePacket b) s = .next t ∧ Refused op ver held c st det s t := spiWritePacket_refused h hheld hqueues
  have hwhole (h : good3) : Whole spiVia b := ⟨h.1.1, h.1.2, h.2⟩
  have hanswers (h : good4) {st det : Nat} (hr : spiWritePacket b s = (s.measured spiVia b).refuse c.queue 1 op c st det none) :
      answers st det := by
    have hversion : pkVersion b = 1 := (State.headerFault_none h.2).1
    simp only [answers, hversion]
    exact hrefuse hr rfl
  have hqueue (h : good4) : c.queue < s.host.queues.length := by
    have hle := (State.headerFault_none h.2).2.2
    have hcq : c.queue = pkQueue b := rfl
    omega
  have hsequence (h : good4) (h5 : s.busyDetail = none) : spiWritePacket b s = (s.measured spiVia b).sequence c.queue op c :=
    hspi.trans (receive_sequence (hwhole h.1) h.2 h5)
  have hclassify (h : good5) : spiWritePacket b s = (s.measured spiVia b).classify c.queue op c := by
    obtain ⟨⟨h3, hfault⟩, hbusy, hseq, hstop, ha, hb⟩ := h
    exact spiWritePacket_classify hup hrx hlen hroom (hwhole h3) hfault hbusy hseq hstop ha hb
  have hdup (h : good5) (hlo : 2 ^ 32 - 1024 ≤ ahead) : spiWritePacket b s = (s.measured spiVia b).duplicate c.queue op c :=
    (hclassify h).trans (classify_behind (s := s.measured spiVia b) hlo (Nat.mod_lt _ (Nat.two_pow_pos 32)))
  refine ⟨fun h => ?_, fun h1 h2 => ?_, fun h1 h2 => ?_, fun h d hd => ?_, fun h d hd => ?_, fun h h5 hseq hstop ha => ?_,
    fun h h5 hseq hstop ha hb => ?_, fun h _ _ hz htag => ?_, fun h _ _ hlo hhi htag hheld => ?_, fun h _ _ hlo hhi => ?_,
    fun h _ _ hlo hhi => ?_, fun h _ _ hlo d hfind => ⟨fun hd => ?_, fun hd hlive => ?_, fun hd l r0 hlive hr0 => ?_⟩⟩
  · exact hrefuse (hspi.trans (receive_brokenHeader h)) rfl
  · exact hrefuse (hspi.trans (receive_wrongSize h1 fun h => h2 ⟨h1, h⟩)) rfl
  · exact hrefuse (hspi.trans (receive_wrongTrailer (via := spiVia) h1.1 h1.2 fun h => h2 ⟨h1, h⟩)) rfl
  · exact hrefuse (hspi.trans (receive_badField (hwhole h) hd)) rfl
  · exact hrefuse (hspi.trans (receive_busy (hwhole h.1) h.2 hd)) rfl
  · exact hanswers h ((hsequence h h5).trans (sequence_bankA (s := s.measured spiVia b) hseq hstop ha))
  · exact hanswers h ((hsequence h h5).trans (sequence_bankB (s := s.measured spiVia b) hseq hstop ha hb))
  · refine hanswers h.1 ((hclassify h).trans ((classify_inTurn (s := s.measured spiVia b) hz).trans ?_))
    exact takeTag_busy (s := s.measured spiVia b) htag
  · refine ⟨_, congrArg Host.Outcome.next ((hclassify h).trans (classify_ahead (s := s.measured spiVia b) hlo hhi)), ?_⟩
    exact hold_frame c.queue (hqueue h.1) htag hheld
  · exact hanswers h.1 ((hclassify h).trans (classify_farAhead (s := s.measured spiVia b) hlo hhi))
  · exact hanswers h.1 ((hclassify h).trans (classify_farBehind (s := s.measured spiVia b) hlo hhi))
  · exact hanswers h.1 ((hdup h hlo).trans (duplicate_otherTrailer (s := s.measured spiVia b) hfind hd))
  · obtain ⟨r, hr, hfields⟩ := repeatReply_recorded (ring := c.queue) (d := d) (i := (s.measured spiVia b).integrity) hlive
    exact ⟨_, r, congrArg Host.Outcome.next ((hdup h hlo).trans ((duplicate_sameTrailer (s := s.measured spiVia b) hfind hd).trans hr)),
      rfl, hfields⟩
  · obtain ⟨r, hr, hfields⟩ := repeatReply_kept (ring := c.queue) (d := d) (i := (s.measured spiVia b).integrity) hlive hr0
    exact ⟨_, r, congrArg Host.Outcome.next ((hdup h hlo).trans ((duplicate_sameTrailer (s := s.measured spiVia b) hfind hd).trans hr)),
      rfl, hfields⟩

end Sys2Proof.Machine

/-!
## Acceptance, expiry and the ledger's unlock (R40, R43, R236, R392, R395)
-/
namespace Sys2Proof.Machine

/-! ### A wrong response outside the sequence numbers -/

/-- LEDGER_UNLOCK STEP 1 with UNSEQ, which the opcode does not permit. -/
def unseqResponse : Cmd := { holdCmd with unseq := true, payload := fit 32 [1] }

/-- A device that executes commands, with that packet waiting for step 12. -/
def unseqResponseWaits : State :=
  { State.reset with
    power := { Power.reset with running := true, phase := .ready, ready := true }
    host := { State.reset.host with checked := [{ opcode := 0x0406, cmd := unseqResponse, rejection := none }] } }

/-- Refutes O37: a rejection of an UNSEQ packet at step 12 leaves NEXT_SEQ, which the clause for a wrong response, without saying that its
packet is sequenced, has one higher. -/
theorem not_ledgerIsWrittenUnderItsUnlock : ¬ Obligations.LedgerIsWrittenUnderItsUnlock := by
  intro h
  obtain ⟨⟨-, -, -, h, -⟩, -⟩ := h
  obtain ⟨-, h, -⟩ := h 0 { a1 := true, a2 := true, b1 := true, b2 := true } { opcode := 0x0406, cmd := unseqResponse, rejection := none }
    unseqResponseWaits (by decide) (by decide) (by decide) (by decide) (by decide) (by decide) (by decide) (by decide) (by decide)
  obtain ⟨-, h⟩ := h rfl rfl (by decide)
  obtain ⟨t, ⟨hnext, -, hseq, -⟩, -⟩ := h (by decide)
  have ht : t = journalAccept 0 { a1 := true, a2 := true, b1 := true, b2 := true } unseqResponseWaits :=
    (Host.Outcome.next.inj hnext).symm
  rw [ht] at hseq
  exact absurd hseq (by decide +kernel)

end Sys2Proof.Machine

/-!
## Acceptance and expiry (R40, R43, R392, R395)
-/
namespace Sys2Proof.Machine

/-! ### What acceptance writes -/

theorem State.snoop_frame (source : Nat) (bytes : List Byte) (s : State) :
    s.snoop source bytes = { s with integrity := (s.snoop source bytes).integrity } := rfl

@[simp] theorem State.snoop_host (source : Nat) (bytes : List Byte) (s : State) : (s.snoop source bytes).host = s.host := rfl

/-- A packet dropped from those that wait is none of them any more. -/
theorem State.not_mem_dropChecked (k : Checked) (s : State) : k ∉ (s.dropChecked k).host.checked := by
  simp [State.dropChecked, State.onHost]

theorem State.nextChecked_queue {q : Nat} {k : Checked} {s : State} (h : s.nextChecked q = some k) : k.cmd.queue = q := by
  simpa using List.find?_some h

section
variable {q : Nat} {rb : ReadBack} {k : Checked} {s : State}

/-- With good read-backs in both banks, step 12 goes by the verdict on the packet. -/
theorem journalAccept_readBack (hexec : s.executes = true) (hstop : s.host.journal.acceptStopped = false)
    (hnext : s.nextChecked q = some k) (ha : rb.a1 = true ∨ rb.a2 = true) (hb : rb.b1 = true ∨ rb.b2 = true)
    (hA : s.host.journal.bankA.inService = true) (hB : s.host.journal.bankB.inService = true) :
    ((s.dropChecked k).settled k = .ok →
      journalAccept q rb s = (((s.dropChecked k).acceptUse k.opcode k.cmd).accept k).releaseHeld q) ∧
    (∀ st d, (s.dropChecked k).settled k = .reject st d →
      journalAccept q rb s = ((s.dropChecked k).rejectConsumed (opInfo k.opcode) k.opcode k.cmd st d).releaseHeld q) := by
  have ha' : (rb.a1 || rb.a2) = true := by simpa using ha
  have hb' : (rb.b1 || rb.b2) = true := by simpa using hb
  have hA' : ((s.dropChecked k).bank 0).inService = true := hA
  have hB' : ((s.dropChecked k).bank 1).inService = true := hB
  refine ⟨fun h => ?_, fun st d h => ?_⟩ <;>
    simp only [journalAccept, hexec, hstop, hnext, ha', hb', hA', hB', h, Bool.not_true, Bool.or_self, Bool.false_eq_true, if_true, if_false]

end

/-- The duplicate record of a packet that step 12 takes, with NEXT_SEQ one further. -/
def Queue.noted (d : DupRec) (k : Queue) : Queue :=
  let k' := { k with nextSeq := wrap 32 (k.nextSeq + 1) }
  { k' with dup := k'.dup.filter (fun e => e.seq != d.seq && inWindow k'.nextSeq e.seq) ++ [d] }

/-- The duplicate record that step 12 writes, of an accepted packet or of one that it rejects. -/
def Checked.record (rejected : Bool) (b : StatusBlock) (k : Checked) : DupRec :=
  { seq := k.cmd.seq, trailer := k.cmd.trailer, opcode := k.opcode, final := rejected, rejected := rejected, dataDropped := false,
    block := b }

theorem Queue.noted_mem (d : DupRec) (k : Queue) : d ∈ (k.noted d).dup := by simp [Queue.noted]

theorem State.queue_note {q : Nat} (d : DupRec) {s : State} (h : q < s.host.queues.length) :
    ((s.onQueue q fun k => { k with nextSeq := wrap 32 (k.nextSeq + 1) }).recordDup q d).queue q = (s.queue q).noted d := by
  rw [State.recordDup, State.queue_onQueue_same _ _ _ (by simpa using h), State.queue_onQueue_same _ _ _ h]
  rfl

theorem State.queue_note_ne {q p : Nat} (d : DupRec) (s : State) (h : p ≠ q) :
    ((s.onQueue q fun k => { k with nextSeq := wrap 32 (k.nextSeq + 1) }).recordDup q d).queue p = s.queue p := by
  rw [State.recordDup, State.queue_onQueue_ne _ _ _ _ h, State.queue_onQueue_ne _ _ _ _ h]

/-- The plain acceptance of a packet: neither behind the arbiter nor a deferred commit, and no RESET_WARM. -/
theorem State.accept_plain {k : Checked} {s : State} (hcommit : k.opcode ≠ 0x0301) (hreset : k.opcode ≠ 0x0110)
    (hheld : s.heldBehind k.opcode k.cmd.payload = false) :
    s.accept k =
      ((s.enter k .accepted (s.block stAccepted 0 0) (some (mkReply k.opcode k.cmd false (s.block stAccepted 0 0) []))).snoop
        (0x40 + k.cmd.queue) (packetBytes k.opcode k.cmd)).post (mkReply k.opcode k.cmd false (s.block stAccepted 0 0) []) := by
  have hinterim : s.interim k.opcode k.cmd = (stAccepted, 0, .accepted) := by simp [State.interim, hcommit, hheld]
  simp only [State.accept, hinterim, hreset, if_false]

/-- A rejection changes nothing but emission's unlock. -/
def OpInfo.RejectsInEmission (o : OpInfo) : Prop := ∀ c st det s, ∃ e, o.rejected c st det s = { s with emission := e }

theorem OpInfo.RejectsInEmission.of_plain {o : OpInfo} (h : o.rejected = fun _ _ _ s => s) : o.RejectsInEmission :=
  fun _ _ _ s => ⟨s.emission, by rw [h]⟩

theorem unlockInfo_rejectsInEmission : unlockInfo.RejectsInEmission := by
  intro c st det s
  change ∃ e, unlockRejected c st det s = _
  unfold unlockRejected
  split
  · exact ⟨_, rfl⟩
  · exact ⟨s.emission, rfl⟩

theorem opInfo_rejectsInEmission {op : Nat} {o : OpInfo} (h : opInfo op = some o) : o.RejectsInEmission := by
  have hm := List.mem_of_find?_eq_some h
  simp only [List.mem_append] at hm
  obtain ((((((((h | h) | h) | h) | h) | h) | h) | h) | h) | h := hm
  pick_goal 3
  · fin_cases h
    pick_goal 6
    · exact unlockInfo_rejectsInEmission
    all_goals exact .of_plain rfl
  all_goals (fin_cases h <;> exact .of_plain rfl)

/-- The rejection of a sequenced packet consumes its number and is recorded. -/
theorem State.rejectConsumed_sequenced {op : Nat} {c : Cmd} (st det : Nat) {s : State} (h : c.unseq = false) :
    ∃ e, s.rejectConsumed (opInfo op) op c st det =
      (((({ s with emission := e } : State).post (mkReply op c true (s.block st det 0) [])).onQueue c.queue
          fun k => { k with nextSeq := wrap 32 (k.nextSeq + 1) }).recordDup c.queue
        { seq := c.seq, trailer := c.trailer, opcode := op, final := true, rejected := true, dataDropped := false,
          block := s.block st det 0 }) := by
  cases hop : opInfo op with
  | none =>
    refine ⟨s.emission, ?_⟩
    simp only [State.rejectConsumed, h, Bool.false_eq_true, if_false]
  | some o =>
    obtain ⟨e, he⟩ := opInfo_rejectsInEmission hop c st det s
    refine ⟨e, ?_⟩
    simp only [State.rejectConsumed, h, Bool.false_eq_true, if_false, he]
    rfl

/-! ### A bank that fails twice -/

theorem Journal.onBank_frame (b : Nat) (f : Bank → Bank) (j : Journal) :
    Journal.onBank b f j = { j with bankA := (Journal.onBank b f j).bankA, bankB := (Journal.onBank b f j).bankB } := by
  unfold Journal.onBank
  split <;> rfl

/-- Taking a bank in service out of it is a change of that bank. -/
theorem State.bankOut_inService {b : Nat} {s : State} (h : (s.bank b).inService = true) :
    ∃ f : Bank → Bank, (∀ k, (f k).inService = false) ∧ s.bankOut b = s.withStatus (State.onJournal (Journal.onBank b f)) := by
  refine ⟨_, fun k => ?_, if_neg (by simp [h])⟩
  rfl

/-- Taking a bank out of service changes the two banks of the journal, and may raise an interrupt. -/
theorem State.bankOut_frame (b : Nat) (s : State) : ∃ pcie out A B,
    s.bankOut b = { s with host := { s.host with pcie := pcie, journal := { s.host.journal with bankA := A, bankB := B } }, out := out } ∧
    (b = 0 → A.inService = false) ∧ (b ≠ 0 → A = s.host.journal.bankA) := by
  cases h : (s.bank b).inService with
  | false =>
    refine ⟨s.host.pcie, s.out, s.host.journal.bankA, s.host.journal.bankB, if_pos (by simp [h]), fun h0 => ?_, fun _ => rfl⟩
    simpa [h0, State.bank] using h
  | true =>
    obtain ⟨f, hf, hout⟩ := State.bankOut_inService h
    refine ⟨(s.bankOut b).host.pcie, (s.bankOut b).out, (Journal.onBank b f s.host.journal).bankA,
      (Journal.onBank b f s.host.journal).bankB, ?_, fun h0 => ?_, fun h0 => ?_⟩
    · conv_lhs => rw [hout, State.withStatus_frame, ← hout]
      rw [← Journal.onBank_frame]
      rfl
    · simp [Journal.onBank, h0, hf]
    · simp [Journal.onBank, h0]

/-- Step 12 with bank A failing twice: the packet is refused, and nothing of it is written. -/
theorem journalAccept_bankA_fails {q : Nat} {b1 b2 : Bool} {k : Checked} {s : State} (hexec : s.executes = true)
    (hstop : s.host.journal.acceptStopped = false) (hnext : s.nextChecked q = some k) :
    ∃ pcie out A B, A.inService = false ∧
      journalAccept q { a1 := false, a2 := false, b1 := b1, b2 := b2 } s =
        ({ s with host := { s.host with checked := s.host.checked.filter (· != k), pcie := pcie,
                                        journal := { s.host.journal with bankA := A, bankB := B } }, out := out } : State).post
          (mkReply k.opcode k.cmd true (s.block stFaultJournal 1 0) []) := by
  obtain ⟨p1, o1, A1, B1, h1, hA1, -⟩ := (s.dropChecked k).bankOut_frame 0
  obtain ⟨p2, o2, A2, B2, h2, -, hA2⟩ := ((s.dropChecked k).bankOut 0).bankOut_frame 1
  have hAout : A2.inService = false := by
    rw [hA2 (by decide), h1]
    exact hA1 rfl
  have hafter : ∃ pcie out A B, A.inService = false ∧
      (if b1 || b2 then (s.dropChecked k).bankOut 0 else ((s.dropChecked k).bankOut 0).bankOut 1) =
        { s with host := { s.host with checked := s.host.checked.filter (· != k), pcie := pcie,
                                       journal := { s.host.journal with bankA := A, bankB := B } }, out := out } := by
    split
    · exact ⟨p1, o1, A1, B1, hA1 rfl, h1⟩
    · refine ⟨p2, o2, A2, B2, hAout, h2.trans ?_⟩
      rw [h1]
      rfl
  obtain ⟨pcie, out, A, B, hout, heq⟩ := hafter
  refine ⟨pcie, out, A, B, hout, ?_⟩
  conv_lhs => simp only [journalAccept, hexec, hstop, hnext, Bool.not_true, Bool.or_self, Bool.false_eq_true, if_false]
  rw [heq, if_pos (by simpa [State.bank] using hout)]
  rfl

/-! ### HOLD_EXPIRE -/

theorem holdExpire_due {q seq : Nat} {h : Held} {s : State} (hmem : h ∈ (s.queue q).held)
    (honly : ∀ g ∈ (s.queue q).held, g.cmd.seq = seq → g = h) (hseq : h.cmd.seq = seq) (hdue : s.since h.arrival (ms 10) = true) :
    holdExpire q seq s = s.rejectHeld h := by
  have hfind : ((s.queue q).held.find? fun h => h.cmd.seq == seq && s.since h.arrival (ms 10)) = some h := by
    obtain ⟨g, hg⟩ : ∃ g, ((s.queue q).held.find? fun h => h.cmd.seq == seq && s.since h.arrival (ms 10)) = some g := by
      rw [← Option.isSome_iff_exists, List.find?_isSome]
      exact ⟨h, hmem, by simp [hseq, hdue]⟩
    have hgseq : g.cmd.seq = seq := by
      have := List.find?_some hg
      simp only [Bool.and_eq_true, beq_iff_eq] at this
      exact this.1
    rw [hg, honly g (List.mem_of_find?_eq_some hg) hgseq]
  rw [holdExpire, hfind]

theorem holdExpire_early {q seq : Nat} {s : State} (h : ∀ x ∈ (s.queue q).held, s.since x.arrival (ms 10) = false) :
    holdExpire q seq s = s := by
  have hfind : ((s.queue q).held.find? fun h => h.cmd.seq == seq && s.since h.arrival (ms 10)) = none := by
    rw [List.find?_eq_none]
    intro x hx
    simp [h x hx]
  rw [holdExpire, hfind]

theorem rejectHeld_frame {q : Nat} {h : Held} {s : State} (hqueue : h.cmd.queue = q) (hq : q < s.host.queues.length) :
    ∃ r, s.rejectHeld h = (s.post r).onQueue q (fun k =>
        { k with tags := k.tags.filter (· != h.cmd.tag), held := k.held.filter (· != h) }) ∧
      r.tag = h.cmd.tag ∧ r.final = true ∧ r.block = s.block stSequence 4 0 ∧
      (s.rejectHeld h).queue q = { s.queue q with held := (s.queue q).held.filter (· != h),
                                                  tags := (s.queue q).tags.filter (· != h.cmd.tag) } := by
  subst hqueue
  exact ⟨_, rfl, rfl, rfl, rfl, State.queue_onQueue_same _ _ _ hq⟩

/-! ### The obligation -/

/-- Acceptance of a packet that needs neither the unlock nor the arbiter. -/
theorem journalAccept_accepts {q : Nat} {rb : ReadBack} {k : Checked} {s : State} (hexec : s.executes = true)
    (hstop : s.host.journal.acceptStopped = false) (hnext : s.nextChecked q = some k) (hq : q < s.host.queues.length)
    (ha : rb.a1 = true ∨ rb.a2 = true) (hb : rb.b1 = true ∨ rb.b2 = true)
    (hA : s.host.journal.bankA.inService = true) (hB : s.host.journal.bankB.inService = true) (hheld : (s.queue q).held = [])
    (hrej : k.rejection = none) (hreset : k.opcode ≠ 0x0110) (hcommit : k.opcode ≠ 0x0301) (hunlock : k.opcode ≠ 0x0406)
    (hwrite : k.opcode ≠ 0x0407) (hneeds : s.needsUnlock k.opcode k.cmd.payload = false)
    (hbehind : (s.dropChecked k).heldBehind k.opcode k.cmd.payload = false) :
    journalAccept q rb s =
      (((s.dropChecked k).enter k .accepted (s.block stAccepted 0 0) (some (mkReply k.opcode k.cmd false (s.block stAccepted 0 0) []))).snoop
        (0x40 + k.cmd.queue) (packetBytes k.opcode k.cmd)).post (mkReply k.opcode k.cmd false (s.block stAccepted 0 0) []) := by
  have hneeds' : (s.dropChecked k).needsUnlock k.opcode k.cmd.payload = false := hneeds
  have hsettled : (s.dropChecked k).settled k = .ok := by
    simp [State.settled, hrej, State.acceptCheck, hunlock, hneeds', locked3, firstFail]
  have huse : (s.dropChecked k).acceptUse k.opcode k.cmd = s.dropChecked k := by
    simp [State.acceptUse, hunlock, hwrite, hneeds']
  rw [(journalAccept_readBack hexec hstop hnext ha hb hA hB).1 hsettled, huse, State.accept_plain hcommit hreset hbehind]
  have hkq := State.nextChecked_queue hnext
  refine State.releaseHeld_of_empty ?_
  subst hkq
  exact (congrArg Queue.held (State.queue_note _ hq)).trans hheld

/-- Settles O8: with both banks reading back right, step 12 is `State.accept` or `State.rejectConsumed`; a bank that fails leaves
service first; an expired packet is `State.rejectHeld`. -/
theorem acceptanceIsDurable : Obligations.AcceptanceIsDurable := by
  refine ⟨fun q rb k s => ?_, fun q rb k st det s => ?_, fun q b1 b2 k s hexec hstop hnext hA => ?_,
    fun q seq h s hmem honly hseq hqueue hq hdue => ?_, fun q seq s hearly => ?_⟩
  · intro c hexec hstop hnext hq ha hb hA hB hheld hrej hreset hcommit hunlock hwrite hneeds hbehind
    have haccept := journalAccept_accepts hexec hstop hnext hq ha hb hA hB hheld hrej hreset hcommit hunlock hwrite hneeds hbehind
    have hkq := State.nextChecked_queue hnext
    subst hkq
    have hqueue := State.queue_note (s := s) (k.record false (s.block stAccepted 0 0)) hq
    exact ⟨_, _, congrArg Host.Outcome.next haccept, rfl, rfl, congrArg Queue.nextSeq hqueue, (congrArg Queue.tags hqueue).trans rfl,
      ⟨_, (congrArg Queue.dup hqueue).symm ▸ Queue.noted_mem _ _, rfl, rfl, rfl, rfl⟩, rfl, rfl, rfl, rfl, rfl,
      State.not_mem_dropChecked k s, fun p hp => State.queue_note_ne _ _ hp, rfl⟩
  · intro c hexec hstop hnext hq ha hb hA hB hheld hseq hrej
    have hkq := State.nextChecked_queue hnext
    subst hkq
    have hsettled : (s.dropChecked k).settled k = .reject st det := by simp [State.settled, hrej]
    obtain ⟨e, he⟩ := State.rejectConsumed_sequenced (op := k.opcode) st det (s := s.dropChecked k) hseq
    have hqueue := State.queue_note (s := s) (k.record true (s.block st det 0)) hq
    have hstep := (journalAccept_readBack hexec hstop hnext ha hb hA hB).2 st det hsettled
    rw [he] at hstep
    replace hstep := hstep.trans (State.releaseHeld_of_empty ((congrArg Queue.held hqueue).trans hheld))
    exact ⟨_, _, congrArg Host.Outcome.next hstep, rfl, rfl, rfl, rfl, rfl, rfl, congrArg Queue.nextSeq hqueue, (congrArg Queue.tags hqueue).trans rfl,
      ⟨_, (congrArg Queue.dup hqueue).symm ▸ Queue.noted_mem _ _, rfl, rfl, rfl, rfl⟩,
      State.not_mem_dropChecked k s, fun p hp => State.queue_note_ne _ _ hp, rfl⟩
  · obtain ⟨pcie, out, A, B, hout, heq⟩ := journalAccept_bankA_fails (b1 := b1) (b2 := b2) hexec hstop hnext
    exact ⟨_, _, congrArg Host.Outcome.next heq, hout, rfl, rfl, rfl, rfl, fun _ => rfl, rfl, State.not_mem_dropChecked k s, rfl⟩
  · obtain ⟨r, heq, htag, hfinal, hblock, hsame⟩ := rejectHeld_frame hqueue hq
    refine ⟨_, r, congrArg Host.Outcome.next (holdExpire_due hmem honly hseq (State.since_iff.mpr hdue)), ?_, htag, hfinal, hblock, hsame, ?_, ?_⟩
    · rw [heq]; rfl
    · intro p hp
      rw [heq]
      exact State.queue_onQueue_ne _ _ _ _ hp
    · rw [heq]; rfl
  · exact congrArg Host.Outcome.next (holdExpire_early fun x hx =>
      Bool.eq_false_iff.mpr fun hs => absurd (State.since_iff.mp hs) (Nat.not_le.mpr (hearly x hx)))

end Sys2Proof.Machine

/-!
## Replies on their way out (R56 to R61)
-/
namespace Sys2Proof.Machine

/-! ### A reply that its transport has taken -/

theorem State.netSent_frame (r : Reply) (s : State) :
    s.netSent r = { s with net := (s.netSent r).net } ∧
    ((∀ w, s.net.wait = some w → w.answeredBy r = false) → s.netSent r = s) := by
  unfold State.netSent
  split
  · next w hw =>
    refine ⟨?_, fun h => if_neg (by simp [h w hw])⟩
    split <;> rfl
  · exact ⟨rfl, fun _ => rfl⟩

/-- A reply behind the check units of its transport. -/
def State.replyMeasured (r : Reply) (s : State) : State :=
  (((s.onHost fun h => { h with waiting := h.waiting.erase r }).unitItem 6 (r.header.take 14)).unitItem 7
    (r.header ++ r.block.bytes ++ r.data)).netSent r

theorem State.replyMeasured_frame (r : Reply) (s : State) :
    (∃ i n, s.replyMeasured r = { s with host := { s.host with waiting := s.host.waiting.erase r }, integrity := i, net := n }) ∧
    ((∀ w, s.net.wait = some w → w.answeredBy r = false) → (s.replyMeasured r).net = s.net) := by
  let u := ((s.onHost fun h => { h with waiting := h.waiting.erase r }).unitItem 6 (r.header.take 14)).unitItem 7
    (r.header ++ r.block.bytes ++ r.data)
  obtain ⟨hframe, hsame⟩ := u.netSent_frame r
  refine ⟨⟨_, _, hframe⟩, fun h => ?_⟩
  exact (congrArg State.net (hsame h)).trans rfl

/-- What taking a reply changes: the replies, the check units, its queue's tags and records, and its entry. -/
theorem State.taken_facts {r : Reply} {s : State} (hq : r.queue < s.host.queues.length) :
    (s.taken r).host.waiting = s.host.waiting.erase r ∧
    (s.taken r).queue r.queue = (if r.final && r.holdsTag then (s.queue r.queue).release r else s.queue r.queue) ∧
    (∀ p, p ≠ r.queue → (s.taken r).queue p = s.queue p) ∧
    (s.taken r).host.pcie = s.host.pcie ∧ (s.taken r).host.spi = s.host.spi ∧
    s.taken r = { s with host := (s.taken r).host, integrity := (s.taken r).integrity, net := (s.taken r).net } ∧
    ((∀ w, s.net.wait = some w → w.answeredBy r = false) → (s.taken r).net = s.net) := by
  obtain ⟨⟨i, n, hu⟩, hsame⟩ := s.replyMeasured_frame r
  have hnet : (s.replyMeasured r).net = n := by rw [hu]
  have htaken : s.taken r = if !r.final || !r.holdsTag then s.replyMeasured r else
      ((s.replyMeasured r).onQueue r.queue (Queue.release r)).onJournal fun j => { j with live := j.live.filter fun l => !l.retiredBy r } := rfl
  rw [htaken]
  rw [hnet] at hsame
  split
  · next h =>
    have h' : (r.final && r.holdsTag) = false := by simpa [imp_iff_not_or] using h
    rw [hu, h']
    exact ⟨rfl, rfl, fun _ _ => rfl, rfl, rfl, rfl, hsame⟩
  · next h =>
    have h' : (r.final && r.holdsTag) = true := by simpa using h
    rw [hu, h']
    exact ⟨rfl, State.queue_onQueue_same _ _ _ hq, fun p hp => State.queue_onQueue_ne _ _ _ _ hp, rfl, rfl, rfl, hsame⟩

theorem Queue.release_tags (r : Reply) (k : Queue) : (k.release r).tags = k.tags.filter (· != r.tag) := rfl

/-- An interrupt while PERST# is high. -/
theorem State.interrupt_up (b : Nat) {s : State} (h : s.host.pcie.perstHigh = true) :
    s.interrupt b =
      { s with
        host := { s.host with pcie := { s.host.pcie with intStatus := s.host.pcie.intStatus ||| bit6 b } }
        out := s.out ++ if s.host.pcie.intEnable.getLsbD b && s.host.pcie.config.msix && s.host.pcie.config.master
          then [.msix (min 4 b)] else [] } := by
  rw [State.interrupt, if_neg (by simp [h])]
  split
  · rfl
  · rw [List.append_nil]
    rfl

/-! ### The reply ring -/

theorem State.ringReply_queue {q : Nat} {r : Reply} {s : State} (h : s.ringReply q = some r) : r ∈ s.host.waiting :=
  List.mem_of_find?_eq_some h

theorem replyRingWrite_eq {q : Nat} {r : Reply} {s : State} (hup : s.pcieUp = true) (hmaster : s.host.pcie.config.master = true)
    (hroom : (s.ring q).hasRoom = true) (hreply : s.ringReply q = some r) :
    replyRingWrite q s =
      ((((s.emit (.ringEntry q (s.ring q).rqTail ((s.ring q).dataBase + 4096 * r.tag) r.data (r.entry (s.ring q).phase))).onRing q
        Ring.advance).taken r).interrupt q) := by
  simp [replyRingWrite, hup, hmaster, hroom, hreply]

theorem replyRingWrite_idle {q : Nat} {s : State} (h : (s.ring q).hasRoom = false ∨ s.host.pcie.config.master = false) :
    replyRingWrite q s = s := by
  obtain h | h := h <;> simp [replyRingWrite, h]

/-- R57: the row of a reply that goes to its ring. -/
theorem replyRingWrite_row {q : Nat} {r : Reply} {s : State} (hwin : WindowUp q s) (hmaster : s.host.pcie.config.master = true)
    (hroom : (s.ring q).hasRoom = true) (hreply : s.ringReply q = some r) (hrq : r.queue = q) :
    let t := replyRingWrite q s
    t.out = s.out ++ [.ringEntry q (s.ring q).rqTail ((s.ring q).dataBase + 4096 * r.tag) r.data (r.entry (s.ring q).phase)] ++
        (if s.host.pcie.intEnable.getLsbD q && s.host.pcie.config.msix then [.msix q] else []) ∧
      t.host.waiting = s.host.waiting.erase r ∧
      t.queue q = (let k := { s.queue q with ring := (s.ring q).advance }
        if r.final && r.holdsTag then k.release r else k) ∧
      t.host.pcie.intStatus = s.host.pcie.intStatus ||| bit6 q ∧ (∀ p, p ≠ q → t.queue p = s.queue p) ∧
      t = { s with host := t.host, integrity := t.integrity, net := t.net, out := t.out } ∧
      ((∀ w, s.net.wait = some w → w.answeredBy r = false) → t.net = s.net) := by
  intro t
  obtain ⟨hq, hlen, hup⟩ := hwin
  have hperst : s.host.pcie.perstHigh = true := by
    simp only [State.pcieUp, Bool.and_eq_true] at hup
    exact hup.1.1.1.1.1
  let u := (s.emit (.ringEntry q (s.ring q).rqTail ((s.ring q).dataBase + 4096 * r.tag) r.data (r.entry (s.ring q).phase))).onRing q
    Ring.advance
  have hqu : q < u.host.queues.length := by simp [u, State.onRing, State.emit, hlen, hq]
  have huq : u.queue q = { s.queue q with ring := (s.ring q).advance } :=
    State.queue_onQueue_same _ _ _ (by simp [State.emit, hlen, hq])
  obtain ⟨hwaiting, hqueue, hother, hpcie, -, hframe, hnet⟩ := State.taken_facts (r := r) (s := u) (by rw [hrq]; exact hqu)
  rw [hrq] at hqueue hother
  have ht : t = (u.taken r).interrupt q := replyRingWrite_eq hup hmaster hroom hreply
  rw [State.interrupt_up q (by rw [hpcie]; exact hperst)] at ht
  have hout : (u.taken r).out = u.out := by rw [hframe]
  have hmin : min 4 q = q := by omega
  rw [ht]
  refine ⟨?_, hwaiting, ?_, ?_, fun p hp => (hother p hp).trans (State.queue_onQueue_ne _ _ _ _ hp), ?_, hnet⟩
  · rw [hout, hpcie, hmin]
    change s.out ++ [_] ++ (if (s.host.pcie.intEnable.getLsbD q && s.host.pcie.config.msix && s.host.pcie.config.master) = true then _ else _) = _
    rw [hmaster, Bool.and_true]
  · exact hqueue.trans (by rw [huq])
  · simp only [hpcie]
    rfl
  · obtain ⟨host, i, n, hu⟩ : ∃ host i n, u.taken r = { u with host := host, integrity := i, net := n } := ⟨_, _, _, hframe⟩
    rw [hu]
    rfl

/-! ### The obligation -/

theorem descriptorFetch_faulty {q : Nat} {re : Bool} {desc packet : List Byte} {s : State} (hfetch : s.fetches q = true)
    (hfault : entryFault re desc ≠ 0) :
    descriptorFetch q re desc packet s = (s.onRing q fun r => { r with halted := true, qError := entryFault re desc }).interrupt 4 := by
  simp [descriptorFetch, hfetch, hfault]

theorem spiReadReply_eq {r : Reply} {s : State} (hup : s.spiUp = true) (hreply : s.spiReply = some r) :
    spiReadReply true s = (s.emit (.spiReply r.bytes)).taken r := by
  simp [spiReadReply, hup, hreply]

/-- Settles O9: a ring takes its reply by `State.taken` between its entry and its interrupt; the SPI port takes one the same way; the
rest are the branches of each row. -/
theorem repliesReachTheirTransport : Obligations.RepliesReachTheirTransport := by
  refine ⟨⟨fun q r s hwin hmaster hroom hreply hrq => ?_, fun q s h => ?_⟩, fun q re desc packet s hwin hfetch hfault => ?_,
    fun m s hserved hcom htype => ?_, fun s hup => ?_, fun r s hup hreply hq => ?_, fun s => ?_, fun code s hup hcode => ?_,
    fun b s hup hbusy => ?_⟩
  · obtain ⟨hout, hwaiting, hqueue, hint, hother, hframe, hnet⟩ := replyRingWrite_row hwin hmaster hroom hreply hrq
    refine ⟨_, rfl, ⟨_, hout, rfl⟩, hwaiting, ?_, ?_, ?_, ?_, ?_, hint, hother, hframe, hnet⟩ <;>
      simp only [State.ring, hqueue] <;> split <;> rfl
  · exact congrArg Host.Outcome.next (replyRingWrite_idle h)
  · obtain ⟨hq, hlen, hup⟩ := hwin
    have hperst : s.host.pcie.perstHigh = true := by
      simp only [State.pcieUp, Bool.and_eq_true] at hup
      exact hup.1.1.1.1.1
    have hq' : q < s.host.queues.length := by omega
    have hstep := descriptorFetch_faulty (packet := packet) hfetch hfault
    rw [State.interrupt_up 4 (show (s.onRing q _).host.pcie.perstHigh = true from hperst)] at hstep
    refine ⟨_, congrArg Host.Outcome.next hstep, State.queue_onQueue_same _ _ _ hq', rfl, rfl, rfl,
      fun p hp => State.queue_onQueue_ne _ _ _ _ hp, ?_, rfl⟩
    simp [bit6]
  · exact congrArg Host.Outcome.next (by simp [trdpMrReceive, hserved, hcom, htype, mrType, State.onHost])
  · refine ⟨_, congrArg Host.Outcome.next (if_neg (by simp [hup])), rfl, rfl, rfl, rfl⟩
  · obtain ⟨hwaiting, hqueue, hother, hpcie, hspi, hframe, hnet⟩ := State.taken_facts (r := r) (s := s.emit (.spiReply r.bytes)) hq
    refine ⟨_, congrArg Host.Outcome.next (spiReadReply_eq hup hreply), congrArg State.out hframe, hwaiting, ?_, hother, hspi, hpcie, ?_, hnet⟩
    · rw [hqueue]
      split <;> rfl
    · obtain ⟨host, i, n, ht⟩ : ∃ host i n, (s.emit (.spiReply r.bytes)).taken r =
          { s.emit (.spiReply r.bytes) with host := host, integrity := i, net := n } := ⟨_, _, _, hframe⟩
      rw [ht]
      rfl
  · exact congrArg Host.Outcome.next (if_pos (by simp))
  · refine congrArg Host.Outcome.next (if_neg ?_)
    simp only [hup, Bool.not_true, Bool.false_or, Bool.and_eq_true, decide_eq_true_eq]
    omega
  · refine congrArg Host.Outcome.next ?_
    have hcond : (s.host.spi.rx.isSome || decide (4100 < b.length)) = true := by simpa using hbusy
    simp only [spiWritePacket, hup, hcond, Bool.not_true, Bool.false_eq_true, if_false, if_true]
    rfl

end Sys2Proof.Machine

/-!
## The system opcodes (R63 to R67)
-/
namespace Sys2Proof.Machine

/-! ### The state in which a command runs -/

theorem State.onLive_frame (c : Cmd) (f : Live → Live) (s : State) :
    ∃ j, s.onLive c f = { s with host := { s.host with journal := j } } := by
  unfold State.onLive
  split
  · exact ⟨s.host.journal, rfl⟩
  · exact ⟨_, rfl⟩

theorem State.onLive_queue (c : Cmd) (f : Live → Live) (s : State) (q : Nat) : (s.onLive c f).queue q = s.queue q := by
  obtain ⟨j, hj⟩ := s.onLive_frame c f
  rw [hj]
  rfl

@[simp] theorem State.onLive_queues (c : Cmd) (f : Live → Live) (s : State) : (s.onLive c f).host.queues = s.host.queues := by
  obtain ⟨j, hj⟩ := s.onLive_frame c f
  rw [hj]

/-- A command whose effect is its answer with data that its entry does not touch. -/
theorem run_finish_data {o : OpInfo} {op : Nat} {c : Cmd} {st det : Nat} {res : State → Nat} {data : State → List Byte} {s : State}
    (h : Accepted o c s) (hres : ∀ f, res (s.onLive c f) = res s) (hdata : ∀ f, data (s.onLive c f) = data s) :
    Finished op c (s.block st det (res s)) (data s) s (s.run o c fun t => t.finish op c st det (res t) (data t)) ∧
    s.run o c (fun t => t.finish op c st det (res t) (data t)) =
      { s with host := (s.run o c fun t => t.finish op c st det (res t) (data t)).host } := by
  have heq : s.run o c (fun t => t.finish op c st det (res t) (data t)) = s.run o c fun t => t.finish op c st det (res s) (data s) := by
    rw [State.run_accepted o c _ s h, State.run_accepted o c _ s h, hres, hdata]
  rw [heq]
  exact run_finish o op c st det _ _ s h

/-! ### GET_INFO -/

theorem State.infoData_onLive (c : Cmd) (s : State) (f : Live → Live) : (s.onLive c f).infoData = s.infoData := by
  obtain ⟨j, hj⟩ := s.onLive_frame c f
  rw [hj]
  rfl

/-- Two bytes of a list that are a number's. -/
theorem u16_of_bytes {p : List Byte} {i n : Nat} (h0 : p.getD i 0 = BitVec.ofNat 8 n) (h1 : p.getD (i + 1) 0 = BitVec.ofNat 8 (n / 256)) :
    u16 p i = n % 2 ^ 16 := by
  simp only [u16, u8, h0, h1, BitVec.toNat_ofNat]
  omega

/-- Four bytes of a list that are a number's. -/
theorem u32_of_bytes {p : List Byte} {i n : Nat} (h0 : p.getD i 0 = BitVec.ofNat 8 n) (h1 : p.getD (i + 1) 0 = BitVec.ofNat 8 (n / 256))
    (h2 : p.getD (i + 2) 0 = BitVec.ofNat 8 (n / 256 / 256)) (h3 : p.getD (i + 3) 0 = BitVec.ofNat 8 (n / 256 / 256 / 256)) :
    u32 p i = n % 2 ^ 32 := by
  rw [u32, u16_of_bytes h0 h1, u16_of_bytes h2 h3]
  omega

/-- Eight bytes of a list that are a number's. -/
theorem u64_of_bytes {p : List Byte} {i n : Nat} (h0 : u32 p i = n % 2 ^ 32) (h1 : u32 p (i + 4) = n / 2 ^ 32 % 2 ^ 32) :
    u64 p i = n % 2 ^ 64 := by
  rw [u64, h0, h1]
  omega

theorem u8_of_byte {p : List Byte} {i n : Nat} (h : p.getD i 0 = BitVec.ofNat 8 n) : u8 p i = n % 256 := by
  simp only [u8, h, BitVec.toNat_ofNat]

theorem State.infoData_length (s : State) : s.infoData.length = 64 := rfl

theorem State.infoData_part (s : State) : u16 s.infoData 0 = 0x7192 := u16_of_bytes (n := 0x7192) rfl rfl

theorem State.infoData_revision (s : State) : u8 s.infoData 3 = 1 := u8_of_byte (n := 1) rfl

theorem State.infoData_epoch (s : State) : u16 s.infoData 26 = s.sets.epoch % 2 ^ 16 := u16_of_bytes (n := s.sets.epoch) rfl rfl

theorem u8_append_left {a : List Byte} (b : List Byte) {i : Nat} (h : i < a.length) : u8 (a ++ b) i = u8 a i := by
  simp [u8, List.getD, List.getElem?_append_left h]

theorem u8_append_right {a : List Byte} (b : List Byte) {n i : Nat} (h : a.length = n) : u8 (a ++ b) (n + i) = u8 b i := by
  rw [u8, u8, List.getD_append_right _ _ _ _ (by omega), show n + i - a.length = i by omega]

theorem u32_append_left {a : List Byte} (b : List Byte) {i : Nat} (h : i + 4 ≤ a.length) : u32 (a ++ b) i = u32 a i := by
  simp only [u32, u16]
  rw [u8_append_left b (by omega), u8_append_left b (by omega), u8_append_left b (by omega), u8_append_left b (by omega)]

theorem u32_append_right {a : List Byte} (b : List Byte) {n i : Nat} (h : a.length = n) : u32 (a ++ b) (n + i) = u32 b i := by
  simp only [u32, u16, Nat.add_assoc, u8_append_right b h]

/-- GET_INFO's bytes before the queues' figures. -/
def State.infoHead (s : State) : List Byte :=
  le 2 0x7192 ++ le 1 Config.stepping ++ le 1 1 ++ le 8 Config.serial ++ le 4 s.power.firmware ++ le 4 s.fabric.library ++
  le 4 (s.recordGen 4) ++ le 1 s.power.phase.code ++ le 1 (if s.power.supervisorB then 1 else 0) ++ le 2 s.sets.epoch

def State.creditBytes (s : State) : List Byte := ((List.range 4).map fun q => le 1 (s.credits q)).flatten
def State.seqBytes (s : State) : List Byte := ((List.range 4).map fun q => le 4 (s.queue q).nextSeq).flatten
def State.maskBytes (s : State) : List Byte := ((List.range 4).map fun q => le 1 (s.queue q).mask.toNat).flatten

theorem State.infoData_parts (s : State) :
    s.infoData = s.infoHead ++ (s.creditBytes ++ (s.seqBytes ++ (le 8 s.stamp ++ (s.maskBytes ++ le 4 s.fabric.startId)))) := by
  simp only [State.infoData, State.infoHead, State.creditBytes, State.seqBytes, State.maskBytes, List.append_assoc]

theorem State.infoHead_length (s : State) : s.infoHead.length = 28 := rfl
theorem State.creditBytes_length (s : State) : s.creditBytes.length = 4 := rfl
theorem State.seqBytes_length (s : State) : s.seqBytes.length = 16 := rfl
theorem State.maskBytes_length (s : State) : s.maskBytes.length = 4 := rfl
theorem le_eight_length (n : Nat) : (le 8 n).length = 8 := rfl

theorem State.creditBytes_get (s : State) {q : Nat} (hq : q < 4) : u8 s.creditBytes q = s.credits q % 256 := by
  interval_cases q <;> exact u8_of_byte rfl

theorem State.seqBytes_get (s : State) {q : Nat} (hq : q < 4) : u32 s.seqBytes (4 * q) = (s.queue q).nextSeq % 2 ^ 32 := by
  interval_cases q <;> exact u32_of_bytes rfl rfl rfl rfl

theorem State.maskBytes_get (s : State) {q : Nat} (hq : q < 4) : u8 s.maskBytes q = (s.queue q).mask.toNat := by
  have hmask := (s.queue q).mask.isLt
  have hbyte : u8 s.maskBytes q = (s.queue q).mask.toNat % 256 := by
    interval_cases q <;> exact u8_of_byte rfl
  omega

theorem State.infoData_queue (s : State) {q : Nat} (hq : q < 4) :
    u8 s.infoData (28 + q) = s.credits q % 256 ∧ u32 s.infoData (32 + 4 * q) = (s.queue q).nextSeq % 2 ^ 32 ∧
    u8 s.infoData (56 + q) = (s.queue q).mask.toNat := by
  rw [s.infoData_parts]
  refine ⟨?_, ?_, ?_⟩
  · rw [u8_append_right _ s.infoHead_length, u8_append_left _ (s.creditBytes_length ▸ hq), s.creditBytes_get hq]
  · rw [show 32 + 4 * q = 28 + (4 + 4 * q) by omega, u32_append_right _ s.infoHead_length,
      u32_append_right _ s.creditBytes_length, u32_append_left _ (by rw [s.seqBytes_length]; omega), s.seqBytes_get hq]
  · rw [show 56 + q = 28 + (4 + (16 + (8 + q))) by omega, u8_append_right _ s.infoHead_length,
      u8_append_right _ s.creditBytes_length, u8_append_right _ s.seqBytes_length, u8_append_right _ (le_eight_length _),
      u8_append_left _ (s.maskBytes_length ▸ hq), s.maskBytes_get hq]

theorem u64_le (n : Nat) : u64 (le 8 n) 0 = n % 2 ^ 64 := by
  have hlo : u32 (le 8 n) 0 = n % 2 ^ 32 := u32_of_bytes rfl rfl rfl rfl
  have hhi : u32 (le 8 n) 4 = n / 2 ^ 32 % 2 ^ 32 := by
    have hdiv : n / 2 ^ 32 = n / 256 / 256 / 256 / 256 := by omega
    rw [hdiv]
    exact u32_of_bytes rfl rfl rfl rfl
  exact u64_of_bytes hlo hhi

theorem State.infoData_stamp (s : State) : u64 s.infoData 48 = s.stamp := by
  have hparts : u64 s.infoData 48 = u64 (le 8 s.stamp) 0 := by
    rw [s.infoData_parts, u64, u64]
    rw [show 48 = 28 + (4 + (16 + 0)) by omega, show 28 + (4 + (16 + 0)) + 4 = 28 + (4 + (16 + 4)) by omega]
    simp only [u32_append_right _ s.infoHead_length, u32_append_right _ s.creditBytes_length, u32_append_right _ s.seqBytes_length]
    rw [u32_append_left _ (show 0 + 4 ≤ 8 by omega), u32_append_left _ (show 4 + 4 ≤ 8 by omega)]
  rw [hparts, u64_le, State.stamp, Nat.mod_mod]

theorem State.infoData_startId (s : State) : u32 s.infoData 60 = s.fabric.startId % 2 ^ 32 := by
  rw [s.infoData_parts, show 60 = 28 + (4 + (16 + (8 + (4 + 0)))) by omega, u32_append_right _ s.infoHead_length,
    u32_append_right _ s.creditBytes_length, u32_append_right _ s.seqBytes_length, u32_append_right _ (le_eight_length _),
    u32_append_right _ s.maskBytes_length]
  exact u32_of_bytes rfl rfl rfl rfl

/-! ### SEQ_SET -/

/-- The reply to a held packet that is rejected. -/
def heldReply (s : State) (h : Held) : Reply := { mkReply h.opcode h.cmd true (s.block stSequence 4 0) [] with holdsTag := false }

/-- Rejecting held packets of a queue: their replies join the others, and their tags are free. -/
theorem rejectHeld_foldl {q : Nat} {l : List Held} {s : State} (hq : q < s.host.queues.length) (hl : ∀ h ∈ l, h.cmd.queue = q) :
    ∃ queues, l.foldl State.rejectHeld s =
        { s with host := { s.host with waiting := s.host.waiting ++ l.map (heldReply s), queues := queues } } ∧
      queues.length = s.host.queues.length ∧ (∀ p, p ≠ q → (l.foldl State.rejectHeld s).queue p = s.queue p) ∧
      ∃ held, (l.foldl State.rejectHeld s).queue q =
        { s.queue q with tags := (s.queue q).tags.filter (fun n => !l.any fun h => h.cmd.tag == n), held := held } := by
  induction l generalizing s with
  | nil => exact ⟨s.host.queues, by simp, rfl, fun _ _ => rfl, (s.queue q).held, by simp⟩
  | cons h l ih =>
    have hh : h.cmd.queue = q := hl h (by simp)
    have hstep : s.rejectHeld h = (s.post (heldReply s h)).onQueue q fun k =>
        { k with tags := k.tags.filter (· != h.cmd.tag), held := k.held.filter (· != h) } := by
      rw [← hh]; rfl
    have hq' : q < (s.rejectHeld h).host.queues.length := by rw [hstep]; simpa using hq
    obtain ⟨queues, heq, hlen, hother, held, hsame⟩ := ih hq' fun x hx => hl x (by simp [hx])
    refine ⟨queues, ?_, ?_, fun p hp => (hother p hp).trans ?_, held, ?_⟩
    · rw [List.foldl_cons, heq, hstep]
      simp only [State.onQueue, State.onHost, State.post, List.map_cons, List.append_assoc, List.singleton_append]
      rfl
    · rw [hlen, hstep]
      simp
    · rw [hstep]
      exact State.queue_onQueue_ne _ _ _ _ hp
    · rw [List.foldl_cons, hsame, hstep, State.queue_onQueue_same _ _ _ (by simpa using hq)]
      have htags : ((s.queue q).tags.filter (· != h.cmd.tag)).filter (fun n => !l.any fun h => h.cmd.tag == n) =
          (s.queue q).tags.filter (fun n => !(h :: l).any fun h => h.cmd.tag == n) := by
        rw [List.filter_filter]
        refine List.filter_congr fun n _ => ?_
        rw [List.any_cons, Bool.not_or, Bool.and_comm, bne, BEq.comm]
      rw [← htags]
      rfl

/-- SEQ_SET on the state in which it runs. -/
def State.seqSetDone (c : Cmd) (s : State) : State :=
  ((s.queue c.queue).held.foldl State.rejectHeld (s.onQueue c.queue fun k => { k with nextSeq := u32 c.payload 0 })).onQueue c.queue
    fun k => { k with dup := k.dup.filter fun d => d.seq == c.seq && d.trailer == c.trailer, held := [] }

theorem seqSetEffect_eq {c : Cmd} {s : State} (hq : c.queue < s.host.queues.length) :
    seqSetEffect c s = (s.seqSetDone c).done 0x0111 c (s.queue c.queue).nextSeq := by
  have hheld : ((s.onQueue c.queue fun k => { k with nextSeq := u32 c.payload 0 }).queue c.queue).held = (s.queue c.queue).held := by
    rw [State.queue_onQueue_same _ _ _ hq]
  simp only [seqSetEffect, State.seqSetDone, hheld]

/-- What SEQ_SET makes of its queue and of the replies. -/
theorem State.seqSetDone_facts {c : Cmd} {s : State} (hq : c.queue < s.host.queues.length)
    (hheld : ∀ h ∈ (s.queue c.queue).held, h.cmd.queue = c.queue) :
    (∃ queues, queues.length = s.host.queues.length ∧ s.seqSetDone c =
      { s with host := { s.host with waiting := s.host.waiting ++ (s.queue c.queue).held.map (heldReply s), queues := queues } }) ∧
    (∀ p, p ≠ c.queue → (s.seqSetDone c).queue p = s.queue p) ∧
    ∃ dup, (∀ d ∈ dup, d.seq = c.seq) ∧ (s.seqSetDone c).queue c.queue =
      { s.queue c.queue with
        nextSeq := u32 c.payload 0, held := [], dup := dup
        tags := (s.queue c.queue).tags.filter (fun n => !(s.queue c.queue).held.any fun h => h.cmd.tag == n) } := by
  let u := s.onQueue c.queue fun k => { k with nextSeq := u32 c.payload 0 }
  have hu : u.queue c.queue = { s.queue c.queue with nextSeq := u32 c.payload 0 } := State.queue_onQueue_same _ _ _ hq
  obtain ⟨queues, heq, hlen, hother, held, hsame⟩ := rejectHeld_foldl (s := u) (by simpa [u] using hq) hheld
  have hq' : c.queue < ((s.queue c.queue).held.foldl State.rejectHeld u).host.queues.length := by
    rw [heq]
    simpa [hlen, u] using hq
  refine ⟨⟨queues.modify c.queue _, by simp [hlen, u], by rw [State.seqSetDone, heq]; rfl⟩, fun p hp => ?_,
    (u.queue c.queue).dup.filter fun d => d.seq == c.seq && d.trailer == c.trailer, fun d hd => ?_, ?_⟩
  · rw [State.seqSetDone, State.queue_onQueue_ne _ _ _ _ hp, hother p hp]
    exact State.queue_onQueue_ne _ _ _ _ hp
  · have hd' := List.of_mem_filter hd
    simp only [Bool.and_eq_true, beq_iff_eq] at hd'
    exact hd'.1
  · rw [State.seqSetDone, State.queue_onQueue_same _ _ _ hq', hsame, hu]

/-- An answer leaves every part of the state but the host side. -/
theorem State.finish_frame (op : Nat) (c : Cmd) (st det res : Nat) (d : List Byte) (s : State) :
    s.finish op c st det res d = { s with host := (s.finish op c st det res d).host } :=
  State.ext_fields rfl (by simp) (by simp) (by simp) (by simp) (by simp) (by simp) (by simp) (by simp) (by simp) (by simp) (by simp)
    (by simp) (by simp) (by simp) (by simp) (by simp) (by simp) (by simp)

/-- An answer keeps the sequence numbers of its queue's duplicate records. -/
theorem State.finish_dup_seq {op : Nat} {c : Cmd} {st det res : Nat} {data : List Byte} {s : State} (hq : c.queue < s.host.queues.length)
    (h : ∀ d ∈ (s.queue c.queue).dup, d.seq = c.seq) : ∀ d ∈ ((s.finish op c st det res data).queue c.queue).dup, d.seq = c.seq := by
  unfold State.finish State.finishWith State.recordDone
  split
  · exact h
  · intro d hd
    rw [State.updateDup, State.queue_onQueue_same _ _ _ (by simpa using hq), State.onLive_queue] at hd
    simp only [List.mem_map] at hd
    obtain ⟨e, he, rfl⟩ := hd
    split <;> exact h e he

/-! ### The obligation -/

theorem seqSet_row {c : Cmd} {s : State} (h : Accepted seqSetInfo c s) (hq : c.queue < s.host.queues.length)
    (hheld : ∀ h ∈ (s.queue c.queue).held, h.cmd.queue = c.queue) :
    ∃ t replies, exec (.seqSet c) s = .next t ∧ (t.queue c.queue).nextSeq = u32 c.payload 0 ∧
      (t.queue c.queue).held = [] ∧ (∀ d ∈ (t.queue c.queue).dup, d.seq = c.seq) ∧
      (t.queue c.queue).mask = (s.queue c.queue).mask ∧
      (t.queue c.queue).tags = (s.queue c.queue).tags.filter (fun n => !(s.queue c.queue).held.any fun h => h.cmd.tag == n) ∧
      t.host.waiting = s.host.waiting ++ replies ∧
      replies.map (fun r => (r.seq, r.block)) =
        (s.queue c.queue).held.map (fun h => (h.cmd.seq, s.block 0x18 0x04 0)) ++ [(c.seq, s.block 0 0 (s.queue c.queue).nextSeq)] ∧
      (∀ p, p ≠ c.queue → t.queue p = s.queue p) ∧ t = { s with host := t.host } := by
  obtain ⟨j, hj⟩ := s.onLive_frame c fun l => { l with state := .executing }
  let u : State := { s with host := { s.host with journal := j } }
  obtain ⟨⟨queues, hlen, hu⟩, hother, dup, hdup, hsame⟩ := State.seqSetDone_facts (s := u) hq hheld
  have hrun : s.run seqSetInfo c (seqSetEffect c) = (u.seqSetDone c).done 0x0111 c (s.queue c.queue).nextSeq := by
    rw [State.run_accepted _ _ _ _ h, hj]
    exact seqSetEffect_eq (s := u) hq
  have hq' : c.queue < (u.seqSetDone c).host.queues.length := by
    rw [hu]
    exact hlen ▸ hq
  obtain ⟨⟨r, hr, -, -, -, hrseq, -, -, -, hrblock, -⟩, hkept⟩ :=
    finish_finished 0x0111 c stOk 0 (s.queue c.queue).nextSeq [] (u.seqSetDone c)
  obtain ⟨-, -, -, -, -, hqueues, hne, -⟩ := hkept
  obtain ⟨hseq, htags, hheld', hmask, -⟩ := hqueues c.queue
  rw [hsame] at hseq htags hheld' hmask
  refine ⟨_, (s.queue c.queue).held.map (heldReply u) ++ [r], congrArg Host.Outcome.next hrun, hseq, hheld',
    State.finish_dup_seq hq' (by rw [hsame]; exact hdup), hmask, htags, ?_, ?_, fun p hp => (hne p hp).trans (hother p hp), ?_⟩
  · refine hr.trans ?_
    rw [hu, ← List.append_assoc]
    rfl
  · rw [List.map_append, List.map_map, List.map_singleton, hrseq, hrblock, hu]
    rfl
  · rw [State.done, State.finish_frame, hu]

theorem queueBind_row {c : Cmd} {s : State} (h : Accepted queueBindInfo c s) {q : Nat} (hpq : u8 c.payload 0 = q)
    (hq : q < s.host.queues.length) :
    ∃ t, exec (.queueBind c) s = .next t ∧ Answered 0x0112 c (s.block 0 0 (s.queue q).mask.toNat) [] s t ∧
      (t.queue q).mask = BitVec.ofNat 3 (u8 c.payload 1) ∧ (t.queue q).nextSeq = (s.queue q).nextSeq ∧
      (t.queue q).tags = (s.queue q).tags ∧ (∀ p, p ≠ q → (t.queue p).mask = (s.queue p).mask) ∧
      (∀ p, p ≠ c.queue → p ≠ q → t.queue p = s.queue p) ∧ t.host.pcie = s.host.pcie ∧ t = { s with host := t.host } := by
  subst hpq
  obtain ⟨j, hj⟩ := s.onLive_frame c fun l => { l with state := .executing }
  let u : State := { s with host := { s.host with journal := j } }
  let v : State := u.onQueue (u8 c.payload 0) fun k => { k with mask := BitVec.ofNat 3 (u8 c.payload 1) }
  let w : State := v.applied (.binding (u8 c.payload 0)) c (v.block stOk 0 (s.queue (u8 c.payload 0)).mask.toNat)
  have hrun : s.run queueBindInfo c (queueBindEffect c) = w.done 0x0112 c (s.queue (u8 c.payload 0)).mask.toNat := by
    rw [State.run_accepted _ _ _ _ h, hj]
    rfl
  have hsame : w.queue (u8 c.payload 0) = { s.queue (u8 c.payload 0) with mask := BitVec.ofNat 3 (u8 c.payload 1) } :=
    State.queue_onQueue_same _ _ _ hq
  have hne (p : Nat) (hp : p ≠ u8 c.payload 0) : w.queue p = s.queue p := State.queue_onQueue_ne _ _ _ _ hp
  obtain ⟨hans, hpcie, -, -, -, -, hqueues, hother, -⟩ := finish_finished 0x0112 c stOk 0 (s.queue (u8 c.payload 0)).mask.toNat [] w
  obtain ⟨hseq, htags, -, hmask, -⟩ := hqueues (u8 c.payload 0)
  rw [hsame] at hseq htags hmask
  refine ⟨_, congrArg Host.Outcome.next hrun, hans, hmask, hseq, htags, fun p hp => ?_, fun p hp hpq => ?_, hpcie, ?_⟩
  · obtain ⟨-, -, -, hmaskp, -⟩ := hqueues p
    exact hmaskp.trans (by rw [hne p hp])
  · exact (hother p hp).trans (hne p hpq)
  · exact State.finish_frame 0x0112 c stOk 0 (s.queue (u8 c.payload 0)).mask.toNat [] w

theorem resetWarm_row {c : Cmd} {s : State} (h : Accepted resetWarmInfo c s) :
    ∃ t, exec (.resetWarm c) s = .next t ∧ t.power = { s.power with resetWarm := some c } ∧ t.host.waiting = s.host.waiting ∧
      HostKept c s t ∧ (s.power.takeover = false → s.power.warm = none → t.busyDetail = some 4) ∧
      t = { s with host := t.host, power := t.power } := by
  have hrun := State.run_accepted _ _ (resetWarmEffect c) _ h
  have hkept := HostKept.onLive c (fun l => { l with state := .executing }) s
  have hwaiting := State.onLive_waiting c (fun l => { l with state := .executing }) s
  obtain ⟨j, hj⟩ := s.onLive_frame c fun l => { l with state := .executing }
  rw [hj] at hrun hkept hwaiting
  refine ⟨_, congrArg Host.Outcome.next hrun, rfl, hwaiting, hkept, fun htake hwarm => ?_, rfl⟩
  simp [resetWarmEffect, State.busyDetail, State.onPower, htake, hwarm]

/-- Settles O10: NOP, GET_INFO and ECHO are their answers; the other three are the change of a queue or of the power state before it. -/
theorem systemCommandsTakeEffect : Obligations.SystemCommandsTakeEffect := by
  refine ⟨fun c s => ⟨fun h => ?_, fun h => ?_, fun h => ?_⟩, fun c s h hq hheld => seqSet_row h hq hheld,
    fun c s h _ hq => queueBind_row h rfl hq, fun c s h => resetWarm_row h⟩
  · obtain ⟨hfin, hframe⟩ := run_finish nopInfo 0x0100 c 0 0 0 [] s h
    exact ⟨_, rfl, hfin, hframe⟩
  · obtain ⟨hfin, hframe⟩ := run_finish_data (op := 0x0101) (st := 0) (det := 0) (res := fun _ => 0) (data := State.infoData) h
      (fun _ => rfl) fun f => s.infoData_onLive c f
    exact ⟨_, _, rfl, hfin, hframe, rfl, s.infoData_part, s.infoData_revision, s.infoData_epoch, fun q hq => s.infoData_queue hq,
      s.infoData_stamp, s.infoData_startId⟩
  · obtain ⟨hfin, hframe⟩ := run_finish echoInfo 0x0102 c 0 0 (min (cmdLen c) 254) (c.payload.take 4064) s h
    exact ⟨_, rfl, hfin, hframe⟩

end Sys2Proof.Machine

/-!
## Lanes and windows (R103 to R105, R112, R113, R246, R251)
-/
namespace Sys2Proof.Machine

/-! ### Channels taken out of service -/

theorem State.onArbiterQueue_frame (f : List Activity → List Activity) (s : State) :
    s.onArbiterQueue f = { s with health := { s.health with queue := f s.health.queue } } := rfl

/-- A request changes the arbiter's queue alone. -/
theorem State.request_frame (a : Activity) (s : State) :
    ∃ q, s.request a = { s with health := { s.health with queue := q } } := by
  unfold State.request
  split
  · exact ⟨_, rfl⟩
  · split
    · exact ⟨s.health.queue, rfl⟩
    · exact ⟨_, rfl⟩

theorem State.trigger_frame (code scope target row : Nat) (s : State) :
    ∃ q, s.trigger code scope target row = { s with health := { s.health with queue := q } } := by
  unfold State.trigger
  split
  · exact s.request_frame _
  · exact ⟨s.health.queue, rfl⟩

theorem State.feFailed_frame (ch : Nat) (s : State) :
    ∃ r q, s.feFailed ch = { s with power := { s.power with repair := r }, health := { s.health with queue := q } } := by
  obtain ⟨q, hq⟩ := (s.onRepair fun r => { r with badFe := if r.badFe.contains (s.feOf ch) then r.badFe else r.badFe ++ [s.feOf ch] }).trigger_frame
    0x01 (ch / 24) ch 0
  exact ⟨_, q, hq⟩

/-- A channel out of service. -/
def Channel.outOf (c : Channel) : Channel :=
  { c with st := .outOfService, acc := c.acc.map fun h => { h.setMark 7 true with outOfService := true } }

theorem State.channelOut_frame (ch : Nat) (s : State) :
    ∃ r q, s.channelOut ch = { (if (s.channel ch).st == .outOfService then s else s.onChannel ch Channel.outOf) with
      power := { s.power with repair := r }, health := { s.health with queue := q } } := by
  unfold State.channelOut
  split
  · exact ⟨s.power.repair, s.health.queue, rfl⟩
  · exact State.feFailed_frame ch (s.onChannel ch Channel.outOf)

theorem State.channel_channelOut {ch : Nat} {s : State} (h : ch < s.returns.channels.length) (k : Nat) :
    (s.channelOut ch).channel k = if k = ch ∧ (s.channel ch).st ≠ .outOfService then (s.channel k).outOf else s.channel k := by
  obtain ⟨r, q, heq⟩ := s.channelOut_frame ch
  rw [heq]
  split
  · next hst =>
    rw [if_neg (by simpa using fun _ => hst)]
    rfl
  · next hst =>
    by_cases hk : k = ch
    · subst hk
      rw [if_pos ⟨rfl, by simpa using hst⟩]
      exact State.channel_onChannel_same _ _ _ h
    · rw [if_neg fun h => hk h.1]
      exact State.channel_onChannel_ne _ _ _ _ hk

/-- Taking channels out changes the channels, the repair map and the arbiter's queue. -/
theorem State.channelsOut_frame (l : List Nat) (s : State) :
    (∃ channels r q, l.foldl State.channelOut s = { s with
      returns := { s.returns with channels := channels }, power := { s.power with repair := r }, health := { s.health with queue := q } } ∧
      channels.length = s.returns.channels.length) := by
  induction l generalizing s with
  | nil => exact ⟨s.returns.channels, s.power.repair, s.health.queue, rfl, rfl⟩
  | cons ch l ih =>
    obtain ⟨r, q, heq⟩ := s.channelOut_frame ch
    obtain ⟨channels, r', q', heq', hlen⟩ := ih (s.channelOut ch)
    refine ⟨channels, r', q', ?_, ?_⟩
    · rw [List.foldl_cons, heq', heq]
      split <;> rfl
    · rw [hlen, heq]
      split
      · rfl
      · simp

/-- Every channel of the list is out of service afterwards. -/
theorem State.channelsOut_st {l : List Nat} {s : State} (h : ∀ ch ∈ l, ch < s.returns.channels.length) (k : Nat) :
    ((l.foldl State.channelOut s).channel k).st = if k ∈ l then .outOfService else (s.channel k).st := by
  induction l generalizing s with
  | nil => simp
  | cons ch l ih =>
    have hch := h ch (by simp)
    have hlen : (s.channelOut ch).returns.channels.length = s.returns.channels.length := by
      obtain ⟨r, q, heq⟩ := s.channelOut_frame ch
      rw [heq]
      split <;> simp
    rw [List.foldl_cons, ih fun x hx => by rw [hlen]; exact h x (by simp [hx]), State.channel_channelOut hch]
    by_cases hk : k ∈ l
    · simp [hk]
    · by_cases hkc : k = ch
      · subst hkc
        by_cases hst : (s.channel k).st = .outOfService <;> simp [hst, Channel.outOf]
      · simp [hk, hkc]

/-! ### LANE_STALE, LANE_FAILED, LANE_WARMUP_DONE -/

theorem laneStale_row {n : Nat} {s : State} (hn : n < s.clk.lanes.length) (h : 64 ≤ (s.lane n).missed) :
    ∃ t, exec (.laneStale n) s = .next t ∧ t.lane n = { s.lane n with state := .stale } ∧ (∀ m, m ≠ n → t.lane m = s.lane m) ∧
      t = { s with clk := t.clk, returns := t.returns } := by
  let u := s.onLane n fun l => { l with state := .stale }
  have hstep : laneStale n s = u.markFirst 192 n .stale fun _ => true := if_neg (by omega)
  have hframe := (State.markFirst_frame 192 n .stale (fun _ => true) u).1
  refine ⟨_, congrArg Host.Outcome.next hstep, ?_, fun m hm => ?_, ?_⟩
  · rw [State.lane_markFirst]
    exact State.lane_onLane_same _ _ _ hn
  · rw [State.lane_markFirst]
    exact State.lane_onLane_ne _ _ _ _ hm
  · generalize u.markFirst 192 n .stale (fun _ => true) = t at hframe
    obtain ⟨r, rfl⟩ : ∃ r, t = { u with returns := r } := ⟨_, hframe⟩
    rfl

/-- A lane given up. -/
def Lane.givenUp (l : Lane) : Lane := { l with failed := true, ready := false, state := .failed, warm := none }

theorem laneFailed_due {n : Nat} {s : State} (hfailed : (s.lane n).failed = false)
    (hdue : 4096 ≤ (s.lane n).missed ∨ (∃ k, (s.lane n).warm = some k ∧ 64 ≤ k ∧ (s.lane n).consec < 16)) :
    laneFailed n s = (((s.onLane n Lane.givenUp).markFirst 192 n .failed fun _ => true).laneChannels n).foldl State.channelOut
      ((s.onLane n Lane.givenUp).markFirst 192 n .failed fun _ => true) := by
  have hchannels : ((s.onLane n Lane.givenUp).markFirst 192 n .failed fun _ => true).laneChannels n = (s.onLane n Lane.givenUp).laneChannels n := by
    simp only [State.laneChannels, State.laneOf_markFirst]
  rw [hchannels]
  refine if_neg ?_
  obtain h | ⟨k, hk, hk64, hc⟩ := hdue
  · simp [hfailed, h]
  · simp [hfailed, hk, hk64, hc]

theorem laneFailed_early {n : Nat} {s : State} (hmissed : (s.lane n).missed < 4096) (hwarm : (s.lane n).warm = none) :
    laneFailed n s = s := by
  refine if_pos ?_
  simp [hmissed, hwarm]

theorem State.mem_laneChannels {n ch : Nat} {s : State} : ch ∈ s.laneChannels n ↔ ch < 192 ∧ s.laneOf ch = n := by
  simp [State.laneChannels]

theorem laneFailed_row {n : Nat} {s : State} (hn : n < s.clk.lanes.length) (hlen : s.returns.channels.length = 192)
    (hfailed : (s.lane n).failed = false) (hdue : 4096 ≤ (s.lane n).missed ∨ (∃ k, (s.lane n).warm = some k ∧ 64 ≤ k ∧ (s.lane n).consec < 16)) :
    ∃ t, exec (.laneFailed n) s = .next t ∧ t.lane n = (s.lane n).givenUp ∧ (∀ m, m ≠ n → t.lane m = s.lane m) ∧
      (∀ ch, ch < 192 → s.laneOf ch = n → (s.channel ch).st = .active ∨ (s.channel ch).st = .standby → (t.channel ch).st = .outOfService) ∧
      t = { s with clk := t.clk, health := t.health, power := t.power, returns := t.returns } := by
  refine ⟨_, congrArg Host.Outcome.next (laneFailed_due hfailed hdue), ?_⟩
  obtain ⟨hframe, hlen'⟩ := State.markFirst_frame 192 n .failed (fun _ => true) (s.onLane n Lane.givenUp)
  have hlane := State.lane_markFirst 192 n .failed (fun _ => true) (s.onLane n Lane.givenUp)
  have hof := State.laneOf_markFirst 192 n .failed (fun _ => true) (s.onLane n Lane.givenUp)
  generalize (s.onLane n Lane.givenUp).markFirst 192 n .failed (fun _ => true) = u at hframe hlen' hlane hof
  obtain ⟨channels, r, q, hout, -⟩ := State.channelsOut_frame (u.laneChannels n) u
  have hst := State.channelsOut_st (l := u.laneChannels n) (s := u) fun ch hch => by
    rw [hlen']; exact (State.mem_laneChannels.1 hch).1.trans_eq hlen.symm
  have hlane' : ∀ m, ((u.laneChannels n).foldl State.channelOut u).lane m = u.lane m := fun m => by
    rw [hout]; rfl
  refine ⟨?_, fun m hm => ?_, fun ch hch hlane _ => ?_, ?_⟩
  · rw [hlane', hlane, State.lane_onLane_same _ _ _ hn]
  · rw [hlane', hlane, State.lane_onLane_ne _ _ _ _ hm]
  · rw [hst, if_pos (State.mem_laneChannels.2 ⟨hch, (hof ch).trans hlane⟩)]
  · rw [hout, hframe]
    rfl

theorem laneWarmupDone_ready {n k : Nat} {s : State} (hn : n < s.clk.lanes.length) (hwarm : (s.lane n).warm = some k)
    (hconsec : 16 ≤ (s.lane n).consec) : ∃ t, exec (.laneWarmupDone n) s = .next t ∧
      t.lane n = { s.lane n with ready := true, warm := none, missed := 0 } ∧ (∀ m, m ≠ n → t.lane m = s.lane m) ∧
      t = { s with clk := t.clk } :=
  ⟨_, congrArg Host.Outcome.next (if_pos (by simp [hwarm, hconsec])), State.lane_onLane_same _ _ _ hn,
    fun _ hm => State.lane_onLane_ne _ _ _ _ hm, rfl⟩

theorem laneWarmupDone_early {n : Nat} {s : State} (h : (s.lane n).consec < 16) : laneWarmupDone n s = s :=
  if_neg (by simp [h])

theorem laneStale_early {n : Nat} {s : State} (h : (s.lane n).missed < 64) : laneStale n s = s := if_pos h

/-- Settles O18: each of the three rows in turn; a lane that fails takes the channels of `laneChannels` out one by one. -/
theorem lanesGrowStaleFailAndWarm : Obligations.LanesGrowStaleFailAndWarm := by
  refine ⟨fun n s hn => ⟨fun h => congrArg Host.Outcome.next (laneStale_early h), laneStale_row hn⟩,
    fun n s hn hlen hfailed => ⟨fun hm hw => congrArg Host.Outcome.next (laneFailed_early hm hw), laneFailed_row hn hlen hfailed⟩,
    fun n k s hn hwarm => ⟨laneWarmupDone_ready hn hwarm, fun h => congrArg Host.Outcome.next (laneWarmupDone_early h)⟩⟩

end Sys2Proof.Machine

/-!
## Answers behind an effect

What a command's answer adds to its effect, said once for every way to answer.
-/
namespace Sys2Proof.Machine

/-! ### What acceptance says -/

theorem firstFail_eq_ok {l : List (Bool × Nat × Nat)} : firstFail l = .ok ↔ ∀ x ∈ l, x.1 = false := by
  induction l with
  | nil => simp [firstFail]
  | cons x l ih =>
    obtain ⟨bad, st, d⟩ := x
    cases bad <;> simp [firstFail, ih]

theorem Verdict.andThen_eq_ok {a b : Verdict} : a.andThen b = .ok ↔ a = .ok ∧ b = .ok := by
  cases a <;> simp [Verdict.andThen]

theorem OpInfo.check_eq_ok {o : OpInfo} {c : Cmd} {s : State} (h : o.check c s = .ok) :
    (c.unseq = true → o.unseqOk c.payload = true) ∧ (o.lock c s = .ok ∧ o.fields c s = .ok) := by
  simp only [OpInfo.check, Verdict.andThen_eq_ok] at h
  obtain ⟨⟨⟨hfirst, hlock⟩, -⟩, hfields⟩ := h
  refine ⟨fun hu => ?_, hlock, hfields⟩
  have hops := firstFail_eq_ok.1 hfirst _ (List.mem_cons_self ..)
  simpa [hu] using hops

theorem Accepted.fields {o : OpInfo} {c : Cmd} {s : State} (h : Accepted o c s) :
    o.fields c s = .ok := (OpInfo.check_eq_ok h.2).2.2

/-- A command that must not run out of sequence is sequenced. -/
theorem Accepted.sequenced {o : OpInfo} {c : Cmd} {s : State} (h : Accepted o c s) (hops : o.unseqOk c.payload = false) :
    c.unseq = false := by
  by_contra hu
  exact absurd ((OpInfo.check_eq_ok h.2).1 (by simpa using hu)) (by simp [hops])

/-! ### Answers -/

/-- A state with another journal. -/
def State.withJournal (j : Journal) (s : State) : State := { s with host := { s.host with journal := j } }

/-- A command that runs starts its effect in a state in which only its journal entry differs. -/
theorem State.run_from {o : OpInfo} {c : Cmd} {s : State} (h : Accepted o c s) :
    ∃ j, Silent c s (s.withJournal j) ∧ ∀ eff : State → State, s.run o c eff = eff (s.withJournal j) := by
  obtain ⟨j, hj⟩ := s.onLive_frame c fun l => { l with state := .executing }
  exact ⟨j, ⟨rfl, (congrArg (HostKept c s) hj).mp (HostKept.onLive c _ s)⟩,
    fun eff => (State.run_accepted o c eff s h).trans (congrArg eff hj)⟩

/-- A change outside the host side before an answer. -/
theorem Finished.of_host {op : Nat} {c : Cmd} {b : StatusBlock} {d : List Byte} {s u t : State} (hu : u.host = s.host)
    (h : Finished op c b d u t) : Finished op c b d s t := h.after (by rw [hu]) (HostKept.of_host hu)

theorem Silent.of_host {c : Cmd} {s t : State} (h : t.host = s.host) : Silent c s t := ⟨by rw [h], HostKept.of_host h⟩

theorem Silent.trans {c : Cmd} {s t u : State} (h : Silent c s t) (k : Silent c t u) : Silent c s u :=
  ⟨k.1.trans h.1, h.2.trans k.2⟩

theorem State.setPending_silent (o : Obj) (c : Cmd) (s : State) :
    Silent c s (s.setPending o c) := ⟨by simp, HostKept.setPending c o s⟩

theorem State.applied_silent (o : Obj) (c : Cmd) (b : StatusBlock) (s : State) : Silent c s (s.applied o c b) :=
  ⟨by simp, HostKept.applied c o b s⟩

theorem Finished.of_silent {op : Nat} {c : Cmd} {b : StatusBlock} {d : List Byte} {s u t : State} (hs : Silent c s u)
    (h : Finished op c b d u t) : Finished op c b d s t := h.after hs.1 hs.2

theorem State.finishWith_frame (op : Nat) (c : Cmd) (b : StatusBlock) (d : List Byte) (s : State) :
    s.finishWith op c b d = { s with host := (s.finishWith op c b d).host } :=
  State.ext_fields rfl (by simp) (by simp) (by simp) (by simp) (by simp) (by simp) (by simp) (by simp) (by simp) (by simp) (by simp)
    (by simp) (by simp) (by simp) (by simp) (by simp) (by simp) (by simp)

theorem State.setPending_frame (o : Obj) (c : Cmd) (s : State) :
    s.setPending o c = { s with host := (s.setPending o c).host } := rfl

theorem State.appliedWith_frame (o : Obj) (op : Nat) (c : Cmd) (b : StatusBlock) (d : List Byte) (s : State) :
    (s.applied o c b).finishWith op c b d = { s with host := ((s.applied o c b).finishWith op c b d).host } := by
  conv_lhs => rw [State.finishWith_frame]
  rfl

theorem State.appliedWith_finished (o : Obj) (op : Nat) (c : Cmd) (b : StatusBlock) (d : List Byte) (s : State) :
    Finished op c b d s ((s.applied o c b).finishWith op c b d) :=
  (finishWith_finished op c b d _).of_silent (s.applied_silent o c b)

theorem State.doneOn_frame (op : Nat) (o : Obj) (c : Cmd) (res : Nat) (s : State) :
    s.doneOn op o c res = { s with host := (s.doneOn op o c res).host } := s.appliedWith_frame o op c _ []

theorem State.doneOn_finished (op : Nat) (o : Obj) (c : Cmd) (res : Nat) (s : State) :
    Finished op c (s.block 0 0 res) [] s (s.doneOn op o c res) := s.appliedWith_finished o op c _ []

/-! ### Commands whose reply follows a store (R152, R219, R262) -/

theorem State.storeFor_frame (op id : Nat) (data : Option (List Byte)) (c : Cmd) (s : State) :
    ∃ q, s.storeFor op id data c = { s with host := (s.setPending (.record id) c).host, health := { s.health with queue := q } } := by
  obtain ⟨q, hq⟩ := s.request_frame (Activity.store 0x07 id 1 data [(op, c)])
  exact ⟨q, by rw [State.storeFor, hq]; rfl⟩

/-- A store that follows an effect adds the waiting reply to the eMRAM's state and its activity to the arbiter's queue. -/
theorem State.storeAfter_frame (op id : Nat) (c : Cmd) (b : StatusBlock) (s : State) :
    ∃ q w, s.storeAfter op id c b =
      { s with host := (s.setPending (.record id) c).host, nvm := { s.nvm with waits := w }, health := { s.health with queue := q } } := by
  obtain ⟨q, hq⟩ := (s.onNvm fun n => { n with waits := n.waits.filter (·.cmd != c) ++ [{ cmd := c, block := b }] }).storeFor_frame op id none c
  exact ⟨q, _, hq⟩

theorem State.storeAfter_silent (op id : Nat) (c : Cmd) (b : StatusBlock) (s : State) :
    Silent c s (s.storeAfter op id c b) := by
  obtain ⟨q, w, h⟩ := s.storeAfter_frame op id c b
  exact (s.setPending_silent (.record id) c).trans (Silent.of_host (by rw [h]))

end Sys2Proof.Machine

/-!
## Test signals, Cameo, CTRL_STATUS and MOTION_RECORD (R175, R177, R178, R182)
-/
namespace Sys2Proof.Machine

theorem State.loop_onLoop_same {n : Nat} {f : Loop → Loop} {s : State} (h : n < s.motion.loops.length) :
    (s.onLoop n f).loop n = f (s.loop n) := by
  simp [State.loop, State.onLoop, State.onMotion, h]

theorem State.loop_onLoop_ne {n m : Nat} {f : Loop → Loop} {s : State} (h : m ≠ n) : (s.onLoop n f).loop m = s.loop m := by
  simp [State.loop, State.onLoop, State.onMotion, h.symm]

/-- Out of the list's range a loop is as after reset. -/
theorem State.lt_of_loop_ne {n : Nat} {s : State} (h : s.loop n ≠ Loop.reset) : n < s.motion.loops.length := by
  by_contra hn
  exact h (List.getD_eq_default _ _ (by omega))

theorem State.lt_of_inject {n : Nat} {j : Inject} {s : State} (h : (s.loop n).inject = some j) : n < s.motion.loops.length :=
  State.lt_of_loop_ne fun hr => by rw [hr] at h; exact absurd h (by simp [Loop.reset])

theorem State.lt_of_closed {n : Nat} {s : State} (h : (s.loop n).st = .closed) : n < s.motion.loops.length :=
  State.lt_of_loop_ne fun hr => by rw [hr] at h; exact absurd h (by simp [Loop.reset])

/-! ### CTRL_INJECT, INJECT_END -/

theorem ctrlInject_waits {c : Cmd} {s : State} (hshape : injShape c.payload ≠ 3)
    (h : s.swapsAhead c ≠ 0 ∨ ((s.liveOf c).isSome = true ∧ (s.loop (u8 c.payload 0)).inject.isSome = true)) : ctrlInject c s = s := by
  refine if_pos ?_
  simpa [hshape] using h

theorem ctrlInject_runs {c : Cmd} {s : State} (hswaps : s.swapsAhead c = 0) (hfree : (s.loop (u8 c.payload 0)).inject = none) :
    ctrlInject c s = s.run ctrlInjectInfo c (ctrlInjectEffect c) := by
  refine if_neg ?_
  simp [hswaps, hfree]

/-- The test signal that a command asks for, before its first sample. -/
def startOf (c : Cmd) : Inject :=
  { cmd := c, point := u8 c.payload 1, shape := injShape c.payload, order := u8 c.payload 3, ampl := s32 c.payload 4,
    fStart := u32 c.payload 8, fStop := u32 c.payload 12, duration := injDuration c.payload, hold := u8 c.payload 20, index := 0,
    lfsr := 2 ^ u8 c.payload 3 - 1 }

theorem ctrlInjectEffect_start {c : Cmd} {s : State} (hshape : injShape c.payload ≠ 3) (hst : (s.loop (u8 c.payload 0)).st = .closed) :
    ctrlInjectEffect c s = (s.onLoop (u8 c.payload 0) fun l => { l with inject := some (startOf c) }).setPending (.loop (u8 c.payload 0)) c := by
  refine (if_neg hshape).trans (if_neg ?_)
  simp [hst]

theorem ctrlInjectEffect_left {c : Cmd} {s : State} (hshape : injShape c.payload ≠ 3) (hst : (s.loop (u8 c.payload 0)).st ≠ .closed) :
    ctrlInjectEffect c s =
      (s.applied (.loop (u8 c.payload 0)) c (s.block stFaultMotion 2 0)).finishWith 0x0603 c (s.block stFaultMotion 2 0) [] := by
  refine (if_neg hshape).trans (if_pos ?_)
  simp [hst]

theorem ctrlInject_loop {c : Cmd} {s : State} (h : Accepted ctrlInjectInfo c s) : u8 c.payload 0 ≤ 1 := by
  simpa [chk] using firstFail_eq_ok.1 h.fields _ (List.mem_cons_self ..)

/-- A loop of the two is not the other one. -/
theorem one_sub_ne {n : Nat} (h : n ≤ 1) : 1 - n ≠ n := by omega

theorem State.endInject_eq {n : Nat} {j : Inject} {s : State} (h : (s.loop n).inject = some j) :
    s.endInject n = (s.onLoop n fun l => { l with inject := none, inj := 0 }).doneOn 0x0603 (.loop n) j.cmd j.index := by
  rw [State.endInject, h]

theorem ctrlInject_start {c : Cmd} {s : State} (h : Accepted ctrlInjectInfo c s) (hshape : injShape c.payload ≠ 3)
    (hswaps : s.swapsAhead c = 0) (hfree : (s.loop (u8 c.payload 0)).inject = none) (hst : (s.loop (u8 c.payload 0)).st = .closed) :
    ∃ t, exec (.ctrlInject c) s = .next t ∧ Silent c s t ∧ (t.loop (u8 c.payload 0)).inject = some (startOf c) ∧
      t.loop (1 - u8 c.payload 0) = s.loop (1 - u8 c.payload 0) ∧ t = { s with host := t.host, motion := t.motion } := by
  obtain ⟨j, hsilent, hrun⟩ := State.run_from h
  let u := s.withJournal j
  have hstart : ctrlInject c s = (u.onLoop (u8 c.payload 0) fun l => { l with inject := some (startOf c) }).setPending (.loop (u8 c.payload 0)) c :=
    (ctrlInject_runs hswaps hfree).trans ((hrun _).trans (ctrlInjectEffect_start (s := u) hshape hst))
  refine ⟨_, congrArg Host.Outcome.next hstart, ?_, ?_, ?_, rfl⟩
  · exact hsilent.trans ((Silent.of_host (s := u) rfl).trans (State.setPending_silent ..))
  · exact congrArg Loop.inject (State.loop_onLoop_same (s := u) (State.lt_of_closed (s := u) hst))
  · exact State.loop_onLoop_ne (s := u) (one_sub_ne (ctrlInject_loop h))

theorem ctrlInject_left {c : Cmd} {s : State} (h : Accepted ctrlInjectInfo c s) (hshape : injShape c.payload ≠ 3)
    (hswaps : s.swapsAhead c = 0) (hfree : (s.loop (u8 c.payload 0)).inject = none) (hst : (s.loop (u8 c.payload 0)).st ≠ .closed) :
    ∃ t, exec (.ctrlInject c) s = .next t ∧ Finished 0x0603 c (s.block 0x24 2 0) [] s t ∧ t = { s with host := t.host } := by
  obtain ⟨j, hsilent, hrun⟩ := State.run_from h
  let u := s.withJournal j
  refine ⟨_, congrArg Host.Outcome.next ((ctrlInject_runs hswaps hfree).trans
    ((hrun _).trans (ctrlInjectEffect_left (s := u) hshape hst))), ?_, ?_⟩
  · exact (State.appliedWith_finished ..).of_silent hsilent
  · exact State.appliedWith_frame (.loop (u8 c.payload 0)) 0x0603 c (u.block stFaultMotion 2 0) [] u

theorem injectEnd_idle {n : Nat} {s : State} (h : (s.loop n).inject = none) : injectEnd n s = s := by
  rw [injectEnd, h]

theorem injectEnd_running {n : Nat} {j : Inject} {s : State} (h : (s.loop n).inject = some j) :
    injectEnd n s = if j.duration ≤ j.index then s.endInject n else s := by
  rw [injectEnd, h]

theorem injectEnd_due {n : Nat} {j : Inject} {s : State} (h : (s.loop n).inject = some j) (hdue : j.duration ≤ j.index) :
    ∃ t, exec (.injectEnd n) s = .next t ∧ t.loop n = { s.loop n with inject := none, inj := 0 } ∧
      Finished 0x0603 j.cmd (s.block 0 0 j.index) [] s t ∧
      t = { s with host := t.host, motion := { s.motion with loops := t.motion.loops } } := by
  let u := s.onLoop n fun l => { l with inject := none, inj := 0 }
  have hstep : injectEnd n s = u.doneOn 0x0603 (.loop n) j.cmd j.index :=
    (injectEnd_running h).trans ((if_pos hdue).trans (State.endInject_eq h))
  have hframe := u.doneOn_frame 0x0603 (.loop n) j.cmd j.index
  refine ⟨_, congrArg Host.Outcome.next hstep, ?_, ?_, ?_⟩
  · rw [hframe]
    exact State.loop_onLoop_same (State.lt_of_inject h)
  · exact (u.doneOn_finished 0x0603 (.loop n) j.cmd j.index).of_host rfl
  · generalize u.doneOn 0x0603 (.loop n) j.cmd j.index = t at hframe
    rw [hframe]
    rfl

theorem ctrlInjectStop_idle {c : Cmd} {s : State} (h : Accepted ctrlInjectInfo c s) (hshape : injShape c.payload = 3)
    (hfree : (s.loop (u8 c.payload 0)).inject = none) :
    ∃ t, exec (.ctrlInjectStop c) s = .next t ∧ Finished 0x0603 c (s.block 0 0 0) [] s t ∧ t = { s with host := t.host } := by
  obtain ⟨j, hsilent, hrun⟩ := State.run_from h
  let u := s.withJournal j
  have heff : ctrlInjectEffect c u = u.doneOn 0x0603 (.loop (u8 c.payload 0)) c 0 := by
    have hu : (u.loop (u8 c.payload 0)).inject = none := hfree
    rw [ctrlInjectEffect, if_pos hshape, State.endInject, hu]
    rfl
  refine ⟨_, congrArg Host.Outcome.next ((hrun _).trans heff), ?_, ?_⟩
  · exact (State.doneOn_finished ..).of_silent hsilent
  · exact u.doneOn_frame 0x0603 (.loop (u8 c.payload 0)) c 0

/-- The reply that completes a command. -/
theorem Finished.reply {op : Nat} {c : Cmd} {b : StatusBlock} {d : List Byte} {s t : State} (h : Finished op c b d s t) :
    ∃ r, t.host.waiting = s.host.waiting ++ [r] ∧ r.tag = c.tag ∧ r.block = b := by
  obtain ⟨⟨r, hw, -, htag, -, -, -, -, -, hb, -⟩, -⟩ := h
  exact ⟨r, hw, htag, hb⟩

/-- Two commands answered one after the other. -/
theorem Finished.reply_reply {op op' : Nat} {c c' : Cmd} {b b' : StatusBlock} {d d' : List Byte} {s t u : State}
    (h : Finished op c b d s t) (h' : Finished op' c' b' d' t u) :
    ∃ r1 r2, u.host.waiting = s.host.waiting ++ [r1, r2] ∧ r1.tag = c.tag ∧ r1.block = b ∧ r2.tag = c'.tag ∧ r2.block = b' := by
  obtain ⟨r1, hw1, htag1, hb1⟩ := h.reply
  obtain ⟨r2, hw2, htag2, hb2⟩ := h'.reply
  exact ⟨r1, r2, by rw [hw2, hw1, List.append_assoc]; rfl, htag1, hb1, htag2, hb2⟩

theorem ctrlInjectStop_running {c : Cmd} {k : Inject} {s : State} (h : Accepted ctrlInjectInfo c s) (hshape : injShape c.payload = 3)
    (hk : (s.loop (u8 c.payload 0)).inject = some k) :
    ∃ t r1 r2, exec (.ctrlInjectStop c) s = .next t ∧ (t.loop (u8 c.payload 0)).inject = none ∧
      t.host.waiting = s.host.waiting ++ [r1, r2] ∧ r1.tag = k.cmd.tag ∧ r1.block = s.block 0 0 k.index ∧ r2.tag = c.tag ∧
      r2.block = s.block 0 0 k.index ∧ t = { s with host := t.host, motion := { s.motion with loops := t.motion.loops } } := by
  obtain ⟨j, -, hrun⟩ := State.run_from h
  let n := u8 c.payload 0
  let u := (s.withJournal j).onLoop n fun l => { l with inject := none, inj := 0 }
  let v := u.doneOn 0x0603 (.loop n) k.cmd k.index
  have heff : ctrlInjectEffect c (s.withJournal j) = v.doneOn 0x0603 (.loop n) c k.index := by
    have hu : ((s.withJournal j).loop (u8 c.payload 0)).inject = some k := hk
    rw [ctrlInjectEffect, if_pos hshape, State.endInject, hu]
    rfl
  have hfirst := u.doneOn_frame 0x0603 (.loop n) k.cmd k.index
  have hlast := v.doneOn_frame 0x0603 (.loop n) c k.index
  have hb : v.block 0 0 k.index = s.block 0 0 k.index := (congrArg (State.block 0 0 k.index) hfirst).trans rfl
  obtain ⟨r1, r2, hw, htag1, hb1, htag2, hb2⟩ :=
    (u.doneOn_finished 0x0603 (.loop n) k.cmd k.index).reply_reply (v.doneOn_finished 0x0603 (.loop n) c k.index)
  refine ⟨_, r1, r2, congrArg Host.Outcome.next ((hrun _).trans heff), ?_, hw, htag1, hb1, htag2, hb2.trans hb, ?_⟩
  · rw [hlast]
    change (v.loop n).inject = none
    rw [show v.loop n = u.loop n from by rw [show v = _ from hfirst]; rfl]
    exact congrArg Loop.inject (State.loop_onLoop_same (State.lt_of_inject hk))
  · generalize v.doneOn 0x0603 (.loop n) c k.index = t at hlast
    rw [hlast, show v = _ from hfirst]
    rfl

/-! ### Cameo -/

theorem State.endCapture_idle {s : State} (h : s.cameo.running = false) : s.endCapture = s := by
  unfold State.endCapture
  split
  · exact if_neg (by simp [h])
  · rfl

theorem State.endCapture_running {k : Cmd} {s : State} (h : s.cameo.running = true) (hk : s.cameo.cmd = some k) :
    s.endCapture = ((s.onCameo fun c => { c with st := .idle, cmd := none }).applied (.loop s.cameo.loop) k
      (s.block stFaultMotion 3 0)).finishWith 0x0604 k (s.block stFaultMotion 3 0) [] := by
  rw [State.endCapture, hk]
  exact if_pos h

theorem cameoStop_idle {c : Cmd} {s : State} (h : Accepted cameoArmInfo c s) (hstop : u8 c.payload 1 = 4) (hidle : s.cameo.running = false) :
    ∃ t, exec (.cameoStop c) s = .next t ∧ Finished 0x0604 c (s.block 0 0 0) [] s t ∧ t = { s with host := t.host } := by
  obtain ⟨j, hsilent, hrun⟩ := State.run_from h
  have heff : cameoArmEffect c (s.withJournal j) = (s.withJournal j).doneOn 0x0604 (.loop (u8 c.payload 0)) c 0 := by
    rw [cameoArmEffect, State.endCapture_idle (s := s.withJournal j) hidle]
    exact if_pos hstop
  refine ⟨_, congrArg Host.Outcome.next ((hrun _).trans heff), ?_, ?_⟩
  · exact (State.doneOn_finished ..).of_silent hsilent
  · exact (s.withJournal j).doneOn_frame 0x0604 (.loop (u8 c.payload 0)) c 0

theorem cameoStop_running {c k : Cmd} {s : State} (h : Accepted cameoArmInfo c s) (hstop : u8 c.payload 1 = 4)
    (hr : s.cameo.running = true) (hk : s.cameo.cmd = some k) :
    ∃ t r1 r2, exec (.cameoStop c) s = .next t ∧ t.cameo.st = .idle ∧
      t.host.waiting = s.host.waiting ++ [r1, r2] ∧ r1.tag = k.tag ∧ r1.block = s.block 0x24 3 0 ∧ r2.tag = c.tag ∧
      r2.block = s.block 0 0 0 ∧ t = { s with host := t.host, motion := { s.motion with cameo := t.cameo } } := by
  obtain ⟨j, -, hrun⟩ := State.run_from h
  let u := (s.withJournal j).onCameo fun c => { c with st := .idle, cmd := none }
  let b := s.block stFaultMotion 3 0
  let v := (u.applied (.loop s.cameo.loop) k b).finishWith 0x0604 k b []
  have heff : cameoArmEffect c (s.withJournal j) = v.doneOn 0x0604 (.loop (u8 c.payload 0)) c 0 := by
    rw [cameoArmEffect, State.endCapture_running (s := s.withJournal j) hr hk]
    exact if_pos hstop
  have hfirst := u.appliedWith_frame (.loop s.cameo.loop) 0x0604 k b []
  have hlast := v.doneOn_frame 0x0604 (.loop (u8 c.payload 0)) c 0
  have hb : v.block 0 0 0 = s.block 0 0 0 := (congrArg (State.block 0 0 0) hfirst).trans rfl
  obtain ⟨r1, r2, hw, htag1, hb1, htag2, hb2⟩ :=
    (u.appliedWith_finished (.loop s.cameo.loop) 0x0604 k b []).reply_reply (v.doneOn_finished 0x0604 (.loop (u8 c.payload 0)) c 0)
  refine ⟨_, r1, r2, congrArg Host.Outcome.next ((hrun _).trans heff), ?_, hw, htag1, hb1, htag2, hb2.trans hb, ?_⟩
  · rw [hlast]
    change v.cameo.st = .idle
    rw [show v = _ from hfirst]
    rfl
  · generalize v.doneOn 0x0604 (.loop (u8 c.payload 0)) c 0 = t at hlast
    rw [hlast, show v = _ from hfirst]
    rfl

/-- The capture that a CAMEO_ARM asks for, before its first sample. -/
def captureOf (c : Cmd) (epoch : Nat) : Cameo :=
  { st := if u8 c.payload 1 = 0 then .capturing else .armed, cmd := some c, loop := u8 c.payload 0, trigger := u8 c.payload 1,
    decimate := u8 c.payload 2, sigs := (List.range 4).map fun k => u8 c.payload (4 + k), pre := u16 c.payload 8, phase := 0,
    samples := [], trigIndex := 0, before := epoch }

theorem cameoArmEffect_arm {c : Cmd} {s : State} (harm : u8 c.payload 1 ≠ 4) (hidle : s.cameo.running = false) :
    cameoArmEffect c s =
      (s.onCameo fun _ => captureOf c (s.loop (u8 c.payload 0)).epoch).setPending (.loop (u8 c.payload 0)) c := by
  rw [cameoArmEffect, State.endCapture_idle hidle]
  refine (if_neg harm).trans (congrArg (State.setPending _ c) ?_)
  by_cases ht : u8 c.payload 1 = 0
  · refine (if_pos (by simp [State.onCameo, ht])).trans ?_
    simp [State.onCameo, captureOf, ht, State.onMotion]
  · refine (if_neg (by simp [State.onCameo, ht])).trans ?_
    simp [captureOf, ht]

theorem cameoArm_row {c : Cmd} {s : State} (h : Accepted cameoArmInfo c s) (harm : u8 c.payload 1 ≠ 4) (hidle : s.cameo.running = false) :
    ∃ t, exec (.cameoArm c) s = .next t ∧ Silent c s t ∧ t.cameo = captureOf c (s.loop (u8 c.payload 0)).epoch ∧
      t = { s with host := t.host, motion := { s.motion with cameo := t.cameo } } := by
  obtain ⟨j, hsilent, hrun⟩ := State.run_from h
  refine ⟨_, congrArg Host.Outcome.next ((hrun _).trans (cameoArmEffect_arm (s := s.withJournal j) harm hidle)), ?_, rfl, rfl⟩
  exact hsilent.trans ((Silent.of_host (s := s.withJournal j) rfl).trans (State.setPending_silent ..))

theorem cameoCaptureComplete_open {s : State} (h : s.cameo.samples.length < 16384) : cameoCaptureComplete s = s :=
  if_neg fun hc => absurd (of_decide_eq_true (Bool.and_eq_true_iff.1 hc).2) (Nat.not_le.2 h)

theorem cameoCaptureComplete_full {k : Cmd} {s : State} (hst : s.cameo.st = .capturing) (hk : s.cameo.cmd = some k)
    (hfull : 16384 ≤ s.cameo.samples.length) : ∃ t, exec .cameoCaptureComplete s = .next t ∧
      t.motion = { s.motion with cameo := { s.cameo with st := .complete, cmd := none } } ∧
      Finished 0x0604 k (s.block 0 0 s.cameo.trigIndex) [] s t ∧ t = { s with host := t.host, motion := t.motion } := by
  let u := s.onCameo fun c => { c with st := .complete, cmd := none }
  have hstep : cameoCaptureComplete s = u.doneOn 0x0604 (.loop s.cameo.loop) k s.cameo.trigIndex := by
    refine (if_pos (by simp [hst, cameoSize, hfull])).trans ?_
    rw [hk]
  have hframe := u.doneOn_frame 0x0604 (.loop s.cameo.loop) k s.cameo.trigIndex
  refine ⟨_, congrArg Host.Outcome.next hstep, congrArg State.motion hframe, (State.doneOn_finished ..).of_host rfl, ?_⟩
  generalize u.doneOn 0x0604 (.loop s.cameo.loop) k s.cameo.trigIndex = t at hframe
  rw [hframe]
  rfl

theorem cameoRead_row {c : Cmd} {s : State} (h : Accepted cameoReadInfo c s) : ∃ t, exec (.cameoRead c) s = .next t ∧
    Finished 0x0605 c (s.block 0 0 s.cameo.trigIndex)
      (((List.range (u16 c.payload 2)).map fun i => s.cameo.sampleBytes (u16 c.payload 0 + i)).flatten) s t ∧
    t = { s with host := t.host } := by
  obtain ⟨j, hsilent, hrun⟩ := State.run_from h
  refine ⟨_, congrArg Host.Outcome.next (hrun _), ?_, State.finish_frame _ _ _ _ _ _ (s.withJournal j)⟩
  exact (finish_finished 0x0605 c stOk 0 s.cameo.trigIndex _ (s.withJournal j)).of_silent hsilent

/-! ### CTRL_STATUS -/

theorem State.clearLoop_frame (n m : Nat) (s : State) :
    s.clearLoop n m = { s with motion := { s.motion with loops := (s.clearLoop n m).motion.loops,
                                                         galvoShort := (s.clearLoop n m).motion.galvoShort } } := rfl

theorem State.loop_clearLoop_same {n : Nat} (m : Nat) {s : State} (h : n < s.motion.loops.length) :
    (s.clearLoop n m).loop n =
      { s.loop n with arithSat := (s.loop n).arithSat && !bit m 2, outSat := (s.loop n).outSat && !bit m 3,
                      outSatLong := (s.loop n).outSatLong && !bit m 4, intClamp := (s.loop n).intClamp && !bit m 5,
                      ctrlOverrun := (s.loop n).ctrlOverrun && !bit m 6, miss := (s.loop n).miss && !bit m 7 } :=
  State.loop_onLoop_same h

theorem State.loop_clearLoop_ne {n k : Nat} (m : Nat) {s : State} (h : k ≠ n) : (s.clearLoop n m).loop k = s.loop k :=
  State.loop_onLoop_ne h

/-- The answer to a CTRL_STATUS, written into the loop's block unless it ran out of sequence. -/
def State.statusAnswer (n : Nat) (c : Cmd) (b : StatusBlock) (s : State) : State :=
  (if c.unseq then s else s.applied (.loop n) c b).finishWith 0x0606 c b (s.ctrlStatus n)

theorem State.statusAnswer_frame (n : Nat) (c : Cmd) (b : StatusBlock) (s : State) :
    s.statusAnswer n c b = { s with host := (s.statusAnswer n c b).host } := by
  unfold State.statusAnswer
  split
  · exact State.finishWith_frame ..
  · exact State.appliedWith_frame ..

theorem State.statusAnswer_finished (n : Nat) (c : Cmd) (b : StatusBlock) (s : State) :
    Finished 0x0606 c b (s.ctrlStatus n) s (s.statusAnswer n c b) := by
  unfold State.statusAnswer
  split
  · exact finishWith_finished ..
  · exact State.appliedWith_finished ..

/-- Does a CTRL_STATUS ask to clear a fault that is latched? -/
def State.asksClear (c : Cmd) (s : State) : Prop := bit (u8 c.payload 1) 0 = true ∧ (s.loop (u8 c.payload 0)).inFault = true

theorem State.inFault_clearLoop (n m k : Nat) (s : State) : ((s.clearLoop n m).loop k).inFault = (s.loop k).inFault := by
  by_cases h : k < s.motion.loops.length
  · by_cases hk : k = n
    · subst hk
      rw [State.loop_clearLoop_same m h]
      rfl
    · rw [State.loop_clearLoop_ne m hk]
  · have hlen : (s.clearLoop n m).motion.loops.length = s.motion.loops.length := by
      simp [State.clearLoop, State.onLoop, State.onMotion]
    simp only [State.loop]
    rw [List.getD_eq_default _ _ (by omega), List.getD_eq_default _ _ (by omega)]

theorem ctrlStatusEffect_plain {c : Cmd} {s : State} (h : ¬ s.asksClear c) :
    ctrlStatusEffect c s = (s.clearLoop (u8 c.payload 0) (u16 c.payload 2)).statusAnswer (u8 c.payload 0) c
      ((s.clearLoop (u8 c.payload 0) (u16 c.payload 2)).block 0 0
        ((s.clearLoop (u8 c.payload 0) (u16 c.payload 2)).loop (u8 c.payload 0)).st.code) := by
  have hask : (bit (u8 c.payload 1) 0 && ((s.clearLoop (u8 c.payload 0) (u16 c.payload 2)).loop (u8 c.payload 0)).inFault) = false := by
    rw [State.inFault_clearLoop]
    simpa [State.asksClear] using h
  simp only [ctrlStatusEffect, hask]
  rfl

theorem ctrlStatusEffect_refused {c : Cmd} {s : State} (h : s.asksClear c)
    (hc : (s.clearLoop (u8 c.payload 0) (u16 c.payload 2)).causeEnded (u8 c.payload 0) = false) :
    ctrlStatusEffect c s = (s.clearLoop (u8 c.payload 0) (u16 c.payload 2)).statusAnswer (u8 c.payload 0) c
      ((s.clearLoop (u8 c.payload 0) (u16 c.payload 2)).block stFaultMotion 1
        ((s.clearLoop (u8 c.payload 0) (u16 c.payload 2)).loop (u8 c.payload 0)).st.code) := by
  obtain ⟨hbit, hf⟩ := h
  rw [← State.inFault_clearLoop (u8 c.payload 0) (u16 c.payload 2)] at hf
  simp only [ctrlStatusEffect, hbit, hf, hc]
  rfl

theorem ctrlStatusEffect_cleared {c : Cmd} {s : State} (h : s.asksClear c)
    (hc : (s.clearLoop (u8 c.payload 0) (u16 c.payload 2)).causeEnded (u8 c.payload 0) = true) :
    ctrlStatusEffect c s = ((s.clearLoop (u8 c.payload 0) (u16 c.payload 2)).unlatch (u8 c.payload 0)).statusAnswer (u8 c.payload 0) c
      (((s.clearLoop (u8 c.payload 0) (u16 c.payload 2)).unlatch (u8 c.payload 0)).block 0 0
        (((s.clearLoop (u8 c.payload 0) (u16 c.payload 2)).unlatch (u8 c.payload 0)).loop (u8 c.payload 0)).st.code) := by
  obtain ⟨hbit, hf⟩ := h
  rw [← State.inFault_clearLoop (u8 c.payload 0) (u16 c.payload 2)] at hf
  simp only [ctrlStatusEffect, hbit, hf, hc]
  rfl

/-! ### A latched fault that is cleared -/

theorem State.clearSource_frame (src : Nat) (s : State) :
    s.clearSource src = { s with sched := (s.clearSource src).sched } ∧ (s.clearSource src).sched.src = s.sched.src &&& ~~~ bit6 src := by
  simp only [State.clearSource]
  split <;> exact ⟨rfl, rfl⟩

theorem State.motionCheck_frame (s : State) : s.motionCheck = { s with sched := s.motionCheck.sched } := by
  unfold State.motionCheck
  split
  · rfl
  · exact (State.clearSource_frame srcMotion s).1

/-- With no loop in fault the motion source is clear. -/
theorem State.motionCheck_src {s : State} (h : ∀ l ∈ s.motion.loops, l.inFault = false) :
    s.motionCheck.sched.src.getLsbD 2 = false := by
  have hnone : ¬ (s.motion.loops.any fun l => l.inFault && bit l.faultAction 0) = true := by
    simp +contextual [h]
  rw [State.motionCheck, if_neg hnone, (State.clearSource_frame srcMotion s).2]
  simp [bit6, srcMotion]

theorem Loop.enter_st (p c : List Byte) (l : Loop) : (l.enter p c).st ≠ .fault := by
  unfold Loop.enter
  split
  · simp
  · split <;> simp

/-- A loop behind its cleared fault. -/
def Loop.unlatched (p c : List Byte) (l : Loop) : Loop :=
  { l.enter p c with faultCause := 0, faultAction := 0, feCount := 0, innovCount := 0, overruns := 0, feRaised := false,
                     innovRaised := false, gapRaised := false }

theorem State.unlatch_eq (n : Nat) (s : State) :
    s.unlatch n = (s.onLoop n (Loop.unlatched (s.sets.active.loops.getD n []) (s.sets.active.coefs.getD n []))).motionCheck := rfl

theorem State.unlatch_frame (n : Nat) (s : State) :
    s.unlatch n = { s with
      sched := (s.unlatch n).sched
      motion := { s.motion with
        loops := s.motion.loops.modify n (Loop.unlatched (s.sets.active.loops.getD n []) (s.sets.active.coefs.getD n [])) } } := by
  conv_lhs => rw [State.unlatch_eq, State.motionCheck_frame]
  rfl

theorem State.unlatch_loop {n : Nat} {s : State} (h : n < s.motion.loops.length) :
    (s.unlatch n).loop n = Loop.unlatched (s.sets.active.loops.getD n []) (s.sets.active.coefs.getD n []) (s.loop n) := by
  rw [State.unlatch_frame]
  exact State.loop_onLoop_same h

theorem State.unlatch_src {n : Nat} {s : State} (h : ∀ l ∈ (s.unlatch n).motion.loops, l.inFault = false) :
    (s.unlatch n).sched.src.getLsbD 2 = false := by
  refine State.motionCheck_src fun l hl => h l ?_
  rw [State.unlatch_frame]
  exact hl

theorem mem_loops_two {s : State} (hlen : s.motion.loops.length = 2) {l : Loop} (h : l ∈ s.motion.loops) :
    l = s.loop 0 ∨ l = s.loop 1 := by
  obtain ⟨i, hi, rfl⟩ := List.mem_iff_getElem.1 h
  obtain rfl | rfl : i = 0 ∨ i = 1 := by omega
  · exact .inl (by simp [State.loop, hlen])
  · exact .inr (by simp [State.loop, hlen])

theorem ctrlStatus_loop {c : Cmd} {s : State} (h : Accepted ctrlStatusInfo c s) : u8 c.payload 0 ≤ 1 := by
  simpa [chk] using firstFail_eq_ok.1 h.fields _ (List.mem_cons_self ..)

theorem ctrlStatus_plain {c : Cmd} {s : State} (h : Accepted ctrlStatusInfo c s) (hlen : s.motion.loops.length = 2) (hask : ¬ s.asksClear c) :
    let n := u8 c.payload 0
    let m := u16 c.payload 2
    ∃ t d, exec (.ctrlStatus c) s = .next t ∧ Finished 0x0606 c (s.block 0 0 (s.loop n).st.code) d s t ∧
      t.loop n = (s.clearLoop n m).loop n ∧ t.loop (1 - n) = s.loop (1 - n) ∧
      t = { s with host := t.host, motion := { s.motion with loops := t.motion.loops, galvoShort := t.motion.galvoShort } } := by
  intro n m
  obtain ⟨j, hsilent, hrun⟩ := State.run_from h
  have hn : n ≤ 1 := ctrlStatus_loop h
  let u := (s.withJournal j).clearLoop n m
  have hframe := u.statusAnswer_frame n c (u.block 0 0 (u.loop n).st.code)
  have hst : (u.loop n).st = (s.loop n).st :=
    (congrArg Loop.st (State.loop_clearLoop_same (s := s.withJournal j) m (by change n < s.motion.loops.length; omega))).trans rfl
  refine ⟨_, u.ctrlStatus n, congrArg Host.Outcome.next ((hrun _).trans (ctrlStatusEffect_plain (s := s.withJournal j) hask)), ?_, ?_, ?_, ?_⟩
  · rw [← hst]
    exact ((u.statusAnswer_finished n c _).of_host rfl).of_silent hsilent
  · rw [hframe]
    rfl
  · rw [hframe]
    exact State.loop_clearLoop_ne (s := s.withJournal j) m (one_sub_ne hn)
  · rw [hframe]
    rfl

theorem ctrlStatus_refused {c : Cmd} {s : State} (h : Accepted ctrlStatusInfo c s) (hask : s.asksClear c)
    (hc : (s.clearLoop (u8 c.payload 0) (u16 c.payload 2)).causeEnded (u8 c.payload 0) = false) :
    ∃ t d, exec (.ctrlStatus c) s = .next t ∧ (t.loop (u8 c.payload 0)).st = .fault ∧
      Finished 0x0606 c (s.block 0x24 1 3) d s t ∧ t = { s with host := t.host, motion := t.motion } := by
  obtain ⟨j, hsilent, hrun⟩ := State.run_from h
  let n := u8 c.payload 0
  let u := (s.withJournal j).clearLoop n (u16 c.payload 2)
  have hf : (u.loop n).st = .fault := by
    have hin := (State.inFault_clearLoop n (u16 c.payload 2) n (s.withJournal j)).trans hask.2
    simpa [Loop.inFault] using hin
  have hframe := u.statusAnswer_frame n c (u.block stFaultMotion 1 (u.loop n).st.code)
  refine ⟨_, u.ctrlStatus n, congrArg Host.Outcome.next ((hrun _).trans (ctrlStatusEffect_refused (s := s.withJournal j) hask hc)), ?_, ?_, ?_⟩
  · rw [hframe]
    exact hf
  · have hfin := ((u.statusAnswer_finished n c (u.block stFaultMotion 1 (u.loop n).st.code)).of_host rfl).of_silent hsilent
    rw [hf] at hfin ⊢
    exact hfin
  · rw [hframe]
    rfl

theorem ctrlStatus_cleared {c : Cmd} {s : State} (h : Accepted ctrlStatusInfo c s) (hlen : s.motion.loops.length = 2) (hask : s.asksClear c)
    (hc : (s.clearLoop (u8 c.payload 0) (u16 c.payload 2)).causeEnded (u8 c.payload 0) = true) :
    ∃ t d, exec (.ctrlStatus c) s = .next t ∧ (t.loop (u8 c.payload 0)).st ≠ .fault ∧ (t.loop (u8 c.payload 0)).faultCause = 0 ∧
      (t.loop (u8 c.payload 0)).faultAction = 0 ∧ Finished 0x0606 c (s.block 0 0 (t.loop (u8 c.payload 0)).st.code) d s t ∧
      ((t.loop 0).inFault = false → (t.loop 1).inFault = false → t.sched.src.getLsbD 2 = false) ∧
      t = { s with host := t.host, motion := t.motion, sched := t.sched } := by
  obtain ⟨j, hsilent, hrun⟩ := State.run_from h
  let n := u8 c.payload 0
  have hn : n ≤ 1 := ctrlStatus_loop h
  let u := (s.withJournal j).clearLoop n (u16 c.payload 2)
  let v := u.unlatch n
  have hu : u.motion.loops.length = 2 := by
    change (s.motion.loops.modify _ _).length = 2
    rw [List.length_modify, hlen]
  have hv : v = _ := u.unlatch_frame n
  have hvlen : v.motion.loops.length = 2 := by
    rw [hv]
    exact (List.length_modify ..).trans hu
  have hloop := State.unlatch_loop (n := n) (s := u) (by omega)
  have hframe := v.statusAnswer_frame n c (v.block 0 0 (v.loop n).st.code)
  have hfin := v.statusAnswer_finished n c (v.block 0 0 (v.loop n).st.code)
  have hstep := (hrun _).trans (ctrlStatusEffect_cleared (s := s.withJournal j) hask hc)
  have hsame : ∀ k, (v.statusAnswer n c (v.block 0 0 (v.loop n).st.code)).loop k = v.loop k := fun k => by rw [hframe]; rfl
  refine ⟨_, v.ctrlStatus n, congrArg Host.Outcome.next hstep, ?_, ?_, ?_, ?_, fun h0 h1 => ?_, ?_⟩
  · rw [hsame, hloop]
    exact Loop.enter_st _ _ (u.loop n)
  · rw [hsame, hloop]
    rfl
  · rw [hsame, hloop]
    rfl
  · rw [hsame]
    have hb : v.block 0 0 (v.loop n).st.code = s.block 0 0 (v.loop n).st.code :=
      (congrArg (State.block 0 0 (v.loop n).st.code) hv).trans rfl
    exact hb ▸ (hfin.of_host (congrArg State.host hv)).of_silent hsilent
  · rw [hframe]
    refine State.unlatch_src fun l hl => ?_
    rw [hsame] at h0 h1
    obtain rfl | rfl := mem_loops_two hvlen hl
    · exact h0
    · exact h1
  · generalize v.statusAnswer n c (v.block 0 0 (v.loop n).st.code) = t at hframe
    rw [hframe, hv]
    rfl

/-! ### MOTION_RECORD -/

theorem State.refreshPlan_plan (s : State) : s.refreshPlan = { s with sched := { s.sched with
    load := s.refreshPlan.sched.load, ceiling := s.refreshPlan.sched.ceiling, planOver := s.refreshPlan.sched.planOver } } := rfl

/-- A new motion record and the plan that follows it. -/
def State.withMotionRecord (c : Cmd) (s : State) : State :=
  (s.onMotion fun m => { m with record := slice c.payload 0 12 ++ zeros 4 }).refreshPlan

theorem State.withMotionRecord_frame (c : Cmd) (s : State) : s.withMotionRecord c =
    { s with motion := { s.motion with record := slice c.payload 0 12 ++ zeros 4 }, sched := { s.sched with
      load := (s.withMotionRecord c).sched.load, ceiling := (s.withMotionRecord c).sched.ceiling,
      planOver := (s.withMotionRecord c).sched.planOver } } := rfl

theorem motionRecord_row {c : Cmd} {s : State} (h : Accepted motionRecordInfo c s) : ∃ t, exec (.motionRecord c) s = .next t ∧
    t.motion = { s.motion with record := slice c.payload 0 12 ++ zeros 4 } ∧
    (bit (u8 c.payload 12) 0 = false → Finished 0x0607 c (s.block 0 0 0) [] s t ∧ t.health = s.health) ∧
    (bit (u8 c.payload 12) 0 = true → Silent c s t) ∧
    t = { s with health := t.health, host := t.host, motion := t.motion, nvm := t.nvm,
                 sched := { s.sched with load := t.sched.load, ceiling := t.sched.ceiling, planOver := t.sched.planOver } } := by
  obtain ⟨j, hsilent, hrun⟩ := State.run_from h
  let u := (s.withJournal j).withMotionRecord c
  have hsilentU : Silent c s u := hsilent.trans (Silent.of_host rfl)
  cases hp : bit (u8 c.payload 12) 0 with
  | false =>
    have heff : motionRecordEffect c (s.withJournal j) = u.doneOn 0x0607 (.record recMotion) c 0 := if_neg (by simp [hp])
    have hframe := u.doneOn_frame 0x0607 (.record recMotion) c 0
    have hfin := (u.doneOn_finished 0x0607 (.record recMotion) c 0).of_silent hsilentU
    refine ⟨_, congrArg Host.Outcome.next ((hrun _).trans heff), ?_, fun _ => ⟨hfin, ?_⟩, (nomatch ·), ?_⟩
    · exact congrArg State.motion hframe
    · exact (congrArg State.health hframe).trans rfl
    · generalize u.doneOn 0x0607 (.record recMotion) c 0 = t at hframe
      rw [hframe]
      rfl
  | true =>
    have heff : motionRecordEffect c (s.withJournal j) = u.storeAfter 0x0607 recMotion c (u.block stOk 0 0) := if_pos hp
    obtain ⟨q, w, hframe⟩ := u.storeAfter_frame 0x0607 recMotion c (u.block stOk 0 0)
    refine ⟨_, congrArg Host.Outcome.next ((hrun _).trans heff), ?_, (nomatch ·), fun _ => hsilentU.trans (State.storeAfter_silent ..), ?_⟩
    · exact congrArg State.motion hframe
    · rw [hframe]
      rfl

/-- Settles O31: each command and each of its two ends is its own row. -/
theorem controlCommandsTakeEffect : Obligations.ControlCommandsTakeEffect := by
  refine ⟨fun c s _ hshape => ⟨fun h => congrArg Host.Outcome.next (ctrlInject_waits hshape h), fun h hswaps hfree hst => ?_,
      fun h hswaps hfree hst => ctrlInject_left h hshape hswaps hfree hst⟩,
    fun c s h hshape => ⟨ctrlInjectStop_idle h hshape, fun k hk => ctrlInjectStop_running h hshape hk⟩,
    fun n s => ⟨fun h => congrArg Host.Outcome.next (injectEnd_idle h), fun j h => ⟨fun hopen => ?_, injectEnd_due h⟩⟩,
    fun c s h harm hidle => ?_,
    fun c s h hstop => ⟨cameoStop_idle h hstop, fun k hr hk => cameoStop_running h hstop hr hk⟩,
    fun k s hst hk => ⟨fun h => congrArg Host.Outcome.next (cameoCaptureComplete_open h), cameoCaptureComplete_full hst hk⟩,
    fun c s h => cameoRead_row h, fun c s h hlen => ⟨fun hask => ?_, ctrlStatus_refused h, ctrlStatus_cleared h hlen⟩,
    fun c s h => motionRecord_row h⟩
  · obtain ⟨t, hstep, hsilent, hinject, hother, hframe⟩ := ctrlInject_start h hshape hswaps hfree hst
    exact ⟨t, _, hstep, hsilent, hinject, rfl, rfl, rfl, rfl, rfl, rfl, hother, hframe⟩
  · exact congrArg Host.Outcome.next ((injectEnd_running h).trans (if_neg (by omega)))
  · obtain ⟨t, hstep, hsilent, hcameo, hframe⟩ := cameoArm_row h harm hidle
    exact ⟨t, hstep, hsilent, congrArg Cameo.st hcameo, congrArg Cameo.cmd hcameo, congrArg Cameo.loop hcameo, congrArg Cameo.decimate hcameo,
      congrArg Cameo.pre hcameo, congrArg Cameo.samples hcameo, hframe⟩
  · obtain ⟨t, d, hstep, hfin, hsame, hother, hframe⟩ := ctrlStatus_plain h hlen hask
    exact ⟨t, d, hstep, hfin, hsame.trans (State.loop_clearLoop_same _ (by have := ctrlStatus_loop h; omega)), hother, hframe⟩

end Sys2Proof.Machine

/-!
## Bucket edges of the ledger (R227, Table 8.4)
-/
namespace Sys2Proof.Machine

/-- What charging can change: the ledger's rows and the emitters. -/
def ChargedTo (s t : State) : Prop :=
  ∃ rows emitters, t = { s with emission := { s.emission with rows := rows, emitters := emitters } }

theorem ChargedTo.refl (s : State) : ChargedTo s s := ⟨s.emission.rows, s.emission.emitters, rfl⟩

theorem ChargedTo.trans {s t u : State} (h : ChargedTo s t) (k : ChargedTo t u) : ChargedTo s u := by
  obtain ⟨rows, emitters, rfl⟩ := h
  obtain ⟨rows', emitters', rfl⟩ := k
  exact ⟨rows', emitters', rfl⟩

theorem State.onEmitter_charged (e : Nat) (f : Emitter → Emitter) (s : State) : ChargedTo s (s.onEmitter e f) := ⟨_, _, rfl⟩

theorem State.charge_charged (e de : Nat) (s : State) : ChargedTo s (s.charge e de) := ⟨_, _, rfl⟩

theorem State.unreserve_charged (e q : Nat) (s : State) : ChargedTo s (s.unreserve e q) := ⟨_, _, rfl⟩

theorem State.settle_charged (e : Nat) (s : State) : ChargedTo s (s.settle e) := by
  simp only [State.settle]
  split
  · exact (State.charge_charged ..).trans ((State.unreserve_charged ..).trans (State.onEmitter_charged ..))
  · exact (State.charge_charged ..).trans (State.onEmitter_charged ..)
  · exact (State.charge_charged ..).trans (State.onEmitter_charged ..)
  · exact (State.charge_charged ..).trans (State.onEmitter_charged ..)
  · exact ChargedTo.refl s

theorem State.settle_foldl_charged (l : List Nat) (s : State) : ChargedTo s (l.foldl (fun s e => s.settle e) s) := by
  induction l generalizing s with
  | nil => exact ChargedTo.refl s
  | cons e l ih => exact (s.settle_charged e).trans (ih _)

theorem State.settleAll_charged (s : State) : ChargedTo s s.settleAll := s.settle_foldl_charged _

/-- Clearing the LEDGER cause keeps every part of the emission side but the latch. -/
theorem State.tryClearLedger_frame (s : State) : ∃ latched, s.tryClearLedger =
    { s with sched := s.tryClearLedger.sched, emission := { s.emission with ledgerLatched := latched } } := by
  unfold State.tryClearLedger
  split
  · exact ⟨false, rfl⟩
  · exact ⟨s.emission.ledgerLatched, rfl⟩

theorem ledgerBucketEdge_early {w : Nat} {s : State} (h : s.clk.tickCount / bucketTicks w ≤ s.emission.edges.getD (w - 1) 0) :
    ledgerBucketEdge w s = s := by
  unfold ledgerBucketEdge
  split
  · rfl
  · exact if_pos h

/-- The next bucket of window `w` comes into use. -/
def State.nextBucket (w : Nat) (edges : List Nat) (s : State) : State :=
  (s.onEmission fun m => { m.advance w with edges := edges }).tryClearLedger

/-- The next bucket advances the rows, and may clear the LEDGER cause. -/
theorem State.nextBucket_frame (w : Nat) (edges : List Nat) (s : State) :
    (∃ latched, (s.nextBucket w edges).emission = { s.emission.advance w with ledgerLatched := latched, edges := edges }) ∧
      s.nextBucket w edges = { s with emission := (s.nextBucket w edges).emission, sched := (s.nextBucket w edges).sched } := by
  obtain ⟨latched, hclear⟩ := (s.onEmission fun m => { m.advance w with edges := edges }).tryClearLedger_frame
  rw [← State.nextBucket] at hclear
  exact ⟨⟨latched, congrArg State.emission hclear⟩, by rw [hclear]; rfl⟩

/-- The emission side behind an edge of window `w`, but for the latch of LEDGER. -/
theorem ledgerBucketEdge_due {w : Nat} {s : State} (hw : w = 1 ∨ w = 2 ∨ w = 3)
    (h : s.emission.edges.getD (w - 1) 0 < s.clk.tickCount / bucketTicks w) : ∃ t latched edges, exec (.ledgerBucketEdge w) s = .next t ∧
      t.emission = { s.settleAll.emission.advance w with ledgerLatched := latched, edges := edges } ∧
      t = { s with emission := t.emission, sched := t.sched } := by
  have hwindow : ¬ (w = 0 || decide (3 < w)) = true := by
    obtain rfl | rfl | rfl := hw <;> decide
  obtain ⟨rows, emitters, hsettle⟩ := s.settleAll_charged
  have hstep : ∃ edges, ledgerBucketEdge w s = s.settleAll.nextBucket w edges := by
    rw [ledgerBucketEdge, if_neg hwindow, if_neg (Nat.not_le.2 h)]
    generalize s.settleAll = v
    exact ⟨_, rfl⟩
  obtain ⟨edges, hstep⟩ := hstep
  generalize s.settleAll = v at hsettle hstep ⊢
  obtain ⟨⟨latched, hem⟩, hframe⟩ := v.nextBucket_frame w edges
  refine ⟨_, latched, edges, congrArg Host.Outcome.next hstep, hem, ?_⟩
  generalize v.nextBucket w edges = t at hframe
  rw [hframe, hsettle]

/-- Settles O38: behind `State.settleAll`, which keeps the bucket positions, an edge is `Emission.advance` of its window alone. -/
theorem bucketEdgeEmptiesTheOldestBucket : Obligations.BucketEdgeEmptiesTheOldestBucket := by
  intro s
  obtain ⟨rows, emitters, hsettle⟩ := s.settleAll_charged
  have hem : s.settleAll.emission = { s.emission with rows := rows, emitters := emitters } := congrArg State.emission hsettle
  refine ⟨fun w hw h => congrArg Host.Outcome.next (ledgerBucketEdge_early h), fun h => ?_, fun h => ?_, fun h => ?_⟩
  · obtain ⟨t, latched, edges, hstep, ht, hframe⟩ := ledgerBucketEdge_due (w := 1) (.inl rfl) h
    refine ⟨t, hstep, ?_, ?_, ?_, ?_, ?_, hframe⟩ <;> rw [ht, hem] <;> rfl
  · obtain ⟨t, latched, edges, hstep, ht, hframe⟩ := ledgerBucketEdge_due (w := 2) (.inr (.inl rfl)) h
    refine ⟨t, hstep, ?_, ?_, ?_, ?_, hframe⟩ <;> rw [ht, hem] <;> rfl
  · obtain ⟨t, latched, edges, hstep, ht, hframe⟩ := ledgerBucketEdge_due (w := 3) (.inr (.inr rfl)) h
    refine ⟨t, hstep, ?_, ?_, ?_, ?_, hframe⟩ <;> rw [ht, hem] <;> rfl

end Sys2Proof.Machine

/-!
## The commands of the angle chapter, the encoder and the camera triggers (R133 to R153)
-/
namespace Sys2Proof.Machine

/-- An angle command without a reset ahead of it runs like any other. -/
theorem State.angleRun_from {o : OpInfo} {c : Cmd} {s : State} (h : Accepted o c s) (hfree : s.angle.pendingReset = none) :
    ∃ j, Silent c s (s.withJournal j) ∧ ∀ eff : State → State, s.angleRun o c eff = eff (s.withJournal j) := by
  obtain ⟨j, hsilent, hrun⟩ := State.run_from h
  exact ⟨j, hsilent, fun eff => (if_neg (by simp [hfree])).trans (hrun eff)⟩

theorem State.angleRun_waits {o : OpInfo} {c : Cmd} {eff : State → State} {s : State} (hreset : s.angle.pendingReset.isSome = true)
    (hlive : (s.liveOf c).isSome = true) : s.angleRun o c eff = s := if_pos (by simp [hreset, hlive])

theorem State.done_finished (op : Nat) (c : Cmd) (res : Nat) (s : State) :
    Finished op c (s.block 0 0 res) [] s (s.done op c res) :=
  finish_finished ..

theorem State.done_frame (op : Nat) (c : Cmd) (res : Nat) (s : State) :
    s.done op c res = { s with host := (s.done op c res).host } :=
  s.finish_frame ..

/-- A change of the angle side that its command's answer follows. -/
theorem State.angle_then_done (op : Nat) (c : Cmd) (res : Nat) {s u : State} (hsilent : Silent c s u) (hsets : u.sets = s.sets)
    (hclk : u.clk = s.clk) : Finished op c (s.block 0 0 res) [] s (u.done op c res) := by
  have hb : s.block 0 0 res = u.block 0 0 res := (State.block_congr _ _ _ hsets hclk).symm
  rw [hb]
  exact (u.done_finished op c res).of_silent hsilent

/-! ### Resets at the zero crossing -/

theorem halfPeriod_pos (p : List Byte) : 0 < halfPeriod p := by
  have h : acFreq p < 4 := Nat.mod_lt _ (by decide)
  unfold halfPeriod
  interval_cases acFreq p <;> decide

/-- The next positive zero crossing of the running excitation. -/
def State.nextCrossing (s : State) : Nat :=
  s.angle.excStart + ((s.fineNow - s.angle.excStart) / (2 * halfPeriod s.angle.config) + 1) * (2 * halfPeriod s.angle.config)

theorem State.lt_nextCrossing (s : State) : 64 * s.clk.tickCount < s.nextCrossing := by
  have hpos : 0 < 2 * halfPeriod s.angle.config := by have := halfPeriod_pos s.angle.config; omega
  have hlt := Nat.lt_div_mul_add (a := s.fineNow - s.angle.excStart) hpos
  rw [← Nat.add_one_mul] at hlt
  have hnow : s.fineNow = 64 * s.clk.tickCount := rfl
  unfold State.nextCrossing
  omega

theorem State.requestReset_run {op : Nat} {c : Cmd} {s : State} (hexc : s.angle.exc = .run) :
    s.requestReset op c = s.onAngle fun a => { a with pendingReset := some (op, c, s.nextCrossing) } := by
  rw [State.requestReset, hexc]
  rfl

/-! ### ANGLE_CONFIG, FILTER_SYNC, ANGLE_FRAME -/

theorem angleConfig_plain {c : Cmd} {s : State} (h : Accepted angleConfigInfo c s) (hfree : s.angle.pendingReset = none)
    (hneed : resetNeeded s.angle.wanted c.payload = false) (hstore : bit (u8 c.payload 9) 0 = false) :
    ∃ t, exec (.angleConfig c) s = .next t ∧ t.angle = { s.angle with next := some c.payload } ∧
      Finished 0x0501 c (s.block 0 0 0) [] s t ∧ t = { s with angle := t.angle, host := t.host } := by
  obtain ⟨j, hsilent, hrun⟩ := State.angleRun_from h hfree
  let u := (s.withJournal j).onAngle fun a => { a with next := some c.payload }
  have heff : angleConfigEffect c (s.withJournal j) = u.done 0x0501 c 0 := by
    refine (if_neg ?_).trans (if_neg ?_)
    · simp [State.withJournal, hneed]
    · simp [hstore]
  have hframe := u.done_frame 0x0501 c 0
  refine ⟨_, congrArg Host.Outcome.next ((hrun _).trans heff), congrArg State.angle hframe,
    State.angle_then_done _ _ _ (hsilent.trans (Silent.of_host rfl)) rfl rfl, ?_⟩
  generalize u.done 0x0501 c 0 = t at hframe
  rw [hframe]
  rfl

/-- A command that waits for the next zero crossing of the running excitation. -/
theorem State.requestReset_row (op : Nat) {c : Cmd} {s u : State} (hsilent : Silent c s u) (hu : u = { s with host := u.host })
    (hexc : s.angle.exc = .run) : Silent c s (u.requestReset op c) ∧
      (u.requestReset op c).angle = { s.angle with pendingReset := some (op, c, s.nextCrossing) } ∧
      u.requestReset op c = { s with angle := (u.requestReset op c).angle, host := (u.requestReset op c).host } := by
  obtain ⟨host, rfl⟩ : ∃ host, u = { s with host := host } := ⟨_, hu⟩
  rw [State.requestReset_run (s := { s with host := host }) hexc]
  exact ⟨hsilent.trans (Silent.of_host rfl), rfl, rfl⟩

theorem angleConfig_reset {c : Cmd} {s : State} (h : Accepted angleConfigInfo c s) (hfree : s.angle.pendingReset = none)
    (hneed : resetNeeded s.angle.wanted c.payload = true) (hexc : s.angle.exc = .run) :
    ∃ t, exec (.angleConfig c) s = .next t ∧ Silent c s t ∧ t.angle = { s.angle with pendingReset := some (0x0501, c, s.nextCrossing) } ∧
      t = { s with angle := t.angle, host := t.host } := by
  obtain ⟨j, hsilent, hrun⟩ := State.angleRun_from h hfree
  have heff : angleConfigEffect c (s.withJournal j) = (s.withJournal j).requestReset 0x0501 c := if_pos hneed
  exact ⟨_, congrArg Host.Outcome.next ((hrun _).trans heff), State.requestReset_row 0x0501 hsilent rfl hexc⟩

theorem filterSync_row {c : Cmd} {s : State} (h : Accepted filterSyncInfo c s) (hfree : s.angle.pendingReset = none)
    (hexc : s.angle.exc = .run) :
    ∃ t, exec (.filterSync c) s = .next t ∧ Silent c s t ∧ t.angle = { s.angle with pendingReset := some (0x0503, c, s.nextCrossing) } ∧
      t = { s with angle := t.angle, host := t.host } := by
  obtain ⟨j, hsilent, hrun⟩ := State.angleRun_from h hfree
  exact ⟨_, congrArg Host.Outcome.next (hrun _), State.requestReset_row 0x0503 hsilent rfl hexc⟩

theorem angleFrame_row {c : Cmd} {s : State} (h : Accepted angleFrameInfo c s) (hfree : s.angle.pendingReset = none)
    (hstore : bit (u8 c.payload 5) 0 = false) :
    ∃ t, exec (.angleFrame c) s = .next t ∧ t.angle = { s.angle with zeroOffset := u32 c.payload 0, dir := bit (u8 c.payload 4) 0 } ∧
      Finished 0x0502 c (s.block 0 0 0) [] s t ∧ t = { s with angle := t.angle, host := t.host } := by
  obtain ⟨j, hsilent, hrun⟩ := State.angleRun_from h hfree
  let u := (s.withJournal j).onAngle fun a => { a with zeroOffset := u32 c.payload 0, dir := bit (u8 c.payload 4) 0 }
  have heff : angleFrameEffect c (s.withJournal j) = u.done 0x0502 c 0 := if_neg (by simp [hstore])
  have hframe := u.done_frame 0x0502 c 0
  refine ⟨_, congrArg Host.Outcome.next ((hrun _).trans heff), congrArg State.angle hframe,
    State.angle_then_done _ _ _ (hsilent.trans (Silent.of_host rfl)) rfl rfl, ?_⟩
  generalize u.done 0x0502 c 0 = t at hframe
  rw [hframe]
  rfl

/-! ### CYC_LEARN and CYC_SELECT -/

/-- The pass that a CYC_LEARN asks for, before its boundary. -/
def learnOf (c : Cmd) : Learn :=
  { cmd := c, revs := u8 c.payload 0, store := bit (u8 c.payload 1) 0, waiting := true, done := 0, boundaries := [], samples := [] }

theorem cycLearn_row {c : Cmd} {s : State} (h : Accepted cycLearnInfo c s) (hfree : s.angle.pendingReset = none)
    (hlearn : s.angle.learn = none) (hlock : s.angle.lock = .locked) : ∃ t, exec (.cycLearn c) s = .next t ∧ Silent c s t ∧
      t.angle = { s.angle with learn := some (learnOf c), learnState := 1 } ∧ t = { s with angle := t.angle, host := t.host } := by
  obtain ⟨j, hsilent, hrun⟩ := State.angleRun_from h hfree
  let u := (s.withJournal j).onAngle fun a => { a with learn := some (learnOf c), learnState := 1 }
  have hstep : cycLearn c s = cycLearnEffect c (s.withJournal j) := (if_neg (by simp [hlearn])).trans (hrun _)
  have heff : cycLearnEffect c (s.withJournal j) = u := if_pos (by simp [State.withJournal, hlock])
  exact ⟨u, congrArg Host.Outcome.next (hstep.trans heff), hsilent.trans (Silent.of_host rfl), rfl, rfl⟩

/-- While the spindle turns the table changes at the next boundary. -/
theorem State.cycReplace_turning {p : CycPending} {cmds : List (Nat × Cmd)} {s : State} (h : 65536 ≤ s.angle.pubSpeed.natAbs) :
    s.cycReplace p cmds = s.onAngle fun a => { a with cycPending := p, cycCmds := a.cycCmds ++ cmds } :=
  if_neg fun hc => absurd (of_decide_eq_true hc) (Nat.not_lt.2 h)

theorem cycSelectEffect_disable {c : Cmd} {s : State} (hm : u8 c.payload 0 = 0) :
    cycSelectEffect c s = s.cycReplace .disable [(0x0505, c)] := by
  simp [cycSelectEffect, hm]

theorem cycSelect_turning {c : Cmd} {s : State} (h : Accepted cycSelectInfo c s) (hfree : s.angle.pendingReset = none)
    (hm : u8 c.payload 0 = 0) (hspeed : 65536 ≤ s.angle.pubSpeed.natAbs) : ∃ t, exec (.cycSelect c) s = .next t ∧ Silent c s t ∧
      t.angle = { s.angle with cycPending := .disable, cycCmds := s.angle.cycCmds ++ [(0x0505, c)] } ∧
      t = { s with angle := t.angle, host := t.host } := by
  obtain ⟨j, hsilent, hrun⟩ := State.angleRun_from h hfree
  have heff := (cycSelectEffect_disable (s := s.withJournal j) hm).trans (State.cycReplace_turning (s := s.withJournal j) hspeed)
  exact ⟨_, congrArg Host.Outcome.next ((hrun _).trans heff), hsilent.trans (Silent.of_host rfl), rfl, rfl⟩

/-- Without another waiting change, a change below 1 rev/s answers its command at once. -/
theorem State.cycReplace_slow {op : Nat} {c : Cmd} {s : State} (h : s.angle.pubSpeed.natAbs < 65536) (hnone : s.angle.cycCmds = []) :
    s.cycReplace .disable [(op, c)] =
      ((s.onAngle fun a => { a with table := none, cycPending := .none, cycCmds := [(op, c)] }).done op c 0).onAngle
        fun a => { a with cycCmds := [] } := by
  refine (if_pos (decide_eq_true h)).trans ?_
  simp only [State.cycTake, State.onAngle, hnone]
  rfl

theorem Finished.congr_host {op : Nat} {c : Cmd} {b : StatusBlock} {d : List Byte} {s t u : State} (hu : u.host = t.host)
    (h : Finished op c b d s t) : Finished op c b d s u := by
  obtain ⟨⟨r, hw, hr⟩, hk⟩ := h
  exact ⟨⟨r, by rw [hu, hw], hr⟩, hk.trans (HostKept.of_host hu)⟩

theorem cycSelect_slow {c : Cmd} {s : State} (h : Accepted cycSelectInfo c s) (hfree : s.angle.pendingReset = none)
    (hm : u8 c.payload 0 = 0) (hspeed : s.angle.pubSpeed.natAbs < 65536) (hnone : s.angle.cycCmds = []) :
    ∃ t, exec (.cycSelect c) s = .next t ∧ t.angle.table = none ∧ Finished 0x0505 c (s.block 0 0 0) [] s t ∧
      t = { s with angle := t.angle, host := t.host } := by
  obtain ⟨j, hsilent, hrun⟩ := State.angleRun_from h hfree
  let u := (s.withJournal j).onAngle fun a => { a with table := none, cycPending := .none, cycCmds := [(0x0505, c)] }
  have heff := (cycSelectEffect_disable (s := s.withJournal j) hm).trans (State.cycReplace_slow (s := s.withJournal j) hspeed hnone)
  have hframe := u.done_frame 0x0505 c 0
  refine ⟨_, congrArg Host.Outcome.next ((hrun _).trans heff), congrArg (fun t => t.angle.table) hframe,
    (State.angle_then_done _ _ _ (hsilent.trans (Silent.of_host (t := u) rfl)) rfl rfl).congr_host rfl, ?_⟩
  generalize u.done 0x0505 c 0 = t at hframe
  rw [hframe]
  rfl

/-! ### ENC_CONFIG and CAM_CONFIG -/

theorem encConfig_row {c : Cmd} {s : State} (h : Accepted encConfigInfo c s) (hfree : s.angle.pendingReset = none) :
    ∃ t, exec (.encConfig c) s = .next t ∧ t.angle.encImage = c.payload ∧ t.angle.encFrozen = !(s.tracking && s.clk.pllLocked) ∧
      t.angle.encRealigned = true ∧ t.angle.realignTotal = satInc 32 s.angle.realignTotal ∧ Finished 0x0506 c (s.block 0 0 0) [] s t ∧
      t = { s with angle := t.angle, host := t.host } := by
  obtain ⟨j, hsilent, hrun⟩ := State.angleRun_from h hfree
  let u := (((s.withJournal j).onAngle fun a => { a with encImage := c.payload }).encJump).onAngle fun a =>
    { a with encFrozen := !(s.tracking && s.clk.pllLocked), encRealigned := true, realignTotal := satInc 32 a.realignTotal }
  have heff : encConfigEffect c (s.withJournal j) = u.done 0x0506 c 0 := rfl
  have hframe := u.done_frame 0x0506 c 0
  have hfin := State.angle_then_done 0x0506 c 0 (hsilent.trans (Silent.of_host (t := u) rfl)) rfl rfl
  refine ⟨_, congrArg Host.Outcome.next ((hrun _).trans heff), ?_⟩
  generalize u.done 0x0506 c 0 = t at hframe hfin
  refine ⟨?_, ?_, ?_, ?_, hfin, ?_⟩ <;> rw [hframe] <;> rfl

theorem State.cam_onCam_same {n : Nat} {f : CamPin → CamPin} {s : State} (h : n < s.angle.cams.length) :
    (s.onCam n f).cam n = f (s.cam n) := by
  simp [State.cam, State.onCam, State.onAngle, h]

theorem State.cam_onCam_ne {n k : Nat} {f : CamPin → CamPin} {s : State} (h : k ≠ n) : (s.onCam n f).cam k = s.cam k := by
  simp [State.cam, State.onCam, State.onAngle, h.symm]

/-- A camera pin behind its command: its settings at once below 1 rev/s, at the next boundary otherwise. -/
def CamPin.configured (slow : Bool) (p : List Byte) (k : CamPin) : CamPin :=
  if slow then { k with image := p, pending := none, committed := [] } else { k with pending := some p }

theorem camConfig_row {c : Cmd} {s : State} (h : Accepted camConfigInfo c s) (hfree : s.angle.pendingReset = none)
    (hn : u8 c.payload 0 < s.angle.cams.length) : ∃ t, exec (.camConfig c) s = .next t ∧
      t.cam (u8 c.payload 0) = (s.cam (u8 c.payload 0)).configured s.slow c.payload ∧ (∀ k, k ≠ u8 c.payload 0 → t.cam k = s.cam k) ∧
      Finished 0x0507 c (s.block 0 0 0) [] s t ∧ t = { s with angle := { s.angle with cams := t.angle.cams }, host := t.host } := by
  obtain ⟨j, hsilent, hrun⟩ := State.angleRun_from h hfree
  let u := (s.withJournal j).onCam (u8 c.payload 0) (CamPin.configured s.slow c.payload)
  have heff : camConfigEffect c (s.withJournal j) = u.done 0x0507 c 0 := rfl
  have hframe := u.done_frame 0x0507 c 0
  have hcam : ∀ k, (u.done 0x0507 c 0).cam k = u.cam k := fun k => by rw [hframe]; rfl
  refine ⟨_, congrArg Host.Outcome.next ((hrun _).trans heff), ?_, fun k hk => ?_,
    State.angle_then_done 0x0507 c 0 (hsilent.trans (Silent.of_host rfl)) rfl rfl, ?_⟩
  · rw [hcam]
    exact State.cam_onCam_same (s := s.withJournal j) hn
  · rw [hcam]
    exact State.cam_onCam_ne (s := s.withJournal j) hk
  · generalize u.done 0x0507 c 0 = t at hframe
    rw [hframe]
    rfl

/-! ### ANGLE_STATUS -/

/-- Changing filter slots changes the slots alone. -/
theorem State.onFslots_frame (l : List Nat) (f : FilterSlot → FilterSlot) (s : State) :
    ∃ slots, l.foldl (fun s k => s.onFslot k f) s = { s with angle := { s.angle with slots := slots } } := by
  induction l generalizing s with
  | nil => exact ⟨s.angle.slots, rfl⟩
  | cons k l ih =>
    obtain ⟨slots, h⟩ := ih (s.onFslot k f)
    exact ⟨slots, h⟩

theorem State.resetCarrier_frame (s : State) :
    ∃ slots, s.resetCarrier = { s with angle := { s.angle with slots := slots } } := by
  obtain ⟨slots, h⟩ := s.onFslots_frame (List.range 3) FilterSlot.cleared
  obtain ⟨slots', h'⟩ := ((List.range 3).foldl (fun s k => s.onFslot k FilterSlot.cleared) s).onFslots_frame (List.range 3)
    fun k => { k with unsettled := settleCount ((List.range 3).foldl (fun s k => s.onFslot k FilterSlot.cleared) s).angle.config }
  exact ⟨slots', h'.trans (by rw [h])⟩

/-- The excitation starts anew, or stands: of the angle side only its state and the filter slots move. -/
theorem State.restartExc_frame (s : State) : ∃ exc start slots,
    s.restartExc = { s with angle := { s.angle with exc := exc, excStart := start, slots := slots } } := by
  unfold State.restartExc
  split
  · obtain ⟨slots, h⟩ := (s.onAngle fun a => { a with exc := .run, excStart := s.fineNow }).resetCarrier_frame
    exact ⟨.run, s.fineNow, slots, h⟩
  · exact ⟨s.angle.exc, s.angle.excStart, s.angle.slots, rfl⟩

/-- The sticky flags that a mask leaves. -/
def Angle.cleared (m : Nat) (a : Angle) : Angle :=
  { a with excShort := a.excShort && !bit m 3, filterSat := a.filterSat && !bit m 4, speedMismatch := a.speedMismatch && !bit m 5,
           learnDiscarded := a.learnDiscarded && !bit m 6, encOverrate := a.encOverrate && !bit m 7,
           encRealigned := a.encRealigned && !bit m 8, camMissed := a.camMissed && !bit m 9, camOverlap := a.camOverlap && !bit m 10 }

theorem State.clearAngle_frame (m : Nat) (s : State) : ∃ exc start slots,
    s.clearAngle m = { s with angle := { s.angle.cleared m with exc := exc, excStart := start, slots := slots } } := by
  simp only [State.clearAngle]
  split
  · exact (s.onAngle (Angle.cleared m)).restartExc_frame
  · exact ⟨s.angle.exc, s.angle.excStart, s.angle.slots, rfl⟩

theorem LockState.code_lt (l : LockState) : l.code < 256 := by cases l <;> decide

theorem State.angleStatus_head (s : State) : ∃ d, s.angleStatus = le 1 s.angle.lock.code ++ d := by
  unfold State.angleStatus
  simp only [List.append_assoc]
  exact ⟨_, rfl⟩

theorem angleStatus_row {c : Cmd} {s : State} (h : Accepted angleStatusInfo c s) (hfree : s.angle.pendingReset = none) :
    ∃ t d, exec (.angleStatus c) s = .next t ∧ Finished 0x0508 c (s.block 0 0 s.angle.lock.code) d s t ∧ u8 d 0 = s.angle.lock.code ∧
      (∃ exc start slots, t.angle = { s.angle.cleared (u16 c.payload 0) with exc := exc, excStart := start, slots := slots }) ∧
      t = { s with angle := t.angle, host := t.host } := by
  obtain ⟨j, hsilent, hrun⟩ := State.angleRun_from h hfree
  obtain ⟨exc, start, slots, hu⟩ := (s.withJournal j).clearAngle_frame (u16 c.payload 0)
  generalize hv : (s.withJournal j).clearAngle (u16 c.payload 0) = v at hu
  have heff : angleStatusEffect c (s.withJournal j) = v.finish 0x0508 c stOk 0 v.angle.lock.code v.angleStatus := by
    rw [← hv]
    rfl
  have hframe := v.finish_frame 0x0508 c stOk 0 v.angle.lock.code v.angleStatus
  obtain ⟨d, hd⟩ := v.angleStatus_head
  have hlock : v.angle.lock = s.angle.lock := by rw [hu]; rfl
  refine ⟨_, v.angleStatus, congrArg Host.Outcome.next ((hrun _).trans heff), ?_, ?_, ⟨exc, start, slots, ?_⟩, ?_⟩
  · have hb : v.block 0 0 v.angle.lock.code = s.block 0 0 s.angle.lock.code := by rw [hu]; rfl
    exact hb ▸ (finish_finished 0x0508 c stOk 0 v.angle.lock.code v.angleStatus v).of_silent (hsilent.trans (Silent.of_host (by rw [hu])))
  · rw [hd, hlock]
    rw [u8_append_left d (i := 0) (Nat.lt_of_lt_of_eq Nat.zero_lt_one rfl)]
    exact (u8_of_byte rfl).trans (Nat.mod_eq_of_lt s.angle.lock.code_lt)
  · rw [hframe, hu]
    rfl
  · generalize v.finish 0x0508 c stOk 0 v.angle.lock.code v.angleStatus = t at hframe
    rw [hframe, hu]
    rfl

/-- Settles O28: each command is its own row; with a reset ahead `State.angleRun` runs none of them. -/
theorem angleCommandsTakeEffect : Obligations.AngleCommandsTakeEffect := by
  refine ⟨fun c s h hfree => ⟨fun hneed hstore => angleConfig_plain h hfree hneed hstore, fun hneed hexc => ?_⟩,
    fun c s h hfree hexc => ?_, fun c s h hfree hstore => angleFrame_row h hfree hstore, fun c s h hfree hlearn hlock => ?_,
    fun c s h hfree hm => ⟨cycSelect_turning h hfree hm, cycSelect_slow h hfree hm⟩, fun c s h hfree => encConfig_row h hfree,
    fun c s h hfree => ?_, fun c s h hfree => ?_, fun c s hreset hlive => ?_⟩
  · obtain ⟨t, hstep, hsilent, hangle, hframe⟩ := angleConfig_reset h hfree hneed hexc
    exact ⟨t, _, hstep, hsilent, hangle, s.lt_nextCrossing, hframe⟩
  · obtain ⟨t, hstep, hsilent, hangle, hframe⟩ := filterSync_row h hfree hexc
    exact ⟨t, _, hstep, hsilent, s.lt_nextCrossing, hangle, hframe⟩
  · obtain ⟨t, hstep, hsilent, hangle, hframe⟩ := cycLearn_row h hfree hlearn hlock
    exact ⟨t, _, hstep, hsilent, hangle, rfl, rfl, rfl, hframe⟩
  · intro n hn
    obtain ⟨t, hstep, hcam, hother, hfin, hframe⟩ := camConfig_row h hfree hn
    refine ⟨t, hstep, fun hspeed => hcam.trans (if_neg ?_), fun hspeed => hcam.trans (if_pos ?_), hother, hfin, hframe⟩
    · exact fun hc => absurd (of_decide_eq_true hc) (Nat.not_lt.2 hspeed)
    · exact decide_eq_true hspeed
  · obtain ⟨t, d, hstep, hfin, hd, ⟨exc, start, slots, hangle⟩, hframe⟩ := angleStatus_row h hfree
    refine ⟨t, d, hstep, hfin, hd, ?_, ?_, ?_, ?_, ?_, hframe⟩ <;> rw [hangle] <;> rfl
  · refine ⟨?_, ?_, ?_, ?_, ?_⟩ <;> exact congrArg Host.Outcome.next (State.angleRun_waits hreset hlive)

end Sys2Proof.Machine

/-!
## The encoder generator, the camera pulses and the end of a learning pass (R140, R141, R147, R148, R150, R151)
-/
namespace Sys2Proof.Machine

/-! ### ENC_STATE_CHANGE and ENC_OVERRATE -/

/-- The generator has a state to go to, on its grid and 50 ns after the last. -/
def State.encMoves (s : State) : Prop :=
  s.encTurn ≠ 0 ∧ s.angle.encFrozen = false ∧ s.encAhead ≠ 0 ∧ s.angle.encAt + 64 ≤ s.clk.now ∧ s.clk.tickCount % 16 = 0

theorem State.encMoves_iff (s : State) : (s.encTurn = 0 || s.angle.encFrozen || s.encAhead = 0 || !s.since s.angle.encAt 64 ||
    s.clk.tickCount % 16 != 0) = true ↔ ¬ s.encMoves := by
  cases hsince : s.since s.angle.encAt 64 with
  | false =>
    have hlate : ¬ s.angle.encAt + 64 ≤ s.clk.now := fun h => absurd (State.since_iff.2 h) (by simp [hsince])
    simp [State.encMoves, hlate]
  | true =>
    simp only [State.encMoves, Bool.or_eq_true, decide_eq_true_eq, bne_iff_ne, Bool.not_true, Bool.false_eq_true, or_false,
      State.since_iff.1 hsince, true_and, ← Bool.not_eq_true]
    tauto

/-- The generator's next state, one up or one down. -/
def State.encMoved (up : Bool) (s : State) : State :=
  s.onAngle fun a =>
    { a with encCount := if up then (a.encCount + 1) % s.encTurn else (a.encCount + s.encTurn - 1) % s.encTurn, encAt := s.now }

theorem encStateChange_rests {s : State} (h : ¬ s.encMoves) : encStateChange s = s := if_pos (s.encMoves_iff.2 h)

theorem encStateChange_moves {s : State} (h : s.encMoves) : ∃ up catching,
    encStateChange s = ((s.encMoved up).onAngle fun a => { a with encCatch := catching }).encDrive := by
  refine ⟨if s.angle.encCatch then decide (0 ≤ s.angle.pubSpeed) else decide (2 * s.encAhead ≤ s.encTurn), ?_⟩
  generalize hup : (if s.angle.encCatch then decide (0 ≤ s.angle.pubSpeed) else decide (2 * s.encAhead ≤ s.encTurn)) = up
  have hstep : encStateChange s =
      (if (s.encMoved up).encAhead = 0 then (s.encMoved up).onAngle fun a => { a with encCatch := false } else s.encMoved up).encDrive := by
    rw [← hup]
    exact if_neg (fun hc => s.encMoves_iff.1 hc h)
  rw [hstep]
  split
  · exact ⟨false, rfl⟩
  · exact ⟨(s.encMoved up).angle.encCatch, rfl⟩

theorem State.encDrive_frame (s : State) : s.encDrive = { s with angle := s.encDrive.angle } ∧
    s.encDrive.angle.encAt = s.angle.encAt ∧ s.encDrive.angle.encCount = s.angle.encCount ∧
    s.encDrive.angle.encImage = s.angle.encImage := ⟨rfl, rfl, rfl, rfl⟩

theorem encStateChange_row {s : State} (h : s.encMoves) : ∃ t, exec .encStateChange s = .next t ∧ t.angle.encAt = s.clk.now ∧
    (t.angle.encCount = (s.angle.encCount + 1) % s.encTurn ∨ t.angle.encCount = (s.angle.encCount + s.encTurn - 1) % s.encTurn) ∧
    t.angle.encImage = s.angle.encImage ∧ t = { s with angle := t.angle } := by
  obtain ⟨up, catching, hstep⟩ := encStateChange_moves h
  obtain ⟨hframe, hat, hcount, himage⟩ := ((s.encMoved up).onAngle fun a => { a with encCatch := catching }).encDrive_frame
  refine ⟨_, congrArg Host.Outcome.next hstep, hat, ?_, himage, hframe⟩
  rw [hcount]
  cases up
  · exact .inr rfl
  · exact .inl rfl

/-- Four tests, three of them decided. -/
theorem or_decide_iff (a : Bool) (p q r : Prop) [Decidable p] [Decidable q] [Decidable r] :
    (a || decide p || decide q || decide r) = true ↔ (a = true ∨ p) ∨ q ∨ r := by
  simp [or_assoc]

/-- The generator is behind above 20 MHz. -/
theorem encOverrate_eq (s : State) : encOverrate s =
    if (s.angle.encFrozen = true ∨ s.encTurn = 0) ∨ s.encRate ≤ 20000000 * 65536 ∨ s.encBehind ≤ 4 then s
    else s.encFreeze.onAngle fun a => { a with encOver := true, encOverrate := true } :=
  if_congr (or_decide_iff ..) rfl rfl

theorem encOverrate_row {s : State} (hfrozen : s.angle.encFrozen = false) (hturn : s.encTurn ≠ 0) (hrate : 20000000 * 65536 < s.encRate)
    (hbehind : 4 < s.encBehind) : ∃ t, exec .encOverrate s = .next t ∧ t.angle.encFrozen = true ∧ t.angle.encOverrate = true ∧
      t.angle.encA = s.angle.encA ∧ t.angle.encB = s.angle.encB ∧ t = { s with angle := t.angle } := by
  refine ⟨_, congrArg Host.Outcome.next ((encOverrate_eq s).trans (if_neg ?_)), rfl, rfl, rfl, rfl, rfl⟩
  rintro ((h | h) | h | h)
  · exact absurd h (by simp [hfrozen])
  · exact hturn h
  · exact absurd h (Nat.not_le.2 hrate)
  · exact absurd h (Nat.not_le.2 hbehind)

/-! ### Camera triggers -/

theorem camTrigEdge_off {n : Nat} {s : State} (h : camCount (s.cam n).image = 0) : camTrigEdge n s = s := if_pos h

theorem camTrigEdge_missed {n : Nat} {s : State} (h : camCount (s.cam n).image ≠ 0) (htrack : s.tracking = false) :
    camTrigEdge n s = { s with angle := { s.angle with camMissed := true, camMissedTotal := satInc 32 s.angle.camMissedTotal } } :=
  (if_neg h).trans (if_pos (by simp [htrack]))

theorem camTrigEdge_row {n th : Nat} {s : State} (hn : n < s.angle.cams.length) (h : camCount (s.cam n).image ≠ 0)
    (htrack : s.tracking = true) (hpll : s.clk.pllLocked = true) (hdue : s.camDue n = some th) :
    ∃ t, exec (.camTrigEdge n) s = .next t ∧ (t.cam n).high = true ∧ (t.cam n).endAt = s.clk.now + u32 (s.cam n).image 4 * 32 / 25 ∧
      (∀ k, k ≠ n → t.cam k = s.cam k) ∧ t.angle.camOverlap = (s.angle.camOverlap || (s.cam n).high) ∧ t = { s with angle := t.angle } := by
  let u := s.onCam n fun c =>
    { c with high := true, endAt := s.now + camWidth c.image, committed := c.committed.filter (·.1 != th), last := some (th, s.now) }
  have hstep : camTrigEdge n s = u.onAngle fun a => { a with camOverlap := a.camOverlap || (s.cam n).high } := by
    refine (if_neg h).trans ((if_neg (by simp [htrack, hpll])).trans ?_)
    rw [hdue]
  have hcam := State.cam_onCam_same (f := fun c : CamPin =>
    { c with high := true, endAt := s.now + camWidth c.image, committed := c.committed.filter (·.1 != th), last := some (th, s.now) }) hn
  exact ⟨_, congrArg Host.Outcome.next hstep, congrArg CamPin.high hcam, congrArg CamPin.endAt hcam,
    fun k hk => State.cam_onCam_ne (s := s) hk, rfl, rfl⟩

theorem camTrigPulseEnd_early {n : Nat} {s : State} (h : s.clk.now < (s.cam n).endAt) : camTrigPulseEnd n s = s :=
  if_neg fun hc => absurd (of_decide_eq_true (Bool.and_eq_true_iff.1 hc).2) (Nat.not_le.2 h)

theorem camTrigPulseEnd_row {n : Nat} {s : State} (hn : n < s.angle.cams.length) (hhigh : (s.cam n).high = true)
    (h : (s.cam n).endAt ≤ s.clk.now) : ∃ t, exec (.camTrigPulseEnd n) s = .next t ∧
      t.cam n = { s.cam n with high := false } ∧ (∀ k, k ≠ n → t.cam k = s.cam k) ∧ t = { s with angle := t.angle } :=
  ⟨_, congrArg Host.Outcome.next (if_pos (Bool.and_eq_true_iff.2 ⟨hhigh, decide_eq_true h⟩)), State.cam_onCam_same hn,
    fun _ hk => State.cam_onCam_ne hk, rfl⟩

/-! ### CYC_LEARN_PASS_END -/

theorem cycLearnPassEnd_none {s : State} (h : s.angle.learn = none) : cycLearnPassEnd s = s := by
  rw [cycLearnPassEnd, h]

theorem cycLearnPassEnd_open {l : Learn} {s : State} (hl : s.angle.learn = some l) (h : l.waiting = true ∨ l.done < l.revs) :
    cycLearnPassEnd s = s := by
  rw [cycLearnPassEnd, hl]
  exact if_pos (by simpa using h)

theorem State.discardLearn_eq (det : Nat) {l : Learn} {s : State} (hl : s.angle.learn = some l) : s.discardLearn det =
    (s.onAngle fun a => { a with learn := none, learnState := 3, learnDetail := det, learnDiscarded := true }).finish 0x0504
      l.cmd stFaultAngle det 0 [] := by
  rw [State.discardLearn, hl]

theorem cycLearnPassEnd_unsteady {l : Learn} {s : State} (hl : s.angle.learn = some l) (hwait : l.waiting = false) (hdone : l.revs ≤ l.done)
    (hsteady : steady l.boundaries = false) : ∃ t, exec .cycLearnPassEnd s = .next t ∧
      t.angle.learn = none ∧ t.angle.learnDiscarded = true ∧ t.angle.table = s.angle.table ∧
      Finished 0x0504 l.cmd (s.block 0x23 1 0) [] s t ∧ t = { s with angle := t.angle, host := t.host } := by
  let u := s.onAngle fun a => { a with learn := none, learnState := 3, learnDetail := 1, learnDiscarded := true }
  have hstep : cycLearnPassEnd s = u.finish 0x0504 l.cmd stFaultAngle 1 0 [] := by
    rw [cycLearnPassEnd, hl]
    refine (if_neg (by simpa [hwait] using hdone)).trans ((if_pos (by simp [hsteady])).trans (State.discardLearn_eq 1 hl))
  have hframe := u.finish_frame 0x0504 l.cmd stFaultAngle 1 0 []
  have hangle := congrArg State.angle hframe
  refine ⟨_, congrArg Host.Outcome.next hstep, congrArg Angle.learn hangle, congrArg Angle.learnDiscarded hangle,
    (congrArg Angle.table hangle).trans rfl, (finish_finished 0x0504 l.cmd stFaultAngle 1 0 [] u).of_host rfl, ?_⟩
  generalize u.finish 0x0504 l.cmd stFaultAngle 1 0 [] = t at hframe
  rw [hframe]
  rfl

/-- The generation of the table that a pass gives. -/
def State.nextCycGeneration (s : State) : Nat :=
  wrap 32 (max ((s.angle.table.map (·.generation)).getD 0) ((s.angle.stored.map (·.generation)).getD 0) + 1)

/-- The state behind a good pass, before its table is taken. -/
def State.passEnded (s : State) : State := s.onAngle fun a => { a with learn := none, learnState := 2, learnDiscarded := false }

theorem cycLearnPassEnd_eq {l : Learn} {s : State} (hl : s.angle.learn = some l) (hwait : l.waiting = false) (hdone : l.revs ≤ l.done)
    (hsteady : steady l.boundaries = true) (hstore : l.store = false)
    (hlimit : ∀ e ∈ learnEntries l.samples, e.1.natAbs ≤ acCycLimit s.angle.config * 4096) : cycLearnPassEnd s =
      s.passEnded.cycReplace (.use { generation := s.nextCycGeneration, entries := learnEntries l.samples }) [(0x0504, l.cmd)] := by
  have hopen : ¬ (l.waiting || decide (l.done < l.revs)) = true := by simpa [hwait] using hdone
  have hover : ¬ ((learnEntries l.samples).any fun e => decide (acCycLimit s.angle.config * 4096 < e.1.natAbs)) = true := by
    simpa using hlimit
  have hsteady' : ¬ (!steady l.boundaries) = true := by simp [hsteady]
  have hstore' : ¬ l.store = true := by simp [hstore]
  simp only [cycLearnPassEnd, hl]
  rw [if_neg hopen, if_neg hsteady', if_neg hover, if_neg hstore']
  rfl

theorem cycLearnPassEnd_good {l : Learn} {s : State} (hl : s.angle.learn = some l) (hwait : l.waiting = false) (hdone : l.revs ≤ l.done)
    (hsteady : steady l.boundaries = true) (hstore : l.store = false) (hspeed : 65536 ≤ s.angle.pubSpeed.natAbs)
    (hlimit : ∀ e ∈ learnEntries l.samples, e.1.natAbs ≤ acCycLimit s.angle.config * 4096) :
    ∃ t g, exec .cycLearnPassEnd s = .next t ∧ t.angle.learn = none ∧ t.angle.table = s.angle.table ∧
      t.angle.cycPending = .use { generation := g, entries := learnEntries l.samples } ∧
      t.angle.cycCmds = s.angle.cycCmds ++ [(0x0504, l.cmd)] ∧ t = { s with angle := t.angle } := by
  have hstep := (cycLearnPassEnd_eq hl hwait hdone hsteady hstore hlimit).trans (State.cycReplace_turning (s := s.passEnded) hspeed)
  exact ⟨_, s.nextCycGeneration, congrArg Host.Outcome.next hstep, rfl, rfl, rfl, rfl, rfl⟩

/-- Settles O27: every event in turn, on either side of its condition. -/
theorem encoderTriggersAndLearning : Obligations.EncoderTriggersAndLearning := by
  refine ⟨fun s => ⟨fun h => congrArg Host.Outcome.next (encStateChange_rests ?_),
      fun hturn hfrozen hahead hlate hgrid => encStateChange_row ⟨hturn, hfrozen, hahead, hlate, hgrid⟩⟩,
    fun s => ⟨fun h => congrArg Host.Outcome.next ((encOverrate_eq s).trans (if_pos (.inr h))), fun hfrozen _ hturn hrate hbehind => encOverrate_row hfrozen hturn hrate hbehind⟩,
    fun n s hn => ⟨fun h => congrArg Host.Outcome.next (camTrigEdge_off h), fun h htrack => congrArg Host.Outcome.next (camTrigEdge_missed h htrack),
      fun th h htrack hpll hdue => camTrigEdge_row hn h htrack hpll hdue, fun _ h => congrArg Host.Outcome.next (camTrigPulseEnd_early h),
      camTrigPulseEnd_row hn⟩,
    fun s h => congrArg Host.Outcome.next (cycLearnPassEnd_none h),
    fun l s hl => ⟨fun h => congrArg Host.Outcome.next (cycLearnPassEnd_open hl h), cycLearnPassEnd_unsteady hl, cycLearnPassEnd_good hl⟩⟩
  rintro ⟨hturn, hfrozen, hahead, hlate, hgrid⟩
  obtain h | h | h | h | h := h
  · exact hturn h
  · exact absurd h (by simp [hfrozen])
  · exact hahead h
  · exact absurd hlate (Nat.not_le.2 h)
  · exact h hgrid

end Sys2Proof.Machine

/-!
## The shadow set's writes (R83, R209)
-/
namespace Sys2Proof.Machine

/-- The handle of `tabledView`. -/
def tabledHandle : Nat := 0x10000001

/-- A view of 8 cells of one shot, with channel 0, emitter 0 and the kernel K_ACCUM. -/
def tabledView : ViewDef :=
  newView tabledHandle (le 4 0 ++ le 4 65536 ++ le 2 8 ++ [1, 0] ++ le 2 64 ++ [4, 3] ++ zeros 4 ++ le 2 1 ++ zeros 10 ++ fit 24 [1] ++
    fit 8 [1] ++ fit 16 [1, 1])

/-- FIRE_TABLE for that view: emitter 0 plays slot 0 for its channel. -/
def tableCmd : Cmd :=
  { holdCmd with payload := fit 16 (le 4 tabledHandle ++ [0, 1]) ++ fit 8 [0, 0, 1] ++ fit 24 [1] }

/-- A device in whose shadow set the view's table has met an uncorrectable word, with that command accepted. -/
def tableLost : State :=
  { State.reset with
    host := { State.reset.host with
      journal := { State.reset.host.journal with
        live := [{ jix := 1, state := .accepted, opcode := 0x0701, cmd := tableCmd, reply := none }] } }
    power := { Power.reset with
      running := true, phase := .ready, ready := true
      tiles := List.replicate 8 { paceA := 300, paceB := 300, mv := 850, lastStepDown := 0, paceFull := 300 } }
    fabric := { State.reset.fabric with libraryMajors := List.replicate 9 1 }
    integrity := { State.reset.integrity with lost := [{ shadow := true, params := false, view := tabledHandle }] }
    sets := { State.reset.sets with
      live := [tabledHandle], claspPtr := 1, claspGen := State.reset.sets.claspGen.set 0 1
      shadow := { State.reset.sets.shadow with views := [tabledView] } } }

/-- Refutes O12: FIRE_TABLE writes the view's table anew, so that the table's lost words are lost no more; the frame has the integrity
part of the state stand. -/
theorem not_shadowWritesLeaveTheActiveSet : ¬ Obligations.ShadowWritesLeaveTheActiveSet := by
  intro h
  obtain ⟨h, -⟩ := h
  obtain ⟨t, hnext, -, hfree⟩ := h tableCmd tableLost (accepted_of_accepts (by decide +kernel))
  obtain ⟨-, -, hframe⟩ := hfree (by decide)
  have ht : t = tableLost.run fireTableInfo tableCmd (fireTableEffect tableCmd) := (Host.Outcome.next.inj hnext).symm
  have hlost : t.integrity.lost = tableLost.integrity.lost := by rw [hframe]
  rw [ht] at hlost
  exact absurd hlost (by decide +kernel)

end Sys2Proof.Machine

/-!
## Handles and views (R70 to R91)
-/
namespace Sys2Proof.Machine

theorem State.onShadow_frame (f : ConfigSet → ConfigSet) (s : State) : ∃ power,
    s.onShadow f = { s with sets := { s.sets with shadow := f s.sets.shadow }, power := power } := ⟨_, rfl⟩

theorem State.doneSet_frame (op : Nat) (c : Cmd) (res : Nat) (d : List Byte) (s : State) :
    s.doneSet op c res d = { s with host := (s.doneSet op c res d).host } := s.appliedWith_frame .shadowSet op c _ d

theorem State.doneSet_finished (op : Nat) (c : Cmd) (res : Nat) (d : List Byte) (s : State) :
    Finished op c (s.block 0 0 res) d s (s.doneSet op c res d) := s.appliedWith_finished .shadowSet op c _ d

/-- A write of the shadow set that need not wait is its effect; one that must takes its place in the order. -/
theorem State.shadowWrite_free {op : Nat} {c : Cmd} {eff : State → State} {s : State} (h : s.setsBusy = false) :
    s.shadowWrite op c eff = eff s := if_neg (by simp [h])

theorem State.deferSet_frame (op : Nat) (c : Cmd) (s : State) : ∃ j,
    s.deferSet op c = { s with host := { s.host with journal := j }, sets := { s.sets with waiting := s.sets.waiting ++ [(op, c)] } } := by
  let u := (s.onSets fun k => { k with waiting := k.waiting ++ [(op, c)] }).setPending .shadowSet c
  obtain ⟨j, hj⟩ := u.onLive_frame c fun l => { l with state := l.interimState }
  exact ⟨j, hj⟩

theorem State.notBegun_silent (c : Cmd) (s : State) :
    Silent c s (s.notBegun c) := ⟨by simp [State.notBegun], HostKept.onLive c _ s⟩

theorem State.deferSet_silent (op : Nat) (c : Cmd) (s : State) : Silent c s (s.deferSet op c) :=
  (Silent.of_host (s := s) (t := s.onSets fun k => { k with waiting := k.waiting ++ [(op, c)] }) rfl).trans
    ((State.setPending_silent ..).trans (State.notBegun_silent ..))

/-- The answer to a change of the sets: the block is the one before, for the epoch and the time stand. -/
theorem State.doneSet_after (op : Nat) (c : Cmd) (res : Nat) (d : List Byte) {s u : State} (hsilent : Silent c s u)
    (hepoch : u.sets.epoch = s.sets.epoch) (hclk : u.clk = s.clk) : Finished op c (s.block 0 0 res) d s (u.doneSet op c res d) := by
  have hb : u.block 0 0 res = s.block 0 0 res := by
    simp only [State.block, State.stamp, hepoch, hclk]
  exact hb ▸ (u.doneSet_finished op c res d).of_silent hsilent

/-! ### VIEW_CREATE -/

theorem State.issueHandle_frame (i : Nat) (s : State) : (s.issueHandle i).1 = mkHandle i (s.sets.claspGen.getD i 0 + 1) ∧ ∃ q,
    (s.issueHandle i).2 = { s with
      sets := { s.sets with
        claspGen := s.sets.claspGen.set i (s.sets.claspGen.getD i 0 + 1)
        claspPtr := (i + 1) % 4096
        live := s.sets.live ++ [mkHandle i (s.sets.claspGen.getD i 0 + 1)]
        claspUnsaved := s.sets.claspUnsaved + 1 }
      health := { s.health with queue := q } } := by
  refine ⟨rfl, ?_⟩
  simp only [State.issueHandle]
  split
  · exact State.request_frame (Activity.store 0x08 0x27 1 none []) _
  · exact ⟨s.health.queue, rfl⟩

theorem viewCreate_full {c : Cmd} {s : State} (h : 64 ≤ s.sets.claspUnsaved) : viewCreate c s = s := if_pos h

theorem viewCreate_runs {c : Cmd} {s : State} (h : s.sets.claspUnsaved < 64) :
    viewCreate c s = s.run viewCreateInfo c (viewCreateEffect c) :=
  if_neg (by omega)

/-- The state with the new view in the shadow set. -/
def State.created (i : Nat) (c : Cmd) (s : State) : State :=
  (s.issueHandle i).2.onShadow fun k => { k with views := k.views ++ [newView (s.issueHandle i).1 c.payload] }

theorem viewCreateNow_issues {c : Cmd} {i : Nat} {s : State} (hi : s.nextIndex = some i) :
    ∃ d, viewCreateNow c s = (s.created i c).doneSet 0x0201 c (s.issueHandle i).1 d := by
  unfold viewCreateNow
  split
  · next h => rw [hi] at h; exact nomatch h
  · next k h =>
    obtain rfl : i = k := Option.some.inj (hi.symm.trans h)
    exact ⟨_, rfl⟩

theorem State.created_frame (i : Nat) (c : Cmd) {g : Nat} {s : State} (hg : g = s.sets.claspGen.getD i 0 + 1) :
    (s.issueHandle i).1 = mkHandle i g ∧ ∃ q power, s.created i c = { s with
      sets := { s.sets with
        shadow := { s.sets.shadow with views := s.sets.shadow.views ++ [newView (mkHandle i g) c.payload] }
        claspGen := s.sets.claspGen.set i g
        claspPtr := (i + 1) % 4096
        live := s.sets.live ++ [mkHandle i g]
        claspUnsaved := s.sets.claspUnsaved + 1 }
      power := power
      health := { s.health with queue := q } } := by
  subst hg
  obtain ⟨hh, q, hissue⟩ := s.issueHandle_frame i
  obtain ⟨power, hu⟩ := (s.issueHandle i).2.onShadow_frame fun k => { k with views := k.views ++ [newView (s.issueHandle i).1 c.payload] }
  refine ⟨hh, q, power, ?_⟩
  rw [State.created, hu, hh, hissue]

theorem viewCreate_row {c : Cmd} {i : Nat} {s : State} (h : Accepted viewCreateInfo c s) (hroom : s.sets.claspUnsaved < 64)
    (hfree : s.setsBusy = false) (hi : s.nextIndex = some i) {g : Nat} (hg : g = s.sets.claspGen.getD i 0 + 1) :
    ∃ t d, exec (.viewCreate c) s = .next t ∧ Finished 0x0201 c (s.block 0 0 (mkHandle i g)) d s t ∧
      t.sets.shadow = { s.sets.shadow with views := s.sets.shadow.views ++ [newView (mkHandle i g) c.payload] } ∧
      t.sets.live = s.sets.live ++ [mkHandle i g] ∧ t.sets.active = s.sets.active ∧ t.sets.epoch = s.sets.epoch ∧
      t.sets.claspPtr = (i + 1) % 4096 ∧ t.sets.claspGen = s.sets.claspGen.set i g ∧
      t = { s with host := t.host, sets := t.sets, power := t.power, health := t.health } := by
  obtain ⟨j, hsilent, hrun⟩ := State.run_from h
  obtain ⟨hh, q, power, hu⟩ := State.created_frame (s := s.withJournal j) i c hg
  obtain ⟨d, hd⟩ := viewCreateNow_issues (c := c) (s := s.withJournal j) hi
  have hstep := (viewCreate_runs (c := c) hroom).trans ((hrun _).trans ((State.shadowWrite_free (s := s.withJournal j) hfree).trans hd))
  rw [hh] at hstep
  generalize (s.withJournal j).created i c = u at hu hstep
  have hframe := u.doneSet_frame 0x0201 c (mkHandle i g) d
  have hfin := State.doneSet_after (s := s) (u := u) 0x0201 c (mkHandle i g) d (hsilent.trans (Silent.of_host (by rw [hu]))) (by rw [hu]; rfl)
    (by rw [hu]; rfl)
  refine ⟨_, d, congrArg Host.Outcome.next hstep, hfin, ?_⟩
  generalize u.doneSet 0x0201 c _ d = t at hframe
  refine ⟨?_, ?_, ?_, ?_, ?_, ?_, ?_⟩ <;> rw [hframe, hu] <;> rfl

theorem viewCreate_refused {c : Cmd} {st det : Nat} {s : State} (h : Rejected viewCreateInfo c st det s) (hroom : s.sets.claspUnsaved < 64) :
    ∃ t, exec (.viewCreate c) s = .next t ∧ Finished 0x0201 c (s.block st det 0) [] s t ∧ t = { s with host := t.host } :=
  ⟨_, congrArg Host.Outcome.next (viewCreate_runs hroom), run_refused viewCreateInfo c (viewCreateEffect c) st det s h rfl⟩

/-! ### VIEW_UPDATE, VIEW_DESTROY, SET_ABORT -/

theorem viewUpdate_row {c : Cmd} {s : State} (h : Accepted viewUpdateInfo c s) (hfree : s.setsBusy = false) :
    ∃ t d, exec (.viewUpdate c) s = .next t ∧ Finished 0x0205 c (s.block 0 0 0) d s t ∧
      t.sets = { s.sets with shadow := s.sets.shadow.onView (u32 c.payload 0) (ViewDef.rebind (c.payload.drop 16)) } ∧
      t = { s with host := t.host, sets := t.sets, power := t.power } := by
  obtain ⟨j, hsilent, hrun⟩ := State.run_from h
  obtain ⟨power, hu⟩ := (s.withJournal j).onShadow_frame (·.onView (u32 c.payload 0) (ViewDef.rebind (c.payload.drop 16)))
  have hstep : ∃ d, s.run viewUpdateInfo c (viewUpdateEffect c) =
      ((s.withJournal j).onShadow (·.onView (u32 c.payload 0) (ViewDef.rebind (c.payload.drop 16)))).doneSet 0x0205 c 0 d :=
    ⟨_, (hrun _).trans (State.shadowWrite_free (s := s.withJournal j) hfree)⟩
  obtain ⟨d, hstep⟩ := hstep
  generalize (s.withJournal j).onShadow (·.onView (u32 c.payload 0) (ViewDef.rebind (c.payload.drop 16))) = u at hu hstep
  have hframe := u.doneSet_frame 0x0205 c 0 d
  have hfin := State.doneSet_after (s := s) (u := u) 0x0205 c 0 d (hsilent.trans (Silent.of_host (by rw [hu]))) (by rw [hu]; rfl)
    (by rw [hu]; rfl)
  refine ⟨_, d, congrArg Host.Outcome.next hstep, hfin, ?_⟩
  generalize u.doneSet 0x0205 c 0 d = t at hframe
  refine ⟨?_, ?_⟩ <;> rw [hframe, hu] <;> rfl

theorem viewUpdate_waits {c : Cmd} {s : State} (h : Accepted viewUpdateInfo c s) (hbusy : s.setsBusy = true) :
    ∃ t, exec (.viewUpdate c) s = .next t ∧ Silent c s t ∧
      t.sets = { s.sets with waiting := s.sets.waiting ++ [(0x0205, c)] } ∧ t = { s with host := t.host, sets := t.sets } := by
  obtain ⟨j, hsilent, hrun⟩ := State.run_from h
  obtain ⟨k, hk⟩ := (s.withJournal j).deferSet_frame 0x0205 c
  have hstep : s.run viewUpdateInfo c (viewUpdateEffect c) = (s.withJournal j).deferSet 0x0205 c :=
    (hrun _).trans (if_pos (c := (s.withJournal j).setsBusy = true) hbusy)
  refine ⟨_, congrArg Host.Outcome.next hstep, hsilent.trans (State.deferSet_silent ..), ?_, ?_⟩ <;> rw [hk] <;> rfl

theorem viewDestroy_row {c : Cmd} {s : State} (hacc : Accepted viewDestroyInfo c s) (hfree : s.setsBusy = false) :
    let h := u32 c.payload 0
    ∃ t, exec (.viewDestroy c) s = .next t ∧ Finished 0x0202 c (s.block 0 0 0) [] s t ∧
      t.sets = { s.sets with live := s.sets.live.filter (· != h),
                             shadow := { s.sets.shadow with views := s.sets.shadow.views.filter (·.handle != h) },
                             retiring := if (s.activeView h).isSome then s.sets.retiring ++ [h] else s.sets.retiring } ∧
      t = { s with host := t.host, sets := t.sets, power := t.power } := by
  intro h
  obtain ⟨j, hsilent, hrun⟩ := State.run_from hacc
  let v := (s.withJournal j).onSets fun k =>
    { k with live := k.live.filter (· != h), retiring := if (s.activeView h).isSome then k.retiring ++ [h] else k.retiring }
  obtain ⟨power, hu⟩ := v.onShadow_frame fun k => { k with views := k.views.filter (·.handle != h) }
  have hstep : s.run viewDestroyInfo c (viewDestroyEffect c) =
      (v.onShadow fun k => { k with views := k.views.filter (·.handle != h) }).doneSet 0x0202 c 0 [] :=
    (hrun _).trans (State.shadowWrite_free (s := s.withJournal j) hfree)
  generalize (v.onShadow fun k => { k with views := k.views.filter (·.handle != h) }) = u at hu hstep
  have hframe := u.doneSet_frame 0x0202 c 0 []
  have hfin := State.doneSet_after (s := s) (u := u) 0x0202 c 0 [] (hsilent.trans (Silent.of_host (by rw [hu]; rfl))) (by rw [hu]; rfl)
    (by rw [hu]; rfl)
  refine ⟨_, congrArg Host.Outcome.next hstep, hfin, ?_⟩
  generalize u.doneSet 0x0202 c 0 [] = t at hframe
  refine ⟨?_, ?_⟩ <;> rw [hframe, hu] <;> rfl

theorem viewDestroy_live {c : Cmd} {s : State} (h : Accepted viewDestroyInfo c s) : u32 c.payload 0 ∈ s.sets.live := by
  simpa [State.staleAt] using firstFail_eq_ok.1 h.fields _ (List.mem_cons_self ..)

/-- The handles that SET_ABORT ends: those of no active view. -/
def State.abortGone (s : State) : List Nat := s.sets.live.filter fun h => (s.sets.active.view h).isNone

/-- The handles that it leaves. -/
def State.abortKept (s : State) : List Nat := s.sets.live.filter fun h => !s.abortGone.contains h

theorem State.mem_abortKept {h : Nat} {s : State} : h ∈ s.abortKept ↔ h ∈ s.sets.live ∧ (s.sets.active.view h).isSome := by
  simp +contextual [State.abortKept, State.abortGone, Option.isSome_iff_ne_none]

theorem setAbort_row {c : Cmd} {s : State} (h : Accepted setAbortInfo c s) (hfree : s.setsBusy = false) :
    ∃ t, exec (.setAbort c) s = .next t ∧ Finished 0x0302 c (s.block 0 0 s.abortGone.length) [] s t ∧
      t.sets = { s.sets with
        live := s.abortKept
        shadow := { s.sets.active with views := s.sets.active.views.filter fun v => s.abortKept.contains v.handle } } ∧
      t = { s with host := t.host, integrity := t.integrity, sets := t.sets, power := t.power } := by
  obtain ⟨j, hsilent, hrun⟩ := State.run_from h
  let v := ((s.withJournal j).onSets fun k => { k with live := s.abortKept }).copyLost true
  let keep : ConfigSet → ConfigSet := fun _ =>
    { s.sets.active with views := s.sets.active.views.filter fun v => s.abortKept.contains v.handle }
  obtain ⟨power, hu⟩ := v.onShadow_frame keep
  have hstep : s.run setAbortInfo c (setAbortEffect c) = (v.onShadow keep).doneSet 0x0302 c s.abortGone.length [] :=
    (hrun _).trans (State.shadowWrite_free (s := s.withJournal j) hfree)
  generalize v.onShadow keep = u at hu hstep
  have hframe := u.doneSet_frame 0x0302 c s.abortGone.length []
  have hfin := State.doneSet_after (s := s) (u := u) 0x0302 c s.abortGone.length [] (hsilent.trans (Silent.of_host (by rw [hu]; rfl)))
    (by rw [hu]; rfl) (by rw [hu]; rfl)
  refine ⟨_, congrArg Host.Outcome.next hstep, hfin, ?_⟩
  generalize u.doneSet 0x0302 c s.abortGone.length [] = t at hframe
  refine ⟨?_, ?_⟩ <;> rw [hframe, hu] <;> rfl

/-! ### VIEW_QUERY -/

theorem viewQuery_row {c : Cmd} {s : State} (h : Accepted viewQueryInfo c s) : ∃ t d, exec (.viewQuery c) s = .next t ∧
    Finished 0x0203 c (s.block 0 0 (s.viewState (u32 c.payload 0))) d s t ∧ u8 d 4 = s.viewState (u32 c.payload 0) ∧
    t = { s with host := t.host } := by
  obtain ⟨j, hsilent, hrun⟩ := State.run_from h
  have heff : ∃ d, viewQueryEffect c (s.withJournal j) =
      (s.withJournal j).finish 0x0203 c stOk 0 (s.viewState (u32 c.payload 0))
        (le 4 (u32 c.payload 0) ++ (le 1 (s.viewState (u32 c.payload 0)) ++ d)) := by
    simp only [viewQueryEffect, List.append_assoc]
    exact ⟨_, rfl⟩
  obtain ⟨d, heff⟩ := heff
  refine ⟨_, _, congrArg Host.Outcome.next ((hrun _).trans heff), (finish_finished ..).of_silent hsilent, ?_, State.finish_frame ..⟩
  have hlt : s.viewState (u32 c.payload 0) < 256 := by
    unfold State.viewState
    split
    · decide
    · split <;> decide
  rw [show (4 : Nat) = 4 + 0 from rfl, u8_append_right (n := 4) _ rfl, u8_append_left d (i := 0) (Nat.lt_of_lt_of_eq Nat.zero_lt_one rfl)]
  exact (u8_of_byte rfl).trans (Nat.mod_eq_of_lt hlt)

/-- Settles O13: each command is its own row; SET_ABORT keeps the handles of `State.abortKept`. -/
theorem handlesNameViews : Obligations.HandlesNameViews := by
  refine ⟨fun c s h => congrArg Host.Outcome.next (viewCreate_full h), fun c i s h hroom hfree hi => viewCreate_row h hroom hfree hi rfl,
    fun c st det s h hroom => viewCreate_refused h hroom, fun c s h hfree => viewUpdate_row h hfree,
    fun c s h hfree => ⟨viewDestroy_live h, viewDestroy_row h hfree⟩, fun c s h hfree => ?_, fun c s ⟨h, hbusy⟩ => viewUpdate_waits h hbusy,
    fun c s h => viewQuery_row h⟩
  obtain ⟨t, hstep, hfin, hsets, hframe⟩ := setAbort_row h hfree
  refine ⟨t, hstep, hfin, ?_, ?_, fun h => ?_, ?_, hframe⟩
  · rw [hsets]
  · rw [hsets]
  · rw [hsets]
    exact State.mem_abortKept
  · rw [hsets]

end Sys2Proof.Machine

/-!
## Waveform slots and fades (R90, R217 to R219, R224, R225, R240)
-/
namespace Sys2Proof.Machine

theorem EmitterOnly.of_onEmitter (e : Nat) (f : Emitter → Emitter) (s : State) : EmitterOnly e s (s.onEmitter e f) :=
  ⟨rfl, List.length_modify .., fun _ hk => State.emitter_onEmitter_ne _ _ _ _ hk⟩

theorem EmitterOnly.trans {e : Nat} {s t u : State} (h : EmitterOnly e s t) (k : EmitterOnly e t u) : EmitterOnly e s u := by
  obtain ⟨h1, h2, h3⟩ := h
  obtain ⟨k1, k2, k3⟩ := k
  exact ⟨by rw [k1, h1], k2.trans h2, fun n hn => (k3 n hn).trans (h3 n hn)⟩

theorem EmitterOnly.of_emission {e : Nat} {s t u : State} (h : EmitterOnly e s t) (hu : u.emission = t.emission) :
    EmitterOnly e s u := by
  obtain ⟨h1, h2, h3⟩ := h
  exact ⟨by rw [hu, h1], by rw [hu, h2], fun n hn => (by simp only [State.emitter, hu] : u.emitter n = t.emitter n).trans (h3 n hn)⟩

/-! ### WAVE_LOAD -/

/-- The write that a WAVE_LOAD asks for. -/
def transferOf (c : Cmd) (new : Slot) : Transfer := { slot := u8 c.payload 1, new := new, persist := bit (u8 c.payload 2) 2, cmd := c }

/-- The contents that a WAVE_LOAD carries. -/
def loadedSlot (p : List Byte) : Slot :=
  { st := .loaded, range2 := bit (u8 p 2) 0, codeId := u8 p 3, samples := (List.range 256).map fun i => u16 p (16 + 2 * i), charge := 0 }

/-- The write joins its emitter's list. -/
def Emitter.withTransfer (t : Transfer) (x : Emitter) : Emitter := { x with transfers := x.transfers ++ [t] }

theorem waveLoad_row {c : Cmd} {s : State} (h : Accepted waveLoadInfo c s) (he : u8 c.payload 0 < s.emission.emitters.length) {new : Slot}
    (hnew : new = if waveClear c.payload then Slot.empty else loadedSlot c.payload) : ∃ t, s.run waveLoadInfo c (waveLoadEffect c) = t ∧
      t.emitter (u8 c.payload 0) = (s.emitter (u8 c.payload 0)).withTransfer (transferOf c new) ∧
      EmitterOnly (u8 c.payload 0) s t ∧ t.host.waiting = s.host.waiting ∧ HostKept c s t ∧
      t = { s with host := t.host, emission := t.emission } := by
  obtain ⟨j, hsilent, hrun⟩ := State.run_from h
  have heff : waveLoadEffect c (s.withJournal j) =
      ((s.withJournal j).onEmitter (u8 c.payload 0) (Emitter.withTransfer (transferOf c new))).setPending (.emitter (u8 c.payload 0)) c := by
    subst hnew
    rfl
  obtain ⟨hw, hk⟩ := hsilent.trans ((Silent.of_host (t := (s.withJournal j).onEmitter (u8 c.payload 0) (Emitter.withTransfer (transferOf c new))) rfl).trans
    (State.setPending_silent (.emitter (u8 c.payload 0)) c _))
  refine ⟨_, (hrun _).trans heff, ?_, ?_, hw, hk, rfl⟩
  · exact State.emitter_onEmitter_same _ _ (s.withJournal j) he
  · exact EmitterOnly.of_onEmitter (u8 c.payload 0) _ (s.withJournal j)

/-! ### Slots behind their updates -/

theorem State.slot_onSlot_same {e n : Nat} {f : Slot → Slot} {s : State} (he : e < s.emission.emitters.length)
    (hn : n < (s.emitter e).slots.length) : (s.onSlot e n f).slot e n = f (s.slot e n) := by
  rw [State.slot, State.onSlot, State.emitter_onEmitter_same _ _ _ he]
  simp [State.slot, hn]

theorem State.slot_onSlot_ne {e n m : Nat} {f : Slot → Slot} {s : State} (he : e < s.emission.emitters.length) (h : m ≠ n) :
    (s.onSlot e n f).slot e m = s.slot e m := by
  rw [State.slot, State.onSlot, State.emitter_onEmitter_same _ _ _ he]
  simp [State.slot, h.symm]

/-- The contents that a slot takes: the charge and the state follow the table in use. -/
def State.written (e : Nat) (k : Slot) (s : State) : Slot :=
  if k.st = .empty then Slot.empty else
  { k with charge := slotCharge s.emission.table e k.samples k.range2
           st := s.slotStateFor e (slotCharge s.emission.table e k.samples k.range2) }

theorem State.writeSlot_eq (e n : Nat) (k : Slot) (s : State) : s.writeSlot e n k = s.onSlot e n fun _ => s.written e k := by
  rw [State.writeSlot]
  refine congrArg (fun x => s.onSlot e n fun _ => x) ?_
  by_cases hk : k.st = .empty
  · simp [State.written, hk]
  · simp [State.written, hk]

/-- An emitter's change `f`, kept outside the slots, and then a write of one of its slots. -/
theorem State.writeSlot_facts {e n : Nat} {k : Slot} {f : Emitter → Emitter} {s : State} (he : e < s.emission.emitters.length)
    (hn : n < (s.emitter e).slots.length) (hf : ∀ x, (f x).slots = x.slots) :
    let t := (s.onEmitter e f).writeSlot e n k
    t.slot e n = s.written e k ∧ (∀ m, m ≠ n → t.slot e m = s.slot e m) ∧
      t.emitter e = { f (s.emitter e) with slots := (t.emitter e).slots } ∧ EmitterOnly e s t ∧
      t = { s with emission := t.emission } := by
  intro t
  have hsame := State.emitter_onEmitter_same e f s he
  have he' : e < (s.onEmitter e f).emission.emitters.length := by
    rw [show (s.onEmitter e f).emission.emitters.length = _ from List.length_modify ..]
    exact he
  have ht : t = (s.onEmitter e f).onSlot e n fun _ => s.written e k := (s.onEmitter e f).writeSlot_eq e n k
  have hslot : ∀ m, (s.onEmitter e f).slot e m = s.slot e m := fun m => by
    rw [State.slot, hsame, hf]
    rfl
  refine ⟨?_, fun m hm => ?_, ?_, ?_, rfl⟩
  · rw [ht]
    exact State.slot_onSlot_same he' (by rw [hsame, hf]; exact hn)
  · rw [ht, State.slot_onSlot_ne he' hm, hslot]
  · rw [ht, State.onSlot, State.emitter_onEmitter_same _ _ _ he', hsame]
  · rw [ht]
    exact (EmitterOnly.of_onEmitter e f s).trans (EmitterOnly.of_onEmitter e _ _)

/-! ### WAVE_TRANSFER -/

theorem waveTransfer_waits {e n : Nat} {x : Transfer} {s : State} (hx : (s.emitter e).transfers.find? (·.slot == n) = some x)
    (hgap : s.inGap e = false) : waveTransfer e n s = s := by
  rw [waveTransfer, hx]
  exact if_pos (by simp [hgap])

theorem waveTransfer_row {e n : Nat} {x : Transfer} {s : State} (he : e < s.emission.emitters.length)
    (hn : n < (s.emitter e).slots.length) (hx : (s.emitter e).transfers.find? (·.slot == n) = some x) (hgap : s.inGap e = true)
    (hpersist : x.persist = false) : ∃ t, exec (.waveTransfer e n) s = .next t ∧ t.slot e n = s.written e x.new ∧
      (∀ m, m ≠ n → t.slot e m = s.slot e m) ∧ (t.emitter e).transfers = (s.emitter e).transfers.erase x ∧
      (t.emitter e).out = (s.emitter e).out ∧ EmitterOnly e s t ∧
      Finished 0x0401 x.cmd (s.block 0 0 (chargePj (t.slot e n).charge)) [] s t ∧ t = { s with host := t.host, emission := t.emission } := by
  obtain ⟨hslot, hother, hem, honly, hu⟩ := State.writeSlot_facts (k := x.new)
    (f := fun y : Emitter => { y with transfers := y.transfers.erase x }) he hn fun _ => rfl
  have hstep : waveTransfer e n s = ((s.onEmitter e fun y => { y with transfers := y.transfers.erase x }).writeSlot e n x.new).doneOn 0x0401
      (.emitter e) x.cmd (chargePj (((s.onEmitter e fun y => { y with transfers := y.transfers.erase x }).writeSlot e n x.new).slot e n).charge) := by
    rw [waveTransfer, hx]
    exact (if_neg (by simp [hgap])).trans (if_neg (by simp [hpersist]))
  generalize (s.onEmitter e fun y => { y with transfers := y.transfers.erase x }).writeSlot e n x.new = u at *
  have hframe := u.doneOn_frame 0x0401 (.emitter e) x.cmd (chargePj (u.slot e n).charge)
  have hfin := (u.doneOn_finished 0x0401 (.emitter e) x.cmd (chargePj (u.slot e n).charge)).of_host (congrArg State.host hu)
  refine ⟨_, congrArg Host.Outcome.next hstep, ?_⟩
  generalize u.doneOn 0x0401 (.emitter e) x.cmd (chargePj (u.slot e n).charge) = t at hframe hfin
  have hemission : t.emission = u.emission := by rw [hframe]
  have hemitter : ∀ k, t.emitter k = u.emitter k := fun k => by simp only [State.emitter, hemission]
  have hslots : ∀ m, t.slot e m = u.slot e m := fun m => by simp only [State.slot, hemitter]
  refine ⟨(hslots n).trans hslot, fun m hm => (hslots m).trans (hother m hm), ?_, ?_, honly.of_emission hemission, ?_, ?_⟩
  · rw [hemitter, hem]
  · rw [hemitter, hem]
  · rw [hslots]
    rw [hu] at hfin
    exact hfin
  · rw [hframe, hu]

/-! ### WAVE_READ -/

theorem fit_length (n : Nat) (p : List Byte) : (fit n p).length = n := by
  simp [fit, zeros]

theorem u8_fit {n i : Nat} (p : List Byte) (h : i < n) : u8 (fit n p) i = u8 p i := by
  simp only [u8, fit, List.getD_eq_getElem?_getD, List.getElem?_take_of_lt h]
  by_cases hi : i < p.length
  · rw [List.getElem?_append_left hi]
  · rw [List.getElem?_append_right (Nat.not_lt.1 hi), List.getElem?_eq_none (Nat.not_lt.1 hi), zeros,
      List.getElem?_replicate_of_lt (by omega)]
    rfl

theorem u16_fit {n i : Nat} (p : List Byte) (h : i + 1 < n) : u16 (fit n p) i = u16 p i := by
  rw [u16, u16, u8_fit p (by omega), u8_fit p h]

theorem u16_append_right {a : List Byte} (b : List Byte) {n i : Nat} (h : a.length = n) : u16 (a ++ b) (n + i) = u16 b i := by
  simp only [u16, Nat.add_assoc, u8_append_right b h]

theorem u16_samples (l : List Nat) (i : Nat) : u16 (l.map (le 2 ·)).flatten (2 * i) = l.getD i 0 % 65536 := by
  induction l generalizing i with
  | nil => simp [u16, u8]
  | cons a l ih =>
    cases i with
    | zero => exact u16_of_bytes rfl rfl
    | succ i => 
      have hnext : 2 * (i + 1) = 2 + 2 * i := by omega
      rw [hnext, List.map_cons, List.flatten_cons, u16_append_right _ (n := 2) rfl, ih]
      rfl

/-- The first 16 bytes of WAVE_READ's data: the emitter, the slot, its state and its charge. -/
def waveHead (e n : Nat) (k : Slot) : List Byte :=
  fit 8 (le 1 e ++ le 1 n ++ le 1 (flag k.range2 0) ++ le 1 k.codeId ++ le 1 k.st.code) ++ fit 8 (le 4 (chargePj k.charge))

theorem waveHead_length (e n : Nat) (k : Slot) : (waveHead e n k).length = 16 := by
  simp [waveHead, fit_length]

theorem u8_waveHead {e n i : Nat} {k : Slot} (hi : i < 8) : u8 (waveHead e n k) i =
    u8 (le 1 e ++ le 1 n ++ le 1 (flag k.range2 0) ++ le 1 k.codeId ++ le 1 k.st.code) i := by
  rw [waveHead, u8_append_left _ (by rw [fit_length]; exact hi), u8_fit _ hi]

theorem waveHead_emitter {e n : Nat} {k : Slot} (he : e < 256) : u8 (waveHead e n k) 0 = e := by
  rw [u8_waveHead (by omega)]
  exact (u8_of_byte rfl).trans (Nat.mod_eq_of_lt he)

theorem waveHead_slot {e n : Nat} {k : Slot} (hn : n < 256) : u8 (waveHead e n k) 1 = n := by
  rw [u8_waveHead (by omega)]
  exact (u8_of_byte rfl).trans (Nat.mod_eq_of_lt hn)

theorem SlotState.code_lt (st : SlotState) : st.code < 256 := by cases st <;> decide

theorem waveHead_state (e n : Nat) (k : Slot) : u8 (waveHead e n k) 4 = k.st.code := by
  rw [u8_waveHead (by omega)]
  exact (u8_of_byte rfl).trans (Nat.mod_eq_of_lt k.st.code_lt)

theorem waveHead_charge (e n : Nat) (k : Slot) : u32 (waveHead e n k) 8 = chargePj k.charge % 2 ^ 32 := by
  rw [waveHead, show (8 : Nat) = 8 + 0 from rfl, u32_append_right (n := 8) _ (fit_length 8 _)]
  simp only [u32, u16]
  rw [u8_fit _ (by omega), u8_fit _ (by omega), u8_fit _ (by omega), u8_fit _ (by omega)]
  exact u32_of_bytes rfl rfl rfl rfl

theorem u8_lt (p : List Byte) (i : Nat) : u8 p i < 256 := BitVec.isLt _

/-- The data of WAVE_READ. -/
def waveData (e n : Nat) (k : Slot) : List Byte := waveHead e n k ++ fit 512 (k.samples.map (le 2 ·)).flatten

theorem waveData_head {e n i : Nat} {k : Slot} (hi : i < 16) : u8 (waveData e n k) i = u8 (waveHead e n k) i :=
  u8_append_left _ (by rw [waveHead_length]; exact hi)

theorem waveData_sample {e n i : Nat} {k : Slot} (hi : i < 256) :
    u16 (waveData e n k) (16 + 2 * i) = k.samples.getD i 0 % 65536 := by
  rw [waveData, u16_append_right _ (waveHead_length e n k), u16_fit _ (by omega), u16_samples]

theorem waveRead_row {c : Cmd} {s : State} (h : Accepted waveReadInfo c s) :
    let k := s.slot (u8 c.payload 0) (u8 c.payload 1)
    ∃ t, exec (.waveRead c) s = .next t ∧
      Finished 0x0402 c (s.block 0 0 (chargePj k.charge)) (waveData (u8 c.payload 0) (u8 c.payload 1) k) s t ∧ t = { s with host := t.host } := by
  intro k
  obtain ⟨j, hsilent, hrun⟩ := State.run_from h
  exact ⟨_, congrArg Host.Outcome.next (hrun _), (finish_finished 0x0402 c stOk 0 (chargePj k.charge)
    (waveData (u8 c.payload 0) (u8 c.payload 1) k) (s.withJournal j)).of_silent hsilent, State.finish_frame _ _ _ _ _ _ (s.withJournal j)⟩

/-- Settles O34: a load queues its write, which a gap applies by `State.writeSlot`; WAVE_READ's data is `waveData`. -/
theorem slotWritesWaitForAGap : Obligations.SlotWritesWaitForAGap := by
  refine ⟨fun c s h => ?_, fun e n x s he hn hx => ?_, fun c s h => ?_⟩
  · intro p e he
    refine ⟨fun hclear => ?_, fun hclear => ?_⟩
    · obtain ⟨t, hstep, hrest⟩ := waveLoad_row h he (new := loadedSlot c.payload) (if_neg (by simpa using hclear)).symm
      exact ⟨t, congrArg Host.Outcome.next hstep, hrest⟩
    · obtain ⟨t, hstep, hrest⟩ := waveLoad_row h he (new := Slot.empty) (if_pos hclear).symm
      exact ⟨t, congrArg Host.Outcome.next hstep, hrest⟩
  · intro q
    refine ⟨fun hgap hpersist => ?_, fun hgap => congrArg Host.Outcome.next (waveTransfer_waits hx hgap)⟩
    exact waveTransfer_row he hn hx hgap hpersist
  · intro e k
    obtain ⟨t, hstep, hfin, hframe⟩ := waveRead_row h
    refine ⟨t, _, hstep, hfin, hframe, ?_, ?_, ?_, ?_, ?_, fun i hi => waveData_sample hi⟩
    · rw [waveData, List.length_append, waveHead_length, fit_length]
    · rw [waveData_head (by omega), waveHead_emitter (u8_lt ..)]
    · rw [waveData_head (by omega), waveHead_slot (u8_lt ..)]
    · rw [waveData_head (by omega), waveHead_state]
    · rw [waveData, u32_append_left _ (by rw [waveHead_length]; omega), waveHead_charge]

/-! ### Fades -/

theorem Live.isOf_congr {c d : Cmd} {l : Live} (hq : d.queue = c.queue) (hs : d.seq = c.seq) (ht : d.tag = c.tag) :
    Live.isOf d l = Live.isOf c l := by
  simp only [Live.isOf, hq, hs, ht]

/-- A change of an entry that keeps its command, its opcode and its index, made where the entry is a command's. -/
def Live.updateOf (c : Cmd) (f : Live → Live) (l : Live) : Live := if l.isOf c then f l else l

/-- The entry of a command takes another state. -/
def Live.withState (x : EntryState) (l : Live) : Live := { l with state := x }

theorem State.onLive_live {c : Cmd} {f : Live → Live} {s : State} (hc : c.unseq = false) :
    (s.onLive c f).host.journal.live = s.host.journal.live.map (Live.updateOf c f) ∧
      (s.onLive c f).host.journal.pendingIdx = s.host.journal.pendingIdx := by
  rw [State.onLive, if_neg (by simp [hc])]
  exact ⟨rfl, rfl⟩

theorem Live.updateOf_kept (c : Cmd) (x : EntryState) (l : Live) : (l.updateOf c (Live.withState x)).cmd = l.cmd ∧
    (l.updateOf c (Live.withState x)).opcode = l.opcode ∧ (l.updateOf c (Live.withState x)).jix = l.jix := by
  unfold Live.updateOf
  split <;> exact ⟨rfl, rfl, rfl⟩

theorem Live.isOf_updateOf (c d : Cmd) (x : EntryState) (l : Live) : (l.updateOf c (Live.withState x)).isOf d = l.isOf d := by
  simp only [Live.isOf, (Live.updateOf_kept c x l).1]

/-- A new entry state leaves every command's entry where it stands. -/
theorem State.liveOf_onLive (c d : Cmd) (x : EntryState) (s : State) :
    (s.onLive c (Live.withState x)).liveOf d = (s.liveOf d).map (Live.updateOf c (Live.withState x)) ∨
      (s.onLive c (Live.withState x)) = s := by
  cases hc : c.unseq with
  | true => exact .inr (if_pos hc)
  | false =>
    left
    unfold State.liveOf
    split
    · rfl
    · rw [(State.onLive_live hc).1, List.find?_map]
      exact congrArg (fun p => Option.map _ (List.find? p s.host.journal.live)) (funext fun l => Live.isOf_updateOf c d x l)

theorem State.acceptedBefore_onLive (a b c : Cmd) (x : EntryState) (s : State) :
    (s.onLive c (Live.withState x)).acceptedBefore a b = s.acceptedBefore a b := by
  obtain ha | h := s.liveOf_onLive c a x
  · obtain hb | h := s.liveOf_onLive c b x
    · unfold State.acceptedBefore
      rw [ha, hb]
      cases s.liveOf b with
      | none => rfl
      | some y => cases s.liveOf a <;> simp [(Live.updateOf_kept ..).2.2]
    · rw [h]
  · rw [h]

/-- A command is not accepted before itself. -/
theorem State.acceptedBefore_self {a c : Cmd} {s : State} (hq : a.queue = c.queue) (hs : a.seq = c.seq) (ht : a.tag = c.tag)
    (hlive : (s.liveOf c).isSome = true) : s.acceptedBefore a c = false := by
  have hsame : s.liveOf a = none ∨ s.liveOf a = s.liveOf c := by
    unfold State.liveOf at hlive ⊢
    split
    · exact .inl rfl
    · split at hlive
      · exact absurd hlive (by simp)
      · next hc =>
        rw [if_neg hc, show Live.isOf a = Live.isOf c from funext fun l => Live.isOf_congr hq hs ht]
        exact .inr rfl
  obtain ⟨y, hy⟩ := Option.isSome_iff_exists.1 hlive
  unfold State.acceptedBefore
  obtain h | h := hsame <;> simp [h, hy]

/-- Is an entry that of a commit which has not begun, accepted before `c`? -/
def State.commitAhead (c : Cmd) (s : State) (l : Live) : Bool := s.acceptedBefore l.cmd c && (l.opcode == 0x0301 && s.unbegun l)

theorem State.swapsAhead_eq (c : Cmd) (s : State) : s.swapsAhead c =
    (((s.sets.commits.map (·.cmd)) ++ (s.sets.waiting.filter (·.1 == 0x0301)).map (·.2)).filter fun k => s.acceptedBefore k c).length +
      (s.host.journal.live.filter (s.commitAhead c)).length := by
  rw [State.swapsAhead, State.unswapped, List.filter_append, List.length_append, List.filter_map, List.length_map, List.filter_filter]
  rfl

/-- That a command starts does not change how many swaps it waits for. -/
theorem State.swapsAhead_onLive {c : Cmd} (x : EntryState) {s : State} (hlive : (s.liveOf c).isSome = true) :
    (s.onLive c (Live.withState x)).swapsAhead c = s.swapsAhead c := by
  have hc : c.unseq = false := by
    by_contra h
    exact absurd hlive (by simp [State.liveOf, h])
  obtain ⟨hl, hp⟩ := State.onLive_live (f := Live.withState x) (s := s) hc
  have hahead : ∀ l ∈ s.host.journal.live, (s.onLive c (Live.withState x)).commitAhead c (l.updateOf c (Live.withState x)) = s.commitAhead c l := by
    intro l _
    obtain ⟨hcmd, hop, hjix⟩ := Live.updateOf_kept c x l
    unfold State.commitAhead
    rw [hcmd, hop, State.acceptedBefore_onLive]
    by_cases hof : l.isOf c
    · have hown : s.acceptedBefore l.cmd c = false := by
        simp only [Live.isOf, Bool.and_eq_true, beq_iff_eq] at hof
        exact State.acceptedBefore_self hof.1.1 hof.1.2 hof.2 hlive
      rw [hown, Bool.false_and, Bool.false_and]
    · rw [Live.updateOf, if_neg hof]
      simp only [State.unbegun, hp]
  rw [State.swapsAhead_eq, State.swapsAhead_eq, hl, List.filter_map, List.length_map]
  refine congrArg₂ _ ?_ ?_
  · rw [State.onLive_sets]
    exact congrArg (fun p => (List.filter p _).length) (funext fun k => State.acceptedBefore_onLive ..)
  · exact congrArg List.length (List.filter_congr hahead)

/-- A sequenced command that runs has an entry. -/
theorem Accepted.live {o : OpInfo} {c : Cmd} {s : State} (h : Accepted o c s) (hc : c.unseq = false) :
    (s.liveOf c).isSome = true := by
  obtain ⟨-, -, hrun⟩ := h.1
  cases hl : s.liveOf c with
  | none => exact absurd hrun (by simp [State.alreadyRun, hc, hl])
  | some l => rfl

/-- The fade that a WAVE_FADE asks for. -/
def fadeOf (c : Cmd) (swaps : Nat) : Fade :=
  { cmd := c, view := u32 c.payload 0, src := u8 c.payload 5, dst := u8 c.payload 6, n := u8 c.payload 7, i := 0, waitSwap := swaps }

theorem waveFade_row {c : Cmd} {s : State} (h : Accepted waveFadeInfo c s) (he : u8 c.payload 4 < s.emission.emitters.length) :
    ∃ t, exec (.waveFade c) s = .next t ∧ t.emitter (u8 c.payload 4) = { s.emitter (u8 c.payload 4) with fade := some (fadeOf c (s.swapsAhead c)) } ∧
      EmitterOnly (u8 c.payload 4) s t ∧ t.host.waiting = s.host.waiting ∧ HostKept c s t ∧
      t = { s with host := t.host, emission := t.emission } := by
  have hswaps := State.swapsAhead_onLive .executing (h.live (h.sequenced rfl))
  have hsilent : Silent c s (s.onLive c (Live.withState .executing)) := ⟨by simp, HostKept.onLive c _ s⟩
  have hrun := State.run_accepted _ _ (waveFadeEffect c) _ h
  obtain ⟨j, hj⟩ := s.onLive_frame c (Live.withState .executing)
  have heff : s.run waveFadeInfo c (waveFadeEffect c) =
      ((s.withJournal j).onEmitter (u8 c.payload 4) fun x => { x with fade := some (fadeOf c (s.swapsAhead c)) }).setPending
        (.emitter (u8 c.payload 4)) c := by
    rw [← hswaps, hj]
    exact hrun.trans (congrArg (waveFadeEffect c) hj)
  rw [hj] at hsilent
  obtain ⟨hw, hk⟩ := hsilent.trans ((Silent.of_host (s := s.withJournal j)
    (t := (s.withJournal j).onEmitter (u8 c.payload 4) fun x => { x with fade := some (fadeOf c (s.swapsAhead c)) }) rfl).trans
    (State.setPending_silent (.emitter (u8 c.payload 4)) c _))
  refine ⟨_, congrArg Host.Outcome.next heff, ?_, ?_, hw, hk, rfl⟩
  · exact State.emitter_onEmitter_same _ _ (s.withJournal j) he
  · exact EmitterOnly.of_onEmitter (u8 c.payload 4) _ (s.withJournal j)

theorem fadeCopy_waits {e : Nat} {f : Fade} {s : State} (hf : (s.emitter e).fade = some f)
    (h : f.i < f.n ∨ f.waitSwap ≠ 0 ∨ s.inGap e = false) : fadeCopy e s = s := by
  rw [fadeCopy, hf]
  exact if_pos (by simpa [or_assoc] using h)

theorem fadeCopy_row {e : Nat} {f : Fade} {s : State} (he : e < s.emission.emitters.length) (hf : (s.emitter e).fade = some f)
    (hsrc : f.src < (s.emitter e).slots.length) (hplayed : f.n ≤ f.i) (hswap : f.waitSwap = 0) (hgap : s.inGap e = true)
    (hdst : (s.slot e f.dst).st ≠ .empty) : ∃ t, exec (.fadeCopy e) s = .next t ∧ (t.slot e f.src).samples = (s.slot e f.dst).samples ∧
      (t.slot e f.src).charge = slotCharge s.emission.table e (s.slot e f.dst).samples (s.slot e f.dst).range2 ∧
      (∀ m, m ≠ f.src → t.slot e m = s.slot e m) ∧ (t.emitter e).fade = none ∧ EmitterOnly e s t ∧
      Finished 0x0403 f.cmd (s.block 0 0 f.n) [] s t ∧ t = { s with host := t.host, emission := t.emission } := by
  obtain ⟨hslot, hother, hem, honly, hu⟩ := State.writeSlot_facts (k := s.slot e f.dst)
    (f := fun y : Emitter => { y with fade := none }) he hsrc fun _ => rfl
  have hstep : fadeCopy e s = ((s.onEmitter e fun y => { y with fade := none }).writeSlot e f.src (s.slot e f.dst)).doneOn 0x0403
      (.emitter e) f.cmd f.n := by
    rw [fadeCopy, hf]
    exact if_neg (by simp [hplayed, hswap, hgap])
  generalize (s.onEmitter e fun y => { y with fade := none }).writeSlot e f.src (s.slot e f.dst) = u at *
  have hframe := u.doneOn_frame 0x0403 (.emitter e) f.cmd f.n
  have hfin := (u.doneOn_finished 0x0403 (.emitter e) f.cmd f.n).of_host (congrArg State.host hu)
  refine ⟨_, congrArg Host.Outcome.next hstep, ?_⟩
  generalize u.doneOn 0x0403 (.emitter e) f.cmd f.n = t at hframe hfin
  have hemission : t.emission = u.emission := by rw [hframe]
  have hemitter : ∀ k, t.emitter k = u.emitter k := fun k => by simp only [State.emitter, hemission]
  have hslots : ∀ m, t.slot e m = u.slot e m := fun m => by simp only [State.slot, hemitter]
  have hwritten : s.written e (s.slot e f.dst) = _ := if_neg hdst
  refine ⟨?_, ?_, fun m hm => (hslots m).trans (hother m hm), ?_, honly.of_emission hemission, ?_, ?_⟩
  · rw [hslots, hslot, hwritten]
  · rw [hslots, hslot, hwritten]
  · rw [hemitter, hem]
  · rw [hu] at hfin
    exact hfin
  · rw [hframe, hu]

/-- Settles O35: a fade counts the swaps ahead of it, which its own start does not change, and ends by `State.writeSlot`. -/
theorem fadeEndsWithItsDestination : Obligations.FadeEndsWithItsDestination := by
  refine ⟨fun c s h => ?_, fun e f s he hf hsrc _ => ⟨fun hplayed hswap hgap hdst => fadeCopy_row he hf hsrc hplayed hswap hgap hdst,
    fun h => congrArg Host.Outcome.next (fadeCopy_waits hf h)⟩⟩
  intro p e he
  obtain ⟨t, hstep, hem, honly, hw, hk, hframe⟩ := waveFade_row h he
  exact ⟨t, _, hstep, hem, rfl, rfl, rfl, rfl, rfl, rfl, rfl, honly, hw, hk, hframe⟩

end Sys2Proof.Machine

/-!
## What lies beside the histograms (R103, R193, R266 to R280)

Filling, closing, abandoning and releasing histograms moves the fabric, the return channels, the zone side, the ports, the check units
and Minuet's open cells. `State.beside` is all the rest of a state: it stands whatever becomes of a histogram.
-/
namespace Sys2Proof.Machine

/-- A state without what histograms move. -/
def State.beside (s : State) : State :=
  { s with
    fabric := State.reset.fabric, integrity := State.reset.integrity, net := State.reset.net, returns := State.reset.returns
    zone := State.reset.zone, sched := { s.sched with cells := [] } }

@[simp] theorem beside_ite (p : Prop) [Decidable p] (s t : State) :
    (if p then s else t).beside = if p then s.beside else t.beside := apply_ite State.beside p s t

@[simp] theorem beside_foldl {α : Type} (f : State → α → State) (l : List α) (s : State)
    (h : ∀ t a, (f t a).beside = t.beside) : (l.foldl f s).beside = s.beside := by
  induction l generalizing s with
  | nil => rfl
  | cons a l ih => exact (ih _).trans (h s a)

theorem beside_foldl_fst {α β : Type} (f : State × β → α → State × β) (l : List α) (x : State × β)
    (h : ∀ y a, (f y a).1.beside = y.1.beside) : (l.foldl f x).1.beside = x.1.beside := by
  induction l generalizing x with
  | nil => rfl
  | cons a l ih => exact (ih _).trans (h x a)

/-- The rest of two states that agree beside the histograms. -/
theorem State.frame_of_beside {s t : State} (h : t.beside = s.beside) : t = { s with
    fabric := t.fabric, integrity := t.integrity, net := t.net, returns := t.returns, zone := t.zone
    sched := { s.sched with cells := t.sched.cells } } := by
  have hsched : ({ t.sched with cells := [] } : Sched) = { s.sched with cells := [] } := (congrArg State.sched h :)
  have ht : t.sched = { s.sched with cells := t.sched.cells } :=
    (show t.sched = { ({ t.sched with cells := [] } : Sched) with cells := t.sched.cells } from rfl).trans (by rw [hsched])
  have hfields := h
  simp only [State.beside, State.mk.injEq] at hfields
  obtain ⟨hhost, hpower, hnvm, hclk, hemission, -, -, hsets, -, -, hangle, hmotion, haux, -, -, hhealth, hout, hfree, hpending⟩ := hfields
  exact State.ext_fields hhost hpower hnvm hclk hemission ht rfl hsets rfl rfl hangle hmotion haux rfl rfl hhealth hout hfree hpending

theorem State.emission_of_beside {s t : State} (h : t.beside = s.beside) :
    t.emission = s.emission := (congrArg State.emission h :)

@[simp] theorem State.onReturns_beside (f : Returns → Returns) (s : State) : (s.onReturns f).beside = s.beside := by rfl
@[simp] theorem State.onZone_beside (f : Zone → Zone) (s : State) : (s.onZone f).beside = s.beside := by rfl
@[simp] theorem State.onFabric_beside (f : Fabric → Fabric) (s : State) : (s.onFabric f).beside = s.beside := by rfl
@[simp] theorem State.onNet_beside (f : Net → Net) (s : State) : (s.onNet f).beside = s.beside := by rfl
@[simp] theorem State.onIntegrity_beside (f : Integrity → Integrity) (s : State) : (s.onIntegrity f).beside = s.beside := by rfl
@[simp] theorem State.onChannel_beside (c : Nat) (f : Channel → Channel) (s : State) : (s.onChannel c f).beside = s.beside := by
  rfl
@[simp] theorem State.onTile_beside (t : Nat) (f : Tile → Tile) (s : State) : (s.onTile t f).beside = s.beside := by rfl
@[simp] theorem State.onStream_beside (n : Nat) (f : Stream → Stream) (s : State) : (s.onStream n f).beside = s.beside := by rfl
@[simp] theorem State.onEngine_beside (g : Nat) (f : Engine → Engine) (s : State) : (s.onEngine g f).beside = s.beside := by rfl
@[simp] theorem State.onPort_beside (p : Nat) (f : Port → Port) (s : State) : (s.onPort p f).beside = s.beside := by rfl
@[simp] theorem State.onUnit_beside (u : Nat) (f : CheckUnit → CheckUnit) (s : State) : (s.onUnit u f).beside = s.beside := by
  rfl
@[simp] theorem State.unitItem_beside (u : Nat) (bytes : List Byte) (s : State) : (s.unitItem u bytes).beside = s.beside := by
  rfl
@[simp] theorem State.unitLoads_beside (u running n : Nat) (s : State) : (s.unitLoads u running n).beside = s.beside := by rfl
@[simp] theorem State.closeHist_beside (ch : Nat) (h : Hist) (s : State) : (s.closeHist ch h).beside = s.beside := by
  simp [State.closeHist]
@[simp] theorem State.updHist_beside (ch view cell epoch : Nat) (f : Hist → Hist) (s : State) :
    (s.updHist ch view cell epoch f).beside = s.beside := by simp only [State.updHist]; split <;> simp
@[simp] theorem State.driveZones_beside (s : State) : s.driveZones.beside = s.beside := by simp [State.driveZones]
@[simp] theorem State.onField_beside (n : Nat) (f : FieldRun → FieldRun) (s : State) : (s.onField n f).beside = s.beside := by
  simp [State.onField]
@[simp] theorem State.enterField_beside (n : Nat) (st : FieldState) (s : State) : (s.enterField n st).beside = s.beside := by
  simp [State.enterField]
@[simp] theorem State.decideCell_beside (n : Nat) (v : ViewDef) (j : Nat) (observed occupied : Bool) (near : Nat)
    (s : State) : (s.decideCell n v j observed occupied near).beside = s.beside := by
      simp only [State.decideCell]
      split <;> simp
@[simp] theorem State.tryField_beside (v : ViewDef) (n : Nat) (p : List Byte) (late : Bool) (x : State × ZoneCell) :
    (State.tryField v n p late x).1.beside = x.1.beside := by simp only [State.tryField]; split <;> simp
@[simp] theorem State.tryCell_beside (late : Bool) (z : ZoneCell) (s : State) :
    (State.tryCell late z s).1.beside = s.beside := by
  unfold State.tryCell; split
  · exact beside_foldl_fst _ _ _ fun x f => State.tryField_beside ..
  · rfl
@[simp] theorem State.keepCell_beside (z : ZoneCell) (s : State) : (s.keepCell z).beside = s.beside := by simp [State.keepCell]
@[simp] theorem State.zoneArrives_beside (view cell epoch : Nat) (r : ZoneResult) (s : State) :
    (s.zoneArrives view cell epoch r).beside = s.beside := by unfold State.zoneArrives; split <;> simp
@[simp] theorem State.countDown_beside (p : Nat) (c : Bool) (s : State) : (s.countDown p c).beside = s.beside := by
  simp [State.countDown]
@[simp] theorem State.closeFrame_beside (n : Nat) (s : State) : (s.closeFrame n).beside = s.beside := by
  simp only [State.closeFrame]; split <;> simp
@[simp] theorem State.placeRecord_beside (n dev tick epoch : Nat) (s : State) (rec : List Byte) :
    (s.placeRecord n dev tick epoch rec).beside = s.beside := by unfold State.placeRecord; split <;> simp
@[simp] theorem State.releaseAmbient_beside (r : Release) (s : State) : (s.releaseAmbient r).beside = s.beside := by
  unfold State.releaseAmbient; split <;> simp
@[simp] theorem State.releaseOne_beside (r : Release) (s : State) : (s.releaseOne r).beside = s.beside := by
  simp only [State.releaseOne]
  repeat' split
  all_goals simp
@[simp] theorem State.flushReleases_beside (view fuel : Nat) (s : State) : (s.flushReleases view fuel).beside = s.beside := by
  induction fuel generalizing s with
  | zero => rfl
  | succ k ih =>
    unfold State.flushReleases; split
    · split <;> simp [ih]
    · rfl
@[simp] theorem State.flushView_beside (view : Nat) (s : State) : (s.flushView view).beside = s.beside := by
  simp [State.flushView]
@[simp] theorem State.settleRelease_beside (seq : Nat) (f : Release → Release) (s : State) :
    (s.settleRelease seq f).beside = s.beside := by simp [State.settleRelease]
@[simp] theorem State.abandonHist_beside (h : Hist) (s : State) : (s.abandonHist h).beside = s.beside := by
  simp only [State.abandonHist]; split <;> simp
@[simp] theorem State.freeBuffer_beside (ch buf : Nat) (s : State) : (s.freeBuffer ch buf).beside = s.beside := by
  simp only [State.freeBuffer]
  rw [beside_foldl _ _ _ fun _ _ => State.abandonHist_beside .., State.onTile_beside]
  exact beside_foldl _ _ _ fun s g => by split <;> simp
@[simp] theorem State.endOlder_beside (ch : Nat) (s : State) : (s.endOlder ch).beside = s.beside := by simp [State.endOlder]
@[simp] theorem State.startHist_beside (v : ViewDef) (j epoch ch : Nat) (s : State) :
    (s.startHist v j epoch ch).beside = s.beside := by simp [State.startHist]
@[simp] theorem State.onCell_beside (view cell : Nat) (f : OpenCell → OpenCell) (s : State) :
    (s.onCell view cell f).beside = s.beside := by rfl
@[simp] theorem State.ensureHist_beside (v : ViewDef) (j epoch ch : Nat) (s : State) :
    (s.ensureHist v j epoch ch).beside = s.beside := by simp [State.ensureHist]
@[simp] theorem State.closeCellOn_beside (v : ViewDef) (c : OpenCell) (m : Nat) (s : State) (x : Nat × Nat) :
    (s.closeCellOn v c m x).beside = s.beside := by simp [State.closeCellOn]
@[simp] theorem State.closeCell_beside (m : Nat) (s : State) (c : OpenCell) : (s.closeCell m c).beside = s.beside := by
  unfold State.closeCell; split
  · exact beside_foldl _ _ _ fun _ _ => State.closeCellOn_beside ..
  · rfl
@[simp] theorem State.abandonWindow_beside (ch : Nat) (s : State) : (s.abandonWindow ch).beside = s.beside := by
  simp [State.abandonWindow]
@[simp] theorem State.abandonWindows_beside (s : State) : s.abandonWindows.beside = s.beside := by simp [State.abandonWindows]

end Sys2Proof.Machine

/-!
## What a registered cause does (R192, R193), and the enable inputs (R194, R232, R233)
-/
namespace Sys2Proof.Machine

/-! ### One output is parked -/

/-- From `s` to `t` the emission side has moved in the ledger's rows and in one emitter alone. -/
def OutputMoved (e : Nat) (s t : State) : Prop :=
  t.emission = { s.emission with rows := t.emission.rows, emitters := t.emission.emitters } ∧
    t.emission.emitters.length = s.emission.emitters.length ∧ ∀ k, k ≠ e → t.emitter k = s.emitter k

theorem OutputMoved.refl (e : Nat) (s : State) : OutputMoved e s s := ⟨rfl, rfl, fun _ _ => rfl⟩

theorem OutputMoved.trans {e : Nat} {s t u : State} (h : OutputMoved e s t) (k : OutputMoved e t u) : OutputMoved e s u := by
  obtain ⟨h1, h2, h3⟩ := h
  obtain ⟨k1, k2, k3⟩ := k
  exact ⟨by rw [k1, h1], k2.trans h2, fun n hn => (k3 n hn).trans (h3 n hn)⟩

theorem OutputMoved.of_emission {e : Nat} {s t : State} (h : t.emission = s.emission) : OutputMoved e s t :=
  ⟨by rw [h], by rw [h], fun n _ => by simp only [State.emitter, h]⟩

theorem State.onEmitter_moved (e : Nat) (f : Emitter → Emitter) (s : State) : OutputMoved e s (s.onEmitter e f) :=
  ⟨rfl, List.length_modify .., fun k hk => State.emitter_onEmitter_ne e k f s hk⟩

theorem State.unreserve_moved (e q : Nat) (s : State) : OutputMoved e s (s.unreserve e q) := ⟨rfl, rfl, fun _ _ => rfl⟩

theorem State.charge_moved (e de : Nat) (s : State) : OutputMoved e s (s.charge e de) :=
  (show OutputMoved e s (s.onEmission fun m => { m with rows := (m.rows.modify e (LedgerRow.addTo m de)).modify 16 (LedgerRow.addTo m de) }) from
    ⟨rfl, rfl, fun _ _ => rfl⟩).trans (State.onEmitter_moved ..)

theorem State.settle_moved (e : Nat) (s : State) : OutputMoved e s (s.settle e) := by
  simp only [State.settle]
  split
  · exact (State.charge_moved ..).trans ((State.unreserve_moved ..).trans (State.onEmitter_moved ..))
  · exact (State.charge_moved ..).trans (State.onEmitter_moved ..)
  · exact (State.charge_moved ..).trans (State.onEmitter_moved ..)
  · exact (State.charge_moved ..).trans (State.onEmitter_moved ..)
  · exact OutputMoved.refl e s

/-- Is an output of the emission side unlit? -/
def State.unlit (e : Nat) (s : State) : Prop := (s.emitter e).out.lit = false

theorem State.restOut_unlit (e : Nat) (s : State) : (s.restOut e).lit = false := by
  unfold State.restOut
  split <;> rfl

theorem State.parkOutput_moved (e : Nat) (s : State) : OutputMoved e s (s.parkOutput e) := by
  simp only [State.parkOutput]
  split
  · exact (s.settle_moved e).trans ((State.unreserve_moved ..).trans (State.onEmitter_moved ..))
  · exact (s.settle_moved e).trans (State.onEmitter_moved ..)
  · exact s.settle_moved e
  · exact s.settle_moved e
  · exact s.settle_moved e

theorem State.parkOutput_unlit {e : Nat} {s : State} (he : e < s.emission.emitters.length) : (s.parkOutput e).unlit e := by
  have hlen : e < (s.settle e).emission.emitters.length := by rw [(s.settle_moved e).2.1]; exact he
  simp only [State.parkOutput, State.unlit]
  split
  · rw [State.emitter_onEmitter_same _ _ _ (by exact hlen)]
    rfl
  · rw [State.emitter_onEmitter_same _ _ _ hlen]
    exact State.restOut_unlit ..
  · next h => rw [h]; rfl
  · next h => rw [h]; rfl
  · next h => rw [h]; rfl

theorem State.endDirect_moved (e st det : Nat) (s : State) : OutputMoved e s (s.endDirect e st det) := by
  unfold State.endDirect
  split
  · exact (s.parkOutput_moved e).trans (OutputMoved.of_emission (State.finish_emission ..))
  · exact OutputMoved.refl e s

theorem State.abandonFade_facts (e det : Nat) (running : Bool) (s : State) : OutputMoved e s (s.abandonFade e det running) ∧
    (e < s.emission.emitters.length → s.unlit e → (s.abandonFade e det running).unlit e) := by
  unfold State.abandonFade
  split
  · split
    · exact ⟨OutputMoved.refl e s, fun _ h => h⟩
    · simp only []
      generalize hu : (s.onEmitter e fun x => { x with fade := none }) = u
      next f _ _ =>
      have hem : ((u.applied (.emitter e) f.cmd (s.block stFaultEmission det 0)).finishWith opWaveFadeCode f.cmd
        (s.block stFaultEmission det 0) []).emission = u.emission := by simp
      refine ⟨(hu ▸ State.onEmitter_moved e _ s).trans (OutputMoved.of_emission hem), fun he h => ?_⟩
      simp only [State.unlit, State.emitter, hem]
      rw [← hu]
      exact (congrArg (fun x : Emitter => x.out.lit) (State.emitter_onEmitter_same e (fun x => { x with fade := none }) s he)).trans h
  · exact ⟨OutputMoved.refl e s, fun _ h => h⟩

/-! ### Every output is parked -/

/-- One output as an inhibit leaves it: its direct play and its running fade end, and it parks. -/
def State.parkOne (s : State) (e : Nat) : State := ((s.endDirect e stFaultEmission 3).parkOutput e).abandonFade e 1 true

theorem State.parkOne_facts (e : Nat) (s : State) : OutputMoved e s (s.parkOne e) ∧
    (e < s.emission.emitters.length → (s.parkOne e).unlit e) := by
  have hend := s.endDirect_moved e stFaultEmission 3
  have hpark := hend.trans ((s.endDirect e stFaultEmission 3).parkOutput_moved e)
  obtain ⟨hfade, hunlit⟩ := ((s.endDirect e stFaultEmission 3).parkOutput e).abandonFade_facts e 1 true
  refine ⟨hpark.trans hfade, fun he => hunlit (by rw [hpark.2.1]; exact he) (State.parkOutput_unlit ?_)⟩
  rw [hend.2.1]
  exact he

/-- The emission side but for the ledger's rows and the emitters, whose number stands. -/
def EmittersMoved (s t : State) : Prop :=
  t.emission = { s.emission with rows := t.emission.rows, emitters := t.emission.emitters } ∧
    t.emission.emitters.length = s.emission.emitters.length

theorem EmittersMoved.trans {s t u : State} (h : EmittersMoved s t) (k : EmittersMoved t u) : EmittersMoved s u := by
  obtain ⟨h1, h2⟩ := h
  obtain ⟨k1, k2⟩ := k
  exact ⟨by rw [k1, h1], k2.trans h2⟩

theorem OutputMoved.all {e : Nat} {s t : State} (h : OutputMoved e s t) : EmittersMoved s t := ⟨h.1, h.2.1⟩

theorem EmittersMoved.of_emission {s t : State} (h : t.emission = s.emission) : EmittersMoved s t := ⟨by rw [h], by rw [h]⟩

theorem State.parkOnes_facts (l : List Nat) (s : State) : EmittersMoved s (l.foldl State.parkOne s) ∧
    ∀ e, e < s.emission.emitters.length → e ∈ l ∨ s.unlit e → (l.foldl State.parkOne s).unlit e := by
  induction l generalizing s with
  | nil => exact ⟨⟨rfl, rfl⟩, fun e _ h => h.resolve_left (by simp)⟩
  | cons a l ih =>
    obtain ⟨hmoved, hpark⟩ := s.parkOne_facts a
    obtain ⟨hall, hunlit⟩ := ih (s.parkOne a)
    refine ⟨hmoved.all.trans hall, fun e he h => hunlit e (by rw [hmoved.2.1]; exact he) ?_⟩
    by_cases hea : e = a
    · exact .inr (hea ▸ hpark (hea ▸ he))
    · refine (h.imp (fun hm => (List.mem_cons.1 hm).resolve_left hea) fun hs => ?_)
      rw [State.unlit, hmoved.2.2 e hea]
      exact hs

theorem State.parkAll_eq (s : State) : s.parkAll = (List.range 16).foldl State.parkOne s := rfl

theorem State.dark_of_unlit {s : State} (h : ∀ e, e < s.emission.emitters.length → s.unlit e) : Dark s := by
  intro x hx
  obtain ⟨e, he, rfl⟩ := List.mem_iff_getElem.1 hx
  have hu := h e he
  rwa [State.unlit, State.emitter, List.getD_eq_getElem _ _ he] at hu

theorem State.parkAll_dark {s : State} (hlen : s.emission.emitters.length = 16) : Dark s.parkAll := by
  obtain ⟨hmoved, hunlit⟩ := s.parkOnes_facts (List.range 16)
  refine State.dark_of_unlit fun e he => hunlit e ?_ (.inl (List.mem_range.2 ?_))
  · rwa [State.parkAll_eq, hmoved.2] at he
  · rwa [State.parkAll_eq, hmoved.2, hlen] at he

/-! ### The plan behind a registered cause -/

@[simp] theorem State.charge_sched (e de : Nat) (s : State) : (s.charge e de).sched = s.sched := by rfl
@[simp] theorem State.unreserve_sched (e q : Nat) (s : State) : (s.unreserve e q).sched = s.sched := by rfl
@[simp] theorem State.settle_sched (e : Nat) (s : State) : (s.settle e).sched = s.sched := by
  simp only [State.settle]; split <;> simp
@[simp] theorem State.parkOutput_sched (e : Nat) (s : State) : (s.parkOutput e).sched = s.sched := by
  simp only [State.parkOutput]; split <;> simp
@[simp] theorem State.endDirect_sched (e st det : Nat) (s : State) : (s.endDirect e st det).sched = s.sched := by
  unfold State.endDirect; split <;> simp
@[simp] theorem State.abandonFade_sched (e det : Nat) (running : Bool) (s : State) :
    (s.abandonFade e det running).sched = s.sched := by unfold State.abandonFade; split <;> simp
@[simp] theorem State.parkAll_sched (s : State) : s.parkAll.sched = s.sched :=
  sched_foldl _ _ _ fun _ _ => by simp
@[simp] theorem State.releaseDescriptor_sched (s : State) (d : Descriptor) : (s.releaseDescriptor d).sched = s.sched := by
  simp [State.releaseDescriptor]

theorem State.releaseDescriptors_moved (l : List Descriptor) (s : State) :
    EmittersMoved s (l.foldl State.releaseDescriptor s) ∧
      (l.foldl State.releaseDescriptor s).emission.emitters = s.emission.emitters := by
  induction l generalizing s with
  | nil => exact ⟨⟨rfl, rfl⟩, rfl⟩
  | cons d l ih =>
    obtain ⟨hmoved, hsame⟩ := ih (s.releaseDescriptor d)
    have hone : EmittersMoved s (s.releaseDescriptor d) ∧ (s.releaseDescriptor d).emission.emitters = s.emission.emitters := by
      unfold State.releaseDescriptor
      split <;> exact ⟨⟨rfl, rfl⟩, rfl⟩
    exact ⟨hone.1.trans hmoved, hsame.trans hone.2⟩

/-- The plan without a queued descriptor, before the open cells close. -/
def State.planDropped (gone : List Descriptor) (s : State) : State :=
  (gone.foldl State.releaseDescriptor s).onSched fun k =>
    { k with queue := [], current := k.current.map fun _ => none, inhibitedTotal := satAdd 32 k.inhibitedTotal gone.length }

/-- The open cells close and the windows that have not begun are abandoned. -/
def State.cellsClosed (m : Nat) (cells : List OpenCell) (s : State) : State :=
  (cells.foldl (State.closeCell m) s).abandonWindows

theorem State.cellsClosed_beside (m : Nat) (cells : List OpenCell) (s : State) : (s.cellsClosed m cells).beside = s.beside :=
  (State.abandonWindows_beside _).trans (beside_foldl _ _ _ fun _ _ => State.closeCell_beside ..)

/-- The outputs are parked, and the plan is emptied behind them. -/
theorem State.inhibitNow_eq (cause : Nat) (s : State) : ∃ u gone m cells lastStamp, u = s.parkAll ∧ s.inhibitNow cause =
    ((u.planDropped gone).cellsClosed m cells).onSched fun k => { k with lastStamp := lastStamp, inhibitSeen := true } := by
  unfold State.inhibitNow
  generalize s.parkAll = u
  exact ⟨u, _, _, _, _, rfl, rfl⟩

theorem State.planDropped_facts (gone : List Descriptor) (s : State) : (s.planDropped gone).sched.inhibit = s.sched.inhibit ∧
    (s.planDropped gone).sched.queue = [] ∧ EmittersMoved s (s.planDropped gone) ∧
    (s.planDropped gone).emission.emitters = s.emission.emitters := by
  obtain ⟨hmoved, hsame⟩ := State.releaseDescriptors_moved gone s
  exact ⟨(congrArg Sched.inhibit (sched_foldl State.releaseDescriptor gone s State.releaseDescriptor_sched) :), rfl, hmoved, hsame⟩

/-- The first cause empties the queue and darkens every output, and registers nothing itself. -/
theorem State.inhibitNow_facts (cause : Nat) (s : State) : (s.inhibitNow cause).sched.inhibit = s.sched.inhibit ∧
    (s.inhibitNow cause).sched.queue = [] ∧ EmittersMoved s (s.inhibitNow cause) ∧
    (s.emission.emitters.length = 16 → Dark (s.inhibitNow cause)) := by
  obtain ⟨u, gone, m, cells, lastStamp, hu, heq⟩ := s.inhibitNow_eq cause
  have husched : u.sched = s.sched := hu ▸ s.parkAll_sched
  have humoved : EmittersMoved s u := by
    rw [hu, State.parkAll_eq]
    exact (s.parkOnes_facts (List.range 16)).1
  have hudark : s.emission.emitters.length = 16 → Dark u := fun hlen => hu ▸ State.parkAll_dark hlen
  obtain ⟨hinhibit, hqueue, hmoved, hsame⟩ := u.planDropped_facts gone
  have hbeside := (u.planDropped gone).cellsClosed_beside m cells
  have hsched := State.frame_of_beside hbeside
  have hem := State.emission_of_beside hbeside
  generalize (u.planDropped gone).cellsClosed m cells = v at hsched hem heq
  rw [heq]
  refine ⟨?_, ?_, ?_, fun hlen => ?_⟩
  · change v.sched.inhibit = _
    rw [hsched, ← husched]
    exact hinhibit
  · change v.sched.queue = _
    rw [hsched]
    exact hqueue
  · exact (humoved.trans hmoved).trans (EmittersMoved.of_emission hem)
  · intro x hx
    refine hudark hlen x ?_
    rw [← hsame, ← hem]
    exact hx

/-- A registered cause stands from then on; the first of them darkens the device. -/
theorem State.registerCause_facts (cause : Nat) (s : State) :
    (s.registerCause cause).sched.inhibit = s.sched.inhibit ||| bit6 cause ∧
    EmittersMoved s (s.registerCause cause) ∧ (s.inhibited = false → (s.registerCause cause).sched.queue = [] ∧
      (s.emission.emitters.length = 16 → Dark (s.registerCause cause))) := by
  obtain ⟨hinhibit, hqueue, hmoved, hdark⟩ := s.inhibitNow_facts cause
  cases h : s.inhibited with
  | true =>
    have heq : s.registerCause cause = s.onSched fun k => { k with inhibit := k.inhibit ||| bit6 cause } := by
      unfold State.registerCause
      rw [if_pos h]
    rw [heq]
    exact ⟨rfl, ⟨rfl, rfl⟩, fun hc => nomatch hc⟩
  | false =>
    have heq : s.registerCause cause = (s.inhibitNow cause).onSched fun k => { k with inhibit := k.inhibit ||| bit6 cause } := by
      unfold State.registerCause
      rw [if_neg (by simp [h])]
    rw [heq]
    generalize s.inhibitNow cause = v at hinhibit hqueue hmoved hdark ⊢
    exact ⟨congrArg (· ||| bit6 cause) hinhibit, hmoved, fun _ => ⟨hqueue, hdark⟩⟩

end Sys2Proof.Machine

/-!
## The enable inputs, the scan speed and the reservoirs (R194, R232, R233, R237, R238)
-/
namespace Sys2Proof.Machine

/-! ### EMIT_EN_EDGE -/

/-- The emission side with the inputs registered as `a` and `b`. -/
def State.withInputs (a b : Bool) (s : State) : State :=
  s.onEmission fun m =>
    { m with enA := a, enB := b, enHighSince := sinceWhen (a && b) s.now m.enHighSince,
             enLowSince := sinceWhen (!a && !b) s.now m.enLowSince, enDiffSince := sinceWhen (a != b) s.now m.enDiffSince,
             enAtA := if a = m.enA then m.enAtA else some s.now, enAtB := if b = m.enB then m.enAtB else some s.now }

theorem emitEnEdge_eq (a b : Bool) {p q : Bool} {s : State} (hp : p = s.enRegistered s.emission.enA a s.emission.enAtA)
    (hq : q = s.enRegistered s.emission.enB b s.emission.enAtB) :
    emitEnEdge a b s = if (s.emission.enEval && !(p && q)) = true then (s.withInputs p q).registerCause causeEmitEn else s.withInputs p q := by
  subst hp hq
  rfl

theorem emitEnEdge_low {a b p q : Bool} {s : State} (hp : p = s.enRegistered s.emission.enA a s.emission.enAtA)
    (hq : q = s.enRegistered s.emission.enB b s.emission.enAtB) (heval : s.emission.enEval = true) (hlow : (p && q) = false)
    (hlen : s.emission.emitters.length = 16) : ∃ t, exec (.emitEnEdge a b) s = .next t ∧
      EmittersMoved (s.withInputs p q) t ∧ t.sched.inhibit = s.sched.inhibit ||| 0x10#6 ∧
      (s.inhibited = false → Dark t ∧ t.sched.queue = []) := by
  have hstep : emitEnEdge a b s = (s.withInputs p q).registerCause causeEmitEn := (emitEnEdge_eq a b hp hq).trans (if_pos (by simp [heval, hlow]))
  obtain ⟨hinhibit, hmoved, hfirst⟩ := (s.withInputs p q).registerCause_facts causeEmitEn
  exact ⟨_, congrArg Host.Outcome.next hstep, hmoved, hinhibit, fun h => ⟨(hfirst h).2 hlen, (hfirst h).1⟩⟩

/-! ### Causes that clear -/

theorem getLsbD_clear_same (x : BitVec 6) {c : Nat} (hc : c < 6) : (x &&& ~~~ bit6 c).getLsbD c = false := by
  interval_cases c <;> simp [bit6]

theorem getLsbD_clear_ne (x : BitVec 6) {b c : Nat} (hb : b < 6) (hc : c < 6) (h : b ≠ c) :
    (x &&& ~~~ bit6 c).getLsbD b = x.getLsbD b := by
  interval_cases c <;> interval_cases b <;> simp [bit6] at h ⊢

/-- A cause that clears leaves the others, and starts emission again with the last of them. -/
theorem State.clearCause_facts {cause : Nat} (hc : cause < 6) (s : State) :
    (s.clearCause cause).sched.inhibit.getLsbD cause = false ∧
    (∀ b, b < 6 → b ≠ cause → (s.clearCause cause).sched.inhibit.getLsbD b = s.sched.inhibit.getLsbD b) ∧
    s.clearCause cause = { s with sched := { s.sched with
      inhibit := (s.clearCause cause).sched.inhibit, resumeAt := (s.clearCause cause).sched.resumeAt } } :=
  ⟨getLsbD_clear_same _ hc, fun _ hb hne => getLsbD_clear_ne _ hb hc hne, rfl⟩

theorem emitEnClear_due {t0 : Nat} {s : State} (heval : s.emission.enEval = true) (hhigh : s.emission.enHighSince = some t0)
    (hheld : t0 + 10 * 1280000 ≤ s.clk.now) (hdisc : s.emission.enDiscrepancy = false) (hset : s.sched.inhibit.getLsbD 4 = true) :
    emitEnClear s = s.clearCause causeEmitEn := by
  have hfor : s.heldFor s.emission.enHighSince (ms 10) = true := State.heldFor_iff.2 ⟨t0, hhigh, hheld⟩
  have hcause : s.causeSet causeEmitEn = true := hset
  rw [emitEnClear, if_pos (by simp only [heval, hfor, hdisc, hcause]; rfl)]

theorem emitEnClear_early {t0 : Nat} {s : State} (hhigh : s.emission.enHighSince = some t0) (hshort : s.clk.now < t0 + 10 * 1280000) :
    emitEnClear s = s := by
  have hfor : s.heldFor s.emission.enHighSince (ms 10) = false := by
    refine Bool.eq_false_iff.2 fun h => ?_
    obtain ⟨t1, ht1, hle⟩ := State.heldFor_iff.1 h
    obtain rfl : t0 = t1 := Option.some.inj (hhigh.symm.trans ht1)
    exact absurd hle (Nat.not_le.2 hshort)
  rw [emitEnClear, if_neg (by simp only [hfor, Bool.and_false, Bool.false_and]; exact Bool.false_ne_true)]

theorem enDiscrepancy_due {t0 : Nat} {s : State} (heval : s.emission.enEval = true) (hdiff : s.emission.enDiffSince = some t0)
    (hheld : t0 + 50 * 1280000 ≤ s.clk.now) : enDiscrepancy s = { s with emission := { s.emission with enDiscrepancy := true } } := by
  have hfor : s.heldFor s.emission.enDiffSince (ms 50) = true := State.heldFor_iff.2 ⟨t0, hdiff, hheld⟩
  rw [enDiscrepancy, if_pos (by simp only [heval, hfor]; rfl)]
  rfl

theorem enDiscrepancyClear_due {t0 : Nat} {s : State} (hlow : s.emission.enLowSince = some t0) (hheld : t0 + 10 * 1280000 ≤ s.clk.now) :
    enDiscrepancyClear s = { s with emission := { s.emission with enDiscrepancy := false } } := by
  have hfor : s.heldFor s.emission.enLowSince (ms 10) = true := State.heldFor_iff.2 ⟨t0, hlow, hheld⟩
  rw [enDiscrepancyClear, if_pos hfor]
  rfl

theorem enDiscrepancyClear_high {s : State} (h : s.emission.enLowSince = none) : enDiscrepancyClear s = s := by
  rw [enDiscrepancyClear, h]
  rfl

theorem speedLowClear_due {s : State} (hcount : 64 ≤ s.emission.speedCount) (hset : s.sched.inhibit.getLsbD 3 = true) :
    speedLowClear s = s.clearCause causeSpeed := by
  have hcause : s.causeSet causeSpeed = true := hset
  rw [speedLowClear, if_pos (by simp [hcount, hcause])]

theorem speedLowClear_early {s : State} (hcount : s.emission.speedCount < 64) : speedLowClear s = s := by
  rw [speedLowClear, if_neg (by simp; omega)]

/-- Settles O39: an edge that leaves an input low registers EMIT_EN by `State.registerCause`; the rest are the conditions' two sides. -/
theorem enableInputsGateEmission : Obligations.EnableInputsGateEmission := by
  refine ⟨fun a b s => ?_, fun t0 s heval hhigh hheld hdisc hset => ?_,
    fun t0 s hhigh hshort => congrArg Host.Outcome.next (emitEnClear_early hhigh hshort),
    fun t0 s heval hdiff hheld => congrArg Host.Outcome.next (enDiscrepancy_due heval hdiff hheld),
    fun t0 s hlow hheld => congrArg Host.Outcome.next (enDiscrepancyClear_due hlow hheld),
    fun s h => congrArg Host.Outcome.next (enDiscrepancyClear_high h), fun s hcount hset => ?_,
    fun s h => congrArg Host.Outcome.next (speedLowClear_early h)⟩
  · intro m settled p q since n
    have hp : p = s.enRegistered m.enA a m.enAtA := rfl
    have hq : q = s.enRegistered m.enB b m.enAtB := rfl
    refine ⟨fun heval hlow hlen => ?_, fun h => congrArg Host.Outcome.next ((emitEnEdge_eq a b hp hq).trans (if_neg ?_))⟩
    · obtain ⟨t, hstep, ⟨hem, -⟩, hinhibit, hfirst⟩ := emitEnEdge_low hp hq heval hlow hlen
      refine ⟨t, hstep, ?_, ?_, ?_, ?_, ?_, hinhibit, hfirst⟩
      · rw [hem]; rfl
      · rw [hem]; rfl
      · rw [hem]; rfl
      · rw [hem]; rfl
      · rw [hem]
        change sinceWhen (p && q) _ _ = none
        rw [hlow]
        rfl
    · change ¬ (m.enEval && !(p && q)) = true
      obtain h | h := h <;> simp [h]
  · obtain ⟨hclear, hother, hframe⟩ := s.clearCause_facts (cause := 4) (by decide)
    exact ⟨_, congrArg Host.Outcome.next (emitEnClear_due heval hhigh hheld hdisc hset), hclear, hother, hframe⟩
  · obtain ⟨hclear, hother, hframe⟩ := s.clearCause_facts (cause := 3) (by decide)
    exact ⟨_, congrArg Host.Outcome.next (speedLowClear_due hcount hset), hclear, hother, hframe⟩

/-! ### Reservoirs -/

theorem State.reservoir_onReservoir_same {k : Nat} {f : Reservoir → Reservoir} {s : State} (h : k < s.emission.reservoirs.length) :
    (s.onReservoir k f).reservoir k = f (s.reservoir k) := by
  simp [State.reservoir, State.onReservoir, State.onEmission, h]

theorem State.reservoir_onReservoir_ne {k j : Nat} {f : Reservoir → Reservoir} {s : State} (h : j ≠ k) :
    (s.onReservoir k f).reservoir j = s.reservoir j := by
  simp [State.reservoir, State.onReservoir, State.onEmission, h.symm]

/-- A reservoir with the settings of RES_CONFIG. -/
def Reservoir.configured (on : Bool) (vSet : Nat) (r : Reservoir) : Reservoir :=
  { r with enabled := on, vSet := vSet, ctl := r.ctl && on, refused := r.refused && !on, low := r.low && !on, overSince := none,
           lowSince := none }

theorem resConfig_row {c : Cmd} {s : State} (h : Accepted resConfigInfo c s) (hk : u8 c.payload 0 < s.emission.reservoirs.length) :
    ∃ t, exec (.resConfig c) s = .next t ∧
      t.reservoir (u8 c.payload 0) = (s.reservoir (u8 c.payload 0)).configured (bit (u8 c.payload 1) 0) (u16 c.payload 2) ∧
      (∀ j, j ≠ u8 c.payload 0 → t.reservoir j = s.reservoir j) ∧
      t.emission = { s.emission with reservoirs := t.emission.reservoirs } ∧ Finished 0x0409 c (s.block 0 0 0) [] s t ∧
      t = { s with host := t.host, emission := t.emission } := by
  obtain ⟨j, hsilent, hrun⟩ := State.run_from h
  let u := (s.withJournal j).onReservoir (u8 c.payload 0) (Reservoir.configured (bit (u8 c.payload 1) 0) (u16 c.payload 2))
  have heff : resConfigEffect c (s.withJournal j) = u.done 0x0409 c 0 := rfl
  have hframe := u.done_frame 0x0409 c 0
  have hres : ∀ k, (u.done 0x0409 c 0).reservoir k = u.reservoir k := fun k => by rw [hframe]; rfl
  refine ⟨_, congrArg Host.Outcome.next ((hrun _).trans heff), ?_, fun k hne => ?_, ?_,
    State.angle_then_done 0x0409 c 0 (hsilent.trans (Silent.of_host rfl)) rfl rfl, ?_⟩
  · rw [hres]
    exact State.reservoir_onReservoir_same (s := s.withJournal j) hk
  · rw [hres]
    exact State.reservoir_onReservoir_ne (s := s.withJournal j) hne
  · rw [hframe]
    rfl
  · generalize u.done 0x0409 c 0 = t at hframe
    rw [hframe]
    rfl

/-- RES_CTL of a reservoir after a sample of `v`, with the voltage `set` asked for. -/
def Reservoir.drive (v set : Nat) (r : Reservoir) : Bool :=
  r.enabled && !r.resOver && (if set ≤ v then false else if v * 64 < set * 63 then true else r.ctl)

theorem Reservoir.drive_high {v set : Nat} {r : Reservoir} (hen : r.enabled = true) (hover : r.resOver = false) (h : v * 64 < set * 63) :
    r.drive v set = true := by
  have hlow : ¬ set ≤ v := by omega
  simp [Reservoir.drive, hen, hover, hlow, h]

theorem Reservoir.drive_full {v set : Nat} {r : Reservoir} (h : set ≤ v) : r.drive v set = false := by
  simp [Reservoir.drive, h]

theorem Reservoir.drive_disabled {v set : Nat} {r : Reservoir} (h : r.enabled = false) : r.drive v set = false := by
  simp [Reservoir.drive, h]

theorem resMonSample_row {k : Nat} (mv : Nat) {s : State} (hk : k < s.emission.reservoirs.length) :
    ∃ t, exec (.resMonSample k mv) s = .next t ∧ (t.reservoir k).volt = mv * ltResDiv s.emission.table k / 1600 ∧
      (t.reservoir k).ctl = (s.reservoir k).drive (mv * ltResDiv s.emission.table k) (1600 * (s.reservoir k).vSet) ∧
      (∀ j, j ≠ k → t.reservoir j = s.reservoir j) ∧ t = { s with emission := { s.emission with reservoirs := t.emission.reservoirs } } := by
  refine ⟨_, rfl, ?_, ?_, fun j hj => State.reservoir_onReservoir_ne hj, rfl⟩
  · exact congrArg Reservoir.volt (State.reservoir_onReservoir_same hk)
  · exact congrArg Reservoir.ctl (State.reservoir_onReservoir_same hk)

theorem resOver_row {k t0 : Nat} {s : State} (hk : k < s.emission.reservoirs.length) (hover : (s.reservoir k).overSince = some t0)
    (hheld : t0 + 12800 ≤ s.clk.now) (hfirst : (s.reservoir k).resOver = false) (hlen : s.emission.emitters.length = 16) :
    ∃ t, exec (.resOver k) s = .next t ∧ t.reservoir k = { s.reservoir k with ctl := false, resOver := true } ∧
      t.emission.ledgerRow = 0xFE ∧ t.sched.inhibit = s.sched.inhibit ||| 0x02#6 ∧ (s.inhibited = false → Dark t) := by
  let u := (s.onReservoir k fun r => { r with ctl := false, resOver := true }).onEmission fun m => { m with resOverSeen := true }
  have hfor : s.heldFor (s.reservoir k).overSince (us 10) = true := State.heldFor_iff.2 ⟨t0, hover, hheld⟩
  have hstep : resOver k s = u.registerLedger 0xFE 0 := by
    rw [resOver, if_pos (by simp only [hfor, hfirst]; rfl)]
  obtain ⟨hinhibit, ⟨hem, -⟩, hdark⟩ := u.registerCause_facts causeLedger
  refine ⟨_, congrArg Host.Outcome.next hstep, ?_, rfl, hinhibit, fun h => (hdark h).2 hlen⟩
  unfold State.registerLedger
  generalize u.registerCause causeLedger = v at hem
  have hres : v.emission.reservoirs = u.emission.reservoirs := by rw [hem]
  change v.emission.reservoirs.getD k Reservoir.reset = _
  rw [hres]
  exact State.reservoir_onReservoir_same hk

theorem resLow_row {k t0 : Nat} {s : State} (hk : k < s.emission.reservoirs.length) (hlow : (s.reservoir k).lowSince = some t0)
    (hheld : t0 + 10 * 1280000 ≤ s.clk.now) : ∃ t, exec (.resLow k) s = .next t ∧ t.reservoir k = { s.reservoir k with low := true } ∧
      (∀ j, j ≠ k → t.reservoir j = s.reservoir j) ∧ t = { s with emission := { s.emission with reservoirs := t.emission.reservoirs } } := by
  have hfor : s.heldFor (s.reservoir k).lowSince (ms 10) = true := State.heldFor_iff.2 ⟨t0, hlow, hheld⟩
  exact ⟨_, congrArg Host.Outcome.next (if_pos hfor), State.reservoir_onReservoir_same hk, fun _ hj => State.reservoir_onReservoir_ne hj, rfl⟩

/-- Settles O40: each reservoir's event is its row; RES_CTL follows `Reservoir.drive`. -/
theorem reservoirsStayWithinBudget : Obligations.ReservoirsStayWithinBudget := by
  refine ⟨fun c s h => ?_, fun k mv s hk => ?_, fun k t0 s hk hover hheld hfirst hlen => ?_, fun k t0 s hk hlow hheld => resLow_row hk hlow hheld⟩
  · intro p k hk
    obtain ⟨t, hstep, hres, hother, hem, hfin, hframe⟩ := resConfig_row h hk
    refine ⟨t, hstep, ?_, ?_, ?_, fun hoff => ?_, hother, hem, hfin, hframe⟩
    · rw [hres]; rfl
    · rw [hres]; rfl
    · rw [hres]; rfl
    · rw [hres, hoff]
      exact Bool.and_false _
  · intro v set
    obtain ⟨t, hstep, hvolt, hctl, hother, hframe⟩ := resMonSample_row mv hk
    refine ⟨t, hstep, hvolt, fun hen hover h => hctl.trans (Reservoir.drive_high hen hover h), fun h => hctl.trans (Reservoir.drive_full h),
      fun h => hctl.trans (Reservoir.drive_disabled h), hother, ?_, ?_⟩
    · conv_lhs => rw [hframe]
      rw [hframe]
    · rw [hframe]
  · obtain ⟨t, hstep, hres, hrow, hinhibit, hdark⟩ := resOver_row hk hover hheld hfirst hlen
    exact ⟨t, hstep, by rw [hres], by rw [hres], hrow, hinhibit, hdark⟩

end Sys2Proof.Machine

/-!
## SiPM bias (R252 to R254, R262)
-/
namespace Sys2Proof.Machine

/-! ### The end of a waiting BIAS_CONFIG -/

/-- A state with another bias. -/
def State.withBias (b : Bias) (s : State) : State := { s with returns := { s.returns with bias := b } }

theorem State.endBias_none {st det : Nat} {s : State} (h : s.bias.cmd = none) : s.endBias st det = s := by
  rw [State.endBias, h]

theorem State.endBias_some {st det : Nat} {c : Cmd} {s : State} (h : s.bias.cmd = some c) :
    s.endBias st det =
      if bcPersist c.payload = true then (s.withBias { s.bias with cmd := none }).storeAfter 0x0982 recBias c (s.block st det s.bias.tens)
      else (s.withBias { s.bias with cmd := none }).finish 0x0982 c st det s.bias.tens [] := by
  rw [State.endBias, h]
  rfl

/-- Without PERSIST the reply follows at once. -/
theorem State.endBias_finishes {st det : Nat} {c : Cmd} {s : State} (h : s.bias.cmd = some c) (hp : bcPersist c.payload = false) :
    Finished 0x0982 c (s.block st det s.bias.tens) [] s (s.endBias st det) ∧
    s.endBias st det = { s with host := (s.endBias st det).host, returns := { s.returns with bias := { s.bias with cmd := none } } } := by
  have hframe := (s.withBias { s.bias with cmd := none }).finish_frame 0x0982 c st det s.bias.tens []
  rw [State.endBias_some h, if_neg (by simp [hp])]
  exact ⟨(finish_finished ..).of_host rfl, hframe⟩

/-- With PERSIST the reply waits for the store. -/
theorem State.endBias_stores {st det : Nat} {c : Cmd} {s : State} (h : s.bias.cmd = some c) (hp : bcPersist c.payload = true) :
    Silent c s (s.endBias st det) ∧
    { cmd := c, block := s.block st det s.bias.tens } ∈ (s.endBias st det).nvm.waits ∧
    s.endBias st det = { s with
      health := (s.endBias st det).health
      host := (s.endBias st det).host
      nvm := { s.nvm with waits := (s.endBias st det).nvm.waits }
      returns := { s.returns with bias := { s.bias with cmd := none } } } := by
  let u := s.withBias { s.bias with cmd := none }
  have hsilent := u.storeAfter_silent 0x0982 recBias c (s.block st det s.bias.tens)
  obtain ⟨q, hq⟩ := (u.onNvm fun n => { n with waits := n.waits.filter (·.cmd != c) ++
    [{ cmd := c, block := s.block st det s.bias.tens }] }).storeFor_frame 0x0982 recBias none c
  have hstore : u.storeAfter 0x0982 recBias c (s.block st det s.bias.tens) = _ := hq
  rw [State.endBias_some h, if_pos hp]
  refine ⟨(Silent.of_host (s := s) (t := u) rfl).trans hsilent, ?_, ?_⟩
  · rw [hstore]
    exact List.mem_append_right _ (List.mem_singleton.2 rfl)
  · rw [hstore]
    rfl

/-- However it is answered, no command waits any more, and the rest of the bias stands. -/
theorem State.endBias_bias (st det : Nat) (s : State) : (s.endBias st det).bias = { s.bias with cmd := none } := by
  cases hc : s.bias.cmd with
  | none =>
    rw [State.endBias_none hc, ← hc]
  | some c =>
    cases hp : bcPersist c.payload with
    | false => rw [(State.endBias_finishes hc hp).2]; rfl
    | true => rw [(State.endBias_stores hc hp).2.2]; rfl

theorem State.settleBias_frame (s : State) :
    ∃ a b, s.settleBias = s.withBias { s.bias with unsettled := a, within50At := b } := by
  have hfields (b : Bias) (p q : Bool) (now : Nat) :
      ∃ x y, (if p = true then { b with unsettled := true, within50At := none }
        else if q = true then { b with within50At := some now } else b) = { b with unsettled := x, within50At := y } := by
    cases p with
    | true => exact ⟨_, _, rfl⟩
    | false => cases q <;> exact ⟨_, _, rfl⟩
  obtain ⟨x, y, h⟩ := hfields s.bias
    (decide (50000 * 2 ^ 20 < ((s.bias.commanded : Int) - s.bias.target * 2 ^ 20).natAbs)) (s.bias.unsettled && s.bias.within50At.isNone) s.now
  refine ⟨x, y, ?_⟩
  rw [← h]
  simp only [decide_eq_true_eq]
  rfl

/-! ### BIAS_TARGET_COMPUTE -/

theorem biasTargetCompute_early {s : State} (h : ¬(bcEnable s.bias.image = true ∧ s.bias.computeAt + 128000000 ≤ s.clk.now)) :
    biasTargetCompute s = s := by
  refine if_pos ?_
  by_cases hen : bcEnable s.bias.image = true
  · have hlate : s.since s.bias.computeAt (ms 100) = false := decide_eq_false fun hd => h ⟨hen, hd⟩
    rw [hlate]
    simp
  · simp [hen]

/-- The instant of the last computation. -/
def Bias.computed (now : Nat) (b : Bias) : Bias := { b with computeAt := now }

/-- The target that a temperature gives, held to its limits. -/
def State.clampedTarget (s : State) : Int := clampInt (10000 * u16 s.bias.image 10) (10000 * u16 s.bias.image 12) s.biasWanted

/-- A new target, its limits applied. -/
def Bias.aimed (v want : Int) (b : Bias) : Bias := { b with target := v.toNat, targetValid := true, clamped := v != want }

theorem biasTargetCompute_due {s : State} (h : bcEnable s.bias.image = true ∧ s.bias.computeAt + 128000000 ≤ s.clk.now) :
    biasTargetCompute s =
      (let u := s.onBias (Bias.computed s.now)
       if (!u.biasTempOk) = true then u else
       let w := (u.onBias (Bias.aimed u.clampedTarget u.biasWanted)).settleBias
       if w.bias.unsettled = true then w else if w.bias.clamped = true then w.endBias stFaultReceive 1 else w.endBias stOk 0) := by
  have hdue : s.since s.bias.computeAt (ms 100) = true := decide_eq_true h.2
  rw [biasTargetCompute, if_neg (by rw [h.1, hdue]; simp)]
  rfl

theorem biasTargetCompute_blind {s : State} (h : bcEnable s.bias.image = true ∧ s.bias.computeAt + 128000000 ≤ s.clk.now)
    (hok : s.biasTempOk = false) : biasTargetCompute s = s.onBias fun b => { b with computeAt := s.clk.now } :=
  (biasTargetCompute_due h).trans (if_pos (congrArg (!·) hok))

theorem biasTargetCompute_target {s : State} (hcmd : s.bias.cmd = none)
    (h : bcEnable s.bias.image = true ∧ s.bias.computeAt + 128000000 ≤ s.clk.now) (hok : s.biasTempOk = true) :
    ∃ a b, biasTargetCompute s =
      s.withBias { Bias.aimed s.clampedTarget s.biasWanted (s.bias.computed s.clk.now) with unsettled := a, within50At := b } := by
  let u := s.onBias (Bias.computed s.now)
  obtain ⟨a, b, hw⟩ := (u.onBias (Bias.aimed u.clampedTarget u.biasWanted)).settleBias_frame
  have hnone : (u.onBias (Bias.aimed u.clampedTarget u.biasWanted)).settleBias.bias.cmd = none :=
    (congrArg (fun t : State => t.bias.cmd) hw).trans hcmd
  refine ⟨a, b, ((biasTargetCompute_due h).trans (if_neg (ne_true_of_eq_false (congrArg (!·) hok)))).trans ?_⟩
  dsimp only
  rw [State.endBias_none hnone, State.endBias_none hnone, ite_self, ite_self]
  exact hw

/-! ### BIAS_STEP -/

/-- The slew rule moves towards the goal, not beyond it, and no further than its allowance. -/
theorem Bias.step_facts (goal now : Nat) (b : Bias) :
    (b.hvb ≤ goal → b.hvb ≤ (b.step goal now).hvb ∧ (b.step goal now).hvb ≤ goal ∧
      ((b.step goal now).hvb - b.hvb) * codeCost b.image ≤ b.allowance + u16 b.image 16 * 100 * 2 ^ 20) ∧
    (goal ≤ b.hvb → goal ≤ (b.step goal now).hvb ∧ (b.step goal now).hvb ≤ b.hvb ∧
      (b.hvb - (b.step goal now).hvb) * codeCost b.image ≤ b.allowance + u16 b.image 16 * 100 * 2 ^ 20) := by
  obtain ⟨a, ha⟩ : ∃ a, a = b.allowance + u16 b.image 16 * 100 * 2 ^ 20 := ⟨_, rfl⟩
  have hcost (n : Nat) (hn : n ≤ a / pos (codeCost b.image)) : n * codeCost b.image ≤ a := by
    have hle : codeCost b.image ≤ pos (codeCost b.image) := by
      unfold pos
      split <;> omega
    exact (Nat.mul_le_mul hn hle).trans (Nat.div_mul_le_self _ _)
  rw [← ha]
  have hhvb : (b.step goal now).hvb =
      if b.hvb < goal then b.hvb + min (a / pos (codeCost b.image)) (goal - b.hvb)
      else b.hvb - min (a / pos (codeCost b.image)) (b.hvb - goal) := by
    rw [ha]
    simp only [Bias.step]
    split <;> rfl
  generalize a / pos (codeCost b.image) = m at hcost hhvb
  have hmin1 := hcost (min m (goal - b.hvb)) (Nat.min_le_left ..)
  have hmin2 := hcost (min m (b.hvb - goal)) (Nat.min_le_left ..)
  generalize (b.step goal now).hvb = v at hhvb
  rw [hhvb]
  by_cases hlt : b.hvb < goal
  · rw [if_pos hlt]
    refine ⟨fun _ => ⟨by omega, by omega, ?_⟩, fun _ => by omega⟩
    rwa [Nat.add_sub_cancel_left]
  · rw [if_neg hlt]
    refine ⟨fun hle => ?_, fun _ => ⟨by omega, by omega, ?_⟩⟩
    · have heq : b.hvb - min m (b.hvb - goal) = b.hvb := by omega
      exact ⟨by omega, by omega, by rw [heq]; simp⟩
    · rwa [Nat.sub_sub_self (by omega)]

theorem biasStep_idle {s : State}
    (h : ¬(s.bias.fault = false ∧ s.bias.stepAt + 128000 ≤ s.clk.now ∧ (s.biasDown = true ∨ s.bias.targetValid = true))) :
    biasStep s = s := by
  refine if_pos ?_
  cases hf : s.bias.fault with
  | true => simp
  | false =>
    cases hs : s.since s.bias.stepAt (us 100) with
    | false => simp
    | true =>
      have hd : ¬(s.biasDown = true ∨ s.bias.targetValid = true) := fun hd => h ⟨hf, of_decide_eq_true hs, hd⟩
      simpa using hd

theorem biasStep_due {s : State} (hcmd : s.bias.cmd = none)
    (h : s.bias.fault = false ∧ s.bias.stepAt + 128000 ≤ s.clk.now ∧ (s.biasDown = true ∨ s.bias.targetValid = true)) :
    ∃ a b, biasStep s = s.withBias { s.bias.step s.biasCode s.clk.now with unsettled := a, within50At := b } := by
  obtain ⟨hf, hstep, hdir⟩ := h
  have hdue : s.since s.bias.stepAt (us 100) = true := decide_eq_true hstep
  obtain ⟨a, b, hsettle⟩ := (s.onBias (Bias.step s.biasCode s.clk.now)).settleBias_frame
  refine ⟨a, b, ?_⟩
  have hnone : ((s.onBias (Bias.step s.biasCode s.now)).settleBias).bias.cmd = none := by
    refine (congrArg (fun t : State => t.bias.cmd) hsettle).trans hcmd
  rw [biasStep, if_neg (by rw [hf, hdue]; rcases hdir with h | h <;> simp [h])]
  dsimp only
  rw [hnone, if_neg (by simp)]
  exact hsettle

/-! ### BIAS_SETTLED, BIAS_TEMP_TIMEOUT, BIAS_FAULT -/

theorem State.pastSome_eq (t0 d : Nat) (s : State) : ((some t0).any fun t => s.since t d) = s.since t0 d := rfl

theorem biasSettled_idle {s : State} (h : s.bias.unsettled = false ∨ s.bias.within50At = none) : biasSettled s = s := by
  refine if_neg ?_
  rcases h with h | h <;> simp [h]

theorem biasSettled_early {t0 : Nat} {s : State} (ht : s.bias.within50At = some t0) (h : s.clk.now < t0 + 6400000) :
    biasSettled s = s := by
  have hsince : s.since t0 (ms 5) = false := decide_eq_false (Nat.not_le.2 h)
  refine if_neg ?_
  rw [ht, State.pastSome_eq, hsince]
  simp

/-- The bias after 5 ms within 50 mV. -/
def Bias.settled (b : Bias) : Bias := { b with unsettled := false, within50At := none }

theorem biasSettled_due {t0 : Nat} {s : State} (hu : s.bias.unsettled = true) (ht : s.bias.within50At = some t0)
    (h : t0 + 6400000 ≤ s.clk.now) :
    biasSettled s =
      if (s.bias.targetValid && s.bias.cmd.any fun c => bcEnable c.payload) = true then
        (s.withBias s.bias.settled).endBias (if s.bias.clamped then stFaultReceive else stOk) (if s.bias.clamped then 1 else 0)
      else s.withBias s.bias.settled := by
  have hsince : s.since t0 (ms 5) = true := decide_eq_true h
  rw [biasSettled, if_pos (by rw [hu, ht, State.pastSome_eq, hsince]; rfl)]
  cases hc : s.bias.clamped with
  | false => exact if_congr Iff.rfl (if_neg (by simpa [State.bias, State.onBias, State.onReturns] using hc)) rfl
  | true => exact if_congr Iff.rfl (if_pos (by simpa [State.bias, State.onBias, State.onReturns] using hc)) rfl

theorem biasSettled_alone {t0 : Nat} {s : State} (hu : s.bias.unsettled = true) (ht : s.bias.within50At = some t0)
    (h : t0 + 6400000 ≤ s.clk.now) (hcmd : s.bias.cmd = none) : biasSettled s = s.withBias s.bias.settled :=
  (biasSettled_due hu ht h).trans (if_neg (by simp [hcmd]))

theorem biasSettled_ends {t0 : Nat} {c : Cmd} {s : State} (hu : s.bias.unsettled = true) (ht : s.bias.within50At = some t0)
    (h : t0 + 6400000 ≤ s.clk.now) (hcmd : s.bias.cmd = some c) (hen : bcEnable c.payload = true) (hvalid : s.bias.targetValid = true) :
    biasSettled s =
      (s.withBias s.bias.settled).endBias (if s.bias.clamped then stFaultReceive else stOk) (if s.bias.clamped then 1 else 0) :=
  (biasSettled_due hu ht h).trans (if_pos (by simp [hcmd, hen, hvalid]))

/-- The block that ends a BIAS_CONFIG whose bias has settled. -/
theorem State.settled_block (s : State) :
    (s.withBias s.bias.settled).block (if s.bias.clamped then stFaultReceive else stOk) (if s.bias.clamped then 1 else 0)
        (s.withBias s.bias.settled).bias.tens =
      if s.bias.clamped then s.block 0x26 1 s.bias.tens else s.block 0 0 s.bias.tens := by
  cases s.bias.clamped <;> rfl

theorem biasTempTimeout_early {s : State} (h : s.clk.now < s.bias.tempAt.getD s.bias.enabledAt + 1280000000) :
    biasTempTimeout s = s := by
  have hsince : s.since (s.bias.tempAt.getD s.bias.enabledAt) (sec 1) = false := decide_eq_false (Nat.not_le.2 h)
  exact if_pos (by rw [hsince]; rfl)

theorem biasTempTimeout_due {s : State} (h : s.bias.tempAt.getD s.bias.enabledAt + 1280000000 ≤ s.clk.now) :
    biasTempTimeout s =
      if s.biasUnread = true then (s.withBias { s.bias with tempHold := true, targetValid := false }).endBias stFaultReceive 2
      else s.withBias { s.bias with tempHold := true } := by
  have hsince : s.since (s.bias.tempAt.getD s.bias.enabledAt) (sec 1) = true := decide_eq_true h
  exact if_neg (by rw [hsince]; simp)

theorem State.biasUnread_not {s : State} (h : s.bias.cmd = none ∨ ∃ t0, s.bias.tempAt = some t0 ∧ s.bias.enabledAt ≤ t0) :
    s.biasUnread = false := by
  rcases h with h | ⟨t0, ht, hle⟩
  · simp [State.biasUnread, h]
  · simp [State.biasUnread, ht, hle]

theorem biasFault_idle {s : State} (h : bcMon s.bias.image = false ∨ s.bias.fault = true ∨ s.bias.monBadSince = none) :
    biasFault s = s := by
  refine if_pos ?_
  rcases h with h | h | h <;> simp [h]

theorem biasFault_early {t0 : Nat} {s : State} (ht : s.bias.monBadSince = some t0) (h : s.clk.now < t0 + 1280000000) :
    biasFault s = s := by
  have hsince : s.since t0 (sec 1) = false := decide_eq_false (Nat.not_le.2 h)
  refine if_pos ?_
  rw [ht, State.pastSome_eq, hsince]
  simp

theorem biasFault_due {t0 : Nat} {s : State} (hmon : bcMon s.bias.image = true) (hf : s.bias.fault = false)
    (ht : s.bias.monBadSince = some t0) (h : t0 + 1280000000 ≤ s.clk.now) :
    ∃ a b, biasFault s =
      (s.withBias { s.bias with fault := true, hvb := 0, allowance := 0, unsettled := a, within50At := b }).endBias stFaultReceive 3 := by
  have hsince : s.since t0 (sec 1) = true := decide_eq_true h
  obtain ⟨a, b, hsettle⟩ := (s.onBias fun b => { b with fault := true, hvb := 0, allowance := 0 }).settleBias_frame
  refine ⟨a, b, ?_⟩
  rw [biasFault, if_neg (by rw [hmon, hf, ht, State.pastSome_eq, hsince]; simp)]
  exact congrArg (State.endBias stFaultReceive 3) hsettle

theorem Bias.tens_off {b : Bias} (h : b.hvb = 0) : b.tens = 0 := by
  rw [Bias.tens, Bias.commanded, h, Nat.zero_mul]
  rfl

/-! ### BIAS_CONFIG -/

theorem biasConfigEffect_on {c : Cmd} {s : State} (hcmd : s.bias.cmd = none) (hen : bcEnable c.payload = true) :
    ∃ restart a b, biasConfigEffect c s =
      s.withBias { s.bias.withConfig c s.clk.now restart with unsettled := a, within50At := b } := by
  obtain ⟨restart, hr⟩ : ∃ r, r = (bcEnable c.payload && (!bcEnable s.bias.image || s.bias.fault)) := ⟨_, rfl⟩
  have hstep : biasConfigEffect c s =
      if restart = true then s.onBias (Bias.withConfig c s.clk.now restart) else (s.onBias (Bias.withConfig c s.clk.now restart)).settleBias := by
    rw [biasConfigEffect, State.endBias_none hcmd, hr]
    simp [hen, State.now]
  obtain ⟨a, b, hsettle⟩ := (s.onBias (Bias.withConfig c s.clk.now restart)).settleBias_frame
  cases restart with
  | true => exact ⟨true, _, _, hstep.trans (if_pos rfl)⟩
  | false => exact ⟨false, a, b, (hstep.trans (if_neg (by simp))).trans hsettle⟩

theorem biasConfigEffect_off {c : Cmd} {s : State} (hcmd : s.bias.cmd = none) (hen : bcEnable c.payload = false) (hhvb : s.bias.hvb = 0) :
    ∃ a b, biasConfigEffect c s =
      (s.withBias { s.bias.withConfig c s.clk.now false with unsettled := a, within50At := b }).endBias stOk 0 := by
  obtain ⟨a, b, hsettle⟩ := (s.onBias (Bias.withConfig c s.clk.now false)).settleBias_frame
  have hoff : (s.onBias (Bias.withConfig c s.clk.now false)).settleBias.bias.hvb = 0 :=
    (congrArg (fun t : State => t.bias.hvb) hsettle).trans hhvb
  refine ⟨a, b, ?_⟩
  rw [biasConfigEffect, State.endBias_none hcmd]
  simp only [hen, Bool.false_and, Bool.false_eq_true, if_false, Bool.not_false, Bool.true_and, State.now]
  rw [hoff, if_pos (by simp)]
  exact congrArg (State.endBias stOk 0) hsettle

theorem biasConfig_on {c : Cmd} {s : State} (h : Accepted biasConfigInfo c s) (hcmd : s.bias.cmd = none) (hen : bcEnable c.payload = true) :
    ∃ t, exec (.biasConfig c) s = .next t ∧ Silent c s t ∧ t.bias.image = c.payload ∧
      t.bias.cmd = some c ∧ t.bias.fault = false ∧ t.bias.hvb = s.bias.hvb ∧ t.bias.targetValid = false ∧
      (u8 c.payload 1 = u8 s.bias.image 1 → t.bias.tempAt = s.bias.tempAt) ∧
      t = { s with host := t.host, returns := { s.returns with bias := t.bias } } := by
  obtain ⟨j, hsilent, hrun⟩ := State.run_from h
  obtain ⟨restart, a, b, heff⟩ := biasConfigEffect_on (c := c) (s := s.withJournal j) hcmd hen
  refine ⟨_, congrArg Host.Outcome.next ((hrun _).trans heff), ?_, rfl, rfl, ?_, rfl, rfl, ?_, rfl⟩
  · exact hsilent.trans (Silent.of_host rfl)
  · show (s.bias.fault && !bcEnable c.payload) = false
    simp [hen]
  · intro htemp
    exact if_pos (beq_iff_eq.2 htemp)

theorem biasConfig_off {c : Cmd} {s : State} (h : Accepted biasConfigInfo c s) (hcmd : s.bias.cmd = none) (hen : bcEnable c.payload = false)
    (hp : bcPersist c.payload = false) (hhvb : s.bias.hvb = 0) :
    ∃ t, exec (.biasConfig c) s = .next t ∧ t.bias.image = c.payload ∧ t.bias.cmd = none ∧ t.bias.fault = s.bias.fault ∧ t.bias.hvb = 0 ∧
      Finished 0x0982 c (s.block 0 0 0) [] s t ∧ t = { s with host := t.host, returns := { s.returns with bias := t.bias } } := by
  obtain ⟨j, hsilent, hrun⟩ := State.run_from h
  obtain ⟨a, b, heff⟩ := biasConfigEffect_off (c := c) (s := s.withJournal j) hcmd hen hhvb
  let u := (s.withJournal j).withBias { (s.withJournal j).bias.withConfig c s.clk.now false with unsettled := a, within50At := b }
  obtain ⟨hfin, hframe⟩ := State.endBias_finishes (st := stOk) (det := 0) (c := c) (s := u) rfl hp
  have hbias := State.endBias_bias stOk 0 u
  have htens : u.bias.tens = 0 := Bias.tens_off hhvb
  refine ⟨u.endBias stOk 0, congrArg Host.Outcome.next ((hrun _).trans heff), ?_, ?_, ?_, ?_, ?_, ?_⟩
  · exact congrArg Bias.image hbias
  · exact congrArg Bias.cmd hbias
  · refine (congrArg Bias.fault hbias).trans ?_
    show (s.bias.fault && !bcEnable c.payload) = s.bias.fault
    simp [hen]
  · exact (congrArg Bias.hvb hbias).trans hhvb
  · rw [htens] at hfin
    exact (hfin.of_host (s := s.withJournal j) rfl).of_silent hsilent
  · generalize u.endBias stOk 0 = t at hframe
    rw [hframe]
    rfl

/-! ### O41 -/

theorem biasTempTimeout_ends {c : Cmd} {s : State} (hread : ∀ t0, s.bias.tempAt = some t0 → t0 < s.bias.enabledAt)
    (hlate : s.bias.enabledAt + 1280000000 ≤ s.clk.now) (hcmd : s.bias.cmd = some c) (hen : bcEnable c.payload = true)
    (hp : bcPersist c.payload = false) : ∃ t, exec .biasTempTimeout s = .next t ∧
      Finished 0x0982 c (s.block 0x26 2 s.bias.tens) [] s t ∧
      t.bias = { s.bias with tempHold := true, targetValid := false, cmd := none } ∧
      t = { s with host := t.host, returns := { s.returns with bias := t.bias } } := by
  have hall : s.bias.tempAt.all (· < s.bias.enabledAt) = true := by
    cases ht : s.bias.tempAt with
    | none => rfl
    | some t0 => exact decide_eq_true (hread t0 ht)
  have hunread : s.biasUnread = true := by
    have hsince : s.since s.bias.enabledAt (sec 1) = true := decide_eq_true hlate
    rw [State.biasUnread]
    simp only [hcmd, hall, hsince, Option.any_some, hen, Bool.and_self]
  have hfrom : s.bias.tempAt.getD s.bias.enabledAt ≤ s.bias.enabledAt := by
    cases ht : s.bias.tempAt with
    | none => exact le_rfl
    | some t0 => exact (hread t0 ht).le
  have hstep := (biasTempTimeout_due ((Nat.add_le_add_right hfrom _).trans hlate)).trans (if_pos hunread)
  obtain ⟨hfin, hframe⟩ := State.endBias_finishes (st := stFaultReceive) (det := 2)
    (s := s.withBias { s.bias with tempHold := true, targetValid := false }) hcmd hp
  refine ⟨_, congrArg Host.Outcome.next hstep, hfin.of_host rfl, ?_, ?_⟩
  · exact State.endBias_bias ..
  · generalize State.endBias stFaultReceive 2 _ = t at hframe
    rw [hframe]
    rfl

theorem biasFault_ends {t0 : Nat} {s : State} (hmon : bcMon s.bias.image = true) (hf : s.bias.fault = false)
    (ht : s.bias.monBadSince = some t0) (h : t0 + 1280000000 ≤ s.clk.now) :
    ∃ t, exec .biasFault s = .next t ∧ t.bias.fault = true ∧ t.bias.hvb = 0 ∧
      t.bias.image = s.bias.image ∧ t.bias.target = s.bias.target ∧ t.bias.cmd = none ∧
      (s.bias.cmd = none → t = { s with returns := { s.returns with bias := t.bias } }) ∧
      (∀ c, s.bias.cmd = some c → bcPersist c.payload = false → Finished 0x0982 c (s.block 0x26 3 0) [] s t ∧
        t = { s with host := t.host, returns := { s.returns with bias := t.bias } }) := by
  obtain ⟨a, b, hstep⟩ := biasFault_due hmon hf ht h
  let u := s.withBias { s.bias with fault := true, hvb := 0, allowance := 0, unsettled := a, within50At := b }
  have hbias := State.endBias_bias stFaultReceive 3 u
  have htens : u.bias.tens = 0 := Bias.tens_off rfl
  refine ⟨u.endBias stFaultReceive 3, congrArg Host.Outcome.next hstep, congrArg Bias.fault hbias, congrArg Bias.hvb hbias, (congrArg Bias.image hbias :),
    (congrArg Bias.target hbias :), congrArg Bias.cmd hbias, fun hcmd => ?_, fun c hcmd hp => ?_⟩
  · rw [State.endBias_none (s := u) hcmd]
    rfl
  · obtain ⟨hfin, hframe⟩ := State.endBias_finishes (st := stFaultReceive) (det := 3) (c := c) (s := u) hcmd hp
    rw [htens] at hfin
    refine ⟨hfin.of_host rfl, ?_⟩
    generalize u.endBias stFaultReceive 3 = t at hframe
    rw [hframe]
    rfl

/-- Settles O41: every bias row ends a waiting BIAS_CONFIG the same way; the slew rule never passes its goal. -/
theorem biasFollowsItsTarget : Obligations.BiasFollowsItsTarget := by
  unfold Obligations.BiasFollowsItsTarget
  refine ⟨fun s hcmd => ⟨?_, ?_, ?_⟩, fun s hcmd => ⟨?_, ?_⟩, fun s => ⟨?_, fun t0 hu ht => ⟨?_, ?_, ?_, ?_⟩⟩,
    fun s => ⟨fun t0 ht => ⟨?_, ?_⟩, ?_, ?_, ?_⟩, fun s => ⟨?_, fun t0 hmon hf ht => ⟨?_, ?_⟩⟩, fun c s hacc hcmd => ⟨?_, ?_⟩⟩
  · intro h
    exact congrArg Host.Outcome.next (biasTargetCompute_early h)
  · intro h hok
    exact congrArg Host.Outcome.next (biasTargetCompute_blind h hok)
  · intro h hok
    obtain ⟨a, b, hstep⟩ := biasTargetCompute_target hcmd h hok
    exact ⟨_, congrArg Host.Outcome.next hstep, rfl, rfl, rfl, rfl, rfl⟩
  · intro h
    exact congrArg Host.Outcome.next (biasStep_idle h)
  · intro h
    obtain ⟨a, b, hstep⟩ := biasStep_due hcmd h
    obtain ⟨hup, hdown⟩ := Bias.step_facts s.biasCode s.clk.now s.bias
    exact ⟨_, congrArg Host.Outcome.next hstep, rfl, hup, hdown, rfl⟩
  · intro h
    exact congrArg Host.Outcome.next (biasSettled_idle h)
  · intro h
    exact congrArg Host.Outcome.next (biasSettled_early ht h)
  · intro h hcmd
    exact congrArg Host.Outcome.next (biasSettled_alone hu ht h hcmd)
  · intro c h hcmd hen hvalid hp
    obtain ⟨hfin, hframe⟩ := State.endBias_finishes (st := if s.bias.clamped then stFaultReceive else stOk)
      (det := if s.bias.clamped then 1 else 0) (s := s.withBias s.bias.settled) hcmd hp
    rw [s.settled_block] at hfin
    refine ⟨_, congrArg Host.Outcome.next (biasSettled_ends hu ht h hcmd hen hvalid), hfin.of_host rfl, State.endBias_bias .., ?_⟩
    generalize State.endBias _ _ _ = t at hframe
    rw [hframe]
    rfl
  · intro c h hcmd hen hvalid hp
    obtain ⟨hsilent, hmem, hframe⟩ := State.endBias_stores (st := if s.bias.clamped then stFaultReceive else stOk)
      (det := if s.bias.clamped then 1 else 0) (s := s.withBias s.bias.settled) hcmd hp
    rw [s.settled_block] at hmem
    refine ⟨_, _, congrArg Host.Outcome.next (biasSettled_ends hu ht h hcmd hen hvalid),
      (Silent.of_host (t := s.withBias s.bias.settled) rfl).trans hsilent, hmem, rfl, rfl, State.endBias_bias .., ?_⟩
    generalize State.endBias _ _ _ = t at hframe
    rw [hframe]
    rfl
  · intro h
    exact congrArg Host.Outcome.next (biasTempTimeout_early (by rw [ht]; exact h))
  · intro h hcmd
    refine congrArg Host.Outcome.next ((biasTempTimeout_due (by rw [ht]; exact h)).trans ?_)
    have hunread := State.biasUnread_not (s := s) (hcmd.imp_right fun hle => ⟨t0, ht, hle⟩)
    exact if_neg (by simp [hunread])
  · intro ht h
    exact congrArg Host.Outcome.next (biasTempTimeout_early (by rw [ht]; exact h))
  · intro ht h hcmd
    refine congrArg Host.Outcome.next ((biasTempTimeout_due (by rw [ht]; exact h)).trans ?_)
    have hunread := State.biasUnread_not (s := s) (.inl hcmd)
    exact if_neg (by simp [hunread])
  · intro c hread hlate hcmd hen hp
    exact biasTempTimeout_ends hread hlate hcmd hen hp
  · intro h
    exact congrArg Host.Outcome.next (biasFault_idle h)
  · intro h
    exact congrArg Host.Outcome.next (biasFault_early ht h)
  · intro h
    exact biasFault_ends hmon hf ht h
  · intro hen
    exact biasConfig_on hacc hcmd hen
  · intro hen hp hhvb
    exact biasConfig_off hacc hcmd hen hp hhvb

end Sys2Proof.Machine

/-!
## Input tests, RX_STATUS and the switch to a spare front end (R249, R256, R259, R264)
-/
namespace Sys2Proof.Machine

/-! ### Changes to one channel -/

/-- A change of channels alone. -/
theorem State.onChannel_facts {ch : Nat} (f : Channel → Channel) {s : State} (h : ch < s.returns.channels.length) :
    (s.onChannel ch f).channel ch = f (s.channel ch) ∧ (∀ k, k ≠ ch → (s.onChannel ch f).channel k = s.channel k) ∧
    s.onChannel ch f = { s with returns := { s.returns with channels := (s.onChannel ch f).returns.channels } } :=
  ⟨State.channel_onChannel_same _ _ _ h, fun _ hk => State.channel_onChannel_ne _ _ _ _ hk, rfl⟩

theorem rxOverload_active {ch : Nat} {s : State} (h : (s.channel ch).st = .active) :
    rxOverload ch s = s.onChannel ch fun c => { c with overload := true } := if_pos (by rw [h]; rfl)

theorem rxOverload_other {ch : Nat} {s : State} (h : (s.channel ch).st ≠ .active) : rxOverload ch s = s :=
  if_neg (by simpa using h)

theorem rxSilent_silent {ch : Nat} {s : State} (h : (s.channel ch).st = .active) (hwin : 65536 ≤ (s.channel ch).silentWindows) :
    rxSilent ch s = s.onChannel ch fun c => { c with silent := true } := if_pos (by simp [h, hwin])

theorem rxSilent_other {ch : Nat} {s : State} (h : (s.channel ch).st ≠ .active ∨ (s.channel ch).silentWindows < 65536) :
    rxSilent ch s = s := if_neg (by simpa [imp_iff_not_or] using h)

/-! ### RX_STATUS -/

theorem rxStatus_step {c : Cmd} {s : State} (h : Accepted rxStatusInfo c s) (hch : u8 c.payload 0 < s.returns.channels.length) :
    ∃ t d, exec (.rxStatus c) s = .next t ∧
      Finished 0x0983 c (s.block 0 0 (s.channel (u8 c.payload 0)).st.code) d s t ∧
      t.channel (u8 c.payload 0) = (s.channel (u8 c.payload 0)).clearSticky (u16 c.payload 2) ∧
      (∀ k, k ≠ u8 c.payload 0 → t.channel k = s.channel k) ∧
      t = { s with host := t.host, returns := { s.returns with channels := t.returns.channels } } := by
  obtain ⟨j, hsilent, hrun⟩ := State.run_from h
  let ch := u8 c.payload 0
  let u := (s.withJournal j).onChannel ch (·.clearSticky (u16 c.payload 2))
  obtain ⟨hsame, hother, -⟩ := State.onChannel_facts (s := s.withJournal j) (·.clearSticky (u16 c.payload 2)) hch
  have hst : (u.channel ch).st = (s.channel ch).st := (congrArg Channel.st hsame :).trans rfl
  have heff : rxStatusEffect c (s.withJournal j) = u.finish 0x0983 c stOk 0 (s.channel ch).st.code (u.rxStatus ch) := by
    rw [← hst]
    rfl
  have hframe := u.finish_frame 0x0983 c stOk 0 (s.channel ch).st.code (u.rxStatus ch)
  have hfin : Finished 0x0983 c (u.block stOk 0 (s.channel ch).st.code) _ u _ := finish_finished 0x0983 c stOk 0 _ (u.rxStatus ch) u
  refine ⟨_, u.rxStatus ch, congrArg Host.Outcome.next ((hrun _).trans heff), ?_, ?_, ?_, ?_⟩
  · exact (hfin.of_host rfl).of_silent hsilent
  · rw [hframe]
    exact hsame
  · rw [hframe]
    exact hother
  · generalize u.finish 0x0983 c stOk 0 (s.channel ch).st.code (u.rxStatus ch) = t at hframe
    rw [hframe]
    rfl

/-! ### FRONT_END_SWITCH -/

/-- `refreshChannels` changes the state of a channel alone. -/
theorem State.channel_refreshChannels (ch : Nat) (s : State) :
    ∃ st, s.refreshChannels.channel ch = (s.channel ch).inState st := by
  rw [State.refreshChannels_eq]
  induction 192 with
  | zero => exact ⟨_, rfl⟩
  | succ m ih =>
    obtain ⟨st, hst⟩ := ih
    rw [State.refreshFirst_succ]
    by_cases hch : ch = m
    · subst hch
      by_cases hlen : ch < (s.refreshFirst ch).returns.channels.length
      · rw [State.channel_onChannel_same _ _ _ hlen, hst]
        exact ⟨_, rfl⟩
      · refine ⟨st, Eq.trans ?_ hst⟩
        simp [State.channel, State.onChannel, State.onReturns, hlen]
    · rw [State.channel_onChannel_ne _ _ _ _ hch]
      exact ⟨st, hst⟩

theorem State.takeDnl_frame (f : Nat) (s : State) :
    ∃ clk d, s.takeDnl f = { s with clk := clk, health := { s.health with dnlPending := d } } := by
  unfold State.takeDnl
  split
  · exact ⟨_, _, rfl⟩
  · exact ⟨s.clk, s.health.dnlPending, rfl⟩

/-- A channel whose steering has gone over. -/
def Channel.steered (c : Channel) : Channel :=
  { c with pendingSlot := none, threshFails := 0, silentWindows := 0, st := if c.st == .outOfService then .standby else c.st }

theorem State.refreshDomains_frame (s : State) :
    ∃ d, s.refreshDomains = { s with power := { s.power with domains := d } } := ⟨_, rfl⟩

/-- The steering of a channel: the repair map and the channel's counts; the rest is what follows for domains, channel states and
tables. -/
theorem State.steer_facts {ch : Nat} (fe : Nat) {s : State} (h : ch < s.returns.channels.length) :
    (s.steer ch fe).power.repair = { s.power.repair with feFor := s.power.repair.feFor.set ch fe } ∧
    (∃ st, (s.steer ch fe).channel ch = (s.channel ch).steered.inState st) ∧
    (∃ d, (s.steer ch fe).health = { s.health with dnlPending := d }) ∧
    s.steer ch fe = { s with
      clk := (s.steer ch fe).clk
      health := (s.steer ch fe).health
      power := (s.steer ch fe).power
      returns := (s.steer ch fe).returns } := by
  let u := (s.onRepair fun r => { r with feFor := r.feFor.set ch fe }).onChannel ch Channel.steered
  have hu : u.channel ch = (s.channel ch).steered :=
    State.channel_onChannel_same ch Channel.steered (s.onRepair fun r => { r with feFor := r.feFor.set ch fe }) h
  obtain ⟨clk, d, hdnl⟩ := u.takeDnl_frame fe
  obtain ⟨doms, hdoms⟩ := (u.takeDnl fe).refreshDomains_frame
  have hstep : s.steer ch fe = (u.takeDnl fe).refreshDomains.refreshChannels := rfl
  have hframe := (u.takeDnl fe).refreshDomains.refreshChannels_frame
  obtain ⟨st, hst⟩ := (u.takeDnl fe).refreshDomains.channel_refreshChannels ch
  rw [← hstep] at hframe hst
  generalize s.steer ch fe = t at hframe hst
  rw [hdoms, hdnl] at hframe hst
  refine ⟨by rw [hframe]; rfl, ⟨st, hst.trans (congrArg (Channel.inState st) hu)⟩, ⟨d, by rw [hframe]; rfl⟩, ?_⟩
  rw [hframe]
  rfl

theorem State.answer_frame (st det result : Nat) (cmds : List (Nat × Cmd)) (s : State) :
    s.answer st det result cmds = { s with host := (s.answer st det result cmds).host } := by
  induction cmds generalizing s with
  | nil => rfl
  | cons x l ih =>
    have h : s.answer st det result (x :: l) = (s.finish x.1 x.2 st det result []).answer st det result l := rfl
    rw [h, ih, State.finish_frame]

theorem State.repaired_frame (result : Nat) (a : Activity) (s : State) :
    ∃ host q, s.repaired result a = { s with
      host := host
      health := { s.health with repairsTotal := satInc 32 s.health.repairsTotal, queue := q } } := by
  obtain ⟨q, hq⟩ := (s.onHealth fun h => { h with repairsTotal := satInc 32 h.repairsTotal }).request_frame (Activity.store 0x05 2 1 none [])
  have hstore : (s.onHealth fun h => { h with repairsTotal := satInc 32 h.repairsTotal }).storeMap = _ := hq
  have hframe := ((s.onHealth fun h => { h with repairsTotal := satInc 32 h.repairsTotal }).storeMap).answer_frame stOk 0 result a.cmds
  generalize (State.answer stOk 0 result a.cmds _).host = host at hframe
  exact ⟨host, q, hframe.trans (congrArg (fun t : State => { t with host := host }) hstore)⟩

theorem frontEndSwitch_eq {ch fe : Nat} {s : State} (h : (s.channel ch).pendingSlot = some fe) :
    frontEndSwitch ch s =
      if (!s.laneReady (laneOfFe fe) || (s.sets.active.namesChannel ch && !s.newCellDue ch)) = true then s else
      ((s.steer ch fe).health.running.find? fun a => a.code == 0x01 && a.target == ch).elim (s.steer ch fe)
        fun a => ((s.steer ch fe).endScope a.scope).repaired fe a := by
  rw [frontEndSwitch, h]
  dsimp only
  generalize s.steer ch fe = u
  cases u.health.running.find? fun a => a.code == 0x01 && a.target == ch <;> rfl

theorem not_may_iff {ready named due : Bool} :
    (!ready || (named && !due)) = true ↔ ¬(ready = true ∧ (named = true → due = true)) := by
  cases ready <;> cases named <;> cases due <;> simp

theorem frontEndSwitch_waits {ch fe : Nat} {s : State} (h : (s.channel ch).pendingSlot = some fe)
    (hmay : ¬(s.laneReady (laneOfFe fe) = true ∧ (s.sets.active.namesChannel ch = true → s.newCellDue ch = true))) :
    frontEndSwitch ch s = s := (frontEndSwitch_eq h).trans (if_pos (not_may_iff.2 hmay))

theorem frontEndSwitch_switches {ch fe : Nat} {s : State} (hlen : ch < s.returns.channels.length) (h : (s.channel ch).pendingSlot = some fe)
    (hmay : s.laneReady (laneOfFe fe) = true ∧ (s.sets.active.namesChannel ch = true → s.newCellDue ch = true)) :
    ∃ t, exec (.frontEndSwitch ch) s = .next t ∧
      t.power.repair = { s.power.repair with feFor := s.power.repair.feFor.set ch fe } ∧
      (t.channel ch).pendingSlot = none ∧ (t.channel ch).threshFails = 0 ∧ (t.channel ch).silentWindows = 0 ∧
      (∀ a, s.health.running.find? (fun a => a.code == 0x01 && a.target == ch) = some a →
        t.health.repairsTotal = satInc 32 s.health.repairsTotal) ∧
      t = { s with clk := t.clk, health := t.health, host := t.host, power := t.power, returns := t.returns } := by
  obtain ⟨hrepair, ⟨st, hch⟩, ⟨d, hhealth⟩, hframe⟩ := s.steer_facts fe hlen
  have hstep := (frontEndSwitch_eq h).trans (if_neg fun hno => not_may_iff.1 hno hmay)
  have hrun : (s.steer ch fe).health.running = s.health.running := (congrArg Health.running hhealth :)
  rw [hrun] at hstep
  generalize s.steer ch fe = u at hrepair hch hhealth hframe hstep
  cases hfind : s.health.running.find? fun a => a.code == 0x01 && a.target == ch with
  | none =>
    rw [hfind] at hstep
    refine ⟨u, congrArg Host.Outcome.next hstep, hrepair, by rw [hch]; rfl, by rw [hch]; rfl, by rw [hch]; rfl, fun a ha => by simp at ha, ?_⟩
    rw [hframe]
  | some a =>
    rw [hfind] at hstep
    obtain ⟨host, q, hrep⟩ := (u.endScope a.scope).repaired_frame fe a
    have ht : frontEndSwitch ch s = _ := hstep.trans hrep
    have hchan : (frontEndSwitch ch s).channel ch = (s.channel ch).steered.inState st := (congrArg (State.channel ch) ht).trans hch
    refine ⟨frontEndSwitch ch s, rfl, ?_, by rw [hchan]; rfl, by rw [hchan]; rfl, by rw [hchan]; rfl, fun _ _ => ?_, ?_⟩
    · rw [ht]
      exact hrepair
    · rw [ht]
      show satInc 32 u.health.repairsTotal = _
      rw [hhealth]
    · rw [ht, hframe]
      rfl

/-- Settles O42: a switch is the steering of its channel, and the running repair it completes. -/
theorem channelTestsAndSpares : Obligations.ChannelTestsAndSpares := by
  unfold Obligations.ChannelTestsAndSpares
  refine ⟨fun ch s hch => ⟨fun hst => ?_, fun hst => ⟨?_, ?_⟩, fun hwin => ?_, fun hst hwin => ?_⟩, fun c s h => ?_,
    fun ch s hlen => ⟨fun h => ?_, fun fe h => ⟨fun hmay => ?_, fun hmay => ?_⟩⟩⟩
  · exact ⟨_, congrArg Host.Outcome.next (rxOverload_active hst), State.onChannel_facts _ hch⟩
  · exact congrArg Host.Outcome.next (rxOverload_other hst)
  · exact congrArg Host.Outcome.next (rxSilent_other (.inl hst))
  · exact congrArg Host.Outcome.next (rxSilent_other (.inr hwin))
  · exact ⟨_, congrArg Host.Outcome.next (rxSilent_silent hst hwin), State.onChannel_facts _ hch⟩
  · exact fun hch => rxStatus_step h hch
  · refine congrArg Host.Outcome.next ?_
    rw [frontEndSwitch, h]
  · exact congrArg Host.Outcome.next (frontEndSwitch_waits h hmay)
  · exact frontEndSwitch_switches hlen h hmay

end Sys2Proof.Machine

/-!
## Learning passes of Bezel (R352, R354)
-/
namespace Sys2Proof.Machine

/-- BEZEL_LEARN over four revolutions, on queue 0. -/
def learnCmd : Cmd := { holdCmd with payload := fit 16 [4] }

/-- A device in which an earlier pass gave the first sector data, with that command accepted. -/
def learnedBefore : State :=
  { State.reset with
    host := { State.reset.host with
      journal := { State.reset.host.journal with
        live := [{ jix := 1, state := .accepted, opcode := 0x0905, cmd := learnCmd, reply := none }] } }
    power := { Power.reset with running := true, phase := .ready, ready := true }
    aux := { State.reset.aux with sectors := [{ WinSector.reset with learnGot := true }] } }

/-- Refutes O47: BEZEL_LEARN also forgets which sectors an earlier pass gave data (`learnGot`); the statement has that stand. -/
theorem not_auxCommandsTakeEffect : ¬ Obligations.AuxCommandsTakeEffect := by
  intro h
  obtain ⟨-, -, -, -, h, -⟩ := h
  obtain ⟨-, h⟩ := h learnCmd learnedBefore
  obtain ⟨t, hnext, -, haux, -⟩ := h (accepted_of_accepts (by decide +kernel)) rfl
  have ht : t = bezelLearn learnCmd learnedBefore := (Host.Outcome.next.inj hnext).symm
  have hgot : (t.aux.sectors.map (·.learnGot)) = [true] := by rw [haux]; rfl
  rw [ht] at hgot
  exact absurd hgot (by decide +kernel)

end Sys2Proof.Machine

/-!
## Stores and the maintenance arbiter (R420, R443)
-/
namespace Sys2Proof.Machine

/-- The mirror of a store of record 0x21, which runs. -/
def mirrorActivity : Activity := { Activity.store 0x07 0x21 1 none [] with target := 2 }

/-- A device in which that mirror runs, with the record in eMRAM but no copy of it in use. -/
def mirroring : State :=
  { State.reset with
    nvm := { State.reset.nvm with bank0 := true, bank1 := true, records := [NvmRecord.reset 0x21] }
    health := { State.reset.health with running := [mirrorActivity] } }

/-- Refutes O51: the statement takes every running NVM activity but a follow-up for a first copy; a mirror (`target` 2) is none and puts
no copy in use. -/
theorem not_storesKeepTheirRecords : ¬ Obligations.StoresKeepTheirRecords := by
  intro h
  obtain ⟨-, h, -⟩ := h
  obtain ⟨⟨t, hnext, ⟨huse, -⟩, -⟩, -⟩ := h mirrorActivity mirroring rfl (by decide) rfl rfl rfl ⟨_, List.mem_singleton.2 rfl, rfl⟩
  have ht : t = nvmStore true true mirroring := (Host.Outcome.next.inj hnext).symm
  have hsome : (t.record mirrorActivity.recId).inUse.isSome = true := by rw [huse]; rfl
  rw [ht] at hsome
  exact absurd hsome (by decide +kernel)

/-- The recopy of retention bank 0, which runs for a command. -/
def recopyActivity : Activity := { Activity.recopy 0 with cmds := [(0x0A06, holdCmd)] }

/-- A device in which that recopy runs. -/
def recopying : State := { State.reset with health := { State.reset.health with running := [recopyActivity] } }

/-- Refutes O55: ACTIVITY_COMPLETE ends only the standby's reload among the activities of code 0x06; a bank's recopy has its own end
(JOURNAL_RECOPY_TRY) and runs on. -/
theorem not_maintenanceRunsItsActivities : ¬ Obligations.MaintenanceRunsItsActivities := by
  intro h
  obtain ⟨-, -, -, -, -, -, h, -⟩ := h
  obtain ⟨h, -⟩ := h scopeCommand 0x0A06 true holdCmd recopyActivity recopying rfl rfl
  have hnext : activityComplete scopeCommand true recopying = recopying.endScope scopeCommand := Host.Outcome.next.inj (h rfl)
  have hrun : (activityComplete scopeCommand true recopying).health.running = [] := by rw [hnext]; rfl
  exact absurd hrun (by decide +kernel)

end Sys2Proof.Machine

/-!
## Ports, queued frames and links (R356 to R361)
-/
namespace Sys2Proof.Machine

/-! ### Ports -/

theorem State.port_onPort_same {p : Nat} {f : Port → Port} {s : State} (h : p < s.net.ports.length) :
    (s.onPort p f).port p = f (s.port p) := by
  simp [State.port, State.onPort, State.onNet, h]

theorem State.port_onPort_ne {p q : Nat} {f : Port → Port} {s : State} (h : q ≠ p) : (s.onPort p f).port q = s.port q := by
  simp [State.port, State.onPort, State.onNet, h.symm]

/-- Out of the list's range nothing changes. -/
theorem State.port_onPort_out {p q : Nat} {f : Port → Port} {s : State} (h : s.net.ports.length ≤ p) :
    (s.onPort p f).port q = s.port q := by
  simp [State.port, State.onPort, State.onNet, List.modify_eq_self h]

/-- The ports of two states differ at most in what they discarded while their link was down. -/
def PortsCounted (s t : State) : Prop := ∀ q, t.port q = { s.port q with downDiscard := (t.port q).downDiscard }

theorem PortsCounted.of_port {s t : State} (h : ∀ q, t.port q = s.port q) : PortsCounted s t := fun q => by rw [h q]

theorem PortsCounted.trans {s t u : State} (h : PortsCounted s t) (k : PortsCounted t u) : PortsCounted s u := fun q => by
  rw [k q, h q]

theorem PortsCounted.linkUp {s t : State} (h : PortsCounted s t) (p : Nat) : t.linkUp p = s.linkUp p := by
  rw [State.linkUp, h p]
  rfl

theorem State.countDown_facts (p : Nat) (c : Bool) (s : State) :
    (∃ ports, s.countDown p c = { s with net := { s.net with ports := ports } } ∧ ports.length = s.net.ports.length) ∧
    PortsCounted s (s.countDown p c) := by
  cases c with
  | false => exact ⟨⟨s.net.ports, rfl, rfl⟩, fun q => rfl⟩
  | true =>
    refine ⟨⟨_, rfl, List.length_modify ..⟩, fun q => ?_⟩
    show (s.onPort p fun x => { x with downDiscard := satInc 32 x.downDiscard }).port q =
      { s.port q with downDiscard := ((s.onPort p fun x => { x with downDiscard := satInc 32 x.downDiscard }).port q).downDiscard }
    by_cases hp : p < s.net.ports.length
    · by_cases hq : q = p
      · subst hq
        rw [State.port_onPort_same hp]
      · rw [State.port_onPort_ne hq]
    · rw [State.port_onPort_out (by omega)]

/-! ### Frames that wait for a port -/

/-- The ports that a frame waits for once it is queued. -/
def State.queued (f : TxFrame) (s : State) : TxFrame := { f with waitA := f.waitA && s.linkUp 0, waitB := f.waitB && s.linkUp 1 }

theorem State.enqueue_facts (f : TxFrame) (s : State) :
    (∃ ports tx, s.enqueue f = { s with net := { s.net with ports := ports, tx := tx } } ∧ ports.length = s.net.ports.length) ∧
    PortsCounted s (s.enqueue f) ∧
    (s.netPowered = true → ((s.queued f).waitA || (s.queued f).waitB) = true → (s.enqueue f).net.tx = s.net.tx ++ [s.queued f]) := by
  by_cases hup : s.netPowered = true
  · let u := s.countDown 0 (f.waitA && !(f.waitA && s.linkUp 0))
    let v := u.countDown 1 (f.waitB && !(f.waitB && s.linkUp 1))
    obtain ⟨⟨p0, h0, hl0⟩, hc0⟩ := s.countDown_facts 0 (f.waitA && !(f.waitA && s.linkUp 0))
    obtain ⟨⟨p1, h1, hl1⟩, hc1⟩ := u.countDown_facts 1 (f.waitB && !(f.waitB && s.linkUp 1))
    have hv : v = { s with net := { s.net with ports := p1 } } := by
      show u.countDown 1 _ = _
      rw [h1]
      show { u with net := { u.net with ports := p1 } } = _
      rw [show u = _ from h0]
    have hlen : p1.length = s.net.ports.length := by
      have hu : u.net.ports.length = p0.length := by rw [show u = _ from h0]
      rw [hl1, hu, hl0]
    have hstep : s.enqueue f =
        if ((s.queued f).waitA || (s.queued f).waitB) = true then v.onNet fun n => { n with tx := n.tx ++ [s.queued f] } else v := by
      rw [State.enqueue, if_neg (by simp [hup])]
      rfl
    have hcount : PortsCounted s v := hc0.trans hc1
    rw [hstep]
    split
    · next hw =>
      rw [hv]
      exact ⟨⟨p1, _, rfl, hlen⟩, fun q => by rw [hv] at hcount; exact hcount q, fun _ _ => rfl⟩
    · next hw => exact ⟨⟨p1, s.net.tx, hv, hlen⟩, hcount, fun _ h => absurd h hw⟩
  · have hstep : s.enqueue f = s := if_pos (by simp [hup])
    rw [hstep]
    exact ⟨⟨s.net.ports, s.net.tx, rfl, rfl⟩, fun q => rfl, fun h => absurd h hup⟩

/-- A frame for both ports. -/
theorem State.queueFrame_facts (kind : TxKind) (dest bytes : List Byte) (s : State) :
    (∃ ports tx, s.queueFrame kind true true dest bytes = { s with net := { s.net with ports := ports, tx := tx } } ∧
      ports.length = s.net.ports.length) ∧
    PortsCounted s (s.queueFrame kind true true dest bytes) ∧
    (s.netPowered = true → (s.linkUp 0 || s.linkUp 1) = true → ∃ f, (s.queueFrame kind true true dest bytes).net.tx = s.net.tx ++ [f] ∧
      f.kind = kind ∧ f.both = true ∧ f.dest = dest ∧ f.bytes = bytes) := by
  let f : TxFrame := { kind := kind, both := true && true, prp := none, waitA := true, waitB := true, bytes := bytes, dest := dest,
                       src := ncMac s.net.config, hop := s.knownMac dest, event := none }
  obtain ⟨hframe, hcount, hqueue⟩ := s.enqueue_facts f
  refine ⟨hframe, hcount, fun hup hlink => ⟨s.queued f, hqueue hup ?_, rfl, rfl, rfl, rfl⟩⟩
  simpa [State.queued, f] using hlink

/-! ### A link that goes down -/

theorem State.onStreams_frame (g : EgressFrame → Stream → Stream) (l : List EgressFrame) (s : State) :
    ∃ streams, l.foldl (fun s f => s.onStream f.stream (g f)) s = { s with fabric := { s.fabric with streams := streams } } := by
  induction l generalizing s with
  | nil => exact ⟨s.fabric.streams, rfl⟩
  | cons f l ih =>
    obtain ⟨streams, h⟩ := ih (s.onStream f.stream (g f))
    exact ⟨streams, h⟩

/-- No port waits for a frame or has it on its wire. -/
def EgressFrame.gone (f : EgressFrame) : Bool := !f.waitA && !f.waitB && !f.onA && !f.onB

theorem State.dropEgress_frame (s : State) :
    ∃ streams, s.dropEgress = { s with fabric := { s.fabric with streams := streams, egress := s.fabric.egress.filter fun f => !f.gone } } := by
  obtain ⟨streams, h⟩ := s.onStreams_frame (fun _ x => { x with discarded := satInc 32 x.discarded })
    (s.fabric.egress.filter fun f => f.gone && !f.sent)
  refine ⟨streams, ?_⟩
  have hstep : s.dropEgress = ((s.fabric.egress.filter fun f => f.gone && !f.sent).foldl
      (fun s f => s.onStream f.stream fun x => { x with discarded := satInc 32 x.discarded }) s).onFabric
        fun b => { b with egress := b.egress.filter fun f => !f.gone } := rfl
  rw [hstep, h]
  rfl

/-- A frame that no longer waits for port `p`. -/
def TxFrame.leave (p : Nat) (f : TxFrame) : TxFrame := if p = 0 then { f with waitA := false } else { f with waitB := false }
def EgressFrame.leave (p : Nat) (f : EgressFrame) : EgressFrame :=
  if p = 0 then { f with waitA := false, onA := false } else { f with waitB := false, onB := false }

theorem TxFrame.waits_leave (p : Nat) (f : TxFrame) : (f.leave p).waits p = false := by
  unfold TxFrame.leave TxFrame.waits
  split <;> rfl

theorem EgressFrame.waits_leave (p : Nat) (f : EgressFrame) : (f.leave p).waits p = false := by
  unfold EgressFrame.leave EgressFrame.waits
  split <;> rfl

/-- What a port that is lost discards. -/
theorem State.discardPort_frame (p : Nat) (s : State) :
    ∃ streams, s.discardPort p =
      (let u := s.onPort p fun x => { x with downDiscard := satAdd 32 x.downDiscard (s.queuedFor p) }
       { u with
         net := { u.net with tx := (s.net.tx.map (·.leave p)).filter fun f => f.waitA || f.waitB }
         fabric := { s.fabric with streams := streams, egress := (s.fabric.egress.map (·.leave p)).filter fun f => !f.gone } }) := by
  let u := s.onPort p fun x => { x with downDiscard := satAdd 32 x.downDiscard (s.queuedFor p) }
  obtain ⟨streams, h⟩ := ((u.onNet fun k => { k with tx := (k.tx.map (·.leave p)).filter fun f => f.waitA || f.waitB }).onFabric
    fun b => { b with egress := b.egress.map (·.leave p) }).dropEgress_frame
  exact ⟨streams, h⟩

theorem State.loseLink_down {p : Nat} {s : State} (h : s.linkUp p = false) : s.loseLink p = s := if_pos (by simp [h])

/-- The port of a link that is lost. -/
def Port.lostNow (n : Nat) (x : Port) : Port :=
  { x with link := .down, lost := true, downCount := satInc 32 x.downCount, downDiscard := satAdd 32 x.downDiscard n }

theorem State.loseLink_up {p : Nat} {s : State} (h : s.linkUp p = true) (hp : p < s.net.ports.length) :
    ∃ ports streams, s.loseLink p =
      { s with
        net := { s.net with ports := ports, tx := (s.net.tx.map (·.leave p)).filter fun f => f.waitA || f.waitB }
        fabric := { s.fabric with streams := streams, egress := (s.fabric.egress.map (·.leave p)).filter fun f => !f.gone } } ∧
      ports.length = s.net.ports.length ∧
      ports.getD p Port.reset = (s.port p).lostNow (s.queuedFor p) ∧ ∀ q, q ≠ p → ports.getD q Port.reset = s.port q := by
  let u := s.onPort p fun x => { x with link := .down, lost := true, downCount := satInc 32 x.downCount }
  let v := u.onPort p fun x => { x with downDiscard := satAdd 32 x.downDiscard (u.queuedFor p) }
  obtain ⟨streams, hdiscard⟩ := u.discardPort_frame p
  have hstep : s.loseLink p = u.discardPort p := if_neg (by simp [h])
  have hup : p < u.net.ports.length := by simpa [u, State.onPort, State.onNet] using hp
  refine ⟨v.net.ports, streams, hstep.trans hdiscard, ?_, ?_, fun q hq => ?_⟩
  · simp [v, u, State.onPort, State.onNet]
  · have hv : v.port p = _ := State.port_onPort_same hup
    exact hv.trans (by rw [State.port_onPort_same hp]; rfl)
  · have hv : v.port q = _ := State.port_onPort_ne hq
    exact hv.trans (State.port_onPort_ne hq)

end Sys2Proof.Machine

/-!
## NET_CONFIG, TRDP_CONFIG and the network status commands (R373 to R377)
-/
namespace Sys2Proof.Machine

/-! ### Slices of an image -/

/-- Where a command's payload has a fixed length, it has it. -/
theorem Accepted.length {o : OpInfo} {c : Cmd} {s : State} (h : Accepted o c s) (hlen : o.lenMin = o.lenMax) :
    c.payload.length = 16 * o.lenMin := by
  have hcheck := h.2
  simp only [OpInfo.check, Verdict.andThen_eq_ok] at hcheck
  obtain ⟨⟨-, hl⟩, -⟩ := hcheck
  have h1 := firstFail_eq_ok.1 hl _ (List.mem_cons_self ..)
  simp only [cmdLen, Bool.or_eq_false_iff, bne_eq_false_iff_eq] at h1
  obtain ⟨⟨hmod, hlo⟩, hhi⟩ := h1
  have := of_decide_eq_false hlo
  have := of_decide_eq_false hhi
  omega

theorem slice_patch_before {p xs : List Byte} {i n k : Nat} (h : i + n ≤ k) (hp : i + n ≤ p.length) :
    slice (patch p k xs) i n = slice p i n := by
  have hk : i + n ≤ (p.take k).length := by rw [List.length_take]; omega
  unfold slice patch
  rw [List.append_assoc, List.drop_append_of_le_length (by omega), List.take_append_of_le_length (by rw [List.length_drop]; omega),
    List.drop_take, List.take_take]
  congr 1
  omega

theorem slice_patch_zero {p xs : List Byte} {i n : Nat} (h : i + n ≤ xs.length) (hp : xs.length ≤ p.length) :
    slice (patch p 0 xs) i n = slice xs i n := by
  unfold slice patch
  rw [List.take_zero, List.nil_append, Nat.sub_zero, List.take_of_length_le hp, List.drop_append_of_le_length (by omega),
    List.take_append_of_le_length (by rw [List.length_drop]; omega)]

theorem slice_slice {p : List Byte} {i n k : Nat} (h : i + n ≤ k) : slice (slice p 0 k) i n = slice p i n := by
  unfold slice
  rw [List.drop_zero, List.drop_take, List.take_take]
  congr 1
  omega

theorem length_slice {p : List Byte} {i n : Nat} (h : i + n ≤ p.length) : (slice p i n).length = n := by
  rw [slice, List.length_take, List.length_drop]
  omega

theorem length_patch {p xs : List Byte} {i : Nat} (h : i + xs.length ≤ p.length) : (patch p i xs).length = p.length := by
  rw [patch, List.length_append, List.length_append, List.length_take, List.length_take, List.length_drop]
  omega

/-- The IPv6 address is among what waits for the reply. -/
theorem slice_keepAddresses {old new : List Byte} (ho : old.length = 64) (hn : new.length = 64) :
    slice (keepAddresses old new) 16 16 = slice old 16 16 := by
  have hs : (slice old 0 33).length = 33 := length_slice (by omega)
  have hp : (patch new 0 (slice old 0 33)).length = 64 := by rw [length_patch (by omega), hn]
  rw [keepAddresses, slice_patch_before (by omega) (by omega), slice_patch_zero (by omega) (by omega), slice_slice (by omega)]

/-! ### What NET_CONFIG does to the ports -/

/-- A change of ports, links and PTP that leaves what NET_CONFIG governs. -/
structure NetKept (s t : State) : Prop where
  frame : t = { s with clk := t.clk, fabric := t.fabric, net := t.net }
  config : t.net.config = s.net.config
  wait : t.net.wait = s.net.wait
  v6Usable : t.net.v6Usable = s.net.v6Usable
  dad : t.net.dad = s.net.dad

theorem NetKept.refl (s : State) : NetKept s s := ⟨rfl, rfl, rfl, rfl, rfl⟩

theorem NetKept.trans {s t u : State} (h : NetKept s t) (k : NetKept t u) : NetKept s u := by
  refine ⟨?_, k.config.trans h.config, k.wait.trans h.wait, k.v6Usable.trans h.v6Usable, k.dad.trans h.dad⟩
  have hu := k.frame
  rw [h.frame] at hu
  exact hu

theorem State.onPort_kept (p : Nat) (f : Port → Port) (s : State) : NetKept s (s.onPort p f) := ⟨rfl, rfl, rfl, rfl, rfl⟩

theorem State.loseLink_kept (p : Nat) (s : State) : NetKept s (s.loseLink p) := by
  by_cases h : s.linkUp p = true
  · obtain ⟨streams, hd⟩ :=
      (s.onPort p fun x => { x with link := .down, lost := true, downCount := satInc 32 x.downCount }).discardPort_frame p
    have hstep : s.loseLink p = _ := (if_neg (by simp [h])).trans hd
    rw [hstep]
    exact ⟨rfl, rfl, rfl, rfl, rfl⟩
  · rw [State.loseLink_down (by simpa using h)]
    exact NetKept.refl s

theorem State.retrains_kept (phy : Nat) (l : List Nat) (s : State) : NetKept s (l.foldl (State.retrain phy) s) := by
  induction l generalizing s with
  | nil => exact NetKept.refl s
  | cons p l ih => exact ((s.loseLink_kept p).trans (State.onPort_kept p _ _)).trans (ih _)

theorem State.restartPtp_kept (profile : Nat) (s : State) : NetKept s (s.restartPtp profile) := ⟨rfl, rfl, rfl, rfl, rfl⟩

theorem State.sendProbe_kept (s : State) : NetKept s s.sendProbe := by
  unfold State.sendProbe
  split
  · obtain ⟨⟨ports, tx, h, -⟩, -⟩ := s.queueFrame_facts .neighbour
      (multicastMac true (solicitedNode (ncAddr6 ((s.net.wait.map (·.newImage)).getD s.net.config))))
      (dadMessage (ncAddr6 ((s.net.wait.map (·.newImage)).getD s.net.config)))
    dsimp only
    rw [h]
    exact ⟨rfl, rfl, rfl, rfl, rfl⟩
  · exact NetKept.refl s

/-! ### NET_CONFIG -/

/-- Which ports retrain. -/
def netTrain (old new : List Byte) : List Bool :=
  [0, 1].map fun p => bit ((ncPhy old) ^^^ (ncPhy new)) p || bit ((ncPhy old) ^^^ (ncPhy new)) (2 + p)

/-- The ports behind a NET_CONFIG. -/
def State.netPorts (new : List Byte) (s : State) : State :=
  let u := ([0, 1].filter fun p => (netTrain s.net.config new).getD p false).foldl (State.retrain (ncPhy new)) s
  if (ncProfile s.net.config != ncProfile new || ncDomain s.net.config != ncDomain new) = true then u.restartPtp (ncProfile new) else u

theorem State.netPorts_kept (new : List Byte) (s : State) : NetKept s (s.netPorts new) := by
  unfold State.netPorts
  split
  · exact (State.retrains_kept ..).trans (State.restartPtp_kept ..)
  · exact State.retrains_kept ..

/-- The wait of a NET_CONFIG. -/
def State.netWaitOf (c : Cmd) (v6 : Bool) (s : State) : NetWait :=
  { cmd := c, train := netTrain s.net.config c.payload, since := s.now, dad := newV6 s.net.config c.payload,
    v6 := v6 && !newV6 s.net.config c.payload && ncV6 c.payload && !zeroAt c.payload 16 16, answered := false, newImage := c.payload }

/-- What of a NET_CONFIG acts at once, and its wait. -/
def State.netTaken (c : Cmd) (s u : State) : State :=
  u.onNet fun n =>
    { n with config := keepAddresses s.net.config c.payload, dad := n.dad || newV6 s.net.config c.payload,
             probe := n.probe || newV6 s.net.config c.payload, wait := some (s.netWaitOf c n.v6Usable) }

theorem netConfigEffect_eq (c : Cmd) (s : State) :
    netConfigEffect c s =
      (let u := s.netTaken c (s.netPorts c.payload)
       (if newV6 s.net.config c.payload = true then u.sendProbe else u).netReady) := rfl

theorem State.netReady_dad {w : NetWait} {s : State} (h : s.net.wait = some w) (hd : w.dad = true) : s.netReady = s := by
  rw [State.netReady, h]
  exact if_pos (by simp [hd])

theorem State.netReady_done {w : NetWait} {s : State} (h : s.net.wait = some w) (hd : w.dad = false) (ha : w.answered = false)
    (ht : w.train.any id = false) (hp : bit (u8 w.newImage 6) 2 = false) : s.netReady = s.endNetConfig stOk 0 := by
  rw [State.netReady, h]
  exact (if_neg (by simp [hd, ha, ht])).trans (if_neg (by simp [hp]))

/-- A NET_CONFIG that is answered leaves its addresses to the reply. -/
theorem State.endNetConfig_facts {w : NetWait} {s : State} (st det : Nat) (h : s.net.wait = some w) (ha : w.answered = false) :
    Finished 0x0801 w.cmd (s.block st det 0) [] s (s.endNetConfig st det) ∧
    s.endNetConfig st det = { s with
      host := (s.endNetConfig st det).host
      net := { s.net with wait := some { w with answered := true } } } := by
  have hframe := s.finish_frame 0x0801 w.cmd st det 0 []
  have hfin : Finished 0x0801 w.cmd (s.block st det 0) [] s (s.finish 0x0801 w.cmd st det 0 []) := finish_finished ..
  have hstep : s.endNetConfig st det =
      (s.finish 0x0801 w.cmd st det 0 []).onNet fun n => { n with wait := some { w with answered := true } } := by
    rw [State.endNetConfig, h]
    exact if_neg (by simp [ha])
  rw [hstep]
  generalize s.finish 0x0801 w.cmd st det 0 [] = t at hframe hfin
  refine ⟨hfin, ?_⟩
  rw [hframe]
  rfl

theorem State.endNetConfig_answered {w : NetWait} {s : State} (st det : Nat) (h : s.net.wait = some w) (ha : w.answered = true) :
    s.endNetConfig st det = s := by
  rw [State.endNetConfig, h]
  exact if_pos ha

theorem netTrain_none {old new : List Byte} (h : ncPhy old = ncPhy new) : netTrain old new = [false, false] := by
  simp [netTrain, h, bit]

theorem netConfig_plain {c : Cmd} {s : State} (h : Accepted netConfigInfo c s) (hwait : s.net.wait = none)
    (hphy : ncPhy s.net.config = ncPhy c.payload) (hv6 : newV6 s.net.config c.payload = false) (hp : bit (u8 c.payload 6) 2 = false)
    (hprofile : ncProfile s.net.config = ncProfile c.payload) (hdomain : ncDomain s.net.config = ncDomain c.payload) :
    ∃ t w, exec (.netConfig c) s = .next t ∧ Finished 0x0801 c (s.block 0 0 0) [] s t ∧
      t.net.config = keepAddresses s.net.config c.payload ∧ t.net.wait = some w ∧ w.cmd = c ∧ w.answered = true ∧
      w.newImage = c.payload ∧ t.net.ports = s.net.ports ∧ t = { s with host := t.host, net := t.net } := by
  obtain ⟨j, hsilent, hrun⟩ := State.run_from h
  let s' := s.withJournal j
  let u := s'.netTaken c s'
  have hports : s'.netPorts c.payload = s' := by
    have htrain : netTrain s'.net.config c.payload = [false, false] := netTrain_none hphy
    rw [State.netPorts, if_neg (by simp [s', State.withJournal, hprofile, hdomain]), htrain]
    rfl
  have htrain : (netTrain s'.net.config c.payload).any id = false := (congrArg (List.any · id) (netTrain_none hphy)).trans rfl
  have heff : netConfigEffect c s' = u.endNetConfig stOk 0 := by
    have hready : u.netReady = u.endNetConfig stOk 0 := State.netReady_done rfl hv6 rfl htrain hp
    have hnot : ¬newV6 s'.net.config c.payload = true := ne_true_of_eq_false hv6
    rw [netConfigEffect_eq, hports]
    dsimp only
    rw [if_neg hnot]
    exact hready
  have hstep : netConfig c s = u.endNetConfig stOk 0 := (if_neg (by simp [hwait])).trans ((hrun _).trans heff)
  obtain ⟨hfin, hframe⟩ := State.endNetConfig_facts (s := u) stOk 0 rfl rfl
  refine ⟨u.endNetConfig stOk 0, { s'.netWaitOf c s'.net.v6Usable with answered := true }, congrArg Host.Outcome.next hstep, ?_, ?_, ?_,
    rfl, rfl, rfl, ?_, ?_⟩
  · exact (hfin.of_host (s := s') rfl).of_silent hsilent
  all_goals
    generalize u.endNetConfig stOk 0 = t at hframe
    rw [hframe]
  all_goals rfl

theorem netConfig_address {c : Cmd} {s : State} (h : Accepted netConfigInfo c s) (hwait : s.net.wait = none)
    (hv6 : newV6 s.net.config c.payload = true) (hlen : s.net.config.length = 64) :
    ∃ t w, exec (.netConfig c) s = .next t ∧ Silent c s t ∧ t.net.wait = some w ∧ w.cmd = c ∧ w.dad = true ∧ w.newImage = c.payload ∧
      w.v6 = false ∧ w.answered = false ∧ t.net.dad = true ∧ slice t.net.config 16 16 = slice s.net.config 16 16 ∧
      t.net.v6Usable = s.net.v6Usable ∧ t = { s with host := t.host, net := t.net, fabric := t.fabric, clk := t.clk } := by
  obtain ⟨j, hsilent, hrun⟩ := State.run_from h
  let s' := s.withJournal j
  let u := s'.netTaken c (s'.netPorts c.payload)
  have hkept := (s'.netPorts_kept c.payload)
  have hprobe := u.sendProbe_kept
  have hw : u.sendProbe.net.wait = some (s'.netWaitOf c (s'.netPorts c.payload).net.v6Usable) := hprobe.wait
  have heff : netConfigEffect c s' = u.sendProbe := by
    have hyes : newV6 s'.net.config c.payload = true := hv6
    rw [netConfigEffect_eq]
    dsimp only
    rw [if_pos hyes]
    exact State.netReady_dad hw hyes
  have hstep : netConfig c s = u.sendProbe := (if_neg (by simp [hwait])).trans ((hrun _).trans heff)
  have hframe : u.sendProbe = { s' with clk := u.sendProbe.clk, fabric := u.sendProbe.fabric, net := u.sendProbe.net } := by
    have h2 := hprobe.frame
    generalize u.sendProbe = t at h2
    rw [h2]
    have h1 := hkept.frame
    show { s'.netTaken c (s'.netPorts c.payload) with clk := t.clk, fabric := t.fabric, net := t.net } = _
    rw [h1]
    rfl
  have hhost : u.sendProbe.host = s'.host := by rw [hframe]
  have hdad : u.net.dad = true := by
    show ((s'.netPorts c.payload).net.dad || newV6 s'.net.config c.payload) = true
    rw [show newV6 s'.net.config c.payload = true from hv6, Bool.or_true]
  refine ⟨_, _, congrArg Host.Outcome.next hstep, hsilent.trans (Silent.of_host hhost), hw, rfl, hv6, rfl, ?_, rfl, ?_, ?_, ?_, ?_⟩
  · show ((s'.netPorts c.payload).net.v6Usable && !newV6 s.net.config c.payload && ncV6 c.payload && !zeroAt c.payload 16 16) = false
    rw [hv6]
    simp
  · exact hprobe.dad.trans hdad
  · have hconfig : u.sendProbe.net.config = keepAddresses s.net.config c.payload := hprobe.config
    rw [hconfig]
    exact slice_keepAddresses hlen (h.length rfl)
  · exact hprobe.v6Usable.trans hkept.v6Usable
  · generalize u.sendProbe = t at hframe
    rw [hframe]
    rfl

/-! ### The reply of a NET_CONFIG -/

theorem State.taken_net (r : Reply) (s : State) : (s.taken r).net = (s.netSent r).net := by
  let u := ((s.onHost fun h => { h with waiting := h.waiting.erase r }).unitItem 6 (r.header.take 14)).unitItem 7
    (r.header ++ r.block.bytes ++ r.data)
  have htaken : s.taken r = if !r.final || !r.holdsTag then u.netSent r else
      ((u.netSent r).onQueue r.queue (Queue.release r)).onJournal fun j => { j with live := j.live.filter fun l => !l.retiredBy r } := rfl
  have hnet : (u.netSent r).net = (s.netSent r).net := by
    have hu : u.net = s.net := rfl
    unfold State.netSent
    rw [hu]
    cases hw : s.net.wait with
    | none => exact hu
    | some w => cases ha : w.answeredBy r <;> simp only [ha, if_true, if_false, Bool.false_eq_true] <;> rfl
  rw [htaken]
  split
  · exact hnet
  · exact hnet

theorem spiReadReply_net {r : Reply} {w : NetWait} {s : State} (hup : s.spiUp = true) (hreply : s.spiReply = some r)
    (hw : s.net.wait = some w) :
    (spiReadReply true s).net = if w.answeredBy r = true then (s.installNet w).net else s.net := by
  rw [spiReadReply_eq hup hreply, State.taken_net]
  have hemit : (s.emit (.spiReply r.bytes)).net.wait = some w := hw
  rw [State.netSent, hemit]
  cases ha : w.answeredBy r <;> simp only [ha, if_true, if_false, Bool.false_eq_true] <;> rfl

/-! ### LINK_TRAIN_TIMEOUT, DAD_COMPLETE -/

theorem linkTrainTimeout_eq {p : Nat} {w : NetWait} {s : State} (hw : s.net.wait = some w) (ht : w.train.getD p false = true) :
    linkTrainTimeout p s = if s.since w.since (ms 500) = true then s.endNetConfig stFaultNetwork 1 else s := by
  rw [linkTrainTimeout, hw]
  dsimp only
  rw [ht, Bool.true_and]

theorem dadComplete_idle {inUse : Bool} {s : State} (h : s.net.dad = false) : dadComplete inUse s = s := if_pos (by simp [h])

/-- Duplicate address detection over, with what it found. -/
def State.dadOver (inUse : Bool) (s : State) : State :=
  s.onNet fun n => { n with dad := false, probe := false, dupAddress := n.dupAddress || inUse }

theorem dadComplete_alone {inUse : Bool} {s : State} (h : s.net.dad = true) (hw : s.net.wait = none) :
    dadComplete inUse s = (s.dadOver inUse).onNet fun n => { n with v6Usable := !inUse } := by
  rw [dadComplete, if_neg (by simp [h])]
  show (match s.net.wait with | none => _ | some w => _) = _
  rw [hw]
  rfl

theorem dadComplete_inUse {w : NetWait} {s : State} (h : s.net.dad = true) (hw : s.net.wait = some w) (hd : w.dad = true) :
    dadComplete true s = ((s.dadOver true).onNet fun n => { n with wait := some { w with dad := false, v6 := false } }).endNetConfig
      stFaultNetwork 2 := by
  rw [dadComplete, if_neg (by simp [h])]
  show (match s.net.wait with | none => _ | some w => _) = _
  rw [hw]
  exact if_neg (by simp [hd])

/-! ### The status commands -/

theorem netStatus_step {c : Cmd} {s : State} (h : Accepted netStatusInfo c s) (hp : u8 c.payload 0 < s.net.ports.length) :
    let p := u8 c.payload 0
    ∃ t d, exec (.netStatus c) s = .next t ∧ Finished 0x0804 c (s.block 0 0 (s.port p).link.code) d s t ∧
      u8 d 0 = (s.port p).link.code ∧ (t.port p).lost = ((s.port p).lost && !(u16 c.payload 2).testBit 0) ∧
      t.net.reasmFail = (s.net.reasmFail && !(u16 c.payload 2).testBit 6) ∧ (∀ q, q ≠ p → t.port q = s.port q) ∧
      t = { s with host := t.host, net := t.net } := by
  intro p
  obtain ⟨j, hsilent, hrun⟩ := State.run_from h
  let s' := s.withJournal j
  let u := s'.clearNet p (u16 c.payload 2)
  have hport : u.port p = { s.port p with lost := (s.port p).lost && !bit (u16 c.payload 2) 0 } :=
    State.port_onPort_same (p := p) (s := s') hp
  have hcode : (u.port p).link.code = (s.port p).link.code := (congrArg (fun x : Port => x.link.code) hport :)
  have hsame : (u.port p).lost = ((s.port p).lost && !bit (u16 c.payload 2) 0) := (congrArg Port.lost hport :)
  have hframe := u.finish_frame 0x0804 c stOk 0 (s.port p).link.code (u.netStatus p)
  have hfin : Finished 0x0804 c (u.block stOk 0 (s.port p).link.code) (u.netStatus p) u _ := finish_finished 0x0804 c stOk 0 _ _ u
  have heff : netStatusEffect c s' = u.finish 0x0804 c stOk 0 (s.port p).link.code (u.netStatus p) := by
    rw [← hcode]
    rfl
  refine ⟨_, u.netStatus p, congrArg Host.Outcome.next ((hrun _).trans heff), (hfin.of_host rfl).of_silent hsilent, ?_, ?_, ?_, ?_, ?_⟩
  · have hbyte : u8 (u.netStatus p) 0 = (u.port p).link.code % 256 := by
      simp only [State.netStatus, List.append_assoc]
      rfl
    rw [hbyte, hcode]
    cases (s.port p).link <;> rfl
  · rw [hframe]
    exact hsame
  · rw [hframe]
    rfl
  · intro q hq
    rw [hframe]
    exact State.port_onPort_ne (s := s') hq
  · generalize u.finish 0x0804 c stOk 0 (s.port p).link.code (u.netStatus p) = t at hframe
    rw [hframe]
    rfl

theorem u32_le {n : Nat} (b : List Byte) : u32 (le 4 n ++ b) 0 = n % 2 ^ 32 := by
  rw [u32_append_left b (Nat.le_refl 4)]
  exact u32_of_bytes rfl rfl rfl rfl

theorem streamStatus_step {c : Cmd} {s : State} (h : Accepted streamStatusInfo c s) :
    let n := u8 c.payload 0
    ∃ t d, exec (.streamStatus c) s = .next t ∧ Finished 0x0805 c (s.block 0 0 (s.stream n).frameSeq) d s t ∧
      u32 d 4 = (s.stream n).frameSeq % 2 ^ 32 ∧ u32 d 8 = (s.stream n).recordSeq % 2 ^ 32 ∧ t = { s with host := t.host } := by
  intro n
  obtain ⟨j, hsilent, hrun⟩ := State.run_from h
  let s' := s.withJournal j
  have hfin : Finished 0x0805 c (s'.block stOk 0 (s.stream n).frameSeq) (s'.streamStatus n) s' _ :=
    finish_finished 0x0805 c stOk 0 _ _ s'
  have hframe := s'.finish_frame 0x0805 c stOk 0 (s.stream n).frameSeq (s'.streamStatus n)
  obtain ⟨st, rest, hdata⟩ : ∃ st rest, s'.streamStatus n =
      (le 1 st ++ zeros 3) ++ (le 4 (s.stream n).frameSeq ++ (le 4 (s.stream n).recordSeq ++ rest)) := by
    simp only [State.streamStatus, List.append_assoc]
    exact ⟨_, _, rfl⟩
  refine ⟨s'.finish 0x0805 c stOk 0 (s.stream n).frameSeq (s'.streamStatus n), _, congrArg Host.Outcome.next (hrun _),
    hfin.of_silent hsilent, ?_, ?_, ?_⟩
  · rw [hdata]
    exact (u32_append_right (n := 4) (i := 0) _ rfl).trans (u32_le _)
  · rw [hdata, ← List.append_assoc]
    exact (u32_append_right (n := 8) (i := 0) _ rfl).trans (u32_le _)
  · generalize s'.finish 0x0805 c stOk 0 (s.stream n).frameSeq (s'.streamStatus n) = t at hframe
    rw [hframe]
    rfl

theorem trdpConfig_step {c : Cmd} {s : State} (h : Accepted trdpConfigInfo c s) (hp : bit (u8 c.payload 0) 3 = false) :
    ∃ t, exec (.trdpConfig c) s = .next t ∧ Finished 0x0803 c (s.block 0 0 0) [] s t ∧
      t.net = { s.net with trdp := c.payload } ∧ t = { s with host := t.host, net := t.net } := by
  obtain ⟨j, hsilent, hrun⟩ := State.run_from h
  let u := (s.withJournal j).onNet fun n => { n with trdp := c.payload }
  have heff : trdpConfigEffect c (s.withJournal j) = u.done 0x0803 c 0 := if_neg (by simp [hp])
  have hfin : Finished 0x0803 c (u.block stOk 0 0) [] u (u.done 0x0803 c 0) := State.done_finished ..
  have hframe := u.done_frame 0x0803 c 0
  refine ⟨_, congrArg Host.Outcome.next ((hrun _).trans heff), (hfin.of_host rfl).of_silent hsilent, ?_, ?_⟩
  · rw [hframe]
    rfl
  · generalize u.done 0x0803 c 0 = t at hframe
    rw [hframe]
    rfl

/-- Settles O49: what NET_CONFIG changes on the ports leaves the addresses, the wait and the detection; `endNetConfig` is its one answer. -/
theorem networkSettingsFollowTheirReply : Obligations.NetworkSettingsFollowTheirReply := by
  unfold Obligations.NetworkSettingsFollowTheirReply
  refine ⟨fun c s h => ?_, fun c s h hwait hphy hv6 hp hprofile hdomain => ?_, fun r w s hup hreply hw => ⟨fun ha => ?_, fun ha => ?_⟩,
    fun c s h hwait hv6 hlen => ?_, fun p w s hw ht => ⟨fun h => ?_, fun ha h => ?_⟩,
    fun inUse s hd => ⟨fun hw => ?_, fun w hw hwd ha huse => ?_⟩, fun inUse s hd => ?_, fun c s h hp => ?_, fun c s h hp => ?_,
    fun c s h => ?_⟩
  · exact congrArg Host.Outcome.next (if_pos h)
  · exact netConfig_plain h hwait hphy hv6 hp hprofile hdomain
  · have hnet := (spiReadReply_net hup hreply hw).trans (if_pos ha)
    refine ⟨spiReadReply true s, rfl, ?_⟩
    rw [hnet]
    exact ⟨rfl, rfl, rfl, fun hne => if_neg (by simpa using hne), rfl⟩
  · exact ⟨_, rfl, (spiReadReply_net hup hreply hw).trans (if_neg (by simp [ha]))⟩
  · exact netConfig_address h hwait hv6 hlen
  · refine congrArg Host.Outcome.next ((linkTrainTimeout_eq hw ht).trans ?_)
    rcases h with h | h
    · exact if_neg fun hs => absurd (State.since_iff.1 hs) (Nat.not_le.2 h)
    · rw [State.endNetConfig_answered _ _ hw h, ite_self]
  · obtain ⟨hfin, hframe⟩ := State.endNetConfig_facts stFaultNetwork 1 hw ha
    refine ⟨_, congrArg Host.Outcome.next ((linkTrainTimeout_eq hw ht).trans (if_pos (State.since_iff.2 h))), hfin, ?_, ?_, ?_⟩
    · rw [hframe]
    · rw [hframe]
    · generalize s.endNetConfig stFaultNetwork 1 = t at hframe
      rw [hframe]
  · exact ⟨_, congrArg Host.Outcome.next (dadComplete_alone hd hw), rfl, rfl, rfl, rfl⟩
  · subst huse
    obtain ⟨hfin, hframe⟩ := State.endNetConfig_facts (w := { w with dad := false, v6 := false })
      (s := (s.dadOver true).onNet fun n => { n with wait := some { w with dad := false, v6 := false } }) stFaultNetwork 2 rfl ha
    refine ⟨_, congrArg Host.Outcome.next (dadComplete_inUse hd hw hwd), hfin.of_host rfl, ?_, ?_, ?_, ?_⟩
    · rw [hframe]
      rfl
    · rw [hframe]
      exact Bool.or_true _
    · rw [hframe]
    · generalize State.endNetConfig stFaultNetwork 2 _ = t at hframe
      rw [hframe]
      rfl
  · exact congrArg Host.Outcome.next (dadComplete_idle hd)
  · exact trdpConfig_step h hp
  · exact netStatus_step h hp
  · exact streamStatus_step h

end Sys2Proof.Machine

/-!
## Links, supervision frames, neighbours, fragments and received frames (R356 to R362, R367)
-/
namespace Sys2Proof.Machine

/-! ### LINK_UP -/

theorem State.sendProbe_facts (s : State) :
    (∃ ports tx pr, s.sendProbe = { s with net := { s.net with ports := ports, tx := tx, probe := pr } }) ∧
    PortsCounted s s.sendProbe ∧ (s.net.probe = false → s.sendProbe = s) := by
  by_cases h : (s.net.probe && (s.linkUp 0 || s.linkUp 1)) = true
  · let a := ncAddr6 ((s.net.wait.map (·.newImage)).getD s.net.config)
    have hstep : s.sendProbe =
        (s.queueFrame .neighbour true true (multicastMac true (solicitedNode a)) (dadMessage a)).onNet fun n => { n with probe := false } :=
      if_pos h
    obtain ⟨⟨ports, tx, hq, -⟩, hcount, -⟩ := s.queueFrame_facts .neighbour (multicastMac true (solicitedNode a)) (dadMessage a)
    refine ⟨⟨ports, tx, false, ?_⟩, fun q => ?_, fun hp => ?_⟩
    · rw [hstep, hq]
      rfl
    · rw [hstep]
      exact hcount q
    · simp [hp] at h
  · have hstep : s.sendProbe = s := if_neg h
    rw [hstep]
    exact ⟨⟨s.net.ports, s.net.tx, s.net.probe, rfl⟩, fun q => rfl, fun _ => rfl⟩

theorem State.netReady_frame (s : State) :
    ∃ host q w, s.netReady = { s with host := host, health := { s.health with queue := q }, net := { s.net with wait := w } } := by
  have hid : ∃ host q w, s = { s with host := host, health := { s.health with queue := q }, net := { s.net with wait := w } } :=
    ⟨s.host, s.health.queue, s.net.wait, rfl⟩
  unfold State.netReady
  split
  · exact hid
  · next w hw =>
    split
    · exact hid
    · split
      · obtain ⟨q, h⟩ := s.storeFor_frame 0x0801 recNetwork none w.cmd
        exact ⟨_, q, s.net.wait, h⟩
      · next hwait _ =>
        have ha : w.answered = false := by simp only [Bool.or_eq_true, not_or] at hwait; simpa using hwait.1.2
        exact ⟨_, s.health.queue, _, (State.endNetConfig_facts stOk 0 hw ha).2⟩

/-- The port of a link that comes up. -/
def Port.up (p : Nat) (m a : Bool) (q phy profile : Nat) (x : Port) : Port :=
  { x with link := .up, master := if bit phy (2 + p) then m else bit phy p, anDone := bit phy (2 + p) && a, sqi := q % 8,
           ptp := if x.ptp.state = ptpDisabled then { x.ptp with state := ptpIdle profile true } else x.ptp }

/-- A link that has come up, and the probe that waited for one. -/
def State.linked (p : Nat) (m a : Bool) (q : Nat) (s : State) : State :=
  (s.onPort p (Port.up p m a q (ncPhy s.net.config) (ncProfile s.net.config))).sendProbe

/-- The wait of a NET_CONFIG, without the training of port `p`. -/
def State.trained (p : Nat) (w : NetWait) (s : State) : State :=
  s.onNet fun n => { n with wait := some { w with train := w.train.set p false } }

theorem linkUp_idle {p q : Nat} {m a : Bool} {s : State} (h : s.linkUp p = true) : linkUp p m a q s = s := if_pos (by simp [h])

theorem linkUp_eq {p q : Nat} {m a : Bool} {s : State} (hp : p < 2) (h : s.linkUp p = false) :
    linkUp p m a q s = (s.linked p m a q).net.wait.elim (s.linked p m a q) fun w =>
      if w.train.getD p false = true then ((s.linked p m a q).trained p w).netReady else s.linked p m a q := by
  rw [linkUp, if_neg (by simp [h]; omega)]
  dsimp only
  split
  · next w hw =>
    have hw' : (s.linked p m a q).net.wait = some w := hw
    rw [hw']
    rfl
  · next hw =>
    have hw' : (s.linked p m a q).net.wait = none := hw
    rw [hw']
    rfl

theorem State.linked_facts {p : Nat} (m a : Bool) (q : Nat) {s : State} (hp : p < s.net.ports.length) :
    (∃ ports tx pr, s.linked p m a q = { s with net := { s.net with ports := ports, tx := tx, probe := pr } }) ∧
    (∃ n, (s.linked p m a q).port p =
      { Port.up p m a q (ncPhy s.net.config) (ncProfile s.net.config) (s.port p) with downDiscard := n }) ∧
    (s.net.probe = false → ∀ k, k ≠ p → (s.linked p m a q).port k = s.port k) := by
  let u := s.onPort p (Port.up p m a q (ncPhy s.net.config) (ncProfile s.net.config))
  obtain ⟨⟨ports, tx, pr, hframe⟩, hcount, hquiet⟩ := u.sendProbe_facts
  refine ⟨⟨ports, tx, pr, hframe⟩, ⟨(u.sendProbe.port p).downDiscard, (hcount p).trans ?_⟩, fun h k hk => ?_⟩
  · rw [State.port_onPort_same hp]
  · exact (congrArg (State.port k) (hquiet h)).trans (State.port_onPort_ne hk)

/-- What a link that comes up changes: its port, and what a NET_CONFIG waited for. -/
theorem linkUp_facts {p q : Nat} {m a : Bool} {s : State} (hp : p < 2) (h : s.linkUp p = false) :
    (∃ host queue w, linkUp p m a q s =
      (let u := s.linked p m a q
       { u with host := host, health := { u.health with queue := queue }, net := { u.net with wait := w } })) ∧
    (s.net.wait = none → linkUp p m a q s = s.linked p m a q) := by
  have heq := linkUp_eq (q := q) (m := m) (a := a) hp h
  have hwait : (s.linked p m a q).net.wait = s.net.wait := by
    obtain ⟨⟨ports, tx, pr, hframe⟩, -⟩ :=
      (s.onPort p (Port.up p m a q (ncPhy s.net.config) (ncProfile s.net.config))).sendProbe_facts
    rw [State.linked, hframe]
    rfl
  refine ⟨?_, fun hw => ?_⟩
  · rw [heq]
    generalize s.linked p m a q = u
    have hid : ∃ host queue w, u = { u with host := host, health := { u.health with queue := queue }, net := { u.net with wait := w } } :=
      ⟨u.host, u.health.queue, u.net.wait, rfl⟩
    cases u.net.wait with
    | none => exact hid
    | some w =>
      show ∃ host queue w', (if w.train.getD p false = true then (u.trained p w).netReady else u) = _
      split
      · obtain ⟨host, queue, w', hr⟩ := (u.trained p w).netReady_frame
        exact ⟨host, queue, w', hr⟩
      · exact hid
  · rw [heq, hwait, hw]
    rfl

theorem linkUp_answers {q : Nat} {m a : Bool} {w : NetWait} {s : State} (h : s.linkUp 0 = false)
    (hw : s.net.wait = some w) (htrain : w.train = [true, false]) (hd : w.dad = false) (ha : w.answered = false)
    (hp : bit (u8 w.newImage 6) 2 = false) :
    Finished 0x0801 w.cmd (s.block 0 0 0) [] s (linkUp 0 m a q s) ∧ (linkUp 0 m a q s).net.config = s.net.config ∧
    (linkUp 0 m a q s).net.wait = some { w with train := [false, false], answered := true } := by
  let u := s.linked 0 m a q
  let w' : NetWait := { w with train := [false, false] }
  obtain ⟨⟨ports, tx, pr, hframe⟩, -⟩ :=
    (s.onPort 0 (Port.up 0 m a q (ncPhy s.net.config) (ncProfile s.net.config))).sendProbe_facts
  have hu : u = { s with net := { s.net with ports := ports, tx := tx, probe := pr } } := hframe
  have hwait : u.net.wait = some w := by rw [hu]; exact hw
  have hset : ({ w with train := w.train.set 0 false } : NetWait) = w' := by rw [htrain]; rfl
  have hstep : linkUp 0 m a q s = (u.trained 0 w).endNetConfig stOk 0 := by
    rw [linkUp_eq (by omega) h, hwait, Option.elim_some, if_pos (by rw [htrain]; rfl)]
    refine State.netReady_done (w := w') (congrArg some hset) hd ha rfl hp
  obtain ⟨hfin, ht⟩ := State.endNetConfig_facts (w := w') (s := u.trained 0 w) stOk 0 (congrArg some hset) ha
  have hhost : (u.trained 0 w).host = s.host := by
    show u.host = s.host
    rw [hu]
  have hblock : (u.trained 0 w).block stOk 0 0 = s.block 0 0 0 := by
    refine State.block_congr _ _ _ ?_ ?_
    · show u.sets = s.sets
      rw [hu]
    · show u.clk = s.clk
      rw [hu]
  rw [hblock] at hfin
  rw [hstep]
  refine ⟨hfin.of_host hhost, ?_, ?_⟩
  · rw [ht]
    show u.net.config = s.net.config
    rw [hu]
  · rw [ht]

/-! ### Neighbours -/

theorem State.askNeighbour_facts (v6 : Bool) (a : List Byte) (s : State) :
    ∃ ports tx, s.askNeighbour v6 a = { s with net := { s.net with ports := ports, tx := tx } } := by
  unfold State.askNeighbour
  dsimp only
  split
  · exact ⟨s.net.ports, s.net.tx, rfl⟩
  · split
    · obtain ⟨⟨ports, tx, h, -⟩, -⟩ := s.queueFrame_facts .neighbour (multicastMac true (solicitedNode a))
        (ndMessage 135 0 1 (ncAddr6 s.net.config) (solicitedNode a) a (ncMac s.net.config))
      exact ⟨ports, tx, h⟩
    · obtain ⟨⟨ports, tx, h, -⟩, -⟩ := s.queueFrame_facts .arp broadcastMac
        (arpPacket 1 (ncMac s.net.config) (ncAddr4 s.net.config) (zeros 6) a)
      exact ⟨ports, tx, h⟩

/-- Changing entries of one address in place changes what that address finds. -/
theorem find_map_addr {f : Neighbour → Neighbour} (hf : ∀ x, (f x).addr = x.addr) (a : List Byte) (l : List Neighbour) :
    (l.map f).find? (·.addr == a) = (l.find? (·.addr == a)).map f := by
  rw [List.find?_map]
  congr 1
  refine congrArg (List.find? · l) (funext fun x => ?_)
  simp [hf]

theorem neighbourRefresh_due {a : List Byte} {x : Neighbour} {s : State} (h : s.neighbour (addr16 a) = some x)
    (hdue : x.refreshed + 76800000000 ≤ s.clk.now) :
    ∃ t y, exec (.neighbourRefresh a) s = .next t ∧
      t.neighbour (addr16 a) = some y ∧ y.mac = x.mac ∧ y.refreshed = s.clk.now ∧ t = { s with net := t.net } := by
  let f (y : Neighbour) : Neighbour := if y.addr == x.addr then { y with refreshed := s.now } else y
  let u := s.onNet fun n => { n with neighbours := n.neighbours.map f }
  have hdue' : s.since x.refreshed (sec 60) = true := State.since_iff.2 hdue
  have hstep : neighbourRefresh a s = u.askNeighbour (!zeroAt x.addr 4 12) x.addr := by
    rw [neighbourRefresh, h]
    exact if_neg (by rw [hdue']; simp)
  have hf : ∀ y, (f y).addr = y.addr := fun y => by
    simp only [f]
    split <;> rfl
  have hfind : u.neighbour (addr16 a) = some (f x) := by
    have hmap := find_map_addr hf (addr16 a) s.net.neighbours
    have hx : s.net.neighbours.find? (·.addr == addr16 a) = some x := h
    rw [hx] at hmap
    exact hmap
  have hfx : f x = { x with refreshed := s.now } := if_pos (beq_self_eq_true _)
  obtain ⟨ports, tx, hframe⟩ := u.askNeighbour_facts (!zeroAt x.addr 4 12) x.addr
  rw [hframe] at hstep
  refine ⟨_, _, congrArg Host.Outcome.next hstep, hfind, ?_, ?_, rfl⟩
  · rw [hfx]
  · rw [hfx]
    rfl

theorem reasmTimeout_eq {i : Nat} {r : Reasm} {s : State} (h : s.net.reasm[i]? = some r) :
    reasmTimeout i s = if s.since r.since (ms 50) = true then s.onNet fun n =>
      { n with reasm := n.reasm.eraseIdx i, reasmFail := true, mdRejected := satInc 32 n.mdRejected } else s := by
  rw [reasmTimeout, h]

/-! ### Frames received -/

theorem State.completed_none {p : Nat} {f : NetFrame} {s : State} (h : s.takesFrame p f = false) : s.completed p f = none := by
  unfold State.completed
  split
  · exact if_neg (by simp [h])
  · rfl

theorem State.completed_whole {p : Nat} {f : NetFrame} {s : State}
    (h : ∀ src ident offset last data, f.kind ≠ .fragment src ident offset last data) : s.completed p f = none := by
  unfold State.completed
  split
  · next hk => exact (h _ _ _ _ _ hk).elim
  · rfl

theorem execNetFrameReceive_none {p : Nat} {f : NetFrame} {s : State} (h : s.completed p f = none) :
    exec (.netFrameReceive p f) s = .next (netFrameReceive p f s) := by
  show execNetFrameReceive p f s = _
  rw [execNetFrameReceive, h]

/-- A port with one more frame received. -/
def Port.received (x : Port) : Port := { x with framesRx := wrap 32 (x.framesRx + 1) }

section Receive

variable {p : Nat} {f : NetFrame} {s : State}

theorem netFrameReceive_fcs (hp : p < 2) (hpow : s.netPowered = true) (hup : s.linkUp p = true) (hf : f.fcsOk = false) :
    netFrameReceive p f s = s.onPort p fun x => { x with fcsErr := satInc 32 x.fcsErr } := by
  rw [netFrameReceive, if_neg (by simp [hpow, hup]; omega)]
  exact if_pos (by simp [hf])

theorem netFrameReceive_good (hp : p < 2) (hpow : s.netPowered = true) (hup : s.linkUp p = true) (hf : f.fcsOk = true) :
    netFrameReceive p f s =
      (let u := s.onPort p Port.received
       if (f.kind == .pause) = true then u
       else if (!s.accepts f) = true then u.onPort p fun x => { x with rxDiscard := satInc 32 x.rxDiscard }
       else if s.prpDuplicate p f = true then u.onPort p fun x => { x with prpDup := satInc 32 x.prpDup }
       else (u.noteSeq p f).takeFrame f) := by
  rw [netFrameReceive, if_neg (by simp [hpow, hup]; omega), if_neg (by simp [hf])]
  rfl

/-- A port whose counters change twice. -/
theorem State.port_counted {g k : Port → Port} (hp : p < s.net.ports.length) :
    ((s.onPort p g).onPort p k).port p = k (g (s.port p)) := by
  rw [State.port_onPort_same (by simpa [State.onPort, State.onNet] using hp), State.port_onPort_same hp]

/-! ### What an accepted frame does -/

/-- Its trailer enters the drop window. -/
theorem State.noteSeq_facts (p : Nat) (f : NetFrame) (s : State) (hp : p < s.net.ports.length) :
    (∃ ports drops, s.noteSeq p f = { s with net := { s.net with ports := ports, drops := drops } }) ∧
    (∀ q, (s.noteSeq p f).linkUp q = s.linkUp q) ∧
    ((s.noteSeq p f).port p).framesRx = (s.port p).framesRx ∧ ((s.noteSeq p f).port p).rxDiscard = (s.port p).rxDiscard ∧
    (∀ r, f.rct = some r → (∃ d ∈ (s.noteSeq p f).net.drops, d.src = f.src ∧ d.seq = r.1 ∧ d.lanA = (p == 0) ∧ d.at_ = s.clk.now) ∧
      ((s.noteSeq p f).port p).wrongLan = (if r.2 = 10 + p then (s.port p).wrongLan else satInc 32 (s.port p).wrongLan)) := by
  cases hr : f.rct with
  | none =>
    have hstep : s.noteSeq p f = s := by rw [State.noteSeq, hr]
    rw [hstep]
    exact ⟨⟨s.net.ports, s.net.drops, rfl⟩, fun _ => rfl, rfl, rfl, fun r h => by simp at h⟩
  | some r =>
    let u := if (r.2 != 10 + p) = true then s.onPort p fun x => { x with wrongLan := satInc 32 x.wrongLan } else s
    let alive := u.net.drops.filter fun d => decide (s.now < d.at_ + ms 400)
    let e : DropEntry := { src := f.src, seq := r.1, lanA := p == 0, at_ := s.now }
    let mine := (alive.filter fun d => d.src == f.src) ++ [e]
    have hstep : s.noteSeq p f = u.onNet fun n =>
        { n with drops := (alive.filter fun d => d.src != f.src) ++ mine.drop (mine.length - 64) } := by
      rw [State.noteSeq, hr]
      rfl
    have hmem : e ∈ mine.drop (mine.length - 64) := by
      have hlen : mine.length = (alive.filter fun d => d.src == f.src).length + 1 := by simp [mine]
      rw [hlen, List.drop_append_of_le_length (by omega)]
      simp
    obtain ⟨ports, hu⟩ : ∃ ports, u = { s with net := { s.net with ports := ports } } := by
      simp only [u]
      split <;> exact ⟨_, rfl⟩
    have hport : u.port p = { s.port p with wrongLan := if r.2 = 10 + p then (s.port p).wrongLan else satInc 32 (s.port p).wrongLan } := by
      simp only [u, bne_iff_ne, ne_eq, ite_not]
      split
      · rfl
      · exact State.port_onPort_same hp
    have hlink (q : Nat) : u.linkUp q = s.linkUp q := by
      simp only [u]
      split
      · by_cases hq : q = p
        · subst hq
          rw [State.linkUp, State.port_onPort_same hp]
          rfl
        · rw [State.linkUp, State.port_onPort_ne hq]
          rfl
      · rfl
    rw [hstep]
    refine ⟨⟨ports, _, by rw [hu]; rfl⟩, hlink, ?_, ?_, fun r' h => ?_⟩
    · exact (congrArg Port.framesRx hport :)
    · exact (congrArg Port.rxDiscard hport :)
    · cases h
      exact ⟨⟨e, List.mem_append_right _ hmem, rfl, rfl, rfl, rfl⟩, congrArg Port.wrongLan hport⟩

/-- An echo request is answered, and its time noted, or not. -/
theorem State.answerEcho_cases (v6 : Bool) (src payload : List Byte) (s : State) :
    s.answerEcho v6 src payload = s ∨ ∃ bytes, s.answerEcho v6 src payload =
      (s.onNet fun n => { n with echoes := s.net.echoes.filter (fun t => decide (s.now < t + sec 1)) ++ [s.now] }).queueFrame
        .icmp true true (addr16 src) bytes := by
  by_cases h : (!ncIcmp s.net.config || decide (100 ≤ (s.net.echoes.filter fun t => decide (s.now < t + sec 1)).length) ||
      (if v6 = true then !s.net.v6Usable else !ncV4 s.net.config)) = true
  · exact .inl (if_pos h)
  · exact .inr ⟨_, if_neg h⟩

/-- What a frame does leaves everything but network state, and of the ports all but what they discarded. -/
theorem State.takeFrame_facts (f : NetFrame) (s : State) :
    (∃ ports tx neighbours echoes reasm, s.takeFrame f = { s with net := { s.net with
      ports := ports, tx := tx, neighbours := neighbours, echoes := echoes, reasm := reasm } }) ∧ PortsCounted s (s.takeFrame f) := by
  have hsame (t : State) (h : t = s) : (∃ ports tx neighbours echoes reasm, t = { s with net := { s.net with
      ports := ports, tx := tx, neighbours := neighbours, echoes := echoes, reasm := reasm } }) ∧ PortsCounted s t :=
    ⟨⟨s.net.ports, s.net.tx, s.net.neighbours, s.net.echoes, s.net.reasm, h⟩, fun q => by rw [h]⟩
  have hqueue (kind : TxKind) (dest bytes : List Byte) : (∃ ports tx neighbours echoes reasm,
      s.queueFrame kind true true dest bytes = { s with net := { s.net with
        ports := ports, tx := tx, neighbours := neighbours, echoes := echoes, reasm := reasm } }) ∧
      PortsCounted s (s.queueFrame kind true true dest bytes) := by
    obtain ⟨⟨ports, tx, h, -⟩, hcount, -⟩ := s.queueFrame_facts kind dest bytes
    exact ⟨⟨ports, tx, s.net.neighbours, s.net.echoes, s.net.reasm, h⟩, hcount⟩
  unfold State.takeFrame
  dsimp only
  split
  · split
    · exact hqueue ..
    · exact hsame _ rfl
  · exact ⟨⟨s.net.ports, s.net.tx, _, s.net.echoes, s.net.reasm, rfl⟩, fun q => rfl⟩
  · split
    · split
      · exact hqueue ..
      · exact hqueue ..
    · exact hsame _ rfl
  · exact ⟨⟨s.net.ports, s.net.tx, _, s.net.echoes, s.net.reasm, rfl⟩, fun q => rfl⟩
  · next v6 src payload hk =>
    obtain h | ⟨bytes, h⟩ := s.answerEcho_cases v6 src payload
    · exact hsame _ h
    · obtain ⟨⟨ports, tx, hq, -⟩, hcount, -⟩ := (s.onNet fun n =>
        { n with echoes := s.net.echoes.filter (fun t => decide (s.now < t + sec 1)) ++ [s.now] }).queueFrame_facts .icmp (addr16 src) bytes
      rw [h]
      exact ⟨⟨ports, tx, s.net.neighbours, _, s.net.reasm, hq⟩, hcount⟩
  · unfold State.addFragment
    split
    · exact hsame _ rfl
    · exact ⟨⟨s.net.ports, s.net.tx, s.net.neighbours, s.net.echoes, _, rfl⟩, fun q => rfl⟩
  all_goals exact hsame _ rfl

theorem State.takeFrame_answer {a m : List Byte} {x : Neighbour} (h : f.kind = .arpReply a m ∨ f.kind = .neighbourAdvert a m)
    (hx : s.neighbour (addr16 a) = some x) : (s.takeFrame f).neighbour (addr16 a) = some { x with mac := some m } := by
  let g (y : Neighbour) : Neighbour := if y.addr == addr16 a then { y with mac := some m } else y
  have hg : ∀ y, (g y).addr = y.addr := fun y => by
    simp only [g]
    split <;> rfl
  have hstep : s.takeFrame f = s.learnNeighbour a m := by
    rcases h with h | h <;> rw [State.takeFrame, h]
  have hmap := find_map_addr hg (addr16 a) s.net.neighbours
  have hx' : s.net.neighbours.find? (·.addr == addr16 a) = some x := hx
  have haddr : (x.addr == addr16 a) = true := by simpa using List.find?_some hx'
  have hgx : g x = { x with mac := some m } := if_pos haddr
  rw [hx', Option.map_some, hgx] at hmap
  rw [hstep]
  exact hmap

theorem State.takeFrame_arp {a b : List Byte} (h : f.kind = .arpRequest a b) (hv4 : ncV4 s.net.config = true)
    (haddr : slice b 0 4 = ncAddr4 s.net.config) (hpow : s.netPowered = true) (hlink : (s.linkUp 0 || s.linkUp 1) = true) :
    ∃ g, (s.takeFrame f).net.tx = s.net.tx ++ [g] ∧ g.kind = .arp ∧ g.dest = f.src ∧
      g.bytes = arpPacket 2 (ncMac s.net.config) (ncAddr4 s.net.config) f.src a := by
  have hstep : s.takeFrame f = s.queueFrame .arp true true f.src (arpPacket 2 (ncMac s.net.config) (ncAddr4 s.net.config) f.src a) := by
    rw [State.takeFrame, h]
    exact if_pos (by simp [hv4, haddr])
  obtain ⟨-, -, hqueue⟩ := s.queueFrame_facts .arp f.src (arpPacket 2 (ncMac s.net.config) (ncAddr4 s.net.config) f.src a)
  obtain ⟨g, htx, hkind, -, hdest, hbytes⟩ := hqueue hpow hlink
  exact ⟨g, by rw [hstep]; exact htx, hkind, hdest, hbytes⟩

theorem State.takeFrame_echo {src x : List Byte} (h : f.kind = .echoRequest false src x) (hicmp : ncIcmp s.net.config = true)
    (hv4 : ncV4 s.net.config = true) (hechoes : s.net.echoes = []) (hpow : s.netPowered = true)
    (hlink : (s.linkUp 0 || s.linkUp 1) = true) :
    ∃ g, (s.takeFrame f).net.tx = s.net.tx ++ [g] ∧ g.kind = .icmp ∧ g.dest = addr16 src := by
  let u := s.onNet fun n => { n with echoes := s.net.echoes.filter (fun t => decide (s.now < t + sec 1)) ++ [s.now] }
  obtain ⟨bytes, hstep⟩ : ∃ bytes, s.takeFrame f = u.queueFrame .icmp true true (addr16 src) bytes := by
    rw [State.takeFrame, h]
    exact ⟨_, if_neg (by simp [hicmp, hv4, hechoes])⟩
  obtain ⟨-, -, hqueue⟩ := u.queueFrame_facts .icmp (addr16 src) bytes
  obtain ⟨g, htx, hkind, -, hdest, -⟩ := hqueue hpow hlink
  exact ⟨g, by rw [hstep]; exact htx, hkind, hdest⟩

end Receive

/-! ### The clauses -/

theorem linkDown_up {p : Nat} {s : State} (hp : p < s.net.ports.length) (h : s.linkUp p = true) :
    ∃ t, exec (.linkDown p) s = .next t ∧ t.linkUp p = false ∧ (t.port p).lost = true ∧
      (t.port p).downCount = satInc 32 (s.port p).downCount ∧
      (t.port p).downDiscard = satAdd 32 (s.port p).downDiscard (s.queuedFor p) ∧ (∀ f ∈ t.net.tx, f.waits p = false) ∧
      (∀ f ∈ t.fabric.egress, f.waits p = false) ∧ (∀ q, q ≠ p → t.port q = s.port q) ∧
      t = { s with net := t.net, fabric := t.fabric } := by
  obtain ⟨ports, streams, heq, -, hport, hother⟩ := State.loseLink_up h hp
  have hport' : (s.loseLink p).port p = (s.port p).lostNow (s.queuedFor p) := by
    rw [heq]
    exact hport
  refine ⟨s.loseLink p, rfl, ?_, ?_, ?_, ?_, fun f hf => ?_, fun f hf => ?_, fun q hq => ?_, ?_⟩
  · rw [State.linkUp, hport']
    rfl
  · rw [hport']
    rfl
  · rw [hport']
    rfl
  · rw [hport']
    rfl
  · rw [heq] at hf
    obtain ⟨g, -, rfl⟩ := List.mem_map.1 (List.mem_of_mem_filter hf)
    exact g.waits_leave p
  · rw [heq] at hf
    obtain ⟨g, -, rfl⟩ := List.mem_map.1 (List.mem_of_mem_filter hf)
    exact g.waits_leave p
  · rw [heq]
    exact hother q hq
  · rw [heq]

theorem linkUp_down {p : Nat} {s : State} (m a : Bool) (q : Nat) (hp : p < 2) (hlen : p < s.net.ports.length) (h : s.linkUp p = false) :
    ∃ t, exec (.linkUp p m a q) s = .next t ∧ t.linkUp p = true ∧
      (t.port p).sqi = q % 8 ∧ (s.net.probe = false → ∀ k, k ≠ p → t.port k = s.port k) ∧ (s.net.wait = none → t = { s with net := t.net }) ∧
      ((s.port p).ptp.state = 3 → ncProfile s.net.config ≠ 0 → (t.port p).ptp.state = 4) ∧
      (∀ w, s.net.wait = some w → w.train = [true, false] → p = 0 → w.dad = false → w.answered = false →
        bit (u8 w.newImage 6) 2 = false →
        Finished 0x0801 w.cmd (s.block 0 0 0) [] s t ∧ t.net.config = s.net.config ∧
        t.net.wait = some { w with train := [false, false], answered := true }) ∧
      t = { s with health := t.health, host := t.host, net := t.net } := by
  obtain ⟨⟨host, queue, w, heq⟩, hnone⟩ := linkUp_facts (q := q) (m := m) (a := a) hp h
  obtain ⟨⟨ports, tx, pr, hframe⟩, ⟨n, hport⟩, hother⟩ := State.linked_facts m a q hlen
  have hport' : (linkUp p m a q s).port p =
      { Port.up p m a q (ncPhy s.net.config) (ncProfile s.net.config) (s.port p) with downDiscard := n } := by
    rw [heq]
    exact hport
  refine ⟨linkUp p m a q s, rfl, ?_, ?_, fun hprobe k hk => ?_, fun hw => ?_, fun hdis hprof => ?_, fun w hw htrain hp0 hd ha hper => ?_, ?_⟩
  · rw [State.linkUp, hport']
    rfl
  · rw [hport']
    rfl
  · rw [heq]
    exact hother hprobe k hk
  · rw [hnone hw, hframe]
  · rw [hport']
    have hdis' : (s.port p).ptp.state = ptpDisabled := hdis
    refine (congrArg PtpPort.state (if_pos hdis')).trans ?_
    have hidle : ptpIdle (ncProfile s.net.config) true = 4 := if_pos (by simpa using hprof)
    exact hidle
  · subst hp0
    exact linkUp_answers h hw htrain hd ha hper
  · rw [heq, hframe]

theorem prpSupervisionSend_due {s : State} (hpow : s.netPowered = true) (hdue : s.net.lastSupervision + 2560000000 ≤ s.clk.now) :
    ∃ t, exec .prpSupervisionSend s = .next t ∧
      t.net.lastSupervision = s.clk.now ∧ (s.linkUp 0 = true → ∃ f, t.net.tx = s.net.tx ++ [f] ∧ f.kind = .supervision ∧ f.both = true) ∧
      t = { s with net := t.net } := by
  obtain ⟨⟨ports, tx, h, -⟩, -, hqueue⟩ := s.queueFrame_facts .supervision supervisionMac
    (supervisionBody s.net.supervisionSeq (ncMac s.net.config))
  have hstep : prpSupervisionSend s = _ := if_pos (Bool.and_eq_true_iff.2 ⟨hpow, State.since_iff.2 hdue⟩)
  refine ⟨_, congrArg Host.Outcome.next hstep, rfl, fun hlink => ?_, ?_⟩
  · obtain ⟨f, htx, hkind, hboth, -⟩ := hqueue hpow (by simp [hlink])
    exact ⟨f, htx, hkind, hboth⟩
  · rw [h]
    rfl

theorem State.onPort_onPort {p : Nat} {g k : Port → Port} {s : State} : (s.onPort p g).onPort p k = s.onPort p (k ∘ g) := by
  have hlist (l : List Port) : (l.modify p g).modify p k = l.modify p (k ∘ g) := List.modify_modify_eq ..
  exact congrArg (fun ports => s.onNet fun n => { n with ports := ports }) (hlist s.net.ports)

/-- A frame of another address, or the second copy of one, or a PAUSE, only counts. -/
theorem onPort_only {p : Nat} (g : Port → Port) {f : NetFrame} {s : State} (hp : p < s.net.ports.length)
    (hnone : s.completed p f = none) (h : netFrameReceive p f s = s.onPort p g) :
    ∃ t, exec (.netFrameReceive p f) s = .next t ∧ t.port p = g (s.port p) ∧
      t = { s with net := { s.net with ports := t.net.ports } } := by
  refine ⟨s.onPort p g, ?_, State.port_onPort_same hp, rfl⟩
  rw [execNetFrameReceive_none hnone, h]

theorem netFrameReceive_taken {p : Nat} {f : NetFrame} {s : State} (hp : p < 2) (hlen : p < s.net.ports.length)
    (hpow : s.netPowered = true) (hup : s.linkUp p = true) (hf : f.fcsOk = true) (hpause : f.kind ≠ .pause) (hacc : s.accepts f = true)
    (hdup : s.prpDuplicate p f = false) :
    let t := netFrameReceive p f s
    (t.port p).framesRx = wrap 32 ((s.port p).framesRx + 1) ∧ (t.port p).rxDiscard = (s.port p).rxDiscard ∧
    (∀ r, f.rct = some r → (∃ d ∈ t.net.drops, d.src = f.src ∧ d.seq = r.1 ∧ d.lanA = (p == 0) ∧ d.at_ = s.clk.now) ∧
      (t.port p).wrongLan = (if r.2 = 10 + p then (s.port p).wrongLan else satInc 32 (s.port p).wrongLan)) ∧
    (∀ a m x, f.kind = .arpReply a m ∨ f.kind = .neighbourAdvert a m → s.neighbour (addr16 a) = some x →
      t.neighbour (addr16 a) = some { x with mac := some m }) ∧
    (∀ a b, f.kind = .arpRequest a b → ncV4 s.net.config = true → slice b 0 4 = ncAddr4 s.net.config →
      ∃ g, t.net.tx = s.net.tx ++ [g] ∧ g.kind = .arp ∧ g.dest = f.src ∧
        g.bytes = arpPacket 2 (ncMac s.net.config) (ncAddr4 s.net.config) f.src a) ∧
    (∀ src x, f.kind = .echoRequest false src x → ncIcmp s.net.config = true → ncV4 s.net.config = true → s.net.echoes = [] →
      ∃ g, t.net.tx = s.net.tx ++ [g] ∧ g.kind = .icmp ∧ g.dest = addr16 src) ∧
    t = { s with net := t.net } := by
  let u := s.onPort p Port.received
  let v := u.noteSeq p f
  have hstep : netFrameReceive p f s = v.takeFrame f := by
    rw [netFrameReceive_good hp hpow hup hf]
    dsimp only
    rw [if_neg (by simpa using hpause), if_neg (by simp [hacc]), if_neg (by simp [hdup])]
  have hport : u.port p = Port.received (s.port p) := State.port_onPort_same hlen
  obtain ⟨⟨ports, drops, hv⟩, hlink, hrx, hdisc, hrct⟩ := u.noteSeq_facts p f (by simpa [u, State.onPort, State.onNet] using hlen)
  obtain ⟨⟨ports', tx, nb, ec, rs, ht⟩, hcount⟩ := v.takeFrame_facts f
  have hvpow : v.netPowered = true := by
    rw [show v = _ from hv]
    exact hpow
  have hconf : v.net.config = s.net.config := by
    rw [show v = _ from hv]
    rfl
  have htx : v.net.tx = s.net.tx := by
    rw [show v = _ from hv]
    rfl
  have hvlink : (v.linkUp 0 || v.linkUp 1) = true := by
    have hup' : v.linkUp p = true := by
      rw [show v.linkUp p = _ from hlink p, State.linkUp, hport]
      exact hup
    have hp' : p = 0 ∨ p = 1 := by omega
    rcases hp' with rfl | rfl <;> simp [hup']
  have hpt := hcount p
  dsimp only
  rw [hstep]
  refine ⟨?_, ?_, fun r hr => ⟨?_, ?_⟩, fun a m x hk hx => ?_, fun a b hk hv4 haddr => ?_, fun src x hk hic hv4 hec => ?_, ?_⟩
  · rw [hpt]
    exact hrx.trans (congrArg Port.framesRx hport)
  · rw [hpt]
    exact hdisc.trans (congrArg Port.rxDiscard hport :)
  · rw [ht]
    exact (hrct r hr).1
  · rw [hpt]
    refine (hrct r hr).2.trans ?_
    rw [hport]
    rfl
  · refine State.takeFrame_answer hk ?_
    rw [show v = _ from hv]
    exact hx
  · obtain ⟨g, htx', hrest⟩ := State.takeFrame_arp (s := v) hk (by rw [hconf]; exact hv4) (by rw [hconf]; exact haddr) hvpow hvlink
    rw [hconf] at hrest
    exact ⟨g, by rw [htx', htx], hrest⟩
  · obtain ⟨g, htx', hrest⟩ := State.takeFrame_echo (s := v) hk (by rw [hconf]; exact hic) (by rw [hconf]; exact hv4)
      (by rw [show v = _ from hv]; exact hec) hvpow hvlink
    exact ⟨g, by rw [htx', htx], hrest⟩
  · rw [ht, show v = _ from hv]
    rfl

/-- Settles O48: each link event, timeout and received frame by the branch it takes, with what the branch's own steps leave. -/
theorem linksCountAndRecover : Obligations.LinksCountAndRecover := by
  unfold Obligations.LinksCountAndRecover
  refine ⟨fun p s hp hlen => ⟨fun h => congrArg Host.Outcome.next (State.loseLink_down h), linkDown_up hlen,
      fun m a q => linkUp_down m a q hp hlen, fun m a q h => congrArg Host.Outcome.next (linkUp_idle h)⟩,
    fun s hpow => ⟨fun h => congrArg Host.Outcome.next (if_neg ?_), prpSupervisionSend_due hpow⟩,
    fun a x s hx => ⟨fun h => ?_, neighbourRefresh_due hx⟩,
    fun i r s hr => ⟨fun h => congrArg Host.Outcome.next ?_, fun h => congrArg Host.Outcome.next ?_⟩,
    fun p f s hp hlen hpow hup => ⟨fun hf => ?_, fun hf hpause hacc => ?_, fun hf hpause => ?_,
      fun hf hpause hacc => ⟨fun hdup => ?_, fun hdup => ⟨netFrameReceive p f s, ?_, State.completed_whole,
        netFrameReceive_taken hp hlen hpow hup hf hpause hacc hdup⟩⟩⟩⟩
  · rw [Bool.and_eq_true, State.since_iff]
    exact fun hd => absurd hd.2 (Nat.not_le.2 h)
  · refine congrArg Host.Outcome.next ?_
    rw [neighbourRefresh, hx]
    refine if_pos ?_
    rw [Bool.not_eq_true', ← Bool.not_eq_true, State.since_iff]
    exact Nat.not_le.2 h
  · exact (reasmTimeout_eq hr).trans (if_neg (State.since_iff.not.2 (Nat.not_le.2 h)))
  · exact (reasmTimeout_eq hr).trans (if_pos (State.since_iff.2 h))
  · exact onPort_only _ hlen (State.completed_none (by simp [State.takesFrame, hf])) (netFrameReceive_fcs hp hpow hup hf)
  · refine onPort_only (fun x => { x.received with rxDiscard := satInc 32 x.rxDiscard }) hlen
      (State.completed_none (by simp [State.takesFrame, hacc])) ?_
    rw [netFrameReceive_good hp hpow hup hf]
    dsimp only
    rw [if_neg (by simpa using hpause), if_pos (by simp [hacc])]
    exact State.onPort_onPort
  · refine onPort_only Port.received hlen (State.completed_whole (by simp [hpause])) ?_
    rw [netFrameReceive_good hp hpow hup hf]
    exact if_pos (by simp [hpause])
  · refine onPort_only (fun x => { x.received with prpDup := satInc 32 x.prpDup }) hlen
      (State.completed_none (by simp [State.takesFrame, hdup])) ?_
    rw [netFrameReceive_good hp hpow hup hf]
    dsimp only
    rw [if_neg (by simpa using hpause), if_neg (by simp [hacc]), if_pos hdup]
    exact State.onPort_onPort
  · show execNetFrameReceive p f s = _
    rw [execNetFrameReceive]
    generalize s.completed p f = o
    cases o <;> rfl

end Sys2Proof.Machine

/-!
## Frames close after 100 µs and leave in strict priority (R312, R358, R359, R361)
-/
namespace Sys2Proof.Machine

/-! ### The bytes on the wire -/

/-- The network settings and the hardware addresses known are the same: a frame leaves with the same bytes. -/
def SameWire (s t : State) : Prop :=
  t.net.config = s.net.config ∧ ∀ a, (t.neighbour a).bind (·.mac) = (s.neighbour a).bind (·.mac)

theorem SameWire.refl (s : State) : SameWire s s := ⟨rfl, fun _ => rfl⟩
theorem SameWire.trans {s t u : State} (h : SameWire s t) (k : SameWire t u) : SameWire s u :=
  ⟨k.1.trans h.1, fun a => (k.2 a).trans (h.2 a)⟩

theorem SameWire.of_eq {s t : State} (hc : t.net.config = s.net.config) (hn : t.net.neighbours = s.net.neighbours) :
    SameWire s t :=
  ⟨hc, fun a => by rw [State.neighbour, State.neighbour, hn]⟩

theorem SameWire.knownMac {s t : State} (h : SameWire s t) (d : List Byte) : t.knownMac d = s.knownMac d := by
  unfold State.knownMac
  rw [h.1]
  simp only [h.2]

theorem SameWire.frameWire {s t : State} (h : SameWire s t) (p : Nat) (f : TxFrame) (x : Option Nat) :
    t.frameWire p f x = s.frameWire p f x := by
  unfold State.frameWire State.macFor
  rw [h.knownMac, h.1]

theorem SameWire.pointWire {s t : State} (h : SameWire s t) (p : Nat) (f : EgressFrame) (x : Option Nat) :
    t.pointWire p f x = s.pointWire p f x := by
  unfold State.pointWire State.pointPacket State.macFor
  dsimp only
  rw [h.knownMac, h.1]

/-! ### Steps that move network state alone -/

/-- Only network state moved, but neither the bytes of frames nor the count of unresolved ones. -/
def NetOnly (s t : State) : Prop := (∃ net, t = { s with net := net } ∧ net.unresolved = s.net.unresolved) ∧ SameWire s t

theorem NetOnly.refl (s : State) : NetOnly s s := ⟨⟨s.net, rfl, rfl⟩, .refl s⟩
theorem NetOnly.trans {s t u : State} (h : NetOnly s t) (k : NetOnly t u) : NetOnly s u := by
  obtain ⟨⟨net, ht, hn⟩, hw⟩ := h
  obtain ⟨⟨net', hu, hn'⟩, hw'⟩ := k
  refine ⟨⟨net', ?_, hn'.trans ?_⟩, hw.trans hw'⟩
  · rw [hu, ht]
  · rw [ht, hn]

theorem NetOnly.of_queues {s t : State} (h : ∃ ports tx, t = { s with net := { s.net with ports := ports, tx := tx } }) :
    NetOnly s t := by
  obtain ⟨ports, tx, rfl⟩ := h
  exact ⟨⟨_, rfl, rfl⟩, .of_eq rfl rfl⟩

theorem State.enqueue_netOnly (f : TxFrame) (s : State) : NetOnly s (s.enqueue f) := by
  obtain ⟨⟨ports, tx, h, -⟩, -⟩ := s.enqueue_facts f
  exact .of_queues ⟨ports, tx, h⟩

theorem State.takePrp_netOnly (both : Bool) (prp : Option Nat) (s : State) : NetOnly s (s.takePrp both prp).2 := by
  unfold State.takePrp
  split
  · exact .refl s
  · split
    · exact .refl s
    · exact ⟨⟨_, rfl, rfl⟩, .of_eq rfl rfl⟩

theorem State.countSent_netOnly (p bits : Nat) (s : State) : NetOnly s (s.countSent p bits) := ⟨⟨_, rfl, rfl⟩, .of_eq rfl rfl⟩

theorem State.ptpDeparts_netOnly (p : Nat) (f : TxFrame) (s : State) : NetOnly s (s.ptpDeparts p f) := by
  unfold State.ptpDeparts
  dsimp only
  split
  · exact .refl s
  · exact ⟨⟨_, rfl, rfl⟩, .of_eq rfl rfl⟩
  · exact State.enqueue_netOnly ..

/-- A neighbour that is asked for is not yet known. -/
theorem State.needNeighbour_netOnly (v6 : Bool) (a : List Byte) (s : State) : NetOnly s (s.needNeighbour v6 a) := by
  by_cases h : ((s.neighbour a).isSome || (v6 && !s.net.v6Usable)) = true
  · have hstep : s.needNeighbour v6 a = s := if_pos h
    rw [hstep]
    exact .refl s
  · let x : Neighbour := { addr := a, mac := none, refreshed := s.now }
    let u := s.onNet fun n => { n with neighbours := n.neighbours ++ [x] }
    have hstep : s.needNeighbour v6 a = u.askNeighbour v6 a := if_neg h
    have hnone : s.neighbour a = none := by simpa using (by simpa using h : s.neighbour a = none ∧ _).1
    have hu : NetOnly s u := by
      refine ⟨⟨_, rfl, rfl⟩, rfl, fun b => ?_⟩
      have hfind : u.neighbour b = (s.neighbour b).or ([x].find? (·.addr == b)) := List.find?_append
      rw [hfind]
      cases hb : s.neighbour b with
      | some y => rfl
      | none =>
        show (([x].find? (·.addr == b)).bind (·.mac)) = none
        rw [List.find?_singleton]
        split <;> rfl
    rw [hstep]
    exact hu.trans (.of_queues (u.askNeighbour_facts v6 a))

/-- The neighbour that an unresolved frame asks for. -/
theorem NetOnly.of_need {s : State} (v6 : Bool) (o : Option (List Byte)) :
    NetOnly s (match o with | some h => s.needNeighbour v6 h | none => s) := by
  cases o with
  | none => exact .refl s
  | some h => exact s.needNeighbour_netOnly v6 h

/-! ### FRAME_TRANSMIT -/

/-- A frame with a priority no other waiting one is ahead of. -/
theorem State.nextTx_priority {p : Nat} {s : State} (h : ∃ g ∈ s.net.tx, g.waits p = true) :
    ∃ f, s.nextTx p = some f ∧ f ∈ s.net.tx ∧ f.waits p = true ∧
      ∀ g ∈ s.net.tx, g.waits p = true → f.kind.priority ≤ g.kind.priority := by
  let l := s.net.tx.filter (·.waits p)
  have hmem {f : TxFrame} : f ∈ l ↔ f ∈ s.net.tx ∧ f.waits p = true := List.mem_filter
  have hfirst {n : Nat} (hn : l.find? (·.kind.priority == n) = none) : ∀ g ∈ s.net.tx, g.waits p = true → g.kind.priority ≠ n :=
    fun g hg hw => by simpa using List.find?_eq_none.1 hn g (hmem.2 ⟨hg, hw⟩)
  have hfound {f : TxFrame} {n : Nat} (hf : l.find? (·.kind.priority == n) = some f) :
      f ∈ s.net.tx ∧ f.waits p = true ∧ f.kind.priority = n :=
    ⟨(hmem.1 (List.mem_of_find?_eq_some hf)).1, (hmem.1 (List.mem_of_find?_eq_some hf)).2, by simpa using List.find?_some hf⟩
  have hnext : s.nextTx p = (l.find? (·.kind.priority == 0)).orElse fun _ => (l.find? (·.kind.priority == 1)).orElse fun _ => l.head? := rfl
  rw [hnext]
  cases h0 : l.find? (·.kind.priority == 0) with
  | some f =>
    obtain ⟨hf, hw, hp⟩ := hfound h0
    exact ⟨f, rfl, hf, hw, fun g _ _ => by omega⟩
  | none =>
    have hn0 := hfirst h0
    cases h1 : l.find? (·.kind.priority == 1) with
    | some f =>
      obtain ⟨hf, hw, hp⟩ := hfound h1
      exact ⟨f, rfl, hf, hw, fun g hg hgw => by have := hn0 g hg hgw; omega⟩
    | none =>
      have hn1 := hfirst h1
      obtain ⟨g, hg, hgw⟩ := h
      cases hl : l with
      | nil => exact absurd (hmem.2 ⟨hg, hgw⟩) (by rw [hl]; simp)
      | cons f r =>
        obtain ⟨hf, hw⟩ := hmem.1 (show f ∈ l by rw [hl]; simp)
        refine ⟨f, rfl, hf, hw, fun g hg hgw => ?_⟩
        have hle : f.kind.priority ≤ 2 := by cases f.kind <;> decide
        have := hn0 g hg hgw
        have := hn1 g hg hgw
        omega

theorem State.nextTx_none {p : Nat} {s : State} (h : ∀ g ∈ s.net.tx, g.waits p = false) : s.nextTx p = none := by
  have hl : s.net.tx.filter (·.waits p) = [] := List.filter_eq_nil_iff.2 fun g hg => by simp [h g hg]
  rw [State.nextTx, hl]
  rfl

theorem frameTransmit_idle {p : Nat} {s : State}
    (h : s.netPowered = false ∨ s.linkUp p = false ∨ (s.fabric.egress.any (·.onWire p)) = true) : frameTransmit p s = s := by
  refine if_pos ?_
  rcases h with h | h | h <;> simp [h]

theorem frameTransmit_free {p : Nat} {s : State} (hp : p < 2) (hwait : s.host.waiting = []) (hpow : s.netPowered = true)
    (hup : s.linkUp p = true) (hfree : (s.fabric.egress.any (·.onWire p)) = false) :
    frameTransmit p s = (s.nextTx p).elim ((s.fabric.egress.find? (·.waits p)).elim s fun f =>
      if s.resolved f.settings = true then s.sendPoint p f else s.unresolvedFrame f) fun f => s.sendTx p f := by
  have hreplies : s.sendReplies = s := by
    rw [State.sendReplies, hwait]
    exact ite_self ..
  rw [frameTransmit, if_neg (by simp [hpow, hup, hfree]; omega), hreplies]
  dsimp only
  cases s.nextTx p with
  | some f => rfl
  | none => cases s.fabric.egress.find? (·.waits p) <;> rfl

theorem State.sendTx_facts (p : Nat) (f : TxFrame) (s : State) :
    ∃ x net, s.sendTx p f = { s with net := net, out := s.out ++ [.frame p f.kind x f.dest f.bytes (s.frameWire p f x)] } := by
  let x := s.takePrp f.both f.prp
  let g : TxFrame := if p = 0 then { f with prp := x.1, waitA := false } else { f with prp := x.1, waitB := false }
  let a := x.2.onNet fun n => { n with tx := (updateFrame f g n.tx).filter fun y => y.waitA || y.waitB }
  let b := match if f.hop.isSome then none else a.unknownHop f.dest with
    | some h => a.needNeighbour (isV6 f.dest) h
    | none => a
  let c := b.ptpDeparts p f
  let d := c.countSent p (8 * (f.bytes.length + 100))
  have hc : NetOnly s c := ((s.takePrp_netOnly f.both f.prp).trans (.trans ⟨⟨_, rfl, rfl⟩, .of_eq rfl rfl⟩ (NetOnly.of_need (s := a) ..))).trans
    (b.ptpDeparts_netOnly p f)
  obtain ⟨⟨net, hd, -⟩, -⟩ := hc.trans (c.countSent_netOnly p (8 * (f.bytes.length + 100)))
  have hstep : s.sendTx p f = d.emit (.frame p f.kind x.1 f.dest f.bytes (c.frameWire p f x.1)) := rfl
  refine ⟨x.1, net, ?_⟩
  rw [hstep, hc.2.frameWire, show d = _ from hd]
  rfl

/-- Is it the same frame of the same stream? -/
def EgressFrame.same (f g : EgressFrame) : Bool := g.stream == f.stream && g.seq == f.seq

/-- A point frame whose first bit leaves on port `p`. -/
def EgressFrame.depart (p : Nat) (x : Option Nat) (g : EgressFrame) : EgressFrame :=
  if p = 0 then { g with prp := x, sent := true, waitA := false, onA := true }
  else { g with prp := x, sent := true, waitB := false, onB := true }

theorem EgressFrame.onWire_depart (p : Nat) (x : Option Nat) (g : EgressFrame) : (g.depart p x).onWire p = true := by
  unfold EgressFrame.depart EgressFrame.onWire
  split <;> rfl

/-- The first sending of a frame counts for its stream and is snooped. -/
def State.firstSending (f : EgressFrame) (s : State) : State :=
  if (!f.sent) = true then (s.onStream f.stream fun y => { y with revBytes := y.revBytes + f.wireBits }).snoop f.stream f.bytes else s

theorem State.firstSending_facts (f : EgressFrame) (s : State) : ∃ streams integrity,
    s.firstSending f = { s with fabric := { s.fabric with streams := streams }, integrity := integrity } := by
  unfold State.firstSending
  split
  · rw [State.snoop_frame]
    exact ⟨_, _, rfl⟩
  · exact ⟨s.fabric.streams, s.integrity, rfl⟩

/-- The egress frames with `f` leaving on port `p`. -/
def State.departing (p : Nat) (x : Option Nat) (f : EgressFrame) (s : State) : State :=
  s.onFabric fun b => { b with egress := b.egress.map fun g => if f.same g = true then g.depart p x else g }

theorem State.sendPoint_eq (p : Nat) (f : EgressFrame) (s : State) :
    s.sendPoint p f =
      (let x := s.takePrp (scPortSel f.settings == 0) f.prp
       let b := (x.2.departing p x.1 f).firstSending f
       (b.countSent p f.wireBits).emit (.point p x.1 f.stream f.bytes (b.pointWire p f x.1))) := by rfl

theorem State.sendPoint_facts {p : Nat} {f : EgressFrame} {s : State} (hf : f ∈ s.fabric.egress) :
    ∃ t x, s.sendPoint p f = t ∧ t.out = s.out ++ [.point p x f.stream f.bytes (s.pointWire p f x)] ∧
      (t.fabric.egress.any (·.onWire p)) = true ∧ t = { s with net := t.net, fabric := t.fabric, integrity := t.integrity, out := t.out } := by
  let x := s.takePrp (scPortSel f.settings == 0) f.prp
  obtain ⟨⟨net, hx, -⟩, hwire⟩ := s.takePrp_netOnly (scPortSel f.settings == 0) f.prp
  obtain ⟨streams, integrity, hb⟩ := (x.2.departing p x.1 f).firstSending_facts f
  have hbw : SameWire s ((x.2.departing p x.1 f).firstSending f) := by
    rw [hb]
    exact hwire.trans (.of_eq rfl rfl)
  have hmem : f.depart p x.1 ∈ (x.2.departing p x.1 f).fabric.egress := by
    refine List.mem_map.2 ⟨f, ?_, if_pos (by simp [EgressFrame.same])⟩
    rw [show x.2 = _ from hx]
    exact hf
  refine ⟨_, x.1, s.sendPoint_eq p f, ?_, ?_, ?_⟩
  · dsimp only
    rw [hbw.pointWire, hb]
    show x.2.out ++ _ = _
    rw [show x.2 = _ from hx]
  · dsimp only
    rw [hb]
    exact List.any_eq_true.2 ⟨_, hmem, f.onWire_depart p x.1⟩
  · dsimp only
    rw [hb, hx]
    rfl

theorem State.unresolvedFrame_facts (f : EgressFrame) (s : State) :
    ∃ t, s.unresolvedFrame f = t ∧ t.net.unresolvedSeen = true ∧ t.net.unresolved = satInc 32 s.net.unresolved ∧ t.out = s.out ∧
      t = { s with net := t.net, fabric := t.fabric } := by
  let u := match nextHop s.net.config (scV6 f.settings) (scDestIp f.settings) with
    | some h => s.needNeighbour (scV6 f.settings) h
    | none => s
  obtain ⟨⟨net, hu, hn⟩, -⟩ : NetOnly s u := .of_need ..
  let v := u.onNet fun n => { n with unresolved := satInc 32 n.unresolved, unresolvedSeen := true }
  let w := v.onFabric fun b => { b with egress := b.egress.map fun g => if f.same g = true then { g with waitA := false, waitB := false } else g }
  obtain ⟨streams, hdrop⟩ := w.dropEgress_frame
  have hcount : u.net.unresolved = s.net.unresolved := by rw [hu, hn]
  refine ⟨w.dropEgress, rfl, ?_, ?_, ?_, ?_⟩
  · rw [hdrop]
    rfl
  · rw [hdrop]
    exact congrArg (satInc 32) hcount
  · rw [hdrop]
    show u.out = s.out
    rw [hu]
  · rw [hdrop]
    simp only [w, v, hu]
    rfl

/-! ### FRAME_CLOSE_TIMEOUT -/

theorem frameCloseTimeout_eq {n : Nat} {f : OpenFrame} {s : State} (h : (s.stream n).frame = some f) :
    frameCloseTimeout n s = if s.since f.placedAt (us 100) = true then s.closeFrame n else s := by
  rw [frameCloseTimeout, h]
  rfl

/-- The stream of a frame that has closed. -/
def Stream.closed (f : OpenFrame) (sent : Bool) (x : Stream) : Stream :=
  { x with frame := none, frameSeq := wrap 32 (x.frameSeq + 1), recordSeq := wrap 32 (x.recordSeq + f.records.length),
           abandoned := 0, discarded := if sent then x.discarded else satInc 32 x.discarded,
           shortFrames := if f.records.length < scRmax f.settings then satInc 32 x.shortFrames else x.shortFrames }

/-- The point frame that an open frame becomes. -/
def State.pointFrame (n : Nat) (f : OpenFrame) (s : State) : EgressFrame :=
  { stream := n, seq := (s.stream n).frameSeq, bytes := frameBytes n (s.stream n) f s.fabric.startId, settings := f.settings,
    waitA := scPortA f.settings && s.linkUp 0, waitB := scPortB f.settings && s.linkUp 1, onA := false, onB := false,
    prp := none, sent := false }

theorem State.closeFrame_facts {n : Nat} {f : OpenFrame} {s : State} (h : (s.stream n).frame = some f) :
    let e := s.pointFrame n f
    ∃ ports units, s.closeFrame n = { s with
      net := { s.net with ports := ports }
      integrity := { s.integrity with units := units }
      fabric := { s.fabric with
        streams := s.fabric.streams.modify n (Stream.closed f (e.waitA || e.waitB))
        egress := if (e.waitA || e.waitB) = true then s.fabric.egress ++ [e] else s.fabric.egress } } := by
  let e := s.pointFrame n f
  let u := s.unitItem (frameUnit n)
    (frameCovered f.settings n (s.stream n).frameSeq (frameHeader n (s.stream n) f s.fabric.startId ++ f.records.flatten))
  let v := u.countDown 0 (scPortA f.settings && !e.waitA)
  obtain ⟨⟨p0, h0, -⟩, -⟩ := u.countDown_facts 0 (scPortA f.settings && !e.waitA)
  obtain ⟨⟨p1, h1, -⟩, -⟩ := v.countDown_facts 1 (scPortB f.settings && !e.waitB)
  have hstep : s.closeFrame n =
      (let w := (v.countDown 1 (scPortB f.settings && !e.waitB)).onStream n (Stream.closed f (e.waitA || e.waitB))
       if (e.waitA || e.waitB) = true then w.onFabric fun k => { k with egress := k.egress ++ [e] } else w) := by
    rw [State.closeFrame, h]
    rfl
  refine ⟨p1, u.integrity.units, ?_⟩
  rw [hstep, h1, show v = _ from h0]
  dsimp only
  split <;> rfl

theorem State.stream_modify_same {n : Nat} {g : Stream → Stream} {l : List Stream} (h : n < l.length) :
    (l.modify n g).getD n Stream.reset = g (l.getD n Stream.reset) := by
  simp [List.getD_eq_getElem?_getD, h]

theorem State.stream_modify_ne {n m : Nat} {g : Stream → Stream} {l : List Stream} (h : m ≠ n) :
    (l.modify n g).getD m Stream.reset = l.getD m Stream.reset := by
  simp [List.getD_eq_getElem?_getD, h.symm]

theorem frameCloseTimeout_due {n : Nat} {f : OpenFrame} {s : State} (hn : n < s.fabric.streams.length) (h : (s.stream n).frame = some f)
    (hdue : f.placedAt + 128000 ≤ s.clk.now) :
    ∃ t, exec (.frameCloseTimeout n) s = .next t ∧ (t.stream n).frame = none ∧
      (t.stream n).frameSeq = ((s.stream n).frameSeq + 1) % 2 ^ 32 ∧
      (t.stream n).recordSeq = ((s.stream n).recordSeq + f.records.length) % 2 ^ 32 ∧
      (∀ m, m ≠ n → t.stream m = s.stream m) ∧
      (scPortA f.settings = true → s.linkUp 0 = true → ∃ e, t.fabric.egress = s.fabric.egress ++ [e] ∧ e.stream = n ∧
        e.seq = (s.stream n).frameSeq ∧ e.waitA = true ∧ e.waitB = (scPortB f.settings && s.linkUp 1)) ∧
      (s.linkUp 0 = false → s.linkUp 1 = false → t.fabric.egress = s.fabric.egress ∧
        (t.stream n).discarded = satInc 32 (s.stream n).discarded) ∧
      t = { s with fabric := t.fabric, integrity := { s.integrity with units := t.integrity.units }, net := t.net } := by
  let e := s.pointFrame n f
  obtain ⟨ports, units, hclose⟩ := State.closeFrame_facts h
  have hstep : frameCloseTimeout n s = s.closeFrame n := (frameCloseTimeout_eq h).trans (if_pos (State.since_iff.2 hdue))
  have hstream : (s.closeFrame n).stream n = (s.stream n).closed f (e.waitA || e.waitB) := by
    rw [hclose]
    exact State.stream_modify_same hn
  refine ⟨s.closeFrame n, congrArg Host.Outcome.next hstep, ?_, ?_, ?_, fun m hm => ?_, fun hA hup => ⟨e, ?_, rfl, rfl, ?_, rfl⟩,
    fun hdown hdown' => ⟨?_, ?_⟩, ?_⟩
  · rw [hstream]
    rfl
  · rw [hstream]
    rfl
  · rw [hstream]
    rfl
  · rw [hclose]
    exact State.stream_modify_ne hm
  · rw [hclose]
    exact if_pos (by simp [State.pointFrame, hA, hup])
  · simp [e, State.pointFrame, hA, hup]
  · rw [hclose]
    exact if_neg (by simp [State.pointFrame, hdown, hdown'])
  · rw [hstream]
    exact if_neg (by simp [e, State.pointFrame, hdown, hdown'])
  · rw [hclose]

/-! ### FRAME_TX_COMPLETE -/

/-- A point frame whose transmission on port `p` has ended. -/
def EgressFrame.complete (p : Nat) (f : EgressFrame) : EgressFrame :=
  if f.onWire p = true then (if p = 0 then { f with onA := false } else { f with onB := false }) else f

theorem EgressFrame.onWire_complete (p : Nat) (f : EgressFrame) : (f.complete p).onWire p = false := by
  unfold EgressFrame.complete
  split
  · unfold EgressFrame.onWire
    by_cases hp : p = 0 <;> simp [hp]
  · next h => simpa using h

theorem frameTxComplete_frees (p : Nat) (s : State) :
    let t := frameTxComplete p s
    (t.fabric.egress.any (·.onWire p)) = false ∧ (∀ f ∈ s.fabric.egress, f.onWire p = false → f.waits 0 = true → f ∈ t.fabric.egress) ∧
    t.fabric.streams = s.fabric.streams ∧ t = { s with fabric := { s.fabric with egress := t.fabric.egress } } := by
  have hegress : (frameTxComplete p s).fabric.egress =
      (s.fabric.egress.map (·.complete p)).filter fun f => f.waitA || f.waitB || f.onA || f.onB := rfl
  refine ⟨List.any_eq_false.2 fun g hg => ?_, fun f hf hwire hwait => ?_, rfl, rfl⟩
  · rw [hegress] at hg
    obtain ⟨f, -, rfl⟩ := List.mem_map.1 (List.mem_of_mem_filter hg)
    simp [f.onWire_complete p]
  · have hsame : f.complete p = f := if_neg (by simp [hwire])
    have hA : f.waitA = true := hwait
    rw [hegress]
    exact List.mem_filter.2 ⟨List.mem_map.2 ⟨f, hf, hsame⟩, by simp [hA]⟩

/-- Settles O45: who may send is decided by `nextTx`; every step up to the departure moves network state alone and leaves the bytes. -/
theorem framesLeaveInPriority : Obligations.FramesLeaveInPriority := by
  unfold Obligations.FramesLeaveInPriority
  refine ⟨fun n f s hn h => ⟨fun hearly => congrArg Host.Outcome.next ?_, frameCloseTimeout_due hn h⟩,
    fun p s hp hwait => ⟨fun h => congrArg Host.Outcome.next (frameTransmit_idle h), fun hpow hup hfree => ⟨fun h => ?_, fun h f hf => ?_⟩⟩,
    fun p s _ => ⟨_, rfl, frameTxComplete_frees p s⟩⟩
  · exact (frameCloseTimeout_eq h).trans (if_neg (State.since_iff.not.2 (Nat.not_le.2 hearly)))
  · obtain ⟨f, hnext, hf, hw, hleast⟩ := State.nextTx_priority h
    obtain ⟨x, net, hsend⟩ := s.sendTx_facts p f
    have hstep : frameTransmit p s = s.sendTx p f := by
      rw [frameTransmit_free hp hwait hpow hup hfree, hnext]
      rfl
    exact ⟨_, f, x, congrArg Host.Outcome.next (hstep.trans hsend), hf, hw, hleast, rfl, rfl, rfl⟩
  · have hstep : frameTransmit p s = if s.resolved f.settings = true then s.sendPoint p f else s.unresolvedFrame f := by
      rw [frameTransmit_free hp hwait hpow hup hfree, State.nextTx_none h, hf]
      rfl
    refine ⟨fun hres => ?_, fun hres => ?_⟩
    · obtain ⟨t, x, hsend, hrest⟩ := State.sendPoint_facts (p := p) (List.mem_of_find?_eq_some hf)
      exact ⟨t, x, congrArg Host.Outcome.next ((hstep.trans (if_pos hres)).trans hsend), hrest⟩
    · obtain ⟨t, hsend, hrest⟩ := s.unresolvedFrame_facts f
      exact ⟨t, congrArg Host.Outcome.next ((hstep.trans (if_neg (by simp [hres]))).trans hsend), hrest⟩

end Sys2Proof.Machine

/-!
## Zone outputs, snapshots, telegrams and late cells (R197 to R206)
-/
namespace Sys2Proof.Machine

/-! ### Driving the outputs -/

/-- The zone state with both outputs not clear. -/
def Zone.dark (z : Zone) : Zone := { z with clearA := false, clearB := false, pulseA := none, pulseB := none }

theorem State.driveZones_dark {s : State} (h : s.zonesClear = false) : s.driveZones = { s with zone := s.zone.dark } := by
  unfold State.driveZones
  rw [h]
  rfl

theorem State.driveZones_frame (s : State) : ∃ a b pa pb,
    s.driveZones = { s with zone := { s.zone with clearA := a, clearB := b, pulseA := pa, pulseB := pb } } := ⟨_, _, _, _, rfl⟩

theorem State.zonesClear_of_outFault {s : State} (h : s.zone.outFault = true) : s.zonesClear = false := by
  simp [State.zonesClear, h]

theorem State.zonesClear_of_wdog {s : State} (h : s.zone.wdog = true) : s.zonesClear = false := by
  simp [State.zonesClear, h]

/-- A mapped field that is not CLEAR keeps the outputs dark. -/
theorem State.zonesClear_of_field {n : Nat} {st : FieldState} {s : State} (hn : n < 16) (hmap : s.sets.active.zoneMap.testBit n = true)
    (hst : s.fieldState n = some st) (hne : st ≠ .clear) : s.zonesClear = false := by
  have hmem : n ∈ maskBits 16 s.sets.active.zoneMap := by simp [maskBits, hn, hmap]
  have hall : ((maskBits 16 s.sets.active.zoneMap).all fun n => s.fieldState n == some FieldState.clear) = false :=
    List.all_eq_false.2 ⟨n, hmem, by simp [hst, hne]⟩
  simp [State.zonesClear, hall]

/-! ### Test pulses -/

section Pulses

variable {s : State}

theorem State.pulseDue_a : s.pulseDue 0 = true ↔ s.zone.clearA = true ∧ (s.zone.pulseA = none ∧ s.zone.pulseB = none) ∧
    s.zone.lastPulseA + 1280000 * s.sets.active.tpPeriod ≤ s.clk.now := by
  have hsince : s.since s.zone.lastPulseA s.tpPeriod = true ↔ s.zone.lastPulseA + 1280000 * s.sets.active.tpPeriod ≤ s.clk.now :=
    State.since_iff
  rw [← hsince]
  simp [State.pulseDue, and_assoc]

theorem State.pulseDue_b : s.pulseDue 1 = true ↔ s.zone.clearB = true ∧ (s.zone.pulseA = none ∧ s.zone.pulseB = none) ∧
    s.zone.lastPulseB < s.zone.lastPulseA ∧ s.zone.lastPulseA + 1280000 * s.sets.active.tpPeriod / 2 ≤ s.clk.now := by
  have hsince : s.since s.zone.lastPulseA (s.tpPeriod / 2) = true ↔
      s.zone.lastPulseA + 1280000 * s.sets.active.tpPeriod / 2 ≤ s.clk.now := State.since_iff
  rw [← hsince]
  simp [State.pulseDue, and_assoc]

theorem testPulseStart_due {out : Nat} (hout : out ≤ 1) (h : s.pulseDue out = true) :
    testPulseStart out s = s.onZone fun z =>
      if out = 0 then { z with pulseA := some s.now, lastPulseA := s.now } else { z with pulseB := some s.now, lastPulseB := s.now } :=
  if_neg (by simp [h]; omega)

theorem testPulseStart_early {out : Nat} (h : ¬ s.pulseDue out = true) : testPulseStart out s = s := if_pos (by simp [h])

/-- A test pulse has lasted TP_WIDTH. -/
theorem State.pulse_elapsed {o : Option Nat} : (o.any fun t => s.since t s.tpWidth) = true ↔
    ∃ t0, o = some t0 ∧ t0 + 1280 * s.sets.active.tpWidth ≤ s.clk.now := by
  cases o with
  | none => simp
  | some t =>
    have hsince : s.since t s.tpWidth = true ↔ t + 1280 * s.sets.active.tpWidth ≤ s.clk.now := State.since_iff
    simp [hsince]

theorem testPulseEnd_a : testPulseEnd 0 s =
    { s with zone := { s.zone with pulseA := if (s.zone.pulseA.any fun t => s.since t s.tpWidth) = true then none else s.zone.pulseA } } :=
  rfl

theorem testPulseEnd_b : testPulseEnd 1 s =
    { s with zone := { s.zone with pulseB := if (s.zone.pulseB.any fun t => s.since t s.tpWidth) = true then none else s.zone.pulseB } } :=
  rfl

end Pulses

/-! ### The snapshot -/

theorem zoneFlags_bits : ∀ a b c d e f : Bool,
    bit (flagsOf [a, b, c, d, e, f] % 256) 0 = a ∧ bit (flagsOf [a, b, c, d, e, f] % 256) 1 = b := by decide

theorem State.zonePayload_state (s : State) : u8 s.zonePayload 22 = s.zoneState % 256 := by
  refine u8_of_byte ?_
  simp [State.zonePayload, List.getD_eq_getElem?_getD, le]

theorem State.zonePayload_inhibit (s : State) : u8 s.zonePayload 23 = s.inhibitLive % 256 := by
  refine u8_of_byte ?_
  simp [State.zonePayload, List.getD_eq_getElem?_getD, le]

theorem State.zonePayload_alive (s : State) : u16 s.zonePayload 4 = s.zone.alive % 2 ^ 16 := by
  refine u16_of_bytes ?_ ?_ <;> simp [State.zonePayload, List.getD_eq_getElem?_getD, le]

theorem State.zonePayload_epoch (s : State) : u16 s.zonePayload 6 = s.sets.epoch % 2 ^ 16 := by
  refine u16_of_bytes ?_ ?_ <;> simp [State.zonePayload, List.getD_eq_getElem?_getD, le]

theorem State.zonePayload_length (s : State) : s.zonePayload.length = 48 := by simp [State.zonePayload, le, zeros]

theorem State.zonePayload_facts (s : State) : s.zonePayload.length = 48 ∧ u16 s.zonePayload 4 = s.zone.alive % 2 ^ 16 ∧
    u16 s.zonePayload 6 = s.sets.epoch % 2 ^ 16 ∧ bit (u8 s.zonePayload 22) 0 = s.zone.clearA ∧
    bit (u8 s.zonePayload 22) 1 = s.zone.clearB ∧ u8 s.zonePayload 23 = s.sched.inhibit.toNat := by
  have hflags := zoneFlags_bits s.zone.clearA s.zone.clearB s.zone.outFault s.zone.wdog s.inhibited s.clk.timeValid
  have hstate := s.zonePayload_state
  have hinhibit := s.zonePayload_inhibit
  refine ⟨s.zonePayload_length, s.zonePayload_alive, s.zonePayload_epoch, ?_, ?_, ?_⟩
  · rw [hstate]
    exact hflags.1
  · rw [hstate]
    exact hflags.2
  · rw [hinhibit]
    exact Nat.mod_eq_of_lt (by have := s.sched.inhibit.isLt; unfold State.inhibitLive; omega)

theorem zoneSnapshot_due {s : State} (h : s.clk.tickCount % 12800000 = 0 ∧ s.clk.tickCount ≠ s.zone.lastSnapshot ∧ s.awake .motion = true) :
    ∃ t, exec .zoneSnapshot s = .next t ∧ t.zone.wdog = false ∧ t.zone.alive = (s.zone.alive + 1) % 65536 ∧
      t.zone.lastSnapshot = s.clk.tickCount ∧ t.zone.tgDue = true ∧ t.zone.snapshot.length = 48 ∧
      u16 t.zone.snapshot 4 = s.zone.alive % 65536 ∧ u16 t.zone.snapshot 6 = s.sets.epoch % 65536 ∧
      bit (u8 t.zone.snapshot 22) 0 = t.zone.clearA ∧ bit (u8 t.zone.snapshot 22) 1 = t.zone.clearB ∧
      u8 t.zone.snapshot 23 = s.sched.inhibit.toNat ∧ t.zone.fields = s.zone.fields ∧ t = { s with zone := t.zone } := by
  let u := (s.onZone fun z => { z with wdog := false }).driveZones
  obtain ⟨hlen, halive, hepoch, hA, hB, hinh⟩ := u.zonePayload_facts
  let v := u.firstViolated
  have hstep : zoneSnapshot s = u.onZone fun z =>
      { z with snapshot := u.zonePayload, lastSnapshot := s.clk.tickCount, tgDue := true, alive := wrap 16 (z.alive + 1),
               violField := (v.map (·.field)).getD 0xFF, violAngle := (v.map (·.violAngle)).getD 0,
               violRange := (v.map (·.violRange)).getD 0 } :=
    if_neg (by simp [snapshotTicks, h])
  exact ⟨_, congrArg Host.Outcome.next hstep, rfl, rfl, rfl, rfl, hlen, halive, hepoch, hA, hB, hinh, rfl, rfl⟩

theorem zoneSnapshot_early {s : State}
    (h : ¬ (s.clk.tickCount % 12800000 = 0 ∧ s.clk.tickCount ≠ s.zone.lastSnapshot ∧ s.awake .motion = true)) : zoneSnapshot s = s := by
  refine if_pos ?_
  simp only [snapshotTicks, Bool.or_eq_true, bne_iff_ne, beq_iff_eq, Bool.not_eq_true', ne_eq]
  by_contra hall
  simp only [not_or, not_not, Bool.not_eq_false] at hall
  exact h ⟨hall.1.1, hall.1.2, hall.2⟩

/-! ### The telegram -/

theorem State.sendPd_facts (kind : TxKind) (com : Nat) (dest dataset : List Byte) (s : State) :
    (∃ ports tx pd, s.sendPd kind com dest dataset = { s with net := { s.net with ports := ports, tx := tx, pdCounters := pd } }) ∧
    PortsCounted s (s.sendPd kind com dest dataset) ∧
    (s.netPowered = true → (s.linkUp 0 || s.linkUp 1) = true →
      ∃ f, (s.sendPd kind com dest dataset).net.tx = s.net.tx ++ [f] ∧ f.kind = kind) := by
  let c := s.net.config
  let d := udpDatagram false (ncAddr4 c) dest trdpPdPort trdpPdPort
    (trdpPd (s.pdCounter com) com (tcEtb s.net.trdp) (tcOpTrn s.net.trdp) dataset)
  obtain ⟨⟨ports, tx, h, -⟩, hcount, hqueue⟩ := s.queueFrame_facts kind (addr16 dest)
    (etherV4 ++ ipv4Packet 0 0 0 (ncTtl c) protoUdp (ncAddr4 c) dest d)
  have hstep : s.sendPd kind com dest dataset =
      (s.queueFrame kind true true (addr16 dest) (etherV4 ++ ipv4Packet 0 0 0 (ncTtl c) protoUdp (ncAddr4 c) dest d)).onNet fun k =>
        { k with pdCounters := k.pdCounters.filter (·.1 != com) ++ [(com, wrap 32 (s.pdCounter com + 1))] } := rfl
  refine ⟨?_, fun q => ?_, fun hpow hlink => ?_⟩
  · rw [hstep, h]
    exact ⟨ports, tx, _, rfl⟩
  · rw [hstep]
    exact hcount q
  · obtain ⟨f, htx, hkind, -⟩ := hqueue hpow hlink
    rw [hstep]
    exact ⟨f, htx, hkind⟩

theorem State.sendTelegram_off {payload : List Byte} {s : State} (h : tcZone s.net.trdp = false ∨ zeroAt s.net.trdp 24 4 = true) :
    s.sendTelegram payload = s := by
  refine if_pos ?_
  rcases h with h | h <;> simp [h]

theorem State.sendTelegram_on {payload : List Byte} {s : State} (h : tcZone s.net.trdp = true) (hdest : zeroAt s.net.trdp 24 4 = false) :
    (∃ net integrity, s.sendTelegram payload = { s with net := net, integrity := integrity, zone := { s.zone with
      tgSequence := wrap 32 (s.zone.tgSequence + 1) } }) ∧
    (s.netPowered = true → s.linkUp 0 = true → ∃ f, (s.sendTelegram payload).net.tx = s.net.tx ++ [f] ∧ f.kind = .zone) := by
  let d := s.zoneDataset payload
  let u := s.unitItem 12 d.2
  obtain ⟨⟨ports, tx, pd, hpd⟩, -, hqueue⟩ := u.sendPd_facts .zone (tcZoneCom s.net.trdp) (tcZoneDest s.net.trdp) d.1
  have hstep : s.sendTelegram payload = (u.sendPd .zone (tcZoneCom s.net.trdp) (tcZoneDest s.net.trdp) d.1).onZone
      fun z => { z with tgSequence := wrap 32 (z.tgSequence + 1) } := if_neg (by simp [h, hdest])
  refine ⟨?_, fun hpow hlink => ?_⟩
  · rw [hstep, hpd]
    exact ⟨_, u.integrity, rfl⟩
  · have hlink' : (u.linkUp 0 || u.linkUp 1) = true := by
      show (s.linkUp 0 || s.linkUp 1) = true
      rw [hlink]
      rfl
    obtain ⟨f, htx, hkind⟩ := hqueue hpow hlink'
    rw [hstep]
    exact ⟨f, htx, hkind⟩

theorem zoneTelegramSend_due {s : State} (hpow : s.netPowered = true) (hdue : s.zone.tgDue = true) :
    ∃ t, exec .zoneTelegramSend s = .next t ∧ t.zone.tgDue = false ∧
      (tcZone s.net.trdp = false ∨ zeroAt s.net.trdp 24 4 = true → t.net = s.net ∧ t.zone.tgSequence = s.zone.tgSequence) ∧
      (tcZone s.net.trdp = true → zeroAt s.net.trdp 24 4 = false → t.zone.tgSequence = (s.zone.tgSequence + 1) % 2 ^ 32 ∧
        (s.linkUp 0 = true → ∃ f, t.net.tx = s.net.tx ++ [f] ∧ f.kind = .zone)) ∧
      t.zone.clearA = s.zone.clearA ∧ t.zone.clearB = s.zone.clearB ∧
      t = { s with zone := t.zone, net := t.net, integrity := t.integrity } := by
  have hstep : zoneTelegramSend s =
      (s.sendTelegram s.zone.snapshot).onZone fun z => { z with tgDue := false, tgAt := s.clk.tickCount } := by
    rw [zoneTelegramSend, hpow, hdue]
    rfl
  by_cases hon : tcZone s.net.trdp = true ∧ zeroAt s.net.trdp 24 4 = false
  · obtain ⟨⟨net, integrity, hsend⟩, hqueue⟩ := State.sendTelegram_on (payload := s.zone.snapshot) hon.1 hon.2
    refine ⟨_, congrArg Host.Outcome.next hstep, rfl, fun hoff => absurd hoff (by simp [hon]), fun _ _ => ⟨?_, hqueue hpow⟩, ?_, ?_, ?_⟩
    all_goals
      rw [hsend]
      rfl
  · have hoff : tcZone s.net.trdp = false ∨ zeroAt s.net.trdp 24 4 = true := by
      by_cases h : tcZone s.net.trdp = true
      · exact .inr (by simpa [h] using hon)
      · exact .inl (by simpa using h)
    rw [State.sendTelegram_off hoff] at hstep
    exact ⟨_, congrArg Host.Outcome.next hstep, rfl, fun _ => ⟨rfl, rfl⟩, fun h h' => absurd ⟨h, h'⟩ hon, rfl, rfl, rfl⟩

/-! ### Deciding a cell -/

/-- Only zone state moves. -/
def ZoneOnly (s t : State) : Prop := ∃ zone, t = { s with zone := zone }

theorem ZoneOnly.refl (s : State) : ZoneOnly s s := ⟨s.zone, rfl⟩
theorem ZoneOnly.trans {s t u : State} (h : ZoneOnly s t) (k : ZoneOnly t u) : ZoneOnly s u := by
  obtain ⟨z, rfl⟩ := h
  obtain ⟨z', rfl⟩ := k
  exact ⟨z', rfl⟩

/-- The first entry of a field after its entries have changed; the change leaves whose entry it is. -/
theorem State.fieldState_onField {m n : Nat} {f : FieldRun → FieldRun} (hf : ∀ r, r.field = m → (f r).field = m) (s : State) :
    (s.onField m f).fieldState n = (s.zone.fields.find? (·.field == n)).map fun r => if r.field = m then (f r).state else r.state := by
  have hkey (r : FieldRun) : (if (r.field == m) = true then f r else r).field = r.field := by
    split
    · next h => rw [hf r (by simpa using h)]; simpa using Eq.symm (by simpa using h)
    · rfl
  have hfind : ((s.onField m f).zone.fields.find? (·.field == n)) =
      (s.zone.fields.find? (·.field == n)).map fun r => if (r.field == m) = true then f r else r := by
    show (s.zone.fields.map _).find? _ = _
    rw [List.find?_map]
    refine congrArg (Option.map _) (congrArg (List.find? · _) (funext fun r => ?_))
    show ((if (r.field == m) = true then f r else r).field == n) = _
    rw [hkey]
  rw [State.fieldState, hfind, Option.map_map]
  refine congrArg (Option.map · _) (funext fun r => ?_)
  by_cases h : r.field = m <;> simp [h]

theorem State.fieldState_onField_ne {m n : Nat} {f : FieldRun → FieldRun} (hf : ∀ r, r.field = m → (f r).field = m) (hne : n ≠ m)
    (s : State) : (s.onField m f).fieldState n = s.fieldState n := by
  rw [State.fieldState_onField hf, State.fieldState]
  cases h : s.zone.fields.find? (·.field == n) with
  | none => rfl
  | some r =>
    have hr : r.field = n := by simpa using List.find?_some h
    simp [hr, hne]

theorem State.fieldState_onField_same {n : Nat} {f : FieldRun → FieldRun} (hf : ∀ r, r.field = n → (f r).field = n) {st : FieldState}
    (hst : ∀ r, (f r).state = st) {s : State} {old : FieldState} (h : s.fieldState n = some old) : (s.onField n f).fieldState n = some st := by
  rw [State.fieldState_onField hf]
  obtain ⟨r, hr, -⟩ := Option.map_eq_some_iff.1 h
  have hfield : r.field = n := by simpa using List.find?_some hr
  rw [hr]
  simp [hfield, hst]

theorem State.onField_zoneOnly (n : Nat) (f : FieldRun → FieldRun) (s : State) : ZoneOnly s (s.onField n f) := ⟨_, rfl⟩

theorem State.enterField_zoneOnly (n : Nat) (st : FieldState) (s : State) : ZoneOnly s (s.enterField n st) := by
  unfold State.enterField
  split
  · exact .refl s
  · exact ⟨_, rfl⟩

theorem State.enterField_ne {m n : Nat} (hne : n ≠ m) (st : FieldState) (s : State) :
    (s.enterField m st).fieldState n = s.fieldState n := by
  unfold State.enterField
  split
  · rfl
  · exact State.fieldState_onField_ne (f := fun r => { r with state := st }) (fun _ h => h) hne s

theorem State.enterField_same {n : Nat} {s : State} {old : FieldState} (h : s.fieldState n = some old) (st : FieldState) :
    (s.enterField n st).fieldState n = some st := by
  unfold State.enterField
  split
  · next hst => simpa using hst
  · exact State.fieldState_onField_same (f := fun r => { r with state := st }) (fun _ h => h) (fun _ => rfl) h

/-- The counts of a field after a cell of it has been decided. -/
def FieldRun.counted (v : ViewDef) (j : Nat) (observed occupied : Bool) (near : Nat) (r : FieldRun) : FieldRun :=
  (if observed = true then { r with cells := recount occupied v.handle j near r.cells } else r).settle (v.handle, j) (observed && !occupied)

theorem FieldRun.counted_field (v : ViewDef) (j : Nat) (observed occupied : Bool) (near : Nat) (r : FieldRun) :
    (r.counted v j observed occupied near).field = r.field ∧ (r.counted v j observed occupied near).state = r.state := by
  cases observed <;> exact ⟨rfl, rfl⟩

/-- Zone state alone moves, and of the fields' states at most that of `m`. -/
def FieldOnly (m : Nat) (s t : State) : Prop := ZoneOnly s t ∧ ∀ n, n ≠ m → t.fieldState n = s.fieldState n

theorem FieldOnly.refl (m : Nat) (s : State) : FieldOnly m s s := ⟨.refl s, fun _ _ => rfl⟩
theorem FieldOnly.trans {m : Nat} {s t u : State} (h : FieldOnly m s t) (k : FieldOnly m t u) : FieldOnly m s u :=
  ⟨h.1.trans k.1, fun n hn => (k.2 n hn).trans (h.2 n hn)⟩

theorem FieldOnly.ite {m : Nat} {s t u : State} {c : Prop} [Decidable c] (h : FieldOnly m s t) (k : FieldOnly m s u) :
    FieldOnly m s (if c then t else u) := by
  split
  · exact h
  · exact k

theorem State.onField_fieldOnly {m : Nat} {f : FieldRun → FieldRun} (hf : ∀ r, r.field = m → (f r).field = m) (s : State) :
    FieldOnly m s (s.onField m f) := ⟨s.onField_zoneOnly m f, fun _ hne => State.fieldState_onField_ne hf hne s⟩

theorem State.enterField_fieldOnly (m : Nat) (st : FieldState) (s : State) : FieldOnly m s (s.enterField m st) :=
  ⟨s.enterField_zoneOnly m st, fun _ hne => State.enterField_ne hne st s⟩

theorem State.decideCell_fieldOnly (m : Nat) (v : ViewDef) (j : Nat) (observed occupied : Bool) (near : Nat) (s : State) :
    FieldOnly m s (s.decideCell m v j observed occupied near) := by
  unfold State.decideCell
  dsimp only
  split
  · next p r hp hr =>
    have hfield : r.field = m := by simpa using List.find?_some hr
    have hu : FieldOnly m s (s.onField m fun _ => r.counted v j observed occupied near) :=
      s.onField_fieldOnly fun _ _ => (r.counted_field v j observed occupied near).1.trans hfield
    have hviol (u : State) : FieldOnly m u (u.onField m fun x => { x with violAngle := v.cellStart j, violRange := near }) :=
      State.onField_fieldOnly (f := fun x => { x with violAngle := v.cellStart j, violRange := near }) (fun _ h => h) u
    exact .ite (.ite hu ((hu.trans (hviol _)).trans (State.enterField_fieldOnly ..)))
      (.ite (hu.trans (State.enterField_fieldOnly ..)) (.ite (hu.trans (State.enterField_fieldOnly ..)) hu))
  · exact .refl m s

/-- A cell that was not observed makes a CLEAR field UNKNOWN. -/
theorem State.decideCell_unseen {n : Nat} {v : ViewDef} {j near : Nat} {s : State} {p : List Byte} (hp : s.sets.active.field n = some p)
    (hclear : s.fieldState n = some .clear) : (s.decideCell n v j false false near).fieldState n = some .unknown := by
  obtain ⟨r, hr, hst⟩ := Option.map_eq_some_iff.1 hclear
  have hfield : r.field = n := by simpa using List.find?_some hr
  let u := s.onField n fun _ => r.counted v j false false near
  have hcount := r.counted_field v j false false near
  have hstep : s.decideCell n v j false false near = u.enterField n .unknown := by
    unfold State.decideCell
    dsimp only
    rw [hp, hr]
    dsimp only
    rw [if_neg (by simp)]
    exact if_pos (by simp [hst])
  rw [hstep]
  exact State.enterField_same (State.fieldState_onField_same (fun _ _ => hcount.1.trans hfield) (fun _ => hcount.2) hclear) _

/-! ### A late cell -/

theorem State.tryField_fieldOnly (v : ViewDef) (m : Nat) (p : List Byte) (late : Bool) (x : State × ZoneCell) :
    FieldOnly m x.1 (State.tryField v m p late x).1 := by
  unfold State.tryField
  dsimp only
  split
  · exact .refl m _
  · split
    · exact State.decideCell_fieldOnly ..
    · exact .refl m _

/-- Trying a field adds it to those decided at most. -/
theorem State.tryField_cell (v : ViewDef) (m : Nat) (p : List Byte) (late : Bool) (x : State × ZoneCell) :
    (State.tryField v m p late x).2 = x.2 ∨ (State.tryField v m p late x).2 = { x.2 with decided := x.2.decided ++ [m] } := by
  unfold State.tryField
  dsimp only
  split
  · exact .inl rfl
  · exact .inr rfl

theorem State.tryField_decided {n : Nat} {x : State × ZoneCell} (h : n ∈ x.2.decided) (v : ViewDef) (m : Nat) (p : List Byte) (late : Bool) :
    n ∈ (State.tryField v m p late x).2.decided := by
  rcases State.tryField_cell v m p late x with hx | hx
  · rw [hx]
    exact h
  · rw [hx]
    exact List.mem_append_left _ h

/-- The fold over the fields of a cell's view. -/
def State.tryFields (v : ViewDef) (late : Bool) (l : List (Nat × List Byte)) (x : State × ZoneCell) : State × ZoneCell :=
  l.foldl (fun x f => State.tryField v f.1 f.2 late x) x

theorem State.tryFields_zoneOnly (v : ViewDef) (late : Bool) (l : List (Nat × List Byte)) (x : State × ZoneCell) :
    ZoneOnly x.1 (State.tryFields v late l x).1 := by
  induction l generalizing x with
  | nil => exact .refl _
  | cons f l ih => exact (State.tryField_fieldOnly v f.1 f.2 late x).1.trans (ih _)

theorem State.tryFields_decided {n : Nat} {x : State × ZoneCell} (h : n ∈ x.2.decided) (v : ViewDef) (late : Bool)
    (l : List (Nat × List Byte)) : n ∈ (State.tryFields v late l x).2.decided := by
  induction l generalizing x with
  | nil => exact h
  | cons f l ih => exact ih (State.tryField_decided h v f.1 f.2 late)

/-- What a late cell without a result waits for: field `n` is UNKNOWN and decided, or CLEAR and still to be decided. -/
def LateField (z : ZoneCell) (n : Nat) (x : State × ZoneCell) : Prop :=
  x.2 = { z with decided := x.2.decided } ∧
  ((x.1.fieldState n = some .unknown ∧ n ∈ x.2.decided) ∨ (x.1.fieldState n = some .clear ∧ n ∉ x.2.decided))

/-- A late cell without a result is decided for a field that waits for it, as not observed. -/
theorem State.tryField_unseen {v : ViewDef} {z : ZoneCell} {n : Nat} {p : List Byte} {x : State × ZoneCell}
    (hcell : x.2 = { z with decided := x.2.decided }) (hres : z.results = []) (hcont : contributes v n p = true)
    (hsame : x.1.sameField z.epoch n = true) (hdec : n ∉ x.2.decided) (hover : overlaps p v z.cell = true) :
    ∃ near, State.tryField v n p true x = (x.1.decideCell n v z.cell false false near, { x.2 with decided := x.2.decided ++ [n] }) := by
  obtain ⟨s, y⟩ := x
  have hchs : (v.channels.filter (fdGroup p).testBit) ≠ [] := by
    simp only [contributes, Bool.and_eq_true, List.any_eq_true] at hcont
    obtain ⟨-, c, hc, hbit⟩ := hcont
    exact List.ne_nil_of_mem (List.mem_filter.2 ⟨hc, hbit⟩)
  have hresults : y.results = [] := (congrArg ZoneCell.results hcell).trans hres
  have hcelly : y.cell = z.cell := (congrArg ZoneCell.cell hcell :)
  have hepoch : y.epoch = z.epoch := (congrArg ZoneCell.epoch hcell :)
  have hall : ((v.channels.filter (fdGroup p).testBit).all fun _ => false) = false := by
    cases h : v.channels.filter (fdGroup p).testBit with
    | nil => exact absurd h hchs
    | cons _ _ => rfl
  have hempty : (v.channels.filter (fdGroup p).testBit).isEmpty = false := by simpa using hchs
  have hsame' : s.sameField y.epoch n = true := by rw [hepoch]; exact hsame
  unfold State.tryField
  dsimp only
  rw [hresults, hcelly, if_neg (by simp [hdec, hempty, hover]), if_pos hsame']
  simp only [List.filter_nil, List.any_nil, hall, Bool.false_and]
  exact ⟨_, rfl⟩

theorem State.tryField_late {v : ViewDef} {z : ZoneCell} {n : Nat} (hres : z.results = []) {f : Nat × List Byte}
    (hcont : contributes v f.1 f.2 = true) {x : State × ZoneCell} (hsame : x.1.sameField z.epoch n = true)
    (hfield : f.1 = n → ∃ p, x.1.sets.active.field n = some p) (h : LateField z n x) :
    LateField z n (State.tryField v f.1 f.2 true x) ∧
      (f.1 = n → overlaps f.2 v z.cell = true → n ∈ (State.tryField v f.1 f.2 true x).2.decided) := by
  obtain ⟨hcell, hst⟩ := h
  by_cases hn : f.1 = n
  · obtain ⟨m, p⟩ := f
    obtain rfl : m = n := hn
    rcases hst with ⟨hunk, hdec⟩ | ⟨hclear, hdec⟩
    · have hskip : State.tryField v m p true x = x := if_pos (by simp [hdec])
      rw [hskip]
      exact ⟨⟨hcell, .inl ⟨hunk, hdec⟩⟩, fun _ _ => hdec⟩
    · by_cases hover : overlaps p v z.cell = true
      · obtain ⟨q, hq⟩ := hfield rfl
        obtain ⟨near, htry⟩ := State.tryField_unseen hcell hres hcont hsame hdec hover
        have hunk := State.decideCell_unseen (v := v) (j := z.cell) (near := near) hq hclear
        rw [htry]
        exact ⟨⟨by rw [hcell], .inl ⟨hunk, by simp⟩⟩, fun _ _ => by simp⟩
      · have hskip : State.tryField v m p true x = x := if_pos (by rw [hcell]; simp [hover])
        rw [hskip]
        exact ⟨⟨hcell, .inr ⟨hclear, hdec⟩⟩, fun _ h => absurd h hover⟩
  · have hkeep := (State.tryField_fieldOnly v f.1 f.2 true x).2 n (Ne.symm hn)
    refine ⟨⟨?_, ?_⟩, fun h => absurd h hn⟩
    · rcases State.tryField_cell v f.1 f.2 true x with h | h
      · rw [h]; exact hcell
      · rw [h, hcell]
    · have hmem : n ∈ (State.tryField v f.1 f.2 true x).2.decided ↔ n ∈ x.2.decided := by
        rcases State.tryField_cell v f.1 f.2 true x with h | h
        · rw [h]
        · rw [h]; simp [Ne.symm hn]
      rw [hkeep, hmem]
      exact hst

theorem State.tryFields_late {v : ViewDef} {z : ZoneCell} {n : Nat} (hres : z.results = []) {l : List (Nat × List Byte)}
    (hcont : ∀ f ∈ l, contributes v f.1 f.2 = true) {x : State × ZoneCell} (hsame : x.1.sameField z.epoch n = true)
    (hfield : n ∈ l.map (·.1) → ∃ p, x.1.sets.active.field n = some p) (h : LateField z n x) :
    LateField z n (State.tryFields v true l x) ∧
      ∀ p, (n, p) ∈ l → overlaps p v z.cell = true → n ∈ (State.tryFields v true l x).2.decided := by
  induction l generalizing x with
  | nil => exact ⟨h, fun p hp => by simp at hp⟩
  | cons f l ih =>
    obtain ⟨hlate, hnow⟩ := State.tryField_late hres (hcont f (by simp)) hsame (fun hf => hfield (by simp [hf])) h
    obtain ⟨zone, hframe⟩ := (State.tryField_fieldOnly v f.1 f.2 true x).1
    have hsets : (State.tryField v f.1 f.2 true x).1.sets = x.1.sets := by rw [hframe]
    have hsame' : (State.tryField v f.1 f.2 true x).1.sameField z.epoch n = true := by
      rw [hframe]
      exact hsame
    obtain ⟨hlate', hrest⟩ := ih (fun g hg => hcont g (by simp [hg])) hsame'
      (fun hm => by rw [hsets]; exact hfield (List.mem_cons_of_mem _ hm)) hlate
    refine ⟨hlate', fun p hp hover => ?_⟩
    rcases List.mem_cons.1 hp with hp | hp
    · exact State.tryFields_decided (hnow (by rw [← hp]) (by rw [← hp]; exact hover)) v true l
    · exact hrest p hp hover

theorem State.tryCell_zoneOnly (late : Bool) (z : ZoneCell) (s : State) : ZoneOnly s (State.tryCell late z s).1 := by
  unfold State.tryCell
  split
  · exact State.tryFields_zoneOnly ..
  · exact .refl s

theorem ConfigSet.field_of_mem {n : Nat} {p : List Byte} {c : ConfigSet} (h : (n, p) ∈ c.fields) : ∃ q, c.field n = some q := by
  have hsome : (c.fields.find? (·.1 == n)).isSome = true := List.find?_isSome.2 ⟨_, h, by simp⟩
  obtain ⟨f, hf⟩ := Option.isSome_iff_exists.1 hsome
  exact ⟨f.2, by rw [ConfigSet.field, hf]; rfl⟩

/-- A field whose definition stands is in the active set too. -/
theorem State.field_of_sameField {epoch n : Nat} {p : List Byte} {s : State} (h : s.sameField epoch n = true)
    (hp : (n, p) ∈ (s.setOf epoch).fields) : ∃ q, s.sets.active.field n = some q := by
  obtain ⟨q, hq⟩ := ConfigSet.field_of_mem hp
  have hdef : (s.setOf epoch).fieldDef n = s.sets.active.fieldDef n := by simpa [State.sameField] using h
  cases hact : s.sets.active.field n with
  | some q => exact ⟨q, rfl⟩
  | none => simp [ConfigSet.fieldDef, hq, hact] at hdef

/-- A late cell without a result makes a CLEAR field that waited for it UNKNOWN. -/
theorem State.tryCell_late {z : ZoneCell} {v : ViewDef} {n : Nat} {p : List Byte} {s : State} (hview : s.viewIn z.epoch z.view = some v)
    (hres : z.results = []) (hp : (n, p) ∈ (s.setOf z.epoch).fields) (hcont : contributes v n p = true)
    (hover : overlaps p v z.cell = true) (hdec : n ∉ z.decided) (hsame : s.sameField z.epoch n = true)
    (hclear : s.fieldState n = some .clear) : (State.tryCell true z s).1.fieldState n = some .unknown := by
  let l := (s.setOf z.epoch).fields.filter fun f => contributes v f.1 f.2
  have hstep : State.tryCell true z s = State.tryFields v true l (s, z) := by
    rw [State.tryCell, hview]
    rfl
  obtain ⟨⟨-, hst⟩, hall⟩ := State.tryFields_late (l := l) (x := (s, z)) hres (fun f hf => (List.mem_filter.1 hf).2) hsame
    (fun _ => State.field_of_sameField hsame hp) ⟨rfl, .inr ⟨hclear, hdec⟩⟩
  have hmem := hall p (List.mem_filter.2 ⟨hp, hcont⟩) hover
  rw [hstep]
  exact (hst.resolve_right fun h => h.2 hmem).1

theorem fieldDeadline_early {view cell : Nat} {z : ZoneCell} {s : State}
    (hz : s.zone.cells.find? (fun y => y.view == view && y.cell == cell) = some z)
    (h : s.clk.tickCount ≤ z.last + 1280000 ∨ (∃ c ∈ s.sched.cells, c.view = view ∧ c.cell = cell ∧ c.epoch = z.epoch)) :
    fieldDeadline view cell s = s := by
  rw [fieldDeadline, hz]
  refine if_neg ?_
  simp only [Bool.and_eq_true, Bool.not_eq_true', decide_eq_true_eq, List.any_eq_false, beq_iff_eq, not_and]
  intro hlast hopen
  rcases h with h | ⟨c, hc, hv, hcell, he⟩
  · have : z.last + 1280000 < s.clk.tickCount := hlast
    omega
  · exact hopen c hc ⟨hv, hcell⟩ he

theorem fieldDeadline_late {view cell : Nat} {z : ZoneCell} {s : State}
    (hz : s.zone.cells.find? (fun y => y.view == view && y.cell == cell) = some z) (hlast : z.last + 1280000 < s.clk.tickCount)
    (hopen : ∀ c ∈ s.sched.cells, ¬ (c.view = view ∧ c.cell = cell ∧ c.epoch = z.epoch)) :
    ∃ t, exec (.fieldDeadline view cell) s = .next t ∧ t.sched = { s.sched with fieldLate := true } ∧
      t = { s with zone := t.zone, sched := t.sched } ∧
      ∀ (v : ViewDef) (n : Nat) (p : List Byte), s.viewIn z.epoch z.view = some v → z.results = [] →
        (n, p) ∈ (s.setOf z.epoch).fields → contributes v n p = true → overlaps p v z.cell = true → n ∉ z.decided →
        s.sameField z.epoch n = true → s.fieldState n = some .clear →
        t.fieldState n = some .unknown ∧
        (n < 16 → s.sets.active.zoneMap.testBit n = true → t.zone.clearA = false ∧ t.zone.clearB = false) := by
  let x := State.tryCell true z s
  let u := x.1.onZone fun k =>
    { k with cells := if x.1.cellDone x.2 then k.cells.filter fun y => !(y.isFor x.2.view x.2.cell x.2.epoch)
                      else k.cells.map fun y => if y.isFor x.2.view x.2.cell x.2.epoch then x.2 else y }
  have hstep : fieldDeadline view cell s = u.driveZones.onSched fun k => { k with fieldLate := true } := by
    rw [fieldDeadline, hz]
    refine if_pos ?_
    simp only [Bool.and_eq_true, Bool.not_eq_true', decide_eq_true_eq, List.any_eq_false, beq_iff_eq]
    exact ⟨hlast, fun c hc h => hopen c hc ⟨h.1.1, h.1.2, h.2⟩⟩
  obtain ⟨zone, hx⟩ := State.tryCell_zoneOnly true z s
  have hu : u = { s with zone := u.zone } := by
    simp only [u, x, hx]
    rfl
  have hsched : u.sched = s.sched := by rw [hu]
  refine ⟨_, congrArg Host.Outcome.next hstep, ?_, ?_, fun v n p hview hres hp hcont hover hdec hsame hclear => ?_⟩
  · show { u.sched with fieldLate := true } = _
    rw [hsched]
  · rw [hu]
    rfl
  · have hunk : u.fieldState n = some .unknown := State.tryCell_late hview hres hp hcont hover hdec hsame hclear
    refine ⟨hunk, fun hn hmap => ?_⟩
    have hdark : u.zonesClear = false := State.zonesClear_of_field hn (by rw [hu]; exact hmap) hunk (by decide)
    rw [State.driveZones_dark hdark]
    exact ⟨rfl, rfl⟩

/-- Settles O33: the faults keep `zonesClear` false; a late cell leaves each field it waited for UNKNOWN, by induction over its fields. -/
theorem zoneOutputsFailSafe : Obligations.ZoneOutputsFailSafe := by
  unfold Obligations.ZoneOutputsFailSafe
  refine ⟨⟨fun s => ⟨_, rfl, ?_, rfl⟩, fun s => ⟨fun h => congrArg Host.Outcome.next (if_neg (Nat.not_lt.2 h)), fun h => ?_⟩,
      fun s => ⟨fun h => ?_, fun h => ?_, fun h => ?_, fun h => ?_⟩, fun s => ⟨fun h => ?_, fun h => ?_, fun h => ?_, fun h => ?_⟩,
      fun s => ⟨fun h => congrArg Host.Outcome.next (zoneSnapshot_early h), zoneSnapshot_due⟩, fun s => zoneTelegramSend_due⟩,
    fun view cell z s hz => ⟨fun h => congrArg Host.Outcome.next (fieldDeadline_early hz h), fieldDeadline_late hz⟩⟩
  · exact (congrArg State.zone (State.driveZones_dark (State.zonesClear_of_outFault (s := s.onZone fun z => { z with outFault := true }) rfl)) :)
  · refine ⟨_, congrArg Host.Outcome.next (if_pos h), ?_, rfl⟩
    exact (congrArg State.zone (State.driveZones_dark (State.zonesClear_of_wdog (s := s.onZone fun z => { z with wdog := true }) rfl)) :)
  · exact congrArg Host.Outcome.next (testPulseStart_due (by omega) (State.pulseDue_a.2 h))
  · exact congrArg Host.Outcome.next (testPulseStart_early (State.pulseDue_a.not.2 h))
  · exact congrArg Host.Outcome.next (testPulseStart_due (by omega) (State.pulseDue_b.2 h))
  · exact congrArg Host.Outcome.next (testPulseStart_early (State.pulseDue_b.not.2 h))
  · refine congrArg Host.Outcome.next (testPulseEnd_a.trans ?_)
    rw [if_pos (State.pulse_elapsed.2 h)]
  · refine congrArg Host.Outcome.next (testPulseEnd_a.trans ?_)
    rw [if_neg (State.pulse_elapsed.not.2 h)]
  · refine congrArg Host.Outcome.next (testPulseEnd_b.trans ?_)
    rw [if_pos (State.pulse_elapsed.2 h)]
  · refine congrArg Host.Outcome.next (testPulseEnd_b.trans ?_)
    rw [if_neg (State.pulse_elapsed.not.2 h)]

end Sys2Proof.Machine

/-!
## Trackers and the weather of a tile (R323 to R326, R333)
-/
namespace Sys2Proof.Machine

/-! ### A tile's rejection state -/

section Rejection

variable {k j : Nat} {f g : Rejection → Rejection} {s : State}

theorem State.rejection_onRejection_same (h : k < s.fabric.rejection.length) :
    (s.onRejection k f).rejection k = f (s.rejection k) := by
  simp [State.rejection, State.onRejection, State.onFabric, List.getD_eq_getElem?_getD, h]

theorem State.rejection_onRejection_ne (h : j ≠ k) : (s.onRejection k f).rejection j = s.rejection j := by
  simp [State.rejection, State.onRejection, State.onFabric, List.getD_eq_getElem?_getD, h.symm]

theorem State.length_onRejection : (s.onRejection k f).fabric.rejection.length = s.fabric.rejection.length := List.length_modify ..

theorem State.onRejection_onRejection : (s.onRejection k f).onRejection k g = s.onRejection k (g ∘ f) := by
  have hlist (l : List Rejection) : (l.modify k f).modify k g = l.modify k (g ∘ f) := List.modify_modify_eq ..
  exact congrArg (fun l => s.onFabric fun b => { b with rejection := l }) (hlist s.fabric.rejection)

end Rejection

/-! ### Stamps that reach the trackers -/

/-- Trackers that are not idle stay in their place and state. -/
def TrackersKept (l l' : List Tracker) : Prop :=
  ∀ (i : Nat) (x : Tracker), l[i]? = some x → x.st ≠ .idle → ∃ y, l'[i]? = some y ∧ y.st = x.st

theorem TrackersKept.refl (l : List Tracker) : TrackersKept l l := fun _ x h _ => ⟨x, h, rfl⟩
theorem TrackersKept.trans {a b c : List Tracker} (h : TrackersKept a b) (k : TrackersKept b c) :
    TrackersKept a c := fun i x hx hst => by
  obtain ⟨y, hy, hyst⟩ := h i x hx hst
  obtain ⟨z, hz, hzst⟩ := k i y hy (by rw [hyst]; exact hst)
  exact ⟨z, hz, hzst.trans hyst⟩

theorem TrackersKept.cons {x y : Tracker} {l l' : List Tracker} (hxy : x.st ≠ .idle → y.st = x.st) (h : TrackersKept l l') :
    TrackersKept (x :: l) (y :: l') := fun i z hz hst => by
  cases i with
  | zero =>
    obtain rfl : x = z := by simpa using hz
    exact ⟨y, rfl, hxy hst⟩
  | succ i => exact h i z hz hst

/-- What becomes of the first `n` trackers. -/
theorem TrackersKept.take {n : Nat} {l ks : List Tracker} (hlen : ks.length = (l.take n).length) (h : TrackersKept (l.take n) ks) :
    TrackersKept l (ks ++ l.drop n) := fun i x hx hst => by
  by_cases hi : i < (l.take n).length
  · have hx' : (l.take n)[i]? = some x := by
      rw [List.getElem?_take_of_lt (by simp at hi; omega)]
      exact hx
    obtain ⟨y, hy, hyst⟩ := h i x hx' hst
    exact ⟨y, by rw [List.getElem?_append_left (by omega)]; exact hy, hyst⟩
  · refine ⟨x, ?_, rfl⟩
    have hil : i < l.length := (List.getElem?_eq_some_iff.1 hx).1
    have hn : n ≤ i ∧ (l.take n).length = n := by simp at hi ⊢; omega
    rw [List.getElem?_append_right (by omega), hlen, hn.2, List.getElem?_drop, Nat.add_sub_cancel' hn.1]
    exact hx

theorem Tracker.addPair_st (n : Int) (x : Nat) (k : Tracker) : (k.addPair n x).st = k.st := by
  unfold Tracker.addPair
  dsimp only
  split <;> rfl

theorem of_ite_some {α : Type} {c : Prop} [Decidable c] {a b : α} {o : Option α} (h : (if c then some a else o) = some b) :
    b = a ∨ o = some b := by
  split at h
  · exact .inl (Option.some.inj h).symm
  · exact .inr h

theorem Tracker.offer_st {p : List Byte} {x : Nat} {k k' : Tracker} (h : k.offer p x = some k') : k'.st = k.st := by
  unfold Tracker.offer at h
  dsimp only at h
  split at h
  · simp at h
  · rcases of_ite_some h with h | h
    · rw [h]
      exact Tracker.addPair_st ..
    · rcases of_ite_some h with h | h
      · rw [h]
        exact Tracker.addPair_st ..
      · simp at h

theorem offerAll_kept {p : List Byte} {x : Nat} {l ks : List Tracker} (h : offerAll p x l = some ks) :
    ks.length = l.length ∧ TrackersKept l ks := by
  induction l generalizing ks with
  | nil => simp [offerAll] at h
  | cons k r ih =>
    unfold offerAll at h
    split at h
    · next k' hk =>
      rw [← Option.some.inj h]
      exact ⟨rfl, .cons (fun _ => Tracker.offer_st hk) (.refl r)⟩
    · obtain ⟨ks', hks, rfl⟩ := Option.map_eq_some_iff.1 h
      obtain ⟨hlen, hkept⟩ := ih hks
      exact ⟨by simp [hlen], .cons (fun _ => rfl) hkept⟩

theorem seedFirst_kept {f x : Nat} {l ks : List Tracker} (h : seedFirst f x l = some ks) :
    ks.length = l.length ∧ TrackersKept l ks := by
  induction l generalizing ks with
  | nil => simp [seedFirst] at h
  | cons k r ih =>
    unfold seedFirst at h
    split at h
    · next hidle =>
      rw [← Option.some.inj h]
      exact ⟨rfl, .cons (fun hst => absurd (by simpa using hidle) hst) (.refl r)⟩
    · obtain ⟨ks', hks, rfl⟩ := Option.map_eq_some_iff.1 h
      obtain ⟨hlen, hkept⟩ := ih hks
      exact ⟨by simp [hlen], .cons (fun _ => rfl) hkept⟩

/-- Only the tap of tile `k` moves: the order of locking stands, and so does each tracker that is not idle. -/
def TapOnly (k : Nat) (s t : State) : Prop :=
  (∃ f, t = s.onRejection k f) ∧ (k < s.fabric.rejection.length →
    (t.rejection k).lockOrder = (s.rejection k).lockOrder ∧ TrackersKept (s.rejection k).trackers (t.rejection k).trackers)

theorem TapOnly.of_rejection {k : Nat} {f : Rejection → Rejection} {s : State} (hlock : (f (s.rejection k)).lockOrder = (s.rejection k).lockOrder)
    (hkept : TrackersKept (s.rejection k).trackers (f (s.rejection k)).trackers) : TapOnly k s (s.onRejection k f) :=
  ⟨⟨f, rfl⟩, fun hk => by rw [State.rejection_onRejection_same hk]; exact ⟨hlock, hkept⟩⟩

theorem TapOnly.refl (k : Nat) (s : State) : TapOnly k s s := by
  refine ⟨⟨id, ?_⟩, fun _ => ⟨rfl, .refl _⟩⟩
  have hlist (l : List Rejection) : l.modify k id = l := List.modify_id ..
  exact (congrArg (fun l => s.onFabric fun b => { b with rejection := l }) (hlist s.fabric.rejection)).symm

theorem TapOnly.trans {k : Nat} {s t u : State} (h : TapOnly k s t) (h' : TapOnly k t u) : TapOnly k s u := by
  obtain ⟨⟨f, rfl⟩, hst⟩ := h
  obtain ⟨⟨g, rfl⟩, htu⟩ := h'
  refine ⟨⟨g ∘ f, State.onRejection_onRejection⟩, fun hk => ?_⟩
  obtain ⟨hlock, hkept⟩ := hst hk
  obtain ⟨hlock', hkept'⟩ := htu (by rw [State.length_onRejection]; exact hk)
  exact ⟨hlock'.trans hlock, hkept.trans hkept'⟩

theorem State.offerStamp_tapOnly (k : Nat) (p : List Byte) (x : Nat) (s : State) : TapOnly k s (s.offerStamp k p x) := by
  unfold State.offerStamp
  dsimp only
  split
  · next ks hks =>
    obtain ⟨hlen, hkept⟩ := offerAll_kept hks
    exact .of_rejection rfl (hkept.take hlen)
  · split
    · next ks hks =>
      obtain ⟨f, -, hseed⟩ := Option.bind_eq_some_iff.1 hks
      split at hseed
      · obtain ⟨hlen, hkept⟩ := seedFirst_kept hseed
        exact .of_rejection rfl (hkept.take hlen)
      · simp at hseed
    · exact .of_rejection rfl (.refl _)

theorem State.mergeStamp_tapOnly (k : Nat) (p : List Byte) (x : Nat) (s : State) : TapOnly k s (s.mergeStamp k p x) := by
  unfold State.mergeStamp
  dsimp only
  split
  · exact .refl k s
  · split
    · exact .of_rejection rfl (.refl _)
    · exact .trans (.of_rejection rfl (.refl _)) (State.offerStamp_tapOnly ..)

theorem State.mergeStamps_tapOnly (k : Nat) (p : List Byte) (l : List TapStamp) (s : State) :
    TapOnly k s (l.foldl (fun s y => s.mergeStamp k p y.stamp) s) := by
  induction l generalizing s with
  | nil => exact .refl k s
  | cons y l ih => exact (s.mergeStamp_tapOnly k p y.stamp).trans (ih _)

theorem State.releaseStamps_tapOnly (k : Nat) (p : List Byte) (x : Nat) (s : State) : TapOnly k s (s.releaseStamps k p x) := by
  unfold State.releaseStamps
  exact .trans (.of_rejection rfl (.refl _)) (State.mergeStamps_tapOnly ..)

theorem State.releaseStamps_empty {k : Nat} {p : List Byte} {x : Nat} {s : State} (h : (s.rejection k).tapWait = [])
    (hk : k < s.fabric.rejection.length) : ((s.releaseStamps k p x).rejection k).trackers = (s.rejection k).trackers := by
  unfold State.releaseStamps
  rw [h]
  dsimp only [List.filter_nil, List.foldl_nil]
  rw [State.rejection_onRejection_same hk]

/-! ### The end of a gate -/

theorem fitPairs_few {n limit : Nat} {l : List (Int × Nat)} (h : l.length < n) : (fitPairs n limit l).status ≠ 0 := by
  have hlen : (l.take 4096).length < n := lt_of_le_of_lt (by simp) h
  unfold fitPairs
  dsimp only
  rw [if_pos hlen]
  simp

/-- The tracker at the end of its gate, before the result is judged. -/
def Tracker.gated (p : List Byte) (k : Tracker) : Tracker :=
  { k with
    gateStart := k.gateStart + fgGate p
    pairs := k.pairs.filter fun y => !decide (stampDiff y.2 (k.gateStart + fgGate p) < 0)
    sincePair := 0
    result := (fitPairs (u16 p 36) (u16 p 38) (k.pairs.filter fun y => stampDiff y.2 (k.gateStart + fgGate p) < 0)).bytes }

/-- Too few pulses end a seeded tracker, and count as a miss of a locked one. -/
theorem Tracker.close_few {p : List Byte} {order : Nat} {own : Nat → Bool} {k : Tracker} (h : k.pairs.length < u16 p 36) :
    k.close p order own =
      if (k.st == .seeded) = true then ({ Tracker.reset with result := (k.gated p).result }, false)
      else if u8 p 22 ≤ k.missed + 1 then ({ Tracker.reset with result := (k.gated p).result }, false)
      else ({ k.gated p with missed := k.missed + 1 }, false) := by
  have hfew := fitPairs_few (limit := u16 p 38)
    (lt_of_le_of_lt (List.length_filter_le (fun y => decide (stampDiff y.2 (k.gateStart + fgGate p) < 0)) k.pairs) h)
  unfold Tracker.close
  dsimp only
  rw [if_neg (by simp [hfew])]
  rfl

/-- What admission does to one tracker. -/
def Tracker.admitted (ok : List Nat) (k : Tracker) : Tracker :=
  if k.st.fits = true then { k with st := if ok.contains k.order then .locked else .lockedNoBlank } else k

theorem admitShares_eq (p : List Byte) (ks : List Tracker) : ∃ ok, admitShares p ks = ks.map (Tracker.admitted ok) := ⟨_, rfl⟩

theorem trackerGateClose_open {k i : Nat} {p : List Byte} {x : Tracker} {s : State} (hp : s.governing k = some p)
    (hx : (s.rejection k).trackers[i]? = some x) (h : s.gateOver k p x = false) : trackerGateClose k i s = s := by
  rw [trackerGateClose, hp, hx]
  exact if_pos (by simp [h])

theorem trackerGateClose_over {k i : Nat} {p : List Byte} {x : Tracker} {s : State} (hk : k < s.fabric.rejection.length)
    (hp : s.governing k = some p) (hx : (s.rejection k).trackers[i]? = some x) (h : s.gateOver k p x = true) :
    ∃ t x' y, exec (.trackerGateClose k i) s = .next t ∧ (t.rejection k).trackers[i]? = some y ∧
      ((s.releaseStamps k p (x.gateStart + fgGate p - 1)).rejection k).trackers[i]? = some x' ∧ x'.st = x.st ∧
      ((s.rejection k).tapWait = [] → x' = x) ∧
      (x'.pairs.length < u16 p 36 → x'.st = .seeded → y = { Tracker.reset with result := y.result }) ∧
      (x'.pairs.length < u16 p 36 → x'.st = .locked → x'.missed + 1 < u8 p 22 →
        y.missed = x'.missed + 1 ∧ (y.st = .locked ∨ y.st = .lockedNoBlank) ∧ y.period = x'.period) ∧
      (t.rejection k).lockOrder = (s.rejection k).lockOrder + 1 ∧ (∀ j, j ≠ k → t.rejection j = s.rejection j) ∧
      t = { s with fabric := t.fabric } := by
  let u := s.releaseStamps k p (x.gateStart + fgGate p - 1)
  obtain ⟨⟨f, hu⟩, hkept⟩ := s.releaseStamps_tapOnly k p (x.gateStart + fgGate p - 1)
  obtain ⟨hlock, htrackers⟩ := hkept hk
  have hst : x.st ≠ .idle := by
    intro hidle
    simp [State.gateOver, hidle] at h
  obtain ⟨x', hx', hst'⟩ := htrackers i x hx hst
  have hi : i < (u.rejection k).trackers.length := (List.getElem?_eq_some_iff.1 hx').1
  let c := x'.close p (u.rejection k).lockOrder fun per => u.isOwn k per
  obtain ⟨ok, hok⟩ := admitShares_eq p ((u.rejection k).trackers.set i c.1)
  let ks := admitShares p ((u.rejection k).trackers.set i c.1)
  have hstep : trackerGateClose k i s = u.onRejection k fun j =>
      { j with trackers := ks, lockOrder := j.lockOrder + 1, ownRejected := j.ownRejected || c.2,
               budgetLimited := j.budgetLimited || ks.any (·.st == .lockedNoBlank) } := by
    have hget : (u.rejection k).trackers.getD i x = x' := by rw [List.getD_eq_getElem?_getD, hx']; rfl
    have hclose : (((u.rejection k).trackers.getD i x).close p (u.rejection k).lockOrder fun per => u.isOwn k per) = c := by
      rw [hget]
    rw [trackerGateClose, hp, hx]
    dsimp only
    rw [if_neg (by simp [h]), show s.releaseStamps k p (x.gateStart + fgGate p - 1) = u from rfl, hclose]
  have hrej := State.rejection_onRejection_same (s := u) (k := k) (by rw [show u = _ from hu, State.length_onRejection]; exact hk) (f := fun j =>
      { j with trackers := ks, lockOrder := j.lockOrder + 1, ownRejected := j.ownRejected || c.2,
               budgetLimited := j.budgetLimited || ks.any (·.st == .lockedNoBlank) })
  have hy : ks[i]? = some (c.1.admitted ok) := by
    show (admitShares p ((u.rejection k).trackers.set i c.1))[i]? = _
    rw [hok, List.getElem?_map, List.getElem?_set_self hi]
    rfl
  refine ⟨_, x', c.1.admitted ok, congrArg Host.Outcome.next hstep, ?_, hx', hst', fun hempty => ?_, fun hfew hseed => ?_,
    fun hfew hlocked hmiss => ?_, ?_, fun j hj => ?_, ?_⟩
  · rw [hrej]
    exact hy
  · rw [State.releaseStamps_empty hempty hk, hx] at hx'
    exact (Option.some.inj hx').symm
  · have hc : c = ({ Tracker.reset with result := (x'.gated p).result }, false) := (Tracker.close_few hfew).trans (if_pos (by simp [hseed]))
    rw [hc]
    rfl
  · have hc : c = ({ x'.gated p with missed := x'.missed + 1 }, false) :=
      (Tracker.close_few hfew).trans ((if_neg (by simp [hlocked])).trans (if_neg (by omega)))
    have hfits : c.1.st.fits = true := by rw [hc]; simp [Tracker.gated, hlocked, TrackerState.fits]
    have hadm : c.1.admitted ok = { c.1 with st := if ok.contains c.1.order then .locked else .lockedNoBlank } := if_pos hfits
    rw [hadm, hc]
    refine ⟨rfl, ?_, rfl⟩
    dsimp only
    split
    · exact .inl rfl
    · exact .inr rfl
  · rw [hrej]
    exact congrArg (· + 1) hlock
  · rw [State.rejection_onRejection_ne hj, show u = _ from hu, State.rejection_onRejection_ne hj]
  · rw [show u = _ from hu]
    rfl

/-! ### The weather -/

theorem State.rainBlock_onRejection {t k : Nat} {f : Rejection → Rejection} {s : State} : (s.onRejection k f).rainBlock t = s.rainBlock t := rfl

/-- One tile's second, with the block that governs its classes. -/
def State.tileSecond (now : Nat) (s : State) (t : Nat) : State := s.onRejection t (Rejection.second now (u16 (s.rainBlock t) 14))

/-- The seconds of the tiles of a list. -/
def State.tileSeconds (now : Nat) (l : List Nat) (s : State) : State := l.foldl (State.tileSecond now) s

/-- Each tile of the list is judged once, by itself. -/
theorem State.tileSeconds_facts {now : Nat} {l : List Nat} (hl : l.Nodup) (s : State) (hlen : ∀ k ∈ l, k < s.fabric.rejection.length) :
    (∃ fabric, s.tileSeconds now l = { s with fabric := fabric }) ∧
    ∀ k, (s.tileSeconds now l).rejection k =
      if k ∈ l then (s.rejection k).second now (u16 (s.rainBlock k) 14) else s.rejection k := by
  induction l generalizing s with
  | nil => exact ⟨⟨s.fabric, rfl⟩, fun k => by simp [State.tileSeconds]⟩
  | cons a l ih =>
    obtain ⟨ha, hl⟩ := List.nodup_cons.1 hl
    obtain ⟨⟨fabric, hframe⟩, hall⟩ := ih hl (s.tileSecond now a) fun k hk => by
      rw [State.tileSecond, State.length_onRejection]
      exact hlen k (List.mem_cons_of_mem _ hk)
    refine ⟨⟨fabric, hframe⟩, fun k => (hall k).trans ?_⟩
    rw [State.tileSecond, State.rainBlock_onRejection]
    by_cases hka : k = a
    · subst hka
      rw [State.rejection_onRejection_same (hlen k (by simp)), if_neg ha, if_pos (by simp)]
    · rw [State.rejection_onRejection_ne hka]
      simp [hka]

/-- From CLEAR a second's figures decide the class. -/
theorem Rejection.second_clear {now n : Nat} {r : Rejection} (h : r.weather = 0) :
    (r.second now n).weather = weatherOf n (min 255 (share256 r.fogHistograms r.histograms)) (min 65535 (share256 r.markedRegions r.histograms))
      (min 255 (share256 r.snowRegions r.markedRegions)) := by
  unfold Rejection.second
  dsimp only
  exact if_neg (by simp [h])

theorem State.rejection_weatherAt (k n : Nat) (s : State) :
    (s.onFabric fun b => { b with weatherAt := n }).rejection k = s.rejection k := rfl

theorem weatherUpdate_due {s : State} (h : s.fabric.weatherAt + 1280000000 ≤ s.clk.now) :
    weatherUpdate s = (s.tileSeconds s.now (List.range 8)).onFabric fun b => { b with weatherAt := s.now } := by
  have hdue : s.since s.fabric.weatherAt (sec 1) = true := State.since_iff.2 h
  exact if_neg (by simp [hdue])

/-- Settles O44: a gate that ends sees the tracker the released stamps left in its place; the weather fold judges each tile by itself. -/
theorem trackersAndWeatherKeepTheirGates : Obligations.TrackersAndWeatherKeepTheirGates := by
  unfold Obligations.TrackersAndWeatherKeepTheirGates
  refine ⟨fun k i p x s hk hp hx => ⟨fun h => congrArg Host.Outcome.next (trackerGateClose_open hp hx h), trackerGateClose_over hk hp hx⟩,
    fun s hlen => ⟨fun h => congrArg Host.Outcome.next (if_pos ?_), fun h => ?_⟩⟩
  · rw [Bool.not_eq_true', ← Bool.not_eq_true, State.since_iff]
    exact Nat.not_le.2 h
  · obtain ⟨⟨fabric, hframe⟩, hall⟩ := State.tileSeconds_facts (now := s.now) (List.nodup_range (n := 8)) s fun k hk => by
      rw [hlen]
      exact List.mem_range.1 hk
    refine ⟨_, congrArg Host.Outcome.next (weatherUpdate_due h), rfl, fun k hk => ?_, ?_⟩
    · have hrej : ((s.tileSeconds s.now (List.range 8)).onFabric fun b => { b with weatherAt := s.now }).rejection k =
          (s.rejection k).second s.now (u16 (s.rainBlock k) 14) := by
        rw [State.rejection_weatherAt, hall k, if_pos (List.mem_range.2 hk)]
      dsimp only
      rw [hrej]
      refine ⟨rfl, rfl, rfl, rfl, fun hclear hfog => ?_, fun hclear hfog hrain => ?_⟩
      · rw [Rejection.second_clear hclear]
        exact if_pos (by omega)
      · rw [Rejection.second_clear hclear]
        unfold weatherOf
        rw [if_neg (by omega), if_neg (by simp; omega), if_neg (by omega)]
    · rw [hframe]
      rfl

end Sys2Proof.Machine

/-!
## Aux conversions, offset codes, HEAT, shocks and amplifier resets (R338, R346, R349, R350)
-/
namespace Sys2Proof.Machine

/-! ### A measurement's place -/

theorem State.meas_onMeas_same {m : Nat} {f : AuxMeas → AuxMeas} {s : State} (h : m < s.aux.meas.length) :
    (s.onMeas m f).meas m = f (s.meas m) := by
  simp [State.meas, State.onMeas, State.onAux, List.getD_eq_getElem?_getD, h]

theorem State.meas_onMeas_ne {m k : Nat} {f : AuxMeas → AuxMeas} {s : State} (h : k ≠ m) :
    (s.onMeas m f).meas k = s.meas k := by
  simp [State.meas, State.onMeas, State.onAux, List.getD_eq_getElem?_getD, h.symm]

/-- Changing an offset but for its code and mark leaves both at every gain. -/
theorem offset_modify_kept (g k : Nat) (f : AuxOffset → AuxOffset) (hf : ∀ o, (f o).code = o.code ∧ (f o).held = o.held) (l : List AuxOffset) :
    let d : AuxOffset := { code := none, held := false, calibrated := none }
    ((l.modify g f).getD k d).code = (l.getD k d).code ∧ ((l.modify g f).getD k d).held = (l.getD k d).held := by
  simp only [List.getD_eq_getElem?_getD, List.getElem?_modify]
  cases l[k]? with
  | none => simp
  | some o => by_cases h : g = k <;> simp [h, hf]

/-! ### The sequencer -/

/-- A step of the sequencer: aux state alone moves; the amplifier, a calibration run, the offset codes, their
holds and every measurement without
waiting settings stand. -/
structure SeqStep (s t : State) : Prop where
  frame : t = { s with aux := t.aux }
  piezo : t.aux.piezo = s.aux.piezo
  calRun : t.aux.calRun = s.aux.calRun
  held : t.aux.heldTotal = s.aux.heldTotal ∧ t.aux.calHeldSeen = s.aux.calHeldSeen
  offset : ∀ g, (t.auxOffset g).code = (s.auxOffset g).code ∧ (t.auxOffset g).held = (s.auxOffset g).held
  meas : ∀ k, (s.meas k).pending = none → t.meas k = s.meas k

theorem SeqStep.refl (s : State) : SeqStep s s := ⟨rfl, rfl, rfl, ⟨rfl, rfl⟩, fun _ => ⟨rfl, rfl⟩, fun _ _ => rfl⟩

theorem SeqStep.trans {s t u : State} (h : SeqStep s t) (k : SeqStep t u) : SeqStep s u where
  frame := k.frame.trans (by rw [h.frame])
  piezo := k.piezo.trans h.piezo
  calRun := k.calRun.trans h.calRun
  held := ⟨k.held.1.trans h.held.1, k.held.2.trans h.held.2⟩
  offset g := ⟨(k.offset g).1.trans (h.offset g).1, (k.offset g).2.trans (h.offset g).2⟩
  meas i hi := (k.meas i (by rw [h.meas i hi]; exact hi)).trans (h.meas i hi)

/-- Times and turn of the sequencer. -/
theorem SeqStep.of_turn (s : State) (turn : Option Nat) (turnAt cycles cycleTime cycleStart : Nat) (cal : List Nat) :
    SeqStep s (s.onAux fun a => { a with turn := turn, turnAt := turnAt, cycles := cycles, cycleTime := cycleTime, cycleStart := cycleStart, cal := cal }) :=
  ⟨rfl, rfl, rfl, ⟨rfl, rfl⟩, fun _ => ⟨rfl, rfl⟩, fun _ _ => rfl⟩

theorem State.takeSettings_none {m : Nat} {s : State} (h : (s.meas m).pending = none) : s.takeSettings m = s := by
  rw [State.takeSettings, h]

/-- The measurement that takes new settings. -/
def AuxMeas.taking (p : List Byte) (x : AuxMeas) : AuxMeas :=
  { x with image := p, pending := Option.none, unsettledNext := x.unsettledNext || unsettles x.image p,
           result := if amType p = 0 then { x.result with status := x.result.status - x.result.status % 2 } else x.result }

theorem State.takeSettings_some {m : Nat} {p : List Byte} {s : State} (h : (s.meas m).pending = some p) (hm : m < s.aux.meas.length) :
    SeqStep s (s.takeSettings m) ∧ (s.takeSettings m).meas m = (s.meas m).taking p ∧ (s.takeSettings m).aux.turn = s.aux.turn := by
  let f (x : AuxMeas) : AuxMeas :=
    { x with image := p, pending := none, unsettledNext := x.unsettledNext || unsettles (s.meas m).image p,
             result := if amType p = 0 then { x.result with status := x.result.status - x.result.status % 2 } else x.result }
  let u := s.onMeas m f
  have hu : SeqStep s u := ⟨rfl, rfl, rfl, ⟨rfl, rfl⟩, fun _ => ⟨rfl, rfl⟩, fun k hk => State.meas_onMeas_ne fun hkm => by
    rw [hkm, h] at hk
    simp at hk⟩
  have hum : u.meas m = (s.meas m).taking p := State.meas_onMeas_same (f := f) hm
  have hstep : s.takeSettings m =
      if (amGain p != amGain (s.meas m).image && (s.auxOffset (amGain p)).code.isNone) = true
      then u.onAux fun a => { a with offsets := a.offsets.modify (amGain p) fun o => { o with calibrated := none } } else u := by
    rw [State.takeSettings, h]
  rw [hstep]
  split
  · exact ⟨hu.trans ⟨rfl, rfl, rfl, ⟨rfl, rfl⟩, fun k => offset_modify_kept (amGain p) k (fun o => { o with calibrated := none }) (fun _ => ⟨rfl, rfl⟩) u.aux.offsets,
      fun _ _ => rfl⟩, hum, rfl⟩
  · exact ⟨hu, hum, rfl⟩

/-- A measurement that is not there has no waiting settings. -/
theorem State.pending_of_le {m : Nat} {s : State} (h : s.aux.meas.length ≤ m) : (s.meas m).pending = none := by
  simp [State.meas, List.getD_eq_getElem?_getD, h, AuxMeas.none]

theorem State.takeSettings_step (m : Nat) (s : State) : SeqStep s (s.takeSettings m) := by
  cases h : (s.meas m).pending with
  | none =>
    rw [State.takeSettings_none h]
    exact .refl s
  | some p =>
    refine (State.takeSettings_some h (Nat.lt_of_not_le fun hle => ?_)).1
    rw [State.pending_of_le hle] at h
    simp at h

/-- Past number 15 a cycle is complete. -/
def State.countCycle (m : Nat) (s : State) : State :=
  if (m = 0 && s.aux.turn.isSome) = true then
    s.onAux fun a => { a with cycles := wrap 32 (a.cycles + 1), cycleTime := s.now - a.cycleStart, cycleStart := s.now }
  else s

theorem State.countCycle_step (m : Nat) (s : State) : SeqStep s (s.countCycle m) := by
  unfold State.countCycle
  split
  · exact .of_turn s s.aux.turn s.aux.turnAt _ _ _ s.aux.cal
  · exact .refl s

theorem State.seek_cons (m : Nat) (l : List Nat) (s : State) :
    s.seek (m :: l) =
      (let u := (s.countCycle m).takeSettings m
       if amType (u.meas m).image = 0 then u.seek l else u.onAux fun a => { a with turn := some m, turnAt := s.now }) := by rfl

theorem State.seek_step (l : List Nat) (s : State) : SeqStep s (s.seek l) := by
  induction l generalizing s with
  | nil => exact .of_turn s none s.aux.turnAt s.aux.cycles s.aux.cycleTime s.aux.cycleStart []
  | cons m l ih =>
    have htake := (s.countCycle_step m).trans (State.takeSettings_step m _)
    rw [State.seek_cons]
    dsimp only
    split
    · exact htake.trans (ih _)
    · exact htake.trans ⟨rfl, rfl, rfl, ⟨rfl, rfl⟩, fun _ => ⟨rfl, rfl⟩, fun _ _ => rfl⟩

theorem State.seekAgain_step (s : State) : SeqStep s s.seekAgain := by
  unfold State.seekAgain
  split
  · exact .refl s
  · dsimp only
    split
    · exact (State.takeSettings_step ..).trans (State.seek_step ..)
    · exact State.takeSettings_step ..

/-! ### Calibrations before the next measurement -/

theorem State.checkCalRun_none {s : State} (h : s.aux.calRun = none) : s.checkCalRun = s := by rw [State.checkCalRun, h]

theorem State.checkCalRun_frame (s : State) : ∃ host nvm health run res, s.checkCalRun =
    { s with host := host, nvm := nvm, health := health, aux := { s.aux with calRun := run, calResult := res } } := by
  unfold State.checkCalRun
  split
  · exact ⟨s.host, s.nvm, s.health, s.aux.calRun, s.aux.calResult, rfl⟩
  · next r _ =>
    dsimp only
    let u := s.onAux fun a => { a with calRun := none, calResult := r.held }
    split
    · split
      · obtain ⟨q, w, h⟩ := u.storeAfter_frame opAuxCal recAux r.cmd (u.block stOk 0 r.held)
        exact ⟨_, _, _, _, _, h⟩
      · exact ⟨_, s.nvm, s.health, none, r.held, u.done_frame opAuxCal r.cmd r.held⟩
    · exact ⟨s.host, s.nvm, s.health, _, s.aux.calResult, rfl⟩

theorem State.insertCals_frame (s : State) : ∃ host nvm health run res cal, s.insertCals =
    { s with host := host, nvm := nvm, health := health, aux := { s.aux with calRun := run, calResult := res, cal := cal } } := by
  obtain ⟨host, nvm, health, run, res, h⟩ := s.checkCalRun_frame
  unfold State.insertCals
  dsimp only
  rw [h]
  exact ⟨host, nvm, health, run, res, _, rfl⟩

theorem State.insertCals_none {s : State} (h : s.aux.calRun = none) :
    ∃ cal, s.insertCals = s.onAux fun a => { a with cal := cal } := by
  unfold State.insertCals
  rw [State.checkCalRun_none h]
  exact ⟨_, rfl⟩

/-! ### AUX_OFFSET_CAL -/

/-- Is the code of a calibration accepted? -/
def AuxOffset.accepts (code : Int) (o : AuxOffset) : Bool :=
  code.natAbs ≤ 8389 && (o.code.all fun k => decide ((code - k).natAbs ≤ 839))

theorem AuxOffset.accepts_iff {code : Int} {o : AuxOffset} :
    o.accepts code = true ↔ code.natAbs ≤ 8389 ∧ ∀ k, o.code = some k → (code - k).natAbs ≤ 839 := by
  unfold AuxOffset.accepts
  cases o.code <;> simp

/-- The offset after a calibration. -/
def AuxOffset.calibrate (now : Nat) (code : Int) (good : Bool) (o : AuxOffset) : AuxOffset :=
  { code := if good then some code else o.code, held := !good, calibrated := some now }

theorem auxOffsetCal_not {g : Nat} {code : Int} {s : State}
    (h : ¬ (s.awake .aux = true ∧ s.aux.cal.head? = some g ∧ s.aux.turnAt + convTime (s.calRate g) ≤ s.clk.now)) :
    auxOffsetCal g code s = s := by
  refine if_pos ?_
  rw [← State.since_iff] at h
  by_contra hall
  simp only [Bool.or_eq_true, Bool.not_eq_true', bne_iff_ne, ne_eq, not_or, Bool.not_eq_false, not_not] at hall
  exact h ⟨hall.1.1, hall.1.2, hall.2⟩

/-- A code taken at gain `g`, and its calibration gone from the ones that stand. -/
def State.calibrated (g : Nat) (code : Int) (s : State) : State :=
  let good := (s.auxOffset g).accepts code
  { s with aux := { s.aux with
      offsets := s.aux.offsets.modify g (AuxOffset.calibrate s.clk.now code good)
      calHeldSeen := s.aux.calHeldSeen || !good
      heldTotal := if good then s.aux.heldTotal else satInc 32 s.aux.heldTotal
      cal := s.aux.cal.drop 1
      turnAt := s.clk.now } }

theorem auxOffsetCal_due {g : Nat} {code : Int} {s : State} (hrun : s.aux.calRun = none)
    (h : s.awake .aux = true ∧ s.aux.cal.head? = some g ∧ s.aux.turnAt + convTime (s.calRate g) ≤ s.clk.now) :
    auxOffsetCal g code s =
      (let u := s.calibrated g code
       if u.aux.cal.isEmpty then u.seekAgain.insertCals else u) := by
  obtain ⟨hup, hhead, hdue⟩ := h
  let u := s.calibrated g code
  have hnot : ¬ (!s.awake .aux || s.aux.cal.head? != some g || !s.since s.aux.turnAt (convTime (s.calRate g))) = true := by
    simp [hup, hhead, State.since_iff.2 hdue]
  have hu : (s.offsetCode g code).onAux (fun a => { a with cal := a.cal.drop 1, turnAt := s.now }) = u := by
    simp only [u, State.offsetCode, State.calibrated, State.onAux, hrun, Option.map_none]
    rfl
  rw [auxOffsetCal, if_neg hnot]
  dsimp only
  rw [hu, State.checkCalRun_none (s := u) hrun]

theorem State.auxOffset_modify_same {g : Nat} {f : AuxOffset → AuxOffset} {l : List AuxOffset} (h : g < l.length) (d : AuxOffset) :
    (l.modify g f).getD g d = f (l.getD g d) := by simp [List.getD_eq_getElem?_getD, h]

theorem State.auxOffset_modify_ne {g k : Nat} {f : AuxOffset → AuxOffset} {l : List AuxOffset} (h : k ≠ g) (d : AuxOffset) :
    (l.modify g f).getD k d = l.getD k d := by simp [List.getD_eq_getElem?_getD, h.symm]

theorem State.calibrated_same {g : Nat} {code : Int} {s : State} (hg : g < s.aux.offsets.length) :
    (s.calibrated g code).auxOffset g = (s.auxOffset g).calibrate s.clk.now code ((s.auxOffset g).accepts code) :=
  State.auxOffset_modify_same hg _

theorem State.calibrated_ne {g k : Nat} {code : Int} {s : State} (hk : k ≠ g) :
    (s.calibrated g code).auxOffset k = s.auxOffset k :=
  State.auxOffset_modify_ne hk _

/-- What a calibration that has ended leaves beside its code: the sequencer may go on, aux state alone moves. -/
theorem auxOffsetCal_facts {g : Nat} {code : Int} {s : State} (hrun : s.aux.calRun = none)
    (h : s.awake .aux = true ∧ s.aux.cal.head? = some g ∧ s.aux.turnAt + convTime (s.calRate g) ≤ s.clk.now) :
    let u := s.calibrated g code
    let t := auxOffsetCal g code s
    (∀ k, (t.auxOffset k).code = (u.auxOffset k).code ∧ (t.auxOffset k).held = (u.auxOffset k).held) ∧
    t.aux.heldTotal = u.aux.heldTotal ∧ t.aux.calHeldSeen = u.aux.calHeldSeen ∧ t = { s with aux := t.aux } ∧
    (1 < s.aux.cal.length → t = u) ∧ (s.aux.cal.length = 1 → ∃ cal, t = u.seekAgain.onAux fun a => { a with cal := cal }) := by
  let u := s.calibrated g code
  have heq : auxOffsetCal g code s = if u.aux.cal.isEmpty = true then u.seekAgain.insertCals else u := auxOffsetCal_due hrun h
  have hlen : u.aux.cal.length = s.aux.cal.length - 1 := by simp [u, State.calibrated]
  have hseek := u.seekAgain_step
  by_cases hone : s.aux.cal.length = 1
  · obtain ⟨cal, hins⟩ := State.insertCals_none (s := u.seekAgain) (hseek.calRun.trans hrun)
    have hcal : u.aux.cal.isEmpty = true := by rw [List.isEmpty_iff_length_eq_zero]; omega
    have hstep : auxOffsetCal g code s = u.seekAgain.onAux fun a => { a with cal := cal } := by rw [heq, if_pos hcal, hins]
    dsimp only
    rw [hstep]
    refine ⟨fun k => hseek.offset k, hseek.held.1, hseek.held.2, ?_, fun h => by omega, fun _ => ⟨cal, rfl⟩⟩
    rw [hseek.frame]
    rfl
  · have hpos : 0 < s.aux.cal.length := by
      obtain ⟨-, hhead, -⟩ := h
      cases hc : s.aux.cal with
      | nil => simp [hc] at hhead
      | cons _ _ => simp
    have hstep : auxOffsetCal g code s = u := by
      rw [heq]
      exact if_neg (by rw [List.isEmpty_iff_length_eq_zero]; omega)
    dsimp only
    rw [hstep]
    exact ⟨fun _ => ⟨rfl, rfl⟩, rfl, rfl, rfl, fun _ => rfl, fun h => absurd h hone⟩

/-! ### The charge amplifier -/

theorem shock_none {q : Int} {s : State} (h : s.piezoMeas = none) : shock q s = s := by rw [shock, h]
theorem piezoReset_none {s : State} (h : s.piezoMeas = none) : piezoReset s = s := by rw [piezoReset, h]

theorem shock_some {q : Int} {m : Nat} {s : State} (h : s.piezoMeas = some m) :
    shock q s =
      (let z := s.aux.piezo
       let put (k : Piezo) : State := s.onPiezo fun _ => k
       let peak := if z.peak.natAbs < q.natAbs then q else z.peak
       if s.clk.now + 256000 < z.blindUntil then s
       else if s.clk.now < z.blindUntil then put { z with output := q }
       else if q.natAbs < amShock (s.meas m).image then put { z with output := q, peak := peak }
       else put { z with output := q, peak := peak, shock := true, shockTotal := satInc 32 z.shockTotal,
                         shockPeak := max z.shockPeak q.natAbs }) := by
  rw [shock, h]
  rfl

theorem State.loaded_of_piezoMeas {m : Nat} {s : State} (h : s.piezoMeas = some m) : s.aux.loaded = true := by
  unfold State.piezoMeas at h
  split at h
  · next hd => simpa [State.auxDrives] using (by simpa [State.auxDrives] using hd : s.aux.loaded = true ∧ _).1
  · simp at h

theorem Piezo.resetDue_iff {now : Nat} {p : List Byte} {z : Piezo} : z.resetDue now p = true ↔
    z.startReset = true ∨ z.lastReset + 1280000 * amReset p ≤ now ∨ 9 * chargeScale p < 10 * z.output.natAbs := by
  simp only [Piezo.resetDue, Bool.or_eq_true, decide_eq_true_eq, or_assoc]
  rfl

/-- The amplifier after its reset. -/
def Piezo.discharged (now : Nat) (z : Piezo) : Piezo :=
  { z with resetTotal := satInc 32 z.resetTotal, lastReset := now, blindUntil := now + 384000, output := 0, startReset := false }

theorem piezoReset_some {m : Nat} {s : State} (h : s.piezoMeas = some m) :
    piezoReset s = if s.aux.piezo.resetDue s.now (s.meas m).image = true
      then (s.onPiezo (Piezo.discharged s.now)).onMeas m fun x => { x with unsettledNext := true } else s := by
  rw [piezoReset, h]
  rfl

/-! ### AUX_MEASUREMENT_DONE -/

theorem auxMeasurementDone_idle {a b : Int} {comp : Bool} {s : State} (h : s.aux.turn = none ∨ s.awake .aux = false ∨ s.aux.cal ≠ []) :
    auxMeasurementDone a b comp s = s := by
  cases ht : s.aux.turn with
  | none => rw [auxMeasurementDone, ht]
  | some m =>
    rw [auxMeasurementDone, ht]
    refine if_pos ?_
    rcases h with h | h | h
    · simp [ht] at h
    · simp [h]
    · simp [h]

/-- PRIMARY before it is held to its format. -/
def State.rawPrimary (p : List Byte) (a b : Int) (s : State) : Int :=
  let off := (s.auxOffset (amGain p)).code.getD 0
  primaryOf p ((if amType p = 6 then peakCode p s.aux.piezo.peak a else a) - off) (b - off)

/-- The number of free values that PRIMARY takes. -/
def State.drawnBy (p : List Byte) (a b : Int) (s : State) : Nat := if primaryFits p (s.rawPrimary p a b) then 0 else 1

/-- The state in which a result is published. -/
def State.converted (p : List Byte) (a b : Int) (comp : Bool) (s : State) : State :=
  let s' := { s with free := s.free + s.drawnBy p a b + (if curveFree p then 1 else 0) }
  let u := if (amType p = 2 || amType p = 3) && comp then s'.onAux fun k => { k with excCompliance := true } else s'
  if amType p = 6 then u.onPiezo fun z =>
    { z with peak := 0, shockPeak := max z.shockPeak (primaryHeld p (s.rawPrimary p a b) s.freeValue).natAbs } else u

/-- The result of a measurement. -/
def State.auxResult (m : Nat) (p : List Byte) (a b : Int) (comp : Bool) (s : State) : AuxResult :=
  let code := if amType p = 6 then peakCode p s.aux.piezo.peak a else a
  let prim := primaryHeld p (s.rawPrimary p a b) s.freeValue
  let openInput := ((amType p = 2 || amType p = 3) && comp) || (amType p = 5 && decide (8346665 ≤ code))
  let outOfScale := !openInput && (overRange code || (conversions (amType p) = 2 && overRange b))
  let v := curveValue p prim (s.meas (amCj p)).result.value (Config.free (s.free + s.drawnBy p a b))
  let oor := v.2 || outOfScale
  let cj := s.cjInvalid p
  let x := s.meas m
  { value := v.1, primary := prim, stamp := stamp48 (s.converted p a b comp).stamp,
    status := flag (!(oor || openInput || x.unsettledNext || cj)) 0 + flag oor 1 + flag openInput 2 +
      flag x.unsettledNext 3 + flag (s.auxOffset (amGain p)).held 4 + flag cj 5 }

theorem State.freeNext_unless (c : Bool) (s : State) :
    (if c = true then s else s.freeNext) = { s with free := s.free + if c then 0 else 1 } := by cases c <;> rfl

theorem State.freeNext_if (c : Bool) (s : State) :
    (if c = true then s.freeNext else s) = { s with free := s.free + if c then 1 else 0 } := by cases c <;> rfl

theorem auxMeasurementDone_over {a b : Int} {comp : Bool} {m : Nat} {s : State} (ht : s.aux.turn = some m) (hup : s.awake .aux = true)
    (hcal : s.aux.cal = []) (hover : s.turnOver (s.meas m).image = true) :
    auxMeasurementDone a b comp s =
      (let p := (s.meas m).image
       ((s.converted p a b comp).publishAux m p (s.auxResult m p a b comp)).nextTurn m) := by
  rw [auxMeasurementDone, ht]
  dsimp only
  rw [if_neg (by simp [hup, hcal, hover]), State.freeNext_unless, State.freeNext_if]
  rfl

/-- Only the bias moves. -/
def BiasOnly (s t : State) : Prop := ∃ b, t = s.withBias b

theorem BiasOnly.refl (s : State) : BiasOnly s s := ⟨s.bias, rfl⟩
theorem BiasOnly.onBias (f : Bias → Bias) (s : State) : BiasOnly s (s.onBias f) := ⟨f s.bias, rfl⟩
theorem BiasOnly.trans {s t u : State} (h : BiasOnly s t) (k : BiasOnly t u) : BiasOnly s u := by
  obtain ⟨b, rfl⟩ := h
  obtain ⟨b', rfl⟩ := k
  exact ⟨b', rfl⟩
theorem BiasOnly.ite {s t u : State} {c : Prop} [Decidable c] (h : BiasOnly s t) (k : BiasOnly s u) :
    BiasOnly s (if c then t else u) := by
  split
  · exact h
  · exact k

theorem State.biasReading_frame (m curve : Nat) (value : Int) (valid : Bool) (s : State) :
    BiasOnly s (s.biasReading m curve value valid) := by
  unfold State.biasReading
  dsimp only
  exact .trans (.ite (.onBias _ _) (.refl _)) (.ite (.onBias _ _) (.refl _))

theorem State.bezelDutyFor_frame (curve : Nat) (r : AuxResult) (s : State) : ∃ d i w,
    s.bezelDutyFor curve r = s.onAux fun a => { a with bezelDuty := d, tempInvalid := i, winTemp := w } := by
  unfold State.bezelDutyFor
  dsimp only
  split
  · exact ⟨s.aux.bezelDuty, s.aux.tempInvalid, s.aux.winTemp, rfl⟩
  · split
    · exact ⟨0, true, s.aux.winTemp, rfl⟩
    · exact ⟨_, false, _, rfl⟩

/-- A measurement with a new result. -/
def AuxMeas.published (r : AuxResult) (x : AuxMeas) : AuxMeas := { x with result := r, unsettledNext := false }

theorem State.publishAux_facts {m : Nat} {p : List Byte} {r : AuxResult} {s : State} (hm : m < s.aux.meas.length) :
    let t := s.publishAux m p r
    t = { s with aux := t.aux, returns := { s.returns with bias := t.bias } } ∧ t.meas m = (s.meas m).published r ∧
      t.aux.piezo = s.aux.piezo := by
  let u := (s.onMeas m (AuxMeas.published r)).onAux fun a =>
    { a with switches := a.switches.map fun w => if swSource w.image = m then w.eval r else w }
  let v := if bzMeas u.aux.bezelImage = m then u.bezelDutyFor (amCurve p) r else u
  obtain ⟨d, i, w, hv⟩ : ∃ d i w, v = u.onAux fun a => { a with bezelDuty := d, tempInvalid := i, winTemp := w } := by
    simp only [v]
    split
    · exact u.bezelDutyFor_frame (amCurve p) r
    · exact ⟨u.aux.bezelDuty, u.aux.tempInvalid, u.aux.winTemp, rfl⟩
  obtain ⟨b, hb⟩ := v.biasReading_frame m (amCurve p) r.value r.valid
  have hstep : s.publishAux m p r = (u.onAux fun a => { a with bezelDuty := d, tempInvalid := i, winTemp := w }).withBias b := by
    rw [← hv]
    exact hb
  dsimp only
  rw [hstep]
  exact ⟨rfl, State.meas_onMeas_same (f := AuxMeas.published r) hm, rfl⟩

theorem State.nextTurn_facts {m : Nat} {s : State} (hpend : (s.meas m).pending = none) :
    let t := s.nextTurn m
    t = { s with aux := t.aux, host := t.host, nvm := t.nvm, health := t.health } ∧ t.meas m = s.meas m ∧ t.aux.piezo = s.aux.piezo := by
  let u := s.seek ((List.range 16).map fun i => (m + 1 + i) % 16)
  have hseek : SeqStep s u := State.seek_step ..
  obtain ⟨host, nvm, health, run, res, cal, hins⟩ := u.insertCals_frame
  have hstep : s.nextTurn m = _ := hins
  dsimp only
  rw [hstep]
  refine ⟨?_, hseek.meas m hpend, hseek.piezo⟩
  rw [hseek.frame]

theorem State.converted_facts (p : List Byte) (a b : Int) (comp : Bool) (s : State) :
    let t := s.converted p a b comp
    t = { s with aux := t.aux, free := s.free + s.drawnBy p a b + (if curveFree p then 1 else 0) } ∧ t.aux.meas = s.aux.meas ∧
      (amType p = 6 → t.aux.piezo.peak = 0) := by
  let s' : State := { s with free := s.free + s.drawnBy p a b + (if curveFree p then 1 else 0) }
  let u := if ((amType p = 2 || amType p = 3) && comp) = true then s'.onAux fun k => { k with excCompliance := true } else s'
  obtain ⟨e, hu⟩ : ∃ e, u = s'.onAux fun k => { k with excCompliance := e } := by
    simp only [u]
    split
    · exact ⟨true, rfl⟩
    · exact ⟨s'.aux.excCompliance, rfl⟩
  have hstep : s.converted p a b comp = if amType p = 6 then u.onPiezo fun z =>
      { z with peak := 0, shockPeak := max z.shockPeak (primaryHeld p (s.rawPrimary p a b) s.freeValue).natAbs } else u := rfl
  dsimp only
  rw [hstep, hu]
  split
  · exact ⟨rfl, rfl, fun _ => rfl⟩
  · next h => exact ⟨rfl, rfl, fun h' => absurd h' h⟩

/-- The marks of a result: VALID stands only without the others. -/
theorem auxFlags_bits : ∀ oor openInput unsettled held cj : Bool,
    let st := flag (!(oor || openInput || unsettled || cj)) 0 + flag oor 1 + flag openInput 2 + flag unsettled 3 + flag held 4 + flag cj 5
    bit st 3 = unsettled ∧ (unsettled = true → bit st 0 = false) ∧ (bit st 1 = true → bit st 0 = false) := by decide

theorem primaryHeld_of_fits {p : List Byte} {x : Int} (h : primaryFits p x = true) (n : Nat) : primaryHeld p x n = x := if_pos h

theorem primaryFits_held (p : List Byte) (x : Int) (n : Nat) : primaryFits p (primaryHeld p x n) = true := by
  by_cases h : primaryFits p x = true
  · rw [primaryHeld_of_fits h]
    exact h
  · unfold primaryHeld
    rw [if_neg h]
    unfold primaryFits
    have hn : n % 4294967296 < 4294967296 := Nat.mod_lt _ (by decide)
    split
    · simp only [decide_eq_true_eq]
      omega
    · unfold toSigned
      simp only [decide_eq_true_eq]
      split <;> omega

/-- What conversion, publication and the next turn move together. -/
theorem measurement_frame {s u v t : State} {k : Nat} (hu : ∃ aux, u = { s with aux := aux, free := k })
    (hv : ∃ aux b, v = { u with aux := aux, returns := { u.returns with bias := b } })
    (ht : ∃ aux host nvm health, t = { v with aux := aux, host := host, nvm := nvm, health := health }) :
    t = { s with aux := t.aux, free := t.free, health := t.health, host := t.host, nvm := t.nvm,
                 returns := { s.returns with bias := t.bias } } := by
  obtain ⟨a, rfl⟩ := hu
  obtain ⟨a', b, rfl⟩ := hv
  obtain ⟨a'', host, nvm, health, rfl⟩ := ht
  rfl

theorem auxMeasurementDone_ends {a b : Int} {comp : Bool} {m : Nat} {s : State} (ht : s.aux.turn = some m) (hup : s.awake .aux = true)
    (hcal : s.aux.cal = []) (hm : m < s.aux.meas.length) (hpend : (s.meas m).pending = none) :
    let p := (s.meas m).image
    s.turnOver p = true → ∃ t, exec (.auxMeasurementDone a b comp) s = .next t ∧
      let off := (s.auxOffset (amGain p)).code.getD 0
      let x := primaryOf p ((if amType p = 6 then peakCode p s.aux.piezo.peak a else a) - off) (b - off)
      let drawn := if primaryFits p x then 0 else 1
      let r := (t.meas m).result
      (primaryFits p x = true → r.primary = x) ∧ primaryFits p r.primary = true ∧ (amType p = 6 → t.aux.piezo.peak = 0) ∧
      r.value = (curveValue p r.primary (s.meas (amCj p)).result.value (Config.free (s.free + drawn))).1 ∧ r.stamp = stamp48 s.stamp ∧
      bit r.status 3 = (s.meas m).unsettledNext ∧ ((s.meas m).unsettledNext = true → bit r.status 0 = false) ∧
      (bit r.status 1 = true → bit r.status 0 = false) ∧ (t.meas m).unsettledNext = false ∧ (t.meas m).image = p ∧
      t.free = s.free + drawn + (if curveFree p then 1 else 0) ∧
      t = { s with aux := t.aux, free := t.free, health := t.health, host := t.host, nvm := t.nvm,
                   returns := { s.returns with bias := t.bias } } := by
  intro p hover
  let r := s.auxResult m p a b comp
  let u := s.converted p a b comp
  let v := u.publishAux m p r
  obtain ⟨hu, humeas, hupeak⟩ := s.converted_facts p a b comp
  have hum : u.meas m = s.meas m := by rw [State.meas, humeas]; rfl
  obtain ⟨hv, hvm, hvpiezo⟩ := State.publishAux_facts (m := m) (p := p) (r := r) (s := u) (by rw [humeas]; exact hm)
  have hvpend : (v.meas m).pending = none := by rw [show v.meas m = _ from hvm, hum]; exact hpend
  obtain ⟨ht', htm, htpiezo⟩ := State.nextTurn_facts hvpend
  have hstep : auxMeasurementDone a b comp s = v.nextTurn m := auxMeasurementDone_over ht hup hcal hover
  have hmeas : (v.nextTurn m).meas m = (s.meas m).published r := by rw [htm, show v.meas m = _ from hvm, hum]
  have hflags := auxFlags_bits
  have hstamp : r.stamp = stamp48 s.stamp := by
    show stamp48 (s.converted p a b comp).stamp = _
    rw [hu]
    rfl
  refine ⟨v.nextTurn m, congrArg Host.Outcome.next hstep, ?_⟩
  dsimp only
  rw [hmeas]
  refine ⟨fun hfit => primaryHeld_of_fits hfit _, primaryFits_held .., fun h6 => ?_, rfl, hstamp, (hflags _ _ _ _ _).1,
    (hflags _ _ _ _ _).2.1, (hflags _ _ _ _ _).2.2, rfl, rfl, ?_, ?_⟩
  · rw [htpiezo, show v.aux.piezo = _ from hvpiezo]
    exact hupeak h6
  · exact (congrArg State.free ht').trans ((congrArg State.free hv).trans (congrArg State.free hu))
  · exact measurement_frame ⟨_, hu⟩ ⟨_, _, hv⟩ ⟨_, _, _, _, ht'⟩

/-! ### The clauses -/

theorem auxOffsetCal_ends {g : Nat} {code : Int} {s : State} (hg : g < s.aux.offsets.length) (hrun : s.aux.calRun = none)
    (h : s.awake .aux = true ∧ s.aux.cal.head? = some g ∧ s.aux.turnAt + convTime (s.calRate g) ≤ s.clk.now) :
    let good := code.natAbs ≤ 8389 ∧ ∀ k, (s.auxOffset g).code = some k → (code - k).natAbs ≤ 839
    ∃ t, exec (.auxOffsetCal g code) s = .next t ∧
      (good → (t.auxOffset g).code = some code ∧ (t.auxOffset g).held = false ∧ t.aux.heldTotal = s.aux.heldTotal) ∧
      (¬ good → (t.auxOffset g).code = (s.auxOffset g).code ∧ (t.auxOffset g).held = true ∧ t.aux.calHeldSeen = true ∧
        t.aux.heldTotal = satInc 32 s.aux.heldTotal) ∧
      (∀ k, k ≠ g → (t.auxOffset k).code = (s.auxOffset k).code ∧ (t.auxOffset k).held = (s.auxOffset k).held) ∧
      (1 < s.aux.cal.length → (t.auxOffset g).calibrated = some s.clk.now ∧
        t = { s with aux := { s.aux with offsets := t.aux.offsets, calHeldSeen := t.aux.calHeldSeen, heldTotal := t.aux.heldTotal,
                                         cal := s.aux.cal.drop 1, turnAt := s.clk.now } }) ∧
      (∀ m, s.aux.cal.length = 1 → s.aux.turn = some m → m < s.aux.meas.length → (s.meas m).pending = none →
        amType (s.meas m).image ≠ 0 → (t.auxOffset g).calibrated = some s.clk.now ∧ t.aux.turn = some m ∧ t.aux.meas = s.aux.meas) ∧
      (∀ m x, s.aux.cal.length = 1 → s.aux.turn = some m → m < s.aux.meas.length → (s.meas m).pending = some x → amType x ≠ 0 →
        t.aux.turn = some m ∧ (t.meas m).image = x ∧ (t.meas m).pending = none) ∧
      t = { s with aux := t.aux } := by
  intro good
  let u := s.calibrated g code
  obtain ⟨hoff, hheld, hseen, hframe, hmany, hone⟩ := auxOffsetCal_facts (code := code) hrun h
  have hsame : u.auxOffset g = (s.auxOffset g).calibrate s.clk.now code ((s.auxOffset g).accepts code) := State.calibrated_same hg
  have hcalibrated : (u.auxOffset g).calibrated = some s.clk.now := congrArg AuxOffset.calibrated hsame
  refine ⟨auxOffsetCal g code s, rfl, fun hgood => ?_, fun hbad => ?_, fun k hk => ?_, fun hlen => ?_, fun m hlen hturn hm hpend hty => ?_,
    fun m x hlen hturn hm hpend hty => ?_, hframe⟩
  · have hacc : (s.auxOffset g).accepts code = true := AuxOffset.accepts_iff.2 hgood
    refine ⟨(hoff g).1.trans ?_, (hoff g).2.trans ?_, hheld.trans (if_pos hacc)⟩
    · rw [hsame, hacc]
      rfl
    · rw [hsame, hacc]
      rfl
  · have hacc : (s.auxOffset g).accepts code = false := by simpa using AuxOffset.accepts_iff.not.2 hbad
    refine ⟨(hoff g).1.trans ?_, (hoff g).2.trans ?_, hseen.trans ?_, hheld.trans (if_neg (by simp [hacc]))⟩
    · rw [hsame, hacc]
      rfl
    · rw [hsame, hacc]
      rfl
    · show (s.aux.calHeldSeen || !(s.auxOffset g).accepts code) = true
      rw [hacc]
      simp
  · rw [(hoff k).1, (hoff k).2, State.calibrated_ne hk]
    exact ⟨rfl, rfl⟩
  · rw [hmany hlen]
    exact ⟨hcalibrated, rfl⟩
  · obtain ⟨cal, hstep⟩ := hone hlen
    have hagain : u.seekAgain = u := by
      have ht : u.aux.turn = some m := hturn
      have hp : (u.meas m).pending = none := hpend
      have hy : amType (u.meas m).image ≠ 0 := hty
      rw [State.seekAgain, ht]
      dsimp only
      rw [State.takeSettings_none hp, if_neg hy]
    rw [hstep, hagain]
    exact ⟨hcalibrated, hturn, rfl⟩
  · obtain ⟨cal, hstep⟩ := hone hlen
    obtain ⟨-, htake, hturn'⟩ := State.takeSettings_some (s := u) (m := m) hpend hm
    have hagain : u.seekAgain = u.takeSettings m := by
      have ht : u.aux.turn = some m := hturn
      rw [State.seekAgain, ht]
      dsimp only
      rw [if_neg (by rw [htake]; exact hty)]
    rw [hstep, hagain]
    exact ⟨hturn'.trans hturn, congrArg AuxMeas.image htake, congrArg AuxMeas.pending htake⟩

/-- Settles O46: a turn's result is published before the sequencer goes on, and the sequencer leaves results, codes and the amplifier. -/
theorem auxMeasuresInTurn : Obligations.AuxMeasuresInTurn := by
  unfold Obligations.AuxMeasuresInTurn
  refine ⟨fun a b comp s h => congrArg Host.Outcome.next (auxMeasurementDone_idle h),
    fun a b comp m s ht hup hcal hm _ hpend => ⟨fun hover => congrArg Host.Outcome.next ?_, auxMeasurementDone_ends ht hup hcal hm hpend⟩,
    fun g code s hg hrun => ⟨fun h => congrArg Host.Outcome.next (auxOffsetCal_not h), auxOffsetCal_ends hg hrun⟩,
    fun s => ⟨fun h => congrArg Host.Outcome.next (if_pos ?_), fun h => congrArg Host.Outcome.next (if_neg ?_)⟩,
    fun q s => ⟨fun h => ⟨congrArg Host.Outcome.next (shock_none h), congrArg Host.Outcome.next (piezoReset_none h)⟩, fun m h hm => ?_⟩⟩
  · rw [auxMeasurementDone, ht]
    exact if_pos (by simp [hover])
  · rw [Bool.not_eq_true', ← Bool.not_eq_true, State.since_iff]
    exact Nat.not_le.2 h
  · rw [Bool.not_eq_true', Bool.not_eq_false, State.since_iff]
    exact h
  · have hshock := shock_some (q := q) h
    refine ⟨fun hblind => congrArg Host.Outcome.next (hshock.trans (if_pos hblind)), fun hopen hblind => congrArg Host.Outcome.next ?_,
      fun hopen hlow => congrArg Host.Outcome.next ?_, fun hopen hhigh => congrArg Host.Outcome.next ?_, fun hdue => congrArg Host.Outcome.next ?_,
      fun hdue => ?_⟩
    · exact hshock.trans ((if_neg (Nat.not_lt.2 hopen)).trans (if_pos hblind))
    · exact hshock.trans ((if_neg (by omega)).trans ((if_neg (Nat.not_lt.2 hopen)).trans (if_pos hlow)))
    · exact hshock.trans ((if_neg (by omega)).trans ((if_neg (Nat.not_lt.2 hopen)).trans (if_neg (Nat.not_lt.2 hhigh))))
    · refine (piezoReset_some h).trans (if_neg ?_)
      rw [Piezo.resetDue_iff]
      exact fun hd => hdue ⟨State.loaded_of_piezoMeas h, hd⟩
    · have hstep := (piezoReset_some h).trans (if_pos (Piezo.resetDue_iff.2 hdue.2))
      refine ⟨_, congrArg Host.Outcome.next hstep, rfl, ?_, fun k hk => ?_, rfl⟩
      · exact State.meas_onMeas_same (s := s.onPiezo (Piezo.discharged s.now)) hm
      · exact State.meas_onMeas_ne (s := s.onPiezo (Piezo.discharged s.now)) hk

end Sys2Proof.Machine

/-!
## Health, status opcodes, publications and re-plans (R434 to R446)
-/
namespace Sys2Proof.Machine

/-! ### The status opcodes -/

/-- A command that changes nothing of the host side and nothing its block shows, and is answered. -/
theorem State.finish_from {op : Nat} {c : Cmd} {st det res : Nat} {d : List Byte} {s u : State} (hsilent : Silent c s u)
    (hsets : u.sets = s.sets) (hclk : u.stamp = s.stamp) : Finished op c (s.block st det res) d s (u.finish op c st det res d) := by
  have hblock : s.block st det res = u.block st det res := by rw [State.block, State.block, hsets, hclk]
  rw [hblock]
  exact (finish_finished op c st det res d u).of_silent hsilent

theorem timebaseStatus_row {c : Cmd} {s : State} (h : Accepted timebaseStatusInfo c s) :
    ∃ t, exec (.timebaseStatus c) s = .next t ∧
    Finished 0x0A02 c (s.block 0 0 s.clk.state.code) s.timebaseBlock s t ∧ t = { s with host := t.host } := by
  obtain ⟨j, hsilent, hrun⟩ := State.run_from h
  let u := s.withJournal j
  refine ⟨u.finish 0x0A02 c 0 0 s.clk.state.code s.timebaseBlock, congrArg Host.Outcome.next (hrun _), State.finish_from hsilent rfl rfl, ?_⟩
  rw [State.finish_frame]
  rfl

theorem u8_fit_cons {n k : Nat} {l : List Byte} {x : Nat} (hk : k < n) (h : l.getD k 0 = BitVec.ofNat 8 x) :
    u8 (fit n l) k = x % 256 := by
  refine u8_of_byte ?_
  rw [← h, fit, List.getD_eq_getElem?_getD, List.getElem?_take_of_lt hk, List.getD_eq_getElem?_getD, List.getElem?_append]
  split
  · rfl
  · next hl =>
    rw [List.getElem?_eq_none (by omega : l.length ≤ k)]
    simp only [zeros, List.getElem?_replicate]
    split <;> rfl

theorem arbiterStatus_row {c : Cmd} {s : State} (h : Accepted arbiterStatusInfo c s) :
    ∃ t d, exec (.arbiterStatus c) s = .next t ∧
    Finished 0x0A09 c (s.block 0 0 s.health.queue.length) d s t ∧ u8 d 0 = s.health.running.length % 256 ∧
    u8 d 1 = s.health.queue.length % 256 ∧ t = { s with host := t.host, free := s.free + s.health.running.length } := by
  obtain ⟨j, hsilent, hrun⟩ := State.run_from h
  let u : State := { s.withJournal j with free := s.free + s.health.running.length }
  refine ⟨u.finish 0x0A09 c 0 0 s.health.queue.length s.arbiterBlock, s.arbiterBlock, congrArg Host.Outcome.next (hrun _),
    State.finish_from (hsilent.trans (Silent.of_host rfl)) rfl rfl, u8_fit_cons (by decide) rfl, u8_fit_cons (by decide) rfl, ?_⟩
  rw [State.finish_frame]
  rfl

theorem State.tile_onTile_same {n : Nat} {f : Tile → Tile} {s : State} (h : n < s.fabric.tiles.length) :
    (s.onTile n f).tile n = f (s.tile n) := by
  simp [State.tile, State.onTile, State.onFabric, List.getD_eq_getElem?_getD, h]

theorem State.tile_onTile_ne {n k : Nat} {f : Tile → Tile} {s : State} (h : k ≠ n) : (s.onTile n f).tile k = s.tile k := by
  simp [State.tile, State.onTile, State.onFabric, List.getD_eq_getElem?_getD, h.symm]

theorem fabricStatus_row {c : Cmd} {s : State} (h : Accepted fabricStatusInfo c s) :
    let n := u8 c.payload 0
    let m := u16 c.payload 2
    n < s.fabric.tiles.length → n < s.fabric.rejection.length → ∃ t d, exec (.fabricStatus c) s = .next t ∧
      Finished 0x0A03 c (s.block 0 0 (s.tileSpares n)) d s t ∧
      t.tile n = { s.tile n with chainAbandonedSeen := (s.tile n).chainAbandonedSeen && !bit m 0,
                                 overflowSeen := (s.tile n).overflowSeen && !bit m 1,
                                 droppedSeen := (s.tile n).droppedSeen && !bit m 2 } ∧
      t.rejection n = { s.rejection n with budgetLimited := (s.rejection n).budgetLimited && !bit m 3,
                                           ownRejected := (s.rejection n).ownRejected && !bit m 4,
                                           tapOverrun := (s.rejection n).tapOverrun && !bit m 5 } ∧
      (∀ k, k ≠ n → t.tile k = s.tile k ∧ t.rejection k = s.rejection k) ∧
      t = { s with host := t.host, fabric := { s.fabric with tiles := t.fabric.tiles, rejection := t.fabric.rejection } } := by
  intro n m hn hr
  obtain ⟨j, hsilent, hrun⟩ := State.run_from h
  let u := (s.withJournal j).clearFabric n m
  let d := if u8 c.payload 1 = 0 then u.tileBlock n ++ u.rejectionBlock n
           else ((List.range 18).map fun k => u.engineBlock (18 * n + k)).flatten
  have hframe := u.finish_frame 0x0A03 c 0 0 (s.tileSpares n) d
  refine ⟨u.finish 0x0A03 c 0 0 (s.tileSpares n) d, d, congrArg Host.Outcome.next (hrun _),
    State.finish_from (hsilent.trans (Silent.of_host rfl)) rfl rfl, ?_⟩
  generalize u.finish 0x0A03 c 0 0 (s.tileSpares n) d = t at hframe
  rw [hframe]
  refine ⟨State.tile_onTile_same (s := s) hn, State.rejection_onRejection_same (s := s) hr, fun k hk => ⟨State.tile_onTile_ne (s := s) hk,
    State.rejection_onRejection_ne (s := s) hk⟩, rfl⟩

theorem State.healthRecord_length (s : State) : s.healthRecord.length = 7168 := fit_length _ _

/-- A snapshot changes its number and itself. -/
theorem State.snapshotHealth_frame (s : State) : ∃ r, s.snapshotHealth =
    { s with health := { s.health with recordNumber := wrap 32 (s.health.recordNumber + 1), snapshot := r } } ∧ r.length = 7168 := by
  let u := s.onHealth fun h => { h with recordNumber := wrap 32 (h.recordNumber + 1) }
  have hlen := u.healthRecord_length
  have hstep : s.snapshotHealth = u.onHealth fun h => { h with snapshot := u.healthRecord } := rfl
  generalize u.healthRecord = r at hlen hstep
  exact ⟨r, hstep, hlen⟩

theorem healthRead_row {c : Cmd} {s : State} (h : Accepted healthReadInfo c s) :
    let p := c.payload
    let m := u16 p 2
    ∃ t, exec (.healthRead c) s = .next t ∧ t.health.recordNumber = wrap 32 (s.health.recordNumber + 1) ∧
      t.health.snapshot.length = 7168 ∧
      Finished 0x0A01 c (s.block 0 0 t.health.recordNumber) (slice t.health.snapshot (1024 * u8 p 0) (1024 * u8 p 1)) s t ∧
      t.health = { s.health with recordNumber := t.health.recordNumber, snapshot := t.health.snapshot,
                                 takeoverSeen := s.health.takeoverSeen && !bit m 0, journalLost := s.health.journalLost && !bit m 3,
                                 bankDiverged := s.health.bankDiverged && !bit m 4, nvmDiverged := s.health.nvmDiverged && !bit m 5,
                                 replanHeld := s.health.replanHeld && !bit m 10,
                                 filterTestFail := s.health.filterTestFail && !bit m 13 } ∧
      t = { s with health := t.health, host := t.host } := by
  intro p m
  obtain ⟨j, hsilent, hrun⟩ := State.run_from h
  obtain ⟨r, hsnap, hlen⟩ := ((s.withJournal j).clearHealth m).snapshotHealth_frame
  let u := ((s.withJournal j).clearHealth m).snapshotHealth
  let d := slice u.health.snapshot (1024 * u8 p 0) (1024 * u8 p 1)
  let t := u.finish 0x0A01 c 0 0 u.health.recordNumber d
  have hu : u = _ := hsnap
  have hframe : t = _ := u.finish_frame 0x0A01 c 0 0 u.health.recordNumber d
  have hhealth : t.health = u.health := by rw [hframe]
  have hfin : Finished 0x0A01 c (s.block 0 0 u.health.recordNumber) d s t := by
    refine State.finish_from (hsilent.trans (Silent.of_host ?_)) ?_ ?_
    all_goals
      rw [hu]
      rfl
  refine ⟨t, congrArg Host.Outcome.next (hrun _), ?_, ?_, ?_, ?_, ?_⟩
  · rw [hhealth, hu]
    rfl
  · rw [hhealth, hu]
    exact hlen
  · rw [hhealth]
    exact hfin
  · rw [hhealth, hu]
    rfl
  · rw [hframe, hu]
    rfl

/-! ### HEALTH_CONFIG -/

theorem absorbInto_cmds {new : Activity} {x : Nat × Cmd} (hx : x ∈ new.cmds) {l : List Activity} (h : l.any new.absorbs = true) :
    ∃ a ∈ absorbInto new l, a.recId = new.recId ∧ x ∈ a.cmds := by
  induction l with
  | nil => simp at h
  | cons a l ih =>
    by_cases ha : new.absorbs a = true
    · have hid : a.recId = new.recId := by
        have := ha
        simp only [Activity.absorbs, Bool.and_eq_true, beq_iff_eq] at this
        exact this.2
      have hstep : absorbInto new (a :: l) = new.merge a :: l := if_pos ha
      refine ⟨new.merge a, by rw [hstep]; simp, ?_, ?_⟩
      · unfold Activity.merge
        split <;> exact hid
      · unfold Activity.merge
        split <;> exact List.mem_append_right _ hx
    · have hstep : absorbInto new (a :: l) = a :: absorbInto new l := if_neg ha
      obtain ⟨b, hb, hrest⟩ := ih (by simpa [ha] using h)
      exact ⟨b, by rw [hstep]; exact List.mem_cons_of_mem _ hb, hrest⟩

/-- A requested activity of a command joins the queue, or a queued store of its record takes its commands. -/
theorem State.request_cmds {a : Activity} {x : Nat × Cmd} (hx : x ∈ a.cmds) (s : State) :
    ∃ b ∈ (s.request a).health.queue, b.recId = a.recId ∧ x ∈ b.cmds := by
  unfold State.request
  split
  · next h => exact absorbInto_cmds hx h
  · rw [if_neg (by simp [List.isEmpty_iff, List.ne_nil_of_mem hx])]
    exact ⟨a, List.mem_append_right _ (List.mem_singleton.2 rfl), rfl, hx⟩

/-- A command's store waits in the arbiter's queue with the command. -/
theorem State.storeAfter_queued (op id : Nat) (c : Cmd) (b : StatusBlock) (s : State) :
    (∃ w ∈ (s.storeAfter op id c b).nvm.waits, w.cmd = c ∧ w.block = b) ∧
    ∃ a ∈ (s.storeAfter op id c b).health.queue, a.recId = id ∧ (op, c) ∈ a.cmds := by
  let u := s.onNvm fun n => { n with waits := n.waits.filter (·.cmd != c) ++ [{ cmd := c, block := b }] }
  have hqueue := State.request_cmds (a := Activity.store 0x07 id 1 none [(op, c)]) (x := (op, c)) (List.mem_singleton.2 rfl) u
  obtain ⟨q, hq⟩ := u.request_frame (Activity.store 0x07 id 1 none [(op, c)])
  have hstep : s.storeAfter op id c b = (u.request (Activity.store 0x07 id 1 none [(op, c)])).setPending (.record id) c := rfl
  rw [hstep]
  refine ⟨⟨{ cmd := c, block := b }, ?_, rfl, rfl⟩, hqueue⟩
  rw [hq]
  exact List.mem_append_right _ (List.mem_singleton.2 rfl)

theorem healthConfig_row {c : Cmd} {s : State} (h : Accepted healthConfigInfo c s) : ∃ t, exec (.healthConfig c) s = .next t ∧
    t.health.config = c.payload ∧
    (bit (u8 c.payload 4) 1 = false → Finished 0x0A0A c (s.block 0 0 0) [] s t ∧ t.health = { s.health with config := c.payload } ∧
      t.nvm = s.nvm) ∧
    (bit (u8 c.payload 4) 1 = true → Silent c s t ∧ (∃ w ∈ t.nvm.waits, w.cmd = c ∧ w.block = s.block 0 0 0) ∧
      ∃ a ∈ t.health.queue, a.recId = 0x28 ∧ (0x0A0A, c) ∈ a.cmds) ∧
    t = { s with health := t.health, host := t.host, nvm := { s.nvm with waits := t.nvm.waits } } := by
  obtain ⟨j, hsilent, hrun⟩ := State.run_from h
  let u := (s.withJournal j).onHealth fun h => { h with config := c.payload }
  have hsilentU : Silent c s u := hsilent.trans (Silent.of_host rfl)
  by_cases hp : bit (u8 c.payload 4) 1 = true
  · have heff : healthConfigEffect c (s.withJournal j) = u.storeAfter 0x0A0A 0x28 c (s.block 0 0 0) := if_pos hp
    obtain ⟨q, w, hframe⟩ := u.storeAfter_frame 0x0A0A 0x28 c (s.block 0 0 0)
    refine ⟨_, congrArg Host.Outcome.next ((hrun _).trans heff), ?_, fun hn => absurd hp (by simp [hn]), fun _ =>
      ⟨hsilentU.trans (State.storeAfter_silent ..), State.storeAfter_queued ..⟩, ?_⟩
    · rw [hframe]
      rfl
    · rw [hframe]
      rfl
  · have heff : healthConfigEffect c (s.withJournal j) = u.done 0x0A0A c 0 := if_neg hp
    have hframe := u.done_frame 0x0A0A c 0
    have hfin : Finished 0x0A0A c (s.block 0 0 0) [] s (u.done 0x0A0A c 0) := (State.done_finished 0x0A0A c 0 u).of_silent hsilentU
    refine ⟨u.done 0x0A0A c 0, congrArg Host.Outcome.next ((hrun _).trans heff), ?_, fun _ => ⟨hfin, ?_, ?_⟩, fun h => absurd h hp, ?_⟩
    all_goals
      generalize u.done 0x0A0A c 0 = t at hframe
      rw [hframe]
      rfl

/-! ### HEALTH_PUBLISH -/

/-- A segment adds one frame, and changes no health state. -/
theorem State.sendSegment_facts (k : Nat) (s : State) :
    (∃ net integrity, s.sendSegment k = { s with net := net, integrity := integrity }) ∧
    (s.sendSegment k).net.lastHealth = s.net.lastHealth ∧ (∀ p, (s.sendSegment k).linkUp p = s.linkUp p) ∧
    (s.linkUp 0 = true → s.netPowered = true → ∃ f, (s.sendSegment k).net.tx = s.net.tx ++ [f] ∧ f.kind = .health) := by
  let body := le 4 s.health.recordNumber ++ le 1 k ++ le 1 7 ++ zeros 10 ++ slice s.health.snapshot (1024 * k) 1024
  let covered := s.healthFold (s.pdCounter (tcHealthCom s.net.trdp)) ++ body
  let u := s.unitItem 13 covered
  obtain ⟨⟨ports, tx, pd, hpd⟩, hcount, hqueue⟩ := u.sendPd_facts .health (tcHealthCom s.net.trdp) (tcHealthDest s.net.trdp)
    (body ++ le 4 (crc32c covered))
  have hstep : s.sendSegment k = u.sendPd .health (tcHealthCom s.net.trdp) (tcHealthDest s.net.trdp) (body ++ le 4 (crc32c covered)) := rfl
  rw [hstep]
  refine ⟨?_, ?_, hcount.linkUp, fun hup hpow => hqueue hpow ?_⟩
  · rw [hpd]
    exact ⟨_, u.integrity, rfl⟩
  · rw [hpd]
    rfl
  · show (s.linkUp 0 || s.linkUp 1) = true
    rw [hup]
    rfl

/-- Segments in their order. -/
theorem State.sendSegments_facts (l : List Nat) (s : State) :
    (∃ net integrity, l.foldl State.sendSegment s = { s with net := net, integrity := integrity }) ∧
    (l.foldl State.sendSegment s).net.lastHealth = s.net.lastHealth ∧
    (s.linkUp 0 = true → s.netPowered = true →
      ∃ fs, (l.foldl State.sendSegment s).net.tx = s.net.tx ++ fs ∧ fs.length = l.length ∧ ∀ f ∈ fs, f.kind = .health) := by
  induction l generalizing s with
  | nil => exact ⟨⟨s.net, s.integrity, rfl⟩, rfl, fun _ _ => ⟨[], by simp, rfl, by simp⟩⟩
  | cons k l ih =>
    obtain ⟨⟨net, integrity, h⟩, hlast, hlink, hqueue⟩ := s.sendSegment_facts k
    obtain ⟨⟨net', integrity', h'⟩, hlast', hqueue'⟩ := ih (s.sendSegment k)
    refine ⟨⟨net', integrity', ?_⟩, hlast'.trans hlast, fun hup hpow => ?_⟩
    · rw [List.foldl_cons, h', h]
    · obtain ⟨f, htx, hf⟩ := hqueue hup hpow
      obtain ⟨fs, htx', hlen, hfs⟩ := hqueue' ((hlink 0).trans hup) (by rw [h]; exact hpow)
      refine ⟨f :: fs, ?_, by simp [hlen], fun g hg => ?_⟩
      · rw [List.foldl_cons, htx', htx]
        simp
      · rcases List.mem_cons.1 hg with rfl | hg
        · exact hf
        · exact hfs g hg

theorem State.publishHealth_facts (s : State) : ∃ r,
    (∃ net integrity, s.publishHealth = { s with net := net, integrity := integrity, health := { s.health with
      recordNumber := wrap 32 (s.health.recordNumber + 1), snapshot := r } }) ∧
    s.publishHealth.net.lastHealth = s.net.lastHealth ∧
    (s.linkUp 0 = true → s.netPowered = true →
      ∃ fs, s.publishHealth.net.tx = s.net.tx ++ fs ∧ fs.length = 7 ∧ ∀ f ∈ fs, f.kind = .health) := by
  obtain ⟨r, hsnap, -⟩ := s.snapshotHealth_frame
  obtain ⟨⟨net, integrity, h⟩, hlast, hqueue⟩ := State.sendSegments_facts (List.range 7) s.snapshotHealth
  have hstep : s.publishHealth = (List.range 7).foldl State.sendSegment s.snapshotHealth := rfl
  refine ⟨r, ⟨net, integrity, ?_⟩, ?_, ?_⟩
  · rw [hstep, h, hsnap]
  · rw [hstep, hlast, hsnap]
  · rw [hstep]
    rw [hsnap] at hqueue ⊢
    exact hqueue

theorem healthPublish_early {s : State}
    (h : ¬ (s.power.running = true ∧ s.healthEnabled = true ∧ s.net.lastHealth + 1280000 * tcPeriod s.net.trdp ≤ s.clk.now)) :
    healthPublish s = s := by
  refine if_pos ?_
  rw [← State.since_iff] at h
  by_contra hall
  simp only [Bool.or_eq_true, Bool.not_eq_true', not_or, Bool.not_eq_false] at hall
  exact h ⟨hall.1.1, hall.1.2, hall.2⟩

theorem healthPublish_due {s : State}
    (h : s.power.running = true ∧ s.healthEnabled = true ∧ s.net.lastHealth + 1280000 * tcPeriod s.net.trdp ≤ s.clk.now) :
    ∃ t, exec .healthPublish s = .next t ∧ t.net.lastHealth = s.clk.now ∧
      t.health = { s.health with recordNumber := wrap 32 (s.health.recordNumber + 1), snapshot := t.health.snapshot } ∧
      (s.linkUp 0 = true → s.netPowered = true → ∃ fs, t.net.tx = s.net.tx ++ fs ∧ fs.length = 7 ∧ ∀ f ∈ fs, f.kind = .health) ∧
      t = { s with health := t.health, integrity := t.integrity, net := t.net } := by
  let u := s.onNet fun n => { n with lastHealth := s.now }
  obtain ⟨r, ⟨net, integrity, hpub⟩, hlast, hqueue⟩ := u.publishHealth_facts
  have hsince : s.since s.net.lastHealth (ms (tcPeriod s.net.trdp)) = true := State.since_iff.2 h.2.2
  have hstep : healthPublish s = u.publishHealth := if_neg (by rw [h.1, h.2.1, hsince]; simp)
  refine ⟨u.publishHealth, congrArg Host.Outcome.next hstep, hlast, ?_, hqueue, ?_⟩
  · rw [hpub]
    rfl
  · rw [hpub]
    rfl

/-! ### TILE_TEMP_READ -/

theorem tileTempRead_valid {n : Nat} {temp : Int} {ok : Bool} {s : State} (hok : ok = true) (hlo : -4500 ≤ temp) (hhi : temp ≤ 13500) :
    tileTempRead n temp ok s = { s with fabric := { s.fabric with
      tileTemp := s.fabric.tileTemp.set n (some temp), tileTempValid := s.fabric.tileTempValid.set n true } } := by
  have hvalid : (ok && decide (-4500 ≤ temp) && decide (temp ≤ 13500)) = true := by simp [hok, hlo, hhi]
  unfold tileTempRead
  rw [hvalid]
  rfl

theorem tileTempRead_invalid {n : Nat} {temp : Int} {ok : Bool} {s : State} (h : ok = false ∨ temp < -4500 ∨ 13500 < temp) :
    tileTempRead n temp ok s = { s with fabric := { s.fabric with tileTempValid := s.fabric.tileTempValid.set n false } } := by
  have hvalid : (ok && decide (-4500 ≤ temp) && decide (temp ≤ 13500)) = false := by
    rcases h with h | h | h
    · simp [h]
    · simp [Int.not_le.2 h]
    · simp [Int.not_le.2 h]
  unfold tileTempRead
  rw [hvalid]
  rfl

/-! ### The margins -/

theorem headroomOf_falls (old m : Nat) : old ≤ headroomOf old m + 8 := by
  have hwant (want : Nat) : old ≤ (if want < old then max want (old - 8) else want) + 8 := by
    split <;> omega
  exact hwant _

theorem clampInt_near {lo hi old want d : Int} (hlo : lo ≤ old) (hhi : old ≤ hi) (hd : 0 ≤ d) :
    (clampInt lo hi (clampInt (old - d) (old + d) want) - old).natAbs ≤ d.natAbs := by
  unfold clampInt
  split_ifs <;> omega

theorem ovTrimOf_near {vov gMed : Nat} {old : Int} (h : old.natAbs ≤ 50) : (ovTrimOf vov old gMed - old).natAbs ≤ 5 :=
  clampInt_near (by omega) (by omega) (by omega)

theorem thrOffsetOf_near {base g vov : Nat} {ovOld ovNew old : Int} (h : old.natAbs ≤ 16) :
    (thrOffsetOf base g vov ovOld ovNew old - old).natAbs ≤ 4 :=
  clampInt_near (by omega) (by omega) (by omega)

theorem State.newThrOffsets_near {ovNew : Int} {s : State} (h : ∀ k, (s.health.thrOffset.getD k 0).natAbs ≤ 16) (k : Nat) :
    ((s.newThrOffsets ovNew).getD k 0 - s.health.thrOffset.getD k 0).natAbs ≤ 4 := by
  have hk := h k
  unfold State.newThrOffsets
  simp only [List.getD_eq_getElem?_getD, List.getElem?_map, List.getElem?_zipIdx] at hk ⊢
  cases hget : s.health.thrOffset[k]? with
  | none => simp
  | some old =>
    rw [hget] at hk
    simp only [Option.map_some, Option.getD_some]
    split
    · exact thrOffsetOf_near hk
    · simp

theorem effs_empty_iff {l : List EffMonitor} : (l.filterMap EffMonitor.value).isEmpty = true ↔ ∀ m ∈ l, m.value = none := by
  simp [List.isEmpty_iff, List.filterMap_eq_nil_iff]

/-- HEADROOM as a re-plan takes it. -/
def newHeadroom (eff : List EffMonitor) (old : Nat) : Nat :=
  let effs := eff.filterMap EffMonitor.value
  if effs.isEmpty then (if eff.any EffMonitor.startsNow then 0 else old) else headroomOf old (effs.foldl max 0)

theorem newHeadroom_falls {eff : List EffMonitor} {old : Nat}
    (h : (∃ m ∈ eff, m.value ≠ none) ∨ (∀ m ∈ eff, m.ratio = none ∨ m.baseline ≠ none)) : old ≤ newHeadroom eff old + 8 := by
  unfold newHeadroom
  dsimp only
  split
  · next hempty =>
    rw [effs_empty_iff] at hempty
    rcases h with ⟨m, hm, hv⟩ | h
    · exact absurd (hempty m hm) hv
    · have hnone : eff.any EffMonitor.startsNow = false := by
        refine List.any_eq_false.2 fun m hm => ?_
        rcases h m hm with hr | hb
        · simp [EffMonitor.startsNow, hr]
        · simp [EffMonitor.startsNow, hb]
      rw [hnone]
      simp
  · exact headroomOf_falls ..

theorem newHeadroom_baseline {eff : List EffMonitor} {old : Nat} (h : ∀ m ∈ eff, m.value = none)
    (hstart : ∃ m ∈ eff, m.ratio ≠ none ∧ m.baseline = none) : newHeadroom eff old = 0 := by
  obtain ⟨m, hm, hr, hb⟩ := hstart
  have hany : eff.any EffMonitor.startsNow = true :=
    List.any_eq_true.2 ⟨m, hm, by simp [EffMonitor.startsNow, hb, Option.isSome_iff_ne_none, hr]⟩
  unfold newHeadroom
  dsimp only
  rw [if_pos (effs_empty_iff.2 h), if_pos hany]

/-- OV_TRIM as a re-plan takes it. -/
def State.newOvTrim (s : State) : Int :=
  let gs := s.health.sipm.filterMap SipmMonitor.value
  if gs.isEmpty then s.health.ovTrim else ovTrimOf (u16 s.returns.bias.image 8) s.health.ovTrim (if gs.isEmpty then 0 else listMedian gs)

theorem State.newOvTrim_near {s : State} (h : s.health.ovTrim.natAbs ≤ 50) : (s.newOvTrim - s.health.ovTrim).natAbs ≤ 5 := by
  unfold State.newOvTrim
  dsimp only
  split
  · simp
  · exact ovTrimOf_near h

/-- What of the health state a re-plan settles. -/
structure Margins where
  ovTrim : Int
  thrOffset : List Int
  replanCount : Nat
  replanTime : Nat
  lastReplan : Option Nat
  monitorValid : Nat

def Health.margins (h : Health) : Margins := ⟨h.ovTrim, h.thrOffset, h.replanCount, h.replanTime, h.lastReplan, h.monitorValid⟩

theorem Health.of_margins {h : Health} {ov : Int} {thr : List Int} {count time valid : Nat} {last : Option Nat}
    (e : h.margins = ⟨ov, thr, count, time, last, valid⟩) : h.ovTrim = ov ∧ h.thrOffset = thr ∧ h.replanCount = count ∧
      h.replanTime = time ∧ h.lastReplan = last ∧ h.monitorValid = valid := by
  cases e
  exact ⟨rfl, rfl, rfl, rfl, rfl, rfl⟩

theorem State.applyMargins_facts (s : State) :
    (∃ health, s.applyMargins = { s with health := health, emission := { s.emission with
      headroom := newHeadroom s.health.eff s.emission.headroom } }) ∧
    s.applyMargins.health.margins =
      ⟨s.newOvTrim, s.newThrOffsets s.newOvTrim, satInc 32 s.health.replanCount, s.stamp, some s.now, s.monitorsValid⟩ := by
  exact ⟨⟨_, rfl⟩, rfl⟩

/-- After the margins: what a re-plan goes on to move. -/
def MarginsKept (s t : State) : Prop :=
  (∃ fes emitters health sched net integrity, t = { s with
    clk := { s.clk with fes := fes }, emission := { s.emission with emitters := emitters }, health := health, sched := sched
    net := net, integrity := integrity }) ∧ t.health.margins = s.health.margins

theorem MarginsKept.refl (s : State) :
    MarginsKept s s := ⟨⟨s.clk.fes, s.emission.emitters, s.health, s.sched, s.net, s.integrity, rfl⟩, rfl⟩
theorem MarginsKept.trans {s t u : State} (h : MarginsKept s t) (k : MarginsKept t u) : MarginsKept s u := by
  obtain ⟨⟨fes, emitters, health, sched, net, integrity, rfl⟩, hm⟩ := h
  obtain ⟨⟨fes', emitters', health', sched', net', integrity', rfl⟩, hm'⟩ := k
  exact ⟨⟨fes', emitters', health', sched', net', integrity', rfl⟩, hm'.trans hm⟩

theorem MarginsKept.of_health (f : Health → Health) (hf : ∀ h, (f h).margins = h.margins) (s : State) :
    MarginsKept s (s.onHealth f) :=
  ⟨⟨s.clk.fes, s.emission.emitters, f s.health, s.sched, s.net, s.integrity, rfl⟩, hf s.health⟩

theorem State.takeDnl_kept (f : Nat) (s : State) : MarginsKept s (s.takeDnl f) := by
  unfold State.takeDnl
  split
  · exact ⟨⟨_, s.emission.emitters, _, s.sched, s.net, s.integrity, rfl⟩, rfl⟩
  · exact .refl s

theorem State.takeDnls_kept (l : List Nat) (s : State) : MarginsKept s (l.foldl (fun s f => s.takeDnl f) s) := by
  induction l generalizing s with
  | nil => exact .refl s
  | cons f l ih => exact (s.takeDnl_kept f).trans (ih _)

theorem State.applyDnl_kept (s : State) : MarginsKept s s.applyDnl := by
  unfold State.applyDnl
  dsimp only
  exact .trans (.of_health _ (fun _ => rfl) s) (State.takeDnls_kept ..)

theorem State.restartMonitors_kept (s : State) : MarginsKept s s.restartMonitors :=
  ⟨⟨s.clk.fes, s.emission.emitters, _, s.sched, s.net, s.integrity, rfl⟩, rfl⟩

theorem State.onEmitters_kept (f : Nat → State → Emitter → Emitter) (l : List Nat) (s : State) :
    MarginsKept s (l.foldl (fun s e => s.onEmitter e (f e s)) s) := by
  induction l generalizing s with
  | nil => exact .refl s
  | cons e l ih => exact .trans ⟨⟨s.clk.fes, _, s.health, s.sched, s.net, s.integrity, rfl⟩, rfl⟩ (ih _)

/-- A slot with its charge and state anew. -/
def State.slotAnew (e : Nat) (s : State) (k : Slot) : Slot :=
  match k.st with
  | .empty => k
  | .eccFailed => { k with charge := slotCharge s.emission.table e k.samples k.range2 }
  | _ =>
    let q := slotCharge s.emission.table e k.samples k.range2
    { k with charge := q, st := s.slotStateFor e q }

theorem State.refreshSlots_kept (s : State) : MarginsKept s s.refreshSlots :=
  s.onEmitters_kept (fun e s x => { x with slots := x.slots.map (s.slotAnew e) }) _

theorem State.refreshPlan_kept (s : State) : MarginsKept s s.refreshPlan :=
  ⟨⟨s.clk.fes, s.emission.emitters, s.health, _, s.net, s.integrity, rfl⟩, rfl⟩

theorem State.deviceStore_kept (id : Nat) (s : State) : MarginsKept s (s.deviceStore id) := by
  obtain ⟨q, h⟩ := s.request_frame (Activity.store 0x09 id 1 none [])
  have hstep : s.deviceStore id = _ := h
  rw [hstep]
  exact .of_health (fun k => { k with queue := q }) (fun _ => rfl) s

theorem State.publishHealth_kept (s : State) : MarginsKept s s.publishHealth := by
  obtain ⟨r, ⟨net, integrity, h⟩, -⟩ := s.publishHealth_facts
  rw [h]
  exact ⟨⟨s.clk.fes, s.emission.emitters, _, s.sched, net, integrity, rfl⟩, rfl⟩

theorem MarginsKept.ite {s t u : State} {c : Prop} [Decidable c] (h : MarginsKept s t) (k : MarginsKept s u) :
    MarginsKept s (if c then t else u) := by
  split
  · exact h
  · exact k

/-- The state in which a re-plan takes its margins. -/
def State.atPace (s : State) : State := s.settleAll.measurePace.deliverPace

theorem State.atPace_facts (s : State) : ∃ rows emitters tiles pace, s.atPace = { s with
    emission := { s.emission with rows := rows, emitters := emitters }
    free := s.free + 1
    power := { s.power with tiles := tiles }
    sched := { s.sched with devicePace := pace }
    health := { s.health with devicePace := pace } } := by
  obtain ⟨rows, emitters, h⟩ := s.settleAll_charged
  rw [State.atPace, State.deliverPace_frame, h]
  exact ⟨rows, emitters, _, _, rfl⟩

theorem State.replan_kept (s : State) : MarginsKept s.atPace.applyMargins s.replan := by
  let a := s.atPace.applyMargins
  have hb : MarginsKept a ((a.applyDnl.restartMonitors.refreshSlots.refreshPlan).deviceStore 0x28) :=
    (((a.applyDnl_kept.trans (State.restartMonitors_kept _)).trans (State.refreshSlots_kept _)).trans (State.refreshPlan_kept _)).trans
      (State.deviceStore_kept ..)
  have hc : MarginsKept a (if s.health.dnl.any DnlMonitor.isValid = true
      then ((a.applyDnl.restartMonitors.refreshSlots.refreshPlan).deviceStore 0x28).deviceStore recTimebase
      else (a.applyDnl.restartMonitors.refreshSlots.refreshPlan).deviceStore 0x28) :=
    .ite (hb.trans (State.deviceStore_kept ..)) hb
  unfold State.replan
  dsimp only
  exact .ite (hc.trans (State.publishHealth_kept _)) hc

/-- What a re-plan keeps of the state it found, and how far it moves the margins (the clause of O54). -/
def Replanned (s t : State) : Prop :=
  t.health.replanCount = satInc 32 s.health.replanCount ∧ t.health.replanTime = s.stamp ∧
  t.health.lastReplan = some s.clk.now ∧ t.health.monitorValid = s.monitorsValid ∧
  ((∃ m ∈ s.health.eff, m.value ≠ none) ∨ (∀ m ∈ s.health.eff, m.ratio = none ∨ m.baseline ≠ none) →
    s.emission.headroom ≤ t.emission.headroom + 8) ∧
  ((∀ m ∈ s.health.eff, m.value = none) → (∃ m ∈ s.health.eff, m.ratio ≠ none ∧ m.baseline = none) → t.emission.headroom = 0) ∧
  (t.health.ovTrim - s.health.ovTrim).natAbs ≤ 5 ∧
  (∀ k, (t.health.thrOffset.getD k 0 - s.health.thrOffset.getD k 0).natAbs ≤ 4) ∧
  t = { s with clk := t.clk, emission := t.emission, free := t.free, health := t.health, host := t.host, integrity := t.integrity,
               net := t.net, power := { s.power with tiles := t.power.tiles }, sched := t.sched }

/-- Neither the pace nor the charges reach what the monitors show. -/
theorem State.monitorsValid_atPace (s : State) : s.atPace.monitorsValid = s.monitorsValid := by
  obtain ⟨rows, emitters, tiles, pace, h⟩ := s.atPace_facts
  have hlen : s.atPace.paceHistory.length = s.paceHistory.length := by
    rw [h]
    simp [State.paceHistory]
  unfold State.monitorsValid
  dsimp only
  rw [hlen, h]
  rfl

theorem State.replan_facts {s : State} (hov : s.health.ovTrim.natAbs ≤ 50) (hthr : ∀ k, (s.health.thrOffset.getD k 0).natAbs ≤ 16) :
    Replanned s s.replan ∧ s.replan.host = s.host ∧ s.replan.stamp = s.stamp ∧ s.replan.sets = s.sets := by
  obtain ⟨rows, emitters, tiles, pace, hp⟩ := s.atPace_facts
  obtain ⟨⟨health, ha⟩, hm⟩ := s.atPace.applyMargins_facts
  obtain ⟨⟨fes, emitters', health', sched, net, integrity, hr⟩, hmargins⟩ := s.replan_kept
  obtain ⟨hovt, hthrt, hrcount, hrtime, hrlast, hrvalid⟩ := Health.of_margins (hmargins.trans hm)
  generalize s.replan = t at hr hovt hthrt hrcount hrtime hrlast hrvalid ⊢
  generalize s.atPace.applyMargins = a at ha hr
  have hheadroom : t.emission.headroom = newHeadroom s.health.eff s.emission.headroom := by
    rw [hr, ha, hp]
  have hov' : s.atPace.health.ovTrim = s.health.ovTrim := by rw [hp]
  have hthr' : s.atPace.health.thrOffset = s.health.thrOffset := by rw [hp]
  have hstamp : s.atPace.stamp = s.stamp := by
    rw [hp]
    rfl
  have hnow : s.atPace.now = s.now := by
    rw [hp]
    rfl
  have hcount : s.atPace.health.replanCount = s.health.replanCount := by rw [hp]
  have hovnear := State.newOvTrim_near (s := s.atPace) (by rw [hov']; exact hov)
  have hthrnear := State.newThrOffsets_near (s := s.atPace) (ovNew := s.atPace.newOvTrim) (by rw [hthr']; exact hthr)
  rw [hov'] at hovnear
  rw [hthr'] at hthrnear
  have hframe : t = { s with
      clk := t.clk, emission := t.emission, free := t.free, health := t.health, integrity := t.integrity
      net := t.net, power := { s.power with tiles := t.power.tiles }, sched := t.sched } := by
    rw [hr, ha, hp]
  refine ⟨⟨?_, ?_, ?_, ?_, fun h => ?_, fun h h' => ?_, ?_, fun k => ?_, ?_⟩, ?_, ?_, ?_⟩
  · exact hrcount.trans (congrArg (satInc 32) hcount)
  · exact hrtime.trans hstamp
  · exact hrlast.trans (congrArg some hnow)
  · exact hrvalid.trans s.monitorsValid_atPace
  · rw [hheadroom]
    exact newHeadroom_falls h
  · rw [hheadroom]
    exact newHeadroom_baseline h h'
  · rw [hovt]
    exact hovnear
  · rw [hthrt]
    exact hthrnear k
  · rw [hframe]
  · rw [hframe]
  · rw [hr, ha, hp]
    rfl
  · rw [hframe]

theorem replanPeriodic_not {s : State} (h : s.power.running = false ∨ s.power.phase ≠ .ready ∨ s.replanDue = false) :
    replanPeriodic s = s := by
  refine if_neg ?_
  rcases h with h | h | h <;> simp [h]

/-- Settles O54: each status opcode by its own effect; a re-plan by what follows its margins, which all keep them. -/
theorem healthIsReportedAndReplanned : Obligations.HealthIsReportedAndReplanned := by
  unfold Obligations.HealthIsReportedAndReplanned
  refine ⟨fun c s => timebaseStatus_row, fun c s => arbiterStatus_row, fun c s => fabricStatus_row, fun c s => healthRead_row,
    fun c s => healthConfig_row, fun s => ⟨fun h => congrArg Host.Outcome.next (healthPublish_early h), healthPublish_due⟩,
    fun n temp ok s => ⟨fun hok hlo hhi => congrArg Host.Outcome.next (tileTempRead_valid hok hlo hhi),
      fun h => congrArg Host.Outcome.next (tileTempRead_invalid h)⟩,
    fun s h => congrArg Host.Outcome.next (replanPeriodic_not h), fun c s hov hthr => ⟨fun hrun hready hdue => ?_, fun h => ?_⟩⟩
  · obtain ⟨hkept, hhost, -⟩ := State.replan_facts hov hthr
    have hstep : replanPeriodic s = s.replan := if_pos (by simp [hrun, hready, hdue])
    exact ⟨s.replan, congrArg Host.Outcome.next hstep, hkept, hhost⟩
  · obtain ⟨j, hsilent, hrun⟩ := State.run_from h
    let u := s.withJournal j
    obtain ⟨hkept, hhost, hstamp, hsets⟩ := State.replan_facts (s := u) hov hthr
    obtain ⟨hcount, htime, hlast, hvalid, hfall, hbase, hovt, hthrt, hframe⟩ := hkept
    have hdone := u.replan.done_frame 0x0A07 c u.replan.health.monitorValid
    have hfin : Finished 0x0A07 c (s.block 0 0 u.replan.health.monitorValid) [] s (u.replan.done 0x0A07 c u.replan.health.monitorValid) :=
      State.finish_from (hsilent.trans (Silent.of_host hhost)) hsets hstamp
    have hstep : exec (.replan c) s = .next (u.replan.done 0x0A07 c u.replan.health.monitorValid) :=
      congrArg Host.Outcome.next (hrun (replanEffect c))
    rw [hvalid] at hfin hdone hstep
    refine ⟨_, hstep, ?_, hfin⟩
    generalize u.replan.done 0x0A07 c u.monitorsValid = t at hdone
    rw [hdone]
    refine ⟨hcount, htime, hlast, hvalid, hfall, hbase, hovt, hthrt, ?_⟩
    rw [hframe]
    rfl

end Sys2Proof.Machine

/-!
## The filter engine's outputs (R126 to R132)
-/
namespace Sys2Proof.Machine

/-! ### What stands of the angle part when an inhibit cause registers -/

@[simp] theorem angle_ite (p : Prop) [Decidable p] (s t : State) :
    (if p then s else t).angle = if p then s.angle else t.angle := apply_ite State.angle p s t

@[simp] theorem angle_foldl {α : Type} (f : State → α → State) (l : List α) (s : State)
    (h : ∀ t a, (f t a).angle = t.angle) : (l.foldl f s).angle = s.angle := by
  induction l generalizing s with
  | nil => rfl
  | cons a l ih => exact (ih _).trans (h s a)

theorem State.angle_of_beside {s t : State} (h : t.beside = s.beside) : t.angle = s.angle := (congrArg State.angle h :)

@[simp] theorem State.breakSweep_beside (unseen : Nat → List Byte → Bool) (s : State) :
    (s.breakSweep unseen).beside = s.beside := by simp [State.breakSweep]
@[simp] theorem State.loseSweep_beside (s : State) : s.loseSweep.beside = s.beside := by simp [State.loseSweep]
@[simp] theorem State.endGroup_beside (ch : Nat) (s : State) (h : Hist) : (s.endGroup ch h).beside = s.beside := by
  simp [State.endGroup]
@[simp] theorem State.endGroups_beside (s : State) : s.endGroups.beside = s.beside := by
  simp [State.endGroups, State.endGroupsIf]
@[simp] theorem State.abandonWindows_angle (s : State) : s.abandonWindows.angle = s.angle :=
  State.angle_of_beside (State.abandonWindows_beside s)
@[simp] theorem State.closeCell_angle (m : Nat) (s : State) (c : OpenCell) : (s.closeCell m c).angle = s.angle :=
  State.angle_of_beside (State.closeCell_beside m s c)
@[simp] theorem State.endGroups_angle (s : State) :
    s.endGroups.angle = s.angle := State.angle_of_beside (State.endGroups_beside s)
@[simp] theorem State.loseSweep_angle (s : State) :
    s.loseSweep.angle = s.angle := State.angle_of_beside (State.loseSweep_beside s)
@[simp] theorem State.parkGalvo_angle (s : State) : s.parkGalvo.angle = s.angle := by rfl
@[simp] theorem State.charge_angle (e de : Nat) (s : State) : (s.charge e de).angle = s.angle := by rfl
@[simp] theorem State.unreserve_angle (e q : Nat) (s : State) : (s.unreserve e q).angle = s.angle := by rfl
@[simp] theorem State.settle_angle (e : Nat) (s : State) : (s.settle e).angle = s.angle := by
  simp only [State.settle]; split <;> simp
@[simp] theorem State.parkOutput_angle (e : Nat) (s : State) : (s.parkOutput e).angle = s.angle := by
  simp only [State.parkOutput]; split <;> simp
@[simp] theorem State.endDirect_angle (e st det : Nat) (s : State) : (s.endDirect e st det).angle = s.angle := by
  unfold State.endDirect; split <;> simp
@[simp] theorem State.abandonFade_angle (e det : Nat) (running : Bool) (s : State) :
    (s.abandonFade e det running).angle = s.angle := by unfold State.abandonFade; split <;> simp
@[simp] theorem State.parkAll_angle (s : State) : s.parkAll.angle = s.angle := by simp [State.parkAll]
@[simp] theorem State.releaseDescriptor_angle (s : State) (d : Descriptor) : (s.releaseDescriptor d).angle = s.angle := by
  simp [State.releaseDescriptor]
@[simp] theorem State.inhibitNow_angle (cause : Nat) (s : State) : (s.inhibitNow cause).angle = s.angle := by
  simp [State.inhibitNow]
@[simp] theorem State.registerCause_angle (cause : Nat) (s : State) : (s.registerCause cause).angle = s.angle := by
  simp [State.registerCause]
@[simp] theorem State.registerSource_angle (src : Nat) (s : State) : (s.registerSource src).angle = s.angle := by
  simp [State.registerSource]
@[simp] theorem State.injectLost_angle (n : Nat) (c : Cmd) (played : Nat) (s : State) :
    (s.injectLost n c played).angle = s.angle := by simp [State.injectLost]
@[simp] theorem State.breakInject_angle (n : Nat) (s : State) : (s.breakInject n).angle = s.angle := by
  unfold State.breakInject; split <;> simp
@[simp] theorem State.cameoTrigger_angle (n trig : Nat) (s : State) : (s.cameoTrigger n trig).angle = s.angle := by
  simp [State.cameoTrigger]
@[simp] theorem State.galvoActs_angle (s : State) : s.galvoActs.angle = s.angle := by simp [State.galvoActs]
@[simp] theorem State.latch_angle (n cls action : Nat) (s : State) : (s.latch n cls action).angle = s.angle := by
  simp [State.latch]
@[simp] theorem State.countFault_angle (n : Nat) (s : State) : (s.countFault n).angle = s.angle := by rfl
@[simp] theorem State.raiseFault_angle (n cls : Nat) (s : State) : (s.raiseFault n cls).angle = s.angle := by
  simp [State.raiseFault]
@[simp] theorem State.spindleLost_angle (s : State) : s.spindleLost.angle = s.angle := by simp [State.spindleLost]

/-- Losing the angle leaves the filter slots. -/
@[simp] theorem State.loseLock_slots (cause : Nat) (s : State) : (s.loseLock cause).angle.slots = s.angle.slots := by
  unfold State.loseLock State.angleGone
  simp only [State.spindleLost_angle]
  unfold State.discardLearn
  split <;> simp [State.encFreeze]

/-! ### Taking a slot's output -/

theorem State.fslot_onFslot_same {n : Nat} {f : FilterSlot → FilterSlot} {s : State} (hn : n < s.angle.slots.length) :
    (s.onFslot n f).fslot n = f (s.fslot n) := by
  simp [State.onFslot, State.fslot, List.getD_eq_getElem?_getD, List.getElem?_eq_getElem hn]

theorem State.fslot_onFslot_ne {n k : Nat} {f : FilterSlot → FilterSlot} {s : State} (h : k ≠ n) :
    (s.onFslot n f).fslot k = s.fslot k := by
  simp [State.onFslot, State.fslot, List.getD_eq_getElem?_getD, Ne.symm h]

theorem State.fslot_of_slots {s t : State} (h : t.angle.slots = s.angle.slots) (k : Nat) : t.fslot k = s.fslot k :=
  congrArg (fun l => l.getD k FilterSlot.reset) h

theorem State.noteSat_frame (sat : Bool) (s : State) : s.noteSat sat = { s with angle := (s.noteSat sat).angle } ∧
    (s.noteSat sat).angle.slots = s.angle.slots ∧ (s.noteSat sat).angle.lock = s.angle.lock := by
  unfold State.noteSat
  split <;> exact ⟨rfl, rfl, rfl⟩

theorem State.slots_ite {p : Prop} [Decidable p] {s t : State} {l : List FilterSlot} (hs : s.angle.slots = l)
    (ht : t.angle.slots = l) : (if p then s else t).angle.slots = l := by
  split
  · exact hs
  · exact ht

theorem State.checkExc_slots (s : State) : s.checkExc.angle.slots = s.angle.slots :=
  State.slots_ite rfl (State.slots_ite (State.loseLock_slots ..) rfl)

/-- A marked output of slot 2 is not judged. -/
theorem State.checkExc_marked {s : State} (h : (s.fslot 2).mark = true) : s.checkExc = s := by simp [State.checkExc, h]

/-- A command that a reset has kept waiting is answered or asks for its store. -/
theorem State.endReset_frame (s : State) (x : Nat × Cmd × Nat × Bool) :
    s.endReset x = { s with health := (s.endReset x).health, host := (s.endReset x).host, nvm := (s.endReset x).nvm } := by
  simp only [State.endReset]
  split
  · obtain ⟨q, w, h⟩ := State.storeAfter_frame x.1 recAngle x.2.1
      { s.block (if x.2.2.2 then stFaultAngle else stOk) (if x.2.2.2 then 4 else 0) 0 with stamp := x.2.2.1 } s
    rw [h]
  · rw [State.finishWith_frame]

theorem State.endResets_frame (l : List (Nat × Cmd × Nat × Bool)) (s : State) : ∃ health host nvm,
    l.foldl State.endReset s = { s with health := health, host := host, nvm := nvm } := by
  induction l generalizing s with
  | nil => exact ⟨_, _, _, rfl⟩
  | cons x l ih =>
    obtain ⟨health, host, nvm, h⟩ := ih (s.endReset x)
    exact ⟨health, host, nvm, h.trans (by rw [s.endReset_frame x])⟩

theorem State.settleReset_frame (s : State) :
    s.settleReset = { s with
      angle := s.settleReset.angle, health := s.settleReset.health, host := s.settleReset.host, nvm := s.settleReset.nvm } ∧
    s.settleReset.angle.slots = s.angle.slots ∧ s.settleReset.angle.lock = s.angle.lock := by
  simp only [State.settleReset]
  split
  · exact ⟨rfl, rfl, rfl⟩
  · obtain ⟨health, host, nvm, h⟩ := State.endResets_frame s.angle.resetCmds s
    rw [h]
    exact ⟨rfl, rfl, rfl⟩

/-- A carrier slot with its new output (R127, R131). -/
def FilterSlot.took (f g : FilterSlot) (sat locked turning : Bool) (at_ : Nat) (p : List Byte) : FilterSlot :=
  { g with index := at_, unsettled := if locked then f.unsettled - 1 else settleCount p,
           mark := f.unsettled != 0 || sat || !locked, fresh := true,
           stuck := if turning && decide ((g.out - f.out).natAbs ≤ acStuckDelta p) then f.stuck + 1 else 0 }

/-- A slot takes its output; the others stand, and beside the slots only what a loss of slot 2 or the end of a reset moves. -/
theorem State.takeOutput_facts {slot : Nat} (g : FilterSlot) (sat : Bool) (at_ : Nat) {s : State}
    (hlen : slot < s.angle.slots.length) :
    (s.takeOutput slot g sat at_).fslot slot =
      (s.fslot slot).took g sat s.clk.pllLocked (decide (2 ^ 31 ≤ s.angle.speed.natAbs)) at_ s.angle.config ∧
    (∀ k, k ≠ slot → (s.takeOutput slot g sat at_).fslot k = s.fslot k) ∧
    (slot ≠ 2 → (s.takeOutput slot g sat at_).angle.lock = s.angle.lock ∧ s.takeOutput slot g sat at_ = { s with
      angle := (s.takeOutput slot g sat at_).angle, health := (s.takeOutput slot g sat at_).health
      host := (s.takeOutput slot g sat at_).host, nvm := (s.takeOutput slot g sat at_).nvm }) := by
  let turning := decide (2 ^ 31 ≤ s.angle.speed.natAbs)
  let u := s.onFslot slot fun f => f.took g sat s.clk.pllLocked turning at_ s.angle.config
  have hdef : s.takeOutput slot g sat at_ =
    (if slot = 2 then (u.noteSat sat).checkExc else u.noteSat sat).settleReset := rfl
  obtain ⟨hsat, hsatSlots, hsatLock⟩ := u.noteSat_frame sat
  have hslots : (s.takeOutput slot g sat at_).angle.slots = u.angle.slots := by
    rw [hdef, (State.settleReset_frame _).2.1]
    split
    · rw [State.checkExc_slots, hsatSlots]
    · exact hsatSlots
  refine ⟨(State.fslot_of_slots hslots slot).trans (State.fslot_onFslot_same hlen),
    fun k hk => (State.fslot_of_slots hslots k).trans (State.fslot_onFslot_ne hk), fun hslot => ?_⟩
  rw [hdef, if_neg hslot]
  obtain ⟨hreset, -, hresetLock⟩ := (u.noteSat sat).settleReset_frame
  refine ⟨hresetLock.trans hsatLock, ?_⟩
  generalize (u.noteSat sat).settleReset = t at hreset
  rw [hreset, hsat]
  rfl

theorem FilterSlot.demodulate_out (p : List Byte) (adj start t : Nat) (held : Bool) (bs : List Bool) (f : FilterSlot) :
    -8388608 ≤ (f.demodulate p adj start t held bs).1.out ∧ (f.demodulate p adj start t held bs).1.out ≤ 8388607 := by
  simp only [FilterSlot.demodulate, demodOut, clamp24, clampInt]
  omega

/-! ### The obligation -/

theorem filterOutput_refuses {slot n : Nat} {bs : List Bool} {test : Bool} {s : State} (h : 3 ≤ slot ∨ s.filterRuns = false ∨
    bs.length ≠ stepSamples s.angle.config ∨ test ≠ s.onTestSource ∨ s.dueOutput slot ≠ some n) :
    filterOutput slot bs test n s = s := by
  refine if_pos ?_
  rcases h with h | h | h | h | h <;> simp [h]

theorem filterOutput_takes {slot n : Nat} {bs : List Bool} {s : State} (hslot : slot < 3) (hruns : s.filterRuns = true)
    (hbs : bs.length = stepSamples s.angle.config) (hdue : s.dueOutput slot = some n) :
    filterOutput slot bs s.onTestSource n s =
      s.takeOutput slot ((s.fslot slot).demodulate s.angle.config s.angle.phaseAdj s.angle.excStart n s.dcHeld bs).1
        ((s.fslot slot).demodulate s.angle.config s.angle.phaseAdj s.angle.excStart n s.dcHeld bs).2 n :=
  if_neg (by simp [hslot, hruns, hbs, hdue])

/-- A galvo slot with its new average (R132). -/
def FilterSlot.tookAverage (g : FilterSlot × Bool) (t : Nat) (f : FilterSlot) : FilterSlot :=
  { g.1 with index := t, unsettled := f.unsettled - 1, mark := f.unsettled != 0 || g.2 }

theorem State.galvoEnd_strobe {s : State} {e : Nat} (h : s.galvoEnd = some e) : (e + 1024000) % 2048000 = 0 := by
  simp only [State.galvoEnd] at h
  split at h
  · exact absurd h (by simp)
  · obtain rfl := Option.some.inj h
    omega

theorem galvoFilterOutput_refuses {a b : List Bool} {test : Bool} {s : State} (h : s.filterRuns = false ∨
    s.clk.pllLocked = false ∨ a.length ≠ 512 ∨ b.length ≠ 512 ∨ test ≠ s.onTestSource) : galvoFilterOutput a b test s = s := by
  refine if_pos ?_
  rcases h with h | h | h | h | h <;> simp [h]

theorem galvoFilterOutput_waits {a b : List Bool} {test : Bool} {s : State} {e : Nat} (he : s.galvoEnd = some e)
    (h : e ≤ (s.fslot 3).index) : galvoFilterOutput a b test s = s := by
  simp [galvoFilterOutput, he, h]

theorem galvoFilterOutput_takes {a b : List Bool} {s : State} {e : Nat} (hruns : s.filterRuns = true)
    (hlock : s.clk.pllLocked = true) (ha : a.length = 512) (hb : b.length = 512) (he : s.galvoEnd = some e)
    (h : (s.fslot 3).index < e) : galvoFilterOutput a b s.onTestSource s =
      (((((s.onFslot 3 (FilterSlot.tookAverage ((s.fslot 3).average a) e)).onFslot 4
        (FilterSlot.tookAverage ((s.fslot 4).average b) (e + 64000))).onMotion fun m =>
          { m with gpa := ((s.fslot 3).average a).1.out, gpb := ((s.fslot 4).average b).1.out }).noteSat
            ((s.fslot 3).average a).2).noteSat ((s.fslot 4).average b).2) := by
  simp [galvoFilterOutput, hruns, hlock, ha, hb, he, Nat.not_le.mpr h]
  rfl

/-- Settles O25, slot by slot through what `takeOutput` writes and what its checks leave. -/
theorem filterDeliversItsOutputs : Obligations.FilterDeliversItsOutputs := by
  refine ⟨fun slot n bs test s h => ?_, fun slot bs s hslot hlen hruns hlock hbs => ?_,
    fun slot e bs s hslot hlen hruns hlock hbs hend => ⟨fun n test h => ?_, fun hlt => ?_⟩,
    fun a b s => ⟨fun test h => congrArg Host.Outcome.next (galvoFilterOutput_refuses h),
      fun e hruns hlock ha hb he => ⟨State.galvoEnd_strobe he,
        fun hle test => congrArg Host.Outcome.next (galvoFilterOutput_waits he hle), fun hlt => ?_⟩⟩⟩
  · refine congrArg Host.Outcome.next (filterOutput_refuses ?_)
    tauto
  · have hdue : s.dueOutput slot = some (s.fslot slot).index := by simp [State.dueOutput, hlock]
    refine ⟨_, congrArg Host.Outcome.next (filterOutput_takes hslot hruns hbs hdue), ?_⟩
    obtain ⟨hsame, -, -⟩ := State.takeOutput_facts
      ((s.fslot slot).demodulate s.angle.config s.angle.phaseAdj s.angle.excStart (s.fslot slot).index s.dcHeld bs).1
      ((s.fslot slot).demodulate s.angle.config s.angle.phaseAdj s.angle.excStart (s.fslot slot).index s.dcHeld bs).2
      (s.fslot slot).index hlen
    rw [hsame, hlock]
    exact ⟨by simp [FilterSlot.took], rfl, rfl⟩
  · refine congrArg Host.Outcome.next (filterOutput_refuses (.inr (.inr (.inr (.inr ?_)))))
    simp only [State.dueOutput, hlock, hend, Option.filter]
    rcases h with h | h
    · simp [Nat.not_lt.mpr h]
    · split <;> simp_all
      exact fun _ => Ne.symm h
  · have hdue : s.dueOutput slot = some e := by simp [State.dueOutput, hlock, hend, Option.filter, hlt]
    refine ⟨_, congrArg Host.Outcome.next (filterOutput_takes hslot hruns hbs hdue), ?_⟩
    obtain ⟨hsame, hne, hframe⟩ := State.takeOutput_facts
      ((s.fslot slot).demodulate s.angle.config s.angle.phaseAdj s.angle.excStart e s.dcHeld bs).1
      ((s.fslot slot).demodulate s.angle.config s.angle.phaseAdj s.angle.excStart e s.dcHeld bs).2 e hlen
    obtain ⟨hlo, hhi⟩ :=
      (s.fslot slot).demodulate_out s.angle.config s.angle.phaseAdj s.angle.excStart e s.dcHeld bs
    refine ⟨?_, ?_, ?_, ?_, ?_, ?_, ?_, ?_, hne, hframe⟩ <;> rw [hsame]
    · rfl
    · exact hlo
    · exact hhi
    · rfl
    · rfl
    · rfl
    · simp [FilterSlot.took, hlock]
    · simp [FilterSlot.took, hlock]
  · let u := ((s.onFslot 3 (FilterSlot.tookAverage ((s.fslot 3).average a) e)).onFslot 4
      (FilterSlot.tookAverage ((s.fslot 4).average b) (e + 64000))).onMotion fun m =>
        { m with gpa := ((s.fslot 3).average a).1.out, gpb := ((s.fslot 4).average b).1.out }
    obtain ⟨hsat, hslots, hlockA⟩ := u.noteSat_frame ((s.fslot 3).average a).2
    obtain ⟨hsatB, hslotsB, hlockB⟩ := (u.noteSat ((s.fslot 3).average a).2).noteSat_frame ((s.fslot 4).average b).2
    have hfslot := State.fslot_of_slots (hslotsB.trans hslots)
    refine ⟨_, congrArg Host.Outcome.next (galvoFilterOutput_takes hruns hlock ha hb he hlt), ?_, fun hlen => ⟨?_, ?_⟩,
      fun k hk => ?_, hlockB.trans hlockA, ?_⟩
    · rw [hsatB, hsat]
      rfl
    · rw [hfslot 3]
      refine (congrArg FilterSlot.index ?_ : _ = (FilterSlot.tookAverage ((s.fslot 3).average a) e (s.fslot 3)).index)
      exact (State.fslot_onFslot_ne (s := s.onFslot 3 _) (by decide)).trans (State.fslot_onFslot_same (by omega))
    · rw [hfslot 4]
      refine congrArg FilterSlot.index (State.fslot_onFslot_same (s := s.onFslot 3 _) ?_)
      simp [State.onFslot, hlen]
    · rw [hfslot k]
      exact (State.fslot_onFslot_ne (s := s.onFslot 3 _) (by omega)).trans (State.fslot_onFslot_ne (by omega))
    · rw [hsatB, hsat]
      rfl

end Sys2Proof.Machine

/-!
## PTP and device time (R102, R363 to R365)
-/
namespace Sys2Proof.Machine

/-! ### Ports -/

theorem State.ptp_onPtp_same {p : Nat} {f : PtpPort → PtpPort} {s : State} (h : p < s.net.ports.length) :
    (s.onPtp p f).ptp p = f (s.ptp p) := congrArg Port.ptp (State.port_onPort_same h)

theorem State.ptp_onPtp_ne {p q : Nat} {f : PtpPort → PtpPort} {s : State} (h : q ≠ p) : (s.onPtp p f).ptp q = s.ptp q :=
  congrArg Port.ptp (State.port_onPort_ne h)

theorem State.onPtp_length (p : Nat) (f : PtpPort → PtpPort) (s : State) :
    (s.onPtp p f).net.ports.length = s.net.ports.length := by
  simp [State.onPtp, State.onPort, State.onNet]

/-- A port as the selection leaves it (R365). -/
def PtpPort.chosen (old new : Option Nat) (now p : Nat) (x : PtpPort) : PtpPort :=
  { x with selected := new == some p, syncFrom := if new == some p && old != new then now else x.syncFrom }

/-- Does the selection replace a port that left SLAVE or lost its Sync? -/
def State.portReplaced (s : State) : Bool :=
  s.ptpChoice.isSome && s.ptpSelected.any fun p => s.ptpChoice != some p && !s.ptpUsable p

theorem State.selectPtp_eq (s : State) : s.selectPtp =
    (((s.onPtp 0 (PtpPort.chosen s.ptpSelected s.ptpChoice s.now 0)).onPtp 1
      (PtpPort.chosen s.ptpSelected s.ptpChoice s.now 1)).onNet fun n => { n with portChanged := n.portChanged || s.portReplaced }) :=
  rfl

theorem State.selectPtp_frame (s : State) : s.selectPtp = { s with net := { s.net with
      ports := s.selectPtp.net.ports, portChanged := s.net.portChanged || s.portReplaced } } := rfl

theorem State.selectPtp_ptp {p : Nat} {s : State} (hp : p < 2) (hlen : p < s.net.ports.length) :
    s.selectPtp.ptp p = (s.ptp p).chosen s.ptpSelected s.ptpChoice s.now p := by
  rw [State.selectPtp_eq]
  obtain rfl | rfl : p = 0 ∨ p = 1 := by omega
  · exact (State.ptp_onPtp_ne (s := s.onPtp 0 _) (by decide)).trans (State.ptp_onPtp_same hlen)
  · exact (State.ptp_onPtp_same (s := s.onPtp 0 _) (by rwa [State.onPtp_length])).trans
      (congrArg _ (State.ptp_onPtp_ne (by decide)))

theorem State.slaveAt_iff {p : Nat} {s : State} : s.slaveAt p = true ↔ (s.ptp p).state = 9 := by
  simp [State.slaveAt, ptpSlave]

theorem State.ptpSelected_eq {p : Nat} {s : State} (h : s.ptpSelected = some p) : p = 0 ∨ p = 1 := by
  simpa using List.mem_of_find?_eq_some h

/-- A selected port without Sync gives way to the other one in SLAVE. -/
theorem State.ptpChoice_other {p : Nat} {s : State} (hsel : s.ptpSelected = some p) (hlost : s.syncLost p = true)
    (hother : (s.ptp (1 - p)).state = 9) : s.ptpChoice = some (1 - p) := by
  have hslave := State.slaveAt_iff.mpr hother
  unfold State.ptpChoice
  obtain rfl | rfl := State.ptpSelected_eq hsel
  · cases h : s.slaveAt 0 <;> simp_all
  · cases h : s.slaveAt 1 <;> simp_all

/-- Without the other one in SLAVE a port in SLAVE is chosen. -/
theorem State.ptpChoice_only {p : Nat} {s : State} (hp : p = 0 ∨ p = 1) (hslave : (s.ptp p).state = 9)
    (hother : (s.ptp (1 - p)).state ≠ 9) : s.ptpChoice = some p := by
  have h := State.slaveAt_iff.mpr hslave
  have h' : s.slaveAt (1 - p) = false := by simpa using mt State.slaveAt_iff.mp hother
  unfold State.ptpChoice
  obtain rfl | rfl := hp <;> simp_all

/-- A port in SLAVE whose Sync comes is chosen over one whose Sync does not. -/
theorem State.ptpChoice_usable {p : Nat} {s : State} (hp : p = 0 ∨ p = 1) (hslave : (s.ptp p).state = 9)
    (hsync : s.syncLost p = false) (hother : s.ptpUsable (1 - p) = false) : s.ptpChoice = some p := by
  by_cases hslave' : (s.ptp (1 - p)).state = 9
  · have h := State.slaveAt_iff.mpr hslave
    have h' := State.slaveAt_iff.mpr hslave'
    have hlost : s.syncLost (1 - p) = true := by simpa [State.ptpUsable, h'] using hother
    unfold State.ptpChoice
    obtain rfl | rfl := hp
    · cases hsel : s.ptpSelected with
      | none => simp_all
      | some q => obtain rfl | rfl := State.ptpSelected_eq hsel <;> simp_all
    · cases hsel : s.ptpSelected with
      | none => simp_all
      | some q => obtain rfl | rfl := State.ptpSelected_eq hsel <;> simp_all
  · exact State.ptpChoice_only hp hslave hslave'

/-- A port out of SLAVE is not chosen. -/
theorem State.ptpChoice_idle {p : Nat} {s : State} (h : (s.ptp p).state ≠ 9) (hp : p < 2) : s.ptpChoice ≠ some p := by
  have h' : s.slaveAt p = false := by simpa using mt State.slaveAt_iff.mp h
  unfold State.ptpChoice
  obtain rfl | rfl : p = 0 ∨ p = 1 := by omega
  · cases h1 : s.slaveAt 1 <;> simp [h']
  · cases h0 : s.slaveAt 0 <;> simp [h']

/-! ### Sending -/

/-- A frame for one port whose link is up. -/
theorem State.enqueue_one {f : TxFrame} {p : Nat} {s : State} (hnet : s.netPowered = true) (hp : p < 2)
    (ha : f.waitA = (p == 0)) (hb : f.waitB = (p == 1)) (hup : s.linkUp p = true) :
    s.enqueue f = { s with net := { s.net with tx := s.net.tx ++ [f] } } := by
  obtain ⟨kind, both, prp, waitA, waitB, bytes, dest, src, hop, event⟩ := f
  dsimp only at ha hb
  obtain rfl | rfl : p = 0 ∨ p = 1 := by omega
  · obtain rfl : waitA = true := ha
    obtain rfl : waitB = false := hb
    simp [State.enqueue, State.countDown, hnet, hup, State.onNet]
  · obtain rfl : waitA = false := ha
    obtain rfl : waitB = true := hb
    simp [State.enqueue, State.countDown, hnet, hup, State.onNet]

/-- A Delay_Req moves its port's sequence number alone, beside the queue. -/
theorem State.sendRequest_facts {p : Nat} (type : Nat) {s : State} (hlen : p < s.net.ports.length) :
    s.sendRequest p type = { s with net := (s.sendRequest p type).net } ∧
    ((s.sendRequest p type).ptp p).selected = (s.ptp p).selected ∧ ((s.sendRequest p type).ptp p).delay = (s.ptp p).delay := by
  let u := s.sendPtp p type 0 (if type = 1 then 1 else 5) (s.ptp p).delaySeq (zeros (if type = 1 then 10 else 20))
    (some (.request (s.ptp p).delaySeq))
  obtain ⟨⟨ports, tx, hu, hul⟩, hcount, -⟩ : (∃ ports tx, u = { s with net := { s.net with ports := ports, tx := tx } } ∧
    ports.length = s.net.ports.length) ∧ PortsCounted s u ∧ _ := State.enqueue_facts _ s
  have hdef : s.sendRequest p type = u.onPtp p fun x => { x with delaySeq := wrap 16 (x.delaySeq + 1) } := rfl
  have hptp : u.ptp p = s.ptp p := by
    have h := congrArg Port.ptp (hcount p)
    exact h
  have hsame := State.ptp_onPtp_same (f := fun x => { x with delaySeq := wrap 16 (x.delaySeq + 1) })
    (show p < u.net.ports.length by rw [hu]; exact hul ▸ hlen)
  rw [hdef, hsame, hptp]
  refine ⟨?_, rfl, rfl⟩
  generalize u = u at hu
  rw [hu]
  rfl

/-! ### Offset samples (R102) -/

/-- Two states that differ in the clock, the ports and the free values drawn, with one last sample. -/
def Sampled (s t : State) : Prop :=
  t = { s with clk := t.clk, net := t.net, free := t.free } ∧ t.clk.lastSample = s.clk.lastSample

theorem Sampled.trans {s t u : State} (h : Sampled s t) (k : Sampled t u) : Sampled s u :=
  ⟨k.1.trans (by rw [h.1]), k.2.trans h.2⟩

theorem Sampled.ite {p : Prop} [Decidable p] {s t u : State} (ht : Sampled s t) (hu : Sampled s u) :
    Sampled s (if p then t else u) := by
  split
  · exact ht
  · exact hu

theorem State.slew_sampled (s : State) : Sampled s s.slew := ⟨rfl, rfl⟩
theorem State.stepTime_sampled (offset : Int) (s : State) : Sampled s (s.stepTime offset) := ⟨rfl, rfl⟩
theorem State.holdOver_sampled (s : State) : Sampled s s.holdOver := ⟨rfl, rfl⟩

theorem State.onClk_sampled {f : Clk → Clk} {s : State} (h : (f s.clk).lastSample = s.clk.lastSample) : Sampled s (s.onClk f) :=
  ⟨rfl, h⟩

theorem State.acquire_sampled (offset : Int) (s : State) : Sampled s (s.acquire offset) := by
  have hu : Sampled s (if devMs < offset.natAbs || !s.clk.timeValid then s.stepTime offset else s.slew) :=
    .ite (s.stepTime_sampled offset) s.slew_sampled
  unfold State.acquire
  generalize (if devMs < offset.natAbs || !s.clk.timeValid then s.stepTime offset else s.slew) = u at hu ⊢
  refine hu.trans (State.onClk_sampled ?_)
  generalize (if offset.natAbs ≤ devUs then s.clk.goodSamples + 1 else 0) = good
  split <;> rfl

/-- The servo's rate stays within 500 ppm. -/
theorem State.servoRate_le (s : State) : s.servoRate.natAbs ≤ 7205759 := by
  have h : s.freeValue % (2 * rateLimit + 1) < 2 * rateLimit + 1 := Nat.mod_lt _ (by decide)
  simp only [State.servoRate, rateLimit] at h ⊢
  omega

/-- The offset in nanoseconds, as PTP_OFFSET shows it. -/
def offsetNs (offset : Int) : Int := clampInt (-(2 ^ 31)) (2 ^ 31 - 1) (roundDiv (offset * 1000000000) (2 ^ 64))

/-- The instant and the value of a sample. -/
def State.noted (offset : Int) (s : State) : State :=
  s.onClk fun c => { c with lastSample := some s.now, ptpOffset := offsetNs offset }

theorem State.offsetSample_locked {offset : Int} {s : State} (h : s.clk.state = .locked) :
    s.offsetSample offset = if 10 * devUs < offset.natAbs then (s.noted offset).holdOver else (s.noted offset).slew := by
  show (match s.clk.state with | .locked => _ | .acquire => _ | _ => _) = _
  rw [h]
  rfl

theorem State.offsetSample_facts (offset : Int) (s : State) :
    (s.offsetSample offset).clk.lastSample = some s.clk.now ∧
    s.offsetSample offset = { s with
      clk := (s.offsetSample offset).clk, net := (s.offsetSample offset).net, free := (s.offsetSample offset).free } := by
  have hnoted : Sampled (s.noted offset) (s.offsetSample offset) := by
    unfold State.offsetSample
    dsimp only
    split
    · exact .ite (State.holdOver_sampled _) (State.slew_sampled _)
    · exact State.acquire_sampled ..
    · exact (State.onClk_sampled (s := s.noted offset) rfl).trans (State.acquire_sampled ..)
  obtain ⟨hframe, hsample⟩ := hnoted
  exact ⟨hsample, hframe⟩

/-- A sample in FREE before the time is valid sets device time. -/
theorem State.offsetSample_free {offset : Int} {s : State} (h : s.clk.state = .free) (hvalid : s.clk.timeValid = false) :
    (s.offsetSample offset).clk.devTime = ((s.clk.devTime : Int) - offset).toNat ∧
    (s.offsetSample offset).clk.state = .acquire ∧ (s.offsetSample offset).clk.timeValid = true ∧
    (s.offsetSample offset).clk.stepped = true := by
  let u := (s.noted offset).onClk fun c => { c with state := .acquire, goodSamples := 0 }
  have hdef : s.offsetSample offset = u.acquire offset := by
    show (match s.clk.state with | .locked => _ | .acquire => _ | _ => _) = _
    rw [h]
    rfl
  have hstep : (if devMs < offset.natAbs || !u.clk.timeValid then u.stepTime offset else u.slew) = u.stepTime offset :=
    if_pos (by simp [show u.clk.timeValid = false from hvalid])
  have hgood : (if offset.natAbs ≤ devUs then u.clk.goodSamples + 1 else 0) ≤ 1 := by
    show (if offset.natAbs ≤ devUs then 0 + 1 else 0) ≤ 1
    split <;> omega
  rw [hdef]
  unfold State.acquire
  dsimp only
  rw [hstep]
  generalize (if offset.natAbs ≤ devUs then u.clk.goodSamples + 1 else 0) = good at hgood
  rw [State.onClk_clk, if_neg (by omega)]
  exact ⟨rfl, rfl, rfl, rfl⟩

/-! ### Messages -/

/-- Is a message taken: of the configured profile and domain, on a port whose link is up? -/
def State.takesPtp (m : PtpMessage) (s : State) : Prop :=
  m.port < 2 ∧ s.netPowered = true ∧ s.linkUp m.port = true ∧ ncProfile s.net.config ≠ 0 ∧
    m.profile = ncProfile s.net.config ∧ m.domain = ncDomain s.net.config

/-- What a message that is taken does, by its kind. -/
def State.ptpTaken (m : PtpMessage) (s : State) : State :=
  match m.kind with
  | .announce gm i => s.ptpAnnounce m.port gm i
  | .sync origin i => s.ptpSync m.port origin i
  | .requestReceived n who => if m.profile = 1 then s.sendPdelay m.port n who else s
  | .delayResponse n t => if m.profile = 2 then s.onPtp m.port (·.takeDelay n t) else s
  | .pdelayResponse n t => if m.profile = 1 then s.onPtp m.port (·.takeResponse n t (s.ingressStamp m.port)) else s
  | .pdelayFollowUp n t => if m.profile = 1 then s.onPtp m.port (·.takeFollowUp n t) else s

theorem ptpMessageReceive_takes {m : PtpMessage} {s : State} (h : s.takesPtp m) : ptpMessageReceive m s = s.ptpTaken m := by
  obtain ⟨hp, hnet, hup, hprofile, hm, hd⟩ := h
  exact if_neg (by simp [show ¬ 1 < m.port by omega, hnet, hup, hprofile, hm, hd])

theorem ptpMessageReceive_ignores {m : PtpMessage} {s : State} (h : s.netPowered = false ∨ ncProfile s.net.config = 0 ∨
    m.profile ≠ ncProfile s.net.config ∨ m.domain ≠ ncDomain s.net.config ∨ s.linkUp m.port = false) :
    ptpMessageReceive m s = s := by
  refine if_pos ?_
  rcases h with h | h | h | h | h <;> simp [h]

/-- A port that takes an Announce (R363). -/
def PtpPort.announced (gm : GmData) (interval : Int) (first now : Nat) (x : PtpPort) : PtpPort :=
  { (if x.state = ptpSlave then x else { x with syncFrom := now, syncInterval := first }) with
    state := ptpSlave, gm := some gm, lastAnnounce := some now, announceInterval := logTicks interval }

theorem State.ptpAnnounce_takes {p : Nat} {gm : GmData} {interval : Int} {s : State} (hnone : (s.ptp p).gm = none)
    (hbetter : gmBetter gm s.ownClock = true) : s.ptpAnnounce p gm interval =
      (s.onPtp p (PtpPort.announced gm interval (firstInterval (ncProfile s.net.config)) s.now)).selectPtp := by
  simp only [State.ptpAnnounce, hnone, hbetter]
  rfl

/-- An Announce of a clock no better than the device's own changes nothing. -/
theorem State.ptpAnnounce_ignores {p : Nat} {gm : GmData} {interval : Int} {s : State}
    (h : gmBetter gm s.ownClock = false) : s.ptpAnnounce p gm interval = s := by
  simp [State.ptpAnnounce, h]

/-- A port that takes a Sync. -/
def PtpPort.synced (now : Nat) (interval gap : Int) (x : PtpPort) : PtpPort :=
  { x with syncFrom := now, syncInterval := logTicks interval, syncGap := some gap }

theorem logTicks_pos {k : Int} (hlo : -7 ≤ k) (hhi : k ≤ 1) : 0 < logTicks k := by
  obtain rfl | rfl | rfl | rfl | rfl | rfl | rfl | rfl | rfl :
    k = -7 ∨ k = -6 ∨ k = -5 ∨ k = -4 ∨ k = -3 ∨ k = -2 ∨ k = -1 ∨ k = 0 ∨ k = 1 := by omega
  all_goals decide

/-- A Sync on the only usable port: the port is selected, and its offset is sampled. -/
theorem State.ptpSync_facts {p origin : Nat} {i : Int} {s : State} (hp : p < 2) (hlen : p < s.net.ports.length) (hlo : -7 ≤ i)
    (hhi : i ≤ 1) (hslave : (s.ptp p).state = 9) (hother : s.ptpUsable (1 - p) = false) :
    ∃ net, s.ptpSync p origin i = ({ s with net := net } : State).offsetSample (s.ingressStamp p - origin - (s.ptp p).delay) := by
  let u := s.onPtp p (PtpPort.synced s.now i (s.ingressStamp p - origin))
  have hup : u.ptp p = (s.ptp p).synced s.now i (s.ingressStamp p - origin) := State.ptp_onPtp_same hlen
  have huo : u.ptp (1 - p) = s.ptp (1 - p) := State.ptp_onPtp_ne (by omega)
  have hlenU : p < u.net.ports.length := by rwa [State.onPtp_length]
  have hsync : u.syncLost p = false := by
    have hpos := logTicks_pos hlo hhi
    have : ¬ s.now + 3 * logTicks i ≤ s.now := by omega
    simp only [State.syncLost, State.since, hup, PtpPort.synced, decide_eq_false_iff_not]
    exact this
  have hotherU : u.ptpUsable (1 - p) = false := by
    have : u.ptpUsable (1 - p) = s.ptpUsable (1 - p) := by
      simp only [State.ptpUsable, State.slaveAt, State.syncLost, huo]
      rfl
    rw [this, hother]
  have hchoice : u.ptpChoice = some p :=
    State.ptpChoice_usable (by omega) (by rw [hup]; exact hslave) hsync hotherU
  have hv := State.selectPtp_ptp hp hlenU
  rw [hup, hchoice] at hv
  let w := if ncProfile u.selectPtp.net.config = 2 then u.selectPtp.sendRequest p 1 else u.selectPtp
  have hw : w = { s with net := w.net } ∧ (w.ptp p).selected = true ∧ (w.ptp p).delay = (s.ptp p).delay := by
    have hsel : (u.selectPtp.ptp p).selected = true := by rw [hv]; simp [PtpPort.chosen]
    have hdel : (u.selectPtp.ptp p).delay = (s.ptp p).delay := by rw [hv]; rfl
    by_cases hprofile : ncProfile u.selectPtp.net.config = 2
    · have hwdef : w = u.selectPtp.sendRequest p 1 := if_pos hprofile
      obtain ⟨hframe, hselR, hdelR⟩ := State.sendRequest_facts 1 (p := p) (s := u.selectPtp) (by
        rw [State.selectPtp_eq]
        simpa [State.onPtp, State.onPort, State.onNet] using hlenU)
      rw [hwdef]
      exact ⟨hframe.trans (by rw [State.selectPtp_frame]; rfl), hselR.trans hsel, hdelR.trans hdel⟩
    · have hwdef : w = u.selectPtp := if_neg hprofile
      rw [hwdef]
      exact ⟨by rw [State.selectPtp_frame]; rfl, hsel, hdel⟩
  obtain ⟨hframe, hsel, hdel⟩ := hw
  refine ⟨w.net, ?_⟩
  have hdef : s.ptpSync p origin i =
      if (w.ptp p).selected then w.offsetSample (s.ingressStamp p - origin - (w.ptp p).delay) else w :=
    if_neg (by simp [State.slaveAt_iff.mpr hslave, Int.not_lt.mpr hlo, Int.not_lt.mpr hhi])
  rw [hdef, if_pos hsel, hdel]
  exact congrArg _ hframe

/-- A port with its Delay_Resp. -/
theorem PtpPort.takeDelay_eq {n t3 t4 : Nat} {gap : Int} {x : PtpPort} (ha : x.asked = some (n, t3)) (hg : x.syncGap = some gap) :
    (x.takeDelay n t4).delay = (gap + ((t4 : Int) - t3)) / 2 := by
  simp [PtpPort.takeDelay, ha, hg]

/-! ### The obligation -/

/-- A port whose announces end (R363). -/
def PtpPort.silent (idle : Nat) (x : PtpPort) : PtpPort := { x with state := idle, gm := none, lastAnnounce := none }

/-- PTP_HOLDOVER_TIMEOUT's four seconds. -/
theorem since_four_seconds {t0 : Nat} {s : State} : s.since t0 (sec 4) = decide (t0 + 5120000000 ≤ s.clk.now) := by
  rw [State.since, show sec 4 = 5120000000 from rfl]

theorem sampleLost_eq {t0 : Nat} {s : State} (hlast : s.clk.lastSample = some t0) :
    s.clk.lastSample.all (fun t => s.since t (sec 4)) = decide (t0 + 5120000000 ≤ s.clk.now) := by
  rw [hlast, Option.all_some, since_four_seconds]

theorem ptpHoldoverTimeout_waits {s : State}
    (h : s.clk.state ≠ .locked ∨ ∃ t0, s.clk.lastSample = some t0 ∧ s.clk.now < t0 + 5120000000) : ptpHoldoverTimeout s = s := by
  unfold ptpHoldoverTimeout
  rcases h with h | ⟨t0, hlast, h⟩
  · rw [beq_eq_false_iff_ne.mpr h]
    rfl
  · rw [sampleLost_eq hlast, decide_eq_false (Nat.not_le.mpr h), Bool.and_false]
    rfl

theorem ptpHoldoverTimeout_acts {t0 : Nat} {s : State} (hlocked : s.clk.state = .locked) (hlast : s.clk.lastSample = some t0)
    (h : t0 + 5120000000 ≤ s.clk.now) : ptpHoldoverTimeout s = s.holdOver := by
  unfold ptpHoldoverTimeout
  rw [sampleLost_eq hlast, decide_eq_true h, hlocked]
  rfl

theorem announceReceiptTimeout_acts {p t0 : Nat} {s : State} (hp : p < 2) (hslave : (s.ptp p).state = 9)
    (hlast : (s.ptp p).lastAnnounce = some t0) (h : t0 + 3 * (s.ptp p).announceInterval ≤ s.clk.now) :
    announceReceiptTimeout p s =
      (s.onPtp p (PtpPort.silent (ptpIdle (ncProfile s.net.config) (s.linkUp p)))).selectPtp :=
  if_neg (by simp [show ¬ 1 < p by omega, hslave, ptpSlave, hlast, State.since, h])

theorem announceReceiptTimeout_waits {p t0 : Nat} {s : State} (hlast : (s.ptp p).lastAnnounce = some t0)
    (h : s.clk.now < t0 + 3 * (s.ptp p).announceInterval) : announceReceiptTimeout p s = s :=
  if_pos (by simp [hlast, State.since, h])

/-- A sample on the only usable port disciplines device time (R102). -/
theorem State.ptpSync_disciplines {p origin : Nat} {i : Int} {s : State} (hp : p < 2) (hlen : p < s.net.ports.length) (hlo : -7 ≤ i)
    (hhi : i ≤ 1) (hslave : (s.ptp p).state = 9) (hother : s.ptpUsable (1 - p) = false) :
    let offset := (s.clk.devTime : Int) - Config.ingressLatency p - origin - (s.ptp p).delay
    let t := s.ptpSync p origin i
    t.clk.lastSample = some s.clk.now ∧
    (s.clk.state = .locked → t.clk.devTime = s.clk.devTime ∧
      (offset.natAbs ≤ 10 * devUs → t.clk.state = .locked ∧ t.clk.rate.natAbs ≤ 7205759) ∧
      (10 * devUs < offset.natAbs → t.clk.state = .holdover ∧ t.clk.rate = s.clk.rate)) ∧
    (s.clk.state = .free → s.clk.timeValid = false → t.clk.devTime = ((s.clk.devTime : Int) - offset).toNat ∧
      t.clk.state = .acquire ∧ t.clk.timeValid = true ∧ t.clk.stepped = true) ∧
    t = { s with clk := t.clk, net := t.net, free := t.free } := by
  intro offset t
  obtain ⟨net, ht⟩ := State.ptpSync_facts (origin := origin) hp hlen hlo hhi hslave hother
  let u : State := { s with net := net }
  have htu : t = u.offsetSample offset := ht
  obtain ⟨hsample, hframe⟩ := u.offsetSample_facts offset
  rw [htu]
  refine ⟨hsample, fun hlocked => ?_, State.offsetSample_free (s := u), hframe⟩
  rw [State.offsetSample_locked (s := u) hlocked]
  split
  case isTrue hlarge => exact ⟨rfl, fun h => absurd h (by omega), fun _ => ⟨rfl, rfl⟩⟩
  case isFalse hsmall => exact ⟨rfl, fun _ => ⟨hlocked, State.servoRate_le _⟩, fun h => absurd h hsmall⟩

/-- Settles O24, message by message through what each does to its port, and Sync through the port that the selection then names. -/
theorem ptpDisciplinesDeviceTime : Obligations.PtpDisciplinesDeviceTime := by
  refine ⟨fun m s h => congrArg Host.Outcome.next (ptpMessageReceive_ignores h),
    fun m s hp hlen hnet hup hprofile hm hd => ?_, fun s => ⟨fun h => ?_, fun t0 hlocked hlast h => ?_⟩,
    fun p t0 s hp hlen hslave hlast => ⟨fun h => congrArg Host.Outcome.next (announceReceiptTimeout_waits hlast h), fun h => ?_⟩,
    fun s => ⟨fun h => ?_, fun p hsel hlen => ⟨fun h => ?_, fun h => ?_⟩⟩⟩
  · have htakes : exec (.ptpMessageReceive m) s = .next (s.ptpTaken m) :=
      congrArg Host.Outcome.next (ptpMessageReceive_takes ⟨hp, hnet, hup, hprofile, hm, hd⟩)
    rw [htakes]
    unfold State.ptpTaken
    refine ⟨fun gm i hk => ⟨fun hnone hbetter => ?_, fun h => ?_⟩, fun n who hk h1 => ?_, fun n t2 t3 t1 t4 h1 hasked => ⟨fun hk => ?_,
      fun hk hans => ?_⟩, fun n t3 t4 gap h2 hk hasked hgap => ?_, fun origin i hk hlo hhi hslave hother => ?_⟩
    · rw [hk]
      dsimp only
      rw [State.ptpAnnounce_takes hnone hbetter]
      have hsame := State.ptp_onPtp_same (f := PtpPort.announced gm i (firstInterval (ncProfile s.net.config)) s.now) hlen
      have hv := State.selectPtp_ptp (s := s.onPtp m.port (PtpPort.announced gm i (firstInterval (ncProfile s.net.config)) s.now)) hp
        (by rwa [State.onPtp_length])
      rw [hsame] at hv
      refine ⟨_, rfl, ?_, ?_, rfl⟩ <;> rw [hv] <;> rfl
    · rw [hk]
      exact congrArg Host.Outcome.next (State.ptpAnnounce_ignores h)
    · rw [hk]
      dsimp only
      rw [if_pos h1]
      refine ⟨_, rfl, ?_⟩
      have henq : ∃ f : TxFrame, s.sendPdelay m.port n who = s.enqueue f ∧ f.kind = .ptp ∧ f.both = false ∧
        f.event = some (.response n (fit 10 who)) ∧ f.waitA = (m.port == 0) ∧ f.waitB = (m.port == 1) := ⟨_, rfl, rfl, rfl, rfl, rfl, rfl⟩
      obtain ⟨f, hf, hkind, hboth, hevent, ha, hb⟩ := henq
      rw [hf, State.enqueue_one hnet hp ha hb hup]
      refine ⟨⟨f, rfl, hkind, hboth, hevent, ?_, ?_⟩, rfl⟩
      · obtain h | h : m.port = 0 ∨ m.port = 1 := by omega
        all_goals simp [TxFrame.waits, ha, hb, h]
      · obtain h | h : m.port = 0 ∨ m.port = 1 := by omega
        all_goals simp [TxFrame.waits, ha, hb, h]
    · rw [hk]
      dsimp only
      rw [if_pos h1]
      have hsame := State.ptp_onPtp_same (f := (·.takeResponse n t2 (s.ingressStamp m.port))) hlen
      refine ⟨_, rfl, ?_, ?_, rfl⟩ <;> rw [hsame] <;> simp [PtpPort.takeResponse, hasked, State.ingressStamp]
    · rw [hk]
      dsimp only
      rw [if_pos h1]
      have hsame := State.ptp_onPtp_same (f := (·.takeFollowUp n t3)) hlen
      refine ⟨_, rfl, ?_, ?_, rfl⟩ <;> rw [hsame] <;> simp [PtpPort.takeFollowUp, hasked, hans]
    · rw [hk]
      dsimp only
      rw [if_pos h2]
      refine ⟨_, rfl, ?_, rfl⟩
      rw [State.ptp_onPtp_same hlen]
      exact PtpPort.takeDelay_eq hasked hgap
    · rw [hk]
      exact ⟨_, rfl, State.ptpSync_disciplines hp hlen hlo hhi hslave hother⟩
  · exact congrArg Host.Outcome.next (ptpHoldoverTimeout_waits h)
  · exact congrArg Host.Outcome.next (ptpHoldoverTimeout_acts hlocked hlast h)
  · let u := s.onPtp p (PtpPort.silent (ptpIdle (ncProfile s.net.config) (s.linkUp p)))
    have hup : u.ptp p = _ := State.ptp_onPtp_same hlen
    have hidle : (u.ptp p).state = (if ncProfile s.net.config ≠ 0 ∧ s.linkUp p = true then 4 else 3) := by
      rw [hup]
      simp [PtpPort.silent, ptpIdle, ptpListening, ptpDisabled]
    have hchoice : u.ptpChoice ≠ some p := State.ptpChoice_idle (by rw [hidle]; split <;> decide) hp
    have hv := State.selectPtp_ptp (s := u) hp (by rwa [State.onPtp_length])
    refine ⟨_, congrArg Host.Outcome.next (announceReceiptTimeout_acts hp hslave hlast h), ?_, ?_, ?_, rfl⟩
    · rw [hv]
      exact hidle
    · rw [hv]
      exact congrArg PtpPort.gm hup
    · rw [hv]
      simpa [PtpPort.chosen] using hchoice
  · exact congrArg Host.Outcome.next (if_neg (by simp [h]))
  · exact congrArg Host.Outcome.next (if_neg (by simp [hsel, h]))
  · have hp := State.ptpSelected_eq hsel
    refine ⟨_, congrArg Host.Outcome.next (if_pos (by simp [hsel, h])), fun hother => ?_, fun hother hslave => ?_, rfl⟩
    · have hchoice := State.ptpChoice_other hsel h hother
      have hv := State.selectPtp_ptp (p := p) (by omega) hlen
      refine ⟨?_, ?_, fun hlen' => ?_⟩
      · rw [hv, hchoice]
        simp [PtpPort.chosen]
        omega
      · rw [State.selectPtp_frame]
        have : 1 - p ≠ p := by omega
        simp [State.portReplaced, hchoice, hsel, State.ptpUsable, h, this]
      · rw [State.selectPtp_ptp (by omega) hlen', hchoice]
        simp [PtpPort.chosen]
    · have hchoice := State.ptpChoice_only hp hslave hother
      refine ⟨?_, ?_⟩
      · rw [State.selectPtp_ptp (by omega) hlen, hchoice]
        simp [PtpPort.chosen]
      · rw [State.selectPtp_frame]
        simp [State.portReplaced, hchoice, hsel]

end Sys2Proof.Machine

/-!
## Edges, events and the T0 value (R106, R114 to R116, R247 to R249)
-/
namespace Sys2Proof.Machine

/-! ### What stands beside the windows -/

/-- A state without what windows, their events and their histograms move: the return channels, the fabric, the health figures, Minuet and
three counters of the time base. -/
def State.besideWindows (s : State) : State :=
  { s with
    clk := { s.clk with prestartTotal := 0, substepTotal := 0, windowCutTotal := 0 }
    fabric := State.reset.fabric, health := State.reset.health, returns := State.reset.returns, sched := State.reset.sched }

@[simp] theorem besideWindows_ite (p : Prop) [Decidable p] (s t : State) :
    (if p then s else t).besideWindows = if p then s.besideWindows else t.besideWindows := apply_ite State.besideWindows p s t

@[simp] theorem besideWindows_foldl {α : Type} (f : State → α → State) (l : List α) (s : State)
    (h : ∀ t a, (f t a).besideWindows = t.besideWindows) : (l.foldl f s).besideWindows = s.besideWindows := by
  induction l generalizing s with
  | nil => rfl
  | cons a l ih => exact (ih _).trans (h s a)

@[simp] theorem State.countPrestart_besideWindows (n : Clk → Nat) (s : State) :
    (s.onClk fun k => { k with prestartTotal := n k }).besideWindows = s.besideWindows := by rfl
@[simp] theorem State.countSubstep_besideWindows (n : Clk → Nat) (s : State) :
    (s.onClk fun k => { k with substepTotal := n k }).besideWindows = s.besideWindows := by rfl
@[simp] theorem State.countCut_besideWindows (n : Clk → Nat) (s : State) :
    (s.onClk fun k => { k with windowCutTotal := n k }).besideWindows = s.besideWindows := by rfl
@[simp] theorem State.onSched_besideWindows (f : Sched → Sched) (s : State) :
    (s.onSched f).besideWindows = s.besideWindows := by
  rfl
@[simp] theorem State.onFabric_besideWindows (f : Fabric → Fabric) (s : State) :
    (s.onFabric f).besideWindows = s.besideWindows := by
  rfl
@[simp] theorem State.onHealth_besideWindows (f : Health → Health) (s : State) :
    (s.onHealth f).besideWindows = s.besideWindows := by
  rfl
@[simp] theorem State.onChannel_besideWindows (c : Nat) (f : Channel → Channel) (s : State) :
    (s.onChannel c f).besideWindows = s.besideWindows := by
  rfl
@[simp] theorem State.onTile_besideWindows (t : Nat) (f : Tile → Tile) (s : State) :
    (s.onTile t f).besideWindows = s.besideWindows := by
  rfl
@[simp] theorem State.onRejection_besideWindows (t : Nat) (f : Rejection → Rejection) (s : State) :
    (s.onRejection t f).besideWindows = s.besideWindows := by rfl
@[simp] theorem State.offerStamp_besideWindows (t : Nat) (p : List Byte) (x : Nat) (s : State) :
    (s.offerStamp t p x).besideWindows = s.besideWindows := by fun_cases State.offerStamp <;> simp +zetaDelta
@[simp] theorem State.mergeStamp_besideWindows (t : Nat) (p : List Byte) (x : Nat) (s : State) :
    (s.mergeStamp t p x).besideWindows = s.besideWindows := by simp [State.mergeStamp]
@[simp] theorem State.releaseStamps_besideWindows (t : Nat) (p : List Byte) (x : Nat) (s : State) :
    (s.releaseStamps t p x).besideWindows = s.besideWindows := by simp [State.releaseStamps]
@[simp] theorem State.tapStamp_besideWindows (t : Nat) (p : List Byte) (x : TapStamp) (s : State) :
    (s.tapStamp t p x).besideWindows = s.besideWindows := by simp [State.tapStamp]
@[simp] theorem State.tap_besideWindows (ch weight x : Nat) (shot : Option (Nat × Nat)) (s : State) :
    (s.tap ch weight x shot).besideWindows = s.besideWindows := by simp only [State.tap]; split <;> simp
@[simp] theorem State.closeHist_besideWindows (ch : Nat) (h : Hist) (s : State) :
    (s.closeHist ch h).besideWindows = s.besideWindows := by
  simp [State.closeHist]
@[simp] theorem State.updHist_besideWindows (ch view cell epoch : Nat) (f : Hist → Hist) (s : State) :
    (s.updHist ch view cell epoch f).besideWindows = s.besideWindows := by simp only [State.updHist]; split <;> simp
@[simp] theorem State.overflow_besideWindows (ch : Nat) (s : State) : (s.overflow ch).besideWindows = s.besideWindows := by
  simp [State.overflow]
@[simp] theorem State.countNear_besideWindows (e : Nat) (s : State) : (s.countNear e).besideWindows = s.besideWindows := by rfl
@[simp] theorem State.placeEvent_besideWindows (ch : Nat) (interval : Int) (weight : Nat) (s : State) :
    (s.placeEvent ch interval weight).besideWindows = s.besideWindows := by fun_cases State.placeEvent <;> simp +zetaDelta
@[simp] theorem State.eventAt_besideWindows (ch : Nat) (tau : Int) (weight : Nat) (s : State) :
    (s.eventAt ch tau weight).besideWindows = s.besideWindows := by fun_cases State.eventAt <;> simp +zetaDelta
@[simp] theorem State.sendAmbient_besideWindows (ch span : Nat) (ovf : Bool) (s : State) :
    (s.sendAmbient ch span ovf).besideWindows = s.besideWindows := by simp [State.sendAmbient]
@[simp] theorem State.totSample_besideWindows (ch tot : Nat) (s : State) :
    (s.totSample ch tot).besideWindows = s.besideWindows := by
  simp [State.totSample]
@[simp] theorem State.endEdge_besideWindows (ch tot : Nat) (s : State) :
    (s.endEdge ch tot).besideWindows = s.besideWindows := by
  simp only [State.endEdge]; split <;> simp
@[simp] theorem State.flushEdge_besideWindows (ch : Nat) (s : State) : (s.flushEdge ch).besideWindows = s.besideWindows := by
  unfold State.flushEdge; split <;> simp
@[simp] theorem State.endAmbient_besideWindows (ch t : Nat) (ovf : Bool) (s : State) :
    (s.endAmbient ch t ovf).besideWindows = s.besideWindows := by
  simp [State.endAmbient]
@[simp] theorem State.endRange_besideWindows (ch t : Nat) (cut fault : Bool) (s : State) :
    (s.endRange ch t cut fault).besideWindows = s.besideWindows := by fun_cases State.endRange <;> simp +zetaDelta
@[simp] theorem State.stopRange_besideWindows (ch t : Nat) (cut fault : Bool) (s : State) :
    (s.stopRange ch t cut fault).besideWindows = s.besideWindows := by simp [State.stopRange]
@[simp] theorem State.placeSkid_besideWindows (ch : Nat) (value : Int) (s : State) :
    (s.placeSkid ch value).besideWindows = s.besideWindows := by
  simp [State.placeSkid]
@[simp] theorem State.resolveOpen_besideWindows (ch : Nat) (value : Int) (st : T0Status) (s : State) :
    (s.resolveOpen ch value st).besideWindows = s.besideWindows := by simp only [State.resolveOpen]; split <;> simp
@[simp] theorem State.resolveClosing_besideWindows (ch : Nat) (value : Int) (st : T0Status) (w : Window) (s : State) :
    (s.resolveClosing ch value st w).besideWindows = s.besideWindows := by simp only [State.resolveClosing]; split <;> simp
@[simp] theorem State.resolveOn_besideWindows (e t0 : Nat) (value : Int) (st : T0Status) (s : State) (ch : Nat) :
    (s.resolveOn e t0 value st ch).besideWindows = s.besideWindows := by simp only [State.resolveOn]; split <;> simp
@[simp] theorem State.resolveT0_besideWindows (e t0 : Nat) (value : Int) (st : T0Status) (s : State) :
    (s.resolveT0 e t0 value st).besideWindows = s.besideWindows := by simp [State.resolveT0]

/-- Of two states that agree beside the windows: the time base's T0 part, and the rest of the state. -/
theorem State.of_besideWindows {s t : State} (h : t.besideWindows = s.besideWindows) :
    t = { s with clk := t.clk, fabric := t.fabric, health := t.health, returns := t.returns, sched := t.sched } ∧
    t.clk.t0Open = s.clk.t0Open ∧ t.clk.t0Await = s.clk.t0Await ∧ t.clk.t0Dead = s.clk.t0Dead ∧ t.clk.t0Delays = s.clk.t0Delays ∧
    t.clk.t0NotMeasured = s.clk.t0NotMeasured := by
  have hclk := congrArg State.clk h
  refine ⟨?_, (congrArg Clk.t0Open hclk :), (congrArg Clk.t0Await hclk :), (congrArg Clk.t0Dead hclk :),
    (congrArg Clk.t0Delays hclk :), (congrArg Clk.t0NotMeasured hclk :)⟩
  simp only [State.besideWindows, State.mk.injEq] at h
  obtain ⟨hhost, hpower, hnvm, -, hemission, -, hzone, hsets, -, -, hangle, hmotion, haux, hnet, hintegrity, -, hout, hfree, hpending⟩ := h
  exact State.ext_fields hhost hpower hnvm rfl hemission rfl hzone hsets rfl rfl hangle hmotion haux hnet hintegrity rfl hout hfree hpending

/-! ### Edges of a channel -/

/-- A dead channel edge: the output is high from here on (R247). -/
def Channel.raised (now : Nat) (c : Channel) : Channel := { c with high := true, highAt := now }

theorem discriminatorEdge_high {ch coarse raw : Nat} {s : State} (h : (s.channel ch).high = true) :
    discriminatorEdge ch coarse raw s = s := if_pos (by simp [h])

theorem State.onChannel_onChannel (ch : Nat) (f g : Channel → Channel) (s : State) :
    (s.onChannel ch f).onChannel ch g = s.onChannel ch (g ∘ f) := by
  have hlist (l : List Channel) : (l.modify ch f).modify ch g = l.modify ch (g ∘ f) := List.modify_modify_eq ..
  exact congrArg (fun l => { s with returns := { s.returns with channels := l } }) (hlist s.returns.channels)

/-- The channel with an accepted edge: its dead time runs to `dead`. -/
def Channel.deadTo (now dead : Nat) (c : Channel) : Channel := { c with high := true, highAt := now, deadUntil := dead }

/-- The end of the dead time of an edge stamped `stamp` (R247). -/
def State.deadFrom (ch stamp : Nat) (s : State) : Nat := stamp + deadFine (s.rxFor ch (s.channel ch).win)

theorem State.acceptEdge_raised {ch stamp : Nat} {s : State} (hch : ch < s.returns.channels.length) :
    (s.onChannel ch (Channel.raised s.clk.tickCount)).acceptEdge ch stamp =
      s.onChannel ch (Channel.deadTo s.clk.tickCount (s.deadFrom ch stamp)) := by
  have hwin : ((s.onChannel ch (Channel.raised s.clk.tickCount)).channel ch).win = (s.channel ch).win :=
    (congrArg Channel.win (State.channel_onChannel_same ch (Channel.raised s.clk.tickCount) s hch)).trans rfl
  unfold State.acceptEdge
  rw [hwin]
  exact State.onChannel_onChannel ..

/-- An edge that is not timed: within the dead time it only raises the output, else it is counted by the part of its window. -/
theorem discriminatorEdge_untimed {ch coarse raw : Nat} {s : State} (hch : ch < s.returns.channels.length)
    (hst : (s.channel ch).st = .active) (hhigh : (s.channel ch).high = false) (htime : s.edgeTime ch coarse raw = none) :
    discriminatorEdge ch coarse raw s =
      if 64 * s.clk.tickCount < (s.channel ch).deadUntil || (s.channel ch).win.phase == .none then
        s.onChannel ch (Channel.raised s.clk.tickCount)
      else (s.onChannel ch (Channel.deadTo s.clk.tickCount (s.deadFrom ch (64 * s.clk.tickCount)))).untimedEdge ch
        (s.channel ch).win.phase := by
  rw [← State.acceptEdge_raised hch]
  unfold discriminatorEdge
  rw [if_neg (by simp [hst, hhigh]), htime]
  rfl

/-- A timed edge beyond the dead time is held with its interval. -/
theorem discriminatorEdge_timed {ch coarse raw stamp : Nat} {y : Int × Int} {s : State} (hch : ch < s.returns.channels.length)
    (hst : (s.channel ch).st = .active) (hhigh : (s.channel ch).high = false) (htime : s.edgeTime ch coarse raw = some y)
    (hstamp : stamp = (64 * ((s.channel ch).win.t0 : Int) + y.1).toNat) (hdead : (s.channel ch).deadUntil ≤ stamp)
    (hphase : (s.channel ch).win.phase ≠ .none) :
    discriminatorEdge ch coarse raw s =
      (s.onChannel ch (Channel.deadTo s.clk.tickCount (s.deadFrom ch stamp))).timedEdge ch y.1 y.2 := by
  subst hstamp
  rw [← State.acceptEdge_raised hch]
  unfold discriminatorEdge
  rw [if_neg (by simp [hst, hhigh]), htime]
  exact if_neg (by simp [Nat.not_lt.mpr hdead, hphase])

/-- A timed edge of an open window: the channel holds it with its interval. -/
theorem State.timedEdge_facts {ch : Nat} {tau f : Int} {s : State} (hch : ch < s.returns.channels.length)
    (hphase : (s.channel ch).win.phase = .range) :
    (∃ x, ((s.timedEdge ch tau f).channel ch).edge = some x ∧ x.tau = tau ∧ x.inWindow = true) ∧
    ((s.timedEdge ch tau f).channel ch).high = (s.channel ch).high ∧
    ((s.timedEdge ch tau f).channel ch).deadUntil = (s.channel ch).deadUntil ∧
    (∀ k, k ≠ ch → (s.timedEdge ch tau f).channel k = s.channel k) ∧
    s.timedEdge ch tau f = { s with returns := (s.timedEdge ch tau f).returns, health := (s.timedEdge ch tau f).health } := by
  let x : EdgeInFlight := { tau := tau, inWindow := true, blanked := s.blanks ch (64 * ((s.channel ch).win.t0 : Int) + tau).toNat }
  let g (c : Channel) : Channel := { c with
    silentWindows := 0, edge := some x
    win := { (s.channel ch).win with edges := (s.channel ch).win.edges + 1, ambCount := (s.channel ch).win.ambCount } }
  obtain ⟨hsame, hne, -⟩ := State.onChannel_facts g hch
  have hdef : ∃ dnl, s.timedEdge ch tau f = { s.onChannel ch g with health := { s.health with dnl := dnl } } := by
    unfold State.timedEdge
    have hamb : ((s.channel ch).win.phase == WinPhase.ambient) = false := by rw [hphase]; rfl
    simp only [hamb, Bool.and_false, Bool.false_and, Bool.false_eq_true, if_false]
    exact ⟨_, rfl⟩
  obtain ⟨dnl, hdef⟩ := hdef
  rw [hdef]
  exact ⟨⟨x, (congrArg Channel.edge hsame :), rfl, rfl⟩, (congrArg Channel.high hsame :), (congrArg Channel.deadUntil hsame :), hne, rfl⟩

/-! ### The fall of an edge -/

/-- The tap moves its tile's rejection alone. -/
theorem State.tap_frame (ch weight x : Nat) (shot : Option (Nat × Nat)) (s : State) :
    ∃ r, s.tap ch weight x shot = { s with fabric := { s.fabric with rejection := r } } := by
  unfold State.tap
  dsimp only
  split
  · obtain ⟨f, h⟩ := (State.releaseStamps_tapOnly (ch / 24) _ _ (s.onRejection (ch / 24) fun j =>
      { j with tapWait := insertBy (fun a b => decide (stampDiff a.stamp b.stamp < 0)) { stamp := x, shot := shot } j.tapWait })).1
    exact ⟨_, h⟩
  · exact ⟨s.fabric.rejection, rfl⟩

/-- An event of an empty path's channel becomes a record of its bin. -/
theorem State.placeEvent_record {ch tau weight : Nat} {v : ViewDef} {s : State} (hch : ch < s.returns.channels.length)
    (hview : s.viewIn (s.channel ch).win.epoch (s.channel ch).win.view = some v) (hbin : tau / v.binWidth < v.bins)
    (hitems : (s.channel ch).items = []) :
    let t := s.placeEvent ch tau weight
    (t.channel ch).items = [.entry [(tau / v.binWidth, weight)]] ∧
    (t.channel ch).eventTotal = wrap 32 ((s.channel ch).eventTotal + 1) ∧ (t.channel ch).edge = (s.channel ch).edge ∧
    (t.channel ch).high = (s.channel ch).high ∧ (∀ k, k ≠ ch → t.channel k = s.channel k) ∧
    t = { s with clk := t.clk, returns := t.returns, sched := t.sched } := by
  let w := (s.channel ch).win
  let u := if nearField (s.setOf w.epoch) tau weight then s.countNear w.emitter else s
  obtain ⟨k, hu⟩ : ∃ k, u = { s with sched := k } := by
    by_cases h : nearField (s.setOf w.epoch) tau weight = true
    · exact ⟨_, if_pos h⟩
    · exact ⟨s.sched, if_neg h⟩
  have huch (j : Nat) : u.channel j = s.channel j := by rw [hu]; rfl
  let c' : Channel := { u.channel ch with
    items := (u.channel ch).items ++ [.entry [(tau / v.binWidth, weight)]], entrySeq := ((u.channel ch).entrySeq + 1) % 128 }
  have hpush : pushRecord (u.channel ch) (tau / v.binWidth, weight) = some c' := by
    have hitemsU : (u.channel ch).items = [] := by rw [huch, hitems]
    have hentries : ¬ 64 ≤ (u.channel ch).entries := by simp [Channel.entries, hitemsU]
    simp only [pushRecord, hitemsU, List.getLast?_nil, if_neg hentries, c']
  let f : Channel → Channel := fun _ => { c' with eventTotal := wrap 32 (c'.eventTotal + 1) }
  have huLen : ch < u.returns.channels.length := by rw [hu]; exact hch
  obtain ⟨hsame, hne, -⟩ := State.onChannel_facts f huLen
  let x := u.onChannel ch f
  obtain ⟨r, k', hx⟩ : ∃ r k, x = { s with returns := r, sched := k } := by
    show ∃ r k, u.onChannel ch f = _
    rw [hu]
    exact ⟨_, _, rfl⟩
  have hstep : s.placeEvent ch tau weight = if (tau : Int) = 0 then
      (x.onChannel ch fun c => { c with win := { c.win with substep := min 255 (w.substep + 1) } }).onClk
        fun k => { k with substepTotal := satInc 32 k.substepTotal } else x := by
    unfold State.placeEvent
    rw [if_neg (Int.not_lt.mpr (Int.natCast_nonneg tau)), hview]
    dsimp only
    rw [show (Int.toNat tau : Nat) = tau from rfl, if_neg (Nat.not_le.mpr hbin)]
    show (match pushRecord (u.channel ch) (tau / v.binWidth, weight) with | none => _ | some c' => _) = _
    rw [hpush]
  have hxItems : (x.channel ch).items = [.entry [(tau / v.binWidth, weight)]] := by
    refine (congrArg Channel.items hsame).trans ?_
    show (u.channel ch).items ++ _ = _
    rw [huch, hitems]
    rfl
  have hxTotal : (x.channel ch).eventTotal = wrap 32 ((s.channel ch).eventTotal + 1) := by
    refine (congrArg Channel.eventTotal hsame).trans ?_
    show wrap 32 ((u.channel ch).eventTotal + 1) = _
    rw [huch]
  have hxEdge : (x.channel ch).edge = (s.channel ch).edge := by
    refine (congrArg Channel.edge hsame).trans ?_
    show (u.channel ch).edge = _
    rw [huch]
  have hxHigh : (x.channel ch).high = (s.channel ch).high := by
    refine (congrArg Channel.high hsame).trans ?_
    show (u.channel ch).high = _
    rw [huch]
  have hxne : ∀ k, k ≠ ch → x.channel k = s.channel k := fun k hk => (hne k hk).trans (huch k)
  intro t
  have ht : t = _ := hstep
  rw [ht]
  split
  case isFalse => exact ⟨hxItems, hxTotal, hxEdge, hxHigh, hxne, by rw [hx]⟩
  case isTrue =>
    have hxLen : ch < x.returns.channels.length := by simpa [x] using huLen
    obtain ⟨hsame', hne', -⟩ := State.onChannel_facts (fun c : Channel => { c with win := { c.win with substep := min 255 (w.substep + 1) } }) hxLen
    exact ⟨(congrArg Channel.items hsame' :).trans hxItems, (congrArg Channel.eventTotal hsame' :).trans hxTotal,
      (congrArg Channel.edge hsame' :).trans hxEdge, (congrArg Channel.high hsame' :).trans hxHigh,
      fun k hk => (hne' k hk :).trans (hxne k hk), by rw [hx]; rfl⟩

/-- A channel whose edge in flight has been measured. -/
def Channel.measured (c : Channel) : Channel := { c with edge := none }

/-- An event of an electrical-start window is placed with its own interval; the tap may take its stamp. -/
theorem State.endEdge_event {ch tot : Nat} {tau : Int} {s : State} (hch : ch < s.returns.channels.length)
    (hedge : (s.channel ch).edge = some { tau := tau, inWindow := true, blanked := false })
    (helectrical : (s.channel ch).win.optical = false) :
    ∃ r, s.endEdge ch tot = ({ s.onChannel ch Channel.measured with fabric := { s.fabric with rejection := r } } : State).placeEvent
      ch tau (rxWeight (s.rxFor ch (s.channel ch).win) (min 64 tot)) := by
  have hwin : ((s.onChannel ch Channel.measured).channel ch).win = (s.channel ch).win :=
    (congrArg Channel.win (State.channel_onChannel_same ch Channel.measured s hch)).trans rfl
  have hplace (u : State) (weight : Nat) (hu : (u.channel ch).win = (s.channel ch).win) :
      u.eventAt ch tau weight = u.placeEvent ch tau weight := if_pos (by simp [hu, helectrical])
  unfold State.endEdge
  dsimp only
  rw [hedge]
  dsimp only
  rw [if_neg (by simp), if_neg (by simp)]
  split
  · exact ⟨s.fabric.rejection, hplace _ _ hwin⟩
  · next =>
    obtain ⟨r, hr⟩ := (s.onChannel ch Channel.measured).tap_frame ch
      (rxWeight (s.rxFor ch (s.channel ch).win) (min 64 tot)) (64 * ((s.channel ch).win.t0 : Int) + tau).toNat
      (if (s.channel ch).win.t0Open then some ((s.channel ch).win.emitter, (s.channel ch).win.t0) else none)
    refine ⟨r, (hplace _ _ ?_).trans (congrArg _ ?_)⟩
    · exact (congrArg (fun u : State => (u.channel ch).win) hr).trans hwin
    · exact hr

/-- A channel's output falls. -/
def Channel.fell (still : Bool) (c : Channel) : Channel :=
  { c with high := still, longNow := c.longNow && still, longDue := c.longDue && still,
           win := { c.win with high := c.win.high && still, longSeen := c.win.longSeen || (c.longDue && !still) } }

/-- The fall of an edge of an open window places it as a record of its interval's bin (R248). -/
theorem discriminatorFall_places {ch tot tau : Nat} {v : ViewDef} {s : State} (hch : ch < s.returns.channels.length)
    (hedge : (s.channel ch).edge = some { tau := (tau : Int), inWindow := true, blanked := false })
    (helectrical : (s.channel ch).win.optical = false) (hview : s.viewIn (s.channel ch).win.epoch (s.channel ch).win.view = some v)
    (hbin : tau / v.binWidth < v.bins) (hitems : (s.channel ch).items = []) (htot : tot < 64) :
    let t := discriminatorFall ch tot s
    (t.channel ch).items = [.entry [(tau / v.binWidth, rxWeight (s.rxFor ch (s.channel ch).win) tot)]] ∧
    (t.channel ch).eventTotal = wrap 32 ((s.channel ch).eventTotal + 1) ∧ (t.channel ch).edge = none ∧ (t.channel ch).high = false ∧
    (∀ k, k ≠ ch → t.channel k = s.channel k) ∧
    t = { s with clk := t.clk, fabric := t.fabric, returns := t.returns, sched := t.sched } := by
  let u := s.onChannel ch (Channel.fell false)
  obtain ⟨hsame, hne, -⟩ := State.onChannel_facts (Channel.fell false) hch
  have hdef : discriminatorFall ch tot s = u.endEdge ch tot := by
    have hstill : (decide (64 ≤ tot) && (s.channel ch).edge.isSome) = false := by simp [htot]
    unfold discriminatorFall
    rw [hstill]
    rfl
  have huLen : ch < u.returns.channels.length := by simpa [u] using hch
  have huWin : (u.channel ch).win.epoch = (s.channel ch).win.epoch ∧ (u.channel ch).win.view = (s.channel ch).win.view ∧
      (u.channel ch).win.optical = (s.channel ch).win.optical := by
    rw [show u.channel ch = _ from hsame]
    exact ⟨rfl, rfl, rfl⟩
  obtain ⟨hepoch, hviewU, hoptical⟩ := huWin
  obtain ⟨r, hend⟩ := State.endEdge_event (tot := tot) (tau := tau) huLen
    ((congrArg Channel.edge hsame : (u.channel ch).edge = _).trans hedge) (hoptical.trans helectrical)
  let x : State := { u.onChannel ch Channel.measured with fabric := { u.fabric with rejection := r } }
  obtain ⟨hsame', hne', -⟩ := State.onChannel_facts Channel.measured huLen
  have hxch : x.channel ch = ((s.channel ch).fell false).measured := hsame'.trans (congrArg Channel.measured hsame)
  have hweight : rxWeight (u.rxFor ch (u.channel ch).win) (min 64 tot) = rxWeight (s.rxFor ch (s.channel ch).win) tot := by
    have : u.rxFor ch (u.channel ch).win = s.rxFor ch (s.channel ch).win := by
      simp only [State.rxFor, hepoch]
      rfl
    rw [this, Nat.min_eq_right htot.le]
  obtain ⟨hpItems, hpTotal, hpEdge, hpHigh, hpNe, hpFrame⟩ := State.placeEvent_record (s := x)
    (weight := rxWeight (s.rxFor ch (s.channel ch).win) tot) (by simpa [x] using huLen)
    (by rw [hxch]; exact hview) hbin (by rw [hxch]; exact hitems)
  rw [hxch] at hpTotal hpEdge hpHigh
  intro t
  have ht : t = x.placeEvent ch tau (rxWeight (s.rxFor ch (s.channel ch).win) tot) := by
    rw [← hweight]
    exact hdef.trans hend
  rw [ht]
  refine ⟨hpItems, hpTotal, hpEdge, hpHigh, fun k hk => (hpNe k hk).trans ((hne' k hk).trans (hne k hk)), ?_⟩
  generalize x.placeEvent ch tau (rxWeight (s.rxFor ch (s.channel ch).win) tot) = y at hpFrame
  rw [hpFrame]
  rfl

/-! ### The T0 value of a shot -/

/-- The clock once an edge has been stamped at fine step `stamp`: the lane is dead for 20 ns (R114). -/
def Clk.stamped (stamp : Nat) (k : Clk) : Clk := { k with t0Await := none, t0Dead := stamp + 1639 }

/-- An edge that settles the value of the one open shot. -/
theorem State.t0Measured_facts {x : T0Shot} {tau : Int} {charge : Nat} {s : State} (hopen : s.clk.t0Open = [x])
    (hoptical : x.optical = true) :
    let t := s.t0Measured x tau charge
    t.clk.t0Open = [] ∧ t.clk.t0Await = s.clk.t0Await ∧ t.clk.t0Dead = s.clk.t0Dead ∧
    t.clk.t0NotMeasured = s.clk.t0NotMeasured ∧
    (x.emitter < s.clk.t0Delays.length → t.clk.t0Delays.getD x.emitter [] = (tau :: s.clk.t0Delays.getD x.emitter []).take 256) ∧
    t = { s with clk := t.clk, fabric := t.fabric, health := t.health, returns := t.returns, sched := t.sched } := by
  let u := s.onClk fun k =>
    { k with t0Open := k.t0Open.filter (· != x), t0Delays := k.t0Delays.modify x.emitter fun l => (tau :: l).take 256 }
  have hstep : (s.t0Measured x tau charge).besideWindows = u.besideWindows := by
    unfold State.t0Measured
    rw [if_pos hoptical, State.onHealth_besideWindows, State.resolveT0_besideWindows]
  obtain ⟨hframe, ho, ha, hd, hdel, hn⟩ := State.of_besideWindows hstep
  intro t
  refine ⟨?_, ha, hd, hn, fun hlen => ?_, ?_⟩
  · show (s.t0Measured x tau charge).clk.t0Open = []
    rw [ho]
    show s.clk.t0Open.filter (· != x) = []
    simp [hopen]
  · show (s.t0Measured x tau charge).clk.t0Delays.getD x.emitter [] = _
    rw [hdel]
    show (s.clk.t0Delays.modify x.emitter fun l => (tau :: l).take 256).getD x.emitter [] = _
    simp [List.getD_eq_getElem?_getD, List.getElem?_eq_getElem hlen]
  · exact hframe

/-- Without a stamped edge the average stands in and T0_NOT_MEASURED counts. -/
theorem t0Timeout_unmeasured {e : Nat} {x : T0Shot} {s : State} (hopen : s.clk.t0Open = [x]) (he : x.emitter = e)
    (hoptical : x.optical = true) (hover : x.t0 + 52 ≤ s.clk.tickCount) (hnone : x.edge = none ∨ x.ambiguous = true) :
    let t := t0Timeout e s
    t.clk.t0Open = [] ∧ t.clk.t0NotMeasured = satInc 32 s.clk.t0NotMeasured ∧ t.clk.t0Delays = s.clk.t0Delays ∧
    t = { s with clk := t.clk, fabric := t.fabric, health := t.health, returns := t.returns, sched := t.sched } := by
  let u := s.onClk fun k => { k with t0Open := k.t0Open.filter (· != x) }
  let v := u.resolveT0 e x.t0 (u.t0Avg e) (if x.ambiguous then .ambiguous else .missing)
  have hfilter : (x.edge.filter fun _ => !x.ambiguous) = none := by
    rcases hnone with h | h <;> simp [h]
  have hdef : t0Timeout e s = v.onClk fun k => { k with t0NotMeasured := satInc 32 k.t0NotMeasured } := by
    unfold t0Timeout
    rw [hopen, List.find?_cons_of_pos (by simp [he])]
    dsimp only
    rw [if_neg (by simpa [t0Span] using hover), hfilter]
    exact if_pos hoptical
  have hfacts (y : State) (hy : y.besideWindows = u.besideWindows) :
      let t := y.onClk fun k => { k with t0NotMeasured := satInc 32 k.t0NotMeasured }
      t.clk.t0Open = [] ∧ t.clk.t0NotMeasured = satInc 32 s.clk.t0NotMeasured ∧ t.clk.t0Delays = s.clk.t0Delays ∧
      t = { s with clk := t.clk, fabric := t.fabric, health := t.health, returns := t.returns, sched := t.sched } := by
    obtain ⟨hframe, ho, -, -, hdel, hn⟩ := State.of_besideWindows hy
    refine ⟨?_, congrArg (satInc 32) hn, hdel, by rw [hframe]; rfl⟩
    show y.clk.t0Open = []
    rw [ho]
    show s.clk.t0Open.filter (· != x) = []
    simp [hopen]
  intro t
  rw [show t = _ from hdef]
  exact hfacts v (State.resolveT0_besideWindows ..)

theorem t0Timeout_measured {e q : Nat} {tau : Int} {x : T0Shot} {s : State} (hopen : s.clk.t0Open = [x]) (he : x.emitter = e)
    (hover : x.t0 + 52 ≤ s.clk.tickCount) (hedge : x.edge = some (tau, q)) (hclear : x.ambiguous = false) :
    t0Timeout e s = s.t0Measured x tau q := by
  unfold t0Timeout
  rw [hopen, List.find?_cons_of_pos (by simp [he])]
  dsimp only
  rw [if_neg (by simpa [t0Span] using hover), hedge, hclear]
  rfl

theorem t0Timeout_waits {e : Nat} {x : T0Shot} {s : State} (hopen : s.clk.t0Open = [x]) (he : x.emitter = e)
    (h : s.clk.tickCount < x.t0 + 52) : t0Timeout e s = s := by
  unfold t0Timeout
  rw [hopen, List.find?_cons_of_pos (by simp [he])]
  exact if_pos h

section
variable {coarse raw charge : Nat} {x : T0Shot} {cal : Nat × Nat} {s : State} {tau : Int}

theorem t0InEdge_ignores (hawait : s.clk.t0Await = some x.t0) (hcal : (s.lane 40).last = some cal)
    (htau : (convert cal FrontEndCal.reset coarse raw).1 = tau) (h : tau < 0 ∨ 64 * x.t0 + tau.toNat < s.clk.t0Dead) :
    t0InEdge coarse raw charge s = s := by
  subst htau
  unfold t0InEdge
  rw [hawait, show (s.lane t0Lane).last = some cal from hcal]
  exact if_pos (by simpa using h)

theorem t0InEdge_stamps (hopen : s.clk.t0Open = [x]) (hawait : s.clk.t0Await = some x.t0) (hcal : (s.lane 40).last = some cal)
    (htau : (convert cal FrontEndCal.reset coarse raw).1 = tau) (hpos : 0 ≤ tau) (hdead : s.clk.t0Dead ≤ 64 * x.t0 + tau.toNat) :
    t0InEdge coarse raw charge s = (s.onClk (Clk.stamped (64 * x.t0 + tau.toNat))).t0Stamped x tau charge := by
  subst htau
  unfold t0InEdge
  rw [hawait, show (s.lane t0Lane).last = some cal from hcal]
  dsimp only
  rw [if_neg (by simp [Int.not_lt.mpr hpos, Nat.not_lt.mpr hdead])]
  have hfind : (s.onClk (Clk.stamped (64 * x.t0 + (convert cal FrontEndCal.reset coarse raw).1.toNat))).clk.t0Open.find?
      (·.t0 == x.t0) = some x := by
    show s.clk.t0Open.find? (·.t0 == x.t0) = some x
    rw [hopen, List.find?_cons_of_pos (by simp)]
  show (match (s.onClk (Clk.stamped _)).clk.t0Open.find? (·.t0 == x.t0) with | some x => _ | none => _) = _
  rw [hfind]
  rfl

end

/-! ### The obligation -/

theorem State.edgeTime_untimed {ch coarse raw : Nat} {s : State} (hrange : (s.channel ch).win.phase ≠ .range)
    (hambient : (s.channel ch).win.phase ≠ .ambient) : s.edgeTime ch coarse raw = none := by
  unfold State.edgeTime
  split
  · next h => exact absurd h hrange
  · next h => exact absurd h hambient
  · rfl

theorem State.edgeTime_range {ch coarse raw : Nat} {cal : Nat × Nat} {s : State} (h : (s.channel ch).win.phase = .range)
    (hcal : (s.lane (s.laneOf ch)).last = some cal) :
    s.edgeTime ch coarse raw = some (convert cal (s.fe (s.feOf ch)) coarse raw) := by
  unfold State.edgeTime
  rw [h, hcal]
  rfl

/-- An edge that finds its window not open: by the part of the window it is counted. -/
theorem discriminatorEdge_counts {ch coarse raw : Nat} {s : State} (hch : ch < s.returns.channels.length)
    (hst : (s.channel ch).st = .active) (hhigh : (s.channel ch).high = false) (hrange : (s.channel ch).win.phase ≠ .range)
    (hambient : (s.channel ch).win.phase ≠ .ambient) (hnone : (s.channel ch).win.phase ≠ .none)
    (hdead : (s.channel ch).deadUntil ≤ 64 * s.clk.tickCount) :
    discriminatorEdge ch coarse raw s =
      (s.onChannel ch (Channel.deadTo s.clk.tickCount (s.deadFrom ch (64 * s.clk.tickCount)))).untimedEdge ch
        (s.channel ch).win.phase := by
  rw [discriminatorEdge_untimed hch hst hhigh (State.edgeTime_untimed hrange hambient)]
  exact if_neg (by simp [Nat.not_lt.mpr hdead, hnone])

/-- Settles O20: an edge by its part of the window, a reference edge by the shot it belongs to. -/
theorem edgesAndReferencesBecomeEvents : Obligations.EdgesAndReferencesBecomeEvents := by
  refine ⟨⟨fun ch coarse raw s hch hst hhigh => ?_, fun ch coarse raw s h => congrArg Host.Outcome.next (discriminatorEdge_high h),
    fun ch tot tau v s hch => ?_, fun ch s hch => ⟨fun hhigh hlong hst hphase hover => ?_, fun h => ?_⟩⟩,
    fun coarse raw charge x cal s hopen hawait hclear hoptical hcal => ?_, fun e x s hopen he hoptical => ⟨fun h => ?_,
      fun tau q hover hedge hclear => ?_, fun hover hnone => ?_⟩⟩
  · refine ⟨fun hdead hphase => ?_, fun hdead hphase => ?_, fun hdead hphase => ?_, fun hdead hrange hambient => ?_,
      fun cal hphase hcal hdead => ?_⟩
    · have hstep := discriminatorEdge_counts (coarse := coarse) (raw := raw) hch hst hhigh (by simp [hphase]) (by simp [hphase])
        (by simp [hphase]) hdead
      rw [hphase] at hstep
      refine ⟨_, congrArg Host.Outcome.next (hstep.trans (State.onChannel_onChannel ..)), State.channel_onChannel_same _ _ _ hch, rfl⟩
    · have hstep := discriminatorEdge_counts (coarse := coarse) (raw := raw) hch hst hhigh (by simp [hphase]) (by simp [hphase])
        (by simp [hphase]) hdead
      rw [hphase] at hstep
      refine ⟨_, congrArg Host.Outcome.next (hstep.trans (congrArg (fun u : State => u.onFe (u.feOf ch) _)
        (State.onChannel_onChannel ..))), ?_, rfl⟩
      exact State.channel_onChannel_same _ _ _ hch
    · have hstep := discriminatorEdge_counts (coarse := coarse) (raw := raw) hch hst hhigh (by simp [hphase]) (by simp [hphase])
        (by simp [hphase]) hdead
      rw [hphase] at hstep
      let f : Channel → Channel := fun c => { c with win := { c.win with prestart := min 255 (c.win.prestart + 1) } }
      have hsame := State.channel_onChannel_same ch
        (f ∘ Channel.deadTo s.clk.tickCount (s.deadFrom ch (64 * s.clk.tickCount))) s hch
      refine ⟨_, congrArg Host.Outcome.next (hstep.trans (congrArg (fun u : State => u.onClk fun k => { k with prestartTotal := satInc 32 k.prestartTotal })
        (State.onChannel_onChannel ch (Channel.deadTo s.clk.tickCount (s.deadFrom ch (64 * s.clk.tickCount))) f s))), ?_, rfl, ?_, rfl⟩
      · exact (congrArg (fun c => c.win.prestart) hsame :)
      · exact (congrArg Channel.deadUntil hsame :)
    · refine ⟨_, congrArg Host.Outcome.next ((discriminatorEdge_untimed hch hst hhigh
        (State.edgeTime_untimed hrange hambient)).trans (if_pos (by simp [hdead]))), ?_, rfl⟩
      exact State.channel_onChannel_same _ _ _ hch
    · let u := s.onChannel ch (Channel.deadTo s.clk.tickCount (s.deadFrom ch
        (64 * ((s.channel ch).win.t0 : Int) + (convert cal (s.fe (s.feOf ch)) coarse raw).1).toNat))
      have huLen : ch < u.returns.channels.length := by simpa [u] using hch
      have huch : u.channel ch = _ := State.channel_onChannel_same _ _ _ hch
      have hstep := discriminatorEdge_timed (coarse := coarse) (raw := raw) hch hst hhigh (State.edgeTime_range hphase hcal) rfl hdead
        (by simp [hphase])
      obtain ⟨⟨x, hedge, htau, hin⟩, hup, hdeadU, hne, hframe⟩ := State.timedEdge_facts (s := u) (ch := ch)
        (tau := (convert cal (s.fe (s.feOf ch)) coarse raw).1) (f := (convert cal (s.fe (s.feOf ch)) coarse raw).2) huLen
        (by rw [huch]; exact hphase)
      rw [huch] at hup hdeadU
      refine ⟨_, x, congrArg Host.Outcome.next hstep, hedge, htau, hin, hup, hdeadU,
        fun k hk => (hne k hk).trans (State.channel_onChannel_ne _ _ _ _ hk), hframe⟩
  · intro c hedge helectrical hview hbin hitems htot
    exact ⟨_, rfl, discriminatorFall_places hch hedge helectrical hview hbin hitems htot⟩
  · have hlongHigh : s.highTooLong ch = true := by
      simp [State.highTooLong, hhigh, hphase, hover]
    obtain ⟨hsame, hne, hframe⟩ := State.onChannel_facts (fun c : Channel =>
      { c with longHigh := true, longHighTotal := satInc 32 c.longHighTotal, longNow := true, longDue := true }) hch
    exact ⟨_, congrArg Host.Outcome.next (if_neg (by simp [hlongHigh, hlong, hst])), hsame, hne, rfl⟩
  · exact congrArg Host.Outcome.next (if_pos (by simp [h]))
  · intro tau dead
    have hstamps := t0InEdge_stamps (coarse := coarse) (raw := raw) (charge := charge) (tau := tau) hopen hawait hcal rfl
    let u := s.onClk (Clk.stamped (64 * x.t0 + tau.toNat))
    refine ⟨fun h => congrArg Host.Outcome.next (t0InEdge_ignores hawait hcal rfl h), fun hpos hdead hbeyond => ?_,
      fun hpos hdead hin hcrowd => ?_, fun hpos hdead hin hcrowd => ?_⟩
    · refine congrArg Host.Outcome.next ((hstamps hpos hdead).trans (if_pos ?_))
      simp [hclear, t0Span, hbeyond]
    · refine congrArg Host.Outcome.next ((hstamps hpos hdead).trans ((if_neg ?_).trans ((if_pos hcrowd).trans ?_)))
      · simp [hclear, t0Span, Int.not_lt.mpr hin]
      · have hmap : s.clk.t0Open.map (fun y => if y == x then { y with edge := some (tau, charge) } else y) =
          [{ x with edge := some (tau, charge) }] := by simp [hopen]
        exact congrArg (fun l => { s with clk := { s.clk with t0Await := none, t0Dead := dead, t0Open := l } }) hmap
    · have hstep : t0InEdge coarse raw charge s = u.t0Measured x tau charge :=
        (hstamps hpos hdead).trans ((if_neg (by simp [hclear, t0Span, Int.not_lt.mpr hin])).trans (if_neg (by rw [show u.t0Crowded _ _ = _ from hcrowd]; simp)))
      obtain ⟨ho, ha, hd, -, hdel, hframe⟩ := State.t0Measured_facts (s := u) (tau := tau) (charge := charge) hopen hoptical
      exact ⟨_, congrArg Host.Outcome.next hstep, ho, ha, hd, hdel, hframe⟩
  · exact congrArg Host.Outcome.next (t0Timeout_waits hopen he h)
  · obtain ⟨ho, -, -, hn, hdel, hframe⟩ := State.t0Measured_facts (s := s) (tau := tau) (charge := q) hopen hoptical
    subst he
    exact ⟨_, congrArg Host.Outcome.next (t0Timeout_measured hopen rfl hover hedge hclear), ho, hn, hdel, hframe⟩
  · exact ⟨_, rfl, t0Timeout_unmeasured hopen he hoptical hover hnone⟩

end Sys2Proof.Machine

/-!
## The parts of a window (R103 to R105, R246, R251)
-/
namespace Sys2Proof.Machine

/-! ### Threshold readback -/

/-- A channel whose readback misses its threshold. -/
def Channel.missed (c : Channel) : Channel :=
  { c with threshFault := true, threshFaultTotal := satInc 32 c.threshFaultTotal, threshFails := c.threshFails + 1,
           win := { c.win with threshFault := true } }

theorem threshReadback_early {ch code : Nat} {s : State} (h : s.clk.tickCount + 76 < (s.channel ch).win.t0) :
    threshReadback ch code s = s := if_pos (by simp [h])

/-- A readback in time is judged. -/
theorem threshReadback_judges {ch code : Nat} {s : State} (hphase : (s.channel ch).win.phase = .blanked)
    (h : (s.channel ch).win.t0 ≤ s.clk.tickCount + 76) :
    threshReadback ch code s =
      if code ≤ (s.channel ch).threshNow + 2 && (s.channel ch).threshNow ≤ code + 2 then
        s.onChannel ch fun c => { c with threshFails := 0 }
      else if 64 ≤ (s.channel ch).threshFails + 1 then (s.onChannel ch Channel.missed).channelOut ch
      else s.onChannel ch Channel.missed :=
  if_neg (by simp [hphase, Nat.not_lt.mpr h])

/-- A readback off by more than 2 codes marks the channel and its window; at the 64th in a row the channel leaves service. -/
theorem State.missed_facts {ch : Nat} {s : State} (hch : ch < s.returns.channels.length) :
    let t := if 64 ≤ (s.channel ch).threshFails + 1 then (s.onChannel ch Channel.missed).channelOut ch else s.onChannel ch Channel.missed
    (t.channel ch).threshFault = true ∧ (t.channel ch).win.threshFault = true ∧
    (t.channel ch).threshFails = (s.channel ch).threshFails + 1 ∧
    ((s.channel ch).threshFails + 1 < 64 → (t.channel ch).st = (s.channel ch).st) ∧
    (64 ≤ (s.channel ch).threshFails + 1 → (s.channel ch).st = .active → (t.channel ch).st = .outOfService) ∧
    (∀ k, k ≠ ch → t.channel k = s.channel k) ∧ t = { s with returns := t.returns, power := t.power, health := t.health } := by
  let u := s.onChannel ch Channel.missed
  obtain ⟨hsame, hne, -⟩ := State.onChannel_facts Channel.missed hch
  have huLen : ch < u.returns.channels.length := by simpa [u] using hch
  intro t
  by_cases h : 64 ≤ (s.channel ch).threshFails + 1
  · have ht : t = u.channelOut ch := if_pos h
    have hchan (k : Nat) := State.channel_channelOut huLen k
    rw [← ht, show u.channel ch = _ from hsame] at hchan
    have hout : t.channel ch = (s.channel ch).missed ∨ t.channel ch = (s.channel ch).missed.outOf := by
      rw [hchan, show u.channel ch = _ from hsame]
      split
      · exact .inr rfl
      · exact .inl rfl
    have hframe : t = { s with returns := t.returns, power := t.power, health := t.health } := by
      obtain ⟨r, q, hq⟩ := u.channelOut_frame ch
      rw [ht, hq]
      split <;> rfl
    refine ⟨?_, ?_, ?_, fun hlt => absurd h (by omega), fun _ hst => ?_, fun k hk => ?_, hframe⟩
    · rcases hout with hout | hout <;> rw [hout] <;> rfl
    · rcases hout with hout | hout <;> rw [hout] <;> rfl
    · rcases hout with hout | hout <;> rw [hout] <;> rfl
    · rw [hchan, if_pos ⟨rfl, by rw [show (s.channel ch).missed.st = _ from hst]; decide⟩]
      rfl
    · rw [hchan, if_neg (fun hc => hk hc.1)]
      exact hne k hk
  · have ht : t = u := if_neg h
    rw [ht, show u.channel ch = _ from hsame]
    exact ⟨rfl, rfl, rfl, fun _ => rfl, fun h' => absurd h' h, hne, rfl⟩

/-! ### Blanking -/

theorem blankingRelease_early {ch : Nat} {high : Bool} {s : State} (h : s.clk.tickCount + 51 < (s.channel ch).win.t0) :
    blankingRelease ch high s = s := if_pos (by simp [h])

/-- A channel released from blanking. -/
def Channel.released (now : Nat) (high : Bool) (c : Channel) : Channel :=
  { c with high := high, highAt := if c.high then c.highAt else now, longNow := c.longNow && high, longDue := c.longDue && high,
           win := { c.win with phase := .preStart, high := high, longSeen := c.longDue && !high } }

theorem blankingRelease_releases {ch : Nat} {high : Bool} {s : State} (hphase : (s.channel ch).win.phase = .blanked)
    (h : (s.channel ch).win.t0 ≤ s.clk.tickCount + 51) :
    blankingRelease ch high s = s.onChannel ch (Channel.released s.clk.tickCount high) :=
  if_neg (by simp [hphase, Nat.not_lt.mpr h])

/-! ### The histogram range -/

theorem histogramRangeEnd_early {ch : Nat} {s : State} (h : s.clk.tickCount < (s.channel ch).win.rangeEnd) :
    histogramRangeEnd ch s = s := if_neg (by simp [h])

/-- A range that ends in full: its window goes on to the ambient span. -/
def State.rangeEnded (ch : Nat) (v : ViewDef) (s : State) : Window :=
  let w := (s.channel ch).win
  let note := s.foreignNote (ch / 24) v (64 * w.t0 + (w.t0Value.getD 0).toNat)
  { w with cut := false, timeFault := false, lastBin := v.bins - 1, foreign := note.1, foreignOvf := note.2,
           rangeEnd := w.rangeEnd, phase := .ambient }

theorem histogramRangeEnd_ends {ch : Nat} {v : ViewDef} {s : State} (hphase : (s.channel ch).win.phase = .range)
    (hfired : (s.channel ch).win.fired = true) (ht0 : (s.channel ch).win.optical = true → (s.channel ch).win.t0Value.isSome)
    (hedge : (s.channel ch).edge = none) (hview : s.viewIn (s.channel ch).win.epoch (s.channel ch).win.view = some v)
    (h : (s.channel ch).win.rangeEnd ≤ s.clk.tickCount) :
    histogramRangeEnd ch s = s.onChannel ch fun c =>
      { c with win := s.rangeEnded ch v, items := c.items ++ [.trailer (s.rangeEnded ch v) c.entrySeq] } := by
  have hopen : ((s.channel ch).win.optical && (s.channel ch).win.t0Value.isNone) = false := by
    cases hopt : (s.channel ch).win.optical
    · rfl
    · simpa using ht0 hopt
  have hcond : histogramRangeEnd ch s = s.endRange ch (s.channel ch).win.rangeEnd false false := by
    refine if_pos ?_
    rw [hphase, hfired, hopen, hedge, decide_eq_true h]
    rfl
  rw [hcond]
  unfold State.endRange
  dsimp only
  rw [if_neg (by rw [Window.t0Open, Bool.and_assoc, hopen]; simp), hview]
  rfl

/-! ### The ambient span -/

/-- Two states of which one has settled an edge of channel `ch` outside its window's range. -/
def SpanSettled (ch : Nat) (s t : State) : Prop :=
  t = { s with returns := t.returns, fabric := t.fabric, health := t.health } ∧ t.fabric.ambRuns = s.fabric.ambRuns ∧
  (t.channel ch).win = (s.channel ch).win ∧ (∀ k, k ≠ ch → t.channel k = s.channel k) ∧
  t.returns.channels.length = s.returns.channels.length

theorem SpanSettled.refl (ch : Nat) (s : State) : SpanSettled ch s s := ⟨rfl, rfl, rfl, fun _ _ => rfl, rfl⟩

theorem spanFrame_trans {s t u : State} (h : t = { s with returns := t.returns, fabric := t.fabric, health := t.health })
    (k : u = { t with returns := u.returns, fabric := u.fabric, health := u.health }) :
    u = { s with returns := u.returns, fabric := u.fabric, health := u.health } := k.trans (by rw [h])

theorem SpanSettled.trans {ch : Nat} {s t u : State} (h : SpanSettled ch s t) (k : SpanSettled ch t u) :
    SpanSettled ch s u := by
  obtain ⟨hframe, hruns, hwin, hne, hlen⟩ := h
  obtain ⟨hframe', hruns', hwin', hne', hlen'⟩ := k
  exact ⟨spanFrame_trans hframe hframe', hruns'.trans hruns, hwin'.trans hwin, fun k hk => (hne' k hk).trans (hne k hk),
    hlen'.trans hlen⟩

theorem SpanSettled.of_channel {ch : Nat} {f : Channel → Channel} {s : State} (hch : ch < s.returns.channels.length)
    (hf : (f (s.channel ch)).win = (s.channel ch).win) : SpanSettled ch s (s.onChannel ch f) := by
  obtain ⟨hsame, hne, -⟩ := State.onChannel_facts f hch
  exact ⟨rfl, rfl, by rw [hsame, hf], hne, by simp⟩

theorem State.totSample_settled (ch tot : Nat) (s : State) : SpanSettled ch s (s.totSample ch tot) := by
  unfold State.totSample
  dsimp only
  split
  · exact ⟨rfl, rfl, rfl, fun _ _ => rfl, rfl⟩
  · exact .refl ch s

theorem State.tap_settled (ch weight x : Nat) (shot : Option (Nat × Nat)) (s : State) :
    SpanSettled ch s (s.tap ch weight x shot) := by
  obtain ⟨r, h⟩ := s.tap_frame ch weight x shot
  rw [h]
  exact ⟨rfl, rfl, rfl, fun _ _ => rfl, rfl⟩

/-- An edge outside the range goes to the tap and to its cluster's time-over-threshold figures alone. -/
theorem State.endEdge_settled {ch tot : Nat} {e : EdgeInFlight} {s : State} (hch : ch < s.returns.channels.length)
    (hedge : (s.channel ch).edge = some e) (hout : e.inWindow = false) : SpanSettled ch s (s.endEdge ch tot) := by
  have hmeasured : SpanSettled ch s (s.onChannel ch Channel.measured) := .of_channel hch rfl
  unfold State.endEdge
  dsimp only
  rw [hedge]
  dsimp only
  rw [hout, if_pos (show (!false) = true from rfl), Bool.false_and, Bool.false_and, if_neg Bool.false_ne_true]
  split
  · exact hmeasured.trans (State.tap_settled ..)
  · exact hmeasured.trans ((State.tap_settled ..).trans (State.totSample_settled ..))

theorem State.flushEdge_settled {ch : Nat} {s : State} (hch : ch < s.returns.channels.length)
    (hedge : ∀ e, (s.channel ch).edge = some e → e.inWindow = false) : SpanSettled ch s (s.flushEdge ch) := by
  unfold State.flushEdge
  split
  · exact .refl ch s
  · next e he => exact State.endEdge_settled hch he (hedge e he)

/-- The ambient record of a channel's window joins its run (R251). -/
theorem State.sendAmbient_facts {ch span : Nat} {ovf : Bool} {s : State} (hch : ch < s.returns.channels.length) :
    let t := s.sendAmbient ch span ovf
    t = { s with returns := t.returns, fabric := t.fabric, health := t.health } ∧ (t.channel ch).win = (s.channel ch).win ∧
    (∀ k, k ≠ ch → t.channel k = s.channel k) ∧ t.returns.channels.length = s.returns.channels.length ∧
    ∃ r : AmbRecord, r.window = (s.channel ch).win.t0 % 2 ^ 32 ∧ r.coarseOvf = ovf ∧ r.span = span ∧
      r.count = (s.channel ch).win.ambCount % 2 ^ 16 ∧
      ∀ x ∈ s.fabric.ambRuns, x.channel = ch → { x with records := x.records ++ [r] } ∈ t.fabric.ambRuns := by
  let c := s.channel ch
  let r : AmbRecord := { window := wrap 32 c.win.t0, span := span, coarseOvf := ovf, count := wrap 16 c.win.ambCount,
                         flooded := floods (s.rxFor ch c.win) c.win.ambCount span, longHigh := c.win.longSeen || c.longDue }
  let f : Channel → Channel := fun d =>
    { d with longDue := false, flooded := d.flooded || r.flooded,
             silentWindows := if c.win.edges ≠ 0 || s.returns.bias.unsettled || rxBase (s.rxFor ch c.win) < d.threshNow then 0
                              else min 65536 (d.silentWindows + 1) }
  obtain ⟨hsame, hne, -⟩ := State.onChannel_facts f hch
  intro t
  have hruns : t.fabric.ambRuns =
    s.fabric.ambRuns.map fun x => if x.channel == ch then { x with records := x.records ++ [r] } else x := rfl
  refine ⟨rfl, ?_, hne, ?_, r, rfl, rfl, rfl, rfl, fun x hx hxc => ?_⟩
  · exact (congrArg Channel.win hsame :)
  · exact (List.length_modify ..)
  · rw [hruns]
    exact List.mem_map.mpr ⟨x, hx, if_pos (by simp [hxc])⟩

/-- The end of an ambient span (R104, R251): its record leaves, and the window is over. -/
theorem State.endAmbient_facts {ch t : Nat} {ovf : Bool} {s : State} (hch : ch < s.returns.channels.length)
    (hphase : (s.channel ch).win.phase = .ambient) (hedge : ∀ e, (s.channel ch).edge = some e → e.inWindow = false) :
    let u := s.endAmbient ch t ovf
    u = { s with returns := u.returns, fabric := u.fabric, health := u.health } ∧ (u.channel ch).win.phase = .none ∧
    (∀ k, k ≠ ch → u.channel k = s.channel k) ∧ u.returns.channels.length = s.returns.channels.length ∧
    ∃ r : AmbRecord, r.window = (s.channel ch).win.t0 % 2 ^ 32 ∧ r.coarseOvf = ovf ∧
      r.span = min 65536 (t - (s.channel ch).win.rangeEnd) ∧ r.count = (s.channel ch).win.ambCount % 2 ^ 16 ∧
      ∀ x ∈ s.fabric.ambRuns, x.channel = ch → { x with records := x.records ++ [r] } ∈ u.fabric.ambRuns := by
  let v := s.flushEdge ch
  obtain ⟨hframe, hruns, hwin, hne, hlen⟩ := State.flushEdge_settled hch hedge
  have hvLen : ch < v.returns.channels.length := by rw [hlen]; exact hch
  obtain ⟨hframe', hwin', hne', hlen', r, hr⟩ := State.sendAmbient_facts (span := min 65536 (t - (s.channel ch).win.rangeEnd))
    (ovf := ovf) hvLen
  let w := v.sendAmbient ch (min 65536 (t - (s.channel ch).win.rangeEnd)) ovf
  have hwLen : ch < w.returns.channels.length := by rw [hlen']; exact hvLen
  let f : Channel → Channel := fun c => { c with win := { c.win with phase := .none } }
  obtain ⟨hsame, hneF, -⟩ := State.onChannel_facts f hwLen
  have hdef : s.endAmbient ch t ovf = w.onChannel ch f := if_neg (by simp [hphase])
  intro u
  rw [show u = w.onChannel ch f from hdef]
  rw [hwin, hruns] at hr
  refine ⟨?_, (congrArg (fun c => c.win.phase) hsame :), fun k hk => (hneF k hk).trans ((hne' k hk).trans (hne k hk)),
    (List.length_modify ..).trans (hlen'.trans hlen), r, hr⟩
  have hw : w = { s with returns := w.returns, fabric := w.fabric, health := w.health } :=
    spanFrame_trans hframe hframe'
  generalize w = y at hw
  rw [hw]
  rfl

theorem coarseOvf_early {ch : Nat} {s : State} (h : s.clk.tickCount < (s.channel ch).win.t0 + 65536) : coarseOvf ch s = s :=
  if_neg (by simp [h])

/-- A channel whose coarse count has passed 0xFFFF. -/
def Channel.overrun (c : Channel) : Channel := { c with win := { c.win with phase := .untimed, coarseOvf := true } }

theorem coarseOvf_ends {ch : Nat} {s : State} (hphase : (s.channel ch).win.phase = .ambient)
    (h : (s.channel ch).win.t0 + 65536 ≤ s.clk.tickCount) : coarseOvf ch s =
      ((s.endAmbient ch ((s.channel ch).win.t0 + 65536) true).onChannel ch Channel.overrun).onClk
        fun k => { k with coarseOvfTotal := satInc 32 k.coarseOvfTotal } :=
  if_pos (by simp [hphase, h])

/-! ### The obligation -/

/-- Settles O19, part by part of a window. -/
theorem windowPartsFollowOneAnother : Obligations.WindowPartsFollowOneAnother := by
  refine ⟨fun ch code s h => congrArg Host.Outcome.next (threshReadback_early h), fun ch code s hch hphase h => ⟨fun h1 h2 => ?_, fun hoff => ?_⟩,
    fun ch high s hch hphase => ⟨fun h => congrArg Host.Outcome.next (blankingRelease_early h), fun h => ?_⟩,
    fun ch v s hch => ?_, fun ch s hch hphase hedge => ⟨fun h => ?_, fun h => ?_, fun h => congrArg Host.Outcome.next (coarseOvf_early h),
      fun h => ?_⟩⟩
  · obtain ⟨hsame, hne, -⟩ := State.onChannel_facts (fun c : Channel => { c with threshFails := 0 }) hch
    exact ⟨_, congrArg Host.Outcome.next ((threshReadback_judges hphase h).trans (if_pos (by simp [h1, h2]))), hsame, hne, rfl⟩
  · refine ⟨_, congrArg Host.Outcome.next ((threshReadback_judges hphase h).trans (if_neg ?_)), State.missed_facts hch⟩
    simp only [Bool.and_eq_true, decide_eq_true_eq]
    omega
  · obtain ⟨hsame, hne, -⟩ := State.onChannel_facts (Channel.released s.clk.tickCount high) hch
    exact ⟨_, congrArg Host.Outcome.next (blankingRelease_releases hphase h), (congrArg (fun c => c.win.phase) hsame :),
      (congrArg Channel.high hsame :), (congrArg (fun c => c.win.high) hsame :), hne, rfl⟩
  · intro w hphase hfired ht0 hedge hview
    refine ⟨fun h => congrArg Host.Outcome.next (histogramRangeEnd_early h), fun h => ?_⟩
    obtain ⟨hsame, hne, -⟩ := State.onChannel_facts
      (fun c : Channel => { c with win := s.rangeEnded ch v, items := c.items ++ [.trailer (s.rangeEnded ch v) c.entrySeq] }) hch
    exact ⟨_, s.rangeEnded ch v, congrArg Host.Outcome.next (histogramRangeEnd_ends hphase hfired ht0 hedge hview h),
      (congrArg (fun c => c.win.phase) hsame :), (congrArg Channel.items hsame :), rfl, rfl, rfl, hne, rfl⟩
  · exact congrArg Host.Outcome.next (if_neg (by simp [h]))
  · obtain ⟨hframe, hend, hne, -, r, hr⟩ := State.endAmbient_facts (t := s.clk.tickCount) (ovf := false) hch hphase hedge
    exact ⟨_, congrArg Host.Outcome.next (if_pos h), hend, ⟨r, hr⟩, hne, hframe⟩
  · obtain ⟨hframe, -, hne, hlen, r, hwindow, hovf, -, -, hruns⟩ :=
      State.endAmbient_facts (t := (s.channel ch).win.t0 + 65536) (ovf := true) hch hphase hedge
    have hstep := coarseOvf_ends hphase h
    generalize s.endAmbient ch ((s.channel ch).win.t0 + 65536) true = y at hframe hne hlen hruns hstep
    obtain ⟨hsame, hneO, -⟩ := State.onChannel_facts Channel.overrun (s := y) (by rw [hlen]; exact hch)
    refine ⟨_, congrArg Host.Outcome.next hstep, (congrArg (fun c => c.win.phase) hsame :), (congrArg (fun c => c.win.coarseOvf) hsame :),
      ⟨r, hwindow, hovf, hruns⟩, ?_, fun k hk => (hneO k hk).trans (hne k hk), ?_⟩
    · rw [hframe]
      rfl
    · rw [hframe]
      rfl

end Sys2Proof.Machine

/-!
## Records and trailers merge into their histogram (R269, R273, R274)
-/
namespace Sys2Proof.Machine

/-! ### What a histogram keeps while records are counted -/

/-- Two histograms that gather the same cells, with as many windows left. -/
def SameGroup (h g : Hist) : Prop :=
  g.view = h.view ∧ g.epoch = h.epoch ∧ g.cell = h.cell ∧ g.cells = h.cells ∧ g.left = h.left

theorem SameGroup.refl (h : Hist) : SameGroup h h := ⟨rfl, rfl, rfl, rfl, rfl⟩

theorem SameGroup.trans {h g k : Hist} (hg : SameGroup h g) (gk : SameGroup g k) : SameGroup h k := by
  obtain ⟨a1, a2, a3, a4, a5⟩ := hg
  obtain ⟨b1, b2, b3, b4, b5⟩ := gk
  exact ⟨b1.trans a1, b2.trans a2, b3.trans a3, b4.trans a4, b5.trans a5⟩

theorem SameGroup.foldl {α : Type} {f : Hist → α → Hist} (hf : ∀ h a, SameGroup h (f h a)) (l : List α) (h : Hist) :
    SameGroup h (l.foldl f h) := by
  induction l generalizing h with
  | nil => exact .refl h
  | cons a l ih => exact (hf h a).trans (ih _)

theorem SameGroup.holds {h g : Hist} (hg : SameGroup h g) (view cell epoch : Nat) :
    g.holds view cell epoch = h.holds view cell epoch := by
  obtain ⟨hview, hepoch, hcell, hcells, -⟩ := hg
  simp only [Hist.holds, hview, hepoch, hcell, hcells]

theorem Hist.setMark_eq (b : Nat) (c : Bool) (h : Hist) : ∃ m, h.setMark b c = { h with marks := m } := by
  unfold Hist.setMark
  split
  · exact ⟨_, rfl⟩
  · exact ⟨h.marks, rfl⟩

theorem Hist.setMark_group (b : Nat) (c : Bool) (h : Hist) : SameGroup h (h.setMark b c) := by
  obtain ⟨m, hm⟩ := h.setMark_eq b c
  rw [hm]
  exact .refl h

theorem Hist.zeroAtWord_group (plane : Bool) (w : Nat) (h : Hist) : SameGroup h (h.zeroAtWord plane w) := by
  unfold Hist.zeroAtWord
  split
  · exact Hist.setMark_group 8 true { h with weights := h.weights.filter (·.1 / 8 != w - 512) }
  · exact Hist.setMark_group 8 true { h with bins := h.bins.filter (·.1 / 8 != w) }

theorem Hist.afterEcc_group (plane : Bool) (h : Hist) (f : EccFault) : SameGroup h (h.afterEcc plane f) := by
  cases f with
  | corrected w => exact .refl h
  | uncorrectable w => exact h.zeroAtWord_group plane w
  | rowInvalid r => exact SameGroup.foldl (fun g k => g.zeroAtWord_group plane (8 * r + k)) (List.range 8) h

theorem Hist.count_group (v : ViewDef) (bin weight : Nat) (h : Hist) : SameGroup h (h.count v bin weight) := by
  unfold Hist.count
  dsimp only
  exact SameGroup.trans (.refl h) (Hist.setMark_group ..)

/-! ### Updating the histogram of a window -/

/-- The histogram of a window's cell, updated. -/
def Channel.mapAcc (view cell epoch : Nat) (f : Hist → Hist) (c : Channel) : Channel :=
  { c with acc := c.acc.map fun h => if h.holds view cell epoch then f h else h }

/-- A channel whose one histogram is updated. -/
theorem State.updHist_one {ch view cell epoch : Nat} {f : Hist → Hist} {h : Hist} {s : State} (hch : ch < s.returns.channels.length)
    (hacc : (s.channel ch).acc = [h]) (hholds : h.holds view cell epoch = true) (hleft : (f h).left ≠ 0) :
    s.updHist ch view cell epoch f = s.onChannel ch (Channel.mapAcc view cell epoch f) ∧
    (s.channel ch).mapAcc view cell epoch f = { s.channel ch with acc := [f h] } := by
  have hc : (s.channel ch).mapAcc view cell epoch f = { s.channel ch with acc := [f h] } := by
    simp [Channel.mapAcc, hacc, hholds]
  refine ⟨?_, hc⟩
  have hfind : ∀ g, ((s.onChannel ch (Channel.mapAcc view cell epoch f)).channel ch).acc.find? (·.holds view cell epoch) = some g → g.left ≠ 0 := by
    rw [State.channel_onChannel_same _ _ _ hch, hc]
    intro g hg
    obtain rfl : g = f h := by simpa using List.mem_of_find?_eq_some hg
    exact hleft
  unfold State.updHist
  dsimp only
  split
  · next g hg => exact if_neg (hfind g hg)
  · rfl

/-- The last window of a channel's one histogram closes it into its tile's queue. -/
theorem State.updHist_last {ch view cell epoch : Nat} {f : Hist → Hist} {h : Hist} {s : State} (hch : ch < s.returns.channels.length)
    (hacc : (s.channel ch).acc = [h]) (hholds : h.holds view cell epoch = true) (hf : (f h).holds view cell epoch = true)
    (hleft : (f h).left = 0) : s.updHist ch view cell epoch f =
      (s.onChannel ch (Channel.mapAcc view cell epoch f)).closeHist ch (f h) := by
  have hfind : ((s.onChannel ch (Channel.mapAcc view cell epoch f)).channel ch).acc.find?
      (·.holds view cell epoch) = some (f h) := by
    rw [State.channel_onChannel_same _ _ _ hch]
    simp [Channel.mapAcc, hacc, hholds, hf]
  show (match ((s.onChannel ch (Channel.mapAcc view cell epoch f)).channel ch).acc.find? (·.holds view cell epoch) with
    | some h => _
    | none => _) = _
  rw [hfind]
  exact if_pos hleft

/-- A histogram that closes: its channel gathers it no more, and its tile queues it. -/
theorem State.closeHist_facts {ch : Nat} {h : Hist} {s : State} (hch : ch < s.returns.channels.length)
    (htile : ch / 24 < s.fabric.tiles.length) (hacc : (s.channel ch).acc = [h]) :
    let t := s.closeHist ch h
    t.channel ch = { s.channel ch with acc := [] } ∧ (∃ g : Hist, (t.tile (ch / 24)).queue = (s.tile (ch / 24)).queue ++ [g] ∧
      g.closeSeq = s.fabric.closeSeq ∧ g.bins = h.bins ∧ g.observed = h.observed) ∧
    t = { s with returns := t.returns, fabric := t.fabric } := by
  obtain ⟨m1, h1⟩ := h.setMark_eq 1 (decide (h.observed < h.planned))
  obtain ⟨m2, h2⟩ := (h.setMark 1 (decide (h.observed < h.planned))).setMark_eq 10 (decide (h.cutShots ≠ 0))
  obtain ⟨m3, h3⟩ := ((h.setMark 1 (decide (h.observed < h.planned))).setMark 10 (decide (h.cutShots ≠ 0))).setMark_eq 3
    (decide (h.substep ≠ 0))
  have hmarks : ((h.setMark 1 (decide (h.observed < h.planned))).setMark 10 (decide (h.cutShots ≠ 0))).setMark 3
      (decide (h.substep ≠ 0)) = { h with marks := m3 } := by rw [h3, h2, h1]
  unfold State.closeHist
  dsimp only
  rw [hmarks]
  dsimp only
  generalize (if ({ h with marks := m3 } : Hist).obs.isEmpty then _ else _) = tm
  refine ⟨?_, ⟨{ h with marks := m3, closeSeq := s.fabric.closeSeq, closedAt := s.clk.now, recordTick := tm, recordDev := s.devAt tm,
                        chOffset := s.fabric.chOffset.getD ch 0 }, ?_, rfl, rfl, rfl⟩, rfl⟩
  · refine (State.channel_onChannel_same _ _ _ hch).trans ?_
    simp [hacc]
  · exact congrArg Tile.queue (State.tile_onTile_same (s := State.onFabric _ _) htile)

/-! ### Errors that an access meets -/

/-- Counting errors moves the tile's figures, the arbiter's queue and the memory's regions. -/
theorem State.rowTrouble_frame (bank row : Nat) (s : State) : ∃ q l, s.rowTrouble bank row =
    { s with health := { s.health with queue := q }, integrity := { s.integrity with repairList := l } } := by
  unfold State.rowTrouble
  dsimp only
  split
  · exact ⟨s.health.queue, s.integrity.repairList, rfl⟩
  · split
    · exact ⟨s.health.queue, _, rfl⟩
    · obtain ⟨q, hq⟩ := s.request_frame (Activity.plain 0x04 (bank / 12) bank row [])
      exact ⟨q, s.integrity.repairList, hq⟩

/-- Two states that differ in the memories' figures alone. -/
def EccNoted (s t : State) : Prop := t = { s with fabric := t.fabric, health := t.health, integrity := t.integrity }

theorem EccNoted.trans {s t u : State} (h : EccNoted s t) (k : EccNoted t u) : EccNoted s u :=
  Eq.trans k (by rw [show t = _ from h])

theorem State.noteFault_noted (bank row : Nat) (region word : Nat) (s : State) :
    EccNoted s ((s.noteLost 1 region word).rowTrouble bank row) := by
  obtain ⟨q, l, h⟩ := (s.noteLost 1 region word).rowTrouble_frame bank row
  rw [EccNoted, h]
  rfl

theorem State.noteEcc_noted (ch buf : Nat) (fs : List EccFault) (s : State) : EccNoted s (s.noteEcc ch buf fs) := by
  have hfold : ∀ (l : List EccFault) (u : State), EccNoted s u → EccNoted s (l.foldl (fun s f => match f with
      | .uncorrectable w => (s.noteLost 1 (ch / 24 * 12 + ch % 24 / 2) (2048 * (ch % 2) + 1024 * buf + w)).rowTrouble
          (ch / 24 * 12 + ch % 24 / 2) (rowOf ch buf w)
      | _ => s) u) := by
    intro l
    induction l with
    | nil => exact fun u hu => hu
    | cons f l ih =>
      intro u hu
      refine ih _ ?_
      cases f with
      | corrected w => exact hu
      | uncorrectable w => exact hu.trans (State.noteFault_noted ..)
      | rowInvalid r => exact hu
  exact hfold fs _ rfl

/-! ### The head of a channel's path -/

theorem State.mergeHeaders_entry {ch n : Nat} {rs : List (Nat × Nat)} {l : List IngressItem} {s : State}
    (h : (s.channel ch).items = .entry rs :: l) : s.mergeHeaders ch n = s := by
  cases n with
  | zero => rfl
  | succ k =>
    unfold State.mergeHeaders
    rw [h]

theorem State.mergeHeaders_trailer {ch n q : Nat} {w : Window} {l : List IngressItem} {s : State}
    (h : (s.channel ch).items = .trailer w q :: l) : s.mergeHeaders ch n = s := by
  cases n with
  | zero => rfl
  | succ k =>
    unfold State.mergeHeaders
    rw [h]

/-- A channel whose path's head has been taken. -/
def Channel.path (l : List IngressItem) (c : Channel) : Channel := { c with items := l }

section
variable {ch : Nat} {rs : List (Nat × Nat)} {w : Window} {q : Nat} {h : Hist} {s : State}

/-- An entry whose parity holds: its errors are met, its records are counted. -/
theorem ingressEntry_counts {faults : List EccFault} (hitems : (s.channel ch).items = [.entry rs, .trailer w q]) :
    ingressEntry ch false faults s =
      ((s.onChannel ch (Channel.path [.trailer w q])).ingressEcc ch w rs faults).countRecords ch w rs := by
  have hwin : (s.channel ch).headWindow = w := by simp [Channel.headWindow, hitems]
  unfold ingressEntry
  rw [State.mergeHeaders_entry hitems]
  dsimp only
  rw [hitems]
  dsimp only
  rw [hwin]
  rfl

/-- An entry whose parity fails is lost, and its window's trailer counts it. -/
theorem ingressEntry_loses {faults : List EccFault} (hitems : (s.channel ch).items = [.entry rs, .trailer w q]) :
    ingressEntry ch true faults s =
      ((((s.onChannel ch (Channel.path [.trailer w q])).onChannel ch fun c =>
        ({ c with overflowTotal := satAdd 32 c.overflowTotal rs.length }).headOverflow rs.length).onTile (ch / 24)
          fun t => { t with overflowSeen := true }).updHist ch w.view w.cell w.epoch (·.setMark 1 true)) := by
  have hwin : (s.channel ch).headWindow = w := by simp [Channel.headWindow, hitems]
  unfold ingressEntry
  rw [State.mergeHeaders_entry hitems]
  dsimp only
  rw [hitems]
  dsimp only
  rw [hwin]
  rfl

theorem trailerMerge_merges (hitems : (s.channel ch).items = [.trailer w q]) :
    trailerMerge ch s = (s.onChannel ch (Channel.path [])).updHist ch w.view w.cell w.epoch (Hist.mergeTrailer w) := by
  unfold trailerMerge
  rw [State.mergeHeaders_trailer hitems]
  dsimp only
  rw [hitems]
  rfl

/-- The errors of an access strike the histogram and are counted. -/
theorem State.ingressEcc_facts {v : ViewDef} (faults : List EccFault) (hch : ch < s.returns.channels.length)
    (hview : s.viewIn w.epoch w.view = some v) (hacc : (s.channel ch).acc = [h]) (hholds : h.holds w.view w.cell w.epoch = true)
    (hleft : h.left ≠ 0) :
    let struck := (faults.filter (h.meets (v.addsTo rs))).foldl (Hist.afterEcc v.weightPlane) h
    let t := s.ingressEcc ch w rs faults
    t.channel ch = { s.channel ch with acc := [struck] } ∧ t.returns.channels.length = s.returns.channels.length ∧
    (faults = [] → t.health = s.health ∧ t.integrity = s.integrity) ∧
    t = { s with fabric := t.fabric, health := t.health, integrity := t.integrity, returns := t.returns } := by
  intro struck t
  let fs := faults.filter (h.meets (v.addsTo rs))
  have hgroup : SameGroup h struck := SameGroup.foldl (fun g f => g.afterEcc_group v.weightPlane f) fs h
  have hstruck : struck.left ≠ 0 := by
    obtain ⟨-, -, -, -, hl⟩ := hgroup
    rwa [hl]
  obtain ⟨hupd, hc⟩ := State.updHist_one (f := fun h => fs.foldl (Hist.afterEcc v.weightPlane) h) hch hacc hholds hstruck
  let u := s.onChannel ch (Channel.mapAcc w.view w.cell w.epoch fun h => fs.foldl (Hist.afterEcc v.weightPlane) h)
  let x := u.onTile (ch / 24) fun t => { t with ingressEcc := satAdd 32 t.ingressEcc (fs.countP fun f => !isCorrected f) }
  have hdef : t = x.noteEcc ch h.buf fs := by
    show s.ingressEcc ch w rs faults = _
    unfold State.ingressEcc
    rw [hview, hacc, List.find?_cons_of_pos hholds]
    dsimp only
    rw [hupd]
  have hnoted := x.noteEcc_noted ch h.buf fs
  have hsame : u.channel ch = _ := (State.channel_onChannel_same _ _ _ hch).trans hc
  refine ⟨?_, ?_, fun hnil => ?_, ?_⟩
  · rw [hdef, hnoted]
    exact hsame
  · rw [hdef, hnoted]
    exact List.length_modify ..
  · rw [hdef]
    have hfs : fs = [] := by simp [fs, hnil]
    rw [hfs]
    exact ⟨rfl, rfl⟩
  · rw [hdef, hnoted]
    rfl

end

/-! ### A trailer -/

/-- Two histograms that differ in their marks alone. -/
def Remarked (h g : Hist) : Prop := ∃ m, g = { h with marks := m }

theorem Remarked.trans {h g k : Hist} (hg : Remarked h g) (gk : Remarked g k) : Remarked h k := by
  obtain ⟨m, rfl⟩ := hg
  obtain ⟨m', rfl⟩ := gk
  exact ⟨m', rfl⟩

theorem Hist.setMark_remarked (b : Nat) (c : Bool) (h : Hist) : Remarked h (h.setMark b c) := h.setMark_eq b c

theorem Hist.windowMarks_remarked (w : Window) (h : Hist) : Remarked h (h.windowMarks w) := by
  unfold Hist.windowMarks
  exact (Hist.setMark_remarked ..).trans ((Hist.setMark_remarked ..).trans ((Hist.setMark_remarked ..).trans
    ((Hist.setMark_remarked ..).trans ((Hist.setMark_remarked ..).trans (Hist.setMark_remarked ..)))))

/-- A trailer adds one observed window, and one fewer is left. -/
theorem Hist.mergeTrailer_facts (w : Window) (h : Hist) :
    (h.mergeTrailer w).left = h.left - 1 ∧ (h.mergeTrailer w).observed = h.observed + 1 ∧ (h.mergeTrailer w).bins = h.bins ∧
    ∀ view cell epoch, (h.mergeTrailer w).holds view cell epoch = h.holds view cell epoch := by
  obtain ⟨m, hm⟩ : Remarked _ (h.mergeTrailer w) := Hist.windowMarks_remarked ..
  rw [hm]
  exact ⟨rfl, rfl, rfl, fun _ _ _ => rfl⟩

/-! ### The obligation -/

theorem Channel.headOverflow_trailer {n q : Nat} {w : Window} {l : List IngressItem} {c : Channel} (h : c.items = .trailer w q :: l) :
    c.headOverflow n = { c with items := .trailer { w with overflows := w.overflows + n } q :: l } := by
  unfold Channel.headOverflow
  rw [h]
  rfl

/-- Settles O21, through the one histogram that a channel gathers. -/
theorem recordsMergeIntoTheirHistogram : Obligations.RecordsMergeIntoTheirHistogram := by
  refine ⟨fun ch rs w q v h s hch hitems hview hacc hholds hleft => ⟨fun faults => ?_, fun faults => ?_⟩,
    fun ch w q h s hch hitems hacc hholds => ⟨fun hleft => ?_, fun hleft htile => ?_⟩⟩
  · let u := s.onChannel ch (Channel.path [.trailer w q])
    have hu : u.channel ch = (s.channel ch).path [.trailer w q] := State.channel_onChannel_same _ _ _ hch
    have huLen : ch < u.returns.channels.length := by simpa [u] using hch
    obtain ⟨hx, hxLen, hfaults, hxFrame⟩ := State.ingressEcc_facts (rs := rs) faults huLen hview (by rw [hu]; exact hacc) hholds hleft
    let struck := (faults.filter (h.meets (v.addsTo rs))).foldl (Hist.afterEcc v.weightPlane) h
    let x := u.ingressEcc ch w rs faults
    have hstruck : SameGroup h struck := SameGroup.foldl (fun g f => g.afterEcc_group v.weightPlane f) _ h
    have hcounted : SameGroup struck (rs.foldl (fun h r => h.count v r.1 r.2) struck) :=
      SameGroup.foldl (fun g r => g.count_group v r.1 r.2) rs struck
    have hleftC : (rs.foldl (fun h r => h.count v r.1 r.2) struck).left ≠ 0 := by
      obtain ⟨-, -, -, -, hl⟩ := hstruck.trans hcounted
      rwa [hl]
    have hxch : x.channel ch = { (s.channel ch).path [.trailer w q] with acc := [struck] } := hx.trans (by rw [hu])
    have hxview : x.viewIn w.epoch w.view = some v := by
      refine Eq.trans ?_ hview
      show (u.ingressEcc ch w rs faults).viewIn w.epoch w.view = _
      rw [hxFrame]
      rfl
    obtain ⟨hupd, hc⟩ := State.updHist_one (s := x) (f := fun h => rs.foldl (fun h r => h.count v r.1 r.2) h)
      (by rw [hxLen]; exact huLen) (by rw [hxch]) ((hstruck.holds ..).trans hholds) hleftC
    have hstep : ingressEntry ch false faults s = x.onChannel ch
        (Channel.mapAcc w.view w.cell w.epoch fun h => rs.foldl (fun h r => h.count v r.1 r.2) h) := by
      rw [ingressEntry_counts hitems]
      refine Eq.trans ?_ hupd
      unfold State.countRecords
      rw [show (u.ingressEcc ch w rs faults).viewIn w.epoch w.view = some v from hxview]
    have hsame := (State.channel_onChannel_same ch (Channel.mapAcc w.view w.cell w.epoch fun h => rs.foldl (fun h r => h.count v r.1 r.2) h) x
      (by rw [hxLen]; exact huLen)).trans hc
    refine ⟨_, congrArg Host.Outcome.next hstep, ?_, (congrArg Channel.acc hsame :), fun hnil => hfaults hnil, ?_⟩
    · exact (congrArg Channel.items hsame :).trans (congrArg Channel.items hxch)
    · show State.onChannel ch _ (u.ingressEcc ch w rs faults) = _
      rw [hxFrame]
      rfl
  · let f : Channel → Channel := fun c =>
      ({ c with overflowTotal := satAdd 32 c.overflowTotal rs.length } : Channel).headOverflow rs.length
    let u := ((s.onChannel ch (Channel.path [.trailer w q])).onChannel ch f).onTile (ch / 24) fun t => { t with overflowSeen := true }
    have hlen : ch < (s.onChannel ch (Channel.path [.trailer w q])).returns.channels.length := by simpa using hch
    have huLen : ch < u.returns.channels.length := by simpa [u] using hch
    have hu : u.channel ch = { s.channel ch with
        overflowTotal := satAdd 32 (s.channel ch).overflowTotal rs.length
        items := [.trailer { w with overflows := w.overflows + rs.length } q] } := by
      refine (State.channel_onChannel_same ch f (s.onChannel ch (Channel.path [.trailer w q])) hlen).trans ?_
      rw [State.channel_onChannel_same _ _ _ hch]
      exact Channel.headOverflow_trailer rfl
    have hmark : (h.setMark 1 true).left ≠ 0 := by
      obtain ⟨-, -, -, -, hl⟩ := h.setMark_group 1 true
      rwa [hl]
    obtain ⟨hupd, hc⟩ := State.updHist_one (s := u) (f := (·.setMark 1 true)) huLen (by rw [hu]; exact hacc) hholds hmark
    have hsame := (State.channel_onChannel_same ch (Channel.mapAcc w.view w.cell w.epoch (·.setMark 1 true)) u huLen).trans hc
    rw [hu] at hsame
    exact ⟨_, congrArg Host.Outcome.next ((ingressEntry_loses hitems).trans hupd), (congrArg Channel.items hsame :),
      (congrArg Channel.acc hsame :), (congrArg Channel.overflowTotal hsame :), rfl⟩
  · obtain ⟨hl, ho, -, -⟩ := h.mergeTrailer_facts w
    let u := s.onChannel ch (Channel.path [])
    have hu : u.channel ch = (s.channel ch).path [] := State.channel_onChannel_same _ _ _ hch
    have huLen : ch < u.returns.channels.length := by simpa [u] using hch
    obtain ⟨hupd, hc⟩ := State.updHist_one (s := u) (f := Hist.mergeTrailer w) huLen (by rw [hu]; exact hacc) hholds (by omega)
    have hsame := (State.channel_onChannel_same ch (Channel.mapAcc w.view w.cell w.epoch (Hist.mergeTrailer w)) u huLen).trans hc
    rw [hu] at hsame
    exact ⟨_, congrArg Host.Outcome.next ((trailerMerge_merges hitems).trans hupd), (congrArg Channel.items hsame :),
      (congrArg Channel.acc hsame :), hl, ho, rfl⟩
  · obtain ⟨hl, ho, hbins, hh⟩ := h.mergeTrailer_facts w
    let u := s.onChannel ch (Channel.path [])
    have hu : u.channel ch = (s.channel ch).path [] := State.channel_onChannel_same _ _ _ hch
    have huLen : ch < u.returns.channels.length := by simpa [u] using hch
    have hupd := State.updHist_last (s := u) (f := Hist.mergeTrailer w) huLen (by rw [hu]; exact hacc) hholds
      ((hh ..).trans hholds) (by omega)
    let x := u.onChannel ch (Channel.mapAcc w.view w.cell w.epoch (Hist.mergeTrailer w))
    have hx : x.channel ch = { (s.channel ch).path [] with acc := [h.mergeTrailer w] } := by
      refine (State.channel_onChannel_same _ _ _ huLen).trans ?_
      rw [hu]
      simp [Channel.mapAcc, Channel.path, hacc, hholds]
    have hxLen : ch < x.returns.channels.length := by simpa [x] using huLen
    obtain ⟨hch', ⟨g, hqueue, hseq, hgb, hgo⟩, hframe⟩ := State.closeHist_facts (s := x) hxLen htile (by rw [hx])
    rw [hx] at hch'
    refine ⟨_, g, congrArg Host.Outcome.next ((trailerMerge_merges hitems).trans hupd), (congrArg Channel.items hch' :),
      (congrArg Channel.acc hch' :), hqueue, hseq, hgb.trans hbins, hgo.trans ho, ?_⟩
    show x.closeHist ch (h.mergeTrailer w) = _
    generalize x.closeHist ch (h.mergeTrailer w) = y at hframe
    rw [hframe]
    rfl

end Sys2Proof.Machine

/-!
## Sets: commit, swap, copy and release (R81 to R92, R196, R330)
-/
namespace Sys2Proof.Machine

/-! ### SET_COMMIT -/

section
variable {c : Cmd} {s : State} (x : EntryState)

/-- A command that starts is not one that waits before itself; those that do still wait. -/
theorem State.unbegunBefore_onLive (hlive : (s.liveOf c).isSome = true) (l : Live) :
    ((s.onLive c (Live.withState x)).unbegun (l.updateOf c (Live.withState x)) &&
      (s.onLive c (Live.withState x)).acceptedBefore (l.updateOf c (Live.withState x)).cmd c) =
      (s.unbegun l && s.acceptedBefore l.cmd c) := by
  have hc : c.unseq = false := by
    by_contra h
    exact absurd hlive (by simp [State.liveOf, h])
  obtain ⟨-, hp⟩ := State.onLive_live (f := Live.withState x) (s := s) hc
  obtain ⟨hcmd, -, -⟩ := Live.updateOf_kept c x l
  rw [hcmd, State.acceptedBefore_onLive]
  by_cases hof : l.isOf c
  · have hown : s.acceptedBefore l.cmd c = false := by
      simp only [Live.isOf, Bool.and_eq_true, beq_iff_eq] at hof
      exact State.acceptedBefore_self hof.1.1 hof.1.2 hof.2 hlive
    rw [hown, Bool.and_false, Bool.and_false]
  · rw [Live.updateOf, if_neg hof]
    simp only [State.unbegun, hp]

theorem State.fadeBefore_onLive (hlive : (s.liveOf c).isSome = true) :
    (s.onLive c (Live.withState x)).fadeBefore c = s.fadeBefore c := by
  have hc : c.unseq = false := by
    by_contra h
    exact absurd hlive (by simp [State.liveOf, h])
  obtain ⟨hl, -⟩ := State.onLive_live (f := Live.withState x) (s := s) hc
  have hlist : (s.host.journal.live.map (Live.updateOf c (Live.withState x))).any (fun l => l.opcode == 0x0403 &&
      (s.onLive c (Live.withState x)).unbegun l && (s.onLive c (Live.withState x)).acceptedBefore l.cmd c) =
      s.host.journal.live.any fun l => l.opcode == 0x0403 && s.unbegun l && s.acceptedBefore l.cmd c := by
    rw [List.any_map]
    refine congrArg (List.any s.host.journal.live) (funext fun l => ?_)
    have h := s.unbegunBefore_onLive x hlive l
    simp only [Function.comp, Bool.and_assoc, h, (Live.updateOf_kept c x l).2.1]
  simp only [State.fadeBefore, State.acceptedBefore_onLive, State.onLive_emission, hl, ← hlist]

theorem State.writesAhead_onLive (hlive : (s.liveOf c).isSome = true) :
    (s.onLive c (Live.withState x)).writesAhead c = s.writesAhead c := by
  have hc : c.unseq = false := by
    by_contra h
    exact absurd hlive (by simp [State.liveOf, h])
  obtain ⟨hl, -⟩ := State.onLive_live (f := Live.withState x) (s := s) hc
  have hlist : ((s.host.journal.live.map (Live.updateOf c (Live.withState x))).filter (fun l =>
        (s.onLive c (Live.withState x)).unbegun l && l.cmd != c && (s.onLive c (Live.withState x)).acceptedBefore l.cmd c)).map
        (fun l => (l.opcode, l.cmd)) =
      (s.host.journal.live.filter fun l => s.unbegun l && l.cmd != c && s.acceptedBefore l.cmd c).map fun l => (l.opcode, l.cmd) := by
    rw [List.filter_map, List.map_map]
    refine congrArg₂ List.map (funext fun l => ?_) (List.filter_congr fun l _ => ?_)
    · simp only [Function.comp, (Live.updateOf_kept c x l).1, (Live.updateOf_kept c x l).2.1]
    · have h := s.unbegunBefore_onLive x hlive l
      simp only [Function.comp, (Live.updateOf_kept c x l).1] at h ⊢
      rw [Bool.and_right_comm, h, Bool.and_right_comm]
  simp only [State.writesAhead, State.onLive_sets, hl, hlist]

theorem State.unswappedBefore_onLive (hlive : (s.liveOf c).isSome = true) :
    ((s.onLive c (Live.withState x)).unswapped.any fun k => k != c && (s.onLive c (Live.withState x)).acceptedBefore k c) =
      s.unswapped.any fun k => k != c && s.acceptedBefore k c := by
  have hc : c.unseq = false := by
    by_contra h
    exact absurd hlive (by simp [State.liveOf, h])
  obtain ⟨hl, -⟩ := State.onLive_live (f := Live.withState x) (s := s) hc
  have hlist : ((s.host.journal.live.map (Live.updateOf c (Live.withState x))).filter (fun l =>
        l.opcode == 0x0301 && (s.onLive c (Live.withState x)).unbegun l)).any (fun l => l.cmd != c && s.acceptedBefore l.cmd c) =
      (s.host.journal.live.filter fun l => l.opcode == 0x0301 && s.unbegun l).any fun l => l.cmd != c && s.acceptedBefore l.cmd c := by
    rw [List.any_filter, List.any_filter, List.any_map]
    refine congrArg (List.any s.host.journal.live) (funext fun l => ?_)
    have h := s.unbegunBefore_onLive x hlive l
    rw [State.acceptedBefore_onLive] at h
    obtain ⟨hcmd, hop, -⟩ := Live.updateOf_kept c x l
    simp only [Function.comp, hcmd, hop] at h ⊢
    generalize s.acceptedBefore l.cmd c = b at h ⊢
    cases b
    · simp
    · simpa using congrArg (fun y => l.opcode == 0x0301 && y && l.cmd != c) h
  simp only [State.acceptedBefore_onLive, State.unswapped, List.any_append, List.any_map, State.onLive_sets, hl, Function.comp_def, hlist]

/-- That a commit starts does not change what it waits for (Table 3.9). -/
theorem State.commitState_onLive (hlive : (s.liveOf c).isSome = true) :
    (s.onLive c (Live.withState x)).commitState c = s.commitState c := by
  have hbars : (s.onLive c (Live.withState x)).injectionBars c = s.injectionBars c := by
    simp only [State.injectionBars, State.writesAhead_onLive x hlive, State.onLive_sets, State.onLive_motion]
  have hcause : (s.onLive c (Live.withState x)).commitCause c = s.commitCause c := by
    simp only [State.commitCause, State.fadeBefore_onLive x hlive, hbars, State.unswappedBefore_onLive x hlive]
  have hholds : (s.onLive c (Live.withState x)).arbiterHolds (s.onLive c (Live.withState x)).sets.shadow = s.arbiterHolds s.sets.shadow := by
    simp only [State.arbiterHolds, State.onLive_health, State.onLive_sets]
  unfold State.commitState
  rw [hcause, hholds]

end

/-! ### What a swap carries over -/

@[simp] theorem State.onRejection_beside (t : Nat) (f : Rejection → Rejection) (s : State) :
    (s.onRejection t f).beside = s.beside := by rfl
@[simp] theorem State.reachCell_beside (v : ViewDef) (j a : Nat) (s : State) : (s.reachCell v j a).beside = s.beside := by
  simp [State.reachCell]
@[simp] theorem State.missCell_beside (v : ViewDef) (a : Nat) (s : State) (j : Nat) : (s.missCell v a j).beside = s.beside := by
  simp [State.missCell]
@[simp] theorem State.startSweep_beside (b : Nat) (s : State) : (s.startSweep b).beside = s.beside := by rfl
@[simp] theorem State.sweepTo_beside (b : Nat) (s : State) : (s.sweepTo b).beside = s.beside := by
  unfold State.sweepTo; split <;> simp
@[simp] theorem State.endGroupsIf_beside (ends : Hist → Bool) (s : State) : (s.endGroupsIf ends).beside = s.beside := by
  simp [State.endGroupsIf]
@[simp] theorem State.carryFields_beside (old : ConfigSet) (s : State) : (s.carryFields old).beside = s.beside := by
  simp [State.carryFields]
@[simp] theorem State.reachOpened_beside (s : State) : s.reachOpened.beside = s.beside := by
  unfold State.reachOpened
  apply beside_foldl
  intro t z
  split <;> simp
@[simp] theorem State.carryAmbient_beside (old : ConfigSet) (s : State) : (s.carryAmbient old).beside = s.beside := by
  simp [State.carryAmbient]
@[simp] theorem State.carryRain_beside (old : ConfigSet) (s : State) : (s.carryRain old).beside = s.beside := by rfl
@[simp] theorem State.carryTrackers_beside (before : Nat → Option (List Byte)) (s : State) :
    (s.carryTrackers before).beside = s.beside := by simp [State.carryTrackers]
@[simp] theorem State.closeOldCells_beside (epoch : Nat) (s : State) : (s.closeOldCells epoch).beside = s.beside := by
  simp [State.closeOldCells]

/-- Minuet with its inhibit causes alone. -/
def Sched.causes (k : Sched) : Sched := { State.reset.sched with inhibit := k.inhibit }

/-- A state without what the carry-over of a swap moves: of Minuet the inhibit causes stay, and all that lies beside the histograms but
the power domains. -/
def State.besideSets (s : State) : State :=
  { s with
    fabric := State.reset.fabric, integrity := State.reset.integrity, net := State.reset.net, power := State.reset.power
    returns := State.reset.returns, zone := State.reset.zone, sched := s.sched.causes }

theorem State.besideSets_of_beside {s t : State} (h : t.beside = s.beside) : t.besideSets = s.besideSets :=
  (show t.besideSets = t.beside.besideSets from rfl).trans (by rw [h]; rfl)

theorem State.sets_of_beside {s t : State} (h : t.beside = s.beside) : t.sets = s.sets := (congrArg State.sets h :)
theorem State.clk_of_beside {s t : State} (h : t.beside = s.beside) : t.clk = s.clk := (congrArg State.clk h :)
theorem State.emission_of_besideSets {s t : State} (h : t.besideSets = s.besideSets) : t.emission = s.emission :=
  (congrArg State.emission h :)
theorem State.sets_of_besideSets {s t : State} (h : t.besideSets = s.besideSets) : t.sets = s.sets := (congrArg State.sets h :)
theorem State.clk_of_besideSets {s t : State} (h : t.besideSets = s.besideSets) : t.clk = s.clk := (congrArg State.clk h :)
theorem State.host_of_besideSets {s t : State} (h : t.besideSets = s.besideSets) : t.host = s.host := (congrArg State.host h :)

@[simp] theorem besideSets_ite (p : Prop) [Decidable p] (s t : State) :
    (if p then s else t).besideSets = if p then s.besideSets else t.besideSets := apply_ite State.besideSets p s t

@[simp] theorem besideSets_foldl {α : Type} (f : State → α → State) (l : List α) (s : State)
    (h : ∀ t a, (f t a).besideSets = t.besideSets) : (l.foldl f s).besideSets = s.besideSets := by
  induction l generalizing s with
  | nil => rfl
  | cons a l ih => exact (ih _).trans (h s a)

@[simp] theorem State.onPower_besideSets (f : Power → Power) (s : State) : (s.onPower f).besideSets = s.besideSets := by rfl
@[simp] theorem State.onFabric_besideSets (f : Fabric → Fabric) (s : State) : (s.onFabric f).besideSets = s.besideSets := by rfl
@[simp] theorem State.onEngine_besideSets (g : Nat) (f : Engine → Engine) (s : State) :
    (s.onEngine g f).besideSets = s.besideSets := by rfl
@[simp] theorem State.copyLost_besideSets (shadow : Bool) (s : State) : (s.copyLost shadow).besideSets = s.besideSets := by rfl
@[simp] theorem State.refreshDomains_besideSets (s : State) : s.refreshDomains.besideSets = s.besideSets := by
  simp [State.refreshDomains]
@[simp] theorem State.onChannel_besideSets (c : Nat) (f : Channel → Channel) (s : State) :
    (s.onChannel c f).besideSets = s.besideSets := by rfl
@[simp] theorem State.refreshChannels_besideSets (s : State) : s.refreshChannels.besideSets = s.besideSets := by
  simp -implicitDefEqProofs [State.refreshChannels]
@[simp] theorem State.refreshPlan_besideSets (s : State) : s.refreshPlan.besideSets = s.besideSets := by rfl
@[simp] theorem State.leaveDone_besideSets (s : State) (g : Nat) : (s.leaveDone g).besideSets = s.besideSets := by
  simp [State.leaveDone]
@[simp] theorem State.leaveAll_besideSets (s : State) : s.leaveAll.besideSets = s.besideSets := by simp [State.leaveAll]
@[simp] theorem State.assignEngines_besideSets (s : State) : s.assignEngines.besideSets = s.besideSets := by
  simp [State.assignEngines]
@[simp] theorem State.loadLfsr_besideSets (old : ConfigSet) (epoch : Nat) (s : State) (v : ViewDef) :
    (s.loadLfsr old epoch v).besideSets = s.besideSets := by
  unfold State.loadLfsr
  split <;> rfl

/-- Of two states that agree beside what a swap carries over: the inhibit causes, and the rest of the state. -/
theorem State.of_besideSets {s t : State} (h : t.besideSets = s.besideSets) :
    t = { s with fabric := t.fabric, integrity := t.integrity, net := t.net, power := t.power, returns := t.returns, sched := t.sched
                 zone := t.zone } ∧ t.sched.inhibit = s.sched.inhibit := by
  refine ⟨?_, (congrArg (fun u => u.sched.inhibit) h :)⟩
  simp only [State.besideSets, State.mk.injEq] at h
  obtain ⟨hhost, -, hnvm, hclk, hemission, -, -, hsets, -, -, hangle, hmotion, haux, -, -, hhealth, hout, hfree, hpending⟩ := h
  exact State.ext_fields hhost rfl hnvm hclk hemission rfl rfl hsets rfl rfl hangle hmotion haux rfl rfl hhealth hout hfree hpending

/-! ### The swap -/

/-- The swap up to the exchange of the sets (R85): the sweep goes to the boundary, the shadow set becomes active, and the old set's
cells and groups end. -/
@[irreducible] def State.exchanged (s : State) : State :=
  let u := (if s.zone.swept.isSome then s.sweepTo 0 else s).installSet
  let v := (u.closeOldCells s.sets.epoch).endGroupsIf (·.epoch == s.sets.epoch)
  v.onSets fun k => { k with old := k.old.filter fun x => v.epochUsed x.1 || x.1 == s.sets.epoch }

@[simp] theorem State.driveZones_besideSets (s : State) : s.driveZones.besideSets = s.besideSets :=
  State.besideSets_of_beside (State.driveZones_beside s)
@[simp] theorem State.carryTrackers_besideSets (before : Nat → Option (List Byte)) (s : State) :
    (s.carryTrackers before).besideSets = s.besideSets := State.besideSets_of_beside (State.carryTrackers_beside before s)
@[simp] theorem State.carryRain_besideSets (old : ConfigSet) (s : State) : (s.carryRain old).besideSets = s.besideSets :=
  State.besideSets_of_beside (State.carryRain_beside old s)
@[simp] theorem State.carryAmbient_besideSets (old : ConfigSet) (s : State) : (s.carryAmbient old).besideSets = s.besideSets :=
  State.besideSets_of_beside (State.carryAmbient_beside old s)
@[simp] theorem State.carryFields_besideSets (old : ConfigSet) (s : State) : (s.carryFields old).besideSets = s.besideSets :=
  State.besideSets_of_beside (State.carryFields_beside old s)
@[simp] theorem State.reachOpened_besideSets (s : State) : s.reachOpened.besideSets = s.besideSets :=
  State.besideSets_of_beside (State.reachOpened_beside s)

theorem State.firstCells_besideSets (l : List Nat) (p : Nat × Nat × Nat → Bool) (s : State) :
    (s.onSched fun q => { q with broken := l, firstCells := q.firstCells.filter p }).besideSets = s.besideSets := by rfl

/-- Without a fade the release of fades does nothing. -/
theorem State.releaseFades_none {s : State} (h : ∀ x ∈ s.emission.emitters, x.fade = none) (l : List Nat) :
    l.foldl (fun s e => s.releaseFade e) s = s := by
  have hnone (e : Nat) : (s.emitter e).fade = none := by
    unfold State.emitter
    rw [List.getD_eq_getElem?_getD]
    cases hx : s.emission.emitters[e]? with
    | none => rfl
    | some x => exact h x (List.mem_of_getElem? hx)
  induction l with
  | nil => rfl
  | cons e l ih =>
    have hstep : s.releaseFade e = s := by
      unfold State.releaseFade
      rw [hnone e]
    rw [List.foldl_cons, hstep, ih]

theorem State.fadesReleased_besideSets {s u : State} (h : u.besideSets = s.besideSets) (hfade : ∀ x ∈ s.emission.emitters, x.fade = none) :
    ((List.range 16).foldl (fun s e => s.releaseFade e) u).besideSets = s.besideSets := by
  have hemission : u.emission = s.emission := State.emission_of_besideSets h
  rw [State.releaseFades_none (by rw [hemission]; exact hfade), h]

/-- A swap's exchange between two states that agree with its steps beside the histograms. -/
theorem State.exchange_facts {s r v : State} (hr : r.beside = s.beside) (hv : v.beside = r.installSet.beside) (f : Sets → Sets) :
    (v.onSets f).besideSets = ({ s with sets := f v.sets } : State).besideSets ∧
    v.sets.active = s.sets.shadow ∧ v.sets.shadow = s.sets.shadow ∧ v.sets.epoch = (s.sets.epoch + 1) % 65536 ∧
    v.sets.commits = [] ∧ v.sets.copying = true ∧ v.sets.lastSwap = s.stamp ∧ v.sets.live = s.sets.live := by
  have hsets := State.sets_of_beside hr
  have hvsets := State.sets_of_beside hv
  have hstamp : r.stamp = s.stamp := by simp only [State.stamp, State.clk_of_beside hr]
  have hv' : v.besideSets = { r.besideSets with sets := v.sets } := by
    rw [State.besideSets_of_beside hv, hvsets]
    rfl
  refine ⟨?_, ?_⟩
  · calc (v.onSets f).besideSets = { v.besideSets with sets := f v.sets } := rfl
      _ = { s.besideSets with sets := f v.sets } := by rw [hv', State.besideSets_of_beside hr]
  · rw [hvsets]
    exact ⟨(congrArg Sets.shadow hsets :), (congrArg Sets.shadow hsets :), (congrArg (fun k => (Sets.epoch k + 1) % 65536) hsets :),
      rfl, rfl, hstamp, (congrArg Sets.live hsets :)⟩

/-- The sets after the exchange, and what stands. -/
theorem State.exchanged_facts (s : State) : s.exchanged.besideSets = ({ s with sets := s.exchanged.sets } : State).besideSets ∧
    s.exchanged.sets.active = s.sets.shadow ∧ s.exchanged.sets.shadow = s.sets.shadow ∧ s.exchanged.sets.epoch = (s.sets.epoch + 1) % 65536 ∧
    s.exchanged.sets.commits = [] ∧ s.exchanged.sets.copying = true ∧ s.exchanged.sets.lastSwap = s.stamp ∧
    s.exchanged.sets.live = s.sets.live := by
  have hr : (if s.zone.swept.isSome then s.sweepTo 0 else s).beside = s.beside := by simp
  unfold State.exchanged
  generalize (if s.zone.swept.isSome then s.sweepTo 0 else s) = r at hr
  have hv : ((r.installSet.closeOldCells s.sets.epoch).endGroupsIf (·.epoch == s.sets.epoch)).beside = r.installSet.beside := by
    rw [State.endGroupsIf_beside, State.closeOldCells_beside]
  dsimp only
  generalize (r.installSet.closeOldCells s.sets.epoch).endGroupsIf (·.epoch == s.sets.epoch) = v at hv
  exact State.exchange_facts hr hv fun k => { k with old := k.old.filter fun x => v.epochUsed x.1 || x.1 == s.sets.epoch }

/-- The swap: the sets are exchanged, what carries over does, and the commit is answered. -/
theorem State.swap_facts (k : Commit) {s : State} (hfade : ∀ x ∈ s.emission.emitters, x.fade = none) :
    ∃ u : State, s.swap k = u.doneOn 0x0301 .activeSet k.cmd u.sets.epoch ∧ u.besideSets = s.exchanged.besideSets := by
  have hemission : s.exchanged.emission = s.emission :=
    Eq.trans (State.emission_of_besideSets s.exchanged_facts.1) rfl
  unfold State.swap
  refine ⟨_, rfl, ?_⟩
  rw [State.refreshPlan_besideSets, State.refreshChannels_besideSets, State.refreshDomains_besideSets]
  refine State.fadesReleased_besideSets ?_ (by rw [hemission]; exact hfade)
  rw [State.driveZones_besideSets, State.carryTrackers_besideSets, State.carryRain_besideSets, State.carryAmbient_besideSets,
    State.reachOpened_besideSets, State.carryFields_besideSets,
    State.onFabric_besideSets, State.assignEngines_besideSets, State.firstCells_besideSets, State.copyLost_besideSets,
    besideSets_foldl _ _ _ (fun t v => State.loadLfsr_besideSets _ _ t v)]
  unfold State.exchanged
  rfl

/-- SET_SWAP with its commit's time come (R85): the shadow set is active under the next epoch, and the commit is answered. -/
theorem State.swap_answers {k : Commit} {s : State} (hfade : ∀ x ∈ s.emission.emitters, x.fade = none) :
    let n := (s.sets.epoch + 1) % 65536
    let t := s.swap k
    t.sets.active = s.sets.shadow ∧ t.sets.shadow = s.sets.shadow ∧ t.sets.epoch = n ∧ t.sets.commits = [] ∧ t.sets.copying = true ∧
    t.sets.lastSwap = s.stamp ∧ t.sets.live = s.sets.live ∧ Finished 0x0301 k.cmd { s.block 0 0 n with epoch := n } [] s t ∧
    t.sched.inhibit = s.sched.inhibit ∧
    t = { s with fabric := t.fabric, host := t.host, integrity := t.integrity, net := t.net, power := t.power,
                 returns := t.returns, sched := t.sched, sets := t.sets, zone := t.zone } := by
  obtain ⟨u, hswap, hu⟩ := s.swap_facts k hfade
  obtain ⟨hex, hactive, hshadow, hepoch, hcommits, hcopying, hlast, hlive⟩ := s.exchanged_facts
  generalize s.exchanged.sets = sets at hex hactive hshadow hepoch hcommits hcopying hlast hlive
  have hall := hu.trans hex
  have hsets : u.sets = sets := Eq.trans (State.sets_of_besideSets hall) rfl
  have hstamp : u.stamp = s.stamp := by
    have hclk : u.clk = s.clk := Eq.trans (State.clk_of_besideSets hall) rfl
    simp only [State.stamp, hclk]
  obtain ⟨hframe, hinhibit⟩ := State.of_besideSets hall
  have hdone := u.doneOn_frame 0x0301 .activeSet k.cmd u.sets.epoch
  have hfin := u.doneOn_finished 0x0301 .activeSet k.cmd u.sets.epoch
  have hblock : u.block 0 0 u.sets.epoch = { s.block 0 0 ((s.sets.epoch + 1) % 65536) with epoch := (s.sets.epoch + 1) % 65536 } := by
    simp only [State.block, hsets, hepoch, hstamp]
  rw [hblock] at hfin
  intro n t
  rw [show t = _ from hswap]
  generalize u.doneOn 0x0301 .activeSet k.cmd u.sets.epoch = v at hdone hfin
  have hvsets : v.sets = sets := (congrArg State.sets hdone).trans hsets
  rw [hvsets]
  refine ⟨hactive, hshadow, hepoch, hcommits, hcopying, hlast, hlive,
    hfin.of_host (Eq.trans (State.host_of_besideSets hall) rfl), ?_, ?_⟩
  · exact (congrArg (fun u => u.sched.inhibit) hdone).trans hinhibit
  · rw [← hvsets, hdone, hframe]

/-- May a swap happen now (R85, R86): at a boundary with its decision, or at a strobe while no boundary can come? -/
def State.swapDue (k : Commit) (s : State) : Prop :=
  (s.angle.lastBoundary = some s.now ∧ k.at_ + us 100 ≤ s.now ∧ s.sets.decided = some true) ∨
  ((s.sched.inhibit.getLsbD 2 = true ∨ s.sched.inhibit.getLsbD 3 = true) ∧ s.clk.pllLocked = true ∧
    s.clk.tickCount % 128000 = 0 ∧ s.swapReady = true)

theorem setSwap_one {k : Commit} {s : State} (hk : s.sets.commits = [k]) :
    setSwap s = if !s.sets.copying && (s.angle.lastBoundary == some s.now && decide (k.at_ + us 100 ≤ s.now) && s.swapCertain ||
      s.noBoundary && s.clk.pllLocked && s.clk.tickCount % 128000 == 0 && s.swapReady) then s.swap k else s := by
  unfold setSwap
  rw [hk]

theorem State.swapDue_iff {k : Commit} {s : State} : s.swapDue k ↔
    (s.angle.lastBoundary == some s.now && decide (k.at_ + us 100 ≤ s.now) && s.swapCertain ||
      s.noBoundary && s.clk.pllLocked && s.clk.tickCount % 128000 == 0 && s.swapReady) = true := by
  simp [State.swapDue, State.swapCertain, State.noBoundary, State.causeSet, causeAngle, causeSpeed, and_assoc]

theorem setSwap_waits {k : Commit} {s : State} (hk : s.sets.commits = [k]) (h : s.sets.copying = true ∨ ¬ s.swapDue k) :
    setSwap s = s := by
  rw [setSwap_one hk]
  refine if_neg ?_
  rw [Bool.and_eq_true, ← State.swapDue_iff]
  rintro ⟨hcopy, hdue⟩
  rcases h with h | h
  · simp [h] at hcopy
  · exact h hdue

theorem setSwap_swaps {k : Commit} {s : State} (hk : s.sets.commits = [k]) (hcopy : s.sets.copying = false) (h : s.swapDue k) :
    setSwap s = s.swap k := by
  rw [setSwap_one hk]
  refine if_pos ?_
  rw [State.swapDue_iff] at h
  rw [h, hcopy]
  rfl

/-! ### SET_COMMIT and SET_READ -/

/-- A commit that is accepted is among the swaps that wait. -/
theorem State.dropCommit_kept {c : Cmd} {s t : State} (h : c ∈ t.unswapped) : s.dropCommit c t = t := by
  refine if_neg ?_
  simp [h]

/-- SET_COMMIT arms the swap, or waits for what the sets still do (R83, R85). -/
theorem setCommit_row {c : Cmd} {s : State} (h : Accepted setCommitInfo c s) :
    ∃ t, exec (.setCommit c) s = .next t ∧ Silent c s t ∧
    (s.setsBusy = false → t.sets = { s.sets with commits := [{ cmd := c, state := s.commitState c, at_ := s.clk.now }] }) ∧
    (s.setsBusy = true → t.sets = { s.sets with waiting := s.sets.waiting ++ [(0x0301, c)] }) ∧
    t = { s with host := t.host, sets := t.sets } := by
  have hstate := State.commitState_onLive .executing (h.live (h.sequenced rfl))
  have hrun := State.run_accepted _ _ (setCommitEffect c) _ h
  have hsilentLive : Silent c s (s.onLive c (Live.withState .executing)) := ⟨by simp, HostKept.onLive c _ s⟩
  obtain ⟨j, hj⟩ := s.onLive_frame c (Live.withState .executing)
  rw [show s.onLive c (fun l => { l with state := .executing }) = s.withJournal j from hj] at hrun
  rw [hj] at hstate hsilentLive
  have hsilent : Silent c s (s.withJournal j) := hsilentLive
  let u := s.withJournal j
  have hcommit (f : Sets → Sets) (hset : setCommitEffect c u = ((u.onSets f).setPending .activeSet c).notBegun c)
      (hin : c ∈ (f s.sets).commits.map (·.cmd) ∨ (0x0301, c) ∈ (f s.sets).waiting) :
      ∃ t, exec (.setCommit c) s = .next t ∧ Silent c s t ∧ t.sets = f s.sets ∧ t = { s with host := t.host, sets := t.sets } := by
    obtain ⟨j', hj'⟩ := ((u.onSets f).setPending .activeSet c).onLive_frame c fun l => { l with state := l.interimState }
    have hkept : s.dropCommit c (((u.onSets f).setPending .activeSet c).notBegun c) = ((u.onSets f).setPending .activeSet c).notBegun c := by
      refine State.dropCommit_kept ?_
      have hsets : (((u.onSets f).setPending .activeSet c).notBegun c).sets = f s.sets := congrArg State.sets hj'
      rw [State.unswapped, hsets]
      rcases hin with h | h
      · exact List.mem_append_left _ (List.mem_append_left _ h)
      · refine List.mem_append_left _ (List.mem_append_right _ (List.mem_map.mpr ⟨_, List.mem_filter.mpr ⟨h, rfl⟩, rfl⟩))
    refine ⟨((u.onSets f).setPending .activeSet c).notBegun c, ?_, ?_, congrArg State.sets hj', ?_⟩
    · exact congrArg Host.Outcome.next ((congrArg (s.dropCommit c) (hrun.trans hset)).trans hkept)
    · exact hsilent.trans ((Silent.of_host (s := u) (t := u.onSets f) rfl).trans
        ((State.setPending_silent .activeSet c (u.onSets f)).trans (State.notBegun_silent c _)))
    · have hv : ((u.onSets f).setPending .activeSet c).notBegun c = _ := hj'
      generalize ((u.onSets f).setPending .activeSet c).notBegun c = v at hv
      rw [hv]
      rfl
  by_cases hbusy : s.setsBusy = true
  · obtain ⟨t, hexec, hs, hsets, hframe⟩ := hcommit (fun k => { k with waiting := k.waiting ++ [(0x0301, c)] })
      (if_pos (c := u.setsBusy = true) hbusy) (.inr (List.mem_append_right _ (List.mem_singleton_self _)))
    exact ⟨t, hexec, hs, fun hfree => absurd hbusy (by simp [hfree]), fun _ => hsets, hframe⟩
  · obtain ⟨t, hexec, hs, hsets, hframe⟩ := hcommit (fun k => { k with commits := [{ cmd := c, state := u.commitState c, at_ := u.now }] })
      (if_neg (c := u.setsBusy = true) hbusy) (.inl (by simp))
    refine ⟨t, hexec, hs, fun _ => hsets.trans ?_, fun hb => absurd hb hbusy, hframe⟩
    rw [show u.commitState c = s.commitState c from hstate]
    rfl

/-- SET_READ of a set whose words can be read (R92), and of one that has lost some (R388). -/
theorem State.lostRow_eq {shadow : Bool} {row : Nat} {s : State} (h : s.lostRow shadow = some row) : row = 4 ∨ row = 5 := by
  unfold State.lostRow at h
  dsimp only at h
  generalize s.integrity.lost.filter _ = l at h
  split at h
  · exact .inl (Option.some.inj h).symm
  · split at h
    · exact absurd h (by simp)
    · exact .inr (Option.some.inj h).symm

theorem State.setData_epoch (sel : Nat) (s : State) :
    u16 (s.setData sel) 0 = (if sel = 0 then s.sets.epoch else s.sets.epoch + 1) % 65536 := by
  unfold State.setData
  dsimp only
  simp only [List.append_assoc]
  generalize (if sel = 0 then s.sets.epoch else s.sets.epoch + 1) = n
  exact u16_of_bytes rfl rfl

theorem setRead_row {c : Cmd} {s : State} (h : Accepted setReadInfo c s) :
    (∀ row, s.lostRow (u8 c.payload 0 == 1) = some row → (row = 4 ∨ row = 5) ∧ ∃ t, exec (.setRead c) s = .next t ∧
      Finished 0x0303 c (s.block 0x22 row 0) [] s t ∧ t = { s with host := t.host }) ∧
    (s.lostRow (u8 c.payload 0 == 1) = none → ∃ t d, exec (.setRead c) s = .next t ∧
      Finished 0x0303 c (s.block 0 0 s.sets.epoch) d s t ∧ u16 d 0 =
        (if u8 c.payload 0 = 0 then s.sets.epoch else s.sets.epoch + 1) % 65536 ∧ t = { s with host := t.host }) := by
  obtain ⟨j, hsilent, hrun⟩ := State.run_from h
  refine ⟨fun row hrow => ⟨State.lostRow_eq hrow, ?_⟩, fun hnone => ?_⟩
  · have heff : setReadEffect c (s.withJournal j) = (s.withJournal j).finish 0x0303 c stFaultMemory row 0 [] := by
      unfold setReadEffect
      rw [show (s.withJournal j).lostRow (u8 c.payload 0 == 1) = some row from hrow]
    exact ⟨_, congrArg Host.Outcome.next ((hrun _).trans heff), State.finish_from hsilent rfl rfl, State.finish_frame ..⟩
  · have heff : setReadEffect c (s.withJournal j) =
        (s.withJournal j).finish 0x0303 c stOk 0 s.sets.epoch ((s.withJournal j).setData (u8 c.payload 0)) := by
      unfold setReadEffect
      rw [show (s.withJournal j).lostRow (u8 c.payload 0 == 1) = none from hnone]
      rfl
    exact ⟨_, _, congrArg Host.Outcome.next ((hrun _).trans heff), State.finish_from hsilent rfl rfl,
      State.setData_epoch (u8 c.payload 0) (s.withJournal j), State.finish_frame ..⟩

/-! ### The copy, the release and the boundary -/

theorem State.runAllWaiting_none {s : State} (h : s.sets.waiting = []) : s.runAllWaiting = s := by
  unfold State.runAllWaiting
  rw [h]
  show s.onSets (fun k => { k with waiting := [] }) = s
  have hsets : ({ s.sets with waiting := [] } : Sets) = s.sets := by rw [← h]
  exact congrArg (fun k => { s with sets := k }) hsets

theorem State.leaveDone_frame (s : State) (g : Nat) : ∃ e d, s.leaveDone g =
    { s with fabric := { s.fabric with engines := e }, power := { s.power with domains := d } } := by
  unfold State.leaveDone
  dsimp only
  split
  · exact ⟨s.fabric.engines, s.power.domains, rfl⟩
  · exact ⟨_, _, rfl⟩

theorem State.leaveAll_frame (s : State) : ∃ e d, s.leaveAll =
    { s with fabric := { s.fabric with engines := e }, power := { s.power with domains := d } } := by
  have hfold : ∀ (l : List Nat) (u : State), ∃ e d, l.foldl State.leaveDone u =
      { u with fabric := { u.fabric with engines := e }, power := { u.power with domains := d } } := by
    intro l
    induction l with
    | nil => exact fun u => ⟨u.fabric.engines, u.power.domains, rfl⟩
    | cons g l ih =>
      intro u
      obtain ⟨e, d, h⟩ := u.leaveDone_frame g
      obtain ⟨e', d', h'⟩ := ih (u.leaveDone g)
      exact ⟨e', d', h'.trans (by rw [h])⟩
  exact hfold _ s

theorem viewRelease_keeps {h : Nat} {s : State} (hk : h ∉ s.sets.retiring ∨ (s.activeView h).isSome ∨ s.viewBusy h = true) :
    viewRelease h s = s := by
  refine if_pos ?_
  rcases hk with hk | hk | hk <;> simp [hk]

/-- A retiring view that has left everything is released (R81). -/
theorem viewRelease_releases {h : Nat} {s : State} (hret : h ∈ s.sets.retiring) (hleft : s.activeView h = none) (hidle : s.viewBusy h = false) :
    ∃ t, exec (.viewRelease h) s = .next t ∧ t.sets = { s.sets with retiring := s.sets.retiring.filter (· != h) } ∧
      t.sched.queue = s.sched.queue ∧ t = { s with sets := t.sets, fabric := t.fabric, sched := t.sched, power := t.power } := by
  let u := ((s.onSets fun k => { k with retiring := k.retiring.filter (· != h) }).onFabric fun b =>
    { b with prevTops := b.prevTops.filter (·.view != h) }).onSched fun k =>
      { k with lfsrs := k.lfsrs.filter (·.view != h), lastBase := k.lastBase.filter (·.1 != h),
               firstCells := k.firstCells.filter (·.1 != h) }
  obtain ⟨e, d, hleave⟩ := u.leaveAll_frame
  obtain ⟨d', hd⟩ := u.leaveAll.refreshDomains_frame
  have hstep : viewRelease h s = u.leaveAll.refreshDomains := if_neg (by simp [hret, hleft, hidle])
  rw [hd, hleave] at hstep
  exact ⟨_, congrArg Host.Outcome.next hstep, rfl, rfl, rfl⟩

theorem State.doneEach_frame (l : List (Nat × Cmd)) (gen : Nat) (s : State) :
    ∃ host, l.foldl (fun (s : State) x => s.done x.1 x.2 gen) s = { s with host := host } := by
  induction l generalizing s with
  | nil => exact ⟨s.host, rfl⟩
  | cons x l ih =>
    obtain ⟨host, h⟩ := ih (s.done x.1 x.2 gen)
    exact ⟨host, h.trans (by rw [State.done_frame])⟩

/-- What is keyed to the boundary in the angle part: the instant of the last boundary stands. -/
theorem State.angleBoundary_frame (s : State) : ∃ angle host, s.angleBoundary = { s with angle := angle, host := host } ∧
    angle.lastBoundary = s.angle.lastBoundary := by
  have htake (u : State) : ∃ angle host, u.cycTake = { u with angle := angle, host := host } ∧
      angle.lastBoundary = u.angle.lastBoundary := by
    unfold State.cycTake
    dsimp only
    split
    all_goals
      obtain ⟨host, h⟩ := State.doneEach_frame _ _ _
      rw [h]
      exact ⟨_, _, rfl, rfl⟩
  unfold State.angleBoundary
  dsimp only
  generalize hu : s.onAngle _ = u
  obtain ⟨angle, host, h, hb⟩ := htake u
  rw [h]
  subst hu
  exact ⟨_, _, rfl, hb⟩

theorem State.bezelBoundary_frame (s : State) : ∃ aux health host nvm,
    s.bezelBoundary = { s with aux := aux, health := health, host := host, nvm := nvm } := by
  unfold State.bezelBoundary
  dsimp only
  split
  · split
    · unfold State.bezelLearned
      dsimp only
      generalize hu : State.onAux _ (State.onAux _ s) = u
      obtain ⟨q, w, h⟩ := u.storeAfter_frame 0x0905 recBezel _ _
      rw [h]
      subst hu
      exact ⟨_, _, _, _, rfl⟩
    · exact ⟨_, _, _, _, rfl⟩
  · exact ⟨_, _, _, _, rfl⟩

/-- A revolution boundary (R196, R330): sectors count down and the rain maps turn over. -/
theorem revolutionBoundary_turns {s : State} (h : s.atBoundary = true) :
    ∃ t, exec .revolutionBoundary s = .next t ∧ t.angle.lastBoundary = some s.clk.now ∧
      t.sched = { s.sched with sectors := s.sched.sectors.map (fun x => { x with revs := x.revs - 1 }),
                               nfAllRevs := s.sched.nfAllRevs - 1 } ∧
      t.fabric.rain = turnRain s.fabric.rain ∧ t.sets = s.sets ∧
      t = { s with angle := t.angle, aux := t.aux, fabric := t.fabric, health := t.health, host := t.host, nvm := t.nvm,
                   sched := t.sched } := by
  let span := s.angle.lastBoundary.map fun t => s.now - t
  let u := ((s.onAngle fun a => { a with lastBoundary := some s.now }).onSched fun k =>
    { k with sectors := k.sectors.map fun (x : Sector) => ({ x with revs := x.revs - 1 } : Sector), nfAllRevs := k.nfAllRevs - 1 }).onFabric
      fun b => { b with streams := b.streams.map (Stream.turnOver span), rain := turnRain b.rain }
  have hstep : revolutionBoundary s = u.angleBoundary.bezelBoundary := if_neg (by simp [h])
  obtain ⟨angle, host, ha, hb⟩ := u.angleBoundary_frame
  obtain ⟨aux, health, host', nvm, hz⟩ := u.angleBoundary.bezelBoundary_frame
  rw [hz, ha] at hstep
  exact ⟨_, congrArg Host.Outcome.next hstep, hb, rfl, rfl, rfl, rfl⟩

/-! ### The obligation -/

/-- Settles O14: the swap through the exchange and the state beside what it carries over, the rest row by row. -/
theorem setsSwapCopyAndRelease : Obligations.SetsSwapCopyAndRelease := by
  refine ⟨⟨fun c s h => setCommit_row h, fun k s hk => ?_, fun s h => ?_, fun c s h => setRead_row h⟩,
    fun s hcopy hwait => ?_, fun s hcopy hwait => ?_, fun h s => ⟨fun hk => congrArg Host.Outcome.next (viewRelease_keeps hk),
      fun hret hleft hidle => viewRelease_releases hret hleft hidle⟩, fun s => ⟨fun h => ?_, fun h => revolutionBoundary_turns h⟩⟩
  · refine ⟨fun h => congrArg Host.Outcome.next (setSwap_waits hk h), fun hcopy hdue hfade => ?_⟩
    exact ⟨_, congrArg Host.Outcome.next (setSwap_swaps hk hcopy hdue), State.swap_answers hfade⟩
  · refine congrArg Host.Outcome.next (?_ : setSwap s = s)
    unfold setSwap
    rw [h]
  · let u := (s.onSets fun k => { k with copying := false }).onShadow fun _ =>
      { s.sets.active with views := s.sets.active.views.filter fun v => s.sets.live.contains v.handle }
    have hstep : shadowCopyComplete s = u := by
      unfold shadowCopyComplete
      rw [if_pos hcopy]
      exact State.runAllWaiting_none (s := u) hwait
    obtain ⟨power, hu⟩ := (s.onSets fun k => { k with copying := false }).onShadow_frame fun _ =>
      { s.sets.active with views := s.sets.active.views.filter fun v => s.sets.live.contains v.handle }
    refine ⟨_, congrArg Host.Outcome.next (hstep.trans hu), rfl, rfl⟩
  · refine congrArg Host.Outcome.next ((if_neg (by simp [hcopy])).trans (if_neg (by simp [hwait])))
  · exact congrArg Host.Outcome.next (if_pos (by simp [h]))

end Sys2Proof.Machine

/-! ## A packet reads back as its command (O11) -/

namespace Sys2Proof.Machine

/-- The header of a command's packet before its check value: bytes 0 to 13 of Table 2.1. -/
def packetHead (op : Nat) (c : Cmd) : List Byte :=
  le 2 0x6D4B ++ le 1 1 ++ le 1 (flag c.unseq 4 + flag c.fence 3) ++ le 2 op ++ le 2 c.tag ++ le 1 c.queue ++
    le 1 (cmdLen c) ++ le 4 c.seq

/-- The whole header, bytes 0 to 15. -/
def packetHeader (op : Nat) (c : Cmd) : List Byte := packetHead op c ++ le 2 (crc16 (packetHead op c))

/-- A packet is its header, its payload and its trailer. -/
theorem packetBytes_parts (op : Nat) (c : Cmd) : packetBytes op c = packetHeader op c ++ (c.payload ++ le 4 c.trailer) :=
  List.append_assoc ..

theorem packetHeader_length (op : Nat) (c : Cmd) : (packetHeader op c).length = 16 := rfl

theorem packetBytes_length (op : Nat) (c : Cmd) : (packetBytes op c).length = 20 + c.payload.length := by
  rw [packetBytes_parts, List.length_append, List.length_append, packetHeader_length, show (le 4 c.trailer).length = 4 from rfl]
  omega

section
variable (op : Nat) (c : Cmd)

/-! ### The header's fields -/

theorem packet_magic : u16 (packetBytes op c) 0 = 0x6D4B := u16_of_bytes (n := 0x6D4B) rfl rfl

theorem packet_version : pkVersion (packetBytes op c) = 1 := u8_of_byte (n := 1) rfl

theorem packet_flags : pkFlags (packetBytes op c) = (flag c.unseq 4 + flag c.fence 3) % 256 := u8_of_byte rfl

theorem packet_opcode : pkOpcode (packetBytes op c) = op % 2 ^ 16 := u16_of_bytes (n := op) rfl rfl

theorem packet_tag : pkTag (packetBytes op c) = c.tag % 2 ^ 16 := u16_of_bytes (n := c.tag) rfl rfl

theorem packet_queue : pkQueue (packetBytes op c) = c.queue % 256 := u8_of_byte rfl

theorem packet_len : pkLength (packetBytes op c) = cmdLen c % 256 := u8_of_byte rfl

theorem packet_seq : pkSeq (packetBytes op c) = c.seq % 2 ^ 32 := u32_of_bytes (n := c.seq) rfl rfl rfl rfl

theorem packet_unseq : pkUnseq (packetBytes op c) = c.unseq := by
  rw [pkUnseq, packet_flags]
  cases c.unseq <;> cases c.fence <;> rfl

theorem packet_fence : pkFence (packetBytes op c) = c.fence := by
  rw [pkFence, packet_flags]
  cases c.unseq <;> cases c.fence <;> rfl

/-- The header's check value is the CRC-16 of the 14 bytes before it. -/
theorem packet_headerCheck : crc16 ((packetBytes op c).take 14) = u16 (packetBytes op c) 14 := by
  have htake : (packetBytes op c).take 14 = packetHead op c := rfl
  have hread : u16 (packetBytes op c) 14 = crc16 (packetHead op c) % 2 ^ 16 := u16_of_bytes (n := crc16 (packetHead op c)) rfl rfl
  rw [htake, hread]
  exact (Nat.mod_eq_of_lt (BitVec.isLt _)).symm

/-! ### Payload and trailer -/

theorem packet_payload : slice (packetBytes op c) 16 ((packetBytes op c).length - 20) = c.payload := by
  rw [packetBytes_length, packetBytes_parts, slice, List.drop_left' (packetHeader_length op c)]
  exact List.take_left' (by omega)

theorem packet_trailer : u32 (packetBytes op c) ((packetBytes op c).length - 4) = c.trailer % 2 ^ 32 := by
  rw [packetBytes_length, show 20 + c.payload.length - 4 = 16 + (c.payload.length + 0) by omega, packetBytes_parts,
    u32_append_right _ (packetHeader_length op c), u32_append_right _ rfl]
  exact u32_of_bytes (n := c.trailer) rfl rfl rfl rfl

end

/-! ### Read back -/

/-- The limits that `Cmd.wf` sets on a command's fields. -/
theorem Cmd.bounds_of_wf {c : Cmd} (h : c.wf = true) :
    c.tag < 2 ^ 16 ∧ c.queue < 4 ∧ c.seq < 2 ^ 32 ∧ c.trailer < 2 ^ 32 ∧ c.payload.length % 16 = 0 ∧ c.payload.length ≤ 4080 := by
  simp only [Cmd.wf, Bool.and_eq_true, decide_eq_true_eq, beq_iff_eq] at h
  obtain ⟨⟨⟨⟨⟨⟨-, htag⟩, hqueue⟩, hseq⟩, htrailer⟩, hunits⟩, hlen⟩ := h
  exact ⟨htag, hqueue, hseq, htrailer, hunits, hlen⟩

/-- A well-formed command is what its packet's fields say. -/
theorem pkCmd_packetBytes {c : Cmd} (op : Nat) (h : c.wf = true) : pkCmd c.via (packetBytes op c) = c := by
  obtain ⟨htag, hqueue, hseq, htrailer, -, -⟩ := Cmd.bounds_of_wf h
  rw [pkCmd, packet_tag, packet_queue, packet_seq, packet_unseq, packet_fence, packet_payload, packet_trailer,
    Nat.mod_eq_of_lt htag, Nat.mod_eq_of_lt (hqueue.trans (by decide)), Nat.mod_eq_of_lt hseq, Nat.mod_eq_of_lt htrailer]

/-- LEN of a well-formed command's packet gives its length. -/
theorem packet_length_of_len {c : Cmd} (op : Nat) (h : c.wf = true) :
    (packetBytes op c).length = 20 + 16 * pkLength (packetBytes op c) := by
  obtain ⟨-, -, -, -, hunits, hlen⟩ := Cmd.bounds_of_wf h
  rw [packetBytes_length, packet_len, cmdLen]
  omega

/-- Settles O11: every header field is wide enough for a well-formed command's, so each reads back as written, and so do the check values. -/
theorem packetReadsBackAsItsCommand : Obligations.PacketReadsBackAsItsCommand := by
  unfold Obligations.PacketReadsBackAsItsCommand
  intro op c h hop b hcheck
  obtain ⟨-, -, -, htrailer, -, -⟩ := Cmd.bounds_of_wf h
  have hlen : 16 ≤ b.length := (show 16 ≤ 20 + c.payload.length by omega).trans (packetBytes_length op c).ge
  have hlast : u32 b (b.length - 4) = c.trailer := (packet_trailer op c).trans (Nat.mod_eq_of_lt htrailer)
  exact ⟨(packet_opcode op c).trans (Nat.mod_eq_of_lt hop), pkCmd_packetBytes op h, packet_version op c, hlen, packet_magic op c,
    packet_headerCheck op c, packet_length_of_len op h, hcheck.symm.trans hlast.symm⟩

end Sys2Proof.Machine

/-! ## What the loss of a word leaves: records, configuration sets and the regions' figures (O50) -/

namespace Sys2Proof.Machine

/-- The parts that no loss of a word changes: eMRAM, the configuration sets and the figures of the memory regions. -/
def State.lossView (s : State) : Nvm × Sets × List MemRegion := (s.nvm, s.sets, s.integrity.regions)

@[simp] theorem lossView_ite (p : Prop) [Decidable p] (s t : State) :
    (if p then s else t).lossView = if p then s.lossView else t.lossView := apply_ite State.lossView p s t

@[simp] theorem lossView_foldl {α : Type} (f : State → α → State) (l : List α) (s : State)
    (h : ∀ t a, (f t a).lossView = t.lossView) : (l.foldl f s).lossView = s.lossView := by
  induction l generalizing s with
  | nil => rfl
  | cons a l ih => exact (ih _).trans (h s a)

theorem lossView_foldl_fst {α β : Type} (f : State × β → α → State × β) (l : List α) (x : State × β)
    (h : ∀ y a, (f y a).1.lossView = y.1.lossView) : (l.foldl f x).1.lossView = x.1.lossView := by
  induction l generalizing x with
  | nil => rfl
  | cons a l ih => exact (ih _).trans (h x a)

@[simp] theorem State.onReturns_lossView (f : Returns → Returns) (s : State) : (s.onReturns f).lossView = s.lossView := by rfl

@[simp] theorem State.onHost_lossView (f : HostSide → HostSide) (s : State) : (s.onHost f).lossView = s.lossView := by rfl
@[simp] theorem State.onPower_lossView (f : Power → Power) (s : State) : (s.onPower f).lossView = s.lossView := by rfl
@[simp] theorem State.onEmission_lossView (f : Emission → Emission) (s : State) : (s.onEmission f).lossView = s.lossView := by
  rfl
@[simp] theorem State.onSched_lossView (f : Sched → Sched) (s : State) : (s.onSched f).lossView = s.lossView := by rfl
@[simp] theorem State.onZone_lossView (f : Zone → Zone) (s : State) : (s.onZone f).lossView = s.lossView := by rfl
@[simp] theorem State.onFabric_lossView (f : Fabric → Fabric) (s : State) : (s.onFabric f).lossView = s.lossView := by rfl
@[simp] theorem State.onAngle_lossView (f : Angle → Angle) (s : State) : (s.onAngle f).lossView = s.lossView := by rfl
@[simp] theorem State.onMotion_lossView (f : Motion → Motion) (s : State) : (s.onMotion f).lossView = s.lossView := by rfl
@[simp] theorem State.onAux_lossView (f : Aux → Aux) (s : State) : (s.onAux f).lossView = s.lossView := by rfl
@[simp] theorem State.onNet_lossView (f : Net → Net) (s : State) : (s.onNet f).lossView = s.lossView := by rfl
@[simp] theorem State.onIntegrity_lossView (f : Integrity → Integrity) (s : State) (h : ∀ k, (f k).regions = k.regions) :
    (s.onIntegrity f).lossView = s.lossView := by simp [State.lossView, h]
@[simp] theorem State.onHealth_lossView (f : Health → Health) (s : State) : (s.onHealth f).lossView = s.lossView := by rfl
@[simp] theorem State.emit_lossView (o : Out) (s : State) : (s.emit o).lossView = s.lossView := by rfl
@[simp] theorem State.freeNext_lossView (s : State) : (s.freeNext).lossView = s.lossView := by rfl
@[simp] theorem State.onQueue_lossView (q : Nat) (f : Queue → Queue) (s : State) : (s.onQueue q f).lossView = s.lossView := by
  rfl
@[simp] theorem State.onJournal_lossView (f : Journal → Journal) (s : State) : (s.onJournal f).lossView = s.lossView := by rfl
@[simp] theorem State.onEmitter_lossView (e : Nat) (f : Emitter → Emitter) (s : State) :
    (s.onEmitter e f).lossView = s.lossView := by
  rfl
@[simp] theorem State.onChannel_lossView (c : Nat) (f : Channel → Channel) (s : State) :
    (s.onChannel c f).lossView = s.lossView := by
  rfl
@[simp] theorem State.onTile_lossView (t : Nat) (f : Tile → Tile) (s : State) : (s.onTile t f).lossView = s.lossView := by rfl
@[simp] theorem State.onStream_lossView (n : Nat) (f : Stream → Stream) (s : State) :
    (s.onStream n f).lossView = s.lossView := by
  rfl
@[simp] theorem State.onEngine_lossView (g : Nat) (f : Engine → Engine) (s : State) :
    (s.onEngine g f).lossView = s.lossView := by
  rfl
@[simp] theorem State.onLoop_lossView (n : Nat) (f : Loop → Loop) (s : State) : (s.onLoop n f).lossView = s.lossView := by rfl
@[simp] theorem State.onPort_lossView (p : Nat) (f : Port → Port) (s : State) : (s.onPort p f).lossView = s.lossView := by rfl
@[simp] theorem State.post_lossView (r : Reply) (s : State) : (s.post r).lossView = s.lossView := by rfl
@[simp] theorem State.updateDup_lossView (q seq tr : Nat) (f : DupRec → DupRec) (s : State) :
    (s.updateDup q seq tr f).lossView = s.lossView := by rfl
@[simp] theorem State.applied_lossView (o : Obj) (c : Cmd) (b : StatusBlock) (s : State) :
    (s.applied o c b).lossView = s.lossView := by rfl
@[simp] theorem State.onLive_lossView (c : Cmd) (f : Live → Live) (s : State) : (s.onLive c f).lossView = s.lossView := by
  unfold State.onLive; split <;> simp
@[simp] theorem State.recordDone_lossView (c : Cmd) (r : Reply) (s : State) : (s.recordDone c r).lossView = s.lossView := by
  unfold State.recordDone; split <;> simp
@[simp] theorem State.finishWith_lossView (op : Nat) (c : Cmd) (b : StatusBlock) (d : List Byte) (s : State) :
    (s.finishWith op c b d).lossView = s.lossView := by simp [State.finishWith]
@[simp] theorem State.finish_lossView (op : Nat) (c : Cmd) (st det res : Nat) (d : List Byte) (s : State) :
    (s.finish op c st det res d).lossView = s.lossView := by simp [State.finish]
@[simp] theorem State.done_lossView (op : Nat) (c : Cmd) (res : Nat) (s : State) : (s.done op c res).lossView = s.lossView := by
  simp [State.done]
@[simp] theorem State.onUnit_lossView (u : Nat) (f : CheckUnit → CheckUnit) (s : State) :
    (s.onUnit u f).lossView = s.lossView := by
  rfl
@[simp] theorem State.unitItem_lossView (u : Nat) (bytes : List Byte) (s : State) :
    (s.unitItem u bytes).lossView = s.lossView := by
  rfl
@[simp] theorem State.unitLoads_lossView (u running n : Nat) (s : State) : (s.unitLoads u running n).lossView = s.lossView := by
  rfl
@[simp] theorem State.parkGalvo_lossView (s : State) : s.parkGalvo.lossView = s.lossView := by rfl
@[simp] theorem State.onArbiterQueue_lossView (f : List Activity → List Activity) (s : State) :
    (s.onArbiterQueue f).lossView = s.lossView := by rfl
@[simp] theorem State.request_lossView (a : Activity) (s : State) : (s.request a).lossView = s.lossView := by
  simp [State.request]
@[simp] theorem State.trigger_lossView (code scope target row : Nat) (s : State) :
    (s.trigger code scope target row).lossView = s.lossView := by simp [State.trigger]
@[simp] theorem State.coreTrouble_lossView (e row : Nat) (s : State) : (s.coreTrouble e row).lossView = s.lossView := by
  simp [State.coreTrouble]
@[simp] theorem State.rowTrouble_lossView (bank row : Nat) (s : State) : (s.rowTrouble bank row).lossView = s.lossView := by
  simp [State.rowTrouble]
@[simp] theorem State.charge_lossView (e de : Nat) (s : State) : (s.charge e de).lossView = s.lossView := by rfl
@[simp] theorem State.unreserve_lossView (e q : Nat) (s : State) : (s.unreserve e q).lossView = s.lossView := by rfl
@[simp] theorem State.settle_lossView (e : Nat) (s : State) : (s.settle e).lossView = s.lossView := by
  simp only [State.settle]; split <;> simp
@[simp] theorem State.parkOutput_lossView (e : Nat) (s : State) : (s.parkOutput e).lossView = s.lossView := by
  simp only [State.parkOutput]; split <;> simp
@[simp] theorem State.endDirect_lossView (e st det : Nat) (s : State) : (s.endDirect e st det).lossView = s.lossView := by
  unfold State.endDirect; split <;> simp
@[simp] theorem State.abandonFade_lossView (e det : Nat) (running : Bool) (s : State) :
    (s.abandonFade e det running).lossView = s.lossView := by unfold State.abandonFade; split <;> simp
@[simp] theorem State.parkAll_lossView (s : State) : s.parkAll.lossView = s.lossView := by simp [State.parkAll]
@[simp] theorem State.onSlot_lossView (e n : Nat) (f : Slot → Slot) (s : State) : (s.onSlot e n f).lossView = s.lossView := by
  rfl
@[simp] theorem State.eccFail_lossView (e n : Nat) (s : State) : (s.eccFail e n).lossView = s.lossView := by rfl
@[simp] theorem State.closeHist_lossView (ch : Nat) (h : Hist) (s : State) : (s.closeHist ch h).lossView = s.lossView := by
  simp [State.closeHist]
@[simp] theorem State.updHist_lossView (ch view cell epoch : Nat) (f : Hist → Hist) (s : State) :
    (s.updHist ch view cell epoch f).lossView = s.lossView := by simp only [State.updHist]; split <;> simp
@[simp] theorem State.driveZones_lossView (s : State) : s.driveZones.lossView = s.lossView := by simp [State.driveZones]
@[simp] theorem State.onField_lossView (n : Nat) (f : FieldRun → FieldRun) (s : State) :
    (s.onField n f).lossView = s.lossView := by
  simp [State.onField]
@[simp] theorem State.enterField_lossView (n : Nat) (st : FieldState) (s : State) :
    (s.enterField n st).lossView = s.lossView := by
  simp [State.enterField]
@[simp] theorem State.decideCell_lossView (n : Nat) (v : ViewDef) (j : Nat) (observed occupied : Bool) (near : Nat)
    (s : State) : (s.decideCell n v j observed occupied near).lossView = s.lossView := by
      simp only [State.decideCell]
      split <;> simp
@[simp] theorem State.breakSweep_lossView (unseen : Nat → List Byte → Bool) (s : State) :
    (s.breakSweep unseen).lossView = s.lossView := by simp [State.breakSweep]
@[simp] theorem State.loseSweep_lossView (s : State) : s.loseSweep.lossView = s.lossView := by simp [State.loseSweep]
@[simp] theorem State.tryField_lossView (v : ViewDef) (n : Nat) (p : List Byte) (late : Bool) (x : State × ZoneCell) :
    (State.tryField v n p late x).1.lossView = x.1.lossView := by simp only [State.tryField]; split <;> simp
@[simp] theorem State.tryCell_lossView (late : Bool) (z : ZoneCell) (s : State) :
    (State.tryCell late z s).1.lossView = s.lossView := by
  unfold State.tryCell; split
  · exact lossView_foldl_fst _ _ _ fun x f => State.tryField_lossView ..
  · rfl
@[simp] theorem State.keepCell_lossView (z : ZoneCell) (s : State) : (s.keepCell z).lossView = s.lossView := by
  simp [State.keepCell]
@[simp] theorem State.zoneArrives_lossView (view cell epoch : Nat) (r : ZoneResult) (s : State) :
    (s.zoneArrives view cell epoch r).lossView = s.lossView := by unfold State.zoneArrives; split <;> simp
@[simp] theorem State.countDown_lossView (p : Nat) (c : Bool) (s : State) : (s.countDown p c).lossView = s.lossView := by
  simp [State.countDown]
@[simp] theorem State.closeFrame_lossView (n : Nat) (s : State) : (s.closeFrame n).lossView = s.lossView := by
  simp only [State.closeFrame]; split <;> simp
@[simp] theorem State.placeRecord_lossView (n dev tick epoch : Nat) (s : State) (rec : List Byte) :
    (s.placeRecord n dev tick epoch rec).lossView = s.lossView := by unfold State.placeRecord; split <;> simp
@[simp] theorem State.releaseAmbient_lossView (r : Release) (s : State) : (s.releaseAmbient r).lossView = s.lossView := by
  unfold State.releaseAmbient; split <;> simp
@[simp] theorem State.releaseOne_lossView (r : Release) (s : State) : (s.releaseOne r).lossView = s.lossView := by
  simp only [State.releaseOne]
  repeat' split
  all_goals simp
@[simp] theorem State.flushReleases_lossView (view fuel : Nat) (s : State) :
    (s.flushReleases view fuel).lossView = s.lossView := by
  induction fuel generalizing s with
  | zero => rfl
  | succ k ih =>
    unfold State.flushReleases; split
    · split <;> simp [ih]
    · rfl
@[simp] theorem State.flushView_lossView (view : Nat) (s : State) : (s.flushView view).lossView = s.lossView := by
  simp [State.flushView]
@[simp] theorem State.settleRelease_lossView (seq : Nat) (f : Release → Release) (s : State) :
    (s.settleRelease seq f).lossView = s.lossView := by simp [State.settleRelease]
@[simp] theorem State.abandonHist_lossView (h : Hist) (s : State) : (s.abandonHist h).lossView = s.lossView := by
  simp only [State.abandonHist]; split <;> simp
@[simp] theorem State.freeBuffer_lossView (ch buf : Nat) (s : State) : (s.freeBuffer ch buf).lossView = s.lossView := by
  simp only [State.freeBuffer]
  rw [lossView_foldl _ _ _ fun _ _ => State.abandonHist_lossView .., State.onTile_lossView]
  exact lossView_foldl _ _ _ fun s g => by split <;> simp
@[simp] theorem State.endOlder_lossView (ch : Nat) (s : State) : (s.endOlder ch).lossView = s.lossView := by
  simp [State.endOlder]
@[simp] theorem State.startHist_lossView (v : ViewDef) (j epoch ch : Nat) (s : State) :
    (s.startHist v j epoch ch).lossView = s.lossView := by simp [State.startHist]
@[simp] theorem State.onCell_lossView (view cell : Nat) (f : OpenCell → OpenCell) (s : State) :
    (s.onCell view cell f).lossView = s.lossView := by simp [State.onCell]
@[simp] theorem State.ensureHist_lossView (v : ViewDef) (j epoch ch : Nat) (s : State) :
    (s.ensureHist v j epoch ch).lossView = s.lossView := by simp [State.ensureHist]
@[simp] theorem State.closeCellOn_lossView (v : ViewDef) (c : OpenCell) (m : Nat) (s : State) (x : Nat × Nat) :
    (s.closeCellOn v c m x).lossView = s.lossView := by simp [State.closeCellOn]
@[simp] theorem State.closeCell_lossView (m : Nat) (s : State) (c : OpenCell) : (s.closeCell m c).lossView = s.lossView := by
  unfold State.closeCell; split <;> simp
@[simp] theorem State.abandonWindow_lossView (ch : Nat) (s : State) : (s.abandonWindow ch).lossView = s.lossView := by
  simp [State.abandonWindow]
@[simp] theorem State.abandonWindows_lossView (s : State) : s.abandonWindows.lossView = s.lossView := by
  simp [State.abandonWindows]
@[simp] theorem State.releaseDescriptor_lossView (s : State) (d : Descriptor) :
    (s.releaseDescriptor d).lossView = s.lossView := by
  simp [State.releaseDescriptor]
@[simp] theorem State.inhibitNow_lossView (cause : Nat) (s : State) : (s.inhibitNow cause).lossView = s.lossView := by
  simp [State.inhibitNow]
@[simp] theorem State.registerCause_lossView (cause : Nat) (s : State) : (s.registerCause cause).lossView = s.lossView := by
  simp [State.registerCause]
@[simp] theorem State.registerSource_lossView (src : Nat) (s : State) : (s.registerSource src).lossView = s.lossView := by
  simp [State.registerSource]
@[simp] theorem State.endGroup_lossView (ch : Nat) (s : State) (h : Hist) : (s.endGroup ch h).lossView = s.lossView := by
  simp [State.endGroup]
@[simp] theorem State.endGroupsIf_lossView (ends : Hist → Bool) (s : State) : (s.endGroupsIf ends).lossView = s.lossView := by
  simp [State.endGroupsIf]
@[simp] theorem State.endGroups_lossView (s : State) : s.endGroups.lossView = s.lossView := State.endGroupsIf_lossView ..
@[simp] theorem State.noteSlotEcc_lossView (e : Nat) (s : State) : (s.noteSlotEcc e).lossView = s.lossView := by
  unfold State.noteSlotEcc; split <;> simp
@[simp] theorem State.injectLost_lossView (n : Nat) (c : Cmd) (played : Nat) (s : State) :
    (s.injectLost n c played).lossView = s.lossView := by simp [State.injectLost]
@[simp] theorem State.breakInject_lossView (n : Nat) (s : State) : (s.breakInject n).lossView = s.lossView := by
  unfold State.breakInject; split <;> simp
@[simp] theorem State.cameoTrigger_lossView (n trig : Nat) (s : State) : (s.cameoTrigger n trig).lossView = s.lossView := by
  simp [State.cameoTrigger]
@[simp] theorem State.galvoActs_lossView (s : State) : s.galvoActs.lossView = s.lossView := by simp [State.galvoActs]
@[simp] theorem State.latch_lossView (n cls action : Nat) (s : State) : (s.latch n cls action).lossView = s.lossView := by
  simp [State.latch]
@[simp] theorem State.countFault_lossView (n : Nat) (s : State) : (s.countFault n).lossView = s.lossView := by rfl
@[simp] theorem State.raiseFault_lossView (n cls : Nat) (s : State) : (s.raiseFault n cls).lossView = s.lossView := by
  simp [State.raiseFault]
@[simp] theorem State.spindleLost_lossView (s : State) : s.spindleLost.lossView = s.lossView := by simp [State.spindleLost]
@[simp] theorem State.pavaneMotion_lossView (s : State) : s.pavaneMotion.lossView = s.lossView := by simp [State.pavaneMotion]
@[simp] theorem State.encFreeze_lossView (s : State) : s.encFreeze.lossView = s.lossView := by rfl
@[simp] theorem State.discardLearn_lossView (det : Nat) (s : State) : (s.discardLearn det).lossView = s.lossView := by
  unfold State.discardLearn; split <;> simp
@[simp] theorem State.angleGone_lossView (st : LockState) (s : State) : (s.angleGone st).lossView = s.lossView := by
  simp [State.angleGone]
@[simp] theorem State.parkExc_lossView (s : State) : s.parkExc.lossView = s.lossView := by rfl
@[simp] theorem State.cycTake_lossView (s : State) : s.cycTake.lossView = s.lossView := by unfold State.cycTake; split <;> simp
@[simp] theorem State.cycReplace_lossView (p : CycPending) (cmds : List (Nat × Cmd)) (s : State) :
    (s.cycReplace p cmds).lossView = s.lossView := by simp [State.cycReplace]
@[simp] theorem State.interrupt_lossView (b : Nat) (s : State) : (s.interrupt b).lossView = s.lossView := by
  simp [State.interrupt]
@[simp] theorem State.withStatus_lossView (f : State → State) (s : State) : (s.withStatus f).lossView = (f s).lossView := by
  simp [State.withStatus]
@[simp] theorem State.dropUnaccepted_lossView (s : State) : s.dropUnaccepted.lossView = s.lossView := by rfl
@[simp] theorem State.startFlush_lossView (s : State) : s.startFlush.lossView = s.lossView := by rfl
@[simp] theorem State.pavaneOutputs_lossView (s : State) : s.pavaneOutputs.lossView = s.lossView := by
  simp [State.pavaneOutputs]
@[simp] theorem State.startPavane_lossView (cause : PavaneCause) (s : State) : (s.startPavane cause).lossView = s.lossView := by
  simp [State.startPavane]
@[simp] theorem State.takeOver_lossView (s : State) : s.takeOver.lossView = s.lossView := by
  simp [State.takeOver]
@[simp] theorem State.histWordLost_lossView (bank word : Nat) (s : State) :
    (s.histWordLost bank word).lossView = s.lossView := by
  simp [State.histWordLost]
@[simp] theorem State.breakView_lossView (h : Nat) (s : State) : (s.breakView h).lossView = s.lossView := by
  simp [State.breakView]
@[simp] theorem State.abandonChains_lossView (h : Nat) (s : State) : (s.abandonChains h).lossView = s.lossView := by
  refine lossView_foldl _ _ _ fun s g => ?_
  repeat' split
  all_goals simp
@[simp] theorem State.addLost_lossView (w : LostWord) (s : State) : (s.addLost w).lossView = s.lossView := by
  simp [State.addLost]
@[simp] theorem State.viewWordLost_lossView (params shadow : Bool) (s : State) :
    (s.viewWordLost params shadow).lossView = s.lossView := by simp only [State.viewWordLost]; split <;> simp
@[simp] theorem State.waveWordLost_lossView (core word : Nat) (s : State) :
    (s.waveWordLost core word).lossView = s.lossView := by
  unfold State.waveWordLost; split <;> simp
@[simp] theorem State.frameWordLost_lossView (s : State) : s.frameWordLost.lossView = s.lossView := by rfl
@[simp] theorem State.reloadStandby_lossView (s : State) : s.reloadStandby.lossView = s.lossView := by
  simp [State.reloadStandby]
@[simp] theorem State.pairWordLost_lossView (pair : Nat) (s : State) :
    (s.pairWordLost pair).lossView = s.lossView := by simp [State.pairWordLost]
@[simp] theorem State.captureWordLost_lossView (w : Nat) (s : State) : (s.captureWordLost w).lossView = s.lossView := by rfl
@[simp] theorem State.cycWordLost_lossView (s : State) : s.cycWordLost.lossView = s.lossView := by
  fun_cases State.cycWordLost <;> simp +zetaDelta
@[simp] theorem State.bankOut_lossView (b : Nat) (s : State) : (s.bankOut b).lossView = s.lossView := by simp [State.bankOut]
@[simp] theorem State.bankWordLost_lossView (b word : Nat) (s : State) : (s.bankWordLost b word).lossView = s.lossView := by
  fun_cases State.bankWordLost <;> simp +zetaDelta
@[simp] theorem State.wordLost_lossView (row region word : Nat) (s : State) :
    (s.wordLost row region word).lossView = s.lossView := by unfold State.wordLost; split <;> simp

end Sys2Proof.Machine

/-! ## Check units, scrubbing, retention banks and their commands (O50) -/

namespace Sys2Proof.Machine

/-! ### The figures of a memory region -/

/-- A region's figures carry its own row and number. -/
theorem State.memRegion_at (row region : Nat) (s : State) :
    (s.memRegion row region).row = row ∧ (s.memRegion row region).region = region := by
  rw [State.memRegion]
  cases hf : s.integrity.regions.find? fun r => r.row == row && r.region == region with
  | none => exact ⟨rfl, rfl⟩
  | some r => simpa using List.find?_some hf

theorem State.memRegion_onRegion_same {row region : Nat} {f : MemRegion → MemRegion} {s : State}
    (hf : ∀ r, (f r).row = r.row ∧ (f r).region = r.region) :
    (s.onRegion row region f).memRegion row region = f (s.memRegion row region) := by
  obtain ⟨hrow, hregion⟩ := s.memRegion_at row region
  obtain ⟨hfrow, hfregion⟩ := hf (s.memRegion row region)
  have hgone : (s.integrity.regions.filter fun x => !(x.row == row && x.region == region)).find?
      (fun x => x.row == row && x.region == region) = none := by
    rw [List.find?_eq_none]
    intro x hx
    exact Bool.not_eq_true _ ▸ (Bool.not_eq_true' _ ▸ (List.mem_filter.1 hx).2)
  show (List.find? _ (_ ++ [f (s.memRegion row region)])).getD _ = _
  rw [List.find?_append, hgone]
  simp [hfrow, hfregion, hrow, hregion]

/-- The regions' figures are part of the view. -/
theorem State.memRegion_of_lossView {s t : State} (h : t.lossView = s.lossView) (row region : Nat) :
    t.memRegion row region = s.memRegion row region := by
  have hregions : t.integrity.regions = s.integrity.regions := congrArg (fun v => v.2.2) h
  rw [State.memRegion, State.memRegion, hregions]

theorem State.onRegion_frame (row region : Nat) (f : MemRegion → MemRegion) (s : State) : ∃ l,
    s.onRegion row region f = { s with integrity := { s.integrity with regions := l } } := ⟨_, rfl⟩

/-! ### SCRUB_WORD -/

/-- The end of a pass changes the regions' figures alone. -/
theorem State.endPass_frame (row region word : Nat) (s : State) : ∃ l,
    s.endPass row region word = { s with integrity := { s.integrity with regions := l } } := by
  unfold State.endPass
  split
  · exact s.onRegion_frame _ _ _
  · exact ⟨s.integrity.regions, rfl⟩

theorem State.endPass_of_ne {row region word : Nat} {s : State} (h : word + 1 ≠ regionWords row region) :
    s.endPass row region word = s := if_neg h

theorem State.endPass_last {row region word : Nat} {s : State} (h : word + 1 = regionWords row region) :
    (s.endPass row region word).memRegion row region =
      { s.memRegion row region with ceLastPass := (s.memRegion row region).ceThisPass, ceThisPass := 0,
                                    passes := wrap 32 ((s.memRegion row region).passes + 1) } := by
  rw [State.endPass, if_pos h]
  exact State.memRegion_onRegion_same fun _ => ⟨rfl, rfl⟩

/-- The error figures of a region. -/
def MemRegion.errors (r : MemRegion) : Nat × Nat × Nat × Nat × Bool := (r.ce, r.lastCe, r.ue, r.lastUe, r.ueSeen)

/-- The end of a pass keeps the counts and the places of errors. -/
theorem State.endPass_errors (row region word : Nat) (s : State) :
    ((s.endPass row region word).memRegion row region).errors = (s.memRegion row region).errors := by
  by_cases h : word + 1 = regionWords row region
  · rw [State.endPass_last h]
    rfl
  · rw [State.endPass_of_ne h]

section
variable {row region word : Nat} {s : State}

theorem scrubWord_outside (h : regionCount row ≤ region ∨ regionWords row region ≤ word) (res : ScrubResult) :
    scrubWord row region word res s = s := if_pos (by simpa using h)

/-- A row that holds nothing is not read. -/
theorem scrubWord_empty (hregion : region < regionCount row) (hword : word < regionWords row region) (hrow : row = 1)
    (h : s.histWordHeld region word = false) (res : ScrubResult) : scrubWord row region word res s = s.endPass row region word := by
  rw [scrubWord, if_neg (by simp; omega), if_pos (by simp [hrow, h])]

variable (hregion : region < regionCount row) (hword : word < regionWords row region)
  (h : row = 1 → s.histWordHeld region word = true)
include hregion hword h

theorem scrubWord_one (sym : Nat) (w : Bool) : scrubWord row region word ⟨[sym], w⟩ s =
    (if w then s.wordCorrected row region word sym else s).endPass row region word := by
  rw [scrubWord, if_neg (by simp; omega), if_neg (by simpa using h)]
  rfl

theorem scrubWord_two (sym sym2 : Nat) (w : Bool) : scrubWord row region word ⟨[sym, sym2], w⟩ s =
    ((s.noteLost row region word).wordLost row region word).endPass row region word := by
  rw [scrubWord, if_neg (by simp; omega), if_neg (by simpa using h)]
  rfl

end

/-- A clean word, or one whose correction a functional write overtook, only ends a pass where it is the last one. -/
theorem scrubWord_plain {row region word : Nat} {s : State} {res : ScrubResult} (hregion : region < regionCount row)
    (hword : word < regionWords row region) (hres : res.wrong = [] ∨ ∃ sym, res = ⟨[sym], false⟩) :
    scrubWord row region word res s = s.endPass row region word := by
  by_cases hrow : row = 1 ∧ s.histWordHeld region word = false
  · exact scrubWord_empty hregion hword hrow.1 hrow.2 _
  · have hheld : row = 1 → s.histWordHeld region word = true := fun h1 => by
      simpa using fun hn => hrow ⟨h1, hn⟩
    obtain hclean | ⟨sym, rfl⟩ := hres
    · rw [scrubWord, if_neg (by simp; omega), if_neg (by simpa using hheld), hclean]
      rfl
    · exact scrubWord_one hregion hword hheld sym false

/-- A corrected symbol counted in its region's figures; `again` says whether it was seen on another pass. -/
def State.symbolCounted (row region word : Nat) (again : Bool) (s : State) : State :=
  s.onRegion row region fun r =>
    { r with ce := satInc 32 r.ce, ceThisPass := satInc 32 r.ceThisPass, lastCe := word, candidate := r.candidate || again }

theorem State.wordCorrected_lossView (row region word symbol : Nat) (s : State) :
    ∃ again, (s.wordCorrected row region word symbol).lossView = (s.symbolCounted row region word again).lossView := by
  refine ⟨s.integrity.corrected.any fun c => (c.row == row && c.region == region && c.block == word / 8 && c.symbol == symbol) &&
    c.pass != (s.memRegion row region).passes && decide (s.now < c.at_ + sec 86400), ?_⟩
  simp only [State.wordCorrected, lossView_ite, State.rowTrouble_lossView, State.onTile_lossView, ite_self]
  exact State.onIntegrity_lossView _ _ fun _ => rfl

/-- A corrected symbol is counted at its word; it may ask for the repair of the word's row. -/
theorem State.wordCorrected_facts (row region word symbol : Nat) (s : State) :
    (∃ again, (s.wordCorrected row region word symbol).memRegion row region =
      { s.memRegion row region with ce := satInc 32 (s.memRegion row region).ce,
                                    ceThisPass := satInc 32 (s.memRegion row region).ceThisPass, lastCe := word,
                                    candidate := again }) ∧
    ∃ i f h, s.wordCorrected row region word symbol = { s with integrity := i, fabric := f, health := h } := by
  constructor
  · obtain ⟨again, hview⟩ := s.wordCorrected_lossView row region word symbol
    exact ⟨_, (State.memRegion_of_lossView hview row region).trans (State.memRegion_onRegion_same fun _ => ⟨rfl, rfl⟩)⟩
  · simp only [State.wordCorrected]
    split
    · split
      · obtain ⟨q, l, hq⟩ := State.rowTrouble_frame region (word / 8) _
        exact ⟨_, _, _, hq⟩
      · exact ⟨_, _, s.health, rfl⟩
    · exact ⟨_, s.fabric, s.health, rfl⟩

theorem scrubWord_corrected {row region word : Nat} {s : State} (hregion : region < regionCount row)
    (hword : word < regionWords row region) (h : row = 1 → s.histWordHeld region word = true) (sym : Nat) :
    ∃ t, exec (.scrubWord row region word ⟨[sym], true⟩) s = .next t ∧
      (t.memRegion row region).ce = satInc 32 (s.memRegion row region).ce ∧ (t.memRegion row region).lastCe = word ∧
      (t.memRegion row region).ue = (s.memRegion row region).ue ∧
      t = { s with integrity := t.integrity, fabric := t.fabric, health := t.health } := by
  refine ⟨_, congrArg Host.Outcome.next (scrubWord_one hregion hword h sym true), ?_⟩
  obtain ⟨⟨again, hfigures⟩, i, f, k, hframe⟩ := s.wordCorrected_facts row region word sym
  have herrors := (s.wordCorrected row region word sym).endPass_errors row region word
  obtain ⟨l, hend⟩ := (s.wordCorrected row region word sym).endPass_frame row region word
  rw [hfigures] at herrors
  rw [if_pos rfl]
  simp only [MemRegion.errors, Prod.mk.injEq] at herrors
  obtain ⟨hce, hlast, hue, -, -⟩ := herrors
  refine ⟨hce, hlast, hue, ?_⟩
  rw [hend, hframe]

theorem scrubWord_uncorrectable {row region word : Nat} {s : State} (hregion : region < regionCount row)
    (hword : word < regionWords row region) (h : row = 1 → s.histWordHeld region word = true) (sym sym2 : Nat) (w : Bool) :
    ∃ t, exec (.scrubWord row region word ⟨[sym, sym2], w⟩) s = .next t ∧
      (t.memRegion row region).ue = satInc 32 (s.memRegion row region).ue ∧ (t.memRegion row region).ueSeen = true ∧
      (t.memRegion row region).lastUe = word ∧ (t.memRegion row region).ce = (s.memRegion row region).ce ∧
      t.nvm = s.nvm ∧ t.sets = s.sets := by
  refine ⟨_, congrArg Host.Outcome.next (scrubWord_two hregion hword h sym sym2 w), ?_⟩
  let lost := (s.noteLost row region word).wordLost row region word
  have hview : lost.lossView = (s.noteLost row region word).lossView := State.wordLost_lossView ..
  have hfigures : (s.noteLost row region word).memRegion row region = _ := State.memRegion_onRegion_same fun _ => ⟨rfl, rfl⟩
  have herrors := lost.endPass_errors row region word
  obtain ⟨l, hend⟩ := lost.endPass_frame row region word
  rw [State.memRegion_of_lossView hview, hfigures] at herrors
  simp only [MemRegion.errors, Prod.mk.injEq] at herrors
  obtain ⟨hce, -, hue, hlast, hseen⟩ := herrors
  exact ⟨hue, hseen, hlast, hce, (congrArg State.nvm hend).trans (congrArg (fun v => v.1) hview),
    (congrArg State.sets hend).trans (congrArg (fun v => v.2.1) hview)⟩

/-! ### Check units -/

theorem State.unit_onUnit_same {u : Nat} {f : CheckUnit → CheckUnit} {s : State} (h : u < s.integrity.units.length) :
    (s.onUnit u f).unit u = f (s.unit u) := by
  simp [State.unit, State.onUnit, h]

theorem State.unit_onUnit_ne {u k : Nat} {f : CheckUnit → CheckUnit} {s : State} (h : k ≠ u) :
    (s.onUnit u f).unit k = s.unit k := by
  simp [State.unit, State.onUnit, h.symm]

theorem checkUnitScanDone_row {u : Nat} {b : List Byte} {ue : Bool} {s : State} (hu : u < s.integrity.units.length) :
    let x := s.unit u
    let fits := if ue then b.length < x.length else b.length = x.length
    (¬ (20 ≤ u ∧ u < 24 ∧ x.mode = 2 ∧ fits) → exec (.checkUnitScanDone u b ue) s = .next s) ∧
    (20 ≤ u → u < 24 → x.mode = 2 → fits → ∃ t, exec (.checkUnitScanDone u b ue) s = .next t ∧
      t.unit u = { x with running := crcRun x.alg x.running b, count := wrap 32 (x.count + b.length), mode := 0, done := !ue,
                          memUe := ue } ∧
      (∀ k, k ≠ u → t.unit k = s.unit k) ∧ t = { s with integrity := { s.integrity with units := t.integrity.units } }) := by
  intro x fits
  constructor
  · intro hno
    refine congrArg Host.Outcome.next ?_
    rw [checkUnitScanDone]
    refine if_pos ?_
    by_contra hgo
    refine hno ?_
    simp only [Bool.or_eq_true, decide_eq_true_eq, bne_iff_ne, Bool.not_eq_true', decide_eq_false_iff_not] at hgo
    push Not at hgo
    obtain ⟨⟨⟨hlow, hhigh⟩, hmode⟩, hfits⟩ := hgo
    exact ⟨hlow, hhigh, hmode, hfits⟩
  · intro hlow hhigh hmode hfits
    have hscan : checkUnitScanDone u b ue s = s.onUnit u fun x =>
        { x with running := crcRun x.alg x.running b, count := wrap 32 (x.count + b.length), mode := 0, done := !ue, memUe := ue } := by
      rw [checkUnitScanDone]
      refine if_neg ?_
      simp only [Bool.or_eq_true, decide_eq_true_eq, bne_iff_ne, Bool.not_eq_true', decide_eq_false_iff_not]
      rintro (((hx | hx) | hx) | hx)
      · omega
      · omega
      · exact hx hmode
      · exact hx hfits
    exact ⟨_, congrArg Host.Outcome.next hscan, State.unit_onUnit_same hu, fun _ => State.unit_onUnit_ne, rfl⟩

theorem checkUnitRead_row {c : Cmd} {s : State} (h : Accepted checkUnitInfo c s) (hr : unitWrites c.payload = false) :
    ∃ t, exec (.checkUnitRead c) s = .next t ∧
    Finished 0x0A05 c (s.block 0 0 (s.unit (u8 c.payload 0)).count) (s.unitBlock (u8 c.payload 0)) s t ∧ t = { s with host := t.host } := by
  obtain ⟨j, hsilent, hrun⟩ := State.run_from h
  let u := s.withJournal j
  have heff : checkUnitEffect c u = u.finish 0x0A05 c 0 0 (s.unit (u8 c.payload 0)).count (s.unitBlock (u8 c.payload 0)) := by
    simp only [checkUnitEffect, hr, Bool.false_eq_true, if_false]
    rfl
  refine ⟨_, congrArg Host.Outcome.next ((hrun _).trans heff), State.finish_from hsilent rfl rfl, ?_⟩
  rw [State.finish_frame]
  rfl

/-- A write is accepted only for a general unit that neither follows a stream nor scans. -/
theorem Accepted.unitWrite {c : Cmd} {s : State} (h : Accepted checkUnitInfo c s) (hw : unitWrites c.payload = true) :
    20 ≤ u8 c.payload 0 ∧ (s.unit (u8 c.payload 0)).mode ≠ 1 ∧ (s.unit (u8 c.payload 0)).mode ≠ 2 := by
  have hchecks := firstFail_eq_ok.1 h.fields
  have hlocked := hchecks (locked3 (u8 c.payload 0 < 20 ||
    ((s.unit (u8 c.payload 0)).mode == 1 || (s.unit (u8 c.payload 0)).mode == 2))) (by simp [hw])
  simpa [locked3] using hlocked

/-- The general unit that a CHECK_UNIT writes. -/
def writtenUnit (p : List Byte) : CheckUnit :=
  { mode := u8 p 17, alg := u8 p 18, done := false, memUe := false, source := u8 p 20, running := u64 p 24,
    start := u32 p 32, length := u32 p 36, count := 0 }

theorem checkUnitWrite_row {c : Cmd} {s : State} (h : Accepted checkUnitInfo c s) (hw : unitWrites c.payload = true)
    (hu : u8 c.payload 0 < s.integrity.units.length) :
    ∃ t d, exec (.checkUnitWrite c) s = .next t ∧ Finished 0x0A05 c (s.block 0 0 0) d s t ∧
      t.unit (u8 c.payload 0) = writtenUnit c.payload ∧ (∀ k, k ≠ u8 c.payload 0 → t.unit k = s.unit k) ∧
      t = { s with host := t.host, integrity := { s.integrity with units := t.integrity.units } } := by
  obtain ⟨j, hsilent, hrun⟩ := State.run_from h
  let u := (s.withJournal j).onUnit (u8 c.payload 0) fun _ => writtenUnit c.payload
  have hunit : u.unit (u8 c.payload 0) = writtenUnit c.payload := State.unit_onUnit_same hu
  have heff : checkUnitEffect c (s.withJournal j) = u.finish 0x0A05 c 0 0 0 (u.unitBlock (u8 c.payload 0)) := by
    have hcount : (u.unit (u8 c.payload 0)).count = 0 := congrArg CheckUnit.count hunit
    simp only [checkUnitEffect, hw, if_true]
    exact congrArg (fun n => u.finish 0x0A05 c 0 0 n (u.unitBlock (u8 c.payload 0))) hcount
  have hframe := u.finish_frame 0x0A05 c 0 0 0 (u.unitBlock (u8 c.payload 0))
  refine ⟨_, u.unitBlock (u8 c.payload 0), congrArg Host.Outcome.next ((hrun _).trans heff),
    State.finish_from (hsilent.trans (Silent.of_host rfl)) rfl rfl, ?_⟩
  generalize u.finish 0x0A05 c 0 0 0 (u.unitBlock (u8 c.payload 0)) = t at hframe
  rw [hframe]
  exact ⟨hunit, fun k hk => State.unit_onUnit_ne (s := s.withJournal j) hk, rfl⟩

/-! ### MEMORY_STATUS -/

theorem memoryStatus_read {c : Cmd} {s : State} (h : Accepted memoryStatusInfo c s) (hmask : u8 c.payload 4 = 0) :
    let r := s.memRegion (u8 c.payload 0) (u16 c.payload 2)
    ∃ t, exec (.memoryStatus c) s = .next t ∧ Finished 0x0A04 c (s.block 0 0 r.ue) r.bytes s t ∧ t = { s with host := t.host } := by
  obtain ⟨j, hsilent, hrun⟩ := State.run_from h
  intro r
  let u := s.withJournal j
  have heff : memoryStatusEffect c u = u.finish 0x0A04 c 0 0 r.ue r.bytes := by
    simp only [memoryStatusEffect, hmask, Nat.zero_ne_one, if_false]
    rfl
  refine ⟨_, congrArg Host.Outcome.next ((hrun _).trans heff), State.finish_from hsilent rfl rfl, ?_⟩
  rw [State.finish_frame]
  rfl

theorem memoryStatus_clear {c : Cmd} {s : State} (h : Accepted memoryStatusInfo c s) (hmask : u8 c.payload 4 = 1) :
    let r := s.memRegion (u8 c.payload 0) (u16 c.payload 2)
    ∃ t, exec (.memoryStatus c) s = .next t ∧
      t.memRegion (u8 c.payload 0) (u16 c.payload 2) = { r with ueSeen := false } ∧
      Finished 0x0A04 c (s.block 0 0 r.ue) ({ r with ueSeen := false }).bytes s t ∧
      t = { s with host := t.host, integrity := { s.integrity with regions := t.integrity.regions } } := by
  obtain ⟨j, hsilent, hrun⟩ := State.run_from h
  intro r
  let u := (s.withJournal j).onRegion (u8 c.payload 0) (u16 c.payload 2) fun r => { r with ueSeen := false }
  have hregion : u.memRegion (u8 c.payload 0) (u16 c.payload 2) = { r with ueSeen := false } :=
    State.memRegion_onRegion_same (s := s.withJournal j) fun _ => ⟨rfl, rfl⟩
  have heff : memoryStatusEffect c (s.withJournal j) = u.finish 0x0A04 c 0 0 r.ue ({ r with ueSeen := false }).bytes := by
    simp only [memoryStatusEffect, hmask, if_true]
    exact congrArg (fun x : MemRegion => u.finish 0x0A04 c 0 0 x.ue x.bytes) hregion
  have hframe := u.finish_frame 0x0A04 c 0 0 r.ue ({ r with ueSeen := false }).bytes
  have hfinished := State.finish_from (op := 0x0A04) (st := 0) (det := 0) (res := r.ue) (d := ({ r with ueSeen := false }).bytes)
    (u := u) (hsilent.trans (Silent.of_host rfl)) rfl rfl
  refine ⟨_, congrArg Host.Outcome.next ((hrun _).trans heff), ?_⟩
  generalize u.finish 0x0A04 c 0 0 r.ue ({ r with ueSeen := false }).bytes = t at hframe hfinished
  refine ⟨?_, hfinished, ?_⟩
  · rw [hframe]
    exact hregion
  · rw [hframe]
    rfl

/-! ### The retention banks -/

section
variable {b : Nat} (hb : b ≤ 1)
include hb

theorem Journal.onBank_same (f : Bank → Bank) (s : State) : (s.onJournal (Journal.onBank b f)).bank b = f (s.bank b) := by
  interval_cases b <;> rfl

theorem Journal.onBank_other (f : Bank → Bank) (s : State) :
    (s.onJournal (Journal.onBank b f)).bank (1 - b) = s.bank (1 - b) := by
  interval_cases b <;> rfl

end

/-- A change of a bank changes the two banks of the journal alone. -/
theorem State.onBank_frame (b : Nat) (f : Bank → Bank) (s : State) : ∃ A B, s.onJournal (Journal.onBank b f) =
    { s with host := { s.host with journal := { s.host.journal with bankA := A, bankB := B } } } :=
  ⟨_, _, congrArg (fun j => s.onJournal fun _ => j) (Journal.onBank_frame b f s.host.journal)⟩

/-- An interrupt changes no bank. -/
theorem State.withStatus_bank (f : State → State) (s : State) (b : Nat) : (s.withStatus f).bank b = (f s).bank b := by
  rw [State.withStatus_frame]
  rfl

/-- A change of a bank under an interrupt: the bank, the other one, and what stays. -/
theorem State.bankChange_facts {b : Nat} (hb : b ≤ 1) (f : Bank → Bank) (s : State) :
    let t := s.withStatus (State.onJournal (Journal.onBank b f))
    t.bank b = f (s.bank b) ∧ t.bank (1 - b) = s.bank (1 - b) ∧
    ∃ pcie out A B, t =
      { s with host := { s.host with pcie := pcie, journal := { s.host.journal with bankA := A, bankB := B } }, out := out } := by
  intro t
  refine ⟨(State.withStatus_bank ..).trans (Journal.onBank_same hb f s), (State.withStatus_bank ..).trans (Journal.onBank_other hb f s), ?_⟩
  obtain ⟨A, B, hbank⟩ := s.onBank_frame b f
  refine ⟨t.host.pcie, t.out, A, B, ?_⟩
  have ht := State.withStatus_frame (State.onJournal (Journal.onBank b f)) s
  rw [hbank] at ht
  exact ht

/-- The end of a recopy: the bank is back with the other one's image, or has failed once more. -/
theorem State.recopyEnd_facts {b : Nat} (hb : b ≤ 1) (good : Bool) (s : State) :
    let t := s.recopyEnd b good
    (good = true ∧ (s.bank b).keeperFault = false ∧ (s.bank (1 - b)).inService = true →
      t.bank b = { s.bank b with inService := true, failedTries := 0, bad := (s.bank (1 - b)).bad, frozen := none }) ∧
    (good = false ∨ (s.bank b).keeperFault = true ∨ (s.bank (1 - b)).inService = false →
      t.bank b = { s.bank b with failedTries := (s.bank b).failedTries + 1, gaveUp := decide (3 ≤ (s.bank b).failedTries + 1) }) ∧
    t.bank (1 - b) = s.bank (1 - b) ∧
    ∃ pcie out A B, t =
      { s with host := { s.host with pcie := pcie, journal := { s.host.journal with bankA := A, bankB := B } }, out := out } := by
  intro t
  by_cases hgood : good = true ∧ (s.bank b).keeperFault = false ∧ (s.bank (1 - b)).inService = true
  · have ht : t = s.bankBack b := if_pos (by simp [hgood])
    obtain ⟨hsame, hother, hframe⟩ := s.bankChange_facts hb fun k =>
      { k with inService := true, failedTries := 0, bad := (s.bank (1 - b)).bad, frozen := none }
    rw [ht]
    exact ⟨fun _ => hsame, fun hbad => by simp [hgood] at hbad, hother, hframe⟩
  · have ht : t = s.onJournal (Journal.onBank b fun k =>
        { k with failedTries := k.failedTries + 1, gaveUp := 3 ≤ k.failedTries + 1 }) := if_neg (by simpa [and_assoc] using hgood)
    obtain ⟨A, B, hframe⟩ := s.onBank_frame b fun k => { k with failedTries := k.failedTries + 1, gaveUp := 3 ≤ k.failedTries + 1 }
    rw [ht]
    exact ⟨fun h => absurd h hgood, fun _ => Journal.onBank_same hb _ s, Journal.onBank_other hb _ s, _, _, A, B, hframe⟩

theorem journalRecopyTry_waits {b : Nat} {good : Bool} {s : State}
    (h : 1 < b ∨ (s.bank b).inService = true ∨ (s.bank b).gaveUp = true ∨
      s.clk.now < (s.bank b).outAt + 1280000000 * ((s.bank b).failedTries + 1)) : journalRecopyTry b good s = s := by
  refine if_pos ?_
  simp only [Bool.or_eq_true, decide_eq_true_eq, Bool.not_eq_true', Bool.eq_false_iff, ne_eq, State.since_iff, sec, not_le]
  simpa only [or_assoc] using h

section
variable {b : Nat} {good : Bool} {s : State} (hb : b ≤ 1) (hout : (s.bank b).inService = false) (htry : (s.bank b).gaveUp = false)
  (hdue : (s.bank b).outAt + 1280000000 * ((s.bank b).failedTries + 1) ≤ s.clk.now)
include hb hout htry hdue

/-- The try that is due. -/
theorem journalRecopyTry_due : journalRecopyTry b good s =
    if s.health.running.any fun a => a.code == 0x06 && a.target == 2 + b then (s.endScope scopeCommand).recopyEnd b good
    else if s.underway 0x06 (2 + b) then s
    else s.request (Activity.recopy b) := by
  refine if_neg ?_
  have hsince : s.since (s.bank b).outAt (sec ((s.bank b).failedTries + 1)) = true := State.since_iff.2 hdue
  simp [hout, htry, hsince, hb]

theorem journalRecopyTry_asks (hnone : s.underway 0x06 (2 + b) = false) (hroom : s.arbiterFull 0 = false) :
    ∃ t, exec (.journalRecopyTry b good) s = .next t ∧
      t.health.queue = s.health.queue ++ [Activity.recopy b] ∧ t = { s with health := { s.health with queue := t.health.queue } } := by
  have hrunning : (s.health.running.any fun a => a.code == 0x06 && a.target == 2 + b) = false := by
    rw [State.underway, List.any_append, Bool.or_eq_false_iff] at hnone
    exact hnone.2
  have habsorb : s.health.queue.any (Activity.recopy b).absorbs = false :=
    List.any_eq_false.2 fun a _ => by simp [Activity.absorbs, Activity.recopy, Activity.plain, scopeNvm, scopeCommand]
  have hfull : s.arbiterFull (Activity.recopy b).cls = false := hroom
  have hasked : s.request (Activity.recopy b) = s.onArbiterQueue (· ++ [Activity.recopy b]) := by
    rw [State.request, habsorb, hfull]
    rfl
  have hdone : journalRecopyTry b good s = s.onArbiterQueue (· ++ [Activity.recopy b]) := by
    rw [journalRecopyTry_due hb hout htry hdue, hrunning, hnone]
    exact hasked
  exact ⟨_, congrArg Host.Outcome.next hdone, rfl, rfl⟩

theorem journalRecopyTry_ends (hrunning : ∃ a ∈ s.health.running, a.code = 0x06 ∧ a.target = 2 + b) :
    ∃ t, exec (.journalRecopyTry b good) s = .next t ∧ t.bank (1 - b) = s.bank (1 - b) ∧
      (good = true ∧ (s.bank b).keeperFault = false ∧ (s.bank (1 - b)).inService = true →
        t.bank b = { s.bank b with inService := true, failedTries := 0, bad := (s.bank (1 - b)).bad, frozen := none }) ∧
      (good = false ∨ (s.bank b).keeperFault = true ∨ (s.bank (1 - b)).inService = false →
        t.bank b = { s.bank b with failedTries := (s.bank b).failedTries + 1, gaveUp := decide (3 ≤ (s.bank b).failedTries + 1) }) ∧
      (∀ a ∈ t.health.running, a.scope ≠ scopeCommand) ∧ t.host.journal.live = s.host.journal.live ∧
      t = { s with health := t.health, host := t.host, out := t.out } := by
  have hany : (s.health.running.any fun a => a.code == 0x06 && a.target == 2 + b) = true := by simpa using hrunning
  obtain ⟨hback, hfail, hother, pcie, out, A, B, hframe⟩ := (s.endScope scopeCommand).recopyEnd_facts hb good
  refine ⟨_, congrArg Host.Outcome.next ((journalRecopyTry_due hb hout htry hdue).trans (if_pos hany)), hother, hback, hfail, ?_⟩
  rw [hframe]
  refine ⟨fun a ha => ?_, rfl, rfl⟩
  simpa using (List.mem_filter.1 ha).2

end

/-! ### KEEPER_DOMAIN_FAULT -/

/-- The keeper domain's flags: its eMRAM bank's and its retention bank's. -/
def State.keeperMarked (b : Nat) (present : Bool) (s : State) : State :=
  (s.onNvm fun n => if b = 0 then { n with bank0 := !present } else { n with bank1 := !present }).onJournal
    (Journal.onBank b fun k => { k with keeperFault := present })

theorem State.keeperMarked_facts {b : Nat} (hb : b ≤ 1) (present : Bool) (s : State) :
    let t := s.keeperMarked b present
    t.bank b = { s.bank b with keeperFault := present } ∧ t.bankUp b = !present ∧ t.bank (1 - b) = s.bank (1 - b) ∧
    t.bankUp (1 - b) = s.bankUp (1 - b) ∧ t.nvm.records = s.nvm.records ∧ t = { s with host := t.host, nvm := t.nvm } := by
  interval_cases b <;> exact ⟨rfl, rfl, rfl, rfl, rfl, rfl⟩

theorem keeperDomainFault_row {b : Nat} {present : Bool} {s : State} (hb : b ≤ 1) :
    ∃ t, exec (.keeperDomainFault b present) s = .next t ∧ (t.bank b).keeperFault = present ∧
      t.bankUp b = !present ∧ (present = true → (t.bank b).inService = false) ∧
      (present = false → (t.bank b).inService = (s.bank b).inService) ∧ t.bank (1 - b) = s.bank (1 - b) ∧
      t.bankUp (1 - b) = s.bankUp (1 - b) ∧ t.nvm.records = s.nvm.records ∧
      t = { s with host := t.host, nvm := t.nvm, out := t.out } := by
  let u := s.keeperMarked b present
  obtain ⟨hbank, hup, hother, hotherUp, hrecords, hframe⟩ := s.keeperMarked_facts hb present
  have hservice : (u.bank b).inService = (s.bank b).inService := (congrArg Bank.inService hbank :)
  have hfault : keeperDomainFault b present s = if present then u.bankOut b else u := if_neg (by omega)
  refine ⟨_, congrArg Host.Outcome.next hfault, ?_⟩
  cases present with
  | false =>
    exact ⟨congrArg Bank.keeperFault hbank, hup, nofun, fun _ => hservice, hother, hotherUp, hrecords,
      hframe.trans rfl⟩
  | true =>
    by_cases hin : (u.bank b).inService = true
    · have hout : u.bankOut b = u.withStatus (State.onJournal (Journal.onBank b fun k =>
          { k with inService := false, failedTries := 0, outAt := u.now,
                   frozen := some { u.bankImage b with inService := false } })) := if_neg (by simp [hin])
      obtain ⟨hsame, hkept, pcie, out, A, B, hchange⟩ := u.bankChange_facts hb fun k =>
        { k with inService := false, failedTries := 0, outAt := u.now, frozen := some { u.bankImage b with inService := false } }
      rw [if_pos rfl, hout]
      refine ⟨(congrArg Bank.keeperFault hsame).trans (congrArg Bank.keeperFault hbank), ?_, fun _ => congrArg Bank.inService hsame, nofun,
        hkept.trans hother, ?_, ?_, ?_⟩
      · rw [hchange]
        exact hup
      · rw [hchange]
        exact hotherUp
      · rw [hchange]
        exact hrecords
      · rw [hchange]
        rfl
    · have hout : u.bankOut b = u := if_pos (by simpa using hin)
      rw [if_pos rfl, hout]
      exact ⟨congrArg Bank.keeperFault hbank, hup, fun _ => by simpa using hin, nofun, hother, hotherUp, hrecords, hframe.trans rfl⟩

/-- Settles O50: the scrubber's figures are those of the one region it reads, which what the device does on a lost word leaves alone; a
retention bank and a check unit change by their number, and the two status commands answer with the block they show. -/
theorem memoriesAreCheckedAndCounted : Obligations.MemoriesAreCheckedAndCounted := by
  unfold Obligations.MemoriesAreCheckedAndCounted
  refine ⟨fun u b ue s hu => checkUnitScanDone_row hu, fun row region word res s h => congrArg Host.Outcome.next (scrubWord_outside h res),
    fun row region word sym s hregion hword => ⟨fun hne w => ⟨?_, ?_, fun hrow hheld l => ?_⟩, fun hlast w => ?_, fun hheld =>
      ⟨scrubWord_corrected hregion hword hheld sym, scrubWord_uncorrectable hregion hword hheld sym⟩⟩,
    fun b good s => ⟨fun h => congrArg Host.Outcome.next (journalRecopyTry_waits h), fun hb hout htry hdue =>
      ⟨journalRecopyTry_asks hb hout htry hdue, journalRecopyTry_ends hb hout htry hdue⟩⟩,
    fun b present s => ⟨fun hb => congrArg Host.Outcome.next (if_pos hb), keeperDomainFault_row⟩,
    fun c s h => ⟨memoryStatus_read h, memoryStatus_clear h⟩, fun c s h => checkUnitRead_row h, fun c s h hw => ?_⟩
  · exact congrArg Host.Outcome.next ((scrubWord_plain hregion hword (.inl rfl)).trans (State.endPass_of_ne hne))
  · exact congrArg Host.Outcome.next ((scrubWord_plain hregion hword (.inr ⟨sym, rfl⟩)).trans (State.endPass_of_ne hne))
  · exact congrArg Host.Outcome.next ((scrubWord_empty hregion hword hrow hheld _).trans (State.endPass_of_ne hne))
  · refine ⟨_, congrArg Host.Outcome.next (scrubWord_plain hregion hword (.inl rfl)), State.endPass_last hlast, ?_⟩
    obtain ⟨l, hend⟩ := s.endPass_frame row region word
    rw [hend]
  · intro p hu
    obtain ⟨hgeneral, hmode⟩ := h.unitWrite hw
    exact ⟨hgeneral, .inr hmode, checkUnitWrite_row h hw hu⟩

end Sys2Proof.Machine

/-! ## Engines take histograms and release results in close order (O43) -/

namespace Sys2Proof.Machine

/-! ### What a released result leaves -/

/-- The parts that releasing a finished chain's output leaves: the schedule, the engines, the order and what the streams count as
abandoned. -/
def State.chainView (s : State) : Sched × List Engine × List Release × List Nat :=
  (s.sched, s.fabric.engines, s.fabric.releases, s.fabric.streams.map (·.abandonedTotal))

@[simp] theorem chainView_ite (p : Prop) [Decidable p] (s t : State) :
    (if p then s else t).chainView = if p then s.chainView else t.chainView := apply_ite State.chainView p s t

@[simp] theorem chainView_foldl {α : Type} (f : State → α → State) (l : List α) (s : State)
    (h : ∀ t a, (f t a).chainView = t.chainView) : (l.foldl f s).chainView = s.chainView := by
  induction l generalizing s with
  | nil => rfl
  | cons a l ih => exact (ih _).trans (h s a)

theorem chainView_foldl_fst {α β : Type} (f : State × β → α → State × β) (l : List α) (x : State × β)
    (h : ∀ y a, (f y a).1.chainView = y.1.chainView) : (l.foldl f x).1.chainView = x.1.chainView := by
  induction l generalizing x with
  | nil => rfl
  | cons a l ih => exact (ih _).trans (h x a)

@[simp] theorem State.onReturns_chainView (f : Returns → Returns) (s : State) : (s.onReturns f).chainView = s.chainView := by
  rfl

@[simp] theorem State.onZone_chainView (f : Zone → Zone) (s : State) : (s.onZone f).chainView = s.chainView := by rfl
@[simp] theorem State.onFabric_chainView (f : Fabric → Fabric) (s : State)
    (h : ∀ b, (f b).engines = b.engines ∧ (f b).releases = b.releases ∧ (f b).streams = b.streams) :
    (s.onFabric f).chainView = s.chainView := by simp [State.chainView, h]
@[simp] theorem State.onNet_chainView (f : Net → Net) (s : State) : (s.onNet f).chainView = s.chainView := by rfl
@[simp] theorem State.onIntegrity_chainView (f : Integrity → Integrity) (s : State) :
    (s.onIntegrity f).chainView = s.chainView := by
  rfl
@[simp] theorem State.onChannel_chainView (c : Nat) (f : Channel → Channel) (s : State) :
    (s.onChannel c f).chainView = s.chainView := by
  rfl
@[simp] theorem State.onStream_chainView (n : Nat) (f : Stream → Stream) (s : State) (h : ∀ x, (f x).abandonedTotal = x.abandonedTotal) :
    (s.onStream n f).chainView = s.chainView := by
  refine congrArg (fun l => (s.sched, s.fabric.engines, s.fabric.releases, l)) ?_
  refine List.ext_getElem? fun i => ?_
  simp only [State.onStream, State.onFabric, List.getElem?_map, List.getElem?_modify]
  cases s.fabric.streams[i]? with
  | none => rfl
  | some x =>
    by_cases hn : n = i <;> simp [hn, h]
@[simp] theorem State.onPort_chainView (p : Nat) (f : Port → Port) (s : State) : (s.onPort p f).chainView = s.chainView := by
  rfl
@[simp] theorem State.onUnit_chainView (u : Nat) (f : CheckUnit → CheckUnit) (s : State) :
    (s.onUnit u f).chainView = s.chainView := by
  rfl
@[simp] theorem State.unitItem_chainView (u : Nat) (bytes : List Byte) (s : State) :
    (s.unitItem u bytes).chainView = s.chainView := by
  rfl
@[simp] theorem State.unitLoads_chainView (u running n : Nat) (s : State) :
    (s.unitLoads u running n).chainView = s.chainView := by
  rfl
@[simp] theorem State.driveZones_chainView (s : State) : s.driveZones.chainView = s.chainView := by simp [State.driveZones]
@[simp] theorem State.onField_chainView (n : Nat) (f : FieldRun → FieldRun) (s : State) :
    (s.onField n f).chainView = s.chainView := by
  simp [State.onField]
@[simp] theorem State.enterField_chainView (n : Nat) (st : FieldState) (s : State) :
    (s.enterField n st).chainView = s.chainView := by
  simp [State.enterField]
@[simp] theorem State.decideCell_chainView (n : Nat) (v : ViewDef) (j : Nat) (observed occupied : Bool) (near : Nat)
    (s : State) : (s.decideCell n v j observed occupied near).chainView = s.chainView := by
      simp only [State.decideCell]
      split <;> simp
@[simp] theorem State.tryField_chainView (v : ViewDef) (n : Nat) (p : List Byte) (late : Bool) (x : State × ZoneCell) :
    (State.tryField v n p late x).1.chainView = x.1.chainView := by simp only [State.tryField]; split <;> simp
@[simp] theorem State.tryCell_chainView (late : Bool) (z : ZoneCell) (s : State) :
    (State.tryCell late z s).1.chainView = s.chainView := by
  unfold State.tryCell; split
  · exact chainView_foldl_fst _ _ _ fun x f => State.tryField_chainView ..
  · rfl
@[simp] theorem State.keepCell_chainView (z : ZoneCell) (s : State) : (s.keepCell z).chainView = s.chainView := by
  simp [State.keepCell]
@[simp] theorem State.zoneArrives_chainView (view cell epoch : Nat) (r : ZoneResult) (s : State) :
    (s.zoneArrives view cell epoch r).chainView = s.chainView := by unfold State.zoneArrives; split <;> simp
@[simp] theorem State.countDown_chainView (p : Nat) (c : Bool) (s : State) : (s.countDown p c).chainView = s.chainView := by
  simp [State.countDown]
@[simp] theorem State.closeFrame_chainView (n : Nat) (s : State) : (s.closeFrame n).chainView = s.chainView := by
  simp only [State.closeFrame]; split <;> simp
@[simp] theorem State.placeRecord_chainView (n dev tick epoch : Nat) (s : State) (rec : List Byte) :
    (s.placeRecord n dev tick epoch rec).chainView = s.chainView := by unfold State.placeRecord; split <;> simp
@[simp] theorem State.releaseAmbient_chainView (r : Release) (s : State) : (s.releaseAmbient r).chainView = s.chainView := by
  unfold State.releaseAmbient; split <;> simp
@[simp] theorem State.releaseOne_chainView (r : Release) (s : State) : (s.releaseOne r).chainView = s.chainView := by
  simp only [State.releaseOne]
  repeat' split
  all_goals simp

theorem State.flushReleases_kept (view fuel : Nat) (s : State) :
    (s.flushReleases view fuel).sched = s.sched ∧ (s.flushReleases view fuel).fabric.engines = s.fabric.engines ∧
    (s.flushReleases view fuel).fabric.streams.map (·.abandonedTotal) = s.fabric.streams.map (·.abandonedTotal) := by
  induction fuel generalizing s with
  | zero => exact ⟨rfl, rfl, rfl⟩
  | succ k ih =>
    unfold State.flushReleases
    split
    · next r _ =>
      split
      · let u := s.onFabric fun b => { b with releases := b.releases.filter (·.closeSeq != r.closeSeq) }
        have hview : (u.releaseOne r).chainView = u.chainView := State.releaseOne_chainView ..
        simp only [State.chainView, Prod.mk.injEq] at hview
        obtain ⟨hsched, hengines, -, htotals⟩ := hview
        obtain ⟨hsched', hengines', htotals'⟩ := ih (u.releaseOne r)
        exact ⟨hsched'.trans hsched, hengines'.trans hengines, htotals'.trans htotals⟩
      · exact ⟨rfl, rfl, rfl⟩
    · exact ⟨rfl, rfl, rfl⟩

/-- A state whose hidden parts are `beside`'s and whose schedule stands differs in what releases move. -/
theorem State.released_frame {s t : State} (h : t.beside = s.beside) (hsched : t.sched = s.sched) :
    t = { s with fabric := t.fabric, integrity := t.integrity, net := t.net, returns := t.returns, zone := t.zone } := by
  have hframe := State.frame_of_beside h
  rw [hsched] at hframe
  exact hframe

/-- What releasing a view's results leaves. -/
theorem State.flushView_kept (view : Nat) (s : State) : let t := s.flushView view
    t.fabric.engines = s.fabric.engines ∧
    t.fabric.streams.map (·.abandonedTotal) = s.fabric.streams.map (·.abandonedTotal) ∧
    t = { s with fabric := t.fabric, integrity := t.integrity, net := t.net, returns := t.returns, zone := t.zone } := by
  obtain ⟨hsched, hengines, htotals⟩ := s.flushReleases_kept view (s.fabric.releases.length + 1)
  exact ⟨hengines, htotals, State.released_frame (State.flushView_beside ..) hsched⟩

/-- A finished result alone in the order of its view is released. -/
theorem State.flushView_head {view : Nat} {r : Release} {s : State} (h : s.fabric.releases = [r]) (hview : r.view = view)
    (hdone : r.done = true) : (s.flushView view).fabric.releases = [] := by
  let u := s.onFabric fun b => { b with releases := b.releases.filter (·.closeSeq != r.closeSeq) }
  have hu : (u.releaseOne r).fabric.releases = [] := by
    have hkept : (u.releaseOne r).fabric.releases = u.fabric.releases := congrArg (fun v => v.2.2.1) (u.releaseOne_chainView r)
    exact hkept.trans (by simp [u, h])
  have hfirst : s.flushReleases view 2 = (u.releaseOne r).flushReleases view 1 := by
    rw [State.flushReleases, h]
    simp [hview, hdone, u]
  have hsecond : (u.releaseOne r).flushReleases view 1 = u.releaseOne r := by
    rw [State.flushReleases, hu]
    rfl
  rw [State.flushView, h]
  exact (congrArg (fun t => t.fabric.releases) (hfirst.trans hsecond)).trans hu

/-- An unfinished result at the head of its view's order keeps back all of them. -/
theorem State.flushView_blocked {view : Nat} {r0 : Release} {l : List Release} {s : State} (h : s.fabric.releases = r0 :: l)
    (hview : r0.view = view) (hdone : r0.done = false) (hab : r0.abandoned = false) : s.flushView view = s := by
  rw [State.flushView, State.flushReleases, h]
  simp [hview, hdone, hab]

/-! ### The engines -/

theorem State.engine_of_engines {s t : State} (h : t.fabric.engines = s.fabric.engines) (k : Nat) :
    t.engine k = s.engine k := by
  rw [State.engine, State.engine, h]

theorem State.engine_onEngine_same {g : Nat} {f : Engine → Engine} {s : State} (h : g < s.fabric.engines.length) :
    (s.onEngine g f).engine g = f (s.engine g) := by
  simp [State.engine, h]

theorem State.engine_onEngine_ne {g k : Nat} {f : Engine → Engine} {s : State} (h : k ≠ g) :
    (s.onEngine g f).engine k = s.engine k := by
  simp [State.engine, h.symm]

/-- Two states whose engines differ in the views they still leave, which get fewer. -/
def EnginesLeft (s t : State) : Prop :=
  ∀ k, t.engine k = { s.engine k with leaving := (t.engine k).leaving } ∧ ∀ x ∈ (t.engine k).leaving, x ∈ (s.engine k).leaving

theorem EnginesLeft.refl (s : State) : EnginesLeft s s := fun _ => ⟨rfl, fun _ hx => hx⟩

theorem EnginesLeft.trans {s t u : State} (h : EnginesLeft s t) (h' : EnginesLeft t u) : EnginesLeft s u := fun k => by
  obtain ⟨heq, hsub⟩ := h k
  obtain ⟨heq', hsub'⟩ := h' k
  exact ⟨heq'.trans (by rw [heq]), fun x hx => hsub x (hsub' x hx)⟩

/-- An engine out of range is none. -/
theorem State.engine_onEngine_out {g : Nat} {f : Engine → Engine} {s : State} (h : ¬ g < s.fabric.engines.length) (k : Nat) :
    (s.onEngine g f).engine k = s.engine k := by
  by_cases hk : k = g
  · subst hk
    simp [State.engine, List.getElem?_eq_none (by omega : s.fabric.engines.length ≤ k)]
  · exact State.engine_onEngine_ne hk

theorem State.leaveDone_left (s : State) (g : Nat) : EnginesLeft s (s.leaveDone g) := by
  unfold State.leaveDone
  dsimp only
  split
  · exact .refl s
  · intro k
    rw [State.engine_of_engines (s := s.onEngine g _) (t := State.refreshDomains _) rfl]
    by_cases hk : k = g ∧ g < s.fabric.engines.length
    · obtain ⟨rfl, hlt⟩ := hk
      rw [State.engine_onEngine_same hlt]
      exact ⟨rfl, fun x hx => (List.mem_filter.1 hx).1⟩
    · have hkept (f : Engine → Engine) : (s.onEngine g f).engine k = s.engine k := by
        by_cases hlt : g < s.fabric.engines.length
        · exact State.engine_onEngine_ne fun h => hk ⟨h, hlt⟩
        · exact State.engine_onEngine_out hlt k
      rw [hkept]
      exact ⟨rfl, fun _ hx => hx⟩

theorem State.leaveAll_left (s : State) : EnginesLeft s s.leaveAll := by
  have hfold : ∀ (l : List Nat) (u : State), EnginesLeft u (l.foldl State.leaveDone u) := by
    intro l
    induction l with
    | nil => exact EnginesLeft.refl
    | cons g l ih => exact fun u => (u.leaveDone_left g).trans (ih _)
  exact hfold _ s

/-! ### CHAIN_START -/

theorem chainStart_row {g : Nat} {s : State} (hg : g < 144) (hin : g < s.fabric.engines.length) (hready : s.engineReady g = true)
    (hleaving : (s.engine g).leaving = []) (hassigned : (s.engine g).assigned = true) :
    let q := (s.tile (g / 18)).queue
    (∀ h, q.find? (fun x => x.view == (s.engine g).view) = some h → g / 18 < s.fabric.tiles.length →
      ∃ t, exec (.chainStart g) s = .next t ∧ t.engine g = { s.engine g with job := some (h, s.clk.now) } ∧
        (t.tile (g / 18)).queue = q.filter (·.closeSeq != h.closeSeq) ∧ (∀ k, k ≠ g → t.engine k = s.engine k) ∧
        t = { s with fabric := t.fabric }) ∧
    ((∀ h ∈ q, h.view ≠ (s.engine g).view) → exec (.chainStart g) s = .next s) := by
  intro q
  have hnext : s.nextHist (g / 18) (s.engine g) = q.find? fun x => x.view == (s.engine g).view := by
    rw [State.nextHist, hleaving, hassigned]
    rfl
  have hgo : ¬ (144 ≤ g || !s.engineReady g) = true := by simp [hready, hg]
  constructor
  · intro h hfind htile
    let u := s.onTile (g / 18) fun t => { t with queue := t.queue.filter (·.closeSeq != h.closeSeq) }
    have hstart : chainStart g s = u.onEngine g fun e => { e with job := some (h, s.clk.now) } := by
      rw [chainStart, if_neg hgo, hnext, hfind]
      rfl
    have htaken : (u.tile (g / 18)).queue = q.filter (·.closeSeq != h.closeSeq) := congrArg Tile.queue (State.tile_onTile_same htile)
    exact ⟨_, congrArg Host.Outcome.next hstart, State.engine_onEngine_same (s := u) hin, htaken,
      fun k hk => State.engine_onEngine_ne (s := u) hk, rfl⟩
  · intro hnone
    have hfind : (q.find? fun x => x.view == (s.engine g).view) = none := List.find?_eq_none.2 fun x hx => by simpa using hnone x hx
    refine congrArg Host.Outcome.next ?_
    rw [chainStart, if_neg hgo, hnext, hfind]
    simp [State.leaveDone, hleaving]

/-! ### What the passes of a chain meet and what its kernels keep -/

/-- Two states that differ in the memory's figures and the arbiter's queue. -/
def MemoriesNoted (s t : State) : Prop := ∃ h i, t = { s with health := h, integrity := i }

theorem MemoriesNoted.foldl {α : Type} {f : State → α → State} (h : ∀ t a, MemoriesNoted t (f t a)) (l : List α) (s : State) :
    MemoriesNoted s (l.foldl f s) := by
  induction l generalizing s with
  | nil => exact ⟨s.health, s.integrity, rfl⟩
  | cons a l ih =>
    obtain ⟨h1, i1, hstep⟩ := h s a
    obtain ⟨h2, i2, hrest⟩ := ih (f s a)
    exact ⟨h2, i2, hrest.trans (by rw [hstep])⟩

/-- Counting errors moves the tile's figures, the memory's and the arbiter's queue. -/
theorem State.noteEcc_counted (ch buf : Nat) (fs : List EccFault) (s : State) :
    MemoriesNoted (s.onTile (ch / 24) (Tile.countEcc fs)) (s.noteEcc ch buf fs) := by
  unfold State.noteEcc
  refine MemoriesNoted.foldl (fun u a => ?_) fs _
  cases a with
  | uncorrectable w =>
    obtain ⟨q, l, hq⟩ := (u.noteLost 1 (ch / 24 * 12 + ch % 24 / 2) (2048 * (ch % 2) + 1024 * buf + w)).rowTrouble_frame
      (ch / 24 * 12 + ch % 24 / 2) (rowOf ch buf w)
    exact ⟨_, _, hq⟩
  | _ => exact ⟨u.health, u.integrity, rfl⟩

theorem State.noteEcc_frame (ch buf : Nat) (fs : List EccFault) (s : State) : ∃ tiles h i, s.noteEcc ch buf fs =
    { s with fabric := { s.fabric with tiles := tiles }, health := h, integrity := i } := by
  obtain ⟨h, i, hall⟩ := s.noteEcc_counted ch buf fs
  exact ⟨_, h, i, hall⟩

/-- What the kernels of a chain with running state move. -/
def KernelsRan (s t : State) : Prop := ∃ aux amb rain tops rej, t =
  { s with aux := aux, fabric := { s.fabric with ambRuns := amb, rain := rain, prevTops := tops, rejection := rej } }

theorem KernelsRan.refl (s : State) : KernelsRan s s :=
  ⟨s.aux, s.fabric.ambRuns, s.fabric.rain, s.fabric.prevTops, s.fabric.rejection, rfl⟩

theorem KernelsRan.trans {s t u : State} (h : KernelsRan s t) (h' : KernelsRan t u) : KernelsRan s u := by
  obtain ⟨_, _, _, _, _, rfl⟩ := h
  obtain ⟨aux, amb, rain, tops, rej, rfl⟩ := h'
  exact ⟨aux, amb, rain, tops, rej, rfl⟩

theorem KernelsRan.foldl {α : Type} {f : State → α → State} (h : ∀ t a, KernelsRan t (f t a)) (l : List α) (s : State) :
    KernelsRan s (l.foldl f s) := by
  induction l generalizing s with
  | nil => exact .refl s
  | cons a l ih => exact (h s a).trans (ih _)

theorem State.runAmbient_ran (x : State × Work) : KernelsRan x.1 (State.runAmbient x).1 := by
  unfold State.runAmbient
  dsimp only
  split
  · exact .refl _
  · split <;> exact ⟨x.1.aux, _, x.1.fabric.rain, x.1.fabric.prevTops, x.1.fabric.rejection, rfl⟩

theorem State.enterRain_ran (ch sector : Nat) (s : State) (zone : Nat) : KernelsRan s (s.enterRain ch sector zone) := by
  unfold State.enterRain State.onFabric
  dsimp only
  split <;> exact ⟨s.aux, s.fabric.ambRuns, _, s.fabric.prevTops, s.fabric.rejection, rfl⟩

theorem State.runRain_ran (x : State × Work) : KernelsRan x.1 (State.runRain x).1 := by
  unfold State.runRain
  dsimp only
  generalize hentered : List.foldl (State.enterRain _ _) x.1 _ = u
  have hran : KernelsRan x.1 u := hentered ▸ KernelsRan.foldl (State.enterRain_ran _ _) _ x.1
  refine hran.trans ?_
  split
  · exact ⟨u.aux, u.fabric.ambRuns, u.fabric.rain, _, _, rfl⟩
  · exact ⟨u.aux, u.fabric.ambRuns, u.fabric.rain, _, u.fabric.rejection, rfl⟩

theorem State.runWindow_ran (x : State × Work) : KernelsRan x.1 (State.runWindow x).1 := by
  unfold State.runWindow
  split
  · exact ⟨_, x.1.fabric.ambRuns, x.1.fabric.rain, x.1.fabric.prevTops, x.1.fabric.rejection, rfl⟩
  · exact .refl _

theorem State.runKernel_ran (x : State × Work) (k : Nat) : KernelsRan x.1 (State.runKernel x k).1 := by
  unfold State.runKernel
  dsimp only
  split
  case h_4 => exact State.runAmbient_ran x
  case h_5 => exact State.runRain_ran x
  case h_8 => exact State.runWindow_ran x
  all_goals exact .refl _

theorem State.runChain_ran (v : ViewDef) (h : Hist) (fs : List PassFault) (s : State) : KernelsRan s (s.runChain v h fs).1 := by
  have hfold : ∀ (l : List (Nat × Nat)) (x : State × Work),
      KernelsRan x.1 (l.foldl (fun x k => State.runKernel (x.1, x.2.afterPass fs k.2) k.1) x).1 := by
    intro l
    induction l with
    | nil => exact fun x => .refl x.1
    | cons k l ih => exact fun x => (State.runKernel_ran (x.1, x.2.afterPass fs k.2) k.1).trans (ih _)
  exact hfold _ (s, Work.start v h)

/-- An engine that leaves views moves no result. -/
theorem State.leaveAll_leaves (s : State) : s.leaveAll.fabric.streams = s.fabric.streams ∧ s.leaveAll.zone = s.zone ∧
    s.leaveAll.net = s.net ∧ s.leaveAll.fabric.releases = s.fabric.releases := by
  obtain ⟨engines, doms, hleft⟩ := s.leaveAll_frame
  rw [hleft]
  exact ⟨rfl, rfl, rfl, rfl⟩

/-! ### CHAIN_END -/

/-- An engine that counts errors of its passes. -/
def Engine.errorsCounted (fs : List PassFault) (e : Engine) : Engine :=
  { e with eccUncorrected := satAdd 32 e.eccUncorrected (fs.countP fun f => !isCorrected f.fault) }

theorem State.notePasses_frame (g : Nat) (h : Hist) (fs : List PassFault) (s : State) : ∃ tiles health i, s.notePasses g h fs =
    { s with fabric := { s.fabric with tiles := tiles, engines := s.fabric.engines.modify g (Engine.errorsCounted fs) }
             health := health, integrity := i } := by
  have hcount : (fun e : Engine =>
      { e with eccUncorrected := satAdd 32 e.eccUncorrected ((fs.map (·.fault)).countP fun f => !isCorrected f) }) =
      Engine.errorsCounted fs := funext fun e => by rw [List.countP_map]; rfl
  rw [State.notePasses]
  dsimp only
  rw [hcount]
  exact State.noteEcc_frame h.channel h.buf (fs.map (·.fault)) (s.onEngine g (Engine.errorsCounted fs))

/-- The engine after a chain: free, with the chain and its errors counted. -/
def Engine.chainDone (took : Nat) (e : Engine) : Engine :=
  { e with job := none, chains := satInc 32 e.chains, timeLast := took, timeMax := max e.timeMax took }

/-- The end of a chain: the engine is free and has counted, the result stands in its place, and what the order permits is released. -/
theorem chainEnd_steps {g start : Nat} {bad : List PassFault} {h : Hist} {v : ViewDef} {s : State}
    (hjob : (s.engine g).job = some (h, start)) (hview : s.viewIn h.epoch h.view = some v) :
    ∃ w held took fs tiles amb rain tops rej aux health i, ∃ u : State,
      chainEnd g bad s = ((u.settleRelease h.closeSeq (Release.filled v w held)).flushView h.view).leaveAll ∧
      u = { s with aux := aux, health := health, integrity := i
                   fabric := { s.fabric with
                     tiles := tiles, ambRuns := amb, rain := rain, prevTops := tops, rejection := rej
                     engines := (s.fabric.engines.modify g (Engine.chainDone took)).modify g (Engine.errorsCounted fs) } } := by
  let took := clip16 ((s.now - start) * 10 / 128)
  let late := clip16 ((s.now - h.closedAt) / 1280)
  let fs := s.metBy h bad
  let freed := (s.onEngine g (Engine.chainDone took)).onTile (h.channel / 24) fun t => { t with latencyMax := max t.latencyMax late }
  let noted := freed.notePasses g h fs
  let ran := noted.runChain v h fs
  have hend : chainEnd g bad s = ((ran.1.settleRelease h.closeSeq
      (Release.filled v ran.2 (!(noted.fabric.tileTempValid.getD (h.channel / 24) false)))).flushView h.view).leaveAll := by
    rw [chainEnd, hjob]
    dsimp only
    rw [hview]
    rfl
  obtain ⟨tiles, health, i, hnoted⟩ := freed.notePasses_frame g h fs
  obtain ⟨aux, amb, rain, tops, rej, hran⟩ := noted.runChain_ran v h fs
  exact ⟨_, _, took, fs, tiles, amb, rain, tops, rej, aux, health, i, ran.1, hend, hran.trans (by rw [show noted = _ from hnoted]; rfl)⟩

/-- Two states that differ in what released results, failed engines and engines that leave views move. -/
def ReleaseMoved (s t : State) : Prop :=
  t = { s with fabric := t.fabric, health := t.health, integrity := t.integrity, net := t.net, power := t.power,
               returns := t.returns, zone := t.zone }

theorem ReleaseMoved.trans {s t u : State} (h : ReleaseMoved s t) (h' : ReleaseMoved t u) : ReleaseMoved s u :=
  Eq.trans h' (by rw [show t = _ from h])

/-- A chain's kernels move the Bezel's sums besides. -/
theorem ReleaseMoved.after_chain {s u t : State}
    (hu : u = { s with aux := u.aux, fabric := u.fabric, health := u.health, integrity := u.integrity }) (h : ReleaseMoved u t) :
    t = { s with aux := t.aux, fabric := t.fabric, free := t.free, health := t.health, integrity := t.integrity, net := t.net,
                 power := t.power, returns := t.returns, zone := t.zone } :=
  Eq.trans h (by rw [show t = _ from h, hu])

theorem ReleaseMoved.of_released {s t : State}
    (h : t = { s with fabric := t.fabric, integrity := t.integrity, net := t.net, returns := t.returns, zone := t.zone }) :
    ReleaseMoved s t := by
  rw [ReleaseMoved, h]

theorem State.flushView_moved (view : Nat) (s : State) :
    ReleaseMoved s (s.flushView view) := .of_released (s.flushView_kept view).2.2

theorem State.leaveAll_moved (s : State) : ReleaseMoved s s.leaveAll := by
  obtain ⟨e, d, hframe⟩ := s.leaveAll_frame
  rw [ReleaseMoved, hframe]

theorem chainEnd_row {g start : Nat} {bad : List PassFault} {h : Hist} {v : ViewDef} {s : State} (hg : g < s.fabric.engines.length)
    (hjob : (s.engine g).job = some (h, start)) (hview : s.viewIn h.epoch h.view = some v) :
    ∃ t, exec (.chainEnd g bad) s = .next t ∧ (t.engine g).job = none ∧ (t.engine g).chains = satInc 32 (s.engine g).chains ∧
      (∀ k, k ≠ g → t.engine k = { s.engine k with leaving := (t.engine k).leaving }) ∧
      (∀ k, ∀ x ∈ (t.engine k).leaving, x ∈ (s.engine k).leaving) ∧
      (∀ r, s.fabric.releases = [r] → r.closeSeq = h.closeSeq → r.view = h.view → t.fabric.releases = []) ∧
      (∀ r0 r, s.fabric.releases = [r0, r] → r0.view = h.view → r0.done = false → r0.abandoned = false →
        r0.closeSeq ≠ h.closeSeq → r.closeSeq = h.closeSeq →
        t.fabric.streams = s.fabric.streams ∧ t.zone = s.zone ∧ t.net = s.net ∧
        ∃ r', t.fabric.releases = [r0, r'] ∧ r'.done = true ∧ r'.closeSeq = h.closeSeq) ∧
      t = { s with aux := t.aux, fabric := t.fabric, free := t.free, health := t.health, integrity := t.integrity, net := t.net,
                   power := t.power, returns := t.returns, zone := t.zone } := by
  obtain ⟨w, held, took, fs, tiles, amb, rain, tops, rej, aux, health, i, u, hend, hu⟩ := chainEnd_steps (bad := bad) hjob hview
  obtain ⟨filled, hfilled⟩ : ∃ f, f = Release.filled v w held := ⟨_, rfl⟩
  obtain ⟨settled, hsettled⟩ : ∃ t, t = u.settleRelease h.closeSeq filled := ⟨_, rfl⟩
  obtain ⟨flushed, hflushed⟩ : ∃ t, t = settled.flushView h.view := ⟨_, rfl⟩
  rw [← hfilled, ← hsettled, ← hflushed] at hend
  obtain ⟨hengines, -, -⟩ := settled.flushView_kept h.view
  let freed := s.onEngine g (Engine.chainDone took)
  have hdone : u.fabric.engines = (freed.onEngine g (Engine.errorsCounted fs)).fabric.engines := by rw [hu]; rfl
  have hengine (k : Nat) : flushed.engine k = (freed.onEngine g (Engine.errorsCounted fs)).engine k :=
    State.engine_of_engines (by rw [hflushed, hengines, hsettled]; exact hdone) k
  have hown : flushed.engine g = Engine.errorsCounted fs (Engine.chainDone took (s.engine g)) := by
    have hin : g < freed.fabric.engines.length := hg.trans_eq (List.length_modify ..).symm
    rw [hengine, State.engine_onEngine_same hin, State.engine_onEngine_same hg]
  have hother (k : Nat) (hk : k ≠ g) : flushed.engine k = s.engine k := by
    rw [hengine, State.engine_onEngine_ne hk, State.engine_onEngine_ne hk]
  have hreleases : settled.fabric.releases = s.fabric.releases.map fun r => if r.closeSeq == h.closeSeq then filled r else r := by
    rw [hsettled, hu]
    rfl
  obtain ⟨hleftStreams, hleftZone, hleftNet, hleftReleases⟩ := flushed.leaveAll_leaves
  refine ⟨_, congrArg Host.Outcome.next hend, ?_, ?_, fun k hk => ?_, fun k x hx => ?_, fun r hr hseq hrview => ?_,
    fun r0 r hr hr0view hr0done hr0ab hr0seq hseq => ?_, ?_⟩
  · rw [(flushed.leaveAll_left g).1, hown]
    rfl
  · rw [(flushed.leaveAll_left g).1, hown]
    rfl
  · exact (flushed.leaveAll_left k).1.trans (by rw [hother k hk])
  · have hkept := (flushed.leaveAll_left k).2 x hx
    by_cases hk : k = g
    · subst hk
      rw [hown] at hkept
      exact hkept
    · rwa [hother k hk] at hkept
  · have hstand : settled.fabric.releases = [filled r] := by rw [hreleases, hr]; simp [hseq]
    rw [hleftReleases, hflushed]
    exact State.flushView_head hstand (by rw [hfilled]; exact hrview) (by rw [hfilled]; rfl)
  · have hstand : settled.fabric.releases = [r0, filled r] := by rw [hreleases, hr]; simp [hr0seq, hseq]
    have hblocked : flushed = settled := hflushed.trans (State.flushView_blocked hstand hr0view hr0done hr0ab)
    rw [hleftStreams, hleftZone, hleftNet, hleftReleases, hblocked]
    refine ⟨?_, ?_, ?_, filled r, hstand, by rw [hfilled]; rfl, by rw [hfilled]; exact hseq⟩
    · rw [hsettled, hu]
      rfl
    · rw [hsettled, hu]
      rfl
    · rw [hsettled, hu]
      rfl
  · have hmoved : ReleaseMoved u settled := by rw [hsettled]; rfl
    have hreleased : ReleaseMoved settled flushed := hflushed ▸ settled.flushView_moved h.view
    exact ((hmoved.trans hreleased).trans flushed.leaveAll_moved).after_chain (by rw [hu])

/-! ### ENGINE_FAULT -/

/-- A stream's count of abandoned histograms. -/
theorem State.stream_abandonedTotal (n : Nat) (s : State) :
    (s.stream n).abandonedTotal = (s.fabric.streams.map (·.abandonedTotal)).getD n Stream.reset.abandonedTotal := by
  simp only [State.stream, List.getD_eq_getElem?_getD, List.getElem?_map]
  cases s.fabric.streams[n]? <;> rfl

/-- An abandoned histogram of a view with a stream counts there; the engines stand. -/
theorem State.abandonHist_facts {h : Hist} {v : ViewDef} {s : State} (hview : s.viewIn h.epoch h.view = some v) (hrole : v.role = 0)
    (hstream : v.stream < s.fabric.streams.length) : let t := s.abandonHist h
    t.fabric.engines = s.fabric.engines ∧
    (t.stream v.stream).abandonedTotal = satInc 32 (s.stream v.stream).abandonedTotal ∧
    t = { s with fabric := t.fabric, integrity := t.integrity, net := t.net, returns := t.returns, zone := t.zone } := by
  intro t
  let s1 := s.onTile (h.channel / 24) fun t => { t with abandoned := satInc 32 t.abandoned, chainAbandonedSeen := true }
  let s2 := s1.onStream v.stream fun x => { x with abandoned := x.abandoned + 1, abandonedTotal := satInc 32 x.abandonedTotal }
  let s3 := s2.zoneArrives h.view h.cell h.epoch { channel := h.channel, observed := false, points := [] }
  let s4 := s3.settleRelease h.closeSeq fun r => { r with abandoned := true }
  have hview1 : s1.viewIn h.epoch h.view = some v := hview
  have ht : t = s4.flushView h.view := by
    show s.abandonHist h = _
    unfold State.abandonHist
    dsimp only
    rw [show (s.onTile _ _).viewIn h.epoch h.view = some v from hview1]
    dsimp only
    rw [if_pos (by simp [hrole])]
  have harrived : s3.chainView = s2.chainView := State.zoneArrives_chainView ..
  simp only [State.chainView, Prod.mk.injEq] at harrived
  obtain ⟨hsched, hengines, -, htotals⟩ := harrived
  obtain ⟨hsched4, hengines4, htotals4⟩ := s4.flushReleases_kept h.view (s4.fabric.releases.length + 1)
  have hcounted : (s2.stream v.stream).abandonedTotal = satInc 32 (s.stream v.stream).abandonedTotal :=
    congrArg Stream.abandonedTotal (State.stream_modify_same hstream)
  refine ⟨?_, ?_, State.released_frame (State.abandonHist_beside h s) ?_⟩
  · rw [ht]
    exact hengines4.trans hengines
  · rw [State.stream_abandonedTotal, ht, show (s4.flushView h.view).fabric.streams.map _ = _ from htotals4.trans htotals,
      ← State.stream_abandonedTotal, hcounted]
  · rw [ht]
    exact hsched4.trans hsched

/-- A failed engine's physical number is kept, and its repair asked for. -/
theorem State.engineFailed_facts (g : Nat) (s : State) : ∃ l q, s.engineFailed g =
    { s with power := { s.power with repair := { s.power.repair with badEngine := l } }, health := { s.health with queue := q } } ∧
    g ∈ l := by
  unfold State.engineFailed
  dsimp only
  have hin : g ∈ (if s.power.repair.badEngine.contains g then s.power.repair.badEngine else s.power.repair.badEngine ++ [g]) := by
    split
    · next h => exact List.contains_iff_mem.1 h
    · simp
  split
  · next e _ =>
    obtain ⟨q, hq⟩ := State.trigger_frame 0x02 (g / 18) e 0 (s.onRepair fun r =>
      { r with badEngine := if r.badEngine.contains g then r.badEngine else r.badEngine ++ [g] })
    exact ⟨_, q, hq, hin⟩
  · exact ⟨_, s.health.queue, rfl, hin⟩

/-- The engine after its fault: out of service, with the histogram counted. -/
def Engine.failed (e : Engine) : Engine :=
  { e with job := none, fault := true, outOfService := true, abandoned := satInc 32 e.abandoned,
           kernelFaults := satInc 32 e.kernelFaults }

theorem State.engineFailed_moved (g : Nat) (s : State) : ReleaseMoved s (s.engineFailed g) := by
  obtain ⟨l, q, hframe, -⟩ := s.engineFailed_facts g
  rw [ReleaseMoved, hframe]

theorem engineFault_row {g start : Nat} {stop : EngineStop} {h : Hist} {v : ViewDef} {s : State} (hg : g < s.fabric.engines.length)
    (hjob : (s.engine g).job = some (h, start)) (hview : s.viewIn h.epoch h.view = some v) (hrole : v.role = 0)
    (hstream : v.stream < s.fabric.streams.length) :
    ∃ t, exec (.engineFault g stop) s = .next t ∧ (t.engine g).job = none ∧ (t.engine g).fault = true ∧
      (t.engine g).outOfService = true ∧ (t.engine g).abandoned = satInc 32 (s.engine g).abandoned ∧
      (t.engine g).eccUncorrected = satAdd 32 (s.engine g).eccUncorrected
        ((s.metBy h stop.faults).countP fun f => !isCorrected f.fault) ∧
      (t.stream v.stream).abandonedTotal = satInc 32 (s.stream v.stream).abandonedTotal ∧
      g ∈ t.power.repair.badEngine ∧ (∀ k, k ≠ g → t.engine k = { s.engine k with leaving := (t.engine k).leaving }) ∧
      t = { s with fabric := t.fabric, health := t.health, integrity := t.integrity, net := t.net, power := t.power,
                   returns := t.returns, zone := t.zone } := by
  let fs := s.metBy h stop.faults
  let noted := s.onEngine g (Engine.errorsCounted fs)
  let stopped := (s.notePasses g h fs).onEngine g Engine.failed
  obtain ⟨tiles, health, i, hnoted⟩ := s.notePasses_frame g h fs
  have hstopped : stopped = { s with
      fabric := { s.fabric with tiles := tiles, engines := (s.fabric.engines.modify g (Engine.errorsCounted fs)).modify g Engine.failed }
      health := health, integrity := i } := by
    show (s.notePasses g h fs).onEngine g Engine.failed = _
    rw [hnoted]
    rfl
  have hview' : stopped.viewIn h.epoch h.view = some v := by rw [hstopped]; exact hview
  have hstream' : v.stream < stopped.fabric.streams.length := by rw [hstopped]; exact hstream
  obtain ⟨hengines, htotal, habandoned⟩ := State.abandonHist_facts hview' hrole hstream'
  let gone := stopped.abandonHist h
  obtain ⟨l, q, hfailed, hbad⟩ := gone.engineFailed_facts g
  obtain ⟨engines, doms, hleft⟩ := (gone.engineFailed g).leaveAll_frame
  have hend : engineFault g stop.faults s = (gone.engineFailed g).leaveAll := by
    rw [engineFault, hjob]
    rfl
  have hengine (k : Nat) : (gone.engineFailed g).engine k = (noted.onEngine g Engine.failed).engine k :=
    State.engine_of_engines (by rw [hfailed]; exact hengines.trans (by rw [hstopped]; rfl)) k
  have hown : (gone.engineFailed g).engine g = (Engine.errorsCounted fs (s.engine g)).failed := by
    have hin : g < noted.fabric.engines.length := hg.trans_eq (List.length_modify ..).symm
    rw [hengine, State.engine_onEngine_same hin, State.engine_onEngine_same hg]
  have hother (k : Nat) (hk : k ≠ g) : (gone.engineFailed g).engine k = s.engine k := by
    rw [hengine, State.engine_onEngine_ne hk, State.engine_onEngine_ne hk]
  have hleftOwn := ((gone.engineFailed g).leaveAll_left g).1
  rw [hown] at hleftOwn
  refine ⟨_, congrArg Host.Outcome.next hend, ?_, ?_, ?_, ?_, ?_, ?_, ?_, fun k hk => ?_, ?_⟩
  · rw [hleftOwn]
    rfl
  · rw [hleftOwn]
    rfl
  · rw [hleftOwn]
    rfl
  · rw [hleftOwn]
    rfl
  · rw [hleftOwn]
    rfl
  · rw [hleft, hfailed]
    refine htotal.trans ?_
    rw [hstopped]
    rfl
  · rw [hleft, hfailed]
    exact hbad
  · exact ((gone.engineFailed g).leaveAll_left k).1.trans (by rw [hother k hk])
  · have hmoved : ReleaseMoved s stopped := by rw [ReleaseMoved, hstopped]
    have hgone : ReleaseMoved stopped gone := .of_released habandoned
    exact ((hmoved.trans hgone).trans (gone.engineFailed_moved g)).trans (gone.engineFailed g).leaveAll_moved

/-- Settles O43: an engine is free or fails by its own change alone, and what a finished chain gave stands in its place in the order,
from whose head it is released. -/
theorem chainsReleaseInCloseOrder : Obligations.ChainsReleaseInCloseOrder := by
  unfold Obligations.ChainsReleaseInCloseOrder
  refine ⟨fun g s hready => congrArg Host.Outcome.next (if_pos (by simp [hready])), fun g s hg hin hready hleaving hassigned =>
    chainStart_row hg hin hready hleaving hassigned, fun g start bad h v s => chainEnd_row, fun g bad s hjob => ?_,
    fun g start stop h v s => engineFault_row⟩
  refine congrArg Host.Outcome.next ?_
  rw [chainEnd, hjob]

end Sys2Proof.Machine

/-! ## What the steps of a cold start leave (O53) -/

namespace Sys2Proof.Machine

/-- The parts that a cold start's steps leave until they end: the phase and its marks, the schedule's emptiness with the hold of the
start, the configuration sets and the zone outputs. -/
structure ColdView where
  running : Bool
  halted : Bool
  phase : StartPhase
  ready : Bool
  spiOnly : Bool
  src : BitVec 6
  supervised : Bool
  queue : List Descriptor
  current : List (Option Descriptor)
  epoch : Nat
  active : List ViewDef
  shadow : List ViewDef
  clearA : Bool
  clearB : Bool

def State.coldView (s : State) : ColdView :=
  { running := s.power.running, halted := s.power.halted, phase := s.power.phase, ready := s.power.ready, spiOnly := s.power.spiOnly
    src := s.sched.src, supervised := s.sched.inhibit.getLsbD causeSupervisor, queue := s.sched.queue, current := s.sched.current
    epoch := s.sets.epoch, active := s.sets.active.views, shadow := s.sets.shadow.views, clearA := s.zone.clearA, clearB := s.zone.clearB }

/-- Emission is held and no shot is planned: nothing that a step does stops any. -/
def ColdView.Idle (v : ColdView) : Prop := v.supervised = true ∧ v.queue = [] ∧ ∀ e, v.current.getD e none = none

@[simp] theorem coldView_ite (p : Prop) [Decidable p] (s t : State) :
    (if p then s else t).coldView = if p then s.coldView else t.coldView := apply_ite State.coldView p s t

@[simp] theorem coldView_foldl {α : Type} (f : State → α → State) (l : List α) (s : State)
    (h : ∀ t a, (f t a).coldView = t.coldView) : (l.foldl f s).coldView = s.coldView := by
  induction l generalizing s with
  | nil => rfl
  | cons a l ih => exact (ih _).trans (h s a)

/-- As `coldView_foldl`, where a step leaves the view only of an idle state. -/
theorem coldView_foldl_idle {α : Type} {f : State → α → State} (h : ∀ t a, t.coldView.Idle → (f t a).coldView = t.coldView) (l : List α)
    (s : State) (hs : s.coldView.Idle) : (l.foldl f s).coldView = s.coldView := by
  induction l generalizing s with
  | nil => rfl
  | cons a l ih =>
    have hstep := h s a hs
    exact (ih _ (by rwa [hstep])).trans hstep

@[simp] theorem State.onPower_coldView (f : Power → Power) (s : State) (h : ∀ p, (f p).running = p.running ∧ (f p).halted = p.halted ∧
    (f p).phase = p.phase ∧ (f p).ready = p.ready ∧ (f p).spiOnly = p.spiOnly) : (s.onPower f).coldView = s.coldView := by
  simp [State.coldView, h]
@[simp] theorem State.onSched_coldView (f : Sched → Sched) (s : State) (h : ∀ k, (f k).src = k.src ∧ (f k).inhibit = k.inhibit ∧
    (f k).queue = k.queue ∧ (f k).current = k.current) : (s.onSched f).coldView = s.coldView := by
  simp [State.coldView, h]
@[simp] theorem State.onSets_coldView (f : Sets → Sets) (s : State)
    (h : ∀ k, (f k).epoch = k.epoch ∧ (f k).active.views = k.active.views ∧ (f k).shadow.views = k.shadow.views) : (s.onSets f).coldView = s.coldView := by
  simp [State.coldView, h]
@[simp] theorem State.onHost_coldView (f : HostSide → HostSide) (s : State) : (s.onHost f).coldView = s.coldView := by rfl
@[simp] theorem State.onNvm_coldView (f : Nvm → Nvm) (s : State) : (s.onNvm f).coldView = s.coldView := by rfl
@[simp] theorem State.onJournal_coldView (f : Journal → Journal) (s : State) : (s.onJournal f).coldView = s.coldView := by rfl
@[simp] theorem State.onClk_coldView (f : Clk → Clk) (s : State) : (s.onClk f).coldView = s.coldView := by rfl
@[simp] theorem State.onEmission_coldView (f : Emission → Emission) (s : State) : (s.onEmission f).coldView = s.coldView := by
  rfl
@[simp] theorem State.onFabric_coldView (f : Fabric → Fabric) (s : State) : (s.onFabric f).coldView = s.coldView := by rfl
@[simp] theorem State.onAngle_coldView (f : Angle → Angle) (s : State) : (s.onAngle f).coldView = s.coldView := by rfl
@[simp] theorem State.onMotion_coldView (f : Motion → Motion) (s : State) : (s.onMotion f).coldView = s.coldView := by rfl
@[simp] theorem State.onAux_coldView (f : Aux → Aux) (s : State) : (s.onAux f).coldView = s.coldView := by rfl
@[simp] theorem State.onNet_coldView (f : Net → Net) (s : State) : (s.onNet f).coldView = s.coldView := by rfl
@[simp] theorem State.onIntegrity_coldView (f : Integrity → Integrity) (s : State) :
    (s.onIntegrity f).coldView = s.coldView := by
  rfl
@[simp] theorem State.onHealth_coldView (f : Health → Health) (s : State) : (s.onHealth f).coldView = s.coldView := by rfl
@[simp] theorem State.emit_coldView (o : Out) (s : State) : (s.emit o).coldView = s.coldView := by rfl
@[simp] theorem State.freeNext_coldView (s : State) : (s.freeNext).coldView = s.coldView := by rfl
@[simp] theorem State.onEmitter_coldView (e : Nat) (f : Emitter → Emitter) (s : State) :
    (s.onEmitter e f).coldView = s.coldView := by
  rfl
@[simp] theorem State.onChannel_coldView (c : Nat) (f : Channel → Channel) (s : State) :
    (s.onChannel c f).coldView = s.coldView := by
  rfl
@[simp] theorem State.onEngine_coldView (g : Nat) (f : Engine → Engine) (s : State) :
    (s.onEngine g f).coldView = s.coldView := by
  rfl
@[simp] theorem State.onLane_coldView (n : Nat) (f : Lane → Lane) (s : State) : (s.onLane n f).coldView = s.coldView := by rfl
@[simp] theorem State.onFe_coldView (n : Nat) (f : FrontEndCal → FrontEndCal) (s : State) :
    (s.onFe n f).coldView = s.coldView := by
  rfl
@[simp] theorem State.post_coldView (r : Reply) (s : State) : (s.post r).coldView = s.coldView := by rfl
@[simp] theorem State.updateDup_coldView (q seq tr : Nat) (f : DupRec → DupRec) (s : State) :
    (s.updateDup q seq tr f).coldView = s.coldView := by rfl
@[simp] theorem State.setPending_coldView (o : Obj) (c : Cmd) (s : State) : (s.setPending o c).coldView = s.coldView := by rfl
@[simp] theorem State.onLive_coldView (c : Cmd) (f : Live → Live) (s : State) : (s.onLive c f).coldView = s.coldView := by
  unfold State.onLive; split <;> simp
@[simp] theorem State.recordDone_coldView (c : Cmd) (r : Reply) (s : State) : (s.recordDone c r).coldView = s.coldView := by
  unfold State.recordDone; split <;> simp
@[simp] theorem State.finishWith_coldView (op : Nat) (c : Cmd) (b : StatusBlock) (d : List Byte) (s : State) :
    (s.finishWith op c b d).coldView = s.coldView := by simp [State.finishWith]
@[simp] theorem State.finish_coldView (op : Nat) (c : Cmd) (st det res : Nat) (d : List Byte) (s : State) :
    (s.finish op c st det res d).coldView = s.coldView := by simp [State.finish]
@[simp] theorem State.done_coldView (op : Nat) (c : Cmd) (res : Nat) (s : State) : (s.done op c res).coldView = s.coldView := by
  simp [State.done]
@[simp] theorem State.unitItem_coldView (u : Nat) (bytes : List Byte) (s : State) :
    (s.unitItem u bytes).coldView = s.coldView := by
  rfl
@[simp] theorem State.onArbiterQueue_coldView (f : List Activity → List Activity) (s : State) :
    (s.onArbiterQueue f).coldView = s.coldView := by rfl
@[simp] theorem State.request_coldView (a : Activity) (s : State) : (s.request a).coldView = s.coldView := by
  simp [State.request]
@[simp] theorem State.storeFor_coldView (op id : Nat) (data : Option (List Byte)) (c : Cmd) (s : State) :
    (s.storeFor op id data c).coldView = s.coldView := by simp [State.storeFor]
@[simp] theorem State.storeAfter_coldView (op id : Nat) (c : Cmd) (b : StatusBlock) (s : State) :
    (s.storeAfter op id c b).coldView = s.coldView := by simp [State.storeAfter]
@[simp] theorem State.claspStore_coldView (s : State) : s.claspStore.coldView = s.coldView := by simp [State.claspStore]
@[simp] theorem State.onRepair_coldView (f : RepairMap → RepairMap) (s : State) : (s.onRepair f).coldView = s.coldView := by rfl
@[simp] theorem State.trigger_coldView (code scope target row : Nat) (s : State) :
    (s.trigger code scope target row).coldView = s.coldView := by simp [State.trigger]
@[simp] theorem State.feFailed_coldView (ch : Nat) (s : State) : (s.feFailed ch).coldView = s.coldView := by
  simp [State.feFailed]
@[simp] theorem State.engineFailed_coldView (g : Nat) (s : State) : (s.engineFailed g).coldView = s.coldView := by
  simp only [State.engineFailed]; split <;> simp
@[simp] theorem State.coreTrouble_coldView (e row : Nat) (s : State) : (s.coreTrouble e row).coldView = s.coldView := by
  simp [State.coreTrouble]
@[simp] theorem State.rowTrouble_coldView (bank row : Nat) (s : State) : (s.rowTrouble bank row).coldView = s.coldView := by
  simp [State.rowTrouble]
@[simp] theorem State.refreshPlan_coldView (s : State) : s.refreshPlan.coldView = s.coldView := by rfl
@[simp] theorem State.charge_coldView (e de : Nat) (s : State) : (s.charge e de).coldView = s.coldView := by rfl
@[simp] theorem State.unreserve_coldView (e q : Nat) (s : State) : (s.unreserve e q).coldView = s.coldView := by rfl
@[simp] theorem State.settle_coldView (e : Nat) (s : State) : (s.settle e).coldView = s.coldView := by
  simp only [State.settle]; split <;> simp
@[simp] theorem State.settleAll_coldView (s : State) : s.settleAll.coldView = s.coldView := by simp [State.settleAll]
@[simp] theorem State.parkOutput_coldView (e : Nat) (s : State) : (s.parkOutput e).coldView = s.coldView := by
  simp only [State.parkOutput]; split <;> simp
@[simp] theorem State.endDirect_coldView (e st det : Nat) (s : State) : (s.endDirect e st det).coldView = s.coldView := by
  unfold State.endDirect; split <;> simp
@[simp] theorem State.refreshSlots_coldView (s : State) : s.refreshSlots.coldView = s.coldView :=
  coldView_foldl _ _ _ fun _ _ => State.onEmitter_coldView ..
@[simp] theorem State.onSlot_coldView (e n : Nat) (f : Slot → Slot) (s : State) : (s.onSlot e n f).coldView = s.coldView := by
  rfl
@[simp] theorem State.takeDnl_coldView (f : Nat) (s : State) : (s.takeDnl f).coldView = s.coldView := by
  unfold State.takeDnl; split <;> simp
@[simp] theorem State.channelOut_coldView (s : State) (ch : Nat) : (s.channelOut ch).coldView = s.coldView := by
  simp [State.channelOut]
@[simp] theorem State.writeSlot_coldView (e n : Nat) (k : Slot) (s : State) : (s.writeSlot e n k).coldView = s.coldView := by
  simp [State.writeSlot]
@[simp] theorem State.refreshDomains_coldView (s : State) : s.refreshDomains.coldView = s.coldView := by
  simp [State.refreshDomains]
@[simp] theorem State.refreshChannels_coldView (s : State) : s.refreshChannels.coldView = s.coldView := by
  simp -implicitDefEqProofs [State.refreshChannels]
@[simp] theorem State.laneOff_coldView (s : State) (n : Nat) : (s.laneOff n).coldView = s.coldView := by simp [State.laneOff]
@[simp] theorem State.deliverPace_coldView (s : State) : s.deliverPace.coldView = s.coldView := by simp [State.deliverPace]
@[simp] theorem State.onFslot_coldView (n : Nat) (f : FilterSlot → FilterSlot) (s : State) :
    (s.onFslot n f).coldView = s.coldView := by rfl
@[simp] theorem State.unsettleCarrier_coldView (s : State) : s.unsettleCarrier.coldView = s.coldView := by
  simp [State.unsettleCarrier]
@[simp] theorem State.resetCarrier_coldView (s : State) : s.resetCarrier.coldView = s.coldView := by simp [State.resetCarrier]
@[simp] theorem State.switchSources_coldView (s : State) : s.switchSources.coldView = s.coldView := by
  simp [State.switchSources]
@[simp] theorem State.onMdrv_coldView (f : Mdrv → Mdrv) (s : State) : (s.onMdrv f).coldView = s.coldView := by rfl
@[simp] theorem State.onMeas_coldView (m : Nat) (f : AuxMeas → AuxMeas) (s : State) : (s.onMeas m f).coldView = s.coldView := by
  rfl
@[simp] theorem State.takeSettings_coldView (m : Nat) (s : State) : (s.takeSettings m).coldView = s.coldView := by
  unfold State.takeSettings; split <;> simp
@[simp] theorem State.seek_coldView (l : List Nat) (s : State) : (s.seek l).coldView = s.coldView := by
  induction l generalizing s with
  | nil => rfl
  | cons m r ih => simp [State.seek, ih]
@[simp] theorem State.checkCalRun_coldView (s : State) : s.checkCalRun.coldView = s.coldView := by
  unfold State.checkCalRun; split <;> simp
@[simp] theorem State.insertCals_coldView (s : State) : s.insertCals.coldView = s.coldView := by simp [State.insertCals]
@[simp] theorem State.nextTurn_coldView (m : Nat) (s : State) : (s.nextTurn m).coldView = s.coldView := by simp [State.nextTurn]
@[simp] theorem State.startAux_coldView (s : State) : s.startAux.coldView = s.coldView := by simp [State.startAux]
@[simp] theorem State.repairCopies_coldView (s : State) : s.repairCopies.coldView = s.coldView := by rfl
@[simp] theorem State.onRecord_coldView (id : Nat) (f : NvmRecord → NvmRecord) (s : State) :
    (s.onRecord id f).coldView = s.coldView := by
  simp [State.onRecord]
@[simp] theorem State.checkCopy_coldView (bank id : Nat) (s : State) : (s.checkCopy bank id).coldView = s.coldView := by
  unfold State.checkCopy; cases s.readable bank id <;> simp
@[simp] theorem State.chooseRecords_coldView (s : State) : s.chooseRecords.coldView = s.coldView := by
  simp [State.chooseRecords]
@[simp] theorem State.load_coldView (id : Nat) (f : List Byte → State → State) (s : State)
    (h : ∀ p, (f p s).coldView = s.coldView) : (s.load id f).coldView = s.coldView := by unfold State.load; split <;> simp [h]
@[simp] theorem loadDac_coldView (p : List Byte) (s : State) : (loadDac p s).coldView = s.coldView := by
  simp -implicitDefEqProofs [loadDac]
@[simp] theorem loadTimebase_coldView (p : List Byte) (s : State) : (loadTimebase p s).coldView = s.coldView := by rfl
@[simp] theorem loadCorrections_coldView (p : List Byte) (s : State) : (loadCorrections p s).coldView = s.coldView :=
  coldView_foldl _ _ _ fun _ _ => State.onFe_coldView ..
@[simp] theorem loadKey_coldView (p : List Byte) (s : State) : (loadKey p s).coldView = s.coldView := by rfl
@[simp] theorem loadMap_coldView (p : List Byte) (s : State) : (loadMap p s).coldView = s.coldView := by rfl
@[simp] theorem loadWave_coldView (e : Nat) (p : List Byte) (s : State) : (loadWave e p s).coldView = s.coldView := by
  simp [loadWave]
@[simp] theorem loadAngle_coldView (p : List Byte) (s : State) : (loadAngle p s).coldView = s.coldView := by rfl
@[simp] theorem loadMotion_coldView (p : List Byte) (s : State) : (loadMotion p s).coldView = s.coldView := by rfl
@[simp] theorem loadBias_coldView (p : List Byte) (s : State) : (loadBias p s).coldView = s.coldView := by rfl
@[simp] theorem loadAux_coldView (p : List Byte) (s : State) : (loadAux p s).coldView = s.coldView := by rfl
@[simp] theorem loadBezel_coldView (p : List Byte) (s : State) : (loadBezel p s).coldView = s.coldView := by rfl
@[simp] theorem loadNetwork_coldView (p : List Byte) (s : State) : (loadNetwork p s).coldView = s.coldView := by rfl
@[simp] theorem loadRange_coldView (p : List Byte) (s : State) : (loadRange p s).coldView = s.coldView := by rfl
@[simp] theorem loadClasp_coldView (lost : Bool) (p : List Byte) (s : State) : (loadClasp lost p s).coldView = s.coldView := by
  simp [loadClasp]
@[simp] theorem loadMargins_coldView (p : List Byte) (s : State) : (loadMargins p s).coldView = s.coldView := by rfl
@[simp] theorem State.loadLibrary_coldView (s : State) : s.loadLibrary.coldView = s.coldView := by
  unfold State.loadLibrary; split <;> simp
@[simp] theorem State.loadSlots_coldView (s : State) : s.loadSlots.coldView = s.coldView := by simp [State.loadSlots]
@[simp] theorem State.interrupt_coldView (b : Nat) (s : State) : (s.interrupt b).coldView = s.coldView := by
  simp [State.interrupt]
@[simp] theorem State.withStatus_coldView (f : State → State) (s : State) : (s.withStatus f).coldView = (f s).coldView := by
  simp [State.withStatus]
@[simp] theorem State.steer_coldView (ch fe : Nat) (s : State) : (s.steer ch fe).coldView = s.coldView := by simp [State.steer]
@[simp] theorem State.markTarget_coldView (test target : Nat) (bad : Bool) (s : State) :
    (s.markTarget test target bad).coldView = s.coldView := by fun_cases State.markTarget <;> simp +zetaDelta
@[simp] theorem State.noteTest_coldView (test target : Nat) (s : State) : (s.noteTest test target).coldView = s.coldView := by
  rfl
@[simp] theorem State.oweReply_coldView (dup : Bool) (l : Live) (r : Reply) (s : State) :
    (s.oweReply dup l r).coldView = s.coldView := by
  simp [State.oweReply]
@[simp] theorem State.resolveLost_coldView (s : State) (l : Live) : (s.resolveLost l).coldView = s.coldView := by
  fun_cases State.resolveLost <;> simp +zetaDelta
@[simp] theorem State.answerLost_coldView (s : State) : s.answerLost.coldView = s.coldView := by simp [State.answerLost]
@[simp] theorem State.drawStartId_coldView (old : Nat) (s : State) : (s.drawStartId old).coldView = s.coldView := by
  simp [State.drawStartId]
@[simp] theorem State.powerDomains_coldView (l : List Domain) (s : State) : (s.powerDomains l).coldView = s.coldView := by rfl
@[simp] theorem State.noteSpares_coldView (s : State) : s.noteSpares.coldView = s.coldView := by simp [State.noteSpares]
@[simp] theorem State.failedFe_coldView (s : State) (f : Nat) : (s.failedFe f).coldView = s.coldView := by
  unfold State.failedFe; split <;> simp
@[simp] theorem State.failedCore_coldView (s : State) (k : Nat) : (s.failedCore k).coldView = s.coldView := by
  simp only [State.failedCore]; split <;> simp
@[simp] theorem State.testStep_coldView (st : ColdStart) (s : State) : (s.testStep st).coldView = s.coldView := by
  simp [State.testStep]
@[simp] theorem State.paceStep_coldView (st : ColdStart) (s : State) : (s.paceStep st).coldView = s.coldView := by rfl
@[simp] theorem State.laneStep_coldView (st : ColdStart) (s : State) : (s.laneStep st).coldView = s.coldView := by
  simp [State.laneStep]
@[simp] theorem State.restLanes_coldView (s : State) : s.restLanes.coldView = s.coldView := by simp [State.restLanes]
@[simp] theorem State.excStep_coldView (s : State) : s.excStep.coldView = s.coldView := by simp [State.excStep]

/-! ### Registering and clearing while emission is held -/

@[simp] theorem State.flushUnits_coldView (a b : JournalImage) (s : State) : (s.flushUnits a b).coldView = s.coldView := by rfl

/-- A held device is inhibited. -/
theorem State.inhibited_of_idle {s : State} (h : s.coldView.Idle) : s.inhibited = true := by
  have hset : s.sched.inhibit.getLsbD causeSupervisor = true := h.1
  simp only [State.inhibited, bne_iff_ne, ne_eq]
  intro hzero
  rw [hzero] at hset
  exact absurd hset (by decide)

theorem State.registerCause_idle {s : State} (h : s.coldView.Idle) (cause : Nat) :
    s.registerCause cause = s.onSched fun k => { k with inhibit := k.inhibit ||| bit6 cause } := by
  rw [State.registerCause, if_pos (State.inhibited_of_idle h)]

theorem State.registerCause_coldView {s : State} (h : s.coldView.Idle) (cause : Nat) :
    (s.registerCause cause).coldView = s.coldView := by
  have hset : s.sched.inhibit.getLsbD causeSupervisor = true := h.1
  rw [State.registerCause_idle h]
  simp [State.coldView, hset]

theorem State.registerLedger_coldView {s : State} (h : s.coldView.Idle) (row window : Nat) :
    (s.registerLedger row window).coldView = s.coldView := by
  rw [State.registerLedger, State.onEmission_coldView, State.registerCause_coldView h]

@[simp] theorem State.clearLedger_coldView (s : State) : (s.clearCause causeLedger).coldView = s.coldView := by
  have hkept : (s.clearCause causeLedger).sched.inhibit.getLsbD causeSupervisor = s.sched.inhibit.getLsbD causeSupervisor :=
    (State.clearCause_facts (by decide) s).2.1 _ (by decide) (by decide)
  unfold State.coldView
  rw [hkept]
  rfl

@[simp] theorem State.tryClearLedger_coldView (s : State) : s.tryClearLedger.coldView = s.coldView := by
  simp [State.tryClearLedger]

/-- Without planned shots none is given up. -/
theorem State.dropShotsOf_idle {s : State} (h : s.coldView.Idle) (e : Nat) (r : Skip) : s.dropShotsOf e r = s := by
  obtain ⟨-, hqueue, hcurrent⟩ := h
  have hqueue : s.sched.queue = [] := hqueue
  have hcurrent : s.sched.current.getD e none = none := hcurrent e
  rw [State.dropShotsOf, hqueue]
  show s.dropCurrent e r = s
  rw [State.dropCurrent, hcurrent]

theorem State.forbidEmitter_coldView (s : State) (e : Nat) (h : s.coldView.Idle) :
    (s.forbidEmitter e).coldView = s.coldView := by
  unfold State.forbidEmitter
  split
  · rfl
  · rw [State.dropShotsOf_idle (by simpa using h)]
    simp

theorem State.installLedger_coldView {s : State} (h : s.coldView.Idle) (t : List Byte) (gen : Nat) :
    (s.installLedger t gen).coldView = s.coldView := by
  have hprepared (f : Health → Health) (g : Emission → Emission) :
      ((s.settleAll.onHealth f).onEmission g).refreshSlots.coldView = s.coldView := by simp
  unfold State.installLedger
  dsimp only
  generalize hu : (State.refreshSlots _ : State) = u
  have hview : u.coldView = s.coldView := hu ▸ hprepared _ _
  have hforbidden := coldView_foldl_idle State.forbidEmitter_coldView (List.range 16) u (by rwa [hview])
  split
  · rw [State.tryClearLedger_coldView, hforbidden, hview]
  · rw [State.registerLedger_coldView (by rwa [hforbidden, hview]), hforbidden, hview]

/-! ### The steps -/

theorem loadLedger_coldView {s : State} (h : s.coldView.Idle) (p : List Byte) : (loadLedger p s).coldView = s.coldView := by
  unfold loadLedger
  exact State.installLedger_coldView h _ _

theorem State.loadRecords_coldView {s : State} (h : s.coldView.Idle) : s.loadRecords.coldView = s.coldView := by
  have hledger (u : State) (hu : u.coldView = s.coldView) : (u.load 5 loadLedger).coldView = s.coldView :=
    (State.load_coldView _ _ _ fun p => loadLedger_coldView (by rwa [hu]) p).trans hu
  simp only [State.loadRecords]
  simp [hledger]

theorem State.loadImage_coldView (i : FlushImage) (s : State) : (s.loadImage i).coldView = s.coldView := by
  simp [State.loadImage]

theorem State.loadJournal_coldView (s : State) : s.loadJournal.coldView = s.coldView := by
  unfold State.loadJournal
  split <;> simp [State.loadImage_coldView]

/-- Steps 1 and 2 set the supervisor running. -/
theorem State.loadStep_coldView {s : State} (h : s.coldView.Idle) :
    s.loadStep.coldView = { s.coldView with running := true } := by
  let u := (s.powerDomains [.supervisor 0, .supervisor 1, .network]).onPower fun p => { p with running := true }
  have hview : u.coldView = { s.coldView with running := true } := rfl
  have hrecords : u.chooseRecords.loadRecords.coldView = u.coldView := by
    rw [State.loadRecords_coldView (by rw [State.chooseRecords_coldView, hview]; exact h), State.chooseRecords_coldView]
  unfold State.loadStep
  dsimp only
  rw [State.onMotion_coldView, State.onAngle_coldView, State.onEmission_coldView, State.onPower_coldView,
    State.drawStartId_coldView, State.loadJournal_coldView]
  · exact hrecords.trans hview
  · exact fun _ => ⟨rfl, rfl, rfl, rfl, rfl⟩

/-- The steps after the tests leave the device held. -/
theorem State.lastSteps_coldView (st : ColdStart) {s : State} (h : s.coldView.Idle) :
    (s.lastSteps st).coldView = s.coldView := by
  have hregister (u : State) (hu : u.coldView = s.coldView) (cause : Nat) : (u.registerCause cause).coldView = s.coldView :=
    (State.registerCause_coldView (by rwa [hu]) cause).trans hu
  unfold State.lastSteps
  dsimp only
  rw [State.refreshPlan_coldView, State.startAux_coldView, State.onAux_coldView, State.tryClearLedger_coldView]
  refine hregister _ ?_ _
  rw [State.onEmission_coldView, State.onMdrv_coldView, State.excStep_coldView, State.restLanes_coldView, State.laneStep_coldView,
    State.onNet_coldView, State.powerDomains_coldView, State.deliverPace_coldView, State.paceStep_coldView]

end Sys2Proof.Machine

/-! ## The cold start (O53) -/

namespace Sys2Proof.Machine

/-! ### What leaves the emitters -/

@[simp] theorem emission_ite (p : Prop) [Decidable p] (s t : State) :
    (if p then s else t).emission = if p then s.emission else t.emission := apply_ite State.emission p s t

@[simp] theorem emission_foldl {α : Type} (f : State → α → State) (l : List α) (s : State)
    (h : ∀ t a, (f t a).emission = t.emission) : (l.foldl f s).emission = s.emission := by
  induction l generalizing s with
  | nil => rfl
  | cons a l ih => exact (ih _).trans (h s a)

@[simp] theorem State.onArbiterQueue_emission (f : List Activity → List Activity) (s : State) :
    (s.onArbiterQueue f).emission = s.emission := by rfl
@[simp] theorem State.request_emission (a : Activity) (s : State) : (s.request a).emission = s.emission := by
  simp [State.request]
@[simp] theorem State.storeFor_emission (op id : Nat) (data : Option (List Byte)) (c : Cmd) (s : State) :
    (s.storeFor op id data c).emission = s.emission := by simp [State.storeFor]
@[simp] theorem State.storeAfter_emission (op id : Nat) (c : Cmd) (b : StatusBlock) (s : State) :
    (s.storeAfter op id c b).emission = s.emission := by simp [State.storeAfter]
@[simp] theorem State.clearCause_emission (cause : Nat) (s : State) : (s.clearCause cause).emission = s.emission := by
  simp [State.clearCause]
@[simp] theorem State.clearSource_emission (src : Nat) (s : State) : (s.clearSource src).emission = s.emission := by
  simp [State.clearSource]
@[simp] theorem State.onMeas_emission (m : Nat) (f : AuxMeas → AuxMeas) (s : State) : (s.onMeas m f).emission = s.emission := by
  rfl
@[simp] theorem State.takeSettings_emission (m : Nat) (s : State) : (s.takeSettings m).emission = s.emission := by
  unfold State.takeSettings; split <;> simp
@[simp] theorem State.seek_emission (l : List Nat) (s : State) : (s.seek l).emission = s.emission := by
  induction l generalizing s with
  | nil => rfl
  | cons m r ih => simp [State.seek, ih]
@[simp] theorem State.checkCalRun_emission (s : State) : s.checkCalRun.emission = s.emission := by
  unfold State.checkCalRun; split <;> simp
@[simp] theorem State.insertCals_emission (s : State) : s.insertCals.emission = s.emission := by simp [State.insertCals]
@[simp] theorem State.nextTurn_emission (m : Nat) (s : State) : (s.nextTurn m).emission = s.emission := by simp [State.nextTurn]
@[simp] theorem State.startAux_emission (s : State) : s.startAux.emission = s.emission := by simp [State.startAux]
@[simp] theorem State.repairCopies_emission (s : State) : s.repairCopies.emission = s.emission := by rfl
@[simp] theorem loadMap_emission (p : List Byte) (s : State) : (loadMap p s).emission = s.emission := by rfl
@[simp] theorem State.interrupt_emission (b : Nat) (s : State) : (s.interrupt b).emission = s.emission := by
  simp [State.interrupt]
@[simp] theorem State.withStatus_emission (f : State → State) (s : State) : (s.withStatus f).emission = (f s).emission := by
  simp [State.withStatus]
@[simp] theorem State.oweReply_emission (dup : Bool) (l : Live) (r : Reply) (s : State) :
    (s.oweReply dup l r).emission = s.emission := by
  simp [State.oweReply]
@[simp] theorem State.resolveLost_emission (s : State) (l : Live) : (s.resolveLost l).emission = s.emission := by
  fun_cases State.resolveLost <;> simp +zetaDelta
@[simp] theorem State.answerLost_emission (s : State) : s.answerLost.emission = s.emission := by simp [State.answerLost]
@[simp] theorem State.clockStep_emission (ok : Bool) (s : State) : (s.clockStep ok).emission = s.emission := by
  simp [State.clockStep]
@[simp] theorem State.releaseStart_emission (s : State) : s.releaseStart.emission = s.emission := by simp [State.releaseStart]
@[simp] theorem State.enterRecovery_emission (s : State) : s.enterRecovery.emission = s.emission := by
  simp [State.enterRecovery]
@[simp] theorem State.load_emission (id : Nat) (f : List Byte → State → State) (s : State) (h : ∀ p, (f p s).emission = s.emission) :
    (s.load id f).emission = s.emission := by
  unfold State.load
  split <;> simp [h]

theorem Dark.of_emission {s t : State} (h : t.emission = s.emission) (hs : Dark s) : Dark t := by
  rw [Dark, h]
  exact hs

/-- Emitters whose outputs are all parked, or held at their park codes, play nothing. -/
theorem Dark.of_outs {g : Emitter → Emitter} (hg : ∀ e, (g e).out.lit = false) (f : Emission → Emission) (s : State)
    (hf : ∀ m, (f m).emitters = m.emitters.map g) : Dark (s.onEmission f) := by
  intro x hx
  have hx' : x ∈ (f s.emission).emitters := hx
  rw [hf] at hx'
  obtain ⟨e, -, rfl⟩ := List.mem_map.1 hx'
  exact hg e

/-- Park codes take effect on every output that serves an emitter (R28). -/
theorem State.loadStep_dark (s : State) : Dark s.loadStep := by
  unfold State.loadStep
  dsimp only
  generalize hv : State.onEmission _ _ = v
  have hparked : Dark v := hv ▸ Dark.of_outs (g := fun e => { e with out := .park e.park }) (fun _ => rfl) _ _ fun _ => rfl
  exact Dark.of_emission (s := v) (by simp) hparked

/-- Outputs of a device that is held keep their park codes to the end of the steps. -/
theorem State.lastSteps_dark (st : ColdStart) {s : State} (h : s.coldView.Idle) : Dark (s.lastSteps st) := by
  unfold State.lastSteps
  dsimp only
  generalize hu : State.onMdrv _ _ = u
  have hview : u.coldView = s.coldView := by
    rw [← hu, State.onMdrv_coldView, State.excStep_coldView, State.restLanes_coldView, State.laneStep_coldView, State.onNet_coldView,
      State.powerDomains_coldView, State.deliverPace_coldView, State.paceStep_coldView]
  generalize hv : State.onEmission _ u = v
  have hheld : Dark v :=
    hv ▸ Dark.of_outs (g := fun e => { e with out := .hold e.park, charged := _ }) (fun _ => rfl) _ _ fun _ => rfl
  have hidle : v.coldView.Idle := by
    rw [← hv, State.onEmission_coldView, hview]
    exact h
  have hregistered : Dark (v.registerCause causeLedger) := by
    rw [State.registerCause_idle hidle]
    exact hheld
  have hcleared : Dark (v.registerCause causeLedger).tryClearLedger := by
    unfold State.tryClearLedger
    split
    · exact hregistered
    · exact hregistered
  exact Dark.of_emission (s := (v.registerCause causeLedger).tryClearLedger) (State.startAux_emission _) hcleared

/-! ### The ends of a cold start -/

/-- The release of the start hold: the device is measurement-ready. -/
theorem State.releaseStart_facts (s : State) : let t := s.releaseStart
    t.power = { s.power with phase := .ready, ready := true } ∧ t.sched.src = s.sched.src &&& ~~~ bit6 srcStart ∧ t.sets = s.sets ∧
    t.zone = s.zone := by
  have hframe := State.withStatus_frame (State.onPower fun p => { p with phase := .ready, ready := true }) (s.clearSource srcStart)
  obtain ⟨hclear, hsrc⟩ := State.clearSource_frame srcStart s
  unfold State.releaseStart
  rw [hframe]
  refine ⟨?_, hsrc, ?_, ?_⟩
  · rw [hclear]
    rfl
  · rw [hclear]
    rfl
  · rw [hclear]
    rfl

theorem State.enterRecovery_coldView (s : State) : s.enterRecovery.coldView = { s.coldView with phase := .recovery } := by
  unfold State.enterRecovery
  rw [State.withStatus_coldView, ← s.answerLost_coldView]
  rfl

/-- The view of a cold start's beginning. -/
def ColdView.fresh : ColdView :=
  { running := false, halted := false, phase := .cold, ready := false, spiOnly := false, src := 0x20#6, supervised := true, queue := []
    current := List.replicate 16 none, epoch := 0, active := [], shadow := [], clearA := false, clearB := false }

theorem ColdView.fresh_idle : ColdView.fresh.Idle :=
  ⟨rfl, rfl, fun e => by simp only [ColdView.fresh, List.getD_eq_getElem?_getD, List.getElem?_replicate]; split <;> rfl⟩

theorem State.freshStart_coldView (s : State) : s.freshStart.coldView = ColdView.fresh := by
  have hpower : s.freshStart.power = Power.reset := rfl
  have hsched : s.freshStart.sched = Sched.reset := rfl
  have hsets : s.freshStart.sets = Sets.reset := rfl
  have hzone : s.freshStart.zone = Zone.reset := rfl
  rw [State.coldView, hpower, hsched, hsets, hzone]
  rfl

/-- The two ends of a cold start: recovery-only with the start hold, or measurement-ready without it. -/
inductive ColdEnd (t : State) : Prop where
  | recovery (spi : Bool) (h : t.coldView = { ColdView.fresh with running := true, spiOnly := spi, phase := .recovery })
  | ready (hpower : t.power.running = true ∧ t.power.halted = false ∧ t.power.phase = .ready ∧ t.power.ready = true)
      (hsrc : t.sched.src = 0) (hsets : t.sets.epoch = 0 ∧ t.sets.active.views = [] ∧ t.sets.shadow.views = [])
      (hzone : t.zone.clearA = false ∧ t.zone.clearB = false)

theorem State.clockStep_coldView (ok : Bool) (s : State) :
    (s.clockStep ok).coldView = { s.coldView with spiOnly := !ok || s.coldView.spiOnly } := by
  cases ok <;> rfl

/-- Where the crystal does not start the device ends recovery-only, on the SPI port alone. -/
theorem State.recovery_end {s : State} (spi : Bool) (h : s.coldView = { ColdView.fresh with running := true, spiOnly := spi }) :
    ColdEnd s.enterRecovery :=
  .recovery spi (by rw [State.enterRecovery_coldView, h])

/-- The last steps of a start whose memories pass: the start hold is released. -/
theorem State.ready_end {s : State} (h : s.coldView = { ColdView.fresh with running := true }) : ColdEnd s.releaseStart := by
  obtain ⟨hpower, hsrc, hsets, hzone⟩ := s.releaseStart_facts
  simp only [State.coldView, ColdView.fresh, ColdView.mk.injEq] at h
  obtain ⟨hrunning, hhalted, -, -, -, hs, -, -, -, hepoch, hactive, hshadow, hA, hB⟩ := h
  refine .ready ?_ ?_ ?_ ?_
  · rw [hpower]
    exact ⟨hrunning, hhalted, rfl, rfl⟩
  · rw [hsrc, hs]
    rfl
  · rw [hsets]
    exact ⟨hepoch, hactive, hshadow⟩
  · rw [hzone]
    exact ⟨hA, hB⟩

theorem State.coldSteps_end (st : ColdStart) {s : State} (h : s.coldView = ColdView.fresh) :
    ColdEnd (s.coldSteps st) ∧ Dark (s.coldSteps st) ∧
    (st.crystalOk = false → (s.coldSteps st).power.phase = .recovery ∧ (s.coldSteps st).power.spiOnly = true) := by
  have hload : s.loadStep.coldView = { ColdView.fresh with running := true } :=
    (State.loadStep_coldView (by rw [h]; exact ColdView.fresh_idle)).trans (by rw [h])
  have hclock (ok : Bool) : (s.loadStep.clockStep ok).coldView = { ColdView.fresh with running := true, spiOnly := !ok } := by
    rw [State.clockStep_coldView, hload]
    cases ok <;> rfl
  have hclockDark (ok : Bool) : Dark (s.loadStep.clockStep ok) := Dark.of_emission (State.clockStep_emission ok _) s.loadStep_dark
  have hstopped : (s.loadStep.clockStep false).enterRecovery.power.phase = .recovery ∧
      (s.loadStep.clockStep false).enterRecovery.power.spiOnly = true := by
    have hview := State.enterRecovery_coldView (s.loadStep.clockStep false)
    rw [hclock] at hview
    generalize (s.loadStep.clockStep false).enterRecovery = t at hview
    exact ⟨(congrArg ColdView.phase hview :), (congrArg ColdView.spiOnly hview :)⟩
  unfold State.coldSteps
  dsimp only
  split
  · exact ⟨State.recovery_end _ (hclock _), Dark.of_emission (State.enterRecovery_emission _) (hclockDark _),
      fun hx => by rw [hx]; exact hstopped⟩
  · split
    · exact ⟨State.recovery_end _ (hclock _), Dark.of_emission (State.enterRecovery_emission _) (hclockDark _), fun _ => hstopped⟩
    · next hok =>
      have hmap : ((s.loadStep.clockStep true).load 2 loadMap).coldView = { ColdView.fresh with running := true } :=
        (State.load_coldView 2 loadMap _ fun p => loadMap_coldView p _).trans (hclock true)
      have hmapDark : Dark ((s.loadStep.clockStep true).load 2 loadMap) :=
        Dark.of_emission (State.load_emission 2 loadMap _ fun p => loadMap_emission p _) (hclockDark true)
      generalize (s.loadStep.clockStep true).load 2 loadMap = u at hmap hmapDark
      have hidle : (u.testStep st).coldView.Idle := by
        rw [State.testStep_coldView, hmap]
        exact ColdView.fresh_idle
      have hlast : ((u.testStep st).lastSteps st).answerLost.coldView = { ColdView.fresh with running := true } := by
        rw [State.answerLost_coldView, State.lastSteps_coldView st hidle, State.testStep_coldView, hmap]
      refine ⟨?_, ?_, fun hx => absurd hx (by simpa using hok)⟩
      · split
        · exact State.recovery_end false hmap
        · exact State.ready_end hlast
      · split
        · exact Dark.of_emission (State.enterRecovery_emission _) hmapDark
        · exact Dark.of_emission ((State.releaseStart_emission _).trans (State.answerLost_emission _)) (State.lastSteps_dark st hidle)

/-- The state of a halt. -/
theorem State.halted_facts (st : ColdStart) (s : State) :
    let t := (s.freshStart.unitItem 15 Config.bootRom).onPower fun p => { p with running := true, halted := true, factoryTest := st.factoryTest }
    t.power.halted = true ∧ t.executes = false ∧ t.host.waiting = [] ∧ t.clk.started = false ∧ t.sched.inhibit = 0x3E#6 ∧ Dark t ∧
    t.nvm.records = s.nvm.records ∧ t.out = s.out ∧ t.pending = s.pending := by
  have hstart : s.freshStart.nvm.records = s.nvm.records ∧ s.freshStart.out = s.out ∧ s.freshStart.pending = s.pending := by
    unfold State.freshStart
    dsimp only
    split <;> exact ⟨rfl, rfl, rfl⟩
  have hdark : Dark s.freshStart := by
    have hem : s.freshStart.emission.emitters = State.reset.emission.emitters := rfl
    rw [Dark, hem]
    decide
  obtain ⟨hrecords, hout, hpending⟩ := hstart
  exact ⟨rfl, rfl, rfl, rfl, rfl, hdark, hrecords, hout, hpending⟩

end Sys2Proof.Machine

/-! ## What Pavane's start and a warm start leave (O53) -/

namespace Sys2Proof.Machine

/-- The parts that darkening the device leaves, but for the sources that stand and the supervisor's cause. -/
structure StillView where
  power : Power
  clk : Clk
  free : Nat
  sets : Sets
  nvm : Nvm
  src : BitVec 6
  supervised : Bool

def State.stillView (s : State) : StillView :=
  { power := s.power, clk := s.clk, free := s.free, sets := s.sets, nvm := s.nvm, src := s.sched.src
    supervised := s.sched.inhibit.getLsbD causeSupervisor }

@[simp] theorem stillView_ite (p : Prop) [Decidable p] (s t : State) :
    (if p then s else t).stillView = if p then s.stillView else t.stillView := apply_ite State.stillView p s t

@[simp] theorem stillView_foldl {α : Type} (f : State → α → State) (l : List α) (s : State)
    (h : ∀ t a, (f t a).stillView = t.stillView) : (l.foldl f s).stillView = s.stillView := by
  induction l generalizing s with
  | nil => rfl
  | cons a l ih => exact (ih _).trans (h s a)

theorem State.still_of_beside {s t : State} (h : t.beside = s.beside) : t.stillView = s.stillView := by
  have hfields := State.frame_of_beside h
  rw [hfields]
  rfl

@[simp] theorem State.onJournal_stillView (f : Journal → Journal) (s : State) : (s.onJournal f).stillView = s.stillView := by
  rfl
@[simp] theorem State.onSched_stillView (f : Sched → Sched) (s : State) (h : ∀ k, (f k).src = k.src ∧ (f k).inhibit = k.inhibit) :
    (s.onSched f).stillView = s.stillView := by simp [State.stillView, h]
@[simp] theorem State.onEmission_stillView (f : Emission → Emission) (s : State) :
    (s.onEmission f).stillView = s.stillView := by
  rfl
@[simp] theorem State.onAngle_stillView (f : Angle → Angle) (s : State) : (s.onAngle f).stillView = s.stillView := by rfl
@[simp] theorem State.onMotion_stillView (f : Motion → Motion) (s : State) : (s.onMotion f).stillView = s.stillView := by rfl
@[simp] theorem State.onAux_stillView (f : Aux → Aux) (s : State) : (s.onAux f).stillView = s.stillView := by rfl
@[simp] theorem State.onEmitter_stillView (e : Nat) (f : Emitter → Emitter) (s : State) :
    (s.onEmitter e f).stillView = s.stillView := by
  rfl
@[simp] theorem State.onLoop_stillView (n : Nat) (f : Loop → Loop) (s : State) : (s.onLoop n f).stillView = s.stillView := by
  rfl
@[simp] theorem State.post_stillView (r : Reply) (s : State) : (s.post r).stillView = s.stillView := by rfl
@[simp] theorem State.updateDup_stillView (q seq tr : Nat) (f : DupRec → DupRec) (s : State) :
    (s.updateDup q seq tr f).stillView = s.stillView := by rfl
@[simp] theorem State.applied_stillView (o : Obj) (c : Cmd) (b : StatusBlock) (s : State) :
    (s.applied o c b).stillView = s.stillView := by rfl
@[simp] theorem State.onLive_stillView (c : Cmd) (f : Live → Live) (s : State) : (s.onLive c f).stillView = s.stillView := by
  unfold State.onLive; split <;> simp
@[simp] theorem State.recordDone_stillView (c : Cmd) (r : Reply) (s : State) : (s.recordDone c r).stillView = s.stillView := by
  unfold State.recordDone; split <;> simp
@[simp] theorem State.finishWith_stillView (op : Nat) (c : Cmd) (b : StatusBlock) (d : List Byte) (s : State) :
    (s.finishWith op c b d).stillView = s.stillView := by simp [State.finishWith]
@[simp] theorem State.finish_stillView (op : Nat) (c : Cmd) (st det res : Nat) (d : List Byte) (s : State) :
    (s.finish op c st det res d).stillView = s.stillView := by simp [State.finish]
@[simp] theorem State.parkGalvo_stillView (s : State) : s.parkGalvo.stillView = s.stillView := by rfl
@[simp] theorem State.charge_stillView (e de : Nat) (s : State) : (s.charge e de).stillView = s.stillView := by rfl
@[simp] theorem State.unreserve_stillView (e q : Nat) (s : State) : (s.unreserve e q).stillView = s.stillView := by rfl
@[simp] theorem State.settle_stillView (e : Nat) (s : State) : (s.settle e).stillView = s.stillView := by
  simp only [State.settle]; split <;> simp
@[simp] theorem State.parkOutput_stillView (e : Nat) (s : State) : (s.parkOutput e).stillView = s.stillView := by
  simp only [State.parkOutput]; split <;> simp
@[simp] theorem State.endDirect_stillView (e st det : Nat) (s : State) : (s.endDirect e st det).stillView = s.stillView := by
  unfold State.endDirect; split <;> simp
@[simp] theorem State.abandonFade_stillView (e det : Nat) (running : Bool) (s : State) :
    (s.abandonFade e det running).stillView = s.stillView := by unfold State.abandonFade; split <;> simp
@[simp] theorem State.parkAll_stillView (s : State) : s.parkAll.stillView = s.stillView := by simp [State.parkAll]
@[simp] theorem State.abandonWindows_stillView (s : State) : s.abandonWindows.stillView = s.stillView :=
  State.still_of_beside (State.abandonWindows_beside ..)
@[simp] theorem State.closeCell_stillView (m : Nat) (s : State) (c : OpenCell) : (s.closeCell m c).stillView = s.stillView :=
  State.still_of_beside (State.closeCell_beside ..)
@[simp] theorem State.endGroups_stillView (s : State) : s.endGroups.stillView = s.stillView :=
  State.still_of_beside (State.endGroups_beside ..)
@[simp] theorem State.loseSweep_stillView (s : State) : s.loseSweep.stillView = s.stillView :=
  State.still_of_beside (State.loseSweep_beside ..)
@[simp] theorem State.closeFrame_stillView (n : Nat) (s : State) : (s.closeFrame n).stillView = s.stillView :=
  State.still_of_beside (State.closeFrame_beside ..)
@[simp] theorem State.releaseDescriptor_stillView (s : State) (d : Descriptor) :
    (s.releaseDescriptor d).stillView = s.stillView := by
  simp [State.releaseDescriptor]
@[simp] theorem State.inhibitNow_stillView (cause : Nat) (s : State) : (s.inhibitNow cause).stillView = s.stillView := by
  simp [State.inhibitNow]
@[simp] theorem State.injectLost_stillView (n : Nat) (c : Cmd) (played : Nat) (s : State) :
    (s.injectLost n c played).stillView = s.stillView := by simp [State.injectLost]
@[simp] theorem State.breakInject_stillView (n : Nat) (s : State) : (s.breakInject n).stillView = s.stillView := by
  unfold State.breakInject; split <;> simp
@[simp] theorem State.cameoTrigger_stillView (n trig : Nat) (s : State) : (s.cameoTrigger n trig).stillView = s.stillView := by
  simp [State.cameoTrigger]
@[simp] theorem State.galvoActs_stillView (s : State) : s.galvoActs.stillView = s.stillView := by simp [State.galvoActs]
@[simp] theorem State.latch_stillView (n cls action : Nat) (s : State) : (s.latch n cls action).stillView = s.stillView := by
  simp [State.latch]
@[simp] theorem State.countFault_stillView (n : Nat) (s : State) : (s.countFault n).stillView = s.stillView := by rfl
@[simp] theorem State.encFreeze_stillView (s : State) : s.encFreeze.stillView = s.stillView := by rfl
@[simp] theorem State.discardLearn_stillView (det : Nat) (s : State) : (s.discardLearn det).stillView = s.stillView := by
  unfold State.discardLearn; split <;> simp
@[simp] theorem State.parkExc_stillView (s : State) : s.parkExc.stillView = s.stillView := by rfl

/-! ### Causes and sources -/

/-- A cause other than the supervisor's. -/
theorem State.registerCause_stillView {cause : Nat} (hc : cause < 5) (s : State) :
    (s.registerCause cause).stillView = s.stillView := by
  have hbit : (bit6 cause).getLsbD causeSupervisor = false := by
    interval_cases cause <;> decide
  have hnow : (if s.inhibited then s else s.inhibitNow cause).stillView = s.stillView := by simp
  unfold State.registerCause
  dsimp only
  generalize (if s.inhibited then s else s.inhibitNow cause) = u at hnow
  rw [← hnow]
  simp [State.stillView, hbit]

/-- A source stands from its registration on, and with it the supervisor's cause. -/
theorem State.registerSource_stillView (src : Nat) (s : State) :
    (s.registerSource src).stillView = { s.stillView with src := s.sched.src ||| bit6 src, supervised := true } := by
  have hbit : (bit6 causeSupervisor).getLsbD causeSupervisor = true := by decide
  have hnow : (if s.inhibited then s else s.inhibitNow causeSupervisor).stillView = s.stillView := by simp
  have hsrc : (if s.inhibited then s else s.inhibitNow causeSupervisor).sched.src = s.sched.src := congrArg StillView.src hnow
  unfold State.registerSource State.registerCause
  dsimp only
  generalize (if s.inhibited then s else s.inhibitNow causeSupervisor) = u at hnow hsrc
  rw [← hnow, ← hsrc]
  simp [State.stillView, hbit]

/-- Two states that differ in what the view hides and in sources and the supervisor's cause that have come up. -/
def StillUp (s t : State) : Prop := ∃ src, t.stillView =
  { s.stillView with src := s.sched.src ||| src, supervised := t.stillView.supervised } ∧
  (s.stillView.supervised = true → t.stillView.supervised = true)

theorem StillUp.of_eq {s t : State} (h : t.stillView = s.stillView) : StillUp s t :=
  ⟨0, by rw [h]; simp [State.stillView], by rw [h]; exact id⟩

theorem StillUp.trans {s t u : State} (h : StillUp s t) (h' : StillUp t u) : StillUp s u := by
  obtain ⟨a, hview, hsup⟩ := h
  obtain ⟨b, hview', hsup'⟩ := h'
  have hsrc : t.sched.src = s.sched.src ||| a := congrArg StillView.src hview
  refine ⟨a ||| b, ?_, fun hs => hsup' (hsup hs)⟩
  rw [hview', hview, hsrc, BitVec.or_assoc]

theorem State.registerSource_up (src : Nat) (s : State) : StillUp s (s.registerSource src) := by
  have hview := s.registerSource_stillView src
  exact ⟨bit6 src, by rw [hview], fun _ => by rw [hview]⟩

theorem State.raiseFault_up (n cls : Nat) (s : State) : StillUp s (s.raiseFault n cls) := by
  unfold State.raiseFault
  dsimp only
  generalize _ ||| forcedBits n cls = action
  split
  · exact .of_eq (by simp)
  · have hlatched : (if action &&& actMask (1 - n) = 0 then (s.countFault n).latch n cls action
        else if (((s.countFault n).latch n cls action).loop (1 - n)).inFault then
          ((s.countFault n).latch n cls action).latch (1 - n) 7 (action &&& actMask (1 - n))
        else (((s.countFault n).latch n cls action).countFault (1 - n)).latch (1 - n) 7 ((action &&& actMask (1 - n)) ||| (action &&& 1))).stillView
        = s.stillView := by simp
    split
    · exact (StillUp.of_eq hlatched).trans (State.registerSource_up srcMotion _)
    · exact .of_eq hlatched

theorem State.spindleLost_up (s : State) : StillUp s s.spindleLost := by
  unfold State.spindleLost
  split
  · exact s.raiseFault_up 0 3
  · exact .of_eq rfl

theorem State.angleGone_up (st : LockState) (s : State) : StillUp s (s.angleGone st) := by
  unfold State.angleGone
  dsimp only
  generalize hu : State.discardLearn _ _ = u
  have hview : u.stillView = s.stillView := by
    rw [← hu]
    simp [State.registerCause_stillView (cause := causeAngle) (by decide)]
  exact (StillUp.of_eq hview).trans u.spindleLost_up

theorem State.pavaneMotion_up (s : State) : StillUp s s.pavaneMotion := by
  unfold State.pavaneMotion
  dsimp only
  exact (StillUp.of_eq (by simp)).trans (State.registerSource_up srcMotion _)

theorem State.pavaneOutputs_up (s : State) : StillUp s s.pavaneOutputs := by
  have hgone : StillUp s (if s.parkExc.angle.lock == .noSignal then s.parkExc else s.parkExc.angleGone .noSignal) := by
    split
    · exact .of_eq (by simp)
    · exact (StillUp.of_eq (by simp)).trans (State.angleGone_up ..)
  unfold State.pavaneOutputs
  dsimp only
  exact hgone.trans (.of_eq (by simp [State.still_of_beside (State.driveZones_beside _)]))

/-! ### Pavane starts -/

/-- In Pavane no zone output is clear (R202). -/
theorem State.driveZones_pavane {s : State} (h : s.power.phase = .pavane) :
    s.driveZones.zone.clearA = false ∧ s.driveZones.zone.clearB = false := by
  have hclear : s.zonesClear = false := by simp [State.zonesClear, h]
  exact ⟨hclear, hclear⟩

theorem State.pavaneOutputs_zone {s : State} (h : s.pavaneOutputs.power.phase = .pavane) :
    s.pavaneOutputs.zone.clearA = false ∧ s.pavaneOutputs.zone.clearB = false := by
  unfold State.pavaneOutputs at h ⊢
  dsimp only at h ⊢
  exact State.driveZones_pavane h

/-- The power state as Pavane begins (R415). -/
def Power.pavane (cause : PavaneCause) (now : Nat) (p : Power) : Power :=
  { p with phase := .pavane, ready := false, pavaneCause := cause, pavaneAt := now, powerDown := [], pavaneDue := none,
           resetWarm := none, warm := none, takeover := false }

/-- What Pavane's start does under the interrupt's eye. -/
def State.pavaneBegun (cause : PavaneCause) (now : Nat) (s : State) : State :=
  (((s.onPower (Power.pavane cause now)).registerSource srcPavane).pavaneMotion).pavaneOutputs.startFlush

theorem State.startPavane_eq {s : State} (cause : PavaneCause) (hphase : s.power.phase ≠ .pavane) (hrun : s.power.running = true) :
    s.startPavane cause = s.withStatus (State.pavaneBegun cause s.clk.now) := by
  unfold State.startPavane
  rw [if_neg (by simp [hphase, hrun])]
  rfl

/-- Pavane holds emission and the zone outputs, and keeps the sets and the records (R415). -/
theorem State.pavaneBegun_facts (cause : PavaneCause) (now : Nat) (s : State) : let t := s.pavaneBegun cause now
    t.power = s.power.pavane cause now ∧ t.sets = s.sets ∧ t.nvm = s.nvm ∧ t.sched.src.getLsbD srcPavane = true ∧
    t.sched.inhibit.getLsbD causeSupervisor = true ∧ t.zone.clearA = false ∧ t.zone.clearB = false := by
  have hbit : (bit6 srcPavane).getLsbD srcPavane = true := by decide
  unfold State.pavaneBegun
  generalize hu : s.onPower (Power.pavane cause now) = u
  have hheld := u.registerSource_stillView srcPavane
  generalize u.registerSource srcPavane = v at hheld
  obtain ⟨src, hview, hsup⟩ := v.pavaneMotion_up.trans v.pavaneMotion.pavaneOutputs_up
  have hzone := State.pavaneOutputs_zone (s := v.pavaneMotion)
  generalize v.pavaneMotion.pavaneOutputs = dark at hview hsup hzone
  have hsrc : v.sched.src = u.sched.src ||| bit6 srcPavane := congrArg StillView.src hheld
  rw [hsrc, hheld] at hview
  have hpower : dark.power = s.power.pavane cause now := (congrArg StillView.power hview).trans (by rw [← hu]; rfl)
  obtain ⟨hA, hB⟩ := hzone (by rw [hpower]; rfl)
  have hdark : dark.sched.src = (u.sched.src ||| bit6 srcPavane) ||| src := congrArg StillView.src hview
  refine ⟨hpower, (congrArg StillView.sets hview).trans (by rw [← hu]; rfl), (congrArg StillView.nvm hview).trans (by rw [← hu]; rfl), ?_,
    hsup (congrArg StillView.supervised hheld), hA, hB⟩
  show dark.sched.src.getLsbD srcPavane = true
  rw [hdark]
  simp [hbit]

theorem State.startPavane_facts {s : State} (cause : PavaneCause) (hphase : s.power.phase ≠ .pavane) (hrun : s.power.running = true) :
    let t := s.startPavane cause
    t.power = s.power.pavane cause s.clk.now ∧ t.sets = s.sets ∧ t.nvm = s.nvm ∧ t.sched.src.getLsbD srcPavane = true ∧
    t.sched.inhibit.getLsbD causeSupervisor = true ∧ t.zone.clearA = false ∧ t.zone.clearB = false := by
  have hfacts := s.pavaneBegun_facts cause s.clk.now
  have hframe := State.withStatus_frame (State.pavaneBegun cause s.clk.now) s
  rw [← State.startPavane_eq cause hphase hrun] at hframe
  generalize s.startPavane cause = t at hframe
  generalize State.pavaneBegun cause s.clk.now s = u at hfacts hframe
  obtain ⟨hpower, hsets, hnvm, hsrc, hsup, hA, hB⟩ := hfacts
  rw [hframe]
  exact ⟨hpower, hsets, hnvm, hsrc, hsup, hA, hB⟩

theorem State.startPavane_not {s : State} (cause : PavaneCause) (h : s.power.running = false ∨ s.power.phase = .pavane) :
    s.startPavane cause = s := if_pos (by rcases h with h | h <;> simp [h])

/-- STANDBY_COMPARISON_FAIL (R414). -/
theorem standbyComparisonFail_row (s : State) :
    (s.power.running = false ∨ s.power.halted = true ∨ s.power.phase = .pavane → exec .standbyComparisonFail s = .next s) ∧
    (s.power.running = true → s.power.halted = false → s.power.phase ≠ .pavane → ∃ t, exec .standbyComparisonFail s = .next t ∧
      t.power.phase = .pavane ∧ t.power.pavaneCause = .supervisor ∧ t.sched.src.getLsbD 4 = true ∧
      t.sched.inhibit.getLsbD 5 = true ∧ t.zone.clearA = false ∧ t.zone.clearB = false ∧ t.sets = s.sets ∧ t.nvm = s.nvm) := by
  constructor
  · intro h
    refine congrArg Host.Outcome.next ?_
    unfold standbyComparisonFail
    split
    · rfl
    · next hgo =>
      refine State.startPavane_not _ ?_
      rcases h with h | h | h
      · exact .inl h
      · exact absurd (by simp [h]) hgo
      · exact .inr h
  · intro hrun hhalt hphase
    obtain ⟨hpower, hsets, hnvm, hsrc, hsup, hA, hB⟩ := State.startPavane_facts .supervisor hphase hrun
    have hstep : standbyComparisonFail s = s.startPavane .supervisor := if_neg (by simp [hrun, hhalt])
    exact ⟨_, congrArg Host.Outcome.next hstep, congrArg Power.phase hpower, congrArg Power.pavaneCause hpower, hsrc, hsup, hA, hB, hsets,
      hnvm⟩

/-! ### A warm start begins -/

/-- The start hold, and what a warm start discards (Table 16.3, step 1). -/
theorem State.quiesce_facts (s : State) : s.quiesce.power = s.power ∧ s.quiesce.clk = s.clk ∧ s.quiesce.free = s.free ∧
    s.quiesce.sets = s.sets ∧ s.quiesce.nvm.records = s.nvm.records ∧ s.quiesce.sched.src.getLsbD srcStart = true := by
  have hbit : (bit6 srcStart).getLsbD srcStart = true := by decide
  have hheld := s.registerSource_stillView srcStart
  unfold State.quiesce
  dsimp only
  generalize hu : State.discardLearn _ _ = u
  have hview : u.stillView = (s.registerSource srcStart).stillView := by
    rw [← hu]
    simp
  rw [hheld] at hview
  refine ⟨congrArg StillView.power hview, congrArg StillView.clk hview, congrArg StillView.free hview, congrArg StillView.sets hview,
    congrArg (fun v => v.nvm.records) hview, ?_⟩
  have hsrc : u.sched.src = s.sched.src ||| bit6 srcStart := congrArg StillView.src hview
  show u.sched.src.getLsbD srcStart = true
  rw [hsrc]
  simp [hbit]

theorem warmStart_not {s : State} (h : s.executes = false ∨ s.power.resetWarm = none ∨ s.power.phase = .pavane) (ok : Bool)
    (un : List BadCopy) (dv : List OddCopy) : exec (.warmStart ok un dv) s = .next s :=
  congrArg Host.Outcome.next (if_pos (by rcases h with h | h | h <;> simp [h]))

/-- The power state as a warm start begins (Table 16.3). -/
def Power.warming (now : Nat) (ok : Bool) (un : List BadCopy) (dv : List OddCopy) (p : Power) : Power :=
  { p with phase := .warm, ready := false
           warm := some { since := now, step := .restart, imageOk := ok, bad := un, odd := dv, recovery := p.phase == .recovery } }

/-- The first step of a warm start, under the interrupt's eye. -/
def State.warmBegun (now : Nat) (ok : Bool) (un : List BadCopy) (dv : List OddCopy) (s : State) : State :=
  s.quiesce.onPower (Power.warming now ok un dv)

theorem State.warmBegun_facts (now : Nat) (ok : Bool) (un : List BadCopy) (dv : List OddCopy) (s : State) :
    let t := s.warmBegun now ok un dv
    t.power = s.power.warming now ok un dv ∧
    t.clk = s.clk ∧ t.free = s.free ∧ t.sets = s.sets ∧ t.nvm.records = s.nvm.records ∧ t.sched.src.getLsbD srcStart = true := by
  have hfacts := s.quiesce_facts
  unfold State.warmBegun
  generalize s.quiesce = u at hfacts
  obtain ⟨hpower, hclk, hfree, hsets, hrecords, hsrc⟩ := hfacts
  refine ⟨?_, hclk, hfree, hsets, hrecords, hsrc⟩
  rw [← hpower]
  rfl

theorem warmStart_begins {c : Cmd} {s : State} (hexec : s.executes = true) (hreset : s.power.resetWarm = some c)
    (hphase : s.power.phase ≠ .pavane) (ok : Bool) (un : List BadCopy) (dv : List OddCopy) :
    ∃ t, exec (.warmStart ok un dv) s = .next t ∧ t.power.phase = .warm ∧ t.power.ready = false ∧ t.power.resetWarm = some c ∧
      t.power.warm = some { since := s.clk.now, step := .restart, imageOk := ok, bad := un, odd := dv,
                            recovery := decide (s.power.phase = .recovery) } ∧
      t.executes = false ∧ t.busyDetail = some 4 ∧ t.sched.src.getLsbD 5 = true ∧ t.sets = s.sets ∧ t.clk = s.clk ∧
      t.nvm.records = s.nvm.records ∧ t.free = s.free := by
  have hstep : warmStart ok un dv s = s.withStatus (State.warmBegun s.clk.now ok un dv) := by
    unfold warmStart
    rw [if_neg (by simp [hexec, hreset, hphase])]
    rfl
  have hfacts := s.warmBegun_facts s.clk.now ok un dv
  have hframe := State.withStatus_frame (State.warmBegun s.clk.now ok un dv) s
  have htake : s.power.takeover = false := by
    simp only [State.executes, Bool.and_eq_true, Bool.not_eq_true'] at hexec
    exact hexec.1.1.2
  refine ⟨_, congrArg Host.Outcome.next hstep, ?_⟩
  generalize s.withStatus (State.warmBegun s.clk.now ok un dv) = t at hframe
  generalize State.warmBegun s.clk.now ok un dv s = u at hfacts hframe
  obtain ⟨hpower, hclk, hfree, hsets, hrecords, hsrc⟩ := hfacts
  have htpower : t.power = u.power := (congrArg State.power hframe :)
  rw [hpower] at htpower
  refine ⟨by rw [htpower]; rfl, by rw [htpower]; rfl, by rw [htpower]; exact hreset, by rw [htpower]; rfl, by simp [State.executes, htpower, Power.warming],
    by simp [State.busyDetail, htpower, htake, Power.warming], ?_⟩
  rw [hframe]
  exact ⟨hsrc, hsets, hclk, hrecords, hfree⟩

end Sys2Proof.Machine

/-! ## Starts, POWER_DOWN and Pavane's power-down (O53) -/

namespace Sys2Proof.Machine

/-! ### The steps of a warm start -/

section
variable {w : WarmRun} {s : State} (hphase : s.power.phase = .warm) (hw : s.power.warm = some w)
include hphase hw

theorem State.warmStep_early (hstep : w.step = .restart) (hnow : s.clk.now < w.since + 7680000) : s.warmStep = s := by
  have hdue : s.since w.since (us 6000) = false := decide_eq_false (by simp only [us]; omega)
  unfold State.warmStep
  rw [hw]
  dsimp only
  rw [if_neg (by simp [hphase]), hstep]
  exact if_pos (by simp [hdue])

theorem State.warmStep_tested (hstep : w.step = .restart) (hnow : w.since + 7680000 ≤ s.clk.now) :
    s.warmStep = if w.imageOk then (s.replay w.bad w.odd).warmTo .replay else s.escalate := by
  have hdue : s.since w.since (us 6000) = true := decide_eq_true (by simp only [us]; omega)
  unfold State.warmStep
  rw [hw]
  dsimp only
  rw [if_neg (by simp [hphase]), hstep]
  refine (if_neg (by simp [hdue])).trans ?_
  cases w.imageOk <;> rfl

/-- A warm start whose tests fail goes through Pavane to a cold start (R411). -/
theorem State.warmStep_escalates (hrun : s.power.running = true) (hstep : w.step = .restart) (hnow : w.since + 7680000 ≤ s.clk.now)
    (hbad : w.imageOk = false) : s.warmStep.power.phase = .pavane ∧ s.warmStep.power.pavaneCause = .escalation ∧
      s.warmStep.power.coldStartAfter = true ∧ s.warmStep.power.warm = none ∧ s.warmStep.sets = s.sets ∧
      s.warmStep.nvm.records = s.nvm.records := by
  have hfacts := State.startPavane_facts (s := s) .escalation (by rw [hphase]; decide) hrun
  rw [State.warmStep_tested hphase hw hstep hnow, if_neg (by simp [hbad])]
  show s.escalate.power.phase = _ ∧ s.escalate.power.pavaneCause = _ ∧ s.escalate.power.coldStartAfter = _ ∧
    s.escalate.power.warm = _ ∧ s.escalate.sets = _ ∧ s.escalate.nvm.records = _
  unfold State.escalate
  generalize s.startPavane .escalation = t at hfacts
  obtain ⟨hpower, hsets, hnvm, -, -, -, -⟩ := hfacts
  exact ⟨(congrArg Power.phase hpower :), (congrArg Power.pavaneCause hpower :), rfl, (congrArg Power.warm hpower :), hsets,
    (congrArg Nvm.records hnvm :)⟩

/-- The journal is replayed, and each recorded reply is owed again (R410). -/
theorem State.warmStep_replays (hstep : w.step = .restart) (hnow : w.since + 7680000 ≤ s.clk.now) (hgood : w.imageOk = true) :
    s.warmStep.power.warm = some { w with step := .replay } ∧ (s.power.takeover = false → s.warmStep.busyDetail = some 3) ∧
      s.warmStep.sets = s.sets ∧
      (∀ l ∈ s.host.journal.live, ∀ r d, (s.restoreControl w.bad w.odd).readCopies w.bad w.odd l = some (.done, d) →
        l.reply = some r → r.final = true →
        ∃ r1 ∈ s.warmStep.host.waiting, r1.tag = r.tag ∧ r1.seq = r.seq ∧ r1.block = r.block ∧ r1.final = r.final) := by
  have hdone (l : Live) (hl : l ∈ s.host.journal.live) (r : Reply) (d : Bool)
      (hcopy : (s.restoreControl w.bad w.odd).readCopies w.bad w.odd l = some (.done, d)) (hr : l.reply = some r) (hfinal : r.final = true) :=
    State.replay_done w.bad w.odd hl hcopy hr hfinal
  have hframe := s.replay_frame w.bad w.odd
  rw [State.warmStep_tested hphase hw hstep hnow, if_pos hgood]
  generalize s.replay w.bad w.odd = t at hdone hframe
  have hpower : t.power = s.power := (congrArg State.power hframe :)
  have hwarm : (t.warmTo .replay).power = { s.power with warm := some { w with step := .replay } } := by
    show ({ t.power with warm := _ } : Power) = _
    rw [hpower, hw]
    rfl
  refine ⟨congrArg Power.warm hwarm, fun htake => ?_, (congrArg State.sets hframe :), fun l hl r d hcopy hr hfinal =>
    ⟨_, hdone l hl r d hcopy hr hfinal, rfl, rfl, rfl, rfl⟩⟩
  rw [State.busyDetail, hwarm]
  simp [htake]

end

/-- The egress buffer changes alone. -/
theorem State.resendFrames_frame (s : State) : ∃ f, s.resendFrames = { s with fabric := f } := by
  have hfold (l : List EgressFrame) (f : EgressFrame → Stream → Stream) (u : State) :
      ∃ b, l.foldl (fun s x => s.onStream x.stream (f x)) u = { u with fabric := b } := by
    induction l generalizing u with
    | nil => exact ⟨u.fabric, rfl⟩
    | cons x l ih =>
      obtain ⟨b, hb⟩ := ih (u.onStream x.stream (f x))
      exact ⟨b, hb⟩
  unfold State.resendFrames State.dropEgress
  dsimp only
  obtain ⟨b, hb⟩ := hfold _ _ _
  rw [hb]
  exact ⟨_, rfl⟩

/-- The power state as a warm start ends. -/
def Power.released (recovery : Bool) (p : Power) : Power :=
  { p with resetWarm := none, warm := none, ready := !recovery, phase := if recovery then .recovery else .ready }

/-- The release: everything but the answer to RESET_WARM. -/
def State.warmFreed (w : WarmRun) (s : State) : State :=
  (if w.recovery then s.resendFrames.restartActivities else s.resendFrames.restartActivities.clearSource srcStart).onPower
    (Power.released w.recovery)

theorem State.warmFreed_facts (w : WarmRun) (s : State) : let t := s.warmFreed w
    t.power = s.power.released w.recovery ∧ t.host = s.host ∧ t.sets = s.sets ∧ t.clk = s.clk ∧ t.nvm = s.nvm ∧ t.free = s.free ∧
    (w.recovery = false → t.sched.src.getLsbD srcStart = false) := by
  have hbit : (bit6 srcStart).getLsbD srcStart = true := by decide
  obtain ⟨f, hf⟩ := s.resendFrames_frame
  unfold State.warmFreed State.restartActivities
  dsimp only
  rw [hf]
  cases w.recovery with
  | true => exact ⟨rfl, rfl, rfl, rfl, rfl, rfl, nofun⟩
  | false =>
    rw [if_neg (by decide)]
    generalize hu : State.onHealth _ _ = u
    obtain ⟨hclear, hsrc⟩ := State.clearSource_frame srcStart u
    generalize u.clearSource srcStart = v at hclear hsrc
    rw [hclear, ← hu]
    refine ⟨rfl, rfl, rfl, rfl, rfl, rfl, fun _ => ?_⟩
    show v.sched.src.getLsbD srcStart = false
    rw [hsrc]
    simp [hbit]

/-- The release with its answer. -/
def State.warmAnswered (w : WarmRun) (s : State) : State :=
  match s.power.resetWarm with
  | some c => (s.warmFreed w).done 0x0110 c 0
  | none => s.warmFreed w

/-- RESET_WARM is answered at the release (R410, R412). -/
theorem State.warmStep_releases {w : WarmRun} {s : State} {c : Cmd} (hphase : s.power.phase = .warm) (hw : s.power.warm = some w)
    (hstep : w.step = .lanes) (hnow : w.since + 12544000 ≤ s.clk.now) (hc : s.power.resetWarm = some c) : ∃ r,
      s.warmStep.power.phase = (if w.recovery then .recovery else .ready) ∧ s.warmStep.power.ready = !w.recovery ∧
      s.warmStep.power.warm = none ∧ s.warmStep.power.resetWarm = none ∧ s.warmStep.sets = s.sets ∧
      (w.recovery = false → s.warmStep.sched.src.getLsbD 5 = false) ∧
      s.warmStep.host.waiting.getLast? = some r ∧ r.opcode = 0x0110 ∧ r.tag = c.tag ∧ r.final = true ∧ r.block = s.block 0 0 0 ∧
      s.warmStep.nvm.records = s.nvm.records ∧ s.warmStep.free = s.free := by
  have hdue : s.since w.since (us 9800) = true := decide_eq_true (by simp only [us]; omega)
  have hrelease : s.warmStep = s.withStatus (State.warmAnswered w) := by
    unfold State.warmStep
    rw [hw]
    dsimp only
    rw [if_neg (by simp [hphase]), hstep]
    exact if_pos hdue
  obtain ⟨hpower, hhost, hsets, hclk, hnvm, hfree, hsrc⟩ := s.warmFreed_facts w
  have hanswered : s.warmAnswered w = (s.warmFreed w).done 0x0110 c 0 := by rw [State.warmAnswered, hc]
  obtain ⟨⟨r, hwait, hop, htag, -, -, -, hfinal, -, hblock, -⟩, -⟩ := (s.warmFreed w).done_finished 0x0110 c 0
  have hframe := (s.warmFreed w).done_frame 0x0110 c 0
  have hstatus := State.withStatus_frame (State.warmAnswered w) s
  rw [← hrelease, hanswered] at hstatus
  have hwaiting : s.warmStep.host.waiting = s.host.waiting ++ [r] := by
    rw [hstatus, ← hhost]
    exact hwait
  generalize (s.warmFreed w).done 0x0110 c 0 = u at hframe hstatus
  generalize s.warmFreed w = v at hpower hsets hclk hnvm hfree hsrc hframe hblock
  rw [hframe] at hstatus
  have hp : s.warmStep.power = s.power.released w.recovery := (congrArg State.power hstatus :).trans hpower
  refine ⟨r, by rw [hp]; rfl, by rw [hp]; rfl, by rw [hp]; rfl, by rw [hp]; rfl, (congrArg State.sets hstatus :).trans hsets, fun hrec => ?_,
    by rw [hwaiting, List.getLast?_concat], hop, htag, hfinal, hblock.trans (State.block_congr _ _ _ hsets hclk),
    (congrArg (fun t => t.nvm.records) hstatus :).trans (congrArg Nvm.records hnvm), (congrArg State.free hstatus :).trans hfree⟩
  rw [(congrArg (fun t => t.sched.src) hstatus :)]
  exact hsrc hrec

/-! ### POWER_DOWN -/

theorem State.jixOf_onLive (c d : Cmd) (x : EntryState) (s : State) : (s.onLive c (Live.withState x)).jixOf d = s.jixOf d := by
  rcases s.liveOf_onLive c d x with h | h
  · rw [State.jixOf, State.jixOf, h]
    cases s.liveOf d with
    | none => rfl
    | some l => exact (Live.updateOf_kept c x l).2.2
  · rw [h]

/-- The commands before `d` are not done because one of them begins to run. -/
theorem State.earlierDone_begun {c d : Cmd} {s : State} (h : s.earlierDone d = false) :
    (s.onLive c (Live.withState .executing)).earlierDone d = false := by
  cases hc : c.unseq with
  | true => rwa [show s.onLive c (Live.withState .executing) = s from if_pos hc]
  | false =>
    rw [State.earlierDone, State.jixOf_onLive, (State.onLive_live hc).1, List.all_map]
    rw [State.earlierDone, List.all_eq_false] at h
    obtain ⟨l, hl, hlate⟩ := h
    refine List.all_eq_false.2 ⟨l, hl, ?_⟩
    simp only [Bool.or_eq_true, beq_iff_eq, decide_eq_true_eq, not_or] at hlate
    simp only [Function.comp, (Live.updateOf_kept c .executing l).2.2, Bool.or_eq_true, beq_iff_eq, decide_eq_true_eq, not_or]
    refine ⟨?_, hlate.2⟩
    unfold Live.updateOf Live.withState
    split
    · exact nofun
    · exact hlate.1

/-- What is done before a command stays done as it begins to run. -/
theorem State.earlierDone_own {c : Cmd} {s : State} (hown : ∀ l ∈ s.host.journal.live, l.isOf c = true → s.jixOf c ≤ l.jix)
    (h : s.earlierDone c = true) : (s.onLive c (Live.withState .executing)).earlierDone c = true := by
  cases hc : c.unseq with
  | true => rwa [show s.onLive c (Live.withState .executing) = s from if_pos hc]
  | false =>
    rw [State.earlierDone, State.jixOf_onLive, (State.onLive_live hc).1, List.all_map, List.all_eq_true]
    rw [State.earlierDone, List.all_eq_true] at h
    intro l hl
    simp only [Function.comp, Live.updateOf]
    by_cases hof : l.isOf c = true
    · simp [hof, Live.withState, hown l hl hof]
    · simpa only [if_neg hof] using h l hl

/-- A POWER_DOWN whose turn has not come waits on. -/
theorem State.powerDownReply_waits {s : State} {x : Cmd × Nat} (hdone : s.earlierDone x.1 = false)
    (hnow : s.clk.now < x.2 + 1280000000) : s.powerDownReply x = s := by
  have hsince : s.since x.2 (sec 1) = false := decide_eq_false (by simp only [sec]; omega)
  rw [State.powerDownReply, hdone, hsince]
  rfl

theorem State.powerDownReplies_wait {s : State} (h : ∀ x ∈ s.power.powerDown, s.powerDownReply x = s) :
    s.powerDownReplies = s := by
  have hfold : ∀ l : List (Cmd × Nat), (∀ x ∈ l, s.powerDownReply x = s) → l.foldl State.powerDownReply s = s := by
    intro l
    induction l with
    | nil => exact fun _ => rfl
    | cons x l ih =>
      intro hl
      rw [List.foldl_cons, hl x (List.mem_cons_self ..)]
      exact ih fun y hy => hl y (List.mem_cons_of_mem _ hy)
  exact hfold _ h

/-- POWER_DOWN joins those that wait. -/
def State.powerDownAsked (c : Cmd) (s : State) : State := s.onPower fun p => { p with powerDown := p.powerDown ++ [(c, s.clk.now)] }

/-- POWER_DOWN changes the journal and joins those that wait, before it looks at what is ahead. -/
theorem State.powerDownAsked_facts (c : Cmd) (s : State) : let t := (s.onLive c (Live.withState .executing)).powerDownAsked c
    Silent c s t ∧ t.power = { s.power with powerDown := s.power.powerDown ++ [(c, s.clk.now)] } ∧
    t = { s with host := t.host, power := t.power } := by
  have hlive : Silent c s (s.onLive c (Live.withState .executing)) := ⟨by simp, HostKept.onLive c _ s⟩
  obtain ⟨j, hj⟩ := s.onLive_frame c (Live.withState .executing)
  refine ⟨hlive.trans (Silent.of_host rfl), ?_, ?_⟩
  · rw [hj]
    rfl
  · rw [hj]
    rfl

section
variable {c : Cmd} {s : State} (h : Accepted powerDownInfo c s)
include h

theorem powerDown_asked : exec (.powerDown c) s =
    .next ((s.onLive c (Live.withState .executing)).powerDownAsked c).powerDownReplies := by
  refine congrArg Host.Outcome.next ((State.run_accepted _ _ _ _ h).trans ?_)
  rfl

/-- With nothing ahead of it POWER_DOWN is answered at once, and Pavane is due 100 us later (R429). -/
theorem powerDown_answered (hown : ∀ l ∈ s.host.journal.live, l.isOf c = true → s.jixOf c ≤ l.jix) (hdone : s.earlierDone c = true)
    (hnone : s.power.powerDown = []) :
    ∃ t, exec (.powerDown c) s = .next t ∧ Finished 0x0B07 c (s.block 0 0 0) [] s t ∧
      t.power = { s.power with powerDown := [], pavaneDue := some (s.power.pavaneDue.getD s.clk.now),
                               coldStartAfter := s.power.coldStartAfter || decide (u8 c.payload 0 = 1) } ∧
      t = { s with host := t.host, power := t.power } := by
  have hbegun : ((s.onLive c (Live.withState .executing)).powerDownAsked c).earlierDone c = true := State.earlierDone_own hown hdone
  obtain ⟨hsilent, hpower, hframe⟩ := State.powerDownAsked_facts c s
  rw [powerDown_asked h]
  generalize (s.onLive c (Live.withState .executing)).powerDownAsked c = u at hbegun hsilent hpower hframe
  have hsets : u.sets = s.sets := (congrArg State.sets hframe :)
  have hclk : u.clk = s.clk := (congrArg State.clk hframe :)
  have hreplies : u.powerDownReplies = u.powerDownReply (c, s.clk.now) := by
    rw [State.powerDownReplies, hpower, hnone]
    rfl
  have hreply : u.powerDownReply (c, s.clk.now) = (u.done 0x0B07 c 0).onPower fun p =>
      { p with powerDown := p.powerDown.filter (· != (c, s.clk.now)), pavaneDue := some (p.pavaneDue.getD s.clk.now),
               coldStartAfter := p.coldStartAfter || u8 c.payload 0 == 1 } := by
    rw [← hclk]
    exact if_pos (by simp [hbegun])
  have hdoneFrame := u.done_frame 0x0B07 c 0
  refine ⟨_, congrArg Host.Outcome.next (hreplies.trans hreply),
    State.finish_from hsilent hsets (by rw [State.stamp, State.stamp, hclk]), ?_, ?_⟩
  · rw [hdoneFrame]
    show ({ u.power with powerDown := _, pavaneDue := _, coldStartAfter := _ } : Power) = _
    rw [hpower, hnone, ← beq_eq_decide]
    simp
  · rw [hdoneFrame, hframe]
    rfl

theorem powerDown_waits (hdone : s.earlierDone c = false)
    (hothers : ∀ x ∈ s.power.powerDown, s.earlierDone x.1 = false ∧ s.clk.now < x.2 + 1280000000) :
    ∃ t, exec (.powerDown c) s = .next t ∧ Silent c s t ∧
      t.power = { s.power with powerDown := s.power.powerDown ++ [(c, s.clk.now)] } ∧ t = { s with host := t.host, power := t.power } := by
  obtain ⟨hsilent, hpower, hframe⟩ := State.powerDownAsked_facts c s
  have hlate (x : Cmd × Nat) (hx : x ∈ s.power.powerDown ++ [(c, s.clk.now)]) :
      s.earlierDone x.1 = false ∧ s.clk.now < x.2 + 1280000000 := by
    rcases List.mem_append.1 hx with hx | hx
    · exact hothers x hx
    · rw [List.mem_singleton.1 hx]
      exact ⟨hdone, by dsimp only; omega⟩
  have hbegun (x : Cmd × Nat) (hx : x ∈ s.power.powerDown ++ [(c, s.clk.now)]) :
      ((s.onLive c (Live.withState .executing)).powerDownAsked c).earlierDone x.1 = false :=
    State.earlierDone_begun (hlate x hx).1
  rw [powerDown_asked h]
  generalize (s.onLive c (Live.withState .executing)).powerDownAsked c = u at hbegun hsilent hpower hframe
  have hclk : u.clk = s.clk := (congrArg State.clk hframe :)
  have hwait : u.powerDownReplies = u := by
    refine State.powerDownReplies_wait fun x hx => ?_
    rw [hpower] at hx
    exact State.powerDownReply_waits (hbegun x hx) (by rw [hclk]; exact (hlate x hx).2)
  exact ⟨u, by rw [hwait], hsilent, hpower, hframe⟩

end

/-! ### Pavane's power-down -/

/-- Outputs that a hold has reached hold their codes, and the emission side alone has changed. -/
theorem State.holdOutputs_facts (l : List Nat) (s : State) : let t := l.foldl (fun s e => s.holdOutput e) s
    (∃ m, t = { s with emission := m }) ∧ t.emission.emitters.length = s.emission.emitters.length ∧
    ∀ e, e < s.emission.emitters.length → (e ∈ l ∨ ∃ code, (s.emitter e).out = .hold code) → ∃ code, (t.emitter e).out = .hold code := by
  induction l generalizing s with
  | nil => exact ⟨⟨s.emission, rfl⟩, rfl, fun e _ h => h.resolve_left nofun⟩
  | cons a l ih =>
    have hmoved : OutputMoved a s (s.holdOutput a) := (s.parkOutput_moved a).trans (State.onEmitter_moved ..)
    obtain ⟨-, hlen, hothers⟩ := hmoved
    obtain ⟨⟨m, hframe⟩, hlen', hheld⟩ := ih (s.holdOutput a)
    refine ⟨⟨m, hframe.trans ?_⟩, hlen'.trans hlen, fun e he hin => hheld e (by rw [hlen]; exact he) ?_⟩
    · rw [State.holdOutput_frame]
    · by_cases hea : e = a
      · subst hea
        exact .inr (State.out_holdOutput he).1
      · rw [hothers e hea]
        rcases hin with hin | hin
        · exact .inl ((List.mem_cons.1 hin).resolve_left hea)
        · exact .inr hin

/-- The power state as the domains go down. -/
def Power.domainsDown (p : Power) : Power :=
  { p with poweredDown := true, domains := p.domains.filter fun d => staysPowered d.dom || d.phase != .requested }

/-- The excitation and the galvo drive are held. -/
def State.drivesHeld (s : State) : State :=
  (s.onAngle fun a => { a with exc := a.exc.held }).onMotion fun m => { m with galvo := m.galvo.held }

theorem State.powerDomainsDown_eq (s : State) :
    s.powerDomainsDown = ((List.range 16).foldl (fun s e => s.holdOutput e) (s.onPower Power.domainsDown)).drivesHeld := rfl

/-- The domains power down: every output holds, and the excitation and the galvo drive are held (R28, R466). -/
theorem State.powerDomainsDown_facts {s : State} (hlen : s.emission.emitters.length = 16) : let t := s.powerDomainsDown
    t.power = s.power.domainsDown ∧ (∀ x ∈ t.emission.emitters, ∃ code, x.out = .hold code) ∧
    t.angle = { s.angle with exc := s.angle.exc.held } ∧ t.motion = { s.motion with galvo := s.motion.galvo.held } ∧
    t = { s with angle := t.angle, emission := t.emission, motion := t.motion, power := t.power } := by
  obtain ⟨⟨m, hframe⟩, hcount, hheld⟩ := State.holdOutputs_facts (List.range 16) (s.onPower Power.domainsDown)
  have hlen' : (s.onPower Power.domainsDown).emission.emitters.length = 16 := hlen
  rw [hlen'] at hcount hheld
  rw [State.powerDomainsDown_eq]
  generalize (List.range 16).foldl (fun s e => s.holdOutput e) (s.onPower Power.domainsDown) = t at hframe hcount hheld
  have houts : ∀ x ∈ t.emission.emitters, ∃ code, x.out = .hold code := by
    intro x hx
    obtain ⟨e, he, hget⟩ := List.mem_iff_getElem.1 hx
    have hx' : t.emitter e = x := by rw [State.emitter, List.getD_eq_getElem _ _ he, hget]
    rw [hcount] at he
    rw [← hx']
    exact hheld e he (.inl (List.mem_range.2 he))
  refine ⟨?_, houts, ?_, ?_, ?_⟩ <;> (rw [hframe]; rfl)

/-- PAVANE_POWER_DOWN is due 10 ms after Pavane began, but not under PFAIL and only once (R416). -/
def State.PowerDownDue (s : State) : Prop := s.power.phase = .pavane ∧ s.power.pfail = false ∧ s.power.poweredDown = false ∧
  s.power.pavaneAt + 12800000 ≤ s.clk.now

theorem pavanePowerDown_early {s : State} (h : ¬ s.PowerDownDue) : exec .pavanePowerDown s = .next s := by
  refine congrArg Host.Outcome.next (if_pos ?_)
  by_contra hdue
  refine h ?_
  simpa [State.since_iff, ms, and_assoc, State.PowerDownDue] using hdue

theorem pavanePowerDown_due {s : State} (h : s.PowerDownDue) : exec .pavanePowerDown s = .next
    (if s.bias.hvb = 0 then (s.onMdrv fun m => { m with running := false }).powerDomainsDown else
      s.onMdrv fun m => { m with running := false }) := by
  obtain ⟨hphase, hpfail, hdown, hnow⟩ := h
  refine congrArg Host.Outcome.next (if_neg ?_)
  simp [hphase, hpfail, hdown, State.since, ms, hnow]

theorem pavanePowerDown_row {s : State} (h : s.PowerDownDue) (hhvb : s.bias.hvb = 0) (hlen : s.emission.emitters.length = 16) :
    ∃ t, exec .pavanePowerDown s = .next t ∧ t.power.poweredDown = true ∧
      t.mdrv.running = false ∧ (∀ x ∈ t.emission.emitters, ∃ code, x.out = .hold code) ∧ t.power.phase = .pavane ∧
      t.angle = { s.angle with exc := s.angle.exc.held } ∧ t.motion.galvo = s.motion.galvo.held ∧
      t = { s with angle := t.angle, clk := t.clk, emission := t.emission, motion := t.motion, power := t.power, returns := t.returns } := by
  rw [pavanePowerDown_due h, if_pos hhvb]
  obtain ⟨hpower, hheld, hangle, hmotion, hframe⟩ :=
    State.powerDomainsDown_facts (s := s.onMdrv fun m => { m with running := false }) hlen
  refine ⟨_, rfl, ?_⟩
  generalize (s.onMdrv fun m => { m with running := false }).powerDomainsDown = t at hpower hheld hangle hmotion hframe
  refine ⟨by rw [hpower]; rfl, ?_, hheld, by rw [hpower]; exact h.1, hangle, by rw [hmotion]; rfl, ?_⟩
  · show t.motion.mdrv.running = false
    rw [hmotion]
    rfl
  · have hclk : t.clk = s.clk := (congrArg State.clk hframe :)
    have hreturns : t.returns = s.returns := (congrArg State.returns hframe :)
    rw [hclk, hreturns]
    exact hframe

/-! ### Cold starts -/

theorem porRelease_halts {st : ColdStart} (s : State) (h : st.factoryTest = true ∨ st.romOk = false) :
    ∃ t, exec (.porRelease st) s = .next t ∧
    t.power.halted = true ∧ t.executes = false ∧ t.host.waiting = [] ∧ t.clk.started = false ∧ t.sched.inhibit = 0x3E#6 ∧ Dark t ∧
    t.nvm.records = s.nvm.records ∧ t.out = s.out ∧ t.pending = s.pending :=
  ⟨_, congrArg Host.Outcome.next (if_pos (by simpa using h)), State.halted_facts st s⟩

/-- Every other cold start runs its steps after the boot ROM's check. -/
theorem porRelease_starts {st : ColdStart} (s : State) (htest : st.factoryTest = false) (hrom : st.romOk = true) :
    porRelease st s = (s.freshStart.unitItem 15 Config.bootRom).coldSteps st :=
  if_neg (by simp [htest, hrom])

/-- What either end of a cold start leaves. -/
theorem ColdEnd.facts {t : State} (h : ColdEnd t) :
    t.power.running = true ∧ t.power.halted = false ∧ t.sets.epoch = 0 ∧ t.sets.active.views = [] ∧
    t.sets.shadow.views = [] ∧ t.zone.clearA = false ∧ t.zone.clearB = false ∧
    (t.power.phase = .ready ∧ t.power.ready = true ∧ t.sched.src.getLsbD 5 = false ∨
      t.power.phase = .recovery ∧ t.sched.src.getLsbD 5 = true) := by
  cases h with
  | recovery spi hview =>
    simp only [State.coldView, ColdView.fresh, ColdView.mk.injEq] at hview
    obtain ⟨hrunning, hhalted, hphase, -, -, hsrc, -, -, -, hepoch, hactive, hshadow, hA, hB⟩ := hview
    exact ⟨hrunning, hhalted, hepoch, hactive, hshadow, hA, hB, .inr ⟨hphase, by rw [hsrc]; decide⟩⟩
  | ready hpower hsrc hsets hzone =>
    obtain ⟨hrunning, hhalted, hphase, hready⟩ := hpower
    obtain ⟨hepoch, hactive, hshadow⟩ := hsets
    exact ⟨hrunning, hhalted, hepoch, hactive, hshadow, hzone.1, hzone.2, .inl ⟨hphase, hready, by rw [hsrc]; decide⟩⟩

theorem porRelease_row {st : ColdStart} (s : State) (htest : st.factoryTest = false) (hrom : st.romOk = true) :
    ∃ t, exec (.porRelease st) s = .next t ∧
    t.power.running = true ∧ t.power.halted = false ∧ Dark t ∧ t.sets.epoch = 0 ∧ t.sets.active.views = [] ∧
    t.sets.shadow.views = [] ∧ t.zone.clearA = false ∧ t.zone.clearB = false ∧ t.pending = s.pending ∧
    (t.power.phase = .ready ∧ t.power.ready = true ∧ t.sched.src.getLsbD 5 = false ∨
      t.power.phase = .recovery ∧ t.sched.src.getLsbD 5 = true) ∧
    (st.crystalOk = false → t.power.phase = .recovery ∧ t.power.spiOnly = true) := by
  obtain ⟨hend, hdark, hcrystal⟩ :=
    State.coldSteps_end st ((State.unitItem_coldView 15 Config.bootRom s.freshStart).trans (State.freshStart_coldView s))
  have hpending := porRelease_pending st s
  have hsteps := porRelease_starts s htest hrom
  rw [← hsteps] at hend hdark hcrystal
  obtain ⟨hrunning, hhalted, hepoch, hactive, hshadow, hA, hB, hphase⟩ := hend.facts
  exact ⟨porRelease st s, rfl, hrunning, hhalted, hdark, hepoch, hactive, hshadow, hA, hB, hpending, hphase, hcrystal⟩

/-- PFAIL_RECOVER is a cold start after PFAIL's Pavane, 10 ms and a flush, and nothing otherwise (R416). -/
theorem pfailRecover_row (st : ColdStart) (s : State) :
    let may := s.power.phase = .pavane ∧ s.power.pavaneCause = .pfail ∧ s.host.journal.flushing = false ∧
      s.power.pavaneAt + 12800000 ≤ s.clk.now
    (¬ may → exec (.pfailRecover st) s = .next s) ∧ (may → exec (.pfailRecover st) s = exec (.porRelease st) s) := by
  have hiff : (s.power.phase == .pavane && s.power.pavaneCause == .pfail && !s.host.journal.flushing &&
      s.since s.power.pavaneAt (ms 10)) = true ↔ s.power.phase = .pavane ∧ s.power.pavaneCause = .pfail ∧
      s.host.journal.flushing = false ∧ s.power.pavaneAt + 12800000 ≤ s.clk.now := by
    simp [State.since_iff, ms, and_assoc]
  exact ⟨fun h => congrArg Host.Outcome.next (if_neg (mt hiff.1 h)), fun h => congrArg Host.Outcome.next (if_pos (hiff.2 h))⟩

/-- Settles O53: cold and warm starts, POWER_DOWN and Pavane's power-down, each by its row. -/
theorem startsAndPowerDown : Obligations.StartsAndPowerDown := by
  unfold Obligations.StartsAndPowerDown
  refine ⟨fun st s => porRelease_halts s, fun st s => porRelease_row s, pfailRecover_row,
    fun un dv s => ⟨fun h ok => warmStart_not h ok un dv, fun c ok hexec hreset hphase => warmStart_begins hexec hreset hphase ok un dv⟩,
    fun w s hphase hrun hw => ⟨State.warmStep_early hphase hw, State.warmStep_escalates hphase hw hrun, State.warmStep_replays hphase hw,
      fun hstep hnow c hc => State.warmStep_releases hphase hw hstep hnow hc⟩,
    standbyComparisonFail_row,
    fun c s h hown => ⟨powerDown_answered h hown, powerDown_waits h⟩,
    fun s => ⟨pavanePowerDown_early, fun h hhvb => (pavanePowerDown_due h).trans (congrArg Host.Outcome.next (if_neg hhvb)), pavanePowerDown_row⟩⟩

end Sys2Proof.Machine
